-- ==== Sys2Proof/Syntax.lean ====
section
/-! DEFINITION. The commands of the block: one constructor per row of spec/opcode_table.json, with what comes from outside as operands (an
address, a value, a frame's bytes, a measurement). Where a command stands for an event inside the device, its operands name the unit it
happens to. -/

namespace Sys2Proof

/-- One element of an image stream packet, in order of arrival (R89): an image header, which says whether the camera marks its lines; a line
marker; samples, each as sent, components of a pixel in order. -/
inductive PktItem where
  | header (marks : Bool)
  | marker
  | samples (values : List Nat)
  deriving DecidableEq, Repr

/-- An instruction of the test access port (R554): EXTEST, another boundary-scan instruction of IEEE 1149.1 or IEEE 1149.6, one of Denelm's own. -/
inductive TapOp where
  | extest | boundary | internal
  deriving DecidableEq, Repr

/-- What start-up finds in the memories: whether the HBM stacks train (R47), and the contexts whose generation is read with an uncorrectable error
(R202). -/
structure MemoryCheck where
  hbmOk : Bool
  badGens : List Nat
  deriving DecidableEq, Repr

/-- What the host writes in the function's configuration space beside its power state (R428, R431, R434): Memory Space Enable, the three 64-bit BARs,
the codes of the payload and read request sizes (128 × 2^code bytes), and the enable of the PTM requester. -/
structure PcieFunction where
  memEn : Bool := false
  bar0 : Nat := 0
  bar2 : Nat := 0
  bar4 : Nat := 0
  maxPayload : Nat := 0
  maxRead : Nat := 2
  ptmEn : Bool := false
  deriving DecidableEq, Repr

/-- What a write of configuration space leaves: Bus Master Enable (R433), the Function Mask of MSI-X (R80), and the rest. -/
structure RequestControl where
  bme : Bool
  mask : Bool
  fn : PcieFunction
  deriving DecidableEq, Repr

/-- The kind of an SMBus transfer: a write or a read, Block Read or Read Byte, with a PEC or without (R31). -/
structure SmbusKind where
  write : Bool
  block : Bool
  pec : Bool
  deriving DecidableEq, Repr

/-- A word on the register bus, and whether it reaches its block with good parity (R59, Table regs-12). -/
structure BusWord where
  value : Nat
  parityOk : Bool
  deriving DecidableEq, Repr

/-- What hardware sets in the cycle of a write: bits of BLK_IRQ_RAW and bits of BLK_PARITY (R57). -/
structure SameCycle where
  irq : Nat
  parity : Nat
  deriving DecidableEq, Repr

/-- A read of BLK_ERR_CODE: the page, the access size in bytes (R55), and the errors that arrive in the same cycle (R57). -/
structure ErrCodeRead where
  page : Nat
  size : Nat
  codes : List Nat
  deriving DecidableEq, Repr

/-- A rising edge: how long the level stays high, in ns (R90), and the quarter of the present nanosecond it falls in (R83, R408). -/
structure TrigEdge where
  high : Nat
  quarter : Nat
  deriving DecidableEq, Repr

/-- An edge of PPS_IN: its direction, and the quarter of the present nanosecond it falls in (R408, R416). -/
structure PpsEdge where
  rising : Bool
  quarter : Nat
  deriving DecidableEq, Repr

/-- A clock as its Announce messages show it: what IEEE 1588 compares of two grandmasters, the domain, and whether it follows IEEE 802.1AS (R422). -/
structure Announced where
  gm : Nat
  priority1 : Nat
  quality : Nat
  priority2 : Nat
  domain : Nat
  gptp : Bool
  deriving DecidableEq, Repr

/-- A frame at a module: its bytes, the time it stays there when it is passed on, in 0.25 ns (R336), and whether it comes from the module after it. -/
structure ModuleRx where
  bytes : List Nat
  stay : Nat
  up : Bool
  deriving DecidableEq, Repr

/-- The raw level of MOTn_Z (R360-R362, R365). -/
structure IndexLevel where
  n : Nat
  z : Bool
  deriving DecidableEq, Repr

/-- The commands. -/
inductive Instr where
  /-- PORST_ASSERT (R44). PORST_N held low for 10 µs or more resets the whole device except MRAM and OTP and breaks the Tether chain. -/
  | porstAssert
  /-- AON_UNDER_VOLTAGE (R39). VDD_AON falling below 0.70 V acts as PORST_N low. -/
  | aonUnderVoltage
  /-- PORST_RELEASE (R42). The rising edge of PORST_N latches the straps and starts the start-up sequence in BOOT. -/
  | porstRelease (bootSrc tethRoot twinSide : Nat)
  /-- STARTUP_COMPLETE (R47). Vesper completes start-up, including HBM training and SRAM initialisation, and enters IDENT. -/
  | startupComplete (readable : Nat) (single : Bool) (mem : MemoryCheck) (dlys : List Nat) (devs : List Int)
  /-- WARM_RST_N (R44). WARM_RST_N held low for 1 µs or more causes a warm reset that keeps the always-on island and the relay lanes running. -/
  | warmRstN
  /-- VESPER_WATCHDOG (R44). Expiry of the Vesper watchdog causes a warm reset. -/
  | vesperWatchdog
  /-- UNDER_VOLTAGE_RESET (R39). VDD_CORE_IN below 0.80 V or VDD_SRAM below 0.76 V for 2 µs causes an under-voltage reset. -/
  | underVoltageReset (sram : Bool)
  /-- THERMAL_TRIP (R49). Tj reaching 118 °C asserts THERM_TRIP_N and holds a warm-class reset until Tj falls to 100 °C or below. -/
  | thermalTrip (temps : List Int)
  /-- THERMAL_ALARM (R49). The hottest sensor crossing 105 °C, or falling to 100 °C, sets or clears ALARM and raises THERM_ALARM. -/
  | thermalAlarm (temps : List Int)
  /-- THROTTLE_ENTRY (R49). The hottest sensor reaching 110 °C puts every engine at point P3. -/
  | throttleEntry (temps : List Int)
  /-- THROTTLE_RELEASE (R261). The hottest sensor falling to 105 °C ends throttle, and every engine returns to its requested point. -/
  | throttleRelease (temps : List Int)
  /-- HOST_RESET (R452). PCIE_PERST_N, a hot reset or a function-level reset resets the host island, disables the queues and increments HOST_RESETS. -/
  | hostReset (perst : Bool)
  /-- PCIE_PERST_RELEASE (R48). The device begins PCIe link training and completes configuration requests with Request Retry Status until its configuration space is ready. -/
  | pciePerstRelease (speed width : Nat)
  /-- PCIE_BME_CHANGE (R433). Bus Master Enable or the D3hot state changes, which stops or resumes the requests the device issues. -/
  | pcieBmeChange (req : RequestControl) (d3 : Bool)
  /-- REFCLK_SYS_LOST (R41). No REFCLK_SYS edge for 1 µs sends the device to FAULT and stops the Meteor transmitters. -/
  | refclkSysLost
  /-- REFCLK_TIME_LOST (R411). Loss of REFCLK_TIME switches the time island to REFCLK_SYS in holdover. -/
  | refclkTimeLost
  /-- REFCLK_TIME_RETURN (R411). After 100 ms of unbroken REFCLK_TIME presence the time island switches back and resumes the servo. -/
  | refclkTimeReturn
  /-- REFCLK_LANE_LOST (R41). Loss of REFCLK_LANE unlocks every lane and every view is lost. -/
  | refclkLaneLost
  /-- REFCLK_LANE_RETURN (R41). REFCLK_LANE returns and the lanes re-adapt by themselves. -/
  | refclkLaneReturn
  /-- VESPER_SRAM_UE (R72). An uncorrectable error in Vesper's SRAM sends the device to FAULT. -/
  | vesperSramUe
  /-- VESPER_INTERNAL (R72). A Vesper INTERNAL failure sends the device to FAULT. -/
  | vesperInternal
  /-- SMBUS_READ (R31). An SMBus Read Byte or Block Read to address 0x5C returns the addressed register or the sensors, and every write is NACKed. -/
  | smbusRead (kind : SmbusKind) (code : Nat)
  /-- SMBUS_ALERT_RESPONSE (R31). A read of the Alert Response Address is answered with 0x5C. -/
  | smbusAlertResponse
  /-- ETH_MOD_PRESENT (R31). ETHe_MOD_ABS changes to present, and Vesper reads the module memory into NET_MODe_IDn. -/
  | ethModPresent (e : Nat) (bytes : List Nat)
  /-- REGISTER_WRITE (R56). A write to a register without its own row takes or refuses each field under its access type, page lock and feature. -/
  | registerWrite (addr size : Nat) (word : BusWord)
  /-- BLK_ENABLE (R60). A write of BLK_CTRL.ENABLE starts or stops a block, in the states that Table regs-7 allows. -/
  | blkEnable (page : Nat) (v : Bool)
  /-- SOFT_RESET (R60). A write of 1 to BLK_CTRL.SOFT_RESET returns the block's internal state to reset and keeps its configuration. -/
  | softReset (page : Nat)
  /-- BLK_TEST (R60). A write of BLK_CTRL.TEST connects the block's data path to its test sources, or refuses with STATE or UNSUPPORTED. -/
  | blkTest (page : Nat) (v : Bool)
  /-- FREEZE (R60). A write of BLK_CTRL.FREEZE holds or releases every value that the block adapts by itself. -/
  | freeze (page : Nat) (v : Bool)
  /-- OFFLINE_REQ (R61). A write of BLK_CTRL.OFFLINE_REQ asks the block to leave service after its work in flight, or to rejoin service. -/
  | offlineReq (page : Nat) (v : Bool)
  /-- BLOCK_OFFLINE (R61). The block finishes its work in flight and sets BLK_STAT.OFFLINE. -/
  | blockOffline (page : Nat)
  /-- BLK_IRQ_STAT_WRITE (R62). Writing 1 to a bit of BLK_IRQ_STAT clears it and the matching bit of BLK_IRQ_RAW, unless hardware sets it in the same cycle. -/
  | blkIrqStatWrite (page value : Nat) (hw : SameCycle)
  /-- BLK_ERR_CODE_READ (R64). A read of BLK_ERR_CODE returns and clears CODE and OVERRUN. -/
  | blkErrCodeRead (access : ErrCodeRead)
  /-- BLK_LOCK_WRITE (R65). A write of BLK_LOCK with KEY 0x4C4B sets or clears the page lock, and any other KEY records LOCKED. -/
  | blkLockWrite (page value : Nat)
  /-- DEV_FEAT_COMMIT (R69). A write of 1 to DEV_FEAT_COMMIT in IDENT starts validation of the accepted feature set. -/
  | devFeatCommit (value : Nat)
  /-- COMMIT_DONE (R70). Validation ends, DEV_FEAT_RESULT is written, and the device enters NEGOTIATED or stays in IDENT. -/
  | commitDone
  /-- IRQ_ROUTE_WRITE (R80). A write of IRQ_ROUTEn routes or masks sources, and a source already asserted becomes pending on its new vector. -/
  | irqRouteWrite (n value : Nat)
  /-- IRQ_REARM (R80). A write to IRQ_REARMn re-arms a vector and sends its message again at once if a routed source is pending. -/
  | irqRearm (n value : Nat)
  /-- CMD_SUBMIT (R77). A write of CMD_DOORBELL.SUBMIT latches the code and arguments, sets BUSY, and hands the command to Vesper, which checks it. -/
  | cmdSubmit (value : Nat)
  /-- CMD_TIMEOUT (R79). A command not completed in its time limit completes with TIMEOUT. -/
  | cmdTimeout
  /-- NOP (R79). Command 0x00 does nothing and completes. -/
  | nop
  /-- CONFIGURE (R16). Command 0x10 runs the admission and block checks and enters CONFIGURED. -/
  | configure
  /-- DECONFIGURE (R72). Command 0x11 returns from CONFIGURED to NEGOTIATED. -/
  | deconfigure
  /-- RENEGOTIATE (R70). Command 0x12 clears the accepted features and returns to IDENT. -/
  | renegotiate
  /-- START (R94). Command 0x20 checks R563, arms the trigger generators, takes the twin role, and enters RUNNING or TWILIGHT. -/
  | start
  /-- STOP_DRAIN (R74). STOP with ARG0 bit 0 = 0 stops the triggers and drains the rows, bodies and meteors already in flight. -/
  | stopDrain
  /-- DRAIN_COMPLETE (R74). No body remains open, queued or scheduled, so the drain ends and the device enters CONFIGURED. -/
  | drainComplete
  /-- STOP_IMMEDIATE (R75). STOP with ARG0 bit 0 = 1 stops the triggers, discards the bodies, cancels every meteor, and enters CONFIGURED. -/
  | stopImmediate
  /-- ENTER_TWILIGHT (R72). Command 0x22 moves from RUNNING to TWILIGHT and applies Table twin-4. -/
  | enterTwilight
  /-- ENTER_ECLIPSE (R524). Command 0x23 moves to ECLIPSE and applies Table twin-4. -/
  | enterEclipse
  /-- RESUME (R79). Command 0x24 moves from TWILIGHT or ECLIPSE to the target level, if the target's verdict source is usable. -/
  | resume
  /-- HANDOVER (R518). TOKEN with OP 0 makes the lead offer the token to its partner. -/
  | handover
  /-- REQUEST (R518). TOKEN with OP 1 makes a shadow ask the lead to hand the token over. -/
  | request
  /-- FORCE (R518). TOKEN with OP 2 makes a shadow or joining device take the token without its partner's agreement. -/
  | force
  /-- SERVICE_ENTER (R525). Command 0x30 hands the token over, rewinds the bodies, cancels the pulses, and enters SERVICE. -/
  | serviceEnter
  /-- SERVICE_EXIT (R79). Command 0x31 clears TEST on every page and enters CONFIGURED. -/
  | serviceExit
  /-- DEVICE_RESET (R79). Command 0x38 performs a warm reset with cause 0x3. -/
  | deviceReset
  /-- PORT_RESTART (R113). Command 0x40 restarts one camera port through link-up and completes at READY. -/
  | portRestart
  /-- LANE_ADAPT (R133). Command 0x41 without bit 9 re-adapts a lane or lane group from its present values on live data. -/
  | laneAdapt
  /-- LANE_ADAPT_RESTART (R133). Command 0x41 with bit 9 restarts a lane from presets through ACQUIRE, with training on Meridian lanes. -/
  | laneAdaptRestart
  /-- LANE_SCAN (R134). Command 0x42 measures the eye of one locked lane as a map or a fast scan. -/
  | laneScan (lost : Bool) (h v : Nat) (counts : List Nat)
  /-- ENG_SELFTEST (R263). Command 0x48 self-tests one engine, optionally with a march test of its memory. -/
  | engSelftest (logicOk memOk : Bool) (unit : Nat)
  /-- PROG_LOAD (R259). Command 0x49 checks a program image and loads it into a set of engines for a slot. -/
  | progLoad
  /-- CAL_COMMIT (R473). Command 0x50 checks a calibration record for plausibility and writes it to the free NVM slot. -/
  | calCommit
  /-- CAL_RESTORE (R476). Command 0x51 restores a calibration record to its destination table or bank. -/
  | calRestore
  /-- ISL_REPLAN (R484). Command 0x52 with ARG0 bit 0 = 0 applies the proposed VCODEs to the islands named. -/
  | islReplan (dlys : List Nat) (devs : List Int)
  /-- ISL_REPLAN_INIT (R484). Command 0x52 with ARG0 bit 0 = 1 returns the islands named to INIT. -/
  | islReplanInit (dlys : List Nat) (devs : List Int)
  /-- TIME_RECAL (R410). Command 0x53 repeats the loopback calibration of the precision islands named. -/
  | timeRecal (dlys : List Nat) (devs : List Int)
  /-- ATTEST (R559). Command 0x60 writes a signed attestation report over a nonce. -/
  | attest
  /-- FW_STAGE (R555). Command 0x61 checks an image and starts writing it into the inactive flash slot. -/
  | fwStage
  /-- FW_STAGE_DONE (R555). The staged slot is written and read back, so STAGE becomes READY or FAILED and STAGE_DONE is raised. -/
  | fwStageDone (ok : Bool)
  /-- FW_ACTIVATE (R556). Command 0x62 marks the staged slot TRIAL and performs a warm reset. -/
  | fwActivate
  /-- TRIGGER_ISSUE (R96). A generator reaches a trigger instant, sends trigger packets and TRIG_OUT, and queues trigger records, or postpones or drops the trigger. -/
  | triggerIssue (g : Nat)
  /-- TRIG_IN_EDGE (R90). A qualified rising edge on TRIG_INi paces an external-mode generator. -/
  | trigInEdge (i : Nat) (edge : TrigEdge)
  /-- TGEN_STEP_WRITE (R95). A write to TGEN_STEP takes the new step with its fraction for the triggers not yet begun. -/
  | tgenStepWrite (g step : Nat)
  /-- CXP_POWER_WAIT_EXPIRY (R84). 500 ms after power enable, the port begins discovery at CXP-1. -/
  | cxpPowerWaitExpiry (p : Nat)
  /-- CXP_DISCOVERY (R85). Discovery on connection 0 reads the camera's capabilities and sets rate and connections, or repeats after 100 ms. -/
  | cxpDiscovery (p : Nat) (answered : Bool) (rates conns : Nat)
  /-- CXP_LINK_READY (R84). Every connection has held lock for 1 ms, so the port enters READY. -/
  | cxpLinkReady (p : Nat)
  /-- CXP_LOCK_LOSS (R86). A connection loses lock, so the port enters LINK_LOST, marks pending triggers missing and completes short lines. -/
  | cxpLockLoss (p c : Nat)
  /-- CXP_RELINK (R86). With AUTO_RELINK, lock returns on every connection within 10 ms and the port returns to READY. -/
  | cxpRelink (p : Nat)
  /-- CXP_RELINK_TIMEOUT (R86). Lock does not return within 10 ms, so the port stays in LINK_LOST. -/
  | cxpRelinkTimeout (p : Nat)
  /-- CXP_PWR_FAULT (R111). CXPpp_PWR_FLT_N low for 1 µs drops PWR_EN, latches the fault and enters POWER_FAULT. -/
  | cxpPwrFault (p : Nat) (low : Bool)
  /-- POCXP_EN_WRITE (R112). A write of POCXP_EN = 1 restarts the port from POWER_WAIT, or is refused while a fault is latched. -/
  | pocxpEnWrite (p : Nat) (v : Bool)
  /-- CXP_STREAM_PACKET (R89). An image stream packet is received, delimited into lines and checked for CRC. -/
  | cxpStreamPacket (p sid arrival : Nat) (items : List PktItem) (crcOk : Bool)
  /-- CXP_EVENT_PACKET (R81). A camera event packet is counted and forwarded to the host as an event. -/
  | cxpEventPacket (p : Nat) (bytes : List Nat)
  /-- TRIGGER_MISSING (R98). An unmatched trigger passes T + LAT_MAX and is marked missing with a synthetic line. -/
  | triggerMissing (p : Nat)
  /-- BLOCK_WATCHDOG (R102). At T + WDOG_LIMIT a slot with an incomplete line is closed, and its incomplete streams become synthetic. -/
  | blockWatchdog (g : Nat)
  /-- ROW_SLOT_RELEASE (R101). Every port of a group has line k complete or synthetic, so row slot k is released in order. -/
  | rowSlotRelease (g : Nat)
  /-- CXP_CC_GO (R118). A write of GO starts a control-channel read or write transaction with the camera. -/
  | cxpCcGo (p value : Nat)
  /-- CXP_CC_ACK (R118). The camera acknowledges the transaction, so BUSY clears and CC_DONE is raised. -/
  | cxpCcAck (p code : Nat) (bytes : List Nat)
  /-- CXP_CC_TIMEOUT (R118). No acknowledgement arrives within 200 ms, so ACK = 0xFF and TIMEOUT is recorded. -/
  | cxpCcTimeout (p : Nat)
  /-- LANE_LOCK (R123). A receive lane ends ACQUIRE with LOCK set and enters ADAPT. -/
  | laneLock (l ctle : Nat)
  /-- LANE_LOCK_LOSS (R122). A 1,024-symbol interval fails the lock test, so the lane loses lock and enters ACQUIRE. -/
  | laneLockLoss (l : Nat)
  /-- LANE_ADAPT_DONE (R123). ADAPT ends after its qualifying windows, and the lane enters TRACK or HELD_POLICY. -/
  | laneAdaptDone (l : Nat)
  /-- LANE_WINDOW (R125). A 4,096-UI window ends and is judged qualifying or not, which updates the equaliser. -/
  | laneWindow (l transitions patterns ctle : Nat) (dfe : List Int)
  /-- CONTENT_HOLD_ENTRY (R126). No window has qualified for 100 µs, so the lane enters HELD_CONTENT. -/
  | contentHoldEntry (l : Nat)
  /-- CONTENT_HOLD (R126). A content hold exceeds HOLD_LONG, so CONTENT_HOLD is raised. -/
  | contentHold (l : Nat)
  /-- STEP_BOOST_END (R126). 50 ms of TRACK after a hold end, so the step limits return to normal. -/
  | stepBoostEnd (l : Nat)
  /-- LANE_MARGIN_MEASURE (R128). The 10 ms eye measurement updates LANE_MARGIN and may set MARGIN_LOW and re-adapt. -/
  | laneMarginMeasure (l v h : Nat)
  /-- MER_TRAIN_REQUEST (R129). A training block with tap requests is received, and the transmitter updates its taps and answers. -/
  | merTrainRequest (m pre main post : Nat)
  /-- MER_TRAIN_DONE (R129). Hold has been requested on all taps for 1 ms, so training ends. -/
  | merTrainDone (m : Nat)
  /-- TRAIN_FAIL (R129). Training does not end within 20 ms, so the preset taps are kept and TRAIN_FAIL is raised. -/
  | trainFail (m : Nat)
  /-- LANE_TXTAP_WRITE (R130). A write of relay taps takes effect within 1 µs, or records RANGE if they do not sum to 63. -/
  | laneTxtapWrite (l value : Nat)
  /-- LANE_TEST_EN (R131). A write of TEST_EN puts a released lane into TEST, or records STATE. -/
  | laneTestEn (l : Nat) (v : Bool)
  /-- PRBS_CHECK (R132). The PRBS checker synchronises after 64 error-free bits and counts bit errors. -/
  | prbsCheck (l : Nat) (bits : List Bool)
  /-- PRBS_CLR (R132). A write of CLR sets both PRBS counts to 0. -/
  | prbsClr (l : Nat) (errNow : Bool)
  /-- PRBS_ERR_READ (R132). A read of LANE_PRBS_ERR latches LANE_PRBS_BITS. -/
  | prbsErrRead (l : Nat)
  /-- PLL_LOSS (R135). A group's lane PLL loses lock, so PLL_LOSS is raised. -/
  | pllLoss (g : Nat)
  /-- ROW_CORRECTION (R137). A row slot reaches the correction island and passes through noise reduction, flat-field, defect replacement, focus and background stages. -/
  | rowCorrection (ue : List (Nat × Nat × Nat))
  /-- BG_AGE_TICK (R157). At a row slot whose trigger index is a multiple of 4,096, every background AGE of the group advances. -/
  | bgAgeTick (g : Nat)
  /-- ZONE_DONE (R160). A zone interval of ROWS row slots ends, so the zone records are written and SEQ increments. -/
  | zoneDone (g : Nat)
  /-- COR_SWAP_GO (R162). A write of COR_SWAP.GO requests a coefficient bank swap. -/
  | corSwapGo (value : Nat)
  /-- COR_SWAP_APPLY (R163). The swap boundary is reached, so ACTIVE toggles, PEND clears and SWAP_DONE is raised. -/
  | corSwapApply
  /-- FOC_SNAP_WRITE (R154). A write of FOC_CTRL.SNAP requests a focus snapshot. -/
  | focSnapWrite (value : Nat)
  /-- FOC_SNAPSHOT (R154). At the next row slot the focus sums are copied and cleared, and SNAP_DONE is raised. -/
  | focSnapshot
  /-- SKY_ROW_BUILD (R167). A row slot reaches the sky island and is delayed, resampled, blended, transformed and classified. -/
  | skyRowBuild (ueGeo ueSpec : Bool) (clsUe : List Nat)
  /-- AR_INTERVAL_CLOSE (R179). At a trigger index that is a multiple of ROWS, each seam's estimate is made and its sums cleared. -/
  | arIntervalClose (g : Nat)
  /-- AR_STEP_APPLY (R181). At the closing index + 16 the interval's offset steps are applied together. -/
  | arStepApply (g : Nat)
  /-- STI_OFS_WRITE (R183). A driver write of STI_OFSp takes effect at the next row, or at the timed index, and clears LIMIT. -/
  | stiOfsWrite (p value : Nat)
  /-- GEO_SWAP_GO (R188). A write of GEO_SWAP.GO checks the inactive geometry bank and requests a swap. -/
  | geoSwapGo (value : Nat)
  /-- GEO_SWAP_APPLY (R188). The geometry swap boundary is reached at the sky island. -/
  | geoSwapApply
  /-- SPEC_SWAP_GO (R188). A write of SPEC_SWAP.GO checks the inactive spectral bank and requests a swap. -/
  | specSwapGo (value : Nat)
  /-- SPEC_SWAP_APPLY (R188). The spectral and class-table swap boundary is reached. -/
  | specSwapApply
  /-- ROW_LABEL (R196). A sky row reaches segmentation, where foreground, opening and labelling open, join, merge and close bodies. -/
  | rowLabel
  /-- BODY_COMMIT (R214). A body's trajectory fields and record are written and it enters the dispatch queue, with association or Twilight rule applied. -/
  | bodyCommit
  /-- BODY_RETIRE (R203). A row slot at or after T_EJ + RETAIN retires the committed body and frees its context and crop. -/
  | bodyRetire
  /-- CTX_LOW_CLR (R218). A write of BODY_CTX_LOW.CLR sets LOW to FREE. -/
  | ctxLowClr (value : Nat)
  /-- UPPER_ENTRY_EXPIRY (R227). An upper-store entry passes T_REF + Δt_hi in lower rows and is released as an orphan. -/
  | upperEntryExpiry (g : Nat)
  /-- TRAJ_ROLE_CHANGE (R239). A lower group's ROLE changes to 3, so its partner's entries are released and the partner becomes single-plane. -/
  | trajRoleChange (g : Nat)
  /-- STORE_PEAK_CLR (R242). A write of TRAJ_STORE_PEAK.CLR sets PEAK to USED. -/
  | storePeakClr (value : Nat)
  /-- DISPATCH_TAKE (R250). An engine with a free window takes the next body of its slot in deadline order and starts its fetch, or the body is resolved at once. -/
  | dispatchTake
  /-- BODY_FETCH_DONE (R245). A body's window is filled, so the engine starts the body when its previous body has ended. -/
  | bodyFetchDone (e : Nat)
  /-- BODY_DEADLINE (R251). A body reaches its deadline without a verdict and is resolved by default on a lead, or kept running on a shadow. -/
  | bodyDeadline
  /-- GRACE_EXPIRY (R257). A shadow reaches deadline + GRACE with neither verdict nor miss record and applies cause 6. -/
  | graceExpiry
  /-- ENG_PT_REQ (R261). A write of ENG_PT.REQ queues a point change for an engine. -/
  | engPtReq (e value : Nat)
  /-- ENG_POINT_CHANGE (R261). A queued engine point change is applied, 2 µs after the previous change. -/
  | engPointChange
  /-- ENG_REJOIN (R264). An OFFLINE engine meets the rejoin conditions and returns to service. -/
  | engRejoin (e : Nat)
  /-- ENG_HW_FAULT (R265). An engine hardware fault re-dispatches the body, sets FAULT, and may withdraw the engine or reload its image. -/
  | engHwFault (e kind : Nat)
  /-- ENG_RELOAD (R267). Vesper reloads an engine image after an uncorrectable error in program or model memory. -/
  | engReload (e : Nat)
  /-- HBM_UE (R268). An uncorrectable HBM read error is counted, and 16 within 1 s set HBM_FAIL. -/
  | hbmUe
  /-- DISP_SWAP_GO (R260). A write of DISP_SWAP.GO requests a program slot swap. -/
  | dispSwapGo (value : Nat)
  /-- DISP_SWAP_APPLY (R260). The slot swap boundary in commit order is reached, so every SLOT takes its SLOT_NEXT. -/
  | dispSwapApply
  /-- DMA_TRANSFER_DONE (R290). A program DMA transfer completes and releases the stalls that wait on it. -/
  | dmaTransferDone (e ch : Nat)
  /-- ADD (R276). Scalar 64-bit wrapping addition. -/
  | add (e rd rs1 rs2 : Nat)
  /-- SUB (R276). Scalar 64-bit wrapping subtraction. -/
  | sub (e rd rs1 rs2 : Nat)
  /-- AND (R276). Scalar bitwise AND. -/
  | and (e rd rs1 rs2 : Nat)
  /-- OR (R276). Scalar bitwise OR. -/
  | or (e rd rs1 rs2 : Nat)
  /-- XOR (R276). Scalar bitwise XOR. -/
  | xor (e rd rs1 rs2 : Nat)
  /-- SHL (R276). Scalar shift left, amount modulo 64. -/
  | shl (e rd rs1 rs2 : Nat)
  /-- SHR (R276). Scalar logical shift right. -/
  | shr (e rd rs1 rs2 : Nat)
  /-- SAR (R276). Scalar arithmetic shift right. -/
  | sar (e rd rs1 rs2 : Nat)
  /-- CMPLT (R276). Scalar signed less-than compare. -/
  | cmplt (e rd rs1 rs2 : Nat)
  /-- CMPLO (R276). Scalar unsigned less-than compare. -/
  | cmplo (e rd rs1 rs2 : Nat)
  /-- MUL (R276). Low 64 bits of a scalar product. -/
  | mul (e rd rs1 rs2 : Nat)
  /-- MULHU (R276). High 64 bits of an unsigned scalar product. -/
  | mulhu (e rd rs1 rs2 : Nat)
  /-- MULHS (R276). High 64 bits of a signed scalar product. -/
  | mulhs (e rd rs1 rs2 : Nat)
  /-- QUOU (R276). Unsigned division rounded down, 0 for a zero divisor. -/
  | quou (e rd rs1 rs2 : Nat)
  /-- MODU (R276). Unsigned remainder, 0 for a zero divisor. -/
  | modu (e rd rs1 rs2 : Nat)
  /-- QUO (R276). Signed division rounded towards minus infinity, 0 for a zero divisor. -/
  | quo (e rd rs1 rs2 : Nat)
  /-- MOD (R276). Signed remainder with the sign of the divisor, 0 for a zero divisor. -/
  | mod (e rd rs1 rs2 : Nat)
  /-- MIN (R276). Scalar signed minimum. -/
  | min (e rd rs1 rs2 : Nat)
  /-- MAX (R276). Scalar signed maximum. -/
  | max (e rd rs1 rs2 : Nat)
  /-- MINU (R276). Scalar unsigned minimum. -/
  | minu (e rd rs1 rs2 : Nat)
  /-- MAXU (R276). Scalar unsigned maximum. -/
  | maxu (e rd rs1 rs2 : Nat)
  /-- CLZ (R276). Count of leading zeros of rs1. -/
  | clz (e rd rs1 : Nat)
  /-- POPC (R276). Count of set bits of rs1. -/
  | popc (e rd rs1 : Nat)
  /-- ADDI (R277). Add a sign-extended immediate. -/
  | addi (e rd rs1 imm : Nat)
  /-- ANDI (R277). AND with a zero-extended immediate. -/
  | andi (e rd rs1 imm : Nat)
  /-- ORI (R277). OR with a zero-extended immediate. -/
  | ori (e rd rs1 imm : Nat)
  /-- XORI (R277). XOR with a zero-extended immediate. -/
  | xori (e rd rs1 imm : Nat)
  /-- CMPLTI (R277). Signed compare with a sign-extended immediate. -/
  | cmplti (e rd rs1 imm : Nat)
  /-- CMPLOI (R277). Unsigned compare with a zero-extended immediate. -/
  | cmploi (e rd rs1 imm : Nat)
  /-- SHLI (R277). Shift left by an immediate amount. -/
  | shli (e rd rs1 amt : Nat)
  /-- SHRI (R277). Logical shift right by an immediate amount. -/
  | shri (e rd rs1 amt : Nat)
  /-- SARI (R277). Arithmetic shift right by an immediate amount. -/
  | sari (e rd rs1 amt : Nat)
  /-- ADDHI (R277). Add a sign-extended immediate times 65,536. -/
  | addhi (e rd rs1 imm : Nat)
  /-- LD8 (R278). Sign-extending byte load. -/
  | ld8 (e rd rs1 imm : Nat)
  /-- LD8U (R278). Zero-extending byte load. -/
  | ld8u (e rd rs1 imm : Nat)
  /-- LD16 (R278). Sign-extending halfword load. -/
  | ld16 (e rd rs1 imm : Nat)
  /-- LD16U (R278). Zero-extending halfword load. -/
  | ld16u (e rd rs1 imm : Nat)
  /-- LD32 (R278). Sign-extending word load. -/
  | ld32 (e rd rs1 imm : Nat)
  /-- LD32U (R278). Zero-extending word load. -/
  | ld32u (e rd rs1 imm : Nat)
  /-- LD64 (R278). 64-bit load. -/
  | ld64 (e rd rs1 imm : Nat)
  /-- ST8 (R278). Byte store. -/
  | st8 (e rs2 rs1 imm : Nat)
  /-- ST16 (R278). Halfword store. -/
  | st16 (e rs2 rs1 imm : Nat)
  /-- ST32 (R278). Word store. -/
  | st32 (e rs2 rs1 imm : Nat)
  /-- ST64 (R278). 64-bit store. -/
  | st64 (e rs2 rs1 imm : Nat)
  /-- BR_EQ (R279). Branch if equal. -/
  | brEq (e rs1 rs2 off : Nat)
  /-- BR_NE (R279). Branch if not equal. -/
  | brNe (e rs1 rs2 off : Nat)
  /-- BR_LT (R279). Branch if signed less. -/
  | brLt (e rs1 rs2 off : Nat)
  /-- BR_GE (R279). Branch if signed greater or equal. -/
  | brGe (e rs1 rs2 off : Nat)
  /-- BR_LO (R279). Branch if unsigned lower. -/
  | brLo (e rs1 rs2 off : Nat)
  /-- BR_HS (R279). Branch if unsigned higher or same. -/
  | brHs (e rs1 rs2 off : Nat)
  /-- CALL (R279). Saves the return address and jumps relative to PC. -/
  | call (e rd off : Nat)
  /-- JUMPR (R279). Saves the return address and jumps through a register. -/
  | jumpr (e rd rs1 imm : Nat)
  /-- VADD (R283). Vector wrapping addition. -/
  | vadd (e vd vs1 vs2 pr typ : Nat)
  /-- VSUB (R283). Vector wrapping subtraction. -/
  | vsub (e vd vs1 vs2 pr typ : Nat)
  /-- VMUL (R283). Low half of the vector product. -/
  | vmul (e vd vs1 vs2 pr typ : Nat)
  /-- VMULH (R283). High half of the signed vector product. -/
  | vmulh (e vd vs1 vs2 pr typ : Nat)
  /-- VMIN (R283). Vector signed minimum. -/
  | vmin (e vd vs1 vs2 pr typ : Nat)
  /-- VMAX (R283). Vector signed maximum. -/
  | vmax (e vd vs1 vs2 pr typ : Nat)
  /-- VMINU (R283). Vector unsigned minimum. -/
  | vminu (e vd vs1 vs2 pr typ : Nat)
  /-- VMAXU (R283). Vector unsigned maximum. -/
  | vmaxu (e vd vs1 vs2 pr typ : Nat)
  /-- VAND (R283). Vector bitwise AND. -/
  | vand (e vd vs1 vs2 pr typ : Nat)
  /-- VOR (R283). Vector bitwise OR. -/
  | vor (e vd vs1 vs2 pr typ : Nat)
  /-- VXOR (R283). Vector bitwise XOR. -/
  | vxor (e vd vs1 vs2 pr typ : Nat)
  /-- VSLL (R283). Vector shift left. -/
  | vsll (e vd vs1 vs2 pr typ : Nat)
  /-- VSRL (R283). Vector logical shift right. -/
  | vsrl (e vd vs1 vs2 pr typ : Nat)
  /-- VSRA (R283). Vector arithmetic shift right. -/
  | vsra (e vd vs1 vs2 pr typ : Nat)
  /-- VADDS (R283). Vector signed saturating addition. -/
  | vadds (e vd vs1 vs2 pr typ : Nat)
  /-- VSUBS (R283). Vector signed saturating subtraction. -/
  | vsubs (e vd vs1 vs2 pr typ : Nat)
  /-- VCMPEQ (R283). Vector equality compare into a predicate. -/
  | vcmpeq (e vd vs1 vs2 pr typ : Nat)
  /-- VCMPLT (R283). Vector signed less-than compare into a predicate. -/
  | vcmplt (e vd vs1 vs2 pr typ : Nat)
  /-- VCMPLTU (R283). Vector unsigned less-than compare into a predicate. -/
  | vcmpltu (e vd vs1 vs2 pr typ : Nat)
  /-- VSEL (R283). Selects each element from vs1 or vs2 by predicate. -/
  | vsel (e vd vs1 vs2 pr typ : Nat)
  /-- VDOT (R283). Signed int8 four-way dot products accumulated into i32 lanes. -/
  | vdot (e vd vs1 vs2 pr typ : Nat)
  /-- VDOTU (R283). Unsigned by signed int8 dot products accumulated into i32 lanes. -/
  | vdotu (e vd vs1 vs2 pr typ : Nat)
  /-- VREDSUM (R283). Signed sum of the enabled elements into a scalar. -/
  | vredsum (e rd vs1 pr typ : Nat)
  /-- VREDSUMU (R283). Unsigned sum of the enabled elements into a scalar. -/
  | vredsumu (e rd vs1 pr typ : Nat)
  /-- VREDMAX (R283). Signed maximum of the enabled elements. -/
  | vredmax (e rd vs1 pr typ : Nat)
  /-- VREDMIN (R283). Signed minimum of the enabled elements. -/
  | vredmin (e rd vs1 pr typ : Nat)
  /-- VNARROW (R283). Narrows two vectors with signed saturation. -/
  | vnarrow (e vd vs1 vs2 pr typ : Nat)
  /-- VWIDEL (R283). Sign-extends the lower half of the elements. -/
  | vwidel (e vd vs1 pr typ : Nat)
  /-- VWIDEH (R283). Sign-extends the upper half of the elements. -/
  | vwideh (e vd vs1 pr typ : Nat)
  /-- VFADD (R285). bf16 addition. -/
  | vfadd (e vd vs1 vs2 pr typ : Nat)
  /-- VFSUB (R285). bf16 subtraction. -/
  | vfsub (e vd vs1 vs2 pr typ : Nat)
  /-- VFMUL (R285). bf16 multiplication. -/
  | vfmul (e vd vs1 vs2 pr typ : Nat)
  /-- VFMA (R285). bf16 fused multiply-add. -/
  | vfma (e vd vs1 vs2 pr typ : Nat)
  /-- VFMAW (R285). bf16 products accumulated in f32. -/
  | vfmaw (e vd vs1 vs2 pr typ : Nat)
  /-- VFMAX (R285). bf16 maximum. -/
  | vfmax (e vd vs1 vs2 pr typ : Nat)
  /-- VFMIN (R285). bf16 minimum. -/
  | vfmin (e vd vs1 vs2 pr typ : Nat)
  /-- VFCVTW2B (R285). Converts f32 lanes to bf16. -/
  | vfcvtw2b (e vd vs1 vs2 pr typ : Nat)
  /-- VFCVTI2B (R285). Converts i16 lanes to bf16. -/
  | vfcvti2b (e vd vs1 pr typ : Nat)
  /-- VFCVTB2I (R285). Converts bf16 lanes to saturated i16. -/
  | vfcvtb2i (e vd vs1 pr typ : Nat)
  /-- VFCMPLT (R285). bf16 less-than compare into a predicate. -/
  | vfcmplt (e vd vs1 vs2 pr typ : Nat)
  /-- VFREDSUM (R286). Tree sum of the enabled bf16 lanes in f32. -/
  | vfredsum (e rd vs1 pr typ : Nat)
  /-- VLD (R282). Predicated 64-byte vector load. -/
  | vld (e vd rs1 pr off : Nat)
  /-- VST (R282). Predicated 64-byte vector store. -/
  | vst (e vs rs1 pr off : Nat)
  /-- VLUT (R287). Vector table lookup in local memory. -/
  | vlut (e vd vs1 rs pr typ : Nat)
  /-- VBCAST (R284). Broadcasts a scalar to every element. -/
  | vbcast (e vd rs1 typ : Nat)
  /-- VEXT (R284). Extracts one element into a scalar. -/
  | vext (e rd vs1 lane typ : Nat)
  /-- VINS (R284). Inserts a scalar into one element. -/
  | vins (e vd rs1 lane typ : Nat)
  /-- PAND (R274). Predicate AND. -/
  | pand (e pd ps1 ps2 : Nat)
  /-- POR (R274). Predicate OR. -/
  | por (e pd ps1 ps2 : Nat)
  /-- PXOR (R274). Predicate XOR. -/
  | pxor (e pd ps1 ps2 : Nat)
  /-- PNOT (R274). Predicate NOT. -/
  | pnot (e pd ps1 : Nat)
  /-- PMOVS (R274). Moves a scalar into a predicate. -/
  | pmovs (e pd rs : Nat)
  /-- PMOVP (R274). Moves a predicate into a scalar. -/
  | pmovp (e rs ps1 : Nat)
  /-- DMA_START (R288). DMA func 0 checks and starts a program transfer on a channel. -/
  | dmaStart (e rloc rrem rlen ch dir : Nat)
  /-- WAIT (R289). DMA func 1 stalls until the channel is idle. -/
  | wait (e ch : Nat)
  /-- STAT (R289). DMA func 2 reads whether the channel is busy. -/
  | stat (e rd ch : Nat)
  /-- NOP_INSTRUCTION (R275). System instruction with no effect. -/
  | nopInstruction (e : Nat)
  /-- TIME (R292). Reads DT through a bridge. -/
  | time (e rd : Nat)
  /-- CYCLE (R292). Reads the engine cycles since the body started. -/
  | cycle (e rd : Nat)
  /-- BRK (R295). Raises BREAK, so the body takes the default verdict with cause 3. -/
  | brk (e : Nat)
  /-- ABANDON (R294). Raises ABANDON, so the body takes the default verdict deterministically. -/
  | abandon (e : Nat)
  /-- VEMIT (R293). Hands the verdict to the dispatcher and ends the body. -/
  | vemit (e rs1 rs2 : Nat)
  /-- ILLEGAL_INSTRUCTION (R275). An unlisted or malformed encoding raises ILLEGAL. -/
  | illegalInstruction (e : Nat)
  /-- VERDICT_PLAN (R314). A verdict passes to the planner, which plans, joins, checks and queues the pulses of a reject and forms the VERDICT record. -/
  | verdictPlan
  /-- PRESSURE_SAMPLE (R313). Every 10 µs the manifold pressure is sampled and the pressure in force is decided. -/
  | pressureSample
  /-- PRESS_FAIL (R313). Pressure stays invalid beyond HOLD ms, so P_REF is used and PRESS_FAIL is raised. -/
  | pressFail
  /-- PLAN_SWAP_GO (R309). A write of PLAN_SWAP.GO checks the inactive valve map and requests a swap. -/
  | planSwapGo (value : Nat)
  /-- PLAN_SWAP_APPLY (R309). The valve-map swap boundary in verdict order is reached. -/
  | planSwapApply
  /-- DIVERT_RELEASE (R327). HOLD ms after the last divert condition ends, DIVERT_OUT deasserts. -/
  | divertRelease (d : Nat)
  /-- BEACON (R335). A port sends a BEACON every BEACON_INT µs with T, EPOCH and CLAIM. -/
  | beacon (n : Nat)
  /-- FIRE (R339). A FIRE frame is transmitted to complete at F − MET_LEAD, after the on-time guard, or is sent late or lost. -/
  | fire (n : Nat)
  /-- CANCEL (R345). A CANCEL frame is transmitted ahead of other frames. -/
  | cancel (n : Nat)
  /-- RANGE_EXCHANGE (R336). A RANGE beacon exchange, one of 16 spaced 100 µs apart, measures one round trip to a module. -/
  | rangeExchange (n k : Nat)
  /-- RANGING_PERIOD (R337). Every MET_RANGE.PERIOD ms the port starts ranging each module. -/
  | rangingPeriod (n : Nat)
  /-- STATUS (R342). A STATUS frame is received and acknowledges frames, completes a ranging, updates module status, or deposes a lead. -/
  | status (n : Nat) (bytes : List Nat) (t4 : Nat)
  /-- SEAT (R321). A SEAT frame is matched to a sent pulse, judged for plausibility, and may update the learned latency. -/
  | seat (n : Nat) (bytes : List Nat)
  /-- ACK_TIMEOUT (R342). A frame is unacknowledged ACK_TO µs after its transmission and is retransmitted. -/
  | ackTimeout (n k : Nat)
  /-- MOD_LOST (R343). RETRY_MAX is exhausted or no STATUS arrives for 1 ms, so the module is marked LOST. -/
  | modLost (n k : Nat)
  /-- MET_RX_LOCK_LOSS (R352). Upstream lock is lost for more than 100 µs, so the port enters DOWN. -/
  | metRxLockLoss (n : Nat)
  /-- MET_TRAINING_TIMEOUT (R353). The port is not READY 50 ms after ENABLE, so TIMEOUT is recorded. -/
  | metTrainingTimeout (n : Nat)
  /-- MET_OFFLINE (R354). The last chain on the port's valves ends, so OFFLINE is set and METn_TX is held low. -/
  | metOffline (n : Nat)
  /-- MODULE_FRAME (R345). A module accepts or discards a FIRE or CANCEL frame by SEQ and handles it per Table met-6. -/
  | moduleFrame (n k link : Nat) (rx : ModuleRx) (rated fitted : Nat)
  /-- MODULE_BEACON (R348). A module receives a beacon, sets its time, delay, SEQ base and the ownership of its links. -/
  | moduleBeacon (n k link : Nat) (bytes : List Nat)
  /-- MODULE_DRIVE_START (R346). A held pulse of the owning link reaches F and the module drives the valve. -/
  | moduleDriveStart (n k valve : Nat)
  /-- MODULE_SEAT_DETECT (R346). The armature seats and the module sends a SEAT frame. -/
  | moduleSeatDetect (n k valve time : Nat)
  /-- MODULE_NO_SEAT (R346). No seat within 10 ms, so the module sends SEAT with NO_SEAT. -/
  | moduleNoSeat (n k valve : Nat)
  /-- MODULE_LINK_WATCHDOG (R351). No valid beacon on a link for 1 ms, so the module discards that link's table and claim. -/
  | moduleLinkWatchdog (n k link : Nat)
  /-- MODULE_STATUS_SEND (R347). A module sends STATUS after handling frames or at least every 100 µs. -/
  | moduleStatusSend (n k link : Nat)
  /-- MODULE_ONTIME_GUARD (R345). A drive reaches the valve's rated maximum on-time, so the module ends it and reports FAULT_CODE 5. -/
  | moduleOntimeGuard (n k valve rated : Nat)
  /-- QUAD_COUNT (R360). A validated quadrature transition changes P, with stamping, direction, comparator hits and trigger targets. -/
  | quadCount (n : Nat) (a b z : Bool)
  /-- INDEX (R365). A validated Z edge latches P into MOT_CHn_IDX. -/
  | index (level : IndexLevel)
  /-- SSI_READ (R366). A periodic SSI read produces a new position, or an error. -/
  | ssiRead (n raw : Nat) (par low : Bool) (age : Nat)
  /-- OBSERVER_UPDATE (R368). Every 1 µs the tracking observer updates speed and acceleration. -/
  | observerUpdate (n : Nat)
  /-- STILL (R369). No count for STILL µs, so STILL is set and speed is reported 0. -/
  | still (n : Nat)
  /-- SETTLING_END (R370). 1 ÷ BW s after an observer restart, SETTLING clears. -/
  | settlingEnd (n : Nat)
  /-- MOT_CHANNEL_ENABLE (R358). EN rises on a channel and its position is initialised. -/
  | motChannelEnable (n value : Nat) (a b : Bool)
  /-- CMP_ARM (R375). A write of ARM = 1 arms a comparator and judges a target already passed. -/
  | cmpArm (c value : Nat)
  /-- POS_READ (R379). A read of MOT_CHn_POS_LO latches POS_HI, SPEED, ACCEL and STAT. -/
  | posRead (n : Nat)
  /-- HIT_T_READ (R379). A read of MOT_CMPc_HIT_T_LO latches HIT_T_HI. -/
  | hitTRead (c : Nat)
  /-- SIG_FINE_OUTPUT (R386). A channel forms a fine output, stamped in DT, and advances any fade. -/
  | sigFineOutput (n age : Nat)
  /-- SIG_XF_GO (R389). A write of SIG_CHn_XF.GO starts a fade to the other FIR bank. -/
  | sigXfGo (n value : Nat)
  /-- SIG_CHANNEL_ENABLE (R390). EN rises on a channel, which restarts from empty and settles. -/
  | sigChannelEnable (n value : Nat)
  /-- SIG_SETTLED (R390). 2 × GD_FINE cycles after enable, SETTLING clears. -/
  | sigSettled (n : Nat)
  /-- SIG_STUCK (R391). SIGn_DAT shows no change for 256 samples, so the channel becomes stale. -/
  | sigStuck (n : Nat)
  /-- SIG_OUT_READ (R386). A read of SIG_CHn_OUT latches the stamp words. -/
  | sigOutRead (n : Nat)
  /-- TRIM_GO (R395). A write of TRIM_CTRL.GO applies the staged codes now, or arms a timed apply. -/
  | trimGo (value : Nat)
  /-- TRIM_APPLY (R395). ST40 reaches TRIM_APPLY_AT and the staged codes apply. -/
  | trimApply
  /-- TRIM_SLEW_STEP (R396). Every 10 µs each NOW moves towards its CODE by at most SLEW. -/
  | trimSlewStep
  /-- TRIM_RAMP_STEP (R398). Without F_TRIM, each nonzero output ramps down by 1 code per µs. -/
  | trimRampStep
  /-- TIME_RATE_WRITE (R403). A write of TIME_RATE_HI applies a new RATE after rebasing. -/
  | timeRateWrite (value : Nat)
  /-- TIME_SET (R404). A write of TIME_SET_HI sets DT, in the states that allow it. -/
  | timeSet (value : Nat)
  /-- TIME_SLEW_WRITE (R405). A write of TIME_SLEW starts a slew. -/
  | timeSlewWrite (value : Nat)
  /-- SLEW_COMPLETE (R405). The written slew amount is absorbed and the slew ends. -/
  | slewComplete
  /-- DT_REBASE (R402). The time island rebases DT at least once per 2³⁰ ns. -/
  | dtRebase
  /-- SKEW_MEASURE (R410). Every 10 ms the loopbacks are remeasured, and SKEW_WARN may be set. -/
  | skewMeasure (devs : List Int)
  /-- SCHED_ARM (R412). A write of ARM = 1 checks a scheduler's instant against the horizon and the present. -/
  | schedArm (n value : Nat)
  /-- SCHED_ACTION (R413). A scheduler reaches its instant and performs its action. -/
  | schedAction (n : Nat)
  /-- PPS_OUT_PULSE (R415). At every whole second of DT, PPS_OUT is asserted. -/
  | ppsOutPulse
  /-- PPS_IN (R416). A PPS_IN edge is stamped and, as grandmaster, feeds the servo. -/
  | ppsIn (edge : PpsEdge)
  /-- PPS_IN_TIMEOUT (R416). 1.5 s without a PPS_IN edge, so PPS_IN_OK clears. -/
  | ppsInTimeout
  /-- ETH_FRAME_RX (R419). An Ethernet frame is received and forwarded, corrected as a transparent clock, or delivered internally. -/
  | ethFrameRx (e : Nat) (bytes : List Nat) (fcsOk : Bool) (res full : Nat)
  /-- PTP_SYNC (R422). Vesper measures offset and path delay from a Sync, runs the servo, and detects path changes. -/
  | ptpSync (port parent steps : Nat) (gm : Announced) (theta : Int) (mpd : Nat) (logS : Int)
  /-- PDELAY_MEASURE (R421). Once per second Vesper measures each port's peer delay. -/
  | pdelayMeasure (e delay : Nat)
  /-- MASTER_TIMEOUT (R424). No master is heard for 3 announce intervals, so the time page enters FREE. -/
  | masterTimeout
  /-- MAC_AGE_OUT (R419). A learned address ages out after AGE s without traffic. -/
  | macAgeOut (mac : Nat)
  /-- ETH_LINK_CHANGE (R418). An Ethernet port's link, LOS or module presence changes. -/
  | ethLinkChange (e : Nat) (link lock los modAbs : Bool)
  /-- ASYM_CLR_ALL (R427). A write of CLR_ALL empties the path table at the next measurement. -/
  | asymClrAll
  /-- PTM_DIALOG (R428). A PTM dialog pair runs every PERIOD ms or on GO. -/
  | ptmDialog (a1 a4 t32 b1 t2 : Nat)
  /-- PTM_TIMEOUT (R428). A PTM dialog without a response within 1 ms sets ERR. -/
  | ptmTimeout
  /-- TIME_NOW_READ (R430). A read of TIME_NOW_LO, TIME_PPS_IN_LO or a scheduler LAST_LO latches the other words. -/
  | timeNowRead (off : Nat)
  /-- BAR2_WRITE (R435). A host write to BAR2 is taken under its range's rules, or refused, recorded and counted. -/
  | bar2Write (off : Nat) (bytes : List Nat)
  /-- RECORD_WRITE (R443). A staged record, preceded by any GAP records, is written to a bank or the ring once there is room. -/
  | recordWrite (q : Nat)
  /-- RQ_FLUSH_TIMER (R438). FLUSH_US µs after a bank's first record, the bank is sealed. -/
  | rqFlushTimer (q : Nat)
  /-- RQ_FLUSH (R438). A write of FLUSH seals the filling bank. -/
  | rqFlush (q : Nat)
  /-- RQ_ENABLE (R453). A write of RQ_CTRL.EN starts the queue, or clears it, sealing the bank. -/
  | rqEnable (q : Nat) (v : Bool)
  /-- RQ_RELEASE (R439). A write of RELEASE_A or RELEASE_B returns a sealed bank to FREE. -/
  | rqRelease (q bank : Nat)
  /-- RQ_FAULT (R440). A driver write of FAULT_A or FAULT_B faults a bank and switches to ring mode. -/
  | rqFault (q bank : Nat)
  /-- RQ_BANK_FAULT (R440). An uncorrectable staging or parity error faults a bank. -/
  | rqBankFault (q : Nat) (parity : Bool)
  /-- RQ_RESTORE (R442). A write of RESTORE returns the queue to bank mode. -/
  | rqRestore (q : Nat)
  /-- RING_DATA_TIMER (R442). In ring mode, FLUSH_US after PI advances, RING_DATA is set. -/
  | ringDataTimer (q : Nat)
  /-- HOST_REC_GO (R447). A write of HOST_REC.GO records ROWS sky rows as ROW records. -/
  | hostRecGo (value : Nat)
  /-- DR_TAIL_WRITE (R449). A write of DR_TAIL makes new descriptors available to the ring. -/
  | drTailWrite (r value : Nat)
  /-- DESCRIPTOR_DONE (R449). A descriptor transfer ends, so RESULT is written and HEAD advances. -/
  | descriptorDone (r full : Nat)
  /-- PACK_BLOCK (R454). A block arrives at an idle PACK channel and starts compression or decompression. -/
  | packBlock (c : Nat)
  /-- PACK_BLOCK_DONE (R465). A PACK block ends, with verification, OUT_FULL or a decode error. -/
  | packBlockDone (c : Nat) (verifyOk : Bool)
  /-- PACK_SAVE (R467). A write of ST_CTRL.SAVE writes the held history to HBM. -/
  | packSave (c : Nat)
  /-- PACK_LOAD (R467). A write of ST_CTRL.LOAD replaces the history from HBM. -/
  | packLoad (c : Nat)
  /-- STATE_DONE (R467). A save or load ends and its result is written. -/
  | stateDone (c : Nat)
  /-- ILLUM_APPLY (R480). A write of CAL_ILLUM.APPLY applies the trim proposals or requests a timed tap swap. -/
  | illumApply (value : Nat)
  /-- MARGIN_WINDOW (R482). A 1 s margin window ends and an island may step its VCODE. -/
  | marginWindow (slacks canaries : List Nat)
  /-- OBS_SAMPLE (R492). A monitor takes a queued source event and bins and accumulates it. -/
  | obsSample (m : Nat)
  /-- OBS_SNAP (R495). A write of OBS_CTRL.SNAP takes an atomic snapshot of the monitors. -/
  | obsSnap (value : Nat)
  /-- OBS_PERIODIC_SNAP (R495). Every PERIOD ms a snapshot is taken. -/
  | obsPeriodicSnap
  /-- OBS_TEST_WRITE (R498). In TEST, a write of OBS_TEST feeds one sample to every enabled monitor. -/
  | obsTestWrite (value : Nat)
  /-- OBS_MONITOR_ENABLE (R494). EN rises on a monitor, which clears and starts its interval. -/
  | obsMonitorEnable (m value : Nat)
  /-- CHK_DATA_WRITE (R500). A write of CHK_DATA or CHK_DATAn queues bytes for the CRC. -/
  | chkDataWrite (c k value : Nat)
  /-- CHK_GO (R501). A write of GO starts a CRC feed from BAR2. -/
  | chkGo (c : Nat)
  /-- CHK_FEED_DONE (R501). A BAR2 feed ends with DONE, or with ERR after a read error. -/
  | chkFeedDone (c : Nat) (ue : Option Nat)
  /-- CHK_INIT (R502). A write of INIT resets the CRC register and count. -/
  | chkInit (c : Nat)
  /-- HEARTBEAT_SEND (R509). Every 10 µs a HEARTBEAT record is sent. -/
  | heartbeatSend
  /-- HEARTBEAT (R512). A HEARTBEAT is received, giving the partner's state, ACK and CFG_CHECK. -/
  | heartbeat (ws : List Nat)
  /-- PARTNER_LOST (R512). 32 µs without a valid HEARTBEAT, so the partner is declared lost. -/
  | partnerLost
  /-- FAULT_RECORD (R512). A FAULT record is received and the partner is declared lost. -/
  | faultRecord (ws : List Nat)
  /-- TOKEN_OFFER (R518). An OFFER record is received and answered with ACCEPT or REFUSE. -/
  | tokenOffer (ws : List Nat)
  /-- TOKEN_ACCEPT (R518). An ACCEPT record makes the lead become shadow and complete the handover. -/
  | tokenAccept (ws : List Nat)
  /-- TOKEN_REFUSE (R518). A REFUSE record completes the handover with PARTNER. -/
  | tokenRefuse (ws : List Nat)
  /-- TOKEN_REQUEST (R518). A REQUEST record asks the lead to hand over. -/
  | tokenRequest (ws : List Nat)
  /-- TRIG_RECORD (R108). A TRIG record queues a trigger for a relayed port, forcing a slot release if the FIFO is full. -/
  | trigRecord (ws : List Nat)
  /-- LEDGER_RECORD (R106). A LEDGER record gives a relayed line's disposition. -/
  | ledgerRecord (ws : List Nat)
  /-- SLOT_RECORD (R106). A SLOT record releases a relayed group's slot as the host did. -/
  | slotRecord (ws : List Nat)
  /-- SLOT_RECORD_TIMEOUT (R108). No SLOT record for 1 ms while sorting, so the relayed group is lost. -/
  | slotRecordTimeout (g : Nat)
  /-- MISS_RECORD (R257). A MISS record makes a shadow replace its verdict with cause 5 and withdraw the meteors. -/
  | missRecord (ws : List Nat)
  /-- LAT_RECORD (R324). A LAT record makes the shadow write a learned latency A. -/
  | latRecord (ws : List Nat)
  /-- DIGEST_SEND (R516). A row's bodies have passed deadline + GRACE, so its DIGEST record is sent. -/
  | digestSend
  /-- DIGEST_RECORD (R517). A DIGEST record is compared with the own row and verdict digests. -/
  | digestRecord (ws : List Nat)
  /-- DIGEST_TIMEOUT (R517). A received digest has no own value after 100 ms and counts as a mismatch. -/
  | digestTimeout
  /-- MERIDIAN_RETRANSMIT (R510). ACK does not advance for 20 µs, so records are retransmitted. -/
  | meridianRetransmit
  /-- LANE_WD_WRITE (R508). A write of LANE_WD withdraws a Meridian lane or returns it. -/
  | laneWdWrite (value : Nat)
  /-- START_WAIT_EXPIRY (R505). No partner is heard within START_WAIT, so the device becomes lead in HALF-SKY. -/
  | startWaitExpiry
  /-- VIEW_LOSS_TIMEOUT (R520). Every port of an own group is down for HALF_MS, so the view is lost. -/
  | viewLossTimeout (g : Nat)
  /-- JOIN_GO (R522). A write of JOIN_GO on the lead checks and arms a join. -/
  | joinGo (value : Nat)
  /-- JOIN (R522). A JOIN record arms the joining device. -/
  | join (ws : List Nat)
  /-- JOIN_BOUNDARY (R522). The join boundary is reached, so the lead begins mirroring. -/
  | joinBoundary
  /-- MIRROR (R522). A MIRROR record installs mirrored state on the joining device. -/
  | mirror (ws : List Nat)
  /-- JOIN_END (R522). A JOIN_END record ends the copy and starts catch-up. -/
  | joinEnd (ws : List Nat)
  /-- JOIN_DONE (R522). Catch-up reaches live rows, so the joiner becomes a synced shadow. -/
  | joinDone
  /-- DIG_INFO_CLR (R517). A write of TWIN_DIG_INFO.CLR rearms TWIN_DIG_FIRST. -/
  | digInfoClr (value : Nat)
  /-- ENUM (R537). An ENUM frame assigns an address and is forwarded with NEXT + 1. -/
  | enum (bytes : List Nat)
  /-- ENUM_END (R539). An ENUM_END frame completes the bridge's enumeration. -/
  | enumEnd (bytes : List Nat)
  /-- READ (R535). A Tether READ frame is served as a BAR0 read and answered. -/
  | read (bytes : List Nat)
  /-- WRITE (R535). A Tether WRITE frame is served as a BAR0 write and answered unless broadcast. -/
  | write (bytes : List Nat)
  /-- RESP (R540). A RESP frame completes the matching bridge access. -/
  | resp (bytes : List Nat)
  /-- BULK (R542). A BULK frame places 8 image bytes during a Tether boot. -/
  | bulk (bytes : List Nat)
  /-- EVENT (R541). An EVENT frame received by the bridge enters the event FIFO. -/
  | event (bytes : List Nat)
  /-- TETH_ENUM_GO (R539). A write of GO on TETH_ENUM sends one ENUM. -/
  | tethEnumGo (value : Nat)
  /-- TETH_ENUM_TIMEOUT (R539). No ENUM_END arrives within 1 ms, so TIMEOUT is recorded. -/
  | tethEnumTimeout
  /-- TETH_BR_GO (R540). A write of GO on TETH_BR_CTRL sends a bridged READ or WRITE. -/
  | tethBrGo (value : Nat)
  /-- TETH_BR_TIMEOUT (R540). No RESP arrives within 100 µs, so the access completes with TIMEOUT. -/
  | tethBrTimeout
  /-- TETH_BULK_GO (R541). A write of GO on TETH_BULK_CTRL starts sending BULK frames. -/
  | tethBulkGo (value : Nat)
  /-- TETH_BULK_DONE (R541). The last BULK frame leaves, so BR_DONE is raised. -/
  | tethBulkDone
  /-- TETH_EVT_FIFO_READ (R541). A read of TETH_EVT_FIFO removes the entry. -/
  | tethEvtFifoRead
  /-- TETH_LINK_CHANGE (R531). Clock presence on TETH_FWD_IN or TETH_RET_IN changes. -/
  | tethLinkChange (fwd ret : Bool)
  /-- BOOT_GO (R542). A write of SEC_BOOT_CTRL.GO starts the check and boot of a PCIe or Tether image. -/
  | bootGo (value : Nat) (teth : Bool)
  /-- NEXT_SRC (R545). A write of NEXT_SRC sets the boot source of the next warm-class reset. -/
  | nextSrc (value : Nat) (teth : Bool)
  /-- KEY_PROGRAM (R550). A write of SEC_KEY_PROG with PROG = 1 fuses a program key. -/
  | keyProgram (value : Nat)
  /-- KEY_REVOKE (R551). A write of SEC_KEY_PROG with REVOKE = 1 blows a revocation bit. -/
  | keyRevoke (value : Nat)
  /-- KEY_DONE (R550). Fusing ends and is read back, so BUSY clears. -/
  | keyDone (same : Bool)
  /-- SVN_COMMIT (R553). A write of SEC_SVN.COMMIT raises the SVN floor to the running SVN. -/
  | svnCommit (value : Nat)
  /-- MET_RX_LOCK (R353). A Meteor port gains word lock on METn_RX, sets RX_LOCK and proceeds with training, including the return from DOWN. -/
  | metRxLock (n : Nat)
  /-- MODULE_DRIVE_END (R345). A module reaches F + D of a held pulse and ends the drive, unless a continuation covers the boundary. -/
  | moduleDriveEnd (n k valve : Nat)
  /-- SIG_FAST_OUTPUT (R387). A signal channel forms a sinc and rank output at fs ÷ R1, updating FAST and the OVERLOAD count. -/
  | sigFastOutput (n : Nat) (bits : List Bool)
  /-- SIG_STUCK_END (R391). After 16 changes of SIGn_DAT, a stuck channel leaves STUCK and settles again. -/
  | sigStuckEnd (n : Nat)
  /-- OBS_QUEUE_TJ_TICK (R490). Every 10 µs the QUEUE source, and every 1 ms the TJ source, produces a monitor event. -/
  | obsQueueTjTick
  /-- TAP_INSTRUCTION (R554). An IEEE 1149.1 instruction arrives at the test access port and is served, or refused, according to LIFECYCLE, with EXTEST driving METn_TX. -/
  | tapInstruction (op : TapOp) (bound : Nat)
  deriving DecidableEq, Repr

end Sys2Proof
end

