-- ==== Sys2Proof/Decode.lean ====
section
/-! DEFINITION. The commands that the opcode table spells in bits: none. The block takes its commands as accesses, frames, pins and events; how each
Kreov instruction stands in a word is in Machine/Kreov, where an engine's word is compared with the command (R275). -/

namespace Sys2Proof

/-- The command that a word of `nbits` bits spells: the table gives no row any bits. -/
def decodeTableWord (nbits w : Nat) : Option Instr :=
  match nbits, w with
  | _, _ => none

end Sys2Proof
end

