-- ==== Sys2Proof/Word.lean ====
section
/-! DEFINITION. The word types of the block and their plainest arithmetic: bytes, register words, and the passage between a field's
unsigned value and the signed number it stands for (R5, R6). -/

namespace Sys2Proof

/-- One byte of device or host memory. -/
abbrev Byte := BitVec 8

/-- One 32-bit register word (R6). -/
abbrev Word := BitVec 32

/-- The signed number that the low `w` bits of `v` stand for, in two's complement (R5, "Signed fixed point m.n"). -/
def sgn (w v : Nat) : Int :=
  let u := v % 2 ^ w
  if 2 * u < 2 ^ w then (u : Int) else (u : Int) - (2 ^ w : Nat)

/-- The low `w` bits of an integer, as the unsigned value a `w`-bit field holds. -/
def uns (w : Nat) (i : Int) : Nat := (i % ((2 ^ w : Nat) : Int)).toNat

/-- The low `w` bits of `v` starting at bit `lsb`. -/
def bitsAt (v lsb w : Nat) : Nat := v / 2 ^ lsb % 2 ^ w

end Sys2Proof
end

