-- ==== Sys2Proof/Config.lean ====
section
/-! DEFINITION. What an implementation fixes and the spec leaves open: the free values, and the keys of one part. Nothing can evaluate one. -/

namespace Sys2Proof

/-- A value the spec leaves open, the `n`-th one that a run uses (log entry 3, DESIGN CHOICE). The state's counter `free` supplies `n`;
a user of the value narrows it to the width it needs. -/
opaque Config.freeValue : Nat → BitVec 64

/-- The public keys in the four firmware key slots of the OTP, fused by Denelm (R549). The spec gives no key. -/
opaque Config.firmwareKey : Nat → BitVec 256

/-- The identity seed in the OTP, which no register reads (R549). -/
opaque Config.identitySeed : BitVec 256

/-- The arrangement of the admitted configuration over which CFG_CHECK is formed (R511): from the configuration fields (by their place in the register
store) and the active table banks (by BAR2 offset). The spec names what goes in, not its order (log entry 53, DESIGN CHOICE). -/
opaque Config.configBytes : List (Nat × Nat) → List (Nat × Nat) → List Nat

/-- Where a rounding of numerator and denominator to the nearest meets a tie, whether it goes up; a function of the operands, so that both devices of
a twin round alike (R18; log entry 20, DESIGN CHOICE). -/
opaque Config.tieUp : Int → Int → Bool

/-- The same for (√a + b) / c. -/
opaque Config.rootTieDown : Nat → Int → Int → Bool

/-- Of two sky columns equally near to a camera column, whether the later is taken: by the camera column and the port's span (R147; log entry 93, DESIGN CHOICE,
DESIGN CHOICE). -/
opaque Config.laterColumn : Nat → Nat → Nat → Bool

end Sys2Proof
end

