-- ==== Sys2Proof/Machine/Num.lean ====
section
/-! DEFINITION. Exact arithmetic and byte-order helpers that the meanings share: clamps, integer square root, ST40 differences,
little-endian bytes, and the CRCs of R334, R501 and R509. -/

namespace Sys2Proof.Machine

/-- `x` held within `lo` to `hi`. -/
def clampI (lo hi x : Int) : Int := if x < lo then lo else if hi < x then hi else x

/-- `x` held within the range of a signed `w`-bit number. -/
def satS (w : Nat) (x : Int) : Int := clampI (-((2 ^ (w - 1) : Nat) : Int)) (((2 ^ (w - 1) : Nat) : Int) - 1) x

/-- `x` held within the range of an unsigned `w`-bit number. -/
def satU (w : Nat) (x : Int) : Nat := (clampI 0 (((2 ^ w : Nat) : Int) - 1) x).toNat

/-- `x + 1`, staying at the largest `w`-bit value. -/
def satInc (w x : Nat) : Nat := if x + 1 < 2 ^ w then x + 1 else 2 ^ w - 1

/-- Bits of the root still to be decided, from bit `k - 1` down. -/
def isqrtGo (v : Nat) : Nat → Nat → Nat
  | 0, r => r
  | k + 1, r => isqrtGo v k (if (r + 2 ^ k) * (r + 2 ^ k) ≤ v then r + 2 ^ k else r)

/-- The integer part of the square root of `v`, for `v` below 2^256. -/
def isqrt (v : Nat) : Nat := isqrtGo v 128 0

/-- floor((√a + b) / c) for integers with c > 0 (the root is taken exactly: only its integer part can matter). -/
def floorRoot (a : Nat) (b c : Int) : Int := ((isqrt a : Int) + b) / c

/-- `a / b` rounded to nearest, halves away from zero. -/
def divRound (a b : Int) : Int :=
  if 0 ≤ a * b then (2 * a.natAbs + b.natAbs) / (2 * b.natAbs) else -((2 * a.natAbs + b.natAbs) / (2 * b.natAbs) : Nat)

/-- The difference a − b of two ST40 values, by signed 40-bit difference (R407). -/
def st40Diff (a b : Nat) : Int := sgn 40 ((a + 2 ^ 40 - b % 2 ^ 40) % 2 ^ 40)

/-- The DT that an ST40 value stands for, seen at DT `now` (R407). -/
def st40Extend (now st : Nat) : Nat := ((now : Int) + st40Diff st now).toNat

/-- The `n` least significant bytes of `v`, least significant first (R6). -/
def leBytes : Nat → Nat → List Nat
  | 0, _ => []
  | n + 1, v => v % 256 :: leBytes n (v / 256)

/-- The number that little-endian bytes spell. -/
def leNat : List Nat → Nat
  | [] => 0
  | b :: bs => b % 256 + 256 * leNat bs

/-- The bytes of 32-bit words, each little-endian. -/
def wordsLe (ws : List Nat) : List Nat := ws.flatMap (leBytes 4)

/-- Bits of `v` reversed within `w` bits. -/
def reflect : Nat → Nat → Nat
  | 0, _ => 0
  | w + 1, v => v % 2 * 2 ^ w + reflect w (v / 2)

/-- One bit into a `w`-bit CRC register, most significant first. -/
def crcBit (w poly crc bit : Nat) : Nat :=
  let sh := crc * 2 % 2 ^ w
  if crc / 2 ^ (w - 1) % 2 = bit % 2 then sh else sh ^^^ poly

/-- One byte into a `w`-bit CRC register; with `refin` its least significant bit first. -/
def crcByte (w poly : Nat) (refin : Bool) (crc b : Nat) : Nat :=
  let v := if refin then reflect 8 b else b
  (List.range 8).foldl (fun c i => crcBit w poly c (v / 2 ^ (7 - i))) crc

/-- Bytes into a `w`-bit CRC register. -/
def crcBytes (w poly : Nat) (refin : Bool) (crc : Nat) (bs : List Nat) : Nat :=
  bs.foldl (crcByte w poly refin) crc

/-- The CRC-16 of R334: polynomial 0x1021, initial value 0xFFFF, no reflection, no inversion. -/
def crc16 (bs : List Nat) : Nat := crcBytes 16 0x1021 false 0xFFFF bs

/-- CRC-32C (R509): the reset setting of a check unit (Table obs-4). -/
def crc32c (bs : List Nat) : Nat := reflect 32 (crcBytes 32 0x1EDC6F41 true 0xFFFFFFFF bs) ^^^ 0xFFFFFFFF

/-- Bytes 0–13 of a frame of the Meteor link or the Tether chain, with its CRC-16 as bytes 14 and 15 (R334, R534). -/
def frame16 (bs : List Nat) : List Nat := bs ++ [crc16 bs / 256, crc16 bs % 256]

/-- The number of bits set among the low `w` of `v`. -/
def popCount : Nat → Nat → Nat
  | 0, _ => 0
  | w + 1, v => v % 2 + popCount w (v / 2)

/-- The least n below `k` with `p n`. -/
def findBelow (p : Nat → Bool) : Nat → Option Nat
  | 0 => none
  | k + 1 => match findBelow p k with
    | some n => some n
    | none => if p k then some k else none

/-- 1 for true, 0 for false. -/
def b2n (b : Bool) : Nat := if b then 1 else 0

/-- A list with element `i` replaced, unchanged where it has no element `i`. -/
def setAt {α : Type} : List α → Nat → α → List α
  | [], _, _ => []
  | _ :: xs, 0, y => y :: xs
  | x :: xs, i + 1, y => x :: setAt xs i y

end Sys2Proof.Machine
end

