-- ==== Sys2Proof/Machine/LineCode.lean ====
section
/-! DEFINITION. Line codes: the 8b/10b code of the Meteor frames (R333), and the PRBS patterns of the test modes (R131, R132, R354). -/

namespace Sys2Proof.Machine

/-! ### 8b/10b (R333). The spec names the code and the control characters only; the tables are the published ones (log entry 94, PRESUMED). A code
group is a number whose most significant bit, a of abcdei fghj, is sent first. -/

/-- The six-bit codes of D0 to D31 at negative running disparity. -/
def codes6 : List Nat :=
  [0b100111, 0b011101, 0b101101, 0b110001, 0b110101, 0b101001, 0b011001, 0b111000, 0b111001, 0b100101, 0b010101, 0b110100, 0b001101, 0b101100,
   0b011100, 0b010111] ++
  [0b011011, 0b100011, 0b010011, 0b110010, 0b001011, 0b101010, 0b011010, 0b111010, 0b110011, 0b100110, 0b010110, 0b110110, 0b001110, 0b101110,
   0b011110, 0b101011]

/-- The four-bit codes at negative running disparity, of data and of control characters. -/
def codes4 : List Nat := [0b1011, 0b1001, 0b0101, 0b1100, 0b1101, 0b1010, 0b0110, 0b1110]
def codes4K : List Nat := [0b1011, 0b0110, 0b1010, 0b1100, 0b1101, 0b0101, 0b1001, 0b0111]

/-- The ones among the `w` low bits. -/
def onesIn : Nat → Nat → Nat
  | 0, _ => 0
  | w + 1, v => v % 2 + onesIn w (v / 2)

/-- The six-bit half of character x (bits 4–0 of the byte) at running disparity `rd` (true: positive). -/
def code6 (rd k : Bool) (x : Nat) : Nat :=
  let c := if k && x = 28 then 0b001111 else codes6.getD x 0
  if rd && (onesIn 6 c ≠ 3 || x = 7) then 63 - c else c

/-- The four-bit half, y (bits 7–5), after the six-bit half has left the disparity `rd`. -/
def code4 (rd k : Bool) (x y : Nat) : Nat :=
  if k then (let c := codes4K.getD y 0; if rd then 15 - c else c)
  else if y = 7 && (if rd then [11, 13, 14] else [17, 18, 20]).contains x then (if rd then 0b1000 else 0b0111)
  else (let c := codes4.getD y 0; if rd && (onesIn 4 c ≠ 2 || y = 3) then 15 - c else c)

/-- The disparity after a half of `w` bits. -/
def rdAfter (rd : Bool) (w c : Nat) : Bool := if 2 * onesIn w c = w then rd else decide (w < 2 * onesIn w c)

/-- One character: the disparity after it and its ten bits. -/
def code10 (rd k : Bool) (byte : Nat) : Bool × Nat :=
  let c6 := code6 rd k (byte % 32)
  let rd6 := rdAfter rd 6 c6
  let c4 := code4 rd6 k (byte % 32) (byte / 32 % 8)
  (rdAfter rd6 4 c4, c6 * 16 + c4)

/-- Characters in a row: control (true) or data. -/
def codeRow : Bool → List (Bool × Nat) → Bool × List Nat
  | rd, [] => (rd, [])
  | rd, (k, b) :: r =>
    let c := code10 rd k b
    let rest := codeRow c.1 r
    (rest.1, c.2 :: rest.2)

/-- A frame slot on the line: K27.7, the bytes, K29.7, and the K28.5 that follows (R333). -/
def frameChars (rd : Bool) (bytes : List Nat) : Bool × List Nat :=
  codeRow rd ((true, 0xFB) :: bytes.map (fun b => (false, b)) ++ [(true, 0xFD), (true, 0xBC)])

/-- A frame slot that starts at `start`, at the running disparity that the K28.5 of `char` ns each since the slot before have left (R333, R534). -/
def slotChars (char busyTo : Nat) (rd : Bool) (start : Nat) (bytes : List Nat) : Bool × List Nat :=
  frameChars (rd != decide ((start - busyTo) / char % 2 = 1)) bytes

/-! ### PRBS patterns -/

/-- The degree of a pattern's polynomial and its other tap (R131). -/
def prbsTaps (pat : Nat) : Nat × Nat := [(0, 0), (7, 6), (9, 5), (15, 14), (23, 18), (31, 28)].getD pat (0, 0)

/-- The bit of a pattern that follows the bits `h`, newest first. -/
def prbsNext (pat : Nat) (h : List Bool) : Bool := h.getD ((prbsTaps pat).1 - 1) false != h.getD ((prbsTaps pat).2 - 1) false

/-- `n` bits of a pattern after the bits `h`: oldest first, and the bits to go on from. -/
def prbsRun (pat : Nat) : Nat → List Bool → List Bool × List Bool
  | 0, h => ([], h)
  | n + 1, h =>
    let b := prbsNext pat h
    let r := prbsRun pat n ((b :: h).take (prbsTaps pat).1)
    (b :: r.1, r.2)

/-- The bits that a generator starts from: any but all zeros, from an open value (log entry 87, DESIGN CHOICE). -/
def prbsSeed (pat free : Nat) : List Bool :=
  let w := (prbsTaps pat).1
  let seed := 1 + free % (2 ^ w - 1)
  (List.range w).map (fun i => decide (seed / 2 ^ i % 2 = 1))

/-- One bit at a checker: whether it is in error, and the bits to go on from. A bit is error-free when it follows the pattern from the bits before it;
once synchronised, the checker follows the pattern itself (R132). -/
def prbsStep (pat : Nat) (sync : Bool) (h : List Bool) (b : Bool) : Bool × List Bool :=
  let n := (prbsTaps pat).1
  let want := prbsNext pat h
  (decide (h.length < n) || !h.any id || b != want, ((if sync then want else b) :: h).take n)

end Sys2Proof.Machine
end

