-- ==== Sys2Proof/Machine/Fields.lean ====
section
/-! DEFINITION. The register fields of BAR0: one constant per field of the register tables of the spec, with the address of its register, its
place and width in the word, and its reset value. A field whose register is repeated takes the page instance `p`, the register's index `n`
and the field's index `k` in the word, each where it has one. -/

namespace Sys2Proof.Machine

/-- One register field: the BAR0 address of its register, its least significant bit, its width, its value at reset. -/
structure Fld where
  addr  : Nat
  lsb   : Nat
  width : Nat
  reset : Nat
  deriving DecidableEq, Repr

/-- The place of a field in the register store: fields of one register follow each other. -/
def Fld.key (f : Fld) : Nat := f.addr * 32 + f.lsb

/-- Page p starts at p × 0x1_0000 (R54). -/
abbrev bar0 (page off : Nat) : Nat := page * 0x1_0000 + off

/-- BAR4, placed after BAR0 in the register store: the MSI-X table at its offset 0 and the PBA at 0x2000 (Table host-2). -/
abbrev bar4 (off : Nat) : Nat := 0x400_0000 + off

/-- The always-enabled pages (Table regs-1): DEV CMD IRQ ISL TIME, HOST TETH SEC NVM, MODE. -/
def alwaysEnabled (page : Nat) : Bool :=
  page ≤ 4 || (6 ≤ page && page ≤ 9) || page = 0x91

/-- The code at which an island leaves reset: 5 mV steps from 0.65 V to the regulated point of Table pkg-16; 26 (0.780 V) on the
engines (Table eng-10). OTP holds it (R485); the numbers are the model's (log entry 12, PRESUMED). -/
def islInit (i : Nat) : Nat :=
  if i = 16 ∨ i = 95 then 0
  else if 21 ≤ i ∧ i ≤ 84 then 26
  else if 90 ≤ i ∧ i ≤ 93 then 30
  else 20

namespace F

/-! Tables regs-6 to regs-12. The common header -/

abbrev BLK_CTRL_OFFLINE_REQ (p : Nat) : Fld := ⟨bar0 p 0x0C, 4, 1, 0⟩
abbrev BLK_CTRL_TEST (p : Nat) : Fld := ⟨bar0 p 0x0C, 3, 1, 0⟩
abbrev BLK_CTRL_FREEZE (p : Nat) : Fld := ⟨bar0 p 0x0C, 2, 1, 0⟩
abbrev BLK_CTRL_SOFT_RESET (p : Nat) : Fld := ⟨bar0 p 0x0C, 1, 1, 0⟩
abbrev BLK_CTRL_ENABLE (p : Nat) : Fld := ⟨bar0 p 0x0C, 0, 1, if alwaysEnabled p then 1 else 0⟩
abbrev BLK_STAT_STATE (p : Nat) : Fld := ⟨bar0 p 0x10, 8, 8, 0⟩
abbrev BLK_STAT_TEST (p : Nat) : Fld := ⟨bar0 p 0x10, 5, 1, 0⟩
abbrev BLK_STAT_FAULT (p : Nat) : Fld := ⟨bar0 p 0x10, 4, 1, 0⟩
abbrev BLK_STAT_STALE (p : Nat) : Fld := ⟨bar0 p 0x10, 3, 1, 0⟩
abbrev BLK_STAT_OFFLINE (p : Nat) : Fld := ⟨bar0 p 0x10, 2, 1, 0⟩
abbrev BLK_STAT_BUSY (p : Nat) : Fld := ⟨bar0 p 0x10, 1, 1, 0⟩
abbrev BLK_STAT_ENABLED (p : Nat) : Fld := ⟨bar0 p 0x10, 0, 1, 0⟩
abbrev BLK_IRQ_RAW (p : Nat) : Fld := ⟨bar0 p 0x14, 0, 32, 0⟩
abbrev BLK_IRQ_EN (p : Nat) : Fld := ⟨bar0 p 0x18, 0, 32, 0⟩
abbrev BLK_IRQ_STAT (p : Nat) : Fld := ⟨bar0 p 0x1C, 0, 32, 0⟩
abbrev BLK_ERR_CODE_SEQ (p : Nat) : Fld := ⟨bar0 p 0x20, 16, 4, 0⟩
abbrev BLK_ERR_CODE_OVERRUN (p : Nat) : Fld := ⟨bar0 p 0x20, 8, 8, 0⟩
abbrev BLK_ERR_CODE_CODE (p : Nat) : Fld := ⟨bar0 p 0x20, 0, 8, 0⟩
abbrev BLK_ERR_INFO_DETAIL (p : Nat) : Fld := ⟨bar0 p 0x24, 28, 4, 0⟩
abbrev BLK_ERR_INFO_STATE (p : Nat) : Fld := ⟨bar0 p 0x24, 20, 8, 0⟩
abbrev BLK_ERR_INFO_SEQ (p : Nat) : Fld := ⟨bar0 p 0x24, 16, 4, 0⟩
abbrev BLK_ERR_INFO_ORIGIN (p : Nat) : Fld := ⟨bar0 p 0x24, 14, 2, 0⟩
abbrev BLK_ERR_INFO_WORD (p : Nat) : Fld := ⟨bar0 p 0x24, 0, 14, 0⟩
abbrev BLK_EVT_CNT_COUNT (p : Nat) : Fld := ⟨bar0 p 0x28, 0, 32, 0⟩
abbrev BLK_PARITY_SRAM_UE (p : Nat) : Fld := ⟨bar0 p 0x2C, 4, 1, 0⟩
abbrev BLK_PARITY_SRAM_CE (p : Nat) : Fld := ⟨bar0 p 0x2C, 3, 1, 0⟩
abbrev BLK_PARITY_DATA_PATH (p : Nat) : Fld := ⟨bar0 p 0x2C, 2, 1, 0⟩
abbrev BLK_PARITY_BUS_RD (p : Nat) : Fld := ⟨bar0 p 0x2C, 1, 1, 0⟩
abbrev BLK_PARITY_BUS_WR (p : Nat) : Fld := ⟨bar0 p 0x2C, 0, 1, 0⟩
abbrev BLK_LOCK_KEY (p : Nat) : Fld := ⟨bar0 p 0x30, 16, 16, 0⟩
abbrev BLK_LOCK_VESPER_LOCK (p : Nat) : Fld := ⟨bar0 p 0x30, 1, 1, 0⟩
abbrev BLK_LOCK_LOCK (p : Nat) : Fld := ⟨bar0 p 0x30, 0, 1, 0⟩
abbrev BLK_SCRATCH_SCRATCH (p : Nat) : Fld := ⟨bar0 p 0x34, 0, 32, 0⟩

/-! Table regs-15. DEV page registers -/

abbrev DEV_IDENT_PART : Fld := ⟨bar0 0 0x40, 16, 16, 0x9616⟩
abbrev DEV_IDENT_STEP_LETTER : Fld := ⟨bar0 0 0x40, 8, 8, 0x41⟩
abbrev DEV_IDENT_STEP_DIGIT : Fld := ⟨bar0 0 0x40, 0, 8, 0x01⟩
abbrev DEV_STATE_TRANS_CNT : Fld := ⟨bar0 0 0x44, 16, 16, 0⟩
abbrev DEV_STATE_PREV : Fld := ⟨bar0 0 0x44, 4, 4, 0x0⟩
abbrev DEV_STATE_STATE : Fld := ⟨bar0 0 0x44, 0, 4, 0x1⟩
abbrev DEV_STRAPS_TWIN_SIDE : Fld := ⟨bar0 0 0x48, 3, 1, 0⟩
abbrev DEV_STRAPS_TETH_ROOT : Fld := ⟨bar0 0 0x48, 2, 1, 0⟩
abbrev DEV_STRAPS_BOOT_SRC : Fld := ⟨bar0 0 0x48, 0, 2, 0⟩
abbrev DEV_RESET_CAUSE_WARM_CNT : Fld := ⟨bar0 0 0x4c, 8, 8, 0⟩
abbrev DEV_RESET_CAUSE_CAUSE : Fld := ⟨bar0 0 0x4c, 0, 4, 0x1⟩
abbrev DEV_FEAT_OFFER_OFFER (n : Nat) : Fld := ⟨bar0 0 (0x50 + 0x4 * n), 0, 32, if n = 0 then 0x02FF_FFFF else 0⟩
abbrev DRV_FEAT_ACCEPT_ACCEPT (n : Nat) : Fld := ⟨bar0 0 (0x60 + 0x4 * n), 0, 32, 0⟩
abbrev DEV_FEAT_COMMIT_COMMIT : Fld := ⟨bar0 0 0x70, 0, 1, 0⟩
abbrev DEV_FEAT_RESULT_BIT : Fld := ⟨bar0 0 0x74, 8, 8, 0⟩
abbrev DEV_FEAT_RESULT_RESULT : Fld := ⟨bar0 0 0x74, 0, 8, 0x00⟩
abbrev DEV_ENV_STAT_TJ_MAX : Fld := ⟨bar0 0 0x78, 24, 8, 0⟩
abbrev DEV_ENV_STAT_HBM_FAIL : Fld := ⟨bar0 0 0x78, 5, 1, 0⟩
abbrev DEV_ENV_STAT_THROTTLE : Fld := ⟨bar0 0 0x78, 4, 1, 0⟩
abbrev DEV_ENV_STAT_ALARM : Fld := ⟨bar0 0 0x78, 3, 1, 0⟩
abbrev DEV_ENV_STAT_CLK_LOST : Fld := ⟨bar0 0 0x78, 0, 3, 0⟩

/-! Table regs-19. CMD page registers -/

abbrev CMD_CODE_TAG : Fld := ⟨bar0 1 0x40, 16, 16, 0⟩
abbrev CMD_CODE_FLAGS : Fld := ⟨bar0 1 0x40, 8, 8, 0⟩
abbrev CMD_CODE_CODE : Fld := ⟨bar0 1 0x40, 0, 8, 0⟩
abbrev CMD_ARG_ARG (n : Nat) : Fld := ⟨bar0 1 (0x44 + 0x4 * n), 0, 32, 0⟩
abbrev CMD_DOORBELL_SUBMIT : Fld := ⟨bar0 1 0x64, 0, 1, 0⟩
abbrev CMD_STATUS_TAG : Fld := ⟨bar0 1 0x68, 16, 16, 0⟩
abbrev CMD_STATUS_RESULT : Fld := ⟨bar0 1 0x68, 8, 8, 0⟩
abbrev CMD_STATUS_BUSY : Fld := ⟨bar0 1 0x68, 0, 1, 0⟩
abbrev CMD_RET_RET (n : Nat) : Fld := ⟨bar0 1 (0x6c + 0x4 * n), 0, 32, 0⟩

/-! Table regs-21. IRQ page registers -/

abbrev IRQ_PEND_PEND (n : Nat) : Fld := ⟨bar0 2 (0x40 + 0x4 * n), 0, 32, 0⟩
abbrev IRQ_ROUTE_MASK (n k : Nat) : Fld := ⟨bar0 2 (0x80 + 0x4 * n), 7 + 8 * k, 1, 0⟩
abbrev IRQ_ROUTE_VECTOR (n k : Nat) : Fld := ⟨bar0 2 (0x80 + 0x4 * n), 8 * k, 6, 0⟩
abbrev IRQ_REARM_REARM (n : Nat) : Fld := ⟨bar0 2 (0x140 + 0x4 * n), 0, 32, 0⟩
abbrev IRQ_ARMED_ARMED (n : Nat) : Fld := ⟨bar0 2 (0x148 + 0x4 * n), 0, 32, 0xFFFF_FFFF⟩

/-! Table cam-6. Port registers -/

abbrev CXP_CTRL_GROUP (p : Nat) : Fld := ⟨bar0 (16 + p) 0x40, 12, 4, 0xF⟩
abbrev CXP_CTRL_TRIG_SRC (p : Nat) : Fld := ⟨bar0 (16 + p) 0x40, 8, 4, p⟩
abbrev CXP_CTRL_CONN (p : Nat) : Fld := ⟨bar0 (16 + p) 0x40, 6, 2, 0⟩
abbrev CXP_CTRL_RELAYED (p : Nat) : Fld := ⟨bar0 (16 + p) 0x40, 5, 1, 0⟩
abbrev CXP_CTRL_POCXP_EN (p : Nat) : Fld := ⟨bar0 (16 + p) 0x40, 4, 1, 0⟩
abbrev CXP_CTRL_AUTO_RELINK (p : Nat) : Fld := ⟨bar0 (16 + p) 0x40, 3, 1, 1⟩
abbrev CXP_LINK_HSUP (p : Nat) : Fld := ⟨bar0 (16 + p) 0x44, 16, 1, 0⟩
abbrev CXP_LINK_LOCK (p : Nat) : Fld := ⟨bar0 (16 + p) 0x44, 12, 4, 0⟩
abbrev CXP_LINK_CONN_FOUND (p : Nat) : Fld := ⟨bar0 (16 + p) 0x44, 8, 2, 0⟩
abbrev CXP_LINK_SPEED (p : Nat) : Fld := ⟨bar0 (16 + p) 0x44, 4, 4, 0x0⟩
abbrev CXP_LINK_SPEED_MAX (p : Nat) : Fld := ⟨bar0 (16 + p) 0x44, 0, 4, 0x7⟩
abbrev CXP_FORMAT_BANDS (p : Nat) : Fld := ⟨bar0 (16 + p) 0x48, 20, 2, 0⟩
abbrev CXP_FORMAT_SAMPLE_BITS (p : Nat) : Fld := ⟨bar0 (16 + p) 0x48, 16, 3, 0⟩
abbrev CXP_FORMAT_LINE_LEN (p : Nat) : Fld := ⟨bar0 (16 + p) 0x48, 0, 16, 0⟩
abbrev CXP_STREAM_ID_SID (p k : Nat) : Fld := ⟨bar0 (16 + p) 0x4c, 8 * k, 8, 0⟩
abbrev CXP_BAND_COMP_COMP (p k : Nat) : Fld := ⟨bar0 (16 + p) 0x50, 2 * k, 2, 0⟩
abbrev CXP_LAT_LAT_MAX (p : Nat) : Fld := ⟨bar0 (16 + p) 0x54, 16, 16, 0⟩
abbrev CXP_LAT_LAT_MIN (p : Nat) : Fld := ⟨bar0 (16 + p) 0x54, 0, 16, 0⟩
abbrev CXP_TRIG_OFS_OFS (p : Nat) : Fld := ⟨bar0 (16 + p) 0x58, 0, 16, 0⟩
abbrev CXP_LAST_TRIG_INDEX (p : Nat) : Fld := ⟨bar0 (16 + p) 0x5c, 0, 32, 0⟩
abbrev CXP_CNT_MATCHED_COUNT (p : Nat) : Fld := ⟨bar0 (16 + p) 0x60, 0, 32, 0⟩
abbrev CXP_CNT_MISSING_COUNT (p : Nat) : Fld := ⟨bar0 (16 + p) 0x64, 0, 32, 0⟩
abbrev CXP_CNT_EXTRA_COUNT (p : Nat) : Fld := ⟨bar0 (16 + p) 0x68, 0, 32, 0⟩
abbrev CXP_CNT_SHORT_COUNT (p : Nat) : Fld := ⟨bar0 (16 + p) 0x6c, 0, 32, 0⟩
abbrev CXP_CNT_LONG_COUNT (p : Nat) : Fld := ⟨bar0 (16 + p) 0x70, 0, 32, 0⟩
abbrev CXP_CNT_CRC_COUNT (p : Nat) : Fld := ⟨bar0 (16 + p) 0x74, 0, 32, 0⟩
abbrev CXP_CNT_OVERFLOW_COUNT (p : Nat) : Fld := ⟨bar0 (16 + p) 0x78, 0, 32, 0⟩
abbrev CXP_CNT_LATE_COUNT (p : Nat) : Fld := ⟨bar0 (16 + p) 0x7c, 0, 32, 0⟩
abbrev CXP_RELAY_RLY_ACTIVE (p : Nat) : Fld := ⟨bar0 (16 + p) 0x80, 1, 1, 0⟩
abbrev CXP_RELAY_RLY_EN (p : Nat) : Fld := ⟨bar0 (16 + p) 0x80, 0, 1, 0⟩
abbrev CXP_PWR_FLT_CNT (p : Nat) : Fld := ⟨bar0 (16 + p) 0x84, 8, 8, 0⟩
abbrev CXP_PWR_FLT_LATCH (p : Nat) : Fld := ⟨bar0 (16 + p) 0x84, 2, 1, 0⟩
abbrev CXP_PWR_FLT (p : Nat) : Fld := ⟨bar0 (16 + p) 0x84, 1, 1, 0⟩
abbrev CXP_PWR_EN_LEVEL (p : Nat) : Fld := ⟨bar0 (16 + p) 0x84, 0, 1, 0⟩
abbrev CXP_CNT_FORCED_COUNT (p : Nat) : Fld := ⟨bar0 (16 + p) 0x88, 0, 32, 0⟩

/-! Table cam-7. Control channel registers -/

abbrev CXP_CC_CMD_ACK (p : Nat) : Fld := ⟨bar0 (16 + p) 0x90, 16, 8, 0⟩
abbrev CXP_CC_CMD_LEN (p : Nat) : Fld := ⟨bar0 (16 + p) 0x90, 8, 8, 0⟩
abbrev CXP_CC_CMD_BUSY (p : Nat) : Fld := ⟨bar0 (16 + p) 0x90, 2, 1, 0⟩
abbrev CXP_CC_CMD_WRITE (p : Nat) : Fld := ⟨bar0 (16 + p) 0x90, 1, 1, 0⟩
abbrev CXP_CC_CMD_GO (p : Nat) : Fld := ⟨bar0 (16 + p) 0x90, 0, 1, 0⟩
abbrev CXP_CC_ADDR_ADDR (p : Nat) : Fld := ⟨bar0 (16 + p) 0x94, 0, 32, 0⟩
abbrev CXP_CC_BUF_DATA (p n : Nat) : Fld := ⟨bar0 (16 + p) (0x100 + 0x4 * n), 0, 32, 0⟩

/-! Table cam-8. Trigger generator registers (TGENn) -/

abbrev TGEN_CTRL_RUNNING (p : Nat) : Fld := ⟨bar0 (16 + p) 0xc0, 12, 1, 0⟩
abbrev TGEN_CTRL_RUN_AT_START (p : Nat) : Fld := ⟨bar0 (16 + p) 0xc0, 11, 1, 0⟩
abbrev TGEN_CTRL_OUT_POL (p : Nat) : Fld := ⟨bar0 (16 + p) 0xc0, 10, 1, 0⟩
abbrev TGEN_CTRL_OUT_EN (p : Nat) : Fld := ⟨bar0 (16 + p) 0xc0, 9, 1, 0⟩
abbrev TGEN_CTRL_FINE (p : Nat) : Fld := ⟨bar0 (16 + p) 0xc0, 8, 1, 0⟩
abbrev TGEN_CTRL_IN_SEL (p : Nat) : Fld := ⟨bar0 (16 + p) 0xc0, 4, 3, 0⟩
abbrev TGEN_CTRL_MOT_SEL (p : Nat) : Fld := ⟨bar0 (16 + p) 0xc0, 2, 2, 0⟩
abbrev TGEN_CTRL_MODE (p : Nat) : Fld := ⟨bar0 (16 + p) 0xc0, 0, 2, 0⟩
abbrev TGEN_STEP_STEP (p : Nat) : Fld := ⟨bar0 (16 + p) 0xc4, 0, 32, 0⟩
abbrev TGEN_STEP_FRAC_FRAC (p : Nat) : Fld := ⟨bar0 (16 + p) 0xc8, 0, 16, 0⟩
abbrev TGEN_START_LO_START_LO (p : Nat) : Fld := ⟨bar0 (16 + p) 0xcc, 0, 32, 0⟩
abbrev TGEN_START_HI_START_HI (p : Nat) : Fld := ⟨bar0 (16 + p) 0xd0, 0, 8, 0⟩
abbrev TGEN_DELAY_DELAY (p : Nat) : Fld := ⟨bar0 (16 + p) 0xd4, 0, 20, 1000⟩
abbrev TGEN_MIN_INT_MIN_INT (p : Nat) : Fld := ⟨bar0 (16 + p) 0xd8, 0, 16, 250⟩
abbrev TGEN_OUT_WIDTH_WIDTH (p : Nat) : Fld := ⟨bar0 (16 + p) 0xdc, 0, 16, 100⟩
abbrev TGEN_INDEX_INDEX (p : Nat) : Fld := ⟨bar0 (16 + p) 0xe0, 0, 32, 0⟩
abbrev TGEN_LAST_LO_DT_LO (p : Nat) : Fld := ⟨bar0 (16 + p) 0xe4, 0, 32, 0⟩
abbrev TGEN_LAST_HI_DT_HI (p : Nat) : Fld := ⟨bar0 (16 + p) 0xe8, 0, 32, 0⟩
abbrev TGEN_SKIP_DROPPED (p : Nat) : Fld := ⟨bar0 (16 + p) 0xec, 16, 16, 0⟩
abbrev TGEN_SKIP_POSTPONED (p : Nat) : Fld := ⟨bar0 (16 + p) 0xec, 0, 16, 0⟩

/-! Table cam-9. Stitch group ingest registers (group g on page 0x010 + g) -/

abbrev GRP_CTRL_REMOTE (p : Nat) : Fld := ⟨bar0 (16 + p) 0x300, 16, 1, 0⟩
abbrev GRP_CTRL_WDOG_LIMIT (p : Nat) : Fld := ⟨bar0 (16 + p) 0x300, 0, 16, 3600⟩
abbrev GRP_PORTS_PORTS (p : Nat) : Fld := ⟨bar0 (16 + p) 0x304, 0, 16, 0⟩
abbrev GRP_SLOT_INDEX (p : Nat) : Fld := ⟨bar0 (16 + p) 0x308, 0, 32, 0⟩
abbrev GRP_SYNTH_SLOTS_COUNT (p : Nat) : Fld := ⟨bar0 (16 + p) 0x30c, 0, 32, 0⟩
abbrev GRP_WDOG_CLOSE_COUNT (p : Nat) : Fld := ⟨bar0 (16 + p) 0x310, 0, 32, 0⟩

/-! Table lane-6. Group registers -/

abbrev LNG_MAP_PRESENT (p : Nat) : Fld := ⟨bar0 (32 + p) 0x40, 8, 8, if p = 12 then 0x0F else 0xFF⟩
abbrev LNG_MAP_KIND (p : Nat) : Fld := ⟨bar0 (32 + p) 0x40, 0, 2, if p < 8 then 0 else if p < 12 then 1 else 2⟩
abbrev LNG_PLL_STAT_LOSS_CNT (p : Nat) : Fld := ⟨bar0 (32 + p) 0x44, 8, 8, 0⟩
abbrev LNG_PLL_STAT_REF_OK (p : Nat) : Fld := ⟨bar0 (32 + p) 0x44, 1, 1, 0⟩
abbrev LNG_PLL_STAT_PLL_LOCK (p : Nat) : Fld := ⟨bar0 (32 + p) 0x44, 0, 1, 0⟩
abbrev LNG_ADAPT_CTRL_HOLD_LONG (p : Nat) : Fld := ⟨bar0 (32 + p) 0x48, 8, 8, 10⟩
abbrev LNG_ADAPT_CTRL_MARGIN_MIN (p : Nat) : Fld := ⟨bar0 (32 + p) 0x48, 0, 8, 40⟩
abbrev LNG_SUMMARY_MARGIN_LOW (p : Nat) : Fld := ⟨bar0 (32 + p) 0x4c, 24, 8, 0⟩
abbrev LNG_SUMMARY_PRBS_SYNC (p : Nat) : Fld := ⟨bar0 (32 + p) 0x4c, 16, 8, 0⟩
abbrev LNG_SUMMARY_HELD (p : Nat) : Fld := ⟨bar0 (32 + p) 0x4c, 8, 8, 0⟩
abbrev LNG_SUMMARY_LOCKED (p : Nat) : Fld := ⟨bar0 (32 + p) 0x4c, 0, 8, 0⟩

/-! Table lane-7. Lane registers (lane k) -/

abbrev LANE_CFG_EQ_MANUAL (p n : Nat) : Fld := ⟨bar0 (32 + p) (0x80 + 0x20 * n), 3, 1, 0⟩
abbrev LANE_CFG_LOOP_FAR (p n : Nat) : Fld := ⟨bar0 (32 + p) (0x80 + 0x20 * n), 2, 1, 0⟩
abbrev LANE_CFG_LOOP_NEAR (p n : Nat) : Fld := ⟨bar0 (32 + p) (0x80 + 0x20 * n), 1, 1, 0⟩
abbrev LANE_CFG_TEST_EN (p n : Nat) : Fld := ⟨bar0 (32 + p) (0x80 + 0x20 * n), 0, 1, 0⟩
abbrev LANE_STAT_LOCK_LOSS_CNT (p n : Nat) : Fld := ⟨bar0 (32 + p) (0x84 + 0x20 * n), 16, 8, 0⟩
abbrev LANE_STAT_READAPT_CNT (p n : Nat) : Fld := ⟨bar0 (32 + p) (0x84 + 0x20 * n), 8, 8, 0⟩
abbrev LANE_STAT_CONTENT_OK (p n : Nat) : Fld := ⟨bar0 (32 + p) (0x84 + 0x20 * n), 7, 1, 0⟩
abbrev LANE_STAT_ASTATE (p n : Nat) : Fld := ⟨bar0 (32 + p) (0x84 + 0x20 * n), 4, 3, 0⟩
abbrev LANE_STAT_CDR_LOCK (p n : Nat) : Fld := ⟨bar0 (32 + p) (0x84 + 0x20 * n), 1, 1, 0⟩
abbrev LANE_STAT_LOCK (p n : Nat) : Fld := ⟨bar0 (32 + p) (0x84 + 0x20 * n), 0, 1, 0⟩
abbrev LANE_EQ_DFE3 (p n : Nat) : Fld := ⟨bar0 (32 + p) (0x88 + 0x20 * n), 22, 6, 0⟩
abbrev LANE_EQ_DFE2 (p n : Nat) : Fld := ⟨bar0 (32 + p) (0x88 + 0x20 * n), 16, 6, 0⟩
abbrev LANE_EQ_DFE1 (p n : Nat) : Fld := ⟨bar0 (32 + p) (0x88 + 0x20 * n), 8, 8, 0⟩
abbrev LANE_EQ_CTLE (p n : Nat) : Fld := ⟨bar0 (32 + p) (0x88 + 0x20 * n), 0, 5, 8⟩
abbrev LANE_TXTAP_AMP (p n : Nat) : Fld := ⟨bar0 (32 + p) (0x8c + 0x20 * n), 24, 4, 8⟩
abbrev LANE_TXTAP_POST (p n : Nat) : Fld := ⟨bar0 (32 + p) (0x8c + 0x20 * n), 16, 5, if p = 12 then 10 else 0⟩
abbrev LANE_TXTAP_MAIN (p n : Nat) : Fld := ⟨bar0 (32 + p) (0x8c + 0x20 * n), 8, 6, if p = 12 then 49 else 63⟩
abbrev LANE_TXTAP_PRE (p n : Nat) : Fld := ⟨bar0 (32 + p) (0x8c + 0x20 * n), 0, 4, if p = 12 then 4 else 0⟩
abbrev LANE_PRBS_SYNC (p n : Nat) : Fld := ⟨bar0 (32 + p) (0x90 + 0x20 * n), 7, 1, 0⟩
abbrev LANE_PRBS_CLR (p n : Nat) : Fld := ⟨bar0 (32 + p) (0x90 + 0x20 * n), 6, 1, 0⟩
abbrev LANE_PRBS_INVERT (p n : Nat) : Fld := ⟨bar0 (32 + p) (0x90 + 0x20 * n), 5, 1, 0⟩
abbrev LANE_PRBS_CHK (p n : Nat) : Fld := ⟨bar0 (32 + p) (0x90 + 0x20 * n), 4, 1, 0⟩
abbrev LANE_PRBS_GEN (p n : Nat) : Fld := ⟨bar0 (32 + p) (0x90 + 0x20 * n), 3, 1, 0⟩
abbrev LANE_PRBS_PATTERN (p n : Nat) : Fld := ⟨bar0 (32 + p) (0x90 + 0x20 * n), 0, 3, 0⟩
abbrev LANE_PRBS_ERR_ERRORS (p n : Nat) : Fld := ⟨bar0 (32 + p) (0x94 + 0x20 * n), 0, 32, 0⟩
abbrev LANE_PRBS_BITS_BITS (p n : Nat) : Fld := ⟨bar0 (32 + p) (0x98 + 0x20 * n), 0, 32, 0⟩
abbrev LANE_MARGIN_VALID (p n : Nat) : Fld := ⟨bar0 (32 + p) (0x9c + 0x20 * n), 16, 1, 0⟩
abbrev LANE_MARGIN_H_UI64 (p n : Nat) : Fld := ⟨bar0 (32 + p) (0x9c + 0x20 * n), 8, 8, 0⟩
abbrev LANE_MARGIN_V_MV (p n : Nat) : Fld := ⟨bar0 (32 + p) (0x9c + 0x20 * n), 0, 8, 0⟩

/-! Table cor-4. COR page registers (page 0x030) -/

abbrev COR_CTRL_ZONE_EN : Fld := ⟨bar0 48 0x40, 3, 1, 0⟩
abbrev COR_CTRL_BG_EN : Fld := ⟨bar0 48 0x40, 2, 1, 0⟩
abbrev COR_CTRL_DEF_EN : Fld := ⟨bar0 48 0x40, 1, 1, 0⟩
abbrev COR_CTRL_FLAT_EN : Fld := ⟨bar0 48 0x40, 0, 1, 0⟩
abbrev COR_SWAP_SWAP_CNT : Fld := ⟨bar0 48 0x44, 8, 8, 0⟩
abbrev COR_SWAP_DT_PEND : Fld := ⟨bar0 48 0x44, 4, 1, 0⟩
abbrev COR_SWAP_ACTIVE : Fld := ⟨bar0 48 0x44, 3, 1, 0⟩
abbrev COR_SWAP_PEND : Fld := ⟨bar0 48 0x44, 2, 1, 0⟩
abbrev COR_SWAP_TIMED : Fld := ⟨bar0 48 0x44, 1, 1, 0⟩
abbrev COR_SWAP_GO : Fld := ⟨bar0 48 0x44, 0, 1, 0⟩
abbrev COR_SWAP_AT_LO_AT_LO : Fld := ⟨bar0 48 0x48, 0, 32, 0⟩
abbrev COR_SWAP_AT_HI_AT_HI : Fld := ⟨bar0 48 0x4c, 0, 8, 0⟩
abbrev COR_SWAP_DT_LO_DT_LO : Fld := ⟨bar0 48 0x50, 0, 32, 0⟩
abbrev COR_SWAP_DT_HI_DT_HI : Fld := ⟨bar0 48 0x54, 0, 32, 0⟩
abbrev COR_MASK_DIL : Fld := ⟨bar0 48 0x58, 0, 3, 2⟩
abbrev COR_MASK_LAG_LAG (k : Nat) : Fld := ⟨bar0 48 0x5c, 4 * k, 4, 0⟩
abbrev COR_BG_CFG_STALE_AGE : Fld := ⟨bar0 48 0x60, 24, 4, 15⟩
abbrev COR_BG_CFG_STEP_MAX : Fld := ⟨bar0 48 0x60, 16, 8, 16⟩
abbrev COR_BG_CFG_GATE : Fld := ⟨bar0 48 0x60, 8, 8, 0x40⟩
abbrev COR_BG_CFG_NSHIFT : Fld := ⟨bar0 48 0x60, 4, 4, 4⟩
abbrev COR_BG_CFG_SHIFT : Fld := ⟨bar0 48 0x60, 0, 4, 6⟩
abbrev COR_BG_FLOOR_N_INIT : Fld := ⟨bar0 48 0x64, 16, 12, 256⟩
abbrev COR_BG_FLOOR_N_FLOOR : Fld := ⟨bar0 48 0x64, 0, 12, 16⟩
abbrev COR_BG_ZONE_SEQ : Fld := ⟨bar0 48 0x68, 16, 16, 0⟩
abbrev COR_BG_ZONE_ROWS : Fld := ⟨bar0 48 0x68, 0, 16, 50000⟩
abbrev COR_BG_STALE_COLS : Fld := ⟨bar0 48 0x6c, 0, 21, 0⟩
abbrev COR_CNT_UNREPL_COUNT : Fld := ⟨bar0 48 0x70, 0, 32, 0⟩
abbrev COR_CNT_CLIP_COUNT : Fld := ⟨bar0 48 0x74, 0, 32, 0⟩
abbrev COR_CNT_OUTLIER_COUNT : Fld := ⟨bar0 48 0x78, 0, 32, 0⟩
abbrev COR_CNT_SWAP_LATE_COUNT : Fld := ⟨bar0 48 0x7c, 0, 32, 0⟩

/-! Table cor-5. NR page registers (page 0x031) -/

abbrev NR_CTRL_TM_EN : Fld := ⟨bar0 49 0x40, 1, 1, 0⟩
abbrev NR_CTRL_SP_EN : Fld := ⟨bar0 49 0x40, 0, 1, 0⟩
abbrev NR_PARAM_TM_SHIFT : Fld := ⟨bar0 49 0x44, 16, 3, 2⟩
abbrev NR_PARAM_TM_K : Fld := ⟨bar0 49 0x44, 8, 8, 0x30⟩
abbrev NR_PARAM_SP_K : Fld := ⟨bar0 49 0x44, 0, 8, 0x20⟩
abbrev NR_MODEL_K (n : Nat) : Fld := ⟨bar0 49 (0x100 + 0x4 * n), 12, 16, 0x0100⟩
abbrev NR_MODEL_READ (n : Nat) : Fld := ⟨bar0 49 (0x100 + 0x4 * n), 0, 12, 16⟩

/-! Table cor-6. FOC page registers (page 0x032) -/

abbrev FOC_CTRL_SEQ : Fld := ⟨bar0 50 0x40, 16, 16, 0⟩
abbrev FOC_CTRL_SNAP : Fld := ⟨bar0 50 0x40, 0, 1, 0⟩
abbrev FOC_MIN_STEP_MIN_STEP : Fld := ⟨bar0 50 0x44, 0, 16, 2048⟩
abbrev FOC_BAND_BAND (k : Nat) : Fld := ⟨bar0 50 0x48, 2 * k, 2, 0⟩
abbrev FOC_SEL_PORT : Fld := ⟨bar0 50 0x4c, 0, 4, 0⟩
abbrev FOC_SUM_SUM (n : Nat) : Fld := ⟨bar0 50 (0x80 + 0x4 * n), 0, 32, 0⟩
abbrev FOC_EDGES_EDGES (n : Nat) : Fld := ⟨bar0 50 (0xc0 + 0x4 * n), 0, 32, 0⟩

/-! Table sky-7. GEO page registers (page 0x033) -/

abbrev GEO_CTRL_KERNEL : Fld := ⟨bar0 51 0x40, 0, 2, 0⟩
abbrev GEO_SWAP_SWAP_CNT : Fld := ⟨bar0 51 0x44, 8, 8, 0⟩
abbrev GEO_SWAP_DT_PEND : Fld := ⟨bar0 51 0x44, 4, 1, 0⟩
abbrev GEO_SWAP_ACTIVE : Fld := ⟨bar0 51 0x44, 3, 1, 0⟩
abbrev GEO_SWAP_PEND : Fld := ⟨bar0 51 0x44, 2, 1, 0⟩
abbrev GEO_SWAP_TIMED : Fld := ⟨bar0 51 0x44, 1, 1, 0⟩
abbrev GEO_SWAP_GO : Fld := ⟨bar0 51 0x44, 0, 1, 0⟩
abbrev GEO_SWAP_AT_LO_AT_LO : Fld := ⟨bar0 51 0x48, 0, 32, 0⟩
abbrev GEO_SWAP_AT_HI_AT_HI : Fld := ⟨bar0 51 0x4c, 0, 8, 0⟩
abbrev GEO_SWAP_DT_LO_DT_LO : Fld := ⟨bar0 51 0x50, 0, 32, 0⟩
abbrev GEO_SWAP_DT_HI_DT_HI : Fld := ⟨bar0 51 0x54, 0, 32, 0⟩
abbrev GEO_DEPTH0_DEPTH (k : Nat) : Fld := ⟨bar0 51 0x58, 4 * k, 4, 2⟩
abbrev GEO_DEPTH1_DEPTH (k : Nat) : Fld := ⟨bar0 51 0x5c, 4 * k, 4, 2⟩
abbrev GEO_CNT_ABSENT_COUNT : Fld := ⟨bar0 51 0x60, 0, 32, 0⟩
abbrev GEO_CNT_SWAP_LATE_COUNT : Fld := ⟨bar0 51 0x64, 0, 32, 0⟩

/-! Table sky-8. STI page registers (page 0x034) -/

abbrev STI_GRP_BLEND_HARD (n : Nat) : Fld := ⟨bar0 52 (0x40 + 0x4 * n), 20, 1, 0⟩
abbrev STI_GRP_ANCHOR (n : Nat) : Fld := ⟨bar0 52 (0x40 + 0x4 * n), 16, 4, 0xF⟩
abbrev STI_GRP_WIDTH_M1 (n : Nat) : Fld := ⟨bar0 52 (0x40 + 0x4 * n), 0, 16, 0⟩
abbrev STI_AR_CTRL_OFS_TIMED : Fld := ⟨bar0 52 0x60, 25, 1, 0⟩
abbrev STI_AR_CTRL_AR_EN : Fld := ⟨bar0 52 0x60, 24, 1, 0⟩
abbrev STI_AR_CTRL_GAIN : Fld := ⟨bar0 52 0x60, 16, 8, 0x40⟩
abbrev STI_AR_CTRL_ROWS : Fld := ⟨bar0 52 0x60, 0, 16, 4096⟩
abbrev STI_AR_LIM_REJECT : Fld := ⟨bar0 52 0x64, 20, 8, 32⟩
abbrev STI_AR_LIM_OFS_LIMIT : Fld := ⟨bar0 52 0x64, 8, 12, 1024⟩
abbrev STI_AR_LIM_STEP_MAX : Fld := ⟨bar0 52 0x64, 0, 8, 8⟩
abbrev STI_AR_EDGE_MIN_EDGES : Fld := ⟨bar0 52 0x68, 16, 16, 64⟩
abbrev STI_AR_EDGE_EDGE_MIN : Fld := ⟨bar0 52 0x68, 0, 16, 1024⟩
abbrev STI_AR_BAND_BAND (k : Nat) : Fld := ⟨bar0 52 0x6c, 2 * k, 2, 0⟩
abbrev STI_OFS_AT_INDEX : Fld := ⟨bar0 52 0x70, 0, 32, 0⟩
abbrev STI_AR_STAT_REJECTS : Fld := ⟨bar0 52 0x74, 16, 16, 0⟩
abbrev STI_AR_STAT_STEPS : Fld := ⟨bar0 52 0x74, 0, 16, 0⟩
abbrev STI_AR_STAT2_LOW_EDGE : Fld := ⟨bar0 52 0x78, 0, 16, 0⟩
abbrev STI_OFS_LIMIT (n : Nat) : Fld := ⟨bar0 52 (0x80 + 0x4 * n), 16, 1, 0⟩
abbrev STI_OFS_OFS (n : Nat) : Fld := ⟨bar0 52 (0x80 + 0x4 * n), 0, 16, 0⟩
abbrev STI_DELTA_EDGES (n : Nat) : Fld := ⟨bar0 52 (0xc0 + 0x4 * n), 16, 16, 0⟩
abbrev STI_DELTA_DELTA (n : Nat) : Fld := ⟨bar0 52 (0xc0 + 0x4 * n), 0, 16, 0⟩

/-! Table sky-9. SPEC page registers (page 0x035) -/

abbrev SPEC_CTRL_EN : Fld := ⟨bar0 53 0x40, 0, 8, 0⟩
abbrev SPEC_SWAP_SWAP_CNT : Fld := ⟨bar0 53 0x44, 8, 8, 0⟩
abbrev SPEC_SWAP_DT_PEND : Fld := ⟨bar0 53 0x44, 4, 1, 0⟩
abbrev SPEC_SWAP_ACTIVE : Fld := ⟨bar0 53 0x44, 3, 1, 0⟩
abbrev SPEC_SWAP_PEND : Fld := ⟨bar0 53 0x44, 2, 1, 0⟩
abbrev SPEC_SWAP_TIMED : Fld := ⟨bar0 53 0x44, 1, 1, 0⟩
abbrev SPEC_SWAP_GO : Fld := ⟨bar0 53 0x44, 0, 1, 0⟩
abbrev SPEC_SWAP_AT_LO_AT_LO : Fld := ⟨bar0 53 0x48, 0, 32, 0⟩
abbrev SPEC_SWAP_AT_HI_AT_HI : Fld := ⟨bar0 53 0x4c, 0, 8, 0⟩
abbrev SPEC_SWAP_DT_LO_DT_LO : Fld := ⟨bar0 53 0x50, 0, 32, 0⟩
abbrev SPEC_SWAP_DT_HI_DT_HI : Fld := ⟨bar0 53 0x54, 0, 32, 0⟩
abbrev SPEC_CNT_CLAMP_COUNT : Fld := ⟨bar0 53 0x58, 0, 32, 0⟩
abbrev SPEC_CNT_SWAP_LATE_COUNT : Fld := ⟨bar0 53 0x5c, 0, 32, 0⟩
abbrev SPEC_PROBE_INACTIVE : Fld := ⟨bar0 53 0x60, 24, 8, 0⟩
abbrev SPEC_PROBE_ACTIVE : Fld := ⟨bar0 53 0x60, 16, 8, 0⟩
abbrev SPEC_PROBE_INDEX : Fld := ⟨bar0 53 0x60, 0, 16, 0⟩

/-! Table seg-7. SEG page registers (page 0x036) -/

abbrev SEG_CTRL_OPEN_EN : Fld := ⟨bar0 54 0x40, 0, 1, 1⟩
abbrev SEG_THR_FIX : Fld := ⟨bar0 54 0x44, 16, 16, 4096⟩
abbrev SEG_THR_K : Fld := ⟨bar0 54 0x44, 0, 8, 0x60⟩
abbrev SEG_GRP_AREA_MIN (n : Nat) : Fld := ⟨bar0 54 (0x50 + 0x4 * n), 16, 16, 0⟩
abbrev SEG_GRP_SYNTH_MAX (n : Nat) : Fld := ⟨bar0 54 (0x50 + 0x4 * n), 8, 8, 4⟩
abbrev SEG_GRP_REJ_TRUNC_R (n : Nat) : Fld := ⟨bar0 54 (0x50 + 0x4 * n), 5, 1, 0⟩
abbrev SEG_GRP_REJ_TRUNC_L (n : Nat) : Fld := ⟨bar0 54 (0x50 + 0x4 * n), 4, 1, 0⟩
abbrev SEG_GRP_DIST_BANDS (n : Nat) : Fld := ⟨bar0 54 (0x50 + 0x4 * n), 0, 4, 0xF⟩
abbrev SEG_LIMITS_HEIGHT_MAX : Fld := ⟨bar0 54 0x70, 16, 13, 4096⟩
abbrev SEG_LIMITS_WIDTH_MAX : Fld := ⟨bar0 54 0x70, 0, 11, 1024⟩
abbrev SEG_STAT_ADAPTIVE : Fld := ⟨bar0 54 0x74, 0, 1, 0⟩
abbrev SEG_CNT_DIFF_COUNT : Fld := ⟨bar0 54 0x78, 0, 32, 0⟩
abbrev SEG_CNT_OPENED_COUNT : Fld := ⟨bar0 54 0x7c, 0, 32, 0⟩
abbrev SEG_CNT_SPLIT_W_COUNT : Fld := ⟨bar0 54 0x80, 0, 32, 0⟩
abbrev SEG_CNT_SPLIT_ROWS_COUNT : Fld := ⟨bar0 54 0x84, 0, 32, 0⟩
abbrev SEG_CNT_OPENS_COUNT : Fld := ⟨bar0 54 0x88, 0, 32, 0⟩
abbrev SEG_CNT_MERGES_COUNT : Fld := ⟨bar0 54 0x8c, 0, 32, 0⟩

/-! Table seg-8. BODY page registers (page 0x037) -/

abbrev BODY_CTRL_RETAIN : Fld := ⟨bar0 55 0x40, 0, 16, 2000⟩
abbrev BODY_CTX_STAT_FREE : Fld := ⟨bar0 55 0x44, 0, 19, 262144⟩
abbrev BODY_CTX_LOW_CLR : Fld := ⟨bar0 55 0x48, 31, 1, 0⟩
abbrev BODY_CTX_LOW_LOW : Fld := ⟨bar0 55 0x48, 0, 19, 262144⟩
abbrev BODY_CTX_WARN_WARN : Fld := ⟨bar0 55 0x4c, 0, 19, 16384⟩
abbrev BODY_CROP_SHIFT (n : Nat) : Fld := ⟨bar0 55 (0x50 + 0x4 * n), 4, 4, 8⟩
abbrev BODY_CROP_DEC (n : Nat) : Fld := ⟨bar0 55 (0x50 + 0x4 * n), 2, 2, 0⟩
abbrev BODY_CROP_SIZE (n : Nat) : Fld := ⟨bar0 55 (0x50 + 0x4 * n), 0, 2, 1⟩
abbrev BODY_CROP_POOL0_MEDIUM : Fld := ⟨bar0 55 0x70, 16, 16, 0⟩
abbrev BODY_CROP_POOL0_SMALL : Fld := ⟨bar0 55 0x70, 0, 16, 30720⟩
abbrev BODY_CROP_POOL1_LARGE : Fld := ⟨bar0 55 0x74, 0, 16, 0⟩
abbrev BODY_CROP_FREE0_MEDIUM : Fld := ⟨bar0 55 0x78, 16, 16, 0⟩
abbrev BODY_CROP_FREE0_SMALL : Fld := ⟨bar0 55 0x78, 0, 16, 30720⟩
abbrev BODY_CROP_FREE1_LARGE : Fld := ⟨bar0 55 0x7c, 0, 16, 0⟩
abbrev BODY_Q_DEPTH_DEPTH : Fld := ⟨bar0 55 0x80, 0, 19, 0⟩
abbrev BODY_Q_HEAD_BODY_ID : Fld := ⟨bar0 55 0x84, 0, 32, 0⟩
abbrev BODY_COMMIT_SEQ_COUNT : Fld := ⟨bar0 55 0x88, 0, 32, 0⟩
abbrev BODY_CNT_REW_PARITY_COUNT : Fld := ⟨bar0 55 0x90, 0, 32, 0⟩
abbrev BODY_CNT_REW_SYNTH_COUNT : Fld := ⟨bar0 55 0x94, 0, 32, 0⟩
abbrev BODY_CNT_REW_TRUNC_COUNT : Fld := ⟨bar0 55 0x98, 0, 32, 0⟩
abbrev BODY_CNT_REW_STOP_COUNT : Fld := ⟨bar0 55 0x9c, 0, 32, 0⟩
abbrev BODY_CNT_SMALL_COUNT : Fld := ⟨bar0 55 0xa0, 0, 32, 0⟩
abbrev BODY_CNT_CTX_FULL_COUNT : Fld := ⟨bar0 55 0xa4, 0, 32, 0⟩
abbrev BODY_CNT_CROP_FULL_COUNT : Fld := ⟨bar0 55 0xa8, 0, 32, 0⟩
abbrev BODY_CNT_RETIRED_COUNT : Fld := ⟨bar0 55 0xac, 0, 32, 0⟩

/-! Table traj-3. TRAJ page registers (page 0x038) -/

abbrev TRAJ_CTRL_AREA_RATIO : Fld := ⟨bar0 56 0x40, 24, 8, 0x20⟩
abbrev TRAJ_CTRL_AMBIG : Fld := ⟨bar0 56 0x40, 16, 8, 0x04⟩
abbrev TRAJ_CTRL_AVG_SHIFT : Fld := ⟨bar0 56 0x40, 12, 4, 6⟩
abbrev TRAJ_CTRL_AVG_MIN : Fld := ⟨bar0 56 0x40, 0, 12, 256⟩
abbrev TRAJ_GRAV_G : Fld := ⟨bar0 56 0x44, 0, 32, 9806650⟩
abbrev TRAJ_VLIM_VY_MAX : Fld := ⟨bar0 56 0x48, 16, 16, 10000⟩
abbrev TRAJ_VLIM_VY_MIN : Fld := ⟨bar0 56 0x48, 0, 16, 2000⟩
abbrev TRAJ_WIN_TNORM : Fld := ⟨bar0 56 0x4c, 16, 16, 500⟩
abbrev TRAJ_WIN_XWIN : Fld := ⟨bar0 56 0x4c, 0, 16, 2000⟩
abbrev TRAJ_STORE_STAT_USED : Fld := ⟨bar0 56 0x50, 0, 17, 0⟩
abbrev TRAJ_STORE_PEAK_CLR : Fld := ⟨bar0 56 0x54, 31, 1, 0⟩
abbrev TRAJ_STORE_PEAK_PEAK : Fld := ⟨bar0 56 0x54, 0, 17, 0⟩
abbrev TRAJ_CNT_ASSOC_COUNT : Fld := ⟨bar0 56 0x60, 0, 32, 0⟩
abbrev TRAJ_CNT_NONE_COUNT : Fld := ⟨bar0 56 0x64, 0, 32, 0⟩
abbrev TRAJ_CNT_AMBIG_COUNT : Fld := ⟨bar0 56 0x68, 0, 32, 0⟩
abbrev TRAJ_CNT_INELIG_COUNT : Fld := ⟨bar0 56 0x6c, 0, 32, 0⟩
abbrev TRAJ_CNT_ORPHAN_COUNT : Fld := ⟨bar0 56 0x70, 0, 32, 0⟩
abbrev TRAJ_CNT_STOREFULL_COUNT : Fld := ⟨bar0 56 0x74, 0, 32, 0⟩
abbrev TRAJ_CNT_SINGLE_COUNT : Fld := ⟨bar0 56 0x78, 0, 32, 0⟩
abbrev TRAJ_GCFG_EXP_OFS (n : Nat) : Fld := ⟨bar0 56 (0x100 + 0x20 * n), 16, 16, 0⟩
abbrev TRAJ_GCFG_PARTNER (n : Nat) : Fld := ⟨bar0 56 (0x100 + 0x20 * n), 3, 3, 0⟩
abbrev TRAJ_GCFG_ROLE (n : Nat) : Fld := ⟨bar0 56 (0x100 + 0x20 * n), 0, 2, 0⟩
abbrev TRAJ_GHEIGHT_HEIGHT (n : Nat) : Fld := ⟨bar0 56 (0x104 + 0x20 * n), 0, 32, 0⟩
abbrev TRAJ_GPITCH_PITCH (n : Nat) : Fld := ⟨bar0 56 (0x108 + 0x20 * n), 0, 32, 0x0064_0000⟩
abbrev TRAJ_GORIGIN_ORIGIN (n : Nat) : Fld := ⟨bar0 56 (0x10c + 0x20 * n), 0, 32, 0⟩
abbrev TRAJ_VY_AVG_VY_AVG (n : Nat) : Fld := ⟨bar0 56 (0x110 + 0x20 * n), 0, 32, 0x1388_0000⟩
abbrev TRAJ_VX_AVG_VX_AVG (n : Nat) : Fld := ⟨bar0 56 (0x114 + 0x20 * n), 0, 32, 0⟩
abbrev TRAJ_GSTAT_RUN (n : Nat) : Fld := ⟨bar0 56 (0x118 + 0x20 * n), 16, 16, 0⟩
abbrev TRAJ_GSTAT_AVG_N (n : Nat) : Fld := ⟨bar0 56 (0x118 + 0x20 * n), 0, 12, 0⟩

/-! Table eng-10. ENG page registers (page 0x040 + n) -/

abbrev ENG_CFG_IMG_VALID (p : Nat) : Fld := ⟨bar0 (64 + p) 0x40, 8, 1, 0⟩
abbrev ENG_CFG_SLOT (p : Nat) : Fld := ⟨bar0 (64 + p) 0x40, 4, 3, 0⟩
abbrev ENG_PT_VCODE (p : Nat) : Fld := ⟨bar0 (64 + p) 0x44, 8, 5, 26⟩
abbrev ENG_PT_ACT (p : Nat) : Fld := ⟨bar0 (64 + p) 0x44, 4, 2, 0⟩
abbrev ENG_PT_REQ (p : Nat) : Fld := ⟨bar0 (64 + p) 0x44, 0, 2, 0⟩
abbrev ENG_STAT_ST_PASS (p : Nat) : Fld := ⟨bar0 (64 + p) 0x48, 3, 1, 0⟩
abbrev ENG_STAT_WITHDRAWN (p : Nat) : Fld := ⟨bar0 (64 + p) 0x48, 2, 1, 0⟩
abbrev ENG_STAT_FETCHED (p : Nat) : Fld := ⟨bar0 (64 + p) 0x48, 1, 1, 0⟩
abbrev ENG_STAT_RUN (p : Nat) : Fld := ⟨bar0 (64 + p) 0x48, 0, 1, 0⟩
abbrev ENG_BODY_BODY_ID (p : Nat) : Fld := ⟨bar0 (64 + p) 0x4c, 0, 32, 0⟩
abbrev ENG_CNT_BODIES_COUNT (p : Nat) : Fld := ⟨bar0 (64 + p) 0x50, 0, 32, 0⟩
abbrev ENG_CNT_DEADLINE_COUNT (p : Nat) : Fld := ⟨bar0 (64 + p) 0x54, 0, 32, 0⟩
abbrev ENG_CNT_EXC_COUNT (p : Nat) : Fld := ⟨bar0 (64 + p) 0x58, 0, 32, 0⟩
abbrev ENG_CNT_HWFAULT_COUNT (p : Nat) : Fld := ⟨bar0 (64 + p) 0x5c, 0, 32, 0⟩
abbrev ENG_LAST_EXC_PC (p : Nat) : Fld := ⟨bar0 (64 + p) 0x60, 16, 14, 0⟩
abbrev ENG_LAST_EXC_CAUSE (p : Nat) : Fld := ⟨bar0 (64 + p) 0x60, 0, 8, 0⟩
abbrev ENG_LOGWIN_LO_BASE_LO (p : Nat) : Fld := ⟨bar0 (64 + p) 0x64, 16, 16, 0⟩
abbrev ENG_LOGWIN_HI_SIZE (p : Nat) : Fld := ⟨bar0 (64 + p) 0x68, 16, 16, 0⟩
abbrev ENG_LOGWIN_HI_BASE_HI (p : Nat) : Fld := ⟨bar0 (64 + p) 0x68, 0, 2, 0⟩
abbrev ENG_BUSY_KCYCLES (p : Nat) : Fld := ⟨bar0 (64 + p) 0x6c, 0, 32, 0⟩

/-! Table eng-11. DISP page registers (page 0x039) -/

abbrev DISP_GRP_A_SLOT_NEXT (n : Nat) : Fld := ⟨bar0 57 (0x40 + 0x10 * n), 24, 3, 0⟩
abbrev DISP_GRP_A_SLOT (n : Nat) : Fld := ⟨bar0 57 (0x40 + 0x10 * n), 20, 3, 0⟩
abbrev DISP_GRP_A_DEFAULT (n : Nat) : Fld := ⟨bar0 57 (0x40 + 0x10 * n), 16, 2, 0⟩
abbrev DISP_GRP_A_LEAD (n : Nat) : Fld := ⟨bar0 57 (0x40 + 0x10 * n), 0, 16, 3000⟩
abbrev DISP_GRP_B_RUN_LIMIT (n : Nat) : Fld := ⟨bar0 57 (0x44 + 0x10 * n), 16, 16, 1024⟩
abbrev DISP_GRP_B_MIN_RUN (n : Nat) : Fld := ⟨bar0 57 (0x44 + 0x10 * n), 0, 16, 20⟩
abbrev DISP_GRP_MISS_COUNT (n : Nat) : Fld := ⟨bar0 57 (0x48 + 0x10 * n), 0, 32, 0⟩
abbrev DISP_GRP_VERD_COUNT (n : Nat) : Fld := ⟨bar0 57 (0x4c + 0x10 * n), 0, 32, 0⟩
abbrev DISP_SWAP_SWAP_CNT : Fld := ⟨bar0 57 0xc0, 8, 8, 0⟩
abbrev DISP_SWAP_DT_PEND : Fld := ⟨bar0 57 0xc0, 4, 1, 0⟩
abbrev DISP_SWAP_ACTIVE : Fld := ⟨bar0 57 0xc0, 3, 1, 0⟩
abbrev DISP_SWAP_PEND : Fld := ⟨bar0 57 0xc0, 2, 1, 0⟩
abbrev DISP_SWAP_TIMED : Fld := ⟨bar0 57 0xc0, 1, 1, 0⟩
abbrev DISP_SWAP_GO : Fld := ⟨bar0 57 0xc0, 0, 1, 0⟩
abbrev DISP_SWAP_AT_LO_AT_LO : Fld := ⟨bar0 57 0xc4, 0, 32, 0⟩
abbrev DISP_SWAP_AT_HI_AT_HI : Fld := ⟨bar0 57 0xc8, 0, 8, 0⟩
abbrev DISP_SWAP_DT_LO_DT_LO : Fld := ⟨bar0 57 0xcc, 0, 32, 0⟩
abbrev DISP_SWAP_DT_HI_DT_HI : Fld := ⟨bar0 57 0xd0, 0, 32, 0⟩
abbrev DISP_CTRL_FAULT_LIMIT : Fld := ⟨bar0 57 0xd4, 16, 8, 3⟩
abbrev DISP_CTRL_GRACE : Fld := ⟨bar0 57 0xd4, 0, 16, 50⟩
abbrev DISP_CNT_CAUSE_COUNT (n : Nat) : Fld := ⟨bar0 57 (0xe0 + 0x4 * n), 0, 32, 0⟩
abbrev DISP_CNT_REDISPATCH_COUNT : Fld := ⟨bar0 57 0xfc, 0, 32, 0⟩
abbrev DISP_CNT_ABORT_COUNT : Fld := ⟨bar0 57 0x100, 0, 32, 0⟩
abbrev DISP_CNT_DIVERGED_COUNT : Fld := ⟨bar0 57 0x104, 0, 32, 0⟩
abbrev DISP_CNT_TAKEN_COUNT : Fld := ⟨bar0 57 0x108, 0, 32, 0⟩
abbrev DISP_POOL_QUEUED (n : Nat) : Fld := ⟨bar0 57 (0x110 + 0x4 * n), 16, 16, 0⟩
abbrev DISP_POOL_BUSY (n : Nat) : Fld := ⟨bar0 57 (0x110 + 0x4 * n), 8, 7, 0⟩
abbrev DISP_POOL_IN_SERVICE (n : Nat) : Fld := ⟨bar0 57 (0x110 + 0x4 * n), 0, 7, 0⟩

/-! Table plan-5. PLAN page registers (page 0x080) -/

abbrev PLAN_CTRL_PAIR_RULE : Fld := ⟨bar0 128 0x40, 8, 2, 0⟩
abbrev PLAN_CTRL_LATE_DROP : Fld := ⟨bar0 128 0x40, 3, 1, 0⟩
abbrev PLAN_CTRL_HINT_EN : Fld := ⟨bar0 128 0x40, 2, 1, 1⟩
abbrev PLAN_CTRL_PCOMP_EN : Fld := ⟨bar0 128 0x40, 1, 1, 0⟩
abbrev PLAN_CTRL_LEARN_EN : Fld := ⟨bar0 128 0x40, 0, 1, 0⟩
abbrev PLAN_TIMING_HORIZON : Fld := ⟨bar0 128 0x44, 16, 16, 1000⟩
abbrev PLAN_TIMING_MET_LEAD : Fld := ⟨bar0 128 0x44, 0, 16, 300⟩
abbrev PLAN_GUARD_LEARN_MIN_ON : Fld := ⟨bar0 128 0x48, 16, 16, 1000⟩
abbrev PLAN_GUARD_ON_HARD : Fld := ⟨bar0 128 0x48, 0, 16, 10000⟩
abbrev PLAN_PRESS_HOLD : Fld := ⟨bar0 128 0x4c, 20, 8, 20⟩
abbrev PLAN_PRESS_SIG : Fld := ⟨bar0 128 0x4c, 16, 4, 0⟩
abbrev PLAN_PRESS_P_REF : Fld := ⟨bar0 128 0x4c, 0, 16, 400⟩
abbrev PLAN_PRESS_LIM_P_MAX : Fld := ⟨bar0 128 0x50, 16, 16, 1000⟩
abbrev PLAN_PRESS_LIM_P_MIN : Fld := ⟨bar0 128 0x50, 0, 16, 100⟩
abbrev PLAN_PRESS_GAIN_GAIN : Fld := ⟨bar0 128 0x54, 0, 32, 0x0001_0000⟩
abbrev PLAN_PRESS_OFS_OFS : Fld := ⟨bar0 128 0x58, 0, 32, 0⟩
abbrev PLAN_PRESS_STAT_FAIL : Fld := ⟨bar0 128 0x5c, 17, 1, 0⟩
abbrev PLAN_PRESS_STAT_HOLD : Fld := ⟨bar0 128 0x5c, 16, 1, 0⟩
abbrev PLAN_PRESS_STAT_P : Fld := ⟨bar0 128 0x5c, 0, 16, 400⟩
abbrev PLAN_LEARN_STEP_MAX : Fld := ⟨bar0 128 0x60, 16, 16, 2000⟩
abbrev PLAN_LEARN_IMPL_MAX : Fld := ⟨bar0 128 0x60, 8, 8, 8⟩
abbrev PLAN_LEARN_SHIFT : Fld := ⟨bar0 128 0x60, 0, 4, 4⟩
abbrev PLAN_LEARN_LIM_LAT_MAX : Fld := ⟨bar0 128 0x64, 16, 16, 5000⟩
abbrev PLAN_LEARN_LIM_LAT_MIN : Fld := ⟨bar0 128 0x64, 0, 16, 200⟩
abbrev PLAN_LEARN_RANGE_A_RANGE : Fld := ⟨bar0 128 0x68, 16, 16, 300⟩
abbrev PLAN_LEARN_RANGE_RES_MAX : Fld := ⟨bar0 128 0x68, 0, 16, 200⟩
abbrev PLAN_SUSPECT_COUNT : Fld := ⟨bar0 128 0x6c, 0, 12, 0⟩
abbrev PLAN_SWAP_SWAP_CNT : Fld := ⟨bar0 128 0x70, 8, 8, 0⟩
abbrev PLAN_SWAP_DT_PEND : Fld := ⟨bar0 128 0x70, 4, 1, 0⟩
abbrev PLAN_SWAP_ACTIVE : Fld := ⟨bar0 128 0x70, 3, 1, 0⟩
abbrev PLAN_SWAP_PEND : Fld := ⟨bar0 128 0x70, 2, 1, 0⟩
abbrev PLAN_SWAP_TIMED : Fld := ⟨bar0 128 0x70, 1, 1, 0⟩
abbrev PLAN_SWAP_GO : Fld := ⟨bar0 128 0x70, 0, 1, 0⟩
abbrev PLAN_SWAP_AT_LO_AT_LO : Fld := ⟨bar0 128 0x74, 0, 32, 0⟩
abbrev PLAN_SWAP_AT_HI_AT_HI : Fld := ⟨bar0 128 0x78, 0, 8, 0⟩
abbrev PLAN_SWAP_DT_LO_DT_LO : Fld := ⟨bar0 128 0x7c, 0, 32, 0⟩
abbrev PLAN_SWAP_DT_HI_DT_HI : Fld := ⟨bar0 128 0x80, 0, 32, 0⟩
abbrev PLAN_MAP_ERR_INDEX : Fld := ⟨bar0 128 0x84, 0, 11, 0⟩
abbrev PLAN_CNT_METEORS_COUNT : Fld := ⟨bar0 128 0x90, 0, 32, 0⟩
abbrev PLAN_CNT_MERGED_COUNT : Fld := ⟨bar0 128 0x94, 0, 32, 0⟩
abbrev PLAN_CNT_CONT_COUNT : Fld := ⟨bar0 128 0x98, 0, 32, 0⟩
abbrev PLAN_CNT_OFF_CLIP_COUNT : Fld := ⟨bar0 128 0x9c, 0, 32, 0⟩
abbrev PLAN_CNT_ONTIME_CUT_COUNT : Fld := ⟨bar0 128 0xa0, 0, 32, 0⟩
abbrev PLAN_CNT_LATE_COUNT : Fld := ⟨bar0 128 0xa4, 0, 32, 0⟩
abbrev PLAN_CNT_LATE_DROP_COUNT : Fld := ⟨bar0 128 0xa8, 0, 32, 0⟩
abbrev PLAN_CNT_EXPIRED_COUNT : Fld := ⟨bar0 128 0xac, 0, 32, 0⟩
abbrev PLAN_CNT_QFULL_COUNT : Fld := ⟨bar0 128 0xb0, 0, 32, 0⟩
abbrev PLAN_CNT_NO_VALVE_COUNT : Fld := ⟨bar0 128 0xb4, 0, 32, 0⟩
abbrev PLAN_CNT_WITHDRAWN_COUNT : Fld := ⟨bar0 128 0xb8, 0, 32, 0⟩
abbrev PLAN_CNT_WITHDRAW_FAIL_COUNT : Fld := ⟨bar0 128 0xbc, 0, 32, 0⟩
abbrev PLAN_CNT_LEARNED_COUNT : Fld := ⟨bar0 128 0xc0, 0, 32, 0⟩
abbrev PLAN_CNT_IMPLAUS_COUNT : Fld := ⟨bar0 128 0xc4, 0, 32, 0⟩
abbrev PLAN_CNT_SEAT_ORPHAN_COUNT : Fld := ⟨bar0 128 0xc8, 0, 32, 0⟩
abbrev PLAN_CNT_TRAJ_FB_COUNT : Fld := ⟨bar0 128 0xcc, 0, 32, 0⟩
abbrev PLAN_QDEPTH_DEPTH1 (n : Nat) : Fld := ⟨bar0 128 (0xd0 + 0x4 * n), 16, 16, 0⟩
abbrev PLAN_QDEPTH_DEPTH0 (n : Nat) : Fld := ⟨bar0 128 (0xd0 + 0x4 * n), 0, 16, 0⟩
abbrev PLAN_DIVERT_HOLD (n : Nat) : Fld := ⟨bar0 128 (0xe0 + 0x4 * n), 16, 16, 0⟩
abbrev PLAN_DIVERT_ASSERTED (n : Nat) : Fld := ⟨bar0 128 (0xe0 + 0x4 * n), 8, 1, 0⟩
abbrev PLAN_DIVERT_FORCE (n : Nat) : Fld := ⟨bar0 128 (0xe0 + 0x4 * n), 7, 1, 0⟩
abbrev PLAN_DIVERT_POL (n : Nat) : Fld := ⟨bar0 128 (0xe0 + 0x4 * n), 6, 1, 0⟩
abbrev PLAN_DIVERT_ON_FAULT (n : Nat) : Fld := ⟨bar0 128 (0xe0 + 0x4 * n), 5, 1, 0⟩
abbrev PLAN_DIVERT_ON_IDLE (n : Nat) : Fld := ⟨bar0 128 (0xe0 + 0x4 * n), 4, 1, 0⟩
abbrev PLAN_DIVERT_ON_ECLIPSE (n : Nat) : Fld := ⟨bar0 128 (0xe0 + 0x4 * n), 3, 1, 0⟩
abbrev PLAN_DIVERT_ON_TWILIGHT (n : Nat) : Fld := ⟨bar0 128 (0xe0 + 0x4 * n), 2, 1, 0⟩
abbrev PLAN_DIVERT_EN (n : Nat) : Fld := ⟨bar0 128 (0xe0 + 0x4 * n), 0, 1, 0⟩
abbrev PLAN_GRP_A_M_TAIL (n : Nat) : Fld := ⟨bar0 128 (0x100 + 0x8 * n), 16, 16, 1000⟩
abbrev PLAN_GRP_A_M_LEAD (n : Nat) : Fld := ⟨bar0 128 (0x100 + 0x8 * n), 0, 16, 1000⟩
abbrev PLAN_GRP_B_M_SIDE (n : Nat) : Fld := ⟨bar0 128 (0x104 + 0x8 * n), 0, 16, 500⟩
abbrev PLAN_TWI_TWI_MIN (n : Nat) : Fld := ⟨bar0 128 (0x140 + 0x4 * n), 16, 16, 1⟩
abbrev PLAN_TWI_MASK (n : Nat) : Fld := ⟨bar0 128 (0x140 + 0x4 * n), 1, 15, 0⟩

/-! Table met-10. Port registers -/

abbrev MET_CFG_RETRY_MAX (p : Nat) : Fld := ⟨bar0 (129 + p) 0x40, 24, 4, 4⟩
abbrev MET_CFG_ACK_TO (p : Nat) : Fld := ⟨bar0 (129 + p) 0x40, 16, 8, 20⟩
abbrev MET_CFG_BEACON_INT (p : Nat) : Fld := ⟨bar0 (129 + p) 0x40, 8, 8, 50⟩
abbrev MET_CFG_REPEAT (p : Nat) : Fld := ⟨bar0 (129 + p) 0x40, 4, 2, 1⟩
abbrev MET_CFG_MODULES (p : Nat) : Fld := ⟨bar0 (129 + p) 0x40, 0, 2, 0⟩
abbrev MET_TX_EARLY (p : Nat) : Fld := ⟨bar0 (129 + p) 0x44, 0, 16, 100⟩
abbrev MET_RANGE_PERIOD (p : Nat) : Fld := ⟨bar0 (129 + p) 0x48, 0, 16, 1000⟩
abbrev MET_LINK_MOD_PRESENT (p : Nat) : Fld := ⟨bar0 (129 + p) 0x4c, 12, 4, 0⟩
abbrev MET_LINK_MOD_READY (p : Nat) : Fld := ⟨bar0 (129 + p) 0x4c, 8, 4, 0⟩
abbrev MET_LINK_REPEAT_MODE (p : Nat) : Fld := ⟨bar0 (129 + p) 0x4c, 3, 1, 0⟩
abbrev MET_LINK_FEEDBACK (p : Nat) : Fld := ⟨bar0 (129 + p) 0x4c, 2, 1, 0⟩
abbrev MET_LINK_RX_LOCK (p : Nat) : Fld := ⟨bar0 (129 + p) 0x4c, 1, 1, 0⟩
abbrev MET_LINK_TX_ON (p : Nat) : Fld := ⟨bar0 (129 + p) 0x4c, 0, 1, 0⟩
abbrev MET_TOKEN_CLAIM (p : Nat) : Fld := ⟨bar0 (129 + p) 0x50, 16, 1, 0⟩
abbrev MET_TOKEN_EPOCH (p : Nat) : Fld := ⟨bar0 (129 + p) 0x50, 0, 16, 0⟩
abbrev MET_TEST_SYNC (p : Nat) : Fld := ⟨bar0 (129 + p) 0x54, 1, 1, 0⟩
abbrev MET_TEST_PRBS_EN (p : Nat) : Fld := ⟨bar0 (129 + p) 0x54, 0, 1, 0⟩
abbrev MET_TEST_ERR_ERRORS (p : Nat) : Fld := ⟨bar0 (129 + p) 0x58, 0, 32, 0⟩
abbrev MET_CNT_FIRE_COUNT (p : Nat) : Fld := ⟨bar0 (129 + p) 0x60, 0, 32, 0⟩
abbrev MET_CNT_CANCEL_COUNT (p : Nat) : Fld := ⟨bar0 (129 + p) 0x64, 0, 32, 0⟩
abbrev MET_CNT_RETX_COUNT (p : Nat) : Fld := ⟨bar0 (129 + p) 0x68, 0, 32, 0⟩
abbrev MET_CNT_TX_LATE_COUNT (p : Nat) : Fld := ⟨bar0 (129 + p) 0x6c, 0, 32, 0⟩
abbrev MET_CNT_LOST_COUNT (p : Nat) : Fld := ⟨bar0 (129 + p) 0x70, 0, 32, 0⟩
abbrev MET_CNT_GUARD_COUNT (p : Nat) : Fld := ⟨bar0 (129 + p) 0x74, 0, 32, 0⟩
abbrev MET_CNT_RX_CRC_COUNT (p : Nat) : Fld := ⟨bar0 (129 + p) 0x78, 0, 32, 0⟩
abbrev MET_CNT_SEAT_COUNT (p : Nat) : Fld := ⟨bar0 (129 + p) 0x7c, 0, 32, 0⟩
abbrev MET_CNT_OFFLINE_DROP_COUNT (p : Nat) : Fld := ⟨bar0 (129 + p) 0x80, 0, 32, 0⟩

/-! Table met-11. Module registers (module k) -/

abbrev MET_MOD_STAT_VALVES_M1 (p n : Nat) : Fld := ⟨bar0 (129 + p) (0x100 + 0x20 * n), 24, 6, 0⟩
abbrev MET_MOD_STAT_FAULT_VALVE (p n : Nat) : Fld := ⟨bar0 (129 + p) (0x100 + 0x20 * n), 16, 6, 0⟩
abbrev MET_MOD_STAT_FAULT_CODE (p n : Nat) : Fld := ⟨bar0 (129 + p) (0x100 + 0x20 * n), 8, 8, 0⟩
abbrev MET_MOD_STAT_OWNER_SIDE (p n : Nat) : Fld := ⟨bar0 (129 + p) (0x100 + 0x20 * n), 7, 1, 0⟩
abbrev MET_MOD_STAT_OWNED (p n : Nat) : Fld := ⟨bar0 (129 + p) (0x100 + 0x20 * n), 6, 1, 0⟩
abbrev MET_MOD_STAT_CONFLICT (p n : Nat) : Fld := ⟨bar0 (129 + p) (0x100 + 0x20 * n), 5, 1, 0⟩
abbrev MET_MOD_STAT_FAULT (p n : Nat) : Fld := ⟨bar0 (129 + p) (0x100 + 0x20 * n), 4, 1, 0⟩
abbrev MET_MOD_STAT_TIME_LOCK (p n : Nat) : Fld := ⟨bar0 (129 + p) (0x100 + 0x20 * n), 3, 1, 0⟩
abbrev MET_MOD_STAT_STATE (p n : Nat) : Fld := ⟨bar0 (129 + p) (0x100 + 0x20 * n), 0, 3, 0⟩
abbrev MET_MOD_DELAY_SPREAD (p n : Nat) : Fld := ⟨bar0 (129 + p) (0x104 + 0x20 * n), 16, 16, 0⟩
abbrev MET_MOD_DELAY_DELAY (p n : Nat) : Fld := ⟨bar0 (129 + p) (0x104 + 0x20 * n), 0, 16, 0⟩
abbrev MET_MOD_SEQ_H (p n : Nat) : Fld := ⟨bar0 (129 + p) (0x108 + 0x20 * n), 16, 16, 0⟩
abbrev MET_MOD_SEQ_NEXT (p n : Nat) : Fld := ⟨bar0 (129 + p) (0x108 + 0x20 * n), 0, 16, 0⟩
abbrev MET_MOD_CNT_DROP (p n : Nat) : Fld := ⟨bar0 (129 + p) (0x10c + 0x20 * n), 24, 8, 0⟩
abbrev MET_MOD_CNT_CANCEL_MISSED (p n : Nat) : Fld := ⟨bar0 (129 + p) (0x10c + 0x20 * n), 16, 8, 0⟩
abbrev MET_MOD_CNT_CRC_ERR (p n : Nat) : Fld := ⟨bar0 (129 + p) (0x10c + 0x20 * n), 8, 8, 0⟩
abbrev MET_MOD_CNT_REJ (p n : Nat) : Fld := ⟨bar0 (129 + p) (0x10c + 0x20 * n), 0, 8, 0⟩
abbrev MET_MOD_CNT2_IN_FLIGHT (p n : Nat) : Fld := ⟨bar0 (129 + p) (0x110 + 0x20 * n), 16, 5, 0⟩
abbrev MET_MOD_CNT2_ACK_TIMEOUTS (p n : Nat) : Fld := ⟨bar0 (129 + p) (0x110 + 0x20 * n), 0, 16, 0⟩

/-! Table mot-3. Channel registers (channel n at 0x0100 + 0x40 × n) -/

abbrev MOT_CH_CFG_MIN_EDGE (n : Nat) : Fld := ⟨bar0 15 (0x100 + 0x40 * n), 24, 8, 20⟩
abbrev MOT_CH_CFG_N_STAB (n : Nat) : Fld := ⟨bar0 15 (0x100 + 0x40 * n), 20, 4, 4⟩
abbrev MOT_CH_CFG_PRESCALE (n : Nat) : Fld := ⟨bar0 15 (0x100 + 0x40 * n), 18, 2, 0⟩
abbrev MOT_CH_CFG_METHOD (n : Nat) : Fld := ⟨bar0 15 (0x100 + 0x40 * n), 17, 1, 0⟩
abbrev MOT_CH_CFG_INVERT (n : Nat) : Fld := ⟨bar0 15 (0x100 + 0x40 * n), 16, 1, 0⟩
abbrev MOT_CH_CFG_Z_MODE (n : Nat) : Fld := ⟨bar0 15 (0x100 + 0x40 * n), 14, 2, 0⟩
abbrev MOT_CH_CFG_KIND (n : Nat) : Fld := ⟨bar0 15 (0x100 + 0x40 * n), 1, 1, 0⟩
abbrev MOT_CH_CFG_EN (n : Nat) : Fld := ⟨bar0 15 (0x100 + 0x40 * n), 0, 1, 0⟩
abbrev MOT_CH_SSI_BITS (n : Nat) : Fld := ⟨bar0 15 (0x104 + 0x40 * n), 24, 8, 25⟩
abbrev MOT_CH_SSI_GRAY (n : Nat) : Fld := ⟨bar0 15 (0x104 + 0x40 * n), 23, 1, 1⟩
abbrev MOT_CH_SSI_PARITY (n : Nat) : Fld := ⟨bar0 15 (0x104 + 0x40 * n), 22, 1, 0⟩
abbrev MOT_CH_SSI_SCLK_DIV (n : Nat) : Fld := ⟨bar0 15 (0x104 + 0x40 * n), 8, 8, 9⟩
abbrev MOT_CH_SSI_MONO (n : Nat) : Fld := ⟨bar0 15 (0x104 + 0x40 * n), 0, 8, 20⟩
abbrev MOT_CH_SSI2_PERIOD (n : Nat) : Fld := ⟨bar0 15 (0x108 + 0x40 * n), 16, 16, 50⟩
abbrev MOT_CH_SSI2_SAMPLE_DLY (n : Nat) : Fld := ⟨bar0 15 (0x108 + 0x40 * n), 8, 8, 0⟩
abbrev MOT_CH_SSI2_ERR_LIMIT (n : Nat) : Fld := ⟨bar0 15 (0x108 + 0x40 * n), 0, 8, 8⟩
abbrev MOT_CH_SSI3_LAT (n : Nat) : Fld := ⟨bar0 15 (0x10c + 0x40 * n), 16, 16, 0⟩
abbrev MOT_CH_SSI3_MAX_JUMP (n : Nat) : Fld := ⟨bar0 15 (0x10c + 0x40 * n), 0, 16, 4096⟩
abbrev MOT_CH_OBS_STILL (n : Nat) : Fld := ⟨bar0 15 (0x110 + 0x40 * n), 16, 16, 1000⟩
abbrev MOT_CH_OBS_BW (n : Nat) : Fld := ⟨bar0 15 (0x110 + 0x40 * n), 0, 14, 100⟩
abbrev MOT_CH_LIM_FAULT_LIMIT (n : Nat) : Fld := ⟨bar0 15 (0x114 + 0x40 * n), 8, 8, 16⟩
abbrev MOT_CH_LIM_HYST (n : Nat) : Fld := ⟨bar0 15 (0x114 + 0x40 * n), 0, 8, 4⟩
abbrev MOT_CH_POS_LO_POS_LO (n : Nat) : Fld := ⟨bar0 15 (0x118 + 0x40 * n), 0, 32, 0⟩
abbrev MOT_CH_POS_HI_POS_HI (n : Nat) : Fld := ⟨bar0 15 (0x11c + 0x40 * n), 0, 16, 0⟩
abbrev MOT_CH_SPEED_SPEED (n : Nat) : Fld := ⟨bar0 15 (0x120 + 0x40 * n), 0, 32, 0⟩
abbrev MOT_CH_ACCEL_ACCEL (n : Nat) : Fld := ⟨bar0 15 (0x124 + 0x40 * n), 0, 32, 0⟩
abbrev MOT_CH_STAT_LOST (n : Nat) : Fld := ⟨bar0 15 (0x128 + 0x40 * n), 7, 1, 0⟩
abbrev MOT_CH_STAT_FAULT (n : Nat) : Fld := ⟨bar0 15 (0x128 + 0x40 * n), 6, 1, 0⟩
abbrev MOT_CH_STAT_SETTLING (n : Nat) : Fld := ⟨bar0 15 (0x128 + 0x40 * n), 5, 1, 0⟩
abbrev MOT_CH_STAT_STILL (n : Nat) : Fld := ⟨bar0 15 (0x128 + 0x40 * n), 4, 1, 0⟩
abbrev MOT_CH_STAT_DIR (n : Nat) : Fld := ⟨bar0 15 (0x128 + 0x40 * n), 3, 1, 1⟩
abbrev MOT_CH_STAT_INDEX_SEEN (n : Nat) : Fld := ⟨bar0 15 (0x128 + 0x40 * n), 2, 1, 0⟩
abbrev MOT_CH_STAT_RUN (n : Nat) : Fld := ⟨bar0 15 (0x128 + 0x40 * n), 0, 1, 0⟩
abbrev MOT_CH_IDX_LO_IDX_LO (n : Nat) : Fld := ⟨bar0 15 (0x12c + 0x40 * n), 0, 32, 0⟩
abbrev MOT_CH_IDX_HI_IDX_HI (n : Nat) : Fld := ⟨bar0 15 (0x130 + 0x40 * n), 0, 16, 0⟩
abbrev MOT_CH_LAST_T_LO_DT_LO (n : Nat) : Fld := ⟨bar0 15 (0x134 + 0x40 * n), 0, 32, 0⟩
abbrev MOT_CH_LAST_T_HI_DT_HI (n : Nat) : Fld := ⟨bar0 15 (0x138 + 0x40 * n), 0, 32, 0⟩
abbrev MOT_CH_CNT_GLITCH (n : Nat) : Fld := ⟨bar0 15 (0x13c + 0x40 * n), 16, 16, 0⟩
abbrev MOT_CH_CNT_ERRORS (n : Nat) : Fld := ⟨bar0 15 (0x13c + 0x40 * n), 0, 16, 0⟩

/-! Table mot-4. Comparator and repeat registers -/

abbrev MOT_CMP_CTRL_HIT (n : Nat) : Fld := ⟨bar0 15 (0x200 + 0x20 * n), 31, 1, 0⟩
abbrev MOT_CMP_CTRL_PASSED (n : Nat) : Fld := ⟨bar0 15 (0x200 + 0x20 * n), 30, 1, 0⟩
abbrev MOT_CMP_CTRL_SEL (n : Nat) : Fld := ⟨bar0 15 (0x200 + 0x20 * n), 4, 2, 0⟩
abbrev MOT_CMP_CTRL_DIR (n : Nat) : Fld := ⟨bar0 15 (0x200 + 0x20 * n), 2, 2, 0⟩
abbrev MOT_CMP_CTRL_PAST (n : Nat) : Fld := ⟨bar0 15 (0x200 + 0x20 * n), 1, 1, 0⟩
abbrev MOT_CMP_CTRL_ARM (n : Nat) : Fld := ⟨bar0 15 (0x200 + 0x20 * n), 0, 1, 0⟩
abbrev MOT_CMP_TGT_LO_TGT_LO (n : Nat) : Fld := ⟨bar0 15 (0x204 + 0x20 * n), 0, 32, 0⟩
abbrev MOT_CMP_TGT_HI_TGT_HI (n : Nat) : Fld := ⟨bar0 15 (0x208 + 0x20 * n), 0, 16, 0⟩
abbrev MOT_CMP_HIT_T_LO_DT_LO (n : Nat) : Fld := ⟨bar0 15 (0x20c + 0x20 * n), 0, 32, 0⟩
abbrev MOT_CMP_HIT_T_HI_DT_HI (n : Nat) : Fld := ⟨bar0 15 (0x210 + 0x20 * n), 0, 32, 0⟩
abbrev MOT_REP_DIV_M1 (n : Nat) : Fld := ⟨bar0 15 (0x300 + 0x4 * n), 16, 16, 0⟩
abbrev MOT_REP_SRC (n : Nat) : Fld := ⟨bar0 15 (0x300 + 0x4 * n), 1, 2, 0⟩
abbrev MOT_REP_EN (n : Nat) : Fld := ⟨bar0 15 (0x300 + 0x4 * n), 0, 1, 0⟩

/-! Table sig-5. SIG page registers (page 0x00D) -/

abbrev SIG_MCLK_DIV (k : Nat) : Fld := ⟨bar0 13 0x40, 8 * k, 8, 0⟩
abbrev SIG_TEST_LEVEL : Fld := ⟨bar0 13 0x44, 0, 24, 0⟩
abbrev SIG_STALE_STALE : Fld := ⟨bar0 13 0x48, 0, 16, 0xFFFF⟩
abbrev SIG_OVL_OVL : Fld := ⟨bar0 13 0x4c, 0, 16, 0⟩

/-! Table sig-6. Channel registers (channel n at 0x0100 + 0x20 × n) -/

abbrev SIG_CH_CFG_EN (n : Nat) : Fld := ⟨bar0 13 (0x100 + 0x20 * n), 31, 1, 0⟩
abbrev SIG_CH_CFG_MCLK_SEL (n : Nat) : Fld := ⟨bar0 13 (0x100 + 0x20 * n), 29, 2, 0⟩
abbrev SIG_CH_CFG_DEC1 (n : Nat) : Fld := ⟨bar0 13 (0x100 + 0x20 * n), 26, 3, 2⟩
abbrev SIG_CH_CFG_RANK (n : Nat) : Fld := ⟨bar0 13 (0x100 + 0x20 * n), 24, 2, 0⟩
abbrev SIG_CH_CFG_HB (n : Nat) : Fld := ⟨bar0 13 (0x100 + 0x20 * n), 22, 2, 0⟩
abbrev SIG_CH_CFG_FIR_DEC (n : Nat) : Fld := ⟨bar0 13 (0x100 + 0x20 * n), 19, 3, 0⟩
abbrev SIG_CH_CFG_FIR_EN (n : Nat) : Fld := ⟨bar0 13 (0x100 + 0x20 * n), 18, 1, 1⟩
abbrev SIG_CH_CFG_INVERT (n : Nat) : Fld := ⟨bar0 13 (0x100 + 0x20 * n), 17, 1, 0⟩
abbrev SIG_CH_CFG_SDLY (n : Nat) : Fld := ⟨bar0 13 (0x100 + 0x20 * n), 12, 5, 0⟩
abbrev SIG_CH_CFG_PHASE (n : Nat) : Fld := ⟨bar0 13 (0x100 + 0x20 * n), 0, 12, 0⟩
abbrev SIG_CH_XF_ACTIVE (n : Nat) : Fld := ⟨bar0 13 (0x104 + 0x20 * n), 17, 1, 0⟩
abbrev SIG_CH_XF_FADING (n : Nat) : Fld := ⟨bar0 13 (0x104 + 0x20 * n), 16, 1, 0⟩
abbrev SIG_CH_XF_GO (n : Nat) : Fld := ⟨bar0 13 (0x104 + 0x20 * n), 8, 1, 0⟩
abbrev SIG_CH_XF_LEN (n : Nat) : Fld := ⟨bar0 13 (0x104 + 0x20 * n), 0, 8, 0⟩
abbrev SIG_CH_OUT_OUT (n : Nat) : Fld := ⟨bar0 13 (0x108 + 0x20 * n), 0, 32, 0⟩
abbrev SIG_CH_T_LO_DT_LO (n : Nat) : Fld := ⟨bar0 13 (0x10c + 0x20 * n), 0, 32, 0⟩
abbrev SIG_CH_T_HI_DT_HI (n : Nat) : Fld := ⟨bar0 13 (0x110 + 0x20 * n), 0, 32, 0⟩
abbrev SIG_CH_FAST_FAST (n : Nat) : Fld := ⟨bar0 13 (0x114 + 0x20 * n), 0, 32, 0⟩
abbrev SIG_CH_GD_FINE (n : Nat) : Fld := ⟨bar0 13 (0x118 + 0x20 * n), 0, 20, 0⟩
abbrev SIG_CH_STAT_FAST_GD (n : Nat) : Fld := ⟨bar0 13 (0x11c + 0x20 * n), 16, 13, 0⟩
abbrev SIG_CH_STAT_OVERLOAD (n : Nat) : Fld := ⟨bar0 13 (0x11c + 0x20 * n), 3, 1, 0⟩
abbrev SIG_CH_STAT_SETTLING (n : Nat) : Fld := ⟨bar0 13 (0x11c + 0x20 * n), 2, 1, 0⟩
abbrev SIG_CH_STAT_STUCK (n : Nat) : Fld := ⟨bar0 13 (0x11c + 0x20 * n), 1, 1, 0⟩
abbrev SIG_CH_STAT_STALE (n : Nat) : Fld := ⟨bar0 13 (0x11c + 0x20 * n), 0, 1, 1⟩

/-! Table sig-7. TRIM page registers (page 0x00E) -/

abbrev TRIM_CTRL_PEND : Fld := ⟨bar0 14 0x40, 2, 1, 0⟩
abbrev TRIM_CTRL_TIMED : Fld := ⟨bar0 14 0x40, 1, 1, 0⟩
abbrev TRIM_CTRL_GO : Fld := ⟨bar0 14 0x40, 0, 1, 0⟩
abbrev TRIM_APPLY_AT_LO_AT_LO : Fld := ⟨bar0 14 0x44, 0, 32, 0⟩
abbrev TRIM_APPLY_AT_HI_AT_HI : Fld := ⟨bar0 14 0x48, 0, 8, 0⟩
abbrev TRIM_HELD_HELD : Fld := ⟨bar0 14 0x4c, 0, 16, 0⟩
abbrev TRIM_SLEW_SLEW : Fld := ⟨bar0 14 0x50, 0, 14, 0⟩
abbrev TRIM_CODE_NOW (n : Nat) : Fld := ⟨bar0 14 (0x100 + 0x4 * n), 16, 14, 0⟩
abbrev TRIM_CODE_CODE (n : Nat) : Fld := ⟨bar0 14 (0x100 + 0x4 * n), 0, 14, 0⟩

/-! Table time-3. TIME page registers (page 0x004) -/

abbrev TIME_CTRL_PROFILE : Fld := ⟨bar0 4 0x40, 5, 2, 0⟩
abbrev TIME_CTRL_PATH_LEARN : Fld := ⟨bar0 4 0x40, 4, 1, 1⟩
abbrev TIME_CTRL_GM_EN : Fld := ⟨bar0 4 0x40, 3, 1, 0⟩
abbrev TIME_CTRL_SERVO_EN : Fld := ⟨bar0 4 0x40, 2, 1, 0⟩
abbrev TIME_CTRL_OC_SEL : Fld := ⟨bar0 4 0x40, 0, 2, 0⟩
abbrev TIME_PTP_CFG_PRIORITY1 : Fld := ⟨bar0 4 0x44, 24, 8, 128⟩
abbrev TIME_PTP_CFG_CLASS : Fld := ⟨bar0 4 0x44, 16, 8, 248⟩
abbrev TIME_PTP_CFG_PRIORITY2 : Fld := ⟨bar0 4 0x44, 8, 8, 128⟩
abbrev TIME_PTP_CFG_DOMAIN : Fld := ⟨bar0 4 0x44, 0, 8, 0⟩
abbrev TIME_NOW_LO_DT_LO : Fld := ⟨bar0 4 0x48, 0, 32, 0⟩
abbrev TIME_NOW_HI_DT_HI : Fld := ⟨bar0 4 0x4c, 0, 32, 0⟩
abbrev TIME_NOW_FRAC_FRAC : Fld := ⟨bar0 4 0x50, 0, 16, 0⟩
abbrev TIME_RATE_LO_RATE_F : Fld := ⟨bar0 4 0x54, 0, 32, 0⟩
abbrev TIME_RATE_HI_RATE_I : Fld := ⟨bar0 4 0x58, 0, 32, 1⟩
abbrev TIME_SLEW_AMOUNT : Fld := ⟨bar0 4 0x5c, 0, 32, 0⟩
abbrev TIME_SLEW_CTRL_BUSY : Fld := ⟨bar0 4 0x60, 16, 1, 0⟩
abbrev TIME_SLEW_CTRL_SLEW_MAX : Fld := ⟨bar0 4 0x60, 0, 9, 100⟩
abbrev TIME_SET_LO_SET_LO : Fld := ⟨bar0 4 0x64, 0, 32, 0⟩
abbrev TIME_SET_HI_SET_HI : Fld := ⟨bar0 4 0x68, 0, 32, 0⟩
abbrev TIME_STAT_SKEW_WARN : Fld := ⟨bar0 4 0x6c, 7, 1, 0⟩
abbrev TIME_STAT_PPS_IN_OK : Fld := ⟨bar0 4 0x6c, 6, 1, 0⟩
abbrev TIME_STAT_SLEWING : Fld := ⟨bar0 4 0x6c, 5, 1, 0⟩
abbrev TIME_STAT_GM_ACTIVE : Fld := ⟨bar0 4 0x6c, 4, 1, 0⟩
abbrev TIME_STAT_PATH_HOLD : Fld := ⟨bar0 4 0x6c, 3, 1, 0⟩
abbrev TIME_STAT_HOLDOVER : Fld := ⟨bar0 4 0x6c, 2, 1, 0⟩
abbrev TIME_STAT_LOCKED : Fld := ⟨bar0 4 0x6c, 1, 1, 0⟩
abbrev TIME_STAT_SET : Fld := ⟨bar0 4 0x6c, 0, 1, 0⟩
abbrev TIME_SERVO_LOCK_NS : Fld := ⟨bar0 4 0x70, 24, 8, 20⟩
abbrev TIME_SERVO_LOCK_CNT : Fld := ⟨bar0 4 0x70, 16, 8, 16⟩
abbrev TIME_SERVO_KI_SHIFT : Fld := ⟨bar0 4 0x70, 12, 4, 8⟩
abbrev TIME_SERVO_KP_SHIFT : Fld := ⟨bar0 4 0x70, 8, 4, 2⟩
abbrev TIME_SERVO_STEP_US : Fld := ⟨bar0 4 0x70, 0, 8, 10⟩
abbrev TIME_OFS_THETA : Fld := ⟨bar0 4 0x74, 0, 32, 0⟩
abbrev TIME_MPD_MPD : Fld := ⟨bar0 4 0x78, 0, 32, 0⟩
abbrev TIME_PATH_PATH_JUMP : Fld := ⟨bar0 4 0x7c, 16, 16, 50⟩
abbrev TIME_PATH_HOLD_N : Fld := ⟨bar0 4 0x7c, 8, 8, 16⟩
abbrev TIME_PATH_ENTRY : Fld := ⟨bar0 4 0x7c, 0, 3, 0⟩
abbrev TIME_PATH_J_ASYM_MAX : Fld := ⟨bar0 4 0x80, 16, 16, 1000⟩
abbrev TIME_PATH_J_J : Fld := ⟨bar0 4 0x80, 0, 16, 0⟩
abbrev TIME_ASYM_CLR_ALL : Fld := ⟨bar0 4 0x84, 31, 1, 0⟩
abbrev TIME_ASYM_ASYM : Fld := ⟨bar0 4 0x84, 0, 16, 0⟩
abbrev TIME_PPS_WIDTH : Fld := ⟨bar0 4 0x88, 16, 16, 100⟩
abbrev TIME_PPS_IN_POL : Fld := ⟨bar0 4 0x88, 2, 1, 0⟩
abbrev TIME_PPS_OUT_POL : Fld := ⟨bar0 4 0x88, 1, 1, 0⟩
abbrev TIME_PPS_OUT_EN : Fld := ⟨bar0 4 0x88, 0, 1, 0⟩
abbrev TIME_PPS_IN_LO_DT_LO : Fld := ⟨bar0 4 0x8c, 0, 32, 0⟩
abbrev TIME_PPS_IN_HI_DT_HI : Fld := ⟨bar0 4 0x90, 0, 32, 0⟩
abbrev TIME_GM_SEC_SEC : Fld := ⟨bar0 4 0x94, 0, 32, 0⟩
abbrev TIME_SCHED_CFG_HORIZON : Fld := ⟨bar0 4 0x98, 0, 9, 100⟩
abbrev TIME_PTM_CTRL_PERIOD : Fld := ⟨bar0 4 0x9c, 8, 8, 0⟩
abbrev TIME_PTM_CTRL_GO : Fld := ⟨bar0 4 0x9c, 1, 1, 0⟩
abbrev TIME_PTM_CTRL_EN : Fld := ⟨bar0 4 0x9c, 0, 1, 0⟩
abbrev TIME_PTM_STAT_SEQ : Fld := ⟨bar0 4 0xa0, 16, 16, 0⟩
abbrev TIME_PTM_STAT_ERR : Fld := ⟨bar0 4 0xa0, 1, 1, 0⟩
abbrev TIME_PTM_STAT_VALID : Fld := ⟨bar0 4 0xa0, 0, 1, 0⟩
abbrev TIME_PTM_MASTER_LO_MASTER : Fld := ⟨bar0 4 0xa4, 0, 32, 0⟩
abbrev TIME_PTM_MASTER_HI_MASTER : Fld := ⟨bar0 4 0xa8, 0, 32, 0⟩
abbrev TIME_PTM_LOCAL_LO_LOCAL : Fld := ⟨bar0 4 0xac, 0, 32, 0⟩
abbrev TIME_PTM_LOCAL_HI_LOCAL : Fld := ⟨bar0 4 0xb0, 0, 32, 0⟩
abbrev TIME_ISL_DLY_DEV (n : Nat) : Fld := ⟨bar0 4 (0xc0 + 0x4 * n), 16, 16, 0⟩
abbrev TIME_ISL_DLY_DLY (n : Nat) : Fld := ⟨bar0 4 (0xc0 + 0x4 * n), 0, 16, 0⟩
abbrev TIME_SCHED_CTRL_BLOCKED (n : Nat) : Fld := ⟨bar0 4 (0x100 + 0x20 * n), 8, 1, 0⟩
abbrev TIME_SCHED_CTRL_LATE (n : Nat) : Fld := ⟨bar0 4 (0x100 + 0x20 * n), 7, 1, 0⟩
abbrev TIME_SCHED_CTRL_FIRED (n : Nat) : Fld := ⟨bar0 4 (0x100 + 0x20 * n), 6, 1, 0⟩
abbrev TIME_SCHED_CTRL_LEVEL (n : Nat) : Fld := ⟨bar0 4 (0x100 + 0x20 * n), 5, 1, 0⟩
abbrev TIME_SCHED_CTRL_POLICY (n : Nat) : Fld := ⟨bar0 4 (0x100 + 0x20 * n), 4, 1, 0⟩
abbrev TIME_SCHED_CTRL_ACTION (n : Nat) : Fld := ⟨bar0 4 (0x100 + 0x20 * n), 2, 2, 0⟩
abbrev TIME_SCHED_CTRL_ARM (n : Nat) : Fld := ⟨bar0 4 (0x100 + 0x20 * n), 0, 1, 0⟩
abbrev TIME_SCHED_AT_LO_AT_LO (n : Nat) : Fld := ⟨bar0 4 (0x104 + 0x20 * n), 0, 32, 0⟩
abbrev TIME_SCHED_AT_HI_AT_HI (n : Nat) : Fld := ⟨bar0 4 (0x108 + 0x20 * n), 0, 8, 0⟩
abbrev TIME_SCHED_PERIOD_PERIOD (n : Nat) : Fld := ⟨bar0 4 (0x10c + 0x20 * n), 0, 32, 0⟩
abbrev TIME_SCHED_WIDTH_WIDTH (n : Nat) : Fld := ⟨bar0 4 (0x110 + 0x20 * n), 0, 16, 100⟩
abbrev TIME_SCHED_LAST_LO_LAST (n : Nat) : Fld := ⟨bar0 4 (0x114 + 0x20 * n), 0, 32, 0⟩
abbrev TIME_SCHED_LAST_HI_LAST (n : Nat) : Fld := ⟨bar0 4 (0x118 + 0x20 * n), 0, 32, 0⟩
abbrev TIME_SCHED_CNT_COUNT (n : Nat) : Fld := ⟨bar0 4 (0x11c + 0x20 * n), 0, 32, 0⟩

/-! Table time-6. NET page registers (page 0x005) -/

abbrev NET_CTRL_LEARN_EN : Fld := ⟨bar0 5 0x40, 11, 1, 1⟩
abbrev NET_CTRL_TC_MODE : Fld := ⟨bar0 5 0x40, 10, 1, 0⟩
abbrev NET_CTRL_TC_EN : Fld := ⟨bar0 5 0x40, 9, 1, 1⟩
abbrev NET_CTRL_FWD_EN : Fld := ⟨bar0 5 0x40, 8, 1, 0⟩
abbrev NET_CTRL_FEC1 : Fld := ⟨bar0 5 0x40, 6, 1, 0⟩
abbrev NET_CTRL_SPEED1 : Fld := ⟨bar0 5 0x40, 5, 1, 0⟩
abbrev NET_CTRL_EN1 : Fld := ⟨bar0 5 0x40, 4, 1, 0⟩
abbrev NET_CTRL_FEC0 : Fld := ⟨bar0 5 0x40, 2, 1, 0⟩
abbrev NET_CTRL_SPEED0 : Fld := ⟨bar0 5 0x40, 1, 1, 0⟩
abbrev NET_CTRL_EN0 : Fld := ⟨bar0 5 0x40, 0, 1, 0⟩
abbrev NET_MAC_LO_MAC_LO : Fld := ⟨bar0 5 0x44, 0, 32, 0⟩
abbrev NET_MAC_HI_MAC_HI : Fld := ⟨bar0 5 0x48, 0, 16, 0⟩
abbrev NET_PORT_STAT_DOWN_CNT (n : Nat) : Fld := ⟨bar0 5 (0x50 + 0x4 * n), 8, 8, 0⟩
abbrev NET_PORT_STAT_TX_DIS (n : Nat) : Fld := ⟨bar0 5 (0x50 + 0x4 * n), 4, 1, 1⟩
abbrev NET_PORT_STAT_LOS (n : Nat) : Fld := ⟨bar0 5 (0x50 + 0x4 * n), 3, 1, 0⟩
abbrev NET_PORT_STAT_MOD_ABS (n : Nat) : Fld := ⟨bar0 5 (0x50 + 0x4 * n), 2, 1, 0⟩
abbrev NET_PORT_STAT_BLOCK_LOCK (n : Nat) : Fld := ⟨bar0 5 (0x50 + 0x4 * n), 1, 1, 0⟩
abbrev NET_PORT_STAT_LINK (n : Nat) : Fld := ⟨bar0 5 (0x50 + 0x4 * n), 0, 1, 0⟩
abbrev NET_PORT_PDELAY_PDELAY (n : Nat) : Fld := ⟨bar0 5 (0x58 + 0x4 * n), 0, 32, 0⟩
abbrev NET_PORT_ASYM_ASYM (n : Nat) : Fld := ⟨bar0 5 (0x60 + 0x4 * n), 0, 16, 0⟩
abbrev NET_TC_RES_MAX : Fld := ⟨bar0 5 0x68, 16, 16, 0⟩
abbrev NET_TC_RES_LAST : Fld := ⟨bar0 5 0x68, 0, 16, 0⟩
abbrev NET_LEARN_AGE : Fld := ⟨bar0 5 0x6c, 0, 16, 300⟩
abbrev NET_CNT_RX0_COUNT : Fld := ⟨bar0 5 0x70, 0, 32, 0⟩
abbrev NET_CNT_RX1_COUNT : Fld := ⟨bar0 5 0x74, 0, 32, 0⟩
abbrev NET_CNT_FCS0_COUNT : Fld := ⟨bar0 5 0x78, 0, 32, 0⟩
abbrev NET_CNT_FCS1_COUNT : Fld := ⟨bar0 5 0x7c, 0, 32, 0⟩
abbrev NET_CNT_FWD_COUNT : Fld := ⟨bar0 5 0x80, 0, 32, 0⟩
abbrev NET_CNT_TO_INT_COUNT : Fld := ⟨bar0 5 0x84, 0, 32, 0⟩
abbrev NET_CNT_TC_CORR_COUNT : Fld := ⟨bar0 5 0x88, 0, 32, 0⟩
abbrev NET_CNT_DROP_COUNT : Fld := ⟨bar0 5 0x8c, 0, 32, 0⟩
abbrev NET_MOD_ID_ID (n : Nat) : Fld := ⟨bar0 5 (0x100 + 0x4 * n), 0, 32, 0⟩

/-! Table host-11. HOST page registers (page 0x006) -/

abbrev HOST_LINK_D3HOT : Fld := ⟨bar0 6 0x40, 12, 1, 0⟩
abbrev HOST_LINK_BME : Fld := ⟨bar0 6 0x40, 11, 1, 0⟩
abbrev HOST_LINK_WIDTH : Fld := ⟨bar0 6 0x40, 4, 4, 0⟩
abbrev HOST_LINK_SPEED : Fld := ⟨bar0 6 0x40, 0, 4, 0⟩
abbrev HOST_RESETS_COUNT : Fld := ⟨bar0 6 0x44, 0, 16, 0⟩
abbrev HOST_EVT_SEL_SEL (n : Nat) : Fld := ⟨bar0 6 (0x50 + 0x4 * n), 0, 32, 0⟩
abbrev HOST_IMG_SAMPLE : Fld := ⟨bar0 6 0x64, 24, 8, 0⟩
abbrev HOST_IMG_GROUPS : Fld := ⟨bar0 6 0x64, 16, 8, 0⟩
abbrev HOST_IMG_PACK_EN : Fld := ⟨bar0 6 0x64, 5, 1, 0⟩
abbrev HOST_IMG_PACK_CH : Fld := ⟨bar0 6 0x64, 3, 2, 0⟩
abbrev HOST_IMG_REJ : Fld := ⟨bar0 6 0x64, 0, 1, 0⟩
abbrev HOST_REC_GO : Fld := ⟨bar0 6 0x68, 31, 1, 0⟩
abbrev HOST_REC_BUSY : Fld := ⟨bar0 6 0x68, 30, 1, 0⟩
abbrev HOST_REC_GROUP : Fld := ⟨bar0 6 0x68, 24, 3, 0⟩
abbrev HOST_REC_ROWS : Fld := ⟨bar0 6 0x68, 0, 16, 1⟩
abbrev HOST_NET_MIRROR : Fld := ⟨bar0 6 0x6c, 31, 1, 0⟩
abbrev HOST_NET_ETYPE : Fld := ⟨bar0 6 0x6c, 0, 16, 0x88B5⟩
abbrev HOST_NET_DST_LO_DST_LO : Fld := ⟨bar0 6 0x70, 0, 32, 0⟩
abbrev HOST_NET_DST_HI_DST_HI : Fld := ⟨bar0 6 0x74, 0, 16, 0⟩
abbrev HOST_ARB_W_DMA : Fld := ⟨bar0 6 0x78, 8, 8, 1⟩
abbrev HOST_ARB_W_REP : Fld := ⟨bar0 6 0x78, 0, 8, 1⟩
abbrev HOST_CNT_BAD_COUNT : Fld := ⟨bar0 6 0x7c, 0, 32, 0⟩

/-! Table host-12. Queue registers (queue q at 0x0100 + 0x40 × q, q = 0–4) -/

abbrev RQ_CTRL_FLUSH_US (n : Nat) : Fld := ⟨bar0 6 (0x100 + 0x40 * n), 16, 16, 1000⟩
abbrev RQ_CTRL_VECTOR (n : Nat) : Fld := ⟨bar0 6 (0x100 + 0x40 * n), 8, 6, n + 1⟩
abbrev RQ_CTRL_RELEASE_B (n : Nat) : Fld := ⟨bar0 6 (0x100 + 0x40 * n), 6, 1, 0⟩
abbrev RQ_CTRL_RELEASE_A (n : Nat) : Fld := ⟨bar0 6 (0x100 + 0x40 * n), 5, 1, 0⟩
abbrev RQ_CTRL_FAULT_B (n : Nat) : Fld := ⟨bar0 6 (0x100 + 0x40 * n), 4, 1, 0⟩
abbrev RQ_CTRL_FAULT_A (n : Nat) : Fld := ⟨bar0 6 (0x100 + 0x40 * n), 3, 1, 0⟩
abbrev RQ_CTRL_RESTORE (n : Nat) : Fld := ⟨bar0 6 (0x100 + 0x40 * n), 2, 1, 0⟩
abbrev RQ_CTRL_FLUSH (n : Nat) : Fld := ⟨bar0 6 (0x100 + 0x40 * n), 1, 1, 0⟩
abbrev RQ_CTRL_EN (n : Nat) : Fld := ⟨bar0 6 (0x100 + 0x40 * n), 0, 1, 0⟩
abbrev RQ_STAT_GAP (n : Nat) : Fld := ⟨bar0 6 (0x104 + 0x40 * n), 12, 1, 0⟩
abbrev RQ_STAT_FAULT (n : Nat) : Fld := ⟨bar0 6 (0x104 + 0x40 * n), 11, 1, 0⟩
abbrev RQ_STAT_RING_DATA (n : Nat) : Fld := ⟨bar0 6 (0x104 + 0x40 * n), 10, 1, 0⟩
abbrev RQ_STAT_SEALED_B (n : Nat) : Fld := ⟨bar0 6 (0x104 + 0x40 * n), 9, 1, 0⟩
abbrev RQ_STAT_SEALED_A (n : Nat) : Fld := ⟨bar0 6 (0x104 + 0x40 * n), 8, 1, 0⟩
abbrev RQ_STAT_STATE_B (n : Nat) : Fld := ⟨bar0 6 (0x104 + 0x40 * n), 6, 2, 0⟩
abbrev RQ_STAT_STATE_A (n : Nat) : Fld := ⟨bar0 6 (0x104 + 0x40 * n), 4, 2, 0⟩
abbrev RQ_STAT_ACTIVE (n : Nat) : Fld := ⟨bar0 6 (0x104 + 0x40 * n), 3, 1, 0⟩
abbrev RQ_STAT_MODE (n : Nat) : Fld := ⟨bar0 6 (0x104 + 0x40 * n), 0, 2, 0⟩
abbrev RQ_BANK_A_LO_ADDR (n : Nat) : Fld := ⟨bar0 6 (0x108 + 0x40 * n), 0, 32, 0⟩
abbrev RQ_BANK_A_HI_ADDR (n : Nat) : Fld := ⟨bar0 6 (0x10c + 0x40 * n), 0, 32, 0⟩
abbrev RQ_BANK_B_LO_ADDR (n : Nat) : Fld := ⟨bar0 6 (0x110 + 0x40 * n), 0, 32, 0⟩
abbrev RQ_BANK_B_HI_ADDR (n : Nat) : Fld := ⟨bar0 6 (0x114 + 0x40 * n), 0, 32, 0⟩
abbrev RQ_BANK_SIZE_SIZE (n : Nat) : Fld := ⟨bar0 6 (0x118 + 0x40 * n), 0, 13, 16⟩
abbrev RQ_RING_LO_ADDR (n : Nat) : Fld := ⟨bar0 6 (0x11c + 0x40 * n), 0, 32, 0⟩
abbrev RQ_RING_HI_ADDR (n : Nat) : Fld := ⟨bar0 6 (0x120 + 0x40 * n), 0, 32, 0⟩
abbrev RQ_RING_SIZE_SIZE (n : Nat) : Fld := ⟨bar0 6 (0x124 + 0x40 * n), 0, 13, 16⟩
abbrev RQ_RING_CI_CI (n : Nat) : Fld := ⟨bar0 6 (0x128 + 0x40 * n), 0, 32, 0⟩
abbrev RQ_RING_PI_PI (n : Nat) : Fld := ⟨bar0 6 (0x12c + 0x40 * n), 0, 32, 0⟩
abbrev RQ_SEQ_SEQ (n : Nat) : Fld := ⟨bar0 6 (0x130 + 0x40 * n), 0, 32, 0⟩
abbrev RQ_LOST_COUNT (n : Nat) : Fld := ⟨bar0 6 (0x134 + 0x40 * n), 0, 32, 0⟩
abbrev RQ_STAGE_USED (n : Nat) : Fld := ⟨bar0 6 (0x138 + 0x40 * n), 0, 16, 0⟩

/-! Table host-13. Descriptor ring registers (ring d at 0x0300 + 0x20 × d, d = 0–1) -/

abbrev DR_CTRL_SIZE (n : Nat) : Fld := ⟨bar0 6 (0x300 + 0x20 * n), 16, 16, 256⟩
abbrev DR_CTRL_VECTOR (n : Nat) : Fld := ⟨bar0 6 (0x300 + 0x20 * n), 8, 6, 6 + n⟩
abbrev DR_CTRL_EN (n : Nat) : Fld := ⟨bar0 6 (0x300 + 0x20 * n), 0, 1, 0⟩
abbrev DR_BASE_LO_ADDR (n : Nat) : Fld := ⟨bar0 6 (0x304 + 0x20 * n), 0, 32, 0⟩
abbrev DR_BASE_HI_ADDR (n : Nat) : Fld := ⟨bar0 6 (0x308 + 0x20 * n), 0, 32, 0⟩
abbrev DR_HEAD_HEAD (n : Nat) : Fld := ⟨bar0 6 (0x30c + 0x20 * n), 0, 16, 0⟩
abbrev DR_TAIL_TAIL (n : Nat) : Fld := ⟨bar0 6 (0x310 + 0x20 * n), 0, 16, 0⟩
abbrev DR_STAT_BUSY (n : Nat) : Fld := ⟨bar0 6 (0x314 + 0x20 * n), 2, 1, 0⟩
abbrev DR_STAT_ERR (n : Nat) : Fld := ⟨bar0 6 (0x314 + 0x20 * n), 1, 1, 0⟩
abbrev DR_STAT_DONE (n : Nat) : Fld := ⟨bar0 6 (0x314 + 0x20 * n), 0, 1, 0⟩

/-! Table pack-5. Channel registers (channel c) -/

abbrev PACK_CH_CFG_STREAM (n : Nat) : Fld := ⟨bar0 12 (0x100 + 0x40 * n), 16, 16, 0⟩
abbrev PACK_CH_CFG_FULL_CLEAR (n : Nat) : Fld := ⟨bar0 12 (0x100 + 0x40 * n), 2, 1, 0⟩
abbrev PACK_CH_CFG_CARRY (n : Nat) : Fld := ⟨bar0 12 (0x100 + 0x40 * n), 1, 1, 1⟩
abbrev PACK_CH_CFG_EN (n : Nat) : Fld := ⟨bar0 12 (0x100 + 0x40 * n), 0, 1, 0⟩
abbrev PACK_CH_STAT_LAST_ERR (n : Nat) : Fld := ⟨bar0 12 (0x104 + 0x40 * n), 24, 8, 0⟩
abbrev PACK_CH_STAT_DICT_FULL (n : Nat) : Fld := ⟨bar0 12 (0x104 + 0x40 * n), 3, 1, 0⟩
abbrev PACK_CH_STAT_HELD (n : Nat) : Fld := ⟨bar0 12 (0x104 + 0x40 * n), 2, 1, 0⟩
abbrev PACK_CH_STAT_DIR (n : Nat) : Fld := ⟨bar0 12 (0x104 + 0x40 * n), 0, 2, 0⟩
abbrev PACK_CH_HIST_BLOCK_SEQ (n : Nat) : Fld := ⟨bar0 12 (0x108 + 0x40 * n), 16, 16, 0⟩
abbrev PACK_CH_HIST_STREAM_ID (n : Nat) : Fld := ⟨bar0 12 (0x108 + 0x40 * n), 0, 16, 0⟩
abbrev PACK_CH_NEXT_NEXT (n : Nat) : Fld := ⟨bar0 12 (0x10c + 0x40 * n), 0, 17, 258⟩
abbrev PACK_CH_ST_CTRL_SAVE (n : Nat) : Fld := ⟨bar0 12 (0x110 + 0x40 * n), 31, 1, 0⟩
abbrev PACK_CH_ST_CTRL_LOAD (n : Nat) : Fld := ⟨bar0 12 (0x110 + 0x40 * n), 30, 1, 0⟩
abbrev PACK_CH_ST_CTRL_RESULT (n : Nat) : Fld := ⟨bar0 12 (0x110 + 0x40 * n), 8, 8, 0⟩
abbrev PACK_CH_ST_CTRL_BUSY (n : Nat) : Fld := ⟨bar0 12 (0x110 + 0x40 * n), 0, 1, 0⟩
abbrev PACK_CH_ST_ADDR_LO_ADDR_LO (n : Nat) : Fld := ⟨bar0 12 (0x114 + 0x40 * n), 6, 26, 0⟩
abbrev PACK_CH_ST_ADDR_HI_ADDR_HI (n : Nat) : Fld := ⟨bar0 12 (0x118 + 0x40 * n), 0, 2, 0⟩
abbrev PACK_CH_CNT_IN_COUNT (n : Nat) : Fld := ⟨bar0 12 (0x120 + 0x40 * n), 0, 32, 0⟩
abbrev PACK_CH_CNT_OUT_COUNT (n : Nat) : Fld := ⟨bar0 12 (0x124 + 0x40 * n), 0, 32, 0⟩
abbrev PACK_CH_CNT_BLOCKS_COUNT (n : Nat) : Fld := ⟨bar0 12 (0x128 + 0x40 * n), 0, 32, 0⟩
abbrev PACK_CH_CNT_VERIFY_FAIL_COUNT (n : Nat) : Fld := ⟨bar0 12 (0x12c + 0x40 * n), 0, 32, 0⟩
abbrev PACK_CH_CNT_DECODE_ERR_COUNT (n : Nat) : Fld := ⟨bar0 12 (0x130 + 0x40 * n), 0, 32, 0⟩
abbrev PACK_CH_CNT_OUTFULL_COUNT (n : Nat) : Fld := ⟨bar0 12 (0x134 + 0x40 * n), 0, 32, 0⟩

/-! Table cal-6. NVM page registers (page 0x009) -/

abbrev NVM_STAT_KEYS : Fld := ⟨bar0 9 0x40, 16, 8, 0⟩
abbrev NVM_STAT_FREE_UNITS : Fld := ⟨bar0 9 0x40, 0, 8, 240⟩
abbrev NVM_WEAR_MAX : Fld := ⟨bar0 9 0x44, 0, 32, 0⟩
abbrev NVM_WEAR_UNIT_RETIRED : Fld := ⟨bar0 9 0x48, 16, 16, 0⟩
abbrev NVM_WEAR_UNIT_UNIT : Fld := ⟨bar0 9 0x48, 0, 8, 0⟩
abbrev NVM_DIR_SEL_KEY : Fld := ⟨bar0 9 0x4c, 0, 7, 0⟩
abbrev NVM_DIR_INFO_VALID_B : Fld := ⟨bar0 9 0x50, 31, 1, 0⟩
abbrev NVM_DIR_INFO_VALID_A : Fld := ⟨bar0 9 0x50, 30, 1, 0⟩
abbrev NVM_DIR_INFO_NEWEST : Fld := ⟨bar0 9 0x50, 29, 1, 0⟩
abbrev NVM_DIR_INFO_INST : Fld := ⟨bar0 9 0x50, 16, 8, 0⟩
abbrev NVM_DIR_INFO_KIND : Fld := ⟨bar0 9 0x50, 0, 8, 0xFF⟩
abbrev NVM_DIR_GEN_A_GEN : Fld := ⟨bar0 9 0x54, 0, 32, 0⟩
abbrev NVM_DIR_GEN_B_GEN : Fld := ⟨bar0 9 0x58, 0, 32, 0⟩
abbrev NVM_CNT_COMMIT_COUNT : Fld := ⟨bar0 9 0x5c, 0, 32, 0⟩
abbrev NVM_CNT_RESTORE_COUNT : Fld := ⟨bar0 9 0x60, 0, 32, 0⟩
abbrev NVM_CNT_PLAUS_COUNT : Fld := ⟨bar0 9 0x64, 0, 32, 0⟩
abbrev NVM_CNT_CHECK_FAIL_COUNT : Fld := ⟨bar0 9 0x68, 0, 32, 0⟩
abbrev CAL_PLAUS0_PL_DARK : Fld := ⟨bar0 9 0x70, 16, 8, 8⟩
abbrev CAL_PLAUS0_PL_GAIN : Fld := ⟨bar0 9 0x70, 0, 16, 205⟩
abbrev CAL_PLAUS1_PL_BG : Fld := ⟨bar0 9 0x74, 16, 16, 4096⟩
abbrev CAL_PLAUS1_PL_PERMILLE : Fld := ⟨bar0 9 0x74, 0, 10, 20⟩
abbrev CAL_ILLUM_DELAY : Fld := ⟨bar0 9 0x78, 24, 8, 2⟩
abbrev CAL_ILLUM_DEAD : Fld := ⟨bar0 9 0x78, 16, 8, 10⟩
abbrev CAL_ILLUM_PROPOSAL : Fld := ⟨bar0 9 0x78, 4, 1, 0⟩
abbrev CAL_ILLUM_PEND : Fld := ⟨bar0 9 0x78, 3, 1, 0⟩
abbrev CAL_ILLUM_APPLY : Fld := ⟨bar0 9 0x78, 2, 1, 0⟩
abbrev CAL_ILLUM_METHOD : Fld := ⟨bar0 9 0x78, 0, 2, 0⟩
abbrev CAL_ILLUM_LIM_GAIN_STEP : Fld := ⟨bar0 9 0x7c, 16, 16, 20⟩
abbrev CAL_ILLUM_LIM_TRIM_STEP : Fld := ⟨bar0 9 0x7c, 0, 14, 64⟩
abbrev CAL_LAMP_MAP_ZONES (n : Nat) : Fld := ⟨bar0 9 (0x100 + 0x8 * n), 16, 16, 0⟩
abbrev CAL_LAMP_MAP_EN (n : Nat) : Fld := ⟨bar0 9 (0x100 + 0x8 * n), 15, 1, 0⟩
abbrev CAL_LAMP_MAP_BAND (n : Nat) : Fld := ⟨bar0 9 (0x100 + 0x8 * n), 4, 2, 0⟩
abbrev CAL_LAMP_MAP_PORT (n : Nat) : Fld := ⟨bar0 9 (0x100 + 0x8 * n), 0, 4, 0⟩
abbrev CAL_LAMP_PROP_VALID (n : Nat) : Fld := ⟨bar0 9 (0x104 + 0x8 * n), 31, 1, 0⟩
abbrev CAL_LAMP_PROP_CODE (n : Nat) : Fld := ⟨bar0 9 (0x104 + 0x8 * n), 0, 14, 0⟩

/-! Table cal-7. ISL page registers (page 0x003) -/

abbrev ISL_CFG_MGN_HI : Fld := ⟨bar0 3 0x40, 16, 16, 90⟩
abbrev ISL_CFG_MGN_LO : Fld := ⟨bar0 3 0x40, 0, 16, 40⟩
abbrev ISL_LIMIT_LOWER_HOLD : Fld := ⟨bar0 3 0x44, 16, 16, 24⟩
abbrev ISL_LIMIT_HEADROOM : Fld := ⟨bar0 3 0x44, 0, 5, 10⟩
abbrev ISL_HEALTH_AGED : Fld := ⟨bar0 3 0x48, 24, 8, 0⟩
abbrev ISL_HEALTH_WORST : Fld := ⟨bar0 3 0x48, 16, 8, 0⟩
abbrev ISL_HEALTH_WORST_SLACK : Fld := ⟨bar0 3 0x48, 0, 16, 0⟩
abbrev ISL_CANARY_HITS : Fld := ⟨bar0 3 0x4c, 0, 32, 0⟩
abbrev ISL_STEPS_DOWN : Fld := ⟨bar0 3 0x50, 16, 16, 0⟩
abbrev ISL_STEPS_UP : Fld := ⟨bar0 3 0x50, 0, 16, 0⟩
abbrev ISL_PT_FIXED (n : Nat) : Fld := ⟨bar0 3 (0x100 + 0x8 * n), 31, 1, if n = 88 ∨ (90 ≤ n ∧ n ≤ 93) then 1 else 0⟩
abbrev ISL_PT_UNREG (n : Nat) : Fld := ⟨bar0 3 (0x100 + 0x8 * n), 30, 1, if n = 16 ∨ n = 95 then 1 else 0⟩
abbrev ISL_PT_AGED (n : Nat) : Fld := ⟨bar0 3 (0x100 + 0x8 * n), 29, 1, 0⟩
abbrev ISL_PT_PROP_VALID (n : Nat) : Fld := ⟨bar0 3 (0x100 + 0x8 * n), 28, 1, 0⟩
abbrev ISL_PT_PROP (n : Nat) : Fld := ⟨bar0 3 (0x100 + 0x8 * n), 16, 5, 0⟩
abbrev ISL_PT_INIT (n : Nat) : Fld := ⟨bar0 3 (0x100 + 0x8 * n), 8, 5, islInit n⟩
abbrev ISL_PT_VCODE (n : Nat) : Fld := ⟨bar0 3 (0x100 + 0x8 * n), 0, 5, islInit n⟩
abbrev ISL_MGN_CANARY (n : Nat) : Fld := ⟨bar0 3 (0x104 + 0x8 * n), 24, 8, 0⟩
abbrev ISL_MGN_SLACK (n : Nat) : Fld := ⟨bar0 3 (0x104 + 0x8 * n), 0, 16, 0⟩

/-! Table obs-3. OBS page registers (page 0x00B) -/

abbrev OBS_CTRL_PERIOD : Fld := ⟨bar0 11 0x40, 16, 16, 0⟩
abbrev OBS_CTRL_REC : Fld := ⟨bar0 11 0x40, 2, 1, 1⟩
abbrev OBS_CTRL_CLR : Fld := ⟨bar0 11 0x40, 1, 1, 1⟩
abbrev OBS_CTRL_SNAP : Fld := ⟨bar0 11 0x40, 0, 1, 0⟩
abbrev OBS_SNAP_MASK_MASK : Fld := ⟨bar0 11 0x44, 0, 32, 0xFFFF_FFFF⟩
abbrev OBS_SNAP_SEQ_SEQ : Fld := ⟨bar0 11 0x48, 0, 32, 0⟩
abbrev OBS_SNAP_DT_LO_DT : Fld := ⟨bar0 11 0x4c, 0, 32, 0⟩
abbrev OBS_SNAP_DT_HI_DT : Fld := ⟨bar0 11 0x50, 0, 32, 0⟩
abbrev OBS_RD_SEL_LIVE : Fld := ⟨bar0 11 0x54, 15, 1, 0⟩
abbrev OBS_RD_SEL_MON : Fld := ⟨bar0 11 0x54, 8, 5, 0⟩
abbrev OBS_RD_SEL_ITEM : Fld := ⟨bar0 11 0x54, 0, 6, 0⟩
abbrev OBS_RD_DATA_DATA : Fld := ⟨bar0 11 0x58, 0, 32, 0⟩
abbrev OBS_TEST_VALUE : Fld := ⟨bar0 11 0x5c, 0, 32, 0⟩
abbrev OBS_MON_CFG_EN (n : Nat) : Fld := ⟨bar0 11 (0x100 + 0x8 * n), 31, 1, 0⟩
abbrev OBS_MON_CFG_LOG2 (n : Nat) : Fld := ⟨bar0 11 (0x100 + 0x8 * n), 30, 1, 0⟩
abbrev OBS_MON_CFG_ABS (n : Nat) : Fld := ⟨bar0 11 (0x100 + 0x8 * n), 29, 1, 0⟩
abbrev OBS_MON_CFG_SHIFT (n : Nat) : Fld := ⟨bar0 11 (0x100 + 0x8 * n), 24, 5, 0⟩
abbrev OBS_MON_CFG_INST (n : Nat) : Fld := ⟨bar0 11 (0x100 + 0x8 * n), 16, 8, 0⟩
abbrev OBS_MON_CFG_SRC (n : Nat) : Fld := ⟨bar0 11 (0x100 + 0x8 * n), 0, 8, 0⟩
abbrev OBS_MON_BASE_BASE (n : Nat) : Fld := ⟨bar0 11 (0x104 + 0x8 * n), 0, 32, 0⟩

/-! Table obs-4. CHK page registers (unit c at 0x0100 + 0x40 × c, c = 0–3) -/

abbrev CHK_CFG_REFOUT (n : Nat) : Fld := ⟨bar0 10 (0x100 + 0x40 * n), 3, 1, 1⟩
abbrev CHK_CFG_REFIN (n : Nat) : Fld := ⟨bar0 10 (0x100 + 0x40 * n), 2, 1, 1⟩
abbrev CHK_CFG_WIDTH (n : Nat) : Fld := ⟨bar0 10 (0x100 + 0x40 * n), 0, 2, 2⟩
abbrev CHK_POLY_POLY (n : Nat) : Fld := ⟨bar0 10 (0x104 + 0x40 * n), 0, 32, 0x1EDC_6F41⟩
abbrev CHK_INIT_INIT (n : Nat) : Fld := ⟨bar0 10 (0x108 + 0x40 * n), 0, 32, 0xFFFF_FFFF⟩
abbrev CHK_XOROUT_XOROUT (n : Nat) : Fld := ⟨bar0 10 (0x10c + 0x40 * n), 0, 32, 0xFFFF_FFFF⟩
abbrev CHK_CTRL_GO (n : Nat) : Fld := ⟨bar0 10 (0x110 + 0x40 * n), 1, 1, 0⟩
abbrev CHK_CTRL_INIT (n : Nat) : Fld := ⟨bar0 10 (0x110 + 0x40 * n), 0, 1, 0⟩
abbrev CHK_STAT_CODE (n : Nat) : Fld := ⟨bar0 10 (0x114 + 0x40 * n), 8, 8, 0⟩
abbrev CHK_STAT_ERR (n : Nat) : Fld := ⟨bar0 10 (0x114 + 0x40 * n), 7, 1, 0⟩
abbrev CHK_STAT_BUSY (n : Nat) : Fld := ⟨bar0 10 (0x114 + 0x40 * n), 6, 1, 0⟩
abbrev CHK_STAT_DONE (n : Nat) : Fld := ⟨bar0 10 (0x114 + 0x40 * n), 5, 1, 0⟩
abbrev CHK_STAT_LEVEL (n : Nat) : Fld := ⟨bar0 10 (0x114 + 0x40 * n), 0, 5, 0⟩
abbrev CHK_DATA_DATA (n : Nat) : Fld := ⟨bar0 10 (0x118 + 0x40 * n), 0, 32, 0⟩
abbrev CHK_DATA1_DATA (n : Nat) : Fld := ⟨bar0 10 (0x11c + 0x40 * n), 0, 32, 0⟩
abbrev CHK_DATA2_DATA (n : Nat) : Fld := ⟨bar0 10 (0x120 + 0x40 * n), 0, 32, 0⟩
abbrev CHK_DATA3_DATA (n : Nat) : Fld := ⟨bar0 10 (0x124 + 0x40 * n), 0, 32, 0⟩
abbrev CHK_SRC_LO_SRC_LO (n : Nat) : Fld := ⟨bar0 10 (0x128 + 0x40 * n), 0, 32, 0⟩
abbrev CHK_SRC_HI_SRC_HI (n : Nat) : Fld := ⟨bar0 10 (0x12c + 0x40 * n), 0, 3, 0⟩
abbrev CHK_LEN_LEN (n : Nat) : Fld := ⟨bar0 10 (0x130 + 0x40 * n), 0, 32, 0⟩
abbrev CHK_RESULT_RESULT (n : Nat) : Fld := ⟨bar0 10 (0x134 + 0x40 * n), 0, 32, 0xFFFF_FFFF⟩
abbrev CHK_COUNT_COUNT (n : Nat) : Fld := ⟨bar0 10 (0x138 + 0x40 * n), 0, 32, 0⟩

/-! Table twin-8. TWIN page registers (page 0x090) -/

abbrev TWIN_CTRL_DIG_LIMIT : Fld := ⟨bar0 144 0x40, 24, 8, 16⟩
abbrev TWIN_CTRL_START_WAIT : Fld := ⟨bar0 144 0x40, 16, 8, 10⟩
abbrev TWIN_CTRL_LANE_WD : Fld := ⟨bar0 144 0x40, 8, 4, 0⟩
abbrev TWIN_CTRL_JOIN_GO : Fld := ⟨bar0 144 0x40, 4, 1, 0⟩
abbrev TWIN_CTRL_SVC_HOST : Fld := ⟨bar0 144 0x40, 3, 1, 0⟩
abbrev TWIN_CTRL_AUTO_HAND : Fld := ⟨bar0 144 0x40, 2, 1, 1⟩
abbrev TWIN_CTRL_DIG_EN : Fld := ⟨bar0 144 0x40, 1, 1, 1⟩
abbrev TWIN_STAT_PARTNER_STATE : Fld := ⟨bar0 144 0x44, 28, 4, 0⟩
abbrev TWIN_STAT_PARTNER_LEVEL : Fld := ⟨bar0 144 0x44, 24, 4, 0⟩
abbrev TWIN_STAT_LANES : Fld := ⟨bar0 144 0x44, 16, 4, 0⟩
abbrev TWIN_STAT_HOSTING : Fld := ⟨bar0 144 0x44, 8, 1, 0⟩
abbrev TWIN_STAT_LINK_UP : Fld := ⟨bar0 144 0x44, 7, 1, 0⟩
abbrev TWIN_STAT_PARTNER_OK : Fld := ⟨bar0 144 0x44, 6, 1, 0⟩
abbrev TWIN_STAT_SYNCED : Fld := ⟨bar0 144 0x44, 5, 1, 0⟩
abbrev TWIN_STAT_CATCHUP : Fld := ⟨bar0 144 0x44, 4, 1, 0⟩
abbrev TWIN_STAT_ROLE : Fld := ⟨bar0 144 0x44, 0, 3, 0⟩
abbrev TWIN_TOKEN_HELD : Fld := ⟨bar0 144 0x48, 16, 1, 0⟩
abbrev TWIN_TOKEN_EPOCH : Fld := ⟨bar0 144 0x48, 0, 16, 0⟩
abbrev TWIN_JOIN_AT_LO_AT_LO : Fld := ⟨bar0 144 0x4c, 0, 32, 0⟩
abbrev TWIN_JOIN_AT_HI_AT_HI : Fld := ⟨bar0 144 0x50, 0, 8, 0⟩
abbrev TWIN_JOIN_STAT_COPIED : Fld := ⟨bar0 144 0x54, 16, 16, 0⟩
abbrev TWIN_JOIN_STAT_PHASE : Fld := ⟨bar0 144 0x54, 0, 3, 0⟩
abbrev TWIN_CFG_CHECK_CHECK : Fld := ⟨bar0 144 0x58, 0, 32, 0⟩
abbrev TWIN_PCFG_CHECK_CHECK : Fld := ⟨bar0 144 0x5c, 0, 32, 0⟩
abbrev TWIN_HB_MISSED : Fld := ⟨bar0 144 0x60, 16, 16, 0⟩
abbrev TWIN_HB_AGE : Fld := ⟨bar0 144 0x60, 0, 16, 0⟩
abbrev TWIN_DIG_ROWS_COUNT : Fld := ⟨bar0 144 0x64, 0, 32, 0⟩
abbrev TWIN_DIG_RMIS_COUNT : Fld := ⟨bar0 144 0x68, 0, 32, 0⟩
abbrev TWIN_DIG_VMIS_COUNT : Fld := ⟨bar0 144 0x6c, 0, 32, 0⟩
abbrev TWIN_DIG_FIRST_INDEX : Fld := ⟨bar0 144 0x70, 0, 32, 0⟩
abbrev TWIN_DIG_INFO_CLR : Fld := ⟨bar0 144 0x74, 31, 1, 0⟩
abbrev TWIN_DIG_INFO_KIND : Fld := ⟨bar0 144 0x74, 4, 1, 0⟩
abbrev TWIN_DIG_INFO_PORT : Fld := ⟨bar0 144 0x74, 0, 4, 0⟩
abbrev TWIN_CNT_TAKEOVER_COUNT : Fld := ⟨bar0 144 0x80, 0, 32, 0⟩
abbrev TWIN_CNT_HANDOVER_COUNT : Fld := ⟨bar0 144 0x84, 0, 32, 0⟩
abbrev TWIN_CNT_DEPOSED_COUNT : Fld := ⟨bar0 144 0x88, 0, 32, 0⟩
abbrev TWIN_CNT_RETX_COUNT : Fld := ⟨bar0 144 0x8c, 0, 32, 0⟩
abbrev TWIN_CNT_CRC_COUNT : Fld := ⟨bar0 144 0x90, 0, 32, 0⟩
abbrev TWIN_CNT_LINKDOWN_COUNT : Fld := ⟨bar0 144 0x94, 0, 32, 0⟩
abbrev TWIN_ROLE_DT_LO_DT : Fld := ⟨bar0 144 0x98, 0, 32, 0⟩
abbrev TWIN_ROLE_DT_HI_DT : Fld := ⟨bar0 144 0x9c, 0, 32, 0⟩

/-! Table twin-9. MODE page registers (page 0x091) -/

abbrev MODE_LEVEL_VIEW_LOST : Fld := ⟨bar0 145 0x40, 16, 8, 0⟩
abbrev MODE_LEVEL_HALF : Fld := ⟨bar0 145 0x40, 8, 1, 0⟩
abbrev MODE_LEVEL_PREV : Fld := ⟨bar0 145 0x40, 4, 4, 0⟩
abbrev MODE_LEVEL_LEVEL : Fld := ⟨bar0 145 0x40, 0, 4, 0⟩
abbrev MODE_CAUSE_DETAIL : Fld := ⟨bar0 145 0x44, 8, 8, 0⟩
abbrev MODE_CAUSE_CAUSE : Fld := ⟨bar0 145 0x44, 0, 8, 0⟩
abbrev MODE_DT_LO_DT : Fld := ⟨bar0 145 0x48, 0, 32, 0⟩
abbrev MODE_DT_HI_DT : Fld := ⟨bar0 145 0x4c, 0, 32, 0⟩
abbrev MODE_CTRL_HALF_MS : Fld := ⟨bar0 145 0x50, 0, 16, 100⟩
abbrev MODE_ROLE_SAVE_ROLE (k : Nat) : Fld := ⟨bar0 145 0x54, 2 * k, 2, 0⟩
abbrev MODE_CNT_HALF_TRUNC_COUNT : Fld := ⟨bar0 145 0x60, 0, 32, 0⟩
abbrev MODE_CNT_TWI_RESOLVE_COUNT : Fld := ⟨bar0 145 0x64, 0, 32, 0⟩
abbrev MODE_CNT_ECL_BODIES_COUNT : Fld := ⟨bar0 145 0x68, 0, 32, 0⟩
abbrev MODE_CNT_ECL_CANCEL_COUNT : Fld := ⟨bar0 145 0x6c, 0, 32, 0⟩
abbrev MODE_CNT_PRESYNC_COUNT : Fld := ⟨bar0 145 0x70, 0, 32, 0⟩

/-! Table teth-9. TETH page registers (page 0x007) -/

abbrev TETH_ADDR_OVER : Fld := ⟨bar0 7 0x40, 10, 1, 0⟩
abbrev TETH_ADDR_LAST : Fld := ⟨bar0 7 0x40, 9, 1, 0⟩
abbrev TETH_ADDR_ROOT : Fld := ⟨bar0 7 0x40, 8, 1, 0⟩
abbrev TETH_ADDR_ADDR : Fld := ⟨bar0 7 0x40, 0, 7, 0⟩
abbrev TETH_STAT_CHAIN : Fld := ⟨bar0 7 0x44, 16, 8, 0⟩
abbrev TETH_STAT_RET_LOCK : Fld := ⟨bar0 7 0x44, 1, 1, 0⟩
abbrev TETH_STAT_FWD_LOCK : Fld := ⟨bar0 7 0x44, 0, 1, 0⟩
abbrev TETH_CNT_CRC : Fld := ⟨bar0 7 0x48, 16, 16, 0⟩
abbrev TETH_CNT_OVERRUN : Fld := ⟨bar0 7 0x48, 0, 16, 0⟩
abbrev TETH_EVT_MASK_MASK (n : Nat) : Fld := ⟨bar0 7 (0x50 + 0x4 * n), 0, 32, 0⟩
abbrev TETH_ENUM_OVER : Fld := ⟨bar0 7 0x80, 17, 1, 0⟩
abbrev TETH_ENUM_DONE : Fld := ⟨bar0 7 0x80, 16, 1, 0⟩
abbrev TETH_ENUM_COUNT : Fld := ⟨bar0 7 0x80, 8, 8, 0⟩
abbrev TETH_ENUM_CLEAR : Fld := ⟨bar0 7 0x80, 1, 1, 0⟩
abbrev TETH_ENUM_GO : Fld := ⟨bar0 7 0x80, 0, 1, 0⟩
abbrev TETH_BR_CTRL_GO : Fld := ⟨bar0 7 0x84, 31, 1, 0⟩
abbrev TETH_BR_CTRL_WRITE : Fld := ⟨bar0 7 0x84, 8, 1, 0⟩
abbrev TETH_BR_CTRL_DST : Fld := ⟨bar0 7 0x84, 0, 7, 0⟩
abbrev TETH_BR_ADDR_OFFSET : Fld := ⟨bar0 7 0x88, 0, 26, 0⟩
abbrev TETH_BR_DATA_DATA : Fld := ⟨bar0 7 0x8c, 0, 32, 0⟩
abbrev TETH_BR_STAT_RESULT : Fld := ⟨bar0 7 0x90, 8, 8, 0⟩
abbrev TETH_BR_STAT_BUSY : Fld := ⟨bar0 7 0x90, 0, 1, 0⟩
abbrev TETH_BULK_SRC_LO_SRC_LO : Fld := ⟨bar0 7 0x94, 6, 26, 0⟩
abbrev TETH_BULK_SRC_HI_SRC_HI : Fld := ⟨bar0 7 0x98, 0, 2, 0⟩
abbrev TETH_BULK_LEN_LEN : Fld := ⟨bar0 7 0x9c, 0, 23, 0⟩
abbrev TETH_BULK_CTRL_GO : Fld := ⟨bar0 7 0xa0, 31, 1, 0⟩
abbrev TETH_BULK_CTRL_DST : Fld := ⟨bar0 7 0xa0, 0, 7, 0x7F⟩
abbrev TETH_BULK_FIRST_FIRST : Fld := ⟨bar0 7 0xa4, 0, 24, 0⟩
abbrev TETH_EVT_FIFO_VALID : Fld := ⟨bar0 7 0xa8, 31, 1, 0⟩
abbrev TETH_EVT_FIFO_SRC : Fld := ⟨bar0 7 0xa8, 24, 7, 0⟩
abbrev TETH_EVT_FIFO_PAGE : Fld := ⟨bar0 7 0xa8, 16, 8, 0⟩
abbrev TETH_EVT_FIFO_IRQ : Fld := ⟨bar0 7 0xa8, 0, 16, 0⟩
abbrev TETH_BOOT_STAT_MISS : Fld := ⟨bar0 7 0xb0, 0, 24, 0⟩

/-! Table teth-10. SEC page registers (page 0x008) -/

abbrev SEC_LIFE_PROG_REVOKED : Fld := ⟨bar0 8 0x40, 20, 4, 0⟩
abbrev SEC_LIFE_PROG_FUSED : Fld := ⟨bar0 8 0x40, 16, 4, 0⟩
abbrev SEC_LIFE_FW_REVOKED : Fld := ⟨bar0 8 0x40, 12, 4, 0⟩
abbrev SEC_LIFE_FW_FUSED : Fld := ⟨bar0 8 0x40, 8, 4, 15⟩
abbrev SEC_LIFE_LIFECYCLE : Fld := ⟨bar0 8 0x40, 0, 2, 1⟩
abbrev SEC_SERIAL_LO_SERIAL : Fld := ⟨bar0 8 0x44, 0, 32, 0⟩
abbrev SEC_SERIAL_HI_SERIAL : Fld := ⟨bar0 8 0x48, 0, 32, 0⟩
abbrev SEC_SVN_COMMIT : Fld := ⟨bar0 8 0x4c, 16, 1, 0⟩
abbrev SEC_SVN_RUNNING : Fld := ⟨bar0 8 0x4c, 8, 8, 0⟩
abbrev SEC_SVN_FLOOR : Fld := ⟨bar0 8 0x4c, 0, 8, 0⟩
abbrev SEC_FW_VER_VERSION : Fld := ⟨bar0 8 0x50, 0, 32, 0⟩
abbrev SEC_BOOT_STAT_WAITING : Fld := ⟨bar0 8 0x54, 25, 1, 0⟩
abbrev SEC_BOOT_STAT_TRIAL : Fld := ⟨bar0 8 0x54, 24, 1, 0⟩
abbrev SEC_BOOT_STAT_ATTEMPTS : Fld := ⟨bar0 8 0x54, 16, 8, 0⟩
abbrev SEC_BOOT_STAT_CAUSE : Fld := ⟨bar0 8 0x54, 8, 8, 0⟩
abbrev SEC_BOOT_STAT_SLOT : Fld := ⟨bar0 8 0x54, 0, 2, 0⟩
abbrev SEC_BOOT_CTRL_GO : Fld := ⟨bar0 8 0x58, 31, 1, 0⟩
abbrev SEC_BOOT_CTRL_NEXT_SRC : Fld := ⟨bar0 8 0x58, 23, 2, 0⟩
abbrev SEC_BOOT_CTRL_LEN : Fld := ⟨bar0 8 0x58, 0, 23, 0⟩
abbrev SEC_FW_STAT_STAGED_SVN : Fld := ⟨bar0 8 0x5c, 8, 8, 0⟩
abbrev SEC_FW_STAT_CONFIRMED : Fld := ⟨bar0 8 0x5c, 2, 1, 0⟩
abbrev SEC_FW_STAT_STAGE : Fld := ⟨bar0 8 0x5c, 0, 2, 0⟩
abbrev SEC_PROG_PROG_KEY : Fld := ⟨bar0 8 0x60, 0, 2, 0⟩
abbrev SEC_ID_PUB_PUB (n : Nat) : Fld := ⟨bar0 8 (0x80 + 0x4 * n), 0, 32, 0⟩
abbrev SEC_KEY_DATA_DATA (n : Nat) : Fld := ⟨bar0 8 (0xa0 + 0x4 * n), 0, 32, 0⟩
abbrev SEC_KEY_PROG_KEY : Fld := ⟨bar0 8 0xc0, 16, 16, 0⟩
abbrev SEC_KEY_PROG_BUSY : Fld := ⟨bar0 8 0xc0, 5, 1, 0⟩
abbrev SEC_KEY_PROG_REVOKE : Fld := ⟨bar0 8 0xc0, 4, 1, 0⟩
abbrev SEC_KEY_PROG_PROG : Fld := ⟨bar0 8 0xc0, 3, 1, 0⟩
abbrev SEC_KEY_PROG_SLOT : Fld := ⟨bar0 8 0xc0, 0, 2, 0⟩
abbrev SEC_REPORT_REPORT (n : Nat) : Fld := ⟨bar0 8 (0x100 + 0x4 * n), 0, 32, 0⟩

/-! BAR4: the MSI-X table and PBA as PCI Express lays them out, and the function mask of the capability (log entry 89, PRESUMED) -/

abbrev MSIX_ADDR_LO (v : Nat) : Fld := ⟨bar4 (16 * v), 0, 32, 0⟩
abbrev MSIX_ADDR_HI (v : Nat) : Fld := ⟨bar4 (16 * v + 4), 0, 32, 0⟩
abbrev MSIX_DATA (v : Nat) : Fld := ⟨bar4 (16 * v + 8), 0, 32, 0⟩
abbrev MSIX_VECTOR_MASK (v : Nat) : Fld := ⟨bar4 (16 * v + 12), 0, 1, 1⟩
abbrev MSIX_PBA (n : Nat) : Fld := ⟨bar4 (0x2000 + 4 * n), 0, 32, 0⟩
abbrev MSIX_FUNCTION_MASK : Fld := ⟨bar4 0x4000, 0, 1, 0⟩
end F

end Sys2Proof.Machine
end

