-- ==== Sys2Proof/Machine/RegMap.lean ====
section
/-! DEFINITION. The register map of BAR0: for each page kind of Table regs-1, the registers of its tables, with the access type of each field
(R56). A write and a read of a register go through these rows. -/

namespace Sys2Proof.Machine

/-- The access types of Table regs-2. Bits that no row lists are RSV. -/
inductive Access where
  | ro | rw | rws | w1c | w1s | wo | rc
  deriving DecidableEq, Repr

/-- One register of a page, or `count` of them `stride` apart: its offset and its fields, for the page's instance and the register's index. -/
structure RegRow where
  name   : String
  base   : Nat
  stride : Nat
  count  : Nat
  fields : Nat → Nat → List (Access × Fld)

def rowsDev : List RegRow := [
  ⟨"DEV_IDENT", 0x40, 0x0, 1, fun _ _ => [(.ro, F.DEV_IDENT_PART), (.ro, F.DEV_IDENT_STEP_LETTER), (.ro, F.DEV_IDENT_STEP_DIGIT)]⟩,
  ⟨"DEV_STATE", 0x44, 0x0, 1, fun _ _ => [(.ro, F.DEV_STATE_TRANS_CNT), (.ro, F.DEV_STATE_PREV), (.ro, F.DEV_STATE_STATE)]⟩,
  ⟨"DEV_STRAPS", 0x48, 0x0, 1, fun _ _ => [(.ro, F.DEV_STRAPS_TWIN_SIDE), (.ro, F.DEV_STRAPS_TETH_ROOT), (.ro, F.DEV_STRAPS_BOOT_SRC)]⟩,
  ⟨"DEV_RESET_CAUSE", 0x4c, 0x0, 1, fun _ _ => [(.ro, F.DEV_RESET_CAUSE_WARM_CNT), (.ro, F.DEV_RESET_CAUSE_CAUSE)]⟩,
  ⟨"DEV_FEAT_OFFER", 0x50, 0x4, 4, fun _ n => [(.ro, F.DEV_FEAT_OFFER_OFFER n)]⟩,
  ⟨"DRV_FEAT_ACCEPT", 0x60, 0x4, 4, fun _ n => [(.rw, F.DRV_FEAT_ACCEPT_ACCEPT n)]⟩,
  ⟨"DEV_FEAT_COMMIT", 0x70, 0x0, 1, fun _ _ => [(.wo, F.DEV_FEAT_COMMIT_COMMIT)]⟩,
  ⟨"DEV_FEAT_RESULT", 0x74, 0x0, 1, fun _ _ => [(.ro, F.DEV_FEAT_RESULT_BIT), (.ro, F.DEV_FEAT_RESULT_RESULT)]⟩,
  ⟨"DEV_ENV_STAT", 0x78, 0x0, 1, fun _ _ => [(.ro, F.DEV_ENV_STAT_TJ_MAX), (.ro, F.DEV_ENV_STAT_HBM_FAIL), (.ro, F.DEV_ENV_STAT_THROTTLE), (.ro, F.DEV_ENV_STAT_ALARM), (.ro, F.DEV_ENV_STAT_CLK_LOST)]⟩]

def rowsCmd : List RegRow := [
  ⟨"CMD_CODE", 0x40, 0x0, 1, fun _ _ => [(.rw, F.CMD_CODE_TAG), (.rw, F.CMD_CODE_FLAGS), (.rw, F.CMD_CODE_CODE)]⟩,
  ⟨"CMD_ARG", 0x44, 0x4, 8, fun _ n => [(.rw, F.CMD_ARG_ARG n)]⟩,
  ⟨"CMD_DOORBELL", 0x64, 0x0, 1, fun _ _ => [(.wo, F.CMD_DOORBELL_SUBMIT)]⟩,
  ⟨"CMD_STATUS", 0x68, 0x0, 1, fun _ _ => [(.ro, F.CMD_STATUS_TAG), (.ro, F.CMD_STATUS_RESULT), (.ro, F.CMD_STATUS_BUSY)]⟩,
  ⟨"CMD_RET", 0x6c, 0x4, 4, fun _ n => [(.ro, F.CMD_RET_RET n)]⟩]

def rowsIrq : List RegRow := [
  ⟨"IRQ_PEND", 0x40, 0x4, 5, fun _ n => [(.ro, F.IRQ_PEND_PEND n)]⟩,
  ⟨"IRQ_ROUTE", 0x80, 0x4, 37, fun _ n => (List.range 4).map (fun k => (.rw, F.IRQ_ROUTE_MASK n k)) ++ (List.range 4).map (fun k => (.rw, F.IRQ_ROUTE_VECTOR n k))⟩,
  ⟨"IRQ_REARM", 0x140, 0x4, 2, fun _ n => [(.w1s, F.IRQ_REARM_REARM n)]⟩,
  ⟨"IRQ_ARMED", 0x148, 0x4, 2, fun _ n => [(.ro, F.IRQ_ARMED_ARMED n)]⟩]

def rowsCxp0 : List RegRow := [
  ⟨"CXP_CTRL", 0x40, 0x0, 1, fun p _ => [(.rws, F.CXP_CTRL_GROUP p), (.rws, F.CXP_CTRL_TRIG_SRC p), (.rws, F.CXP_CTRL_CONN p), (.rws, F.CXP_CTRL_RELAYED p), (.rw, F.CXP_CTRL_POCXP_EN p), (.rw, F.CXP_CTRL_AUTO_RELINK p)]⟩,
  ⟨"CXP_LINK", 0x44, 0x0, 1, fun p _ => [(.ro, F.CXP_LINK_HSUP p), (.ro, F.CXP_LINK_LOCK p), (.ro, F.CXP_LINK_CONN_FOUND p), (.ro, F.CXP_LINK_SPEED p), (.rws, F.CXP_LINK_SPEED_MAX p)]⟩,
  ⟨"CXP_FORMAT", 0x48, 0x0, 1, fun p _ => [(.rws, F.CXP_FORMAT_BANDS p), (.rws, F.CXP_FORMAT_SAMPLE_BITS p), (.rws, F.CXP_FORMAT_LINE_LEN p)]⟩,
  ⟨"CXP_STREAM_ID", 0x4c, 0x0, 1, fun p _ => (List.range 4).map (fun k => (.rws, F.CXP_STREAM_ID_SID p k))⟩,
  ⟨"CXP_BAND_COMP", 0x50, 0x0, 1, fun p _ => (List.range 4).map (fun k => (.rws, F.CXP_BAND_COMP_COMP p k))⟩,
  ⟨"CXP_LAT", 0x54, 0x0, 1, fun p _ => [(.rws, F.CXP_LAT_LAT_MAX p), (.rws, F.CXP_LAT_LAT_MIN p)]⟩,
  ⟨"CXP_TRIG_OFS", 0x58, 0x0, 1, fun p _ => [(.rw, F.CXP_TRIG_OFS_OFS p)]⟩,
  ⟨"CXP_LAST_TRIG", 0x5c, 0x0, 1, fun p _ => [(.ro, F.CXP_LAST_TRIG_INDEX p)]⟩,
  ⟨"CXP_CNT_MATCHED", 0x60, 0x0, 1, fun p _ => [(.ro, F.CXP_CNT_MATCHED_COUNT p)]⟩,
  ⟨"CXP_CNT_MISSING", 0x64, 0x0, 1, fun p _ => [(.ro, F.CXP_CNT_MISSING_COUNT p)]⟩,
  ⟨"CXP_CNT_EXTRA", 0x68, 0x0, 1, fun p _ => [(.ro, F.CXP_CNT_EXTRA_COUNT p)]⟩,
  ⟨"CXP_CNT_SHORT", 0x6c, 0x0, 1, fun p _ => [(.ro, F.CXP_CNT_SHORT_COUNT p)]⟩,
  ⟨"CXP_CNT_LONG", 0x70, 0x0, 1, fun p _ => [(.ro, F.CXP_CNT_LONG_COUNT p)]⟩,
  ⟨"CXP_CNT_CRC", 0x74, 0x0, 1, fun p _ => [(.ro, F.CXP_CNT_CRC_COUNT p)]⟩,
  ⟨"CXP_CNT_OVERFLOW", 0x78, 0x0, 1, fun p _ => [(.ro, F.CXP_CNT_OVERFLOW_COUNT p)]⟩,
  ⟨"CXP_CNT_LATE", 0x7c, 0x0, 1, fun p _ => [(.ro, F.CXP_CNT_LATE_COUNT p)]⟩]

def rowsCxp1 : List RegRow := [
  ⟨"CXP_RELAY", 0x80, 0x0, 1, fun p _ => [(.ro, F.CXP_RELAY_RLY_ACTIVE p), (.rw, F.CXP_RELAY_RLY_EN p)]⟩,
  ⟨"CXP_PWR", 0x84, 0x0, 1, fun p _ => [(.ro, F.CXP_PWR_FLT_CNT p), (.w1c, F.CXP_PWR_FLT_LATCH p), (.ro, F.CXP_PWR_FLT p), (.ro, F.CXP_PWR_EN_LEVEL p)]⟩,
  ⟨"CXP_CNT_FORCED", 0x88, 0x0, 1, fun p _ => [(.ro, F.CXP_CNT_FORCED_COUNT p)]⟩,
  ⟨"CXP_CC_CMD", 0x90, 0x0, 1, fun p _ => [(.ro, F.CXP_CC_CMD_ACK p), (.rw, F.CXP_CC_CMD_LEN p), (.ro, F.CXP_CC_CMD_BUSY p), (.rw, F.CXP_CC_CMD_WRITE p), (.w1s, F.CXP_CC_CMD_GO p)]⟩,
  ⟨"CXP_CC_ADDR", 0x94, 0x0, 1, fun p _ => [(.rw, F.CXP_CC_ADDR_ADDR p)]⟩,
  ⟨"CXP_CC_BUF", 0x100, 0x4, 64, fun p n => [(.rw, F.CXP_CC_BUF_DATA p n)]⟩,
  ⟨"TGEN_CTRL", 0xc0, 0x0, 1, fun p _ => [(.ro, F.TGEN_CTRL_RUNNING p), (.rw, F.TGEN_CTRL_RUN_AT_START p), (.rw, F.TGEN_CTRL_OUT_POL p), (.rw, F.TGEN_CTRL_OUT_EN p), (.rw, F.TGEN_CTRL_FINE p), (.rw, F.TGEN_CTRL_IN_SEL p), (.rw, F.TGEN_CTRL_MOT_SEL p), (.rw, F.TGEN_CTRL_MODE p)]⟩,
  ⟨"TGEN_STEP", 0xc4, 0x0, 1, fun p _ => [(.rw, F.TGEN_STEP_STEP p)]⟩,
  ⟨"TGEN_STEP_FRAC", 0xc8, 0x0, 1, fun p _ => [(.rw, F.TGEN_STEP_FRAC_FRAC p)]⟩,
  ⟨"TGEN_START_LO", 0xcc, 0x0, 1, fun p _ => [(.rw, F.TGEN_START_LO_START_LO p)]⟩,
  ⟨"TGEN_START_HI", 0xd0, 0x0, 1, fun p _ => [(.rw, F.TGEN_START_HI_START_HI p)]⟩,
  ⟨"TGEN_DELAY", 0xd4, 0x0, 1, fun p _ => [(.rw, F.TGEN_DELAY_DELAY p)]⟩,
  ⟨"TGEN_MIN_INT", 0xd8, 0x0, 1, fun p _ => [(.rw, F.TGEN_MIN_INT_MIN_INT p)]⟩,
  ⟨"TGEN_OUT_WIDTH", 0xdc, 0x0, 1, fun p _ => [(.rw, F.TGEN_OUT_WIDTH_WIDTH p)]⟩,
  ⟨"TGEN_INDEX", 0xe0, 0x0, 1, fun p _ => [(.ro, F.TGEN_INDEX_INDEX p)]⟩,
  ⟨"TGEN_LAST_LO", 0xe4, 0x0, 1, fun p _ => [(.ro, F.TGEN_LAST_LO_DT_LO p)]⟩]

def rowsCxp2 : List RegRow := [
  ⟨"TGEN_LAST_HI", 0xe8, 0x0, 1, fun p _ => [(.ro, F.TGEN_LAST_HI_DT_HI p)]⟩,
  ⟨"TGEN_SKIP", 0xec, 0x0, 1, fun p _ => [(.ro, F.TGEN_SKIP_DROPPED p), (.ro, F.TGEN_SKIP_POSTPONED p)]⟩,
  ⟨"GRP_CTRL", 0x300, 0x0, 1, fun p _ => if p < 8 then [(.ro, F.GRP_CTRL_REMOTE p), (.rw, F.GRP_CTRL_WDOG_LIMIT p)] else []⟩,
  ⟨"GRP_PORTS", 0x304, 0x0, 1, fun p _ => if p < 8 then [(.ro, F.GRP_PORTS_PORTS p)] else []⟩,
  ⟨"GRP_SLOT", 0x308, 0x0, 1, fun p _ => if p < 8 then [(.ro, F.GRP_SLOT_INDEX p)] else []⟩,
  ⟨"GRP_SYNTH_SLOTS", 0x30c, 0x0, 1, fun p _ => if p < 8 then [(.ro, F.GRP_SYNTH_SLOTS_COUNT p)] else []⟩,
  ⟨"GRP_WDOG_CLOSE", 0x310, 0x0, 1, fun p _ => if p < 8 then [(.ro, F.GRP_WDOG_CLOSE_COUNT p)] else []⟩]

def rowsCxp : List RegRow := rowsCxp0 ++ rowsCxp1 ++ rowsCxp2

def rowsLng : List RegRow := [
  ⟨"LNG_MAP", 0x40, 0x0, 1, fun p _ => [(.ro, F.LNG_MAP_PRESENT p), (.ro, F.LNG_MAP_KIND p)]⟩,
  ⟨"LNG_PLL_STAT", 0x44, 0x0, 1, fun p _ => [(.ro, F.LNG_PLL_STAT_LOSS_CNT p), (.ro, F.LNG_PLL_STAT_REF_OK p), (.ro, F.LNG_PLL_STAT_PLL_LOCK p)]⟩,
  ⟨"LNG_ADAPT_CTRL", 0x48, 0x0, 1, fun p _ => [(.rw, F.LNG_ADAPT_CTRL_HOLD_LONG p), (.rw, F.LNG_ADAPT_CTRL_MARGIN_MIN p)]⟩,
  ⟨"LNG_SUMMARY", 0x4c, 0x0, 1, fun p _ => [(.w1c, F.LNG_SUMMARY_MARGIN_LOW p), (.ro, F.LNG_SUMMARY_PRBS_SYNC p), (.ro, F.LNG_SUMMARY_HELD p), (.ro, F.LNG_SUMMARY_LOCKED p)]⟩,
  ⟨"LANE_CFG", 0x80, 0x20, 8, fun p n => [(.rw, F.LANE_CFG_EQ_MANUAL p n), (.rw, F.LANE_CFG_LOOP_FAR p n), (.rw, F.LANE_CFG_LOOP_NEAR p n), (.rw, F.LANE_CFG_TEST_EN p n)]⟩,
  ⟨"LANE_STAT", 0x84, 0x20, 8, fun p n => [(.ro, F.LANE_STAT_LOCK_LOSS_CNT p n), (.ro, F.LANE_STAT_READAPT_CNT p n), (.ro, F.LANE_STAT_CONTENT_OK p n), (.ro, F.LANE_STAT_ASTATE p n), (.ro, F.LANE_STAT_CDR_LOCK p n), (.ro, F.LANE_STAT_LOCK p n)]⟩,
  ⟨"LANE_EQ", 0x88, 0x20, 8, fun p n => [(.rw, F.LANE_EQ_DFE3 p n), (.rw, F.LANE_EQ_DFE2 p n), (.rw, F.LANE_EQ_DFE1 p n), (.rw, F.LANE_EQ_CTLE p n)]⟩,
  ⟨"LANE_TXTAP", 0x8c, 0x20, 8, fun p n => [(.rw, F.LANE_TXTAP_AMP p n), ((if p = 12 then .ro else .rw), F.LANE_TXTAP_POST p n), ((if p = 12 then .ro else .rw), F.LANE_TXTAP_MAIN p n), ((if p = 12 then .ro else .rw), F.LANE_TXTAP_PRE p n)]⟩,
  ⟨"LANE_PRBS", 0x90, 0x20, 8, fun p n => [(.ro, F.LANE_PRBS_SYNC p n), (.w1s, F.LANE_PRBS_CLR p n), (.rw, F.LANE_PRBS_INVERT p n), (.rw, F.LANE_PRBS_CHK p n), (.rw, F.LANE_PRBS_GEN p n), (.rw, F.LANE_PRBS_PATTERN p n)]⟩,
  ⟨"LANE_PRBS_ERR", 0x94, 0x20, 8, fun p n => [(.ro, F.LANE_PRBS_ERR_ERRORS p n)]⟩,
  ⟨"LANE_PRBS_BITS", 0x98, 0x20, 8, fun p n => [(.ro, F.LANE_PRBS_BITS_BITS p n)]⟩,
  ⟨"LANE_MARGIN", 0x9c, 0x20, 8, fun p n => [(.ro, F.LANE_MARGIN_VALID p n), (.ro, F.LANE_MARGIN_H_UI64 p n), (.ro, F.LANE_MARGIN_V_MV p n)]⟩]

def rowsCor : List RegRow := [
  ⟨"COR_CTRL", 0x40, 0x0, 1, fun _ _ => [(.rw, F.COR_CTRL_ZONE_EN), (.rw, F.COR_CTRL_BG_EN), (.rw, F.COR_CTRL_DEF_EN), (.rw, F.COR_CTRL_FLAT_EN)]⟩,
  ⟨"COR_SWAP", 0x44, 0x0, 1, fun _ _ => [(.ro, F.COR_SWAP_SWAP_CNT), (.ro, F.COR_SWAP_DT_PEND), (.ro, F.COR_SWAP_ACTIVE), (.ro, F.COR_SWAP_PEND), (.rw, F.COR_SWAP_TIMED), (.w1s, F.COR_SWAP_GO)]⟩,
  ⟨"COR_SWAP_AT_LO", 0x48, 0x0, 1, fun _ _ => [(.rw, F.COR_SWAP_AT_LO_AT_LO)]⟩,
  ⟨"COR_SWAP_AT_HI", 0x4c, 0x0, 1, fun _ _ => [(.rw, F.COR_SWAP_AT_HI_AT_HI)]⟩,
  ⟨"COR_SWAP_DT_LO", 0x50, 0x0, 1, fun _ _ => [(.ro, F.COR_SWAP_DT_LO_DT_LO)]⟩,
  ⟨"COR_SWAP_DT_HI", 0x54, 0x0, 1, fun _ _ => [(.ro, F.COR_SWAP_DT_HI_DT_HI)]⟩,
  ⟨"COR_MASK", 0x58, 0x0, 1, fun _ _ => [(.rw, F.COR_MASK_DIL)]⟩,
  ⟨"COR_MASK_LAG", 0x5c, 0x0, 1, fun _ _ => (List.range 8).map (fun k => (.ro, F.COR_MASK_LAG_LAG k))⟩,
  ⟨"COR_BG_CFG", 0x60, 0x0, 1, fun _ _ => [(.rw, F.COR_BG_CFG_STALE_AGE), (.rw, F.COR_BG_CFG_STEP_MAX), (.rw, F.COR_BG_CFG_GATE), (.rw, F.COR_BG_CFG_NSHIFT), (.rw, F.COR_BG_CFG_SHIFT)]⟩,
  ⟨"COR_BG_FLOOR", 0x64, 0x0, 1, fun _ _ => [(.rw, F.COR_BG_FLOOR_N_INIT), (.rw, F.COR_BG_FLOOR_N_FLOOR)]⟩,
  ⟨"COR_BG_ZONE", 0x68, 0x0, 1, fun _ _ => [(.ro, F.COR_BG_ZONE_SEQ), (.rw, F.COR_BG_ZONE_ROWS)]⟩,
  ⟨"COR_BG_STALE", 0x6c, 0x0, 1, fun _ _ => [(.ro, F.COR_BG_STALE_COLS)]⟩,
  ⟨"COR_CNT_UNREPL", 0x70, 0x0, 1, fun _ _ => [(.ro, F.COR_CNT_UNREPL_COUNT)]⟩,
  ⟨"COR_CNT_CLIP", 0x74, 0x0, 1, fun _ _ => [(.ro, F.COR_CNT_CLIP_COUNT)]⟩,
  ⟨"COR_CNT_OUTLIER", 0x78, 0x0, 1, fun _ _ => [(.ro, F.COR_CNT_OUTLIER_COUNT)]⟩,
  ⟨"COR_CNT_SWAP_LATE", 0x7c, 0x0, 1, fun _ _ => [(.ro, F.COR_CNT_SWAP_LATE_COUNT)]⟩]

def rowsNr : List RegRow := [
  ⟨"NR_CTRL", 0x40, 0x0, 1, fun _ _ => [(.rw, F.NR_CTRL_TM_EN), (.rw, F.NR_CTRL_SP_EN)]⟩,
  ⟨"NR_PARAM", 0x44, 0x0, 1, fun _ _ => [(.rw, F.NR_PARAM_TM_SHIFT), (.rw, F.NR_PARAM_TM_K), (.rw, F.NR_PARAM_SP_K)]⟩,
  ⟨"NR_MODEL", 0x100, 0x4, 64, fun _ n => [(.rw, F.NR_MODEL_K n), (.rw, F.NR_MODEL_READ n)]⟩]

def rowsFoc : List RegRow := [
  ⟨"FOC_CTRL", 0x40, 0x0, 1, fun _ _ => [(.ro, F.FOC_CTRL_SEQ), (.w1s, F.FOC_CTRL_SNAP)]⟩,
  ⟨"FOC_MIN_STEP", 0x44, 0x0, 1, fun _ _ => [(.rw, F.FOC_MIN_STEP_MIN_STEP)]⟩,
  ⟨"FOC_BAND", 0x48, 0x0, 1, fun _ _ => (List.range 16).map (fun k => (.rw, F.FOC_BAND_BAND k))⟩,
  ⟨"FOC_SEL", 0x4c, 0x0, 1, fun _ _ => [(.rw, F.FOC_SEL_PORT)]⟩,
  ⟨"FOC_SUM", 0x80, 0x4, 16, fun _ n => [(.ro, F.FOC_SUM_SUM n)]⟩,
  ⟨"FOC_EDGES", 0xc0, 0x4, 16, fun _ n => [(.ro, F.FOC_EDGES_EDGES n)]⟩]

def rowsGeo : List RegRow := [
  ⟨"GEO_CTRL", 0x40, 0x0, 1, fun _ _ => [(.rw, F.GEO_CTRL_KERNEL)]⟩,
  ⟨"GEO_SWAP", 0x44, 0x0, 1, fun _ _ => [(.ro, F.GEO_SWAP_SWAP_CNT), (.ro, F.GEO_SWAP_DT_PEND), (.ro, F.GEO_SWAP_ACTIVE), (.ro, F.GEO_SWAP_PEND), (.rw, F.GEO_SWAP_TIMED), (.w1s, F.GEO_SWAP_GO)]⟩,
  ⟨"GEO_SWAP_AT_LO", 0x48, 0x0, 1, fun _ _ => [(.rw, F.GEO_SWAP_AT_LO_AT_LO)]⟩,
  ⟨"GEO_SWAP_AT_HI", 0x4c, 0x0, 1, fun _ _ => [(.rw, F.GEO_SWAP_AT_HI_AT_HI)]⟩,
  ⟨"GEO_SWAP_DT_LO", 0x50, 0x0, 1, fun _ _ => [(.ro, F.GEO_SWAP_DT_LO_DT_LO)]⟩,
  ⟨"GEO_SWAP_DT_HI", 0x54, 0x0, 1, fun _ _ => [(.ro, F.GEO_SWAP_DT_HI_DT_HI)]⟩,
  ⟨"GEO_DEPTH0", 0x58, 0x0, 1, fun _ _ => (List.range 8).map (fun k => (.rws, F.GEO_DEPTH0_DEPTH k))⟩,
  ⟨"GEO_DEPTH1", 0x5c, 0x0, 1, fun _ _ => (List.range 8).map (fun k => (.rws, F.GEO_DEPTH1_DEPTH k))⟩,
  ⟨"GEO_CNT_ABSENT", 0x60, 0x0, 1, fun _ _ => [(.ro, F.GEO_CNT_ABSENT_COUNT)]⟩,
  ⟨"GEO_CNT_SWAP_LATE", 0x64, 0x0, 1, fun _ _ => [(.ro, F.GEO_CNT_SWAP_LATE_COUNT)]⟩]

def rowsSti : List RegRow := [
  ⟨"STI_GRP", 0x40, 0x4, 8, fun _ n => [(.rw, F.STI_GRP_BLEND_HARD n), (.rws, F.STI_GRP_ANCHOR n), (.rws, F.STI_GRP_WIDTH_M1 n)]⟩,
  ⟨"STI_AR_CTRL", 0x60, 0x0, 1, fun _ _ => [(.rw, F.STI_AR_CTRL_OFS_TIMED), (.rw, F.STI_AR_CTRL_AR_EN), (.rw, F.STI_AR_CTRL_GAIN), (.rw, F.STI_AR_CTRL_ROWS)]⟩,
  ⟨"STI_AR_LIM", 0x64, 0x0, 1, fun _ _ => [(.rw, F.STI_AR_LIM_REJECT), (.rw, F.STI_AR_LIM_OFS_LIMIT), (.rw, F.STI_AR_LIM_STEP_MAX)]⟩,
  ⟨"STI_AR_EDGE", 0x68, 0x0, 1, fun _ _ => [(.rw, F.STI_AR_EDGE_MIN_EDGES), (.rw, F.STI_AR_EDGE_EDGE_MIN)]⟩,
  ⟨"STI_AR_BAND", 0x6c, 0x0, 1, fun _ _ => (List.range 8).map (fun k => (.rw, F.STI_AR_BAND_BAND k))⟩,
  ⟨"STI_OFS_AT", 0x70, 0x0, 1, fun _ _ => [(.rw, F.STI_OFS_AT_INDEX)]⟩,
  ⟨"STI_AR_STAT", 0x74, 0x0, 1, fun _ _ => [(.ro, F.STI_AR_STAT_REJECTS), (.ro, F.STI_AR_STAT_STEPS)]⟩,
  ⟨"STI_AR_STAT2", 0x78, 0x0, 1, fun _ _ => [(.ro, F.STI_AR_STAT2_LOW_EDGE)]⟩,
  ⟨"STI_OFS", 0x80, 0x4, 16, fun _ n => [(.ro, F.STI_OFS_LIMIT n), (.rw, F.STI_OFS_OFS n)]⟩,
  ⟨"STI_DELTA", 0xc0, 0x4, 16, fun _ n => [(.ro, F.STI_DELTA_EDGES n), (.ro, F.STI_DELTA_DELTA n)]⟩]

def rowsSpec : List RegRow := [
  ⟨"SPEC_CTRL", 0x40, 0x0, 1, fun _ _ => [(.rw, F.SPEC_CTRL_EN)]⟩,
  ⟨"SPEC_SWAP", 0x44, 0x0, 1, fun _ _ => [(.ro, F.SPEC_SWAP_SWAP_CNT), (.ro, F.SPEC_SWAP_DT_PEND), (.ro, F.SPEC_SWAP_ACTIVE), (.ro, F.SPEC_SWAP_PEND), (.rw, F.SPEC_SWAP_TIMED), (.w1s, F.SPEC_SWAP_GO)]⟩,
  ⟨"SPEC_SWAP_AT_LO", 0x48, 0x0, 1, fun _ _ => [(.rw, F.SPEC_SWAP_AT_LO_AT_LO)]⟩,
  ⟨"SPEC_SWAP_AT_HI", 0x4c, 0x0, 1, fun _ _ => [(.rw, F.SPEC_SWAP_AT_HI_AT_HI)]⟩,
  ⟨"SPEC_SWAP_DT_LO", 0x50, 0x0, 1, fun _ _ => [(.ro, F.SPEC_SWAP_DT_LO_DT_LO)]⟩,
  ⟨"SPEC_SWAP_DT_HI", 0x54, 0x0, 1, fun _ _ => [(.ro, F.SPEC_SWAP_DT_HI_DT_HI)]⟩,
  ⟨"SPEC_CNT_CLAMP", 0x58, 0x0, 1, fun _ _ => [(.ro, F.SPEC_CNT_CLAMP_COUNT)]⟩,
  ⟨"SPEC_CNT_SWAP_LATE", 0x5c, 0x0, 1, fun _ _ => [(.ro, F.SPEC_CNT_SWAP_LATE_COUNT)]⟩,
  ⟨"SPEC_PROBE", 0x60, 0x0, 1, fun _ _ => [(.ro, F.SPEC_PROBE_INACTIVE), (.ro, F.SPEC_PROBE_ACTIVE), (.rw, F.SPEC_PROBE_INDEX)]⟩]

def rowsSeg : List RegRow := [
  ⟨"SEG_CTRL", 0x40, 0x0, 1, fun _ _ => [(.rw, F.SEG_CTRL_OPEN_EN)]⟩,
  ⟨"SEG_THR", 0x44, 0x0, 1, fun _ _ => [(.rw, F.SEG_THR_FIX), (.rw, F.SEG_THR_K)]⟩,
  ⟨"SEG_GRP", 0x50, 0x4, 8, fun _ n => [(.rw, F.SEG_GRP_AREA_MIN n), (.rw, F.SEG_GRP_SYNTH_MAX n), (.rw, F.SEG_GRP_REJ_TRUNC_R n), (.rw, F.SEG_GRP_REJ_TRUNC_L n), (.rw, F.SEG_GRP_DIST_BANDS n)]⟩,
  ⟨"SEG_LIMITS", 0x70, 0x0, 1, fun _ _ => [(.rw, F.SEG_LIMITS_HEIGHT_MAX), (.rw, F.SEG_LIMITS_WIDTH_MAX)]⟩,
  ⟨"SEG_STAT", 0x74, 0x0, 1, fun _ _ => [(.ro, F.SEG_STAT_ADAPTIVE)]⟩,
  ⟨"SEG_CNT_DIFF", 0x78, 0x0, 1, fun _ _ => [(.ro, F.SEG_CNT_DIFF_COUNT)]⟩,
  ⟨"SEG_CNT_OPENED", 0x7c, 0x0, 1, fun _ _ => [(.ro, F.SEG_CNT_OPENED_COUNT)]⟩,
  ⟨"SEG_CNT_SPLIT_W", 0x80, 0x0, 1, fun _ _ => [(.ro, F.SEG_CNT_SPLIT_W_COUNT)]⟩,
  ⟨"SEG_CNT_SPLIT_ROWS", 0x84, 0x0, 1, fun _ _ => [(.ro, F.SEG_CNT_SPLIT_ROWS_COUNT)]⟩,
  ⟨"SEG_CNT_OPENS", 0x88, 0x0, 1, fun _ _ => [(.ro, F.SEG_CNT_OPENS_COUNT)]⟩,
  ⟨"SEG_CNT_MERGES", 0x8c, 0x0, 1, fun _ _ => [(.ro, F.SEG_CNT_MERGES_COUNT)]⟩]

def rowsBody0 : List RegRow := [
  ⟨"BODY_CTRL", 0x40, 0x0, 1, fun _ _ => [(.rw, F.BODY_CTRL_RETAIN)]⟩,
  ⟨"BODY_CTX_STAT", 0x44, 0x0, 1, fun _ _ => [(.ro, F.BODY_CTX_STAT_FREE)]⟩,
  ⟨"BODY_CTX_LOW", 0x48, 0x0, 1, fun _ _ => [(.w1s, F.BODY_CTX_LOW_CLR), (.ro, F.BODY_CTX_LOW_LOW)]⟩,
  ⟨"BODY_CTX_WARN", 0x4c, 0x0, 1, fun _ _ => [(.rw, F.BODY_CTX_WARN_WARN)]⟩,
  ⟨"BODY_CROP", 0x50, 0x4, 8, fun _ n => [(.rws, F.BODY_CROP_SHIFT n), (.rws, F.BODY_CROP_DEC n), (.rws, F.BODY_CROP_SIZE n)]⟩,
  ⟨"BODY_CROP_POOL0", 0x70, 0x0, 1, fun _ _ => [(.rws, F.BODY_CROP_POOL0_MEDIUM), (.rws, F.BODY_CROP_POOL0_SMALL)]⟩,
  ⟨"BODY_CROP_POOL1", 0x74, 0x0, 1, fun _ _ => [(.rws, F.BODY_CROP_POOL1_LARGE)]⟩,
  ⟨"BODY_CROP_FREE0", 0x78, 0x0, 1, fun _ _ => [(.ro, F.BODY_CROP_FREE0_MEDIUM), (.ro, F.BODY_CROP_FREE0_SMALL)]⟩,
  ⟨"BODY_CROP_FREE1", 0x7c, 0x0, 1, fun _ _ => [(.ro, F.BODY_CROP_FREE1_LARGE)]⟩,
  ⟨"BODY_Q_DEPTH", 0x80, 0x0, 1, fun _ _ => [(.ro, F.BODY_Q_DEPTH_DEPTH)]⟩,
  ⟨"BODY_Q_HEAD", 0x84, 0x0, 1, fun _ _ => [(.ro, F.BODY_Q_HEAD_BODY_ID)]⟩,
  ⟨"BODY_COMMIT_SEQ", 0x88, 0x0, 1, fun _ _ => [(.ro, F.BODY_COMMIT_SEQ_COUNT)]⟩,
  ⟨"BODY_CNT_REW_PARITY", 0x90, 0x0, 1, fun _ _ => [(.ro, F.BODY_CNT_REW_PARITY_COUNT)]⟩,
  ⟨"BODY_CNT_REW_SYNTH", 0x94, 0x0, 1, fun _ _ => [(.ro, F.BODY_CNT_REW_SYNTH_COUNT)]⟩,
  ⟨"BODY_CNT_REW_TRUNC", 0x98, 0x0, 1, fun _ _ => [(.ro, F.BODY_CNT_REW_TRUNC_COUNT)]⟩,
  ⟨"BODY_CNT_REW_STOP", 0x9c, 0x0, 1, fun _ _ => [(.ro, F.BODY_CNT_REW_STOP_COUNT)]⟩]

def rowsBody1 : List RegRow := [
  ⟨"BODY_CNT_SMALL", 0xa0, 0x0, 1, fun _ _ => [(.ro, F.BODY_CNT_SMALL_COUNT)]⟩,
  ⟨"BODY_CNT_CTX_FULL", 0xa4, 0x0, 1, fun _ _ => [(.ro, F.BODY_CNT_CTX_FULL_COUNT)]⟩,
  ⟨"BODY_CNT_CROP_FULL", 0xa8, 0x0, 1, fun _ _ => [(.ro, F.BODY_CNT_CROP_FULL_COUNT)]⟩,
  ⟨"BODY_CNT_RETIRED", 0xac, 0x0, 1, fun _ _ => [(.ro, F.BODY_CNT_RETIRED_COUNT)]⟩]

def rowsBody : List RegRow := rowsBody0 ++ rowsBody1

def rowsTraj0 : List RegRow := [
  ⟨"TRAJ_CTRL", 0x40, 0x0, 1, fun _ _ => [(.rw, F.TRAJ_CTRL_AREA_RATIO), (.rw, F.TRAJ_CTRL_AMBIG), (.rw, F.TRAJ_CTRL_AVG_SHIFT), (.rw, F.TRAJ_CTRL_AVG_MIN)]⟩,
  ⟨"TRAJ_GRAV", 0x44, 0x0, 1, fun _ _ => [(.rw, F.TRAJ_GRAV_G)]⟩,
  ⟨"TRAJ_VLIM", 0x48, 0x0, 1, fun _ _ => [(.rw, F.TRAJ_VLIM_VY_MAX), (.rw, F.TRAJ_VLIM_VY_MIN)]⟩,
  ⟨"TRAJ_WIN", 0x4c, 0x0, 1, fun _ _ => [(.rw, F.TRAJ_WIN_TNORM), (.rw, F.TRAJ_WIN_XWIN)]⟩,
  ⟨"TRAJ_STORE_STAT", 0x50, 0x0, 1, fun _ _ => [(.ro, F.TRAJ_STORE_STAT_USED)]⟩,
  ⟨"TRAJ_STORE_PEAK", 0x54, 0x0, 1, fun _ _ => [(.w1s, F.TRAJ_STORE_PEAK_CLR), (.ro, F.TRAJ_STORE_PEAK_PEAK)]⟩,
  ⟨"TRAJ_CNT_ASSOC", 0x60, 0x0, 1, fun _ _ => [(.ro, F.TRAJ_CNT_ASSOC_COUNT)]⟩,
  ⟨"TRAJ_CNT_NONE", 0x64, 0x0, 1, fun _ _ => [(.ro, F.TRAJ_CNT_NONE_COUNT)]⟩,
  ⟨"TRAJ_CNT_AMBIG", 0x68, 0x0, 1, fun _ _ => [(.ro, F.TRAJ_CNT_AMBIG_COUNT)]⟩,
  ⟨"TRAJ_CNT_INELIG", 0x6c, 0x0, 1, fun _ _ => [(.ro, F.TRAJ_CNT_INELIG_COUNT)]⟩,
  ⟨"TRAJ_CNT_ORPHAN", 0x70, 0x0, 1, fun _ _ => [(.ro, F.TRAJ_CNT_ORPHAN_COUNT)]⟩,
  ⟨"TRAJ_CNT_STOREFULL", 0x74, 0x0, 1, fun _ _ => [(.ro, F.TRAJ_CNT_STOREFULL_COUNT)]⟩,
  ⟨"TRAJ_CNT_SINGLE", 0x78, 0x0, 1, fun _ _ => [(.ro, F.TRAJ_CNT_SINGLE_COUNT)]⟩,
  ⟨"TRAJ_GCFG", 0x100, 0x20, 8, fun _ n => [(.rw, F.TRAJ_GCFG_EXP_OFS n), (.rws, F.TRAJ_GCFG_PARTNER n), (.rws, F.TRAJ_GCFG_ROLE n)]⟩,
  ⟨"TRAJ_GHEIGHT", 0x104, 0x20, 8, fun _ n => [(.rws, F.TRAJ_GHEIGHT_HEIGHT n)]⟩,
  ⟨"TRAJ_GPITCH", 0x108, 0x20, 8, fun _ n => [(.rws, F.TRAJ_GPITCH_PITCH n)]⟩]

def rowsTraj1 : List RegRow := [
  ⟨"TRAJ_GORIGIN", 0x10c, 0x20, 8, fun _ n => [(.rws, F.TRAJ_GORIGIN_ORIGIN n)]⟩,
  ⟨"TRAJ_VY_AVG", 0x110, 0x20, 8, fun _ n => [(.rw, F.TRAJ_VY_AVG_VY_AVG n)]⟩,
  ⟨"TRAJ_VX_AVG", 0x114, 0x20, 8, fun _ n => [(.rw, F.TRAJ_VX_AVG_VX_AVG n)]⟩,
  ⟨"TRAJ_GSTAT", 0x118, 0x20, 8, fun _ n => [(.ro, F.TRAJ_GSTAT_RUN n), (.ro, F.TRAJ_GSTAT_AVG_N n)]⟩]

def rowsTraj : List RegRow := rowsTraj0 ++ rowsTraj1

def rowsEng : List RegRow := [
  ⟨"ENG_CFG", 0x40, 0x0, 1, fun p _ => [(.ro, F.ENG_CFG_IMG_VALID p), (.ro, F.ENG_CFG_SLOT p)]⟩,
  ⟨"ENG_PT", 0x44, 0x0, 1, fun p _ => [(.ro, F.ENG_PT_VCODE p), (.ro, F.ENG_PT_ACT p), (.rw, F.ENG_PT_REQ p)]⟩,
  ⟨"ENG_STAT", 0x48, 0x0, 1, fun p _ => [(.ro, F.ENG_STAT_ST_PASS p), (.ro, F.ENG_STAT_WITHDRAWN p), (.ro, F.ENG_STAT_FETCHED p), (.ro, F.ENG_STAT_RUN p)]⟩,
  ⟨"ENG_BODY", 0x4c, 0x0, 1, fun p _ => [(.ro, F.ENG_BODY_BODY_ID p)]⟩,
  ⟨"ENG_CNT_BODIES", 0x50, 0x0, 1, fun p _ => [(.ro, F.ENG_CNT_BODIES_COUNT p)]⟩,
  ⟨"ENG_CNT_DEADLINE", 0x54, 0x0, 1, fun p _ => [(.ro, F.ENG_CNT_DEADLINE_COUNT p)]⟩,
  ⟨"ENG_CNT_EXC", 0x58, 0x0, 1, fun p _ => [(.ro, F.ENG_CNT_EXC_COUNT p)]⟩,
  ⟨"ENG_CNT_HWFAULT", 0x5c, 0x0, 1, fun p _ => [(.ro, F.ENG_CNT_HWFAULT_COUNT p)]⟩,
  ⟨"ENG_LAST_EXC", 0x60, 0x0, 1, fun p _ => [(.ro, F.ENG_LAST_EXC_PC p), (.ro, F.ENG_LAST_EXC_CAUSE p)]⟩,
  ⟨"ENG_LOGWIN_LO", 0x64, 0x0, 1, fun p _ => [(.rw, F.ENG_LOGWIN_LO_BASE_LO p)]⟩,
  ⟨"ENG_LOGWIN_HI", 0x68, 0x0, 1, fun p _ => [(.rw, F.ENG_LOGWIN_HI_SIZE p), (.rw, F.ENG_LOGWIN_HI_BASE_HI p)]⟩,
  ⟨"ENG_BUSY", 0x6c, 0x0, 1, fun p _ => [(.ro, F.ENG_BUSY_KCYCLES p)]⟩]

def rowsDisp : List RegRow := [
  ⟨"DISP_GRP_A", 0x40, 0x10, 8, fun _ n => [(.rw, F.DISP_GRP_A_SLOT_NEXT n), (.ro, F.DISP_GRP_A_SLOT n), (.rw, F.DISP_GRP_A_DEFAULT n), (.rw, F.DISP_GRP_A_LEAD n)]⟩,
  ⟨"DISP_GRP_B", 0x44, 0x10, 8, fun _ n => [(.rw, F.DISP_GRP_B_RUN_LIMIT n), (.rw, F.DISP_GRP_B_MIN_RUN n)]⟩,
  ⟨"DISP_GRP_MISS", 0x48, 0x10, 8, fun _ n => [(.ro, F.DISP_GRP_MISS_COUNT n)]⟩,
  ⟨"DISP_GRP_VERD", 0x4c, 0x10, 8, fun _ n => [(.ro, F.DISP_GRP_VERD_COUNT n)]⟩,
  ⟨"DISP_SWAP", 0xc0, 0x0, 1, fun _ _ => [(.ro, F.DISP_SWAP_SWAP_CNT), (.ro, F.DISP_SWAP_DT_PEND), (.ro, F.DISP_SWAP_ACTIVE), (.ro, F.DISP_SWAP_PEND), (.rw, F.DISP_SWAP_TIMED), (.w1s, F.DISP_SWAP_GO)]⟩,
  ⟨"DISP_SWAP_AT_LO", 0xc4, 0x0, 1, fun _ _ => [(.rw, F.DISP_SWAP_AT_LO_AT_LO)]⟩,
  ⟨"DISP_SWAP_AT_HI", 0xc8, 0x0, 1, fun _ _ => [(.rw, F.DISP_SWAP_AT_HI_AT_HI)]⟩,
  ⟨"DISP_SWAP_DT_LO", 0xcc, 0x0, 1, fun _ _ => [(.ro, F.DISP_SWAP_DT_LO_DT_LO)]⟩,
  ⟨"DISP_SWAP_DT_HI", 0xd0, 0x0, 1, fun _ _ => [(.ro, F.DISP_SWAP_DT_HI_DT_HI)]⟩,
  ⟨"DISP_CTRL", 0xd4, 0x0, 1, fun _ _ => [(.rw, F.DISP_CTRL_FAULT_LIMIT), (.rw, F.DISP_CTRL_GRACE)]⟩,
  ⟨"DISP_CNT_CAUSE", 0xe0, 0x4, 7, fun _ n => [(.ro, F.DISP_CNT_CAUSE_COUNT n)]⟩,
  ⟨"DISP_CNT_REDISPATCH", 0xfc, 0x0, 1, fun _ _ => [(.ro, F.DISP_CNT_REDISPATCH_COUNT)]⟩,
  ⟨"DISP_CNT_ABORT", 0x100, 0x0, 1, fun _ _ => [(.ro, F.DISP_CNT_ABORT_COUNT)]⟩,
  ⟨"DISP_CNT_DIVERGED", 0x104, 0x0, 1, fun _ _ => [(.ro, F.DISP_CNT_DIVERGED_COUNT)]⟩,
  ⟨"DISP_CNT_TAKEN", 0x108, 0x0, 1, fun _ _ => [(.ro, F.DISP_CNT_TAKEN_COUNT)]⟩,
  ⟨"DISP_POOL", 0x110, 0x4, 8, fun _ n => [(.ro, F.DISP_POOL_QUEUED n), (.ro, F.DISP_POOL_BUSY n), (.ro, F.DISP_POOL_IN_SERVICE n)]⟩]

def rowsPlan0 : List RegRow := [
  ⟨"PLAN_CTRL", 0x40, 0x0, 1, fun _ _ => [(.rw, F.PLAN_CTRL_PAIR_RULE), (.rw, F.PLAN_CTRL_LATE_DROP), (.rw, F.PLAN_CTRL_HINT_EN), (.rw, F.PLAN_CTRL_PCOMP_EN), (.rw, F.PLAN_CTRL_LEARN_EN)]⟩,
  ⟨"PLAN_TIMING", 0x44, 0x0, 1, fun _ _ => [(.rw, F.PLAN_TIMING_HORIZON), (.rw, F.PLAN_TIMING_MET_LEAD)]⟩,
  ⟨"PLAN_GUARD", 0x48, 0x0, 1, fun _ _ => [(.rw, F.PLAN_GUARD_LEARN_MIN_ON), (.rws, F.PLAN_GUARD_ON_HARD)]⟩,
  ⟨"PLAN_PRESS", 0x4c, 0x0, 1, fun _ _ => [(.rw, F.PLAN_PRESS_HOLD), (.rw, F.PLAN_PRESS_SIG), (.rw, F.PLAN_PRESS_P_REF)]⟩,
  ⟨"PLAN_PRESS_LIM", 0x50, 0x0, 1, fun _ _ => [(.rw, F.PLAN_PRESS_LIM_P_MAX), (.rw, F.PLAN_PRESS_LIM_P_MIN)]⟩,
  ⟨"PLAN_PRESS_GAIN", 0x54, 0x0, 1, fun _ _ => [(.rw, F.PLAN_PRESS_GAIN_GAIN)]⟩,
  ⟨"PLAN_PRESS_OFS", 0x58, 0x0, 1, fun _ _ => [(.rw, F.PLAN_PRESS_OFS_OFS)]⟩,
  ⟨"PLAN_PRESS_STAT", 0x5c, 0x0, 1, fun _ _ => [(.ro, F.PLAN_PRESS_STAT_FAIL), (.ro, F.PLAN_PRESS_STAT_HOLD), (.ro, F.PLAN_PRESS_STAT_P)]⟩,
  ⟨"PLAN_LEARN", 0x60, 0x0, 1, fun _ _ => [(.rw, F.PLAN_LEARN_STEP_MAX), (.rw, F.PLAN_LEARN_IMPL_MAX), (.rw, F.PLAN_LEARN_SHIFT)]⟩,
  ⟨"PLAN_LEARN_LIM", 0x64, 0x0, 1, fun _ _ => [(.rw, F.PLAN_LEARN_LIM_LAT_MAX), (.rw, F.PLAN_LEARN_LIM_LAT_MIN)]⟩,
  ⟨"PLAN_LEARN_RANGE", 0x68, 0x0, 1, fun _ _ => [(.rw, F.PLAN_LEARN_RANGE_A_RANGE), (.rw, F.PLAN_LEARN_RANGE_RES_MAX)]⟩,
  ⟨"PLAN_SUSPECT", 0x6c, 0x0, 1, fun _ _ => [(.ro, F.PLAN_SUSPECT_COUNT)]⟩,
  ⟨"PLAN_SWAP", 0x70, 0x0, 1, fun _ _ => [(.ro, F.PLAN_SWAP_SWAP_CNT), (.ro, F.PLAN_SWAP_DT_PEND), (.ro, F.PLAN_SWAP_ACTIVE), (.ro, F.PLAN_SWAP_PEND), (.rw, F.PLAN_SWAP_TIMED), (.w1s, F.PLAN_SWAP_GO)]⟩,
  ⟨"PLAN_SWAP_AT_LO", 0x74, 0x0, 1, fun _ _ => [(.rw, F.PLAN_SWAP_AT_LO_AT_LO)]⟩,
  ⟨"PLAN_SWAP_AT_HI", 0x78, 0x0, 1, fun _ _ => [(.rw, F.PLAN_SWAP_AT_HI_AT_HI)]⟩,
  ⟨"PLAN_SWAP_DT_LO", 0x7c, 0x0, 1, fun _ _ => [(.ro, F.PLAN_SWAP_DT_LO_DT_LO)]⟩]

def rowsPlan1 : List RegRow := [
  ⟨"PLAN_SWAP_DT_HI", 0x80, 0x0, 1, fun _ _ => [(.ro, F.PLAN_SWAP_DT_HI_DT_HI)]⟩,
  ⟨"PLAN_MAP_ERR", 0x84, 0x0, 1, fun _ _ => [(.ro, F.PLAN_MAP_ERR_INDEX)]⟩,
  ⟨"PLAN_CNT_METEORS", 0x90, 0x0, 1, fun _ _ => [(.ro, F.PLAN_CNT_METEORS_COUNT)]⟩,
  ⟨"PLAN_CNT_MERGED", 0x94, 0x0, 1, fun _ _ => [(.ro, F.PLAN_CNT_MERGED_COUNT)]⟩,
  ⟨"PLAN_CNT_CONT", 0x98, 0x0, 1, fun _ _ => [(.ro, F.PLAN_CNT_CONT_COUNT)]⟩,
  ⟨"PLAN_CNT_OFF_CLIP", 0x9c, 0x0, 1, fun _ _ => [(.ro, F.PLAN_CNT_OFF_CLIP_COUNT)]⟩,
  ⟨"PLAN_CNT_ONTIME_CUT", 0xa0, 0x0, 1, fun _ _ => [(.ro, F.PLAN_CNT_ONTIME_CUT_COUNT)]⟩,
  ⟨"PLAN_CNT_LATE", 0xa4, 0x0, 1, fun _ _ => [(.ro, F.PLAN_CNT_LATE_COUNT)]⟩,
  ⟨"PLAN_CNT_LATE_DROP", 0xa8, 0x0, 1, fun _ _ => [(.ro, F.PLAN_CNT_LATE_DROP_COUNT)]⟩,
  ⟨"PLAN_CNT_EXPIRED", 0xac, 0x0, 1, fun _ _ => [(.ro, F.PLAN_CNT_EXPIRED_COUNT)]⟩,
  ⟨"PLAN_CNT_QFULL", 0xb0, 0x0, 1, fun _ _ => [(.ro, F.PLAN_CNT_QFULL_COUNT)]⟩,
  ⟨"PLAN_CNT_NO_VALVE", 0xb4, 0x0, 1, fun _ _ => [(.ro, F.PLAN_CNT_NO_VALVE_COUNT)]⟩,
  ⟨"PLAN_CNT_WITHDRAWN", 0xb8, 0x0, 1, fun _ _ => [(.ro, F.PLAN_CNT_WITHDRAWN_COUNT)]⟩,
  ⟨"PLAN_CNT_WITHDRAW_FAIL", 0xbc, 0x0, 1, fun _ _ => [(.ro, F.PLAN_CNT_WITHDRAW_FAIL_COUNT)]⟩,
  ⟨"PLAN_CNT_LEARNED", 0xc0, 0x0, 1, fun _ _ => [(.ro, F.PLAN_CNT_LEARNED_COUNT)]⟩,
  ⟨"PLAN_CNT_IMPLAUS", 0xc4, 0x0, 1, fun _ _ => [(.ro, F.PLAN_CNT_IMPLAUS_COUNT)]⟩]

def rowsPlan2 : List RegRow := [
  ⟨"PLAN_CNT_SEAT_ORPHAN", 0xc8, 0x0, 1, fun _ _ => [(.ro, F.PLAN_CNT_SEAT_ORPHAN_COUNT)]⟩,
  ⟨"PLAN_CNT_TRAJ_FB", 0xcc, 0x0, 1, fun _ _ => [(.ro, F.PLAN_CNT_TRAJ_FB_COUNT)]⟩,
  ⟨"PLAN_QDEPTH", 0xd0, 0x4, 4, fun _ n => [(.ro, F.PLAN_QDEPTH_DEPTH1 n), (.ro, F.PLAN_QDEPTH_DEPTH0 n)]⟩,
  ⟨"PLAN_DIVERT", 0xe0, 0x4, 2, fun _ n => [(.rw, F.PLAN_DIVERT_HOLD n), (.ro, F.PLAN_DIVERT_ASSERTED n), (.rw, F.PLAN_DIVERT_FORCE n), (.rw, F.PLAN_DIVERT_POL n), (.rw, F.PLAN_DIVERT_ON_FAULT n), (.rw, F.PLAN_DIVERT_ON_IDLE n), (.rw, F.PLAN_DIVERT_ON_ECLIPSE n), (.rw, F.PLAN_DIVERT_ON_TWILIGHT n), (.rw, F.PLAN_DIVERT_EN n)]⟩,
  ⟨"PLAN_GRP_A", 0x100, 0x8, 8, fun _ n => [(.rw, F.PLAN_GRP_A_M_TAIL n), (.rw, F.PLAN_GRP_A_M_LEAD n)]⟩,
  ⟨"PLAN_GRP_B", 0x104, 0x8, 8, fun _ n => [(.rw, F.PLAN_GRP_B_M_SIDE n)]⟩,
  ⟨"PLAN_TWI", 0x140, 0x4, 8, fun _ n => [(.rw, F.PLAN_TWI_TWI_MIN n), (.rw, F.PLAN_TWI_MASK n)]⟩]

def rowsPlan : List RegRow := rowsPlan0 ++ rowsPlan1 ++ rowsPlan2

def rowsMet0 : List RegRow := [
  ⟨"MET_CFG", 0x40, 0x0, 1, fun p _ => [(.rw, F.MET_CFG_RETRY_MAX p), (.rw, F.MET_CFG_ACK_TO p), (.rws, F.MET_CFG_BEACON_INT p), (.rws, F.MET_CFG_REPEAT p), (.rws, F.MET_CFG_MODULES p)]⟩,
  ⟨"MET_TX", 0x44, 0x0, 1, fun p _ => [(.rw, F.MET_TX_EARLY p)]⟩,
  ⟨"MET_RANGE", 0x48, 0x0, 1, fun p _ => [(.rw, F.MET_RANGE_PERIOD p)]⟩,
  ⟨"MET_LINK", 0x4c, 0x0, 1, fun p _ => [(.ro, F.MET_LINK_MOD_PRESENT p), (.ro, F.MET_LINK_MOD_READY p), (.ro, F.MET_LINK_REPEAT_MODE p), (.ro, F.MET_LINK_FEEDBACK p), (.ro, F.MET_LINK_RX_LOCK p), (.ro, F.MET_LINK_TX_ON p)]⟩,
  ⟨"MET_TOKEN", 0x50, 0x0, 1, fun p _ => [(.ro, F.MET_TOKEN_CLAIM p), (.ro, F.MET_TOKEN_EPOCH p)]⟩,
  ⟨"MET_TEST", 0x54, 0x0, 1, fun p _ => [(.ro, F.MET_TEST_SYNC p), (.rw, F.MET_TEST_PRBS_EN p)]⟩,
  ⟨"MET_TEST_ERR", 0x58, 0x0, 1, fun p _ => [(.ro, F.MET_TEST_ERR_ERRORS p)]⟩,
  ⟨"MET_CNT_FIRE", 0x60, 0x0, 1, fun p _ => [(.ro, F.MET_CNT_FIRE_COUNT p)]⟩,
  ⟨"MET_CNT_CANCEL", 0x64, 0x0, 1, fun p _ => [(.ro, F.MET_CNT_CANCEL_COUNT p)]⟩,
  ⟨"MET_CNT_RETX", 0x68, 0x0, 1, fun p _ => [(.ro, F.MET_CNT_RETX_COUNT p)]⟩,
  ⟨"MET_CNT_TX_LATE", 0x6c, 0x0, 1, fun p _ => [(.ro, F.MET_CNT_TX_LATE_COUNT p)]⟩,
  ⟨"MET_CNT_LOST", 0x70, 0x0, 1, fun p _ => [(.ro, F.MET_CNT_LOST_COUNT p)]⟩,
  ⟨"MET_CNT_GUARD", 0x74, 0x0, 1, fun p _ => [(.ro, F.MET_CNT_GUARD_COUNT p)]⟩,
  ⟨"MET_CNT_RX_CRC", 0x78, 0x0, 1, fun p _ => [(.ro, F.MET_CNT_RX_CRC_COUNT p)]⟩,
  ⟨"MET_CNT_SEAT", 0x7c, 0x0, 1, fun p _ => [(.ro, F.MET_CNT_SEAT_COUNT p)]⟩,
  ⟨"MET_CNT_OFFLINE_DROP", 0x80, 0x0, 1, fun p _ => [(.ro, F.MET_CNT_OFFLINE_DROP_COUNT p)]⟩]

def rowsMet1 : List RegRow := [
  ⟨"MET_MOD_STAT", 0x100, 0x20, 4, fun p n => [(.ro, F.MET_MOD_STAT_VALVES_M1 p n), (.ro, F.MET_MOD_STAT_FAULT_VALVE p n), (.ro, F.MET_MOD_STAT_FAULT_CODE p n), (.ro, F.MET_MOD_STAT_OWNER_SIDE p n), (.ro, F.MET_MOD_STAT_OWNED p n), (.ro, F.MET_MOD_STAT_CONFLICT p n), (.ro, F.MET_MOD_STAT_FAULT p n), (.ro, F.MET_MOD_STAT_TIME_LOCK p n), (.ro, F.MET_MOD_STAT_STATE p n)]⟩,
  ⟨"MET_MOD_DELAY", 0x104, 0x20, 4, fun p n => [(.ro, F.MET_MOD_DELAY_SPREAD p n), (.rw, F.MET_MOD_DELAY_DELAY p n)]⟩,
  ⟨"MET_MOD_SEQ", 0x108, 0x20, 4, fun p n => [(.ro, F.MET_MOD_SEQ_H p n), (.ro, F.MET_MOD_SEQ_NEXT p n)]⟩,
  ⟨"MET_MOD_CNT", 0x10c, 0x20, 4, fun p n => [(.ro, F.MET_MOD_CNT_DROP p n), (.ro, F.MET_MOD_CNT_CANCEL_MISSED p n), (.ro, F.MET_MOD_CNT_CRC_ERR p n), (.ro, F.MET_MOD_CNT_REJ p n)]⟩,
  ⟨"MET_MOD_CNT2", 0x110, 0x20, 4, fun p n => [(.ro, F.MET_MOD_CNT2_IN_FLIGHT p n), (.ro, F.MET_MOD_CNT2_ACK_TIMEOUTS p n)]⟩]

def rowsMet : List RegRow := rowsMet0 ++ rowsMet1

def rowsMot0 : List RegRow := [
  ⟨"MOT_CH_CFG", 0x100, 0x40, 4, fun _ n => [(.rws, F.MOT_CH_CFG_MIN_EDGE n), (.rws, F.MOT_CH_CFG_N_STAB n), (.rws, F.MOT_CH_CFG_PRESCALE n), (.rws, F.MOT_CH_CFG_METHOD n), (.rws, F.MOT_CH_CFG_INVERT n), (.rws, F.MOT_CH_CFG_Z_MODE n), (.rws, F.MOT_CH_CFG_KIND n), (.rw, F.MOT_CH_CFG_EN n)]⟩,
  ⟨"MOT_CH_SSI", 0x104, 0x40, 4, fun _ n => [(.rws, F.MOT_CH_SSI_BITS n), (.rws, F.MOT_CH_SSI_GRAY n), (.rws, F.MOT_CH_SSI_PARITY n), (.rws, F.MOT_CH_SSI_SCLK_DIV n), (.rws, F.MOT_CH_SSI_MONO n)]⟩,
  ⟨"MOT_CH_SSI2", 0x108, 0x40, 4, fun _ n => [(.rws, F.MOT_CH_SSI2_PERIOD n), (.rws, F.MOT_CH_SSI2_SAMPLE_DLY n), (.rws, F.MOT_CH_SSI2_ERR_LIMIT n)]⟩,
  ⟨"MOT_CH_SSI3", 0x10c, 0x40, 4, fun _ n => [(.rws, F.MOT_CH_SSI3_LAT n), (.rws, F.MOT_CH_SSI3_MAX_JUMP n)]⟩,
  ⟨"MOT_CH_OBS", 0x110, 0x40, 4, fun _ n => [(.rw, F.MOT_CH_OBS_STILL n), (.rw, F.MOT_CH_OBS_BW n)]⟩,
  ⟨"MOT_CH_LIM", 0x114, 0x40, 4, fun _ n => [(.rw, F.MOT_CH_LIM_FAULT_LIMIT n), (.rw, F.MOT_CH_LIM_HYST n)]⟩,
  ⟨"MOT_CH_POS_LO", 0x118, 0x40, 4, fun _ n => [(.ro, F.MOT_CH_POS_LO_POS_LO n)]⟩,
  ⟨"MOT_CH_POS_HI", 0x11c, 0x40, 4, fun _ n => [(.ro, F.MOT_CH_POS_HI_POS_HI n)]⟩,
  ⟨"MOT_CH_SPEED", 0x120, 0x40, 4, fun _ n => [(.ro, F.MOT_CH_SPEED_SPEED n)]⟩,
  ⟨"MOT_CH_ACCEL", 0x124, 0x40, 4, fun _ n => [(.ro, F.MOT_CH_ACCEL_ACCEL n)]⟩,
  ⟨"MOT_CH_STAT", 0x128, 0x40, 4, fun _ n => [(.ro, F.MOT_CH_STAT_LOST n), (.w1c, F.MOT_CH_STAT_FAULT n), (.ro, F.MOT_CH_STAT_SETTLING n), (.ro, F.MOT_CH_STAT_STILL n), (.ro, F.MOT_CH_STAT_DIR n), (.w1c, F.MOT_CH_STAT_INDEX_SEEN n), (.ro, F.MOT_CH_STAT_RUN n)]⟩,
  ⟨"MOT_CH_IDX_LO", 0x12c, 0x40, 4, fun _ n => [(.ro, F.MOT_CH_IDX_LO_IDX_LO n)]⟩,
  ⟨"MOT_CH_IDX_HI", 0x130, 0x40, 4, fun _ n => [(.ro, F.MOT_CH_IDX_HI_IDX_HI n)]⟩,
  ⟨"MOT_CH_LAST_T_LO", 0x134, 0x40, 4, fun _ n => [(.ro, F.MOT_CH_LAST_T_LO_DT_LO n)]⟩,
  ⟨"MOT_CH_LAST_T_HI", 0x138, 0x40, 4, fun _ n => [(.ro, F.MOT_CH_LAST_T_HI_DT_HI n)]⟩,
  ⟨"MOT_CH_CNT", 0x13c, 0x40, 4, fun _ n => [(.ro, F.MOT_CH_CNT_GLITCH n), (.ro, F.MOT_CH_CNT_ERRORS n)]⟩]

def rowsMot1 : List RegRow := [
  ⟨"MOT_CMP_CTRL", 0x200, 0x20, 8, fun _ n => [(.w1c, F.MOT_CMP_CTRL_HIT n), (.w1c, F.MOT_CMP_CTRL_PASSED n), (.rw, F.MOT_CMP_CTRL_SEL n), (.rw, F.MOT_CMP_CTRL_DIR n), (.rw, F.MOT_CMP_CTRL_PAST n), (.rw, F.MOT_CMP_CTRL_ARM n)]⟩,
  ⟨"MOT_CMP_TGT_LO", 0x204, 0x20, 8, fun _ n => [(.rw, F.MOT_CMP_TGT_LO_TGT_LO n)]⟩,
  ⟨"MOT_CMP_TGT_HI", 0x208, 0x20, 8, fun _ n => [(.rw, F.MOT_CMP_TGT_HI_TGT_HI n)]⟩,
  ⟨"MOT_CMP_HIT_T_LO", 0x20c, 0x20, 8, fun _ n => [(.ro, F.MOT_CMP_HIT_T_LO_DT_LO n)]⟩,
  ⟨"MOT_CMP_HIT_T_HI", 0x210, 0x20, 8, fun _ n => [(.ro, F.MOT_CMP_HIT_T_HI_DT_HI n)]⟩,
  ⟨"MOT_REP", 0x300, 0x4, 4, fun _ n => [(.rw, F.MOT_REP_DIV_M1 n), (.rw, F.MOT_REP_SRC n), (.rw, F.MOT_REP_EN n)]⟩]

def rowsMot : List RegRow := rowsMot0 ++ rowsMot1

def rowsSig : List RegRow := [
  ⟨"SIG_MCLK", 0x40, 0x0, 1, fun _ _ => (List.range 4).map (fun k => (.rw, F.SIG_MCLK_DIV k))⟩,
  ⟨"SIG_TEST", 0x44, 0x0, 1, fun _ _ => [(.rw, F.SIG_TEST_LEVEL)]⟩,
  ⟨"SIG_STALE", 0x48, 0x0, 1, fun _ _ => [(.ro, F.SIG_STALE_STALE)]⟩,
  ⟨"SIG_OVL", 0x4c, 0x0, 1, fun _ _ => [(.w1c, F.SIG_OVL_OVL)]⟩,
  ⟨"SIG_CH_CFG", 0x100, 0x20, 16, fun _ n => [(.rw, F.SIG_CH_CFG_EN n), (.rw, F.SIG_CH_CFG_MCLK_SEL n), (.rw, F.SIG_CH_CFG_DEC1 n), (.rw, F.SIG_CH_CFG_RANK n), (.rw, F.SIG_CH_CFG_HB n), (.rw, F.SIG_CH_CFG_FIR_DEC n), (.rw, F.SIG_CH_CFG_FIR_EN n), (.rw, F.SIG_CH_CFG_INVERT n), (.rw, F.SIG_CH_CFG_SDLY n), (.rw, F.SIG_CH_CFG_PHASE n)]⟩,
  ⟨"SIG_CH_XF", 0x104, 0x20, 16, fun _ n => [(.ro, F.SIG_CH_XF_ACTIVE n), (.ro, F.SIG_CH_XF_FADING n), (.w1s, F.SIG_CH_XF_GO n), (.rw, F.SIG_CH_XF_LEN n)]⟩,
  ⟨"SIG_CH_OUT", 0x108, 0x20, 16, fun _ n => [(.ro, F.SIG_CH_OUT_OUT n)]⟩,
  ⟨"SIG_CH_T_LO", 0x10c, 0x20, 16, fun _ n => [(.ro, F.SIG_CH_T_LO_DT_LO n)]⟩,
  ⟨"SIG_CH_T_HI", 0x110, 0x20, 16, fun _ n => [(.ro, F.SIG_CH_T_HI_DT_HI n)]⟩,
  ⟨"SIG_CH_FAST", 0x114, 0x20, 16, fun _ n => [(.ro, F.SIG_CH_FAST_FAST n)]⟩,
  ⟨"SIG_CH_GD", 0x118, 0x20, 16, fun _ n => [(.ro, F.SIG_CH_GD_FINE n)]⟩,
  ⟨"SIG_CH_STAT", 0x11c, 0x20, 16, fun _ n => [(.ro, F.SIG_CH_STAT_FAST_GD n), (.ro, F.SIG_CH_STAT_OVERLOAD n), (.ro, F.SIG_CH_STAT_SETTLING n), (.ro, F.SIG_CH_STAT_STUCK n), (.ro, F.SIG_CH_STAT_STALE n)]⟩]

def rowsTrim : List RegRow := [
  ⟨"TRIM_CTRL", 0x40, 0x0, 1, fun _ _ => [(.ro, F.TRIM_CTRL_PEND), (.rw, F.TRIM_CTRL_TIMED), (.w1s, F.TRIM_CTRL_GO)]⟩,
  ⟨"TRIM_APPLY_AT_LO", 0x44, 0x0, 1, fun _ _ => [(.rw, F.TRIM_APPLY_AT_LO_AT_LO)]⟩,
  ⟨"TRIM_APPLY_AT_HI", 0x48, 0x0, 1, fun _ _ => [(.rw, F.TRIM_APPLY_AT_HI_AT_HI)]⟩,
  ⟨"TRIM_HELD", 0x4c, 0x0, 1, fun _ _ => [(.ro, F.TRIM_HELD_HELD)]⟩,
  ⟨"TRIM_SLEW", 0x50, 0x0, 1, fun _ _ => [(.rw, F.TRIM_SLEW_SLEW)]⟩,
  ⟨"TRIM_CODE", 0x100, 0x4, 16, fun _ n => [(.ro, F.TRIM_CODE_NOW n), (.rw, F.TRIM_CODE_CODE n)]⟩]

def rowsTime0 : List RegRow := [
  ⟨"TIME_CTRL", 0x40, 0x0, 1, fun _ _ => [(.rw, F.TIME_CTRL_PROFILE), (.rw, F.TIME_CTRL_PATH_LEARN), (.rw, F.TIME_CTRL_GM_EN), (.rw, F.TIME_CTRL_SERVO_EN), (.rw, F.TIME_CTRL_OC_SEL)]⟩,
  ⟨"TIME_PTP_CFG", 0x44, 0x0, 1, fun _ _ => [(.rw, F.TIME_PTP_CFG_PRIORITY1), (.rw, F.TIME_PTP_CFG_CLASS), (.rw, F.TIME_PTP_CFG_PRIORITY2), (.rw, F.TIME_PTP_CFG_DOMAIN)]⟩,
  ⟨"TIME_NOW_LO", 0x48, 0x0, 1, fun _ _ => [(.ro, F.TIME_NOW_LO_DT_LO)]⟩,
  ⟨"TIME_NOW_HI", 0x4c, 0x0, 1, fun _ _ => [(.ro, F.TIME_NOW_HI_DT_HI)]⟩,
  ⟨"TIME_NOW_FRAC", 0x50, 0x0, 1, fun _ _ => [(.ro, F.TIME_NOW_FRAC_FRAC)]⟩,
  ⟨"TIME_RATE_LO", 0x54, 0x0, 1, fun _ _ => [(.rw, F.TIME_RATE_LO_RATE_F)]⟩,
  ⟨"TIME_RATE_HI", 0x58, 0x0, 1, fun _ _ => [(.rw, F.TIME_RATE_HI_RATE_I)]⟩,
  ⟨"TIME_SLEW", 0x5c, 0x0, 1, fun _ _ => [(.rw, F.TIME_SLEW_AMOUNT)]⟩,
  ⟨"TIME_SLEW_CTRL", 0x60, 0x0, 1, fun _ _ => [(.ro, F.TIME_SLEW_CTRL_BUSY), (.rw, F.TIME_SLEW_CTRL_SLEW_MAX)]⟩,
  ⟨"TIME_SET_LO", 0x64, 0x0, 1, fun _ _ => [(.rw, F.TIME_SET_LO_SET_LO)]⟩,
  ⟨"TIME_SET_HI", 0x68, 0x0, 1, fun _ _ => [(.rw, F.TIME_SET_HI_SET_HI)]⟩,
  ⟨"TIME_STAT", 0x6c, 0x0, 1, fun _ _ => [(.ro, F.TIME_STAT_SKEW_WARN), (.ro, F.TIME_STAT_PPS_IN_OK), (.ro, F.TIME_STAT_SLEWING), (.ro, F.TIME_STAT_GM_ACTIVE), (.ro, F.TIME_STAT_PATH_HOLD), (.ro, F.TIME_STAT_HOLDOVER), (.ro, F.TIME_STAT_LOCKED), (.ro, F.TIME_STAT_SET)]⟩,
  ⟨"TIME_SERVO", 0x70, 0x0, 1, fun _ _ => [(.rw, F.TIME_SERVO_LOCK_NS), (.rw, F.TIME_SERVO_LOCK_CNT), (.rw, F.TIME_SERVO_KI_SHIFT), (.rw, F.TIME_SERVO_KP_SHIFT), (.rw, F.TIME_SERVO_STEP_US)]⟩,
  ⟨"TIME_OFS", 0x74, 0x0, 1, fun _ _ => [(.ro, F.TIME_OFS_THETA)]⟩,
  ⟨"TIME_MPD", 0x78, 0x0, 1, fun _ _ => [(.ro, F.TIME_MPD_MPD)]⟩,
  ⟨"TIME_PATH", 0x7c, 0x0, 1, fun _ _ => [(.rw, F.TIME_PATH_PATH_JUMP), (.rw, F.TIME_PATH_HOLD_N), (.ro, F.TIME_PATH_ENTRY)]⟩]

def rowsTime1 : List RegRow := [
  ⟨"TIME_PATH_J", 0x80, 0x0, 1, fun _ _ => [(.rw, F.TIME_PATH_J_ASYM_MAX), (.ro, F.TIME_PATH_J_J)]⟩,
  ⟨"TIME_ASYM", 0x84, 0x0, 1, fun _ _ => [(.w1s, F.TIME_ASYM_CLR_ALL), (.ro, F.TIME_ASYM_ASYM)]⟩,
  ⟨"TIME_PPS", 0x88, 0x0, 1, fun _ _ => [(.rw, F.TIME_PPS_WIDTH), (.rw, F.TIME_PPS_IN_POL), (.rw, F.TIME_PPS_OUT_POL), (.rw, F.TIME_PPS_OUT_EN)]⟩,
  ⟨"TIME_PPS_IN_LO", 0x8c, 0x0, 1, fun _ _ => [(.ro, F.TIME_PPS_IN_LO_DT_LO)]⟩,
  ⟨"TIME_PPS_IN_HI", 0x90, 0x0, 1, fun _ _ => [(.ro, F.TIME_PPS_IN_HI_DT_HI)]⟩,
  ⟨"TIME_GM_SEC", 0x94, 0x0, 1, fun _ _ => [(.rw, F.TIME_GM_SEC_SEC)]⟩,
  ⟨"TIME_SCHED_CFG", 0x98, 0x0, 1, fun _ _ => [(.rw, F.TIME_SCHED_CFG_HORIZON)]⟩,
  ⟨"TIME_PTM_CTRL", 0x9c, 0x0, 1, fun _ _ => [(.rw, F.TIME_PTM_CTRL_PERIOD), (.w1s, F.TIME_PTM_CTRL_GO), (.rw, F.TIME_PTM_CTRL_EN)]⟩,
  ⟨"TIME_PTM_STAT", 0xa0, 0x0, 1, fun _ _ => [(.ro, F.TIME_PTM_STAT_SEQ), (.ro, F.TIME_PTM_STAT_ERR), (.ro, F.TIME_PTM_STAT_VALID)]⟩,
  ⟨"TIME_PTM_MASTER_LO", 0xa4, 0x0, 1, fun _ _ => [(.ro, F.TIME_PTM_MASTER_LO_MASTER)]⟩,
  ⟨"TIME_PTM_MASTER_HI", 0xa8, 0x0, 1, fun _ _ => [(.ro, F.TIME_PTM_MASTER_HI_MASTER)]⟩,
  ⟨"TIME_PTM_LOCAL_LO", 0xac, 0x0, 1, fun _ _ => [(.ro, F.TIME_PTM_LOCAL_LO_LOCAL)]⟩,
  ⟨"TIME_PTM_LOCAL_HI", 0xb0, 0x0, 1, fun _ _ => [(.ro, F.TIME_PTM_LOCAL_HI_LOCAL)]⟩,
  ⟨"TIME_ISL_DLY", 0xc0, 0x4, 4, fun _ n => [(.ro, F.TIME_ISL_DLY_DEV n), (.ro, F.TIME_ISL_DLY_DLY n)]⟩,
  ⟨"TIME_SCHED_CTRL", 0x100, 0x20, 16, fun _ n => [(.ro, F.TIME_SCHED_CTRL_BLOCKED n), (.w1c, F.TIME_SCHED_CTRL_LATE n), (.w1c, F.TIME_SCHED_CTRL_FIRED n), (.ro, F.TIME_SCHED_CTRL_LEVEL n), (.rw, F.TIME_SCHED_CTRL_POLICY n), (.rw, F.TIME_SCHED_CTRL_ACTION n), (.rw, F.TIME_SCHED_CTRL_ARM n)]⟩,
  ⟨"TIME_SCHED_AT_LO", 0x104, 0x20, 16, fun _ n => [(.rw, F.TIME_SCHED_AT_LO_AT_LO n)]⟩]

def rowsTime2 : List RegRow := [
  ⟨"TIME_SCHED_AT_HI", 0x108, 0x20, 16, fun _ n => [(.rw, F.TIME_SCHED_AT_HI_AT_HI n)]⟩,
  ⟨"TIME_SCHED_PERIOD", 0x10c, 0x20, 16, fun _ n => [(.rw, F.TIME_SCHED_PERIOD_PERIOD n)]⟩,
  ⟨"TIME_SCHED_WIDTH", 0x110, 0x20, 16, fun _ n => [(.rw, F.TIME_SCHED_WIDTH_WIDTH n)]⟩,
  ⟨"TIME_SCHED_LAST_LO", 0x114, 0x20, 16, fun _ n => [(.ro, F.TIME_SCHED_LAST_LO_LAST n)]⟩,
  ⟨"TIME_SCHED_LAST_HI", 0x118, 0x20, 16, fun _ n => [(.ro, F.TIME_SCHED_LAST_HI_LAST n)]⟩,
  ⟨"TIME_SCHED_CNT", 0x11c, 0x20, 16, fun _ n => [(.ro, F.TIME_SCHED_CNT_COUNT n)]⟩]

def rowsTime : List RegRow := rowsTime0 ++ rowsTime1 ++ rowsTime2

def rowsNet0 : List RegRow := [
  ⟨"NET_CTRL", 0x40, 0x0, 1, fun _ _ => [(.rw, F.NET_CTRL_LEARN_EN), (.rw, F.NET_CTRL_TC_MODE), (.rw, F.NET_CTRL_TC_EN), (.rw, F.NET_CTRL_FWD_EN), (.rws, F.NET_CTRL_FEC1), (.rws, F.NET_CTRL_SPEED1), (.rw, F.NET_CTRL_EN1), (.rws, F.NET_CTRL_FEC0), (.rws, F.NET_CTRL_SPEED0), (.rw, F.NET_CTRL_EN0)]⟩,
  ⟨"NET_MAC_LO", 0x44, 0x0, 1, fun _ _ => [(.rw, F.NET_MAC_LO_MAC_LO)]⟩,
  ⟨"NET_MAC_HI", 0x48, 0x0, 1, fun _ _ => [(.rw, F.NET_MAC_HI_MAC_HI)]⟩,
  ⟨"NET_PORT_STAT", 0x50, 0x4, 2, fun _ n => [(.ro, F.NET_PORT_STAT_DOWN_CNT n), (.ro, F.NET_PORT_STAT_TX_DIS n), (.ro, F.NET_PORT_STAT_LOS n), (.ro, F.NET_PORT_STAT_MOD_ABS n), (.ro, F.NET_PORT_STAT_BLOCK_LOCK n), (.ro, F.NET_PORT_STAT_LINK n)]⟩,
  ⟨"NET_PORT_PDELAY", 0x58, 0x4, 2, fun _ n => [(.ro, F.NET_PORT_PDELAY_PDELAY n)]⟩,
  ⟨"NET_PORT_ASYM", 0x60, 0x4, 2, fun _ n => [(.rw, F.NET_PORT_ASYM_ASYM n)]⟩,
  ⟨"NET_TC_RES", 0x68, 0x0, 1, fun _ _ => [(.ro, F.NET_TC_RES_MAX), (.ro, F.NET_TC_RES_LAST)]⟩,
  ⟨"NET_LEARN", 0x6c, 0x0, 1, fun _ _ => [(.rw, F.NET_LEARN_AGE)]⟩,
  ⟨"NET_CNT_RX0", 0x70, 0x0, 1, fun _ _ => [(.ro, F.NET_CNT_RX0_COUNT)]⟩,
  ⟨"NET_CNT_RX1", 0x74, 0x0, 1, fun _ _ => [(.ro, F.NET_CNT_RX1_COUNT)]⟩,
  ⟨"NET_CNT_FCS0", 0x78, 0x0, 1, fun _ _ => [(.ro, F.NET_CNT_FCS0_COUNT)]⟩,
  ⟨"NET_CNT_FCS1", 0x7c, 0x0, 1, fun _ _ => [(.ro, F.NET_CNT_FCS1_COUNT)]⟩,
  ⟨"NET_CNT_FWD", 0x80, 0x0, 1, fun _ _ => [(.ro, F.NET_CNT_FWD_COUNT)]⟩,
  ⟨"NET_CNT_TO_INT", 0x84, 0x0, 1, fun _ _ => [(.ro, F.NET_CNT_TO_INT_COUNT)]⟩,
  ⟨"NET_CNT_TC_CORR", 0x88, 0x0, 1, fun _ _ => [(.ro, F.NET_CNT_TC_CORR_COUNT)]⟩,
  ⟨"NET_CNT_DROP", 0x8c, 0x0, 1, fun _ _ => [(.ro, F.NET_CNT_DROP_COUNT)]⟩]

def rowsNet1 : List RegRow := [
  ⟨"NET_MOD_ID", 0x100, 0x4, 64, fun _ n => [(.ro, F.NET_MOD_ID_ID n)]⟩]

def rowsNet : List RegRow := rowsNet0 ++ rowsNet1

def rowsHost0 : List RegRow := [
  ⟨"HOST_LINK", 0x40, 0x0, 1, fun _ _ => [(.ro, F.HOST_LINK_D3HOT), (.ro, F.HOST_LINK_BME), (.ro, F.HOST_LINK_WIDTH), (.ro, F.HOST_LINK_SPEED)]⟩,
  ⟨"HOST_RESETS", 0x44, 0x0, 1, fun _ _ => [(.ro, F.HOST_RESETS_COUNT)]⟩,
  ⟨"HOST_EVT_SEL", 0x50, 0x4, 5, fun _ n => [(.rw, F.HOST_EVT_SEL_SEL n)]⟩,
  ⟨"HOST_IMG", 0x64, 0x0, 1, fun _ _ => [(.rw, F.HOST_IMG_SAMPLE), (.rw, F.HOST_IMG_GROUPS), (.rw, F.HOST_IMG_PACK_EN), (.rw, F.HOST_IMG_PACK_CH), (.rw, F.HOST_IMG_REJ)]⟩,
  ⟨"HOST_REC", 0x68, 0x0, 1, fun _ _ => [(.w1s, F.HOST_REC_GO), (.ro, F.HOST_REC_BUSY), (.rw, F.HOST_REC_GROUP), (.rw, F.HOST_REC_ROWS)]⟩,
  ⟨"HOST_NET", 0x6c, 0x0, 1, fun _ _ => [(.rw, F.HOST_NET_MIRROR), (.rw, F.HOST_NET_ETYPE)]⟩,
  ⟨"HOST_NET_DST_LO", 0x70, 0x0, 1, fun _ _ => [(.rw, F.HOST_NET_DST_LO_DST_LO)]⟩,
  ⟨"HOST_NET_DST_HI", 0x74, 0x0, 1, fun _ _ => [(.rw, F.HOST_NET_DST_HI_DST_HI)]⟩,
  ⟨"HOST_ARB", 0x78, 0x0, 1, fun _ _ => [(.rw, F.HOST_ARB_W_DMA), (.rw, F.HOST_ARB_W_REP)]⟩,
  ⟨"HOST_CNT_BAD", 0x7c, 0x0, 1, fun _ _ => [(.ro, F.HOST_CNT_BAD_COUNT)]⟩,
  ⟨"RQ_CTRL", 0x100, 0x40, 5, fun _ n => [(.rw, F.RQ_CTRL_FLUSH_US n), (.rw, F.RQ_CTRL_VECTOR n), (.w1s, F.RQ_CTRL_RELEASE_B n), (.w1s, F.RQ_CTRL_RELEASE_A n), (.w1s, F.RQ_CTRL_FAULT_B n), (.w1s, F.RQ_CTRL_FAULT_A n), (.w1s, F.RQ_CTRL_RESTORE n), (.w1s, F.RQ_CTRL_FLUSH n), (.rw, F.RQ_CTRL_EN n)]⟩,
  ⟨"RQ_STAT", 0x104, 0x40, 5, fun _ n => [(.w1c, F.RQ_STAT_GAP n), (.w1c, F.RQ_STAT_FAULT n), (.w1c, F.RQ_STAT_RING_DATA n), (.w1c, F.RQ_STAT_SEALED_B n), (.w1c, F.RQ_STAT_SEALED_A n), (.ro, F.RQ_STAT_STATE_B n), (.ro, F.RQ_STAT_STATE_A n), (.ro, F.RQ_STAT_ACTIVE n), (.ro, F.RQ_STAT_MODE n)]⟩,
  ⟨"RQ_BANK_A_LO", 0x108, 0x40, 5, fun _ n => [(.rw, F.RQ_BANK_A_LO_ADDR n)]⟩,
  ⟨"RQ_BANK_A_HI", 0x10c, 0x40, 5, fun _ n => [(.rw, F.RQ_BANK_A_HI_ADDR n)]⟩,
  ⟨"RQ_BANK_B_LO", 0x110, 0x40, 5, fun _ n => [(.rw, F.RQ_BANK_B_LO_ADDR n)]⟩,
  ⟨"RQ_BANK_B_HI", 0x114, 0x40, 5, fun _ n => [(.rw, F.RQ_BANK_B_HI_ADDR n)]⟩]

def rowsHost1 : List RegRow := [
  ⟨"RQ_BANK_SIZE", 0x118, 0x40, 5, fun _ n => [(.rw, F.RQ_BANK_SIZE_SIZE n)]⟩,
  ⟨"RQ_RING_LO", 0x11c, 0x40, 5, fun _ n => [(.rw, F.RQ_RING_LO_ADDR n)]⟩,
  ⟨"RQ_RING_HI", 0x120, 0x40, 5, fun _ n => [(.rw, F.RQ_RING_HI_ADDR n)]⟩,
  ⟨"RQ_RING_SIZE", 0x124, 0x40, 5, fun _ n => [(.rw, F.RQ_RING_SIZE_SIZE n)]⟩,
  ⟨"RQ_RING_CI", 0x128, 0x40, 5, fun _ n => [(.rw, F.RQ_RING_CI_CI n)]⟩,
  ⟨"RQ_RING_PI", 0x12c, 0x40, 5, fun _ n => [(.ro, F.RQ_RING_PI_PI n)]⟩,
  ⟨"RQ_SEQ", 0x130, 0x40, 5, fun _ n => [(.ro, F.RQ_SEQ_SEQ n)]⟩,
  ⟨"RQ_LOST", 0x134, 0x40, 5, fun _ n => [(.ro, F.RQ_LOST_COUNT n)]⟩,
  ⟨"RQ_STAGE", 0x138, 0x40, 5, fun _ n => [(.ro, F.RQ_STAGE_USED n)]⟩,
  ⟨"DR_CTRL", 0x300, 0x20, 2, fun _ n => [(.rws, F.DR_CTRL_SIZE n), (.rw, F.DR_CTRL_VECTOR n), (.rw, F.DR_CTRL_EN n)]⟩,
  ⟨"DR_BASE_LO", 0x304, 0x20, 2, fun _ n => [(.rws, F.DR_BASE_LO_ADDR n)]⟩,
  ⟨"DR_BASE_HI", 0x308, 0x20, 2, fun _ n => [(.rws, F.DR_BASE_HI_ADDR n)]⟩,
  ⟨"DR_HEAD", 0x30c, 0x20, 2, fun _ n => [(.ro, F.DR_HEAD_HEAD n)]⟩,
  ⟨"DR_TAIL", 0x310, 0x20, 2, fun _ n => [(.rw, F.DR_TAIL_TAIL n)]⟩,
  ⟨"DR_STAT", 0x314, 0x20, 2, fun _ n => [(.ro, F.DR_STAT_BUSY n), (.w1c, F.DR_STAT_ERR n), (.w1c, F.DR_STAT_DONE n)]⟩]

def rowsHost : List RegRow := rowsHost0 ++ rowsHost1

def rowsPack : List RegRow := [
  ⟨"PACK_CH_CFG", 0x100, 0x40, 4, fun _ n => [(.rw, F.PACK_CH_CFG_STREAM n), (.rw, F.PACK_CH_CFG_FULL_CLEAR n), (.rw, F.PACK_CH_CFG_CARRY n), (.rw, F.PACK_CH_CFG_EN n)]⟩,
  ⟨"PACK_CH_STAT", 0x104, 0x40, 4, fun _ n => [(.ro, F.PACK_CH_STAT_LAST_ERR n), (.ro, F.PACK_CH_STAT_DICT_FULL n), (.ro, F.PACK_CH_STAT_HELD n), (.ro, F.PACK_CH_STAT_DIR n)]⟩,
  ⟨"PACK_CH_HIST", 0x108, 0x40, 4, fun _ n => [(.ro, F.PACK_CH_HIST_BLOCK_SEQ n), (.ro, F.PACK_CH_HIST_STREAM_ID n)]⟩,
  ⟨"PACK_CH_NEXT", 0x10c, 0x40, 4, fun _ n => [(.ro, F.PACK_CH_NEXT_NEXT n)]⟩,
  ⟨"PACK_CH_ST_CTRL", 0x110, 0x40, 4, fun _ n => [(.w1s, F.PACK_CH_ST_CTRL_SAVE n), (.w1s, F.PACK_CH_ST_CTRL_LOAD n), (.ro, F.PACK_CH_ST_CTRL_RESULT n), (.ro, F.PACK_CH_ST_CTRL_BUSY n)]⟩,
  ⟨"PACK_CH_ST_ADDR_LO", 0x114, 0x40, 4, fun _ n => [(.rw, F.PACK_CH_ST_ADDR_LO_ADDR_LO n)]⟩,
  ⟨"PACK_CH_ST_ADDR_HI", 0x118, 0x40, 4, fun _ n => [(.rw, F.PACK_CH_ST_ADDR_HI_ADDR_HI n)]⟩,
  ⟨"PACK_CH_CNT_IN", 0x120, 0x40, 4, fun _ n => [(.ro, F.PACK_CH_CNT_IN_COUNT n)]⟩,
  ⟨"PACK_CH_CNT_OUT", 0x124, 0x40, 4, fun _ n => [(.ro, F.PACK_CH_CNT_OUT_COUNT n)]⟩,
  ⟨"PACK_CH_CNT_BLOCKS", 0x128, 0x40, 4, fun _ n => [(.ro, F.PACK_CH_CNT_BLOCKS_COUNT n)]⟩,
  ⟨"PACK_CH_CNT_VERIFY_FAIL", 0x12c, 0x40, 4, fun _ n => [(.ro, F.PACK_CH_CNT_VERIFY_FAIL_COUNT n)]⟩,
  ⟨"PACK_CH_CNT_DECODE_ERR", 0x130, 0x40, 4, fun _ n => [(.ro, F.PACK_CH_CNT_DECODE_ERR_COUNT n)]⟩,
  ⟨"PACK_CH_CNT_OUTFULL", 0x134, 0x40, 4, fun _ n => [(.ro, F.PACK_CH_CNT_OUTFULL_COUNT n)]⟩]

def rowsNvm0 : List RegRow := [
  ⟨"NVM_STAT", 0x40, 0x0, 1, fun _ _ => [(.ro, F.NVM_STAT_KEYS), (.ro, F.NVM_STAT_FREE_UNITS)]⟩,
  ⟨"NVM_WEAR", 0x44, 0x0, 1, fun _ _ => [(.ro, F.NVM_WEAR_MAX)]⟩,
  ⟨"NVM_WEAR_UNIT", 0x48, 0x0, 1, fun _ _ => [(.ro, F.NVM_WEAR_UNIT_RETIRED), (.ro, F.NVM_WEAR_UNIT_UNIT)]⟩,
  ⟨"NVM_DIR_SEL", 0x4c, 0x0, 1, fun _ _ => [(.rw, F.NVM_DIR_SEL_KEY)]⟩,
  ⟨"NVM_DIR_INFO", 0x50, 0x0, 1, fun _ _ => [(.ro, F.NVM_DIR_INFO_VALID_B), (.ro, F.NVM_DIR_INFO_VALID_A), (.ro, F.NVM_DIR_INFO_NEWEST), (.ro, F.NVM_DIR_INFO_INST), (.ro, F.NVM_DIR_INFO_KIND)]⟩,
  ⟨"NVM_DIR_GEN_A", 0x54, 0x0, 1, fun _ _ => [(.ro, F.NVM_DIR_GEN_A_GEN)]⟩,
  ⟨"NVM_DIR_GEN_B", 0x58, 0x0, 1, fun _ _ => [(.ro, F.NVM_DIR_GEN_B_GEN)]⟩,
  ⟨"NVM_CNT_COMMIT", 0x5c, 0x0, 1, fun _ _ => [(.ro, F.NVM_CNT_COMMIT_COUNT)]⟩,
  ⟨"NVM_CNT_RESTORE", 0x60, 0x0, 1, fun _ _ => [(.ro, F.NVM_CNT_RESTORE_COUNT)]⟩,
  ⟨"NVM_CNT_PLAUS", 0x64, 0x0, 1, fun _ _ => [(.ro, F.NVM_CNT_PLAUS_COUNT)]⟩,
  ⟨"NVM_CNT_CHECK_FAIL", 0x68, 0x0, 1, fun _ _ => [(.ro, F.NVM_CNT_CHECK_FAIL_COUNT)]⟩,
  ⟨"CAL_PLAUS0", 0x70, 0x0, 1, fun _ _ => [(.rw, F.CAL_PLAUS0_PL_DARK), (.rw, F.CAL_PLAUS0_PL_GAIN)]⟩,
  ⟨"CAL_PLAUS1", 0x74, 0x0, 1, fun _ _ => [(.rw, F.CAL_PLAUS1_PL_BG), (.rw, F.CAL_PLAUS1_PL_PERMILLE)]⟩,
  ⟨"CAL_ILLUM", 0x78, 0x0, 1, fun _ _ => [(.rw, F.CAL_ILLUM_DELAY), (.rw, F.CAL_ILLUM_DEAD), (.ro, F.CAL_ILLUM_PROPOSAL), (.ro, F.CAL_ILLUM_PEND), (.w1s, F.CAL_ILLUM_APPLY), (.rw, F.CAL_ILLUM_METHOD)]⟩,
  ⟨"CAL_ILLUM_LIM", 0x7c, 0x0, 1, fun _ _ => [(.rw, F.CAL_ILLUM_LIM_GAIN_STEP), (.rw, F.CAL_ILLUM_LIM_TRIM_STEP)]⟩,
  ⟨"CAL_LAMP_MAP", 0x100, 0x8, 16, fun _ n => [(.rw, F.CAL_LAMP_MAP_ZONES n), (.rw, F.CAL_LAMP_MAP_EN n), (.rw, F.CAL_LAMP_MAP_BAND n), (.rw, F.CAL_LAMP_MAP_PORT n)]⟩]

def rowsNvm1 : List RegRow := [
  ⟨"CAL_LAMP_PROP", 0x104, 0x8, 16, fun _ n => [(.ro, F.CAL_LAMP_PROP_VALID n), (.ro, F.CAL_LAMP_PROP_CODE n)]⟩]

def rowsNvm : List RegRow := rowsNvm0 ++ rowsNvm1

def rowsIsl : List RegRow := [
  ⟨"ISL_CFG", 0x40, 0x0, 1, fun _ _ => [(.rw, F.ISL_CFG_MGN_HI), (.rw, F.ISL_CFG_MGN_LO)]⟩,
  ⟨"ISL_LIMIT", 0x44, 0x0, 1, fun _ _ => [(.rw, F.ISL_LIMIT_LOWER_HOLD), (.rw, F.ISL_LIMIT_HEADROOM)]⟩,
  ⟨"ISL_HEALTH", 0x48, 0x0, 1, fun _ _ => [(.ro, F.ISL_HEALTH_AGED), (.ro, F.ISL_HEALTH_WORST), (.ro, F.ISL_HEALTH_WORST_SLACK)]⟩,
  ⟨"ISL_CANARY", 0x4c, 0x0, 1, fun _ _ => [(.ro, F.ISL_CANARY_HITS)]⟩,
  ⟨"ISL_STEPS", 0x50, 0x0, 1, fun _ _ => [(.ro, F.ISL_STEPS_DOWN), (.ro, F.ISL_STEPS_UP)]⟩,
  ⟨"ISL_PT", 0x100, 0x8, 96, fun _ n => [(.ro, F.ISL_PT_FIXED n), (.ro, F.ISL_PT_UNREG n), (.ro, F.ISL_PT_AGED n), (.ro, F.ISL_PT_PROP_VALID n), (.ro, F.ISL_PT_PROP n), (.ro, F.ISL_PT_INIT n), (.ro, F.ISL_PT_VCODE n)]⟩,
  ⟨"ISL_MGN", 0x104, 0x8, 96, fun _ n => [(.ro, F.ISL_MGN_CANARY n), (.ro, F.ISL_MGN_SLACK n)]⟩]

def rowsObs : List RegRow := [
  ⟨"OBS_CTRL", 0x40, 0x0, 1, fun _ _ => [(.rw, F.OBS_CTRL_PERIOD), (.rw, F.OBS_CTRL_REC), (.rw, F.OBS_CTRL_CLR), (.w1s, F.OBS_CTRL_SNAP)]⟩,
  ⟨"OBS_SNAP_MASK", 0x44, 0x0, 1, fun _ _ => [(.rw, F.OBS_SNAP_MASK_MASK)]⟩,
  ⟨"OBS_SNAP_SEQ", 0x48, 0x0, 1, fun _ _ => [(.ro, F.OBS_SNAP_SEQ_SEQ)]⟩,
  ⟨"OBS_SNAP_DT_LO", 0x4c, 0x0, 1, fun _ _ => [(.ro, F.OBS_SNAP_DT_LO_DT)]⟩,
  ⟨"OBS_SNAP_DT_HI", 0x50, 0x0, 1, fun _ _ => [(.ro, F.OBS_SNAP_DT_HI_DT)]⟩,
  ⟨"OBS_RD_SEL", 0x54, 0x0, 1, fun _ _ => [(.rw, F.OBS_RD_SEL_LIVE), (.rw, F.OBS_RD_SEL_MON), (.rw, F.OBS_RD_SEL_ITEM)]⟩,
  ⟨"OBS_RD_DATA", 0x58, 0x0, 1, fun _ _ => [(.ro, F.OBS_RD_DATA_DATA)]⟩,
  ⟨"OBS_TEST", 0x5c, 0x0, 1, fun _ _ => [(.wo, F.OBS_TEST_VALUE)]⟩,
  ⟨"OBS_MON_CFG", 0x100, 0x8, 32, fun _ n => [(.rw, F.OBS_MON_CFG_EN n), (.rw, F.OBS_MON_CFG_LOG2 n), (.rw, F.OBS_MON_CFG_ABS n), (.rw, F.OBS_MON_CFG_SHIFT n), (.rw, F.OBS_MON_CFG_INST n), (.rw, F.OBS_MON_CFG_SRC n)]⟩,
  ⟨"OBS_MON_BASE", 0x104, 0x8, 32, fun _ n => [(.rw, F.OBS_MON_BASE_BASE n)]⟩]

def rowsChk : List RegRow := [
  ⟨"CHK_CFG", 0x100, 0x40, 4, fun _ n => [(.rw, F.CHK_CFG_REFOUT n), (.rw, F.CHK_CFG_REFIN n), (.rw, F.CHK_CFG_WIDTH n)]⟩,
  ⟨"CHK_POLY", 0x104, 0x40, 4, fun _ n => [(.rw, F.CHK_POLY_POLY n)]⟩,
  ⟨"CHK_INIT", 0x108, 0x40, 4, fun _ n => [(.rw, F.CHK_INIT_INIT n)]⟩,
  ⟨"CHK_XOROUT", 0x10c, 0x40, 4, fun _ n => [(.rw, F.CHK_XOROUT_XOROUT n)]⟩,
  ⟨"CHK_CTRL", 0x110, 0x40, 4, fun _ n => [(.w1s, F.CHK_CTRL_GO n), (.w1s, F.CHK_CTRL_INIT n)]⟩,
  ⟨"CHK_STAT", 0x114, 0x40, 4, fun _ n => [(.ro, F.CHK_STAT_CODE n), (.w1c, F.CHK_STAT_ERR n), (.ro, F.CHK_STAT_BUSY n), (.w1c, F.CHK_STAT_DONE n), (.ro, F.CHK_STAT_LEVEL n)]⟩,
  ⟨"CHK_DATA", 0x118, 0x40, 4, fun _ n => [(.wo, F.CHK_DATA_DATA n)]⟩,
  ⟨"CHK_DATA1", 0x11c, 0x40, 4, fun _ n => [(.wo, F.CHK_DATA1_DATA n)]⟩,
  ⟨"CHK_DATA2", 0x120, 0x40, 4, fun _ n => [(.wo, F.CHK_DATA2_DATA n)]⟩,
  ⟨"CHK_DATA3", 0x124, 0x40, 4, fun _ n => [(.wo, F.CHK_DATA3_DATA n)]⟩,
  ⟨"CHK_SRC_LO", 0x128, 0x40, 4, fun _ n => [(.rw, F.CHK_SRC_LO_SRC_LO n)]⟩,
  ⟨"CHK_SRC_HI", 0x12c, 0x40, 4, fun _ n => [(.rw, F.CHK_SRC_HI_SRC_HI n)]⟩,
  ⟨"CHK_LEN", 0x130, 0x40, 4, fun _ n => [(.rw, F.CHK_LEN_LEN n)]⟩,
  ⟨"CHK_RESULT", 0x134, 0x40, 4, fun _ n => [(.ro, F.CHK_RESULT_RESULT n)]⟩,
  ⟨"CHK_COUNT", 0x138, 0x40, 4, fun _ n => [(.ro, F.CHK_COUNT_COUNT n)]⟩]

def rowsTwin0 : List RegRow := [
  ⟨"TWIN_CTRL", 0x40, 0x0, 1, fun _ _ => [(.rw, F.TWIN_CTRL_DIG_LIMIT), (.rw, F.TWIN_CTRL_START_WAIT), (.rw, F.TWIN_CTRL_LANE_WD), (.w1s, F.TWIN_CTRL_JOIN_GO), (.rw, F.TWIN_CTRL_SVC_HOST), (.rw, F.TWIN_CTRL_AUTO_HAND), (.rw, F.TWIN_CTRL_DIG_EN)]⟩,
  ⟨"TWIN_STAT", 0x44, 0x0, 1, fun _ _ => [(.ro, F.TWIN_STAT_PARTNER_STATE), (.ro, F.TWIN_STAT_PARTNER_LEVEL), (.ro, F.TWIN_STAT_LANES), (.ro, F.TWIN_STAT_HOSTING), (.ro, F.TWIN_STAT_LINK_UP), (.ro, F.TWIN_STAT_PARTNER_OK), (.ro, F.TWIN_STAT_SYNCED), (.ro, F.TWIN_STAT_CATCHUP), (.ro, F.TWIN_STAT_ROLE)]⟩,
  ⟨"TWIN_TOKEN", 0x48, 0x0, 1, fun _ _ => [(.ro, F.TWIN_TOKEN_HELD), (.ro, F.TWIN_TOKEN_EPOCH)]⟩,
  ⟨"TWIN_JOIN_AT_LO", 0x4c, 0x0, 1, fun _ _ => [(.rw, F.TWIN_JOIN_AT_LO_AT_LO)]⟩,
  ⟨"TWIN_JOIN_AT_HI", 0x50, 0x0, 1, fun _ _ => [(.rw, F.TWIN_JOIN_AT_HI_AT_HI)]⟩,
  ⟨"TWIN_JOIN_STAT", 0x54, 0x0, 1, fun _ _ => [(.ro, F.TWIN_JOIN_STAT_COPIED), (.ro, F.TWIN_JOIN_STAT_PHASE)]⟩,
  ⟨"TWIN_CFG_CHECK", 0x58, 0x0, 1, fun _ _ => [(.ro, F.TWIN_CFG_CHECK_CHECK)]⟩,
  ⟨"TWIN_PCFG_CHECK", 0x5c, 0x0, 1, fun _ _ => [(.ro, F.TWIN_PCFG_CHECK_CHECK)]⟩,
  ⟨"TWIN_HB", 0x60, 0x0, 1, fun _ _ => [(.ro, F.TWIN_HB_MISSED), (.ro, F.TWIN_HB_AGE)]⟩,
  ⟨"TWIN_DIG_ROWS", 0x64, 0x0, 1, fun _ _ => [(.ro, F.TWIN_DIG_ROWS_COUNT)]⟩,
  ⟨"TWIN_DIG_RMIS", 0x68, 0x0, 1, fun _ _ => [(.ro, F.TWIN_DIG_RMIS_COUNT)]⟩,
  ⟨"TWIN_DIG_VMIS", 0x6c, 0x0, 1, fun _ _ => [(.ro, F.TWIN_DIG_VMIS_COUNT)]⟩,
  ⟨"TWIN_DIG_FIRST", 0x70, 0x0, 1, fun _ _ => [(.ro, F.TWIN_DIG_FIRST_INDEX)]⟩,
  ⟨"TWIN_DIG_INFO", 0x74, 0x0, 1, fun _ _ => [(.w1s, F.TWIN_DIG_INFO_CLR), (.ro, F.TWIN_DIG_INFO_KIND), (.ro, F.TWIN_DIG_INFO_PORT)]⟩,
  ⟨"TWIN_CNT_TAKEOVER", 0x80, 0x0, 1, fun _ _ => [(.ro, F.TWIN_CNT_TAKEOVER_COUNT)]⟩,
  ⟨"TWIN_CNT_HANDOVER", 0x84, 0x0, 1, fun _ _ => [(.ro, F.TWIN_CNT_HANDOVER_COUNT)]⟩]

def rowsTwin1 : List RegRow := [
  ⟨"TWIN_CNT_DEPOSED", 0x88, 0x0, 1, fun _ _ => [(.ro, F.TWIN_CNT_DEPOSED_COUNT)]⟩,
  ⟨"TWIN_CNT_RETX", 0x8c, 0x0, 1, fun _ _ => [(.ro, F.TWIN_CNT_RETX_COUNT)]⟩,
  ⟨"TWIN_CNT_CRC", 0x90, 0x0, 1, fun _ _ => [(.ro, F.TWIN_CNT_CRC_COUNT)]⟩,
  ⟨"TWIN_CNT_LINKDOWN", 0x94, 0x0, 1, fun _ _ => [(.ro, F.TWIN_CNT_LINKDOWN_COUNT)]⟩,
  ⟨"TWIN_ROLE_DT_LO", 0x98, 0x0, 1, fun _ _ => [(.ro, F.TWIN_ROLE_DT_LO_DT)]⟩,
  ⟨"TWIN_ROLE_DT_HI", 0x9c, 0x0, 1, fun _ _ => [(.ro, F.TWIN_ROLE_DT_HI_DT)]⟩]

def rowsTwin : List RegRow := rowsTwin0 ++ rowsTwin1

def rowsMode : List RegRow := [
  ⟨"MODE_LEVEL", 0x40, 0x0, 1, fun _ _ => [(.ro, F.MODE_LEVEL_VIEW_LOST), (.ro, F.MODE_LEVEL_HALF), (.ro, F.MODE_LEVEL_PREV), (.ro, F.MODE_LEVEL_LEVEL)]⟩,
  ⟨"MODE_CAUSE", 0x44, 0x0, 1, fun _ _ => [(.ro, F.MODE_CAUSE_DETAIL), (.ro, F.MODE_CAUSE_CAUSE)]⟩,
  ⟨"MODE_DT_LO", 0x48, 0x0, 1, fun _ _ => [(.ro, F.MODE_DT_LO_DT)]⟩,
  ⟨"MODE_DT_HI", 0x4c, 0x0, 1, fun _ _ => [(.ro, F.MODE_DT_HI_DT)]⟩,
  ⟨"MODE_CTRL", 0x50, 0x0, 1, fun _ _ => [(.rw, F.MODE_CTRL_HALF_MS)]⟩,
  ⟨"MODE_ROLE_SAVE", 0x54, 0x0, 1, fun _ _ => (List.range 8).map (fun k => (.ro, F.MODE_ROLE_SAVE_ROLE k))⟩,
  ⟨"MODE_CNT_HALF_TRUNC", 0x60, 0x0, 1, fun _ _ => [(.ro, F.MODE_CNT_HALF_TRUNC_COUNT)]⟩,
  ⟨"MODE_CNT_TWI_RESOLVE", 0x64, 0x0, 1, fun _ _ => [(.ro, F.MODE_CNT_TWI_RESOLVE_COUNT)]⟩,
  ⟨"MODE_CNT_ECL_BODIES", 0x68, 0x0, 1, fun _ _ => [(.ro, F.MODE_CNT_ECL_BODIES_COUNT)]⟩,
  ⟨"MODE_CNT_ECL_CANCEL", 0x6c, 0x0, 1, fun _ _ => [(.ro, F.MODE_CNT_ECL_CANCEL_COUNT)]⟩,
  ⟨"MODE_CNT_PRESYNC", 0x70, 0x0, 1, fun _ _ => [(.ro, F.MODE_CNT_PRESYNC_COUNT)]⟩]

def rowsTeth : List RegRow := [
  ⟨"TETH_ADDR", 0x40, 0x0, 1, fun _ _ => [(.ro, F.TETH_ADDR_OVER), (.ro, F.TETH_ADDR_LAST), (.ro, F.TETH_ADDR_ROOT), (.ro, F.TETH_ADDR_ADDR)]⟩,
  ⟨"TETH_STAT", 0x44, 0x0, 1, fun _ _ => [(.ro, F.TETH_STAT_CHAIN), (.ro, F.TETH_STAT_RET_LOCK), (.ro, F.TETH_STAT_FWD_LOCK)]⟩,
  ⟨"TETH_CNT", 0x48, 0x0, 1, fun _ _ => [(.ro, F.TETH_CNT_CRC), (.ro, F.TETH_CNT_OVERRUN)]⟩,
  ⟨"TETH_EVT_MASK", 0x50, 0x4, 5, fun _ n => [(.rw, F.TETH_EVT_MASK_MASK n)]⟩,
  ⟨"TETH_ENUM", 0x80, 0x0, 1, fun _ _ => [(.ro, F.TETH_ENUM_OVER), (.ro, F.TETH_ENUM_DONE), (.ro, F.TETH_ENUM_COUNT), (.rw, F.TETH_ENUM_CLEAR), (.w1s, F.TETH_ENUM_GO)]⟩,
  ⟨"TETH_BR_CTRL", 0x84, 0x0, 1, fun _ _ => [(.w1s, F.TETH_BR_CTRL_GO), (.rw, F.TETH_BR_CTRL_WRITE), (.rw, F.TETH_BR_CTRL_DST)]⟩,
  ⟨"TETH_BR_ADDR", 0x88, 0x0, 1, fun _ _ => [(.rw, F.TETH_BR_ADDR_OFFSET)]⟩,
  ⟨"TETH_BR_DATA", 0x8c, 0x0, 1, fun _ _ => [(.rw, F.TETH_BR_DATA_DATA)]⟩,
  ⟨"TETH_BR_STAT", 0x90, 0x0, 1, fun _ _ => [(.ro, F.TETH_BR_STAT_RESULT), (.ro, F.TETH_BR_STAT_BUSY)]⟩,
  ⟨"TETH_BULK_SRC_LO", 0x94, 0x0, 1, fun _ _ => [(.rw, F.TETH_BULK_SRC_LO_SRC_LO)]⟩,
  ⟨"TETH_BULK_SRC_HI", 0x98, 0x0, 1, fun _ _ => [(.rw, F.TETH_BULK_SRC_HI_SRC_HI)]⟩,
  ⟨"TETH_BULK_LEN", 0x9c, 0x0, 1, fun _ _ => [(.rw, F.TETH_BULK_LEN_LEN)]⟩,
  ⟨"TETH_BULK_CTRL", 0xa0, 0x0, 1, fun _ _ => [(.w1s, F.TETH_BULK_CTRL_GO), (.rw, F.TETH_BULK_CTRL_DST)]⟩,
  ⟨"TETH_BULK_FIRST", 0xa4, 0x0, 1, fun _ _ => [(.rw, F.TETH_BULK_FIRST_FIRST)]⟩,
  ⟨"TETH_EVT_FIFO", 0xa8, 0x0, 1, fun _ _ => [(.ro, F.TETH_EVT_FIFO_VALID), (.ro, F.TETH_EVT_FIFO_SRC), (.ro, F.TETH_EVT_FIFO_PAGE), (.ro, F.TETH_EVT_FIFO_IRQ)]⟩,
  ⟨"TETH_BOOT_STAT", 0xb0, 0x0, 1, fun _ _ => [(.ro, F.TETH_BOOT_STAT_MISS)]⟩]

def rowsSec : List RegRow := [
  ⟨"SEC_LIFE", 0x40, 0x0, 1, fun _ _ => [(.ro, F.SEC_LIFE_PROG_REVOKED), (.ro, F.SEC_LIFE_PROG_FUSED), (.ro, F.SEC_LIFE_FW_REVOKED), (.ro, F.SEC_LIFE_FW_FUSED), (.ro, F.SEC_LIFE_LIFECYCLE)]⟩,
  ⟨"SEC_SERIAL_LO", 0x44, 0x0, 1, fun _ _ => [(.ro, F.SEC_SERIAL_LO_SERIAL)]⟩,
  ⟨"SEC_SERIAL_HI", 0x48, 0x0, 1, fun _ _ => [(.ro, F.SEC_SERIAL_HI_SERIAL)]⟩,
  ⟨"SEC_SVN", 0x4c, 0x0, 1, fun _ _ => [(.w1s, F.SEC_SVN_COMMIT), (.ro, F.SEC_SVN_RUNNING), (.ro, F.SEC_SVN_FLOOR)]⟩,
  ⟨"SEC_FW_VER", 0x50, 0x0, 1, fun _ _ => [(.ro, F.SEC_FW_VER_VERSION)]⟩,
  ⟨"SEC_BOOT_STAT", 0x54, 0x0, 1, fun _ _ => [(.ro, F.SEC_BOOT_STAT_WAITING), (.ro, F.SEC_BOOT_STAT_TRIAL), (.ro, F.SEC_BOOT_STAT_ATTEMPTS), (.ro, F.SEC_BOOT_STAT_CAUSE), (.ro, F.SEC_BOOT_STAT_SLOT)]⟩,
  ⟨"SEC_BOOT_CTRL", 0x58, 0x0, 1, fun _ _ => [(.w1s, F.SEC_BOOT_CTRL_GO), (.rw, F.SEC_BOOT_CTRL_NEXT_SRC), (.rw, F.SEC_BOOT_CTRL_LEN)]⟩,
  ⟨"SEC_FW_STAT", 0x5c, 0x0, 1, fun _ _ => [(.ro, F.SEC_FW_STAT_STAGED_SVN), (.ro, F.SEC_FW_STAT_CONFIRMED), (.ro, F.SEC_FW_STAT_STAGE)]⟩,
  ⟨"SEC_PROG", 0x60, 0x0, 1, fun _ _ => [(.rw, F.SEC_PROG_PROG_KEY)]⟩,
  ⟨"SEC_ID_PUB", 0x80, 0x4, 8, fun _ n => [(.ro, F.SEC_ID_PUB_PUB n)]⟩,
  ⟨"SEC_KEY_DATA", 0xa0, 0x4, 8, fun _ n => [(.rw, F.SEC_KEY_DATA_DATA n)]⟩,
  ⟨"SEC_KEY_PROG", 0xc0, 0x0, 1, fun _ _ => [(.wo, F.SEC_KEY_PROG_KEY), (.ro, F.SEC_KEY_PROG_BUSY), (.rw, F.SEC_KEY_PROG_REVOKE), (.rw, F.SEC_KEY_PROG_PROG), (.rw, F.SEC_KEY_PROG_SLOT)]⟩,
  ⟨"SEC_REPORT", 0x100, 0x4, 64, fun _ n => [(.ro, F.SEC_REPORT_REPORT n)]⟩]
/-- The common header of page `p` (R59; Tables regs-3 to regs-12). BLK_ID, BLK_REV and BLK_FEAT are constants: see `Dev.regRead`. -/
def rowsHeader : List RegRow := [
  ⟨"BLK_CTRL", 0x0C, 0, 1, fun p _ => [(.rw, F.BLK_CTRL_OFFLINE_REQ p), (.rw, F.BLK_CTRL_TEST p), (.rw, F.BLK_CTRL_FREEZE p), (.rw, F.BLK_CTRL_SOFT_RESET p), (.rw, F.BLK_CTRL_ENABLE p)]⟩,
  ⟨"BLK_STAT", 0x10, 0, 1, fun p _ => [(.ro, F.BLK_STAT_STATE p), (.ro, F.BLK_STAT_TEST p), (.ro, F.BLK_STAT_FAULT p), (.ro, F.BLK_STAT_STALE p), (.ro, F.BLK_STAT_OFFLINE p), (.ro, F.BLK_STAT_BUSY p), (.ro, F.BLK_STAT_ENABLED p)]⟩,
  ⟨"BLK_IRQ_RAW", 0x14, 0, 1, fun p _ => [(.ro, F.BLK_IRQ_RAW p)]⟩,
  ⟨"BLK_IRQ_EN", 0x18, 0, 1, fun p _ => [(.rw, F.BLK_IRQ_EN p)]⟩,
  ⟨"BLK_IRQ_STAT", 0x1C, 0, 1, fun p _ => [(.w1c, F.BLK_IRQ_STAT p)]⟩,
  ⟨"BLK_ERR_CODE", 0x20, 0, 1, fun p _ => [(.ro, F.BLK_ERR_CODE_SEQ p), (.rc, F.BLK_ERR_CODE_OVERRUN p), (.rc, F.BLK_ERR_CODE_CODE p)]⟩,
  ⟨"BLK_ERR_INFO", 0x24, 0, 1, fun p _ => [(.ro, F.BLK_ERR_INFO_DETAIL p), (.ro, F.BLK_ERR_INFO_STATE p), (.ro, F.BLK_ERR_INFO_SEQ p), (.ro, F.BLK_ERR_INFO_ORIGIN p), (.ro, F.BLK_ERR_INFO_WORD p)]⟩,
  ⟨"BLK_EVT_CNT", 0x28, 0, 1, fun p _ => [(.ro, F.BLK_EVT_CNT_COUNT p)]⟩,
  ⟨"BLK_PARITY", 0x2C, 0, 1, fun p _ => [(.w1c, F.BLK_PARITY_SRAM_UE p), (.w1c, F.BLK_PARITY_SRAM_CE p), (.w1c, F.BLK_PARITY_DATA_PATH p), (.w1c, F.BLK_PARITY_BUS_RD p), (.w1c, F.BLK_PARITY_BUS_WR p)]⟩,
  ⟨"BLK_LOCK", 0x30, 0, 1, fun p _ => [(.wo, F.BLK_LOCK_KEY p), (.ro, F.BLK_LOCK_VESPER_LOCK p), (.rw, F.BLK_LOCK_LOCK p)]⟩,
  ⟨"BLK_SCRATCH", 0x34, 0, 1, fun p _ => [(.rw, F.BLK_SCRATCH_SCRATCH p)]⟩]

/-- The block registers of page `page` and the instance number of that page (Table regs-1); none on a page the device does not implement (R54). -/
def pageRows (page : Nat) : Option (List RegRow × Nat) :=
  if page = 0x00 then some (rowsDev, 0) else if page = 0x01 then some (rowsCmd, 0)
  else if page = 0x02 then some (rowsIrq, 0) else if page = 0x03 then some (rowsIsl, 0)
  else if page = 0x04 then some (rowsTime, 0) else if page = 0x05 then some (rowsNet, 0)
  else if page = 0x06 then some (rowsHost, 0) else if page = 0x07 then some (rowsTeth, 0)
  else if page = 0x08 then some (rowsSec, 0) else if page = 0x09 then some (rowsNvm, 0)
  else if page = 0x0A then some (rowsChk, 0) else if page = 0x0B then some (rowsObs, 0)
  else if page = 0x0C then some (rowsPack, 0) else if page = 0x0D then some (rowsSig, 0)
  else if page = 0x0E then some (rowsTrim, 0) else if page = 0x0F then some (rowsMot, 0)
  else if page < 0x20 then some (rowsCxp, page - 0x10)
  else if page < 0x2D then some (rowsLng, page - 0x20)
  else if page < 0x30 then none
  else if page = 0x30 then some (rowsCor, 0) else if page = 0x31 then some (rowsNr, 0)
  else if page = 0x32 then some (rowsFoc, 0) else if page = 0x33 then some (rowsGeo, 0)
  else if page = 0x34 then some (rowsSti, 0) else if page = 0x35 then some (rowsSpec, 0)
  else if page = 0x36 then some (rowsSeg, 0) else if page = 0x37 then some (rowsBody, 0)
  else if page = 0x38 then some (rowsTraj, 0) else if page = 0x39 then some (rowsDisp, 0)
  else if page < 0x40 then none
  else if page < 0x80 then some (rowsEng, page - 0x40)
  else if page = 0x80 then some (rowsPlan, 0)
  else if page < 0x89 then some (rowsMet, page - 0x81)
  else if page = 0x90 then some (rowsTwin, 0) else if page = 0x91 then some (rowsMode, 0)
  else none

/-- Whether the device implements a page (Table regs-1). -/
def pageImplemented (page : Nat) : Bool := (pageRows page).isSome

/-- The index of the register of `r` that stands at `off`, if one does. -/
def RegRow.index (r : RegRow) (off : Nat) : Option Nat :=
  if off < r.base then none
  else if r.stride = 0 then (if off = r.base then some 0 else none)
  else if (off - r.base) % r.stride = 0 ∧ (off - r.base) / r.stride < r.count then some ((off - r.base) / r.stride)
  else none

/-- The fields of the register at `off`, from a page's rows. -/
def rowsAt : List RegRow → Nat → Nat → List (Access × Fld)
  | [], _, _ => []
  | r :: rs, inst, off =>
    match r.index off with
    | some n => r.fields inst n
    | none => rowsAt rs inst off

/-- The fields of the register at offset `off` of page `page`; no field where the offset or the page holds none. -/
def regFields (page off : Nat) : List (Access × Fld) :=
  if off < 0x40 then (if pageImplemented page then rowsAt rowsHeader page off else [])
  else match pageRows page with
    | some (rows, inst) => rowsAt rows inst off
    | none => []

end Sys2Proof.Machine
end

