-- ==== Sys2Proof/Machine/Sparse.lean ====
section
/-! DEFINITION. Sparse data: a list of keys and values, keys strictly rising, that lists no value equal to what an unlisted key reads as.
Memories, the register store and the tables of numbered units of the block are held so. -/

namespace Sys2Proof.Machine.Sparse

variable {α : Type}

/-- The value listed at key `k`. -/
def find? : List (Nat × α) → Nat → Option α
  | [], _ => none
  | (k', v) :: m, k => if k' = k then some v else find? m k

/-- The value at key `k`, `dflt` where none is listed. -/
def get (m : List (Nat × α)) (dflt : α) (k : Nat) : α := (find? m k).getD dflt

/-- The list without any entry at `k`. -/
def erase (m : List (Nat × α)) (k : Nat) : List (Nat × α) := m.filter (fun e => e.1 ≠ k)

/-- `v` at `k`, before the first greater key. -/
def insert : List (Nat × α) → Nat → α → List (Nat × α)
  | [], k, v => [(k, v)]
  | (k', v') :: m, k, v => if k < k' then (k, v) :: (k', v') :: m else (k', v') :: insert m k v

/-- `v` at `k`; a value equal to `dflt` is not listed. -/
def set [DecidableEq α] (m : List (Nat × α)) (dflt : α) (k : Nat) (v : α) : List (Nat × α) :=
  if v = dflt then erase m k else insert (erase m k) k v

/-- Keys strictly rising. -/
def sorted : List (Nat × α) → Bool
  | [] => true
  | [_] => true
  | (k, _) :: (k', v') :: m => decide (k < k') && sorted ((k', v') :: m)

/-- The canonical form over one default value: keys strictly rising, no listed default. -/
def wf [DecidableEq α] (dflt : α) (m : List (Nat × α)) : Bool :=
  sorted m && m.all (fun e => decide (e.2 ≠ dflt))

/-- The same data in canonical form: each key once, with the value it reads as. -/
def canon [DecidableEq α] (dflt : α) (m : List (Nat × α)) : List (Nat × α) :=
  if wf dflt m then m else m.foldr (fun e acc => set acc dflt e.1 e.2) []

/-- The same data with its keys strictly rising, each with the value it reads as. -/
def tidy (m : List (Nat × α)) : List (Nat × α) :=
  if sorted m then m else m.foldr (fun e acc => insert (erase acc e.1) e.1 e.2) []

end Sys2Proof.Machine.Sparse
end

