-- ==== Sys2Proof/Machine/State.lean ====
section
/-! DEFINITION. The state of the block as plain data (INVENTORY.md, State): the register store, the memories, and for each part of the device
what it holds beside its registers. Tables of numbered units are sparse lists; a unit that none lists stands as its `{}` says.
Every field's value at reset is the default written here; a register field's is in Machine/Fields.lean. -/

namespace Sys2Proof.Machine

/-! ### Pins and outputs -/

/-- What a ball shows. -/
inductive Level where
  | low | high | z | idle | run
  deriving DecidableEq, Repr

/-- The output balls whose level the block holds (Tables pkg-4 and pkg-13). Camera power enables and trim outputs stand in their
registers (CXP_PWR.EN_LEVEL, TRIM_CODEn.NOW). -/
inductive Pin where
  | metTx (n : Nat) | trigOut (n : Nat) | ppsOut | motRep (n : Nat) | sigMclk (n : Nat) | divert (n : Nat)
  | rly (r c : Nat) | pcieTx | merTx (m : Nat) | ethTx (e : Nat) | ethTxDis (e : Nat) | tethOut
  | rstOutN | faultN | thermTripN | motSclk (n : Nat) | smbAlertN | cxpUp (p c : Nat)
  deriving DecidableEq, Repr

/-- The LVCMOS input balls that have a pull-down (Table pkg-4, R29). -/
inductive InPin where
  | cxpPwrFltN (p : Nat) | dbgUartRx | trigIn (i : Nat) | ppsIn | porstN | warmRstN | pciePerstN
  | motA (n : Nat) | motB (n : Nat) | motZ (n : Nat) | sigDat (n : Nat) | ethModAbs (e : Nat) | ethLos (e : Nat)
  | bootSrc (i : Nat) | tethRoot | twinSide | qspiIo (i : Nat)
  deriving DecidableEq, Repr

/-- What the block sends to the world: the model's own record of it (log entry 5, DESIGN CHOICE). -/
inductive Emission where
  /-- An MSI-X message of a vector (R80). -/
  | msix (vector : Nat)
  /-- A downlink packet of port `port`, sent on bit for bit through RLY outputs: the elements and the CRC as received (R18, R109). -/
  | relay (port sid : Nat) (items : List PktItem) (crcOk : Bool)
  /-- A camera trigger packet: port, trigger index, instant in 2^-16 ns, fine delay field used (R96). -/
  | trigPacket (port index stamp : Nat) (fine : Bool)
  /-- A pulse on a ball, `width` ns long. -/
  | pulse (pin : Pin) (width : Nat)
  /-- A frame slot on a Meteor port: its nineteen ten-bit characters, the bit sent first the most significant (R333). -/
  | metFrame (port : Nat) (chars : List Nat)
  /-- A PTP message of Vesper's own on an Ethernet port: its messageType (R419, R421, R422). -/
  | ptpSent (port type : Nat)
  /-- A frame slot that a module sends upstream on one of its links (0 or 1), or repeats downstream: its characters (R331, R333). -/
  | modFrame (port module link : Nat) (chars : List Nat)
  | modDown (port module link : Nat) (chars : List Nat)
  /-- A Meridian record: its words (R509), and the words that go out on each carrying lane, in lane order (R507). -/
  | meridian (words : List Nat) (stripes : List (Nat × List Nat))
  /-- A Tether frame slot forwards, or on the return path: its characters (R533, R534). -/
  | tethFwd (chars : List Nat)
  | tethRet (chars : List Nat)
  /-- The bytes an SMBus read is answered with; none for a NACK (R31). -/
  | smbus (answer : Option (List Nat))
  /-- A read answered with this data. -/
  | readData (addr data : Nat)
  /-- An Ethernet frame that leaves a port. -/
  | ethFrame (port : Nat) (bytes : List Nat)
  /-- The same with an FCS that is deliberately invalid (R419). -/
  | ethFrameBad (port : Nat) (bytes : List Nat)
  /-- A control-channel transaction to a camera (R118). -/
  | ccRequest (port addr : Nat) (write : Bool) (bytes : List Nat)
  /-- Connection set-up written to a camera: rate code and connection count minus 1 (R84). -/
  | cxpSetup (port rate conn : Nat)
  /-- A Meridian training block: answer to a tap request (R129). -/
  | merTrain (lane : Nat) (answer : List Nat)
  /-- A request of a Meridian receiver for its partner's PRE, MAIN and POST: 0 hold, 1 increment, 2 decrement (R129). -/
  | merRequest (lane : Nat) (taps : List Nat)
  /-- Bits that a transmitter sends in test: that of lane 0 to 103 (R131), that of Meteor port n as 104 + n (R354). -/
  | prbs (lane : Nat) (bits : List Bool)
  /-- The answer of the test access port: the bits shifted out (R554). -/
  | tapData (bits : List Nat)
  /-- One line of console text per image check (R31). -/
  | uart (code result : Nat)
  /-- A PTM request to the host (R428). -/
  | ptmRequest
  /-- A configuration request completed with Request Retry Status (R48). -/
  | requestRetry
  /-- An Announce message of the grandmaster on an Ethernet port: PROFILE, PRIORITY1, CLASS, PRIORITY2, DOMAIN (R417). -/
  | announce (port profile priority1 cls priority2 domain : Nat)
  deriving DecidableEq, Repr

/-! ### Time base (R402–R406) -/

/-- The free-running counter C and what DT is formed from; BASE and RATE carry 32 fraction bits. -/
structure TimeBase where
  c        : Nat := 0
  cB       : Nat := 0
  base     : Nat := 0
  /-- RATE in 32.32 form, without the slew. -/
  rate     : Nat := 2 ^ 32
  /-- The part of a slew not yet absorbed at cB, in 2^-32 ns, signed (R405). -/
  slewLeft : Int := 0
  /-- All that slews absorbed before cB, in 2^-32 ns. -/
  slewSum  : Int := 0
  deriving DecidableEq, Repr

/-! ### Power, clocks and pins (Package, power, clocks and reset) -/

/-- Inputs and conditions of the power and reset logic. -/
structure Power where
  /-- PORST_N is held low. -/
  porstLow   : Bool := false
  /-- A thermal trip holds the reset until Tj ≤ 100 °C (R44); `tripCool` once it has fallen. -/
  tripHold   : Bool := false
  tripCool   : Bool := false
  /-- Start-up runs (Table pkg-14) since counter value `bootAt`. -/
  starting   : Bool := true
  bootAt     : Nat := 0
  /-- The start-up in progress follows a warm-class reset. -/
  warmStart  : Bool := false
  /-- PCIE_PERST_N is low (R45); it is so at power-on (log entry 88, DESIGN CHOICE). -/
  hostHeld   : Bool := true
  /-- PCIe link training has begun; the link that training arrives at; the counter value from which configuration requests are no longer answered
  with Request Retry Status (R48). -/
  pcieTrain  : Bool := false
  linkSpeed  : Nat := 0
  linkWidth  : Nat := 0
  configAt   : Nat := 0
  /-- The 32 on-die sensors, signed °C (R49). -/
  sensors    : List Int := []
  /-- Throttle entries counted (R50). -/
  throttles  : Nat := 0
  deriving DecidableEq, Repr

/-! ### Command mailbox (R77–R79) -/

/-- The latched copy of a submitted command, with the counter value of its submission. -/
structure Latch where
  code  : Nat
  tag   : Nat
  flags : Nat
  args  : List Nat
  t0    : Nat
  deriving DecidableEq, Repr

/-! ### Report queues (Host interface and report queues) -/

/-- One staged record: its bytes as they will stand in host memory. -/
structure Rec where
  seq   : Nat
  bytes : List Nat
  deriving DecidableEq, Repr

/-- A run of lost SEQs with one cause (R443). -/
structure LostRun where
  first : Nat
  last  : Nat
  cause : Nat
  deriving DecidableEq, Repr

/-- A bank of a report queue (R437): bytes used, records in it, first and last header SEQ, the counter value at its first record, and the SEQs that are
lost with it in a fault: those of its records with cause 2, those that its GAP records name with theirs (R440, R443). -/
structure Bank where
  used     : Nat := 0x40
  runs     : List LostRun := []
  records  : Nat := 0
  firstSeq : Nat := 0
  lastSeq  : Nat := 0
  firstAt  : Nat := 0
  deriving DecidableEq, Repr

/-- What a report queue holds beside its registers. -/
structure Queue where
  staging  : List Rec := []
  lost     : List LostRun := []
  bankA    : Bank := {}
  bankB    : Bank := {}
  seals    : Nat := 0
  /-- PI has advanced since RING_DATA was last set, and when it was set (R442). -/
  ringNew  : Bool := false
  ringAt   : Nat := 0
  /-- The cause of a seal that waits until the device may issue requests (R433, R438). -/
  sealWait : Option Nat := none
  /-- A bank has faulted since the last RESTORE: the queue writes its ring (R440, R442). -/
  ring     : Bool := false
  deriving DecidableEq, Repr

/-! ### Meridian records and the twin (R504–R523) -/

/-- What follows the answer to an OFFER (R518, R519, R524, Table regs-20): the TOKEN command, nothing, the CANCEL of an ECLIPSE, SERVICE_ENTER. -/
inductive AfterOffer where
  | command | auto | eclipse | service
  deriving DecidableEq, Repr

/-- A DIGEST received whose own value is still to come (R517): port, index, ROW_DIG, VERD_DIG, arrival. -/
structure DigestIn where
  port  : Nat
  index : Nat
  row   : Nat
  verd  : Nat
  at_   : Nat
  deriving DecidableEq, Repr

/-- Sending and receiving of Meridian records: the next SEQ to send, records not yet acknowledged, the next SEQ to be received in order, the ACK
last received and the instant it last advanced, the last HEARTBEAT sent and received. The partner's EPOCH, ROLE, HELD and SYNCED as last heard;
since when the role waits for a partner (R505); an OFFER under way. Digests that wait, runs of mismatched rows by group, FIRST taken since CLR.
By group, the arrival of the last SLOT record; by group and index, of trigger records (R108); a TRIG record has come since the partner was first
heard. A join: its boundary, MIRROR records counted, bytes mirrored, records of memories that the model does not name; groups that have
started again at the boundary. Groups are lost under the first event of R520 when they stand in `remoteLost`. The two devices have parted: DIG_LIMIT
rows of one group mismatched since the role was taken or a join ended (R517). -/
structure Meridian where
  txSeq     : Nat := 0
  unacked   : List (Nat × List Nat) := []
  rxNext    : Nat := 0
  ackSeen   : Nat := 0
  ackAt     : Nat := 0
  hbAt      : Nat := 0
  hbRx      : Option Nat := none
  pEpoch    : Nat := 0
  pRole     : Nat := 0
  pHeld     : Bool := false
  pSynced   : Bool := false
  waiting   : Option Nat := none
  offer     : Option (Nat × AfterOffer) := none
  digIn     : List DigestIn := []
  misRun    : List (Nat × Nat) := []
  digFirst  : Bool := false
  slotAt    : List (Nat × Nat) := []
  trigIn    : List (Nat × Nat × Nat) := []
  trigHeard : Bool := false
  joinAt    : Nat := 0
  mirrored  : Nat := 0
  bytes     : Nat := 0
  mirror    : List (Nat × Nat × List Nat) := []
  back      : List Nat := []
  remoteLost : List Nat := []
  parted    : Bool := false
  deriving DecidableEq, Repr

/-! ### Camera ports and line triggering -/

/-- Where the line of one stream for one trigger stands (Table cam-4). -/
inductive LineSt where
  | unmatched | missing | filling | complete | short | crcBad | late | forced
  deriving DecidableEq, Repr

/-- One stream's place in a trigger record: the samples received so far, and the line's sequence number since the port started. -/
structure StreamSlot where
  sid  : Nat
  st   : LineSt
  line : List Nat
  seq  : Nat
  deriving DecidableEq, Repr

/-- A trigger record in a port's FIFO: index and full DT stamp in 2^-16 ns (R83). -/
structure TrigEntry where
  index : Nat
  stamp : Nat
  slots : List StreamSlot
  deriving DecidableEq, Repr

/-- Where the line being received on a stream goes; `done`: its line is complete, what follows is excess. -/
inductive LineDest where
  | slot (index : Nat) | drop | held | done
  deriving DecidableEq, Repr

/-- The receiver of one image stream: whether the camera marks its lines, the destination of the line in progress and its samples so far. -/
structure RxStream where
  sid    : Nat
  marks  : Bool := false
  busy   : Bool := false
  dest   : LineDest := .drop
  got    : List Nat := []
  bad    : Bool := false
  isLong : Bool := false
  seq    : Nat := 0
  deriving DecidableEq, Repr

/-- A line of a relayed port held for its ledger record (R106). -/
structure HeldLine where
  sid  : Nat
  seq  : Nat
  line : List Nat
  full : Bool
  bad  : Bool
  deriving DecidableEq, Repr

/-- A ledger record received: stream, line sequence, trigger index, disposition. -/
structure LedgerRec where
  sid   : Nat
  seq   : Nat
  index : Nat
  disp  : Nat
  deriving DecidableEq, Repr

/-- What a camera port holds beside its registers. Instants are values of the counter C. -/
structure Port where
  fifo      : List TrigEntry := []
  rx        : List RxStream := []
  /-- The previous line of each stream, or previous synthetic line (R100). -/
  prev      : List (Nat × List Nat) := []
  /-- The entries of the FIFO from before the last enable or restart: `prev` is theirs until they have left (R100). -/
  old       : Nat := 0
  held      : List HeldLine := []
  ledger    : List LedgerRec := []
  /-- SLOT records received: trigger index, whether this port is synthetic (R106). -/
  slotRecs  : List (Nat × Bool) := []
  /-- Entry into the present state, or the first loss of lock. -/
  since     : Nat := 0
  lockSince : Nat := 0
  /-- Control-channel transaction: start. -/
  ccAt      : Nat := 0
  /-- PORT_RESTART: ends with the command (R113). -/
  restartAt : Option Nat := none
  /-- HALF_MS timer of the view loss (R520): since when the port has been down. -/
  downAt    : Option Nat := none
  deriving DecidableEq, Repr

/-- A trigger generator: next instants due, last trigger, targets in 1/65,536 count. -/
structure Gen where
  due       : List Nat := []
  postponed : Bool := false
  /-- The step as the last write of TGEN_STEP took it, in 1/65,536 ns or count (R95). -/
  step      : Nat := 0
  /-- In time mode, the instant before the last one of `due`; none while that is the first of the run (R90, R95). -/
  prev      : Option Nat := none
  /-- In time mode with a trigger postponed, the instant before its own (R93, R95). -/
  before    : Option Nat := none
  last      : Option Nat := none
  nextIndex : Nat := 0
  /-- The next encoder target (R91). -/
  target    : Int := 0
  stopAt    : Bool := false
  deriving DecidableEq, Repr

/-- The samples of one port in a released row slot: per band the line, and whether it is synthetic. -/
structure PortLine where
  port  : Nat
  bands : List (List Nat)
  synth : List Bool
  deriving DecidableEq, Repr

/-- A row slot on its way through the pipeline. `stamp` is its identity (R11). -/
structure RowSlot where
  group  : Nat
  index  : Nat
  stamp  : Nat
  lines  : List PortLine
  synth  : Bool
  parity : Bool
  /-- COR_BG_FLOOR.N_FLOOR as the correction island found it (R166). -/
  floor  : Nat := 16
  deriving DecidableEq, Repr

/-! ### Serial lanes -/

/-- What a lane holds beside its registers. Instants are values of the counter C. -/
structure Lane where
  /-- ASTATE without the holds (R127): 0, 1, 2, 3 or 4. -/
  base      : Nat := 0
  hold      : Bool := false
  scan      : Bool := false
  since     : Nat := 0
  lastQual  : Nat := 0
  longDone  : Bool := false
  /-- Four times the step limits: nanoseconds spent in TRACK since (R126); since when ASTATE has shown TRACK. -/
  boost     : Option Nat := none
  trackAt   : Nat := 0
  /-- Qualifying windows of the adaptation in progress (R123); it follows a link-up. -/
  wins      : Nat := 0
  fresh     : Bool := false
  /-- CTLE and taps at the last link-up (R128), and the qualifying windows since their last steps in TRACK, where there was one (R124, R125). -/
  upCtle    : Nat := 8
  upDfe     : List Int := [0, 0, 0]
  ctleWins  : Option Nat := none
  dfeWins   : List (Option Nat) := [none, none, none]
  lowCnt    : Nat := 0
  readaptAt : Option Nat := none
  /-- LANE_ADAPT in progress: values before the command, a window has qualified. -/
  saved     : Option (Nat × List Int) := none
  /-- A re-adaptation from margin keeps the equaliser about the values of the last link-up (R128). -/
  readapt   : Bool := false
  qualified : Bool := false
  /-- Transmitter training in progress since; all taps at hold since (R129). -/
  trainAt   : Option Nat := none
  holdAt    : Option Nat := none
  trainFail : Bool := false
  /-- The own receiver has requested hold on all taps since. -/
  ownHold   : Option Nat := none
  /-- PRBS generator and checker: the last bits sent and the last bits of the pattern received, newest first (R131). -/
  gen       : List Bool := []
  hist      : List Bool := []
  /-- PRBS checker: error-free run, bits below a unit of 65,536, an error since CLR, the latched LANE_PRBS_BITS (R132). -/
  prbsRun   : Nat := 0
  prbsRem   : Nat := 0
  prbsErred : Bool := false
  bitsLatch : Option Nat := none
  /-- The values last written to LANE_EQ, CTLE and the three taps: what EQ_MANUAL holds the equaliser at. -/
  manEq     : Option (Nat × List Int) := none
  deriving DecidableEq, Repr

/-! ### Table swaps (R162–R164) -/

/-- A pending swap: the DT of a timed one, as extended when it was requested (R407); whether it was already late then, and the items (group, index)
released before the request and not yet passed (R164). -/
structure SwapSt where
  timed  : Option Nat := none
  late   : Bool := false
  before : List (Nat × Nat) := []
  /-- The latest DT that has passed the boundary, plus 1; 0 when none has. -/
  passed : Nat := 0
  deriving DecidableEq, Repr

/-! ### Correction and sky -/

/-- Sums of one background zone (R160). -/
structure ZoneSum where
  res : Int := 0
  abs : Nat := 0
  n   : Nat := 0
  deriving DecidableEq, Repr

/-- The column mapping of one port in force for a row (R170, R174). -/
structure PortMap where
  port   : Nat
  xFirst : Nat
  xLast  : Nat
  c0     : Int
  c1     : Int
  c2     : Int
  c3     : Int
  ofs    : Int
  /-- The port's row is synthetic (R177). -/
  synth  : Bool := false
  deriving DecidableEq, Repr

/-- The foreground decision of a row before the opening, with the mappings in force (R146, R147). -/
structure FgRow where
  index : Nat
  fg    : List Bool
  maps  : List PortMap
  deriving DecidableEq, Repr

/-- A corrected line of a port kept for the row delays (R172). -/
structure HistLine where
  bands  : List (List Nat)
  /-- Per band, whether the line is synthetic in part or whole (R100). -/
  synth  : List Bool
  parity : Bool
  deriving DecidableEq, Repr

/-- Sums of one seam, named by its right port (R179). -/
structure SeamSum where
  sdg : Int := 0
  sgg : Nat := 0
  n   : Nat := 0
  /-- Consecutive implausible estimates (R180). -/
  bad : Nat := 0
  deriving DecidableEq, Repr

/-- Steps of one interval, to be applied at a trigger index (R181). -/
structure ArStep where
  group : Nat
  index : Nat
  steps : List (Nat × Int)
  deriving DecidableEq, Repr

/-- A driver write to STI_OFSp that waits for its row (R183). -/
structure OfsWrite where
  port  : Nat
  value : Nat
  index : Option Nat
  deriving DecidableEq, Repr

/-- A stitched row: per band the samples of every sky column, the columns that no port covers, the class bytes; `hard`: BLEND_HARD as its blend took
it (R177, R192). -/
structure SkyRow where
  group   : Nat
  index   : Nat
  stamp   : Nat
  synth   : Bool
  parity  : Bool
  bands   : List (List Nat)
  noCover : List Bool
  classes : List Nat
  maps    : List PortMap
  hard    : Bool
  floor   : Nat := 16
  deriving DecidableEq, Repr

/-- Row-bound duties that have fallen due for a group (ageing, zone interval, auto-registration interval with its closing index). -/
inductive Due where
  | bgAge (g : Nat) | arClose (g index : Nat)
  deriving DecidableEq, Repr

/-! ### Bodies (R196–R219) -/

/-- What a run of the previous row belongs to: an open body, an untracked component, a body split by rows (R201, R205). -/
inductive RunOf where
  | body (id : Nat) | untracked | split (id : Nat)
  deriving DecidableEq, Repr

/-- An open body: its working sums (R206, R207) and its crop. Instants are trigger stamps in 2^-16 ns. -/
structure Body where
  id        : Nat
  group     : Nat
  firstIdx  : Nat
  x0        : Nat
  firstT    : Nat
  lastIdx   : Nat
  lastT     : Nat
  xMin      : Nat
  xMax      : Nat
  area      : Nat := 0
  sx        : Nat := 0
  sy        : Nat := 0
  sxx       : Nat := 0
  syy       : Nat := 0
  sxy       : Nat := 0
  bsum      : List Nat := [0, 0, 0, 0]
  hist      : List Nat := List.replicate 16 0
  synthRows : Nat := 0
  merges    : Nat := 0
  tagOr     : Nat := 0
  nocover   : Bool := false
  splitW    : Bool := false
  cont      : Bool := false
  splitRows : Bool := false
  truncStop : Bool := false
  partialC  : Bool := false
  parity    : Bool := false
  crop      : Option Nat := none
  cx0       : Nat := 0
  deriving DecidableEq, Repr

/-- The SEG settings in force for a row, taken when it reaches segmentation (R218). -/
structure SegCfg where
  openEn    : Bool := true
  widthMax  : Nat := 1024
  heightMax : Nat := 4096
  areaMin   : Nat := 0
  synthMax  : Nat := 4
  rejR      : Bool := false
  rejL      : Bool := false
  deriving DecidableEq, Repr

/-- A group's labeller: open bodies, the runs of the last labelled row, the row that waits for its successor with its foreground, the foreground
of the row before it, trigger stamps of kept rows (newest first), the last row labelled, whether expiries are still to be judged for it. -/
structure SegGroup where
  openB   : List Body := []
  runs    : List (Nat × Nat × RunOf) := []
  runsIdx : Option Nat := none
  pend    : Option (SkyRow × List Bool × SegCfg) := none
  prevFg  : Option (Nat × List Bool) := none
  rows    : List (Nat × Nat) := []
  last    : Option (Nat × Nat) := none
  /-- The settings of the row last labelled, which a close at that row takes too (R218). -/
  lastCfg : Option SegCfg := none
  expDue  : Bool := false
  deriving DecidableEq, Repr

/-- A queue of free numbers: those from `fresh` up to the limit, then the returned ones in order (R202, R204). -/
structure FreeQ where
  fresh : Nat := 0
  back  : List Nat := []
  deriving DecidableEq, Repr

/-- Words 1 and 2 of a verdict (Table eng-5). -/
structure Verdict where
  w1   : Nat
  hint : Nat
  deriving DecidableEq, Repr

/-- Where a committed body stands in dispatch. -/
inductive Place where
  | queued | fetched (e : Nat) | resolved
  deriving DecidableEq, Repr

/-- An upper sighting's entry in the store (R225–R230). -/
inductive Entry where
  | none | stored | claimed | orphan
  deriving DecidableEq, Repr

/-- A committed body until its retirement. `retire` is T_EJ + RETAIN; `tEj` and `deadline` are ST40 values. -/
structure CBody where
  id       : Nat
  group    : Nat
  slot     : Nat
  seq      : Nat
  tEj      : Nat
  deadline : Nat
  retire   : Nat
  place    : Place := .queued
  verdict  : Option Verdict := none
  entry    : Entry := .none
  partner  : Nat := 0
  planned  : Bool := false
  /-- Pulses queued or joined, lowest valve, earliest F (Table host-7). -/
  pulses   : Nat := 0
  crop     : Option Nat := none
  /-- The group's settings at the commit: RUN_LIMIT, MIN_RUN, DEFAULT, and GRACE (R270). -/
  runLimit : Nat := 1024
  minRun   : Nat := 20
  dflt     : Nat := 0
  grace    : Nat := 50
  /-- Pending under R514 at a takeover. -/
  taken    : Bool := false
  /-- The engine it came back from after a hardware fault (Table eng-9). -/
  avoid    : Option Nat := none
  /-- It has had its place in the count of HOST_IMG.SAMPLE (R447). -/
  sampled  : Bool := false
  deriving DecidableEq, Repr

/-- The upper store's entry (R225): world position in 2^-21 µm, T_REF in ns. -/
structure StoreEntry where
  id    : Nat
  group : Nat
  x     : Int
  tRef  : Nat
  area  : Nat
  seq   : Nat
  deriving DecidableEq, Repr

/-- A committed body that has retired before its row's digest went: its deadline + GRACE in ns of DT, and words 1 and 2 of its final verdict (R516). -/
structure GoneBody where
  id    : Nat
  due   : Int
  words : List Nat
  deriving DecidableEq, Repr

/-- The digest of one sky row: the bodies that closed with it, with their outcomes, those of them that have retired; VERD_DIG once it has been sent
(R516). -/
structure Digest where
  group  : Nat
  index  : Nat
  rowDig : Nat
  bodies : List (Nat × Nat) := []
  gone   : List GoneBody := []
  sent   : Bool := false
  verd   : Nat := 0
  formed : Nat
  deriving DecidableEq, Repr

/-- Segmentation, bodies and the upper store. -/
structure Seg where
  groups  : List (Nat × SegGroup) := []
  ctxFree : FreeQ := {}
  gens    : List (Nat × Nat) := []
  /-- Free crop slots of the small, medium and large pools. -/
  crops   : List (Nat × FreeQ) := []
  /-- Pools and the context queue stood empty since an opening last failed. -/
  ctxOut  : Bool := false
  cropOut : List Nat := []
  freedCtx : List Nat := []
  freedCrop : List Nat := []
  closed  : List (Body × Nat) := []
  bodies  : List CBody := []
  /-- Bodies that this shadow has still to commit and a MISS record named already, with DT when it came (R257). -/
  missHeld : List (Nat × Nat) := []
  store   : List StoreEntry := []
  storeFull : Bool := false
  /-- Averages written since the last commit, by 2g for VY_AVG and 2g + 1 for VX_AVG (R238). -/
  avgWritten : List Nat := []
  /-- TRAJ fields written while sorting, with what they hold until the next commit: key, reset value, value (R242). -/
  trajOld : List (Nat × Nat × Nat) := []
  digests : List Digest := []
  /-- Groups to be closed when their last released row has been labelled (R520). -/
  cut     : List Nat := []
  deriving DecidableEq, Repr


/-! ### Engines and dispatch (R243–R301) -/

/-- A program DMA transfer in flight on a channel (R288): whether it reads into local memory, BAR2 offset, local address, length, and the
bytes of a write, taken at its start. -/
structure Xfer where
  ch     : Nat
  isRead : Bool
  remote : Nat
  loc    : Nat
  len    : Nat
  data   : List Nat := []
  deriving DecidableEq, Repr

/-- The image an engine holds (R298): its place and length in HBM, its code length and entry. -/
structure Image where
  off     : Nat
  len     : Nat
  codeLen : Nat
  entry   : Nat
  deriving DecidableEq, Repr

/-- A Kreov engine (Table eng-1, Table isa-1). Registers not listed hold 0. Instants are values of C. -/
structure Eng where
  /-- Local memory, 512 KiB (Table eng-2). -/
  mem     : List Host.Cell := []
  s       : List (Nat × Nat) := []
  v       : List (Nat × Nat) := []
  p       : List (Nat × Nat) := []
  pc      : Nat := 0
  /-- Instructions retired by the body (R296). -/
  retired : Nat := 0
  /-- RUN_LIMIT of the body, in units of 1,024 instructions. -/
  limit   : Nat := 1024
  body    : Option Nat := none
  window  : Nat := 0
  fetched : Option Nat := none
  /-- The fetch of that body is complete. -/
  ready   : Bool := false
  xfers   : List Xfer := []
  img     : Option Image := none
  /-- Out of dispatch until its image has been reloaded (R265). -/
  out     : Bool := false
  /-- Tenths of cycles of the body before `cycAt`, and cycles of all bodies before it. -/
  cyc     : Nat := 0
  cycAt   : Nat := 0
  busy    : Nat := 0
  faults  : List Nat := []
  /-- When the engine last retired a VEMIT (R297). -/
  emitAt  : Option Nat := none
  /-- The body that ran when a hardware fault fell in this nanosecond; a VEMIT of the same nanosecond still stands (R297). -/
  struck  : Option Nat := none
  /-- Voltage codes of the points P0–P3 (Table eng-8). -/
  points  : List Nat := [26, 14, 6, 0]
  deriving DecidableEq, Repr

/-- What engines and dispatcher hold in common: point changes that wait, the instant of the last one, uncorrectable HBM errors of the last second,
throttle in force. -/
structure Engines where
  engs   : List (Nat × Eng) := []
  ptWait : List Nat := []
  ptAt   : Option Nat := none
  hbmUe  : List Nat := []
  deriving DecidableEq, Repr


/-! ### Meteors (R302–R357) -/

/-- What one body asked of a pulse (R320). -/
structure Part where
  body : Nat
  f    : Int
  e    : Int
  deriving DecidableEq, Repr

/-- A pulse [f, e) of a valve in ns of DT: the meteor lead and the pressure recorded with it, its chain's first start, the bodies that asked for
it (R314–R320). -/
structure Pulse where
  valve : Nat
  f     : Int
  e     : Int
  lead  : Nat
  press : Nat
  cont  : Bool := false
  first : Int
  parts : List Part
  /-- More than 4 bodies contributed. -/
  many  : Bool := false
  /-- The valve data with which it was planned, in µs (R309). -/
  minOff : Nat := 0
  minOn : Nat := 0
  onMax : Nat := 0
  deriving DecidableEq, Repr

/-- A frame sent and not acknowledged, or waiting to be sent (R342): its module, SEQ, bytes, the F of its pulse, when it was last sent. -/
structure Flight where
  module  : Nat
  seq     : Nat
  bytes   : List Nat
  fire    : Bool
  f       : Int
  all     : Bool := false
  sentAt  : Nat := 0
  retries : Nat := 0
  deriving DecidableEq, Repr

/-- What a port holds of one module. -/
structure MetModule where
  statusAt : Option Nat := none
  ranging  : Bool := false
  values   : List Int := []
  rangeT1  : Option Nat := none
  ranged   : Bool := false
  /-- Progress of a resynchronisation: STATUS frames still to come with H = NEXT − 1 (R343). -/
  resync   : Option Nat := none
  exhausted : Bool := false
  deriving DecidableEq, Repr

/-- A Meteor port: pulses that wait, pulses sent (newest first), frames in flight, CANCEL frames to send, special beacons to send (SUB, module,
value), its modules. Instants are values of C. -/
structure MetPort where
  pend    : List Pulse := []
  sent    : List Pulse := []
  flights : List Flight := []
  cancels : List Flight := []
  beacons : List (Nat × Nat × Nat) := []
  modules : List (Nat × MetModule) := []
  since   : Nat := 0
  timedOut : Bool := false
  beaconAt : Option Nat := none
  /-- The end of the frame slot last taken, and whether the running disparity of the line is positive there (R333). -/
  busyTo  : Nat := 0
  rd      : Bool := false
  rangeAt : Nat := 0
  /-- The PRBS7 generator and checker of TEST: the last bits sent and received, newest first, and the error-free run (R354). -/
  gen     : List Bool := []
  hist    : List Bool := []
  prbsRun : Nat := 0
  deriving DecidableEq, Repr

/-- A pulse in a module's table, and whether its F has been reached and the drive begun. -/
structure ModPulse where
  valve  : Nat
  f      : Nat
  e      : Nat
  cont   : Bool
  active : Bool := false
  deriving DecidableEq, Repr

/-- A transmitter of 8b/10b characters: where its last slot ends, in C, and the running disparity there (R333). -/
structure LineTx where
  busyTo : Nat := 0
  rd     : Bool := false
  deriving DecidableEq, Repr

/-- One link of a module (R345–R351): acceptance of SEQs, held pulses, tombstones, the claim, counters reported in STATUS; `turn`: the arrival
of a RANGE beacon that waits for its reply. -/
structure ModLink where
  h         : Nat := 0
  map       : Nat := 0
  table     : List ModPulse := []
  tombs     : List (Nat × Nat) := []
  claim     : Bool := false
  epoch     : Nat := 0
  side      : Nat := 0
  beaconAt  : Option Nat := none
  beacons   : Nat := 0
  delay     : Nat := 0
  rej       : Nat := 0
  crcErr    : Nat := 0
  missed    : Nat := 0
  dropped   : Nat := 0
  full      : Bool := false
  turn      : Option Nat := none
  statusAt  : Nat := 0
  dirty     : Bool := false
  /-- SEAT frames that wait for a ranging reply to go first (R336). -/
  waiting   : List (List Nat) := []
  /-- Its transmitters upstream and downstream. -/
  up        : LineTx := {}
  down      : LineTx := {}
  deriving DecidableEq, Repr

/-- A valve held open, and since when. -/
structure Drive where
  valve  : Nat
  openAt : Nat
  deriving DecidableEq, Repr

/-- A seat report still to come: valve, F of the pulse that opened the valve, when it was driven. -/
structure SeatDue where
  valve  : Nat
  f      : Nat
  openAt : Nat
  deriving DecidableEq, Repr

/-- An ejector module on a port (R345–R351): two links, its owner, its drives, its faults, its time minus C in 0.25 ns. -/
structure Module where
  links     : List (Nat × ModLink) := []
  owner     : Option Nat := none
  conflict  : Bool := false
  wdog      : Bool := false
  faultCode : Nat := 0
  faultValve : Nat := 0
  valvesM1  : Nat := 63
  time      : Int := 0
  drives    : List Drive := []
  seats     : List SeatDue := []
  deriving DecidableEq, Repr

/-- A verdict on its way to the planner: the body, and whether it replaces an earlier one (R257, R302). -/
structure Passing where
  id       : Nat
  v        : Verdict
  replaced : Bool
  deriving DecidableEq, Repr

/-- The planner and the Meteor ports. -/
structure Plan where
  ports    : List (Nat × MetPort) := []
  modules  : List (Nat × Module) := []
  /-- Verdicts on their way to the planner (R302). -/
  passing  : List Passing := []
  /-- The last pressure sample, the last valid one, and its value (R313). -/
  pressAt  : Nat := 0
  validAt  : Nat := 0
  lastP    : Nat := 400
  /-- PLAN_CNT_TWI_REJECT, to which no register is given (R325). -/
  twiRejects : Nat := 0
  divertAt : List (Nat × Nat) := []
  /-- The latency entries that the driver wrote last, and the counter at that write (R323). -/
  latWrote : Nat × List Nat := (0, [])
  /-- The learning updates of this nanosecond: valve, A and LEARNED before (R323). What remains of them when it ends goes to the partner (R324). -/
  learnt   : List (Nat × Nat × Bool) := []
  /-- The sibling planes' drained state: verdicts are still planned during STOP with drain (R328). -/
  drain    : Bool := false
  deriving DecidableEq, Repr


/-! ### Motion feedback (R358–R379) -/

/-- A quadrature input: its accepted level and the C at which it was last accepted; its raw level; METHOD 1's consecutive samples away from the accepted
level; DT of the raw transition, or of the first of those samples (R359, R361, R362). -/
structure QuadIn where
  level : Bool := false
  raw   : Bool := false
  at_   : Nat := 0
  run   : Nat := 0
  dt    : Nat := 0
  deriving DecidableEq, Repr

/-- What a motion channel holds beside its registers: its position, its inputs, the previous SSI value and the stamp of the last move
in ns, consecutive SSI errors, the extreme of R370, instants of glitches and errors of the last 1 ms, the observer in 2^-40 count, count/s and
count/s², and the values a read of POS_LO latched. Instants are values of C. -/
structure Mot where
  pos     : Int := 0
  a       : QuadIn := {}
  b       : QuadIn := {}
  z       : QuadIn := {}
  value   : Option Nat := none
  stamp   : Nat := 0
  /-- First falling SCLK edge of the last SSI read: its C and its DT; whether that read is still open (R359, R366). -/
  ssiAt   : Option Nat := none
  ssiDt   : Nat := 0
  ssiOpen : Bool := false
  errs    : Nat := 0
  ext     : Int := 0
  bad     : List Nat := []
  countAt : Nat := 0
  obsAt   : Nat := 0
  settleAt : Nat := 0
  pHat    : Int := 0
  vHat    : Int := 0
  aHat    : Int := 0
  latch   : List (Nat × Nat) := []
  deriving DecidableEq, Repr

/-- A repeat output: counts below a divider, the phase of its outputs; for an SSI source the output counts of this period, how many are done, its
start. -/
structure MotRep where
  acc   : Int := 0
  phase : Nat := 0
  total : Int := 0
  done  : Nat := 0
  at_   : Nat := 0
  deriving DecidableEq, Repr


/-! ### Signal chain and trim outputs (R380–R400) -/

/-- One halfband stage: its last 11 inputs, newest first, and whether an input is held for the pair. -/
structure Halfband where
  line : List Int := []
  odd  : Bool := false
  deriving DecidableEq, Repr

/-- What a signal channel holds beside its registers: the PHASE delay, integrators and comb stores (48 bits), samples of the present R1, the rank
window, halfband stages, FIR line, fine outputs formed and not yet given (bank 0, bank 1), the fade's position and length, runs for STUCK,
clamped sinc outputs in a row, the test modulator, the latched stamp. -/
structure Sig where
  phase   : List Bool := []
  integ   : List Nat := [0, 0, 0, 0]
  comb    : List Nat := [0, 0, 0, 0]
  cnt     : Nat := 0
  rank    : List Int := []
  hb      : List (Nat × Halfband) := []
  fir     : List Int := []
  firCnt  : Nat := 0
  ready   : List (Int × Int) := []
  fadeI   : Nat := 0
  fadeLen : Nat := 0
  last    : Option Bool := none
  same    : Nat := 0
  changes : Nat := 0
  clamps  : Nat := 0
  settleAt : Nat := 0
  settled : Bool := false
  test    : Int := 0
  latch   : Option Nat := none
  latchHi : Option Nat := none
  deriving DecidableEq, Repr

/-- The trim outputs: codes applied and not yet reached, the DT of a timed apply, instants of the last steps, codes held over a warm-class reset. -/
structure Trim where
  target : List (Nat × Nat) := []
  due    : Nat := 0
  stepAt : Nat := 0
  rampAt : Nat := 0
  ramp   : Bool := false
  deriving DecidableEq, Repr



/-! ### Time and network (R410–R428) -/

/-- What identifies a path: the ingress port, the parentPortIdentity and stepsRemoved (R426). -/
structure PathKey where
  port   : Nat
  parent : Nat
  steps  : Nat
  deriving DecidableEq, Repr

/-- An entry of the path table, by its number; `used`: the measurement that last used it. -/
structure PathEntry where
  idx  : Nat
  key  : PathKey
  asym : Int
  used : Nat
  deriving DecidableEq, Repr

/-- A path change being measured (R426): θ_pred, the measurements net of slews, what slews had absorbed at the change, the state to return to. -/
structure PathHold where
  was   : Option PathKey
  pred  : Int
  meas  : List Int := []
  slew0 : Int
  prev  : Nat
  deriving DecidableEq, Repr

/-- The ordinary clock (R422–R427): the integrator in 2^-64 × 10^-9, the master heard, its path, the path table, the last θ (newest first, in
2^-16 ns), the last mean path delay, measurements taken, runs of Syncs within and beyond the lock limits. -/
structure Clock where
  i       : Int := 0
  gm      : Option Announced := none
  key     : Option PathKey := none
  paths   : List PathEntry := []
  thetas  : List Int := []
  mpd     : Nat := 0
  count   : Nat := 0
  inLock  : Nat := 0
  outLock : Nat := 0
  hold    : Option PathHold := none
  clrAll  : Bool := false
  afresh  : Bool := false
  deriving DecidableEq, Repr

/-- The rest of the TIME page: armed schedulers and their instants in ns of DT, the instant of the last loopback measurement, of the last PPS_IN
edge (in C, and its stamp in DT) and how many followed in time, the last second of DT marked on PPS_OUT, latched words by offset, the PTM
dialog asked for by GO and the instant of the last one. -/
structure Timing where
  sched   : List (Nat × Nat) := []
  skewAt  : Nat := 0
  ppsAt   : Nat := 0
  ppsDt   : Nat := 0
  ppsRun  : Nat := 0
  ppsOut  : Option Nat := none
  latch   : List (Nat × Nat) := []
  ptmGo   : Option Nat := none
  ptmAt   : Nat := 0
  deriving DecidableEq, Repr

/-- A learned address: its port, and when it was last seen (R419). -/
structure MacEntry where
  mac  : Nat
  port : Nat
  seen : Nat
  deriving DecidableEq, Repr

/-- The switch: learned addresses, the instants of the last peer-delay measurements by port. -/
structure Net where
  macs     : List MacEntry := []
  pdelayAt : List (Nat × Nat) := []
  deriving DecidableEq, Repr


/-! ### PACK (R454–R467) -/

/-- Who sent a block to a channel: an image record (type, flags, words 0x10 and 0x14), or a descriptor ring. -/
inductive BlockUser where
  | record (typ flags w0 w1 : Nat) | d2h (ring : Nat) | h2d (ring : Nat)
  deriving DecidableEq, Repr

/-- A block bound for a channel: its user, its bytes, the room for its output. -/
structure PackBlock where
  user  : BlockUser
  bytes : List Nat
  room  : Nat
  deriving DecidableEq, Repr

/-- The settings that a block takes with it: STREAM, CARRY, FULL_CLEAR (Table pack-4). -/
structure PackCfg where
  stream : Nat := 0
  carry  : Bool := false
  clear  : Bool := false
  deriving DecidableEq, Repr

/-- A PACK channel: blocks in order of arrival, the one in progress with its settings, the history's codes from 258 up (prefix code, last byte), a SAVE or
LOAD in progress (true) with its address, bytes short of a KiB in CNT_IN and CNT_OUT. -/
structure PackCh where
  queue  : List PackBlock := []
  now    : Option PackBlock := none
  cfg    : PackCfg := {}
  table  : List (Nat × Nat) := []
  saving : Option (Bool × Nat) := none
  inRem  : Nat := 0
  outRem : Nat := 0
  deriving DecidableEq, Repr

/-! ### Descriptor rings (R449) -/

/-- A descriptor ring whose descriptor waits for a PACK channel. -/
structure DescRing where
  packed : Bool := false
  /-- The code of the first check that the descriptor failed, made before it moved a byte (R449, R454). -/
  fail   : Option Nat := none
  /-- What a PACK channel has left to be written to the host, with the code of the result (R450). -/
  out    : Option (List Nat × Nat) := none
  /-- Bytes that a D2H transfer has moved (R450). -/
  moved  : Nat := 0
  deriving DecidableEq, Repr

/-- The arbiter of the host island's upstream writes (R450): whether the present turn is the D2H transfers', records or 4 KiB blocks that have gone in
it, the queue among RQ2 to RQ4 served last. -/
structure HostArb where
  dma  : Bool := false
  used : Nat := 0
  last : Nat := 4
  deriving DecidableEq, Repr


/-! ### Calibration store (R470–R472) -/

/-- A slot of a calibration key: its first unit of 64 KiB and how many units it spans. -/
structure NvmSlot where
  start : Nat
  units : Nat
  /-- A reset or power loss cut a write short before its CHECK (R472). -/
  torn  : Bool := false
  deriving DecidableEq, Repr

/-- A key of the directory and its two slots. -/
structure NvmKey where
  kind : Nat
  inst : Nat
  a    : Option NvmSlot := none
  b    : Option NvmSlot := none
  deriving DecidableEq, Repr


/-- Island margins (R482–R485): windows in a row above MGN_HI by island, engines capped with the point at which AGED arose, proposals for engine points, the instants of the last
window and of the last kind 10 commit, whether steps wait for that commit. -/
structure Isl where
  high     : List (Nat × Nat) := []
  caps     : List (Nat × Nat) := []
  points   : List (Nat × List Nat) := []
  windowAt : Nat := 0
  commitAt : Option Nat := none
  stepped  : Bool := false
  deriving DecidableEq, Repr


/-! ### Observatory and check units (R490–R502) -/

/-- Accumulators of a monitor (R492, R493). -/
structure MonSet where
  bins  : List (Nat × Nat) := []
  count : Nat := 0
  sum   : Int := 0
  min   : Int := 0x7FFF_FFFF
  max   : Int := -0x8000_0000
  start : Nat := 0
  drop  : Nat := 0
  deriving DecidableEq, Repr

/-- A monitor: events that wait, live accumulators, the snapshot set. -/
structure Monitor where
  queue : List Int := []
  live  : MonSet := {}
  snap  : MonSet := {}
  deriving DecidableEq, Repr

/-- Instants of the last periodic snapshot and of the last events of sources QUEUE and TJ. -/
structure ObsTimes where
  snapAt  : Nat := 0
  snapC   : Option Nat := none
  queueAt : Nat := 0
  tjAt    : Nat := 0
  deriving DecidableEq, Repr

/-- A CRC unit: bytes that wait, a feed in progress (offset, length), the register, and the configuration that the last INIT took; `bad`: a feed
ended with a read error since then. -/
structure CrcUnit where
  queue  : List Nat := []
  feed   : Option (Nat × Nat) := none
  reg    : Nat := 0
  width  : Nat := 32
  poly   : Nat := 0x1EDC_6F41
  refin  : Bool := true
  refout : Bool := true
  xorout : Nat := 0xFFFF_FFFF
  bad    : Bool := false
  deriving DecidableEq, Repr



/-! ### Tether, boot and security (R531–R560) -/

/-- A bridge access on its way (R540): its destination, whether it writes, its TAG, when it was sent. -/
structure Bridge where
  dst   : Nat
  write : Bool
  tag   : Nat
  sent  : Nat
  deriving DecidableEq, Repr

/-- A BULK transfer (R541): its destination, the chunk that leaves next, the first chunk that does not belong to it. -/
structure Bulk where
  dst   : Nat
  next  : Nat
  stop  : Nat
  deriving DecidableEq, Repr

/-- The Tether port: the TAG last used, an access and an enumeration in progress (since when), a BULK transfer, EVENT frames received, as
TETH_EVT_FIFO shows them; the two transmitters, the READ and WRITE frames that wait for the end of a BULK transfer (R541), and the device's own
return frames that wait for a free slot (R533). -/
structure Tether where
  tag    : Nat := 0
  bridge : Option Bridge := none
  enumAt : Option Nat := none
  bulk   : Option Bulk := none
  events : List Nat := []
  fwd    : LineTx := {}
  ret    : LineTx := {}
  wait   : List (List Nat) := []
  held   : List (List Nat) := []
  deriving DecidableEq, Repr

/-- Fusing in progress: the slot, program or firmware, revocation or key, and the key. -/
structure Fusing where
  slot   : Nat
  prog   : Bool
  revoke : Bool
  key    : Nat
  deriving DecidableEq, Repr

/-- Boot and security: the source of this start-up (0 QSPI, 1 PCIe, 2 Tether, 3 QSPI and then Tether), every source failed (R544), the image
window of the control SRAM and the chunks received, the header of the running image, a flash with slot A alone; the boot record (active slot,
staged slot, TRIAL), a staging in progress (slot, bytes), fusing in progress, the fused program keys, each plus 1 (0: not usable), the boundary
register that EXTEST drives METn_TX from, and when a GO was taken over PCIe (R560). -/
structure Boot where
  src      : Nat := 0
  recovery : Bool := false
  sram     : List Host.Cell := []
  chunks   : List Nat := []
  header   : List Nat := []
  single   : Bool := false
  active   : Nat := 0
  staged   : Option Nat := none
  trial    : Bool := false
  staging  : Option (Nat × List Nat) := none
  fusing   : Option Fusing := none
  progKeys : List (Nat × Nat) := []
  extest   : Option Nat := none
  subsys   : Option (Nat × Nat) := none
  goAt     : Option Nat := none
  deriving DecidableEq, Repr


/-! ### The whole -/

/-- Everything the device holds: the block without its queue of waiting commands. -/
structure Dev where
  /-- Register fields that differ from their reset value, by `Fld.key`. -/
  regs     : List (Nat × Nat) := []
  /-- BAR2 memory, by BAR2 offset (Table host-3). -/
  mem      : List Host.Cell := []
  /-- Host memory that the device reads and writes. -/
  host     : List Host.Cell := []
  /-- QSPI flash and MRAM, by byte offset. -/
  flash    : List Host.Cell := []
  mram     : List Host.Cell := []
  /-- Free values used so far: the model's own counter (log entry 3, DESIGN CHOICE). -/
  free     : Nat := 0
  /-- What the block has sent, newest first: the model's own record (log entry 5, DESIGN CHOICE). -/
  out      : List Emission := []
  /-- Levels of the output balls that differ from Table pkg-13's power-on column, by `Pin.code`. -/
  pins     : List (Nat × Level) := []
  time     : TimeBase := {}
  power    : Power := {}
  /-- What the host wrote in the configuration space of the function (R428, R431, R434). -/
  pcie     : PcieFunction := {}
  /-- The command Vesper holds (R77). -/
  cmd      : Option Latch := none
  queues   : List (Nat × Queue) := []
  mer      : Meridian := {}
  /-- The accepted feature set of the last commit (R69); none in BOOT and IDENT. -/
  accepted : Nat := 0
  ports    : List (Nat × Port) := []
  gens     : List (Nat × Gen) := []
  /-- Released row slots that wait for the correction island (R103). -/
  slotsOut : List RowSlot := []
  lanes    : List (Nat × Lane) := []
  swaps    : List (Nat × SwapSt) := []
  due      : List Due := []
  /-- COR_BG_CFG.STALE_AGE as the last row slot to reach the correction island found it (R166). -/
  staleAge : Nat := 15
  /-- The noise model in force, by 4p + b: K and READ (R144). -/
  nrModel  : List (Nat × (Nat × Nat)) := []
  /-- Temporal filter state per port and band, by 4p + b; empty before the first real line (R148). -/
  tmState  : List (Nat × List Nat) := []
  /-- Live focus sums and edge counts, and the snapshot, by 16p + z (R153, R154). -/
  focLive  : List (Nat × (Nat × Nat)) := []
  focSnap  : List (Nat × (Nat × Nat)) := []
  /-- Background zone sums by (4p + b) × 16 + z, and row slots of the interval per group with the DT of the last (R160). -/
  zones    : List (Nat × ZoneSum) := []
  zoneRows : List (Nat × (Nat × Nat)) := []
  /-- Corrected row slots on their way to the sky island. -/
  corOut   : List RowSlot := []
  /-- Foreground decisions of earlier rows, by group, newest first. -/
  fgRows   : List (Nat × List FgRow) := []
  /-- Corrected lines kept per port, newest first. -/
  geoHist  : List (Nat × List HistLine) := []
  seams    : List (Nat × SeamSum) := []
  /-- Groups with a geometry swap in the interval in progress (R179). -/
  arSwapped : List Nat := []
  arSteps  : List ArStep := []
  ofsWrites : List OfsWrite := []
  /-- Sky rows on their way to the segmentation island. -/
  skyOut   : List SkyRow := []
  seg      : Seg := {}
  engines  : Engines := {}
  plan     : Plan := {}
  mots     : List (Nat × Mot) := []
  motReps  : List (Nat × MotRep) := []
  /-- HIT_T_HI latched by a read of HIT_T_LO, by comparator (R379). -/
  hitLatch : List (Nat × Nat) := []
  /-- C of the last ARM write of each comparator (R378). -/
  cmpAt    : List (Nat × Nat) := []
  sigs     : List (Nat × Sig) := []
  trim     : Trim := {}
  clock    : Clock := {}
  timing   : Timing := {}
  net      : Net := {}
  pack     : List (Nat × PackCh) := []
  rings    : List (Nat × DescRing) := []
  arb      : HostArb := {}
  /-- Sky rows still to be recorded (R447), and accepted bodies counted since the last crop sampled. -/
  recLeft  : Nat := 0
  sampled  : Nat := 0
  /-- The calibration directory in order of its entries, writes per MRAM unit, units retired (R471, R486). -/
  nvmKeys  : List NvmKey := []
  nvmWear  : List (Nat × Nat) := []
  nvmRetired : List Nat := []
  /-- The trigger DT in ns of the row slot that closed the interval of the tap proposal held (R481). -/
  illumDt  : Nat := 0
  isl      : Isl := {}
  monitors : List (Nat × Monitor) := []
  obs      : ObsTimes := {}
  crcUnits : List (Nat × CrcUnit) := []
  teth     : Tether := {}
  boot     : Boot := {}
  /-- The code that the register access in hand has recorded, 0 for none: what a RESP carries (R535). -/
  accErr   : Nat := 0
  deriving DecidableEq, Repr

/-- The state of the model: the device, and the commands that wait, first in, first out. -/
structure State where
  dev     : Dev := {}
  pending : List Instr := []
  deriving DecidableEq, Repr

/-- Why the block may stop: never. Every command of the table has an effect the spec states, so no meaning raises a fault; the one reason
stands so that the type is not empty. Safe: a stop proves nothing false. -/
inductive Fault where
  /-- Raised by no meaning. -/
  | none
  deriving DecidableEq, Repr

/-- Why a command is refused. -/
inductive Refusal where
  /-- Raised by a command of the table that has no meaning in the model. Safe: the run stops there. -/
  | notModelled (mnemonic : String)
  deriving DecidableEq, Repr

/-- The device right after a power-on reset, PORST_N just released with every strap at 0: DEV_STATE BOOT, start-up running (Table pkg-14),
every register at its reset value (no field listed), no memory listed, no command waiting. -/
def State.reset : State := {}

end Sys2Proof.Machine
end

