-- ==== Sys2Proof/Machine/Ops.lean ====
section
/-! DEFINITION. The named operations of the block over its state: register fields, memories, pins, time, report records, interrupts, error
records, Meridian records, and the answer of a meaning. -/

namespace Sys2Proof.Machine

/-- What a step answers. -/
abbrev Answer := Host.Outcome State Fault Refusal

/-- The device with its register store and its memories in canonical form, so that equal contents are equal data; nothing reads otherwise
(Laws/Canonical.lean). -/
def Dev.canon (d : Dev) : Dev :=
  { d with regs := Sparse.tidy d.regs, mem := Sparse.canon 0 d.mem, host := Sparse.canon 0 d.host, flash := Sparse.canon 0 d.flash,
           mram := Sparse.canon 0 d.mram }

/-- The answer of a meaning that changes the device by `f` and leaves the queue of waiting commands alone. -/
def State.run (s : State) (f : Dev → Dev) : Answer := .next { s with dev := (f s.dev).canon }

/-- `a / b` rounded to nearest; the spec does not say where a tie goes (log entry 20, DESIGN CHOICE). -/
def roundTie (a b : Int) : Int :=
  if b ≠ 0 ∧ (2 * a) % (2 * b) = b.natAbs then a / b + (if Config.tieUp a b then 1 else 0) else divRound a b

namespace Dev

/-! ### Register fields -/

/-- The value of a register field. -/
def get (d : Dev) (f : Fld) : Nat := Sparse.get d.regs f.reset f.key

/-- A register field given a value; bits beyond its width are lost. -/
def set (d : Dev) (f : Fld) (v : Nat) : Dev := { d with regs := Sparse.set d.regs f.reset f.key (v % 2 ^ f.width) }

/-- A field that is not zero. -/
def bit (d : Dev) (f : Fld) : Bool := d.get f ≠ 0

/-- A one-bit field given a truth value. -/
def put (d : Dev) (f : Fld) (b : Bool) : Dev := d.set f (b2n b)

/-- A wrapping counter increased by `n` (R117). -/
def count (d : Dev) (f : Fld) (n : Nat := 1) : Dev := d.set f (d.get f + n)

/-- A saturating counter increased by one. -/
def countSat (d : Dev) (f : Fld) : Dev := d.set f (satInc f.width (d.get f))

/-- The signed number a field holds. -/
def getS (d : Dev) (f : Fld) : Int := sgn f.width (d.get f)

/-- A field given a signed number. -/
def setS (d : Dev) (f : Fld) (i : Int) : Dev := d.set f (uns f.width i)

/-- Bit `k` of a field given a truth value. -/
def putBit (d : Dev) (f : Fld) (k : Nat) (b : Bool) : Dev :=
  let v := d.get f
  d.set f (v - v / 2 ^ k % 2 * 2 ^ k + b2n b * 2 ^ k)

/-- Bit `k` of a field. -/
def testBit (d : Dev) (f : Fld) (k : Nat) : Bool := d.get f / 2 ^ k % 2 = 1

/-- The word that the stored values of a register's fields spell. -/
def wordOf (d : Dev) (fs : List (Access × Fld)) : Nat :=
  fs.foldl (fun w e => w + d.get e.2 * 2 ^ e.2.lsb) 0

/-! ### Features and device states (R69, R71) -/

/-- Whether feature bit `b` is accepted (R69). -/
def feat (d : Dev) (b : Nat) : Bool := d.accepted / 2 ^ b % 2 = 1

/-- The present DEV_STATE (Table regs-17). -/
def state (d : Dev) : Nat := d.get F.DEV_STATE_STATE

/-! ### Pins and outputs -/

/-- One more thing sent. -/
def emit (d : Dev) (e : Emission) : Dev := { d with out := e :: d.out }

/-! ### Free values (log entry 3, DESIGN CHOICE) -/

/-- The next free value: its low `w` bits. -/
def freeVal (d : Dev) (w : Nat) : Nat := (Config.freeValue d.free).toNat % 2 ^ w

/-- A free value further on: the one after `n` more. -/
def freeAt (d : Dev) (n w : Nat) : Nat := (Config.freeValue (d.free + n)).toNat % 2 ^ w

/-- `a / b` as a whole number; the spec does not say how a mean is rounded, so free value `n` decides (log entry 20, DESIGN CHOICE). -/
def meanFree (d : Dev) (n : Nat) (a b : Int) : Int := if a % b = 0 then a / b else a / b + d.freeAt n 1

/-- A free value has been used. -/
def freeUsed (d : Dev) (n : Nat := 1) : Dev := { d with free := d.free + n }

/-! ### Time (R402) -/

/-- What the slew in progress has absorbed since C_B, in 2^-32 ns: SLEW_MAX ppm of the counter, ending exactly at the amount (R405). -/
def slewed (d : Dev) : Int :=
  let most := (d.time.c - d.time.cB) * d.get F.TIME_SLEW_CTRL_SLEW_MAX * 2 ^ 32 / 1000000
  if d.time.slewLeft < 0 then -(min d.time.slewLeft.natAbs most : Nat) else (min d.time.slewLeft.natAbs most : Nat)

/-- DT in 2^-32 ns, with its 64 integer bits. -/
def dt32 (d : Dev) : Nat := (((d.time.base + (d.time.c - d.time.cB) * d.time.rate : Nat) + d.slewed) % (2 ^ 96 : Nat)).toNat

/-- DT with its 16-bit fraction: the stamp of an event now (R83). -/
def stamp (d : Dev) : Nat := d.dt32 / 2 ^ 16

/-- The stamp of an event of a precision island of 250 ps resolution, `quarter` quarters of a nanosecond after the present count: the fraction of
DT rounded down to 250 ps (R83, R408, Table time-1). -/
def stampFine (d : Dev) (quarter : Nat) : Nat := (d.stamp + quarter * 2 ^ 14) / 2 ^ 14 * 2 ^ 14

/-- DT in whole nanoseconds. -/
def now (d : Dev) : Nat := d.dt32 / 2 ^ 32

/-- Nanoseconds of the free-running counter since `t`. -/
def elapsed (d : Dev) (t : Nat) : Nat := d.time.c - t

/-! ### Memories -/

/-- The byte of BAR2 memory at an offset; a byte that nothing has written reads 0 (log entry 2, DESIGN CHOICE). -/
def byte (d : Dev) (a : Nat) : Byte := Sparse.get d.mem 0 a

/-- A byte written to BAR2 memory. -/
def setByte (d : Dev) (a : Nat) (v : Byte) : Dev := { d with mem := Sparse.set d.mem 0 a v }

/-- `n` bytes of BAR2 memory. -/
def bytes (d : Dev) (a n : Nat) : List Nat := (List.range n).map (fun i => (d.byte (a + i)).toNat)

/-- Bytes written to BAR2 memory one after another. -/
def setBytes (d : Dev) : Nat → List Nat → Dev
  | _, [] => d
  | a, b :: bs => setBytes (d.setByte a (BitVec.ofNat 8 b)) (a + 1) bs

/-- A little-endian number of `n` bytes of BAR2 memory (R6). -/
def read (d : Dev) (a n : Nat) : Nat := leNat (d.bytes a n)

/-- A little-endian number written to BAR2 memory. -/
def write (d : Dev) (a n v : Nat) : Dev := d.setBytes a (leBytes n v)

/-- Bytes of host memory. -/
def hostBytes (d : Dev) (a n : Nat) : List Nat := (List.range n).map (fun i => (Sparse.get d.host 0 (a + i)).toNat)

/-- Bytes written to host memory one after another (R432). -/
def setHostBytes (d : Dev) : Nat → List Nat → Dev
  | _, [] => d
  | a, b :: bs => setHostBytes { d with host := Sparse.set d.host 0 a (BitVec.ofNat 8 b) } (a + 1) bs

/-- BAR2 memory from `src` of length `n` copied to `dst`. -/
def copyMem (d : Dev) (src dst n : Nat) : Dev :=
  let cells := (d.mem.filter (fun c => decide (src ≤ c.1 ∧ c.1 < src + n))).map (fun c => (c.1 - src + dst, c.2))
  let rest := d.mem.filter (fun c => !decide (dst ≤ c.1 ∧ c.1 < dst + n))
  { d with mem := cells.foldl (fun m c => Sparse.set m 0 c.1 c.2) rest }

/-- Bytes of the MRAM, read and written. -/
def mramBytes (d : Dev) (a n : Nat) : List Nat := (List.range n).map (fun i => (Sparse.get d.mram 0 (a + i)).toNat)
def mramWord (d : Dev) (a : Nat) : Nat := leNat (d.mramBytes a 4)
def setMram (d : Dev) : Nat → List Nat → Dev
  | _, [] => d
  | a, b :: bs => setMram { d with mram := Sparse.set d.mram 0 a (BitVec.ofNat 8 b) } (a + 1) bs

/-! ### Numbered units -/

def queue (d : Dev) (q : Nat) : Queue := Sparse.get d.queues {} q
def setQueue (d : Dev) (q : Nat) (x : Queue) : Dev := { d with queues := Sparse.set d.queues {} q x }
def port (d : Dev) (p : Nat) : Port := Sparse.get d.ports {} p
def setPort (d : Dev) (p : Nat) (x : Port) : Dev := { d with ports := Sparse.set d.ports {} p x }
def gen (d : Dev) (g : Nat) : Gen := Sparse.get d.gens {} g
def setGen (d : Dev) (g : Nat) (x : Gen) : Dev := { d with gens := Sparse.set d.gens {} g x }
def lane (d : Dev) (l : Nat) : Lane := Sparse.get d.lanes {} l
def setLane (d : Dev) (l : Nat) (x : Lane) : Dev := { d with lanes := Sparse.set d.lanes {} l x }

end Dev

/-! ### Pins -/

/-- A number of its own for every ball. -/
def Pin.code : Pin → Nat
  | .metTx n => 0x100 + n % 0x100 | .trigOut n => 0x200 + n % 0x100 | .ppsOut => 0x300 | .motRep n => 0x400 + n % 0x100
  | .sigMclk n => 0x500 + n % 0x100 | .divert n => 0x600 + n % 0x100 | .rly r c => 0x700 + (4 * r + c) % 0x100
  | .pcieTx => 0x800 | .merTx m => 0x900 + m % 0x100 | .ethTx e => 0xA00 + e % 0x100 | .ethTxDis e => 0xB00 + e % 0x100
  | .tethOut => 0xC00 | .rstOutN => 0xD00 | .faultN => 0xE00 | .thermTripN => 0xF00 | .motSclk n => 0x1000 + n % 0x100 | .smbAlertN => 0x1100
  | .cxpUp p c => 0x1200 + (4 * p + c) % 0x100

/-- The level of a ball in a power-on reset (Table pkg-13). -/
def Pin.porLevel : Pin → Level
  | .divert _ | .ethTxDis _ | .thermTripN | .smbAlertN => .z
  | .rly _ _ | .pcieTx | .merTx _ | .ethTx _ | .cxpUp _ _ => .idle
  | _ => .low

namespace Dev

/-- SMB_ALERT_N is asserted while ALARM or THROTTLE is 1 or DEV_STATE is FAULT (R31). -/
def smbAlerts (d : Dev) : Bool := d.bit F.DEV_ENV_STAT_ALARM || d.bit F.DEV_ENV_STAT_THROTTLE || d.state = 15

/-- The level of an output ball. SMB_ALERT_N follows its conditions. -/
def pin (d : Dev) (p : Pin) : Level :=
  if p = .smbAlertN ∧ d.smbAlerts then .low else Sparse.get d.pins p.porLevel p.code

/-- Whether the 50 kΩ pull-down of an input ball is connected (R29): it is from reset on, but on the balls of a motion channel with EN = 1, of a signal
channel with EN = 1, of a trigger input that a generator in MODE 3 names in IN_SEL, and of PPS_IN with GM_EN = 1. -/
def pulledDown (d : Dev) : InPin → Bool
  | .motA n | .motB n | .motZ n => !d.bit (F.MOT_CH_CFG_EN n)
  | .sigDat n => !d.bit (F.SIG_CH_CFG_EN n)
  | .trigIn i => !(List.range 16).any (fun g => d.get (F.TGEN_CTRL_MODE g) = 3 && d.get (F.TGEN_CTRL_IN_SEL g) = i)
  | .ppsIn => !d.bit F.TIME_CTRL_GM_EN
  | _ => true

/-- The uplink driver of connection 0 of a port runs: what goes to the camera is sent (R135). -/
def uplink (d : Dev) (p : Nat) : Bool := d.pin (.cxpUp p 0) = .run

/-- An output ball given a level. -/
def setPin (d : Dev) (p : Pin) (l : Level) : Dev := { d with pins := Sparse.set d.pins p.porLevel p.code l }

/-! ### Report records (R443, R444) -/

/-- Whether the device may issue requests: Bus Master Enable set and not in D3hot (R433). -/
def canRequest (d : Dev) : Bool := d.bit F.HOST_LINK_BME && !d.bit F.HOST_LINK_D3HOT

/-- Whether the device counts as holding the token: always without F_TWIN (R350). -/
def holdsToken (d : Dev) : Bool := !d.feat 1 || d.bit F.TWIN_TOKEN_HELD

/-- Bytes of a queue's staging buffer (Table host-4). -/
def stageSize (q : Nat) : Nat :=
  if q = 0 then 256 * 1024 else if q = 3 then 1024 * 1024 else 64 * 1024

/-- Bytes held in staging. -/
def stageUsed (x : Queue) : Nat := (x.staging.map (fun r => r.bytes.length)).sum

/-- One more lost SEQ: it extends the last run when it follows it with the same cause (R443). -/
def addLost : List LostRun → Nat → Nat → List LostRun
  | [], seq, cause => [⟨seq, seq, cause⟩]
  | [r], seq, cause => if r.cause = cause ∧ (r.last + 1) % 2 ^ 32 = seq then [{ r with last := seq }] else [r, ⟨seq, seq, cause⟩]
  | r :: rs, seq, cause => r :: addLost rs seq cause

/-- Header and payload of a record (Table host-6); `flags` are bits 27:24, the SHADOW flag apart. -/
def recBytes (d : Dev) (typ flags seq : Nat) (payload : List Nat) : List Nat :=
  let shadow := if d.holdsToken then 0 else 8
  let len := (16 + payload.length + 15) / 16
  wordsLe [(flags % 8 + shadow) * 2 ^ 24 + typ * 2 ^ 16 + len, seq, d.now % 2 ^ 32, d.now / 2 ^ 32]
    ++ payload ++ List.replicate (16 * len - 16 - payload.length) 0

/-- RQ_STAGE follows the staging buffer. -/
def refreshStage (d : Dev) (q : Nat) : Dev := d.set (F.RQ_STAGE_USED q) ((stageUsed (d.queue q) + 63) / 64)

/-- A record formed for queue `q`: staged, or lost with its cause (R443). -/
def report (d : Dev) (q typ flags : Nat) (payload : List Nat) : Dev :=
  let seq := d.get (F.RQ_SEQ_SEQ q)
  let d := d.count (F.RQ_SEQ_SEQ q)
  let x := d.queue q
  let bs := d.recBytes typ flags seq payload
  if !d.bit (F.RQ_CTRL_EN q) then
    (d.setQueue q { x with lost := addLost x.lost seq 3 }).count (F.RQ_LOST_COUNT q)
  else if stageSize q < stageUsed x + bs.length then
    (d.setQueue q { x with lost := addLost x.lost seq (if d.canRequest then 1 else 4) }).count (F.RQ_LOST_COUNT q)
  else (d.setQueue q { x with staging := x.staging ++ [⟨seq, bs⟩] }).refreshStage q

/-! ### Interrupts (R62, R63, R80) -/

/-- BLK_IRQ_STAT of a page: RAW AND EN (Table regs-9). -/
def irqStat (d : Dev) (p : Nat) : Nat := d.get (F.BLK_IRQ_RAW p) &&& d.get (F.BLK_IRQ_EN p)

/-- The page interrupt is asserted while BLK_IRQ_STAT ≠ 0 (R63). -/
def asserted (d : Dev) (p : Nat) : Bool := d.irqStat p ≠ 0

/-- Whether page source `p` is routed to vector `v` and not masked (Table regs-21). -/
def routedTo (d : Dev) (p v : Nat) : Bool :=
  pageImplemented p && d.get (F.IRQ_ROUTE_MASK (p / 4) (p % 4)) = 0 && d.get (F.IRQ_ROUTE_VECTOR (p / 4) (p % 4)) = v

/-- A queue is pending while any of its five flags is 1 (R451). -/
def queuePending (d : Dev) (q : Nat) : Bool :=
  d.bit (F.RQ_STAT_SEALED_A q) || d.bit (F.RQ_STAT_SEALED_B q) || d.bit (F.RQ_STAT_RING_DATA q) || d.bit (F.RQ_STAT_FAULT q)
    || d.bit (F.RQ_STAT_GAP q)

/-- A descriptor ring is pending while DONE or ERR is 1 (R451). -/
def ringPending (d : Dev) (r : Nat) : Bool := d.bit (F.DR_STAT_DONE r) || d.bit (F.DR_STAT_ERR r)

/-- Whether any source routed to vector `v` is pending. -/
def vectorPending (d : Dev) (v : Nat) : Bool :=
  (List.range 146).any (fun p => d.routedTo p v && d.asserted p)
    || (List.range 5).any (fun q => d.get (F.RQ_CTRL_VECTOR q) = v && d.queuePending q)
    || (List.range 2).any (fun r => d.get (F.DR_CTRL_VECTOR r) = v && d.ringPending r)

/-- Whether vector `v` is armed. -/
def armed (d : Dev) (v : Nat) : Bool := d.testBit (F.IRQ_ARMED_ARMED (v / 32)) (v % 32)

/-- The message of vector `v` is masked in PCIe: by the function mask, or in the vector's entry of the MSI-X table (R80). -/
def msixMasked (d : Dev) (v : Nat) : Bool := d.bit F.MSIX_FUNCTION_MASK || d.bit (F.MSIX_VECTOR_MASK v)

/-- A source became pending on vector `v`, one of 64 (R80): an armed vector is disarmed and sends its message; masked in PCIe, the message waits in
the PBA (log entry 89, PRESUMED). A message that the device may not issue (R433) leaves the vector armed (log entry 8, DEDUCED). -/
def signal (d : Dev) (v : Nat) : Dev :=
  let v := v % 64
  if d.armed v && d.canRequest then
    (if d.msixMasked v then d.putBit (F.MSIX_PBA (v / 32)) (v % 32) true else d.emit (.msix v)).putBit (F.IRQ_ARMED_ARMED (v / 32)) (v % 32) false
  else d

/-- Messages that waited in the PBA and are no longer masked are sent (R80). -/
def sendPending (d : Dev) : Dev :=
  (List.range 64).foldl (fun d v =>
    if d.testBit (F.MSIX_PBA (v / 32)) (v % 32) && !d.msixMasked v && d.canRequest then (d.emit (.msix v)).putBit (F.MSIX_PBA (v / 32)) (v % 32) false
    else d) d

/-- A Tether frame leaves in the next free slot of its direction, a character each 100 ns (R533, R534). -/
def tethSend (d : Dev) (fwd : Bool) (bytes : List Nat) : Dev :=
  let t := if fwd then d.teth.fwd else d.teth.ret
  let start := max d.time.c t.busyTo
  let r := slotChars 100 t.busyTo t.rd start bytes
  let t' : LineTx := ⟨start + 100 * (bytes.length + 3), r.1⟩
  ({ d with teth := if fwd then { d.teth with fwd := t' } else { d.teth with ret := t' } } : Dev).emit (if fwd then .tethFwd r.2 else .tethRet r.2)

/-- The oldest of the device's own return frames leaves once nothing is under way on the return direction (R533). -/
def tethOwn (d : Dev) : Dev :=
  match d.teth.held with
  | [] => d
  | f :: r => if d.time.c < d.teth.ret.busyTo then d else ({ d with teth := { d.teth with held := r } } : Dev).tethSend false f

/-- A return frame of the device's own: up to 4 are held, and a further one is lost (R533; log entry 111, DESIGN CHOICE). -/
def tethReturn (d : Dev) (f : List Nat) : Dev := ({ d with teth := { d.teth with held := (d.teth.held ++ [f]).take 4 } } : Dev).tethOwn

/-- Page source `p` asserts: its vector is signalled, and with the page's TETH_EVT_MASK bit an EVENT frame goes to address 0 (R80, R536). -/
def pageAsserts (d : Dev) (p : Nat) : Dev :=
  let d := if d.get (F.IRQ_ROUTE_MASK (p / 4) (p % 4)) = 0 then d.signal (d.get (F.IRQ_ROUTE_VECTOR (p / 4) (p % 4))) else d
  if d.testBit (F.TETH_EVT_MASK_MASK (p / 32)) (p % 32) then
    d.tethReturn (frame16 ([0x70, 0, d.get F.TETH_ADDR_ADDR, 0, p, 0] ++ leBytes 4 (d.irqStat p) ++ leBytes 4 (d.get (F.BLK_EVT_CNT_COUNT p))))
  else d

/-- The EVENT record of a page event, where HOST_EVT_SEL names the page (R446, Table host-8). -/
def eventRecord (d : Dev) (p b : Nat) : Dev :=
  if d.testBit (F.HOST_EVT_SEL_SEL (p / 32)) (p % 32) then
    d.report 1 2 0 (wordsLe [p * 2 ^ 16 + b * 2 ^ 8 + (if b = 0 then d.get (F.BLK_ERR_CODE_CODE p) else 0),
      if b = 0 then d.wordOf (rowsAt rowsHeader p 0x24) else 0, d.get (F.BLK_EVT_CNT_COUNT p), 0])
  else d

/-- Event `b` of page `p`: its RAW bit is set and counted; a page interrupt that thereby asserts is signalled (R62, R63). -/
def raise (d : Dev) (p b : Nat) : Dev :=
  let was := d.asserted p
  let d := (d.putBit (F.BLK_IRQ_RAW p) b true).count (F.BLK_EVT_CNT_COUNT p)
  let d := d.eventRecord p b
  if !was && d.asserted p then d.pageAsserts p else d

/-- A queue's or ring's flag is set: its vector is signalled when it was not pending before (R451). -/
def raiseQueue (d : Dev) (q : Nat) (f : Fld) : Dev :=
  let was := d.queuePending q
  let d := d.put f true
  if was then d else d.signal (d.get (F.RQ_CTRL_VECTOR q))

def raiseRing (d : Dev) (r : Nat) (f : Fld) : Dev :=
  let was := d.ringPending r
  let d := d.put f true
  if was then d else d.signal (d.get (F.DR_CTRL_VECTOR r))

/-! ### Error records (R64) -/

/-- The error codes of Table regs-14. -/
inductive Err where
  | ok | state | range | busy | locked | feature | parity | timeout | late | expired | auth | nospace | plausibility | partner
  | unsupported | internal
  deriving DecidableEq, Repr

def Err.code : Err → Nat
  | .ok => 0 | .state => 1 | .range => 2 | .busy => 3 | .locked => 4 | .feature => 5 | .parity => 6 | .timeout => 7 | .late => 8
  | .expired => 9 | .auth => 10 | .nospace => 11 | .plausibility => 12 | .partner => 13 | .unsupported => 14 | .internal => 15

/-- The error of a code (Table regs-14). -/
def Err.ofCode (c : Nat) : Err :=
  [ok, state, range, busy, locked, feature, parity, timeout, late, expired, auth, nospace, plausibility, partner, unsupported].getD c internal

/-- Where an error comes from (BLK_ERR_INFO.ORIGIN). -/
inductive Origin where
  | register | command | hardware
  deriving DecidableEq, Repr

def Origin.code : Origin → Nat
  | .register => 0 | .command => 1 | .hardware => 2

/-- An error on page `p`: recorded into an empty CODE, else counted in OVERRUN; either way an ERR event (R64). BLK_ERR_INFO.STATE is DEV_STATE
for DEV, CMD and register-access errors, otherwise the block's state (Table regs-11). -/
def error (d : Dev) (p : Nat) (e : Err) (detail : Nat) (o : Origin) (word : Nat) : Dev :=
  let d :=
    if d.get (F.BLK_ERR_CODE_CODE p) = 0 then
      let seq := d.get (F.BLK_ERR_CODE_SEQ p) + 1
      let st := if p ≤ 1 ∨ o = .register then d.state else d.get (F.BLK_STAT_STATE p)
      ((((((d.set (F.BLK_ERR_CODE_CODE p) e.code).set (F.BLK_ERR_CODE_SEQ p) seq).set (F.BLK_ERR_INFO_DETAIL p) detail).set
        (F.BLK_ERR_INFO_STATE p) st).set (F.BLK_ERR_INFO_SEQ p) seq).set (F.BLK_ERR_INFO_ORIGIN p) o.code).set
        (F.BLK_ERR_INFO_WORD p) word
    else d.countSat (F.BLK_ERR_CODE_OVERRUN p)
  d.raise p 0

/-- An error of a hardware event whose WORD no chapter defines: a free value (log entry 65, DESIGN CHOICE). -/
def hwError (d : Dev) (p : Nat) (e : Err) (detail : Nat) : Dev := (d.error p e detail .hardware (d.freeVal 14)).freeUsed

/-- A register access at offset `off` of page `p` refused with an error (R56, R67). -/
def refuse (d : Dev) (p off : Nat) (e : Err) (detail : Nat := 0) : Dev := { d with accErr := e.code }.error p e detail .register (off / 4)

/-- BLK_STAT.FAULT of a page rises (R62). -/
def setFault (d : Dev) (p : Nat) : Dev :=
  if d.bit (F.BLK_STAT_FAULT p) then d else (d.put (F.BLK_STAT_FAULT p) true).raise p 2

/-- A BLK_PARITY bit of a page is set (R62). -/
def setParity (d : Dev) (p : Nat) (f : Fld) : Dev := (d.put f true).raise p 1

/-! ### Outputs that hold (R477) -/

/-- Vesper copies or restores calibration of this kind: a command of this code with the kind in ARG0[7:0] is in hand (R474, R477). -/
def calInHand (d : Dev) (code kind : Nat) : Bool := match d.cmd with
  | some l => l.code = code && l.args.getD 0 0 % 256 = kind
  | none => false

/-- BLK_STAT.STALE of a page: of SIG while a channel is stale (R391), of TRIM while an output is held (R397), of COR and PLAN while their live table
is restored (R477), and of COR by its entries (R157). -/
def stale (d : Dev) (p : Nat) : Bool :=
  d.bit (F.BLK_STAT_STALE p) || (p = 0x0D && d.bit F.SIG_STALE_STALE) || (p = 0x0E && d.bit F.TRIM_HELD_HELD)
    || (p = 0x30 && d.calInHand 0x51 1) || (p = 0x80 && d.calInHand 0x51 7)

/-! ### Observatory events (R490, R491) -/

/-- A block whose events monitors take: enabled, not OFFLINE and not stale (R490). -/
def obsFrom (d : Dev) (page : Nat) : Bool :=
  d.bit (F.BLK_CTRL_ENABLE page) && !d.bit (F.BLK_STAT_OFFLINE page) && (!d.stale page || page = 0x0D)

/-- An event of source `src`, unit `inst`, from the block of `page` (a signal channel counts as its own block): every monitor that watches it queues the value; the 257th is dropped. -/
def observe (d : Dev) (page src inst : Nat) (v : Int) : Dev :=
  if !d.obsFrom page || !d.bit (F.BLK_CTRL_ENABLE 0x0B)
      || d.bit (F.BLK_STAT_OFFLINE 0x0B) || d.bit (F.BLK_STAT_TEST 0x0B) then d
  else (List.range 32).foldl (fun d m =>
    if d.bit (F.OBS_MON_CFG_EN m) && d.get (F.OBS_MON_CFG_SRC m) = src && d.get (F.OBS_MON_CFG_INST m) = inst then
      let x := Sparse.get d.monitors {} m
      if x.queue.length < 256 then { d with monitors := Sparse.set d.monitors {} m { x with queue := x.queue ++ [satS 32 v] } }
      else
        let d' := { d with monitors := Sparse.set d.monitors {} m { x with live := { x.live with drop := x.live.drop + 1 } } }
        if x.live.drop = 0 then d'.raise 0x0B 4 else d'
    else d) d

/-! ### Meridian records (R509) -/

/-- A record's 64-bit blocks as they go out on the lanes that carry records: in turn over the lanes in order of their number, from the lowest (R507;
log entry 84, DESIGN CHOICE: every record starts on the lowest). -/
def stripes (d : Dev) (ws : List Nat) : List (Nat × List Nat) :=
  let ms := (List.range 4).filter (d.testBit F.TWIN_STAT_LANES)
  (List.range ms.length).map (fun i =>
    (ms.getD i 0, ((List.range (ws.length / 2)).filter (fun j => j % ms.length = i)).flatMap (fun j => (ws.drop (2 * j)).take 2)))

/-- A record given to the link while it is up: TYPE, the type fields of word 0, the units and the payload words; SEQ and CRC-32C are added
(R507, R509). -/
def merSend (d : Dev) (typ hi units : Nat) (payload : List Nat) : Dev :=
  if !d.bit F.TWIN_STAT_LINK_UP then d
  else
    let body := [hi * 2 ^ 16 + units * 2 ^ 8 + typ, d.mer.txSeq] ++ payload ++ List.replicate (4 * units - 3 - payload.length) 0
    let ws := body ++ [crc32c (wordsLe body)]
    { d with mer := { d.mer with txSeq := (d.mer.txSeq + 1) % 2 ^ 32, unacked := d.mer.unacked ++ [(d.mer.txSeq, ws)],
                                 ackAt := if d.mer.unacked = [] then d.time.c else d.mer.ackAt },
             out := .meridian ws (d.stripes ws) :: d.out }

/-! ### Commands of Vesper (R77, R78) -/

/-- The VESPER_LOCK of every page cleared: a command holds them only while it executes (R78). -/
def unlockAll (d : Dev) : Dev := (List.range 146).foldl (fun d p => d.put (F.BLK_LOCK_VESPER_LOCK p) false) d

/-- Argument word `n` of the command in hand. -/
def arg (d : Dev) (n : Nat) : Nat := match d.cmd with
  | some l => l.args.getD n 0
  | none => 0

/-- Whether Vesper holds a command of this code. -/
def executing (d : Dev) (code : Nat) : Bool := match d.cmd with
  | some l => l.code = code
  | none => false

/-- Vesper holds no command any more. -/
def dropCmd (d : Dev) : Dev := { d with cmd := none }

/-- Completion of the command in hand: CMD_RETn, RESULT and TAG, BUSY cleared, CMD_DONE with FLAGS bit 8; a result other than OK is recorded on
the CMD page (R78). -/
def complete (d : Dev) (e : Err) (detail : Nat := 0) (rets : List Nat := []) : Dev := match d.cmd with
  | none => d
  | some l =>
    let d := (List.range 4).foldl (fun d n => d.set (F.CMD_RET_RET n) (rets.getD n 0)) d
    let d := ((d.set F.CMD_STATUS_RESULT e.code).set F.CMD_STATUS_TAG l.tag).put F.CMD_STATUS_BUSY false
    let d := d.unlockAll.dropCmd
    let d := if e = .ok then d else d.error 1 e detail .command l.code
    if l.flags % 2 = 1 then d.raise 1 3 else d

end Dev

end Sys2Proof.Machine
end

