-- ==== Sys2Proof/Machine/Operands.lean ====
section
/-! DEFINITION. The operand forms the commands share: the gate that every register write passes (page, feature, lock), the device-state sets that
rules name, and the argument fields of Vesper commands. -/

namespace Sys2Proof.Machine

/-- The feature bit that governs a page (Table regs-22); none for the always-enabled pages. -/
def governing (page : Nat) : Option Nat :=
  if alwaysEnabled page then none
  else if 0x28 ≤ page ∧ page ≤ 0x2B then some 2
  else if page = 0x2C then some 3
  else if page = 0x39 ∨ (0x40 ≤ page ∧ page ≤ 0x7F) then some 5
  else if page = 0x0D then some 19
  else if page = 0x0E then some 20
  else if page = 0x0C then some 16
  else if page = 0x90 then some 3
  else some 0

/-- Whether a page serves OFFLINE_REQ (Table regs-1). -/
def servesOffline (page : Nat) : Bool :=
  (0x0A ≤ page && page ≤ 0x2C) || (0x40 ≤ page && page ≤ 0x7F) || (0x81 ≤ page && page ≤ 0x88)

namespace Dev

/-- DEV_STATE is one of those in which the device sorts: RUNNING, TWILIGHT, ECLIPSE. -/
def sorting (d : Dev) : Bool := d.state = 5 || d.state = 6 || d.state = 7

/-- CONFIGURED to SERVICE (R79). -/
def configuredToService (d : Dev) : Bool := 4 ≤ d.state && d.state ≤ 8

/-- The block of a page runs: ENABLE = 1 and its governing feature accepted (R58). -/
def enabled (d : Dev) (page : Nat) : Bool :=
  d.bit (F.BLK_CTRL_ENABLE page) && (match governing page with | none => true | some b => d.feat b)

def offline (d : Dev) (page : Nat) : Bool := d.bit (F.BLK_STAT_OFFLINE page)
def frozen (d : Dev) (page : Nat) : Bool := d.bit (F.BLK_CTRL_FREEZE page)
def testing (d : Dev) (page : Nat) : Bool := d.bit (F.BLK_STAT_TEST page)

/-- Learning on the table of this calibration kind is held: while it is restored, and for at most 10 ms while it is copied (R474, R477). -/
def learnHeld (d : Dev) (kind : Nat) : Bool :=
  d.calInHand 0x51 kind || (d.calInHand 0x50 kind && (match d.cmd with | some l => decide (d.elapsed l.t0 ≤ 10000000) | none => false))

/-- The block of a page adapts its table of this kind: neither FREEZE nor Vesper holds it. -/
def learns (d : Dev) (page kind : Nat) : Bool := !d.frozen page && !d.learnHeld kind

/-- What stands between a write to offset `off` of `page` and its register (R54, R58, R65, R543): nothing, a silent drop, or a refusal with an
error. The feature is checked before the lock, the lock before VESPER_LOCK (log entry 9, DEDUCED). -/
inductive Gate where
  | pass | drop | refuse (e : Err)
  deriving DecidableEq, Repr

def gate (d : Dev) (page off : Nat) : Gate :=
  if !pageImplemented page then .drop
  else if d.state = 1 && page ≠ 0 && page ≠ 7 && page ≠ 8 then .drop
  else if (match governing page with | none => false | some b => !d.feat b) && off ≠ 0x34 then .refuse .feature
  else if d.bit (F.BLK_LOCK_LOCK page) && off ≠ 0x30 && off ≠ 0x18 && off ≠ 0x1C && off ≠ 0x2C && off ≠ 0x34 then .refuse .locked
  else if d.bit (F.BLK_LOCK_VESPER_LOCK page) && 0x40 ≤ off then .refuse .busy
  else .pass

/-- A register write at `off` of `page` whose effect past the gate is `f`. -/
def gated (d : Dev) (page off : Nat) (f : Dev → Dev) : Dev :=
  match d.gate page off with
  | .pass => f d
  | .drop => d
  | .refuse e => d.refuse page off e

/-- The value of field `f` in a register word. -/
def fieldOf (f : Fld) (word : Nat) : Nat := bitsAt word f.lsb f.width

/-- The fields of `fs` written from a register word. -/
def putFields (d : Dev) (word : Nat) (fs : List Fld) : Dev := fs.foldl (fun d f => d.set f (fieldOf f word)) d

/-- The 40-bit instant that a LO and a HI field hold. -/
def st40At (d : Dev) (lo hi : Fld) : Nat := d.get lo + d.get hi % 256 * 2 ^ 32

/-- A 64-bit instant written to a LO and a HI field. -/
def setDt (d : Dev) (lo hi : Fld) (t : Nat) : Dev := (d.set lo (t % 2 ^ 32)).set hi (t / 2 ^ 32)

end Dev

end Sys2Proof.Machine
end

