-- ==== Sys2Proof/Machine/Nvm.lean ====
section
/-! DEFINITION. The calibration store (R470–R472): records in MRAM, the validity of their slots, the newest of a key. -/

namespace Sys2Proof.Machine

/-- Where a unit of the calibration area lies in MRAM (R471). -/
def unitAt (u : Nat) : Nat := 0x10_0000 + u * 0x1_0000

def recMagic : Nat := 0x4C41_4356

namespace Dev

/-- Word i of the header of the record in a slot (Table cal-2). -/
def recWord (d : Dev) (s : NvmSlot) (i : Nat) : Nat := d.mramWord (unitAt s.start + 4 * i)

def recGen (d : Dev) (s : NvmSlot) : Nat := d.recWord s 2
def recLen (d : Dev) (s : NvmSlot) : Nat := d.recWord s 3
def recPayload (d : Dev) (s : NvmSlot) : List Nat := d.mramBytes (unitAt s.start + 64) (d.recLen s)

/-- Whether the slot holds a valid record of its key (R472). -/
def slotValid (d : Dev) (k : NvmKey) (s : NvmSlot) : Bool :=
  !s.torn && decide (d.recWord s 0 = recMagic ∧ d.recWord s 1 = k.inst * 65536 + 0x100 + k.kind ∧ 64 + d.recLen s ≤ s.units * 65536)
    && decide (d.recWord s 15 = crc32c (d.mramBytes (unitAt s.start) 0x3C ++ d.recPayload s))

def validA (d : Dev) (k : NvmKey) : Bool := match k.a with | some s => d.slotValid k s | none => false
def validB (d : Dev) (k : NvmKey) : Bool := match k.b with | some s => d.slotValid k s | none => false

/-- Whether slot B holds the newest record of the key: the valid one with the greater GEN by signed difference (R472). -/
def newestB (d : Dev) (k : NvmKey) : Bool := match k.a, k.b with
  | some a, some b => d.validB k && (!d.validA k || decide (0 < sgn 32 ((d.recGen b + 2 ^ 32 - d.recGen a) % 2 ^ 32)))
  | none, some _ => d.validB k
  | _, _ => false

def nvmKey (d : Dev) (kind inst : Nat) : Option NvmKey := d.nvmKeys.find? (fun k => decide (k.kind = kind ∧ k.inst = inst))

/-- The slot of the key's newest valid record. -/
def newest (d : Dev) (kind inst : Nat) : Option NvmSlot := match d.nvmKey kind inst with
  | none => none
  | some k => if d.newestB k then k.b else if d.validA k then k.a else none

end Dev

end Sys2Proof.Machine
end

