-- ==== Sys2Proof/Machine/Background.lean ====
section
/-! DEFINITION. The tables of line correction in BAR2 (R139, R155, R160), the background array and what is stale in it, and the illumination
proposals that a closed interval makes (R478–R481). -/

namespace Sys2Proof.Machine

/-- Where the coefficient entry of a port, band and column lies in bank n (R139). -/
def coefOff (n p b x : Nat) : Nat := 0x4_4100_0000 + n * 0x40_0000 + ((p * 4 + b) * 16384 + x) * 4

/-- Where the background entry lies (R155). -/
def bgOff (p b x : Nat) : Nat := 0x4_4180_0000 + ((p * 4 + b) * 16384 + x) * 4

/-- A coefficient entry (Table cor-2): GAIN, dark level, DEFECT. -/
structure Coef where
  gain   : Nat := 0
  dark   : Nat := 0
  defect : Nat := 0
  deriving DecidableEq, Repr

/-- A background entry (Table cor-3). -/
structure BgEntry where
  bg    : Nat
  noise : Nat
  age   : Nat
  deriving DecidableEq, Repr

def coefOfWord (w : Nat) : Coef := ⟨bitsAt w 11 13, 16 * bitsAt w 2 9, bitsAt w 0 2⟩
def bgOfWord (w : Nat) : BgEntry := ⟨bitsAt w 16 16, bitsAt w 4 12, bitsAt w 0 4⟩
def bgWord (e : BgEntry) : Nat := e.bg * 65536 + e.noise % 4096 * 16 + e.age % 16

/-- The columns of zone z of a line (R152). -/
def zoneCols (len z : Nat) : List Nat := (List.range ((z + 1) * len / 16 - z * len / 16)).map (z * len / 16 + ·)

namespace Dev

def bgAt (d : Dev) (p b x : Nat) : BgEntry := bgOfWord (d.read (bgOff p b x) 4)
def setBg (d : Dev) (p b x : Nat) (e : BgEntry) : Dev := d.write (bgOff p b x) 4 (bgWord e)

/-- A background entry is stale (R157), by the limit in force since the last row slot (R166). -/
def bgStale (d : Dev) (e : BgEntry) : Bool := decide (d.staleAge ≤ e.age)

/-- Stale entries in use: enabled ports, bands below the band count, columns below LINE_LEN (R157). -/
def staleCols (d : Dev) : Nat :=
  ((List.range 16).filter (fun p => d.bit (F.BLK_CTRL_ENABLE (16 + p)))).foldl (fun n p =>
    (List.range (d.get (F.CXP_FORMAT_BANDS p) + 1)).foldl (fun n b =>
      n + ((List.range (d.get (F.CXP_FORMAT_LINE_LEN p))).filter (fun x => d.bgStale (d.bgAt p b x))).length) n) 0

/-- COR_BG_STALE.COLS, BLK_STAT.STALE and BG_STALE follow the array (R157). -/
def refreshStale (d : Dev) : Dev :=
  let was := d.get F.COR_BG_STALE_COLS
  let n := d.staleCols
  let d := (d.set F.COR_BG_STALE_COLS n).put (F.BLK_STAT_STALE 0x30) (decide (0 < n))
  if was = 0 ∧ 0 < n then d.raise 0x30 5 else d

/-! ### Illumination drift (R479–R481) -/

/-- The ratio of a zone as a pair of sums over the same entries: now and in the newest kind 1 record, which lies by the LINE_LEN and BANDS of its own
header; an entry that the record does not hold is left out (R479). -/
def zoneRatio (d : Dev) (p b z : Nat) : Option (Nat × Nat) :=
  match d.newest 1 p with
  | none => none
  | some s =>
    let len := d.recWord s 4 % 65536
    let xs := zoneCols (d.get (F.CXP_FORMAT_LINE_LEN p)) z
    let live := xs.filter (fun x => !d.bgStale (d.bgAt p b x))
    let both := live.filter (fun x => decide (x < len))
    if d.get (F.CXP_FORMAT_BANDS p) < b ∨ d.recWord s 4 / 65536 ≤ b ∨ xs.length ≤ 2 * (xs.length - live.length) ∨ both = [] then none
    else some ((both.map (fun x => (d.bgAt p b x).bg)).sum,
      (both.map (fun x => (bgOfWord (d.mramWord (unitAt s.start + 64 + (b * len + x) * 4))).bg)).sum)

/-- |r − 1| ≤ DEAD ÷ 1,000 for r = a ÷ c (R479). -/
def inDead (d : Dev) (a c : Nat) : Bool := decide (((a : Int) - c).natAbs * 1000 ≤ d.get F.CAL_ILLUM_DEAD * c)

/-- The mean of ratios as one fraction. -/
def meanRatio (rs : List (Nat × Nat)) : Nat × Nat :=
  let s := rs.foldl (fun (a : Nat × Nat) r => (a.1 * r.2 + r.1 * a.2, a.2 * r.2)) (0, 1)
  (s.1, s.2 * rs.length)

/-- `v` ÷ (a ÷ c), rounded; a free value where a is 0. -/
def scaled (d : Dev) (v a c : Nat) : Int := if a = 0 then d.freeVal 16 else roundTie (v * c) a

/-- The proposal of lamp n (R480). -/
def lampPropose (d : Dev) (n : Nat) : Dev :=
  let d := d.put (F.CAL_LAMP_PROP_VALID n) false
  if !d.bit (F.CAL_LAMP_MAP_EN n) || d.testBit F.TRIM_HELD_HELD n then d
  else
    let p := d.get (F.CAL_LAMP_MAP_PORT n); let b := d.get (F.CAL_LAMP_MAP_BAND n)
    let rs := (List.range 16).filterMap (fun z => if d.testBit (F.CAL_LAMP_MAP_ZONES n) z then d.zoneRatio p b z else none)
    let r := meanRatio rs
    if rs = [] ∨ d.inDead r.1 r.2 then d
    else
      let now : Int := d.get (F.TRIM_CODE_NOW n); let step : Int := d.get F.CAL_ILLUM_LIM_TRIM_STEP
      let v := clampI 0 16383 (clampI (now - step) (now + step) (d.scaled (d.get (F.TRIM_CODE_NOW n)) r.1 r.2))
      (((d.set (F.CAL_LAMP_PROP_CODE n) v.toNat).put (F.CAL_LAMP_PROP_VALID n) true).freeUsed).raise 9 5

/-- One coefficient entry stepped towards its zone's ratio (R481). -/
def stepGain (n p b : Nat) (r : Nat × Nat) (d : Dev) (x : Nat) : Dev :=
  let a := coefOff n p b x
  let w := d.read a 4
  let c := coefOfWord w
  if c.defect ≠ 0 then d
  else
    let step : Int := d.get F.CAL_ILLUM_LIM_GAIN_STEP
    let g := clampI 0 8191 (clampI (c.gain - step) (c.gain + step) (d.scaled c.gain r.1 r.2))
    (d.write a 4 (g.toNat * 2 ^ 11 + w % 2 ^ 11)).freeUsed

/-- The tap proposal: the inactive bank becomes a stepped copy of the bank in force (R481). `dt`: the trigger DT of the closing row slot. An interval in
which no ratio proposes a step replaces an earlier proposal by none; while a COR swap is pending the inactive bank is left alone, as R140 bars the driver
from it (log entry 48, DEDUCED). -/
def tapPropose (d : Dev) (dt : Nat) : Dev :=
  let act := d.get F.COR_SWAP_ACTIVE
  let rs := (List.range 16).flatMap (fun p => (List.range 4).flatMap (fun b => (List.range 16).filterMap (fun z =>
    match d.zoneRatio p b z with
    | some r => if d.inDead r.1 r.2 then none else some (p, b, z, r)
    | none => none)))
  if d.bit F.COR_SWAP_PEND then d
  else if rs = [] then { d.put F.CAL_ILLUM_PROPOSAL false with illumDt := dt }
  else
    let d := d.copyMem (coefOff act 0 0 0) (coefOff (1 - act) 0 0 0) 0x40_0000
    let d := rs.foldl (fun d e =>
      (zoneCols (d.get (F.CXP_FORMAT_LINE_LEN e.1)) e.2.2.1).foldl (stepGain (1 - act) e.1 e.2.1 e.2.2.2) d) d
    ({ d.put F.CAL_ILLUM_PROPOSAL true with illumDt := dt }).raise 9 5

/-- The proposals at an increment of COR_BG_ZONE.SEQ (R479). -/
def illumPropose (d : Dev) (dt : Nat) : Dev :=
  let m := d.get F.CAL_ILLUM_METHOD
  if m = 1 then
    if d.feat 20 then (List.range 16).foldl lampPropose d else d.hwError 9 .feature 0
  else if m = 2 then d.tapPropose dt
  else d

end Dev

end Sys2Proof.Machine
end

