-- ==== Sys2Proof/Machine/Token.lean ====
section
/-! DEFINITION. The ownership token as the Meteor ports and the planner see it (R350, R504–R506, R513, R515), and the service level with the views
lost (R71, R520, R526). -/

namespace Sys2Proof.Machine

/-- Whether EPOCH a is greater than b (R348, R506). -/
def epochAfter (a b : Nat) : Bool := decide (1 ≤ (a + 65536 - b % 65536) % 65536 ∧ (a + 65536 - b % 65536) % 65536 ≤ 32767)

namespace Dev

/-- The device is a lead, or sorts alone: it resolves misses at the deadline (R251, Table twin-1). -/
def role (d : Dev) : Nat := d.get F.TWIN_STAT_ROLE
def isShadow (d : Dev) : Bool := d.feat 1 && d.role = 2
def isLead (d : Dev) : Bool := d.feat 1 && d.role = 1

/-- CLAIM and EPOCH of the beacons (R350). -/
def claims (d : Dev) : Bool := if d.feat 1 then d.bit F.TWIN_TOKEN_HELD else d.state ≠ 8 && d.state ≠ 15
def epochOut (d : Dev) : Nat := if d.feat 1 then d.get F.TWIN_TOKEN_EPOCH else 1

/-- The role changes: the instant is kept and ROLE_CHG raised (R513). -/
def setRole (d : Dev) (r : Nat) : Dev := ((d.set F.TWIN_STAT_ROLE r).setDt F.TWIN_ROLE_DT_LO_DT F.TWIN_ROLE_DT_HI_DT d.now).raise 0x90 3

/-- The device stops claiming: DEPOSED (R515). -/
def depose (d : Dev) : Dev :=
  (((d.set F.TWIN_STAT_ROLE 4).put F.TWIN_TOKEN_HELD false).count F.TWIN_CNT_DEPOSED_COUNT).raise 0x90 9

/-- A join under way is abandoned (R523). -/
def abandonJoin (d : Dev) : Dev :=
  let p := d.get F.TWIN_JOIN_STAT_PHASE
  if p = 0 ∨ p = 4 then d
  else ({ d with mer := { d.mer with back := [] } }.set F.TWIN_JOIN_STAT_PHASE 0).put F.TWIN_STAT_CATCHUP false

/-- What a lead does on the ownership that a module reports (R515). -/
def ownerReport (d : Dev) (owned conflict : Bool) (side epochLow : Nat) : Dev :=
  let own := d.get F.TWIN_TOKEN_EPOCH % 256
  let me := d.get F.DEV_STRAPS_TWIN_SIDE
  if !d.isLead then d
  else if owned && side ≠ me && epochLow ≠ own then d.depose
  else if (owned && side ≠ me && epochLow = own) || conflict then
    if me = 1 then d.depose else d.count F.TWIN_TOKEN_EPOCH
  else d

/-! ### Levels and views (R71, R520, R526) -/

/-- The level of the present state: 0 none, 1 FULL, 2 HALF-SKY, 3 TWILIGHT, 4 ECLIPSE. -/
def levelNow (d : Dev) : Nat :=
  if d.state = 5 then (if d.get F.MODE_LEVEL_VIEW_LOST = 0 then 1 else 2) else if d.state = 6 then 3 else if d.state = 7 then 4 else 0

/-- HALF and LEVEL follow the state and the views; a change of level is kept with its cause and raised (R526). -/
def levelUpdate (d : Dev) (cause detail : Nat) : Dev :=
  let d := d.put F.MODE_LEVEL_HALF (d.get F.MODE_LEVEL_VIEW_LOST ≠ 0)
  let was := d.get F.MODE_LEVEL_LEVEL
  if d.levelNow = was then d
  else
    let d := ((((d.set F.MODE_LEVEL_PREV was).set F.MODE_LEVEL_LEVEL d.levelNow).set F.MODE_CAUSE_CAUSE cause).set F.MODE_CAUSE_DETAIL detail)
    (d.setDt F.MODE_DT_LO_DT F.MODE_DT_HI_DT d.now).raise 0x91 3

def viewLost (d : Dev) (g : Nat) : Bool := d.testBit F.MODE_LEVEL_VIEW_LOST g

/-- The group builds rows: its view is present, or a join has started it again. -/
def viewLive (d : Dev) (g : Nat) : Bool := !d.viewLost g || d.mer.back.contains g

/-- The ROLEs of the pair of group g as saved when the view was lost, once no group of the pair is lost (R520, log entry 51, DEDUCED). -/
def restoreRoles (d : Dev) (g : Nat) : Dev :=
  (List.range 8).foldl (fun d l =>
    let u := d.get (F.TRAJ_GCFG_PARTNER l)
    if d.get (F.MODE_ROLE_SAVE_ROLE l) = 2 ∧ (g = l ∨ g = u) ∧ !d.viewLost l ∧ !d.viewLost u then
      (d.set (F.TRAJ_GCFG_ROLE l) (d.get (F.MODE_ROLE_SAVE_ROLE l))).set (F.TRAJ_GCFG_ROLE u) (d.get (F.MODE_ROLE_SAVE_ROLE u))
    else d) d

/-- A view returns: its bit clears and the ROLEs of its pair come back; the level follows with cause `cause` (R520). -/
def viewBack (d : Dev) (g cause : Nat) : Dev :=
  ((d.putBit F.MODE_LEVEL_VIEW_LOST g false).restoreRoles g).levelUpdate cause 0

end Dev

end Sys2Proof.Machine
end

