-- ==== Sys2Proof/Machine/Camera.lean ====
section
/-! DEFINITION. Camera ports and line triggering (R81–R119): link-up, trigger generators, line accounting, row slots, the control channel. -/

namespace Sys2Proof.Machine

/-- The page of camera port p and of generator p. -/
abbrev cxp (p : Nat) : Nat := 16 + p

namespace Dev

/-! ### Port state (R84) -/

def portState (d : Dev) (p : Nat) : Nat := d.get (F.BLK_STAT_STATE (cxp p))
def setPortState (d : Dev) (p s : Nat) : Dev := d.set (F.BLK_STAT_STATE (cxp p)) s

/-- READY or STREAMING. -/
def portUp (d : Dev) (p : Nat) : Bool := d.portState p = 4 || d.portState p = 5

/-- The port sends trigger packets and its triggers wait for lines (R96). -/
def portLive (d : Dev) (p : Nat) : Bool := d.portUp p && !d.offline (cxp p) && !d.testing (cxp p)

def groupOf (d : Dev) (p : Nat) : Nat := d.get (F.CXP_CTRL_GROUP p)

/-- The ports of a stitch group (GRP_PORTS). -/
def portsOf (d : Dev) (g : Nat) : List Nat := (List.range 16).filter (fun p => d.groupOf p = g)

def relayed (d : Dev) (p : Nat) : Bool := d.bit (F.CXP_CTRL_RELAYED p)

/-- The group's ports are relayed: the partner hosts it (GRP_CTRL.REMOTE). -/
def groupRemote (d : Dev) (g : Nat) : Bool := (d.portsOf g).any d.relayed

/-- Whether port p's lines go to the partner (R105). -/
def relaysOut (d : Dev) (p : Nat) : Bool := d.feat 1 && p < 8 && d.bit (F.CXP_RELAY_RLY_EN p)

/-- Both devices of a twin process the group: its ports are relayed to the partner or from it (R516). -/
def groupShared (d : Dev) (g : Nat) : Bool := d.feat 1 && (d.portsOf g).any (fun p => d.relaysOut p || d.relayed p)

/-! ### Streams and bands (R87) -/

/-- The bands of a port: 0 to BANDS. -/
def bands (d : Dev) (p : Nat) : List Nat := List.range (d.get (F.CXP_FORMAT_BANDS p) + 1)

/-- The stream IDs of a port, each once, in band order. -/
def streams (d : Dev) (p : Nat) : List Nat := ((d.bands p).map (fun b => d.get (F.CXP_STREAM_ID_SID p b))).eraseDups

/-- Components per pixel of a stream: 1 plus the largest COMP among its bands. -/
def compsOf (d : Dev) (p sid : Nat) : Nat :=
  ((d.bands p).filter (fun b => d.get (F.CXP_STREAM_ID_SID p b) = sid)).foldl (fun m b => max m (d.get (F.CXP_BAND_COMP_COMP p b) + 1)) 0

/-- Samples in a line of a stream. -/
def lineTotal (d : Dev) (p sid : Nat) : Nat := d.get (F.CXP_FORMAT_LINE_LEN p) * d.compsOf p sid

/-- The number of a stream in a ledger record. -/
def streamIdx (d : Dev) (p sid : Nat) : Nat := (d.streams p).findIdx (· = sid)

/-- A sample as the device carries it: 16 bits, aligned to the most significant bit (R88). -/
def widen (d : Dev) (p v : Nat) : Nat :=
  let n := 8 + 2 * d.get (F.CXP_FORMAT_SAMPLE_BITS p)
  v % 2 ^ n * 2 ^ (16 - n)

/-! ### Trigger records -/

/-- The slots of a trigger record with state `st` on every stream. -/
def freshSlots (d : Dev) (p : Nat) (st : LineSt) : List StreamSlot := (d.streams p).map (fun s => ⟨s, st, [], 0⟩)

def mapSlot (sid : Nat) (f : StreamSlot → StreamSlot) (e : TrigEntry) : TrigEntry :=
  { e with slots := e.slots.map (fun x => if x.sid = sid then f x else x) }

/-- The slot of stream `sid` in the record of trigger `index` changed by `f`. -/
def updSlot (d : Dev) (p index sid : Nat) (f : StreamSlot → StreamSlot) : Dev :=
  let x := d.port p
  d.setPort p { x with fifo := x.fifo.map (fun e => if e.index = index then mapSlot sid f e else e) }

/-- A LEDGER record for a line of a relayed-out port (R105, Table twin-2): the receiver's port is p XOR 8. -/
def ledgerOut (d : Dev) (p sid seq index disp : Nat) : Dev :=
  if d.relaysOut p then d.merSend 0x11 ((p ^^^ 8) + d.streamIdx p sid % 4 * 16 + disp * 256) 2 [seq, index] else d

/-- A stream's line for a trigger is missing: counted, SYNTH_LINE raised (Table cam-4). -/
def countMissing (d : Dev) (p sid index disp : Nat) : Dev :=
  ((d.count (F.CXP_CNT_MISSING_COUNT p)).raise (cxp p) 7).ledgerOut p sid 0 index disp

/-- Every unmatched slot of port p that `late` picks becomes missing (R98, R100). -/
def markMissing (d : Dev) (p disp : Nat) (late : TrigEntry → StreamSlot → Bool) : Dev :=
  let x := d.port p
  let hit := x.fifo.flatMap (fun e => (e.slots.filter (fun s => s.st = .unmatched && late e s)).map (fun s => (s.sid, e.index)))
  let fifo := x.fifo.map (fun e => { e with slots := e.slots.map (fun s =>
    if s.st = .unmatched && late e s then { s with st := .missing } else s) })
  hit.foldl (fun d h => d.countMissing p h.1 h.2 disp) (d.setPort p { x with fifo := fifo })

/-- LAT_MIN and LAT_MAX of a port in 2^-16 ns. -/
def latMin (d : Dev) (p : Nat) : Nat := d.get (F.CXP_LAT_LAT_MIN p) * 10 * 2 ^ 16
def latMax (d : Dev) (p : Nat) : Nat := d.get (F.CXP_LAT_LAT_MAX p) * 10 * 2 ^ 16

/-! ### Lines (R89, R98, R100) -/

def rxOf (x : Port) (sid : Nat) : RxStream := (x.rx.find? (fun r => r.sid = sid)).getD { sid := sid }

def setRx (d : Dev) (p : Nat) (r : RxStream) : Dev :=
  let x := d.port p
  d.setPort p { x with rx := r :: x.rx.filter (fun q => q.sid ≠ r.sid) }

/-- The line in progress on a stream ends: complete, short, or synthetic for a CRC error (Table cam-4). -/
def endLine (d : Dev) (p sid : Nat) : Dev :=
  let r := rxOf (d.port p) sid
  let full := r.got.length ≥ d.lineTotal p sid
  match r.dest with
  | .drop | .done => d.setRx p { r with busy := false }
  | .held =>
    let x := d.port p
    (d.setPort p { x with held := x.held ++ [⟨sid, r.seq, r.got, full, r.bad⟩] }).setRx p { r with busy := false }
  | .slot index =>
    let st : LineSt := if r.bad then .crcBad else if full then .complete else .short
    let d := (d.setRx p { r with busy := false, dest := .drop }).updSlot p index sid (fun s => { s with st := st, line := r.got, seq := r.seq })
    let d := if full then d else d.count (F.CXP_CNT_SHORT_COUNT p)
    let d := if r.bad then d.count (F.CXP_CNT_CRC_COUNT p) else d
    let d := if full && !r.bad then d else d.raise (cxp p) 7
    d.ledgerOut p sid r.seq index (if r.bad then 5 else if !full then 3 else if r.isLong then 4 else 0)

/-- A packet with a CRC error brings excess of a line that has all its pixels: that line has a sample in the packet and becomes synthetic while
its slot is not released, or while it waits for its ledger record (Table cam-4). -/
def excessBad (d : Dev) (p sid : Nat) : Dev :=
  let r := rxOf (d.port p) sid
  let x := d.port p
  if x.held.any (fun h => h.sid = sid && h.seq = r.seq && !h.bad) then
    d.setPort p { x with held := x.held.map (fun h => if h.sid = sid && h.seq = r.seq then { h with bad := true } else h) }
  else match x.fifo.find? (fun e => e.slots.any (fun s => s.sid = sid && s.seq = r.seq && s.st = .complete)) with
    | none => d
    | some e => (((d.updSlot p e.index sid (fun s => { s with st := .crcBad })).count (F.CXP_CNT_CRC_COUNT p)).raise (cxp p) 7).ledgerOut p sid r.seq e.index 5

/-- Lines that the port buffers: matched, with samples to keep, and not yet released, over all its streams; a line that is synthetic whole takes
no buffer. The spec does not say which lines make up the 64 of OVERFLOW (log entry 86, DESIGN CHOICE). -/
def buffered (x : Port) : Nat :=
  (x.fifo.map (fun e => (e.slots.filter (fun s => s.st = .filling || s.st = .complete || s.st = .short)).length)).sum

/-- The first sample of a line arrives on a stream at DT `a` (2^-16 ns): it is matched to the oldest eligible trigger, or dropped (R98). On a
RELAYED port each stream counts its lines from its own start; how that count meets the host's after a restart of either side the spec leaves open
(log entry 86, DESIGN CHOICE). -/
def startLine (d : Dev) (p sid a : Nat) : Dev :=
  let r0 := rxOf (d.port p) sid
  let r := { r0 with busy := true, got := [], bad := false, isLong := false, seq := r0.seq + 1 }
  if d.portState p = 9 then d.setRx p { r with dest := .held }
  else
    let d := d.markMissing p 1 (fun e s => s.sid = sid && e.stamp + d.latMax p < a)
    match (d.port p).fifo.find? (fun e => e.slots.any (fun s => s.sid = sid && s.st = .unmatched)
        && e.stamp + d.latMin p ≤ a && a ≤ e.stamp + d.latMax p) with
    | none => (((d.setRx p { r with dest := .drop }).count (F.CXP_CNT_EXTRA_COUNT p)).raise (cxp p) 6).ledgerOut p sid r.seq 0 2
    | some e =>
      if 64 ≤ buffered (d.port p) then
        let d := (d.setRx p { r with dest := .drop }).updSlot p e.index sid (fun s => { s with st := .missing })
        ((d.count (F.CXP_CNT_OVERFLOW_COUNT p)).raise (cxp p) 7).ledgerOut p sid r.seq e.index 6
      else
        let d := (d.setRx p { r with dest := .slot e.index }).updSlot p e.index sid (fun s => { s with st := .filling })
        let d := (d.count (F.CXP_CNT_MATCHED_COUNT p)).set (F.CXP_LAST_TRIG_INDEX p) e.index
        if d.portState p = 4 then d.setPortState p 5 else d

/-- Samples of a packet taken into the line in progress; without line markers a complete line is followed by the next one (R89). `fuel` bounds
the lines that one run of samples can hold. -/
def takeSamples (d : Dev) (p sid a : Nat) (bad : Bool) : Nat → List Nat → Dev
  | 0, _ => d
  | _, [] => d
  | fuel + 1, vs =>
    let d := if (rxOf (d.port p) sid).busy then d else d.startLine p sid a
    let r := rxOf (d.port p) sid
    let total := d.lineTotal p sid
    let room := total - r.got.length
    let r1 := { r with got := r.got ++ vs.take room, bad := r.bad || bad }
    let rest := vs.drop room
    if r.marks then
      let d := if bad && !rest.isEmpty && r.dest = .done then d.excessBad p sid else d
      if rest.isEmpty || r.isLong then d.setRx p r1
      else
        let d := d.setRx p { r1 with isLong := true }
        if r.dest = .drop then d else d.count (F.CXP_CNT_LONG_COUNT p)
    else if r1.got.length < total ∨ total = 0 then d.setRx p r1
    else takeSamples ((d.setRx p r1).endLine p sid) p sid a bad fuel rest

/-- One element of an image stream packet (R89). -/
def takeItem (p sid a : Nat) (bad : Bool) (d : Dev) : PktItem → Dev
  | .header marks =>
    let d := if (rxOf (d.port p) sid).busy then d.endLine p sid else d
    d.setRx p { rxOf (d.port p) sid with marks := marks }
  | .marker => if (rxOf (d.port p) sid).busy then d.endLine p sid else d
  | .samples vs => d.takeSamples p sid a bad (vs.length + 1) (vs.map (d.widen p))

/-- A marked line that has all its pixels is complete at once; what follows is a long line (Table cam-4). -/
def closeFull (d : Dev) (p sid : Nat) : Dev :=
  let r := rxOf (d.port p) sid
  if r.busy && r.got.length ≥ d.lineTotal p sid && 0 < d.lineTotal p sid && r.dest ≠ .drop && r.dest ≠ .done then
    let d := d.endLine p sid
    d.setRx p { rxOf (d.port p) sid with busy := true, dest := .done }
  else d

/-- What arrives on a port whose relay outputs run is sent on through them, unaltered (R18, R109). -/
def relayOn (d : Dev) (p sid : Nat) (items : List PktItem) (crcOk : Bool) : Dev :=
  if p < 8 && d.bit (F.CXP_RELAY_RLY_ACTIVE p) then d.emit (.relay p sid items crcOk) else d

/-- CXP_STREAM_PACKET: an image stream packet whose first sample arrives at DT `a`. A stream that no band names is discarded (R87). -/
def streamPacket (d : Dev) (p sid a : Nat) (items : List PktItem) (crcOk : Bool) : Dev :=
  let d := d.relayOn p sid items crcOk
  if p < 16 ∧ sid ∈ d.streams p ∧ (d.portUp p ∨ d.portState p = 9) then
    (items.foldl (takeItem p sid a (!crcOk)) d).closeFull p sid
  else d

/-! ### Ports leaving service (R86) -/

/-- The line in progress on every stream of the port ends where it stands. -/
def endStreams (d : Dev) (p : Nat) : Dev := (d.streams p).foldl (fun d sid => if (rxOf (d.port p) sid).busy then d.endLine p sid else d) d

/-- The port stops following its lines: unmatched triggers are missing, matched lines end short (R86). -/
def portDown (d : Dev) (p : Nat) : Dev := (d.markMissing p 9 (fun _ _ => true)).endStreams p

/-- Connection c of port p is relayed: RLY_EN = 1 and lock, and its relay lane, 64 + 4p + c, neither withdrawn nor in TEST (R109, R110, R135). -/
def relaysConn (d : Dev) (p c : Nat) : Bool :=
  let page := 0x28 + p / 2
  d.bit (F.CXP_RELAY_RLY_EN p) && (d.port p).restartAt.isNone && d.testBit (F.CXP_LINK_LOCK p) c && !d.bit (F.BLK_CTRL_OFFLINE_REQ page)
    && !d.testing page && !d.bit (F.LANE_CFG_TEST_EN (8 + p / 2) (4 * (p % 2) + c))

/-- The relay output of port p, and RLY_ACTIVE, follow (R109, R110). -/
def relayUpdate (d : Dev) (p : Nat) : Dev :=
  if 8 ≤ p then d
  else
    let run := d.relaysConn p
    let d := (List.range 4).foldl (fun d c => d.setPin (.rly p c) (if run c then .run else .idle)) d
    d.put (F.CXP_RELAY_RLY_ACTIVE p) ((List.range (d.get (F.CXP_CTRL_CONN p) + 1)).all run)

/-- Every connection of the port holds lock. -/
def allLocked (d : Dev) (p : Nat) : Bool := (List.range (d.get (F.CXP_CTRL_CONN p) + 1)).all (d.testBit (F.CXP_LINK_LOCK p))

/-- After enable or restart a port has no previous line; the lines of before serve the triggers that still wait for their slots (R100). -/
def linesAnew (x : Port) : Port := { x with rx := [], old := x.fifo.length, prev := if x.fifo = [] then [] else x.prev }

/-- The port's page is enabled or disabled (R84, R111). -/
def portEnable (d : Dev) (p : Nat) (v : Bool) : Dev :=
  if v then
    let po := d.bit (F.CXP_CTRL_POCXP_EN p)
    let d := (d.put (F.CXP_PWR_EN_LEVEL p) po).setPort p (linesAnew (d.port p))
    if d.relayed p then d.setPortState p 9
    else (d.setPort p { d.port p with since := d.time.c }).setPortState p (if po then 1 else 2)
  else
    let d := (d.portDown p).setPortState p 0
    ((d.put (F.CXP_PWR_EN_LEVEL p) false).set (F.CXP_LINK_SPEED p) 0).setPort p { linesAnew (d.port p) with downAt := none, restartAt := none }

/-- The link-up sequence of a restart: from POWER_WAIT, from DISCOVERY without power over the cable, or with ARG0 bit 9 from LINK_CHECK with the
last rate (R114). -/
def restartLink (d : Dev) (p : Nat) : Dev :=
  let po := d.bit (F.CXP_CTRL_POCXP_EN p)
  let keep := d.executing 0x40 && d.arg 0 / 512 % 2 = 1
  let d := d.put (F.CXP_PWR_EN_LEVEL p) po
  (d.setPortState p (if keep then 3 else if po then 1 else 2)).setPort p { d.port p with since := d.time.c, lockSince := d.time.c }

/-- The temporal filter and the kept lines of a port begin anew (R149, R172). -/
def restartHistory (d : Dev) (p : Nat) : Dev :=
  { d with tmState := d.tmState.filter (fun e => e.1 / 4 ≠ p), geoHist := d.geoHist.filter (fun e => e.1 ≠ p) }

/-- CXP_POWER_WAIT_EXPIRY: 500 ms after power enable discovery begins (R84); in a restart with power held low, power returns (R113). -/
def powerWaitExpiry (d : Dev) (p : Nat) : Dev :=
  if d.portState p = 6 ∧ 500000000 ≤ d.elapsed (d.port p).since then d.restartLink p
  else if d.portState p = 1 ∧ 500000000 ≤ d.elapsed (d.port p).since then
    (d.setPortState p 2).setPort p { d.port p with since := d.time.c }
  else d

/-- CXP_DISCOVERY: the camera answers with its rates (bit c: rate code c) and its connection count (R84, R85). Nothing is asked, and so nothing
answered, over an uplink that is idle (R135). What SPEED shows while discovery runs at CXP-1 the spec leaves open: here the rate last set, 0 after an
enable (log entry 86, DESIGN CHOICE). -/
def discovery (d : Dev) (p : Nat) (answered : Bool) (rates conns : Nat) : Dev :=
  if d.portState p = 2 ∧ answered ∧ d.uplink p then
    let top := ((List.range 8).filter (fun c => c ≠ 0 && c ≤ d.get (F.CXP_LINK_SPEED_MAX p) && rates / 2 ^ c % 2 = 1)).foldl max 0
    let want := d.get (F.CXP_CTRL_CONN p)
    let d := d.set (F.CXP_LINK_CONN_FOUND p) (conns - 1)
    if top = 0 ∨ conns < want + 1 then (d.hwError (cxp p) .range 1).setPort p { d.port p with since := d.time.c }
    else
      let d := (d.set (F.CXP_LINK_SPEED p) top).put (F.CXP_LINK_HSUP p) (d.feat 11)
      ((d.emit (.cxpSetup p top want)).setPortState p 3).setPort p { d.port p with since := d.time.c, lockSince := d.time.c }
  else d

/-- A port that reaches READY: LINK_UP, and PORT_RESTART completes (R114, R115). -/
def portReady (d : Dev) (p : Nat) : Dev :=
  let restarted := (d.port p).restartAt
  let d := (d.setPortState p 4).setPort p { d.port p with downAt := none, restartAt := none }
  let d := (d.raise (cxp p) 4).relayUpdate p
  match restarted with
  | some _ =>
    let d := d.restartHistory p
    if d.executing 0x40 ∧ d.arg 0 % 16 = p then
      d.complete .ok 0 [d.get (F.CXP_LINK_SPEED p) + d.get (F.CXP_CTRL_CONN p) * 256]
    else d
  | none => d

/-- CXP_LINK_READY: every connection has held lock for 1 ms (R84). -/
def linkReady (d : Dev) (p : Nat) : Dev :=
  if d.portState p = 3 ∧ d.allLocked p ∧ 1000000 ≤ d.elapsed (d.port p).lockSince then d.portReady p else d

/-- The port is down from now on, where it was not before (R520). -/
def markDown (d : Dev) (p : Nat) : Dev := if (d.port p).downAt.isSome then d else d.setPort p { d.port p with downAt := some d.time.c }

/-- CXP_LOCK_LOSS: connection c loses the lock it had; the port follows where the connection is one of its own (R86). -/
def lockLoss (d : Dev) (p c : Nat) : Dev :=
  let held := d.testBit (F.CXP_LINK_LOCK p) c
  let d := if held then (d.putBit (F.CXP_LINK_LOCK p) c false).relayUpdate p else d
  if !held || d.get (F.CXP_CTRL_CONN p) < c then d
  else if d.portUp p then
    let d := (d.portDown p).setPortState p 7
    ((d.setPort p { d.port p with since := d.time.c }).markDown p).raise (cxp p) 3
  else if d.portState p = 9 then (d.endStreams p).markDown p
  else d

/-- CXP_RELINK: lock is back on every connection within 10 ms of the first loss, with AUTO_RELINK = 1 (R86). -/
def relink (d : Dev) (p : Nat) : Dev :=
  if d.portState p = 7 ∧ d.bit (F.CXP_CTRL_AUTO_RELINK p) ∧ d.allLocked p ∧ d.elapsed (d.port p).since ≤ 10000000 then d.portReady p
  else d

/-- CXP_RELINK_TIMEOUT: lock has not returned within 10 ms; the port stays in LINK_LOST, and no later lock brings it back (R86). -/
def relinkTimeout (d : Dev) (p : Nat) : Dev :=
  if d.portState p = 7 ∧ 10000000 < d.elapsed (d.port p).since then d.setPortState p 7 else d

/-- CXP_PWR_FAULT: CXPpp_PWR_FLT_N low for 1 µs, or high again (R111). -/
def pwrFault (d : Dev) (p : Nat) (low : Bool) : Dev :=
  if low then
    let d := ((d.put (F.CXP_PWR_FLT p) true).put (F.CXP_PWR_EN_LEVEL p) false).put (F.CXP_CTRL_POCXP_EN p) false
    let d := ((d.put (F.CXP_PWR_FLT_LATCH p) true).countSat (F.CXP_PWR_FLT_CNT p)).raise (cxp p) 5
    if d.portState p = 0 ∨ d.portState p = 9 then d else ((d.portDown p).setPortState p 8).markDown p
  else d.put (F.CXP_PWR_FLT p) false

/-- POCXP_EN_WRITE: a write of CXP_CTRL.POCXP_EN (R111, R112). -/
def pocxpEnWrite (d : Dev) (p : Nat) (v : Bool) : Dev :=
  d.gated (cxp p) 0x40 (fun d =>
    if v then
      if d.bit (F.CXP_PWR_FLT_LATCH p) ∨ d.bit (F.CXP_PWR_FLT p) then d.refuse (cxp p) 0x40 .state
      else
        let d := d.put (F.CXP_CTRL_POCXP_EN p) true
        if d.portState p = 0 then d
        else
          let d := d.put (F.CXP_PWR_EN_LEVEL p) true
          if d.portState p = 8 then ((d.setPortState p 1).setPort p { linesAnew (d.port p) with since := d.time.c }).restartHistory p else d
    else (d.put (F.CXP_CTRL_POCXP_EN p) false).put (F.CXP_PWR_EN_LEVEL p) false)

/-- PORT_RESTART (0x40): the port is RESTARTING, its triggers missing, its relay output idle; ARG0 bit 8 first holds power low for 500 ms. -/
def portRestart (d : Dev) : Dev :=
  if !d.executing 0x40 || (d.port (d.arg 0 % 16)).restartAt.isSome then d
  else
    let p := d.arg 0 % 16
    if d.relayed p then d.complete .state 3
    else if !d.bit (F.BLK_CTRL_ENABLE (cxp p)) then d.complete .state 4
    else
      let d := ((d.portDown p).setPortState p 6).markDown p
      let d := d.setPort p { linesAnew (d.port p) with restartAt := some d.time.c, since := d.time.c }
      let d := (d.restartHistory p).relayUpdate p
      if d.arg 0 / 256 % 2 = 1 then d.put (F.CXP_PWR_EN_LEVEL p) false else d.restartLink p

/-! ### Trigger generators (R90–R97) -/

/-- The step of a generator in force: STEP and FRAC in 1/65,536 ns or count, as the last write of TGEN_STEP took them together (R95). -/
def genStep (d : Dev) (g : Nat) : Nat := (d.gen g).step

def genDelay (d : Dev) (g : Nat) : Nat := d.get (F.TGEN_DELAY_DELAY g) * 2 ^ 16
def genMinInt (d : Dev) (g : Nat) : Nat := d.get (F.TGEN_MIN_INT_MIN_INT g) * 10 * 2 ^ 16
def genRunning (d : Dev) (g : Nat) : Bool := d.bit (F.TGEN_CTRL_RUNNING g)

/-- A trigger of index `idx` at `t` reaches one port: packet, trigger record, TRIG record to the partner (R96, R105). -/
def trigToPort (g idx t : Nat) (d : Dev) (p : Nat) : Dev :=
  if d.get (F.CXP_CTRL_TRIG_SRC p) ≠ g then d
  else
    let live := d.portLive p
    let at_ := (((t : Int) + d.getS (F.CXP_TRIG_OFS_OFS p) * 2 ^ 14)).toNat
    let d := if live then d.emit (.trigPacket p idx at_ (d.bit (F.TGEN_CTRL_FINE g) && d.feat 12)) else d
    let d := if d.relaysOut p && !d.relayed p then d.merSend 0x10 (p ^^^ 8) 2 [idx, t / 2 ^ 16 % 2 ^ 32, t / 2 ^ 48] else d
    if d.groupOf p = 15 ∨ d.portState p = 9 then d
    else
      let x := d.port p
      let d := d.setPort p { x with fifo := x.fifo ++ [⟨idx, t, d.freshSlots p .unmatched⟩] }
      if live then d else d.markMissing p 9 (fun e _ => e.index = idx)

/-- A trigger is issued at instant `t` (R96). -/
def issueTrigger (d : Dev) (g t : Nat) : Dev :=
  let x := d.gen g
  let d := d.setGen g { x with last := some t, nextIndex := (x.nextIndex + 1) % 2 ^ 32, postponed := false }
  let d := (d.set (F.TGEN_INDEX_INDEX g) x.nextIndex).setDt (F.TGEN_LAST_LO_DT_LO g) (F.TGEN_LAST_HI_DT_HI g) (t / 2 ^ 16)
  let d := if d.bit (F.TGEN_CTRL_OUT_EN g) then d.emit (.pulse (.trigOut g) (d.get (F.TGEN_OUT_WIDTH_WIDTH g))) else d
  (List.range 16).foldl (trigToPort g x.nextIndex t) d

/-- In time mode each later instant is the previous one plus the step (R90). -/
def genAfter (d : Dev) (g t : Nat) (rest : List Nat) : List Nat :=
  if d.get (F.TGEN_CTRL_MODE g) = 1 ∧ rest = [] ∧ 0 < d.genStep g then [t + d.genStep g] else rest

/-- The pending instants of a time-paced generator whose step changes to `new`: each takes the instant before it plus the new step; the first of
a run stays at START (R95). A postponed trigger is postponed still where its new instant is sooner than MIN_INT after the last. -/
def genRetime (d : Dev) (g new : Nat) (x : Gen) : Gen :=
  match x.due with
  | [_] => match x.prev with
    | some b => { x with due := [b + new] }
    | none => x
  | _ :: _ :: _ =>
    let q := x.prev.getD 0
    match x.before with
    | none => { x with due := x.due.take 1 ++ [q + new] }
    | some b =>
      let own := b + new
      let floor := (x.last.getD 0) + d.genMinInt g
      if own < floor then
        let q' := if q = b + x.step then own else q
        { x with due := [floor, q' + new], prev := some q' }
      else { x with due := [own], postponed := false, prev := some b, before := none }
  | [] => x

/-- TRIGGER_ISSUE: the next instant of generator g has come: the trigger is issued, postponed or dropped (R93, R96). -/
def triggerIssue (d : Dev) (g : Nat) : Dev :=
  let x := d.gen g
  match x.due with
  | [] => d
  | t :: rest =>
    if !d.genRunning g then d
    else if x.postponed && (match rest with | t2 :: _ => t2 ≤ d.stamp && t2 < t | [] => false) then
      let t2 := rest.headD 0
      let d := d.setGen g { x with due := t :: d.genAfter g t2 (rest.drop 1), prev := some t2 }
      (d.count (F.TGEN_SKIP_DROPPED g)).raise (cxp g) 9
    else if d.stamp < t then d
    else match x.last with
      | some l =>
        if !x.postponed && t < l + d.genMinInt g then
          let d := d.setGen g { x with due := (l + d.genMinInt g) :: d.genAfter g t rest, postponed := true, before := x.prev, prev := some t }
          (d.count (F.TGEN_SKIP_POSTPONED g)).raise (cxp g) 11
        else
          let x' := if x.postponed then { x with due := rest, before := none } else { x with due := d.genAfter g t rest, prev := some t }
          (d.setGen g x').issueTrigger g t
      | none => (d.setGen g { x with due := d.genAfter g t rest, prev := some t }).issueTrigger g t

/-- TRIG_IN_EDGE: a rising edge on TRIG_INi, `quarter` × 250 ps after the present nanosecond, that stays high for `high` ns paces the generators
in MODE 3 that name it (R90). -/
def trigInEdge (d : Dev) (i high quarter : Nat) : Dev :=
  if high < 10 then d
  else (List.range 16).foldl (fun d g =>
    if d.genRunning g && d.get (F.TGEN_CTRL_MODE g) = 3 && d.get (F.TGEN_CTRL_IN_SEL g) = i then
      d.setGen g { d.gen g with due := (d.gen g).due ++ [d.stampFine (quarter % 4) + d.genDelay g] }
    else d) d

/-- Encoder m has moved from position p₀ forward to p₁: every target in between gives a trigger at its instant; targets are in 1/65,536 count.
A target that lies at or behind p₀ was passed while none could be reached, and the next one beyond takes its place (R90, R91, R372, R373). -/
def genEncoder (d : Dev) (m : Nat) (p0 p1 : Int) (inst : Int → Nat) : Dev :=
  (List.range 16).foldl (fun d g =>
    let x := d.gen g
    let step : Int := d.genStep g
    if d.genRunning g && d.get (F.TGEN_CTRL_MODE g) = 2 && d.get (F.TGEN_CTRL_MOT_SEL g) = m && decide (0 < step) then
      let t0 := if x.target ≤ p0 * 2 ^ 16 then x.target + ((p0 * 2 ^ 16 - x.target) / step + 1) * step else x.target
      let n := if t0 ≤ p1 * 2 ^ 16 then ((p1 * 2 ^ 16 - t0) / step).toNat + 1 else 0
      d.setGen g { x with due := x.due ++ (List.range n).map (fun (i : Nat) => inst (t0 + (i : Int) * step) + d.genDelay g), target := t0 + n * step }
    else d) d

/-- The first instant START + n × step at least 2 µs in the future, or START itself when it lies in the future (R94). -/
def firstInstant (now start step : Nat) : Nat :=
  if now ≤ start then start
  else start + ((now + 2000 * 2 ^ 16 - start + step - 1) / step) * step

/-- START arms generator g when RUN_AT_START = 1; `pos` is the position of its encoder (R91, R94). -/
def armGen (pos : Nat → Int) (d : Dev) (g : Nat) : Dev :=
  if !d.bit (F.TGEN_CTRL_RUN_AT_START g) then d
  else
    let mode := d.get (F.TGEN_CTRL_MODE g)
    let start := st40Extend d.now (d.st40At (F.TGEN_START_LO_START_LO g) (F.TGEN_START_HI_START_HI g)) * 2 ^ 16
    let x := d.gen g
    let x := { x with due := if mode = 1 then [firstInstant d.stamp start (d.genStep g)] else [], postponed := false, prev := none, before := none
                      target := pos (d.get (F.TGEN_CTRL_MOT_SEL g)) * 2 ^ 16 + d.genStep g }
    (d.setGen g x).put (F.TGEN_CTRL_RUNNING g) (mode ≠ 0)

/-- Every generator stops (R74, R75, R97). -/
def stopGens (d : Dev) : Dev :=
  (List.range 16).foldl (fun d g =>
    (d.setGen g { d.gen g with due := [], postponed := false, prev := none, before := none }).put (F.TGEN_CTRL_RUNNING g) false) d

/-- TGEN_STEP_WRITE: STEP is written and taken with its fraction for the triggers not yet begun (R95). -/
def tgenStepWrite (d : Dev) (g step : Nat) : Dev :=
  d.gated (cxp g) 0xC4 (fun d =>
    let mode := d.get (F.TGEN_CTRL_MODE g)
    if step % 2 ^ 32 = 0 ∧ d.get (F.TGEN_STEP_FRAC_FRAC g) = 0 ∧ d.genRunning g ∧ (mode = 1 ∨ mode = 2) then
      d.refuse (cxp g) 0xC4 .range
    else
      let d := d.set (F.TGEN_STEP_STEP g) step
      let new := d.get (F.TGEN_STEP_STEP g) * 2 ^ 16 + d.get (F.TGEN_STEP_FRAC_FRAC g)
      let x := d.gen g
      let x := if d.genRunning g ∧ mode = 1 then d.genRetime g new x
        else if d.genRunning g ∧ mode = 2 then { x with target := x.target - x.step + new }
        else x
      d.setGen g { x with step := new })

/-! ### Row slots (R101, R102) -/

/-- A line of a trigger is settled: complete or to be made synthetic. -/
def settled (s : StreamSlot) : Bool := s.st ≠ .unmatched && s.st ≠ .filling

/-- The line of a stream as it enters the row, and whether it is synthetic in part (R100). -/
def resolve (prev : List Nat) (s : StreamSlot) : List Nat × Bool :=
  match s.st with
  | .complete => (s.line, false)
  | .short => (s.line ++ prev.drop s.line.length, true)
  | _ => (prev, true)

/-- A line of exactly `n` samples, zeros where nothing stands (R100). -/
def padTo (n : Nat) (l : List Nat) : List Nat := (l ++ List.replicate (n - l.length) 0).take n

/-- Every `n`-th sample of a line from sample `c` on: one component. -/
def component (n c : Nat) (l : List Nat) : List Nat := (List.range (l.length / n)).map (fun x => l.getD (n * x + c) 0)

/-- The port's part of the row slot of trigger `index`, its oldest where it has a record of it; `force` makes every stream synthetic (R106, R108). -/
def takeLine (d : Dev) (p index : Nat) (force : Bool) : Dev × PortLine :=
  let x := d.port p
  let rest := match x.fifo with | e :: es => if e.index = index then es else x.fifo | [] => []
  let slots := match x.fifo with | e :: _ => if e.index = index then e.slots else [] | [] => []
  let res := (d.streams p).map (fun sid =>
    let prev := padTo (d.lineTotal p sid) ((x.prev.find? (fun q => q.1 = sid)).elim [] (·.2))
    let r := match slots.find? (fun s => s.sid = sid) with
      | some s => if force then (prev, true) else resolve prev s
      | none => (prev, true)
    (sid, padTo (d.lineTotal p sid) r.1, r.2))
  let bands := (d.bands p).map (fun b =>
    let sid := d.get (F.CXP_STREAM_ID_SID p b)
    match res.find? (fun r => r.1 = sid) with
    | some r => (component (d.compsOf p sid) (d.get (F.CXP_BAND_COMP_COMP p b)) r.2.1, r.2.2)
    | none => ([], true))
  let old := x.old - (x.fifo.length - rest.length)
  (d.setPort p { x with fifo := rest, old := old, prev := if old = 0 ∧ x.old ≠ 0 then [] else res.map (fun r => (r.1, r.2.1)) },
   ⟨p, bands.map (·.1), bands.map (·.2)⟩)

/-- The oldest trigger of which a port of the group holds a record. -/
def oldestTrig (d : Dev) (g : Nat) : Option TrigEntry :=
  ((d.portsOf g).filterMap (fun p => (d.port p).fifo.head?)).foldl (fun b e => match b with
    | some x => if e.stamp < x.stamp then some e else b
    | none => some e) none

/-- The row slot of the group's oldest trigger is released; `force` names the ports that are synthetic whatever they received. An own view
that was lost returns with its first slot after a port is STREAMING again; a lost view and a device that does not sort build no row (R520,
R521, R525). -/
def releaseSlot (d : Dev) (g : Nat) (force : Nat → Bool) : Dev :=
  let ps := d.portsOf g
  match d.oldestTrig g with
  | none => d
  | some e =>
    let d := if d.viewLost g && !d.mer.remoteLost.contains g && ps.any (fun p => d.portState p = 5) then d.viewBack g 0x08 else d
    let acc := ps.foldl (fun (a : Dev × List PortLine) p =>
      let r := a.1.takeLine p e.index (force p)
      (r.1, a.2 ++ [r.2])) (d, [])
    let d := acc.1
    let lines := acc.2
    let synth := lines.any (fun l => l.synth.any id)
    let d := if d.sorting && d.viewLive g then { d with slotsOut := d.slotsOut ++ [RowSlot.mk g e.index e.stamp lines synth false 16] } else d
    let d := d.set (F.GRP_SLOT_INDEX g) e.index
    let d := if synth then d.count (F.GRP_SYNTH_SLOTS_COUNT g) else d
    let d := d.observe (cxp ((ps.find? (fun p => d.obsFrom (cxp p))).getD (ps.headD 0))) 0x01 g ((d.now : Int) - e.stamp / 2 ^ 16)
    let out := ps.filter d.relaysOut
    if out = [] then d
    else
      let set := fun (ps : List Nat) => ps.foldl (fun m p => m + 2 ^ p) 0
      d.merSend 0x12 (set out + set (out.filter (fun p => lines.any (fun l => l.port = p && l.synth.any id))) * 256) 1 [e.index]

/-- ROW_SLOT_RELEASE: every port of an own group has the line of the oldest trigger complete or synthetic (R101), or no record of it. -/
def rowSlotRelease (d : Dev) (g : Nat) : Dev :=
  let ps := d.portsOf g
  match d.oldestTrig g with
  | none => d
  | some e =>
    if g < 8 ∧ !d.groupRemote g ∧ ps.all (fun p => (d.port p).fifo.all (fun q => q.index ≠ e.index || q.slots.all settled)) then
      d.releaseSlot g (fun _ => false)
    else d

/-- A stream whose line is still incomplete when the watchdog closes its slot is late; a packet with a CRC error that it had counts too (R102,
Table cam-4). -/
def lateStream (p index : Nat) (d : Dev) (s : StreamSlot) : Dev :=
  if s.st = .filling then
    let r := rxOf (d.port p) s.sid
    let d := if r.bad then d.count (F.CXP_CNT_CRC_COUNT p) else d
    let d := (d.setRx p { r with dest := .drop }).updSlot p index s.sid (fun s => { s with st := .late })
    ((d.count (F.CXP_CNT_LATE_COUNT p)).raise (cxp p) 7).ledgerOut p s.sid r.seq index 7
  else if s.st = .unmatched then
    (d.updSlot p index s.sid (fun s => { s with st := .missing })).countMissing p s.sid index 1
  else d

/-- BLOCK_WATCHDOG: a matched line of the group's oldest open slot is incomplete at T + WDOG_LIMIT: the slot closes (R102). -/
def blockWatchdog (d : Dev) (g : Nat) : Dev :=
  let ps := d.portsOf g
  let limit := d.get (F.GRP_CTRL_WDOG_LIMIT g) * 10 * 2 ^ 16
  match ps.findSome? (fun p => (d.port p).fifo.find? (fun e => e.slots.any (fun s => s.st = .filling) && e.stamp + limit ≤ d.stamp)) with
  | none => d
  | some e =>
    if g < 8 ∧ !d.groupRemote g then
      let d := ps.foldl (fun d p => match (d.port p).fifo.find? (fun q => q.index = e.index) with
        | some q => q.slots.foldl (lateStream p e.index) d
        | none => d) d
      (d.count (F.GRP_WDOG_CLOSE_COUNT g)).raise (cxp g) 10
    else d

/-- TRIGGER_MISSING: unmatched triggers of port p that have passed T + LAT_MAX are missing (R98). -/
def triggerMissing (d : Dev) (p : Nat) : Dev :=
  if d.portState p = 9 then d else d.markMissing p 1 (fun e _ => e.stamp + d.latMax p ≤ d.stamp)

/-! ### Control channel and events (R81, R118) -/

/-- Bytes `n` of the transaction buffer, in wire order. -/
def ccBytes (d : Dev) (p n : Nat) : List Nat := (List.range n).map (fun i => bitsAt (d.get (F.CXP_CC_BUF_DATA p (i / 4))) (8 * (i % 4)) 8)

/-- Bytes put into the transaction buffer. -/
def ccPut (d : Dev) (p : Nat) (bytes : List Nat) : Dev :=
  (List.range ((bytes.length + 3) / 4)).foldl (fun d w =>
    let old := leBytes 4 (d.get (F.CXP_CC_BUF_DATA p w))
    d.set (F.CXP_CC_BUF_DATA p w) (leNat ((List.range 4).map (fun i => bytes.getD (4 * w + i) (old.getD i 0))))) d

/-- CXP_CC_GO: a write of CXP_CC_CMD (R118). LEN and WRITE are registers that stay writable while BUSY = 1, and the acknowledgement is taken by
them as they stand then: the spec does not say that GO latches them (log entry 86, DESIGN CHOICE). A request goes out on a running uplink (R135). -/
def ccGo (d : Dev) (p value : Nat) : Dev :=
  d.gated (cxp p) 0x90 (fun d =>
    let d := d.putFields value [F.CXP_CC_CMD_LEN p, F.CXP_CC_CMD_WRITE p]
    if value % 2 = 0 then d
    else if d.bit (F.CXP_CC_CMD_BUSY p) then d.refuse (cxp p) 0x90 .busy
    else if !d.portUp p then d.refuse (cxp p) 0x90 .state
    else
      let n := d.get (F.CXP_CC_CMD_LEN p) + 1
      let wr := d.bit (F.CXP_CC_CMD_WRITE p)
      let d := (d.put (F.CXP_CC_CMD_BUSY p) true).setPort p { d.port p with ccAt := d.time.c }
      if d.uplink p then d.emit (.ccRequest p (d.get (F.CXP_CC_ADDR_ADDR p)) wr (if wr then d.ccBytes p n else List.replicate n 0)) else d)

/-- CXP_CC_ACK: the camera acknowledges; a read brings its bytes (R118). -/
def ccAck (d : Dev) (p code : Nat) (bytes : List Nat) : Dev :=
  if d.bit (F.CXP_CC_CMD_BUSY p) then
    let d := if d.bit (F.CXP_CC_CMD_WRITE p) then d else d.ccPut p (bytes.take (d.get (F.CXP_CC_CMD_LEN p) + 1))
    ((d.set (F.CXP_CC_CMD_ACK p) code).put (F.CXP_CC_CMD_BUSY p) false).raise (cxp p) 8
  else d

/-- CXP_CC_TIMEOUT: no acknowledgement within 200 ms (R118). -/
def ccTimeout (d : Dev) (p : Nat) : Dev :=
  if d.bit (F.CXP_CC_CMD_BUSY p) ∧ 200000000 ≤ d.elapsed (d.port p).ccAt then
    (((d.set (F.CXP_CC_CMD_ACK p) 0xFF).put (F.CXP_CC_CMD_BUSY p) false).hwError (cxp p) .timeout 0).raise (cxp p) 8
  else d

/-- CXP_EVENT_PACKET: a camera event is counted in BLK_EVT_CNT and becomes an EVENT record; no source bit of the page stands for it, so the
record's bit field is a free value (R81; log entry 14, DESIGN CHOICE). -/
def eventPacket (d : Dev) (p : Nat) (bytes : List Nat) : Dev :=
  if d.portUp p ∧ bytes ≠ [] then
    let d := d.count (F.BLK_EVT_CNT_COUNT (cxp p))
    if d.testBit (F.HOST_EVT_SEL_SEL (cxp p / 32)) (cxp p % 32) then
      (d.freeUsed).report 1 2 0 (wordsLe [cxp p * 2 ^ 16 + d.freeVal 8 * 2 ^ 8, 0, d.get (F.BLK_EVT_CNT_COUNT (cxp p)), 0])
    else d
  else d

end Dev

/-! ### The meanings -/

def execTriggerIssue (g : Nat) (s : State) : Answer := s.run (·.triggerIssue g)
def execTrigInEdge (i : Nat) (edge : TrigEdge) (s : State) : Answer := s.run (·.trigInEdge i edge.high edge.quarter)
def execTgenStepWrite (g step : Nat) (s : State) : Answer := s.run (·.tgenStepWrite g step)
def execCxpPowerWaitExpiry (p : Nat) (s : State) : Answer := s.run (·.powerWaitExpiry p)
def execCxpDiscovery (p : Nat) (answered : Bool) (rates conns : Nat) (s : State) : Answer := s.run (·.discovery p answered rates conns)
def execCxpLinkReady (p : Nat) (s : State) : Answer := s.run (·.linkReady p)
def execCxpLockLoss (p c : Nat) (s : State) : Answer := s.run (·.lockLoss p c)
def execCxpRelink (p : Nat) (s : State) : Answer := s.run (·.relink p)
def execCxpRelinkTimeout (p : Nat) (s : State) : Answer := s.run (·.relinkTimeout p)
def execCxpPwrFault (p : Nat) (low : Bool) (s : State) : Answer := s.run (·.pwrFault p low)
def execPocxpEnWrite (p : Nat) (v : Bool) (s : State) : Answer := s.run (·.pocxpEnWrite p v)
def execCxpStreamPacket (p sid arrival : Nat) (items : List PktItem) (crcOk : Bool) (s : State) : Answer :=
  s.run (·.streamPacket p sid arrival items crcOk)
def execCxpEventPacket (p : Nat) (bytes : List Nat) (s : State) : Answer := s.run (·.eventPacket p bytes)
def execPortRestart (s : State) : Answer := s.run (·.portRestart)
def execTriggerMissing (p : Nat) (s : State) : Answer := s.run (·.triggerMissing p)
def execBlockWatchdog (g : Nat) (s : State) : Answer := s.run (·.blockWatchdog g)
def execRowSlotRelease (g : Nat) (s : State) : Answer := s.run (·.rowSlotRelease g)
def execCxpCcGo (p value : Nat) (s : State) : Answer := s.run (·.ccGo p value)
def execCxpCcAck (p code : Nat) (bytes : List Nat) (s : State) : Answer := s.run (·.ccAck p code bytes)
def execCxpCcTimeout (p : Nat) (s : State) : Answer := s.run (·.ccTimeout p)

end Sys2Proof.Machine
end

