-- ==== Sys2Proof/Machine/Swap.lean ====
section
/-! DEFINITION. The bank swap that COR, GEO, SPEC, DISP and PLAN share (R162–R164, R188, R260, R309). -/

namespace Sys2Proof.Machine

/-- The registers of one swap: its page and the offset of its SWAP register, its fields, its interrupt bits, its counter of late swaps. -/
structure SwapDef where
  page    : Nat
  off     : Nat
  timed   : Fld
  pend    : Fld
  active  : Fld
  dtPend  : Fld
  cnt     : Fld
  atLo    : Fld
  atHi    : Fld
  dtLo    : Fld
  dtHi    : Fld
  late    : Option Fld
  irqDone : Nat
  irqLate : Nat

def corSwap : SwapDef := ⟨0x30, 0x44, F.COR_SWAP_TIMED, F.COR_SWAP_PEND, F.COR_SWAP_ACTIVE, F.COR_SWAP_DT_PEND, F.COR_SWAP_SWAP_CNT,
  F.COR_SWAP_AT_LO_AT_LO, F.COR_SWAP_AT_HI_AT_HI, F.COR_SWAP_DT_LO_DT_LO, F.COR_SWAP_DT_HI_DT_HI, some F.COR_CNT_SWAP_LATE_COUNT, 3, 4⟩
def geoSwap : SwapDef := ⟨0x33, 0x44, F.GEO_SWAP_TIMED, F.GEO_SWAP_PEND, F.GEO_SWAP_ACTIVE, F.GEO_SWAP_DT_PEND, F.GEO_SWAP_SWAP_CNT,
  F.GEO_SWAP_AT_LO_AT_LO, F.GEO_SWAP_AT_HI_AT_HI, F.GEO_SWAP_DT_LO_DT_LO, F.GEO_SWAP_DT_HI_DT_HI, some F.GEO_CNT_SWAP_LATE_COUNT, 3, 4⟩
def specSwap : SwapDef := ⟨0x35, 0x44, F.SPEC_SWAP_TIMED, F.SPEC_SWAP_PEND, F.SPEC_SWAP_ACTIVE, F.SPEC_SWAP_DT_PEND, F.SPEC_SWAP_SWAP_CNT,
  F.SPEC_SWAP_AT_LO_AT_LO, F.SPEC_SWAP_AT_HI_AT_HI, F.SPEC_SWAP_DT_LO_DT_LO, F.SPEC_SWAP_DT_HI_DT_HI, some F.SPEC_CNT_SWAP_LATE_COUNT, 3, 4⟩

namespace Dev

def swapSt (d : Dev) (s : SwapDef) : SwapSt := Sparse.get d.swaps {} s.page
def setSwapSt (d : Dev) (s : SwapDef) (x : SwapSt) : Dev := { d with swaps := Sparse.set d.swaps {} s.page x }

/-- Items released and not yet past the boundary of a swap: row slots on their way to the correction island, or to the sky island (R164, R188). A body
that commits next and a verdict that passes next are released as they come. -/
def released (d : Dev) (s : SwapDef) : List (Nat × Nat) :=
  (if s.page = 0x30 then d.slotsOut else if s.page = 0x33 ∨ s.page = 0x35 then d.slotsOut ++ d.corOut else []).map (fun x => (x.group, x.index))

/-- A request written to a SWAP register, past the gate: TIMED is taken; with GO the request is checked and accepted (R162). TIMED and SWAP_AT count as
they stand at GO, where the instant is extended to DT (R407): a later write of either leaves a pending swap alone (log entry 103, DEDUCED). It is late
when an item at or after SWAP_AT has already passed (R164). `check` is the check of the inactive set: a DETAIL where it fails (R188). -/
def swapAsk (d : Dev) (s : SwapDef) (value : Nat) (check : Dev → Option (Err × Nat)) : Dev :=
  let d := d.putFields value [s.timed]
  if value % 2 = 0 then d
  else if d.state ≤ 2 then d.refuse s.page s.off .state
  else if d.bit s.pend then d.refuse s.page s.off .busy
  else
    let ahead := st40Diff (d.st40At s.atLo s.atHi) d.now
    if d.bit s.timed ∧ 10000000000 < ahead then d.refuse s.page s.off .range
    else match check d with
      | some (e, detail) => d.refuse s.page s.off e detail
      | none =>
        let at_ := st40Extend d.now (d.st40At s.atLo s.atHi)
        let late := d.bit s.timed && decide (at_ < (d.swapSt s).passed)
        let d := (d.put s.pend true).setSwapSt s
          { d.swapSt s with timed := if d.bit s.timed then some at_ else none, late := late, before := d.released s }
        if late then
          let d := (d.hwError s.page .late 0).raise s.page s.irqLate
          match s.late with | some f => d.count f | none => d
        else d

/-- A GO in BOOT or IDENT, which R162 refuses with STATE; any other write there falls to R58 and R543 (log entry 91, DEDUCED). -/
def swapEarly (d : Dev) (page off value : Nat) : Bool :=
  d.state ≤ 2 && value % 2 = 1 && [(0x30, 0x44), (0x33, 0x44), (0x35, 0x44), (0x39, 0xC0), (0x80, 0x70)].contains (page, off)

/-- A register write past the gate, but for a GO that comes too early. -/
def gatedSwap (d : Dev) (page off value : Nat) (f : Dev → Dev) : Dev :=
  if d.swapEarly page off value then d.refuse page off .state else d.gated page off f

/-- A write of a SWAP register. -/
def swapGo (d : Dev) (s : SwapDef) (value : Nat) (check : Dev → Option (Err × Nat)) : Dev :=
  d.gatedSwap s.page s.off value (·.swapAsk s value check)

/-- Whether a pending swap falls before an item — its DT, group and index — or with nothing flowing (R163): at once when it is not timed; a late one
before the next item released since the request (R164); otherwise before the first at or after its instant. -/
def swapReady (d : Dev) (s : SwapDef) (item : Option (Nat × Nat × Nat)) : Bool :=
  d.bit s.pend && (match (d.swapSt s).timed, item with
    | none, _ => true
    | some _, none => false
    | some a, some (t, k) => if (d.swapSt s).late then !(d.swapSt s).before.contains k else decide (a ≤ t))

/-- The swap takes effect: ACTIVE toggles, PEND clears, SWAP_DONE; the DT of the first item under the new set is still to come (R163). -/
def swapApply (d : Dev) (s : SwapDef) : Dev :=
  let d := ((d.set s.active (1 - d.get s.active)).put s.pend false).count s.cnt
  ((d.put s.dtPend true).setSwapSt s { passed := (d.swapSt s).passed }).raise s.page s.irqDone

/-- An item of DT `t` gives the DT of the latest swap that waits for one (R163). -/
def swapDate (d : Dev) (s : SwapDef) (t : Nat) : Dev :=
  if d.bit s.dtPend then (d.setDt s.dtLo s.dtHi t).put s.dtPend false else d

/-- An item of DT `t` has passed the boundary (R164). -/
def swapSeen (d : Dev) (s : SwapDef) (t : Nat) : Dev :=
  d.setSwapSt s { d.swapSt s with passed := max (d.swapSt s).passed (t + 1) }

/-- An item of DT `t` passes the boundary and is the first under the new set where a swap waits for one. -/
def swapPassed (d : Dev) (s : SwapDef) (t : Nat) : Dev := (d.swapDate s t).swapSeen s t

/-- A pending swap is cancelled by SOFT_RESET of its page (R165). -/
def swapCancel (d : Dev) (s : SwapDef) : Dev := (d.put s.pend false).setSwapSt s { passed := (d.swapSt s).passed }

/-- What keeps a driver write from the bank `n` of a swapped table: STATE with DETAIL 1 on the bank in force, BUSY with DETAIL 2 on the other
while a swap is pending (R140). -/
def bankGuard (d : Dev) (s : SwapDef) (n : Nat) : Option (Err × Nat) :=
  if n = d.get s.active then some (.state, 1) else if d.bit s.pend then some (.busy, 2) else none

end Dev

end Sys2Proof.Machine
end

