-- ==== Sys2Proof/Machine/Sky.lean ====
section
/-! DEFINITION. Building the sky (R167–R190): row delays, column mapping and resampling, blending, auto-registration, the spectral transform and
the class lookup. -/

namespace Sys2Proof.Machine

/-! ### Mapping (R170, R174) -/

/-- The geometry set of one port (Table sky-2). -/
structure GeoSet where
  xLast  : Nat
  xFirst : Nat
  c0     : Int
  c1     : Int
  c2     : Int
  c3     : Int
  pd     : Nat
  bd     : List Nat

/-- The camera position of sky column X in units of 2^-90 camera column, exactly: t is X − X_FIRST − OFS ÷ 1,024 (R174). -/
def mapExact (m : PortMap) (x : Nat) : Int :=
  let t : Int := ((x : Int) - m.xFirst) * 1024 - m.ofs
  m.c0 * 2 ^ 76 + m.c1 * t * 2 ^ 52 + m.c2 * t * t * 2 ^ 26 + m.c3 * t * t * t

/-- U = round(64u), ties upward (R174). -/
def mapU (m : PortMap) (x : Nat) : Int := (mapExact m x * 64 + 2 ^ 89) / 2 ^ 90

/-- The weights of R175 for taps −1 to 2 at phase φ; of the cubic kernel each is rounded to nearest and the nearest tap takes the difference. -/
def kernelW (kernel : Nat) (phi : Int) : List Int :=
  if kernel = 0 then
    let c := phi * phi * phi; let q := phi * phi
    let w0 := divRound (-c + 32 * (4 * q - 128 * phi)) 32
    let w1 := divRound (3 * c + 32 * (16384 - 10 * q)) 32
    let w2 := divRound (-3 * c + 32 * (8 * q + 128 * phi)) 32
    let w3 := divRound (c - 64 * q) 32
    let e := 16384 - (w0 + w1 + w2 + w3)
    if phi < 32 then [w0, w1 + e, w2, w3] else [w0, w1, w2 + e, w3]
  else if kernel = 1 then [0, 16384 - 256 * phi, 256 * phi, 0]
  else if phi < 32 then [0, 16384, 0, 0] else [0, 0, 16384, 0]

/-- The sample of a line at a tap index; outside the line the nearest edge sample (R175). -/
def edgeAt (s : List Nat) (i : Int) : Nat := s.getD (clampI 0 ((s.length : Int) - 1) i).toNat 0

/-- A resampled sky sample at camera position U (R175). -/
def resample (kernel : Nat) (s : List Nat) (u : Int) : Nat :=
  let i := u / 64
  let ws := kernelW kernel (u % 64)
  let sum := (List.range 4).foldl (fun (a : Int) j => a + ws.getD j 0 * edgeAt s (i + j - 1)) 8192
  (clampI 0 65535 (sum / 16384)).toNat

/-- The sky column nearest to camera column `x`'s centre; none where it lies more than half a sky column beyond the port's span (R147; log entry 19, DEDUCED,
DEDUCED). The spec does not say which of two equally near columns is taken: `later` decides (log entry 93, DESIGN CHOICE). -/
def nearestSky (m : PortMap) (x : Nat) (later : Bool) : Option Nat :=
  let us := (List.range (m.xLast + 1 - m.xFirst)).map (fun i => (mapExact m (m.xFirst + i), m.xFirst + i))
  let t : Int := (x : Int) * 2 ^ 90
  let n := us.length
  let a := (us.getD 0 (0, 0)).1; let a' := (us.getD 1 (2 ^ 90 + a, 0)).1
  let z := (us.getD (n - 1) (0, 0)).1; let z' := (if 2 ≤ n then (us.getD (n - 2) (0, 0)).1 else z - 2 ^ 90)
  let lo := min (2 * a - (a' - a)) (2 * z + (z - z'))
  let hi := max (2 * a - (a' - a)) (2 * z + (z - z'))
  if n = 0 ∨ 2 * t < lo ∨ hi < 2 * t then none
  else (us.foldl (fun (b : Option (Nat × Nat)) e =>
    let dist := (e.1 - t).natAbs
    match b with
    | some (bd, bx) => if dist < bd || (later && dist = bd) then some (dist, e.2) else some (bd, bx)
    | none => some (dist, e.2)) none).map (·.2)

namespace Dev

def geoDepth (d : Dev) (p : Nat) : Nat := if p < 8 then d.get (F.GEO_DEPTH0_DEPTH p) else d.get (F.GEO_DEPTH1_DEPTH (p - 8))

/-- The geometry set of port p in bank n (R170, Table sky-2). -/
def geoSet (d : Dev) (n p : Nat) : GeoSet :=
  let a := 0x4_4004_0000 + n * 0x1000 + p * 0x40
  let w := fun i => d.read (a + 4 * i) 4
  let bd := fun v lsb => 64 * bitsAt v (lsb + 8) 3 + bitsAt v lsb 6
  { xLast := w 0 / 65536, xFirst := w 0 % 65536, c0 := sgn 32 (w 1), c1 := sgn 32 (w 2), c2 := sgn 32 (w 3), c3 := sgn 32 (w 4),
    pd := 64 * bitsAt (w 5) 8 3 + bitsAt (w 5) 0 6,
    bd := [bd (w 6) 0, bd (w 6) 16, bd (w 7) 0, bd (w 7) 16] }

/-- The mapping of a port with a given live offset. -/
def mapOf (p : Nat) (s : GeoSet) (ofs : Int) : PortMap := ⟨p, s.xFirst, s.xLast, s.c0, s.c1, s.c2, s.c3, ofs, false⟩

/-- The mapping of port p in force: the active set and the live offset. -/
def portMap (d : Dev) (p : Nat) : PortMap := mapOf p (d.geoSet (d.get F.GEO_SWAP_ACTIVE) p) (d.getS (F.STI_OFS_OFS p))

def lineLen (d : Dev) (p : Nat) : Nat := d.get (F.CXP_FORMAT_LINE_LEN p)
def groupWidth (d : Dev) (g : Nat) : Nat := d.get (F.STI_GRP_WIDTH_M1 g) + 1

/-! ### Acceptance of sets (R178, R187) -/

/-- The columns at which R178 examines monotonicity, without repeats. -/
def probeCols (s : GeoSet) : List Nat := ((List.range 33).map (fun i => s.xFirst + i * (s.xLast - s.xFirst) / 32)).eraseDups

def strictly (up : Bool) : List Int → Bool
  | a :: b :: r => (if up then decide (a < b) else decide (b < a)) && strictly up (b :: r)
  | _ => true

/-- Whether a port's set passes the checks of R178 that concern the port alone. -/
def geoPortOk (d : Dev) (n g p : Nat) : Bool :=
  let s := d.geoSet n p
  let m := mapOf p s 0
  let us := (probeCols s).map (mapExact m)
  let hi : Int := (2 * (d.lineLen p : Int) - 1) * 2 ^ 89
  let inside := fun u => decide (-(2 ^ 89 : Int) ≤ u ∧ u ≤ hi)
  let delays := (d.bands p).all (fun b =>
    let t := s.pd + s.bd.getD b 0
    decide (t / 64 + (if t % 64 = 0 then 0 else 1) ≤ d.geoDepth p))
  decide (s.xFirst ≤ s.xLast ∧ s.xLast < d.groupWidth g) && inside (mapExact m s.xFirst) && inside (mapExact m s.xLast)
    && (strictly true us || strictly false us) && delays

/-- The enabled ports of a group (R178). -/
def geoPorts (d : Dev) (g : Nat) : List Nat := (d.portsOf g).filter (fun p => d.bit (F.BLK_CTRL_ENABLE (cxp p)))

/-- The set of port p in bank n is refused: its own checks, three ports over one column, a seam wider than 1,024 (R178). -/
def geoPortBad (d : Dev) (n g p : Nat) : Bool :=
  let sets := (d.geoPorts g).map (fun p => (p, d.geoSet n p))
  let covers := fun (s : GeoSet) x => decide (s.xFirst ≤ x ∧ x ≤ s.xLast)
  let s := d.geoSet n p
  !d.geoPortOk n g p
    || decide (3 ≤ (sets.filter (fun e => covers e.2 s.xFirst)).length)
    || sets.any (fun e => e.1 ≠ p && covers e.2 s.xFirst && decide (1024 < min s.xLast e.2.xLast + 1 - s.xFirst))

/-- The first port of group g whose set in bank n is refused. -/
def geoBad (d : Dev) (n g : Nat) : Option Nat := (d.geoPorts g).find? (d.geoPortBad n g)

/-- The DETAIL of the first failing port over all groups, for bank n. -/
def geoCheck (d : Dev) (n : Nat) : Option (Err × Nat) := ((List.range 8).findSome? (d.geoBad n)).map (fun p => (Err.range, p))

/-- Start of the spectral set of group g in bank n (R184). -/
def specAt (n g : Nat) : Nat := 0x4_4002_0000 + n * 0x1_0000 + g * 0x2000

def qbits (d : Dev) (n g j : Nat) : Nat := (d.byte (specAt n g + 0x60 + j)).toNat

/-- The spectral set of a group with a port is refused when its QBITS exceed 16 together or an O[j] is out of range (R187). -/
def specBad (d : Dev) (n g : Nat) : Bool :=
  d.portsOf g ≠ [] && (16 < ((List.range 8).map (d.qbits n g)).sum
    || (List.range 8).any (fun j => 65535 < (sgn 32 (d.read (specAt n g + 0x40 + 4 * j) 4)).natAbs))

def specCheck (d : Dev) (n : Nat) : Option (Err × Nat) := ((List.range 8).find? (d.specBad n)).map (fun g => (Err.range, g))

/-! ### Rows (R171–R177) -/

def hist (d : Dev) (p : Nat) : List HistLine := Sparse.get d.geoHist [] p

/-- The port's corrected line joins its history, which begins with its first real line (R172): the first that is real in some band, one synthetic in part
included (log entry 105, DESIGN CHOICE). The parity flag is the row's, as R141 says; each of its lines carries it (R168; log entry 106, DEDUCED). -/
def pushHist (d : Dev) (slot : RowSlot) (l : PortLine) : Dev :=
  let h := d.hist l.port
  if h.isEmpty && l.synth.all id then d
  else
    let h := (⟨l.bands, l.synth, slot.parity⟩ :: h).take (d.geoDepth l.port + 1)
    { d with geoHist := Sparse.set d.geoHist [] l.port h }

/-- The delayed line of band b, with whether it reaches an absent, a synthetic, a parity-flagged line (R171, R172). -/
def delayed (d : Dev) (p b dly : Nat) : List Nat × Bool × Bool × Bool :=
  let h := d.hist p
  let len := d.lineLen p
  let n := dly / 64; let f := dly % 64
  let at_ := fun i => match h[i]? with
    | some l => (l.bands.getD b [], false, l.synth.getD b true, l.parity)
    | none => (List.replicate len 0, true, true, false)
  let a := at_ n
  if f = 0 then a
  else
    let c := at_ (n + 1)
    ((List.range len).map (fun x => (a.1.getD x 0 * (64 - f) + c.1.getD x 0 * f + 32) / 64), a.2.1 || c.2.1, a.2.2.1 || c.2.2.1, a.2.2.2 || c.2.2.2)

end Dev

/-- One port resampled into sky columns xFirst to xLast: per band the samples, and its flags. -/
structure PortSky where
  port   : Nat
  xFirst : Nat
  xLast  : Nat
  bands  : List (List Nat)
  absent : Bool
  synth  : Bool
  parity : Bool

namespace Dev

def portSky (d : Dev) (p : Nat) : PortSky :=
  let s := d.geoSet (d.get F.GEO_SWAP_ACTIVE) p
  let m := mapOf p s (d.getS (F.STI_OFS_OFS p))
  let k := d.get F.GEO_CTRL_KERNEL
  let us := (List.range (s.xLast + 1 - s.xFirst)).map (fun i => mapU m (s.xFirst + i))
  let del := (d.bands p).map (fun b => d.delayed p b (s.pd + s.bd.getD b 0))
  { port := p, xFirst := s.xFirst, xLast := s.xLast, bands := del.map (fun l => us.map (resample k l.1)),
    absent := del.any (·.2.1), synth := del.any (·.2.2.1), parity := del.any (·.2.2.2) }

end Dev

def PortSky.sampleAt (s : PortSky) (b x : Nat) : Nat := (s.bands.getD b []).getD (x - s.xFirst) 0
def PortSky.covers (s : PortSky) (x : Nat) : Bool := decide (s.xFirst ≤ x ∧ x ≤ s.xLast)

/-- The blended sample of a seam's column (R177): `l` is the port of lower X_FIRST. -/
def blend (hard : Bool) (l r : PortSky) (b x : Nat) : Nat :=
  let a := r.xFirst; let m := l.xLast + 1 - a
  let sl := l.sampleAt b x; let sr := r.sampleAt b x
  if l.synth && !r.synth then sr
  else if r.synth && !l.synth then sl
  else if hard then (if x < a + m / 2 then sl else sr)
  else
    let w := (2 * (x - a) + 1) * 256 / (2 * m)
    (sl * (256 - w) + sr * w + 128) / 256

/-- The sample of sky column x in band b from the ports in order of X_FIRST; none where no port covers it (R176). -/
def skySample (hard : Bool) (ps : List PortSky) (b x : Nat) : Option Nat :=
  match ps.filter (fun s => s.covers x) with
  | [] => none
  | [s] => some (s.sampleAt b x)
  | l :: r :: _ => some (blend hard l r b x)

/-- Ports in order of X_FIRST. -/
def chain (ps : List PortSky) : List PortSky :=
  ps.foldl (fun acc s => (acc.filter (fun e => e.xFirst ≤ s.xFirst)) ++ [s] ++ acc.filter (fun e => s.xFirst < e.xFirst)) []

/-- The adjacent pairs of a chain whose spans overlap (R176). -/
def seamsOf : List PortSky → List (PortSky × PortSky)
  | l :: r :: rest => (if r.xFirst ≤ l.xLast then [(l, r)] else []) ++ seamsOf (r :: rest)
  | _ => []

namespace Dev

/-! ### Auto-registration (R179–R183) -/

def seam (d : Dev) (p : Nat) : SeamSum := Sparse.get d.seams {} p
def setSeam (d : Dev) (p : Nat) (x : SeamSum) : Dev := { d with seams := Sparse.set d.seams {} p x }

/-- A seam's columns measured on one row (R179). -/
def measureSeam (d : Dev) (g : Nat) (lr : PortSky × PortSky) : Dev :=
  let b := d.get (F.STI_AR_BAND_BAND g)
  let l := lr.1; let r := lr.2
  let xs := (List.range (l.xLast + 1 - r.xFirst)).map (r.xFirst + ·) |>.filter (fun x => decide (r.xFirst < x ∧ x < l.xLast))
  let x0 := d.seam r.port
  let min' := (d.get F.STI_AR_EDGE_EDGE_MIN : Int)
  d.setSeam r.port (xs.foldl (fun s x =>
    let dd : Int := (l.sampleAt b x : Int) - r.sampleAt b x
    let gg : Int := ((l.sampleAt b (x + 1) : Int) - l.sampleAt b (x - 1) + r.sampleAt b (x + 1) - r.sampleAt b (x - 1)) / 4
    if min' ≤ (gg.natAbs : Int) then { s with sdg := s.sdg + dd * gg, sgg := s.sgg + (gg * gg).natAbs, n := s.n + 1 } else s) x0)

/-- The seams of a group by the present geometry: (left, right) ports, chain order. -/
def chainPorts (d : Dev) (g : Nat) : List Nat :=
  (chain ((d.portsOf g).map (fun p => let s := d.geoSet (d.get F.GEO_SWAP_ACTIVE) p
    { port := p, xFirst := s.xFirst, xLast := s.xLast, bands := [], absent := false, synth := false, parity := false }))).map (·.port)

def seamPairs (d : Dev) (g : Nat) : List (Nat × Nat) :=
  (seamsOf (chain ((d.portsOf g).map (fun p => let s := d.geoSet (d.get F.GEO_SWAP_ACTIVE) p
    { port := p, xFirst := s.xFirst, xLast := s.xLast, bands := [], absent := false, synth := false, parity := false })))).map
    (fun e => (e.1.port, e.2.port))

/-- The anchor port of a group (R181). -/
def anchorOf (d : Dev) (g : Nat) : Nat :=
  let a := d.get (F.STI_GRP_ANCHOR g)
  if a = 15 then (d.chainPorts g).headD 0 else a

/-- The steps that one plausible estimate of the seam (l, r) gives to the ports of the chain (R181). -/
def stepsOf (d : Dev) (g : Nat) (lr : Nat × Nat) (delta : Int) : List (Nat × Int) :=
  let ps := d.chainPorts g
  let pos := fun p => ps.findIdx (· = p)
  let step := clampI (-(d.get F.STI_AR_LIM_STEP_MAX : Int)) (d.get F.STI_AR_LIM_STEP_MAX)
    (-(divRound (delta * d.get F.STI_AR_CTRL_GAIN) 256))
  if pos (d.anchorOf g) ≤ pos lr.1 then (ps.filter (fun p => pos lr.2 ≤ pos p)).map (fun p => (p, step))
  else (ps.filter (fun p => pos p ≤ pos lr.1)).map (fun p => (p, -step))

/-- Steps summed per port. -/
def sumSteps (xs : List (Nat × Int)) : List (Nat × Int) :=
  ((xs.map (·.1)).eraseDups).map (fun p => (p, ((xs.filter (fun e => e.1 = p)).map (·.2)).sum))

/-- One seam at the close of an interval: its estimate and its steps (R179, R180). -/
def closeSeam (g : Nat) (swapped : Bool) (acc : Dev × List (Nat × Int)) (lr : Nat × Nat) : Dev × List (Nat × Int) :=
  let d := acc.1
  let s := d.seam lr.2
  let cleared := { s with sdg := 0, sgg := 0, n := 0 }
  if swapped then (d.setSeam lr.2 cleared, acc.2)
  else if s.n < d.get F.STI_AR_EDGE_MIN_EDGES ∨ s.sgg = 0 then ((d.setSeam lr.2 cleared).count F.STI_AR_STAT2_LOW_EDGE, acc.2)
  else
    let delta := clampI (-32767) 32767 (divRound (1024 * s.sdg) s.sgg)
    let d := (d.setS (F.STI_DELTA_DELTA lr.2) delta).set (F.STI_DELTA_EDGES lr.2) (min s.n 65535)
    let d := d.observe 0x34 0x09 lr.2 delta
    if 16 * d.get F.STI_AR_LIM_REJECT < delta.natAbs then
      let d := (d.setSeam lr.2 { cleared with bad := s.bad + 1 }).count F.STI_AR_STAT_REJECTS
      (if s.bad + 1 = 3 then d.raise 0x34 4 else d, acc.2)
    else (d.setSeam lr.2 { cleared with bad := 0 }, acc.2 ++ d.stepsOf g lr delta)

/-- The loop makes and applies steps: F_AUTOREG, AR_EN = 1, no FREEZE (R181). -/
def arOn (d : Dev) : Bool := d.feat 22 && d.bit F.STI_AR_CTRL_AR_EN && d.learns 0x34 11

/-- The interval of group g closes at trigger index `k`; with the loop on, its steps fall due at k + 16 (R179, R181). -/
def arClose (d : Dev) (g k : Nat) : Dev :=
  let swapped := d.arSwapped.contains g
  let r := (d.seamPairs g).foldl (closeSeam g swapped) (d, [])
  let d := { r.1 with arSwapped := r.1.arSwapped.filter (· ≠ g), due := r.1.due.filter (· ≠ .arClose g k) }
  if d.arOn && r.2 ≠ [] then { d with arSteps := d.arSteps ++ [ArStep.mk g ((k + 16) % 2 ^ 32) (sumSteps r.2)] } else d

/-- Every interval that has ended and is not closed yet is closed: nothing that comes later counts for it (R179, R190). -/
def arSettle (d : Dev) (mine : Nat → Bool := fun _ => true) : Dev :=
  d.due.foldl (fun d x => match x with | .arClose h i => if mine h then d.arClose h i else d | .bgAge _ => d) d

/-- A geometry swap takes effect: the interval in progress of every group gives no estimate (R179, R188). -/
def geoSwapNow (d : Dev) : Dev := { d.arSettle.swapApply geoSwap with arSwapped := List.range 8 }

/-- The step of one port (R182). -/
def stepPort (skip : List Nat) (d : Dev) (e : Nat × Int) : Dev :=
  if skip.contains e.1 || d.bit (F.STI_OFS_LIMIT e.1) then d
  else
    let v := d.getS (F.STI_OFS_OFS e.1) + e.2
    let lim : Int := d.get F.STI_AR_LIM_OFS_LIMIT
    if lim < v.natAbs then ((d.setS (F.STI_OFS_OFS e.1) (clampI (-lim) lim v)).put (F.STI_OFS_LIMIT e.1) true).raise 0x34 3
    else d.setS (F.STI_OFS_OFS e.1) v

/-- The steps of group g that fall due at row index `k` are applied together, where the loop is still on; a port written at the same row keeps the
written value (R181, R183). -/
def arApply (d : Dev) (g k : Nat) (written : List Nat) : Dev :=
  let isDue := fun (s : ArStep) => s.group = g && decide (0 ≤ sgn 32 ((k + 2 ^ 32 - s.index) % 2 ^ 32))
  let hit := d.arSteps.filter isDue
  let d := { d with arSteps := d.arSteps.filter (fun s => !isDue s) }
  if d.arOn then hit.foldl (fun d s => (s.steps.foldl (stepPort written) d).count F.STI_AR_STAT_STEPS) d else d

/-- Driver writes of offsets due at row `k` of group g take effect; each clears LIMIT (R182, R183). -/
def ofsApply (d : Dev) (g k : Nat) : Dev × List Nat :=
  let isDue := fun (w : OfsWrite) => d.groupOf w.port = g && (match w.index with | none => true | some i => i = k)
  let hit := d.ofsWrites.filter isDue
  let d' := { d with ofsWrites := d.ofsWrites.filter (fun w => !isDue w) }
  (hit.foldl (fun d w => (d.set (F.STI_OFS_OFS w.port) w.value).put (F.STI_OFS_LIMIT w.port) false) d', hit.map (·.port))

/-- An offset within OFS_LIMIT is held for its row; on a port of no group it takes effect at once (R183, R190). -/
def stiOfsPut (d : Dev) (p v : Nat) : Dev :=
  if d.get F.STI_AR_LIM_OFS_LIMIT < (sgn 16 v).natAbs then d.refuse 0x34 (0x80 + 4 * p) .range
  else
    let idx := if d.bit F.STI_AR_CTRL_OFS_TIMED then some (d.get F.STI_OFS_AT_INDEX) else none
    if 8 ≤ d.groupOf p then (d.set (F.STI_OFS_OFS p) v).put (F.STI_OFS_LIMIT p) false
    else { d with ofsWrites := d.ofsWrites.filter (fun w => w.port ≠ p) ++ [OfsWrite.mk p v idx] }

/-- STI_OFS_WRITE: a write of an offset. -/
def stiOfsWrite (d : Dev) (p value : Nat) : Dev :=
  d.gated 0x34 (0x80 + 4 * p) (·.stiOfsPut p (fieldOf (F.STI_OFS_OFS p) value))

/-! ### Spectral transform (R185, R186) -/

/-- One feature of a pixel: its quantised value, and whether it was clamped (R185). -/
def feature (d : Dev) (n g j : Nat) (s : List Nat) : Nat × Bool :=
  let a := specAt n g
  let sum := (List.range 4).foldl (fun (t : Int) b => t + sgn 16 (d.read (a + 8 * j + 2 * b) 2) * (s.getD b 0 : Int)) 2048
  let raw := sum / 4096 + sgn 32 (d.read (a + 0x40 + 4 * j) 4)
  let v := (clampI 0 65535 raw).toNat
  let e := fun i => (d.read (a + 0x100 + 0x210 * j + 2 * i) 2 : Int)
  let i := v / 256; let r : Int := (v % 256 : Nat)
  let c := e i + ((e (i + 1) - e i) * r + 128) / 256
  ((c / 2 ^ (16 - d.qbits n g j)).toNat, decide (raw ≠ v))

/-- The class index of a pixel and its clamped features (R185). -/
def classIndex (d : Dev) (n g : Nat) (s : List Nat) : Nat × Nat :=
  let r := (List.range 8).foldl (fun (a : Nat × Nat × Nat) j =>
    let q := d.qbits n g j
    if q = 0 then a
    else
      let f := d.feature n g j s
      (a.1 - q, a.2.1 + f.1 * 2 ^ (a.1 - q), a.2.2 + b2n f.2)) (16, 0, 0)
  (r.2.1 % 65536, r.2.2)

/-- SKY_ROW_BUILD of one corrected row slot. `ueGeo`, `ueSpec`: a table read of the page suffered an uncorrectable error; `clsUe`: sky columns
whose class table read did (R167, R168, R186). -/
def skyRow (d : Dev) (slot : RowSlot) (ueGeo ueSpec : Bool) (clsUe : List Nat) : Dev :=
  let g := slot.group
  let d := slot.lines.foldl (fun d l => d.pushHist slot l) d
  let ps := chain (slot.lines.map (fun l => d.portSky l.port))
  let hard := d.bit (F.STI_GRP_BLEND_HARD g)
  let nb := slot.lines.foldl (fun m l => max m l.bands.length) 0
  let w := d.groupWidth g
  let bands := (List.range nb).map (fun b => (List.range w).map (fun x => (skySample hard ps b x).getD 0))
  let noCover := (List.range w).map (fun x => !ps.any (fun s => s.covers x))
  let synth := ps.any (·.synth)
  let parity := ps.any (·.parity) || ueGeo || ueSpec || !clsUe.isEmpty
  let d := d.count F.GEO_CNT_ABSENT_COUNT (ps.filter (·.absent)).length
  let d := if ueGeo then d.setParity 0x33 (F.BLK_PARITY_SRAM_UE 0x33) else d
  let d := if ueSpec || !clsUe.isEmpty then d.setParity 0x35 (F.BLK_PARITY_SRAM_UE 0x35) else d
  let d := if synth || parity then d else (seamsOf ps).foldl (fun d lr => d.measureSeam g lr) d
  let n := d.get F.SPEC_SWAP_ACTIVE
  let on := d.testBit F.SPEC_CTRL_EN g
  let pix := (List.range w).map (fun x =>
    if !on then (0, 0)
    else
      let r := d.classIndex n g (bands.map (fun b => b.getD x 0))
      (if noCover.getD x true || clsUe.contains x then 0 else (d.byte (0x4_4000_0000 + n * 0x1_0000 + r.1)).toNat, r.2))
  let d := d.count F.SPEC_CNT_CLAMP_COUNT (pix.map (·.2)).sum
  let maps := ps.map (fun s => { d.portMap s.port with synth := s.synth })
  { d with skyOut := d.skyOut ++ [SkyRow.mk g slot.index slot.stamp synth parity bands noCover (pix.map (·.1)) maps hard slot.floor] }

/-- SKY_ROW_BUILD: the next corrected row slot reaches the sky island. Due swaps, offset writes and steps come first (R181, R183, R188). -/
def skyRowBuild (d : Dev) (ueGeo ueSpec : Bool) (clsUe : List Nat) : Dev :=
  match d.corOut with
  | [] => d
  | slot :: rest =>
    let d := { d with corOut := rest }
    let g := slot.group; let k := slot.index; let t := slot.stamp / 2 ^ 16
    let d := d.arSettle (· = g)
    let d := if d.swapReady geoSwap (some (t, g, k)) then d.geoSwapNow else d
    let d := if d.swapReady specSwap (some (t, g, k)) then d.swapApply specSwap else d
    let d := (d.swapPassed geoSwap t).swapPassed specSwap t
    let (d, written) := d.ofsApply g k
    let d := d.arApply g k written
    let d := d.skyRow slot ueGeo ueSpec clsUe
    if k % (max 1 (d.get F.STI_AR_CTRL_ROWS)) = 0 then { d with due := d.due ++ [.arClose g k] } else d

/-- AR_INTERVAL_CLOSE: the interval of group g that the last row ended is closed (R179). -/
def arIntervalClose (d : Dev) (g : Nat) : Dev := d.arSettle (· = g)

/-- AR_STEP_APPLY: the next row of group g to reach the sky island is one at which steps fall due (R181). -/
def arStepApply (d : Dev) (g : Nat) : Dev :=
  match d.corOut.find? (fun s => s.group = g) with
  | some s =>
    let (d, written) := d.ofsApply g s.index
    d.arApply g s.index written
  | none => d

/-! ### Swaps (R188) -/

def geoSwapGo (d : Dev) (value : Nat) : Dev := d.swapGo geoSwap value (fun d => d.geoCheck (1 - d.get F.GEO_SWAP_ACTIVE))
def specSwapGo (d : Dev) (value : Nat) : Dev := d.swapGo specSwap value (fun d => d.specCheck (1 - d.get F.SPEC_SWAP_ACTIVE))

/-- The next row slot to reach the sky island: its DT, group and index. -/
def nextSkyDt (d : Dev) : Option (Nat × Nat × Nat) := d.corOut.head?.map (fun s => (s.stamp / 2 ^ 16, s.group, s.index))

def geoSwapApply (d : Dev) : Dev :=
  if d.swapReady geoSwap d.nextSkyDt then d.geoSwapNow else d
def specSwapApply (d : Dev) : Dev := if d.swapReady specSwap d.nextSkyDt then d.swapApply specSwap else d

end Dev

/-! ### The meanings -/

def execSkyRowBuild (ueGeo ueSpec : Bool) (clsUe : List Nat) (s : State) : Answer := s.run (·.skyRowBuild ueGeo ueSpec clsUe)
def execArIntervalClose (g : Nat) (s : State) : Answer := s.run (·.arIntervalClose g)
def execArStepApply (g : Nat) (s : State) : Answer := s.run (·.arStepApply g)
def execStiOfsWrite (p value : Nat) (s : State) : Answer := s.run (·.stiOfsWrite p value)
def execGeoSwapGo (value : Nat) (s : State) : Answer := s.run (·.geoSwapGo value)
def execGeoSwapApply (s : State) : Answer := s.run (·.geoSwapApply)
def execSpecSwapGo (value : Nat) (s : State) : Answer := s.run (·.specSwapGo value)
def execSpecSwapApply (s : State) : Answer := s.run (·.specSwapApply)

end Sys2Proof.Machine
end

