-- ==== Sys2Proof/Machine/Correction.lean ====
section
/-! DEFINITION. Line correction (R137–R166): noise reduction, flat field, defects, focus statistics, background tracking and zones. -/

namespace Sys2Proof.Machine

/-! ### Noise and the filters (R143, R145, R148) -/

/-- The variance of a raw sample: READ² plus shot noise above dark (R143). `m` is K and READ. -/
def variance (m : Nat × Nat) (dark v : Nat) : Nat := m.2 * m.2 + m.1 * (v - dark) / 256

/-- "|delta| ≤ M × σ" on squares, M in 4.4 form (R143). -/
def withinSigma (k : Nat) (delta : Int) (var : Nat) : Bool := decide (delta.natAbs * delta.natAbs * 256 ≤ k * k * var)

/-- The weighted mean of the taps of one column (R145). -/
def spatialAt (k : Nat) (m : Nat × Nat) (cs : List Coef) (raw : List Nat) (x : Nat) : Nat :=
  let v0 := raw.getD x 0
  let c := cs.getD x {}
  if c.defect ≠ 0 then v0
  else
    let var := variance m c.dark v0
    let taps := [((-2 : Int), 1), (-1, 2), (1, 2), (2, 1)].filterMap (fun t =>
      let i := (x : Int) + t.1
      if i < 0 ∨ raw.length ≤ i then none
      else
        let v := raw.getD i.toNat 0
        if (cs.getD i.toNat {}).defect = 0 && withinSigma k ((v : Int) - v0) var then some (t.2, v) else none)
    let w := 4 + (taps.map (·.1)).sum
    (4 * v0 + (taps.map (fun t => t.1 * t.2)).sum + w / 2) / w

/-- Spatial noise reduction of a line (R145). -/
def spatial (k : Nat) (m : Nat × Nat) (cs : List Coef) (raw : List Nat) : List Nat :=
  (List.range raw.length).map (spatialAt k m cs raw)

/-- The temporal state of one column after sample s (R148). -/
def temporalAt (k shift : Nat) (m : Nat × Nat) (c : Coef) (isBg : Bool) (s y : Nat) : Nat :=
  if isBg && withinSigma k ((s : Int) - y) (variance m c.dark s) then
    ((y : Int) + ((s : Int) - y + 2 ^ (shift - 1)) / 2 ^ shift).toNat
  else s

/-- The corrected sample, and whether it was clamped (R150). -/
def flatAt (c : Coef) (v : Nat) : Nat × Bool :=
  let r := (((v : Int) - c.dark) * c.gain + 1024) / 2048
  ((clampI 0 65535 r).toNat, decide (r < 0 ∨ 65535 < r))

/-- The value of a defective column (R151); none when neither neighbour exists. -/
def replaceAt (cs : List Coef) (c : List Nat) (x : Nat) : Option Nat :=
  let good := fun i => decide (i < c.length) && (cs.getD i {}).defect = 0
  let l := (findBelow (fun n => decide (n + 1 ≤ x) && good (x - (n + 1))) 4).map (fun n => c.getD (x - (n + 1)) 0)
  let r := (findBelow (fun n => good (x + (n + 1))) 4).map (fun n => c.getD (x + (n + 1)) 0)
  match (cs.getD x {}).defect, l, r with
  | _, none, none => none
  | 1, some a, some b => some ((a + b + 1) / 2)
  | 3, some _, some b => some b
  | _, some a, _ => some a
  | _, none, some b => some b

namespace Dev

/-- The coefficient entry in force; a pair with an uncorrectable error reads as a neutral defective one (R141). -/
def coefAt (d : Dev) (ue : List (Nat × Nat × Nat)) (p b x : Nat) : Coef :=
  if ue.contains (p, b, x / 2) then ⟨2048, 0, 1⟩ else coefOfWord (d.read (coefOff (d.get F.COR_SWAP_ACTIVE) p b x) 4)

/-- The noise model in force: K and READ (R144). -/
def noiseModel (d : Dev) (p b : Nat) : Nat × Nat := Sparse.get d.nrModel (0x100, 16) (4 * p + b)

/-- The staged noise model of every port and band becomes active (R144). -/
def activateModel (d : Dev) : Dev :=
  (List.range 64).foldl (fun d i =>
    let m := (d.get (F.NR_MODEL_K i), d.get (F.NR_MODEL_READ i))
    { d with nrModel := Sparse.set d.nrModel (0x100, 16) i m }) d

/-- A due COR swap with the model that goes with it (R144, R163). -/
def corSwapApply (d : Dev) (t : Option (Nat × Nat × Nat)) : Dev := if d.swapReady corSwap t then ((d.swapApply corSwap).activateModel).put F.CAL_ILLUM_PEND false else d

/-- The background columns of a port's line for row k: the decision of row k − D seen through that row's mapping (R146, R147). -/
def maskOf (d : Dev) (g p k len : Nat) : List Bool :=
  let lag := d.get (F.COR_MASK_LAG_LAG g)
  let dil := d.get F.COR_MASK_DIL
  match (Sparse.get d.fgRows [] g).find? (fun r => decide (r.index = (k + 2 ^ 32 - lag) % 2 ^ 32)) with
  | none => List.replicate len false
  | some r => match r.maps.find? (fun m => m.port = p) with
    | none => List.replicate len false
    | some m => (List.range len).map (fun x => match nearestSky m x (Config.laterColumn x m.xFirst m.xLast) with
      | none => false
      | some c => (List.range (2 * dil + 1)).all (fun i => decide (c + i < dil) || !r.fg.getD (c + i - dil) false))

/-! ### Statistics (R153, R160) -/

/-- The edges of a corrected line added to the port's zones (R153). -/
def focusLine (d : Dev) (p : Nat) (mask : List Bool) (c : List Nat) : Dev :=
  let len := c.length
  let at_ := fun x => (c.getD x 0 : Int)
  (List.range (len - 1)).foldl (fun d x =>
    if mask.getD x false = mask.getD (x + 1) false ∨ x < 2 ∨ len ≤ x + 3 then d
    else
      let h := (at_ (x + 3) - at_ (x - 2)).natAbs
      let g := max (at_ x - at_ (x - 1)).natAbs (max (at_ (x + 1) - at_ x).natAbs (at_ (x + 2) - at_ (x + 1)).natAbs)
      if h < d.get F.FOC_MIN_STEP_MIN_STEP then d
      else
        let z := (List.range 16).find? (fun z => decide (z * len / 16 ≤ x ∧ x < (z + 1) * len / 16))
        let i := 16 * p + z.getD 0
        let s := Sparse.get d.focLive (0, 0) i
        let v := (min (s.1 + min (g * 256 / (max 1 h)) 256) 0xFFFF_FFFF, min (s.2 + 1) 0xFFFF_FFFF)
        { d with focLive := Sparse.set d.focLive (0, 0) i v }) d

/-- A requested focus snapshot is taken (R154). -/
def focSnapshot (d : Dev) : Dev :=
  if d.bit F.FOC_CTRL_SNAP then
    let d := ((({ d with focSnap := d.focLive, focLive := [] }).count F.FOC_CTRL_SEQ).put F.FOC_CTRL_SNAP false).raise 0x32 3
    d.focSnap.foldl (fun d e => if e.2.2 = 0 then d else d.observe 0x32 0x0B (e.1 / 16) (e.2.1 / e.2.2)) d
  else d

/-- Whether a gap sample passes the gate of R156. -/
def bgGate (d : Dev) (e : BgEntry) (c : Nat) : Bool :=
  decide (((c : Int) - e.bg).natAbs * 16 ≤ d.get F.COR_BG_CFG_GATE * max e.noise (d.get F.COR_BG_FLOOR_N_FLOOR))

/-- Background tracking of one column (R156). -/
def trackAt (p b : Nat) (c : List Nat) (d : Dev) (x : Nat) : Dev :=
  let v := c.getD x 0
  let e := d.bgAt p b x
  let r : Int := (v : Int) - e.bg
  if d.bgStale e then d.setBg p b x ⟨v, d.get F.COR_BG_FLOOR_N_INIT, 0⟩
  else if d.bgGate e v then
    let sh := d.get F.COR_BG_CFG_SHIFT; let ns := d.get F.COR_BG_CFG_NSHIFT
    let lim : Int := d.get F.COR_BG_CFG_STEP_MAX
    d.setBg p b x ⟨((e.bg : Int) + clampI (-lim) lim ((r + 2 ^ (sh - 1)) / 2 ^ sh)).toNat,
      min 4095 ((e.noise : Int) + ((r.natAbs : Int) - e.noise + 2 ^ (ns - 1)) / 2 ^ ns).toNat, 0⟩
  else d.count F.COR_CNT_OUTLIER_COUNT

/-- One gap sample in the statistics of its zone (R160). A sample over a stale entry is judged by the gate like any other (log entry 21, DEDUCED). -/
def zoneAt (p b z : Nat) (c : List Nat) (d : Dev) (x : Nat) : Dev :=
  let v := c.getD x 0
  let e := d.bgAt p b x
  if d.bgGate e v then
    let i := (4 * p + b) * 16 + z
    let s := Sparse.get d.zones {} i
    let r : Int := (v : Int) - e.bg
    { d with zones := Sparse.set d.zones {} i { res := s.res + r, abs := s.abs + r.natAbs, n := s.n + 1 } }
  else d

/-- Step 6 of a real line: the zone statistics against the array in force, then tracking (R156, R159, R160). A synthetic line gives no statistics (log
entry 21, DEDUCED). -/
def backgroundLine (d : Dev) (p b : Nat) (mask : List Bool) (c : List Nat) : Dev :=
  let gap := fun x => mask.getD x false
  let d := if d.bit F.COR_CTRL_ZONE_EN then
      (List.range 16).foldl (fun d z => ((zoneCols c.length z).filter gap).foldl (zoneAt p b z c) d) d
    else d
  if d.bit F.COR_CTRL_BG_EN && d.feat 23 && d.learns 0x30 1 then ((List.range c.length).filter gap).foldl (trackAt p b c) d else d

/-! ### A line (Table cor-1) -/

/-- Steps 1 to 6 on band b of a port's line: the corrected line. The temporal state goes on from the last real line that was filtered: with TM_EN
switched on in mid-run from what it then held, where it held any (R149; log entry 104, DESIGN CHOICE). -/
def correctBand (d : Dev) (ue : List (Nat × Nat × Nat)) (p b : Nat) (mask : List Bool) (synth : Bool) (raw : List Nat) : Dev × List Nat :=
  let nr := !d.testing 0x31
  let cor := !d.testing 0x30
  let m := d.noiseModel p b
  let cs := (List.range raw.length).map (d.coefAt ue p b)
  let s := if nr && d.bit F.NR_CTRL_SP_EN then spatial (d.get F.NR_PARAM_SP_K) m cs raw else raw
  let y := Sparse.get d.tmState [] (4 * p + b)
  let tm := nr && d.bit F.NR_CTRL_TM_EN && !synth
  let t := if tm && !y.isEmpty then
      (List.range s.length).map (fun x => temporalAt (d.get F.NR_PARAM_TM_K) (d.get F.NR_PARAM_TM_SHIFT) m (cs.getD x {})
        (mask.getD x false) (s.getD x 0) (y.getD x 0))
    else s
  let d := if tm then { d with tmState := Sparse.set d.tmState [] (4 * p + b) t } else d
  let flat := cor && d.bit F.COR_CTRL_FLAT_EN
  let fl := (List.range t.length).map (fun x => if flat then flatAt (cs.getD x {}) (t.getD x 0) else (t.getD x 0, false))
  let d := d.count F.COR_CNT_CLIP_COUNT (fl.filter (·.2)).length
  let c := fl.map (·.1)
  let rep := (List.range c.length).map (fun x =>
    if cor && d.bit F.COR_CTRL_DEF_EN && (cs.getD x {}).defect ≠ 0 then
      match replaceAt cs c x with
      | some v => (v, false)
      | none => (c.getD x 0, true)
    else (c.getD x 0, false))
  let d := d.count F.COR_CNT_UNREPL_COUNT (rep.filter (·.2)).length
  let out := rep.map (·.1)
  let d := if !synth && d.enabled 0x32 && !d.testing 0x32 && d.get (F.FOC_BAND_BAND p) = b then d.focusLine p mask out else d
  let d := if !synth && cor then d.backgroundLine p b mask out else d
  (d, out)

/-- Every band of a port's line. -/
def correctPort (ue : List (Nat × Nat × Nat)) (g k : Nat) (acc : Dev × List PortLine) (l : PortLine) : Dev × List PortLine :=
  let d := acc.1
  let len := d.get (F.CXP_FORMAT_LINE_LEN l.port)
  let mask := d.maskOf g l.port k len
  let r := (List.range l.bands.length).foldl (fun (a : Dev × List (List Nat)) b =>
    let x := a.1.correctBand ue l.port b mask (l.synth.getD b true) (l.bands.getD b [])
    (x.1, a.2 ++ [x.2])) (d, [])
  (r.1, acc.2 ++ [{ l with bands := r.2 }])

/-! ### Rows -/

/-- AGE of every entry of a port advances, saturating at 15 (R157). -/
def ageEntries (inc : Nat) (d : Dev) (p : Nat) : Dev :=
  (List.range 65536).foldl (fun d i =>
    let a := bgOff p 0 i
    let v := (d.byte a).toNat
    d.setByte a (BitVec.ofNat 8 (v / 16 * 16 + min 15 (v % 16 + inc)))) d

/-- The ageing of group g that has fallen due (R157). -/
def bgAge (d : Dev) (g : Nat) : Dev :=
  if d.due.contains (.bgAge g) then
    ((d.portsOf g).foldl (ageEntries 1) { d with due := d.due.filter (· ≠ .bgAge g) }).refreshStale
  else d

/-- Every ageing that a past row slot made due is done: what a driver then writes is not aged by that row (R157, R161). -/
def bgSettle (d : Dev) : Dev := d.due.foldl (fun d x => match x with | .bgAge g => d.bgAge g | .arClose _ _ => d) d

/-- The lowest-numbered group that has a port (R160). -/
def firstGroup (d : Dev) : Nat := ((List.range 8).find? (fun g => d.portsOf g ≠ [])).getD 0

/-- The record of one zone written, its sums cleared (R160; log entry 20, DESIGN CHOICE). -/
def writeZone (d : Dev) (p b z : Nat) : Dev :=
  let i := (4 * p + b) * 16 + z
  let s := Sparse.get d.zones {} i
  let res : Int := if s.n = 0 then 0 else clampI (-32767) 32767 (d.meanFree 0 s.res s.n)
  let abs : Nat := if s.n = 0 then 0 else min 65535 (d.meanFree 1 s.abs s.n).toNat
  let d := d.setBytes (0x4_41C0_0000 + i * 8) (wordsLe [uns 16 res + abs * 65536, s.n])
  (({ d with zones := Sparse.set d.zones {} i {} }).freeUsed 2).observe 0x30 0x0A p res

/-- The interval of group g closes when its rows are complete: records, SEQ, ZONE_DONE, proposals (R160, R479). -/
def zoneClose (d : Dev) (g : Nat) : Dev :=
  let x := Sparse.get d.zoneRows (0, 0) g
  if x.1 < d.get F.COR_BG_ZONE_ROWS ∨ d.portsOf g = [] then d
  else
    let d := (d.portsOf g).foldl (fun d p => (List.range 4).foldl (fun d b => (List.range 16).foldl (fun d z => d.writeZone p b z) d) d) d
    let d := { d with zoneRows := Sparse.set d.zoneRows (0, 0) g (0, 0) }
    if g = d.firstGroup then ((d.count F.COR_BG_ZONE_SEQ).raise 0x30 6).illumPropose x.2 else d

/-- The row slot that the ingest arbiter passes next: lowest trigger DT, then lowest group (R103). -/
def nextSlot (d : Dev) : Option RowSlot :=
  d.slotsOut.foldl (fun (b : Option RowSlot) s => match b with
    | none => some s
    | some m => if s.stamp < m.stamp ∨ (s.stamp = m.stamp ∧ s.group < m.group) then some s else some m) none

/-- A row slot corrected (R137). Duties that fall before it come first: a closing interval, an ageing, a swap, a snapshot. AGE advances at a row slot
whose index is a multiple of 4,096 after the tracking of that row; R157 does not say whether before or after (log entry 93, DESIGN CHOICE). -/
def correctRow (d : Dev) (ue : List (Nat × Nat × Nat)) (slot : RowSlot) : Dev :=
  let g := slot.group; let k := slot.index; let t := slot.stamp / 2 ^ 16
  let d := ({ d with slotsOut := d.slotsOut.erase slot }).zoneClose g
  let d := { d.bgAge g with staleAge := d.get F.COR_BG_CFG_STALE_AGE }
  let d := (d.corSwapApply (some (t, g, k))).swapPassed corSwap t
  let d := d.focSnapshot
  let bad := slot.lines.any (fun l => ue.any (fun e => e.1 = l.port))
  let r := slot.lines.foldl (correctPort ue g k) (d, [])
  let d := r.1
  let d := if bad then d.setParity 0x30 (F.BLK_PARITY_SRAM_UE 0x30) else d
  let d := { d with corOut := d.corOut ++ [{ slot with lines := r.2, parity := slot.parity || bad, floor := d.get F.COR_BG_FLOOR_N_FLOOR }] }
  let d := if d.bit F.COR_CTRL_ZONE_EN && !d.testing 0x30 then
      { d with zoneRows := Sparse.set d.zoneRows (0, 0) g ((Sparse.get d.zoneRows (0, 0) g).1 + 1, t) } else d
  let d := if k % 4096 = 0 then { d with due := d.due ++ [.bgAge g] } else d
  d.refreshStale

/-- ROW_CORRECTION: the next row slot passes through the correction island; `ue` names pairs of coefficients that read with an uncorrectable
error: port, band, pair (R141). -/
def rowCorrection (d : Dev) (ue : List (Nat × Nat × Nat)) : Dev := match d.nextSlot with
  | none => d
  | some s => d.correctRow ue s

/-- The next row slot to reach the correction island: its DT, group and index. -/
def nextCorDt (d : Dev) : Option (Nat × Nat × Nat) := d.nextSlot.map (fun s => (s.stamp / 2 ^ 16, s.group, s.index))

/-- FOC_SNAP_WRITE: a write of FOC_CTRL (R154). -/
def focSnapWrite (d : Dev) (value : Nat) : Dev :=
  d.gated 0x32 0x40 (fun d => if value % 2 = 1 then d.put F.FOC_CTRL_SNAP true else d)

/-- FOC_SNAPSHOT: a row slot is passed to the correction island with SNAP = 1 (R154). -/
def focSnapshotEvent (d : Dev) : Dev := if d.nextSlot.isSome then d.focSnapshot else d

end Dev

/-! ### The meanings -/

def execRowCorrection (ue : List (Nat × Nat × Nat)) (s : State) : Answer := s.run (·.rowCorrection ue)
def execBgAgeTick (g : Nat) (s : State) : Answer := s.run (·.bgAge g)
def execZoneDone (g : Nat) (s : State) : Answer := s.run (·.zoneClose g)
def execCorSwapGo (value : Nat) (s : State) : Answer := s.run (·.swapGo corSwap value (fun _ => none))
def execCorSwapApply (s : State) : Answer := s.run (fun d => d.corSwapApply d.nextCorDt)
def execFocSnapWrite (value : Nat) (s : State) : Answer := s.run (·.focSnapWrite value)
def execFocSnapshot (s : State) : Answer := s.run (·.focSnapshotEvent)

end Sys2Proof.Machine
end

