-- ==== Sys2Proof/Machine/Module.lean ====
section
/-! DEFINITION. What an ejector module does on each of its two links (R331–R335, R345–R351, Table met-6): acceptance of frames, its table of
pulses, its drives, ownership, the watchdog, STATUS and SEAT. Instants are values of C; the module's own time is C plus an offset. -/

namespace Sys2Proof.Machine

def modLink (x : Module) (l : Nat) : ModLink := Sparse.get x.links {} l
def setModLink (x : Module) (l : Nat) (k : ModLink) : Module := { x with links := Sparse.set x.links {} l k }

/-- Whether 16 bytes form a frame that a receiver keeps (R334): length, CRC-16, a type of Table met-2. -/
def frameOk (b : List Nat) : Bool :=
  decide (b.length = 16 ∧ crc16 (b.take 14) = b.getD 14 0 * 256 + b.getD 15 0 ∧ 1 ≤ b.getD 0 0 / 16 ∧ b.getD 0 0 / 16 ≤ 5)

/-- Bytes i to i + n − 1 of a frame, little-endian. -/
def frameNum (b : List Nat) (i n : Nat) : Nat := leNat ((b.drop i).take n)

/-- TIME_LOCK of a link: three beacons received on it (R351; log entry 23, DEDUCED). -/
def timeLock (k : ModLink) : Bool := decide (3 ≤ k.beacons)

/-- Whether a link claims the token at counter value `c`: its last beacon, at most 1 ms old, had CLAIM = 1 (R348). -/
def linkClaims (k : ModLink) (c : Nat) : Bool := k.claim && (match k.beaconAt with | some t => decide (c - t ≤ 1000000) | none => false)

/-- The owner and the CONFLICT of R348. A difference of exactly 32,768 makes neither EPOCH greater and is taken as equal (log entry 24, DEDUCED). -/
def ownerOf (x : Module) (c : Nat) : Option Nat × Bool :=
  let a := modLink x 0
  let b := modLink x 1
  match linkClaims a c, linkClaims b c with
  | false, false => (none, false)
  | true, false => (some 0, false)
  | false, true => (some 1, false)
  | true, true =>
    let diff := (a.epoch + 65536 - b.epoch % 65536) % 65536
    if 1 ≤ diff ∧ diff ≤ 32767 then (some 0, false)
    else if 32769 ≤ diff then (some 1, false)
    else match x.owner with | some o => (some o, false) | none => (none, true)

/-- Module time in 0.25 ns at counter value `c`, within 40 bits of ns. -/
def modTime4 (x : Module) (c : Nat) : Nat := ((4 * (c : Int) + x.time) % (4 * 2 ^ 40 : Nat)).toNat

/-- F − module time in 0.25 ns, by signed 40-bit difference (R407). -/
def ahead4 (x : Module) (c f : Nat) : Int := 4 * st40Diff f (modTime4 x c / 4) - (modTime4 x c % 4 : Nat)

/-- Whether pulse p covers the present instant. -/
def covers (x : Module) (c : Nat) (p : ModPulse) : Bool := decide (ahead4 x c p.f ≤ 0 ∧ 0 < ahead4 x c p.e)

/-- Ownership judged again (R348, R349): when the owner changes, a drive continues only where a pulse of the new owner's table covers it. -/
def reown (x : Module) (c : Nat) : Module :=
  let (o, conflict) := ownerOf x c
  let x' := { x with conflict := conflict }
  if o = x.owner then x'
  else match o with
    | none => { x' with owner := none, drives := [] }
    | some l =>
      let k := modLink x l
      let keep := fun (v : Nat) => timeLock k && k.table.any (fun p => p.valve = v && covers x c p)
      let driven := x.drives.filter (fun v => keep v.valve)
      let table := k.table.map (fun p => if covers x c p && driven.any (fun v => v.valve = p.valve) then { p with active := true } else p)
      setModLink { x' with owner := some l, drives := driven } l { k with table := table }

/-- The SEQ rule of R345: the link afterwards, and whether the frame is new. -/
def acceptSeq (k : ModLink) (seq : Nat) : ModLink × Bool :=
  let fwd := (seq + 65536 - k.h) % 65536
  let back := (k.h + 65536 - seq) % 65536
  if 1 ≤ fwd ∧ fwd ≤ 32767 then
    ({ k with h := seq, map := (k.map * 2 ^ min fwd 16 + 1) % 65536, dropped := (k.dropped + (fwd - 1)) % 256 }, true)
  else if back ≤ 15 ∧ k.map / 2 ^ back % 2 = 0 then ({ k with map := k.map + 2 ^ back }, true)
  else (k, false)

/-- The link without pulses whose end has passed undriven. -/
def purge (x : Module) (c : Nat) (k : ModLink) : ModLink :=
  { k with table := k.table.filter (fun p => p.active || decide (0 ≤ ahead4 x c p.e)) }

/-- A FIRE accepted on link `l` (Table met-6). `rated` is the valve's rated maximum on-time in units of 10 ns. -/
def modFire (x : Module) (c l : Nat) (b : List Nat) (rated : Nat) : Module :=
  let k := purge x c (modLink x l)
  let v := b.getD 1 0 % 64
  let f := frameNum b 4 5
  let dur := frameNum b 9 3
  let e := (f + 10 * dur) % 2 ^ 40
  let ahead := ahead4 x c f
  let same := k.table.filter (fun p => p.valve = v)
  let isCont := b.getD 0 0 / 8 % 2 = 1 ∧ same.any (fun p => p.e = f) = true
  let overlap := same.any (fun p => decide (0 < st40Diff e p.f ∧ 0 < st40Diff p.e f))
  let reject := { k with rej := (k.rej + 1) % 256 }
  if k.tombs.contains (v, f) ∧ 0 < ahead then setModLink x l { k with tombs := k.tombs.erase (v, f) }
  else if ahead < 40000 ∨ 80000000 < ahead ∨ x.valvesM1 < v ∨ dur = 0 ∨ rated < dur ∨ 5000000 < dur then setModLink x l reject
  else if overlap then setModLink x l reject
  else if 512 ≤ k.table.length then setModLink x l { reject with full := true }
  else setModLink x l { k with table := k.table ++ [{ valve := v, f := f, e := e, cont := decide isCont }] }

/-- A CANCEL accepted on link `l` (Table met-6). A tombstone is kept until its F passes. -/
def modCancel (x : Module) (c l : Nat) (b : List Nat) : Module :=
  let k := modLink x l
  let v := b.getD 1 0 % 64
  let f := frameNum b 4 5
  if b.getD 0 0 % 2 = 1 then
    let x := setModLink x l { k with table := [] }
    if x.owner = some l then { x with drives := [] } else x
  else match k.table.find? (fun p => p.valve = v && p.f = f) with
    | some _ =>
      if 0 < ahead4 x c f then setModLink x l { k with table := k.table.filter (fun p => !(p.valve = v && p.f = f)) }
      else setModLink x l { k with missed := (k.missed + 1) % 256 }
    | none =>
      if ahead4 x c f ≤ 0 then setModLink x l { k with missed := (k.missed + 1) % 256 }
      else setModLink x l { k with tombs := (k.tombs.filter (fun t => decide (0 < ahead4 x c t.2))) ++ [(v, f)] }

namespace Dev

def module (d : Dev) (n k : Nat) : Module := Sparse.get d.plan.modules {} (4 * n + k)
def setModule (d : Dev) (n k : Nat) (x : Module) : Dev :=
  { d with plan := { d.plan with modules := Sparse.set d.plan.modules {} (4 * n + k) x } }

/-- Whether the operands name a module and a link of the block. -/
def isModule (n k : Nat) : Bool := decide (n < 8 ∧ k < 4)

/-- An upstream frame as a module passes it on: a ranging reply's TURN grows by the time, in 0.25 ns, that it stayed, with a new CRC (R336). -/
def forwarded (b : List Nat) (stay : Nat) : List Nat :=
  if b.getD 0 0 / 16 = 4 ∧ b.getD 0 0 / 8 % 2 = 1 then frame16 (b.take 9 ++ leBytes 3 (frameNum b 9 3 + stay) ++ (b.drop 12).take 2) else b

/-- Where the next frame slot of a transmitter of a module starts. -/
def txStart (d : Dev) (t : LineTx) : Nat := max d.time.c t.busyTo

/-- A frame leaves a module in the next free slot, upstream or downstream (R331, R333). -/
def modSend (d : Dev) (n k l : Nat) (up : Bool) (bytes : List Nat) : Dev :=
  let x := d.module n k
  let link := modLink x l
  let t := if up then link.up else link.down
  let r := slotChars 20 t.busyTo t.rd (d.txStart t) bytes
  let t' : LineTx := ⟨d.txStart t + 380, r.1⟩
  (d.setModule n k (setModLink x l (if up then { link with up := t' } else { link with down := t' }))).emit
    (if up then .modFrame n k l r.2 else .modDown n k l r.2)

/-- Module k repeats what comes from the device to module k + 1 (R331). -/
def modRepeat (d : Dev) (n k l : Nat) (bytes : List Nat) : Dev := if k < 3 then d.modSend n k l false bytes else d

/-- A frame that fails R334 is discarded and counted. -/
def modDiscard (d : Dev) (n k l : Nat) : Dev :=
  let x := d.module n k
  d.setModule n k (setModLink x l { modLink x l with crcErr := ((modLink x l).crcErr + 1) % 256 })

/-- A frame reaches module k of port n on link `l` (R331, R334, R336, R345): `up`, one from the module after it, which it merges into its own; else one from
the device, which it repeats, and takes where it is addressed. -/
def moduleFrame (d : Dev) (n k l : Nat) (b : List Nat) (rated fitted stay : Nat) (up : Bool) : Dev :=
  if !isModule n k ∨ 2 ≤ l then d
  else
    let d := d.setModule n k { d.module n k with valvesM1 := (fitted + 63) % 64 }
    let typ := b.getD 0 0 / 16
    if up then (if !frameOk b then d.modDiscard n k l else if typ = 4 ∨ typ = 5 then d.modSend n k l true (forwarded b stay) else d)
    else
      let d := d.modRepeat n k l b
      if !frameOk b then d.modDiscard n k l
      else if b.getD 1 0 / 64 ≠ k ∨ (typ ≠ 1 ∧ typ ≠ 2) then d
      else
        let x := d.module n k
        let (link, new) := acceptSeq (modLink x l) (frameNum b 2 2)
        let x := setModLink x l { link with dirty := true }
        d.setModule n k (if !new then x else if typ = 1 then modFire x d.time.c l b rated else modCancel x d.time.c l b)

/-- A beacon's first bit reaches module k of port n on link `l` (R331, R335, R345, R348). -/
def moduleBeacon (d : Dev) (n k l : Nat) (b : List Nat) : Dev :=
  if !isModule n k ∨ 2 ≤ l then d
  else
    let d := d.modRepeat n k l b
    let x := d.module n k
    let link := modLink x l
    if !frameOk b then d.modDiscard n k l
    else if b.getD 0 0 / 16 ≠ 3 then d
    else
      let sub := if b.getD 1 0 / 64 = k then b.getD 0 0 / 4 % 4 else 0
      let value := frameNum b 9 2
      let link := if sub = 1 then { link with turn := some d.time.c, dirty := true }
        else if sub = 2 then { link with delay := value }
        else if sub = 3 then { link with h := (value + 65535) % 65536, map := 65535 } else link
      let link := { link with beaconAt := some d.time.c, beacons := link.beacons + 1, claim := decide (b.getD 0 0 / 2 % 2 = 1),
                              epoch := frameNum b 2 2, side := b.getD 11 0 % 2 }
      let x := { setModLink x l link with time := 4 * (frameNum b 4 5 : Int) + link.delay - 4 * d.time.c }
      d.setModule n k (reown x d.time.c)

/-- A held pulse of the owning link reaches F: its drive starts then or within 20 ns, or not at all (R346). It does not start when the link's watchdog
expires at that instant (R356). -/
def moduleDriveStart (d : Dev) (n k v : Nat) : Dev :=
  let x := d.module n k
  match x.owner with
  | none => d
  | some l =>
    let link := modLink x l
    match link.table.find? (fun p => p.valve = v && !p.active && covers x d.time.c p && decide (-80 ≤ ahead4 x d.time.c p.f)) with
    | none => d
    | some p =>
      if !timeLock link ∨ !(match link.beaconAt with | some t => decide (d.time.c - t < 1000000) | none => false) then d
      else
        let x := setModLink x l { link with table := link.table.map (fun q => if q = p then { p with active := true } else q) }
        if x.drives.any (fun r => r.valve = v) then d.setModule n k x
        else d.setModule n k { x with drives := x.drives ++ [⟨v, d.time.c⟩],
                                      seats := x.seats ++ [⟨v, p.f, d.time.c⟩] }

/-- F + D of the pulse that drives a valve is reached: the drive ends, unless a continuation covers the boundary (Table met-6). -/
def moduleDriveEnd (d : Dev) (n k v : Nat) : Dev :=
  let x := d.module n k
  match x.owner with
  | none => d
  | some l =>
    let link := modLink x l
    match link.table.find? (fun p => p.valve = v && p.active && decide (ahead4 x d.time.c p.e ≤ 0)) with
    | none => d
    | some p =>
      let rest := link.table.filter (fun q => q ≠ p)
      let goesOn := rest.any (fun q => q.valve = v && (q.active || q.cont && q.f = p.e) && decide (0 < ahead4 x d.time.c q.e))
      let table := rest.map (fun q => if q.valve = v ∧ q.cont ∧ q.f = p.e then { q with active := true } else q)
      let x := setModLink x l { link with table := table }
      d.setModule n k (if goesOn then x else { x with drives := x.drives.filter (fun r => r.valve ≠ v) })

/-- A SEAT frame leaves the module on its owning link (Table met-5); while a ranging reply is due there, that goes first (R336). -/
def sendSeat (d : Dev) (n k : Nat) (s : SeatDue) (m noSeat : Nat) : Dev :=
  let x := { d.module n k with seats := (d.module n k).seats.filter (fun t => t ≠ s) }
  let l := x.owner.getD 0
  let link := modLink x l
  let frame := frame16 ([0x50 + noSeat, k * 64 + s.valve] ++ leBytes 5 s.f ++ leBytes 3 m ++ [0, 0, 0, 0])
  if link.turn.isSome then d.setModule n k (setModLink x l { link with waiting := link.waiting ++ [frame] })
  else (d.setModule n k x).modSend n k l true frame

/-- The armature of a valve seats `m` ns after its pulse's F (R346). -/
def moduleSeatDetect (d : Dev) (n k v m : Nat) : Dev :=
  match (d.module n k).seats.find? (fun s => s.valve = v) with
  | some s => d.sendSeat n k s m 0
  | none => d

/-- No seat within 10 ms of the drive (R346). -/
def moduleNoSeat (d : Dev) (n k v : Nat) : Dev :=
  match (d.module n k).seats.find? (fun s => s.valve = v && decide (10000000 ≤ d.time.c - s.openAt)) with
  | some s => d.sendSeat n k s 0xFFFFFF 1
  | none => d

/-- No valid beacon on a link for 1 ms (R351). -/
def moduleLinkWatchdog (d : Dev) (n k l : Nat) : Dev :=
  let x := d.module n k
  let link := modLink x l
  match link.beaconAt with
  | some t =>
    if 1000000 ≤ d.time.c - t then
      let x := setModLink x l { link with table := [], tombs := [], claim := false, beaconAt := none, beacons := 0 }
      d.setModule n k { reown x d.time.c with wdog := true }
    else d
  | none => d

/-- The fourteen bytes of a STATUS that leaves on a link at `c` (Table met-5). -/
def statusBytes (x : Module) (k c : Nat) (link : ModLink) : List Nat :=
  let own := match x.owner with | some o => some (modLink x o) | none => none
  let flags := b2n (timeLock link) + 2 * b2n own.isSome + 4 * (match own with | some o => o.side | none => 0) + 8 * b2n x.conflict
    + 16 * b2n (x.faultCode ≠ 0) + 32 * b2n x.wdog + 64 * b2n link.full
  let tail := match link.turn with
    | some t => leBytes 3 (4 * (c - t)) ++ [0]
    | none => [link.rej, link.crcErr, link.missed, link.dropped]
  [0x40 + 8 * b2n link.turn.isSome, k * 64 + x.valvesM1] ++ leBytes 2 link.h ++ leBytes 2 link.map ++ [flags, x.faultCode, x.faultValve]
    ++ tail ++ [match own with | some o => o.epoch % 256 | none => 0]

/-- STATUS on a link: after frames were handled or every 100 µs, no more often than once per 2 µs (R347). -/
def moduleStatusSend (d : Dev) (n k l : Nat) : Dev :=
  if !isModule n k ∨ 2 ≤ l then d
  else
    let x := d.module n k
    let link := modLink x l
    let age := d.time.c - link.statusAt
    if (link.dirty ∧ 2000 ≤ age) ∨ 100000 ≤ age then
      let d' := d.setModule n k { setModLink x l { link with dirty := false, full := false, turn := none, statusAt := d.time.c, waiting := [] }
        with wdog := false }
      (frame16 (statusBytes x k (d.txStart link.up) link) :: link.waiting).foldl (fun d f => d.modSend n k l true f) d'
    else d

/-- A drive has lasted its valve's rated maximum, in units of 10 ns: the module ends it and reports FAULT_CODE 5 (conformance 7). -/
def moduleOntimeGuard (d : Dev) (n k v rated : Nat) : Dev :=
  let x := d.module n k
  if x.drives.any (fun r => r.valve = v && decide (10 * rated ≤ d.time.c - r.openAt)) then
    d.setModule n k { x with drives := x.drives.filter (fun r => r.valve ≠ v), faultCode := 5, faultValve := v % 64 }
  else d

end Dev

/-! ### The meanings -/

def execModuleFrame (n k link : Nat) (rx : ModuleRx) (rated fitted : Nat) (s : State) : Answer :=
  s.run (·.moduleFrame n k link rx.bytes rated fitted rx.stay rx.up)
def execModuleBeacon (n k link : Nat) (b : List Nat) (s : State) : Answer := s.run (·.moduleBeacon n k link b)
def execModuleDriveStart (n k valve : Nat) (s : State) : Answer := s.run (·.moduleDriveStart n k valve)
def execModuleDriveEnd (n k valve : Nat) (s : State) : Answer := s.run (·.moduleDriveEnd n k valve)
def execModuleSeatDetect (n k valve time : Nat) (s : State) : Answer := s.run (·.moduleSeatDetect n k valve time)
def execModuleNoSeat (n k valve : Nat) (s : State) : Answer := s.run (·.moduleNoSeat n k valve)
def execModuleLinkWatchdog (n k link : Nat) (s : State) : Answer := s.run (·.moduleLinkWatchdog n k link)
def execModuleStatusSend (n k link : Nat) (s : State) : Answer := s.run (·.moduleStatusSend n k link)
def execModuleOntimeGuard (n k valve rated : Nat) (s : State) : Answer := s.run (·.moduleOntimeGuard n k valve rated)

end Sys2Proof.Machine
end

