-- ==== Sys2Proof/Machine/Meteor.lean ====
section
/-! DEFINITION. The Meteor ports (R331–R357): beacons and ranging, FIRE and CANCEL frames with their slots, the on-time guard, SEQ and
acknowledgement, module and port states; and what SEAT frames teach the planner (R321–R324). -/

namespace Sys2Proof.Machine

/-- The page of Meteor port n. -/
def metPage (n : Nat) : Nat := 0x81 + n

/-- The latency entry of a valve in BAR2 (R312, Table plan-2). -/
def latOff (i : Nat) : Nat := 0x4_4006_0000 + i * 16

namespace Dev

def metPort (d : Dev) (n : Nat) : MetPort := Sparse.get d.plan.ports {} n
def setMetPort (d : Dev) (n : Nat) (x : MetPort) : Dev := { d with plan := { d.plan with ports := Sparse.set d.plan.ports {} n x } }
def metModule (d : Dev) (n k : Nat) : MetModule := Sparse.get (d.metPort n).modules {} k
def setMetModule (d : Dev) (n k : Nat) (x : MetModule) : Dev :=
  d.setMetPort n { d.metPort n with modules := Sparse.set (d.metPort n).modules {} k x }

/-- The modules configured on a port. -/
def metModules (d : Dev) (n : Nat) : List Nat := List.range (d.get (F.MET_CFG_MODULES n) + 1)
def metState (d : Dev) (n : Nat) : Nat := d.get (F.BLK_STAT_STATE (metPage n))
def modState (d : Dev) (n k : Nat) : Nat := d.get (F.MET_MOD_STAT_STATE n k)

/-- F_MET_FEEDBACK is accepted. -/
def metFeedback (d : Dev) : Bool := d.feat 8

/-- Frames are repeated and not acknowledged: without feedback, and in DOWN (R344). -/
def metRepeats (d : Dev) (n : Nat) : Bool := !d.metFeedback || d.metState n = 5

/-- A port of the block whose transmitter runs. -/
def metRuns (d : Dev) (n : Nat) : Bool := decide (n < 8) && d.bit (F.MET_LINK_TX_ON n) && decide (1 ≤ d.metState n ∧ d.metState n ≤ 5)

/-- PLAN_QDEPTH, IN_FLIGHT and the MET_LINK fields follow the port. -/
def metShow (d : Dev) (n : Nat) : Dev :=
  let x := d.metPort n
  let q := x.pend.length
  let d := d.set (if n % 2 = 0 then F.PLAN_QDEPTH_DEPTH0 (n / 2) else F.PLAN_QDEPTH_DEPTH1 (n / 2)) q
  let d := (List.range 4).foldl (fun d k => d.set (F.MET_MOD_CNT2_IN_FLIGHT n k) (x.flights.filter (fun f => f.module = k)).length) d
  let ready := (List.range 4).foldl (fun m k => m + b2n (d.modState n k = 2) * 2 ^ k) 0
  let d := (d.set (F.MET_LINK_MOD_READY n) ready).put (F.MET_LINK_FEEDBACK n) d.metFeedback
  d.put (F.MET_LINK_REPEAT_MODE n) (d.metRepeats n)

/-- The port state that its modules give (Table met-7); DOWN is left only through MET_RX_LOCK. Entry into READY raises READY and ends the
wait of R353. -/
def metRestate (d : Dev) (n : Nat) : Dev :=
  if !d.metRuns n ∨ d.metState n = 5 then d.metShow n
  else
    let ms := d.metModules n
    let st := if ms.any (fun k => (d.metModule n k).ranging) then 2
      else if ms.all (fun k => d.modState n k = 2) then 3
      else if ms.any (fun k => d.modState n k = 2) && ms.any (fun k => d.modState n k = 3) then 4 else 1
    let was := d.metState n
    let d := (d.set (F.BLK_STAT_STATE (metPage n)) st).metShow n
    if st = 3 ∧ was ≠ 3 then (d.setMetPort n { d.metPort n with timedOut := true }).raise (metPage n) 3 else d

/-! ### Frames -/

/-- Where the next free frame slot starts, in C. -/
def slotStart (d : Dev) (n : Nat) : Nat := max d.time.c (d.metPort n).busyTo

/-- The DT in ns at which that slot starts. -/
def slotDt (d : Dev) (n : Nat) : Int := d.now + (d.slotStart n - d.time.c : Nat)

/-- One frame slot on the line (R333). Under EXTEST the balls are driven from the boundary register and no frame leaves (R554). -/
def metSlot (d : Dev) (n : Nat) (bytes : List Nat) : Dev :=
  let x := d.metPort n
  let start := d.slotStart n
  let r := slotChars 20 x.busyTo x.rd start bytes
  (if d.boot.extest.isSome then d else d.emit (.metFrame n r.2)).setMetPort n { x with busyTo := start + 380, rd := r.1 }

/-- Fourteen bytes and their CRC leave the port, `copies` times in successive slots of 380 ns (R333, R344). -/
def metSend (d : Dev) (n copies : Nat) (b : List Nat) : Dev := (List.range copies).foldl (fun d _ => d.metSlot n (frame16 b)) d

/-- How often FIRE and CANCEL frames are sent (R344). -/
def metCopies (d : Dev) (n : Nat) : Nat := if d.metRepeats n then d.get (F.MET_CFG_REPEAT n) + 1 else 1

/-- A beacon (Table met-4) in the next slot; its CLAIM and EPOCH are those shown in MET_TOKEN (R350). BEACON_INT runs from one beacon to the next, those
of ranging apart, which go every 100 µs beside them (R335–R337; log entry 22, DEDUCED). -/
def sendBeacon (d : Dev) (n sub k value : Nat) : Dev :=
  let d := (d.put (F.MET_TOKEN_CLAIM n) d.claims).set (F.MET_TOKEN_EPOCH n) d.epochOut
  let t := uns 40 (d.slotDt n)
  let d := if sub = 1 then d else d.setMetPort n { d.metPort n with beaconAt := some (d.slotStart n) }
  d.metSend n 1 ([0x30 + sub * 4 + b2n d.claims * 2, (if sub = 0 then 0 else k * 64)] ++ leBytes 2 d.epochOut ++ leBytes 5 t
    ++ leBytes 2 value ++ [d.get F.DEV_STRAPS_TWIN_SIDE, 0, 0])

/-- Beacons of one kind queued, in three successive slots (R337). -/
def queueBeacon (d : Dev) (n sub k value : Nat) : Dev :=
  d.setMetPort n { d.metPort n with beacons := (d.metPort n).beacons ++ List.replicate 3 (sub, k, value) }

/-- The values between the delay in force and the new one, by steps of 2 ns, the new one last (R337). -/
def delaySteps (cur new : Nat) : List Nat :=
  let n := (max cur new - min cur new - 1) / 8
  (List.range n).map (fun i => if cur < new then cur + 8 * (i + 1) else cur - 8 * (i + 1)) ++ [new]

/-- The delay of module k that is sent last: of the DELAY beacons that wait, or the one in force. -/
def lastDelay (d : Dev) (n k : Nat) : Nat := match (d.metPort n).beacons.reverse.find? (fun b => b.1 = 2 ∧ b.2.1 = k) with
  | some b => b.2.2
  | none => d.get (F.MET_MOD_DELAY_DELAY n k)

/-- A new delay on its way to module k (R337; log entry 22, DEDUCED). -/
def queueDelay (d : Dev) (n k new : Nat) : Dev :=
  (delaySteps (d.lastDelay n k) new).foldl (fun d v => d.queueBeacon n 2 k v) d

/-- SYNC with a SEQ base (R345, R353). -/
def queueSync (d : Dev) (n k base : Nat) : Dev := d.queueBeacon n 3 k base

/-- TRAINING begins: at ENABLE, after OFFLINE_REQ is cleared (R353, R354). Without feedback the written delays and SYNC are queued at once. -/
def metUp (d : Dev) (n : Nat) : Dev :=
  let d := ((d.setMetPort n { pend := (d.metPort n).pend, since := d.time.c, busyTo := d.time.c }).put (F.MET_LINK_TX_ON n) true).put
    (F.MET_TEST_SYNC n) false
  let d := (List.range 4).foldl (fun d k => (d.set (F.MET_MOD_STAT_STATE n k) 0).set (F.MET_MOD_SEQ_NEXT n k) 0) d
  let d := (d.set (F.BLK_STAT_STATE (metPage n)) 1).setPin (.metTx n) .run
  let d := if d.metFeedback then d
    else (d.metModules n).foldl (fun d k => (d.queueBeacon n 2 k (d.get (F.MET_MOD_DELAY_DELAY n k))).queueSync n k 0) d
  d.metShow n

/-- The transmitter stops and METn_TX goes steady low (R352, R354): everything of the link is gone. -/
def metHalt (d : Dev) (n : Nat) : Dev :=
  let d := ((d.setMetPort n {}).put (F.MET_LINK_TX_ON n) false).put (F.MET_LINK_RX_LOCK n) false
  let d := (List.range 4).foldl (fun d k => d.set (F.MET_MOD_STAT_STATE n k) 0) d
  ((d.set (F.BLK_STAT_STATE (metPage n)) 0).set (F.MET_LINK_MOD_PRESENT n) 0).setPin (.metTx n) .low |>.metShow n

/-- BEACON_INT µs have passed since the last beacon, or none has been sent. -/
def beaconDue (d : Dev) (n : Nat) : Bool := match (d.metPort n).beaconAt with
  | none => true
  | some t => decide (d.get (F.MET_CFG_BEACON_INT n) * 1000 ≤ d.elapsed t)

/-- Without feedback the port is READY 2 ms after ENABLE (R353). -/
def metReadyAlone (d : Dev) (n : Nat) : Dev :=
  if !d.metFeedback ∧ d.metState n = 1 ∧ 2000000 ≤ d.elapsed (d.metPort n).since then
    ((d.metModules n).foldl (fun d k => d.set (F.MET_MOD_STAT_STATE n k) 2) d).metRestate n
  else d

/-- MOD_PRESENT: a STATUS within 1 ms. -/
def metPresent (d : Dev) (n : Nat) : Dev :=
  d.set (F.MET_LINK_MOD_PRESENT n) ((List.range 4).foldl (fun m k =>
    m + b2n (match (d.metModule n k).statusAt with | some t => decide (d.elapsed t ≤ 1000000) | none => false) * 2 ^ k) 0)

/-- A beacon of the port (R335, R337, R350). -/
def beacon (d : Dev) (n : Nat) : Dev :=
  if !d.metRuns n ∨ !d.beaconDue n then d
  else
    let x := d.metPort n
    let d := match x.beacons with
      | [] => d.sendBeacon n 0 0 0
      | (sub, k, v) :: rest =>
        let d := (d.setMetPort n { x with beacons := rest }).sendBeacon n sub k v
        if sub = 2 then d.set (F.MET_MOD_DELAY_DELAY n k) v else d
    (d.metReadyAlone n).metPresent n

/-! ### Ranging (R336, R337) -/

/-- A RANGE beacon to a module in ranging, 100 µs after the exchange before it; one that got no reply is repeated (Table met-9). -/
def rangeExchange (d : Dev) (n k : Nat) : Dev :=
  let x := d.metModule n k
  if !d.metRuns n ∨ d.metRepeats n ∨ 4 ≤ k ∨ !x.ranging then d
  else if (match x.rangeT1 with | some t => decide (d.elapsed t < 100000) | none => false) then d
  else (d.setMetModule n k { x with rangeT1 := some (d.slotStart n) }).sendBeacon n 1 k 0

/-- Ranging starts for every module that is READY and not in ranging already, whatever keeps another from it (R337). -/
def rangingPeriod (d : Dev) (n : Nat) : Dev :=
  let per := d.get (F.MET_RANGE_PERIOD n)
  if !d.metRuns n ∨ d.metRepeats n ∨ per = 0 ∨ d.elapsed (d.metPort n).rangeAt < per * 1000000 then d
  else
    let d := d.setMetPort n { d.metPort n with rangeAt := d.time.c }
    ((d.metModules n).foldl (fun d k =>
      if d.modState n k = 2 ∧ !(d.metModule n k).ranging then d.setMetModule n k { d.metModule n k with ranging := true, values := [], rangeT1 := none } else d) d).metRestate n

def insertSorted (v : Int) : List Int → List Int
  | [] => [v]
  | x :: xs => if v ≤ x then v :: x :: xs else x :: insertSorted v xs

def sorted (l : List Int) : List Int := l.foldr insertSorted []

/-- A module whose delay is not greater than that of the one before it goes on ranging, and ORDER is raised (R336). -/
def orderFault (d : Dev) (n k : Nat) : Dev :=
  (d.setMetModule n k { d.metModule n k with ranging := true, values := [] }).raise (metPage n) 10

/-- Sixteen exchanges are complete: the spread is judged, the delay formed and sent (R336, R337), and the order along the chain with the modules before
and after judged, whichever of them ends first. -/
def rangingDone (d : Dev) (n k : Nat) (values : List Int) : Dev :=
  let v := sorted values
  let spread := v.getD 15 0 - v.getD 0 0
  let d := d.set (F.MET_MOD_DELAY_SPREAD n k) (satU 16 spread)
  let again := { d.metModule n k with values := [] }
  if 32 < spread then d.setMetModule n k again
  else
    let delay := satU 16 (roundTie ((v.drop 4).take 8).sum 16)
    if 0 < k ∧ delay ≤ d.lastDelay n (k - 1) ∧ (d.metModule n (k - 1)).ranged then d.orderFault n k
    else
      let first := !(d.metModule n k).ranged
      let d := (d.setMetModule n k { again with ranging := false, ranged := true }).queueDelay n k delay
      let d := if first then (d.queueSync n k 0).set (F.MET_MOD_SEQ_NEXT n k) 0 else d
      let next := d.metModule n (k + 1)
      if k + 1 ∈ d.metModules n ∧ next.ranged ∧ !next.ranging ∧ d.lastDelay n (k + 1) ≤ delay then d.orderFault n (k + 1) else d

/-! ### Upstream frames -/

/-- A frame of a port is acknowledged by H and MAP (R342). -/
def covered (h map seq : Nat) : Bool :=
  let i := (h + 65536 - seq) % 65536
  decide (i = 0) || decide (i ≤ 15 ∧ map / 2 ^ i % 2 = 1)

/-- The fields of a STATUS shown in the module's registers (Table met-11). -/
def statusShow (d : Dev) (n k : Nat) (b : List Nat) : Dev :=
  let fl := b.getD 6 0
  let fc := b.getD 7 0
  let d := if d.get (F.MET_MOD_STAT_FAULT_CODE n k) = 0 ∧ fc ≠ 0 then d.raise (metPage n) 6 else d
  let d := if !d.bit (F.MET_MOD_STAT_CONFLICT n k) ∧ fl / 8 % 2 = 1 then d.raise (metPage n) 11 else d
  let d := ((d.set (F.MET_MOD_STAT_VALVES_M1 n k) (b.getD 1 0)).set (F.MET_MOD_STAT_FAULT_VALVE n k) (b.getD 8 0)).set
    (F.MET_MOD_STAT_FAULT_CODE n k) fc
  let d := ((((d.set (F.MET_MOD_STAT_TIME_LOCK n k) fl).set (F.MET_MOD_STAT_OWNED n k) (fl / 2)).set
    (F.MET_MOD_STAT_OWNER_SIDE n k) (fl / 4)).set (F.MET_MOD_STAT_CONFLICT n k) (fl / 8)).set (F.MET_MOD_STAT_FAULT n k) (fl / 16)
  let d := d.set (F.MET_MOD_SEQ_H n k) (frameNum b 2 2)
  if b.getD 0 0 / 8 % 2 = 1 then d
  else (((d.set (F.MET_MOD_CNT_REJ n k) (b.getD 9 0)).set (F.MET_MOD_CNT_CRC_ERR n k) (b.getD 10 0)).set
    (F.MET_MOD_CNT_CANCEL_MISSED n k) (b.getD 11 0)).set (F.MET_MOD_CNT_DROP n k) (b.getD 12 0)

/-- What a STATUS does to a LOST module (R343): SYNC at the first, READY after two more whose H = NEXT − 1. -/
def resyncStep (d : Dev) (n k h : Nat) : Dev :=
  let x := d.metModule n k
  if d.modState n k ≠ 3 then d
  else match x.resync with
    | none => (d.setMetModule n k { x with resync := some 2 }).queueSync n k (d.get (F.MET_MOD_SEQ_NEXT n k))
    | some left =>
      if (h + 1) % 65536 ≠ d.get (F.MET_MOD_SEQ_NEXT n k) then d
      else if left ≤ 1 then (d.setMetModule n k { x with resync := none, exhausted := false }).set (F.MET_MOD_STAT_STATE n k) 2
      else d.setMetModule n k { x with resync := some (left - 1) }

/-- DELAY or SYNC beacons of module k still wait. -/
def beaconsWait (d : Dev) (n k : Nat) : Bool := (d.metPort n).beacons.any (fun b => decide (2 ≤ b.1 ∧ b.2.1 = k))

/-- Link-up after a STATUS (R353): with lock and a STATUS of every module, ranging begins; a module whose DELAY and SYNC have been sent is READY with
TIME_LOCK. -/
def linkUpStep (d : Dev) (n k : Nat) : Dev :=
  let ms := d.metModules n
  let d :=
    if d.metFeedback ∧ d.metState n = 1 ∧ d.bit (F.MET_LINK_RX_LOCK n) ∧ ms.all (fun k => d.modState n k = 0) ∧
        ms.all (fun k => (d.metModule n k).statusAt.isSome) then
      ms.foldl (fun d k => (d.setMetModule n k { d.metModule n k with ranging := true, values := [], ranged := false }).set
        (F.MET_MOD_STAT_STATE n k) 1) (d.setMetPort n { d.metPort n with rangeAt := d.time.c })
    else d
  let x := d.metModule n k
  if d.modState n k = 1 ∧ x.ranged ∧ !x.ranging ∧ !d.beaconsWait n k ∧ d.bit (F.MET_MOD_STAT_TIME_LOCK n k) then d.set (F.MET_MOD_STAT_STATE n k) 2 else d

/-- A STATUS of module k (R342, R343, R353, R515). `t4` is its arrival at METn_RX after T1 of the exchange in hand, in 0.25 ns (R336). -/
def statusRx (d : Dev) (n : Nat) (b : List Nat) (t4 : Nat) : Dev :=
  let k := b.getD 1 0 / 64
  let h := frameNum b 2 2
  let d := d.statusShow n k b
  let d := d.setMetModule n k { d.metModule n k with statusAt := some d.time.c }
  let x := d.metPort n
  let d := d.setMetPort n { x with flights := x.flights.filter (fun f => !(f.module = k && covered h (frameNum b 4 2) f.seq)) }
  let m := d.metModule n k
  let d :=
    if b.getD 0 0 / 8 % 2 = 1 ∧ m.ranging ∧ m.rangeT1.isSome then
      let values := m.values ++ [(t4 : Int) - frameNum b 9 3]
      let d := d.setMetModule n k { m with values := values, rangeT1 := m.rangeT1 }
      if 16 ≤ values.length then d.rangingDone n k values else d
    else d
  let d := ((d.resyncStep n k h).linkUpStep n k).metRestate n
  (d.ownerReport (decide (b.getD 6 0 / 2 % 2 = 1)) (decide (b.getD 6 0 / 8 % 2 = 1)) (b.getD 6 0 / 4 % 2) (b.getD 13 0)).metPresent n

/-- A frame arrives at METn_RX: kept only with word lock; discarded frames are counted (R334). -/
def metReceive (d : Dev) (n : Nat) (b : List Nat) (f : Dev → Dev) : Dev :=
  if !d.metRuns n ∨ !d.bit (F.MET_LINK_RX_LOCK n) then d
  else if !frameOk b then d.count (F.MET_CNT_RX_CRC_COUNT n)
  else f d

/-- STATUS and SEAT frames are received only with F_MET_FEEDBACK (Table regs-16). -/
def status (d : Dev) (n : Nat) (b : List Nat) (t4 : Nat) : Dev :=
  d.metReceive n b (fun d => if b.getD 0 0 / 16 = 4 ∧ d.metFeedback then d.statusRx n b t4 else d)

/-! ### Valve latency (R312, R321–R324) -/

def latA (d : Dev) (i : Nat) : Nat := d.read (latOff i) 4
def latWord (d : Dev) (i : Nat) : Nat := d.read (latOff i + 12) 4

/-- L(i, P): A + B ÷ P rounded, ties upward (R312). -/
def latency (d : Dev) (i p : Nat) : Int := (d.latA i : Int) + ((2 * d.read (latOff i + 4) 4 + p) / (2 * p) : Nat)

/-- SUSPECT of a valve given a value; PLAN_SUSPECT.COUNT follows. -/
def countSuspect (d : Dev) (was is : Bool) : Dev :=
  if was = is then d else d.set F.PLAN_SUSPECT_COUNT (if is then d.get F.PLAN_SUSPECT_COUNT + 1 else d.get F.PLAN_SUSPECT_COUNT - 1)

/-- PLAN_SUSPECT.COUNT after the table itself has been replaced: the entries with SUSPECT set. -/
def suspectShow (d : Dev) : Dev :=
  d.set F.PLAN_SUSPECT_COUNT
    (d.mem.filter (fun c => decide (latOff 0 ≤ c.1 ∧ c.1 < latOff 2048 ∧ (c.1 - latOff 0) % 16 = 14 ∧ 128 ≤ c.2.toNat))).length

/-- A learning update is discarded, because the driver writes the entry in the same nanosecond: A and LEARNED are as before it (R323, Table plan-4). -/
def unlearn (d : Dev) (u : Nat × Nat × Bool) : Dev :=
  let w := d.latWord u.1
  let d := (d.write (latOff u.1) 4 u.2.1).write (latOff u.1 + 12) 4 (w - w / 2 ^ 22 % 2 * 2 ^ 22 + b2n u.2.2 * 2 ^ 22)
  d.set F.PLAN_CNT_LEARNED_COUNT (d.get F.PLAN_CNT_LEARNED_COUNT + 2 ^ 32 - 1)

/-- The nanosecond ends: the lead sends the entries learnt in it to its partner (R324). -/
def learnTick (d : Dev) : Dev :=
  if d.plan.learnt = [] then d
  else
    let us := d.plan.learnt.map (·.1)
    let d := { d with plan := { d.plan with learnt := [] } }
    if d.isLead then us.reverse.dedup.foldl (fun d i => d.merSend 0x14 i 1 [d.latA i]) d else d

/-- One learning step of R322; a result below 0, which the field cannot hold, is a free value. In a twin only the lead learns (R324). -/
def learn (d : Dev) (i : Nat) (r : Int) : Dev :=
  let stepMax : Int := d.get F.PLAN_LEARN_STEP_MAX
  let cal : Int := d.read (latOff i + 8) 4
  let range : Int := d.get F.PLAN_LEARN_RANGE_A_RANGE * 1000
  let a := clampI (cal - range) (cal + range) (d.latA i + clampI (-stepMax) stepMax (divRound r (2 ^ d.get F.PLAN_LEARN_SHIFT)))
  let v := if a < 0 ∨ 2 ^ 32 ≤ a then d.freeVal 32 else a.toNat
  let d := if a < 0 ∨ 2 ^ 32 ≤ a then d.freeUsed else d
  let w := d.latWord i
  let d := { d with plan := { d.plan with learnt := (i, d.latA i, decide (w / 2 ^ 22 % 2 = 1)) :: d.plan.learnt } }
  ((d.write (latOff i) 4 v).write (latOff i + 12) 4 (w - w / 2 ^ 22 % 2 * 2 ^ 22 + 2 ^ 22)).count F.PLAN_CNT_LEARNED_COUNT

/-- The driver has written latency entry i in this cycle: what it wrote stands (R323, Table plan-4). -/
def latWritten (d : Dev) (i : Nat) : Bool := d.plan.latWrote.1 = d.time.c && d.plan.latWrote.2.contains i

/-- A seat report matched to a sent pulse (R321–R323). -/
def seatMatched (d : Dev) (n : Nat) (p : Pulse) (m : Int) (noSeat : Bool) : Dev :=
  let i := p.valve
  let r := m - d.latency i p.press
  let d := if noSeat then d else (d.observe (metPage n) 0x0C n r).observe (metPage n) 0x0D n m
  if p.cont ∨ p.e - p.f < d.get F.PLAN_GUARD_LEARN_MIN_ON * 1000 then d
  else
    let ok := !noSeat && decide (d.get F.PLAN_LEARN_LIM_LAT_MIN * 1000 ≤ m ∧ m ≤ d.get F.PLAN_LEARN_LIM_LAT_MAX * 1000)
      && decide (r.natAbs ≤ d.get F.PLAN_LEARN_RANGE_RES_MAX * 1000)
    let w := d.latWord i
    let suspect := decide (w / 2 ^ 23 % 2 = 1)
    if d.latWritten i then (if ok then d else d.count F.PLAN_CNT_IMPLAUS_COUNT)
    else if ok then
      let d := d.write (latOff i + 12) 4 (w % 2 ^ 24)
      if d.feat 9 ∧ d.bit F.PLAN_CTRL_LEARN_EN ∧ d.learns 0x80 7 ∧ !suspect ∧ (!d.feat 1 ∨ d.role = 1) then d.learn i r else d
    else
      let impl := satInc 8 (w / 2 ^ 24)
      let now := suspect || decide (d.get F.PLAN_LEARN_IMPL_MAX ≤ impl)
      let d := (d.write (latOff i + 12) 4 (impl * 2 ^ 24 + b2n now * 2 ^ 23 + w % 2 ^ 23)).count F.PLAN_CNT_IMPLAUS_COUNT
      if now && !suspect then (d.countSuspect false true).raise 0x80 7 else d

/-- A SEAT frame: matched by valve and F to one of the pulses sent (R321). -/
def seat (d : Dev) (n : Nat) (b : List Nat) : Dev :=
  d.metReceive n b (fun d =>
    if b.getD 0 0 / 16 ≠ 5 ∨ !d.metFeedback then d
    else
      let d := d.count (F.MET_CNT_SEAT_COUNT n)
      match (d.metPort n).sent.find? (fun p => p.valve = n * 256 + b.getD 1 0 && uns 40 p.f = frameNum b 2 5) with
      | none => d.count F.PLAN_CNT_SEAT_ORPHAN_COUNT
      | some p => d.seatMatched n p (frameNum b 7 3) (decide (b.getD 0 0 % 2 = 1)))

/-! ### FIRE and CANCEL (R339–R344) -/

/-- Whether module k can take one more frame: at most 16 unacknowledged with feedback (R342). -/
def mayFly (d : Dev) (n k : Nat) : Bool :=
  d.metRepeats n || decide (((d.metPort n).flights.filter (fun f => f.module = k)).length < 16)

/-- Order of F, equal F in ascending valve index (R339). -/
def pulseBefore (a b : Pulse) : Bool := decide (a.f < b.f ∨ (a.f = b.f ∧ a.valve < b.valve))

def insertPulse (p : Pulse) : List Pulse → List Pulse
  | [] => [p]
  | q :: qs => if pulseBefore q p then q :: insertPulse p qs else p :: q :: qs

def inOrder (l : List Pulse) : List Pulse := l.foldr insertPulse []

/-- The start of a slot of `len` ns at `t` or earlier that leaves alone the beacons due at `due` and every `per` ns from then on (R339, R356). -/
def clearBeacon (due : Int) (per len : Nat) (t : Int) : Int :=
  let x := (t - due) % per
  if t + len ≤ due then t
  else if due ≤ t ∧ x < 380 then t - x - len
  else if per < x + len then t - (x + len - per) else t

/-- The first of the pulses in order and the start of its slot: each K29.7 leaves at F − MET_LEAD, or before the slot of the pulse after it and clear of
the beacons (R339). -/
def firstSlot (due : Int) (per len : Nat) : List Pulse → Option (Pulse × Int)
  | [] => none
  | p :: ps =>
    let t := p.f - p.lead * 1000 - 360
    some (p, clearBeacon due per len (match firstSlot due per len ps with
      | none => t
      | some (_, next) => if next - len < t then next - len else t))

/-- The last 4 sent pulses of every valve are kept (R321). -/
def keepSent (p : Pulse) (l : List Pulse) : List Pulse :=
  let others := l.filter (fun q => q.valve ≠ p.valve)
  p :: (l.filter (fun q => q.valve = p.valve)).take 3 ++ others

/-- A frame numbered with the module's next SEQ and sent; with feedback it is in flight until acknowledged (R342, R344). -/
def sendSeq (d : Dev) (n k : Nat) (frame : Nat → List Nat) (fire all : Bool) (f : Int) : Dev :=
  let seq := d.get (F.MET_MOD_SEQ_NEXT n k)
  let b := frame seq
  let at_ := d.slotStart n
  let d := (d.count (F.MET_MOD_SEQ_NEXT n k)).metSend n (d.metCopies n) b
  if d.metRepeats n then d
  else d.setMetPort n { d.metPort n with flights := (d.metPort n).flights ++ [{ module := k, seq := seq, bytes := b, fire := fire, f := f, all := all, sentAt := at_ }] }

/-- The on-time guard at transmission (R318, R341): the pulse cut to its chain's first start + ON_HARD. -/
def guardCut (d : Dev) (p : Pulse) : Int := min p.e (p.first + d.get F.PLAN_GUARD_ON_HARD * 1000)

/-- The frame of a pulse (Table met-3). -/
def fireBytes (p : Pulse) (seq : Nat) : List Nat :=
  [0x10 + b2n p.cont * 8, p.valve % 256] ++ leBytes 2 seq ++ leBytes 5 (uns 40 p.f) ++ leBytes 3 ((p.e - p.f).toNat / 10) ++ [0, 0]

def cancelBytes (valve : Nat) (all : Bool) (f : Nat) (seq : Nat) : List Nat :=
  [0x20 + b2n all, valve % 256] ++ leBytes 2 seq ++ leBytes 5 f ++ [0, 0, 0, 0, 0]

/-- The DT at which the next beacon is due. -/
def beaconNext (d : Dev) (n : Nat) : Int := match (d.metPort n).beaconAt with
  | none => d.now
  | some t => d.now + ((t + d.get (F.MET_CFG_BEACON_INT n) * 1000 : Nat) : Int) - d.time.c

/-- A beacon keeps the next slots: it is due, or would be while a frame of `copies` slots is sent (R339). -/
def beaconBars (d : Dev) (n copies : Nat) : Bool := d.beaconDue n || decide (d.beaconNext n < d.slotDt n + 380 * copies)

/-- The CANCEL that goes out next: the first whose module can take a frame. -/
def nextCancel (d : Dev) (n : Nat) : Option Flight := (d.metPort n).cancels.find? (fun c => d.mayFly n c.module)

/-- A frame that may no longer be transmitted again: a FIRE or a single CANCEL less than 20 µs before its F (R342). -/
def tooLate (d : Dev) (n : Nat) (f : Flight) : Bool := !f.all && decide (f.f - 20000 < d.slotDt n)

/-- A frame unacknowledged ACK_TO µs after its last transmission, and not given up (R342, R343). -/
def unacked (d : Dev) (n : Nat) (f : Flight) : Bool :=
  decide (d.get (F.MET_CFG_ACK_TO n) * 1000 ≤ d.elapsed f.sentAt ∧ f.retries ≤ d.get (F.MET_CFG_RETRY_MAX n))

/-- A retransmission waits for its slot. -/
def repeatDue (d : Dev) (n : Nat) : Bool := !d.metRepeats n && (d.metPort n).flights.any (fun f =>
  d.unacked n f && !d.tooLate n f && decide (f.retries < d.get (F.MET_CFG_RETRY_MAX n)))

/-- The next pulse in order that is to be sent now (R339): its slot in the schedule has come, never before its EARLY window, and no beacon, CANCEL or
retransmission goes before it. -/
def firable (d : Dev) (n : Nat) : Option Pulse :=
  if !d.metRuns n ∨ (d.nextCancel n).isSome ∨ d.repeatDue n ∨ d.beaconBars n (d.metCopies n) ∨ d.state = 8 ∨ d.state = 15 then none
  else match firstSlot (d.beaconNext n) (d.get (F.MET_CFG_BEACON_INT n) * 1000) (380 * d.metCopies n)
      (inOrder ((d.metPort n).pend.filter (fun p => d.mayFly n (p.valve / 64 % 4)))) with
    | none => none
    | some (p, t) => if max t (p.f - p.lead * 1000 - d.get (F.MET_TX_EARLY n) * 1000) ≤ d.slotDt n then some p else none

/-- The next FIRE frame of the port: guarded, and on time, late or lost (R339–R341). TX_LATE counts every FIRE that completes after F − MET_LEAD, whatever
made it late (log entry 95, DEDUCED). -/
def fire (d : Dev) (n : Nat) : Dev :=
  match d.firable n with
  | none => d
  | some p =>
    let x := d.metPort n
    let d := d.setMetPort n { x with pend := x.pend.erase p }
    let e := d.guardCut p
    let done := d.slotDt n + 360
    let d := if e < p.e then (d.count (F.MET_CNT_GUARD_COUNT n)).raise (metPage n) 9 else d
    let d :=
      if e ≤ p.f then d
      else if done < p.f - 20000 ∨ done ≤ p.f - p.lead * 1000 then
        let d := if p.f - p.lead * 1000 < done then (d.count (F.MET_CNT_TX_LATE_COUNT n)).raise (metPage n) 7 else d
        let q := { p with e := e }
        let d := (d.count (F.MET_CNT_FIRE_COUNT n)).sendSeq n (p.valve / 64 % 4) (fireBytes q) true false p.f
        d.setMetPort n { d.metPort n with sent := keepSent q (d.metPort n).sent }
      else ((d.count (F.MET_CNT_LOST_COUNT n)).hwError (metPage n) .late 0).raise (metPage n) 8
    d.metShow n

/-- The first CANCEL that waits and whose module can take a frame goes out, ahead of every frame but a beacon (R339, R344). -/
def cancel (d : Dev) (n : Nat) : Dev :=
  if !d.metRuns n ∨ d.beaconBars n (d.metCopies n) then d
  else match d.nextCancel n with
    | none => d
    | some c =>
      let d := d.setMetPort n { d.metPort n with cancels := (d.metPort n).cancels.erase c }
      ((d.count (F.MET_CNT_CANCEL_COUNT n)).sendSeq n c.module (cancelBytes (c.bytes.getD 0 0) c.all (uns 40 c.f)) false c.all c.f).metShow n

/-- A CANCEL for one pulse, or for every pulse of a module, waits for its slot; byte 1 of the frame stands first (Table met-3). -/
def queueCancel (d : Dev) (valve : Nat) (f : Int) : Dev :=
  let n := valve / 256
  d.setMetPort n { d.metPort n with cancels := (d.metPort n).cancels ++
    [{ module := valve / 64 % 4, seq := 0, bytes := [valve % 256], fire := false, f := f }] }

/-- Every pulse of a port is cancelled: the queue is emptied and each module gets one CANCEL with ALL = 1 (R344, R75). -/
def cancelAll (d : Dev) (n : Nat) : Dev :=
  let d := d.setMetPort n { d.metPort n with pend := [], sent := [] }
  if !d.metRuns n then d.metShow n
  else ((d.metModules n).foldl (fun d k => d.setMetPort n { d.metPort n with cancels := (d.metPort n).cancels ++
    [{ module := k, seq := 0, bytes := [k * 64], fire := false, f := 0, all := true }] }) d).metShow n

/-- A module is LOST (R343): its unacknowledged FIRE frames are dropped and counted. -/
def modLost (d : Dev) (n k : Nat) : Dev :=
  let x := d.metPort n
  let lost := (x.flights.filter (fun f => f.module = k && f.fire)).length
  let d := (d.setMetPort n { x with flights := x.flights.filter (fun f => !(f.module = k && f.fire)) }).count (F.MET_CNT_LOST_COUNT n) lost
  let d := d.setMetModule n k { d.metModule n k with resync := none, ranging := false, rangeT1 := none }
  ((d.set (F.MET_MOD_STAT_STATE n k) 3).raise (metPage n) 5).metRestate n

/-- A module that has exhausted RETRY_MAX, or has sent no STATUS for 1 ms (R343). -/
def modLostEvent (d : Dev) (n k : Nat) : Dev :=
  let x := d.metModule n k
  let silent : Bool := match x.statusAt with | some t => decide (1000000 ≤ d.elapsed t) | none => false
  if d.metRuns n ∧ k < 4 ∧ d.metFeedback ∧ (d.modState n k = 1 ∨ d.modState n k = 2) ∧ (silent ∨ x.exhausted) then d.modLost n k
  else d

/-- A FIRE is unacknowledged at F − 20 µs (R342). -/
def lostNow (d : Dev) (f : Flight) : Bool := f.fire && decide (f.f - 20000 ≤ d.now)

/-- A frame of module k is unacknowledged ACK_TO µs after its last transmission, or a FIRE at F − 20 µs (R342): it is given up, or transmitted again
once no beacon and no CANCEL goes before it (R339). -/
def ackTimeout (d : Dev) (n k : Nat) : Dev :=
  let x := d.metPort n
  if !d.metRuns n ∨ d.metRepeats n ∨ 4 ≤ k then d
  else match x.flights.find? (fun f => f.module = k && (d.lostNow f || (d.unacked n f && !(f.fire && d.tooLate n f)))) with
    | none => d
    | some f =>
      let counted := if d.unacked n f then d.count (F.MET_MOD_CNT2_ACK_TIMEOUTS n k) else d
      if d.lostNow f ∨ d.tooLate n f then
        let d := counted.setMetPort n { x with flights := x.flights.erase f }
        (if f.fire then d.count (F.MET_CNT_LOST_COUNT n) else d).metShow n
      else if d.get (F.MET_CFG_RETRY_MAX n) ≤ f.retries then
        let d := counted.setMetPort n { x with flights := x.flights.map (fun g => if g = f then { f with retries := f.retries + 1 } else g) }
        (d.setMetModule n k { d.metModule n k with exhausted := true }).modLostEvent n k
      else if (d.nextCancel n).isSome ∨ d.beaconBars n 1 then d
      else
        let d := counted
        let again := { f with retries := f.retries + 1, sentAt := d.slotStart n }
        let d := d.setMetPort n { x with flights := x.flights.map (fun g => if g = f then again else g) }
        (d.count (F.MET_CNT_RETX_COUNT n)).metSend n 1 f.bytes

/-! ### Link states (R352–R354) -/

/-- Upstream lock is gone for more than 100 µs: DOWN with feedback once the link was up (Table met-7). -/
def metRxLockLoss (d : Dev) (n : Nat) : Dev :=
  if !d.metRuns n ∨ !d.bit (F.MET_LINK_RX_LOCK n) then d
  else
    let d := d.put (F.MET_LINK_RX_LOCK n) false
    if d.metFeedback ∧ 2 ≤ d.metState n ∧ d.metState n ≤ 4 then
      let d := d.setMetPort n { d.metPort n with flights := [] }
      (((d.set (F.BLK_STAT_STATE (metPage n)) 5).raise (metPage n) 4)).metShow n
    else d.metShow n

/-- Word lock on METn_RX; from DOWN the port goes through step 1 of R353 again. -/
def metRxLock (d : Dev) (n : Nat) : Dev :=
  if !d.metRuns n ∨ d.bit (F.MET_LINK_RX_LOCK n) then d
  else
    let d := d.put (F.MET_LINK_RX_LOCK n) true
    if d.metState n = 5 then
      let d := (List.range 4).foldl (fun d k => (d.setMetModule n k {}).set (F.MET_MOD_STAT_STATE n k) 0) d
      (d.set (F.BLK_STAT_STATE (metPage n)) 1).metShow n
    else d.metShow n

/-- The port is not READY 50 ms after ENABLE: TIMEOUT with the mask of modules not ready; the sequence goes on (R353). -/
def metTrainingTimeout (d : Dev) (n : Nat) : Dev :=
  let x := d.metPort n
  if !d.metRuns n ∨ x.timedOut ∨ d.elapsed x.since < 50000000 then d
  else
    let mask := (d.metModules n).foldl (fun m k => m + b2n (d.modState n k ≠ 2) * 2 ^ k) 0
    (d.setMetPort n { x with timedOut := true }).hwError (metPage n) .timeout mask

/-- OFFLINE_REQ is set, the queue is empty and the last chain on the port's valves has ended (R354). -/
def metOffline (d : Dev) (n : Nat) : Dev :=
  let x := d.metPort n
  if n < 8 ∧ d.bit (F.BLK_CTRL_OFFLINE_REQ (metPage n)) ∧ !d.offline (metPage n) ∧ x.pend = [] ∧ x.sent.all (fun p => decide (p.e ≤ d.now)) then
    (d.metHalt n).put (F.BLK_STAT_OFFLINE (metPage n)) true
  else d

/-! ### TEST (R354) -/

/-- TEST begins or ends: the transmitter runs, the PRBS7 generator and checker start afresh. -/
def metTest (d : Dev) (n : Nat) (on : Bool) : Dev :=
  let d := d.setMetPort n { d.metPort n with gen := [], hist := [], prbsRun := 0 }
  let d := ((d.put (F.MET_TEST_SYNC n) false).put (F.MET_LINK_TX_ON n) on).set (F.BLK_STAT_STATE (metPage n)) (if on then 6 else 0)
  d.setPin (.metTx n) (if on then .run else .low)

/-- One bit at the checker: SYNC after 64 error-free bits, errors counted from then on (R354; as R132, log entry 96, DEDUCED). -/
def metPrbsBit (n : Nat) (d : Dev) (b : Bool) : Dev :=
  let x := d.metPort n
  let sync := d.bit (F.MET_TEST_SYNC n)
  let (err, hist) := prbsStep 1 sync x.hist b
  let run := if err then 0 else x.prbsRun + 1
  let d := d.setMetPort n { x with hist := hist, prbsRun := run }
  if sync then (if err then d.countSat (F.MET_TEST_ERR_ERRORS n) else d) else d.put (F.MET_TEST_SYNC n) (decide (64 ≤ run))

/-- The time of `bits` passes on a port in TEST with PRBS_EN, and these arrive at METn_RX: PRBS7 is sent and checked. -/
def metPrbs (d : Dev) (n : Nat) (bits : List Bool) : Dev :=
  if !(decide (n < 8) && d.testing (metPage n) && d.bit (F.MET_TEST_PRBS_EN n)) then d
  else
    let x := d.metPort n
    let start := if x.gen = [] then prbsSeed 1 (d.freeVal 32) else x.gen
    let d := if x.gen = [] then d.freeUsed else d
    let r := prbsRun 1 bits.length start
    let d := (d.setMetPort n { x with gen := r.2 }).emit (.prbs (104 + n) r.1)
    bits.foldl (metPrbsBit n) d

end Dev

/-! ### The meanings -/

def execBeacon (n : Nat) (s : State) : Answer := s.run (·.beacon n)
def execFire (n : Nat) (s : State) : Answer := s.run (·.fire n)
def execCancel (n : Nat) (s : State) : Answer := s.run (·.cancel n)
def execRangeExchange (n k : Nat) (s : State) : Answer := s.run (·.rangeExchange n k)
def execRangingPeriod (n : Nat) (s : State) : Answer := s.run (·.rangingPeriod n)
def execStatus (n : Nat) (b : List Nat) (t4 : Nat) (s : State) : Answer := s.run (·.status n b t4)
def execSeat (n : Nat) (b : List Nat) (s : State) : Answer := s.run (·.seat n b)
def execAckTimeout (n k : Nat) (s : State) : Answer := s.run (·.ackTimeout n k)
def execModLost (n k : Nat) (s : State) : Answer := s.run (·.modLostEvent n k)
def execMetRxLockLoss (n : Nat) (s : State) : Answer := s.run (·.metRxLockLoss n)
def execMetRxLock (n : Nat) (s : State) : Answer := s.run (·.metRxLock n)
def execMetTrainingTimeout (n : Nat) (s : State) : Answer := s.run (·.metTrainingTimeout n)
def execMetOffline (n : Nat) (s : State) : Answer := s.run (·.metOffline n)

end Sys2Proof.Machine
end

