-- ==== Sys2Proof/Machine/Crypto.lean ====
section
/-! DEFINITION. The check functions that the spec names by their standards: SHA-512 (FIPS 180-4) and Ed25519 (RFC 8032), for images, program
keys and attestation (R300, R547, R558). -/

namespace Sys2Proof.Machine

/-! ### SHA-512 -/

/-- A 64-bit word rotated to the right. -/
def rotr64 (x n : Nat) : Nat := x / 2 ^ n + x % 2 ^ n * 2 ^ (64 - n)

def shaK0 : List Nat := [
  0x428A2F98D728AE22, 0x7137449123EF65CD, 0xB5C0FBCFEC4D3B2F, 0xE9B5DBA58189DBBC, 0x3956C25BF348B538, 0x59F111F1B605D019,
  0x923F82A4AF194F9B, 0xAB1C5ED5DA6D8118, 0xD807AA98A3030242, 0x12835B0145706FBE, 0x243185BE4EE4B28C, 0x550C7DC3D5FFB4E2,
  0x72BE5D74F27B896F, 0x80DEB1FE3B1696B1, 0x9BDC06A725C71235, 0xC19BF174CF692694, 0xE49B69C19EF14AD2, 0xEFBE4786384F25E3,
  0x0FC19DC68B8CD5B5, 0x240CA1CC77AC9C65, 0x2DE92C6F592B0275, 0x4A7484AA6EA6E483, 0x5CB0A9DCBD41FBD4, 0x76F988DA831153B5,
  0x983E5152EE66DFAB, 0xA831C66D2DB43210, 0xB00327C898FB213F, 0xBF597FC7BEEF0EE4, 0xC6E00BF33DA88FC2, 0xD5A79147930AA725,
  0x06CA6351E003826F, 0x142929670A0E6E70, 0x27B70A8546D22FFC, 0x2E1B21385C26C926, 0x4D2C6DFC5AC42AED, 0x53380D139D95B3DF,
  0x650A73548BAF63DE, 0x766A0ABB3C77B2A8, 0x81C2C92E47EDAEE6, 0x92722C851482353B]
def shaK1 : List Nat := [
  0xA2BFE8A14CF10364, 0xA81A664BBC423001, 0xC24B8B70D0F89791, 0xC76C51A30654BE30, 0xD192E819D6EF5218, 0xD69906245565A910,
  0xF40E35855771202A, 0x106AA07032BBD1B8, 0x19A4C116B8D2D0C8, 0x1E376C085141AB53, 0x2748774CDF8EEB99, 0x34B0BCB5E19B48A8,
  0x391C0CB3C5C95A63, 0x4ED8AA4AE3418ACB, 0x5B9CCA4F7763E373, 0x682E6FF3D6B2B8A3, 0x748F82EE5DEFB2FC, 0x78A5636F43172F60,
  0x84C87814A1F0AB72, 0x8CC702081A6439EC, 0x90BEFFFA23631E28, 0xA4506CEBDE82BDE9, 0xBEF9A3F7B2C67915, 0xC67178F2E372532B,
  0xCA273ECEEA26619C, 0xD186B8C721C0C207, 0xEADA7DD6CDE0EB1E, 0xF57D4F7FEE6ED178, 0x06F067AA72176FBA, 0x0A637DC5A2C898A6,
  0x113F9804BEF90DAE, 0x1B710B35131C471B, 0x28DB77F523047D84, 0x32CAAB7B40C72493, 0x3C9EBE0A15C9BEBC, 0x431D67C49C100D4C,
  0x4CC5D4BECB3E42B6, 0x597F299CFC657E2A, 0x5FCB6FAB3AD6FAEC, 0x6C44198C4A475817]

/-- The eighty round constants. -/
def shaK : List Nat := shaK0 ++ shaK1

/-- The initial hash value. -/
def shaInit : List Nat := [
  0x6A09E667F3BCC908, 0xBB67AE8584CAA73B, 0x3C6EF372FE94F82B, 0xA54FF53A5F1D36F1, 0x510E527FADE682D1, 0x9B05688C2B3E6C1F,
  0x1F83D9ABFB41BD6B, 0x5BE0CD19137E2179]

/-- The message schedule, newest word first. -/
def shaSchedule : Nat → List Nat → List Nat
  | 0, ws => ws
  | n + 1, ws =>
    let x := ws.getD 1 0; let y := ws.getD 14 0
    let s1 := rotr64 x 19 ^^^ rotr64 x 61 ^^^ (x / 2 ^ 6)
    let s0 := rotr64 y 1 ^^^ rotr64 y 8 ^^^ (y / 2 ^ 7)
    shaSchedule n ((s1 + ws.getD 6 0 + s0 + ws.getD 15 0) % 2 ^ 64 :: ws)

/-- One round over the eight working words, for a round constant and a word of the schedule. -/
def shaRound (h : List Nat) (kw : Nat × Nat) : List Nat :=
  let a := h.getD 0 0; let b := h.getD 1 0; let c := h.getD 2 0
  let e := h.getD 4 0; let f := h.getD 5 0; let g := h.getD 6 0
  let ch := (e &&& f) ^^^ ((2 ^ 64 - 1 - e) &&& g)
  let maj := (a &&& b) ^^^ (a &&& c) ^^^ (b &&& c)
  let t1 := h.getD 7 0 + (rotr64 e 14 ^^^ rotr64 e 18 ^^^ rotr64 e 41) + ch + kw.1 + kw.2
  let t2 := (rotr64 a 28 ^^^ rotr64 a 34 ^^^ rotr64 a 39) + maj
  [(t1 + t2) % 2 ^ 64, a, b, c, (h.getD 3 0 + t1) % 2 ^ 64, e, f, g]

/-- A big-endian number. -/
def beNat (bs : List Nat) : Nat := bs.foldl (fun a b => a * 256 + b % 256) 0

/-- The number of `n` bytes at `i`. -/
def beAt (bs : List Nat) (i n : Nat) : Nat := beNat ((bs.drop i).take n)

/-- One block of 128 bytes into the hash value. -/
def shaBlock (h : List Nat) (bs : List Nat) : List Nat :=
  let ws := (List.range 16).map (fun i => beAt bs (8 * i) 8)
  let sch := (shaSchedule 64 ws.reverse).reverse
  let r := (shaK.zip sch).foldl shaRound h
  (h.zip r).map (fun p => (p.1 + p.2) % 2 ^ 64)

/-- The blocks of a padded message. -/
def shaBlocks : Nat → List Nat → List Nat → List Nat
  | 0, h, _ => h
  | n + 1, h, bs => shaBlocks n (shaBlock h (bs.take 128)) (bs.drop 128)

/-- SHA-512 of bytes. -/
def sha512 (m : List Nat) : List Nat :=
  let bs := m ++ [0x80] ++ List.replicate ((239 - m.length % 128) % 128) 0 ++ (leBytes 16 (8 * m.length)).reverse
  (shaBlocks (bs.length / 128) shaInit bs).flatMap (fun w => (leBytes 8 w).reverse)

/-! ### Ed25519 -/

/-- The field prime. -/
def edP : Nat := 2 ^ 255 - 19

/-- The order of the base point. -/
def edL : Nat := 2 ^ 252 + 27742317777372353535851937790883648493

/-- `x ^ e mod p` over the low `n` bits of `e`, most significant first. -/
def edPowGo (x e : Nat) : Nat → Nat → Nat
  | 0, r => r
  | n + 1, r => edPowGo x e n (if e / 2 ^ n % 2 = 1 then r * r % edP * x % edP else r * r % edP)

def edPow (x e : Nat) : Nat := edPowGo x e 256 1

def edInv (x : Nat) : Nat := edPow x (edP - 2)

def edSub (a b : Nat) : Nat := (a + edP - b % edP) % edP

/-- The curve constant −121665 / 121666. -/
def edD : Nat := edSub 0 (121665 * edInv 121666 % edP)

/-- A point in extended coordinates. -/
structure EdPoint where
  x : Nat
  y : Nat
  z : Nat
  t : Nat
  deriving DecidableEq, Repr

def edAdd (p q : EdPoint) : EdPoint :=
  let a := edSub p.y p.x * edSub q.y q.x % edP
  let b := (p.y + p.x) * (q.y + q.x) % edP
  let c := 2 * p.t * q.t * edD % edP
  let d := 2 * p.z * q.z % edP
  let e := edSub b a; let f := edSub d c; let g := (d + c) % edP; let h := (b + a) % edP
  ⟨e * f % edP, g * h % edP, f * g % edP, e * h % edP⟩

/-- `s` times a point, over the low `n` bits of `s`, most significant first. -/
def edMulGo (s : Nat) (q : EdPoint) : Nat → EdPoint → EdPoint
  | 0, r => r
  | n + 1, r =>
    let r := edAdd r r
    edMulGo s q n (if s / 2 ^ n % 2 = 1 then edAdd r q else r)

def edMul (s : Nat) (q : EdPoint) : EdPoint := edMulGo s q 256 ⟨0, 1, 1, 0⟩

/-- The x of a point with the given y and sign, where there is one. -/
def edX (y sign : Nat) : Option Nat :=
  if edP ≤ y then none
  else
    let x2 := edSub (y * y) 1 * edInv ((edD * (y * y % edP) + 1) % edP) % edP
    if x2 = 0 then (if sign = 1 then none else some 0)
    else
      let x := edPow x2 ((edP + 3) / 8)
      let x := if x * x % edP = x2 then x else x * edPow 2 ((edP - 1) / 4) % edP
      if x * x % edP ≠ x2 then none else if x % 2 = sign then some x else some (edP - x)

/-- The point that 32 bytes spell. -/
def edDecode (bs : List Nat) : Option EdPoint :=
  let v := leNat bs
  let y := v % 2 ^ 255
  (edX y (v / 2 ^ 255 % 2)).map (fun x => ⟨x, y, 1, x * y % edP⟩)

/-- The 32 bytes of a point. -/
def edEncode (p : EdPoint) : List Nat :=
  let i := edInv p.z
  leBytes 32 (p.y * i % edP + p.x * i % edP % 2 * 2 ^ 255)

/-- The base point. -/
def edBase : EdPoint :=
  let y := 4 * edInv 5 % edP
  let x := (edX y 0).getD 0
  ⟨x, y, 1, x * y % edP⟩

/-- The secret scalar of a private key. -/
def edScalar (key : List Nat) : Nat :=
  let a := leNat ((sha512 key).take 32)
  2 ^ 254 + a % 2 ^ 254 / 8 * 8

/-- The public key of a private key. -/
def edPublic (key : List Nat) : List Nat := edEncode (edMul (edScalar key) edBase)

/-- The signature of a message by a private key. -/
def edSign (key msg : List Nat) : List Nat :=
  let a := edScalar key
  let pub := edPublic key
  let r := leNat (sha512 ((sha512 key).drop 32 ++ msg)) % edL
  let rs := edEncode (edMul r edBase)
  let h := leNat (sha512 (rs ++ pub ++ msg)) % edL
  rs ++ leBytes 32 ((r + h * a) % edL)

/-- Whether a signature of a message verifies against a public key. -/
def edVerify (pub msg sig : List Nat) : Bool :=
  let s := leNat (sig.drop 32)
  match edDecode pub, edDecode (sig.take 32) with
  | some a, some r =>
    if edL ≤ s ∨ sig.length ≠ 64 ∨ pub.length ≠ 32 then false
    else
      let h := leNat (sha512 (sig.take 32 ++ pub ++ msg)) % edL
      edEncode (edMul s edBase) = edEncode (edAdd r (edMul h a))
  | _, _ => false

end Sys2Proof.Machine
end

