-- ==== Sys2Proof/Machine/Host.lean ====
section
/-! DEFINITION. The report queues (R436–R448): banks, the ring, GAP records, and the image records with their mirror. -/

namespace Sys2Proof.Machine

/-- The fields of one bank of a queue. -/
structure BankDef where
  state  : Fld
  sealed : Fld
  lo     : Fld
  hi     : Fld

/-- Bank b (0 A, 1 B) of queue q. -/
def bankDef (q b : Nat) : BankDef :=
  if b = 0 then ⟨F.RQ_STAT_STATE_A q, F.RQ_STAT_SEALED_A q, F.RQ_BANK_A_LO_ADDR q, F.RQ_BANK_A_HI_ADDR q⟩
  else ⟨F.RQ_STAT_STATE_B q, F.RQ_STAT_SEALED_B q, F.RQ_BANK_B_LO_ADDR q, F.RQ_BANK_B_HI_ADDR q⟩

namespace Dev

/-- Bytes sent to host memory: nothing while the device may issue no request (R433). -/
def hostWrite (d : Dev) (a : Nat) (bs : List Nat) : Dev := if d.canRequest then d.setHostBytes a bs else d

def bankAddr (d : Dev) (q b : Nat) : Nat := d.get (bankDef q b).lo + d.get (bankDef q b).hi * 2 ^ 32
def bankState (d : Dev) (q b : Nat) : Nat := d.get (bankDef q b).state
def setBankState (d : Dev) (q b s : Nat) : Dev := d.set (bankDef q b).state s
def bank (d : Dev) (q b : Nat) : Bank := if b = 0 then (d.queue q).bankA else (d.queue q).bankB
def setBank (d : Dev) (q b : Nat) (x : Bank) : Dev :=
  d.setQueue q (if b = 0 then { d.queue q with bankA := x } else { d.queue q with bankB := x })
def bankBytes (d : Dev) (q : Nat) : Nat := d.get (F.RQ_BANK_SIZE_SIZE q) * 65536

/-! ### Runs of lost SEQs (R443) -/

/-- How far a run lies behind the next SEQ. -/
def runAge (now : Nat) (r : LostRun) : Nat := (now + 2 ^ 32 - r.first) % 2 ^ 32

/-- Two runs that follow each other with the same cause are one. -/
def joins (a b : LostRun) : Bool := a.cause = b.cause && (a.last + 1) % 2 ^ 32 = b.first

/-- A run put into its place among runs in SEQ order, `now` being the next SEQ (R443). -/
def insertRun (now : Nat) (r : LostRun) : List LostRun → List LostRun
  | [] => [r]
  | x :: xs =>
    if runAge now x < runAge now r then (if joins r x then ⟨r.first, x.last, r.cause⟩ :: xs else r :: x :: xs)
    else if joins x r then insertRun now ⟨x.first, r.last, x.cause⟩ xs
    else x :: insertRun now r xs

/-- More lost SEQs of a queue. -/
def loseRuns (d : Dev) (q : Nat) (rs : List LostRun) : Dev :=
  d.setQueue q { d.queue q with lost := rs.foldl (fun l r => insertRun (d.get (F.RQ_SEQ_SEQ q)) r l) (d.queue q).lost }

/-- How many SEQs a run covers. -/
def runLen (r : LostRun) : Nat := (r.last + 2 ^ 32 - r.first) % 2 ^ 32 + 1

/-! ### Banks (R437–R440) -/

/-- Bank b begins to fill (R437). -/
def openBank (d : Dev) (q b : Nat) : Dev :=
  ((d.hostWrite (d.bankAddr q b + 0x3C) [0, 0, 0, 0]).setBank q b {}).setBankState q b 1

/-- In bank mode and while no bank fills, the first FREE bank from the active one on begins to fill (R437–R439). -/
def turn (d : Dev) (q : Nat) : Dev :=
  let a := d.get (F.RQ_STAT_ACTIVE q)
  if !d.bit (F.RQ_CTRL_EN q) || d.get (F.RQ_STAT_MODE q) ≠ 1 || !d.canRequest || d.bankState q 0 = 1 || d.bankState q 1 = 1 then d
  else if d.bankState q a = 0 then d.openBank q a
  else if d.bankState q (1 - a) = 0 then (d.openBank q (1 - a)).set (F.RQ_STAT_ACTIVE q) (1 - a)
  else d

/-- Bank b is sealed with a cause: header with its valid word last, SEALED, and a turn to the other bank if FREE (R438, Table host-5). -/
def sealBank (d : Dev) (q b cause : Nat) : Dev :=
  let x := d.queue q
  let k := d.bank q b
  let seals := (x.seals + 1) % 2 ^ 32
  let ws := [0x4B4E_4142, cause * 16 + b * 8 + q, seals, k.records, k.used, k.firstSeq, k.lastSeq, 0, d.now % 2 ^ 32, d.now / 2 ^ 32 % 2 ^ 32,
    0, 0, 0, 0, 0, 2 ^ 32 - 1 - seals]
  let d := (d.hostWrite (d.bankAddr q b) (wordsLe ws)).setQueue q { x with seals := seals }
  let d := (d.setBankState q b 2).raiseQueue q (bankDef q b).sealed
  (if d.bankState q (1 - b) = 0 then d.set (F.RQ_STAT_ACTIVE q) (1 - b) else d).turn q

/-- A record written to a bank that has room: one of the SEQs `run`, or a GAP record that names them. -/
def putBank (d : Dev) (q b : Nat) (run : LostRun) (bs : List Nat) : Dev :=
  let k := d.bank q b
  let d := d.hostWrite (d.bankAddr q b + k.used) bs
  d.setBank q b { used := k.used + bs.length, records := k.records + 1, lastSeq := run.first
                  runs := insertRun (d.get (F.RQ_SEQ_SEQ q)) run k.runs
                  firstSeq := if k.records = 0 then run.first else k.firstSeq
                  firstAt := if k.records = 0 then d.time.c else k.firstAt }

/-- A record cut to `room` bytes: LEN and TRUNC follow (R444, R447). -/
def truncated (bs : List Nat) (room : Nat) : List Nat :=
  leBytes 2 (room / 16) ++ [bs.getD 2 0, bs.getD 3 0 ||| 4] ++ (bs.drop 4).take (room / 16 * 16 - 4)

/-- What a bank takes of a record: all of it where it fits; of one too large for a free bank what fits into the remaining room; else nothing (R437,
R447). -/
def fitBank (d : Dev) (q b : Nat) (bs : List Nat) : Option (List Nat) :=
  let room := d.bankBytes q - (d.bank q b).used
  if bs.length ≤ room then some bs else if d.bankBytes q < 64 + bs.length ∧ 32 ≤ room then some (truncated bs room) else none

/-- A record put into the bank that fills, or into the other where it does not fit and that is FREE; and whether it was put (R438, R439). -/
def toBank (d : Dev) (q : Nat) (run : LostRun) (bs : List Nat) : Dev × Bool :=
  let d := d.turn q
  let b := d.get (F.RQ_STAT_ACTIVE q)
  if d.bankState q b ≠ 1 then (d, false)
  else match d.fitBank q b bs with
    | some bs => (d.putBank q b run bs, true)
    | none =>
      let d := d.sealBank q b 1
      let b := d.get (F.RQ_STAT_ACTIVE q)
      if d.bankState q b ≠ 1 then (d, false)
      else match d.fitBank q b bs with
        | some bs => (d.putBank q b run bs, true)
        | none => (d, false)

/-! ### The ring (R441, R442) -/

def ringAddr (d : Dev) (q : Nat) : Nat := d.get (F.RQ_RING_LO_ADDR q) + d.get (F.RQ_RING_HI_ADDR q) * 2 ^ 32
def ringArea (d : Dev) (q : Nat) : Nat := d.get (F.RQ_RING_SIZE_SIZE q) * 65536 - 64

/-- A GAP record: header SEQ, then FIRST_SEQ, LAST_SEQ, cause, records lost; `len` bytes long, which a ring filler of 16 bytes has for its header alone
(R441, R443, Table host-8). -/
def gapBytes (d : Dev) (hseq first last cause lost len : Nat) : List Nat :=
  d.recBytes 0x0F 0 hseq ((wordsLe [first, last, cause, lost] ++ List.replicate (len - 32) 0).take (len - 16))

/-- Bytes written at the producer index of a ring, which then moves on (R441). -/
def putRing (d : Dev) (q : Nat) (bs : List Nat) : Dev :=
  let pi := d.get (F.RQ_RING_PI_PI q)
  let d := d.hostWrite (d.ringAddr q + 64 + pi) bs
  let pi' := if d.ringArea q ≤ pi + bs.length then 0 else pi + bs.length
  let d := (d.set (F.RQ_RING_PI_PI q) pi').hostWrite (d.ringAddr q) (leBytes 4 pi' ++ List.replicate 60 0)
  d.setQueue q { d.queue q with ringNew := true }

/-- Whether `n` more bytes leave PI more than 16 bytes short of RING_CI (R441). -/
def ringRoom (d : Dev) (q n : Nat) : Bool :=
  let a := d.ringArea q
  let dist := (d.get (F.RQ_RING_CI_CI q) + a - d.get (F.RQ_RING_PI_PI q)) % a
  decide (n + 16 < (if dist = 0 then a else dist))

/-- A record put into the ring, after a filler GAP where it would cross the end (R441). -/
def toRing (d : Dev) (q seq : Nat) (bs : List Nat) : Option Dev :=
  let rest := d.ringArea q - d.get (F.RQ_RING_PI_PI q)
  if rest < bs.length then
    if d.ringRoom q (rest + bs.length) then
      some (((d.putRing q (d.gapBytes seq 0 0 0 0 rest)).raiseQueue q (F.RQ_STAT_GAP q)).putRing q bs)
    else none
  else if d.ringRoom q bs.length then some (d.putRing q bs) else none

/-- RING_DATA is set once PI has advanced and FLUSH_US has passed since it was last set (R442). -/
def ringData (d : Dev) (q : Nat) : Dev :=
  let x := d.queue q
  if d.get (F.RQ_STAT_MODE q) = 2 ∧ x.ringNew ∧ d.get (F.RQ_CTRL_FLUSH_US q) * 1000 ≤ d.elapsed x.ringAt then
    (d.setQueue q { x with ringNew := false, ringAt := d.time.c }).raiseQueue q (F.RQ_STAT_RING_DATA q)
  else d

/-- A record written where the queue's mode says; and whether there was room. -/
def place (d : Dev) (q : Nat) (run : LostRun) (bs : List Nat) : Dev × Bool :=
  if d.get (F.RQ_STAT_MODE q) = 1 then d.toBank q run bs
  else if d.get (F.RQ_STAT_MODE q) = 2 then match d.toRing q run.first bs with
    | some d => (if d.get (F.RQ_CTRL_FLUSH_US q) = 0 then d.ringData q else d, true)
    | none => (d, false)
  else (d, false)

/-- The GAP records that wait, in SEQ order, as far as there is room (R443). -/
def writeGaps (q : Nat) : List LostRun → Dev → Dev
  | [], d => d
  | r :: rs, d =>
    match d.place q r (d.gapBytes r.first r.first r.last r.cause (runLen r) 32) with
    | (d, false) => d
    | (d, true) => writeGaps q rs ((d.setQueue q { d.queue q with lost := rs }).raiseQueue q (F.RQ_STAT_GAP q))

/-- The oldest staged record of a queue, preceded by its GAP records, written where there is room; and whether it was (R443). -/
def recordGo (d : Dev) (q : Nat) : Dev × Bool :=
  match (d.queue q).staging with
  | [] => (d, false)
  | r :: _ =>
    if !d.bit (F.RQ_CTRL_EN q) || !d.canRequest then (d, false)
    else
      let d := writeGaps q (d.queue q).lost d
      if (d.queue q).lost ≠ [] then (d, false)
      else match d.place q ⟨r.seq, r.seq, 2⟩ r.bytes with
        | (d, false) => (d, false)
        | (d, true) => ((d.setQueue q { d.queue q with staging := (d.queue q).staging.drop 1 }).refreshStage q, true)

/-! ### Descriptors (R449) and the upstream arbiter (R450) -/

/-- The descriptor at DR_HEAD: its word `i`. -/
def descAddr (d : Dev) (r : Nat) : Nat :=
  d.get (F.DR_BASE_LO_ADDR r) + d.get (F.DR_BASE_HI_ADDR r) * 2 ^ 32 + 32 * d.get (F.DR_HEAD_HEAD r)

def descWord (d : Dev) (r i : Nat) : Nat := leNat (d.hostBytes (d.descAddr r + 4 * i) 4)

/-- A descriptor's fields (Table host-9). -/
structure Desc where
  kind : Nat
  irq  : Bool
  pack : Bool
  ch   : Nat
  port : Nat
  len  : Nat
  host : Nat
  dev  : Nat
  deriving DecidableEq, Repr

def desc (d : Dev) (r : Nat) : Desc :=
  let w := d.descWord r 0
  ⟨w % 16, w / 16 % 2 = 1, w / 32 % 2 = 1, w / 64 % 4, w / 256 % 2, d.descWord r 1, d.descWord r 2 + d.descWord r 3 * 2 ^ 32,
    d.descWord r 4 + d.descWord r 5 * 2 ^ 32⟩

/-- The fields of a descriptor lie within their limits. -/
def descFields (x : Desc) : Bool :=
  if x.kind = 1 ∨ x.kind = 2 then decide (x.len % 4 = 0 ∧ 4 ≤ x.len ∧ x.len ≤ 16777216 ∧ x.dev % 4 = 0)
  else decide (x.kind = 3 ∧ 60 ≤ x.len ∧ x.len ≤ 9212 ∧ x.dev = 0)

def descRing (d : Dev) (r : Nat) : DescRing := Sparse.get d.rings {} r
def setDescRing (d : Dev) (r : Nat) (x : DescRing) : Dev := { d with rings := Sparse.set d.rings {} r x }

/-- A record of queue q could be written now. -/
def recordReady (d : Dev) (q : Nat) : Bool := (d.recordGo q).2

/-- A D2H transfer of a ring has bytes to move: its own, or what a PACK channel has left. -/
def d2hWaits (d : Dev) (r : Nat) : Bool :=
  let x := d.descRing r
  d.bit (F.DR_STAT_BUSY r) && !x.packed && d.canRequest && (x.out.any (fun o => o.1 ≠ []) || (x.out = none && x.fail = none && (d.desc r).kind = 2))

/-- The turn of the weighted round robin is the D2H transfers': theirs while W_DMA blocks have not gone, or the records' W_REP have (R450). How turns are
counted, and which side and which queue begins, the spec leaves open (log entry 97, DESIGN CHOICE). -/
def d2hTurn (d : Dev) : Bool :=
  if d.arb.dma then decide (d.arb.used < d.get F.HOST_ARB_W_DMA) else decide (d.get F.HOST_ARB_W_REP ≤ d.arb.used)

/-- The queue among RQ2, RQ3 and RQ4 whose record goes next, round robin. -/
def nextQueue (d : Dev) : Option Nat :=
  ([3, 4, 2, 3, 4].drop (d.arb.last - 2) |>.take 3).find? d.recordReady

/-- Whether the arbiter lets a record of queue q go now: RQ1, then RQ0, before all others; the others in turn with the D2H transfers, and among
themselves (R450). -/
def recordGranted (d : Dev) (q : Nat) : Bool :=
  if q = 1 then true
  else if d.recordReady 1 then false
  else if q = 0 then true
  else !d.recordReady 0 && !(d.d2hTurn && (d.d2hWaits 0 || d.d2hWaits 1)) && d.nextQueue = some q

/-- The 4 KiB blocks of a D2H transfer that may go now: none while RQ1 or RQ0 has a record; with records of the others waiting what is left of the
transfers' turn; else as many as there are, here 4,096. -/
def d2hBlocks (d : Dev) (r : Nat) : Nat :=
  if !d.d2hWaits r || d.recordReady 1 || d.recordReady 0 then 0
  else if d.nextQueue.isNone then 4096
  else if d.d2hTurn then d.get F.HOST_ARB_W_DMA - (if d.arb.dma then d.arb.used else 0) else 0

/-- What a grant takes from its side's turn. -/
def d2hCharge (d : Dev) (n : Nat) : Dev :=
  if n = 0 then d else { d with arb := { d.arb with dma := true, used := (if d.arb.dma then d.arb.used else 0) + n } }
def recordCharge (d : Dev) (q : Nat) : Dev :=
  if q < 2 then d else { d with arb := { dma := false, used := (if d.arb.dma then 0 else d.arb.used) + 1, last := q } }

/-- RECORD_WRITE: the oldest staged record of a queue goes to host memory once there is room and the arbiter lets it (R443, R450). -/
def recordWrite (d : Dev) (q : Nat) : Dev :=
  let r := d.recordGo q
  if !r.2 then r.1 else if d.recordGranted q then r.1.recordCharge q else d

/-! ### Control (R438–R440, R442, R453) -/

/-- Bank b fills and holds a record. -/
def holdsRecord (d : Dev) (q b : Nat) : Bool := d.bankState q b = 1 && (d.bank q b).records ≠ 0

/-- Seals whichever bank fills with a record, for a cause. -/
def sealActive (d : Dev) (q cause : Nat) : Dev :=
  [0, 1].foldl (fun d b => if d.holdsRecord q b then d.sealBank q b cause else d) d

/-- A seal asked for: made at once, or when the device may issue requests again, with the lowest cause (R433, R438). -/
def sealAsk (d : Dev) (q cause : Nat) : Dev :=
  if d.canRequest then d.sealActive q cause
  else if d.holdsRecord q 0 || d.holdsRecord q 1 then
    d.setQueue q { d.queue q with sealWait := some (match (d.queue q).sealWait with | some c => min c cause | none => cause) }
  else d

/-- A bank that fills is FREE again, its queue being off. -/
def freeBanks (d : Dev) (q : Nat) : Dev := [0, 1].foldl (fun d b => if d.bankState q b = 1 then d.setBankState q b 0 else d) d

/-- The device may issue requests again: a seal that waits is made, and a bank begins to fill. -/
def queueResume (d : Dev) (q : Nat) : Dev :=
  let d := match (d.queue q).sealWait with
    | some c =>
      let d := (d.setQueue q { d.queue q with sealWait := none }).sealActive q c
      if d.bit (F.RQ_CTRL_EN q) then d else d.freeBanks q
    | none => d
  d.turn q

/-- RQ_FLUSH_TIMER: FLUSH_US has passed since the first record of the filling bank (R438). -/
def rqFlushTimer (d : Dev) (q : Nat) : Dev :=
  let us := d.get (F.RQ_CTRL_FLUSH_US q)
  [0, 1].foldl (fun d b => if us ≠ 0 && d.canRequest && d.holdsRecord q b && us * 1000 ≤ d.elapsed (d.bank q b).firstAt then d.sealBank q b 2 else d) d

/-- RQ_FLUSH: a write of FLUSH (R438). -/
def rqFlush (d : Dev) (q : Nat) : Dev := d.gated 6 (0x100 + 0x40 * q) (·.sealAsk q 3)

/-- An address is usable: not 0, 4 KiB aligned (R453). -/
def addrOk (a : Nat) : Bool := a ≠ 0 && a % 4096 = 0

def sizeOk (n : Nat) : Bool := decide (1 ≤ n ∧ n ≤ 4096)

/-- The addresses and sizes of a queue admit EN = 1 (R453). -/
def queueReady (d : Dev) (q : Nat) : Bool :=
  addrOk (d.bankAddr q 0) && addrOk (d.bankAddr q 1) && addrOk (d.ringAddr q) && sizeOk (d.get (F.RQ_BANK_SIZE_SIZE q))
    && sizeOk (d.get (F.RQ_RING_SIZE_SIZE q))

/-- RQ_ENABLE: a write of RQ_CTRL.EN (R438, R453). -/
def rqEnable (d : Dev) (q : Nat) (v : Bool) : Dev :=
  d.gated 6 (0x100 + 0x40 * q) (fun d =>
    if v = d.bit (F.RQ_CTRL_EN q) then d
    else if v then
      if d.queueReady q then
        (((d.put (F.RQ_CTRL_EN q) true).set (F.RQ_STAT_MODE q) (if (d.queue q).ring then 2 else 1)).set (F.RQ_STAT_ACTIVE q)
          (if d.bankState q 0 = 0 then 0 else if d.bankState q 1 = 0 then 1 else d.get (F.RQ_STAT_ACTIVE q))).turn q
      else d.refuse 6 (0x100 + 0x40 * q) .range
    else
      let d := ((d.put (F.RQ_CTRL_EN q) false).set (F.RQ_STAT_MODE q) 0).sealAsk q 4
      if (d.queue q).sealWait.isSome then d else d.freeBanks q)

/-- RQ_RELEASE: a sealed bank returns to FREE (R439). -/
def rqRelease (d : Dev) (q b : Nat) : Dev :=
  d.gated 6 (0x100 + 0x40 * q) (fun d =>
    if d.bankState q b ≠ 2 then d.refuse 6 (0x100 + 0x40 * q) .state
    else
      let d := d.setBankState q b 0
      (if d.bankState q (d.get (F.RQ_STAT_ACTIVE q)) ≠ 1 ∧ d.bankState q (d.get (F.RQ_STAT_ACTIVE q)) ≠ 0 then
        d.set (F.RQ_STAT_ACTIVE q) b else d).turn q)

/-- A bank faults: its records are lost with cause 2, and what its GAP records named is to be named again; the other bank is kept, the queue goes over to
its ring, where it is off from the next EN = 1 on (R440, R443; log entry 109, DEDUCED). -/
def faultBank (d : Dev) (q b : Nat) : Dev :=
  let k := d.bank q b
  let d := if d.bankState q b = 1 || d.bankState q b = 2 then
      (d.loseRuns q k.runs).count (F.RQ_LOST_COUNT q) ((k.runs.filter (fun r => r.cause = 2)).map runLen).sum
    else d
  let d := ((d.setBankState q b 3).setBank q b {}).raiseQueue q (F.RQ_STAT_FAULT q)
  let o := 1 - b
  let d := d.setQueue q { d.queue q with ring := true }
  let d := if d.bit (F.RQ_CTRL_EN q) then d.set (F.RQ_STAT_MODE q) 2 else d
  if d.holdsRecord q o then d.sealAsk q 5 else if d.bankState q o = 1 then d.setBankState q o 0 else d

/-- RQ_FAULT: a driver write of FAULT_A or FAULT_B (R440). -/
def rqFault (d : Dev) (q b : Nat) : Dev := d.gated 6 (0x100 + 0x40 * q) (·.faultBank q b)

/-- RQ_BANK_FAULT: data bound for the active bank failed, in the staging buffer or by parity in the host island (R440). -/
def rqBankFault (d : Dev) (q : Nat) (parity : Bool) : Dev :=
  if d.get (F.RQ_STAT_MODE q) ≠ 1 then d
  else (d.setParity 6 (if parity then F.BLK_PARITY_DATA_PATH 6 else F.BLK_PARITY_SRAM_UE 6)).faultBank q (d.get (F.RQ_STAT_ACTIVE q))

/-- RQ_RESTORE: back to bank mode, unless a bank is FAULTED (R442). -/
def rqRestore (d : Dev) (q : Nat) : Dev :=
  d.gated 6 (0x100 + 0x40 * q) (fun d =>
    if d.bankState q 0 = 3 ∨ d.bankState q 1 = 3 then d.refuse 6 (0x100 + 0x40 * q) .state
    else
    let d := d.setQueue q { d.queue q with ring := false }
    if d.get (F.RQ_STAT_MODE q) ≠ 2 then d
    else ((d.set (F.RQ_STAT_MODE q) 1).set (F.RQ_STAT_ACTIVE q) (if d.bankState q 0 = 0 then 0 else 1)).turn q)

/-! ### Image records (R447, R448) -/

/-- The bytes of a MAC address in wire order. -/
def macBytes (lo hi : Nat) : List Nat := (leBytes 4 lo ++ leBytes 2 hi).reverse

/-- The enabled Ethernet ports. -/
def ethPorts (d : Dev) : List Nat := [0, 1].filter (fun e => if e = 0 then d.bit F.NET_CTRL_EN0 else d.bit F.NET_CTRL_EN1)

/-- The frames of the mirror for one record (R448). -/
def mirrorFrames (d : Dev) (seq : Nat) (bs : List Nat) : List (List Nat) :=
  (List.range ((bs.length + 8191) / 8192)).map (fun i =>
    macBytes (d.get F.HOST_NET_DST_LO_DST_LO) (d.get F.HOST_NET_DST_HI_DST_HI) ++ macBytes (d.get F.NET_MAC_LO_MAC_LO) (d.get F.NET_MAC_HI_MAC_HI)
      ++ (leBytes 2 (d.get F.HOST_NET_ETYPE)).reverse ++ leBytes 4 seq ++ leBytes 4 (8192 * i) ++ (bs.drop (8192 * i)).take 8192)

/-- Room that a compressed image record finds: what is left of the bank that fills after the records staged ahead of it, or a whole free bank (R461; log
entry 110, DEDUCED). -/
def imageRoom (d : Dev) : Nat :=
  let b := d.get (F.RQ_STAT_ACTIVE 3)
  let used := (d.bank 3 b).used + stageUsed (d.queue 3)
  if d.bankState 3 b = 1 ∧ used + 64 < d.bankBytes 3 then d.bankBytes 3 - used else d.bankBytes 3 - 64

/-- A mirror frame given to the switch for one port; a free value says whether the buffer is full, and it is dropped (R419, R448; log entry 110, DESIGN CHOICE). -/
def mirrorSend (d : Dev) (e : Nat) (f : List Nat) : Dev :=
  (if d.freeVal 1 = 1 then d.count F.NET_CNT_DROP_COUNT else d.emit (.ethFrame e f)).freeUsed

/-- A CROP or ROW record reported, and mirrored as it is formed (R447, R448). One too large for a free bank is cut when a bank takes it (`fitBank`). -/
def imageReport (d : Dev) (typ flags w0 w1 stored plain : Nat) (payload : List Nat) : Dev :=
  let body := wordsLe [w0, w1, stored, plain] ++ payload
  let seq := d.get (F.RQ_SEQ_SEQ 3)
  let bs := d.recBytes typ flags seq body
  let d := d.report 3 typ flags body
  if d.bit F.HOST_NET_MIRROR then (d.mirrorFrames seq bs).foldl (fun d f => d.ethPorts.foldl (fun d e => d.mirrorSend e f) d) d else d

/-- A PACK channel takes blocks: EN = 1, its page enabled and not OFFLINE (R454). -/
def packTakes (d : Dev) (c : Nat) : Bool := d.enabled 0x0C && !d.offline 0x0C && d.bit (F.PACK_CH_CFG_EN c)

/-- An image record formed: through its PACK channel where one takes it, else as it is (R447, R454). -/
def imageRecord (d : Dev) (typ w0 w1 : Nat) (payload : List Nat) : Dev :=
  let c := d.get F.HOST_IMG_PACK_CH
  if d.bit F.HOST_IMG_PACK_EN && d.packTakes c then
    let x := Sparse.get d.pack {} c
    { d with pack := Sparse.set d.pack {} c { x with queue := x.queue ++ [⟨.record typ 0 w0 w1, payload, 0⟩] } }
  else d.imageReport typ 0 w0 w1 payload.length payload.length payload

/-- HOST_REC_GO: a write of HOST_REC (R447). -/
def hostRecGo (d : Dev) (value : Nat) : Dev :=
  d.gated 6 0x68 (fun d =>
    if d.bit F.HOST_REC_BUSY ∧ value / 2 ^ 31 % 2 = 1 then d.refuse 6 0x68 .busy
    else if fieldOf F.HOST_REC_ROWS value = 0 then d.refuse 6 0x68 .range
    else
      let d := d.putFields value [F.HOST_REC_GROUP, F.HOST_REC_ROWS]
      if value / 2 ^ 31 % 2 = 1 then { d.put F.HOST_REC_BUSY true with recLeft := d.get F.HOST_REC_ROWS } else d)

/-- A queue after a host reset: its staged records are lost with cause 3, its numbering goes on. -/
def hostResetQueue (d : Dev) (q : Nat) : Dev :=
  let x := d.queue q
  ((d.setQueue q { lost := x.lost, seals := x.seals }).loseRuns q (x.staging.map (fun r => ⟨r.seq, r.seq, 3⟩))).count (F.RQ_LOST_COUNT q) x.staging.length

end Dev

/-! ### The meanings -/

def execRecordWrite (q : Nat) (s : State) : Answer := s.run (·.recordWrite q)
def execRqFlushTimer (q : Nat) (s : State) : Answer := s.run (·.rqFlushTimer q)
def execRqFlush (q : Nat) (s : State) : Answer := s.run (·.rqFlush q)
def execRqEnable (q : Nat) (v : Bool) (s : State) : Answer := s.run (·.rqEnable q v)
def execRqRelease (q bank : Nat) (s : State) : Answer := s.run (·.rqRelease q bank)
def execRqFault (q bank : Nat) (s : State) : Answer := s.run (·.rqFault q bank)
def execRqBankFault (q : Nat) (parity : Bool) (s : State) : Answer := s.run (·.rqBankFault q parity)
def execRqRestore (q : Nat) (s : State) : Answer := s.run (·.rqRestore q)
def execRingDataTimer (q : Nat) (s : State) : Answer := s.run (·.ringData q)
def execHostRecGo (value : Nat) (s : State) : Answer := s.run (·.hostRecGo value)

end Sys2Proof.Machine
end

