-- ==== Sys2Proof/Machine/Regs.lean ====
section
/-! DEFINITION. Reading and writing a register by the access types of its fields (R56, R57). -/

namespace Sys2Proof.Machine.Dev

/-- One field of a write, and whether it was refused for being RWS on an enabled page. -/
def takeField (page word : Nat) (acc : Dev × Bool) (e : Access × Fld) : Dev × Bool :=
  let d := acc.1
  let f := e.2
  let v := fieldOf f word
  match e.1 with
  | .ro | .rc | .wo => acc
  | .rw => (d.set f v, acc.2)
  | .rws => if !d.bit (F.BLK_CTRL_ENABLE page) || d.get f = v then (d.set f v, acc.2) else (d, true)
  | .w1c => (d.set f (d.get f - (d.get f &&& v)), acc.2)
  | .w1s => (d.set f (d.get f ||| v), acc.2)

/-- A word written to the register at `off` of `page`, past the gate and its limits. -/
def regWrite (d : Dev) (page off word : Nat) : Dev :=
  let r := (regFields page off).foldl (takeField page word) (d, false)
  if r.2 then r.1.refuse page off .state else r.1

/-- A write whose limits are `ok`; `f` is what follows it. -/
def limited (d : Dev) (page off word : Nat) (ok : Bool) (f : Dev → Dev := id) : Dev :=
  if ok then f (d.regWrite page off word) else d.refuse page off .range

/-- A word with some of its fields as they stand. -/
def keepFields (d : Dev) (word : Nat) (fs : List Fld) : Nat :=
  fs.foldl (fun w f => w - fieldOf f w * 2 ^ f.lsb + d.get f * 2 ^ f.lsb) word

/-- A write whose limits are `ok`, with fields that need a feature: one asked for without its feature stays as it is and records FEATURE, and
the rest of the word is taken (log entry 69, DEDUCED). -/
def featured (d : Dev) (page off word : Nat) (gates : List (Fld × Nat)) (ok : Bool := true) (f : Dev → Dev := id) : Dev :=
  let bad := (gates.filter (fun g => fieldOf g.1 word ≠ 0 && !d.feat g.2)).map (·.1)
  if !ok then d.refuse page off .range
  else if bad = [] then f (d.regWrite page off word)
  else (f (d.regWrite page off (d.keepFields word bad))).refuse page off .feature

/-- The word a register reads as: WO fields read 0 (Table regs-2); W1S command bits read what is stored, which is 0. -/
def regWord (d : Dev) (page off : Nat) : Nat := d.wordOf ((regFields page off).filter (fun e => e.1 ≠ .wo))

/-- The registers of a page whose name begins with one of these counters are cleared, as by SOFT_RESET. -/
def clearFields (d : Dev) (fs : List Fld) : Dev := fs.foldl (fun d f => d.set f f.reset) d

end Sys2Proof.Machine.Dev
end

