-- ==== Sys2Proof/Machine/Net.lean ====
section
/-! DEFINITION. The Ethernet ports and their switch (Time and network, R418–R421): forwarding, the transparent clock, links, the registers of the
NET page. -/

namespace Sys2Proof.Machine

/-! ### Frames (R420) -/

/-- Bytes replaced from `i` on. -/
def patch (bs : List Nat) (i : Nat) (new : List Nat) : List Nat := bs.take i ++ new ++ bs.drop (i + new.length)

/-- Where the Ethertype stands: after one IEEE 802.1Q tag or none. -/
def etherAt (bs : List Nat) : Nat := if beAt bs 12 2 = 0x8100 then 16 else 12

/-- A PTP message of a frame: where its header starts, and where a UDP checksum stands that covers it, with whether 0 means none (IPv4). -/
structure PtpAt where
  hdr  : Nat
  csum : Option (Nat × Bool)
  deriving DecidableEq, Repr

/-- The PTP message a frame carries: Ethertype 0x88F7, or UDP to port 319 or 320 on IPv4 or IPv6. -/
def ptpIn (bs : List Nat) : Option PtpAt :=
  let t := etherAt bs
  let ip := t + 2
  let port := fun (i : Nat) => beAt bs i 2 = 319 || beAt bs i 2 = 320
  let ihl := bs.getD ip 0 % 16 * 4
  if beAt bs t 2 = 0x88F7 then some ⟨ip, none⟩
  else if beAt bs t 2 = 0x0800 ∧ bs.getD (ip + 9) 0 = 17 ∧ port (ip + ihl + 2) then some ⟨ip + ihl + 8, some (ip + ihl + 6, true)⟩
  else if beAt bs t 2 = 0x86DD ∧ bs.getD (ip + 6) 0 = 17 ∧ port (ip + 42) then some ⟨ip + 48, some (ip + 46, false)⟩
  else none

/-- One's complement sum of 16-bit words. -/
def onesSum (ws : List Nat) : Nat :=
  let s := ws.sum
  let s := s % 65536 + s / 65536
  s % 65536 + s / 65536

/-- A UDP checksum after words `old` have become `new`, updated incrementally. -/
def csumUpdate (c : Nat) (old new : List Nat) : Nat :=
  let r := 65535 - onesSum ([65535 - c] ++ old.map (fun w => 65535 - w) ++ new)
  if r = 0 then 65535 else r

/-- The 16-bit words of bytes. -/
def words16 (bs : List Nat) : Nat → List Nat
  | 0 => []
  | n + 1 => words16 bs n ++ [beAt bs (2 * n) 2]

/-- `add` (2^-16 ns) added to a message's correctionField, with the UDP checksum (R420). -/
def addCorrection (bs : List Nat) (m : PtpAt) (add : Int) : List Nat :=
  let old := (bs.drop (m.hdr + 8)).take 8
  let new := (leBytes 8 (uns 64 ((beNat old : Int) + add))).reverse
  let out := patch bs (m.hdr + 8) new
  match m.csum with
  | none => out
  | some (i, zeroNone) =>
    let c := beAt bs i 2
    if c = 0 ∧ zeroNone then out
    else patch out i (leBytes 2 (csumUpdate c (words16 old 4) (words16 new 4))).reverse

namespace Dev

abbrev netPage : Nat := 5

/-! ### Ports (R418) -/

/-- Whether ETHe is on. -/
def ethOn (d : Dev) (e : Nat) : Bool := d.bit (if e = 0 then F.NET_CTRL_EN0 else F.NET_CTRL_EN1)

def ethSpeed (d : Dev) (e : Nat) : Nat := d.get (if e = 0 then F.NET_CTRL_SPEED0 else F.NET_CTRL_SPEED1)

/-- Whether ETHe carries frames. -/
def ethUp (d : Dev) (e : Nat) : Bool := d.enabled netPage && d.ethOn e && d.bit (F.NET_PORT_STAT_LINK e)

/-- ETHe_TX_DIS after a change of the page's ENABLE or of ENe. -/
def netRefresh (d : Dev) : Dev :=
  (List.range 2).foldl (fun d e =>
    let d := d.setPin (.ethTx e) (if d.enabled netPage && d.ethOn e then .run else .idle)
    if d.enabled netPage then (d.setPin (.ethTxDis e) (if d.ethOn e then .low else .high)).put (F.NET_PORT_STAT_TX_DIS e) (!d.ethOn e) else d) d

/-- ETH_LINK_CHANGE: link, block lock, ETHe_LOS and ETHe_MOD_ABS as they now stand. -/
def ethLinkChange (d : Dev) (e : Nat) (link lock los modAbs : Bool) : Dev :=
  if 2 ≤ e then d
  else
    let was := d.bit (F.NET_PORT_STAT_LINK e)
    let mod := d.bit (F.NET_PORT_STAT_LOS e) != los || d.bit (F.NET_PORT_STAT_MOD_ABS e) != modAbs
    let d := (((d.put (F.NET_PORT_STAT_LINK e) link).put (F.NET_PORT_STAT_BLOCK_LOCK e) lock).put (F.NET_PORT_STAT_LOS e) los).put
      (F.NET_PORT_STAT_MOD_ABS e) modAbs
    let d := if modAbs then d.clearFields ((List.range 32).map (fun n => F.NET_MOD_ID_ID (32 * e + n))) else d
    let d := if was && !link then d.countSat (F.NET_PORT_STAT_DOWN_CNT e) else d
    let d := if was != link then d.raise netPage 3 else d
    if mod then d.raise netPage 4 else d

/-! ### Learned addresses (R419) -/

def macPort (d : Dev) (mac : Nat) : Option Nat := (d.net.macs.find? (fun m => m.mac = mac)).map (·.port)

/-- The source address of a frame from ETHe learned; a full table learns nothing new. -/
def learnMac (d : Dev) (e mac : Nat) : Dev :=
  let l := d.net.macs.filter (fun m => m.mac ≠ mac)
  if d.bit F.NET_CTRL_LEARN_EN && decide (l.length < 1024) then { d with net := { d.net with macs := l ++ [⟨mac, e, d.time.c⟩] } } else d

/-- MAC_AGE_OUT: no traffic from an address for AGE s. -/
def macAgeOut (d : Dev) (mac : Nat) : Dev :=
  let a := d.get F.NET_LEARN_AGE
  { d with net := { d.net with macs := d.net.macs.filter (fun m => m.mac ≠ mac || a = 0 || decide (d.elapsed m.seen < a * 1000000000)) } }

/-! ### Forwarding (R419, R420) -/

/-- A PTP message of Vesper's own leaves on ETHe; no rule gives its bytes (log entry 46, DESIGN CHOICE). -/
def sendPtp (d : Dev) (e type : Nat) : Dev := if d.ethUp e then d.emit (.ptpSent e type) else d

/-- A frame given to the internal port; one that Vesper does not consume becomes a NETFRAME record (R448). A Pdelay_Req is answered on its own port. -/
def toInternal (d : Dev) (e : Nat) (bs : List Nat) : Dev :=
  let d := d.count F.NET_CNT_TO_INT_COUNT
  match ptpIn bs with
  | some m => if d.bit F.NET_CTRL_TC_MODE && bs.getD m.hdr 0 % 16 = 2 then d.sendPtp e 3 else d
  | none =>
    if d.bit (F.RQ_CTRL_EN 4) then d.report 4 6 0 (wordsLe [e, bs.length, 0, 0] ++ bs)
    else d.count F.NET_CNT_DROP_COUNT

/-- A frame from ETHe forwarded to the other port; `full` says which egress buffers are full, `bad` that its FCS is wrong. -/
def toOther (d : Dev) (e : Nat) (bs : List Nat) (full : Nat) (bad : Bool) : Dev :=
  let o := 1 - e
  if !d.bit F.NET_CTRL_FWD_EN || !d.ethUp o then d
  else if full / 2 ^ o % 2 = 1 then d.count F.NET_CNT_DROP_COUNT
  else (d.emit (if bad then .ethFrameBad o bs else .ethFrame o bs)).count F.NET_CNT_FWD_COUNT

/-- A PTP event message that goes out on the other port, corrected for its residence `res` (2^-16 ns). -/
def corrected (d : Dev) (e : Nat) (bs : List Nat) (m : PtpAt) (res full : Nat) : Dev × List Nat :=
  let typ := bs.getD m.hdr 0 % 16
  if 4 ≤ typ ∨ !d.bit F.NET_CTRL_FWD_EN ∨ !d.ethUp (1 - e) ∨ full / 2 ^ (1 - e) % 2 = 1 then (d, bs)
  else
    let ns := min (res / 2 ^ 16) 65535
    let add : Int := (res : Int) + ((if typ = 0 && d.bit F.NET_CTRL_TC_MODE then d.get (F.NET_PORT_PDELAY_PDELAY e) * 2 ^ 12 else 0 : Nat) : Int)
      + d.getS (F.NET_PORT_ASYM_ASYM (1 - e)) * 2 ^ 16
    (((d.set F.NET_TC_RES_LAST ns).set F.NET_TC_RES_MAX (max ns (d.get F.NET_TC_RES_MAX))).count F.NET_CNT_TC_CORR_COUNT, addCorrection bs m add)

/-- ETH_FRAME_RX: a frame without its FCS received on ETHe; `res` is its residence if it is forwarded, `full` the egress buffers that are full
(bit o for ETHo). -/
def ethFrameRx (d : Dev) (e : Nat) (bs : List Nat) (fcsOk : Bool) (res full : Nat) : Dev :=
  if 2 ≤ e || !d.ethUp e then d
  else
    let d := d.count (if e = 0 then F.NET_CNT_RX0_COUNT else F.NET_CNT_RX1_COUNT)
    let fcs := if e = 0 then F.NET_CNT_FCS0_COUNT else F.NET_CNT_FCS1_COUNT
    let dst := beAt bs 0 6
    let multi := bs.getD 0 0 % 2 = 1
    let own := dst = d.get F.NET_MAC_LO_MAC_LO + d.get F.NET_MAC_HI_MAC_HI * 2 ^ 32
    let port := d.macPort dst
    let mode := d.bit F.NET_CTRL_TC_MODE
    if beAt bs (etherAt bs) 2 = 0x8808 || decide (9216 < bs.length + 4) then d.count fcs
    else
      let msg := ptpIn bs
      let typ := match msg with | some m => bs.getD m.hdr 0 % 16 | none => 0xF
      let pdelay := msg.isSome && mode && (typ = 2 || typ = 3 || typ = 0xA)
      let delay := msg.isSome && mode && (typ = 1 || typ = 9)
      let d0 := d
      let d := if fcsOk then d.learnMac e (beAt bs 6 6) else d.count fcs
      if own || pdelay then (if fcsOk then d.toInternal e bs else d)
      else if delay then (if fcsOk then d.count F.NET_CNT_DROP_COUNT else d)
      else
        let ptp := msg.isSome && d.bit F.NET_CTRL_TC_EN
        let both := ptp || multi
        if !both && port = some e then d
        else
          let r := match msg with
            | some m => if ptp && (fcsOk || d0.ethSpeed 0 = d0.ethSpeed 1) then d.corrected e bs m res full else (d, bs)
            | none => (d, bs)
          let d := if fcsOk then r.1.toOther e r.2 full false
            -- a bad frame has already left only where it was cut through
            else if d.ethSpeed 0 = d.ethSpeed 1 then r.1.toOther e r.2 full true
            else d
          if both && fcsOk then d.toInternal e bs else d

/-- PDELAY_MEASURE: the peer delay of ETHe measured with a Pdelay_Req of its own, once per second (28.4 ns). -/
def pdelayMeasure (d : Dev) (e delay : Nat) : Dev :=
  let due := match d.net.pdelayAt.find? (fun l => l.1 = e) with | some l => decide (1000000000 ≤ d.elapsed l.2) | none => true
  if 2 ≤ e || !d.bit F.NET_CTRL_TC_MODE || !d.enabled netPage || !d.ethOn e || !due then d
  else
    let l := d.net.pdelayAt.filter (fun l => l.1 ≠ e) ++ [(e, d.time.c)]
    (({ d with net := { d.net with pdelayAt := l } } : Dev).sendPtp e 2).set (F.NET_PORT_PDELAY_PDELAY e) delay

/-- A write to a block register of the NET page, past the gate. -/
def netWrite (d : Dev) (off word : Nat) : Dev :=
  if off = 0x40 then
    d.featured netPage off word [(F.NET_CTRL_TC_MODE, 13)] (!(fieldOf F.NET_CTRL_FEC0 word = 1 && fieldOf F.NET_CTRL_SPEED0 word = 1)
      && !(fieldOf F.NET_CTRL_FEC1 word = 1 && fieldOf F.NET_CTRL_SPEED1 word = 1)) (·.netRefresh)
  else d.regWrite netPage off word

end Dev

/-! ### The meanings -/

def execEthFrameRx (e : Nat) (bytes : List Nat) (fcsOk : Bool) (res full : Nat) (s : State) : Answer := s.run (·.ethFrameRx e bytes fcsOk res full)
def execPdelayMeasure (e delay : Nat) (s : State) : Answer := s.run (·.pdelayMeasure e delay)
def execMacAgeOut (mac : Nat) (s : State) : Answer := s.run (·.macAgeOut mac)
def execEthLinkChange (e : Nat) (link lock los modAbs : Bool) (s : State) : Answer := s.run (·.ethLinkChange e link lock los modAbs)

end Sys2Proof.Machine
end

