-- ==== Sys2Proof/Machine/Pack.lean ====
section
/-! DEFINITION. The PACK engine (R454–R469): the code stream, blocks, history, self-verification, state images. -/

namespace Sys2Proof.Machine

/-! ### The code stream (R456, R457) -/

/-- Codes built from 258 up: prefix code and last byte. -/
abbrev Dict := List (Nat × Nat)

def Dict.next (t : Dict) : Nat := 258 + t.length

/-- The width of the next code (R456). -/
def codeWidth (next : Nat) : Nat := min 16 ((findBelow (fun k => decide (next < 2 ^ k)) 17).getD 17)

/-- The string of a code, by its prefixes; `fuel` bounds its length. -/
def Dict.string (t : Dict) : Nat → Nat → List Nat
  | 0, _ => []
  | fuel + 1, c =>
    if c < 256 then [c]
    else match t[c - 258]? with
      | some (p, b) => string t fuel p ++ [b]
      | none => []

def Dict.str (t : Dict) (c : Nat) : List Nat := t.string (t.length + 1) c

/-- The first byte of a code's string. -/
def Dict.head (t : Dict) (c : Nat) : Nat := (t.str c).headD 0

/-- The codes for the string of the codes `cs`, which all stand for it, followed by byte `b`; `pend` is the entry that the next code will build. A loaded or
decoded history may hold a string twice. -/
def Dict.children (t : Dict) (pend : Option (Nat × Nat)) (cs : List Nat) (b : Nat) : List Nat :=
  ((t ++ pend.toList).zipIdx.filter (fun e => e.1.2 = b && cs.contains e.1.1)).map (fun e => 258 + e.2)

/-- The longest string of the dictionary at the head of the input: its lowest code and its length (R457). -/
def Dict.longest (t : Dict) (pend : Option (Nat × Nat)) : List Nat → Nat → List Nat → Nat × Nat
  | cs, n, [] => (cs.headD 0, n)
  | cs, n, b :: bs => match t.children pend cs b with
    | [] => (cs.headD 0, n)
    | cs' => longest t pend cs' (n + 1) bs

/-- A code stream being written: the dictionary its decoder holds, prev, the bits so far, the bytes taken. -/
structure Coder where
  dict  : Dict
  prev  : Option Nat := none
  bits  : Nat := 0
  pos   : Nat := 0
  taken : Nat := 0
  full  : Bool := false

def Coder.put (k : Coder) (w c : Nat) : Coder := { k with bits := k.bits + c % 2 ^ w * 2 ^ k.pos, pos := k.pos + w }

/-- The code that a decoder builds when it reads a code whose string begins with byte `b` (R456). -/
def buildCode (t : Dict) (prev : Option Nat) (b : Nat) : Dict := match prev with
  | some p => if t.next ≤ 65535 then t ++ [(p, b)] else t
  | none => t

/-- CLEAR follows the code whose decoding has brought next to 65,536, whatever comes after it (R457). -/
def Coder.clear (k : Coder) : Coder := { k.put 16 256 with dict := [], prev := none }

/-- Data codes for the input while they fit into `room` bytes, a CLEAR that follows one included; `fuel` is the length of the input (R457, R461). -/
def Coder.run (room : Nat) (clear : Bool) : Nat → List Nat → Coder → Coder
  | 0, _, k => k
  | _, [], k => k
  | fuel + 1, b :: bs, k =>
    let w := codeWidth k.dict.next
    let pend := match k.prev with
      | some p => if k.dict.next ≤ 65535 then some (p, k.dict.head p) else none
      | none => none
    let m := k.dict.longest pend [b] 1 bs
    let dict := buildCode k.dict k.prev b
    let fills := clear && k.dict.next ≠ 65536 && dict.next = 65536
    if room < (k.pos + w + (if fills then 16 else 0) + 16 + 7) / 8 then { k with full := true }
    else
      let k' := { k.put w m.1 with dict := dict, prev := some m.1, taken := k.taken + m.2 }
      run room clear fuel ((b :: bs).drop m.2) (if fills then k'.clear else k')

/-- The code bytes of a block with END, and the coder at its end. -/
def encodeBlock (room : Nat) (clear : Bool) (t : Dict) (input : List Nat) : Coder × List Nat :=
  let k := Coder.run room clear input.length input { dict := t }
  let e := k.put (codeWidth k.dict.next) 257
  (k, leBytes ((e.pos + 7) / 8) e.bits)

/-- A decoder's result: the dictionary, the bytes. -/
inductive Decoded where
  | corrupt | done (dict : Dict) (out : List Nat)

/-- R456 on a stream of `n` bits held in `v`; `fuel` bounds the codes. -/
def decodeGo (v n : Nat) : Nat → Nat → Dict → Option Nat → List Nat → Decoded
  | 0, _, _, _, _ => .corrupt
  | fuel + 1, pos, t, prev, out =>
    let w := codeWidth t.next
    let c := v / 2 ^ pos % 2 ^ w
    if n < pos + w then .corrupt
    else if c = 256 then decodeGo v n fuel (pos + w) [] none out
    else if c = 257 then .done t out
    else
      let s := if c < 256 ∨ c < t.next then some (t.str c)
        else match prev with
          | some p => if c = t.next ∧ t.next ≤ 65535 then some (t.str p ++ [t.head p]) else none
          | none => none
      match s with
      | none => .corrupt
      | some s => decodeGo v n fuel (pos + w) (buildCode t prev (s.headD 0)) (some c) (out ++ s)

def decodeBlock (t : Dict) (codes : List Nat) : Decoded := decodeGo (leNat codes) (8 * codes.length) (codes.length + 1) 0 t none []

/-- The block header (Table pack-1). -/
def packHeader (stream seq flags inLen codeLen check start : Nat) : List Nat :=
  wordsLe [0x4B43_4150, stream * 65536 + seq, 0x10 + flags, inLen, codeLen, check, start, 0]

namespace Dev

def packCh (d : Dev) (c : Nat) : PackCh := Sparse.get d.pack {} c
def setPackCh (d : Dev) (c : Nat) (x : PackCh) : Dev := { d with pack := Sparse.set d.pack {} c x }

/-- The registers that show a channel's history. -/
def showHist (d : Dev) (c : Nat) : Dev :=
  let n := (d.packCh c).table.length + 258
  (d.set (F.PACK_CH_NEXT_NEXT c) n).put (F.PACK_CH_STAT_DICT_FULL c) (n = 65536)

/-- The history lost. -/
def dropHist (d : Dev) (c : Nat) : Dev := ((d.setPackCh c { d.packCh c with table := [] }).put (F.PACK_CH_STAT_HELD c) false).showHist c

/-- The history held after a block (R459, R460). -/
def holdHist (d : Dev) (c stream seq : Nat) (t : Dict) : Dev :=
  ((((d.setPackCh c { d.packCh c with table := t }).put (F.PACK_CH_STAT_HELD c) true).set (F.PACK_CH_HIST_STREAM_ID c) stream).set
    (F.PACK_CH_HIST_BLOCK_SEQ c) seq).showHist c

/-- Whether a compressed block continues the history (R459). -/
def packCont (d : Dev) (c : Nat) : Bool :=
  (d.packCh c).cfg.carry && d.bit (F.PACK_CH_STAT_HELD c) && d.get (F.PACK_CH_HIST_STREAM_ID c) = (d.packCh c).cfg.stream

/-- A block of `plain` bytes and `code` bytes of codes counted, in KiB as they become whole (Table pack-5). -/
def packCounted (d : Dev) (c plain code : Nat) : Dev :=
  let x := d.packCh c
  let d := d.setPackCh c { x with inRem := (x.inRem + plain) % 1024, outRem := (x.outRem + code) % 1024 }
  ((d.count (F.PACK_CH_CNT_IN_COUNT c) ((x.inRem + plain) / 1024)).count (F.PACK_CH_CNT_OUT_COUNT c) ((x.outRem + code) / 1024)).count
    (F.PACK_CH_CNT_BLOCKS_COUNT c)

/-- A compressed block: its bytes with header, whether room ran out, and the device holding the new history (R458–R462). -/
def packCompress (d : Dev) (c room : Nat) (input : List Nat) : Dev × List Nat × Bool :=
  let cont := d.packCont c
  let t0 : Dict := if cont then (d.packCh c).table else []
  let seq := if cont then (d.get (F.PACK_CH_HIST_BLOCK_SEQ c) + 1) % 65536 else 0
  let stream := (d.packCh c).cfg.stream
  let r := encodeBlock (room - 32) (d.packCh c).cfg.clear t0 input
  let full := r.1.full
  let flags := b2n cont + 2 * b2n full + 4 * b2n (d.feat 17)
  let head := packHeader stream seq flags r.1.taken r.2.length (crc32c (input.take r.1.taken)) (258 + t0.length)
  let d := (d.holdHist c stream seq r.1.dict).packCounted c r.1.taken r.2.length
  let d := if full then (d.count (F.PACK_CH_CNT_OUTFULL_COUNT c)).raise 0x0C 5 else d
  (d, head ++ r.2, full)

/-- A decoding failure (R464). -/
def packBad (d : Dev) (c : Nat) (e : Err) : Dev :=
  (((d.dropHist c).count (F.PACK_CH_CNT_DECODE_ERR_COUNT c)).set (F.PACK_CH_STAT_LAST_ERR c) e.code).raise 0x0C 4

/-- The header checks of a block on its way in, before R460 (R464): MAGIC, VERSION, the zero fields, room for the codes. -/
def packHeadBad (room : Nat) (block : List Nat) : Bool :=
  let w := fun i => leNat ((block.drop (4 * i)).take 4)
  w 0 ≠ 0x4B43_4150 ∨ w 2 / 256 ≠ 0 ∨ w 2 / 16 % 16 ≠ 1 ∨ w 2 / 8 % 2 ≠ 0 ∨ w 7 ≠ 0 ∨ w 6 / 2 ^ 17 ≠ 0 ∨ room < 32 + w 4

/-- A block decompressed: its bytes, or the error that ends it (R460, R464). `room` is the descriptor's LEN. -/
def packExpand (d : Dev) (c room : Nat) (block : List Nat) : Dev × (Err ⊕ List Nat) :=
  let w := fun i => leNat ((block.drop (4 * i)).take 4)
  let stream := w 1 / 65536; let seq := w 1 % 65536
  let cont := w 2 % 2 = 1
  if packHeadBad room block then
    (d.packBad c .range, .inl .range)
  else if cont ∧ ¬(d.bit (F.PACK_CH_STAT_HELD c) ∧ d.get (F.PACK_CH_HIST_STREAM_ID c) = stream
      ∧ (d.get (F.PACK_CH_HIST_BLOCK_SEQ c) + 1) % 65536 = seq ∧ 258 + (d.packCh c).table.length = w 6) then
    (d.packBad c .state, .inl .state)
  else match decodeBlock (if cont then (d.packCh c).table else []) ((block.drop 32).take (w 4)) with
    | .corrupt => (d.packBad c .range, .inl .range)
    | .done t out =>
      if out.length ≠ w 3 then (d.packBad c .range, .inl .range)
      else if crc32c out ≠ w 5 then (d.packBad c .parity, .inl .parity)
      else
        ((d.holdHist c stream seq t).packCounted c out.length (w 4), .inr out)

/-- The channel becomes idle. -/
def packIdle (d : Dev) (c : Nat) : Dev := (d.setPackCh c { d.packCh c with now := none }).set (F.PACK_CH_STAT_DIR c) 0

/-- A mismatch of self-verification (R465). -/
def packMismatch (d : Dev) (c : Nat) : Dev :=
  (((d.dropHist c).count (F.PACK_CH_CNT_VERIFY_FAIL_COUNT c)).set (F.PACK_CH_STAT_LAST_ERR c) Err.internal.code).raise 0x0C 3

/-- The block of an image record ends: it is reported packed, or as it was after a mismatch (R463, R465). -/
def packRecordDone (d : Dev) (c typ w0 w1 : Nat) (input : List Nat) (verifyOk : Bool) : Dev :=
  let d := d.packIdle c
  if d.feat 17 && !verifyOk then (d.packMismatch c).imageReport typ 0 w0 w1 input.length input.length input
  else
    let r := d.packCompress c (d.imageRoom - 32) input
    r.1.imageReport typ (1 + 4 * b2n r.2.2) w0 w1 r.2.1.length input.length r.2.1

/-! ### State images (R466, R467) -/

/-- The HBM offset of a channel's image. -/
def packAddr (d : Dev) (c : Nat) : Nat := d.get (F.PACK_CH_ST_ADDR_LO_ADDR_LO c) * 64 + d.get (F.PACK_CH_ST_ADDR_HI_ADDR_HI c) * 2 ^ 32

def packStart (d : Dev) (c : Nat) (load : Bool) : Dev :=
  let off := 0x110 + 0x40 * c
  d.gated 0x0C off (fun d =>
    let x := d.packCh c
    if x.now.isSome || x.saving.isSome then d.refuse 0x0C off .busy
    else if 0x4_0000_0000 < d.packAddr c + 262208 then d.refuse 0x0C off .range
    else (d.setPackCh c { x with saving := some (load, d.packAddr c) }).put (F.PACK_CH_ST_CTRL_BUSY c) true)

/-- Words of a state image (Table pack-2): codes below 258 are 0, and so are those not built. -/
def packImage (d : Dev) (c : Nat) : List Nat :=
  let t := (d.packCh c).table
  let codes := List.replicate 258 0 ++ t.map (fun e => e.1 * 256 + e.2) ++ List.replicate (65536 - 258 - t.length) 0
  [0x5453_4B50, d.get (F.PACK_CH_HIST_STREAM_ID c) * 65536 + d.get (F.PACK_CH_HIST_BLOCK_SEQ c), 258 + t.length, crc32c (wordsLe codes)]
    ++ List.replicate 12 0 ++ codes

/-- STATE_DONE: the SAVE or LOAD in progress ends (R467). -/
def packStateDone (d : Dev) (c : Nat) : Dev :=
  let x := d.packCh c
  match x.saving with
  | none => d
  | some (load, a) =>
    let d := (d.setPackCh c { x with saving := none }).put (F.PACK_CH_ST_CTRL_BUSY c) false
    let res : Dev × Err :=
      if !load then
        if d.bit (F.PACK_CH_STAT_HELD c) then (d.setBytes a (wordsLe (d.packImage c)), .ok) else (d, .state)
      else
        let next := d.read (a + 8) 4
        let entries := (List.range (next - 258)).map (fun i => d.read (a + 0x40 + 4 * (258 + i)) 4)
        let codeOk := (List.range (next - 258)).all (fun i =>
          let p := entries.getD i 0 / 256 % 65536
          p ≠ 256 && p ≠ 257 && decide (p < 258 + i))
        if d.read a 4 ≠ 0x5453_4B50 ∨ next < 258 ∨ 65536 < next ∨ !codeOk then (d, .range)
        else if crc32c (d.bytes (a + 0x40) 262144) ≠ d.read (a + 12) 4 then (d, .parity)
        else (d.holdHist c (d.read (a + 6) 2) (d.read (a + 4) 2) (entries.map (fun w => (w / 256 % 65536, w % 256))), .ok)
    (res.1.set (F.PACK_CH_ST_CTRL_RESULT c) res.2.code).raise 0x0C 6

end Dev

/-! ### The meanings -/


def execPackSave (c : Nat) (s : State) : Answer := s.run (·.packStart c false)
def execPackLoad (c : Nat) (s : State) : Answer := s.run (·.packStart c true)
def execStateDone (c : Nat) (s : State) : Answer := s.run (·.packStateDone c)

end Sys2Proof.Machine
end

