-- ==== Sys2Proof/Machine/Fall.lean ====
section
/-! DEFINITION. The committed record (Table seg-1) and the free-fall arithmetic of R222–R238: exact integers, one square root where the
spec has one. World positions are in 2^-21 µm, times in ns, velocities in raw signed 16.16 mm/s (125/8192 µm/s). -/

namespace Sys2Proof.Machine

/-- The context of a body index (R202). -/
def ctxOff (i : Nat) : Nat := 0x4_2000_0000 + i * 128

/-- The partner-array entry of a context (R231). -/
def partnerOff (i : Nat) : Nat := 0x4_4200_0000 + i * 4

/-- Whether P + Q√R ≥ 0, exactly. -/
def geRoot (P Q : Int) (R : Nat) : Bool :=
  if 0 ≤ Q then decide (0 ≤ P) || decide (P * P ≤ Q * Q * R) else decide (0 ≤ P) && decide (Q * Q * R ≤ P * P)

/-- Whether P + Q√R > 0, exactly. -/
def gtRoot (P Q : Int) (R : Nat) : Bool := !geRoot (-P) (-Q) R

/-- The greatest integer not above a / √s, for s > 0; `z` where s = 0, a quotient the spec does not state. -/
def floorOver (z : Int) (a : Int) (s : Nat) : Int :=
  if s = 0 then z
  else if 0 ≤ a then (isqrt (a.toNat * a.toNat / s) : Nat)
  else
    let m := (-a).toNat
    let r := isqrt (m * m / s)
    if r * r * s = m * m then -(r : Int) else -(r : Int) - 1

/-- The least integer not below a / √s. -/
def ceilOver (z : Int) (a : Int) (s : Nat) : Int := -floorOver (-z) (-a) s

/-- 4 words of ST40 put together. -/
def st40Of (lo hi : Nat) : Nat := lo + hi % 256 * 2 ^ 32

namespace Dev

/-! ### The record -/

/-- Word at an offset of the context of body index i. -/
def ctxWord (d : Dev) (i off : Nat) : Nat := d.read (ctxOff i + off) 4

def recFirstIdx (d : Dev) (i : Nat) : Nat := d.ctxWord i 0x08
def recHeight (d : Dev) (i : Nat) : Nat := d.ctxWord i 0x0C % 2 ^ 13
def recXMin (d : Dev) (i : Nat) : Nat := d.ctxWord i 0x10 % 65536
def recXMax (d : Dev) (i : Nat) : Nat := d.ctxWord i 0x10 / 65536
def recArea (d : Dev) (i : Nat) : Nat := d.ctxWord i 0x14 % 2 ^ 23
def recFirstT (d : Dev) (i : Nat) : Nat := st40Of (d.ctxWord i 0x18) (d.ctxWord i 0x20)
def recLastT (d : Dev) (i : Nat) : Nat := st40Of (d.ctxWord i 0x1C) (d.ctxWord i 0x20 / 256)
def recXc (d : Dev) (i : Nat) : Nat := d.ctxWord i 0x24 % 2 ^ 21
def recYc (d : Dev) (i : Nat) : Nat := d.ctxWord i 0x28 % 2 ^ 17
def recTRef (d : Dev) (i : Nat) : Nat := st40Of (d.ctxWord i 0x6C) (d.ctxWord i 0x24 / 2 ^ 24)
def recTEj (d : Dev) (i : Nat) : Nat := st40Of (d.ctxWord i 0x70) (d.ctxWord i 0x28 / 2 ^ 24)
def recVx (d : Dev) (i : Nat) : Int := sgn 32 (d.ctxWord i 0x74)
def recVy (d : Dev) (i : Nat) : Int := sgn 32 (d.ctxWord i 0x78)
def recHist (d : Dev) (i c : Nat) : Nat := d.read (ctxOff i + 0x4C + 2 * c) 2

/-- The DT that an ST40 value of a record stands for. -/
def dtOf (d : Dev) (st : Nat) : Int := (d.now : Int) + st40Diff st d.now

/-! ### Rows and groups -/

def segGroup (d : Dev) (g : Nat) : SegGroup := Sparse.get d.seg.groups {} g
def setSegGroup (d : Dev) (g : Nat) (x : SegGroup) : Dev := { d with seg := { d.seg with groups := Sparse.set d.seg.groups {} g x } }

/-- The crossing time of row j of group g in 2^-16 ns, where it is held (R83, R223, R224). -/
def rowTime (d : Dev) (g j : Nat) : Option Int :=
  ((d.segGroup g).rows.find? (fun r => r.1 = j)).map (fun r => (r.2 : Int) + d.getS (F.TRAJ_GCFG_EXP_OFS g) * 65536)

/-- floor((√a + b) / c); where the quotient is exact, it is a tie of the rounding that b carries (log entry 20, DESIGN CHOICE). -/
def rootTie (a : Nat) (b c : Int) : Int :=
  let q := floorRoot a b c
  if isqrt a * isqrt a = a ∧ ((isqrt a : Int) + b) % c = 0 ∧ Config.rootTieDown a b c then q - 1 else q

def roleOf (d : Dev) (g : Nat) : Nat := d.get (F.TRAJ_GCFG_ROLE g)
def heightOf (d : Dev) (g : Nat) : Nat := d.get (F.TRAJ_GHEIGHT_HEIGHT g)
def grav (d : Dev) : Nat := d.get F.TRAJ_GRAV_G

/-- The lower group whose PARTNER is g. -/
def lowerOf (d : Dev) (g : Nat) : Option Nat :=
  (List.range 8).find? (fun l => d.roleOf l = 2 && d.get (F.TRAJ_GCFG_PARTNER l) = g)

/-- D = HEIGHT_u − HEIGHT_l of a lower group (R222). -/
def planeSep (d : Dev) (l : Nat) : Nat := d.heightOf (d.get (F.TRAJ_GCFG_PARTNER l)) - d.heightOf l

/-- The world position of a column in 2^-21 µm: ORIGIN + XC ÷ 32 × PITCH (R224). -/
def worldX (d : Dev) (g xc : Nat) : Int := d.getS (F.TRAJ_GORIGIN_ORIGIN g) * 2 ^ 21 + (xc * d.get (F.TRAJ_GPITCH_PITCH g) : Nat)

/-! ### Settings in force (R242) -/

/-- The fields that expiry, role changes and the planner read outside a commit. -/
def trajHeld : List Fld :=
  [F.TRAJ_GRAV_G, F.TRAJ_VLIM_VY_MIN, F.TRAJ_VLIM_VY_MAX]
    ++ (List.range 8).flatMap (fun g => [F.TRAJ_GCFG_EXP_OFS g, F.TRAJ_VY_AVG_VY_AVG g, F.TRAJ_VX_AVG_VX_AVG g])

/-- While sorting, what those fields hold is kept before a write, to stay in force until the next commit (R242). -/
def trajKeep (d : Dev) : Dev :=
  if !d.sorting || d.seg.trajOld ≠ [] then d else { d with seg := { d.seg with trajOld := trajHeld.map (fun f => (f.key, f.reset, d.get f)) } }

/-- The device with the settings of the last commit (R242). -/
def trajView (d : Dev) : Dev := d.seg.trajOld.foldl (fun (d : Dev) e => { d with regs := Sparse.set d.regs e.2.1 e.1 e.2.2 }) d

/-! ### Velocities and fall times -/

/-- (125 V)² − 2GD × 2^26: the radicand of √(v² − 2GD) in (1/8192 µm/s)², for a lower group and a raw velocity (R228, R235). -/
def upRad (d : Dev) (l : Nat) (v : Int) : Nat := ((125 * v) * (125 * v) - (2 * d.grav * d.planeSep l * 2 ^ 26 : Nat)).toNat

/-- (125 V)² + 2GH × 2^26: the radicand of √(v² + 2GH). -/
def downRad (d : Dev) (g : Nat) (v : Int) : Nat := ((125 * v) * (125 * v)).toNat + 2 * d.grav * d.heightOf g * 2 ^ 26

/-- VX_AVG of a group: an upper group has that of its lower group (R235). -/
def vxAvg (d : Dev) (g : Nat) : Int :=
  if d.roleOf g = 1 then (match d.lowerOf g with | some l => d.getS (F.TRAJ_VX_AVG_VX_AVG l) | none => d.getS (F.TRAJ_VX_AVG_VX_AVG g))
  else d.getS (F.TRAJ_VX_AVG_VX_AVG g)

/-- v_g of R235 as raw 16.16, to the nearest. -/
def vG (d : Dev) (g : Nat) : Int :=
  if d.roleOf g = 1 then (match d.lowerOf g with
    | some l => rootTie (4 * d.upRad l (d.getS (F.TRAJ_VY_AVG_VY_AVG l))) 125 250
    | none => d.getS (F.TRAJ_VY_AVG_VY_AVG g))
  else d.getS (F.TRAJ_VY_AVG_VY_AVG g)

/-- A square root with 60 fraction bits, for the one formula that holds two of them. -/
def root60 (x : Nat) : Nat := isqrt (x * 2 ^ 120)

/-- T_EJ by the chute average from 2 × T_REF, to the nearest ns (R232, R235). -/
def fallbackEj (d : Dev) (g : Nat) (tRef2 : Int) : Int :=
  let G : Int := d.grav
  let own :=
    let v := d.getS (F.TRAJ_VY_AVG_VY_AVG g)
    rootTie (4 * 10 ^ 18 * d.downRad g v) (tRef2 * 8192 * G - 250 * 10 ^ 9 * v + 8192 * G) (16384 * G)
  if d.roleOf g = 1 then (match d.lowerOf g with
    | some l =>
      let r := d.upRad l (d.getS (F.TRAJ_VY_AVG_VY_AVG l))
      let fall : Int := 2 * 10 ^ 9 * ((root60 (r + 2 * d.grav * d.heightOf g * 2 ^ 26) : Int) - root60 r)
      roundTie (tRef2 * 8192 * G * 2 ^ 60 + fall) (16384 * G * 2 ^ 60)
    | none => own)
  else own

/-! ### Committed bodies -/

def bodyOf (d : Dev) (id : Nat) : Option CBody := d.seg.bodies.find? (fun b => b.id = id)
def updBody (d : Dev) (id : Nat) (f : CBody → CBody) : Dev :=
  { d with seg := { d.seg with bodies := d.seg.bodies.map (fun b => if b.id = id then f b else b) } }

/-- The context index of a body ID (Table seg-1). -/
def ctxOf (id : Nat) : Nat := id / 2 ^ 14

end Dev

end Sys2Proof.Machine
end

