-- ==== Sys2Proof/Machine/Planner.lean ====
section
/-! DEFINITION. Ejection planning (R302–R330): which verdicts are planned, the body at the ejector plane, the valve map, fire times, joins and
bounds, withdrawal, pressure, the Twilight rule and DIVERT_OUT. -/

namespace Sys2Proof.Machine

def planSwap : SwapDef := ⟨0x80, 0x70, F.PLAN_SWAP_TIMED, F.PLAN_SWAP_PEND, F.PLAN_SWAP_ACTIVE, F.PLAN_SWAP_DT_PEND, F.PLAN_SWAP_SWAP_CNT,
  F.PLAN_SWAP_AT_LO_AT_LO, F.PLAN_SWAP_AT_HI_AT_HI, F.PLAN_SWAP_DT_LO_DT_LO, F.PLAN_SWAP_DT_HI_DT_HI, none, 9, 10⟩

/-- The entry of valve i in a bank of the valve map (R309). -/
def mapOff (bank i : Nat) : Nat := 0x4_4005_0000 + bank * 0x8000 + i * 16

/-- A valve-map entry (Table plan-1); times in µs. -/
structure Valve where
  index  : Nat
  en     : Bool
  x      : Int
  halfW  : Nat
  minOff : Nat
  minOn  : Nat
  onMax  : Nat
  deriving DecidableEq, Repr

/-- The nearest multiple of 10 ns, ties upward (R314). -/
def round10 (t : Int) : Int := (t + 5) / 10 * 10

/-- Word 1 of a verdict (Table eng-5). -/
def verdictWord (conf code cause source : Nat) (hint reject : Bool) : Nat :=
  conf % 256 * 2 ^ 24 + code % 256 * 2 ^ 16 + cause * 2 ^ 12 + source * 2 ^ 8 + b2n hint * 2 + b2n reject

def Verdict.rejects (v : Verdict) : Bool := v.w1 % 2 = 1
def Verdict.hinted (v : Verdict) : Bool := v.w1 / 2 % 2 = 1

namespace Dev

/-! ### The valve map -/

def valve (d : Dev) (bank i : Nat) : Valve :=
  let o := mapOff bank i
  let w1 := d.read (o + 4) 4
  let w2 := d.read (o + 8) 4
  { index := i, en := decide (2 ^ 31 ≤ w1), x := sgn 32 (d.read o 4), halfW := w1 % 65536, minOff := w2 / 65536, minOn := w2 % 65536,
    onMax := d.read (o + 12) 4 % 65536 }

/-- Entry i of a bank fails R310. -/
def entryBad (d : Dev) (bank i : Nat) : Bool :=
  let v := d.valve bank i
  v.en && !decide (1 ≤ v.halfW ∧ 10 ≤ v.minOff ∧ 10 ≤ v.minOn ∧ v.minOn ≤ v.onMax ∧ v.onMax ≤ d.get F.PLAN_GUARD_ON_HARD)

/-- The lowest entry of a bank that fails. -/
def mapBad (d : Dev) (bank : Nat) : Option Nat := (List.range 2048).find? (d.entryBad bank)

/-- A write of PLAN_SWAP: at GO the inactive bank is checked and PLAN_MAP_ERR names the entry that fails (R309, R310). -/
def planSwapGo (d : Dev) (value : Nat) : Dev :=
  let bad := d.mapBad (1 - d.get F.PLAN_SWAP_ACTIVE)
  let asked := d.gate 0x80 0x70 = .pass ∧ value % 2 = 1 ∧ ¬ d.state ≤ 2 ∧ ¬ d.bit F.PLAN_SWAP_PEND
  let d := match bad with
    | some i => if asked then d.set F.PLAN_MAP_ERR_INDEX i else d
    | none => d
  d.swapGo planSwap value (fun _ => bad.map (fun _ => (.range, 0)))

/-! ### Pressure (R313) -/

/-- The pressure in force without a measurement in use is P_REF. -/
def pressMeasured (d : Dev) : Bool := d.feat 10 && d.bit F.PLAN_CTRL_PCOMP_EN

/-- P_REF is in force with HOLD = 0 and FAIL = 0 while pressure compensation is off, and with FAIL = 1. -/
def pressOff (d : Dev) : Dev :=
  if d.pressMeasured then (if d.bit F.PLAN_PRESS_STAT_FAIL then d.set F.PLAN_PRESS_STAT_P (d.get F.PLAN_PRESS_P_REF) else d)
  else ((d.set F.PLAN_PRESS_STAT_P (d.get F.PLAN_PRESS_P_REF)).put F.PLAN_PRESS_STAT_HOLD false).put F.PLAN_PRESS_STAT_FAIL false

/-- Invalid for longer than HOLD ms: P_REF, and PRESS_FAIL once at entry. -/
def pressFailCheck (d : Dev) : Dev :=
  if !d.pressMeasured ∨ d.bit F.PLAN_PRESS_STAT_FAIL ∨ !d.bit F.PLAN_PRESS_STAT_HOLD then d
  else if d.get F.PLAN_PRESS_HOLD * 1000000 < d.elapsed d.plan.validAt then
    (((d.put F.PLAN_PRESS_STAT_HOLD false).put F.PLAN_PRESS_STAT_FAIL true).set F.PLAN_PRESS_STAT_P (d.get F.PLAN_PRESS_P_REF)).raise 0x80 8
  else d

/-- A pressure sample: floor(S × PRESS_GAIN ÷ 65,536) + PRESS_OFS, valid while the channel is not stale and it lies within the limits. -/
def pressureSample (d : Dev) : Dev :=
  if d.plan.pressAt ≠ 0 ∧ d.elapsed d.plan.pressAt < 10000 then d
  else
    let d := { d with plan := { d.plan with pressAt := d.time.c } }
    if !d.pressMeasured then d.pressOff
    else
      let n := d.get F.PLAN_PRESS_SIG
      let raw := d.getS (F.SIG_CH_OUT_OUT n) * (d.get F.PLAN_PRESS_GAIN_GAIN : Int) / 65536 + d.getS F.PLAN_PRESS_OFS_OFS
      if !d.testBit F.SIG_STALE_STALE n ∧ (d.get F.PLAN_PRESS_LIM_P_MIN : Int) ≤ raw ∧ raw ≤ d.get F.PLAN_PRESS_LIM_P_MAX then
        let d := { d with plan := { d.plan with validAt := d.time.c, lastP := raw.toNat } }
        ((d.set F.PLAN_PRESS_STAT_P raw.toNat).put F.PLAN_PRESS_STAT_HOLD false).put F.PLAN_PRESS_STAT_FAIL false
      else if d.bit F.PLAN_PRESS_STAT_FAIL then d
      else ((d.put F.PLAN_PRESS_STAT_HOLD true).set F.PLAN_PRESS_STAT_P d.plan.lastP).pressFailCheck

/-! ### Placing a pulse (R315–R320) -/

def limitOf (d : Dev) (v : Valve) : Int := min v.onMax (d.get F.PLAN_GUARD_ON_HARD) * 1000

/-- Two intervals overlap or lie less than MIN_OFF apart (R316). -/
def near (f e f' e' minOff : Int) : Bool := decide (f < e' + minOff ∧ f' < e + minOff)

def latestSent : List Pulse → Option Pulse
  | [] => none
  | p :: ps => match latestSent ps with
    | none => some p
    | some q => if p.e ≤ q.e then some q else some p

/-- What joins a pulse after one more: its parts with those of the other, at most 4 of them kept. -/
def addParts (p : Pulse) (parts : List Part) : Pulse :=
  let all := p.parts ++ parts
  let bodies := (all.map (·.body)).eraseDups
  { p with parts := all, many := p.many || decide (4 < bodies.length) }

/-- The join with one pending pulse X: the union, which keeps what X recorded (R316, R319). -/
def joinPending (n x : Pulse) : Pulse :=
  let cont := n.cont || x.cont
  let f := if n.cont then n.f else if x.cont then x.f else min x.f n.f
  let first := if x.cont then x.first else if n.cont then n.first else f
  addParts { x with f := f, e := max x.e n.e, cont := cont, first := first } n.parts

/-- Joins with pending pulses, repeated until none applies; `k` bounds the number of joins by the pulses there are. -/
def joinAll (minOff : Int) : Nat → Pulse → List Pulse → Nat × Pulse × List Pulse
  | 0, n, l => (0, n, l)
  | k + 1, n, l => match l.find? (fun x => x.valve = n.valve && near n.f n.e x.f x.e minOff) with
    | none => (0, n, l)
    | some x =>
      let (c, n', l') := joinAll minOff k (joinPending n x) (l.erase x)
      (c + 1, n', l')

/-- A pulse finds its queue full: it is dropped, counted and recorded (R319). -/
def queueFull (d : Dev) : Dev := ((d.count F.PLAN_CNT_QFULL_COUNT).hwError 0x80 .nospace 0).raise 0x80 5

/-- The chain's limit applied and the pulse queued (R317, R319). -/
def queuePulse (d : Dev) (v : Valve) (p : Pulse) (isNew isCont : Bool) : Dev × Option Int :=
  let port := v.index / 256
  let x := d.metPort port
  let last := p.first + d.limitOf v
  let cut := last < p.e
  let d := if cut then (d.count F.PLAN_CNT_ONTIME_CUT_COUNT).raise 0x80 6 else d
  let p := if cut then { p with e := last } else p
  if p.e ≤ p.f then (d.metShow port, none)
  else if isNew ∧ 4096 ≤ x.pend.length then
    (d.queueFull.metShow port, none)
  else
    let d := d.setMetPort port { d.metPort port with pend := (d.metPort port).pend ++ [p] }
    let d := if isNew then d.count F.PLAN_CNT_METEORS_COUNT else d
    let d := if isCont then d.count F.PLAN_CNT_CONT_COUNT else d
    (d.metShow port, some p.f)

/-- A pulse that has passed the checks of R315 is joined with what the valve already has (R316). -/
def joinPulse (d : Dev) (v : Valve) (n : Pulse) : Dev × Option Int :=
  let port := v.index / 256
  let minOff : Int := v.minOff * 1000
  let soon : Int := d.now + d.get F.PLAN_TIMING_MET_LEAD * 1000
  let finish := fun (d : Dev) (n : Pulse) (isCont : Bool) =>
    let x := d.metPort port
    let (c, n, pend) := joinAll minOff x.pend.length n x.pend
    let d := (d.setMetPort port { x with pend := pend }).count F.PLAN_CNT_MERGED_COUNT c
    d.queuePulse v n (decide (c = 0)) isCont
  match latestSent ((d.metPort port).sent.filter (fun x => x.valve = v.index && near n.f n.e x.f x.e minOff)) with
  | none => finish d n false
  | some x =>
    if n.e ≤ x.e then
      let sent := (d.metPort port).sent.map (fun y => if y = x then addParts x n.parts else y)
      (d.setMetPort port { d.metPort port with sent := sent }, some x.f)
    else if soon ≤ x.e then finish d { n with f := x.e, cont := true, first := x.first } true
    else
      let f := round10 (max n.f (x.e + minOff))
      let e := if n.e - f < v.minOn * 1000 then f + v.minOn * 1000 else n.e
      let parts := n.parts.map (fun y => { y with f := max y.f f, e := max y.e e })
      finish (d.count F.PLAN_CNT_OFF_CLIP_COUNT) { n with f := f, e := e, first := f, parts := parts } false

/-- A pulse [f, e) asked for by a body (R315, R354): expired, late, refused by an OFFLINE port, or joined and queued. The start it has then. -/
def placePulse (d : Dev) (v : Valve) (body press : Nat) (f e : Int) : Dev × Option Int :=
  let port := v.index / 256
  let now : Int := d.now
  let ahead := st40Diff (uns 40 f) (uns 40 now)
  let lead := d.get F.PLAN_TIMING_MET_LEAD
  let go := fun (d : Dev) (f : Int) =>
    if d.bit (F.BLK_CTRL_OFFLINE_REQ (metPage port)) then (d.count (F.MET_CNT_OFFLINE_DROP_COUNT port), none)
    else d.joinPulse v { valve := v.index, f := f, e := e, lead := lead, press := press, first := f, parts := [⟨body, f, e⟩]
                         minOff := v.minOff, minOn := v.minOn, onMax := v.onMax }
  if d.get F.PLAN_TIMING_HORIZON * 1000000 < ahead then
    (((d.count F.PLAN_CNT_EXPIRED_COUNT).hwError 0x80 .expired 0).raise 0x80 4, none)
  else if ahead < lead * 1000 then
    let d := ((d.count F.PLAN_CNT_LATE_COUNT).hwError 0x80 .late 0).raise 0x80 3
    let f' := (now + lead * 1000 + 9) / 10 * 10
    if d.bit F.PLAN_CTRL_LATE_DROP ∨ e - f' < v.minOn * 1000 then (d.count F.PLAN_CNT_LATE_DROP_COUNT, none)
    else go d f'
  else go d f

/-! ### One body (R306–R314) -/

/-- What planning a body comes to: pulses queued or joined, the lowest valve, the earliest F. -/
structure Planned where
  pulses : Nat := 0
  valve  : Nat := 0
  first  : Option Int := none
  deriving DecidableEq, Repr

/-- T_REF × 2, T_EJ, VX and VY used for a body (R307): the record's, or the chute average while the trajectory unit is faulty. -/
def kinematics (d : Dev) (b : CBody) : Int × Int × Int × Int :=
  let i := ctxOf b.id
  if d.bit (F.BLK_STAT_FAULT 0x38) then
    let t2 := d.dtOf (d.recFirstT i) + d.dtOf (d.recLastT i)
    (t2, d.fallbackEj b.group t2, d.vxAvg b.group, d.vG b.group)
  else (2 * d.dtOf (d.recTRef i), d.dtOf (d.recTEj i), d.recVx i, d.recVy i)

/-- (t_head × q, t_tail × q, q) with q = 2^17 × max(1, HEIGHT − 1) (R306). -/
def headTail (d : Dev) (b : CBody) : Int × Int × Int :=
  let i := ctxOf b.id
  let n : Int := max 1 (d.recHeight i - 1)
  let ofs := d.getS (F.TRAJ_GCFG_EXP_OFS b.group)
  let tF := d.dtOf (d.recFirstT i) + ofs
  let tL := d.dtOf (d.recLastT i) + ofs
  let first := d.recFirstIdx i
  let head := match d.rowTime b.group ((first + 2 ^ 32 - 1) % 2 ^ 32) with
    | some t => (t + tF * 65536) * n
    | none => (2 * n * tF - (tL - tF)) * 65536
  let tail := match d.rowTime b.group ((first + d.recHeight i) % 2 ^ 32) with
    | some t => (tL * 65536 + t) * n
    | none => (2 * n * tL + (tL - tF)) * 65536
  (head, tail, 2 * n * 65536)

/-- The segments of the span that are to be covered, widened by M_SIDE, in µm × 32 × 2^17 × 10^6 (R308, R311). -/
def spans (d : Dev) (b : CBody) (hint : Option Nat) : List (Int × Int) :=
  let (tRef2, tEj, vx, _) := d.kinematics b
  let i := ctxOf b.id
  let u : Int := 2 ^ 17 * 10 ^ 6
  let pitch : Int := d.get (F.TRAJ_GPITCH_PITCH b.group)
  let base := d.getS (F.TRAJ_GORIGIN_ORIGIN b.group) * u + vx * (2 * tEj - tRef2)
  let x0 := base + (2 * (d.recXMin i : Int) - 1) * pitch * 10 ^ 6
  let x1 := base + (2 * (d.recXMax i : Int) + 1) * pitch * 10 ^ 6
  let side : Int := d.get (F.PLAN_GRP_B_M_SIDE b.group) * u * 32
  match hint with
  | none => [(32 * x0 - side, 32 * x1 + side)]
  | some h => ((List.range 32).filter (fun k => decide (h / 2 ^ k % 2 = 1))).map (fun (k : Nat) =>
      (32 * x0 + (k : Int) * (x1 - x0) - side, 32 * x0 + ((k : Int) + 1) * (x1 - x0) + side))

/-- The valves whose open coverage overlaps a segment (R311). -/
def selected (d : Dev) (segs : List (Int × Int)) : List Valve :=
  let u : Int := 32 * 2 ^ 17 * 10 ^ 6
  ((List.range 2048).map (d.valve (d.get F.PLAN_SWAP_ACTIVE))).filter (fun v =>
    v.en && segs.any (fun s => decide ((v.x - v.halfW) * u < s.2 ∧ s.1 < (v.x + v.halfW) * u)))

/-- t_on and t_off of a body: the whole ns above t_on and below t_off, all that round10 needs of them (R306, R314). -/
def airWindow (d : Dev) (b : CBody) : Int × Int :=
  let (tRef2, tEj, _, vy) := d.kinematics b
  let (head, tail, q) := d.headTail b
  let s := d.downRad b.group vy
  let z : Int := d.freeVal 32
  let lead : Int := d.get (F.PLAN_GRP_A_M_LEAD b.group) * 8192 * 10 ^ 9
  let trail : Int := d.get (F.PLAN_GRP_A_M_TAIL b.group) * 8192 * 10 ^ 9
  let a := (tRef2 * (q / 2) - head) * 125 * vy + lead * q
  let k := (tail - tRef2 * (q / 2)) * 125 * vy + trail * q
  (tEj - ceilOver z a (q.toNat * q.toNat * s), tEj + floorOver z k (q.toNat * q.toNat * s))

/-- The pulse of one valve (R314): f and e. -/
def pulseOf (d : Dev) (v : Valve) (p : Nat) (air : Int × Int) : Int × Int :=
  let f := round10 (air.1 - d.latency v.index p)
  let e := round10 (air.2 - d.latWord v.index % 65536 * 1000)
  (f, if e - f < v.minOn * 1000 then f + v.minOn * 1000 else e)

/-- A rejected body planned: every selected valve gets its pulse (R311, R314), by the TRAJ settings in force since the last commit (R242). The first
one under a new valve map dates its swap (R309). -/
def planReject (d : Dev) (b : CBody) (hint : Option Nat) : Dev × Planned :=
  let d := d.swapDate planSwap (d.dtOf b.tEj).toNat
  let t := d.trajView
  let d := if d.bit (F.BLK_STAT_FAULT 0x38) then d.count F.PLAN_CNT_TRAJ_FB_COUNT else d
  let vs := d.selected (t.spans b hint)
  let p := d.get F.PLAN_PRESS_STAT_P
  let air := t.airWindow b
  let d := if t.downRad b.group (t.kinematics b).2.2.2 = 0 ∨ d.bit (F.BLK_STAT_FAULT 0x38) then d.freeUsed 2 else d
  if vs.isEmpty then (d.count F.PLAN_CNT_NO_VALVE_COUNT, {})
  else vs.foldl (fun (acc : Dev × Planned) v =>
    let (f, e) := acc.1.pulseOf v p air
    let (d, got) := acc.1.placePulse v b.id p f e
    match got with
    | none => (d, acc.2)
    | some at_ => (d, { pulses := acc.2.pulses + 1, valve := if acc.2.pulses = 0 then v.index else acc.2.valve,
                        first := some (match acc.2.first with | some t => min t at_ | none => at_) })) (d, {})

/-! ### Which verdicts are planned (R302–R305, R320, R328) -/

/-- The planner works on verdicts in RUNNING and TWILIGHT and during STOP with drain (R328). -/
def planning (d : Dev) : Bool := (d.state = 5 || d.state = 6 || d.plan.drain) && d.enabled 0x80

/-- The verdict of a body has passed and is no longer on its way. -/
def passed (d : Dev) (b : CBody) : Bool := b.verdict.isSome && !d.plan.passing.any (fun p => p.id = b.id)

/-- The hints of the rejecting verdicts with HINT_VALID = 1 among `vs`, together; none where there is no such verdict (R305). Where both verdicts of a
pair reject and one has no hint, the other's is used: the rule's first sentence has no exception for it (log entry 26, DEDUCED). -/
def hintOf (d : Dev) (vs : List Verdict) : Option Nat :=
  let hs := (vs.filter (fun v => v.rejects && v.hinted)).map (·.hint)
  if d.bit F.PLAN_CTRL_HINT_EN && hs ≠ [] then some (hs.foldl (fun h x => h ||| x) 0) else none

/-- The planning of body b decided by the verdicts `vs`, with the hints of these and of `more`: nothing for an accept (R302, R303). -/
def planBody (d : Dev) (b : CBody) (vs : List Verdict) (more : List Verdict := []) : Dev × Planned :=
  let rej := vs.filter (·.rejects)
  let go := if d.get F.PLAN_CTRL_PAIR_RULE = 1 then rej.length = vs.length else rej ≠ []
  let d := d.updBody b.id (fun b => { b with planned := true })
  if go then
    let (d, r) := d.planReject b (d.hintOf (vs ++ more))
    (d.updBody b.id (fun b => { b with pulses := r.pulses }), r)
  else (d, {})

/-- The lower sighting of an associated pair with both sightings' verdicts (R303). With PAIR_RULE 2 the lower verdict decides as soon as it has
passed; an upper one that has passed too still gives its hint (R305). -/
def planPair (d : Dev) (low up : CBody) : Dev × Planned := match low.verdict with
  | none => (d, {})
  | some v =>
    let ws := match up.verdict with | some w => if d.passed up then [w] else [] | none => []
    if low.planned || !d.passed low then (d, {})
    else if d.get F.PLAN_CTRL_PAIR_RULE = 2 then d.planBody low [v] ws
    else if ws = [] then (d, {})
    else d.planBody low (v :: ws)

/-- What a verdict that passes leads to (R303, R304): an upper sighting waits while its entry is stored and is planned alone as an orphan; a
pair is planned from its lower sighting; any other body at once. -/
def route (d : Dev) (b : CBody) : Dev × Planned :=
  if !d.planning || b.planned then (d, {})
  else match b.verdict with
    | none => (d, {})
    | some v =>
      match b.entry with
      | .stored => (d, {})
      | .claimed => (match d.bodyOf b.partner with | some low => d.planPair low b | none => (d, {}))
      | .orphan => d.planBody b [v]
      | .none =>
        if b.partner = 0 then d.planBody b [v]
        else match d.bodyOf b.partner with
          | some up => d.planPair b up
          | none => d.planBody b [v]

/-- Intervals in order of their start, those that overlap or lie less than `minOff` apart put together (R316): start, end, intervals. -/
def clusters (minOff : Int) (ps : List Part) : List (Int × Int × List Part) :=
  let sorted := ps.foldl (fun (acc : List Part) x => acc.takeWhile (fun y => decide (y.f ≤ x.f)) ++ [x] ++ acc.dropWhile (fun y => decide (y.f ≤ x.f))) []
  (sorted.foldl (fun (acc : List (Int × Int × List Part)) x => match acc with
    | c :: cs => if x.f < c.2.1 + minOff then (c.1, max c.2.1 x.e, c.2.2 ++ [x]) :: cs else (x.f, x.e, [x]) :: c :: cs
    | [] => [(x.f, x.e, [x])]) []).reverse

/-- What becomes of a pending pulse that keeps the intervals `rest`: rebuilt from them, with MIN_ON and the chain's limit; of a continuation, from
where its chain stands (R314, R316, R317, R320). `limit` in ns. -/
def rebuild (p : Pulse) (rest : List Part) (limit : Int) : List Pulse :=
  let minOff : Int := p.minOff * 1000
  let live := if p.cont then rest.filter (fun y => decide (p.f < y.e)) else rest
  ((clusters minOff live).map (fun c =>
    let cont := p.cont && decide (c.1 < p.f + minOff)
    let f := if cont then p.f else c.1
    let first := if cont then p.first else f
    let e := min (if cont then c.2.1 else max (f + p.minOn * 1000) c.2.1) (first + limit)
    { p with f := f, e := e, cont := cont, first := first, parts := c.2.2 })).filter (fun q => decide (q.f < q.e))

/-- The pending pulses of a port after `f` has rebuilt each, and how many pieces found the queue of 4,096 full: the first piece of a pulse has its
entry, every further one needs another (R319, R320). -/
def rebuildAll (f : Pulse → List Pulse) : List Pulse → Nat → List Pulse × Nat
  | [], _ => ([], 0)
  | p :: rest, kept =>
    let pieces := f p
    let room := 4096 - (kept + rest.length)
    let r := rebuildAll f rest (kept + (pieces.take room).length)
    (pieces.take room ++ r.1, (pieces.length - room) + r.2)

/-- The valve of a pulse, with the data with which it was planned (R309). -/
def pulseValve (p : Pulse) : Valve := ⟨p.valve, true, 0, 0, p.minOff, p.minOn, p.onMax⟩

/-- A body's contributions removed (R320, Table plan-4). -/
def withdraw (d : Dev) (id : Nat) : Dev :=
  let mine := fun (p : Pulse) => p.parts.any (fun x => x.body = id)
  let now : Int := d.now
  let ports := List.range 8
  let all := ports.flatMap (fun n => (d.metPort n).pend ++ (d.metPort n).sent)
  let d := (List.range (all.filter (fun p => mine p && p.many)).length).foldl (fun d _ => d.count F.PLAN_CNT_WITHDRAW_FAIL_COUNT) d
  let d := if all.any (fun p => mine p && !p.many) then d.count F.PLAN_CNT_WITHDRAWN_COUNT else d
  ports.foldl (fun d n =>
    let x := d.metPort n
    let rest := fun (p : Pulse) => p.parts.filter (fun y => y.body ≠ id)
    let (pend, full) := rebuildAll (fun p => if mine p && !p.many then rebuild p (rest p) (d.limitOf (pulseValve p)) else [p]) x.pend 0
    let d := (List.range full).foldl (fun d _ => d.queueFull) d
    let gone := x.sent.filter (fun p => mine p && !p.many && decide (now < p.f))
    -- what continues a cancelled pulse goes with it
    let follows := fun (p : Pulse) => p.cont && gone.any (fun q => q.valve = p.valve && q.first = p.first && decide (q.e ≤ p.f))
    let alsoP := pend.filter follows
    let alsoS := x.sent.filter (fun p => follows p && !gone.contains p)
    let d := d.setMetPort n { x with pend := pend.filter (fun p => !follows p),
                                     sent := x.sent.filter (fun p => !gone.contains p && !alsoS.contains p) }
    let d := (gone ++ alsoS).foldl (fun d p => d.queueCancel p.valve p.f) d
    let d := (gone ++ alsoS ++ alsoP).foldl (fun d p => (rest p).foldl (fun d y =>
      (d.placePulse (pulseValve p) y.body p.press y.f y.e).1) d) d
    d.metShow n) d

/-- The body whose pulses stand for body b: the lower sighting of its pair, or itself. -/
def plannedAs (d : Dev) (b : CBody) : Nat := match b.entry with
  | .claimed => (match d.bodyOf b.partner with | some low => low.id | none => b.id)
  | _ => b.id

/-- The VERDICT record (R445, Table host-7). -/
def verdictRecord (d : Dev) (b : CBody) (v : Verdict) (replaced : Bool) (r : Planned) : Dev :=
  let i := ctxOf b.id
  let tEj := d.recTEj i
  d.report 0 1 (b2n replaced * 2) (wordsLe [b.id, v.w1, v.hint, d.ctxWord i 0x04, tEj % 2 ^ 32, d.recXc i * 256 + tEj / 2 ^ 32,
    d.ctxWord i 0x74, d.ctxWord i 0x78, d.recArea i, b.partner, (if r.pulses = 0 then 0 else r.valve) * 65536 + satU 16 r.pulses,
    (match r.first with | some f => uns 32 f | none => 0)])

/-- The slot of a crop in the crop store (R211): offset and bytes. -/
def cropPlace (d : Dev) (s : Nat) : Nat × Nat :=
  let small := d.get F.BODY_CROP_POOL0_SMALL
  let medium := d.get F.BODY_CROP_POOL0_MEDIUM
  if s < small then (0x4_0000_0000 + s * 1088, 1072)
  else if s < small + medium then (0x4_0000_0000 + small * 1088 + (s - small) * 4288, 4240)
  else (0x4_0000_0000 + small * 1088 + medium * 4288 + (s - small - medium) * 16960, 16912)

/-- The CROP record of a body with its verdict; none with CROP_NONE (R447). -/
def cropRecord (d : Dev) (b : CBody) (v : Verdict) : Dev := match b.crop with
  | some s => d.imageRecord 4 b.id v.w1 (d.bytes (d.cropPlace s).1 (d.cropPlace s).2)
  | none => d

/-- A body of the groups of HOST_IMG. -/
def imaged (d : Dev) (b : CBody) : Bool := d.testBit F.HOST_IMG_GROUPS b.group

/-- The CROP record of a rejected body, with REJ = 1 (R447). -/
def rejectCrop (d : Dev) (b : CBody) (v : Verdict) : Dev := if v.rejects && d.bit F.HOST_IMG_REJ && d.imaged b then d.cropRecord b v else d

/-- A body takes its place in the count of SAMPLE: of the accepted ones every N-th gives its crop. -/
def sampleOne (d : Dev) (b : CBody) : Dev :=
  let d := d.updBody b.id (fun b => { b with sampled := true })
  match b.verdict with
  | none => d
  | some v =>
    let n := d.get F.HOST_IMG_SAMPLE
    if v.rejects || !d.imaged b then d
    else if n = 0 then { d with sampled := 0 }
    else if n ≤ d.sampled + 1 then ({ d with sampled := 0 } : Dev).cropRecord b v
    else { d with sampled := d.sampled + 1 }

/-- SAMPLE counts in commit order (R447): of the bodies committed, those whose verdicts have passed take their places up to the first whose verdict has
not (log entry 110, DEDUCED). -/
def sampleBodies (d : Dev) : Dev :=
  ((d.seg.bodies.takeWhile (fun b => b.sampled || (b.place = .resolved && !d.plan.passing.any (fun p => p.id = b.id)))).filter (fun b => !b.sampled)).foldl
    sampleOne d

/-- The next verdict reaches the planner (R302): the swap boundary, a replacement's withdrawal, planning, the records. -/
def verdictPlan (d : Dev) : Dev := match d.plan.passing with
  | [] => d
  | p :: rest =>
    let d := { d with plan := { d.plan with passing := rest } }
    match d.bodyOf p.id with
    | none => d
    | some now =>
      let tEj := (d.dtOf now.tEj).toNat
      let d := if d.swapReady planSwap (some (tEj, 0, 0)) then d.swapApply planSwap else d
      let d := d.swapSeen planSwap tEj
      let d := if p.replaced then
          let target := d.plannedAs now
          (d.withdraw target).updBody target (fun b => { b with planned := false, pulses := 0 })
        else d
      -- the verdict in hand, which a replacement on its way may have overtaken in the body
      let d := d.updBody p.id (fun b => { b with verdict := some p.v })
      let b := (d.bodyOf p.id).getD now
      let (d, r) := d.route b
      let d := d.updBody p.id (fun b => { b with verdict := now.verdict })
      ((d.verdictRecord b p.v p.replaced r).rejectCrop b p.v).sampleBodies

/-- A verdict passes to the planner (R252): it joins those on their way. -/
def pass (d : Dev) (id : Nat) (v : Verdict) (replaced : Bool) : Dev :=
  let d := d.updBody id (fun b => { b with verdict := some v, place := .resolved })
  { d with plan := { d.plan with passing := d.plan.passing ++ [⟨id, v, replaced⟩] } }

/-- A stored upper entry is released as an orphan: a held verdict is planned alone now (R304). -/
def releaseOrphan (d : Dev) (id : Nat) : Dev :=
  let d := d.updBody id (fun b => { b with entry := .orphan })
  match d.bodyOf id with
  | some b => if d.passed b then (d.route b).1 else d
  | none => d

/-! ### The Twilight rule (R325) -/

/-- Count, code and verdict of the Twilight rule for the committed record of context i of group g. -/
def twilight (d : Dev) (g i cause : Nat) : Verdict :=
  let marked := (List.range 16).filter (fun c => decide (1 ≤ c) && d.get (F.PLAN_TWI_MASK g) / 2 ^ (c - 1) % 2 = 1)
  let n := (marked.map (d.recHist i)).sum
  let rej := decide (d.get (F.PLAN_TWI_TWI_MIN g) ≤ n)
  let code := if rej then marked.foldl (fun best c => if best = 0 ∨ d.recHist i best < d.recHist i c then c else best) 0 else 0
  ⟨verdictWord (min 255 (256 * n / max 1 (d.recArea i))) code cause 2 false rej, 0⟩

/-- The Twilight verdict of a body, with its reject counted (R325). -/
def twilightPass (d : Dev) (b : CBody) (cause : Nat) (replaced : Bool) : Dev :=
  let v := d.twilight b.group (ctxOf b.id) cause
  let d := if v.rejects then { d with plan := { d.plan with twiRejects := (d.plan.twiRejects + 1) % 2 ^ 32 } } else d
  d.pass b.id v replaced

/-! ### DIVERT_OUT (R327) -/

/-- A condition of DIVERT_OUTn holds. -/
def divertWanted (d : Dev) (n : Nat) : Bool :=
  d.bit (F.PLAN_DIVERT_FORCE n) || (d.state = 6 && d.bit (F.PLAN_DIVERT_ON_TWILIGHT n)) || (d.state = 7 && d.bit (F.PLAN_DIVERT_ON_ECLIPSE n))
    || ((d.state = 4 || d.state = 8) && d.bit (F.PLAN_DIVERT_ON_IDLE n)) || (d.state = 15 && d.bit (F.PLAN_DIVERT_ON_FAULT n))

def driveDivert (d : Dev) (n : Nat) (on : Bool) : Dev :=
  let level := if on = d.bit (F.PLAN_DIVERT_POL n) then Level.low else Level.high
  (d.put (F.PLAN_DIVERT_ASSERTED n) on).setPin (.divert n) level

def setDivertAt (d : Dev) (n : Nat) (t : Option Nat) : Dev :=
  let l := Sparse.erase d.plan.divertAt n
  { d with plan := { d.plan with divertAt := match t with | some t => Sparse.insert l n t | none => l } }

/-- DIVERT_OUTn after a condition or a field has changed: asserted at once; released HOLD ms after the last condition ends. -/
def divertOne (d : Dev) (n : Nat) : Dev :=
  if !d.bit (F.PLAN_DIVERT_EN n) then ((d.put (F.PLAN_DIVERT_ASSERTED n) false).setPin (.divert n) .z).setDivertAt n none
  else if d.divertWanted n then (d.driveDivert n true).setDivertAt n none
  else if d.bit (F.PLAN_DIVERT_ASSERTED n) then
    if d.get (F.PLAN_DIVERT_HOLD n) = 0 then (d.driveDivert n false).setDivertAt n none
    else
      let d := d.driveDivert n true
      match Sparse.find? d.plan.divertAt n with
      | some _ => d
      | none => d.setDivertAt n (some d.time.c)
  else d.driveDivert n false

def divertUpdate (d : Dev) : Dev := (d.divertOne 0).divertOne 1

/-- HOLD ms after the last condition ended: DIVERT_OUTn deasserts. -/
def divertRelease (d : Dev) (n : Nat) : Dev := match Sparse.find? d.plan.divertAt n with
  | some t => if d.get (F.PLAN_DIVERT_HOLD n) * 1000000 ≤ d.elapsed t then (d.driveDivert n false).setDivertAt n none else d
  | none => d

/-! ### Entry into other states -/

/-- Every pulse is cancelled and every held or passing verdict dropped (R75, R328). -/
def cancelEverything (d : Dev) : Dev :=
  let d := (List.range 8).foldl (fun d n => d.cancelAll n) d
  { d with plan := { d.plan with passing := [] }, seg := { d.seg with bodies := d.seg.bodies.map (fun b => { b with planned := true }) } }

end Dev

/-! ### The meanings -/

def execVerdictPlan (s : State) : Answer := s.run (·.verdictPlan)
def execPressureSample (s : State) : Answer := s.run (·.pressureSample)
def execPressFail (s : State) : Answer := s.run (·.pressFailCheck)
def execPlanSwapGo (value : Nat) (s : State) : Answer := s.run (·.planSwapGo value)

/-- The next verdict on its way, or none, gives the boundary of a valve-map swap (R309). -/
def execPlanSwapApply (s : State) : Answer := s.run (fun d =>
  let t := match d.plan.passing with
    | p :: _ => (d.bodyOf p.id).map (fun b => ((d.dtOf b.tEj).toNat, 0, 0))
    | [] => none
  if d.swapReady planSwap t then d.swapApply planSwap else d)

def execDivertRelease (n : Nat) (s : State) : Answer := s.run (·.divertRelease n)

end Sys2Proof.Machine
end

