-- ==== Sys2Proof/Machine/Signal.lean ====
section
/-! DEFINITION. The signal chain (R380–R393): the filter stages, fades, staleness, and the SIG page; and the trim outputs (R394–R400). -/

namespace Sys2Proof.Machine

/-- A 24-bit result clamped to ±2^23 (R383). -/
def clamp24 (v : Int) : Int := clampI (-(2 ^ 23 : Int)) (2 ^ 23 - 1) v

/-- 48-bit registers that wrap. -/
def add48 (a b : Nat) : Nat := (a + b) % 2 ^ 48
def sub48 (a b : Nat) : Nat := (a + 2 ^ 48 - b % 2 ^ 48) % 2 ^ 48

/-- The median of an odd number of values. -/
def median (l : List Int) : Int :=
  let s := l.foldl (fun acc x => acc.takeWhile (fun y => decide (y ≤ x)) ++ [x] ++ acc.dropWhile (fun y => decide (y ≤ x))) []
  s.getD (l.length / 2) 0

/-- The halfband taps at offsets −5 to 5 (R384). -/
def hbTaps : List Int := [304, 0, -3836, 0, 19916, 32768, 19916, 0, -3836, 0, 304]

/-- A dot product. -/
def dot (a b : List Int) : Int := (a.zipWith (· * ·) b).sum

namespace Dev

def sigPage : Nat := 0x0D
def sig (d : Dev) (n : Nat) : Sig := Sparse.get d.sigs {} n
def setSig (d : Dev) (n : Nat) (x : Sig) : Dev := { d with sigs := Sparse.set d.sigs {} n x }

/-- DIV of the channel's clock (R380). -/
def sigDiv (d : Dev) (n : Nat) : Nat := d.get (F.SIG_MCLK_DIV (d.get (F.SIG_CH_CFG_MCLK_SEL n)))

/-- log2 of R1. -/
def sigK (d : Dev) (n : Nat) : Nat := d.get (F.SIG_CH_CFG_DEC1 n) + 4

/-- GD_FAST and GD_FINE in clock cycles (R386). -/
def gdFast (d : Dev) (n : Nat) : Nat :=
  let r1 := 2 ^ d.sigK n
  d.get (F.SIG_CH_CFG_PHASE n) + 2 * (r1 - 1) + d.get (F.SIG_CH_CFG_RANK n) * r1
def gdFine (d : Dev) (n : Nat) : Nat :=
  let r1 := 2 ^ d.sigK n
  let hb := d.get (F.SIG_CH_CFG_HB n)
  d.gdFast n + 5 * r1 * (2 ^ hb - 1) + (if d.bit (F.SIG_CH_CFG_FIR_EN n) then 127 * r1 * 2 ^ hb / 2 else 0)

/-- The channel runs: enabled on an enabled page that is not OFFLINE. -/
def sigRuns (d : Dev) (n : Nat) : Bool :=
  d.bit (F.SIG_CH_CFG_EN n) && d.enabled sigPage && !d.offline sigPage && !d.bit (F.BLK_CTRL_OFFLINE_REQ sigPage)

/-! ### Staleness (R391) -/

/-- A condition of R391 holds. -/
def staleWanted (d : Dev) (n : Nat) : Bool :=
  !d.sigRuns n || d.bit (F.SIG_CH_STAT_SETTLING n) || d.bit (F.SIG_CH_STAT_STUCK n) || d.testing sigPage

/-- The channel's staleness given a value; STALE is raised where it begins. -/
def setStale (d : Dev) (n : Nat) (v : Bool) : Dev :=
  let was := d.bit (F.SIG_CH_STAT_STALE n)
  let d := (d.put (F.SIG_CH_STAT_STALE n) v).putBit F.SIG_STALE_STALE n v
  if v && !was then d.raise sigPage 3 else d

/-- A condition that begins makes the channel stale at once. -/
def staleUp (d : Dev) (n : Nat) : Dev := if d.staleWanted n then d.setStale n true else d

/-- The channel settles from now on (R390). -/
def settle (d : Dev) (n : Nat) : Dev :=
  ((d.setSig n { d.sig n with settleAt := d.time.c }).put (F.SIG_CH_STAT_SETTLING n) true).staleUp n

/-- SIG_SETTLED: 2 × GD_FINE clock cycles have passed. Staleness ends with the next fine output (Table sig-2). -/
def sigSettled (d : Dev) (n : Nat) : Dev :=
  if d.sigRuns n && d.bit (F.SIG_CH_STAT_SETTLING n) && decide (2 * d.gdFine n * d.sigDiv n ≤ d.elapsed (d.sig n).settleAt) then
    d.put (F.SIG_CH_STAT_SETTLING n) false
  else d

/-- SIG_STUCK: no change for 256 samples. -/
def sigStuck (d : Dev) (n : Nat) : Dev :=
  if d.sigRuns n && !d.bit (F.SIG_CH_STAT_STUCK n) && decide (256 ≤ (d.sig n).same) then
    ((d.setSig n { d.sig n with changes := 0 }).put (F.SIG_CH_STAT_STUCK n) true).staleUp n
  else d

/-- SIG_STUCK_END: 16 changes seen; the channel settles again. -/
def sigStuckEnd (d : Dev) (n : Nat) : Dev :=
  if d.sigRuns n && d.bit (F.SIG_CH_STAT_STUCK n) && decide (16 ≤ (d.sig n).changes) then (d.put (F.SIG_CH_STAT_STUCK n) false).settle n else d

/-! ### The stages (R381–R385) -/

/-- Coefficient c_j of bank b (R385, R388). -/
def firCoef (d : Dev) (n b j : Nat) : Int := sgn 18 (d.read (0x4_4007_0000 + n * 0x200 + b * 0x100 + 4 * (if j < 64 then j else 127 - j)) 4)

/-- The FIR result of bank b over the delay line, newest first. -/
def firOut (d : Dev) (n b : Nat) (line : List Int) : Int :=
  clamp24 ((dot ((List.range 128).map (d.firCoef n b)) line + 65536) / 131072)

/-- A sample into halfband stage j; at every second one the stage's result. -/
def hbPush (x : Sig) (j : Nat) (v : Int) : Sig × Option Int :=
  let h := Sparse.get x.hb {} j
  let line := (v :: h.line).take 11
  let x' := { x with hb := Sparse.set x.hb {} j { line := line, odd := !h.odd } }
  if h.odd then (x', some (clamp24 ((dot hbTaps (line ++ List.replicate (11 - line.length) 0) + 32768) / 65536))) else (x', none)

/-- A sample through the halfband stages from stage j on. -/
def hbChain (x : Sig) (v : Int) : Nat → Nat → Sig × Option Int
  | 0, _ => (x, some v)
  | k + 1, j => match hbPush x j v with
    | (x', some w) => hbChain x' w k (j + 1)
    | (x', none) => (x', none)

/-- A rank-stage output goes on through the fine path; a fine output that it completes is formed from both banks. -/
def finePush (d : Dev) (n : Nat) (v : Int) : Dev :=
  match hbChain (d.sig n) v (d.get (F.SIG_CH_CFG_HB n)) 0 with
  | (x, none) => d.setSig n x
  | (x, some w) =>
    if !d.bit (F.SIG_CH_CFG_FIR_EN n) then d.setSig n { x with ready := x.ready ++ [(w, w)] }
    else
      let line := (w :: x.fir).take 128
      let full := line ++ List.replicate (128 - line.length) 0
      if x.firCnt = d.get (F.SIG_CH_CFG_FIR_DEC n) then
        d.setSig n { x with fir := line, firCnt := 0, ready := x.ready ++ [(d.firOut n 0 full, d.firOut n 1 full)] }
      else d.setSig n { x with fir := line, firCnt := x.firCnt + 1 }

/-- A sinc output (R383): clamped, judged for OVERLOAD, ranked, shown as FAST, passed on. -/
def sincOut (d : Dev) (n : Nat) (w : Int) : Dev :=
  let k := d.sigK n
  let y := if 4 * k ≤ 23 then w * 2 ^ (23 - 4 * k) else w / 2 ^ (4 * k - 23)
  let y1 := clamp24 y
  let x := d.sig n
  let clamps := if y1 = y then 0 else x.clamps + 1
  let r := 2 * d.get (F.SIG_CH_CFG_RANK n) + 1
  let win := (y1 :: x.rank).take r
  let v := median (win ++ List.replicate (r - win.length) 0)
  let d := (d.setSig n { x with clamps := clamps, rank := win }).put (F.SIG_CH_STAT_OVERLOAD n) (decide (y1 ≠ y))
  let d := if clamps = 16 then (d.putBit F.SIG_OVL_OVL n true).raise sigPage 4 else d
  let d := if d.bit (F.SIG_CH_STAT_STALE n) then d else (d.setS (F.SIG_CH_FAST_FAST n) v).observe sigPage 0x0F n v
  d.finePush n v

/-- The bit that takes the ball's place in TEST: a first-order modulator fed with LEVEL ÷ 2^23 (R393). -/
def testBitOf (d : Dev) (n : Nat) : Dev × Bool :=
  let x := d.sig n
  let a := x.test + d.getS F.SIG_TEST_LEVEL
  let b := decide (0 ≤ a)
  (d.setSig n { x with test := if b then a - 2 ^ 23 else a + 2 ^ 23 }, b)

/-- One sample of the bitstream (R381–R383). -/
def sigBit (n : Nat) (d : Dev) (ball : Bool) : Dev :=
  let x := d.sig n
  let changed := x.last ≠ some ball
  let d := d.setSig n { x with last := some ball, same := if changed then 1 else x.same + 1, changes := if changed && x.last.isSome then x.changes + 1 else x.changes }
  let d := (d.sigStuck n).sigStuckEnd n
  let (d, bit) := if d.testing sigPage then d.testBitOf n else (d, ball)
  let x := d.sig n
  let line := x.phase ++ [bit != d.bit (F.SIG_CH_CFG_INVERT n)]
  if line.length ≤ d.get (F.SIG_CH_CFG_PHASE n) then d.setSig n { x with phase := line }
  else
    let u : Nat := if line.headD false then 1 else 2 ^ 48 - 1
    let i1 := add48 (x.integ.getD 0 0) u
    let i2 := add48 (x.integ.getD 1 0) i1
    let i3 := add48 (x.integ.getD 2 0) i2
    let i4 := add48 (x.integ.getD 3 0) i3
    let x := { x with phase := line.drop 1, integ := [i1, i2, i3, i4], cnt := x.cnt + 1 }
    if x.cnt < 2 ^ d.sigK n then d.setSig n x
    else
      let c1 := sub48 i4 (x.comb.getD 0 0)
      let c2 := sub48 c1 (x.comb.getD 1 0)
      let c3 := sub48 c2 (x.comb.getD 2 0)
      let c4 := sub48 c3 (x.comb.getD 3 0)
      (d.setSig n { x with cnt := 0, comb := [i4, c1, c2, c3] }).sincOut n (sgn 48 c4)

/-- SIG_FAST_OUTPUT: samples of the channel's bitstream, those of one sinc output or more or fewer. -/
def sigFast (d : Dev) (n : Nat) (bits : List Bool) : Dev := if n < 16 && d.sigRuns n then bits.foldl (sigBit n) d else d

/-- SIG_FINE_OUTPUT: the next fine output; the clock's latest rising edge was `age` ns ago (R386, R389). -/
def sigFine (d : Dev) (n age : Nat) : Dev :=
  let x := d.sig n
  match x.ready with
  | [] => d
  | (y0, y1) :: rest =>
    if 16 ≤ n || !d.sigRuns n then d
    else
      let act := d.bit (F.SIG_CH_XF_ACTIVE n)
      let yOld := if act then y1 else y0
      let yNew := if act then y0 else y1
      let fading := d.bit (F.SIG_CH_XF_FADING n)
      let i := x.fadeI + 1
      let len := x.fadeLen
      let out := if !fading then yOld else if len = 0 then yNew
        else (yOld * ((len : Int) - i) + yNew * i + (len : Int) / 2) / len
      let ends := fading && decide (len ≤ i)
      let d := d.setSig n { x with ready := rest, fadeI := if ends then 0 else if fading then i else x.fadeI }
      let d := if d.staleWanted n then d else d.setStale n false
      let d := if d.bit (F.SIG_CH_STAT_STALE n) then d
        else ((d.setS (F.SIG_CH_OUT_OUT n) out).setDt (F.SIG_CH_T_LO_DT_LO n) (F.SIG_CH_T_HI_DT_HI n) (d.now - age - d.gdFine n * d.sigDiv n)).observe
          sigPage 0x0E n out
      if ends then ((d.put (F.SIG_CH_XF_ACTIVE n) (!act)).put (F.SIG_CH_XF_FADING n) false).raise sigPage 5 else d

/-! ### The SIG page (R380, R388–R393) -/

/-- The modulator clocks at their balls. -/
def mclkPins (d : Dev) : Dev :=
  (List.range 4).foldl (fun d m => d.setPin (.sigMclk m)
    (if d.enabled sigPage && !d.offline sigPage && !d.bit (F.BLK_CTRL_OFFLINE_REQ sigPage) && d.get (F.SIG_MCLK_DIV m) ≠ 0 then .run else .low)) d

/-- The delays shown follow the configuration (R386). -/
def sigDelays (d : Dev) (n : Nat) : Dev := (d.set (F.SIG_CH_GD_FINE n) (d.gdFine n)).set (F.SIG_CH_STAT_FAST_GD n) (d.gdFast n)

/-- The channel restarts from empty registers and settles (R390); a fade in progress goes on (R389). -/
def sigStart (d : Dev) (n : Nat) : Dev :=
  let d := (d.setSig n { test := sgn 24 (d.freeVal 24), fadeI := (d.sig n).fadeI, fadeLen := (d.sig n).fadeLen }).freeUsed
  let d := ((d.put (F.SIG_CH_STAT_STUCK n) false).put (F.SIG_CH_STAT_OVERLOAD n) false)
  (d.sigDelays n).settle n

/-- A channel that stops: a fade ends at once (R400), the outputs hold. -/
def sigStop (d : Dev) (n : Nat) : Dev :=
  let d := if d.bit (F.SIG_CH_XF_FADING n) then (d.put (F.SIG_CH_XF_ACTIVE n) (!d.bit (F.SIG_CH_XF_ACTIVE n))).put (F.SIG_CH_XF_FADING n) false else d
  ((d.put (F.SIG_CH_STAT_SETTLING n) false).put (F.SIG_CH_STAT_STUCK n) false).setStale n true

/-- Every channel after the page's ENABLE, OFFLINE or TEST has changed; `was` says which ran before. -/
def sigRefresh (d : Dev) (was : Nat → Bool) : Dev :=
  ((List.range 16).foldl (fun d n =>
    if d.sigRuns n && !was n then d.sigStart n
    else if !d.sigRuns n && was n then d.setStale n true
    else d.staleUp n) d).mclkPins

/-- A write of SIG_CHn_CFG. -/
def sigCfgWrite (d : Dev) (n word : Nat) : Dev :=
  let off := 0x100 + 0x20 * n
  let was := d.bit (F.SIG_CH_CFG_EN n)
  let en := decide (fieldOf (F.SIG_CH_CFG_EN n) word = 1)
  let fs := [F.SIG_CH_CFG_MCLK_SEL n, F.SIG_CH_CFG_DEC1 n, F.SIG_CH_CFG_RANK n, F.SIG_CH_CFG_HB n, F.SIG_CH_CFG_FIR_DEC n, F.SIG_CH_CFG_FIR_EN n,
    F.SIG_CH_CFG_INVERT n, F.SIG_CH_CFG_SDLY n, F.SIG_CH_CFG_PHASE n]
  if was && !fs.all (fun f => fieldOf f word = d.get f) then d.refuse sigPage off .state
  else if 4 < fieldOf (F.SIG_CH_CFG_DEC1 n) word || fieldOf (F.SIG_CH_CFG_RANK n) word = 3 then d.refuse sigPage off .range
  else if en && !was && d.get (F.SIG_MCLK_DIV (fieldOf (F.SIG_CH_CFG_MCLK_SEL n) word)) = 0 then d.refuse sigPage off .state
  else
    let d := (d.regWrite sigPage off word).sigDelays n
    if en && !was then (if d.sigRuns n then d.sigStart n else d)
    else if was && !en then d.sigStop n
    else d

/-- A write of SIG_CHn_XF; GO starts a fade (R389). -/
def sigXfWrite (d : Dev) (n word : Nat) : Dev :=
  let off := 0x104 + 0x20 * n
  let go := fieldOf (F.SIG_CH_XF_GO n) word = 1
  let d := d.set (F.SIG_CH_XF_LEN n) (fieldOf (F.SIG_CH_XF_LEN n) word)
  if !go then d
  else if d.bit (F.SIG_CH_XF_FADING n) then d.refuse sigPage off .busy
  else if !d.bit (F.SIG_CH_CFG_EN n) then d.put (F.SIG_CH_XF_ACTIVE n) (!d.bit (F.SIG_CH_XF_ACTIVE n))
  else (d.setSig n { d.sig n with fadeI := 0, fadeLen := d.get (F.SIG_CH_XF_LEN n) }).put (F.SIG_CH_XF_FADING n) true

/-- A write to a block register of the SIG page, past the gate. -/
def sigWrite (d : Dev) (off word : Nat) : Dev :=
  if off = 0x40 then
    let divs := (List.range 4).map (fun m => (m, fieldOf (F.SIG_MCLK_DIV m) word))
    if divs.any (fun e => e.2 ≠ 0 && (e.2 < 40 || 200 < e.2)) then d.refuse sigPage off .range
    else
      -- a new DIV of a clock in use is ignored by itself (R56, R380)
      let inUse := (divs.filter (fun e => e.2 ≠ d.get (F.SIG_MCLK_DIV e.1)
        && (List.range 16).any (fun n => d.bit (F.SIG_CH_CFG_EN n) && d.get (F.SIG_CH_CFG_MCLK_SEL n) = e.1))).map (fun e => F.SIG_MCLK_DIV e.1)
      let d' := (d.regWrite sigPage off (d.keepFields word inUse)).mclkPins
      if inUse.isEmpty then d' else d'.refuse sigPage off .state
  else if 0x100 ≤ off ∧ off < 0x300 then
    let n := (off - 0x100) / 0x20
    let r := (off - 0x100) % 0x20
    if r = 0 then d.sigCfgWrite n word else if r = 4 then d.sigXfWrite n word else d.regWrite sigPage off word
  else d.regWrite sigPage off word

/-- A read of a SIG register: OUT latches T_LO and T_HI for the next read of each. -/
def sigRead (d : Dev) (off : Nat) : Dev × Nat :=
  let w := d.regWord sigPage off
  if 0x100 ≤ off ∧ off < 0x300 then
    let n := (off - 0x100) / 0x20
    let x := d.sig n
    match (off - 0x100) % 0x20, x.latch, x.latchHi with
    | 0x08, _, _ => (d.setSig n { x with latch := some (d.get (F.SIG_CH_T_LO_DT_LO n)), latchHi := some (d.get (F.SIG_CH_T_HI_DT_HI n)) }, w)
    | 0x0C, some v, _ => (d.setSig n { x with latch := none }, v)
    | 0x10, _, some v => (d.setSig n { x with latchHi := none }, v)
    | _, _, _ => (d, w)
  else (d, w)

/-! ### Trim outputs (R395–R400) -/

def trimPage : Nat := 0x0E
def setTrim (d : Dev) (x : Trim) : Dev := { d with trim := x }

/-- One step of output n towards its code, by at most `slew` codes; 0: all the way. -/
def trimStep (d : Dev) (slew n : Nat) : Dev :=
  let t := Sparse.get d.trim.target 0 n
  let v := d.get (F.TRIM_CODE_NOW n)
  d.set (F.TRIM_CODE_NOW n) (if slew = 0 then t else if v < t then min t (v + slew) else max t (v - slew))

/-- The staged codes apply (R395–R397). -/
def trimApplyNow (d : Dev) : Dev :=
  let codes := (List.range 16).map (fun n => (n, d.get (F.TRIM_CODE_CODE n)))
  let d := d.setTrim { d.trim with target := codes.foldl (fun l e => Sparse.set l 0 e.1 e.2) [], stepAt := d.time.c }
  let d := ((d.put F.TRIM_CTRL_PEND false).set F.TRIM_HELD_HELD 0)
  let d := if d.get F.TRIM_SLEW_SLEW = 0 then (List.range 16).foldl (fun d n => d.trimStep 0 n) d else d
  d.raise trimPage 3

/-- A write of TRIM_CTRL (R395, R399). -/
def trimCtrlWrite (d : Dev) (word : Nat) : Dev :=
  let d := d.set F.TRIM_CTRL_TIMED (fieldOf F.TRIM_CTRL_TIMED word)
  if fieldOf F.TRIM_CTRL_GO word = 0 then d
  else if d.offline trimPage || d.bit (F.BLK_CTRL_OFFLINE_REQ trimPage) then d.refuse trimPage 0x40 .state
  else if d.bit F.TRIM_CTRL_PEND then d.refuse trimPage 0x40 .busy
  else if !d.bit F.TRIM_CTRL_TIMED then d.trimApplyNow
  else
    let t := d.st40At F.TRIM_APPLY_AT_LO_AT_LO F.TRIM_APPLY_AT_HI_AT_HI
    let ahead := st40Diff t (d.now % 2 ^ 40)
    if 10 ^ 10 < ahead then d.refuse trimPage 0x40 .range
    else if ahead < 0 then (d.refuse trimPage 0x40 .late).trimApplyNow
    else if ahead = 0 then d.trimApplyNow
    else (d.setTrim { d.trim with due := d.now + ahead.toNat }).put F.TRIM_CTRL_PEND true

/-- TRIM_APPLY: the instant that GO took from TRIM_APPLY_AT has come (R395, R407). -/
def trimApply (d : Dev) : Dev := if d.bit F.TRIM_CTRL_PEND ∧ d.trim.due ≤ d.now then d.trimApplyNow else d

/-- TRIM_SLEW_STEP: 10 µs after the apply or the step before it. -/
def trimSlew (d : Dev) : Dev :=
  if d.offline trimPage || d.bit (F.BLK_CTRL_OFFLINE_REQ trimPage) || !d.enabled trimPage || d.elapsed d.trim.stepAt < 10000 then d
  else (List.range 16).foldl (fun d n => d.trimStep (d.get F.TRIM_SLEW_SLEW) n) (d.setTrim { d.trim with stepAt := d.time.c })

/-- TRIM_RAMP_STEP: after a commit without F_TRIM, 1 code per µs towards 0 V (R398). -/
def trimRamp (d : Dev) : Dev :=
  if !d.trim.ramp || d.elapsed d.trim.rampAt < 1000 then d
  else
    let d := (List.range 16).foldl (fun d n => d.set (F.TRIM_CODE_NOW n) (d.get (F.TRIM_CODE_NOW n) - 1)) d
    d.setTrim { d.trim with rampAt := d.time.c, ramp := (List.range 16).any (fun n => d.get (F.TRIM_CODE_NOW n) ≠ 0), target := [] }

/-- A commit with F_TRIM stops a ramp: the outputs hold the codes reached until the next apply (log entry 100, DEDUCED). -/
def trimRampEnd (d : Dev) : Dev :=
  if !d.trim.ramp then d
  else d.setTrim { d.trim with ramp := false, target := (List.range 16).foldl (fun l n => Sparse.set l 0 n (d.get (F.TRIM_CODE_NOW n))) [] }

/-- A write to a block register of the TRIM page, past the gate: an apply due in the cycle of a write of CODE takes the code staged before it
(Table sig-4). -/
def trimWrite (d : Dev) (off word : Nat) : Dev :=
  if off = 0x40 then d.trimCtrlWrite word else if 0x100 ≤ off ∧ off < 0x140 then d.trimApply.regWrite trimPage off word else d.regWrite trimPage off word

end Dev

/-! ### The meanings -/

def execSigFastOutput (n : Nat) (bits : List Bool) (s : State) : Answer := s.run (·.sigFast n bits)
def execSigFineOutput (n age : Nat) (s : State) : Answer := s.run (·.sigFine n age)
def execSigXfGo (n value : Nat) (s : State) : Answer :=
  s.run (fun d => if 16 ≤ n then d else d.gated Dev.sigPage (0x104 + 0x20 * n) (·.sigXfWrite n value))
def execSigChannelEnable (n value : Nat) (s : State) : Answer :=
  s.run (fun d => if 16 ≤ n then d else d.gated Dev.sigPage (0x100 + 0x20 * n) (·.sigCfgWrite n value))
def execSigSettled (n : Nat) (s : State) : Answer := s.run (·.sigSettled n)
def execSigStuck (n : Nat) (s : State) : Answer := s.run (·.sigStuck n)
def execSigStuckEnd (n : Nat) (s : State) : Answer := s.run (·.sigStuckEnd n)
def execSigOutRead (n : Nat) (s : State) : Answer :=
  s.run (fun d => if 16 ≤ n then d else
    let r := d.sigRead (0x108 + 0x20 * n)
    r.1.emit (.readData (bar0 Dev.sigPage (0x108 + 0x20 * n)) r.2))
def execTrimGo (value : Nat) (s : State) : Answer := s.run (fun d => d.gated Dev.trimPage 0x40 (·.trimCtrlWrite value))
def execTrimApply (s : State) : Answer := s.run (·.trimApply)
def execTrimSlewStep (s : State) : Answer := s.run (·.trimSlew)
def execTrimRampStep (s : State) : Answer := s.run (·.trimRamp)

end Sys2Proof.Machine
end

