-- ==== Sys2Proof/Machine/Bar2.lean ====
section
/-! DEFINITION. The BAR2 window (R434, R435) with the rules of its ranges, the descriptor rings (R449), the end of a PACK block, and the registers
of the HOST page (R453). -/

namespace Sys2Proof.Machine

/-- What lies at a BAR2 offset (Table host-3 and the chapters' tables). -/
inductive Region where
  | hbm | crop | context | partner | absent | cls (n : Nat) | spec (n : Nat) | geo (n : Nat) | map (n : Nat) | latency | fir (ch b : Nat)
  | coef (n : Nat) | background | zones
  deriving DecidableEq, Repr

/-- The region of an offset, and where it ends. Offsets of the tables windows that no chapter uses are absent. -/
def regionAt (a : Nat) : Region × Nat :=
  if a < 0x4_0000_0000 then (.hbm, 0x4_0000_0000)
  else if a < 0x4_0200_0000 then (.crop, 0x4_0200_0000)
  else if a < 0x4_2000_0000 then (.absent, 0x4_2000_0000)
  else if a < 0x4_2200_0000 then (.context, 0x4_2200_0000)
  else if a < 0x4_4000_0000 then (.absent, 0x4_4000_0000)
  else if a < 0x4_4001_0000 then (.cls 0, 0x4_4001_0000)
  else if a < 0x4_4002_0000 then (.cls 1, 0x4_4002_0000)
  else if a < 0x4_4003_0000 then (.spec 0, 0x4_4003_0000)
  else if a < 0x4_4004_0000 then (.spec 1, 0x4_4004_0000)
  else if a < 0x4_4004_0400 then (.geo 0, 0x4_4004_0400)
  else if a < 0x4_4004_1000 then (.absent, 0x4_4004_1000)
  else if a < 0x4_4004_1400 then (.geo 1, 0x4_4004_1400)
  else if a < 0x4_4005_0000 then (.absent, 0x4_4005_0000)
  else if a < 0x4_4005_8000 then (.map 0, 0x4_4005_8000)
  else if a < 0x4_4006_0000 then (.map 1, 0x4_4006_0000)
  else if a < 0x4_4006_8000 then (.latency, 0x4_4006_8000)
  else if a < 0x4_4007_0000 then (.absent, 0x4_4007_0000)
  else if a < 0x4_4007_2000 then
    let k := (a - 0x4_4007_0000) / 0x100
    (.fir (k / 2) (k % 2), 0x4_4007_0000 + (k + 1) * 0x100)
  else if a < 0x4_4100_0000 then (.absent, 0x4_4100_0000)
  else if a < 0x4_4140_0000 then (.coef 0, 0x4_4140_0000)
  else if a < 0x4_4180_0000 then (.coef 1, 0x4_4180_0000)
  else if a < 0x4_41C0_0000 then (.background, 0x4_41C0_0000)
  else if a < 0x4_41C0_2000 then (.zones, 0x4_41C0_2000)
  else if a < 0x4_4200_0000 then (.absent, 0x4_4200_0000)
  else if a < 0x4_4210_0000 then (.partner, 0x4_4210_0000)
  else (.absent, 2 ^ 64)

namespace Dev

/-- Why a host write to a region is refused: the page that records it, the code, its DETAIL (Table host-3, R140, R170, R184, R309, R388). -/
def regionGuard (d : Dev) (r : Region) : Option (Nat × Err × Nat) :=
  match r with
  | .hbm | .latency | .background | .zones => none
  | .crop | .context | .partner => some (6, .state, 0)
  | .absent => some (6, .range, 0)
  | .cls n | .spec n => (d.bankGuard specSwap n).map (fun e => (0x35, e.1, e.2))
  | .geo n => (d.bankGuard geoSwap n).map (fun e => (0x33, e.1, e.2))
  | .map n => (d.bankGuard planSwap n).map (fun e => (0x80, e.1, e.2))
  | .coef n => (d.bankGuard corSwap n).map (fun e => (0x30, e.1, e.2))
  | .fir ch b =>
    if d.bit (F.SIG_CH_XF_FADING ch) then some (0x0D, .busy, 0)
    else if b = d.get (F.SIG_CH_XF_ACTIVE ch) then some (0x0D, .state, 0)
    else none

/-- The first refusal over the range of `n` bytes at `a`. -/
def rangeGuard (d : Dev) (a n : Nat) : Nat → Option (Nat × Err × Nat)
  | 0 => none
  | k + 1 =>
    if n = 0 then none
    else
      let r := regionAt a
      match d.regionGuard r.1 with
      | some e => some e
      | none => if a + n ≤ r.2 then none else d.rangeGuard r.2 (a + n - r.2) k

/-- More regions than BAR2 has, so that `rangeGuard` sees a whole range. -/
def regionCount : Nat := 64

def bar2Guard (d : Dev) (a n : Nat) : Option (Nat × Err × Nat) := d.rangeGuard a n regionCount

/-- The latency entries' words 0x0 and 0xC touched by a driver write: A written clears LEARNED, IMPL and SUSPECT stand as written (R323,
Table plan-2); PLAN_SUSPECT.COUNT follows. LEARNED is the device's own bit. -/
def latencyWritten (d0 d : Dev) (a n : Nat) : Dev :=
  if a + n ≤ latOff 0 ∨ latOff 2048 ≤ a then d
  else
    let lo := (max a (latOff 0) - latOff 0) / 16
    let hi := (min (a + n) (latOff 2048) - 1 - latOff 0) / 16
    let mine := (List.range (hi + 1 - lo)).map (lo + ·)
    let before := if d.plan.latWrote.1 = d.time.c then d.plan.latWrote.2 else []
    let d := { d with plan := { d.plan with latWrote := (d.time.c, before ++ mine) } }
    (List.range (hi + 1 - lo)).foldl (fun d k =>
      let i := lo + k
      let was := d0.read (latOff i + 12) 4
      let is := d.read (latOff i + 12) 4
      let aTouched := decide (a < latOff i + 4 ∧ latOff i < a + n)
      let learned := if aTouched then 0 else was / 2 ^ 22 % 2
      let is' := is - is / 2 ^ 22 % 2 * 2 ^ 22 + learned * 2 ^ 22
      let d := if is' = is then d else d.write (latOff i + 12) 4 is'
      d.countSuspect (was / 2 ^ 23 % 2 = 1) (is' / 2 ^ 23 % 2 = 1)) d

/-- Bytes stored by the host or by a descriptor, with what follows from them: reserved bits of coefficient entries read 0 (Table cor-2), stale
background entries are counted anew. -/
def bar2Store (d : Dev) (a : Nat) (bs : List Nat) : Dev :=
  let n := bs.length
  let top := fun (i : Nat) => decide (coefOff 0 0 0 0 ≤ i ∧ i < bgOff 0 0 0 ∧ i % 4 = 3)
  let bs := if coefOff 0 0 0 0 < a + n ∧ a < bgOff 0 0 0 then (List.range n).map (fun i => if top (a + i) then 0 else bs.getD i 0) else bs
  let bg : Bool := a < 0x4_41C0_0000 ∧ bgOff 0 0 0 < a + n
  let d := if bg then d.bgSettle else d
  let mine := fun (u : Nat × Nat × Bool) => decide (a < latOff u.1 + 16 ∧ latOff u.1 < a + n)
  let undone := d.plan.learnt.filter mine
  let d := if undone = [] then d else
    undone.foldl unlearn { d with plan := { d.plan with learnt := d.plan.learnt.filter (fun u => !mine u) } }
  let d' := latencyWritten d (d.setBytes a bs) a n
  if bg then d'.refreshStale else d'

/-- BAR2_WRITE: a host write of bytes. In BOOT, offsets of the open boot window go into the control SRAM and all others are dropped (R542, R543). -/
def bar2Write (d : Dev) (a : Nat) (bs : List Nat) : Dev :=
  if d.state = 1 then
    if d.bit F.SEC_BOOT_STAT_WAITING && (d.boot.recovery || d.boot.src = 1) then
      let cells := (List.range bs.length).foldl (fun m i =>
        if a + i < 0x40_0000 then Sparse.set m 0 (a + i) (BitVec.ofNat 8 (bs.getD i 0)) else m) d.boot.sram
      { d with boot := { d.boot with sram := cells } }
    else d
  else match d.bar2Guard a bs.length with
    | none => d.bar2Store a bs
    | some (p, e, detail) => (d.error p e detail .hardware (a / 4 % 2 ^ 14)).count F.HOST_CNT_BAD_COUNT

/-! ### Descriptor rings (R449) -/

/-- The bytes of BAR2 a descriptor writes: those of a compressed block count as its IN_LEN (R464). -/
def descSpan (d : Dev) (x : Desc) : Nat :=
  if x.pack then leNat (d.hostBytes (x.host + 12) 4) else x.len

/-- The first failing check of a descriptor (R449, R454). -/
def descCheck (d : Dev) (x : Desc) : Option Err :=
  if !descFields x then some .range
  else match (if x.kind = 1 then d.bar2Guard x.dev (d.descSpan x) else none) with
    | some (_, e, _) => some e
    | none =>
      if !x.pack || x.kind = 3 then none
      else if !d.feat 16 then some .feature
      else if !d.packTakes x.ch then some .state
      else none

/-- The next descriptor begins, where the ring runs and one waits; one bound for PACK goes to its channel. -/
def ringNext (d : Dev) (r : Nat) : Dev :=
  if !d.bit (F.DR_CTRL_EN r) || d.bit (F.DR_STAT_BUSY r) || !d.canRequest || d.get (F.DR_HEAD_HEAD r) = d.get (F.DR_TAIL_TAIL r) then d
  else
    let x := d.desc r
    let d := d.put (F.DR_STAT_BUSY r) true
    let fail := d.descCheck x
    if x.pack && (x.kind = 1 || x.kind = 2) && fail = none then
      let b : PackBlock := if x.kind = 1 then ⟨.h2d r, d.hostBytes x.host x.len, x.len⟩ else ⟨.d2h r, d.bytes x.dev x.len, x.len + 64⟩
      let c := d.packCh x.ch
      (d.setPackCh x.ch { c with queue := c.queue ++ [b] }).setDescRing r { packed := true }
    else d.setDescRing r { fail := fail.map Err.code }

/-- The descriptor in progress ends with a result: RESULT written, HEAD advanced, DONE and ERR (R449). -/
def descEnd (d : Dev) (r : Nat) (e : Err) : Dev :=
  let irq := (d.desc r).irq
  let d := d.setHostBytes (d.descAddr r + 28) (leBytes 4 (2 ^ 31 + e.code))
  let size := d.get (F.DR_CTRL_SIZE r)
  let h := d.get (F.DR_HEAD_HEAD r) + 1
  let d := ((d.set (F.DR_HEAD_HEAD r) (if h < size then h else 0)).put (F.DR_STAT_BUSY r) false).setDescRing r {}
  let d := if irq then d.raiseRing r (F.DR_STAT_DONE r) else d
  (if e = .ok then d else d.raiseRing r (F.DR_STAT_ERR r)).ringNext r

/-- A frame from the internal port (Table time-2): `own` is the port a Pdelay message belongs to, `full` the egress buffers that are full. -/
def fromInternal (d : Dev) (own : Nat) (bs : List Nat) (full : Nat) : Dev :=
  let send := fun (d : Dev) (e : Nat) =>
    if !d.ethUp e then d else if full / 2 ^ e % 2 = 1 then d.count F.NET_CNT_DROP_COUNT else d.emit (.ethFrame e bs)
  let both := fun (d : Dev) => send (send d 0) 1
  let dst := beAt bs 0 6
  let other := fun (d : Dev) =>
    if dst = d.get F.NET_MAC_LO_MAC_LO + d.get F.NET_MAC_HI_MAC_HI * 2 ^ 32 then d
    else if bs.getD 0 0 % 2 = 1 then both d
    else match d.macPort dst with
      | some e => send d e
      | none => both d
  match ptpIn bs with
  | none => other d
  | some m =>
    let typ := bs.getD m.hdr 0 % 16
    let oc := d.get F.TIME_CTRL_OC_SEL
    let p2p := d.bit F.NET_CTRL_TC_MODE
    if p2p ∧ (typ = 2 ∨ typ = 3 ∨ typ = 0xA) then send d own
    else if p2p ∧ (typ = 1 ∨ typ = 9) then d
    else if !d.bit F.NET_CTRL_TC_EN then other d
    else if oc = 1 then both d else if oc = 2 then send d 0 else if oc = 3 then send d 1 else d

/-- A D2H transfer of `bytes` goes on by the blocks that it is granted; with the last it is complete (R449, R450). -/
def d2hMove (d : Dev) (r host : Nat) (bytes : List Nat) (e : Err) : Dev :=
  let at_ := (d.descRing r).moved
  let n := min (d.d2hBlocks r) ((bytes.length - at_ + 4095) / 4096)
  let k := min (4096 * n) (bytes.length - at_)
  let d := (d.setHostBytes (host + at_) ((bytes.drop at_).take k)).d2hCharge n
  if bytes.length ≤ at_ + k then d.descEnd r e else d.setDescRing r { d.descRing r with moved := at_ + k }

/-- A PACK channel is done with a descriptor: its bytes wait for the arbiter, or its RESULT until the device may issue requests (R433, R450). -/
def descLeave (d : Dev) (r : Nat) (bytes : List Nat) (e : Err) : Dev :=
  if bytes = [] && d.canRequest then d.descEnd r e else d.setDescRing r { out := some (bytes, e.code) }

/-- DESCRIPTOR_DONE: the descriptor in progress on a ring, other than one that a PACK channel holds, is carried out, a D2H transfer as far as the
arbiter lets it. -/
def descriptorDone (d : Dev) (r full : Nat) : Dev :=
  if 2 ≤ r || !d.bit (F.DR_STAT_BUSY r) || (d.descRing r).packed || !d.canRequest then d
  else
    let x := d.desc r
    match (d.descRing r).out, (d.descRing r).fail with
    | some (bytes, e), _ => d.d2hMove r x.host bytes (Err.ofCode e)
    | none, some e => d.descEnd r (Err.ofCode e)
    | none, none =>
      if x.kind = 2 then d.d2hMove r x.host (d.bytes x.dev x.len) .ok
      else (if x.kind = 1 then d.bar2Store x.dev (d.hostBytes x.host x.len)
        else d.fromInternal x.port (d.hostBytes x.host x.len) full).descEnd r .ok

/-- DR_TAIL_WRITE: new descriptors are available. -/
def drTailWrite (d : Dev) (r value : Nat) : Dev :=
  if d.get (F.DR_CTRL_SIZE r) ≤ fieldOf (F.DR_TAIL_TAIL r) value then d.refuse 6 (0x310 + 0x20 * r) .range
  else (d.set (F.DR_TAIL_TAIL r) (fieldOf (F.DR_TAIL_TAIL r) value)).ringNext r


/-- PACK_BLOCK: on an idle channel the oldest block starts with the channel's present settings; where the channel no longer takes blocks, a record goes
uncompressed and a descriptor completes with STATE (R454, R455, Table pack-4). -/
def packBlock (d : Dev) (c : Nat) : Dev :=
  let x := d.packCh c
  match x.queue with
  | [] => d
  | b :: rest =>
    if x.now.isSome || x.saving.isSome then d
    else if d.packTakes c then
      let cfg : PackCfg := ⟨d.get (F.PACK_CH_CFG_STREAM c), d.bit (F.PACK_CH_CFG_CARRY c), d.bit (F.PACK_CH_CFG_FULL_CLEAR c)⟩
      (d.setPackCh c { x with queue := rest, now := some b, cfg := cfg }).set (F.PACK_CH_STAT_DIR c) (match b.user with | .h2d _ => 2 | _ => 1)
    else
      let d := d.setPackCh c { x with queue := rest }
      match b.user with
      | .record typ _ w0 w1 => d.imageReport typ 0 w0 w1 b.bytes.length b.bytes.length b.bytes
      | .d2h r => d.descLeave r [] .state
      | .h2d r => d.descLeave r [] .state

/-- PACK_BLOCK_DONE: the block in progress on a channel ends; `verifyOk` is the outcome of self-verification (R461–R465). The destination of a
block that fails past its header is undefined: it takes free values. -/
def packBlockDone (d : Dev) (c : Nat) (verifyOk : Bool) : Dev :=
  match (d.packCh c).now with
  | none => d
  | some b =>
    match b.user with
    | .record typ _ w0 w1 => d.packRecordDone c typ w0 w1 b.bytes verifyOk
    | .d2h r =>
      let d := d.packIdle c
      if d.feat 17 && !verifyOk then (d.packMismatch c).descLeave r [] .internal
      else
        let o := d.packCompress c b.room b.bytes
        o.1.descLeave r o.2.1 (if o.2.2 then .nospace else .ok)
    | .h2d r =>
      let x := d.desc r
      let d := d.packIdle c
      match d.packExpand c b.room b.bytes with
      | (d, .inr out) => (d.bar2Store x.dev out).descLeave r [] .ok
      | (d, .inl e) =>
        let n := leNat ((b.bytes.drop 12).take 4)
        let past := e = .parity ∨ (e = .range ∧ ¬packHeadBad b.room b.bytes)
        let d := if past then (d.bar2Store x.dev ((List.range n).map (fun i => d.freeAt i 8))).freeUsed n else d
        d.descLeave r [] e

/-! ### The HOST page (R453) -/

/-- A VECTOR field written: a source that is pending becomes so on a vector where it was not (R80, R451). -/
def vectorWrite (d : Dev) (f : Fld) (pending : Bool) (v : Nat) : Dev :=
  let was := d.get f
  let d := d.set f v
  if pending && d.get f ≠ was then d.signal (d.get f) else d

/-- A write of RQ_CTRL: VECTOR and FLUSH_US, then FLUSH before EN, so that one seal carries the lowest cause (R438), then the other command bits in order.
One that asks for EN = 1 in vain is ignored whole (R453; log entry 69, DEDUCED). -/
def rqCtrlWrite (d : Dev) (q word : Nat) : Dev :=
  if word % 2 = 1 ∧ !d.bit (F.RQ_CTRL_EN q) ∧ !d.queueReady q then d.refuse 6 (0x100 + 0x40 * q) .range else
  let d := (d.putFields word [F.RQ_CTRL_FLUSH_US q]).vectorWrite (F.RQ_CTRL_VECTOR q) (d.queuePending q) (fieldOf (F.RQ_CTRL_VECTOR q) word)
  let on := fun k => word / 2 ^ k % 2 = 1
  let d := if on 1 then d.rqFlush q else d
  let d := d.rqEnable q (word % 2 = 1)
  let d := if on 2 then d.rqRestore q else d
  let d := if on 3 then d.rqFault q 0 else d
  let d := if on 4 then d.rqFault q 1 else d
  let d := if on 5 then d.rqRelease q 0 else d
  if on 6 then d.rqRelease q 1 else d

/-- A write of half of a bank's address: while EN = 0, or while the bank is FAULTED, which an acceptable address ends (R442, R453). -/
def bankAddrWrite (d : Dev) (q b off word : Nat) : Dev :=
  if d.bankState q b = 3 then
    let d' := d.regWrite 6 off word
    if addrOk (d'.bankAddr q b) then d'.setBankState q b 0 else d.refuse 6 off .range
  else if d.bit (F.RQ_CTRL_EN q) then d.refuse 6 off .state
  else d.regWrite 6 off word

/-- A write of DR_CTRL. SIZE is written while the ring's EN = 0. -/
def drCtrlWrite (d : Dev) (r word : Nat) : Dev :=
  let off := 0x300 + 0x20 * r
  let size := fieldOf (F.DR_CTRL_SIZE r) word
  let en := fieldOf (F.DR_CTRL_EN r) word = 1
  let running := d.bit (F.DR_CTRL_EN r)
  let base := d.get (F.DR_BASE_LO_ADDR r) + d.get (F.DR_BASE_HI_ADDR r) * 2 ^ 32
  if size < 16 then d.refuse 6 off .range
  else if en ∧ ¬running ∧ ¬addrOk base then d.refuse 6 off .range
  else
    let d := (d.vectorWrite (F.DR_CTRL_VECTOR r) (d.ringPending r) (fieldOf (F.DR_CTRL_VECTOR r) word)).put (F.DR_CTRL_EN r) en
    let d := if !running then d.set (F.DR_CTRL_SIZE r) size else if size ≠ d.get (F.DR_CTRL_SIZE r) then d.refuse 6 off .state else d
    d.ringNext r

/-- A write to a block register of the HOST page, past the gate. -/
def hostRegWrite (d : Dev) (off word : Nat) : Dev :=
  if off = 0x64 then
    d.featured 6 off word [(F.HOST_IMG_PACK_EN, 16)]
  else if off = 0x68 then d.hostRecGo word
  else if off = 0x78 then d.limited 6 off word (1 ≤ fieldOf F.HOST_ARB_W_DMA word && 1 ≤ fieldOf F.HOST_ARB_W_REP word)
  else if 0x100 ≤ off ∧ off < 0x240 then
    let q := (off - 0x100) / 0x40
    let r := (off - 0x100) % 0x40
    if r = 0 then d.rqCtrlWrite q word
    else if r = 8 ∨ r = 0xC then d.bankAddrWrite q 0 off word
    else if r = 0x10 ∨ r = 0x14 then d.bankAddrWrite q 1 off word
    else if r = 0x18 ∨ r = 0x1C ∨ r = 0x20 ∨ r = 0x24 then
      if d.bit (F.RQ_CTRL_EN q) then d.refuse 6 off .state else d.regWrite 6 off word
    else if r = 0x28 then d.limited 6 off word (word % 16 = 0)
    else d.regWrite 6 off word
  else if 0x300 ≤ off ∧ off < 0x340 then
    let k := (off - 0x300) / 0x20
    let r := (off - 0x300) % 0x20
    if r = 0 then d.drCtrlWrite k word
    else if r = 4 ∨ r = 8 then
      if d.bit (F.DR_CTRL_EN k) then (if d.regWord 6 off = word then d else d.refuse 6 off .state)
      else d.putFields word ((regFields 6 off).map (·.2))
    else if r = 0x10 then d.drTailWrite k word
    else d.regWrite 6 off word
  else d.regWrite 6 off word

end Dev

/-! ### The meanings -/

def execBar2Write (off : Nat) (bytes : List Nat) (s : State) : Answer := s.run (·.bar2Write off bytes)
def execDrTailWrite (r value : Nat) (s : State) : Answer :=
  s.run (fun d => if 2 ≤ r then d else d.gated 6 (0x310 + 0x20 * r) (·.drTailWrite r value))
def execDescriptorDone (r full : Nat) (s : State) : Answer := s.run (·.descriptorDone r full)
def execPackBlock (c : Nat) (s : State) : Answer := s.run (·.packBlock c)
def execPackBlockDone (c : Nat) (verifyOk : Bool) (s : State) : Answer := s.run (·.packBlockDone c verifyOk)

end Sys2Proof.Machine
end

