-- ==== Sys2Proof/Machine/Engine.lean ====
section
/-! DEFINITION. Engines and dispatch (R243–R270): windows, starting and ending bodies, the queue, deadlines and default verdicts, swaps of program
slots, points, faults, self-test and image loading. -/

namespace Sys2Proof.Machine

def engPage (e : Nat) : Nat := 0x40 + e
def dispPage : Nat := 0x39

def dispSwap : SwapDef := ⟨0x39, 0xC0, F.DISP_SWAP_TIMED, F.DISP_SWAP_PEND, F.DISP_SWAP_ACTIVE, F.DISP_SWAP_DT_PEND, F.DISP_SWAP_SWAP_CNT,
  F.DISP_SWAP_AT_LO_AT_LO, F.DISP_SWAP_AT_HI_AT_HI, F.DISP_SWAP_DT_LO_DT_LO, F.DISP_SWAP_DT_HI_DT_HI, none, 5, 6⟩

/-- Base of body window A or B (Table eng-2). -/
def winBase (w : Nat) : Nat := if w = 0 then 0x6_0000 else 0x7_0000

/-- `len` bytes of one memory put over another's at `dst`; the bytes there before are gone. -/
def copyCells (src : List Host.Cell) (off len : Nat) (mem : List Host.Cell) (dst : Nat) : List Host.Cell :=
  let rest := mem.filter (fun c => !decide (dst ≤ c.1 ∧ c.1 < dst + len))
  (src.filter (fun c => decide (off ≤ c.1 ∧ c.1 < off + len))).foldl (fun m c => Sparse.set m 0 (c.1 - off + dst) c.2) rest

/-- Bytes put at an address of a memory. -/
def putCells (mem : List Host.Cell) : Nat → List Nat → List Host.Cell
  | _, [] => mem
  | a, b :: bs => putCells (Sparse.set mem 0 a (BitVec.ofNat 8 b)) (a + 1) bs

/-- A range of a memory made zero. -/
def clearCells (mem : List Host.Cell) (dst len : Nat) : List Host.Cell := mem.filter (fun c => !decide (dst ≤ c.1 ∧ c.1 < dst + len))

/-- Tenths of an engine cycle per ns at a point (Table eng-8). -/
def pointRate (p : Nat) : Nat := [16, 12, 8, 4].getD p 4

namespace Dev

def eng (d : Dev) (e : Nat) : Eng := Sparse.get d.engines.engs {} e
def setEng (d : Dev) (e : Nat) (x : Eng) : Dev := { d with engines := { d.engines with engs := Sparse.set d.engines.engs {} e x } }

/-- The engine's state shown in ENG_STAT and ENG_BODY. -/
def engShow (d : Dev) (e : Nat) : Dev :=
  let x := d.eng e
  ((d.put (F.ENG_STAT_RUN e) x.body.isSome).put (F.ENG_STAT_FETCHED e) x.fetched.isSome).set (F.ENG_BODY_BODY_ID e) (x.body.getD 0)

/-- An engine in service (R250, R262, R265). -/
def engInService (d : Dev) (e : Nat) : Bool :=
  d.enabled (engPage e) && d.bit (F.ENG_CFG_IMG_VALID e) && !d.offline (engPage e) && !d.bit (F.BLK_CTRL_OFFLINE_REQ (engPage e))
    && !d.testing (engPage e) && !(d.eng e).out

def engSlot (d : Dev) (e : Nat) : Nat := d.get (F.ENG_CFG_SLOT e)

/-- The engines in service with a slot (Table eng-11, IN_SERVICE). -/
def poolSize (d : Dev) (s : Nat) : Nat := ((List.range 64).filter (fun e => d.engInService e && d.engSlot e = s)).length

/-- A change of engines; POOL_EMPTY is raised for each slot whose pool it empties (R268). -/
def poolChange (d : Dev) (f : Dev → Dev) : Dev :=
  let d' := f d
  (List.range 8).foldl (fun x s => if d.poolSize s ≠ 0 ∧ d'.poolSize s = 0 then x.raise dispPage 4 else x) d'

/-- Bodies of a slot committed and not resolved (QUEUED). -/
def poolQueued (d : Dev) (s : Nat) : Nat := (d.seg.bodies.filter (fun b => b.slot = s && b.place ≠ .resolved)).length

/-- Engines of a slot that hold a body (BUSY). -/
def poolBusy (d : Dev) (s : Nat) : Nat :=
  ((List.range 64).filter (fun e => d.engSlot e = s && ((d.eng e).body.isSome || (d.eng e).fetched.isSome))).length

/-! ### The queue (R215, R248) -/

def ahead (a b : CBody) : Bool :=
  let x := st40Diff a.deadline b.deadline
  decide (x < 0) || (decide (x = 0) && decide (sgn 32 ((a.seq + 2 ^ 32 - b.seq) % 2 ^ 32) < 0))

/-- The body that comes first in the order of R215. -/
def earliest : List CBody → Option CBody
  | [] => none
  | b :: bs => match earliest bs with
    | none => some b
    | some c => if ahead c b then some c else some b

def queued (d : Dev) : List CBody := d.seg.bodies.filter (fun b => b.place = .queued)

/-- The body that the read side would deliver next, and how many wait (BODY_Q_HEAD, BODY_Q_DEPTH). -/
def queueHead (d : Dev) : Nat := match earliest d.queued with | some b => b.id | none => 0
def queueDepth (d : Dev) : Nat := d.queued.length

/-- Nanoseconds from now to a body's deadline. -/
def toDeadline (d : Dev) (b : CBody) : Int := st40Diff b.deadline (uns 40 d.now)

/-- The rules of a shadow hold for a body: the device is shadow, or the body was pending at a takeover (R257, R514). -/
def graced (d : Dev) (b : CBody) : Bool := d.isShadow || b.taken

/-! ### Verdicts (R252–R257) -/

/-- A miss: its cause and group counted, MISS raised (Table eng-6). -/
def countCause (d : Dev) (g cause : Nat) : Dev :=
  let d := d.count (F.DISP_CNT_CAUSE_COUNT (cause - 1))
  if cause = 3 ∨ cause = 4 then d else (d.count (F.DISP_GRP_MISS_COUNT g)).raise dispPage 3

/-- The default verdict of a body for a cause (R253, Table eng-6). A lead sends a miss record for causes 1, 2 and 7 (R256). -/
def defaultVerdict (d : Dev) (b : CBody) (cause : Nat) : Dev :=
  let replaced := b.verdict.isSome
  let d := (d.countCause b.group cause).count (F.DISP_GRP_VERD_COUNT b.group)
  let d := if b.dflt = 2 then d.twilightPass b cause replaced
    else d.pass b.id ⟨verdictWord 0 0 cause 1 false (decide (b.dflt = 1)), 0⟩ replaced
  if d.isLead ∧ (cause = 1 ∨ cause = 2 ∨ cause = 7) then d.merSend 0x13 cause 1 [b.id] else d

/-- The state of a body's dispatch. -/
def setPlace (d : Dev) (id : Nat) (p : Place) : Dev := d.updBody id (fun b => { b with place := p })

/-- The engine a body came back from after a hardware fault. -/
def setAvoid (d : Dev) (id e : Nat) : Dev := d.updBody id (fun b => { b with avoid := some e })

/-! ### Running a body (R245, R262, R272) -/

/-- Cycles of the running body (CYCLE, ENG_CYCLES). -/
def engCycles (d : Dev) (e : Nat) : Nat :=
  let x := d.eng e
  (x.cyc + d.elapsed x.cycAt * pointRate (d.get (F.ENG_PT_ACT e))) / 10

/-- Whether a body may still start: its deadline, or a shadow's deadline + GRACE, lies ahead (R251, R257; log entry 68, DEDUCED). -/
def inTime (d : Dev) (id : Nat) : Bool := match d.bodyOf id with
  | some b => decide ((if d.graced b then -(b.grace * 1000 : Nat) else 0 : Int) < d.toDeadline b)
  | none => true

/-- The window of the body that waits is complete and no body runs: it starts with the registers of R272 and an empty scratch region. -/
def startBody (d : Dev) (e : Nat) : Dev :=
  let x := d.eng e
  match x.body, x.fetched with
  | none, some id =>
    if !x.ready || !d.inTime id then d
    else
      let w := 1 - x.window
      let (g, limit) := match d.bodyOf id with | some b => (b.group, b.runLimit) | none => (0, 0)
      let entry := match x.img with | some i => i.entry | none => 0
      let s := Sparse.set (Sparse.set [] 0 1 (winBase w)) 0 2 g
      (d.setEng e { x with mem := clearCells x.mem 0x5_0000 0x1_0000, s := s, v := [], p := [], pc := entry, retired := 0, limit := limit, body := some id,
                           window := w, fetched := none, ready := false, cyc := 0, cycAt := d.time.c }).engShow e
  | _, _ => d

/-- The running body ends (R291): reads in flight are abandoned, writes go on; with OFFLINE_REQ the engine goes OFFLINE, else the next starts. -/
def endBody (d : Dev) (e : Nat) : Dev :=
  let x := d.eng e
  let cycles := d.engCycles e
  let d := (d.setEng e { x with body := none, struck := none, busy := x.busy + cycles, xfers := x.xfers.filter (fun t => !t.isRead) }).engShow e
  let d := d.set (F.ENG_BUSY_KCYCLES e) ((x.busy + cycles) / 1024)
  if d.bit (F.BLK_CTRL_OFFLINE_REQ (engPage e)) then d.put (F.BLK_STAT_OFFLINE (engPage e)) true else d.startBody e

/-- A body taken from the engine that runs it or holds it fetched; whether it ran. -/
def takeOff (d : Dev) (e id : Nat) : Dev × Bool :=
  let x := d.eng e
  if x.body = some id then (d.endBody e, true)
  else if x.fetched = some id then ((d.setEng e { x with fetched := none, ready := false }).engShow e, false)
  else (d, false)

/-- The instant up to which a verdict is used has passed: the deadline, or under the shadow rule deadline + GRACE (R251, R257). The cycle of the
deadline itself still belongs to a verdict or an exception (R297). -/
def pastDeadline (d : Dev) (b : CBody) : Bool := decide (d.toDeadline b < (if d.graced b then -(b.grace * 1000 : Nat) else 0 : Int))

/-- A body resolved by default for a cause that depends on where it stands: running, or not started (R251). -/
def resolveLate (d : Dev) (b : CBody) (running waiting : Nat) : Dev := match b.place with
  | .resolved => d
  | .queued => d.defaultVerdict b waiting
  | .fetched e =>
    let d := d.count (F.ENG_CNT_DEADLINE_COUNT e)
    let (d, ran) := d.takeOff e b.id
    d.defaultVerdict b (if ran then running else waiting)

/-- What the dispatcher does of a body past its limit: causes 1 and 2, or for a shadow cause 6 with a divergence (R251, R257, R514). -/
def expireBody (d : Dev) (b : CBody) : Dev :=
  if d.graced b && !b.taken then ((d.resolveLate b 6 6).count F.DISP_CNT_DIVERGED_COUNT).raise dispPage 7 else d.resolveLate b 1 2

/-- The body that engine `e` runs, where it is past its limit and not resolved: the dispatcher stops it before the engine can end it. -/
def overdue (d : Dev) (e : Nat) : Option CBody := match (d.eng e).body with
  | none => none
  | some id => (d.bodyOf id).filter (fun b => b.place ≠ .resolved && d.pastDeadline b)

/-- A verdict that an engine emits (R251, R257, R293): used unless the body is resolved already. After the deadline there is none. -/
def emitVerdict (d : Dev) (e : Nat) (w1 hint : Nat) : Dev :=
  match d.overdue e, (d.eng e).body with
  | some b, _ => d.expireBody b
  | none, none => d
  | none, some id =>
    let d := d.count (F.ENG_CNT_BODIES_COUNT e)
    let d := d.observe (engPage e) 0x04 e (d.engCycles e)
    let d := match d.bodyOf id with
      | none => d
      | some b =>
        let d := d.observe dispPage 0x03 b.group (d.toDeadline b)
        if b.verdict.isSome then d else (d.count (F.DISP_GRP_VERD_COUNT b.group)).pass id ⟨w1, hint⟩ false
    let d := d.setEng e { d.eng e with emitAt := some d.time.c }
    d.endBody e

/-- An exception or the run limit ends the body with its default verdict (R254, R295): cause 4 for RUN_LIMIT, 3 otherwise. -/
def engException (d : Dev) (e code : Nat) : Dev :=
  let x := d.eng e
  match d.overdue e, x.body with
  | some b, _ => d.expireBody b
  | none, none => d
  | none, some id =>
    let d := ((d.count (F.ENG_CNT_EXC_COUNT e)).set (F.ENG_LAST_EXC_PC e) (x.pc / 4)).set (F.ENG_LAST_EXC_CAUSE e) code
    let d := d.raise (engPage e) 3
    let d := match d.bodyOf id with
      | some b => if b.verdict.isSome then d else d.defaultVerdict b (if code = 0x10 then 4 else 3)
      | none => d
    d.endBody e

/-! ### Taking and fetching (R245, R250) -/

/-- The dispatcher works: RUNNING, page enabled, no fault (R268). -/
def dispatching (d : Dev) : Bool := (d.state = 5 || d.plan.drain) && d.enabled dispPage && !d.bit (F.BLK_STAT_FAULT dispPage)

/-- A body that came back after a hardware fault goes to another engine while its slot has another in service (Table eng-9; log entry 68, DEDUCED). -/
def mayTake (d : Dev) (e : Nat) (b : CBody) : Bool := b.avoid ≠ some e || decide (d.poolSize b.slot ≤ 1)

/-- The first engine in service with a free window for whose slot a body waits, with that body. -/
def nextTake (d : Dev) : Option (Nat × CBody) :=
  (List.range 64).findSome? (fun e =>
    if d.engInService e && (d.eng e).fetched.isNone then
      (earliest (d.queued.filter (fun b => b.slot = d.engSlot e && d.mayTake e b && !(d.graced b && decide (d.toDeadline b < -(b.grace * 1000 : Nat)))))).map
        (fun b => (e, b))
    else none)

/-- DISPATCH_TAKE: the body is given to the engine, or resolved with cause 2 when less than MIN_RUN is left. A shadow gives it in any case until
deadline + GRACE (R257). -/
def dispatchTake (d : Dev) : Dev :=
  if !d.dispatching then d
  else match d.nextTake with
    | none => d
    | some (e, b) =>
      if !d.graced b ∧ d.toDeadline b < b.minRun * 1000 then d.defaultVerdict b 2
      else
        let d := (d.setEng e { d.eng e with fetched := some b.id, ready := false }).engShow e
        (d.setPlace b.id (.fetched e)).count F.DISP_CNT_TAKEN_COUNT

/-- Whether the partner areas of a body are filled: ASSOC = 1 and UPPER = 0 (R245). -/
def partnerFor (d : Dev) (b : CBody) : Nat :=
  let w := d.ctxWord (ctxOf b.id) 0x04
  if w / 2 ^ 8 % 2 = 1 ∧ w / 2 ^ 9 % 2 = 0 then b.partner else 0

/-- The descriptor of a body (Table eng-4). -/
def descriptor (d : Dev) (b : CBody) : List Nat :=
  let p := d.partnerFor b
  let crop := match d.bodyOf p with | some q => q.crop.isSome | none => false
  wordsLe [b.id, b2n (decide (p ≠ 0) && crop) * 2 ^ 9 + b2n (decide (p ≠ 0)) * 2 ^ 8 + b.slot * 16 + b.group, b.deadline % 2 ^ 32, b.deadline / 2 ^ 32,
    p, b.runLimit]

/-- The window of a body, written whole (Table eng-3). -/
def fillWindow (d : Dev) (mem : List Host.Cell) (base : Nat) (b : CBody) : List Host.Cell :=
  let p := d.partnerFor b
  let mem := clearCells mem base 0x1_0000
  let mem := copyCells d.mem (ctxOff (ctxOf b.id)) 128 mem base
  let mem := if p ≠ 0 then copyCells d.mem (ctxOff (ctxOf p)) 128 mem (base + 0x80) else mem
  let mem := putCells mem (base + 0x100) (d.descriptor b)
  let crop := fun (mem : List Host.Cell) (at_ : Nat) (s : Option Nat) => match s with
    | some s => copyCells d.mem (d.cropPlace s).1 (d.cropPlace s).2 mem at_
    | none => mem
  let mem := crop mem (base + 0x200) b.crop
  crop mem (base + 0x4800) (match d.bodyOf p with | some q => q.crop | none => none)

/-- BODY_FETCH_DONE: the window of the fetched body is complete (R245). -/
def bodyFetchDone (d : Dev) (e : Nat) : Dev :=
  let x := d.eng e
  match x.fetched with
  | none => d
  | some id => match d.bodyOf id with
    | none => d
    | some b =>
      if x.ready then d
      else (d.setEng e { x with mem := d.fillWindow x.mem (winBase (1 - x.window)) b, ready := true }).startBody e

/-! ### Deadlines (R251, R257, R514) -/

/-- The first body in the order of R215 that is not resolved, is not under the shadow rule and is past its deadline: a verdict or an exception in the
deadline's own cycle comes first (R297). -/
def bodyDeadline (d : Dev) : Dev :=
  match earliest (d.seg.bodies.filter (fun b => b.place ≠ .resolved && !d.graced b && d.pastDeadline b)) with
  | none => d
  | some b => d.expireBody b

/-- Deadline + GRACE: a shadow applies cause 6 and counts a divergence; a body pending at a takeover takes cause 1 or 2. -/
def graceExpiry (d : Dev) : Dev :=
  match earliest (d.seg.bodies.filter (fun b => b.place ≠ .resolved && d.graced b && d.pastDeadline b)) with
  | none => d
  | some b => d.expireBody b

/-- Whether a body that is not committed may still be: its row is open or waits for its commit, or its context has yet to reach its generation. -/
def awaited (d : Dev) (id : Nat) : Bool :=
  let ahead := (id % 2 ^ 14 + 2 ^ 14 - Sparse.get d.seg.gens 0 (ctxOf id)) % 2 ^ 14
  (List.range 8).any (fun g => (d.segGroup g).openB.any (·.id = id)) || d.seg.closed.any (·.1.id = id) || decide (0 < ahead ∧ ahead < 2 ^ 13)

/-- A MISS record of the lead (R257): until deadline + GRACE it replaces whatever has passed by the default, cause 5. For a body that the shadow has
not yet committed it is held (`missAtCommit`). -/
def missReceived (d : Dev) (id : Nat) : Dev :=
  match d.bodyOf id with
  | none =>
    if d.isShadow && d.awaited id then { d with seg := { d.seg with missHeld := d.seg.missHeld ++ [(id, d.now)] } }
    else d.count F.DISP_CNT_DIVERGED_COUNT
  | some b =>
    if !d.isShadow ∨ d.toDeadline b < -(b.grace * 1000 : Nat) then d.count F.DISP_CNT_DIVERGED_COUNT
    else match b.place with
      | .fetched e => (d.takeOff e id).1.defaultVerdict b 5
      | _ => d.defaultVerdict b 5

/-- A body returned to the queue (R262, R265). -/
def requeue (d : Dev) (id : Nat) : Dev := d.setPlace id .queued

/-! ### OFFLINE and rejoining (R262, R264) -/

/-- OFFLINE_REQ set on an engine: its fetched body goes back; without a running body the engine is OFFLINE at once. -/
def engOfflineReq (d : Dev) (e : Nat) : Dev :=
  let x := d.eng e
  let d := match x.fetched with
    | some id => ((d.setEng e { x with fetched := none, ready := false }).engShow e).requeue id
    | none => d
  if x.body.isNone then d.put (F.BLK_STAT_OFFLINE (engPage e)) true else d

/-- The three conditions under which an OFFLINE engine rejoins (R264). -/
def mayRejoin (d : Dev) (e : Nat) : Bool :=
  !d.bit (F.BLK_CTRL_OFFLINE_REQ (engPage e)) && d.bit (F.ENG_CFG_IMG_VALID e) && (!d.bit (F.ENG_STAT_WITHDRAWN e) || d.bit (F.ENG_STAT_ST_PASS e))

/-- ENG_REJOIN: an OFFLINE engine meets the three conditions. -/
def engRejoin (d : Dev) (e : Nat) : Dev :=
  if e < 64 ∧ d.offline (engPage e) ∧ d.mayRejoin e then
    (d.put (F.BLK_STAT_OFFLINE (engPage e)) false).put (F.ENG_STAT_WITHDRAWN e) false
  else d

/-! ### Faults (R265–R269) -/

/-- The engine retired a VEMIT in this nanosecond and nothing after it: the verdict stands, and a fault is the engine's alone (R297). -/
def justEmitted (d : Dev) (e : Nat) : Bool :=
  decide ((d.eng e).emitAt = some d.time.c) && ((d.eng e).body.isNone || decide ((d.eng e).retired = 0))

/-- The engine leaves its pool at once: OFFLINE, its fetched body back in the queue. -/
def engLeave (d : Dev) (e : Nat) : Dev :=
  let x := d.eng e
  let d := match x.fetched with
    | some id => ((d.setEng e { x with fetched := none, ready := false }).engShow e).requeue id
    | none => d
  d.put (F.BLK_STAT_OFFLINE (engPage e)) true

/-- The running body goes back for another engine, or takes cause 2 with fewer than MIN_RUN µs left (Table eng-9). -/
def redispatch (d : Dev) (e : Nat) : Dev :=
  match (d.eng e).body with
  | none => d
  | some id =>
    let d := d.endBody e
    match d.bodyOf id with
    | none => d
    | some b =>
      if b.place = .resolved then d
      else if !d.graced b ∧ d.toDeadline b < b.minRun * 1000 then d.defaultVerdict b 2
      else ((d.requeue id).setAvoid id e).count F.DISP_CNT_REDISPATCH_COUNT

/-- A hardware fault falls on the body that runs, but for one that has only started after a VEMIT of the same cycle (R297). -/
def strike (d : Dev) (e : Nat) : Dev :=
  if d.justEmitted e then d else d.setEng e { d.eng e with struck := (d.eng e).body }

/-- The end of a nanosecond: the bodies that a hardware fault struck in it go back, where no VEMIT, exception or stop has ended them first (R297). -/
def strikeTick (d : Dev) : Dev :=
  (d.engines.engs.filter (fun x => x.2.struck.isSome)).foldl (fun d x => d.redispatch x.1) d

/-- The BLK_PARITY bit that a fault of each kind reports. An uncorrectable HBM read by DMA stands as bad data on the engine's data path (log entry 92,
DEDUCED). -/
def faultParity (p kind : Nat) : Fld :=
  if kind = 0 ∨ kind = 5 then F.BLK_PARITY_SRAM_UE p else if kind = 2 then F.BLK_PARITY_BUS_RD p else if kind = 3 then F.BLK_PARITY_BUS_WR p
  else F.BLK_PARITY_DATA_PATH p

/-- ENG_HW_FAULT: `kind` 0 an uncorrectable error in scratch or a window, 1 parity on the data path, 2 or 3 parity on a bus read or write,
4 an uncorrectable HBM read by DMA, 5 an uncorrectable error in the program or model region; 6 a correctable error in local memory, which the
engine corrects and scrubs. -/
def engHwFault (d : Dev) (e kind : Nat) : Dev :=
  if 64 ≤ e ∨ !d.enabled (engPage e) then d
  else if kind = 6 then d.setParity (engPage e) (F.BLK_PARITY_SRAM_CE (engPage e))
  else
    let p := engPage e
    let d := d.setParity p (faultParity p kind)
    let d := ((d.count (F.ENG_CNT_HWFAULT_COUNT e)).setFault p).raise p 4
    let recent := ((d.eng e).faults.filter (fun t => decide (d.time.c - t < 10000000000))) ++ [d.time.c]
    let withdraw := d.feat 21 && decide (d.get F.DISP_CTRL_FAULT_LIMIT ≤ recent.length)
    d.poolChange (fun d =>
      let d := d.setEng e { d.eng e with faults := if withdraw then [] else recent, out := (d.eng e).out || decide (kind = 5) }
      -- an engine that leaves its pool gives its fetched body back before its running one ends
      let d := if withdraw then (((d.engLeave e).put (F.ENG_STAT_WITHDRAWN e) true).put (F.ENG_STAT_ST_PASS e) false).raise p 5 else d
      let d := if kind = 5 ∧ !withdraw then
          let x := d.eng e
          match x.fetched with
          | some id => ((d.setEng e { x with fetched := none, ready := false }).engShow e).requeue id
          | none => d
        else d
      d.strike e)

/-- The header of an image in HBM: MAGIC, MAJOR, lengths, entry (Table isa-11). -/
def imgWord (d : Dev) (off i : Nat) : Nat := d.read (off + 4 * i) 4

/-- Whether the image's CHECK holds: CRC-32C to the end of the model with the word itself as 0. -/
def imgCheck (d : Dev) (off : Nat) : Bool :=
  let n := 64 + (d.imgWord off 3 + 63) / 64 * 64 + d.imgWord off 4
  let bs := d.bytes off n
  decide (d.imgWord off 7 = crc32c (bs.take 0x1C ++ [0, 0, 0, 0] ++ bs.drop 0x20))

/-- Program and model written into an engine, the rest of both regions zero (R301). -/
def loadImage (d : Dev) (e off len : Nat) : Dev :=
  let code := d.imgWord off 3
  let model := d.imgWord off 4
  let x := d.eng e
  let mem := clearCells x.mem 0 0x5_0000
  let mem := copyCells d.mem (off + 64) code mem 0
  let mem := copyCells d.mem (off + 64 + (code + 63) / 64 * 64) model mem 0x1_0000
  (d.setEng e { x with mem := mem, out := false, img := some ⟨off, len, code, d.imgWord off 5⟩ }).put (F.ENG_CFG_IMG_VALID e) true

/-- ENG_RELOAD: the image recorded at PROG_LOAD, after its check word (R267). -/
def engReload (d : Dev) (e : Nat) : Dev :=
  let x := d.eng e
  if !x.out then d
  else match x.img with
    | none => d
    | some i =>
      if d.imgCheck i.off then d.loadImage e i.off i.len
      else d.poolChange (fun d => ((d.put (F.ENG_CFG_IMG_VALID e) false).put (F.BLK_STAT_OFFLINE (engPage e)) true).raise (engPage e) 6)

/-- HBM_UE: sixteen uncorrectable errors within 1 s make HBM unusable (R268). -/
def hbmUe (d : Dev) : Dev :=
  let l := (d.engines.hbmUe.filter (fun t => decide (d.time.c - t < 1000000000))) ++ [d.time.c]
  let d := { d with engines := { d.engines with hbmUe := l } }
  if 16 ≤ l.length then d.put F.DEV_ENV_STAT_HBM_FAIL true else d

/-- Every engine abandons its bodies, each counted in DISP_CNT_ABORT (R269). -/
def abandonAll (d : Dev) : Dev :=
  (List.range 64).foldl (fun d e =>
    let x := d.eng e
    let n := b2n x.body.isSome + b2n x.fetched.isSome
    if n = 0 then d
    else
      let d := (d.setEng e { x with fetched := none, ready := false }).count F.DISP_CNT_ABORT_COUNT n
      if x.body.isSome then d.endBody e else d.engShow e) d

/-! ### Points (R261) -/

/-- The point in force changes, with its voltage; cycles so far are kept. -/
def setPoint (d : Dev) (e p : Nat) : Dev :=
  let x := d.eng e
  let x := if x.body.isSome then { x with cyc := x.cyc + d.elapsed x.cycAt * pointRate (d.get (F.ENG_PT_ACT e)), cycAt := d.time.c } else x
  ((d.setEng e x).set (F.ENG_PT_ACT e) p).set (F.ENG_PT_VCODE e) (x.points.getD p 0)

/-- ENG_PT_REQ: a write of REQ queues a point change. -/
def engPtReq (d : Dev) (e value : Nat) : Dev :=
  if 64 ≤ e then d
  else d.gated (engPage e) 0x44 (fun d =>
    let d := d.putFields value [F.ENG_PT_REQ e]
    { d with engines := { d.engines with ptWait := d.engines.ptWait.filter (fun x => x ≠ e) ++ [e] } })

/-- The point an engine is to run at: P3 under throttle; else REQ, one slower while it is capped (R483). -/
def wantedPoint (d : Dev) (e : Nat) : Nat :=
  if d.bit F.DEV_ENV_STAT_THROTTLE then 3 else min 3 (d.get (F.ENG_PT_REQ e) + b2n (d.isl.caps.any (fun c => c.1 = e)))

/-- The engines that are not at the point they are to run at queue up behind the changes that wait, in ascending number (R34, R261). -/
def queuePoints (d : Dev) : Dev :=
  let es := (List.range 64).filter (fun e => decide (d.get (F.ENG_PT_ACT e) ≠ d.wantedPoint e) && !d.engines.ptWait.contains e)
  { d with engines := { d.engines with ptWait := d.engines.ptWait ++ es } }

/-- ENG_POINT_CHANGE: the change queued first is applied, 2 µs after the change before it. -/
def engPointChange (d : Dev) : Dev :=
  let spaced := match d.engines.ptAt with | some t => decide (2000 ≤ d.elapsed t) | none => true
  match d.engines.ptWait with
  | [] => d
  | e :: rest =>
    if !spaced then d
    else
      let d := { d with engines := { d.engines with ptWait := rest, ptAt := some d.time.c } }
      d.setPoint e (d.wantedPoint e)

/-! ### Slot swap (R260) -/

/-- The groups with a port. -/
def groupsWithPort (d : Dev) : List Nat :=
  (List.range 8).filter (fun g => d.portsOf g ≠ [])

/-- Whether some group with a port has no engine in service with its SLOT_NEXT. -/
def slotNextMissing (d : Dev) : Bool := d.groupsWithPort.any (fun g => d.poolSize (d.get (F.DISP_GRP_A_SLOT_NEXT g)) = 0)

/-- Every SLOT takes its SLOT_NEXT. -/
def takeSlots (d : Dev) : Dev := (List.range 8).foldl (fun d g => d.set (F.DISP_GRP_A_SLOT g) (d.get (F.DISP_GRP_A_SLOT_NEXT g))) d

/-- A due slot swap before a body whose last row's trigger DT is `t` (R260). -/
def dispSwapDue (d : Dev) (t : Option (Nat × Nat × Nat)) : Dev := if d.swapReady dispSwap t then (d.swapApply dispSwap).takeSlots else d

/-! ### Vesper's commands (R259, R263, R299) -/

/-- An engine runs with TEST = 1 from the start of its self-test to its end (R263). -/
def engTest (d : Dev) (e : Nat) (v : Bool) : Dev := d.poolChange (·.put (F.BLK_STAT_TEST (engPage e)) v)

/-- ENG_SELFTEST: what the test found comes from outside: logic, memory, the first failing unit. -/
def engSelftest (d : Dev) (logicOk memOk : Bool) (unit : Nat) : Dev :=
  if !d.executing 0x48 then d
  else
    let e := d.arg 0 % 64
    let march := decide (d.arg 1 % 2 = 1)
    if d.state ≠ 8 ∧ !d.offline (engPage e) then (d.engTest e false).complete .state 9
    else
      let d := if march then d.poolChange (fun d => (d.setEng e { d.eng e with mem := [] }).put (F.ENG_CFG_IMG_VALID e) false) else d
      let mem := !march || memOk
      let d := d.put (F.ENG_STAT_ST_PASS e) (logicOk && mem)
      (d.engTest e false).complete .ok 0 [b2n logicOk + 2 * b2n mem + unit % 256 * 256]

/-- Whether the header of an image breaks R298 or Table isa-11. -/
def imgBad (d : Dev) (off len : Nat) : Bool :=
  let w := fun i => d.imgWord off i
  let bytes := 64 + (w 3 + 63) / 64 * 64 + w 4 + 64 * (w 2 / 2 % 2)
  !decide (off % 64 = 0 ∧ 64 ≤ len ∧ off + len ≤ 0x4_0000_0000 ∧ w 0 = 0x3156_524B ∧ w 1 / 2 ^ 16 = 0 ∧ w 1 / 256 = 1 ∧ w 2 / 4 = 0 ∧ w 3 % 4 = 0
    ∧ 4 ≤ w 3 ∧ w 3 ≤ 65536 ∧ w 4 % 64 = 0 ∧ w 4 ≤ 262144 ∧ w 5 % 4 = 0 ∧ w 5 < w 3 ∧ len = bytes)
    || (List.range 8).any (fun i => w (8 + i) ≠ 0)

/-- The engines of the mask in ARG4 and ARG5. -/
def maskEngines (d : Dev) : List Nat := (List.range 64).filter (fun e => d.arg (4 + e / 32) / 2 ^ (e % 32) % 2 = 1)

/-- The signature of an image, over every byte to the end of its model, against the key in the slot that SEC_PROG names; that slot must be fused
and not revoked (R300, R552). -/
def imgSigned (d : Dev) (off : Nat) : Bool :=
  let n := 64 + (d.imgWord off 3 + 63) / 64 * 64 + d.imgWord off 4
  let k := d.get F.SEC_PROG_PROG_KEY
  d.testBit F.SEC_LIFE_PROG_FUSED k && !d.testBit F.SEC_LIFE_PROG_REVOKED k
    && Sparse.get d.boot.progKeys 0 k ≠ 0 && edVerify (leBytes 32 (Sparse.get d.boot.progKeys 0 k - 1)) (d.bytes off n) (d.bytes (off + n) 64)

/-- PROG_LOAD (R259, R299). ENG_CFG.SLOT is the slot of the loaded image, so an engine without one holds none (DEDUCED, log 68). -/
def progLoad (d : Dev) : Dev :=
  if !d.executing 0x49 then d
  else
    let slot := d.arg 0 % 8
    let off := d.arg 1 + d.arg 2 % 4 * 2 ^ 32
    let len := d.arg 3
    let es := d.maskEngines
    let free := fun e => d.offline (engPage e) || !d.bit (F.ENG_CFG_IMG_VALID e) || !d.groupsWithPort.any (fun g =>
      d.engSlot e = d.get (F.DISP_GRP_A_SLOT g) || d.engSlot e = d.get (F.DISP_GRP_A_SLOT_NEXT g))
    if d.imgBad off len then d.complete .range
    else if !d.imgCheck off then d.complete .range
    else if d.feat 7 ∧ (d.imgWord off 2 / 2 % 2 = 0 ∨ !d.imgSigned off) then d.complete .auth
    else if d.imgWord off 2 % 2 = 1 ∧ !d.feat 6 then d.complete .feature
    else if !es.all free then d.complete .state 7
    else
      let d := d.poolChange (fun d => es.foldl (fun d e => (d.loadImage e off len).set (F.ENG_CFG_SLOT e) slot) d)
      d.complete .ok 0 [d.arg 4, d.arg 5]

end Dev

/-! ### The meanings -/

def execDispatchTake (s : State) : Answer := s.run (·.dispatchTake)
def execBodyFetchDone (e : Nat) (s : State) : Answer := s.run (·.bodyFetchDone e)
def execBodyDeadline (s : State) : Answer := s.run (·.bodyDeadline)
def execGraceExpiry (s : State) : Answer := s.run (·.graceExpiry)
def execEngPtReq (e value : Nat) (s : State) : Answer := s.run (·.engPtReq e value)
def execEngPointChange (s : State) : Answer := s.run (·.engPointChange)
def execEngRejoin (e : Nat) (s : State) : Answer := s.run (·.engRejoin e)
def execDispSwapGo (value : Nat) (s : State) : Answer :=
  s.run (·.swapGo dispSwap value (fun d => if d.slotNextMissing then some (.state, 8) else none))
def execProgLoad (s : State) : Answer := s.run (·.progLoad)

end Sys2Proof.Machine
end

