-- ==== Sys2Proof/Machine/Time.lean ====
section
/-! DEFINITION. Time (Time and network): the time base, schedulers, PPS, the ordinary clock with its servo and path table, PCIe PTM, and the
registers of the TIME page. -/

namespace Sys2Proof.Machine

namespace Dev

abbrev timePage : Nat := 4

/-! ### The time base (R402–R406) -/

/-- DT_REBASE: BASE := DT at C_B, so that nothing moves DT (R402). -/
def rebase (d : Dev) : Dev :=
  { d with time := { d.time with cB := d.time.c, base := d.dt32, slewLeft := d.time.slewLeft - d.slewed, slewSum := d.time.slewSum + d.slewed } }

/-- All that slews have absorbed so far, in 2^-16 ns. -/
def slewTotal (d : Dev) : Int := (d.time.slewSum + d.slewed) / 2 ^ 16

/-- Whether a slew is in progress (TIME_SLEW_CTRL.BUSY). -/
def slewing (d : Dev) : Bool := d.time.slewLeft - d.slewed ≠ 0

/-- BUSY and SLEWING as they stand. -/
def slewShow (d : Dev) : Dev := (d.put F.TIME_SLEW_CTRL_BUSY d.slewing).put F.TIME_STAT_SLEWING d.slewing

/-- RATE given a value in 32.32 form (R402). -/
def setRate (d : Dev) (r : Nat) : Dev :=
  let d := d.rebase
  ({ d with time := { d.time with rate := r } }.set F.TIME_RATE_LO_RATE_F (r % 2 ^ 32)).set F.TIME_RATE_HI_RATE_I (r / 2 ^ 32)

/-- A slew of `a` (2^-32 ns) begins (R405). -/
def startSlew (d : Dev) (a : Int) : Dev :=
  let d := d.rebase
  { d with time := { d.time with slewLeft := a } }.slewShow

/-- SLEW_COMPLETE: the amount has been absorbed. -/
def slewComplete (d : Dev) : Dev :=
  if d.slewing then d else d.rebase.slewShow

/-- The states that permit a set or a step of DT (R404). -/
def stepAllowed (d : Dev) : Bool := d.state = 2 || d.state = 3 || d.state = 4 || d.state = 8

/-! ### Schedulers (R412, R413) -/

def schedAt (d : Dev) (n : Nat) : Option Nat := (d.timing.sched.find? (fun e => e.1 = n)).map (·.2)

def setSched (d : Dev) (n : Nat) (t : Option Nat) : Dev :=
  let l := d.timing.sched.filter (fun e => e.1 ≠ n)
  { d with timing := { d.timing with sched := match t with | some t => l ++ [(n, t)] | none => l } }

/-- The scheduler is disarmed. -/
def schedOff (d : Dev) (n : Nat) : Dev := (d.setSched n none).put (F.TIME_SCHED_CTRL_ARM n) false

/-- The scheduler acts, its present instant being `t` (R413). -/
def schedAct (d : Dev) (n t : Nat) : Dev :=
  let d := (((d.setDt (F.TIME_SCHED_LAST_LO_LAST n) (F.TIME_SCHED_LAST_HI_LAST n) d.now).count (F.TIME_SCHED_CNT_COUNT n)).put
    (F.TIME_SCHED_CTRL_FIRED n) true).raise timePage 7
  let a := d.get (F.TIME_SCHED_CTRL_ACTION n)
  let blocked := d.bit (F.TGEN_CTRL_OUT_EN n)
  let d := if blocked then d.put (F.TIME_SCHED_CTRL_BLOCKED n) true
    else if a = 1 then d.emit (.pulse (.trigOut n) (d.get (F.TIME_SCHED_WIDTH_WIDTH n)))
    else if a = 2 then (d.setPin (.trigOut n) .high).put (F.TIME_SCHED_CTRL_LEVEL n) true
    else if a = 3 then (d.setPin (.trigOut n) .low).put (F.TIME_SCHED_CTRL_LEVEL n) false
    else d
  let p := d.get (F.TIME_SCHED_PERIOD_PERIOD n)
  if p = 0 then d.schedOff n else d.setSched n (some (t + p))

/-- An armed instant that is past: late, and what POLICY says (R412). -/
def schedLate (d : Dev) (n t : Nat) : Dev :=
  let d := (d.put (F.TIME_SCHED_CTRL_LATE n) true).raise timePage 8
  let p := d.get (F.TIME_SCHED_PERIOD_PERIOD n)
  if !d.bit (F.TIME_SCHED_CTRL_POLICY n) then d.schedAct n t
  else if p = 0 then d.schedOff n
  else d.setSched n (some (t + (d.now + 100 - t + p - 1) / p * p))

/-- Every armed instant against a DT that has moved: those now past are late (Table time-5). -/
def schedJump (d : Dev) : Dev :=
  d.timing.sched.foldl (fun d e => if e.2 < d.now + 100 then d.schedLate e.1 e.2 else d) d

/-- ARM = 1 written: the instant extended and judged (R412). -/
def schedArm (d : Dev) (n : Nat) : Dev :=
  let diff := st40Diff (d.st40At (F.TIME_SCHED_AT_LO_AT_LO n) (F.TIME_SCHED_AT_HI_AT_HI n)) d.now
  let t := ((d.now : Int) + diff).toNat
  if (d.get F.TIME_SCHED_CFG_HORIZON * 1000000000 : Nat) < diff then
    d.refuse timePage (0x100 + 0x20 * n) .expired
  else
    let d := ((d.put (F.TIME_SCHED_CTRL_ARM n) true).put (F.TIME_SCHED_CTRL_BLOCKED n) false).setSched n (some t)
    if diff < 100 then d.schedLate n t else d

/-- SCHED_ARM: a write of TIME_SCHEDn_CTRL. An action due in the cycle of a write of ARM = 0 stands (R57, Table time-5). -/
def schedCtrlWrite (d : Dev) (n word : Nat) : Dev :=
  let due : Option Nat := if fieldOf (F.TIME_SCHED_CTRL_ARM n) word = 0 then (d.schedAt n).filter (fun t => decide (t ≤ d.now)) else none
  let was := d.bit (F.TIME_SCHED_CTRL_ARM n)
  let fs := [F.TIME_SCHED_CTRL_POLICY n, F.TIME_SCHED_CTRL_ACTION n]
  let same := fs.all (fun f => fieldOf f word = d.get f)
  let d := if was && !same then d.refuse timePage (0x100 + 0x20 * n) .busy else if was then d else d.putFields word fs
  let d := if fieldOf (F.TIME_SCHED_CTRL_LATE n) word = 1 then d.put (F.TIME_SCHED_CTRL_LATE n) false else d
  let d := if fieldOf (F.TIME_SCHED_CTRL_FIRED n) word = 1 then d.put (F.TIME_SCHED_CTRL_FIRED n) false else d
  let d := match due with | some t => d.schedAct n t | none => d
  if fieldOf (F.TIME_SCHED_CTRL_ARM n) word = 0 then d.schedOff n else if was then d else d.schedArm n

/-- SCHED_ACTION: the instant has come. -/
def schedAction (d : Dev) (n : Nat) : Dev :=
  match d.schedAt n with
  | some t => if t ≤ d.now then d.schedAct n t else d
  | none => d

/-! ### Setting DT (R404) -/

/-- DT set to `v` in 2^-32 ns; a slew in progress is cancelled. -/
def moveDt (d : Dev) (v : Nat) : Dev :=
  let d := d.rebase
  { d with time := { d.time with base := v % 2 ^ 96, slewLeft := 0 }, timing := { d.timing with ppsOut := none } }.slewShow

/-- PPS_OUT at rest: its inactive level while it is on, else low (R415). -/
def ppsRest (d : Dev) : Dev :=
  d.setPin .ppsOut (if d.bit F.TIME_PPS_OUT_EN && d.bit F.TIME_STAT_SET && d.bit F.TIME_PPS_OUT_POL then .high else .low)

/-- TIME_SET: a write of TIME_SET_HI (R404). -/
def timeSet (d : Dev) (hi : Nat) : Dev :=
  if d.stepAllowed then
    let d := d.set F.TIME_SET_HI_SET_HI hi
    ((d.moveDt ((d.get F.TIME_SET_LO_SET_LO + d.get F.TIME_SET_HI_SET_HI * 2 ^ 32) * 2 ^ 32)).put F.TIME_STAT_SET true).ppsRest.schedJump
  else d.refuse timePage 0x68 .state

/-! ### The state of the clock (R424) -/

/-- Whether the servo runs (R423). -/
def servoRuns (d : Dev) : Bool := d.feat 14 && d.bit F.TIME_CTRL_SERVO_EN && !d.frozen timePage

/-- BLK_STAT.STATE of the TIME page, with the bits of TIME_STAT that follow from it. -/
def setClockState (d : Dev) (s : Nat) : Dev :=
  let was := d.bit F.TIME_STAT_LOCKED
  let locked := s = 2 || s = 4
  let d := (((d.set (F.BLK_STAT_STATE timePage) s).put F.TIME_STAT_LOCKED locked).put F.TIME_STAT_PATH_HOLD (s = 3)).put F.TIME_STAT_GM_ACTIVE (s = 4)
  if was != locked then d.raise timePage 3 else d

/-- As grandmaster the clock announces itself on each enabled port with the values of TIME_PTP_CFG (R417); how often the spec leaves to the profile
(log entry 46, DESIGN CHOICE). -/
def announce (d : Dev) : Dev :=
  if !d.bit F.TIME_STAT_GM_ACTIVE then d
  else (List.range 2).foldl (fun d e =>
    if d.enabled 5 && d.bit (if e = 0 then F.NET_CTRL_EN0 else F.NET_CTRL_EN1) then
      d.emit (.announce e (d.get F.TIME_CTRL_PROFILE) (d.get F.TIME_PTP_CFG_PRIORITY1) (d.get F.TIME_PTP_CFG_CLASS) (d.get F.TIME_PTP_CFG_PRIORITY2)
        (d.get F.TIME_PTP_CFG_DOMAIN))
    else d) d

/-- The state that follows from the registers and from the master heard. -/
def clockRefresh (d : Dev) : Dev :=
  let s := d.get (F.BLK_STAT_STATE timePage)
  if d.feat 14 && d.bit F.TIME_CTRL_GM_EN && d.bit F.TIME_STAT_PPS_IN_OK then (if s = 4 then d else (d.setClockState 4).announce)
  else if d.get F.TIME_CTRL_OC_SEL = 0 || d.clock.gm = none then
    if s = 0 then d
    else { d with clock := { d.clock with gm := none, key := none, hold := none, thetas := [], inLock := 0, outLock := 0 } }.setClockState 0
  else if !d.servoRuns then (if s = 5 then d else { d with clock := { d.clock with inLock := 0, outLock := 0 } }.setClockState 5)
  else if s = 1 ∨ s = 2 ∨ s = 3 then d
  else { d with clock := { d.clock with inLock := 0, outLock := 0 } }.setClockState 1

/-! ### The servo (R423) -/

/-- `a × 2^e` for a signed exponent, exact while the result is whole. -/
def shiftI (a e : Int) : Int := if 0 ≤ e then a * 2 ^ e.toNat else a / 2 ^ (-e).toNat

/-- One update from θ (2^-16 ns) at a Sync interval of 2^logS s. A frequency is held in 2^-64 × 10^-9; how the rate is rounded to 2^-32 the spec
does not say (log entry 20, DESIGN CHOICE). -/
def servo (d : Dev) (theta logS : Int) : Dev :=
  let f := fun (k : Nat) => shiftI theta (48 - logS - k)
  let i := d.clock.i + f (d.get F.TIME_SERVO_KI_SHIFT)
  let lim : Int := 500000 * 2 ^ 64
  let adj := clampI (-lim) lim (f (d.get F.TIME_SERVO_KP_SHIFT) + i)
  let d := { d with clock := { d.clock with i := i } }
  let d := (d.setRate (2 ^ 32 - d.meanFree 0 adj (2 ^ 32 * 1000000000)).toNat).freeUsed
  let lim := d.get F.TIME_SERVO_STEP_US * 1000 * 2 ^ 16
  if d.get (F.BLK_STAT_STATE timePage) = 1 ∧ d.get F.TIME_SERVO_STEP_US ≠ 0 ∧ lim < theta.natAbs then
    if d.stepAllowed then
      let d := d.moveDt (((d.dt32 : Int) - theta * 2 ^ 16) % (2 ^ 96 : Nat)).toNat
      { d with clock := { d.clock with i := 0 } }.schedJump
    else (d.startSlew (-theta * 2 ^ 16)).raise timePage 6
  else d

/-- The runs of Syncs within and beyond the lock limits, and LOCKED with them (R424). -/
def lockStep (d : Dev) (theta : Int) : Dev :=
  let l := d.get F.TIME_SERVO_LOCK_NS * 2 ^ 16
  let inn := if theta.natAbs ≤ l then d.clock.inLock + 1 else 0
  let out := if 4 * l < theta.natAbs then d.clock.outLock + 1 else 0
  let d := { d with clock := { d.clock with inLock := inn, outLock := out } }
  let s := d.get (F.BLK_STAT_STATE timePage)
  if s = 1 ∧ d.get F.TIME_SERVO_LOCK_CNT ≤ inn then d.setClockState 2
  else if s = 2 ∧ 4 ≤ out then { d with clock := { d.clock with inLock := 0 } }.setClockState 1
  else d

/-- TIME_OFS: the whole nanoseconds of θ (log entry 20, DESIGN CHOICE), saturating. A measurement of R422 is also a sample of PTP_OFS (R490). -/
def showTheta (d : Dev) (theta : Int) (sample : Bool) : Dev :=
  let t := d.meanFree 0 theta (2 ^ 16)
  let d := d.setS F.TIME_OFS_THETA (satS 32 t)
  (if sample then d.observe timePage 0x11 0 t else d).freeUsed

/-! ### Paths (R426, R427) -/

def pathOf (d : Dev) (k : PathKey) : Option PathEntry := d.clock.paths.find? (fun e => e.key = k)

/-- The ASYM in force in ns: that of the present path, 0 for one not in the table. -/
def asymNow (d : Dev) : Int := match d.clock.key with
  | some k => match d.pathOf k with | some e => e.asym | none => 0
  | none => 0

/-- ENTRY and ASYM as they stand. -/
def pathShow (d : Dev) : Dev :=
  let d := d.setS F.TIME_ASYM_ASYM d.asymNow
  match d.clock.key with
  | some k => match d.pathOf k with | some e => d.set F.TIME_PATH_ENTRY e.idx | none => d
  | none => d

/-- A path entered with its ASYM: in a free entry, else in the least recently used one. -/
def pathEnter (d : Dev) (k : PathKey) (asym : Int) : Dev :=
  let ps := d.clock.paths
  let lru := ps.foldl (fun (b : Option PathEntry) e => match b with | some x => if e.used < x.used then some e else b | none => some e) none
  let idx := match findBelow (fun i => ps.all (fun e => e.idx ≠ i)) 8, lru with
    | some i, _ => i
    | none, some e => e.idx
    | none, none => 0
  { d with clock := { d.clock with paths := ps.filter (fun e => e.idx ≠ idx) ++ [⟨idx, k, asym, d.clock.count⟩] } }

/-- The entry of the present path marked as used. -/
def pathUse (d : Dev) : Dev :=
  { d with clock := { d.clock with paths := d.clock.paths.map (fun e => if d.clock.key = some e.key then { e with used := d.clock.count } else e) } }

/-- The path's ASYM changed by `j`, within 16 bits. -/
def pathAdjust (d : Dev) (k : PathKey) (j : Int) : Dev :=
  { d with clock := { d.clock with paths := d.clock.paths.map (fun e => if e.key = k then { e with asym := satS 16 (e.asym + j) } else e) } }

/-- Sum of a list of integers. -/
def sumI (l : List Int) : Int := l.foldl (· + ·) 0

/-- HOLD_N measurements taken: J, and what is learned from it (R426 steps 3 to 5). -/
def pathDecide (d : Dev) (h : PathHold) : Dev :=
  let n := h.meas.length
  let j := roundTie (sumI h.meas - h.pred * n) (n * 2 ^ 16)
  let d := d.setS F.TIME_PATH_J_J (satS 16 j)
  let learn := d.servoRuns && d.bit F.TIME_CTRL_PATH_LEARN
  let d := match d.clock.key with
    | none => d
    | some k =>
      if !learn then d
      else if d.get F.TIME_PATH_J_ASYM_MAX < j.natAbs then d.raise timePage 6
      else match d.pathOf k with
        | none => d.pathEnter k j
        | some _ => if d.get F.TIME_SERVO_LOCK_NS < j.natAbs then d.pathAdjust k j else d
  let d := { d with clock := { d.clock with hold := none } }.pathUse.pathShow.raise timePage 5
  if d.get (F.BLK_STAT_STATE timePage) = 3 then d.setClockState h.prev else d

/-- A path change has been seen: measurements on the new path begin (R426 steps 1 and 2). A change within a hold begins it anew with the θ_pred it
had. -/
def pathChange (d : Dev) (key : PathKey) : Dev :=
  let n := d.get F.TIME_SERVO_LOCK_CNT
  let l := d.clock.thetas.take n
  let s := d.get (F.BLK_STAT_STATE timePage)
  let h : PathHold := match d.clock.hold with
    | some h => { h with meas := [], slew0 := d.slewTotal }
    | none => { was := d.clock.key, pred := if l.length = 0 then d.freeAt 0 32 else d.meanFree 0 (sumI l) l.length, slew0 := d.slewTotal, prev := s }
  let d := { d with clock := { d.clock with key := some key, hold := some h } }.freeUsed
  if d.servoRuns && d.bit F.TIME_CTRL_PATH_LEARN then d.setClockState 3 else d

/-- REFCLK_TIME lost in PATH_HOLD: the hold is discarded, and the path evaluated afresh after the return (Table time-5). -/
def holdDiscard (d : Dev) : Dev :=
  match d.clock.hold with
  | none => d
  | some h =>
    if d.get (F.BLK_STAT_STATE timePage) ≠ 3 then d
    else ({ d with clock := { d.clock with hold := none, key := h.was, afresh := true } }.pathShow).setClockState h.prev

/-- Whether the ordinary clock listens on a port. -/
def ocPort (d : Dev) (port : Nat) : Bool :=
  let s := d.get F.TIME_CTRL_OC_SEL
  s = 1 || (s = 2 && port = 0) || (s = 3 && port = 1)

/-- Whether a clock is the better master: priority 1, quality, priority 2, identity, the lower the better, as IEEE 1588 compares two grandmasters
(log entry 46, PRESUMED). -/
def betterMaster (a b : Announced) : Bool :=
  let f := fun (x : Announced) => [x.priority1, x.quality, x.priority2, x.gm]
  match ((f a).zip (f b)).find? (fun e => e.1 ≠ e.2) with
  | some e => decide (e.1 < e.2)
  | none => false

/-- Whether the Syncs of a clock are followed: it belongs to the domain and to the profile, and is the grandmaster followed so far or a better one. -/
def follows (d : Dev) (gm : Announced) : Bool :=
  gm.domain = d.get F.TIME_PTP_CFG_DOMAIN && gm.gptp == (d.get F.TIME_CTRL_PROFILE = 2)
    && (match d.clock.gm with | none => true | some x => x.gm = gm.gm || betterMaster gm x)

/-- A measurement on the path in use: θ and the mean path delay written, the hold or the servo fed (R422–R426). The default profile asks for the path delay
with a Delay_Req; no rule says how often (log entry 46, DESIGN CHOICE). -/
def ptpMeasure (d : Dev) (port : Nat) (raw : Int) (mpd : Nat) (logS : Int) (waits : Bool) : Dev :=
  let theta := raw - d.asymNow * 2 ^ 16
  let d : Dev := { d with clock := { d.clock with mpd := mpd } }
  let d : Dev := if d.get F.TIME_CTRL_PROFILE = 0 then d.emit (.ptpSent port 1) else d
  let d : Dev := (d.showTheta theta true).set F.TIME_MPD_MPD mpd
  match d.clock.hold with
  | some h =>
    let h := { h with meas := h.meas ++ [theta - (d.slewTotal - h.slew0)] }
    let d : Dev := { d with clock := { d.clock with hold := some h, thetas := (theta :: d.clock.thetas).take 255 } }
    let held := d.get (F.BLK_STAT_STATE timePage) = 3
    let d : Dev := if held || !d.servoRuns || d.bit F.TIME_STAT_HOLDOVER then d else (d.lockStep theta).servo theta logS
    if d.get F.TIME_PATH_HOLD_N ≤ h.meas.length then d.pathDecide h else d
  | none =>
    let d : Dev := if waits then d else { d with clock := { d.clock with thetas := (theta :: d.clock.thetas).take 255 } }
    if d.servoRuns && !d.bit F.TIME_STAT_HOLDOVER then (d.lockStep theta).servo theta logS else d

/-- PTP_SYNC: a measurement from a Sync of grandmaster `gm` through `key`: the offset before ASYM in 2^-16 ns, the mean path delay (28.4 ns), the
Sync interval 2^logS s (R422–R427). In holdover a change that a hold would follow waits for the return (log entry 46, DEDUCED). -/
def ptpSync (d : Dev) (key : PathKey) (gm : Announced) (raw : Int) (mpd : Nat) (logS : Int) : Dev :=
  if 2 ≤ key.port || !d.ocPort key.port || !d.enabled 5 || d.bit F.TIME_STAT_GM_ACTIVE || !d.follows gm then d
  else
    let heard := d.clock.gm.any (fun x => x.gm = gm.gm)
    let d := { d with clock := { d.clock with count := d.clock.count + 1, gm := if heard then some gm else d.clock.gm } }
    let d := if d.clock.clrAll && !d.frozen timePage then
        { d with clock := { d.clock with paths := [], clrAll := false } }.set F.TIME_PATH_ENTRY 0 else d
    -- another grandmaster, or the first: no path change
    let d := if heard then d
      else
        let c := { d.clock with gm := some gm, key := some key, hold := none, thetas := [], mpd := mpd, inLock := 0, outLock := 0, afresh := false }
        let d : Dev := { d with clock := c }
        let s := d.get (F.BLK_STAT_STATE timePage)
        if s = 2 ∨ s = 3 then d.setClockState 1 else d
    let d := d.clockRefresh
    let jump := d.get F.TIME_PATH_PATH_JUMP * 16 < ((mpd : Int) - d.clock.mpd).natAbs
    let changed := heard && (d.clock.key ≠ some key || jump || d.clock.afresh)
    let waits := changed && d.bit F.TIME_STAT_HOLDOVER && d.servoRuns && d.bit F.TIME_CTRL_PATH_LEARN
    let d := if waits then { d with clock := { d.clock with afresh := true } }
      else if changed then { d.pathChange key with clock := { (d.pathChange key).clock with afresh := false } }
      else { d with clock := { d.clock with key := some key } }
    -- the first path of all, and the present one after CLR_ALL, takes an entry with ASYM 0
    let d := if d.clock.paths = [] && d.clock.hold = none && !d.frozen timePage then d.pathEnter key 0 else d
    d.pathUse.pathShow.ptpMeasure key.port raw mpd logS waits

/-- MASTER_TIMEOUT: no master heard for 3 announce intervals (R424). -/
def masterTimeout (d : Dev) : Dev := { d with clock := { d.clock with gm := none } }.clockRefresh

/-! ### PPS (R415–R417) -/

/-- PPS_OUT_PULSE: a whole second of DT. -/
def ppsOutPulse (d : Dev) : Dev :=
  let s := d.now / 1000000000
  if d.bit F.TIME_PPS_OUT_EN && d.bit F.TIME_STAT_SET && d.now % 1000000000 < 2 && d.timing.ppsOut ≠ some s then
    { d with timing := { d.timing with ppsOut := some s } }.emit (.pulse .ppsOut (d.get F.TIME_PPS_WIDTH * 1000))
  else d

/-- PPS_IN: an edge, `quarter` × 250 ps after the present nanosecond. The edge selected is stamped; three in time make PPS_IN_OK; a grandmaster
takes its θ from it, and announces itself (R408, R416, R417). -/
def ppsIn (d : Dev) (rising : Bool) (quarter : Nat) : Dev :=
  if rising = d.bit F.TIME_PPS_IN_POL then d
  else
    let stamp := d.stampFine (quarter % 4)
    let t : Nat := stamp / 2 ^ 16
    let ok := d.bit F.TIME_STAT_PPS_IN_OK
    let gap : Int := (t : Int) - d.timing.ppsDt - 1000000000
    let run := if d.timing.ppsRun ≠ 0 ∧ gap.natAbs ≤ 100000 then d.timing.ppsRun + 1 else 1
    let theta : Int := (stamp : Int) - d.get F.TIME_GM_SEC_SEC * 1000000000 * 2 ^ 16
    let d := { d with timing := { d.timing with ppsAt := d.time.c, ppsDt := t, ppsRun := run } }
    let d := (d.setDt F.TIME_PPS_IN_LO_DT_LO F.TIME_PPS_IN_HI_DT_HI t).raise timePage 9
    let d := if d.bit F.TIME_STAT_GM_ACTIVE then
        let d := ((d.count F.TIME_GM_SEC_SEC).showTheta theta false).announce
        if d.servoRuns && !d.bit F.TIME_STAT_HOLDOVER then d.servo theta 0 else d
      else d
    if !ok && 3 ≤ run then (d.put F.TIME_STAT_PPS_IN_OK true).clockRefresh else d

/-- PPS_IN_TIMEOUT: 1.5 s without an edge. -/
def ppsInTimeout (d : Dev) : Dev :=
  if d.bit F.TIME_STAT_PPS_IN_OK && decide (1500000000 ≤ d.elapsed d.timing.ppsAt) then
    ({ d with timing := { d.timing with ppsRun := 0 } }.put F.TIME_STAT_PPS_IN_OK false).clockRefresh
  else d

/-! ### Loopbacks of the precision islands (R410) -/

/-- The largest |DEV|. -/
def worstDev (d : Dev) : Nat := (List.range 4).foldl (fun (m : Nat) i => max m (d.getS (F.TIME_ISL_DLY_DEV i)).natAbs) 0

/-- SKEW_MEASURE: the loopbacks remeasured. -/
def skewMeasure (d : Dev) (devs : List Int) : Dev :=
  if d.elapsed d.timing.skewAt < 10000000 then d
  else
    let d := { d with timing := { d.timing with skewAt := d.time.c } }
    let d := (List.range 4).foldl (fun (d : Dev) i => d.setS (F.TIME_ISL_DLY_DEV i) (devs.getD i 0)) d
    if 125 < d.worstDev then (d.put F.TIME_STAT_SKEW_WARN true).raise timePage 10 else d

/-- TIME_RECAL (0x53): the calibration of the islands named repeated; the corrections and deviations it arrives at. -/
def timeRecal (d : Dev) (dlys : List Nat) (devs : List Int) : Dev :=
  if !d.executing 0x53 then d
  else
    let m := if d.arg 0 % 16 = 0 then 15 else d.arg 0 % 16
    let d := (List.range 4).foldl (fun d i =>
      if m / 2 ^ i % 2 = 1 then (d.set (F.TIME_ISL_DLY_DLY i) (dlys.getD i 0)).setS (F.TIME_ISL_DLY_DEV i) (devs.getD i 0) else d) d
    let d := if d.worstDev ≤ 125 then d.put F.TIME_STAT_SKEW_WARN false else d
    d.complete .ok 0 [d.worstDev]

/-! ### PTM (R428) -/

/-- Whether a dialog pair is due: GO, or PERIOD ms since the last one, with the capability enabled by the host. -/
def ptmDue (d : Dev) : Bool :=
  d.feat 15 && d.bit F.TIME_PTM_CTRL_EN && d.pcie.ptmEn && (d.timing.ptmGo.isSome
    || (d.get F.TIME_PTM_CTRL_PERIOD ≠ 0 && decide (d.get F.TIME_PTM_CTRL_PERIOD * 1000000 ≤ d.elapsed d.timing.ptmAt)))

/-- PTM_DIALOG: two dialogs. The first request left `a1` ns and its response arrived `a4` ns ago, `t32` ns after its arrival at the root complex
had it left again; the second request left `b1` ns ago, when the root complex's time was `t2`. -/
def ptmDialog (d : Dev) (a1 a4 t32 b1 t2 : Nat) : Dev :=
  if !d.ptmDue then d
  else
    let delay := d.meanFree 0 (((a1 : Int) - a4) - t32) 2
    let d := { d with timing := { d.timing with ptmGo := none, ptmAt := d.time.c }, out := .ptmRequest :: .ptmRequest :: d.out }
    let d := d.setDt F.TIME_PTM_MASTER_LO_MASTER F.TIME_PTM_MASTER_HI_MASTER (uns 64 ((t2 : Int) - delay))
    let d := d.setDt F.TIME_PTM_LOCAL_LO_LOCAL F.TIME_PTM_LOCAL_HI_LOCAL (d.now - b1)
    ((((d.put F.TIME_PTM_STAT_VALID true).count F.TIME_PTM_STAT_SEQ).put F.TIME_PTM_STAT_ERR false).raise timePage 11).freeUsed

/-- PTM_TIMEOUT: a dialog without a response within 1 ms. -/
def ptmTimeout (d : Dev) : Dev :=
  if !d.ptmDue then d
  else
    let d := { d with timing := { d.timing with ptmGo := none, ptmAt := d.time.c }, out := .ptmRequest :: d.out }
    (d.put F.TIME_PTM_STAT_ERR true).hwError timePage .timeout 0

/-! ### The page (R403–R405, R414, R430) -/

/-- TIME_RATE_WRITE: a write of TIME_RATE_HI (R403). -/
def timeRateWrite (d : Dev) (hi : Nat) : Dev :=
  let r := d.get F.TIME_RATE_LO_RATE_F + hi % 2 ^ 32 * 2 ^ 32
  if d.servoRuns then d.refuse timePage 0x58 .busy
  else if 500 * 2 ^ 32 < ((r : Int) - 2 ^ 32).natAbs * 1000000 then d.refuse timePage 0x58 .range
  else d.setRate r

/-- TIME_SLEW_WRITE: a write of TIME_SLEW (R405). -/
def timeSlewWrite (d : Dev) (v : Nat) : Dev :=
  if d.slewing then d.refuse timePage 0x5C .busy else d.startSlew (sgn 32 v * 2 ^ 32)

/-- A write to a block register of the TIME page, past the gate. -/
def timeWrite (d : Dev) (off word : Nat) : Dev :=
  if off = 0x40 then
    d.featured timePage off word [(F.TIME_CTRL_PROFILE, 13), (F.TIME_CTRL_GM_EN, 14), (F.TIME_CTRL_SERVO_EN, 14)]
      (fieldOf F.TIME_CTRL_PROFILE word ≠ 3) (·.clockRefresh)
  else if off = 0x54 then (if d.servoRuns then d.refuse timePage off .busy else d.regWrite timePage off word)
  else if off = 0x58 then d.timeRateWrite word
  else if off = 0x5C then d.timeSlewWrite word
  else if off = 0x60 then
    d.limited timePage off word (1 ≤ fieldOf F.TIME_SLEW_CTRL_SLEW_MAX word && fieldOf F.TIME_SLEW_CTRL_SLEW_MAX word ≤ 500) (fun d' =>
      -- what was absorbed at the old rate stays absorbed
      { d.rebase with regs := d'.regs })
  else if off = 0x68 then d.timeSet word
  else if off = 0x70 then
    d.limited timePage off word (1 ≤ fieldOf F.TIME_SERVO_LOCK_NS word && 1 ≤ fieldOf F.TIME_SERVO_LOCK_CNT word)
  else if off = 0x7C then
    d.limited timePage off word (1 ≤ fieldOf F.TIME_PATH_PATH_JUMP word && 4 ≤ fieldOf F.TIME_PATH_HOLD_N word)
  else if off = 0x80 then
    d.limited timePage off word (1 ≤ fieldOf F.TIME_PATH_J_ASYM_MAX word && fieldOf F.TIME_PATH_J_ASYM_MAX word ≤ 32767)
  else if off = 0x84 then
    if fieldOf F.TIME_ASYM_CLR_ALL word = 1 then { d with clock := { d.clock with clrAll := true } } else d
  else if off = 0x88 then d.limited timePage off word (1 ≤ fieldOf F.TIME_PPS_WIDTH word) (·.ppsRest)
  else if off = 0x98 then
    d.limited timePage off word (1 ≤ fieldOf F.TIME_SCHED_CFG_HORIZON word && fieldOf F.TIME_SCHED_CFG_HORIZON word ≤ 500)
  else if off = 0x9C then
    d.featured timePage off (word - fieldOf F.TIME_PTM_CTRL_GO word * 2) [(F.TIME_PTM_CTRL_EN, 15)] true (fun d =>
      if fieldOf F.TIME_PTM_CTRL_GO word = 1 && d.bit F.TIME_PTM_CTRL_EN then
        { d with timing := { d.timing with ptmGo := some d.time.c } } else d)
  else if 0x100 ≤ off ∧ off < 0x300 then
    let n := (off - 0x100) / 0x20
    let r := (off - 0x100) % 0x20
    if r = 0 then d.schedCtrlWrite n word
    else if (r = 4 || r = 8 || r = 0xC || r = 0x10) && d.bit (F.TIME_SCHED_CTRL_ARM n) then d.refuse timePage off .busy
    else if r = 0xC then d.limited timePage off word (word = 0 || (100 ≤ word && d.get (F.TIME_SCHED_WIDTH_WIDTH n) < word))
    else if r = 0x10 then
      let w := fieldOf (F.TIME_SCHED_WIDTH_WIDTH n) word
      let p := d.get (F.TIME_SCHED_PERIOD_PERIOD n)
      d.limited timePage off word (10 ≤ w && (p = 0 || w < p))
    else d.regWrite timePage off word
  else d.regWrite timePage off word

/-- Words latched for the next read of each. -/
def timeLatch (d : Dev) (ws : List (Nat × Nat)) : Dev :=
  let l := d.timing.latch.filter (fun l => ws.all (fun w => w.1 ≠ l.1))
  { d with timing := { d.timing with latch := l ++ ws } }

/-- A read of a TIME register: the low word of a value latches its other words for the next read of each (R428, R430). -/
def timeRead (d : Dev) (off : Nat) : Dev × Nat :=
  let w := d.regWord timePage off
  if off = 0x48 then (d.timeLatch [(0x4C, d.now / 2 ^ 32), (0x50, d.stamp % 2 ^ 16)], d.now % 2 ^ 32)
  else if off = 0x8C then (d.timeLatch [(0x90, d.regWord timePage 0x90)], w)
  else if off = 0xA4 then (d.timeLatch ([0xA8, 0xAC, 0xB0].map (fun o => (o, d.regWord timePage o))), w)
  else if 0x100 ≤ off ∧ off < 0x300 ∧ off % 0x20 = 0x14 then (d.timeLatch [(off + 4, d.regWord timePage (off + 4))], w)
  else match d.timing.latch.find? (fun l => l.1 = off) with
    | some l => ({ d with timing := { d.timing with latch := d.timing.latch.filter (fun l => l.1 ≠ off) } }, l.2)
    | none =>
      if off = 0x4C then (d, d.now / 2 ^ 32)
      else if off = 0x50 then (d, d.stamp % 2 ^ 16)
      else if off = 0x5C then (d.freeUsed, uns 32 (d.meanFree 0 (d.time.slewLeft - d.slewed) (2 ^ 32)))
      else if off = 0x60 ∨ off = 0x6C then (d, d.slewShow.regWord timePage off)
      else (d, w)

/-- A read of a TIME register answered. -/
def timeReadOut (d : Dev) (off : Nat) : Dev := let r := d.timeRead off; r.1.emit (.readData (bar0 timePage off) r.2)

end Dev

/-! ### The meanings -/

def execTimeRateWrite (value : Nat) (s : State) : Answer := s.run (·.gated Dev.timePage 0x58 (·.timeRateWrite value))
def execTimeSet (value : Nat) (s : State) : Answer := s.run (·.gated Dev.timePage 0x68 (·.timeSet value))
def execTimeSlewWrite (value : Nat) (s : State) : Answer := s.run (·.gated Dev.timePage 0x5C (·.timeSlewWrite value))
def execSlewComplete (s : State) : Answer := s.run (·.slewComplete)
def execDtRebase (s : State) : Answer := s.run (·.rebase)
def execSkewMeasure (devs : List Int) (s : State) : Answer := s.run (·.skewMeasure devs)
def execTimeRecal (dlys : List Nat) (devs : List Int) (s : State) : Answer := s.run (·.timeRecal dlys devs)
def execSchedArm (n value : Nat) (s : State) : Answer :=
  s.run (fun d => if 16 ≤ n then d else d.gated Dev.timePage (0x100 + 0x20 * n) (·.schedCtrlWrite n value))
def execSchedAction (n : Nat) (s : State) : Answer := s.run (fun d => if 16 ≤ n then d else d.schedAction n)
def execPpsOutPulse (s : State) : Answer := s.run (·.ppsOutPulse)
def execPpsIn (edge : PpsEdge) (s : State) : Answer := s.run (·.ppsIn edge.rising edge.quarter)
def execPpsInTimeout (s : State) : Answer := s.run (·.ppsInTimeout)
def execPtpSync (port parent steps : Nat) (gm : Announced) (theta : Int) (mpd : Nat) (logS : Int) (s : State) : Answer :=
  s.run (·.ptpSync ⟨port, parent, steps⟩ gm theta mpd logS)
def execMasterTimeout (s : State) : Answer := s.run (·.masterTimeout)
def execAsymClrAll (s : State) : Answer := s.run (·.gated Dev.timePage 0x84 (·.timeWrite 0x84 0x8000_0000))
def execPtmDialog (a1 a4 t32 b1 t2 : Nat) (s : State) : Answer := s.run (·.ptmDialog a1 a4 t32 b1 t2)
def execPtmTimeout (s : State) : Answer := s.run (·.ptmTimeout)
def execTimeNowRead (off : Nat) (s : State) : Answer :=
  s.run (fun d => if 0x40 ≤ off ∧ off < 0x300 ∧ off % 4 = 0 then d.timeReadOut off else d)

end Sys2Proof.Machine
end

