-- ==== Sys2Proof/Machine/Traj.lean ====
section
/-! DEFINITION. Trajectory (R220–R242): the reference crossing time, the upper store, association, the free-fall solution, the chute average,
expiry and role changes. Comparisons that hold a square root are exact. -/

namespace Sys2Proof.Machine

/-- A sighting at its commit: world position in 2^-21 µm, T_REF in ns of DT, and whether it is eligible (R225). -/
structure Sighting where
  id       : Nat
  group    : Nat
  x        : Int
  tRef     : Int
  area     : Nat
  eligible : Bool
  seq      : Nat

/-- What the trajectory unit gives a record (R206, R236): `flags` is TRAJ_FLAGS. -/
structure TrajOut where
  tEj     : Int
  vx      : Int
  vy      : Int
  flags   : Nat
  entry   : Entry := .none
  partner : Nat := 0

namespace Dev

/-- T_REF of a body (R224): `yc` in 1/32 row, the first and last row's stamps in 2^-16 ns. -/
def tRefOf (d : Dev) (g firstIdx yc height firstT lastT : Nat) : Int :=
  let f : Int := (yc % 32 : Nat)
  let r := (firstIdx + yc / 32) % 2 ^ 32
  let far := match d.rowTime g r, (if yc % 32 = 0 then d.rowTime g r else d.rowTime g ((r + 1) % 2 ^ 32)) with
    | some t0, some t1 => some (t0, t1)
    | _, _ => none
  match far with
  | some (t0, t1) => (32 * t0 + f * (t1 - t0) + 16 * 65536) / (32 * 65536)
  | none =>
    let first : Int := (firstT / 65536 : Nat)
    let span : Int := (lastT / 65536 : Nat) - first
    let n : Int := max 1 (height - 1 : Nat)
    first + d.getS (F.TRAJ_GCFG_EXP_OFS g) + (yc * span + 16 * n) / (32 * n)

/-! ### Gaps (R228) -/

/-- 8,192 G: what a gap in ns is counted in. -/
def gapDen (d : Dev) : Int := 8192 * (d.grav : Int)

/-- Whether `q` × τ(v) ≥ t, for a raw velocity v. -/
def gapLe (d : Dev) (l : Nat) (v t q : Int) : Bool :=
  geRoot (125 * 10 ^ 9 * q * v - d.gapDen * t) (-(10 ^ 9 * q)) (d.upRad l v)

/-- Whether `q` × τ(v) ≤ t. -/
def gapGe (d : Dev) (l : Nat) (v t q : Int) : Bool :=
  geRoot (d.gapDen * t - 125 * 10 ^ 9 * q * v) (10 ^ 9 * q) (d.upRad l v)

def vyMin (d : Dev) : Int := d.get F.TRAJ_VLIM_VY_MIN * 65536
def vyMax (d : Dev) : Int := d.get F.TRAJ_VLIM_VY_MAX * 65536
def vyAvg (d : Dev) (l : Nat) : Int := d.getS (F.TRAJ_VY_AVG_VY_AVG l)

/-! ### The upper store (R225–R227) -/

/-- TRAJ_STORE_STAT and TRAJ_STORE_PEAK follow the store. -/
def storeShow (d : Dev) : Dev :=
  let n := d.seg.store.length
  (d.set F.TRAJ_STORE_STAT_USED n).set F.TRAJ_STORE_PEAK_PEAK (max (d.get F.TRAJ_STORE_PEAK_PEAK) n)

/-- An entry leaves the store, which then has a free entry. -/
def dropEntry (d : Dev) (id : Nat) : Dev :=
  { d with seg := { d.seg with store := d.seg.store.filter (fun e => e.id ≠ id), storeFull := false } }.storeShow

/-- A stored entry released as an orphan, and counted (R227). -/
def releaseEntry (d : Dev) (id : Nat) : Dev :=
  if d.seg.store.any (fun e => e.id = id) then
    ((d.dropEntry id).count F.TRAJ_CNT_ORPHAN_COUNT).releaseOrphan id
  else d

/-- Every entry of an upper group, or of all, released in commit order (R239, R240). -/
def releaseGroup (d : Dev) (u : Nat) : Dev :=
  (d.seg.store.filter (fun e => e.group = u)).foldl (fun d e => d.releaseEntry e.id) d
def releaseStore (d : Dev) : Dev := d.seg.store.foldl (fun d e => d.releaseEntry e.id) d

/-- R222 for every lower group. -/
def speedsBad (d : Dev) : Bool :=
  (List.range 8).any (fun l =>
    let vmin := d.get F.TRAJ_VLIM_VY_MIN
    let vmax := d.get F.TRAJ_VLIM_VY_MAX
    let sep := d.planeSep l
    let v := d.getS (F.TRAJ_VY_AVG_VY_AVG l)
    d.roleOf l = 2 && (vmax ≤ vmin || decide (vmin * vmin * 10 ^ 6 ≤ 2 * d.grav * sep) || decide (sep < vmax)
      || decide ((125 * v) * (125 * v) ≤ (2 * d.grav * sep * 2 ^ 26 : Nat))))

/-- At the end of a row of lower group l that was triggered at `t`, with the first-row crossing times of its open bodies: the entries beyond
T_REF + Δt_hi expire, under the settings of the last commit (R227, R242). Times in 2^-16 ns. -/
def expireAt (d : Dev) (l : Nat) (t : Int) : Dev :=
  let v := d.trajView
  let u := d.get (F.TRAJ_GCFG_PARTNER l)
  let ofs := v.getS (F.TRAJ_GCFG_EXP_OFS l) * 65536
  let lim := (d.segGroup l).openB.foldl (fun m b => min m ((b.firstT : Int) + ofs)) (t + ofs)
  (d.seg.store.filter (fun e => e.group = u && !v.gapLe l v.vyMin (lim - e.tRef * 65536) 65536)).foldl (fun d e => d.releaseEntry e.id) d

/-- The expiries still to be judged for the last labelled row of group g: after the commits of that row (R240). -/
def upperExpiry (d : Dev) (g : Nat) : Dev :=
  let x := d.segGroup g
  if !x.expDue || d.seg.closed.any (fun b => b.1.group = g) then d
  else
    let d := d.setSegGroup g { x with expDue := false }
    match x.last with
    | some (_, stamp) =>
      if d.roleOf g = 2 then d.expireAt g stamp else d
    | none => d

/-! ### Association (R228–R230) -/

/-- Δt of a pair, and e_x × 10^6 in 2^-21 µm. -/
def gapOf (s : Sighting) (e : StoreEntry) : Int := s.tRef - e.tRef
def sideOf (d : Dev) (s : Sighting) (e : StoreEntry) : Int :=
  (s.x - e.x) * 10 ^ 6 - 32 * d.getS (F.TRAJ_VX_AVG_VX_AVG s.group) * gapOf s e

/-- XWIN × 10^6 in 2^-21 µm. -/
def xwin (d : Dev) : Int := (d.get F.TRAJ_WIN_XWIN : Int) * 2 ^ 21 * 10 ^ 6

/-- Conditions 2 to 4 of R228. -/
def candidate (d : Dev) (s : Sighting) (e : StoreEntry) : Bool :=
  let ratio := d.get F.TRAJ_CTRL_AREA_RATIO
  d.gapGe s.group d.vyMax (gapOf s e) 1 && d.gapLe s.group d.vyMin (gapOf s e) 1
    && decide (((d.sideOf s e).natAbs : Int) ≤ d.xwin)
    && (decide (ratio = 0) || decide (max s.area e.area * 16 ≤ ratio * min s.area e.area))

/-- A candidate's score (R229) as P + Q√R over one common denominator. -/
def scoreOf (d : Dev) (s : Sighting) (e : StoreEntry) : Int × Int :=
  let R : Int := d.upRad s.group (d.vyAvg s.group)
  let a := gapOf s e * d.gapDen - 125 * 10 ^ 9 * d.vyAvg s.group
  let b : Int := 10 ^ 9
  let w := d.xwin
  let tn : Int := d.get F.TRAJ_WIN_TNORM * 1000
  ((a * a + b * b * R) * (w * w) + d.sideOf s e * d.sideOf s e * ((d.gapDen * tn) * (d.gapDen * tn)), 2 * a * b * (w * w))

/-- The common denominator of the scores. -/
def scoreDen (d : Dev) : Int := (d.gapDen * (d.get F.TRAJ_WIN_TNORM * 1000) * d.xwin) ^ 2

/-- Of candidates in commit order the one of least score; an equal score does not displace the earlier one. -/
def bestOf (d : Dev) (s : Sighting) (es : List StoreEntry) : Option StoreEntry :=
  let R := d.upRad s.group (d.vyAvg s.group)
  es.foldl (fun best e => match best with
    | none => some e
    | some b =>
      let p := d.scoreOf s e; let q := d.scoreOf s b
      if gtRoot (q.1 - p.1) (q.2 - p.2) R then some e else some b) none

/-- What association finds: a partner, several too close to tell, or none. -/
inductive Found where
  | pair (e : StoreEntry) | ambiguous | nobody

def associate (d : Dev) (s : Sighting) : Found :=
  if !s.eligible then .nobody
  else
    let es := (d.seg.store.filter (fun e => e.group = d.get (F.TRAJ_GCFG_PARTNER s.group))).filter (d.candidate s)
    let R := d.upRad s.group (d.vyAvg s.group)
    match d.bestOf s es with
    | none => .nobody
    | some b =>
      let p := d.scoreOf s b
      let close := fun (e : StoreEntry) =>
        let q := d.scoreOf s e
        gtRoot (16 * (p.1 - q.1) + d.get F.TRAJ_CTRL_AMBIG * d.scoreDen) (16 * (p.2 - q.2)) R
      if (es.filter (fun e => e.id ≠ b.id)).any close then .ambiguous else .pair b

/-! ### The free-fall solution (R232) and the average (R235–R238) -/

/-- 2 × 10^9 Δt × VY in µm/s. -/
def fallN (d : Dev) (l : Nat) (dt : Int) : Int := 2 * 10 ^ 18 * d.planeSep l + d.grav * dt * dt

/-- VY and VX of a pair, raw signed 16.16. -/
def measuredVy (d : Dev) (l : Nat) (dt : Int) : Int := satS 32 (roundTie (65536 * d.fallN l dt) (2 * 10 ^ 12 * dt))
def measuredVx (dx dt : Int) : Int := satS 32 (roundTie (dx * 10 ^ 6) (32 * dt))

/-- T_EJ of a pair. -/
def measuredEj (d : Dev) (l : Nat) (tRef dt : Int) : Int :=
  let n := d.fallN l dt
  tRef + rootTie (n * n + 8 * 10 ^ 18 * d.grav * d.heightOf l * dt * dt).toNat (-n + dt * d.grav) (2 * dt * d.grav)

/-- One step of an average towards v (R238). -/
def avgStep (d : Dev) (avg v : Int) : Int :=
  let n := d.get F.TRAJ_CTRL_AVG_SHIFT
  avg + (v - avg + 2 ^ (n - 1)) / 2 ^ n

/-- The averages of l after an associated sighting; one written since the last commit stands (R238). -/
def avgUpdate (d : Dev) (l : Nat) (vy vx : Int) : Dev :=
  let d' := if d.seg.avgWritten.contains (2 * l) then d
    else d.setS (F.TRAJ_VY_AVG_VY_AVG l) (d.avgStep (d.vyAvg l) vy)
  let d' := if d.seg.avgWritten.contains (2 * l + 1) then d'
    else d'.setS (F.TRAJ_VX_AVG_VX_AVG l) (d.avgStep (d.getS (F.TRAJ_VX_AVG_VX_AVG l)) vx)
  d'.countSat (F.TRAJ_GSTAT_AVG_N l)

/-- Observatory events of an associated sighting: residuals in µm/s and e_t in ns, fractions by free values 0 to 2 (log entry 20, DESIGN CHOICE). -/
def trajObserve (d : Dev) (s : Sighting) (e : StoreEntry) (vy vx : Int) : Dev :=
  let l := s.group
  let res := fun n (r : Int) => d.meanFree n (125 * r) 8192
  let q := d.gapDen
  let a := gapOf s e * q - 125 * 10 ^ 9 * d.vyAvg l
  let r := 10 ^ 18 * d.upRad l (d.vyAvg l)
  let et := floorRoot r a q + (if isqrt r * isqrt r = r ∧ ((isqrt r : Int) + a) % q = 0 then 0 else (d.freeAt 2 1 : Int))
  ((d.observe 0x38 0x06 l (res 0 (vy - d.vyAvg l))).observe 0x38 0x07 l (res 1 (vx - d.getS (F.TRAJ_VX_AVG_VX_AVG l)))).observe 0x38 0x08 l et

/-- Consecutive unassociated lower sightings (R237). -/
def runCount (d : Dev) (l : Nat) (assoc : Bool) : Dev :=
  if assoc then d.set (F.TRAJ_GSTAT_RUN l) 0
  else
    let d := d.countSat (F.TRAJ_GSTAT_RUN l)
    if d.get (F.TRAJ_GSTAT_RUN l) = 256 then d.raise 0x38 4 else d

/-- The group whose average a group takes: an upper group that of its lower group (R235). -/
def avgGroup (d : Dev) (g : Nat) : Nat := if d.roleOf g = 1 then (d.lowerOf g).getD g else g

/-- TRAJ_FLAGS as bits 15:8 of record word 0x04 (R236). -/
def trajFlags (d : Dev) (g cause : Nat) (fallback assoc : Bool) : Nat :=
  b2n (decide (d.get (F.TRAJ_GSTAT_AVG_N (d.avgGroup g)) < d.get F.TRAJ_CTRL_AVG_MIN)) * 64 + (if fallback then cause else 0) * 8
    + b2n fallback * 4 + b2n (decide (d.roleOf g = 1)) * 2 + b2n assoc

/-- A record under the chute average (R235). -/
def fallbackOut (d : Dev) (s : Sighting) (cause : Nat) (assoc : Bool) (entry : Entry) (partner : Nat) : TrajOut :=
  { tEj := d.fallbackEj s.group (2 * s.tRef), vx := d.vxAvg s.group, vy := d.vG s.group,
    flags := d.trajFlags s.group cause true assoc, entry := entry, partner := partner }

/-- An upper sighting (R225, R226). -/
def upperCommit (d : Dev) (s : Sighting) : Dev × TrajOut :=
  if !s.eligible then (d, d.fallbackOut s 4 false .orphan 0)
  else if 32768 ≤ d.seg.store.length then
    let out := d.fallbackOut s 5 false .orphan 0
    let d' := d.count F.TRAJ_CNT_STOREFULL_COUNT
    (if d.seg.storeFull then d' else ({ d' with seg := { d'.seg with storeFull := true } }).raise 0x38 3, out)
  else
    let d' := { d with seg := { d.seg with store := d.seg.store ++ [StoreEntry.mk s.id s.group s.x s.tRef.toNat s.area s.seq] } }
    (d'.storeShow, d.fallbackOut s 0 false .stored 0)

/-- A lower sighting (R228–R238). -/
def lowerCommit (d : Dev) (s : Sighting) : Dev × TrajOut := match d.associate s with
  | .ambiguous => ((d.count F.TRAJ_CNT_AMBIG_COUNT).runCount s.group false, d.fallbackOut s 1 false .none 0)
  | .nobody =>
    if s.eligible then ((d.count F.TRAJ_CNT_NONE_COUNT).runCount s.group false, d.fallbackOut s 0 false .none 0)
    else ((d.count F.TRAJ_CNT_INELIG_COUNT).runCount s.group false, d.fallbackOut s 4 false .none 0)
  | .pair e =>
    let dt := gapOf s e
    let vy := d.measuredVy s.group dt
    let vx := measuredVx (s.x - e.x) dt
    let out := if d.feat 4 then
        { tEj := d.measuredEj s.group s.tRef dt, vx := vx, vy := vy, flags := d.trajFlags s.group 0 false true, partner := e.id : TrajOut }
      else d.fallbackOut s 3 true .none e.id
    let d' := ((d.trajObserve s e vy vx).count F.TRAJ_CNT_ASSOC_COUNT).dropEntry e.id
    let d' := d'.updBody e.id (fun b => { b with entry := .claimed, partner := s.id })
    let d' := (d'.write (partnerOff (ctxOf e.id)) 4 s.id).write (partnerOff (ctxOf s.id)) 4 e.id
    let d' := if d.feat 4 && d.learns 0x38 12 then d'.avgUpdate s.group vy vx else d'
    (d'.runCount s.group true, out)

/-- The trajectory unit at the commit of a body (R225–R238). -/
def trajCommit (d : Dev) (s : Sighting) : Dev × TrajOut :=
  let d := d.write (partnerOff (ctxOf s.id)) 4 0
  let (d, out) := match d.roleOf s.group with
    | 1 => d.upperCommit s
    | 2 => d.lowerCommit s
    | _ => (d.count F.TRAJ_CNT_SINGLE_COUNT, d.fallbackOut s 2 false .none 0)
  ({ d with seg := { d.seg with avgWritten := [] } }, out)

/-! ### Role changes (R239) -/

/-- Lower group l becomes single-plane: its partner's entries are released, and the partner keeps v_g as its own average. -/
def roleSingle (d : Dev) (l : Nat) : Dev :=
  if d.roleOf l ≠ 2 then d
  else
    let u := d.get (F.TRAJ_GCFG_PARTNER l)
    let v := d.trajView.vG u
    let d := d.releaseGroup u
    ((d.set (F.TRAJ_GCFG_ROLE l) 3).set (F.TRAJ_GCFG_ROLE u) 3).setS (F.TRAJ_VY_AVG_VY_AVG u) v

/-- TRAJ_ROLE_CHANGE: a lower group's ROLE becomes 3 while sorting. -/
def trajRoleChange (d : Dev) (g : Nat) : Dev := if d.sorting then d.roleSingle g else d

/-- A write of TRAJ_STORE_PEAK; CLR sets PEAK to USED. -/
def storePeakClr (d : Dev) (value : Nat) : Dev :=
  d.gated 0x38 0x54 (fun d => if fieldOf F.TRAJ_STORE_PEAK_CLR value = 1 then d.set F.TRAJ_STORE_PEAK_PEAK (d.get F.TRAJ_STORE_STAT_USED) else d)

end Dev

/-! ### The meanings -/

def execUpperEntryExpiry (g : Nat) (s : State) : Answer := s.run (·.upperExpiry g)
def execTrajRoleChange (g : Nat) (s : State) : Answer := s.run (·.trajRoleChange g)
def execStorePeakClr (value : Nat) (s : State) : Answer := s.run (·.storePeakClr value)

end Sys2Proof.Machine
end

