-- ==== Sys2Proof/Machine/Calibration.lean ====
section
/-! DEFINITION. Calibration records: commit and restore (R473–R477), the APPLY of an illumination proposal (R480, R481), island margins and
re-planning (R482–R485), wear (R486), the registers of the NVM and ISL pages (R489). -/

namespace Sys2Proof.Machine

/-- INST of a kind lies within its unit's range (Table cal-1). -/
def calInstOk (kind inst : Nat) : Bool :=
  if kind = 0 ∨ kind = 1 ∨ kind = 3 ∨ kind = 8 then inst < 16
  else if kind = 4 ∨ kind = 6 ∨ kind = 7 then inst < 8
  else kind ≤ 12 && inst = 0

/-- The kinds that Vesper compares with the newest record (R475). -/
def calCompared (kind : Nat) : Bool := kind = 0 || kind = 1 || kind = 7

/-- Two coefficient entries differ by more than the limits (R475). -/
def coefMoved (plGain plDark a b : Nat) : Bool :=
  let x := coefOfWord a; let y := coefOfWord b
  decide (plGain < ((x.gain : Int) - y.gain).natAbs) || decide (plDark < ((bitsAt a 2 9 : Int) - bitsAt b 2 9).natAbs)
    || decide (x.defect = 0) != decide (y.defect = 0)

/-- The words of a payload. -/
def wordAt (bs : List Nat) (i : Nat) : Nat := leNat ((bs.drop (4 * i)).take 4)

namespace Dev

/-! ### The directory and the wear of its units (R471, R486) -/

def slotsOf (k : NvmKey) : List NvmSlot := k.a.toList ++ k.b.toList

/-- Whether a unit belongs to a slot of some key. -/
def unitUsed (d : Dev) (u : Nat) : Bool :=
  d.nvmKeys.any (fun k => (slotsOf k).any (fun s => decide (s.start ≤ u ∧ u < s.start + s.units)))

def unitFree (d : Dev) (u : Nat) : Bool := decide (u < 240) && !d.unitUsed u && !d.nvmRetired.contains u

/-- The first run of n free units. -/
def freeRun (d : Dev) (n : Nat) : Option Nat :=
  findBelow (fun u => (List.range n).all (fun i => d.unitFree (u + i))) 240

/-- NVM_STAT and NVM_WEAR. -/
def nvmShow (d : Dev) : Dev :=
  let worst := d.nvmWear.foldl (fun (m : Nat × Nat) e => if m.2 < e.2 then e else m) (0, 0)
  ((((d.set F.NVM_STAT_KEYS d.nvmKeys.length).set F.NVM_STAT_FREE_UNITS ((List.range 240).filter d.unitFree).length).set
    F.NVM_WEAR_MAX worst.2).set F.NVM_WEAR_UNIT_UNIT worst.1).set F.NVM_WEAR_UNIT_RETIRED d.nvmRetired.length

/-- One more write of a unit. -/
def wearUnit (d : Dev) (u : Nat) : Dev :=
  let n := Sparse.get d.nvmWear 0 u + 1
  let d := { d with nvmWear := Sparse.set d.nvmWear 0 u n }
  let d := if n = 90000000 then d.raise 9 4 else d
  if n = 100000000 then { d with nvmRetired := d.nvmRetired ++ [u] } else d

/-! ### What a record holds -/

/-- The bank that a commit reads: the one in force, or with bit 16 the other. -/
def pickBank (active : Nat) (inactive : Bool) : Nat := if inactive then 1 - active else active

/-- BANDS and LINE_LEN of a record header (Table cal-2). -/
def calShape (d : Dev) (kind inst : Nat) : Nat :=
  if kind ≤ 1 then (d.bands inst).length * 65536 + d.lineLen inst else 0

/-- The voltage code of an island; an engine's is its point's in force (R489). -/
def islCode (d : Dev) (i : Nat) : Nat :=
  if 21 ≤ i ∧ i ≤ 84 then (d.eng (i - 21)).points.getD (d.get (F.ENG_PT_ACT (i - 21))) 0 else d.get (F.ISL_PT_VCODE i)

/-- The payload of a record of (kind, inst) as the source stands (Table cal-1; the arrangement of the bytes is log entry 47, DEDUCED). -/
def calSource (d : Dev) (kind inst : Nat) (inactive : Bool) : List Nat :=
  let cor := pickBank (d.get F.COR_SWAP_ACTIVE) inactive
  let spec := pickBank (d.get F.SPEC_SWAP_ACTIVE) inactive
  match kind with
  | 0 => (List.range (d.bands inst).length).flatMap (fun b => d.bytes (coefOff cor inst b 0) (4 * d.lineLen inst))
  | 1 => (List.range (d.bands inst).length).flatMap (fun b => (List.range (d.lineLen inst)).flatMap (fun x =>
      leBytes 4 (bgWord { d.bgAt inst b x with age := 0 })))
  | 2 => wordsLe ((List.range 64).map (fun i => d.get (F.NR_MODEL_K i) * 2 ^ 12 + d.get (F.NR_MODEL_READ i)))
  | 3 => d.bytes (0x4_4004_0000 + pickBank (d.get F.GEO_SWAP_ACTIVE) inactive * 0x1000 + inst * 0x40) 0x40
  | 4 => d.bytes (specAt spec inst) 0x2000
  | 5 => d.bytes (0x4_4000_0000 + spec * 0x1_0000) 0x1_0000
  | 6 => d.bytes (mapOff (pickBank (d.get F.PLAN_SWAP_ACTIVE) inactive) (256 * inst)) 0x1000
  | 7 => d.bytes (latOff (256 * inst)) 0x1000
  | 8 => d.bytes (0x4_4007_0000 + inst * 0x200 + pickBank (d.get (F.SIG_CH_XF_ACTIVE inst)) inactive * 0x100) 0x100
  | 9 => wordsLe ((List.range 16).map (fun n => d.get (F.TRIM_CODE_CODE n)))
  | 10 => (List.range 96).map d.islCode ++ (List.range 64).flatMap (fun e => (List.range 4).map (fun p => (d.eng e).points.getD p 0))
  | 11 => wordsLe ((List.range 16).map (fun p => d.get (F.STI_OFS_OFS p)))
  | 12 => wordsLe ((List.range 8).flatMap (fun g =>
      if d.roleOf g = 1 then [uns 32 (d.vG g), uns 32 (d.vxAvg g)] else [d.get (F.TRAJ_VY_AVG_VY_AVG g), d.get (F.TRAJ_VX_AVG_VX_AVG g)]))
  | _ => []

/-- The acceptance rule of the source's block fails, with its DETAIL (R178, R187, R310). -/
def calRefused (d : Dev) (kind inst : Nat) (inactive : Bool) : Option Nat :=
  match kind with
  | 3 =>
    let g := d.groupOf inst
    if g < 8 ∧ d.geoPortBad (pickBank (d.get F.GEO_SWAP_ACTIVE) inactive) g inst then some inst else none
  | 4 => if d.specBad (pickBank (d.get F.SPEC_SWAP_ACTIVE) inactive) inst then some inst else none
  | 6 =>
    let b := pickBank (d.get F.PLAN_SWAP_ACTIVE) inactive
    if (List.range 256).any (fun j => d.entryBad b (256 * inst + j)) then some 0 else none
  | _ => none

/-- A refusal of valve-map entries names the lowest that fails (R310). -/
def calRefusal (d : Dev) (kind inst : Nat) (inactive : Bool) : Dev :=
  if kind ≠ 6 then d
  else match (List.range 256).find? (fun j => d.entryBad (pickBank (d.get F.PLAN_SWAP_ACTIVE) inactive) (256 * inst + j)) with
    | some j => d.set F.PLAN_MAP_ERR_INDEX (256 * inst + j)
    | none => d

/-- Whether two elements of a kind differ by more than the plausibility limits (R475). -/
def elementMoved (d : Dev) (kind a b : Nat) : Bool :=
  match kind with
  | 0 => coefMoved (d.get F.CAL_PLAUS0_PL_GAIN) (d.get F.CAL_PLAUS0_PL_DARK) a b
  | 1 => decide (d.get F.CAL_PLAUS1_PL_BG < (((bgOfWord a).bg : Int) - (bgOfWord b).bg).natAbs)
  | _ => decide (d.get F.PLAN_LEARN_RANGE_A_RANGE * 1000 < ((a : Int) - b).natAbs)

/-- The elements of a payload as (index, first word), by index in a record of line length `len` (kinds 0 and 1) or entry (kind 7). -/
def elements (kind : Nat) (bs : List Nat) : List Nat :=
  if kind = 7 then (List.range (bs.length / 16)).map (fun i => wordAt bs (4 * i)) else (List.range (bs.length / 4)).map (wordAt bs)

/-- The indices of the source's elements that have moved against the newest record; elements the record does not hold are not compared. -/
def movedElements (d : Dev) (kind inst : Nat) (src : List Nat) : List Nat :=
  match d.newest kind inst with
  | none => []
  | some s =>
    let old := elements kind (d.recPayload s)
    let len := d.lineLen inst; let len' := d.recWord s 4 % 65536
    (elements kind src).zipIdx.filterMap (fun e =>
      let j := if kind = 7 then some e.2 else if e.2 % len < len' then some (e.2 / len * len' + e.2 % len) else none
      match j.bind (fun j => old[j]?) with
      | some o => if d.elementMoved kind e.1 o then some e.2 else none
      | none => none)

/-! ### Commit (R473–R475) -/

/-- The bytes of a record (Table cal-2), CHECK over all that stands before it and the payload. -/
def recordBytes (d : Dev) (kind inst gen : Nat) (payload : List Nat) : List Nat :=
  let head := wordsLe ([recMagic, inst * 65536 + 0x100 + kind, gen, payload.length, d.calShape kind inst, d.now % 2 ^ 32, d.now / 2 ^ 32]
    ++ List.replicate 8 0)
  head ++ leBytes 4 (crc32c (head ++ payload)) ++ payload

/-- The bytes of the directory: a key of 16 bytes with its slots' first unit and length (0xFFFF_FFFF: no slot) and a check word (log entry 47, DESIGN
CHOICE: the spec gives no layout). -/
def dirBytes (ks : List NvmKey) : List Nat :=
  let slot := fun (s : Option NvmSlot) => match s with | some s => s.start + s.units * 65536 | none => 2 ^ 32 - 1
  ks.flatMap (fun k =>
    let bs := wordsLe [k.kind + k.inst * 256, slot k.a, slot k.b]
    bs ++ leBytes 4 (crc32c bs))

/-- The directory, with its two copies in MRAM below the calibration area (R471). -/
def setDirectory (d : Dev) (ks : List NvmKey) : Dev :=
  (({ d with nvmKeys := ks } : Dev).setMram 0x1_0000 (dirBytes ks)).setMram 0x8_0000 (dirBytes ks)

/-- Where a record of `len` payload bytes of a key goes: to slot B or A, whichever does not hold the newest record; the slot itself where it is large
enough, else a new run of units (R473). -/
def recordSlot (d : Dev) (k : NvmKey) (len : Nat) : Bool × Option NvmSlot :=
  let toB := !d.newestB k && d.validA k
  let units := (64 + len + 65535) / 65536
  let fresh := (d.freeRun units).map (fun u => ({ start := u, units := units } : NvmSlot))
  (toB, match (if toB then k.b else k.a) with
    | some s => if units ≤ s.units then some { s with torn := false } else fresh
    | none => fresh)

/-- The GEN of a key's next record. -/
def nextGen (d : Dev) (kind inst : Nat) : Nat := match d.newest kind inst with | some s => (d.recGen s + 1) % 2 ^ 32 | none => 1

/-- A record written into the slot that does not hold the newest one: GEN and the slot, or none for want of units (R473, R486). -/
def writeRecord (d : Dev) (kind inst : Nat) (payload : List Nat) : Dev × Option (Nat × Nat) :=
  let k := (d.nvmKey kind inst).getD { kind := kind, inst := inst }
  let known := (d.nvmKey kind inst).isSome
  let (toB, slot) := d.recordSlot k payload.length
  let units := (64 + payload.length + 65535) / 65536
  let gen := d.nextGen kind inst
  match slot with
  | none => (d.raise 9 6, none)
  | some s =>
    if !known ∧ 128 ≤ d.nvmKeys.length then (d.raise 9 6, none)
    else
      let k' := if toB then { k with b := some s } else { k with a := some s }
      let d := d.setMram (unitAt s.start) (d.recordBytes kind inst gen payload)
      let d := d.setDirectory (if known then d.nvmKeys.map (fun (x : NvmKey) => if x.kind = kind ∧ x.inst = inst then k' else x) else d.nvmKeys ++ [k'])
      let d := (List.range units).foldl (fun d i => d.wearUnit (s.start + i)) d
      ((d.count F.NVM_CNT_COMMIT_COUNT).nvmShow, some (gen, b2n toB))

/-- More than PL_PERMILLE per mille of the elements have moved (R475). -/
def implausible (d : Dev) (kind : Nat) (src moved : List Nat) : Bool :=
  decide (d.get F.CAL_PLAUS1_PL_PERMILLE * (elements kind src).length < 1000 * moved.length)

/-- A reset or power loss finds a CAL_COMMIT under way. Whether its record was being written, and how far, is open: if it was, the slot is invalid, and
the other slot is as it was (R472, R488; log entry 107, DESIGN CHOICE). A run of units that no key names yet stays unnamed. -/
def commitCut (d : Dev) : Dev :=
  let a := d.arg 0
  let kind := a % 256; let inst := a / 256 % 256; let inactive := decide (a / 2 ^ 16 % 2 = 1); let force := decide (a / 2 ^ 17 % 2 = 1)
  if !d.executing 0x50 || !calInstOk kind inst || (d.calRefused kind inst inactive).isSome then d
  else match d.nvmKey kind inst with
    | none => d
    | some k =>
      let src := d.calSource kind inst inactive
      let moved := if calCompared kind && !force then d.movedElements kind inst src else []
      match d.recordSlot k src.length with
      | (toB, some s) =>
        if d.implausible kind src moved || (if toB then k.b else k.a).all (fun x => x.start ≠ s.start) || d.freeVal 1 = 0 then d.freeUsed
        else
          let bs := d.recordBytes kind inst (d.nextGen kind inst) src
          let d := (d.setMram (unitAt s.start) (bs.take (d.freeAt 1 32 % bs.length))).freeUsed 2
          let cut := fun (x : NvmKey) => if toB then { x with b := some { s with torn := true } } else { x with a := some { s with torn := true } }
          let d := { d with nvmKeys := d.nvmKeys.map (fun (x : NvmKey) => if x.kind = kind ∧ x.inst = inst then cut x else x) }
          (List.range ((64 + src.length + 65535) / 65536)).foldl (fun d i => d.wearUnit (s.start + i)) d
      | (_, none) => d

/-- CAL_COMMIT (0x50). -/
def calCommit (d : Dev) : Dev :=
  if !d.executing 0x50 then d
  else
    let a := d.arg 0
    let kind := a % 256; let inst := a / 256 % 256; let inactive := decide (a / 2 ^ 16 % 2 = 1); let force := decide (a / 2 ^ 17 % 2 = 1)
    if !calInstOk kind inst then d.complete .range
    else match d.calRefused kind inst inactive with
    | some detail => (d.calRefusal kind inst inactive).complete .range detail
    | none =>
      let src := d.calSource kind inst inactive
      let moved := if calCompared kind && !force then d.movedElements kind inst src else []
      if d.implausible kind src moved then
        (d.count F.NVM_CNT_PLAUS_COUNT).complete .plausibility 0 [0, 0, moved.length, moved.headD 0]
      else match d.writeRecord kind inst src with
        | (d, some (gen, slot)) => d.complete .ok 0 [gen, slot, moved.length]
        | (d, none) => d.complete .nospace

/-! ### Restore (R476, R477) -/

/-- The slot that a restore uses, and whether it stands in for the one asked for. -/
def restoreSlot (d : Dev) (k : NvmKey) (older : Bool) : Option (NvmSlot × Bool) :=
  let bNewer := match k.a, k.b with
    | some a, some b => decide (0 < sgn 32 ((d.recGen b + 2 ^ 32 - d.recGen a) % 2 ^ 32))
    | none, _ => true
    | _, none => false
  let a := if d.validA k then k.a else none
  let b := if d.validB k then k.b else none
  let asked := if bNewer = older then a else b
  let other := if bNewer = older then b else a
  match asked, other with
  | some s, _ => some (s, false)
  | none, some s => some (s, true)
  | none, none => none

/-- Whether the destination bank of a kind waits for a swap (R476). -/
def destPending (d : Dev) (kind inst : Nat) : Bool :=
  match kind with
  | 0 => d.bit F.COR_SWAP_PEND
  | 3 => d.bit F.GEO_SWAP_PEND
  | 4 | 5 => d.bit F.SPEC_SWAP_PEND
  | 6 => d.bit F.PLAN_SWAP_PEND
  | 8 => d.bit (F.SIG_CH_XF_FADING inst)
  | _ => false

/-- The averages of group g restored as a driver write of them is taken: not on an upper group, whose registers are RO; a VY_AVG that R222 bars is left
out and recorded (R238, R242; log entry 47, DEDUCED). -/
def restoreAverages (bs : List Nat) (d : Dev) (g : Nat) : Dev :=
  if d.roleOf g = 1 then d
  else
    let d' := d.set (F.TRAJ_VY_AVG_VY_AVG g) (wordAt bs (2 * g))
    let bad := d.roleOf g = 2 && d.configuredToService && d'.speedsBad
    let d := (if bad then d.hwError 0x38 .range 0 else d').set (F.TRAJ_VX_AVG_VX_AVG g) (wordAt bs (2 * g + 1))
    { d with seg := { d.seg with avgWritten := d.seg.avgWritten ++ (if bad then [] else [2 * g]) ++ [2 * g + 1] } }

/-- The payload written to the destination of its kind (Table cal-1). -/
def restoreTo (d : Dev) (kind inst : Nat) (bs : List Nat) : Dev :=
  let spec := 1 - d.get F.SPEC_SWAP_ACTIVE
  match kind with
  | 0 => (List.range (d.bands inst).length).foldl (fun d b =>
      d.setBytes (coefOff (1 - d.get F.COR_SWAP_ACTIVE) inst b 0) ((bs.drop (b * 4 * d.lineLen inst)).take (4 * d.lineLen inst))) d
  | 1 => ((List.range (d.bands inst).length).foldl (fun d b =>
      d.setBytes (bgOff inst b 0) ((bs.drop (b * 4 * d.lineLen inst)).take (4 * d.lineLen inst))) d).refreshStale
  | 2 => (List.range 64).foldl (fun d i => d.putFields (wordAt bs i) [F.NR_MODEL_K i, F.NR_MODEL_READ i]) d
  | 3 => d.setBytes (0x4_4004_0000 + (1 - d.get F.GEO_SWAP_ACTIVE) * 0x1000 + inst * 0x40) bs
  | 4 => d.setBytes (specAt spec inst) bs
  | 5 => d.setBytes (0x4_4000_0000 + spec * 0x1_0000) bs
  | 6 => d.setBytes (mapOff (1 - d.get F.PLAN_SWAP_ACTIVE) (256 * inst)) bs
  | 7 => (List.range 256).foldl (fun d j =>
      let i := 256 * inst + j
      let was := d.latWord i / 2 ^ 23 % 2
      let d := d.setBytes (latOff i) ((bs.drop (16 * j)).take 16)
      d.countSuspect (was = 1) (d.latWord i / 2 ^ 23 % 2 = 1)) d
  | 8 => d.setBytes (0x4_4007_0000 + inst * 0x200 + (1 - d.get (F.SIG_CH_XF_ACTIVE inst)) * 0x100) bs
  | 9 => (List.range 16).foldl (fun d n => d.set (F.TRIM_CODE_CODE n) (wordAt bs n)) d
  | 10 =>
    let d := (List.range 96).foldl (fun d i => (d.set (F.ISL_PT_PROP i) (bs.getD i 0)).put (F.ISL_PT_PROP_VALID i) (!d.bit (F.ISL_PT_UNREG i))) d
    { d with isl := { d.isl with points := (List.range 64).map (fun e => (e, (bs.drop (96 + 4 * e)).take 4)) } }
  | 11 => (List.range 16).foldl (fun d p => d.stiOfsPut p (wordAt bs p % 65536)) d
  | 12 => (List.range 8).foldl (restoreAverages bs) d.trajKeep
  | _ => d

/-- CAL_RESTORE (0x51). -/
def calRestore (d : Dev) : Dev :=
  if !d.executing 0x51 then d
  else
    let a := d.arg 0
    let kind := a % 256; let inst := a / 256 % 256; let older := decide (a / 2 ^ 16 % 2 = 1)
    let remap := a / 2 ^ 17 % 2 = 1 ∧ (kind ≤ 1 ∨ kind = 3)
    let dest := if remap then inst + 8 else inst
    if !calInstOk kind inst ∨ !calInstOk kind dest then d.complete .range
    else match d.nvmKey kind inst with
    | none => d.complete .range 1
    | some k => match d.restoreSlot k older with
      | none => ((d.count F.NVM_CNT_CHECK_FAIL_COUNT).raise 9 3).complete .parity
      | some (s, fallback) =>
        let d := if fallback then (d.count F.NVM_CNT_CHECK_FAIL_COUNT).raise 9 3 else d
        if kind ≤ 1 ∧ d.recWord s 4 ≠ d.calShape kind dest then d.complete .range 2
        else if d.destPending kind dest then d.complete .busy
        else ((d.restoreTo kind dest (d.recPayload s)).count F.NVM_CNT_RESTORE_COUNT).complete .ok 0 [d.recGen s, b2n fallback]

/-! ### Illumination (R480, R481) -/

/-- APPLY of the proposal held. -/
def illumApply (d : Dev) : Dev :=
  if d.get F.CAL_ILLUM_METHOD = 1 then
    if !d.feat 20 then d.refuse 9 0x78 .feature
    else
      ((List.range 16).foldl (fun d n =>
        if d.bit (F.CAL_LAMP_PROP_VALID n) then
          (d.set (F.TRIM_CODE_CODE n) (d.get (F.CAL_LAMP_PROP_CODE n))).put (F.CAL_LAMP_PROP_VALID n) false
        else d) d).trimCtrlWrite 1
  else if d.get F.CAL_ILLUM_METHOD = 2 ∧ d.bit F.CAL_ILLUM_PROPOSAL then
    if d.bit F.COR_SWAP_PEND then d.refuse 9 0x78 .busy
    else
      let t := d.illumDt + d.get F.CAL_ILLUM_DELAY * 1000000
      let d := (d.set F.COR_SWAP_AT_LO_AT_LO (t % 2 ^ 32)).set F.COR_SWAP_AT_HI_AT_HI (t / 2 ^ 32)
      let d := d.swapAsk corSwap 3 (fun _ => none)
      (d.put F.CAL_ILLUM_PROPOSAL false).put F.CAL_ILLUM_PEND (d.bit F.COR_SWAP_PEND)
  else d

/-- A write of CAL_ILLUM: METHOD 3 and a DELAY of 0 are outside the limits. -/
def illumWrite (d : Dev) (word : Nat) : Dev :=
  d.limited 9 0x78 word (decide (fieldOf F.CAL_ILLUM_METHOD word ≠ 3 ∧ 1 ≤ fieldOf F.CAL_ILLUM_DELAY word)) (fun d =>
    let d := d.put F.CAL_ILLUM_APPLY false
    if fieldOf F.CAL_ILLUM_APPLY word = 1 then d.illumApply else d)

/-- A write to a block register of the NVM page, past the gate (R489). -/
def nvmWrite (d : Dev) (off word : Nat) : Dev :=
  if off = 0x70 then
    d.limited 9 off word (decide (1 ≤ fieldOf F.CAL_PLAUS0_PL_DARK word ∧ 1 ≤ fieldOf F.CAL_PLAUS0_PL_GAIN word ∧ fieldOf F.CAL_PLAUS0_PL_GAIN word ≤ 8191))
  else if off = 0x74 then
    d.limited 9 off word (decide (1 ≤ fieldOf F.CAL_PLAUS1_PL_BG word ∧ 1 ≤ fieldOf F.CAL_PLAUS1_PL_PERMILLE word
      ∧ fieldOf F.CAL_PLAUS1_PL_PERMILLE word ≤ 1000))
  else if off = 0x78 then d.illumWrite word
  else if off = 0x7C then
    d.limited 9 off word (decide (1 ≤ fieldOf F.CAL_ILLUM_LIM_GAIN_STEP word ∧ fieldOf F.CAL_ILLUM_LIM_GAIN_STEP word ≤ 1024
      ∧ 1 ≤ fieldOf F.CAL_ILLUM_LIM_TRIM_STEP word))
  else d.regWrite 9 off word

/-- The directory entry shown: its NVM_DIR registers (Table cal-6). -/
def nvmRead (d : Dev) (off : Nat) : Nat :=
  match d.nvmKeys[d.get F.NVM_DIR_SEL_KEY]? with
  | none => d.regWord 9 off
  | some k =>
    if off = 0x50 then
      b2n (d.validB k) * 2 ^ 31 + b2n (d.validA k) * 2 ^ 30 + b2n (d.newestB k) * 2 ^ 29 + k.inst * 2 ^ 16 + k.kind
    else if off = 0x54 then match k.a with | some s => d.recGen s | none => 0
    else if off = 0x58 then match k.b with | some s => d.recGen s | none => 0
    else d.regWord 9 off

/-! ### Island margins (R482–R485) -/

def isEngIsland (i : Nat) : Bool := 21 ≤ i && i ≤ 84
def islFixed (d : Dev) (i : Nat) : Bool := d.bit (F.ISL_PT_FIXED i)
def islUnreg (d : Dev) (i : Nat) : Bool := d.bit (F.ISL_PT_UNREG i)

/-- The initial codes of an engine's points (Table eng-8). -/
def pointInit : List Nat := [26, 14, 6, 0]

/-- The point of engine e that the rule acts on: a change that waits comes first (Table cal-5). -/
def rulePoint (d : Dev) (e : Nat) : Nat := if d.engines.ptWait.contains e then d.wantedPoint e else d.get (F.ENG_PT_ACT e)

/-- INIT of an island: for an engine, of the point that the rule acts on. -/
def islInitNow (d : Dev) (i : Nat) : Nat :=
  if isEngIsland i then pointInit.getD (d.rulePoint (i - 21)) 0 else d.get (F.ISL_PT_INIT i)

/-- The code that the rule acts on. -/
def ruleCode (d : Dev) (i : Nat) : Nat :=
  if isEngIsland i then (d.eng (i - 21)).points.getD (d.rulePoint (i - 21)) 0 else d.get (F.ISL_PT_VCODE i)

/-- The code given to an island; an engine's voltage follows in its turn of R34. -/
def setCode (d : Dev) (i v : Nat) : Dev :=
  if isEngIsland i then
    let e := i - 21
    let d := d.setEng e { d.eng e with points := setAt (d.eng e).points (d.rulePoint e) v }
    { d with engines := { d.engines with ptWait := d.engines.ptWait.filter (fun x => x ≠ e) ++ [e] } }
  else d.set (F.ISL_PT_VCODE i) v

/-- The code that the rule of R482 asks for. `high`: windows in a row above MGN_HI. -/
def codeAsked (d : Dev) (i slack canary high : Nat) : Nat :=
  let v := d.ruleCode i
  if 0 < canary then v + 2
  else if slack < d.get F.ISL_CFG_MGN_LO then v + 1
  else if d.get F.ISL_LIMIT_LOWER_HOLD * 3600 ≤ high ∧ d.islInitNow i < v then v - 1
  else v

/-- The ceiling of R483. -/
def islCeiling (d : Dev) (i : Nat) : Nat := min (d.islInitNow i + d.get F.ISL_LIMIT_HEADROOM) 30

/-- An engine that asks for more than its ceiling is capped; the cap ends with slack at the capped point (R483). -/
def islCap (d : Dev) (i slack : Nat) (more : Bool) : Dev :=
  if !isEngIsland i then d
  else
    let e := i - 21
    let act := d.rulePoint e
    let wait := fun (d : Dev) => ({ d with engines := { d.engines with ptWait := d.engines.ptWait.filter (fun x => x ≠ e) ++ [e] } } : Dev)
    match d.isl.caps.find? (fun c => c.1 = e) with
    | none => if more then wait { d with isl := { d.isl with caps := d.isl.caps ++ [(e, act)] } } else d
    | some c =>
      if c.2 = act ∧ d.get F.ISL_CFG_MGN_LO ≤ slack then wait { d with isl := { d.isl with caps := d.isl.caps.filter (fun c => c.1 ≠ e) } }
      else d

/-- The end of a window for one island. `auto`: steps are applied. -/
def islWindow (auto : Bool) (slacks canaries : List Nat) (d : Dev) (i : Nat) : Dev :=
  if d.islUnreg i then d
  else
    let slack := slacks.getD i 0 % 65536
    let canary := canaries.getD i 0
    let high := if canary = 0 ∧ d.get F.ISL_CFG_MGN_HI < slack then Sparse.get d.isl.high 0 i + 1 else 0
    let d := { d with isl := { d.isl with high := Sparse.set d.isl.high 0 i high } }
    let d := ((d.set (F.ISL_MGN_SLACK i) slack).set (F.ISL_MGN_CANARY i) (min canary 255)).count F.ISL_CANARY_HITS canary
    let asked := d.codeAsked i slack canary high
    let more := decide (d.islCeiling i < asked)
    let v := min asked (d.islCeiling i)
    -- the window's proposal replaces a restored one (R484)
    let d := { d with isl := { d.isl with points := d.isl.points.filter (fun p => p.1 + 21 ≠ i) } }
    let d := (d.set (F.ISL_PT_PROP i) v).put (F.ISL_PT_PROP_VALID i) true
    let d := if slack < d.get F.ISL_CFG_MGN_LO then d.raise 3 3 else d
    let d := if 0 < canary then d.raise 3 5 else d
    let d := if more then (d.put (F.ISL_PT_AGED i) true).raise 3 4 else d
    let was := d.ruleCode i
    if !auto ∨ d.islFixed i then d
    else
      let d := if v = was then d
        else
          let d := d.setCode i v
          let d := if was < v then d.count F.ISL_STEPS_UP (v - was) else d.count F.ISL_STEPS_DOWN (was - v)
          { d.raise 3 6 with isl := { d.isl with stepped := true } }
      d.islCap i slack more

/-- ISL_HEALTH (R487). -/
def islHealth (d : Dev) : Dev :=
  let is := (List.range 96).filter (fun i => !d.islUnreg i)
  let worst := is.foldl (fun (m : Option Nat) i => match m with
    | some j => if d.get (F.ISL_MGN_SLACK i) < d.get (F.ISL_MGN_SLACK j) then some i else some j
    | none => some i) none
  let w := worst.getD 0
  ((d.set F.ISL_HEALTH_AGED (is.filter (fun i => d.bit (F.ISL_PT_AGED i))).length).set F.ISL_HEALTH_WORST w).set
    F.ISL_HEALTH_WORST_SLACK (d.get (F.ISL_MGN_SLACK w))

/-- Vesper commits kind 10 after applied steps, at most once per 10 min (R485). -/
def islCommit (d : Dev) : Dev :=
  let due := match d.isl.commitAt with | some t => decide (600000000000 ≤ d.elapsed t) | none => true
  if !d.isl.stepped ∨ !due then d
  else
    let d := (d.writeRecord 10 0 (d.calSource 10 0 false)).1
    { d with isl := { d.isl with stepped := false, commitAt := some d.time.c } }

/-- MARGIN_WINDOW: the end of a window of 1 s, with the least slack and the canary hits of every island. Under throttle the measurement is
discarded (Table cal-5). -/
def marginWindow (d : Dev) (slacks canaries : List Nat) : Dev :=
  if d.elapsed d.isl.windowAt < 1000000000 then d
  else
    let d := { d with isl := { d.isl with windowAt := d.time.c } }
    if d.bit F.DEV_ENV_STAT_THROTTLE then d
    else ((List.range 96).foldl (islWindow (d.feat 21 && !d.frozen 3) slacks canaries) d).islHealth.islCommit

/-- The precision island of TIME_ISL_DLY index k (Tables cal-3 and time-6). -/
def precision : List (Nat × Nat) := [(0, 91), (1, 90), (2, 92), (3, 88)]

/-- A code within the ceiling that an INIT gives (R483). -/
def underCeiling (d : Dev) (init v : Nat) : Nat := min v (min (init + d.get F.ISL_LIMIT_HEADROOM) 30)

/-- One island moved by ISL_REPLAN: to its proposal, never above its ceiling, or to INIT (R483, R484). -/
def replanIsland (init : Bool) (d : Dev) (i : Nat) : Dev :=
  if d.islUnreg i then d
  else if isEngIsland i then
    let e := i - 21
    let x := d.eng e
    let asked := match d.isl.points.find? (fun p => p.1 = e) with
      | some p => p.2
      | none => if d.bit (F.ISL_PT_PROP_VALID i) then setAt x.points (d.rulePoint e) (d.get (F.ISL_PT_PROP i)) else x.points
    let pts := if init then pointInit else (List.range 4).map (fun p => d.underCeiling (pointInit.getD p 0) (asked.getD p 0))
    let d := d.setEng e { x with points := pts }
    { d with isl := { d.isl with points := d.isl.points.filter (fun p => p.1 ≠ e), stepped := true },
             engines := { d.engines with ptWait := d.engines.ptWait.filter (fun x => x ≠ e) ++ [e] } }
  else if init then { d.set (F.ISL_PT_VCODE i) (d.get (F.ISL_PT_INIT i)) with isl := { d.isl with stepped := true } }
  else if d.bit (F.ISL_PT_PROP_VALID i) then
    { d.set (F.ISL_PT_VCODE i) (d.underCeiling (d.get (F.ISL_PT_INIT i)) (d.get (F.ISL_PT_PROP i))) with isl := { d.isl with stepped := true } }
  else d

/-- ISL_REPLAN (0x52) with ARG0 bit 0 as `init`; `dlys` and `devs`: what the loopback calibration of a moved precision island arrives at. -/
def islReplan (d : Dev) (init : Bool) (dlys : List Nat) (devs : List Int) : Dev :=
  if !d.executing 0x52 ∨ (d.arg 0 % 2 = 1) ≠ init then d
  else
    let is := (List.range 96).filter (fun i => decide (d.arg (1 + i / 32) / 2 ^ (i % 32) % 2 = 1))
    if is.any d.islFixed && d.state ≠ 4 && d.state ≠ 8 then d.complete .state
    else
      let d := is.foldl (replanIsland init) d
      let d := precision.foldl (fun (d : Dev) k =>
        if is.contains k.2 then (d.set (F.TIME_ISL_DLY_DLY k.1) (dlys.getD k.1 0)).setS (F.TIME_ISL_DLY_DEV k.1) (devs.getD k.1 0) else d) d
      let d := if precision.any (fun k => is.contains k.2) && d.worstDev ≤ 125 then d.put F.TIME_STAT_SKEW_WARN false else d
      d.complete .ok

/-- A write to a block register of the ISL page, past the gate (R489). -/
def islWrite (d : Dev) (off word : Nat) : Dev :=
  if off = 0x40 then
    let lo := fieldOf F.ISL_CFG_MGN_LO word; let hi := fieldOf F.ISL_CFG_MGN_HI word
    d.limited 3 off word (decide (1 ≤ lo ∧ lo ≤ 999 ∧ lo < hi ∧ hi ≤ 1000))
  else if off = 0x44 then
    d.limited 3 off word (decide (1 ≤ fieldOf F.ISL_LIMIT_LOWER_HOLD word ∧ 1 ≤ fieldOf F.ISL_LIMIT_HEADROOM word
      ∧ fieldOf F.ISL_LIMIT_HEADROOM word ≤ 30))
  else d.regWrite 3 off word

/-- ISL_PTi of an engine shows the voltage of its point in force (R489). -/
def islRead (d : Dev) (off : Nat) : Nat :=
  let w := d.regWord 3 off
  let i := (off - 0x100) / 8
  if 0x100 ≤ off ∧ off % 8 = 0 ∧ isEngIsland i then w - w % 32 + d.get (F.ENG_PT_VCODE (i - 21)) else w

end Dev

/-! ### The commands of the chapter -/

def execCalCommit (s : State) : Answer := s.run (·.calCommit)
def execCalRestore (s : State) : Answer := s.run (·.calRestore)
def execIllumApply (value : Nat) (s : State) : Answer := s.run (·.gated 9 0x78 (·.illumWrite (value ||| 4)))
def execMarginWindow (slacks canaries : List Nat) (s : State) : Answer := s.run (·.marginWindow slacks canaries)
def execIslReplan (dlys : List Nat) (devs : List Int) (s : State) : Answer := s.run (·.islReplan false dlys devs)
def execIslReplanInit (dlys : List Nat) (devs : List Int) (s : State) : Answer := s.run (·.islReplan true dlys devs)

end Sys2Proof.Machine
end

