-- ==== Sys2Proof/Machine/Motion.lean ====
section
/-! DEFINITION. Motion feedback (R358–R379): quadrature counts and index, SSI reads, the tracking observer, direction and standstill, comparators,
repeat outputs, and the writes and reads of the MOT page. -/

namespace Sys2Proof.Machine

/-- π × 10^30. -/
def pi30 : Int := 3141592653589793238462643383280

/-- The phase of quadrature levels (A, B) in the forward order 00, 10, 11, 01 (R360). -/
def quadPhase (a b : Bool) : Nat := match a, b with
  | false, false => 0 | true, false => 1 | true, true => 2 | false, true => 3

/-- The number that a Gray code of `w` bits stands for. -/
def grayValue : Nat → Nat → Nat
  | 0, _ => 0
  | w + 1, v => v ^^^ grayValue w (v / 2)

namespace Dev

def motPage : Nat := 0x0F
def mot (d : Dev) (n : Nat) : Mot := Sparse.get d.mots {} n
def setMot (d : Dev) (n : Nat) (x : Mot) : Dev := { d with mots := Sparse.set d.mots {} n x }
def rep (d : Dev) (r : Nat) : MotRep := Sparse.get d.motReps {} r
def setRep (d : Dev) (r : Nat) (x : MotRep) : Dev := { d with motReps := Sparse.set d.motReps {} r x }

/-- The channel counts: enabled on an enabled page that is not OFFLINE (MOT_CHn_STAT.RUN). -/
def motRuns (d : Dev) (n : Nat) : Bool :=
  d.bit (F.MOT_CH_CFG_EN n) && d.enabled motPage && !d.offline motPage && !d.bit (F.BLK_CTRL_OFFLINE_REQ motPage)

def isSsi (d : Dev) (n : Nat) : Bool := d.bit (F.MOT_CH_CFG_KIND n)

/-- The position's registers. -/
def motShow (d : Dev) (n : Nat) : Dev :=
  let p := uns 48 (d.mot n).pos
  (d.set (F.MOT_CH_POS_LO_POS_LO n) (p % 2 ^ 32)).set (F.MOT_CH_POS_HI_POS_HI n) (p / 2 ^ 32)

/-! ### Repeat outputs (R376) -/

/-- The balls of a repeat output: A, B, Z. -/
def repPin (r k : Nat) : Pin := .motRep (3 * r + k)

def level (b : Bool) : Level := if b then .high else .low

/-- The outputs at the phase held. -/
def repDrive (d : Dev) (r : Nat) : Dev :=
  let p := (d.rep r).phase % 4
  (d.setPin (repPin r 0) (level (p = 1 || p = 2))).setPin (repPin r 1) (level (p = 2 || p = 3))

/-- The repeat output drives: enabled, its source running. -/
def repLive (d : Dev) (r : Nat) : Bool := d.bit (F.MOT_REP_EN r) && d.motRuns (d.get (F.MOT_REP_SRC r))

/-- Driven low, with nothing owed. -/
def repLow (d : Dev) (r : Nat) : Dev :=
  (((d.setRep r {}).setPin (repPin r 0) .low).setPin (repPin r 1) .low).setPin (repPin r 2) .low

/-- The repeat outputs after an enable, a source or a running state has changed. -/
def repRefresh (d : Dev) : Dev := (List.range 4).foldl (fun d r => if d.repLive r then d.repDrive r else d.repLow r) d

/-- `k` source counts through the divider: output counts, and what stays below it. -/
def divided (d : Dev) (r : Nat) (k : Int) : Int × Int :=
  let n : Int := d.get (F.MOT_REP_DIV_M1 r) + 1
  let t := (d.rep r).acc + k
  (t.tdiv n, t.tmod n)

/-- The repeat outputs of channel n after a move of `k` counts: at once for a quadrature source, spread over the next PERIOD for SSI. -/
def repMove (d : Dev) (n : Nat) (k : Int) : Dev :=
  (List.range 4).foldl (fun d r =>
    if d.repLive r && d.get (F.MOT_REP_SRC r) = n then
      let x := d.rep r
      let (out, acc) := d.divided r k
      if d.isSsi n then
        let left := if 0 ≤ x.total then x.total - x.done else x.total + x.done
        d.setRep r { x with acc := acc, total := left + out, done := 0, at_ := d.time.c }
      else (d.setRep r { x with acc := acc, phase := (((x.phase : Int) + out) % 4).toNat }).repDrive r
    else d) d

/-- The output counts of SSI repeats that have fallen due: even over PERIOD, at most one per 25 ns. -/
def repTick (d : Dev) : Dev :=
  (List.range 4).foldl (fun d r =>
    let x := d.rep r
    let n := d.get (F.MOT_REP_SRC r)
    if x.total = 0 || x.done = x.total.natAbs || !d.repLive r then d
    else
      let e := d.elapsed x.at_
      let owed := min x.total.natAbs (min (x.total.natAbs * e / (d.get (F.MOT_CH_SSI2_PERIOD n) * 1000)) (e / 25))
      if x.done < owed then
        let step := if 0 < x.total then owed - x.done else 3 * (owed - x.done)
        (d.setRep r { x with done := owed, phase := (x.phase + step) % 4 }).repDrive r
      else d) d

/-! ### Comparators (R374, R375) -/

def cmpTarget (d : Dev) (c : Nat) : Nat := d.get (F.MOT_CMP_TGT_LO_TGT_LO c) + d.get (F.MOT_CMP_TGT_HI_TGT_HI c) * 2 ^ 32

/-- Signed 48-bit difference a − b (R358). -/
def posDiff (a b : Int) : Int := sgn 48 (uns 48 (a - b))

/-- A comparator hit at DT `t` in ns. -/
def cmpHit (d : Dev) (c t : Nat) : Dev :=
  (((d.setDt (F.MOT_CMP_HIT_T_LO_DT_LO c) (F.MOT_CMP_HIT_T_HI_DT_HI c) t).put (F.MOT_CMP_CTRL_HIT c) true).put (F.MOT_CMP_CTRL_ARM c) false).raise
    motPage 7

/-- Arming a comparator judges a target already reached (R375). -/
def cmpJudge (d : Dev) (c : Nat) : Dev :=
  let x := d.mot (d.get (F.MOT_CMP_CTRL_SEL c))
  let ahead := posDiff (d.cmpTarget c) x.pos
  let dir := d.get (F.MOT_CMP_CTRL_DIR c)
  let past := (dir = 0 && decide (ahead ≤ 0)) || (dir = 1 && decide (0 ≤ ahead)) || (dir = 2 && decide (ahead = 0))
  if past && d.bit (F.MOT_CMP_CTRL_PAST c) then (d.cmpHit c d.now).put (F.MOT_CMP_CTRL_PASSED c) true else d

/-- A comparator armed by the write in hand. -/
def cmpArm (d : Dev) (c : Nat) : Dev := ({ d with cmpAt := Sparse.set d.cmpAt 0 c (d.time.c + 1) } : Dev).cmpJudge c

/-- The comparators of channel n on a move from p to p′; `inst` gives the instant of a position in ns. A comparator armed in this very nanosecond takes
the move as before its arming, and is judged at p′ (R378). -/
def cmpMove (d : Dev) (n : Nat) (p p' : Int) (inst : Int → Nat) : Dev :=
  (List.range 8).foldl (fun d c =>
    let T := p + posDiff (d.cmpTarget c) p
    let dir := d.get (F.MOT_CMP_CTRL_DIR c)
    let fwd := decide (p < T ∧ T ≤ p'); let bwd := decide (p' ≤ T ∧ T < p)
    if !d.bit (F.MOT_CMP_CTRL_ARM c) || d.get (F.MOT_CMP_CTRL_SEL c) ≠ n then d
    else if Sparse.get d.cmpAt 0 c = d.time.c + 1 then d.cmpJudge c
    else if (dir ≠ 1 && fwd) || (dir ≠ 0 && bwd) then d.cmpHit c (inst T) else d) d

/-- A write of MOT_CMPc_CTRL; the settings of an armed comparator written again as they stand are no change (R374, R375; log entry 37, DEDUCED). -/
def cmpCtrlWrite (d : Dev) (c word : Nat) : Dev :=
  let off := 0x200 + 0x20 * c
  let fs := [F.MOT_CMP_CTRL_SEL c, F.MOT_CMP_CTRL_DIR c, F.MOT_CMP_CTRL_PAST c]
  if fieldOf (F.MOT_CMP_CTRL_DIR c) word = 3 then d.refuse motPage off .range
  else
    let was := d.bit (F.MOT_CMP_CTRL_ARM c)
    let same := fs.all (fun f => fieldOf f word = d.get f)
    if was && !same then
      let d := d.refuse motPage off .busy
      let d := if fieldOf (F.MOT_CMP_CTRL_HIT c) word = 1 then d.put (F.MOT_CMP_CTRL_HIT c) false else d
      let d := if fieldOf (F.MOT_CMP_CTRL_PASSED c) word = 1 then d.put (F.MOT_CMP_CTRL_PASSED c) false else d
      let d := d.set (F.MOT_CMP_CTRL_ARM c) (fieldOf (F.MOT_CMP_CTRL_ARM c) word)
      if d.bit (F.MOT_CMP_CTRL_ARM c) then d.cmpArm c else d
    else
      let d := d.regWrite motPage off word
      if d.bit (F.MOT_CMP_CTRL_ARM c) then d.cmpArm c else d

/-! ### The observer, direction and standstill (R368–R371) -/

/-- The observer restarted at the present position with speed and acceleration 0; SETTLING is set (R369, R370). -/
def obsRestart (d : Dev) (n : Nat) : Dev :=
  let x := d.mot n
  let d := (d.setMot n { x with pHat := x.pos * 2 ^ 40, vHat := 0, aHat := 0, settleAt := d.time.c }).put (F.MOT_CH_STAT_SETTLING n) true
  (d.set (F.MOT_CH_SPEED_SPEED n) 0).set (F.MOT_CH_ACCEL_ACCEL n) 0

/-- OBSERVER_UPDATE: one step of 1 µs. The reported values are the state's, the last unit of each a free value (log entry 36, DESIGN CHOICE). -/
def observerUpdate (d : Dev) (n : Nat) : Dev :=
  let x := d.mot n
  if !d.motRuns n || d.elapsed x.obsAt < 1000 then d
  else if d.bit (F.MOT_CH_STAT_STILL n) then d.setMot n { x with obsAt := d.time.c, pHat := x.pos * 2 ^ 40, vHat := 0, aHat := 0 }
  else
    let bw : Int := d.get (F.MOT_CH_OBS_BW n)
    let e := x.pos * 2 ^ 40 - x.pHat
    -- ω × 10^30 in 1/s
    let w := 2 * pi30 * bw
    let x' := { x with obsAt := d.time.c
                       pHat := x.pHat + x.vHat / 10 ^ 6 + 3 * w * e / 10 ^ 36
                       vHat := x.vHat + x.aHat / 10 ^ 6 + 3 * w * w * e / 10 ^ 66
                       aHat := x.aHat + w * w * w * e / 10 ^ 96 }
    let fwd := d.bit (F.MOT_CH_STAT_DIR n)
    let v : Int := x'.vHat * 16 / 2 ^ 40 + (d.freeAt 0 1 : Int)
    let wrong := if fwd then decide (v < 0) else decide (0 < v)
    let a : Int := x'.aHat / 2 ^ 40 + (d.freeAt 1 1 : Int)
    let d := (d.setMot n x').freeUsed 2
    (d.setS (F.MOT_CH_SPEED_SPEED n) (if wrong then 0 else satS 32 v)).setS (F.MOT_CH_ACCEL_ACCEL n) (if wrong then 0 else satS 32 a)

/-- STILL: no count for STILL µs (R369). -/
def motStill (d : Dev) (n : Nat) : Dev :=
  let x := d.mot n
  if !d.motRuns n || d.bit (F.MOT_CH_STAT_STILL n) || d.elapsed x.countAt < d.get (F.MOT_CH_OBS_STILL n) * 1000 then d
  else
    let d := d.setMot n { x with pHat := x.pos * 2 ^ 40, vHat := 0, aHat := 0 }
    (((d.put (F.MOT_CH_STAT_STILL n) true).set (F.MOT_CH_SPEED_SPEED n) 0).set (F.MOT_CH_ACCEL_ACCEL n) 0).raise motPage 4

/-- SETTLING_END: 1 ÷ BW s after the restart. -/
def settlingEnd (d : Dev) (n : Nat) : Dev :=
  if d.bit (F.MOT_CH_STAT_SETTLING n) ∧ 10 ^ 9 ≤ d.elapsed (d.mot n).settleAt * d.get (F.MOT_CH_OBS_BW n) then d.put (F.MOT_CH_STAT_SETTLING n) false
  else d

/-- Direction after a move (R370). -/
def motDir (d : Dev) (n : Nat) : Dev :=
  let x := d.mot n
  let fwd := d.bit (F.MOT_CH_STAT_DIR n)
  let back := if fwd then x.ext - x.pos else x.pos - x.ext
  if (d.get (F.MOT_CH_LIM_HYST n) : Int) ≤ back then
    (((d.setMot n { x with ext := x.pos }).put (F.MOT_CH_STAT_DIR n) (!fwd)).raise motPage 3).obsRestart n
  else if back < 0 then d.setMot n { x with ext := x.pos }
  else d

/-! ### Moves (R358, R359, R372–R374) -/

/-- The channel's position moves by `k` counts with the stamp `t` in ns. -/
def motMove (d : Dev) (n : Nat) (k : Int) (t : Nat) : Dev :=
  let x := d.mot n
  if k = 0 then d.setMot n { x with stamp := t }
  else
    let p := x.pos; let p' := p + k; let t0 := x.stamp
    let still := d.bit (F.MOT_CH_STAT_STILL n)
    -- R373: the instant of a position, in 1/65,536 count, rounded to the nearest ns
    let inst := fun (q : Int) => ((t0 : Int) + roundTie (((t : Int) - t0) * (q - p * 2 ^ 16) * k.sign) (k.natAbs * 2 ^ 16)).toNat
    let at_ := fun (d : Dev) (q : Int) => if d.isSsi n then inst q else t
    let d := (d.setMot n { x with pos := p', stamp := t, countAt := d.time.c }).motShow n
    let d := d.setDt (F.MOT_CH_LAST_T_LO_DT_LO n) (F.MOT_CH_LAST_T_HI_DT_HI n) t
    let d := if still then (d.put (F.MOT_CH_STAT_STILL n) false).obsRestart n else d
    let d := d.motDir n
    let d0 := d
    let d := if 0 < k ∧ !d.bit (F.MOT_CH_STAT_FAULT n) ∧ !d.bit (F.MOT_CH_STAT_LOST n) then
        d.genEncoder n p p' (fun q => at_ d0 q * 2 ^ 16)
      else d
    (d.cmpMove n p p' (fun q => at_ d0 (q * 2 ^ 16))).repMove n k

/-- A glitch or an error counted; FAULT_LIMIT of them within 1 ms set FAULT (R363). -/
def motBad (d : Dev) (n : Nat) (cnt : Fld) : Dev :=
  let x := d.mot n
  let l := (x.bad.filter (fun t => decide (d.time.c - t < 1000000))) ++ [d.time.c]
  let d := (d.setMot n { x with bad := l }).count cnt
  if d.get (F.MOT_CH_LIM_FAULT_LIMIT n) ≤ l.length then (d.put (F.MOT_CH_STAT_FAULT n) true).raise motPage 5 else d

/-! #### Edge validation (R361, R362, R364)

The raw levels come with QUAD_COUNT and INDEX, at most one command of a channel for each 1 ns sample. What a method defers is accepted by the clock: at the
start of the nanosecond in which it falls due, before any command of that nanosecond (log entry 37, DESIGN CHOICE). -/

/-- METHOD 1's sampling instants: the multiples of 2^PRESCALE of the counter (log entry 37, DESIGN CHOICE). -/
def quadSampling (d : Dev) (n : Nat) : Bool := decide (d.time.c % 2 ^ d.get (F.MOT_CH_CFG_PRESCALE n) = 0)

/-- An input is to take the other level now: METHOD 0 once its raw level differs and MIN_EDGE has passed since the last acceptance, METHOD 1 at the
sample that follows N_STAB consecutive ones (R364). -/
def quadDue (d : Dev) (n : Nat) (q : QuadIn) : Bool :=
  if d.bit (F.MOT_CH_CFG_METHOD n) then decide (d.get (F.MOT_CH_CFG_N_STAB n) ≤ q.run) && d.quadSampling n
  else q.raw != q.level && decide (q.at_ + d.get (F.MOT_CH_CFG_MIN_EDGE n) ≤ d.time.c)

/-- The input after the acceptance, if any, that falls due now. -/
def quadTake (d : Dev) (n : Nat) (q : QuadIn) : QuadIn := if d.quadDue n q then { q with level := !q.level, at_ := d.time.c, run := 0 } else q

/-- The levels of A and B after an acceptance: one count with the stamp of its edge, or an error where both have changed (R359, R360). -/
def quadStep (d : Dev) (n : Nat) (a b : QuadIn) : Dev :=
  let x := d.mot n
  let k := (quadPhase a.level b.level + 4 - quadPhase x.a.level x.b.level) % 4
  let d := d.setMot n { x with a := a, b := b }
  if k = 0 then d
  else if k = 2 then d.motBad n (F.MOT_CH_CNT_ERRORS n)
  else d.motMove n (if (k = 1) != d.bit (F.MOT_CH_CFG_INVERT n) then 1 else -1) (if a.level = x.a.level then b.dt else a.dt)

/-- A validated rising edge of MOTn_Z (R365, R376). -/
def motIndex (d : Dev) (n : Nat) : Dev :=
  let d := (List.range 4).foldl (fun d r => if d.repLive r && d.get (F.MOT_REP_SRC r) = n then d.emit (.pulse (repPin r 2) 100) else d) d
  let x := d.mot n
  let z := d.get (F.MOT_CH_CFG_Z_MODE n)
  if z = 1 || (z = 2 && x.a.level && x.b.level) then
    let p := uns 48 x.pos
    ((((d.set (F.MOT_CH_IDX_LO_IDX_LO n) (p % 2 ^ 32)).set (F.MOT_CH_IDX_HI_IDX_HI n) (p / 2 ^ 32)).put (F.MOT_CH_STAT_INDEX_SEEN n) true)).raise motPage 8
  else d

/-- What Z accepts now. -/
def zAccept (d : Dev) (n : Nat) : Dev :=
  let z := (d.mot n).z
  let d' := d.setMot n { d.mot n with z := d.quadTake n z }
  if d.quadDue n z && !z.level then d'.motIndex n else d'

/-- What the inputs of a channel accept now: A and B together, then Z, which latches a position that has the counts of its own nanosecond (log entry 37,
DESIGN CHOICE). -/
def quadAccept (d : Dev) (n : Nat) : Dev := (d.quadStep n (d.quadTake n (d.mot n).a) (d.quadTake n (d.mot n).b)).zAccept n

def motGlitch (d : Dev) (n : Nat) (is : Bool) : Dev := if is then d.motBad n (F.MOT_CH_CNT_GLITCH n) else d

/-- The raw level of an input; with METHOD 0 an excursion that goes back before its acceptance is a glitch. -/
def quadRaw (d : Dev) (n : Nat) (q : QuadIn) (level : Bool) : Bool × QuadIn :=
  if level = q.raw then (false, q)
  else if d.bit (F.MOT_CH_CFG_METHOD n) then (false, { q with raw := level })
  else (q.raw != q.level, { q with raw := level, run := 0, dt := d.now })

/-- A sample of METHOD 1: a run that goes back before N_STAB samples is a glitch. -/
def quadSample (d : Dev) (q : QuadIn) : Bool × QuadIn :=
  if q.raw = q.level then (decide (0 < q.run), { q with run := 0 }) else (false, { q with run := q.run + 1, dt := if q.run = 0 then d.now else q.dt })

/-- The three inputs passed through `f`, which says of each whether a glitch ended there. -/
def quadInputs (d : Dev) (n : Nat) (f : Fin 3 → QuadIn → Bool × QuadIn) : Dev :=
  let x := d.mot n
  let ra := f 0 x.a; let rb := f 1 x.b; let rz := f 2 x.z
  (((d.setMot n { x with a := ra.2, b := rb.2, z := rz.2 }).motGlitch n ra.1).motGlitch n rb.1).motGlitch n rz.1

/-- An input that stands at a level. -/
def still (level : Bool) : QuadIn := { level := level, raw := level }

/-- QUAD_COUNT: the raw levels of A, B and Z at this nanosecond's sample; what the channel's validation accepts at once is counted (R360–R362). -/
def quadCount (d : Dev) (n : Nat) (a b z : Bool) : Dev :=
  if 4 ≤ n then d
  else if !d.motRuns n || d.isSsi n then d.setMot n { d.mot n with a := still a, b := still b, z := still z }
  else (d.quadInputs n (fun i q => d.quadRaw n q (if i = 0 then a else if i = 1 then b else z))).quadAccept n

/-- INDEX: the raw level of MOTn_Z; it passes validation as A and B do (R360–R362, R365). -/
def indexEdge (d : Dev) (n : Nat) (z : Bool) : Dev := d.quadCount n (d.mot n).a.raw (d.mot n).b.raw z

/-! ### Starting a channel (R358, R377) -/

/-- The channel starts: a quadrature channel at 0 with the input levels given, an SSI channel at its first valid read. The errors of the last 1 ms,
what a read of POS_LO latched, and LOST stay: the first ends by itself, the others by a read (R363, R367, R379). -/
def motStart (d : Dev) (n : Nat) (a b : Bool) : Dev :=
  let x := d.mot n
  let d := d.setMot n { a := still a, b := still b, z := still x.z.raw, countAt := d.time.c, obsAt := d.time.c, stamp := d.now, settleAt := d.time.c,
                        bad := x.bad, latch := x.latch }
  let d := ((d.put (F.MOT_CH_STAT_DIR n) true).put (F.MOT_CH_STAT_STILL n) false).put (F.MOT_CH_STAT_RUN n) true
  ((d.set (F.MOT_CH_SPEED_SPEED n) 0).set (F.MOT_CH_ACCEL_ACCEL n) 0).motShow n

/-- SCLK: high between reads on an SSI channel that runs or is withdrawn, low on a quadrature one. -/
def sclkIdle (d : Dev) (n : Nat) (on : Bool) : Dev := d.setPin (.motSclk n) (if d.isSsi n && on then .high else .low)

/-- Every channel after the page's ENABLE, OFFLINE or a channel's EN has changed; `was` says which ran before. -/
def motRefresh (d : Dev) (was : Nat → Bool) : Dev :=
  ((List.range 4).foldl (fun d n =>
    let x := d.mot n
    if d.motRuns n && !was n then (d.motStart n x.a.raw x.b.raw).sclkIdle n true
    else if !d.motRuns n then (d.put (F.MOT_CH_STAT_RUN n) false).sclkIdle n true else d) d).repRefresh

/-- MOT_CHANNEL_ENABLE: a write of MOT_CHn_CFG, the inputs standing at (a, b). -/
def motCfgWrite (d : Dev) (n word : Nat) (a b : Bool) : Dev :=
  let was := d.motRuns n
  d.limited motPage (0x100 + 0x40 * n) word
    (1 ≤ fieldOf (F.MOT_CH_CFG_MIN_EDGE n) word && 2 ≤ fieldOf (F.MOT_CH_CFG_N_STAB n) word && fieldOf (F.MOT_CH_CFG_Z_MODE n) word ≠ 3)
    (fun d =>
      let d := if d.motRuns n then (if was then d else d.motStart n a b) else d.put (F.MOT_CH_STAT_RUN n) false
      -- SCLK idles high on an SSI channel and is low on a quadrature one
      (d.sclkIdle n (d.motRuns n)).repRefresh)

/-! ### SSI (R366, R367) -/

/-- A read starts every PERIOD µs with its first falling edge of SCLK, from the start of the channel on (R366). -/
def ssiStart (d : Dev) (n : Nat) : Dev :=
  let x := d.mot n
  let due := match x.ssiAt with | none => true | some t => decide (d.get (F.MOT_CH_SSI2_PERIOD n) * 1000 ≤ d.elapsed t)
  if due then d.setMot n { x with ssiAt := some d.time.c, ssiDt := d.now, ssiOpen := true } else d

/-- An SSI error (R367). -/
def ssiError (d : Dev) (n : Nat) : Dev :=
  let x := d.mot n
  let d := ((d.setMot n { x with errs := x.errs + 1, ssiOpen := false }).motBad n (F.MOT_CH_CNT_ERRORS n)).raise motPage 6
  if d.get (F.MOT_CH_SSI2_ERR_LIMIT n) ≤ x.errs + 1 then d.put (F.MOT_CH_STAT_LOST n) true else d

/-- The first valid read, and the first after LOST: the channel restarts with P its value, zero-extended (R358, R367). -/
def ssiFirst (d : Dev) (n v t : Nat) : Dev :=
  let at_ := (d.mot n).ssiAt
  let d := if d.bit (F.MOT_CH_STAT_LOST n) then (d.motStart n (d.mot n).a.raw (d.mot n).b.raw).put (F.MOT_CH_STAT_LOST n) false else d
  let d := d.setMot n { d.mot n with pos := v, ext := v, value := some v, stamp := t, errs := 0, ssiAt := at_, ssiOpen := false, countAt := d.time.c,
                                     pHat := v * 2 ^ 40 }
  (d.motShow n).setDt (F.MOT_CH_LAST_T_LO_DT_LO n) (F.MOT_CH_LAST_T_HI_DT_HI n) t

/-- ns from the first falling edge of a frame to its last sample: BITS and parity clocks at 10 MHz ÷ (SCLK_DIV + 1) (R366; log entry 37, DEDUCED). -/
def ssiFrame (d : Dev) (n : Nat) : Nat :=
  (d.get (F.MOT_CH_SSI_BITS n) + d.get (F.MOT_CH_SSI_PARITY n)) * 100 * (d.get (F.MOT_CH_SSI_SCLK_DIV n) + 1)

/-- SSI_READ: the open read, whose first falling edge is `age` ns ago, ends: its data bits are `raw` and its parity bit `par`, or MOTn_A was low before
it (`low`). -/
def ssiRead (d : Dev) (n raw : Nat) (par low : Bool) (age : Nat) : Dev :=
  let x := d.mot n
  if 4 ≤ n || !d.motRuns n || !d.isSsi n || !x.ssiOpen || x.ssiAt.map d.elapsed ≠ some age || (!low && decide (age < d.ssiFrame n)) then d
  else
    let w := d.get (F.MOT_CH_SSI_BITS n)
    let raw := raw % 2 ^ w
    let v := if d.bit (F.MOT_CH_SSI_GRAY n) then grayValue w raw % 2 ^ w else raw
    let t := x.ssiDt - d.get (F.MOT_CH_SSI3_LAT n)
    let badPar := d.bit (F.MOT_CH_SSI_PARITY n) && decide ((popCount w raw + b2n par) % 2 = 1)
    if low || badPar then d.ssiError n
    else match x.value with
      | none => d.ssiFirst n v t
      | some p =>
        let m := sgn w ((v + 2 ^ w - p) % 2 ^ w)
        if d.get (F.MOT_CH_SSI3_MAX_JUMP n) < m.natAbs then d.ssiError n
        else if d.bit (F.MOT_CH_STAT_LOST n) then d.ssiFirst n v t
        else (d.setMot n { x with value := some v, errs := 0, ssiOpen := false }).motMove n (if d.bit (F.MOT_CH_CFG_INVERT n) then -m else m) t

/-! ### The clock (R361, R362, R366) -/

/-- The quadrature channels that run, through `f`. -/
def quadRunning (d : Dev) (f : Dev → Nat → Dev) : Dev :=
  (List.range 4).foldl (fun d n => if d.motRuns n && !d.isSsi n then f d n else d) d

/-- The end of a nanosecond: METHOD 1 takes its samples. -/
def motTickEnd (d : Dev) : Dev :=
  d.quadRunning (fun d n => if d.bit (F.MOT_CH_CFG_METHOD n) && d.quadSampling n then d.quadInputs n (fun _ q => d.quadSample q) else d)

/-- The start of a nanosecond: what falls due in it is accepted, and SSI reads start. -/
def motTick (d : Dev) : Dev :=
  (List.range 4).foldl (fun d n => if d.motRuns n && d.isSsi n then d.ssiStart n else d) (d.quadRunning (·.quadAccept ·))

/-- At CONFIGURE: a PERIOD shorter than the frame of BITS and parity clocks plus MONO (R366). -/
def ssiBad (d : Dev) : Bool :=
  (List.range 4).any (fun n => d.isSsi n && decide (d.get (F.MOT_CH_SSI2_PERIOD n) * 1000 < d.ssiFrame n + d.get (F.MOT_CH_SSI_MONO n) * 1000))

/-! ### The page (R377, R379) -/

/-- A write to a block register of the MOT page, past the gate. -/
def motWrite (d : Dev) (off word : Nat) : Dev :=
  if 0x100 ≤ off ∧ off < 0x200 then
    let n := (off - 0x100) / 0x40
    let r := (off - 0x100) % 0x40
    let bits := if r = 4 then fieldOf (F.MOT_CH_SSI_BITS n) word else d.get (F.MOT_CH_SSI_BITS n)
    let jump := if r = 0xC then fieldOf (F.MOT_CH_SSI3_MAX_JUMP n) word else d.get (F.MOT_CH_SSI3_MAX_JUMP n)
    if r = 0 then d.motCfgWrite n word (d.mot n).a.raw (d.mot n).b.raw
    else if r = 4 then
      d.limited motPage off word (8 ≤ bits && bits ≤ 32 && fieldOf (F.MOT_CH_SSI_SCLK_DIV n) word ≤ 99 && 1 ≤ fieldOf (F.MOT_CH_SSI_MONO n) word
        && fieldOf (F.MOT_CH_SSI_MONO n) word ≤ 100 && jump < 2 ^ (bits - 1))
    else if r = 8 then
      d.limited motPage off word (5 ≤ fieldOf (F.MOT_CH_SSI2_PERIOD n) word && 1 ≤ fieldOf (F.MOT_CH_SSI2_ERR_LIMIT n) word)
    else if r = 0xC then d.limited motPage off word (jump < 2 ^ (bits - 1))
    else if r = 0x10 then
      d.limited motPage off word (10 ≤ fieldOf (F.MOT_CH_OBS_STILL n) word && 10 ≤ fieldOf (F.MOT_CH_OBS_BW n) word
        && fieldOf (F.MOT_CH_OBS_BW n) word ≤ 10000)
    else if r = 0x14 then
      d.limited motPage off word (1 ≤ fieldOf (F.MOT_CH_LIM_FAULT_LIMIT n) word && 1 ≤ fieldOf (F.MOT_CH_LIM_HYST n) word)
    else d.regWrite motPage off word
  else if 0x200 ≤ off ∧ off < 0x300 then
    let c := (off - 0x200) / 0x20
    let r := (off - 0x200) % 0x20
    if r = 0 then d.cmpCtrlWrite c word
    else if (r = 4 || r = 8) && d.bit (F.MOT_CMP_CTRL_ARM c) then d.refuse motPage off .busy
    else d.regWrite motPage off word
  else if 0x300 ≤ off ∧ off < 0x310 then
    let r := (off - 0x300) / 4
    (if d.get (F.MOT_REP_SRC r) ≠ fieldOf (F.MOT_REP_SRC r) word then d.repLow r else d).regWrite motPage off word |>.repRefresh
  else d.regWrite motPage off word

/-- A read of a channel register: POS_LO latches POS_HI, SPEED, ACCEL and STAT for the next read of each; those give and drop what is latched
(R379). -/
def motRead (d : Dev) (off : Nat) : Dev × Nat :=
  let w := d.regWord motPage off
  if 0x100 ≤ off ∧ off < 0x200 then
    let n := (off - 0x100) / 0x40
    let r := (off - 0x100) % 0x40
    let x := d.mot n
    if r = 0x18 then
      (d.setMot n { x with latch := [0x1C, 0x20, 0x24, 0x28].map (fun k => (k, d.regWord motPage (off - 0x18 + k))) }, w)
    else match x.latch.find? (fun l => l.1 = r) with
      | some l => (d.setMot n { x with latch := x.latch.filter (fun l => l.1 ≠ r) }, l.2)
      | none => (d, w)
  else if 0x200 ≤ off ∧ off < 0x300 then
    let c := (off - 0x200) / 0x20
    if (off - 0x200) % 0x20 = 0xC then
      ({ d with hitLatch := (d.hitLatch.filter (fun l => l.1 ≠ c)) ++ [(c, d.regWord motPage (off + 4))] }, w)
    else if (off - 0x200) % 0x20 = 0x10 then
      match d.hitLatch.find? (fun l => l.1 = c) with
      | some l => ({ d with hitLatch := d.hitLatch.filter (fun l => l.1 ≠ c) }, l.2)
      | none => (d, w)
    else (d, w)
  else (d, w)

/-- A read of a MOT register answered. -/
def motReadOut (d : Dev) (off : Nat) : Dev := let r := d.motRead off; r.1.emit (.readData (bar0 15 off) r.2)

end Dev

/-! ### The meanings -/

def execQuadCount (n : Nat) (a b z : Bool) (s : State) : Answer := s.run (·.quadCount n a b z)
def execIndex (level : IndexLevel) (s : State) : Answer := s.run (·.indexEdge level.n level.z)
def execSsiRead (n raw : Nat) (par low : Bool) (age : Nat) (s : State) : Answer := s.run (·.ssiRead n raw par low age)
def execObserverUpdate (n : Nat) (s : State) : Answer := s.run (·.observerUpdate n)
def execStill (n : Nat) (s : State) : Answer := s.run (·.motStill n)
def execSettlingEnd (n : Nat) (s : State) : Answer := s.run (·.settlingEnd n)
def execMotChannelEnable (n value : Nat) (a b : Bool) (s : State) : Answer :=
  s.run (fun d => if 4 ≤ n then d else d.gated Dev.motPage (0x100 + 0x40 * n) (·.motCfgWrite n value a b))
def execCmpArm (c value : Nat) (s : State) : Answer :=
  s.run (fun d => if 8 ≤ c then d else d.gated Dev.motPage (0x200 + 0x20 * c) (·.cmpCtrlWrite c value))
def execPosRead (n : Nat) (s : State) : Answer := s.run (fun d => if 4 ≤ n then d else d.motReadOut (0x118 + 0x40 * n))
def execHitTRead (c : Nat) (s : State) : Answer := s.run (fun d => if 8 ≤ c then d else d.motReadOut (0x20C + 0x20 * c))

end Sys2Proof.Machine
end

