-- ==== Sys2Proof/Machine/Observatory.lean ====
section
/-! DEFINITION. The Observatory and the CRC units (R490–R503). -/

namespace Sys2Proof.Machine

/-- The bin of a sample u (R492). -/
def obsBin (log2 : Bool) (shift : Nat) (u : Int) : Nat :=
  if u < 0 then 0
  else if log2 then
    if u < 2 ^ shift then 1 else if 2 ^ (shift + 29) ≤ u then 31 else Nat.log2 u.toNat - shift + 2
  else
    let i := u.toNat / 2 ^ shift
    if 30 ≤ i then 31 else i + 1

/-- A sample of value v accumulated (R492, R493). -/
def MonSet.take (m : MonSet) (bin : Nat) (v : Int) : MonSet :=
  { m with bins := Sparse.set m.bins 0 bin (satInc 32 (Sparse.get m.bins 0 bin)), count := satInc 32 m.count, sum := satS 64 (m.sum + v),
           min := if v < m.min then v else m.min, max := if m.max < v then v else m.max }

/-- Item `i` of a set (R497). -/
def MonSet.item (m : MonSet) (i : Nat) : Nat :=
  if i < 32 then Sparse.get m.bins 0 i
  else if i = 32 then m.count
  else if i = 33 then uns 64 m.sum % 2 ^ 32
  else if i = 34 then uns 64 m.sum / 2 ^ 32
  else if i = 35 then uns 32 m.min
  else if i = 36 then uns 32 m.max
  else if i = 37 then m.start % 2 ^ 32
  else if i = 38 then m.start / 2 ^ 32 % 2 ^ 32
  else if i = 39 then Nat.min m.drop 65535
  else 0

/-- The highest INST of a source and the feature it needs (Table obs-1). -/
def obsSource (src : Nat) : Option (Nat × Nat) :=
  if src = 3 then some (7, 5) else if src = 4 then some (63, 5)
  else if src = 1 ∨ src = 2 ∨ (5 ≤ src ∧ src ≤ 8) then some (7, 0)
  else if 9 ≤ src ∧ src ≤ 0xB then some (15, 0)
  else if src = 0xC ∨ src = 0xD then some (7, 8)
  else if src = 0xE ∨ src = 0xF then some (15, 19)
  else if src = 0x10 then some (99, 0)
  else if 0x11 ≤ src ∧ src ≤ 0x13 then some (0, 0)
  else none

namespace Dev

abbrev obsPage : Nat := 0x0B
abbrev chkPage : Nat := 0x0A

def monitor (d : Dev) (m : Nat) : Monitor := Sparse.get d.monitors {} m
def setMonitor (d : Dev) (m : Nat) (x : Monitor) : Dev := { d with monitors := Sparse.set d.monitors {} m x }

/-- The Observatory takes events. -/
def obsRuns (d : Dev) : Bool := d.enabled obsPage && !d.offline obsPage

/-- One sample of value v into monitor m. -/
def obsTake (d : Dev) (m : Nat) (v : Int) : Dev :=
  let x := d.monitor m
  let u := v - d.getS (F.OBS_MON_BASE_BASE m)
  let u := if d.bit (F.OBS_MON_CFG_ABS m) then (u.natAbs : Int) else u
  d.setMonitor m { x with live := x.live.take (obsBin (d.bit (F.OBS_MON_CFG_LOG2 m)) (d.get (F.OBS_MON_CFG_SHIFT m)) u) v }

/-- OBS_SAMPLE: monitor m takes its oldest queued event (R491). -/
def obsSample (d : Dev) (m : Nat) : Dev :=
  let x := d.monitor m
  match x.queue with
  | v :: rest => if 32 ≤ m || !d.obsRuns || !d.bit (F.OBS_MON_CFG_EN m) then d else (d.setMonitor m { x with queue := rest }).obsTake m v
  | [] => d

/-- The payload of a monitor's SNAPSHOT record (Table obs-2). -/
def snapPayload (d : Dev) (m : Nat) : List Nat :=
  let s := (d.monitor m).snap
  wordsLe ([m, d.regWord obsPage (0x100 + 8 * m), d.regWord obsPage (0x104 + 8 * m)] ++ [32, 33, 34, 35, 36, 37, 38].map s.item
    ++ [d.get F.OBS_SNAP_SEQ_SEQ, s.item 39] ++ (List.range 32).map s.item)

/-- A snapshot of every enabled monitor of the mask (R495, R496). -/
def snapshot (d : Dev) : Dev :=
  let ms := (List.range 32).filter (fun m => d.bit (F.OBS_MON_CFG_EN m) && d.testBit F.OBS_SNAP_MASK_MASK m)
  let clr := d.bit F.OBS_CTRL_CLR
  let d := ms.foldl (fun d m =>
    let x := d.monitor m
    d.setMonitor m { x with snap := x.live, live := if clr then { start := d.now } else x.live }) d
  let d : Dev := { d with obs := { d.obs with snapC := some d.time.c } }
  let d := ((d.count F.OBS_SNAP_SEQ_SEQ).setDt F.OBS_SNAP_DT_LO_DT F.OBS_SNAP_DT_HI_DT d.now).raise obsPage 3
  if d.bit F.OBS_CTRL_REC then ms.foldl (fun d m => d.report 2 3 0 (d.snapPayload m)) d else d

/-- A snapshot asked for in the cycle of another is that one (R495). -/
def snapOnce (d : Dev) : Dev := if d.obs.snapC = some d.time.c then d else d.snapshot

/-- OBS_SNAP: a write of OBS_CTRL. -/
def obsCtrlWrite (d : Dev) (word : Nat) : Dev :=
  let d := d.putFields word [F.OBS_CTRL_PERIOD, F.OBS_CTRL_REC, F.OBS_CTRL_CLR]
  if fieldOf F.OBS_CTRL_SNAP word = 1 && d.obsRuns then d.snapOnce else d

/-- OBS_PERIODIC_SNAP: PERIOD ms have passed. -/
def obsPeriodic (d : Dev) : Dev :=
  let p := d.get F.OBS_CTRL_PERIOD
  if p = 0 || !d.obsRuns || decide (d.elapsed d.obs.snapAt < p * 1000000) then d
  else { d with obs := { d.obs with snapAt := d.time.c } }.snapOnce

/-- OBS_TEST_WRITE: in TEST, one sample for every enabled monitor (R498). -/
def obsTestWrite (d : Dev) (value : Nat) : Dev :=
  if d.testing obsPage && d.enabled obsPage then
    (List.range 32).foldl (fun d m => if d.bit (F.OBS_MON_CFG_EN m) then d.obsTake m (sgn 32 value) else d) d
  else d

/-- OBS_MONITOR_ENABLE: a write of OBS_MONm_CFG (R494). -/
def obsCfgWrite (d : Dev) (m word : Nat) : Dev :=
  let off := 0x100 + 8 * m
  let en := fieldOf (F.OBS_MON_CFG_EN m) word = 1
  let was := d.bit (F.OBS_MON_CFG_EN m)
  let fs := [F.OBS_MON_CFG_LOG2 m, F.OBS_MON_CFG_ABS m, F.OBS_MON_CFG_SHIFT m, F.OBS_MON_CFG_INST m, F.OBS_MON_CFG_SRC m]
  let src := fieldOf (F.OBS_MON_CFG_SRC m) word
  let same := fs.all (fun f => fieldOf f word = d.get f)
  let badSrc := match obsSource src with
    | some (hi, _) => decide (hi < fieldOf (F.OBS_MON_CFG_INST m) word)
    | none => decide (src ≠ 0)
  let noFeat := (match obsSource src with | some (_, b) => !d.feat b | none => false) || (fieldOf (F.OBS_MON_CFG_LOG2 m) word = 1 && !d.feat 18)
  if was && !same then (d.refuse obsPage off .state).put (F.OBS_MON_CFG_EN m) en
  else if badSrc then d.refuse obsPage off .range
  else if noFeat then d.refuse obsPage off .feature
  else
    let d := (d.putFields word fs).put (F.OBS_MON_CFG_EN m) en
    if en && !was then d.setMonitor m { d.monitor m with queue := [], live := { start := d.now } } else d

/-- OBS_QUEUE_TJ_TICK: QUEUE every 10 µs, TJ every 1 ms (R490). -/
def obsTick (d : Dev) : Dev :=
  let d := if 10000 ≤ d.elapsed d.obs.queueAt then
      { d with obs := { d.obs with queueAt := d.time.c } }.observe 0x37 0x12 0 d.queueDepth else d
  if 1000000 ≤ d.elapsed d.obs.tjAt then { d with obs := { d.obs with tjAt := d.time.c } }.observe 0 0x13 0 (d.getS F.DEV_ENV_STAT_TJ_MAX) else d

/-- A write to a block register of the OBS page, past the gate. -/
def obsWrite (d : Dev) (off word : Nat) : Dev :=
  if off = 0x40 then d.obsCtrlWrite word
  else if off = 0x5C then d.obsTestWrite word
  else if 0x100 ≤ off ∧ off < 0x200 then
    let m := (off - 0x100) / 8
    if off % 8 = 0 then d.obsCfgWrite m word
    else if d.bit (F.OBS_MON_CFG_EN m) then d.refuse obsPage off .state
    else d.regWrite obsPage off word
  else d.regWrite obsPage off word

/-- A read of an OBS register. -/
def obsRead (d : Dev) (off : Nat) : Nat :=
  if off = 0x58 then
    let x := d.monitor (d.get F.OBS_RD_SEL_MON)
    (if d.bit F.OBS_RD_SEL_LIVE then x.live else x.snap).item (d.get F.OBS_RD_SEL_ITEM)
  else d.regWord obsPage off

/-! ### CRC units (R499–R502) -/

def crcUnit (d : Dev) (c : Nat) : CrcUnit := Sparse.get d.crcUnits {} c
def setCrcUnit (d : Dev) (c : Nat) (x : CrcUnit) : Dev := { d with crcUnits := Sparse.set d.crcUnits {} c x }

/-- Bytes pass through the unit: RESULT and COUNT follow; after a read error RESULT stays undefined until INIT. -/
def crcFeed (d : Dev) (c : Nat) (bs : List Nat) : Dev :=
  let x := d.crcUnit c
  let reg := crcBytes x.width x.poly x.refin x.reg bs
  let res := (if x.refout then reflect x.width reg else reg) ^^^ x.xorout
  let d := (d.setCrcUnit c { x with reg := reg }).count (F.CHK_COUNT_COUNT c) bs.length
  if x.bad then (d.set (F.CHK_RESULT_RESULT c) (d.freeVal 32)).freeUsed else d.set (F.CHK_RESULT_RESULT c) res

/-- LEVEL follows the queue. -/
def crcLevel (d : Dev) (c : Nat) : Dev := d.set (F.CHK_STAT_LEVEL c) (d.crcUnit c).queue.length

/-- CHK_DATA_WRITE: a write of CHK_DATA (`k` = 0) or CHK_DATAk (R500). -/
def chkData (d : Dev) (c k value : Nat) : Dev :=
  let off := 0x118 + 0x40 * c + 4 * k
  let n := if k = 0 then 4 else k
  let x := d.crcUnit c
  if d.offline chkPage then d.refuse chkPage off .state
  else if d.bit (F.CHK_STAT_BUSY c) ∨ 16 < x.queue.length + n then d.refuse chkPage off .busy
  else (d.setCrcUnit c { x with queue := x.queue ++ leBytes n value }).crcLevel c

/-- One tick of the control island: a unit takes one byte per cycle at 1.2 GB/s, so six bytes in five nanoseconds (log entry 1, DESIGN CHOICE). -/
def chkTick (d : Dev) : Dev :=
  d.crcUnits.foldl (fun d u =>
    let x := d.crcUnit u.1
    let n := if d.time.c % 5 = 0 then 2 else 1
    if x.queue = [] || !d.enabled chkPage then d
    else ((d.setCrcUnit u.1 { x with queue := x.queue.drop n }).crcFeed u.1 (x.queue.take n)).crcLevel u.1) d

/-- CHK_INIT: the register and its configuration taken anew (R502). -/
def chkInit (d : Dev) (c : Nat) : Dev :=
  let x := d.crcUnit c
  if d.bit (F.CHK_STAT_BUSY c) ∨ x.queue ≠ [] then d.refuse chkPage (0x110 + 0x40 * c) .busy
  else
    let d := d.setCrcUnit c { x with reg := d.get (F.CHK_INIT_INIT c), width := 8 * 2 ^ d.get (F.CHK_CFG_WIDTH c), poly := d.get (F.CHK_POLY_POLY c)
                                     refin := d.bit (F.CHK_CFG_REFIN c), refout := d.bit (F.CHK_CFG_REFOUT c)
                                     xorout := d.get (F.CHK_XOROUT_XOROUT c), bad := false }
    (d.set (F.CHK_COUNT_COUNT c) 0).crcFeed c []

/-- Whether every offset of a range can be read (Table host-3). -/
def rangeReadable (a n : Nat) : Nat → Bool
  | 0 => true
  | k + 1 =>
    if n = 0 then true
    else
      let r := regionAt a
      if r.1 = .absent then false else if a + n ≤ r.2 then true else rangeReadable r.2 (a + n - r.2) k

/-- CHK_GO: a feed from BAR2 begins (R501). -/
def chkGo (d : Dev) (c : Nat) : Dev :=
  let off := 0x110 + 0x40 * c
  let a := d.get (F.CHK_SRC_LO_SRC_LO c) + d.get (F.CHK_SRC_HI_SRC_HI c) * 2 ^ 32
  let n := d.get (F.CHK_LEN_LEN c)
  if d.offline chkPage then d.refuse chkPage off .state
  else if d.bit (F.CHK_STAT_BUSY c) ∨ (d.crcUnit c).queue ≠ [] then d.refuse chkPage off .busy
  else if n = 0 ∨ !rangeReadable a n regionCount then d.refuse chkPage off .range
  else (d.setCrcUnit c { d.crcUnit c with feed := some (a, n) }).put (F.CHK_STAT_BUSY c) true

/-- CHK_FEED_DONE: the feed ends, after `ue` bytes with a read error where that names a number. -/
def chkFeedDone (d : Dev) (c : Nat) (ue : Option Nat) : Dev :=
  match (d.crcUnit c).feed with
  | none => d
  | some (a, n) =>
    let d := (d.setCrcUnit c { d.crcUnit c with feed := none }).put (F.CHK_STAT_BUSY c) false
    match ue with
    | none => ((d.crcFeed c (d.bytes a n)).put (F.CHK_STAT_DONE c) true).raise chkPage 3
    | some k =>
      let d := (d.setCrcUnit c { d.crcUnit c with bad := true }).crcFeed c (d.bytes a (min k n))
      (((d.put (F.CHK_STAT_ERR c) true).setParity chkPage (F.BLK_PARITY_SRAM_UE chkPage)).set (F.CHK_STAT_CODE c) Err.parity.code).raise chkPage 4

/-- Bits of POLY, INIT or XOROUT above the width. -/
def crcWide (d : Dev) (c : Nat) : Bool :=
  let w := 8 * 2 ^ d.get (F.CHK_CFG_WIDTH c)
  decide (2 ^ w ≤ d.get (F.CHK_POLY_POLY c) ∨ 2 ^ w ≤ d.get (F.CHK_INIT_INIT c) ∨ 2 ^ w ≤ d.get (F.CHK_XOROUT_XOROUT c))

/-- A write to a block register of the CHK page, past the gate. -/
def chkWrite (d : Dev) (off word : Nat) : Dev :=
  if 0x100 ≤ off ∧ off < 0x200 then
    let c := (off - 0x100) / 0x40
    let r := (off - 0x100) % 0x40
    if r ≤ 0xC then
      let d' := d.regWrite chkPage off word
      if d.bit (F.CHK_STAT_BUSY c) ∨ (d.crcUnit c).queue ≠ [] then d.refuse chkPage off .busy
      else if d'.crcWide c ∨ (r = 0 ∧ fieldOf (F.CHK_CFG_WIDTH c) word = 3) then d.refuse chkPage off .range
      else d'
    else if r = 0x10 then
      let d := if word % 2 = 1 then d.chkInit c else d
      if word / 2 % 2 = 1 then d.chkGo c else d
    else if 0x18 ≤ r ∧ r ≤ 0x24 then d.chkData c ((r - 0x18) / 4) word
    else d.regWrite chkPage off word
  else d.regWrite chkPage off word

end Dev

/-! ### The meanings -/

def execObsSample (m : Nat) (s : State) : Answer := s.run (·.obsSample m)
def execObsSnap (value : Nat) (s : State) : Answer := s.run (·.gated Dev.obsPage 0x40 (·.obsCtrlWrite value))
def execObsPeriodicSnap (s : State) : Answer := s.run (·.obsPeriodic)
def execObsTestWrite (value : Nat) (s : State) : Answer := s.run (·.gated Dev.obsPage 0x5C (·.obsTestWrite value))
def execObsMonitorEnable (m value : Nat) (s : State) : Answer :=
  s.run (fun d => if 32 ≤ m then d else d.gated Dev.obsPage (0x100 + 8 * m) (·.obsCfgWrite m value))
def execObsQueueTjTick (s : State) : Answer := s.run (·.obsTick)
def execChkDataWrite (c k value : Nat) (s : State) : Answer :=
  s.run (fun d => if 4 ≤ c ∨ 4 ≤ k then d else d.gated Dev.chkPage (0x118 + 0x40 * c + 4 * k) (·.chkData c k value))
def execChkGo (c : Nat) (s : State) : Answer := s.run (fun d => if 4 ≤ c then d else d.gated Dev.chkPage (0x110 + 0x40 * c) (·.chkGo c))
def execChkFeedDone (c : Nat) (ue : Option Nat) (s : State) : Answer := s.run (·.chkFeedDone c ue)
def execChkInit (c : Nat) (s : State) : Answer := s.run (fun d => if 4 ≤ c then d else d.gated Dev.chkPage (0x110 + 0x40 * c) (·.chkInit c))

end Sys2Proof.Machine
end

