-- ==== Sys2Proof/Machine/Secure.lean ====
section
/-! DEFINITION. Boot sources, image checks, keys, staging, attestation and the test access port (R542–R559). -/

namespace Sys2Proof.Machine

def secPage : Nat := 8

/-! ### Images (R547, R548) -/

/-- Word `i` of an image header. -/
def headWord (h : List Nat) (i : Nat) : Nat := leNat ((h.drop (4 * i)).take 4)

def headMagic : Nat := 0x5053_4556

/-- MAGIC, PART, FORMAT, KIND and the zero fields (Table teth-4). -/
def headOk (h : List Nat) : Bool :=
  decide (headWord h 0 = headMagic ∧ headWord h 1 = 0x9616_0101 ∧ headWord h 5 / 256 = 0 ∧ headWord h 6 / 256 = 0 ∧ headWord h 7 = 0)
    && ((h.drop 0x60).take 0x60).all (· = 0)

def headLen (h : List Nat) : Nat := headWord h 2
def headSvn (h : List Nat) : Nat := headWord h 5 % 256
def headKey (h : List Nat) : Nat := headWord h 6 % 256

/-- The flash offset of a slot (R542). -/
def flashSlot (k : Nat) : Nat := if k = 0 then 0 else 0x80_0000

/-- A length that an image may have. -/
def imageLenOk (n : Nat) : Bool := decide (n % 64 = 0 ∧ 320 ≤ n ∧ n ≤ 0x40_0000)

namespace Dev

def flashBytes (d : Dev) (a n : Nat) : List Nat := (List.range n).map (fun i => (Sparse.get d.flash 0 (a + i)).toNat)
def setFlash (d : Dev) : Nat → List Nat → Dev
  | _, [] => d
  | a, b :: bs => setFlash { d with flash := Sparse.set d.flash 0 a (BitVec.ofNat 8 b) } (a + 1) bs

/-- Bytes of the image window of the control SRAM. -/
def sramBytes (d : Dev) (a n : Nat) : List Nat := (List.range n).map (fun i => (Sparse.get d.boot.sram 0 (a + i)).toNat)

/-- Check 4: the firmware slot is fused and not revoked; no signature in LIFECYCLE OPEN alone. -/
def keyOk (d : Dev) (k : Nat) : Bool :=
  if k = 0xFF then d.get F.SEC_LIFE_LIFECYCLE = 0 else k < 4 && d.testBit F.SEC_LIFE_FW_FUSED k && !d.testBit F.SEC_LIFE_FW_REVOKED k

/-- The first of checks 2–7 of Table teth-5 that an image fails, 0 where it passes all. `img a n`: n bytes of it from offset a; `limit`: the bytes
received, or the slot. -/
def imageFault (d : Dev) (img : Nat → Nat → List Nat) (limit : Nat) : Nat :=
  let h := img 0 256
  if !headOk h then 2
  else if !imageLenOk (headLen h) || limit < headLen h then 3
  else if !d.keyOk (headKey h) then 4
  else if headKey h ≠ 0xFF && !edVerify (leBytes 32 (Config.firmwareKey (headKey h)).toNat) (h.take 0xC0) (h.drop 0xC0) then 5
  else if sha512 (img 256 (headLen h - 256)) ≠ (h.drop 0x20).take 64 then 6
  else if headSvn h < d.get F.SEC_SVN_FLOOR then 7
  else 0

/-- One image checked: a line of text per check made (R31), ATTEMPTS, and the cause of a failure. -/
def imageChecked (d : Dev) (fault : Nat) : Dev :=
  let d := (List.range (if fault = 0 then 7 else fault)).foldl (fun d i => d.emit (.uart (i + 1) (b2n (i + 1 = fault)))) d
  let d := d.count F.SEC_BOOT_STAT_ATTEMPTS
  if fault = 0 then d else d.set F.SEC_BOOT_STAT_CAUSE fault

/-- An image that passed starts: its header, SVN, VERSION and source. -/
def imageStart (d : Dev) (slot : Nat) (h : List Nat) : Dev :=
  let d : Dev := { d with boot := { d.boot with header := h, recovery := false } }
  (((d.set F.SEC_BOOT_STAT_SLOT slot).put F.SEC_BOOT_STAT_WAITING false).set F.SEC_SVN_RUNNING (headSvn h)).set F.SEC_FW_VER_VERSION (headWord h 4)

/-! ### The boot record (R555–R557, R560) -/

/-- One copy of the boot record: the active slot, the staged slot, TRIAL, the CRC-32C of these (log entry 47, DESIGN CHOICE of the layout). -/
def bootRecordBytes (active : Nat) (staged : Option Nat) (trial : Bool) : List Nat :=
  let b := wordsLe [active, match staged with | some k => k | none => 0xFFFF_FFFF, b2n trial]
  b ++ leBytes 4 (crc32c b)

/-- The boot record is updated, with its two copies in MRAM. -/
def setBootRecord (d : Dev) (active : Nat) (staged : Option Nat) (trial : Bool) : Dev :=
  let b := bootRecordBytes active staged trial
  (({ d with boot := { d.boot with active := active, staged := staged, trial := trial } } : Dev).setMram 0 b).setMram 0x100 b

/-! ### Sources (R542–R545, R557) -/

/-- The boot ROM selects its source: the strap, or NEXT_SRC, which is thereby cleared (R545); from PCIe and Tether it waits for an image. -/
def bootSelect (d : Dev) : Dev :=
  let n := d.get F.SEC_BOOT_CTRL_NEXT_SRC
  let src := if n = 0 then d.get F.DEV_STRAPS_BOOT_SRC else n - 1
  let d : Dev := { d with boot := { d.boot with src := src, recovery := false, sram := [], chunks := [] } }
  ((d.set F.SEC_BOOT_CTRL_NEXT_SRC 0).put F.SEC_BOOT_STAT_WAITING (src = 1 || src = 2)).set F.TETH_BOOT_STAT_MISS 0

/-- The flash slots in the order in which the boot ROM tries them. -/
def bootSlots (d : Dev) : List Nat :=
  let first := match d.boot.trial, d.boot.staged with
    | true, some s => s
    | _, _ => d.boot.active
  if d.boot.single then [0] else [first, 1 - first]

/-- One flash slot tried; bit k of `readable` says that slot k can be read. -/
def bootSlot (readable : Nat) (acc : Dev × Bool) (k : Nat) : Dev × Bool :=
  let d := acc.1
  if acc.2 then acc
  else
    let img := fun a n => d.flashBytes (flashSlot k + a) n
    let fault := if readable / 2 ^ k % 2 = 0 then 1 else d.imageFault img 0x40_0000
    let d := d.imageChecked fault
    if fault = 0 then (d.imageStart k (img 0 256), true) else (d, false)

/-- Start-up from flash. TRIAL is cleared and shown where the staged slot runs; when every slot fails the boot ROM waits, for an image over Tether
with source 3, else over both interfaces (R542, R544, R557). -/
def bootFlash (d : Dev) (readable : Nat) : Dev × Bool :=
  let trial := if d.boot.trial then d.boot.staged else none
  let r := d.bootSlots.foldl (bootSlot readable) (d, false)
  let d : Dev := if r.1.boot.trial then r.1.setBootRecord r.1.boot.active r.1.boot.staged false else r.1
  if r.2 then (d.put F.SEC_BOOT_STAT_TRIAL (trial = some (d.get F.SEC_BOOT_STAT_SLOT)), true)
  else
    let d : Dev := if d.boot.src = 3 then { d with boot := { d.boot with src := 2 } } else { d with boot := { d.boot with recovery := true } }
    (d.put F.SEC_BOOT_STAT_WAITING true, false)

/-- A write of SEC_BOOT_CTRL, over Tether where `teth`: NEXT_SRC and LEN are taken; GO starts the check of the image that waits (R542–R545),
from either interface (log entry 112, DEDUCED). A GO over Tether in the cycle of one taken over PCIe records BUSY (R560). -/
def bootCtrlWrite (d : Dev) (value : Nat) (teth : Bool) : Dev :=
  let len := fieldOf F.SEC_BOOT_CTRL_LEN value
  if teth ∧ d.boot.goAt = some d.time.c ∧ fieldOf F.SEC_BOOT_CTRL_GO value = 1 then d.refuse secPage 0x58 .busy
  else
  let d := d.putFields value [F.SEC_BOOT_CTRL_NEXT_SRC, F.SEC_BOOT_CTRL_LEN]
  if fieldOf F.SEC_BOOT_CTRL_GO value = 0 then d
  else if d.state ≠ 1 || !d.bit F.SEC_BOOT_STAT_WAITING then d.refuse secPage 0x58 .state
  else if !imageLenOk len then d.refuse secPage 0x58 .range
  else
    let slot := if d.boot.recovery then (if teth then 3 else 2) else d.boot.src + 1
    let img := fun a n => d.sramBytes a n
    let fault := d.imageFault img len
    let d := ({ d with boot := { d.boot with goAt := if teth then none else some d.time.c } } : Dev).imageChecked fault
    if fault = 0 then d.imageStart slot (img 0 256) else { d with boot := { d.boot with recovery := true } }

/-- The lowest chunk not received, from `m` on. -/
def missFrom (cs : List Nat) : Nat → Nat → Nat
  | 0, m => m
  | n + 1, m => if cs.contains m then missFrom cs n (m + 1) else m

/-- Eight image bytes of a BULK frame (R542). Chunks beyond the 4 MiB window are dropped. -/
def bootChunk (d : Dev) (c : Nat) (bs : List Nat) : Dev :=
  if d.state ≠ 1 || !d.bit F.SEC_BOOT_STAT_WAITING || !(d.boot.recovery || d.boot.src = 2) || 0x8_0000 ≤ c then d
  else
    let cells := (List.range 8).foldl (fun m i => Sparse.set m 0 (8 * c + i) (BitVec.ofNat 8 (bs.getD i 0))) d.boot.sram
    let cs := if d.boot.chunks.contains c then d.boot.chunks else c :: d.boot.chunks
    ({ d with boot := { d.boot with sram := cells, chunks := cs } } : Dev).set F.TETH_BOOT_STAT_MISS
      (missFrom cs cs.length (d.get F.TETH_BOOT_STAT_MISS))

/-! ### Keys (R550–R553) -/

/-- A firmware slot signs the image that a flash slot holds. -/
def slotSigns (d : Dev) (key k : Nat) : Bool :=
  let h := d.flashBytes (flashSlot k) 256
  headOk h && headKey h = key

/-- A revocation that R551 refuses: no unrevoked firmware slot would be left, or the slot signs an image in flash. -/
def revokeBarred (d : Dev) (slot : Nat) : Bool :=
  !(List.range 4).any (fun k => k ≠ slot && d.testBit F.SEC_LIFE_FW_FUSED k && !d.testBit F.SEC_LIFE_FW_REVOKED k)
    || d.slotSigns slot 0 || (!d.boot.single && d.slotSigns slot 1)

/-- The key in SEC_KEY_DATA0–7. -/
def keyData (d : Dev) : Nat := (List.range 8).foldl (fun a n => a + d.get (F.SEC_KEY_DATA_DATA n) * 2 ^ (32 * n)) 0

/-- A write of SEC_KEY_PROG: fusing begins, or is refused with no fuse blown. -/
def keyProgWrite (d : Dev) (value : Nat) : Dev :=
  let slot := fieldOf F.SEC_KEY_PROG_SLOT value
  let prog := fieldOf F.SEC_KEY_PROG_PROG value = 1
  let revoke := fieldOf F.SEC_KEY_PROG_REVOKE value = 1
  if d.state ≠ 2 then d.refuse secPage 0xC0 .state
  else if d.bit F.SEC_KEY_PROG_BUSY then d.refuse secPage 0xC0 .busy
  else if fieldOf F.SEC_KEY_PROG_KEY value ≠ 0x4F54 then d.refuse secPage 0xC0 .range
  else if !revoke && (!prog || d.testBit F.SEC_LIFE_PROG_FUSED slot) then d.refuse secPage 0xC0 .range
  else if revoke && !prog && d.revokeBarred slot then d.refuse secPage 0xC0 .state 11
  else
    let d := d.putFields value [F.SEC_KEY_PROG_REVOKE, F.SEC_KEY_PROG_PROG, F.SEC_KEY_PROG_SLOT]
    let d := d.put F.SEC_KEY_PROG_BUSY true
    { d with boot := { d.boot with fusing := some ⟨slot, prog, revoke, d.keyData⟩ } }

/-- KEY_DONE: fusing ends; `same`: what is read back is what was to be fused. A mismatch records INTERNAL and leaves a key slot unusable. -/
def keyDone (d : Dev) (same : Bool) : Dev :=
  match d.boot.fusing with
  | none => d
  | some x =>
    let d : Dev := { d with boot := { d.boot with fusing := none } }
    let d := if x.revoke then d.putBit (if x.prog then F.SEC_LIFE_PROG_REVOKED else F.SEC_LIFE_FW_REVOKED) x.slot true
      else
        let d := d.putBit F.SEC_LIFE_PROG_FUSED x.slot true
        { d with boot := { d.boot with progKeys := Sparse.set d.boot.progKeys 0 x.slot (if same then x.key + 1 else 0) } }
    let d := if same then d else (d.setFault secPage).hwError secPage .internal 0
    (d.put F.SEC_KEY_PROG_BUSY false).raise secPage 4

/-- A write of SEC_SVN: COMMIT raises the floor (R553). -/
def svnWrite (d : Dev) (value : Nat) : Dev :=
  if fieldOf F.SEC_SVN_COMMIT value = 0 then d
  else if d.state = 1 || !d.bit F.SEC_FW_STAT_CONFIRMED then d.refuse secPage 0x4C .state
  else d.set F.SEC_SVN_FLOOR (max (d.get F.SEC_SVN_FLOOR) (d.get F.SEC_SVN_RUNNING))

/-! ### Staging (R555) -/

/-- FW_STAGE (0x61): ARG0 and ARG1[1:0] give the HBM offset, ARG2 the length. -/
def fwStage (d : Dev) : Dev :=
  if !d.executing 0x61 then d
  else
    let off := d.arg 0 + d.arg 1 * 2 ^ 32
    let len := d.arg 2
    if d.get F.SEC_FW_STAT_STAGE = 1 then d.complete .busy
    else if 4 ≤ d.arg 1 || 0x4_0000_0000 < off + len then d.complete .range
    else
      let img := fun a n => d.bytes (off + a) n
      match d.imageFault img len with
      | 2 | 3 | 6 => d.complete .range
      | 4 | 5 => d.complete .auth
      | 7 => d.complete .plausibility 7
      | _ =>
        if d.boot.single then d.complete .nospace
        else
          let k := 1 - d.boot.active
          let bs := img 0 (headLen (img 0 256))
          let d := d.setFlash (flashSlot k) (List.replicate 256 0xFF)
          let d : Dev := { d with boot := { d.boot with staging := some (k, bs) } }
          (d.set F.SEC_FW_STAT_STAGE 1).complete .ok

/-- FW_STAGE_DONE: the slot has been written and read back, or a write failed. -/
def fwStageDone (d : Dev) (ok : Bool) : Dev :=
  match d.boot.staging with
  | none => d
  | some (k, bs) =>
    let d : Dev := { d with boot := { d.boot with staging := none } }
    let d := if ok then
        let d := d.setFlash (flashSlot k) bs
        let d := d.setBootRecord d.boot.active (some k) d.boot.trial
        (d.set F.SEC_FW_STAT_STAGE 2).set F.SEC_FW_STAT_STAGED_SVN (headSvn bs)
      else d.set F.SEC_FW_STAT_STAGE 3
    d.raise secPage 3

/-- The first successful commit confirms the running image; a trial slot becomes the active one (R557). -/
def confirmImage (d : Dev) : Dev :=
  let d := if d.bit F.SEC_BOOT_STAT_TRIAL then d.setBootRecord (d.get F.SEC_BOOT_STAT_SLOT) d.boot.staged d.boot.trial else d
  d.put F.SEC_FW_STAT_CONFIRMED true

/-! ### Identity and attestation (R558, R559) -/

def identityKey : List Nat := leBytes 32 Config.identitySeed.toNat

/-- The identity public key shown in SEC_ID_PUB. -/
def showIdentity (d : Dev) : Dev :=
  let pub := edPublic identityKey
  (List.range 8).foldl (fun d n => d.set (F.SEC_ID_PUB_PUB n) (leNat ((pub.drop (4 * n)).take 4))) d

/-- Bytes 0x00–0xBF of the report (Table teth-6). -/
def reportBody (d : Dev) : List Nat :=
  let g := d.get
  wordsLe [0x5454_4156,
      g F.DEV_IDENT_PART * 2 ^ 16 + g F.DEV_IDENT_STEP_LETTER * 2 ^ 8 + g F.DEV_IDENT_STEP_DIGIT,
      g F.SEC_SERIAL_LO_SERIAL, g F.SEC_SERIAL_HI_SERIAL,
      g F.SEC_SVN_RUNNING * 2 ^ 24 + g F.SEC_SVN_FLOOR * 2 ^ 16 + g F.SEC_BOOT_STAT_SLOT * 2 ^ 8 + g F.SEC_LIFE_LIFECYCLE,
      g F.SEC_FW_VER_VERSION,
      g F.SEC_LIFE_PROG_REVOKED * 2 ^ 28 + g F.SEC_LIFE_FW_REVOKED * 2 ^ 24 + g F.SEC_PROG_PROG_KEY * 2 ^ 16 + headKey d.boot.header * 2 ^ 8
        + g F.DEV_RESET_CAUSE_CAUSE * 2 ^ 4 + d.state,
      g (F.DRV_FEAT_ACCEPT_ACCEPT 0)]
    ++ wordsLe ((List.range 8).map d.arg)
    ++ sha512 d.boot.header
    ++ wordsLe ((List.range 8).map (fun n => g (F.SEC_ID_PUB_PUB n)))
    ++ leBytes 8 d.now
    ++ leBytes 4 (if d.feat 3 then g F.TWIN_CFG_CHECK_CHECK else 0)
    ++ List.replicate 20 0

/-- ATTEST (0x60): the signed report over the nonce in ARG0–ARG7. -/
def attest (d : Dev) : Dev :=
  if !d.executing 0x60 then d
  else
    let body := d.reportBody
    let bs := body ++ edSign identityKey body
    let d := (List.range 64).foldl (fun d n => d.set (F.SEC_REPORT_REPORT n) (leNat ((bs.drop (4 * n)).take 4))) d
    d.complete .ok

/-! ### The test access port (R554) -/

/-- TAP_INSTRUCTION: boundary-scan instructions are always served, others in LIFECYCLE OPEN alone; EXTEST drives METn_TX from bits 7:0 of the
boundary register until another instruction is served. -/
def tapInstruction (d : Dev) (op : TapOp) (bound : Nat) : Dev :=
  match op with
  | .extest => { d with boot := { d.boot with extest := some (bound % 256) } }
  | .boundary => { d with boot := { d.boot with extest := none } }
  | .internal => if d.get F.SEC_LIFE_LIFECYCLE = 0 then { d with boot := { d.boot with extest := none } } else d

/-! ### The page (R561) -/

/-- A write to a block register of the SEC page, past the gate. -/
def secWrite (d : Dev) (off word : Nat) (teth : Bool) : Dev :=
  if off = 0x4C then d.svnWrite word
  else if off = 0x58 then d.bootCtrlWrite word teth
  else if off = 0x60 then
    if d.state = 2 || d.state = 3 then d.regWrite secPage off word else d.refuse secPage off .state
  else if off = 0xC0 then d.keyProgWrite word
  else d.regWrite secPage off word

end Dev

/-! ### The meanings -/

def execFwStage (s : State) : Answer := s.run (·.fwStage)
def execFwStageDone (ok : Bool) (s : State) : Answer := s.run (·.fwStageDone ok)
def execAttest (s : State) : Answer := s.run (·.attest)
def execBootGo (value : Nat) (teth : Bool) (s : State) : Answer := s.run (·.gated secPage 0x58 (·.bootCtrlWrite value teth))
def execNextSrc (value : Nat) (teth : Bool) (s : State) : Answer := s.run (·.gated secPage 0x58 (·.bootCtrlWrite value teth))
def execKeyProgram (value : Nat) (s : State) : Answer := s.run (·.gated secPage 0xC0 (·.keyProgWrite value))
def execKeyRevoke (value : Nat) (s : State) : Answer := s.run (·.gated secPage 0xC0 (·.keyProgWrite value))
def execKeyDone (same : Bool) (s : State) : Answer := s.run (·.keyDone same)
def execSvnCommit (value : Nat) (s : State) : Answer := s.run (·.gated secPage 0x4C (·.svnWrite value))
def execTapInstruction (op : TapOp) (bound : Nat) (s : State) : Answer := s.run (·.tapInstruction op bound)

end Sys2Proof.Machine
end

