-- ==== Sys2Proof/Machine/Lanes.lean ====
section
/-! DEFINITION. Serial lanes (R120–R136): lock, adaptation and its holds, margin, transmitter taps, test patterns, the lane commands. A lane is
named by its global index L = 8g + k (R120). -/

namespace Sys2Proof.Machine

/-- The page of lane group g. -/
abbrev lng (g : Nat) : Nat := 0x20 + g

/-- The kinds of lane (Table lane-1). -/
inductive LaneKind where
  | cxp | relay | meridian | spare
  deriving DecidableEq, Repr

def laneKind (l : Nat) : LaneKind :=
  if l < 64 then .cxp else if l < 96 then .relay else if l < 100 then .meridian else .spare

namespace Dev

def laneLocked (d : Dev) (l : Nat) : Bool := d.bit (F.LANE_STAT_LOCK (l / 8) (l % 8))
def laneTest (d : Dev) (l : Nat) : Bool := d.bit (F.LANE_CFG_TEST_EN (l / 8) (l % 8)) || d.testing (lng (l / 8))

/-- ASTATE with the holds that apply, the highest shown (R127): TEST, HELD_FREEZE, HELD_CONTENT, then the state itself. Whether FREEZE also hides
ACQUIRE, the spec does not say: here it does (log entry 87, DESIGN CHOICE). -/
def astate (d : Dev) (l : Nat) : Nat :=
  let x := d.lane l
  if d.laneTest l then 7
  else if x.base = 0 then 0
  else if d.frozen (lng (l / 8)) || x.scan then 6
  else if x.hold then 5
  else x.base

/-- A Meridian lane carries records: locked, trained, not withdrawn, not in test, the link's page enabled (R507, R508, R129). -/
def merCarries (d : Dev) (m : Nat) : Bool :=
  let x := d.lane (96 + m)
  d.enabled 0x90 && d.laneLocked (96 + m) && x.trainAt.isNone && !x.trainFail && !d.testBit F.TWIN_CTRL_LANE_WD m && !d.laneTest (96 + m)

/-- LANES and LINK_UP follow the lanes; a change is raised. A link that comes up numbers its records from 0 again (log entry 50, DEDUCED); one that
goes down ends a join (R507, R523). -/
def merRefresh (d : Dev) : Dev :=
  let ms := (List.range 4).foldl (fun n m => n + b2n (d.merCarries m) * 2 ^ m) 0
  let was := d.bit F.TWIN_STAT_LINK_UP
  if d.get F.TWIN_STAT_LANES = ms then d
  else
    let d := (d.set F.TWIN_STAT_LANES ms).put F.TWIN_STAT_LINK_UP (ms ≠ 0)
    let d := if !was then { d with mer := { d.mer with txSeq := 0, unacked := [], rxNext := 0, ackSeen := 2 ^ 32 - 1, ackAt := d.time.c } }
      else if ms = 0 then
        (d.count F.TWIN_CNT_LINKDOWN_COUNT).abandonJoin
      else d
    d.raise 0x90 5

/-- The time a lane has spent in TRACK while the wider step limits last: what `x` has counted, and the stay in progress (R126). -/
def trackUsed (d : Dev) (l used : Nat) : Nat :=
  used + (if d.get (F.LANE_STAT_ASTATE (l / 8) (l % 8)) = 3 then d.elapsed (d.lane l).trackAt else 0)

/-- Four times the step limits apply: for the first 50 ms of time in TRACK after a long hold (R126). -/
def boosted (d : Dev) (l : Nat) : Bool := match (d.lane l).boost with
  | some used => decide (d.trackUsed l used < 50000000)
  | none => false

/-- LANE_STAT.ASTATE brought up to date, the time in TRACK counted, VALID of a margin that is no longer current cleared, and for a Meridian lane the
link. -/
def laneShow (d : Dev) (l : Nat) : Dev :=
  let g := l / 8; let k := l % 8
  let x := d.lane l
  let d := d.setLane l { x with boost := x.boost.map (d.trackUsed l), trackAt := d.time.c }
  let d := if d.laneLocked l && !d.laneTest l && !x.scan then d else d.put (F.LANE_MARGIN_VALID g k) false
  let d := d.set (F.LANE_STAT_ASTATE g k) (d.astate l)
  if 96 ≤ l then d.merRefresh else d

def laneCtle (d : Dev) (l : Nat) : Nat := d.get (F.LANE_EQ_CTLE (l / 8) (l % 8))
def laneDfe (d : Dev) (l : Nat) : List Int :=
  [d.getS (F.LANE_EQ_DFE1 (l / 8) (l % 8)), d.getS (F.LANE_EQ_DFE2 (l / 8) (l % 8)), d.getS (F.LANE_EQ_DFE3 (l / 8) (l % 8))]

/-- The equaliser set: CTLE within 0–24, each tap within its field (R124). -/
def setEq (d : Dev) (l : Nat) (ctle : Nat) (dfe : List Int) : Dev :=
  let d := d.set (F.LANE_EQ_CTLE (l / 8) (l % 8)) (min ctle 24)
  let d := d.setS (F.LANE_EQ_DFE1 (l / 8) (l % 8)) (satS 8 (dfe.getD 0 0))
  let d := d.setS (F.LANE_EQ_DFE2 (l / 8) (l % 8)) (satS 6 (dfe.getD 1 0))
  d.setS (F.LANE_EQ_DFE3 (l / 8) (l % 8)) (satS 6 (dfe.getD 2 0))

/-- Adaptation goes on: neither test nor FREEZE nor a scan holds it (R127). -/
def adapts (d : Dev) (l : Nat) : Bool := !d.laneTest l && !d.frozen (lng (l / 8)) && !(d.lane l).scan

/-- Whether the equaliser may move: no hold applies and the driver does not set it by hand. -/
def eqFree (d : Dev) (l : Nat) : Bool := d.adapts l && !d.bit (F.LANE_CFG_EQ_MANUAL (l / 8) (l % 8))

/-- The rate of a receive lane in Mb/s: of the port's rate code on a CXP lane, 32 Gb/s on a Meridian lane (Table lane-2, R117). -/
def laneRate (d : Dev) (l : Nat) : Nat :=
  if l < 64 then [0, 1250, 2500, 3125, 5000, 6250, 10000, 12500].getD (d.get (F.CXP_LINK_SPEED (l / 4))) 0 else 32000

/-- MARGIN_LOW of a lane ends when the driver restarts it (R128). -/
def marginFresh (d : Dev) (l : Nat) : Dev :=
  (d.putBit (F.LNG_SUMMARY_MARGIN_LOW (l / 8)) (l % 8) false).setLane l { d.lane l with lowCnt := 0 }

/-- A lane under LANE_SCAN that stops or loses lock ends the command (R134). -/
def scanLost (d : Dev) (l : Nat) : Dev :=
  if (d.lane l).scan then (d.setLane l { d.lane l with scan := false }).complete .state 5 else d

/-- The uplink driver alongside a CXP lane (Table lane-1). -/
def uplinkPin (d : Dev) (l : Nat) (v : Level) : Dev := if l < 64 then d.setPin (.cxpUp (l / 4) (l % 4)) v else d

/-- TRACK with F_AGEING_REPLAN accepted, HELD_POLICY otherwise (R123). -/
def laneSettled (d : Dev) : Nat := if d.feat 21 then 3 else 4

/-- A receive lane starts in ACQUIRE, where its group runs and is not withdrawn (R123, R135). -/
def laneStart (d : Dev) (l : Nat) : Dev :=
  if laneKind l = .relay ∨ laneKind l = .spare ∨ !d.enabled (lng (l / 8)) ∨ d.bit (F.BLK_CTRL_OFFLINE_REQ (lng (l / 8))) then d
  else
    let d := if 96 ≤ l then d.setPin (.merTx (l - 96)) (if d.testBit F.TWIN_CTRL_LANE_WD (l - 96) then .idle else .run) else d.uplinkPin l .run
    let d := d.marginFresh l
    (d.setLane l { d.lane l with base := 1, hold := false, longDone := false, since := d.time.c, readapt := false }).laneShow l

/-- A lane stops: no lock, OFF, no training; its transmitter or uplink driver is idle (R135). -/
def laneStop (d : Dev) (l : Nat) : Dev :=
  let d := (d.put (F.LANE_STAT_LOCK (l / 8) (l % 8)) false).put (F.LANE_STAT_CDR_LOCK (l / 8) (l % 8)) false
  let d := if 96 ≤ l then d.setPin (.merTx (l - 96)) .idle else d.uplinkPin l .idle
  ((d.setLane l { d.lane l with base := 0, hold := false, trainAt := none, holdAt := none, ownHold := none }).scanLost l).laneShow l

/-- The values reached at a link-up are noted: a re-adaptation keeps about them (R128). -/
def noteUp (d : Dev) (l : Nat) : Dev :=
  d.setLane l { d.lane l with upCtle := d.laneCtle l, upDfe := d.laneDfe l, fresh := false, readapt := false }

/-- A lane that is past ADAPT shows what the features accepted say (R123). -/
def resettle (d : Dev) (l : Nat) : Dev :=
  let x := d.lane l
  if (x.base = 3 ∨ x.base = 4) ∧ x.base ≠ d.laneSettled then (d.setLane l { x with base := d.laneSettled }).laneShow l else d

/-- What entering and leaving TEST both do: checker and generator begin anew, training ends, a scan ends where lock is lost (R129, R131, R134). -/
def testAnew (d : Dev) (l : Nat) : Dev :=
  d.setLane l { d.lane l with prbsRun := 0, hist := [], gen := [], trainAt := none, holdAt := none, ownHold := none }

/-- A lane's lock is gone, and with it its connection's, and a scan (R86, R134). -/
def unlock (d : Dev) (l : Nat) : Dev :=
  let d := d.put (F.LANE_STAT_LOCK (l / 8) (l % 8)) false
  (if l < 64 then d.lockLoss (l / 4) (l % 4) else d).scanLost l

/-- The relay output that a relay lane belongs to. -/
def relayOfLane (d : Dev) (l : Nat) : Dev := if laneKind l = .relay then d.relayUpdate ((l - 64) / 4) else d

/-- LANE_LOCK: ACQUIRE ends with LOCK; ADAPT follows, or with FREEZE the last values stay (R123). A training starts from the taps as they stand, which
the spec leaves open (log entry 87, DESIGN CHOICE). -/
def laneLock (d : Dev) (l ctle : Nat) : Dev :=
  if (d.lane l).base = 1 ∧ !d.laneTest l ∧ !d.testBit F.DEV_ENV_STAT_CLK_LOST 2 then
    let g := l / 8; let k := l % 8
    let d := (d.put (F.LANE_STAT_LOCK g k) true).put (F.LANE_STAT_CDR_LOCK g k) true
    let d := if d.eqFree l then d.setEq l ctle (d.laneDfe l) else d
    let x := d.lane l
    let x := { x with base := (if d.frozen (lng g) then d.laneSettled else 2), since := d.time.c, lastQual := d.time.c, wins := 0, fresh := true
                      trainAt := (if laneKind l = .meridian && !d.testBit F.TWIN_CTRL_LANE_WD (l - 96) then some d.time.c else none)
                      holdAt := none, ownHold := none, trainFail := false }
    let d := (d.setLane l x).laneShow l
    let d := if d.frozen (lng g) then d.noteUp l else d
    if l < 64 then
      let p := l / 4
      let d := (d.putBit (F.CXP_LINK_LOCK p) (l % 4) true).relayUpdate p
      if d.allLocked p then d.setPort p { d.port p with lockSince := d.time.c } else d
    else d
  else d

/-- A lane loses lock: it enters ACQUIRE, and its connection loses lock with it (R122, R123, R86). -/
def laneLose (d : Dev) (l : Nat) : Dev :=
  let g := l / 8; let k := l % 8
  let d := (d.put (F.LANE_STAT_LOCK g k) false).put (F.LANE_STAT_CDR_LOCK g k) false
  let d := (d.countSat (F.LANE_STAT_LOCK_LOSS_CNT g k)).raise (lng g) 3
  let d := (d.setLane l { d.lane l with base := 1, hold := false, since := d.time.c, trainAt := none, holdAt := none, ownHold := none }).laneShow l
  (if l < 64 then d.lockLoss (l / 4) (l % 4) else d).scanLost l

/-- LANE_LOCK_LOSS: an interval of 1,024 symbols fails the lock test (R122). -/
def laneLockLoss (d : Dev) (l : Nat) : Dev := if d.laneLocked l then d.laneLose l else d

/-- Whether any lane is still under a LANE_ADAPT command. -/
def adaptPending (d : Dev) : Bool := (List.range 100).any (fun l => (d.lane l).saved.isSome)

/-- ADAPT ends: TRACK or HELD_POLICY follows, the values of a link-up are noted, a LANE_ADAPT that waits for no other lane completes (R123, R133). -/
def adaptFinish (d : Dev) (l : Nat) : Dev :=
  let x := d.lane l
  let d := if x.fresh then d.noteUp l else d
  let d := (d.setLane l { d.lane l with base := d.laneSettled, saved := none }).laneShow l
  if x.saved.isSome && !d.adaptPending && d.executing 0x41 then d.complete .ok else d

/-- LANE_ADAPT_DONE: ADAPT ends after one qualifying window or more, and while nothing holds it (R123, R127, R133). -/
def laneAdaptDone (d : Dev) (l : Nat) : Dev :=
  let x := d.lane l
  if x.base = 2 ∧ !x.hold ∧ d.adapts l ∧ 0 < x.wins then d.adaptFinish l else d

/-- The nanoseconds of qualifying windows that ADAPT takes at most: 2 ms on a CXP lane, 10 ms on a Meridian lane (R123); 100 ms under LANE_ADAPT
from the present values (R133). The spec gives a re-adaptation from margin no length: it takes that of a link-up (log entry 87, DESIGN CHOICE). -/
def adaptLimit (x : Lane) (l : Nat) : Nat := if x.saved.isSome && !x.fresh then 100000000 else if 96 ≤ l then 10000000 else 2000000

/-- One more qualifying window of ADAPT; at the limit ADAPT ends. -/
def adaptCount (d : Dev) (l : Nat) : Dev :=
  let x := { d.lane l with wins := (d.lane l).wins + 1 }
  let d := d.setLane l x
  if adaptLimit x l * d.laneRate l ≤ x.wins * 4096 * 1000 then d.adaptFinish l else d

/-- A window of 4,096 UI qualifies: 30 % of its boundaries are transitions and 128 of the 256 patterns occur (R125). -/
def qualifies (transitions patterns : Nat) : Bool := 30 * 4096 ≤ transitions * 100 && 128 ≤ patterns

/-- One bounded step of `v` towards `target`. -/
def stepTo (n : Nat) (v target : Int) : Int := v + clampI (-n) n (target - v)

/-- The values that an adaptation may aim at: from a re-adaptation on, within ±4 codes and ±32 LSB of the last link-up (R128). -/
def eqAim (x : Lane) (ctle : Nat) (dfe : List Int) : Nat × List Int :=
  if x.readapt then
    ((clampI ((x.upCtle : Int) - 4) (x.upCtle + 4) ctle).toNat,
     (List.range 3).map (fun i => clampI (x.upDfe.getD i 0 - 32) (x.upDfe.getD i 0 + 32) (dfe.getD i 0)))
  else (ctle, dfe)

/-- A step of ADAPT. -/
def adaptStep (d : Dev) (l ctle : Nat) (dfe : List Int) : Dev :=
  let aim := eqAim (d.lane l) ctle dfe
  d.setEq l aim.1 aim.2

/-- The qualifying windows of 4,096 UI since a step last `ns` or more; so they do where no step was made (R124, R125). -/
def stepDue (d : Dev) (l ns : Nat) (wins : Option Nat) : Bool := match wins with
  | none => true
  | some n => decide (ns * d.laneRate l ≤ n * 4096 * 1000)

/-- A step of TRACK, within the step limits of R124, or four times these (R126). Their timers run in qualifying windows alone (R125). -/
def trackStep (d : Dev) (l ctle : Nat) (dfe : List Int) : Dev :=
  let x := d.lane l
  let aim := eqAim x ctle dfe
  let boost := d.boosted l
  let cw := x.ctleWins.map (· + 1)
  let dw := x.dfeWins.map (·.map (· + 1))
  let c := if d.stepDue l (if boost then 2500000 else 10000000) cw then (stepTo 1 (d.laneCtle l) aim.1).toNat else d.laneCtle l
  let old := d.laneDfe l
  let t := (List.range 3).map (fun i =>
    if d.stepDue l 1000000 (dw.getD i none) then stepTo (if boost then 4 else 1) (old.getD i 0) (aim.2.getD i 0) else old.getD i 0)
  let x := { x with ctleWins := (if c = d.laneCtle l then cw else some 0)
                    dfeWins := (List.range 3).map (fun i => if t.getD i 0 = old.getD i 0 then dw.getD i none else some 0) }
  (d.setLane l x).setEq l c t

/-- Whether a content hold has lasted longer than HOLD_LONG (R126). -/
def heldLong (d : Dev) (l : Nat) : Bool :=
  let long := d.get (F.LNG_ADAPT_CTRL_HOLD_LONG (l / 8)) * 100000000
  (d.lane l).hold && long ≠ 0 && decide (long ≤ d.elapsed (d.lane l).since)

/-- LANE_WINDOW: a window ends; a qualifying one ends a content hold and, where adaptation goes on, moves the equaliser (R123–R126). The wider step
limits follow a hold longer than HOLD_LONG only, as R126 may be read (log entry 87, DEDUCED). -/
def laneWindow (d : Dev) (l transitions patterns ctle : Nat) (dfe : List Int) : Dev :=
  let g := l / 8; let k := l % 8
  if !d.laneLocked l then d
  else
    let ok := qualifies transitions patterns
    let d := d.put (F.LANE_STAT_CONTENT_OK g k) ok
    if !ok then d
    else
      let x := d.lane l
      let x := { x with lastQual := d.time.c, qualified := true, boost := (if x.longDone || d.heldLong l then some 0 else x.boost)
                        hold := false, longDone := false }
      let d := (d.setLane l x).laneShow l
      let manual := d.bit (F.LANE_CFG_EQ_MANUAL g k)
      if !d.adapts l then d
      else if x.base = 2 then (if manual then d else d.adaptStep l ctle dfe).adaptCount l
      else if x.base = 3 ∧ !manual then d.trackStep l ctle dfe
      else d

/-- CONTENT_HOLD_ENTRY: no window has qualified for 100 µs (R126). -/
def contentHoldEntry (d : Dev) (l : Nat) : Dev :=
  let x := d.lane l
  if (x.base = 2 ∨ x.base = 3) ∧ !d.laneTest l ∧ !x.hold ∧ 100000 ≤ d.elapsed x.lastQual then
    (d.setLane l { x with hold := true, longDone := false, since := d.time.c }).laneShow l
  else d

/-- CONTENT_HOLD: the hold exceeds HOLD_LONG (R126). -/
def contentHold (d : Dev) (l : Nat) : Dev :=
  let x := d.lane l
  if !x.longDone ∧ !d.laneTest l ∧ d.heldLong l then (d.setLane l { x with longDone := true }).raise (lng (l / 8)) 4 else d

/-- STEP_BOOST_END: 50 ms of time in TRACK after a long hold (R126). -/
def stepBoostEnd (d : Dev) (l : Nat) : Dev :=
  if (d.lane l).boost.isSome && !d.boosted l then d.setLane l { d.lane l with boost := none } else d

/-- LANE_MARGIN_MEASURE: the auxiliary sampler's 10 ms result (R128). What follows while it stays low beyond 100 measurements, the spec leaves open:
the count starts again, and a re-adaptation that the 60 s bar is not made up for (log entry 87, DESIGN CHOICE). -/
def laneMargin (d : Dev) (l v h : Nat) : Dev :=
  let g := l / 8; let k := l % 8
  if d.laneLocked l ∧ !d.laneTest l ∧ !(d.lane l).scan then
    let d := ((d.set (F.LANE_MARGIN_V_MV g k) (min v 255)).set (F.LANE_MARGIN_H_UI64 g k) h).put (F.LANE_MARGIN_VALID g k) true
    let d := d.observe (lng g) 0x10 l (min v 255)
    let x := d.lane l
    let n := if v < d.get (F.LNG_ADAPT_CTRL_MARGIN_MIN g) then x.lowCnt + 1 else 0
    if n < 100 then d.setLane l { x with lowCnt := n }
    else
      let d := (d.putBit (F.LNG_SUMMARY_MARGIN_LOW g) k true).raise (lng g) 8
      let due := match x.readaptAt with | some t => decide (60000000000 ≤ d.elapsed t) | none => true
      if d.feat 21 && due && !d.frozen (lng g) && x.base ≠ 1 then
        let d := (d.setLane l { x with lowCnt := 0, base := 2, readapt := true, wins := 0, readaptAt := some d.time.c }).laneShow l
        (d.countSat (F.LANE_STAT_READAPT_CNT g k)).raise (lng g) 5
      else d.setLane l { x with lowCnt := 0 }
  else d

/-! ### Transmitter taps (R129, R130) -/

/-- A tap of width limit `top` moved by request `r` (0 hold, 1 increment, 2 decrement): its new value and the answer (1 updated, 2 at maximum,
3 at minimum). -/
def tapMove (top v r : Nat) : Nat × Nat :=
  if r = 1 then (if v < top then (v + 1, 1) else (v, 2)) else if r = 2 then (if 0 < v then (v - 1, 1) else (v, 3)) else (v, 1)

/-- The own receiver's request of a training block: what it asks of the partner's taps, the spec leaves to its measurement (a free value, log entry 87,
DESIGN CHOICE); FREEZE holds the requests (R127). -/
def ownRequest (d : Dev) (m : Nat) : Dev :=
  let l := 96 + m
  let taps := if d.frozen (lng 12) then [0, 0, 0] else (List.range 3).map (fun i => d.freeAt i 32 % 3)
  let hold := if taps.all (· = 0) then (match (d.lane l).ownHold with | some t => some t | none => some d.time.c) else none
  ((d.setLane l { d.lane l with ownHold := hold }).emit (.merRequest m taps)).freeUsed 3

/-- Training goes on: for at most 20 ms (R129). -/
def training (d : Dev) (m : Nat) : Bool := match (d.lane (96 + m)).trainAt with
  | some t => m < 4 && decide (d.elapsed t ≤ 20000000)
  | none => false

/-- MER_TRAIN_REQUEST: PRE and POST move as requested and MAIN takes what keeps the sum at 63 (log entry 15, DEDUCED); taps change only in training.
The answer goes back with the own receiver's request. -/
def merTrainRequest (d : Dev) (m pre main post : Nat) : Dev :=
  let l := 96 + m
  let x := d.lane l
  if d.training m then
    let a := tapMove 15 (d.get (F.LANE_TXTAP_PRE 12 m)) pre
    let c := tapMove 31 (d.get (F.LANE_TXTAP_POST 12 m)) post
    let main' := 63 - a.1 - c.1
    let b := if main = 1 ∧ main' ≤ d.get (F.LANE_TXTAP_MAIN 12 m) then 2
      else if main = 2 ∧ d.get (F.LANE_TXTAP_MAIN 12 m) ≤ main' then 3 else 1
    let d := ((d.set (F.LANE_TXTAP_PRE 12 m) a.1).set (F.LANE_TXTAP_POST 12 m) c.1).set (F.LANE_TXTAP_MAIN 12 m) main'
    let all := pre = 0 ∧ main = 0 ∧ post = 0
    let d := d.setLane l { x with holdAt := (if all then (match x.holdAt with | some t => some t | none => some d.time.c) else none) }
    (d.emit (.merTrain m [a.2, b, c.2])).ownRequest m
  else d

/-- MER_TRAIN_DONE: both receivers have requested hold on all taps for 1 ms, within 20 ms of the start (R129). -/
def merTrainDone (d : Dev) (m : Nat) : Dev :=
  let x := d.lane (96 + m)
  match x.holdAt, x.ownHold with
  | some t, some u =>
    if d.training m ∧ 1000000 ≤ d.elapsed t ∧ 1000000 ≤ d.elapsed u then
      (d.setLane (96 + m) { x with trainAt := none, holdAt := none, ownHold := none }).laneShow (96 + m)
    else d
  | _, _ => d

/-- TRAIN_FAIL: training has not ended within 20 ms: preset taps, TRAIN_FAIL (R129). -/
def trainFail (d : Dev) (m : Nat) : Dev :=
  let x := d.lane (96 + m)
  match x.trainAt with
  | some t =>
    if m < 4 ∧ 20000000 < d.elapsed t then
      let d := ((d.set (F.LANE_TXTAP_PRE 12 m) 4).set (F.LANE_TXTAP_MAIN 12 m) 49).set (F.LANE_TXTAP_POST 12 m) 10
      ((d.setLane (96 + m) { x with trainAt := none, holdAt := none, ownHold := none, trainFail := true }).laneShow (96 + m)).raise (lng 12) 7
    else d
  | none => d

/-- LANE_TXTAP_WRITE (R130). On a Meridian lane the taps are RO; the other kinds have none. -/
def txtapWrite (d : Dev) (l value : Nat) : Dev :=
  let g := l / 8; let k := l % 8; let off := 0x8C + 0x20 * k
  d.gated (lng g) off (fun d =>
    if laneKind l ≠ .relay then d
    else
      let pre := fieldOf (F.LANE_TXTAP_PRE g k) value
      let main := fieldOf (F.LANE_TXTAP_MAIN g k) value
      let post := fieldOf (F.LANE_TXTAP_POST g k) value
      if pre + main + post ≠ 63 ∨ 12 < fieldOf (F.LANE_TXTAP_AMP g k) value then d.refuse (lng g) off .range
      else d.putFields value [F.LANE_TXTAP_PRE g k, F.LANE_TXTAP_MAIN g k, F.LANE_TXTAP_POST g k, F.LANE_TXTAP_AMP g k])

/-! ### Test (R131, R132) -/

/-- A lane whose user is not using it. -/
def laneReleased (d : Dev) (l : Nat) : Bool := match laneKind l with
  | .cxp => d.portState (l / 4) = 0 || d.offline (cxp (l / 4)) || d.portState (l / 4) = 8
  | .relay => !d.bit (F.CXP_RELAY_RLY_EN ((l - 64) / 4))
  | .meridian => d.testBit F.TWIN_CTRL_LANE_WD (l - 96)
  | .spare => false

/-- LANE_TEST_EN: TEST is taken on a released lane or on a page in test; leaving it restarts the lane (R131). -/
def laneTestEn (d : Dev) (l : Nat) (v : Bool) : Dev :=
  let g := l / 8; let k := l % 8; let off := 0x80 + 0x20 * k
  d.gated (lng g) off (fun d =>
    if laneKind l = .spare then d
    else if v then
      if d.laneReleased l ∨ d.testing (lng g) then (((d.put (F.LANE_CFG_TEST_EN g k) true).testAnew l).laneShow l).relayOfLane l
      else d.refuse (lng g) off .state
    else if d.bit (F.LANE_CFG_TEST_EN g k) then
      let d := (((d.put (F.LANE_CFG_TEST_EN g k) false).put (F.LANE_PRBS_SYNC g k) false).testAnew l).unlock l
      (((if d.testing (lng g) then d else d.laneStart l)).laneShow l).relayOfLane l
    else d)

/-- An error counted, and at the first since CLR raised (R132). -/
def prbsError (d : Dev) (l : Nat) : Dev :=
  let g := l / 8; let k := l % 8
  let d := d.countSat (F.LANE_PRBS_ERR_ERRORS g k)
  if (d.lane l).prbsErred then d else (d.setLane l { d.lane l with prbsErred := true }).raise (lng g) 6

/-- One bit at a checker: 64 error-free bits synchronise it; from then on bits and errors are counted (R132). A bit is error-free when it follows the
pattern from the bits before it; once synchronised, the checker follows the pattern itself. -/
def prbsBit (l : Nat) (d : Dev) (b : Bool) : Dev :=
  let g := l / 8; let k := l % 8
  let x := d.lane l
  let pat := d.get (F.LANE_PRBS_PATTERN g k)
  let sync := d.bit (F.LANE_PRBS_SYNC g k)
  let (err, hist) := prbsStep pat sync x.hist b
  let x := { x with hist := hist }
  if !sync then
    let run := if err then 0 else x.prbsRun + 1
    if 64 ≤ run then (d.setLane l { x with prbsRun := 0 }).put (F.LANE_PRBS_SYNC g k) true else d.setLane l { x with prbsRun := run }
  else
    let d := if x.prbsRem + 1 = 65536 then (d.setLane l { x with prbsRem := 0 }).countSat (F.LANE_PRBS_BITS_BITS g k)
      else d.setLane l { x with prbsRem := x.prbsRem + 1 }
    if err then d.prbsError l else d

/-- A lane's transmitter in test for `n` bit times: with GEN it sends its pattern, from a state that the spec leaves open when it starts (log entry 87,
DESIGN CHOICE); nothing otherwise. -/
def prbsSend (d : Dev) (l n : Nat) : Dev × List Bool :=
  let g := l / 8; let k := l % 8
  let pat := d.get (F.LANE_PRBS_PATTERN g k)
  if !d.bit (F.LANE_PRBS_GEN g k) || pat = 0 || 5 < pat then (d, [])
  else
    let start := if (d.lane l).gen = [] then prbsSeed pat (d.freeVal 32) else (d.lane l).gen
    let d := if (d.lane l).gen = [] then d.freeUsed else d
    let r := prbsRun pat n start
    (d.setLane l { d.lane l with gen := r.2 }, r.1.map (· != d.bit (F.LANE_PRBS_INVERT g k)))

/-- PRBS_CHECK: the time of `bits` passes on a lane with TEST_EN, and these arrive at its receiver. A generator sends; near-end loopback gives its bits
to the receiver, far-end loopback sends on what arrives; a checker that runs takes the bits received (R131, R132, R136). -/
def prbsCheck (d : Dev) (l : Nat) (bits : List Bool) : Dev :=
  let g := l / 8; let k := l % 8
  let pat := d.get (F.LANE_PRBS_PATTERN g k)
  if !d.bit (F.LANE_CFG_TEST_EN g k) then d
  else
    let mer := decide (laneKind l = .meridian)
    let tx := if laneKind l = .relay ∨ laneKind l = .meridian then d.prbsSend l bits.length else (d, [])
    let rx := if mer && d.bit (F.LANE_CFG_LOOP_NEAR g k) then tx.2 else bits
    let out := if mer && d.bit (F.LANE_CFG_LOOP_FAR g k) then rx else tx.2
    let d := if out = [] then tx.1 else tx.1.emit (.prbs l out)
    if d.bit (F.LANE_PRBS_CHK g k) ∧ 1 ≤ pat ∧ pat ≤ 5 ∧ (laneKind l = .cxp ∨ laneKind l = .meridian) then
      (rx.map (· != d.bit (F.LANE_PRBS_INVERT g k))).foldl (prbsBit l) d
    else d

/-- PRBS_CLR: both counts to 0; an error in the same cycle is counted after the clear (R132). -/
def prbsClr (d : Dev) (l : Nat) (errNow : Bool) : Dev :=
  let g := l / 8; let k := l % 8
  d.gated (lng g) (0x90 + 0x20 * k) (fun d =>
    let d := (d.set (F.LANE_PRBS_ERR_ERRORS g k) 0).set (F.LANE_PRBS_BITS_BITS g k) 0
    let d := d.setLane l { d.lane l with prbsRem := 0, prbsErred := false }
    if errNow && d.bit (F.LANE_PRBS_SYNC g k) then d.prbsError l else d)

/-- PRBS_ERR_READ: the read latches LANE_PRBS_BITS for its next read (R132). -/
def prbsErrRead (d : Dev) (l : Nat) : Dev :=
  let g := l / 8; let k := l % 8
  let d := d.setLane l { d.lane l with bitsLatch := some (d.get (F.LANE_PRBS_BITS_BITS g k)) }
  d.emit (.readData (F.LANE_PRBS_ERR_ERRORS g k).addr (d.get (F.LANE_PRBS_ERR_ERRORS g k)))

/-- PLL_LOSS: the group's lane PLL loses lock (page interrupt bit 9). -/
def pllLoss (d : Dev) (g : Nat) : Dev :=
  if g < 13 ∧ d.bit (F.LNG_PLL_STAT_PLL_LOCK g) then
    ((d.put (F.LNG_PLL_STAT_PLL_LOCK g) false).countSat (F.LNG_PLL_STAT_LOSS_CNT g)).raise (lng g) 9
  else d

/-! ### Commands 0x41 and 0x42 (R133, R134) -/

/-- The lanes that LANE_ADAPT names: with bit 8 every bonded lane of the group. -/
def adaptLanes (d : Dev) : List Nat :=
  let l := d.arg 0 % 128
  if d.arg 0 / 256 % 2 = 1 then ((List.range 8).map (8 * (l / 8) + ·)).filter (fun l => laneKind l ≠ .spare) else [l]

/-- A LANE_ADAPT that ends without a qualifying window: the lanes keep the values from before it (R133). -/
def adaptAbort (d : Dev) : Dev :=
  (List.range 100).foldl (fun d l => match (d.lane l).saved with
    | none => d
    | some (ctle, dfe) =>
      let x := d.lane l
      let d := if x.qualified then d else d.setEq l ctle dfe
      (d.setLane l { x with saved := none, base := (if x.base = 2 then d.laneSettled else x.base) }).laneShow l) d

/-- LANE_ADAPT without bit 9: ADAPT from the present values on live data. -/
def laneAdapt (d : Dev) : Dev :=
  if d.executing 0x41 ∧ d.arg 0 / 512 % 2 = 0 ∧ !d.adaptPending then
    let ls := d.adaptLanes
    if 99 < d.arg 0 % 128 then d.complete .range
    else if ls.any (fun l => !d.laneLocked l) then d.complete .state 5
    else if ls.any (fun l => d.laneTest l || d.frozen (lng (l / 8))) then d.complete .state 6
    else ls.foldl (fun d l =>
      (d.setLane l { d.lane l with base := 2, wins := 0, saved := some (d.laneCtle l, d.laneDfe l), qualified := false, readapt := false }).laneShow l) d
  else d

/-- LANE_ADAPT with bit 9: the lanes restart from presets through ACQUIRE, with training on Meridian lanes. A relay lane has no receiver to restart: the
command completes without effect on it, which the spec leaves open (log entry 87, DESIGN CHOICE). -/
def laneAdaptRestart (d : Dev) : Dev :=
  if d.executing 0x41 ∧ d.arg 0 / 512 % 2 = 1 ∧ !d.adaptPending then
    let ls := (d.adaptLanes).filter (fun l => laneKind l = .cxp || laneKind l = .meridian)
    if 99 < d.arg 0 % 128 then d.complete .range
    else if d.adaptLanes.any (fun l => d.laneTest l || d.frozen (lng (l / 8))) then d.complete .state 6
    else if ls = [] then d.complete .ok
    else ls.foldl (fun d l =>
      let d := d.setLane l { d.lane l with saved := some (d.laneCtle l, d.laneDfe l), qualified := false }
      let d := (if d.laneLocked l then d.laneLose l else d.laneStart l).marginFresh l
      let d := if d.bit (F.LANE_CFG_EQ_MANUAL (l / 8) (l % 8)) then d else d.setEq l 8 [0, 0, 0]
      if laneKind l = .meridian then ((d.set (F.LANE_TXTAP_PRE 12 (l % 8)) 4).set (F.LANE_TXTAP_MAIN 12 (l % 8)) 49).set (F.LANE_TXTAP_POST 12 (l % 8)) 10
      else d) d
  else d

/-- The lane, exponent or offset of a scan outside its limits (R134). -/
def scanBad (l : Nat) (fast : Bool) (e offset : Nat) : Bool :=
  99 < l || e < 3 || decide ((if fast then 9 else 6) < e) || (!fast && offset % 0x4000 ≠ 0)

/-- The scan in hand takes longer than 1.8 s (R134). -/
def scanLong (d : Dev) : Bool :=
  decide (1800000 * d.laneRate (d.arg 0 % 128) < (if d.arg 1 % 2 = 1 then 16 else 4096) * (3 * 10 ^ (d.arg 2 % 16)))

/-- LANE_SCAN is accepted: a locked lane is held and its margin is not current until the scan ends (R134). -/
def scanBegin (d : Dev) (l : Nat) : Dev :=
  if d.laneLocked l && !d.scanLong then (d.setLane l { d.lane l with scan := true }).laneShow l else d

/-- The scan of a lane ends. -/
def scanEnd (d : Dev) (l : Nat) : Dev := (d.setLane l { d.lane l with scan := false }).laneShow l

/-- LANE_SCAN: the measured openings `h` and `v`, and the map's error counts, or loss of lock during the scan. The spec orders neither error: an
unlocked lane gives STATE before a scan that is too long gives RANGE (log entry 87, DESIGN CHOICE). -/
def laneScan (d : Dev) (lost : Bool) (h v : Nat) (counts : List Nat) : Dev :=
  if d.executing 0x42 then
    let l := d.arg 0 % 128
    let fast := d.arg 1 % 2 = 1
    if scanBad l fast (d.arg 2 % 16) (d.arg 3) then d.complete .range
    else if !d.laneLocked l then d.complete .state 5
    else if d.scanLong then d.complete .range
    else if !(d.lane l).scan then d.complete .state 5
    else if lost then d.laneLose l
    else
      let d := if fast then d else d.setBytes (d.arg 3) (wordsLe ((List.range 4096).map (fun i => counts.getD i 0)))
      (d.scanEnd l).complete .ok 0 [h, v]
  else d

end Dev

/-! ### The meanings -/

def execLaneLock (l ctle : Nat) (s : State) : Answer := s.run (·.laneLock l ctle)
def execLaneLockLoss (l : Nat) (s : State) : Answer := s.run (·.laneLockLoss l)
def execLaneAdaptDone (l : Nat) (s : State) : Answer := s.run (·.laneAdaptDone l)
def execLaneWindow (l transitions patterns ctle : Nat) (dfe : List Int) (s : State) : Answer :=
  s.run (·.laneWindow l transitions patterns ctle dfe)
def execContentHoldEntry (l : Nat) (s : State) : Answer := s.run (·.contentHoldEntry l)
def execContentHold (l : Nat) (s : State) : Answer := s.run (·.contentHold l)
def execStepBoostEnd (l : Nat) (s : State) : Answer := s.run (·.stepBoostEnd l)
def execLaneMarginMeasure (l v h : Nat) (s : State) : Answer := s.run (·.laneMargin l v h)
def execMerTrainRequest (m pre main post : Nat) (s : State) : Answer := s.run (·.merTrainRequest m pre main post)
def execMerTrainDone (m : Nat) (s : State) : Answer := s.run (·.merTrainDone m)
def execTrainFail (m : Nat) (s : State) : Answer := s.run (·.trainFail m)
def execLaneTxtapWrite (l value : Nat) (s : State) : Answer := s.run (·.txtapWrite l value)
def execLaneTestEn (l : Nat) (v : Bool) (s : State) : Answer := s.run (·.laneTestEn l v)
def execPrbsClr (l : Nat) (errNow : Bool) (s : State) : Answer := s.run (·.prbsClr l errNow)
def execPrbsErrRead (l : Nat) (s : State) : Answer := s.run (·.prbsErrRead l)
def execPllLoss (g : Nat) (s : State) : Answer := s.run (·.pllLoss g)
def execLaneAdapt (s : State) : Answer := s.run (·.laneAdapt)
def execLaneAdaptRestart (s : State) : Answer := s.run (·.laneAdaptRestart)
def execLaneScan (lost : Bool) (h v : Nat) (counts : List Nat) (s : State) : Answer := s.run (·.laneScan lost h v counts)

end Sys2Proof.Machine
end

