-- ==== Sys2Proof/Machine/Seg.lean ====
section
/-! DEFINITION. Segmentation and bodies (R191–R219): foreground, opening, labelling, contexts and crops, the record, outcomes at close, the commit
and retirement. -/

namespace Sys2Proof.Machine

/-! ### Free queues (R202, R204) -/

def contexts : Nat := 262144

/-- Numbers free in a queue whose numbers lie below `limit`. -/
def FreeQ.count (q : FreeQ) (limit : Nat) : Nat := limit - q.fresh + q.back.length

/-- The number at the head, and the queue without it. -/
def FreeQ.take (q : FreeQ) (limit : Nat) : Option (Nat × FreeQ) :=
  if q.fresh < limit then some (q.fresh, { q with fresh := q.fresh + 1 })
  else match q.back with
    | [] => none
    | i :: is => some (i, { q with back := is })

/-- Numbers in ascending order. -/
def sortNat (l : List Nat) : List Nat :=
  l.foldl (fun acc x => acc.takeWhile (· ≤ x) ++ [x] ++ acc.dropWhile (· ≤ x)) []

/-! ### Crop geometry (R208, Table seg-3) -/

/-- N of a SIZE code, and the pool's stride. -/
def cropN (size : Nat) : Nat := if size = 0 then 0 else 2 ^ (size + 3)

namespace Dev

/-- Slots of a pool, and its first slot number (R211). -/
def poolCount (d : Dev) (size : Nat) : Nat :=
  if size = 1 then d.get F.BODY_CROP_POOL0_SMALL else if size = 2 then d.get F.BODY_CROP_POOL0_MEDIUM
  else if size = 3 then d.get F.BODY_CROP_POOL1_LARGE else 0
def poolFirst (d : Dev) (size : Nat) : Nat :=
  if size = 2 then d.poolCount 1 else if size = 3 then d.poolCount 1 + d.poolCount 2 else 0

/-- The pool that a slot number belongs to. -/
def poolOf (d : Dev) (slot : Nat) : Nat := if slot < d.poolFirst 2 then 1 else if slot < d.poolFirst 3 then 2 else 3

def cropQ (d : Dev) (size : Nat) : FreeQ := Sparse.get d.seg.crops {} size
def setCropQ (d : Dev) (size : Nat) (q : FreeQ) : Dev := { d with seg := { d.seg with crops := Sparse.set d.seg.crops {} size q } }

/-- Free slots of a pool. -/
def cropFree (d : Dev) (size : Nat) : Nat := (d.cropQ size).count (d.poolCount size)
def ctxFreeCount (d : Dev) : Nat := d.seg.ctxFree.count contexts

/-- The registers that show the free queues; LOW follows FREE downwards. -/
def bodyShow (d : Dev) : Dev :=
  let n := d.ctxFreeCount
  ((((d.set F.BODY_CTX_STAT_FREE n).set F.BODY_CTX_LOW_LOW (min n (d.get F.BODY_CTX_LOW_LOW))).set F.BODY_CROP_FREE0_SMALL (d.cropFree 1)).set
    F.BODY_CROP_FREE0_MEDIUM (d.cropFree 2)).set F.BODY_CROP_FREE1_LARGE (d.cropFree 3)

/-- A batch of contexts and one of crop slots return to the tails of their queues, each in ascending order (R204). -/
def freeBatch (d : Dev) (ctxs slots : List Nat) : Dev :=
  let q := d.seg.ctxFree
  let d := if ctxs = [] then d
    else { d with seg := { d.seg with ctxFree := { q with back := q.back ++ sortNat ctxs }, ctxOut := false } }
  ((sortNat slots).foldl (fun d s =>
    let p := d.poolOf s
    let q := d.cropQ p
    let d := if s - d.poolFirst p < d.poolCount p then d.setCropQ p { q with back := q.back ++ [s - d.poolFirst p] } else d
    { d with seg := { d.seg with cropOut := d.seg.cropOut.filter (· ≠ p) } }) d).bodyShow

/-- The batch at the end of a row: what absorption, rewind and discard freed in it. -/
def rowBatch (d : Dev) : Dev :=
  let c := d.seg.freedCtx; let s := d.seg.freedCrop
  ({ d with seg := { d.seg with freedCtx := [], freedCrop := [] } }).freeBatch c s

/-- A body's context and crop slot to be returned with the batch of this row. -/
def freeLater (d : Dev) (b : Body) : Dev :=
  { d with seg := { d.seg with freedCtx := d.seg.freedCtx ++ [ctxOf b.id], missHeld := d.seg.missHeld.filter (·.1 ≠ b.id),
                               freedCrop := d.seg.freedCrop ++ (match b.crop with | some s => [s] | none => []) } }

/-! ### Foreground (R191–R194) -/

/-- SEG settings that a row takes with it (R218). -/
def segCfg (d : Dev) (g : Nat) : SegCfg :=
  { openEn := d.bit F.SEG_CTRL_OPEN_EN, widthMax := max 1 (d.get F.SEG_LIMITS_WIDTH_MAX), heightMax := d.get F.SEG_LIMITS_HEIGHT_MAX,
    areaMin := d.get (F.SEG_GRP_AREA_MIN g), synthMax := d.get (F.SEG_GRP_SYNTH_MAX g), rejR := d.bit (F.SEG_GRP_REJ_TRUNC_R g),
    rejL := d.bit (F.SEG_GRP_REJ_TRUNC_L g) }

/-- The noise-scaled form is in force (R193): SEG_STAT.ADAPTIVE. -/
def adaptive (d : Dev) : Bool := d.feat 23 && !d.frozen 0x36

/-- The port and camera column whose background entry a sky column takes (R192); `maps` in order of X_FIRST, `hard` as the row's blend took it. -/
def bgRef (d : Dev) (hard : Bool) (maps : List PortMap) (x : Nat) : Option (Nat × Nat) :=
  let at_ := fun (m : PortMap) =>
    (m.port, (clampI 0 ((d.lineLen m.port : Int) - 1) ((mapU m x + 32) / 64)).toNat)
  match maps.filter (fun m => decide (m.xFirst ≤ x ∧ x ≤ m.xLast)) with
  | [] => none
  | [m] => some (at_ m)
  | l :: r :: _ =>
    let a := r.xFirst; let m := l.xLast + 1 - a
    if l.synth && !r.synth then some (at_ r)
    else if r.synth && !l.synth then some (at_ l)
    else if hard then some (at_ (if x < a + m / 2 then l else r))
    else some (at_ (if (2 * (x - a) + 1) * 256 / (2 * m) < 128 then l else r))

/-- The two forms of the distance test of one pixel, each over the bands of DIST_BANDS (R191, R193). -/
def distances (d : Dev) (row : SkyRow) (x : Nat) : Bool × Bool :=
  match d.bgRef row.hard row.maps x with
  | none => (false, false)
  | some (p, col) =>
    let bands := (List.range row.bands.length).filter (fun b => decide (d.get (F.SEG_GRP_DIST_BANDS row.group) / 2 ^ b % 2 = 1))
    let dist := fun b => (((row.bands.getD b []).getD x 0 : Int) - (d.bgAt p b col).bg).natAbs
    (bands.any (fun b => decide (d.get F.SEG_THR_K * max (d.bgAt p b col).noise row.floor < dist b * 16)),
     bands.any (fun b => decide (d.get F.SEG_THR_FIX < dist b)))

/-- The foreground decision of a pixel under either form. -/
def pixelFg (d : Dev) (row : SkyRow) (x : Nat) : Bool × Bool :=
  let c := row.classes.getD x 0
  if row.noCover.getD x true then (false, false)
  else if c % 16 ≠ 0 then (true, true)
  else if c / 16 % 2 = 1 then (false, false)
  else d.distances row x

/-- The foreground decision of a row; the pixels on which the forms differ are counted. -/
def foreground (d : Dev) (row : SkyRow) : Dev × List Bool :=
  let ps := (List.range row.classes.length).map (d.pixelFg row)
  (d.count F.SEG_CNT_DIFF_COUNT (ps.filter (fun p => p.1 ≠ p.2)).length, ps.map (fun p => if d.adaptive then p.1 else p.2))

end Dev

/-! ### Opening (R195) -/

/-- Whether the 2 × 2 square with left column x in the rows a and b is foreground. -/
def square (a b : List Bool) (x : Nat) : Bool :=
  a.getD x false && a.getD (x + 1) false && b.getD x false && b.getD (x + 1) false

/-- The opened mask of a row between the rows above and below; an absent row is background. -/
def opened (above row below : List Bool) : List Bool :=
  (List.range row.length).map (fun x => row.getD x false &&
    ((0 < x && (square above row (x - 1) || square row below (x - 1))) || square above row x || square row below x))

/-! ### Runs (R196, R200) -/

/-- Maximal runs of set pixels, first and last column, left to right. -/
def runsOf (m : List Bool) : List (Nat × Nat) :=
  let r := (List.range m.length).foldl (fun (acc : List (Nat × Nat) × Option Nat) x =>
    if m.getD x false then (match acc.2 with | some _ => acc | none => (acc.1, some x))
    else match acc.2 with
      | some s => (acc.1 ++ [(s, x - 1)], none)
      | none => acc) ([], none)
  match r.2 with
  | some s => r.1 ++ [(s, m.length - 1)]
  | none => r.1

/-- A run cut from its left end into pieces of `w` pixels and a remainder. -/
def cutRun (w : Nat) (r : Nat × Nat) : List (Nat × Nat) :=
  (List.range ((r.2 - r.1) / w + 1)).map (fun i => (r.1 + i * w, min (r.1 + i * w + w - 1) r.2))

/-! ### The labeller (R197–R201, R205) -/

/-- A member of the set C of a run: an open body, or a body split by rows. -/
inductive Member where
  | body (id : Nat) | split (id : Nat)
  deriving DecidableEq, Repr

/-- What a split body's continuation came to: open under an ID, or without a context (R217). -/
inductive Cont where
  | open_ (id : Nat) | untracked
  deriving DecidableEq, Repr

/-- The labeller at work on row k: the device, open bodies, absorbed → survivor, continuations, bodies that stand for a split body, split bodies to
flag SPLIT_W when they continue, bodies with pixels in the row, the runs done. -/
structure Lab where
  d       : Dev
  row     : SkyRow
  cfg     : SegCfg
  link    : List (Nat × Nat × RunOf)
  all     : List (Nat × Nat)
  openB   : List Body
  merged  : List (Nat × Nat) := []
  cont    : List (Nat × Cont) := []
  stand   : List (Nat × Nat) := []
  flagW   : List Nat := []
  touched : List Nat := []
  done    : List (Nat × Nat × RunOf) := []

/-- The body that an ID has come to be. -/
def Lab.now (l : Lab) (id : Nat) : Nat := match l.merged.find? (fun m => m.1 = id) with
  | some m => m.2
  | none => id

def Lab.find (l : Lab) (id : Nat) : Option Body := l.openB.find? (fun b => b.id = id)
def Lab.upd (l : Lab) (id : Nat) (f : Body → Body) : Lab := { l with openB := l.openB.map (fun b => if b.id = id then f b else b) }
def Lab.splitCont (l : Lab) (id : Nat) : Option Cont := (l.cont.find? (fun c => c.1 = id)).map (·.2)

/-- Whether columns [a, b] of the row above are reached by the run [s, e] (R197). -/
def reaches (s e a b : Nat) : Bool := decide (a ≤ e + 1 ∧ s ≤ b + 1)

/-- The part of the row above that a split body holds, as the runs of its pixels. -/
def Lab.splitRuns (l : Lab) (id : Nat) : List (Nat × Nat) :=
  (l.link.filter (fun r => r.2.2 = .split id)).map (fun r => (r.1, r.2.1))

/-- The priority key of a member (R196, R201): rows before row k, then a column. -/
def Lab.keyOf (l : Lab) : Member → Int × Nat
  | .body id => match l.find id with
    | some b => (sgn 32 ((b.firstIdx + 2 ^ 32 - l.row.index) % 2 ^ 32), b.x0)
    | none => (0, 0)
  | .split id =>
    (0, ((l.all.find? (fun r => (l.splitRuns id).any (fun p => reaches r.1 r.2 p.1 p.2))).map (·.1)).getD 0)

/-- The columns a member counts with in the width test. -/
def Lab.spanOf (l : Lab) : Member → Nat × Nat
  | .body id => match l.find id with
    | some b => (b.xMin, b.xMax)
    | none => (0, 0)
  | .split id => ((l.splitRuns id).foldl (fun m r => min m r.1) (((l.splitRuns id).map (·.1)).headD 0), (l.splitRuns id).foldl (fun m r => max m r.2) 0)

/-- What one run of the row above means for C: a member, or an untracked component. -/
def Lab.memberOf (l : Lab) : RunOf → Option Member
  | .untracked => none
  | .body id => some (.body (l.now id))
  | .split id => match l.stand.find? (fun p => p.1 = id) with
    | some p => some (.body (l.now p.2))
    | none => match l.splitCont id with
      | some .untracked => none
      | _ => some (.split id)

/-- The set C in order of priority. -/
def Lab.setC (l : Lab) (s e : Nat) : List Member :=
  let ms := ((l.link.filter (fun r => reaches s e r.1 r.2.1)).filterMap (fun r => l.memberOf r.2.2)).eraseDups
  let before := fun (a b : Member) =>
    let x := l.keyOf a; let y := l.keyOf b
    decide (x.1 < y.1 ∨ (x.1 = y.1 ∧ x.2 ≤ y.2))
  ms.foldl (fun acc m => acc.takeWhile (fun a => before a m) ++ [m] ++ acc.dropWhile (fun a => before a m)) []

/-- The set J: the members that the width test lets in, in order. -/
def Lab.setJ (l : Lab) (s e : Nat) (c : List Member) : List Member :=
  (c.foldl (fun (acc : List Member × Nat × Nat) m =>
    let r := l.spanOf m
    let a := min acc.2.1 r.1; let b := max acc.2.2 r.2
    if b + 1 - a ≤ l.cfg.widthMax then (acc.1 ++ [m], a, b) else acc) ([], s, e)).1

/-- A new body's context (R202, R205); none with the queue empty. -/
def Dev.takeCtx (d : Dev) : Dev × Option Nat := match d.seg.ctxFree.take contexts with
  | none =>
    let d' := d.count F.BODY_CNT_CTX_FULL_COUNT
    (if d.seg.ctxOut then d' else ({ d' with seg := { d'.seg with ctxOut := true } }).raise 0x37 4, none)
  | some (i, q) =>
    let g := Sparse.get d.seg.gens 0 i
    let g := if 16383 ≤ g then 1 else g + 1
    let was := d.ctxFreeCount
    let d := ({ d with seg := { d.seg with ctxFree := q, gens := Sparse.set d.seg.gens 0 i g } }).bodyShow
    let w := d.get F.BODY_CTX_WARN_WARN
    (if w ≤ was ∧ d.ctxFreeCount < w then d.raise 0x37 3 else d, some (i * 2 ^ 14 + g))

/-- A crop slot for a new body of group g, its bytes made 0 (R209, R212). -/
def Dev.takeCrop (d : Dev) (g : Nat) : Dev × Option Nat :=
  let size := d.get (F.BODY_CROP_SIZE g)
  if size = 0 then (d, none)
  else match (d.cropQ size).take (d.poolCount size) with
    | none =>
      let d' := d.count F.BODY_CNT_CROP_FULL_COUNT
      (if d.seg.cropOut.contains size then d' else ({ d' with seg := { d'.seg with cropOut := d.seg.cropOut ++ [size] } }).raise 0x37 5, none)
    | some (i, q) =>
      let slot := i + d.poolFirst size
      let d := (d.setCropQ size q).bodyShow
      let (off, len) := d.cropPlace slot
      ({ d with mem := clearCells d.mem off len }, some slot)

/-- A body opened by the run [s, e] of the row (R197, R208). -/
def Lab.open_ (l : Lab) (s e : Nat) (splitW cont : Bool) : Lab × Option Nat :=
  let (d, got) := l.d.takeCtx
  match got with
  | none => ({ l with d := d }, none)
  | some id =>
    let g := l.row.group
    let (d, crop) := d.takeCrop g
    let n := cropN (d.get (F.BODY_CROP_SIZE g)); let dec := 2 ^ d.get (F.BODY_CROP_DEC g)
    let cx0 := (clampI 0 ((d.groupWidth g - n * dec : Nat)) (((s + e) / 2 : Nat) - (n / 2 * dec : Nat))).toNat
    let b : Body := { id := id, group := g, firstIdx := l.row.index, x0 := s, firstT := l.row.stamp, lastIdx := l.row.index, lastT := l.row.stamp,
                      xMin := s, xMax := e, splitW := splitW, cont := cont, crop := crop, cx0 := cx0 }
    ({ l with d := d.count F.SEG_CNT_OPENS_COUNT, openB := l.openB ++ [b] }, some id)

/-- Σ x² over the columns s to e. -/
def sumSq (s e : Nat) : Nat := ((List.range (e + 1 - s)).map (fun i => (s + i) * (s + i))).sum

/-- The pixels of a run joined to a body (R206, R207). -/
def Lab.add (l : Lab) (id s e : Nat) : Lab :=
  let n := e + 1 - s
  let xs := (s + e) * n / 2
  let cols := (List.range n).map (s + ·)
  let cls := cols.map (fun x => l.row.classes.getD x 0)
  let l := l.upd id (fun b =>
    let y := (l.row.index + 2 ^ 32 - b.firstIdx) % 2 ^ 32
    { b with area := b.area + n, sx := b.sx + xs, sy := b.sy + y * n, sxx := b.sxx + sumSq s e, syy := b.syy + y * y * n, sxy := b.sxy + y * xs
             bsum := (List.range 4).map (fun k => b.bsum.getD k 0 + (cols.map (fun x => (l.row.bands.getD k []).getD x 0)).sum)
             hist := (List.range 16).map (fun k => b.hist.getD k 0 + (cls.filter (fun c => c % 16 = k)).length)
             tagOr := cls.foldl (fun t c => t ||| c / 32 % 8) b.tagOr
             xMin := min b.xMin s, xMax := max b.xMax e
             nocover := b.nocover || (0 < s && l.row.noCover.getD (s - 1) false) || l.row.noCover.getD (e + 1) false })
  { l with touched := if l.touched.contains id then l.touched else l.touched ++ [id] }

/-- One body absorbed by another (R198): its sums are re-based to the survivor's first row. -/
def Body.absorb (b a : Body) : Body :=
  let dy : Int := sgn 32 ((a.firstIdx + 2 ^ 32 - b.firstIdx) % 2 ^ 32)
  { b with area := b.area + a.area, sx := b.sx + a.sx, sxx := b.sxx + a.sxx
           sy := ((b.sy + a.sy : Nat) + dy * a.area).toNat
           syy := ((b.syy + a.syy : Nat) + 2 * dy * a.sy + dy * dy * a.area).toNat
           sxy := ((b.sxy + a.sxy : Nat) + dy * a.sx).toNat
           bsum := (List.range 4).map (fun k => b.bsum.getD k 0 + a.bsum.getD k 0)
           hist := (List.range 16).map (fun k => b.hist.getD k 0 + a.hist.getD k 0)
           synthRows := b.synthRows + a.synthRows, merges := b.merges + a.merges + 1, tagOr := b.tagOr ||| a.tagOr
           nocover := b.nocover || a.nocover, splitW := b.splitW || a.splitW, cont := b.cont || a.cont
           parity := b.parity || a.parity, partialC := true, xMin := min b.xMin a.xMin, xMax := max b.xMax a.xMax }

def Lab.merge (l : Lab) (into id : Nat) : Lab := match l.find id with
  | none => l
  | some a =>
    if id = into then l
    else
      let l := l.upd into (fun b => b.absorb a)
      { l with d := (l.d.freeLater a).count F.SEG_CNT_MERGES_COUNT
               openB := l.openB.filter (fun b => b.id ≠ id)
               merged := l.merged.map (fun m => if m.2 = id then (m.1, into) else m) ++ [(id, into)]
               touched := if l.touched.contains id then l.touched.filter (· ≠ id) ++ (if l.touched.contains into then [] else [into]) else l.touched }

/-- SPLIT_W on a member of C that is not in J; a split body stands for its continuation, open or still to come. -/
def Lab.flag (l : Lab) : Member → Lab
  | .body id => l.upd id (fun b => { b with splitW := true })
  | .split id => match l.splitCont id with
    | some (.open_ c) => l.upd (l.now c) (fun b => { b with splitW := true })
    | _ => { l with flagW := l.flagW ++ [id] }

/-- A run that set SPLIT_W (R197). -/
def Lab.countW (l : Lab) : Lab := { l with d := (l.d.count F.SEG_CNT_SPLIT_W_COUNT).raise 0x36 3 }

/-- The first member of J takes the run; a split body takes it with its continuation, which the first such run opens (R201, R205). -/
def Lab.joinFirst (l : Lab) (s e : Nat) (m : Member) : Lab × Option Nat := match m with
  | .body id => (l, some id)
  | .split id => match l.splitCont id with
    | some (.open_ c) => (l, some (l.now c))
    | some .untracked => (l, none)
    | none =>
      let (l, got) := l.open_ s e (l.flagW.contains id) true
      match got with
      | some c => ({ l with cont := l.cont ++ [(id, .open_ c)] }, some c)
      | none => ({ l with cont := l.cont ++ [(id, .untracked)] }, none)

/-- A further member of J joins the body that takes the run, or takes it where the first had no context; a continuation not yet open is never
opened (R201, R205). -/
def Lab.join (acc : Lab × Option Nat) (m : Member) : Lab × Option Nat :=
  let l := acc.1
  match acc.2, m with
  | none, .body id => (l, some id)
  | some t, .body id => (l.merge t id, some t)
  | none, .split id => match l.splitCont id with
    | some (.open_ c) => (l, some (l.now c))
    | some .untracked => (l, none)
    | none => ({ l with cont := l.cont ++ [(id, .untracked)] }, none)
  | some t, .split id =>
    let l := match l.splitCont id with
      | some (.open_ c) => l.merge t (l.now c)
      | _ => l
    ({ l with stand := l.stand ++ [(id, t)] }, some t)

/-- One run labelled (R197, R201, R205). -/
def Lab.run (l : Lab) (r : Nat × Nat) : Lab :=
  let s := r.1; let e := r.2
  let c := l.setC s e
  let untracked := (l.link.filter (fun p => reaches s e p.1 p.2.1)).any (fun p => (l.memberOf p.2.2).isNone)
  let finish := fun (l : Lab) (owner : Option Nat) => match owner with
    | some id => { l.add id s e with done := l.done ++ [(s, e, .body id)] }
    | none => { l with done := l.done ++ [(s, e, .untracked)] }
  match c with
  | [] =>
    if untracked then finish l none
    else
      let (l, got) := l.open_ s e false false
      finish l got
  | _ :: _ =>
    match l.setJ s e c with
    | [] =>
      let l := c.foldl Lab.flag l
      let (l, got) := l.open_ s e true false
      finish l.countW got
    | m :: ms =>
      let j := m :: ms
      let (l, got) := ms.foldl Lab.join (l.joinFirst s e m)
      let rest := c.filter (fun m => !j.contains m)
      let l := if rest = [] then l
        else
          let l := rest.foldl Lab.flag l
          (match got with | some id => l.upd id (fun b => { b with splitW := true }) | none => l).countW
      finish l got

/-! ### Crops (R208–R211) -/

namespace Dev

/-- The crop row of a body in a sky row, with the columns it holds there (R209). -/
def cropRow (d : Dev) (b : Body) (row : SkyRow) (runs : List (Nat × Nat)) : Dev := match b.crop with
  | none => d
  | some slot =>
    let g := b.group
    let n := cropN (d.get (F.BODY_CROP_SIZE g)); let dec := 2 ^ d.get (F.BODY_CROP_DEC g)
    let k := (row.index + 2 ^ 32 - b.firstIdx) % 2 ^ 32
    if k % dec ≠ 0 ∨ n ≤ k / dec then d
    else
      let i := k / dec
      let base := (d.cropPlace slot).1
      let cols := fun j => (List.range dec).map (fun t => b.cx0 + j * dec + t)
      let pix := (List.range n).flatMap (fun j => (List.range 4).map (fun band =>
        min 255 (((cols j).map (fun x => (row.bands.getD band []).getD x 0)).sum / (dec * 2 ^ d.get (F.BODY_CROP_SHIFT g)))))
      let mine := fun j => (cols j).any (fun x => runs.any (fun r => decide (r.1 ≤ x ∧ x ≤ r.2)))
      let mask := (List.range (n / 8)).map (fun m => ((List.range 8).map (fun t => b2n (mine (8 * m + t)) * 2 ^ t)).sum)
      (d.setBytes (base + 0x10 + 4 * n * i) pix).setBytes (base + 0x10 + 4 * n * n + i * (n / 8)) mask

/-! ### Outcomes at close (R207, R213, R516) -/

/-- A digest of the rows kept gets a body that closes with its row, and its outcome. -/
def digestBody (d : Dev) (g k id outcome : Nat) : Dev :=
  { d with seg := { d.seg with digests := d.seg.digests.map (fun x => if x.group = g ∧ x.index = k then { x with bodies := x.bodies ++ [(id, outcome)] } else x) } }

/-- The outcome of a body at its close: 0 commit, 1 to 4 in the order of Table seg-4. -/
def outcome (d : Dev) (cfg : SegCfg) (b : Body) : Nat :=
  if b.parity then 1
  else if cfg.synthMax < 255 ∧ cfg.synthMax < b.synthRows then 2
  else if (cfg.rejL ∧ b.xMin = 0) ∨ (cfg.rejR ∧ b.xMax + 1 = d.groupWidth b.group) then 3
  else if b.area < cfg.areaMin then 4
  else 0

/-- A body closes (R213); `k` is its closing row. -/
def closeBody (d : Dev) (cfg : SegCfg) (k : Nat) (b : Body) : Dev :=
  let o := d.outcome cfg b
  let d := d.digestBody b.group k b.id o
  match o with
  | 0 => { d with seg := { d.seg with closed := d.seg.closed ++ [(b, d.now)] } }
  | 1 => ((d.count F.BODY_CNT_REW_PARITY_COUNT).raise 0x37 6).freeLater b
  | 2 => ((d.count F.BODY_CNT_REW_SYNTH_COUNT).raise 0x37 6).freeLater b
  | 3 => ((d.count F.BODY_CNT_REW_TRUNC_COUNT).raise 0x37 6).freeLater b
  | _ => (d.count F.BODY_CNT_SMALL_COUNT).freeLater b

/-- Bodies of a row by priority key (R196). -/
def byKey (k : Nat) (bs : List Body) : List Body :=
  let before := fun (a b : Body) =>
    let x := sgn 32 ((a.firstIdx + 2 ^ 32 - k) % 2 ^ 32); let y := sgn 32 ((b.firstIdx + 2 ^ 32 - k) % 2 ^ 32)
    decide (x < y ∨ (x = y ∧ a.x0 ≤ b.x0))
  bs.foldl (fun acc b => acc.takeWhile (fun a => before a b) ++ [b] ++ acc.dropWhile (fun a => before a b)) []

/-- ROW_DIG of a row (R516). -/
def rowDigest (row : SkyRow) (fg mask : List Bool) : Nat :=
  crc32c ((List.range row.classes.length).flatMap (fun x =>
    [row.classes.getD x 0, b2n (fg.getD x false) + 2 * b2n (mask.getD x false)]) ++ leBytes 4 row.index)

/-- A row labelled: the opening with the row below, the runs, the closes (R195–R203). -/
def labelOnly (d : Dev) (row : SkyRow) (fg : List Bool) (cfg : SegCfg) (below : List Bool) : Dev :=
  let g := row.group; let k := row.index
  let x := d.segGroup g
  let prevK := (k + 2 ^ 32 - 1) % 2 ^ 32
  let above := match x.prevFg with | some (i, f) => if i = prevK then f else [] | none => []
  let mask := if cfg.openEn then opened above fg below else fg
  let d := d.count F.SEG_CNT_OPENED_COUNT ((List.range fg.length).filter (fun i => fg.getD i false && !mask.getD i false)).length
  let d := if d.groupShared g then { d with seg := { d.seg with digests := d.seg.digests ++ [{ group := g, index := k, rowDig := rowDigest row fg mask, formed := d.time.c }] } }
    else d
  let runs := (runsOf mask).flatMap (cutRun cfg.widthMax)
  let link := if x.runsIdx = some prevK then x.runs else []
  let l := runs.foldl Lab.run { d := d, row := row, cfg := cfg, link := link, all := runs, openB := x.openB }
  let done := l.done.map (fun r => (r.1, r.2.1, match r.2.2 with | .body id => RunOf.body (l.now id) | o => o))
  -- the row's share of every body that has a pixel in it
  let mine := fun id => (done.filter (fun r => r.2.2 = .body id)).map (fun r => (r.1, r.2.1))
  let live := l.openB.map (fun b => if l.touched.contains b.id then
    { b with lastIdx := k, lastT := row.stamp, synthRows := b.synthRows + b2n row.synth, parity := b.parity || row.parity } else b)
  let d := live.foldl (fun d b => if l.touched.contains b.id then d.cropRow b row (mine b.id) else d) l.d
  let tall := fun (b : Body) => l.touched.contains b.id && decide ((k + 2 ^ 32 - b.firstIdx) % 2 ^ 32 + 1 = cfg.heightMax)
  let d := (live.filter tall).foldl (fun d _ => (d.count F.SEG_CNT_SPLIT_ROWS_COUNT).raise 0x36 3) d
  let closing := byKey k ((live.filter (fun b => !l.touched.contains b.id || tall b)).map (fun b => if tall b then { b with splitRows := true } else b))
  let d := closing.foldl (fun d b => d.closeBody cfg k b) d
  d.setSegGroup g { d.segGroup g with
    openB := live.filter (fun b => l.touched.contains b.id && !tall b), runsIdx := some k, prevFg := some (k, fg), last := some (k, row.stamp), expDue := true
    lastCfg := some cfg
    runs := done.map (fun r => (r.1, r.2.1, match r.2.2 with
      | .body id => if live.any (fun b => b.id = id && tall b) then RunOf.split id else .body id
      | o => o)) }

/-- A row labelled, with the batch of what it freed (R204). -/
def labelRow (d : Dev) (row : SkyRow) (fg : List Bool) (cfg : SegCfg) (below : List Bool) : Dev := (d.labelOnly row fg cfg below).rowBatch

/-! ### The record and the commit (R206, R207, R214) -/

/-- A quotient rounded to nearest, ties upward. -/
def roundUp (a b : Int) : Int := (2 * a + b) / (2 * b)

/-- The words 0x00 to 0x78 of a committed record (Table seg-1). -/
def recordWords (d : Dev) (b : Body) (tRef40 : Nat) (o : TrajOut) : List Nat :=
  let n : Int := b.area
  let w := d.groupWidth b.group
  let xc := (roundUp (32 * b.sx) n).toNat; let yc := (roundUp (32 * b.sy) n).toNat
  let varOf := fun (sq s t : Int) => roundUp (256 * (n * sq - s * t)) (n * n)
  let tEj := uns 40 o.tEj
  let first := b.firstT / 65536 % 2 ^ 40; let last := b.lastT / 65536 % 2 ^ 40
  let dec := 2 ^ d.get (F.BODY_CROP_DEC b.group); let cn := cropN (d.get (F.BODY_CROP_SIZE b.group)) * dec
  let height := (b.lastIdx + 2 ^ 32 - b.firstIdx) % 2 ^ 32 + 1
  let clipped := b.crop.isSome && (decide (b.xMin < b.cx0) || decide (b.cx0 + cn ≤ b.xMax) || decide (cn < height))
  let bit := fun (v : Bool) k => b2n v * 2 ^ k
  [b.id,
   b.tagOr % 8 * 2 ^ 28 + bit (decide (0 < b.merges)) 27 + bit (b.partialC && b.crop.isSome) 26 + bit clipped 25 + bit b.crop.isNone 24 + bit b.nocover 23
     + bit b.splitW 22 + bit b.cont 21 + bit b.splitRows 20 + bit b.truncStop 19 + bit (decide (b.xMax + 1 = w)) 18 + bit (decide (b.xMin = 0)) 17
     + bit (decide (0 < b.synthRows)) 16 + o.flags * 256 + b.group,
   b.firstIdx, min 15 b.merges * 2 ^ 28 + min 4095 b.synthRows * 2 ^ 16 + height % 2 ^ 13,
   b.xMax % 65536 * 65536 + b.xMin % 65536, b.area % 2 ^ 23, first % 2 ^ 32, last % 2 ^ 32,
   (b.crop.getD 0x7FFF) % 2 ^ 15 * 2 ^ 16 + last / 2 ^ 32 * 256 + first / 2 ^ 32,
   tRef40 / 2 ^ 32 * 2 ^ 24 + xc % 2 ^ 21, tEj / 2 ^ 32 * 2 ^ 24 + yc % 2 ^ 17,
   uns 32 (varOf b.sxx b.sx b.sx), uns 32 (varOf b.syy b.sy b.sy), uns 32 (varOf b.sxy b.sx b.sy)]
  ++ (List.range 4).map (fun k => b.bsum.getD k 0 % 2 ^ 32)
  ++ [((List.range 4).map (fun k => b.bsum.getD k 0 / 2 ^ 32 % 256 * 2 ^ (8 * k))).sum]
  ++ (List.range 8).map (fun i => min 65535 (b.hist.getD (2 * i + 1) 0) * 65536 + min 65535 (b.hist.getD (2 * i) 0))
  ++ [tRef40 % 2 ^ 32, tEj % 2 ^ 32, uns 32 o.vx, uns 32 o.vy]

/-- The crop header (Table seg-2). -/
def cropHeader (d : Dev) (b : Body) : List Nat :=
  let g := b.group
  let n := cropN (d.get (F.BODY_CROP_SIZE g)); let dec := 2 ^ d.get (F.BODY_CROP_DEC g)
  let height := (b.lastIdx + 2 ^ 32 - b.firstIdx) % 2 ^ 32 + 1
  let clipped := decide (b.xMin < b.cx0) || decide (b.cx0 + n * dec ≤ b.xMax) || decide (n * dec < height)
  [b.id, b.cx0 % 65536 + min n ((height - 1) / dec + 1) * 2 ^ 16 + d.get (F.BODY_CROP_DEC g) * 2 ^ 24 + d.get (F.BODY_CROP_SIZE g) * 2 ^ 26
    + b2n clipped * 2 ^ 28 + b2n b.partialC * 2 ^ 29, b.firstIdx, 0]

/-- Every triggered row is processed: none is on its way, no body is open or waits for its commit. -/
def rowsDone (d : Dev) : Bool :=
  (List.range 16).all (fun p => (d.port p).fifo = []) && d.slotsOut = [] && d.corOut = [] && d.skyOut = []
    && (List.range 8).all (fun g => (d.segGroup g).openB = [] && (d.segGroup g).pend.isNone) && d.seg.closed = []

/-- In a STOP with drain the upper entries still stored are released once the last row is processed (R240). -/
def drainStore (d : Dev) : Dev := if d.plan.drain && d.rowsDone then d.releaseStore else d

/-- A shadow's body whose MISS record came before its commit: cause 5, or a divergence where the record came after deadline + GRACE (R257). -/
def missAtCommit (d : Dev) (b : CBody) : Dev :=
  let held := d.seg.missHeld.find? (·.1 = b.id)
  let d := { d with seg := { d.seg with missHeld := d.seg.missHeld.filter (·.1 ≠ b.id) } }
  match held with
  | none => d
  | some m =>
    if st40Diff b.deadline (uns 40 m.2) < -(b.grace * 1000 : Nat) then d.count F.DISP_CNT_DIVERGED_COUNT
    else if d.isShadow then d.defaultVerdict b 5 else d

/-- Where a committed body's verdict comes from (R251, R256, R257, R326, R523, Table twin-4). -/
def placeBody (d : Dev) (b : CBody) : Dev :=
  let drop := fun (d : Dev) => d.updBody b.id (fun c => { c with place := .resolved, planned := true })
  if d.feat 1 && decide (d.role = 3) then (drop d).count F.MODE_CNT_PRESYNC_COUNT
  else if d.state = 7 then drop d
  else if d.state = 6 then (d.count (F.DISP_GRP_VERD_COUNT b.group)).twilightPass b 0 false
  else if !d.isShadow && decide (d.poolSize b.slot = 0) then d.defaultVerdict b 7
  else d.missAtCommit b

/-- BODY_COMMIT: the oldest closed body is committed (R214). -/
def bodyCommit (d : Dev) : Dev := match d.seg.closed with
  | [] => d
  | (b, closeAt) :: rest =>
    let d := { d with seg := { d.seg with closed := rest, trajOld := [] } }
    let g := b.group; let i := ctxOf b.id
    let d := (d.dispSwapDue (some (b.lastT / 65536, 0, 0))).swapPassed dispSwap (b.lastT / 65536)
    let n : Int := b.area
    let xc := (roundUp (32 * b.sx) n).toNat; let yc := (roundUp (32 * b.sy) n).toNat
    let height := (b.lastIdx + 2 ^ 32 - b.firstIdx) % 2 ^ 32 + 1
    let tRef := d.tRefOf g b.firstIdx yc height b.firstT b.lastT
    let cut := decide (b.xMin = 0) || decide (b.xMax + 1 = d.groupWidth g) || b.truncStop || b.splitW || b.splitRows || b.cont
    let seq := (d.get F.BODY_COMMIT_SEQ_COUNT + 1) % 2 ^ 32
    let (d, o) := d.trajCommit { id := b.id, group := g, x := d.worldX g xc, tRef := tRef, area := b.area, eligible := !cut, seq := seq }
    let d := d.setBytes (ctxOff i) (wordsLe (d.recordWords b (uns 40 tRef) o))
    let d := match b.crop with
      | some s => d.setBytes (d.cropPlace s).1 (wordsLe (d.cropHeader b))
      | none => d
    let d := (d.set F.BODY_COMMIT_SEQ_COUNT seq).write (ctxOff i + 0x7C) 4 (seq % 65536 * 65536 + b.id % 2 ^ 14)
    let c : CBody := { id := b.id, group := g, slot := d.get (F.DISP_GRP_A_SLOT g), seq := seq, tEj := uns 40 o.tEj
                       deadline := uns 40 (o.tEj - d.get (F.DISP_GRP_A_LEAD g) * 1000), retire := uns 40 (o.tEj + d.get F.BODY_CTRL_RETAIN * 1000)
                       entry := o.entry, partner := o.partner, crop := b.crop, runLimit := d.get (F.DISP_GRP_B_RUN_LIMIT g)
                       minRun := d.get (F.DISP_GRP_B_MIN_RUN g), dflt := d.get (F.DISP_GRP_A_DEFAULT g), grace := d.get F.DISP_CTRL_GRACE }
    let d := { d with seg := { d.seg with bodies := d.seg.bodies ++ [c] } }
    let d := (d.observe 0x37 0x02 g ((d.now : Int) - closeAt)).observe 0x37 0x05 g b.area
    (d.placeBody c).drainStore

/-- Every closed body committed, oldest first. -/
def commitClosed (d : Dev) : Dev := d.seg.closed.foldl (fun d _ => d.bodyCommit) d

/-! ### Retirement (R203, R204) -/

/-- Words 1 and 2 of a body's final verdict; none without a verdict (R516). -/
def verdWords (c : CBody) : List Nat := match c.verdict with | some v => [v.w1, v.hint] | none => []

/-- A retired body noted in the digest of its row, where that has still to go (R516). -/
def goneNote (d : Dev) (c : CBody) (x : Digest) : Digest :=
  if x.sent || x.bodies.all (fun b => b.1 ≠ c.id) then x
  else { x with gone := x.gone ++ [⟨c.id, d.now + st40Diff c.deadline (uns 40 d.now) + c.grace * 1000, verdWords c⟩] }

/-- Committed bodies retired as one batch; stored entries among them are released first (R227). -/
def retireBodies (d : Dev) (bs : List CBody) : Dev :=
  if bs = [] then d
  else
    let d := bs.foldl (fun d b => d.releaseEntry b.id) d
    let gone := fun (c : CBody) => bs.any (fun b => b.id = c.id)
    let digests := d.seg.digests.map (fun x => bs.foldl (fun x c => d.goneNote c x) x)
    let d := { d with seg := { d.seg with bodies := d.seg.bodies.filter (fun c => !gone c), digests := digests } }
    (d.count F.BODY_CNT_RETIRED_COUNT bs.length).freeBatch (bs.map (fun b => ctxOf b.id)) (bs.filterMap (·.crop))

/-- The bodies due before a row slot with trigger DT `t` in ns. -/
def retireBefore (d : Dev) (t : Nat) : Dev :=
  d.retireBodies (d.seg.bodies.filter (fun b => decide (0 ≤ st40Diff (t % 2 ^ 40) b.retire)))

/-- Every committed body retired, as on entering CONFIGURED. -/
def retireAll (d : Dev) : Dev := d.retireBodies d.seg.bodies

/-- BODY_RETIRE: the next row slot retires the bodies due before it. -/
def bodyRetire (d : Dev) : Dev := match d.skyOut with
  | row :: _ => d.retireBefore (row.stamp / 65536)
  | [] => d

/-! ### Rows arriving -/

/-- The rows recorded for the driver (R447, Table host-8). -/
def recordRow (d : Dev) (row : SkyRow) : Dev :=
  if d.recLeft = 0 ∨ d.get F.HOST_REC_GROUP ≠ row.group then d
  else
    let w := row.classes.length
    let nb := row.bands.length
    let samples := (List.range w).flatMap (fun x => (List.range nb).flatMap (fun b => leBytes 2 ((row.bands.getD b []).getD x 0)))
    let head := (nb - 1) * 2 ^ 22 + row.group * 2 ^ 19 + b2n row.synth * 2 ^ 18 + b2n row.parity * 2 ^ 17 + (w - 1) % 65536
    let d := { d with recLeft := d.recLeft - 1 }
    (if d.recLeft = 0 then d.put F.HOST_REC_BUSY false else d).imageRecord 5 head row.index samples

/-- Every open body of a group closed with TRUNC_STOP at its last row, under the settings of that row; how many. What that row freed and what these
closes free return as one batch (R204). -/
def truncGroup (d : Dev) (g : Nat) : Dev × Nat :=
  let x := d.segGroup g
  let k := match x.last with | some (k, _) => k | none => 0
  let bs := (byKey k x.openB).map (fun b => { b with truncStop := true })
  let cfg := x.lastCfg.getD (d.segCfg g)
  let d := bs.foldl (fun d b => d.closeBody cfg b.lastIdx b) d
  ((d.setSegGroup g { d.segGroup g with openB := [], runs := [], runsIdx := none, prevFg := none }).rowBatch, bs.length)

/-- The waiting row of a group labelled with background below it; it is the group's last. -/
def labelPending (d : Dev) (g : Nat) : Dev := match (d.segGroup g).pend with
  | some (row, fg, cfg) => (d.setSegGroup g { d.segGroup g with pend := none }).labelOnly row fg cfg []
  | none => d

/-- No released row of the group is on its way to segmentation. -/
def noneInFlight (d : Dev) (g : Nat) : Bool :=
  !d.slotsOut.any (fun s => s.group = g) && !d.corOut.any (fun s => s.group = g) && !d.skyOut.any (fun r => r.group = g)

/-- No further row of the group can come: draining with the generators stopped and no trigger outstanding (R74), or the view lost (R520). -/
def lastRow (d : Dev) (g : Nat) : Bool :=
  d.noneInFlight g && (d.seg.cut.contains g || (d.plan.drain
    && !(List.range 16).any (fun t => d.bit (F.TGEN_CTRL_RUNNING t) || decide ((d.gen t).due ≠ [])) && (d.portsOf g).all (fun p => (d.port p).fifo = [])))

/-- The group ends with the row last labelled: its open bodies are cut; those of a lost view are counted (R74, R520). -/
def endGroup (d : Dev) (g : Nat) : Dev :=
  let (d, n) := d.truncGroup g
  if d.seg.cut.contains g then ({ d with seg := { d.seg with cut := d.seg.cut.filter (fun x => x ≠ g) } }).count F.MODE_CNT_HALF_TRUNC_COUNT n else d

/-- A group closed as soon as its last released row has been labelled. -/
def closeGroup (d : Dev) (g : Nat) : Dev := if d.lastRow g then ((d.labelPending g).endGroup g).drainStore else d

/-- A sky row reaches segmentation (R191–R205): what its predecessor led to is finished first. -/
def takeRow (d : Dev) (row : SkyRow) : Dev :=
  let g := row.group
  let d := (List.range 8).foldl (fun d l => d.upperExpiry l) d.commitClosed
  let d := d.retireBefore (row.stamp / 65536)
  let d := d.recordRow row
  let x := d.segGroup g
  let d := d.setSegGroup g { x with rows := ((row.index, row.stamp) :: x.rows).take 8192 }
  if !d.enabled 0x36 || !d.sorting then d
  else
    let (d, fg) := d.foreground row
    let d := { d with fgRows := Sparse.set d.fgRows [] g ((FgRow.mk row.index fg row.maps :: Sparse.get d.fgRows [] g).take 32) }
    let d := match (d.segGroup g).pend with
      | some (r, f, cfg) =>
        let below := if row.index = (r.index + 1) % 2 ^ 32 then fg else []
        (d.setSegGroup g { d.segGroup g with pend := none }).labelRow r f cfg below
      | none => d
    let cfg := d.segCfg g
    if d.lastRow g then ((d.labelOnly row fg cfg []).endGroup g).drainStore
    else if !cfg.openEn then d.labelRow row fg cfg []
    else d.setSegGroup g { d.segGroup g with pend := some (row, fg, cfg) }

/-- ROW_LABEL: the next sky row. -/
def rowLabel (d : Dev) : Dev := match d.skyOut with
  | [] => d
  | row :: rest => ({ d with skyOut := rest }).takeRow row

/-! ### Stops and resets (R216, R218, R240) -/

/-- Open, closed and queued bodies rewound by an immediate stop, each with its REWIND (R213, R216); stored entries go with their bodies. -/
def stopRewind (d : Dev) : Dev :=
  let open_ : List Body := (List.range 8).flatMap (fun g => (d.segGroup g).openB) ++ d.seg.closed.map (·.1)
  let q : List CBody := d.queued
  let n := open_.length + q.length
  let d := (List.range 8).foldl (fun d g => d.setSegGroup g { d.segGroup g with openB := [], runs := [], runsIdx := none, pend := none, prevFg := none, expDue := false }) d
  let d := { d with seg := { d.seg with closed := [], bodies := d.seg.bodies.filter (fun (b : CBody) => b.place ≠ Place.queued), store := [], storeFull := false } }
  let d := (List.range n).foldl (fun d _ => d.raise 0x37 6) d
  ((d.storeShow).count F.BODY_CNT_REW_STOP_COUNT n).freeBatch (open_.map (fun (b : Body) => ctxOf b.id) ++ q.map (fun (b : CBody) => ctxOf b.id))
    (open_.filterMap (·.crop) ++ q.filterMap (·.crop))

/-- The free queues as after reset; generations stay (R202, R218). -/
def freeReset (d : Dev) : Dev :=
  ({ d with seg := { d.seg with ctxFree := {}, crops := [], ctxOut := false, cropOut := [], freedCtx := [], freedCrop := [], missHeld := [] } }.set
    F.BODY_CTX_LOW_LOW contexts).bodyShow

/-- The crop queues for pool counts just written: every slot in ascending order, but for those that committed bodies still hold, which come back with
their bodies (R204; log entry 35, DEDUCED). -/
def poolReset (d : Dev) : Dev :=
  let q := fun size =>
    let n := d.poolCount size; let first := d.poolFirst size
    let held := (d.seg.bodies.filterMap (·.crop)).filter (fun s => decide (first ≤ s ∧ s < first + n))
    (size, if held = [] then ({} : FreeQ) else { fresh := n, back := (List.range n).filter (fun i => !held.contains (first + i)) })
  ({ d with seg := { d.seg with crops := ([1, 2, 3].map q).filter (fun e => e.2 ≠ {}), cropOut := [] } } : Dev).bodyShow

/-- SOFT_RESET of the BODY page: committed bodies retired, then the free queues restored. -/
def bodySoftReset (d : Dev) : Dev := d.retireAll.freeReset

/-- A write of BODY_CTX_LOW; CLR sets LOW to FREE. -/
def ctxLowClr (d : Dev) (value : Nat) : Dev :=
  d.gated 0x37 0x48 (fun d => if fieldOf F.BODY_CTX_LOW_CLR value = 1 then d.set F.BODY_CTX_LOW_LOW (d.get F.BODY_CTX_STAT_FREE) else d)

end Dev

/-! ### The meanings -/

def execRowLabel (s : State) : Answer := s.run (·.rowLabel)

def execBodyRetire (s : State) : Answer := s.run (·.bodyRetire)
def execCtxLowClr (value : Nat) (s : State) : Answer := s.run (·.ctxLowClr value)

end Sys2Proof.Machine
end

