-- ==== Sys2Proof/Machine/Mode.lean ====
section
/-! DEFINITION. Changes of DEV_STATE and of the service level (R71–R76, R520–R526): views lost, TWILIGHT, ECLIPSE, SERVICE, stops. -/

namespace Sys2Proof.Machine.Dev

/-! ### The transition itself (R68, R72, R526) -/

/-- Outside RUNNING, TWILIGHT and ECLIPSE there is no role, no token, no view lost and no join; the ROLEs stay as a loss left them (R242, R504, R520,
R523; log entry 51, DEDUCED). -/
def leaveSorting (d : Dev) : Dev :=
  let lost := (List.range 8).filter d.viewLost
  let d := lost.foldl (fun d g => (d.putBit F.MODE_LEVEL_VIEW_LOST g false)) d
  let d : Dev := { d with mer := { d.mer with remoteLost := [], back := [], waiting := none, offer := none, misRun := [], parted := false },
                          seg := { d.seg with cut := [] } }
  let d := (d.put F.TWIN_TOKEN_HELD false).put F.TWIN_STAT_SYNCED false
  let d : Dev := d.abandonJoin
  if d.role = 0 then d else d.setRole 0

/-- DEV_STATE becomes `s`: PREV, the count, STATE_CHG, DIVERT_OUT, the level with its cause. -/
def moveState (d : Dev) (s : Nat) (cause : Nat := 1) (detail : Nat := 0) : Dev :=
  if d.state = s then d
  else
    let d := ((d.set F.DEV_STATE_PREV d.state).set F.DEV_STATE_STATE s).count F.DEV_STATE_TRANS_CNT
    let d := (((d.set (F.BLK_STAT_STATE 0) s).raise 0 3).divertUpdate)
    let d := if d.sorting then d else d.leaveSorting
    d.levelUpdate cause detail

/-! ### Bodies at a change of level (Table twin-4) -/

/-- Bodies committed and not resolved, in the order of R215. -/
def unresolvedGo : Nat → List CBody → List CBody
  | 0, _ => []
  | n + 1, bs => match earliest bs with
    | none => []
    | some b => b :: unresolvedGo n (bs.filter (fun c => c.id ≠ b.id))

def unresolved (d : Dev) : List CBody :=
  let bs := d.seg.bodies.filter (fun b => b.place ≠ .resolved)
  unresolvedGo bs.length bs

/-- The bodies not yet resolved never receive a verdict. -/
def dropBodies (d : Dev) : Dev :=
  { d with seg := { d.seg with bodies := d.seg.bodies.map (fun b => if b.place = .resolved then b else { b with place := .resolved, planned := true }) } }

/-- RUNNING → TWILIGHT: every body not yet resolved takes the Twilight rule. -/
def enterTwilight (d : Dev) (cause detail : Nat) : Dev :=
  let bs := d.unresolved
  let d := d.abandonAll.moveState 6 cause detail
  (bs.foldl (fun d b => (d.count (F.DISP_GRP_VERD_COUNT b.group)).twilightPass b 0 false) d).count F.MODE_CNT_TWI_RESOLVE_COUNT bs.length

/-- Pulses that wait in the queues of the Meteor ports. -/
def pendingPulses (d : Dev) : Nat := ((List.range 8).map (fun n => (d.metPort n).pend.length)).sum

/-- The last part of the entry into ECLIPSE: pending pulses removed and counted, held verdicts dropped, CANCEL with ALL = 1. -/
def eclipseCancel (d : Dev) : Dev := (d.count F.MODE_CNT_ECL_CANCEL_COUNT d.pendingPulses).cancelEverything

/-- The partner of a lead could take the token: present, SYNCED, in RUNNING or TWILIGHT (R524). -/
def partnerCanSort (d : Dev) : Bool :=
  d.bit F.TWIN_STAT_PARTNER_OK && d.mer.pSynced && (d.get F.TWIN_STAT_PARTNER_STATE = 5 || d.get F.TWIN_STAT_PARTNER_STATE = 6)

/-- An OFFER with EPOCH + 1 goes to the partner (R518); what follows its answer is kept. -/
def sendOffer (d : Dev) (after : AfterOffer) : Dev :=
  let e := (d.get F.TWIN_TOKEN_EPOCH + 1) % 65536
  let d := d.merSend 0x02 e 1 [0]
  { d with mer := { d.mer with offer := some (e, after) } }

/-- RUNNING or TWILIGHT → ECLIPSE: bodies keep no verdict; a lead with a partner that can sort hands the token over before CANCEL (R524). A join is
abandoned (R523), and no role is waited for: in ECLIPSE none is taken (R505, R513). -/
def enterEclipse (d : Dev) (cause detail : Nat) : Dev :=
  let n := d.unresolved.length
  let d := ((d.abandonAll.dropBodies).moveState 7 cause detail).count F.MODE_CNT_ECL_BODIES_COUNT n
  let d := { d with mer := { d.mer with waiting := none } }.abandonJoin
  if d.isLead && d.partnerCanSort then d.sendOffer .eclipse else d.eclipseCancel

/-- Open and queued bodies rewound, engines abandoned, verdicts dropped, every pulse cancelled (R75, R216, R269, R525). -/
def haltBodies (d : Dev) : Dev := ((d.stopRewind).abandonAll.dropBodies).cancelEverything

/-- The rest of SERVICE_ENTER once the token has been dealt with (R525, R512, R527). -/
def enterService (d : Dev) : Dev :=
  let d := if d.sorting then d.haltBodies else d
  let d := if d.bit F.TWIN_CTRL_SVC_HOST then d else (d.stopGens).merSend 0x03 0 1 [0x0C]
  let d := d.moveState 8 1 0
  d.complete .ok

/-- STOP with immediate stop, and the end of any STOP: CONFIGURED is entered and every committed body retired (R75, R203). -/
def enterConfigured (d : Dev) : Dev :=
  let d := { d with plan := { d.plan with drain := false } }
  (d.moveState 4).retireAll

def stopNow (d : Dev) : Dev := (d.stopGens.haltBodies).enterConfigured

/-! ### STOP with drain (R74) -/

/-- The generators stop; every group ends with the last row that can still come. -/
def startDrain (d : Dev) : Dev :=
  let d := d.stopGens
  let d := { d with plan := { d.plan with drain := true } }
  (List.range 8).foldl (fun d g => d.closeGroup g) d

/-- Nothing is open, queued or on its way. -/
def drained (d : Dev) : Bool := d.rowsDone && d.seg.bodies.all (fun b => b.place = .resolved) && d.plan.passing = []

/-- A pulse still waits, or has been sent and has not ended. -/
def scheduled (d : Dev) : Bool :=
  (List.range 8).any (fun n => (d.metPort n).pend ≠ [] || (d.metPort n).sent.any (fun p => decide ((d.now : Int) < p.e)))

/-- DRAIN_COMPLETE: the upper entries still stored are released once the last row is processed (R240); once every body has its verdict and no meteor
is scheduled either, CONFIGURED is entered. -/
def drainComplete (d : Dev) : Dev :=
  if !d.plan.drain then d
  else
    let d := (if d.drained then d else (List.range 8).foldl (fun d g => d.closeGroup g) d).drainStore
    if !d.drained || d.scheduled then d else (d.enterConfigured).complete .ok

/-! ### Views (R520, R521) -/

/-- The groups `gs` are lost, at one row boundary each: their bodies are cut, the ROLEs saved, their pairs made single-plane. -/
def loseViews (d : Dev) (gs : List Nat) (remote : Bool) (cause : Nat) : Dev :=
  let lost := gs.filter (fun g => d.portsOf g ≠ [] && !d.viewLost g)
  if !d.sorting || lost = [] then d
  else
    let d := { d with seg := { d.seg with cut := d.seg.cut ++ lost } }
    let d := lost.foldl (fun d g => d.closeGroup g) d
    let pairLost := fun (g : Nat) => (List.range 8).any (fun l =>
      let u := d.get (F.TRAJ_GCFG_PARTNER l)
      d.get (F.MODE_ROLE_SAVE_ROLE l) = 2 && (g = l || g = u) && (d.viewLost l || d.viewLost u))
    let d := (List.range 8).foldl (fun d g => if pairLost g then d else d.set (F.MODE_ROLE_SAVE_ROLE g) (d.roleOf g)) d
    let d := (List.range 8).foldl (fun d l => if lost.contains l || lost.contains (d.get (F.TRAJ_GCFG_PARTNER l)) then d.roleSingle l else d) d
    let d := lost.foldl (fun d g => d.putBit F.MODE_LEVEL_VIEW_LOST g true) d
    let d := if remote then { d with mer := { d.mer with remoteLost := d.mer.remoteLost ++ lost } } else d
    let d := if remote then
        (lost.flatMap d.portsOf).foldl (fun d p => d.setPort p { d.port p with fifo := [], held := [], ledger := [], slotRecs := [] }) d
      else d
    d.levelUpdate cause 0

/-- The groups with a relayed port. -/
def remoteGroups (d : Dev) : List Nat := (List.range 8).filter d.groupRemote

/-- VIEW_LOSS_TIMEOUT: every port of an own group has been down for HALF_MS ms. -/
def viewLossTimeout (d : Dev) (g : Nat) : Dev :=
  let down := fun (p : Nat) => (d.portState p = 7 || d.portState p = 8 || (d.port p).restartAt.isSome)
    && (match (d.port p).downAt with | some t => decide (d.get F.MODE_CTRL_HALF_MS * 1000000 ≤ d.elapsed t) | none => false)
  if g < 8 && d.portsOf g ≠ [] && !d.groupRemote g && (d.portsOf g).all down then d.loseViews [g] false 0x08 else d

/-! ### Changes that the device makes by itself (R22, R72, R268) -/

def enginesUnusable (d : Dev) : Bool := d.groupsWithPort.any (fun g => d.poolSize (d.get (F.DISP_GRP_A_SLOT g)) = 0)
def dispatcherUnusable (d : Dev) : Bool := d.bit (F.BLK_STAT_FAULT dispPage)
def hbmUnusable (d : Dev) : Bool := d.bit F.DEV_ENV_STAT_HBM_FAIL

/-- No verdict source remains: the planner, which forms the Twilight verdict and passes every other, has detected a fault (log entry 52, DEDUCED). -/
def noSource (d : Dev) : Bool := d.bit (F.BLK_STAT_FAULT 0x80)

/-- What the device does by itself after an event that may make a verdict source unusable. -/
def autoLevel (d : Dev) : Dev :=
  if (d.state = 5 || d.state = 6) && d.noSource then d.enterEclipse 0x07 0
  else if d.state = 5 && d.feat 21 && d.dispatcherUnusable then d.enterTwilight 0x06 dispPage
  else if d.state = 5 && d.feat 21 && d.enginesUnusable then d.enterTwilight 0x04 0
  else if d.state = 5 && d.feat 21 && d.hbmUnusable then d.enterTwilight 0x05 0
  else d

end Sys2Proof.Machine.Dev

namespace Sys2Proof.Machine

/-! ### The meanings -/

def execDrainComplete (s : State) : Answer := s.run (·.drainComplete)
def execViewLossTimeout (g : Nat) (s : State) : Answer := s.run (·.viewLossTimeout g)

/-- ENG_HW_FAULT, ENG_RELOAD and HBM_UE may leave the engines or HBM unusable (R265–R268). -/
def execEngHwFault (e kind : Nat) (s : State) : Answer := s.run (fun d => (d.engHwFault e kind).autoLevel)
def execEngReload (e : Nat) (s : State) : Answer := s.run (fun d => (d.engReload e).autoLevel)
def execHbmUe (s : State) : Answer := s.run (fun d => d.hbmUe.autoLevel)

/-- DISP_SWAP_APPLY, BODY_COMMIT and ENG_SELFTEST too: slots change, or an image is lost (R72, R268). The next body to commit, or none, gives the
boundary of the swap (R260). -/
def execDispSwapApply (s : State) : Answer := s.run (fun d =>
  (d.dispSwapDue (match d.seg.closed with | (b, _) :: _ => some (b.lastT / 65536, 0, 0) | [] => none)).autoLevel)
def execBodyCommit (s : State) : Answer := s.run (fun d => d.bodyCommit.autoLevel)
def execEngSelftest (logicOk memOk : Bool) (unit : Nat) (s : State) : Answer := s.run (fun d => (d.engSelftest logicOk memOk unit).autoLevel)

end Sys2Proof.Machine
end

