-- ==== Sys2Proof/Machine/Twin.lean ====
section
/-! DEFINITION. The twin (R504–R527): Meridian records in both directions, heartbeats, roles and the token, the records of relayed views,
digests, joins. A record received is given as its words. -/

namespace Sys2Proof.Machine

/-- Whether a record is well formed: 1 to 64 units of four words, and a good CRC-32C in its last word (R509). -/
def merGood (ws : List Nat) : Bool :=
  let n := ws.length
  decide (4 ≤ n ∧ n ≤ 256) && decide (n = 4 * (ws.getD 0 0 / 256 % 256)) && decide (ws.getD (n - 1) 0 = crc32c (wordsLe (ws.take (n - 1))))

/-- The type fields of word 0. -/
def merHi (ws : List Nat) : Nat := ws.getD 0 0 / 65536 % 65536

namespace Dev

/-! ### Receiving (R510) -/

/-- A record of type `typ` arrives: bad CRC, or a record before it missing: discarded and counted; received before: ignored; else its
effect. -/
def merRx (d : Dev) (typ : Nat) (ws : List Nat) (f : Dev → Dev) : Dev :=
  if !(d.enabled 0x90 && d.bit F.TWIN_STAT_LINK_UP) || ws.getD 0 0 % 256 ≠ typ then d
  else
    let ahead := (ws.getD 1 0 + 2 ^ 32 - d.mer.rxNext) % 2 ^ 32
    if !merGood ws then d.count F.TWIN_CNT_CRC_COUNT
    else if ahead = 0 then f { d with mer := { d.mer with rxNext := (d.mer.rxNext + 1) % 2 ^ 32 } }
    else if 2 ^ 31 ≤ ahead then d
    else d.count F.TWIN_CNT_CRC_COUNT

/-! ### Roles and the token (R505, R513, R514, R518) -/

/-- The link is the reason for a loss when it is down, else the partner (Table twin-6). -/
def lossCause (d : Dev) : Nat := if d.bit F.TWIN_STAT_LINK_UP then 0x02 else 0x03

/-- Every enabled Meteor port sends a TIME beacon in the first free slot (R513). -/
def claimBeacons (d : Dev) : Dev := (List.range 8).foldl (fun d n => if d.metRuns n then d.sendBeacon n 0 0 0 else d) d

/-- The device becomes lead with an EPOCH; SYNCED stays as it is (R517). -/
def becomeLead (d : Dev) (epoch : Nat) : Dev := ((d.set F.TWIN_TOKEN_EPOCH epoch).put F.TWIN_TOKEN_HELD true).setRole 1

/-- The device takes the token: EPOCH + 1; bodies pending past their deadline keep the shadow rule (R513, R514). -/
def takeToken (d : Dev) : Dev :=
  let d := { d with seg := { d.seg with bodies := d.seg.bodies.map (fun (b : CBody) =>
    if b.place ≠ Place.resolved && decide (d.toDeadline b ≤ 0) && d.isShadow then { b with taken := true } else b) } }
  ((d.becomeLead (d.get F.TWIN_TOKEN_EPOCH + 1)).count F.TWIN_CNT_TAKEOVER_COUNT).claimBeacons

/-- REFCLK_LANE is absent: no token is taken (R521). -/
def laneClockLost (d : Dev) : Bool := d.testBit F.DEV_ENV_STAT_CLK_LOST 2

/-- Both devices entered before the earliest TGEN START: none of the own time-paced generators has reached its START, and no trigger of the
partner has been heard of (R505; log entry 54, DEDUCED). -/
def beforeStart (d : Dev) : Bool :=
  !d.mer.trigHeard && (List.range 16).all (fun g => !(d.bit (F.TGEN_CTRL_RUN_AT_START g) && d.get (F.TGEN_CTRL_MODE g) = 1)
    || decide (0 < st40Diff (d.st40At (F.TGEN_START_LO_START_LO g) (F.TGEN_START_HI_START_HI g)) d.now))

/-- The role of a device that enters RUNNING or TWILIGHT with a partner heard (R505). -/
def roleWithPartner (d : Dev) : Dev :=
  let d := { d with mer := { d.mer with waiting := none, parted := false } }
  if !d.mer.pHeld && d.get F.DEV_STRAPS_TWIN_SIDE = 0 then
    let own := d.get F.TWIN_TOKEN_EPOCH
    d.becomeLead ((if epochAfter d.mer.pEpoch own then d.mer.pEpoch else own) + 1)
  else (d.put F.TWIN_STAT_SYNCED d.beforeStart).setRole (if d.beforeStart then 2 else 3)

/-- A role may be taken: in RUNNING or TWILIGHT, with the lane clock present (R513, R521). -/
def mayTakeRole (d : Dev) : Bool := (d.state = 5 || d.state = 6) && !d.laneClockLost

/-- Role entry of START. -/
def takeRole (d : Dev) : Dev :=
  if !d.feat 1 || d.role ≠ 0 then d
  else if d.bit F.TWIN_STAT_PARTNER_OK && d.mayTakeRole then d.roleWithPartner
  else { d with mer := { d.mer with waiting := some d.time.c } }

/-- START_WAIT_EXPIRY: no partner heard: lead with EPOCH + 1, the partner's view lost. -/
def startWaitExpiry (d : Dev) : Dev := match d.mer.waiting with
  | some t =>
    if d.get F.TWIN_CTRL_START_WAIT * 1000000 ≤ d.elapsed t ∧ !d.bit F.TWIN_STAT_PARTNER_OK ∧ d.mayTakeRole then
      let d := { d with mer := { d.mer with waiting := none, parted := false } }
      (d.becomeLead (d.get F.TWIN_TOKEN_EPOCH + 1)).loseViews d.remoteGroups true d.lossCause
    else d
  | none => d

/-! ### Offers (R518, R519, R524) -/

/-- An OFFER has ended without the token changing hands. -/
def offerFailed (d : Dev) : Dev :=
  match d.mer.offer with
  | none => d
  | some (_, after) =>
    let d := { d with mer := { d.mer with offer := none } }
    match after with
    | .command => if d.executing 0x28 then d.complete .partner else d
    | .auto => d
    | .eclipse => d.eclipseCancel
    | .service => if d.arg 0 % 2 = 1 then d.enterService else d.complete .partner

/-- A REQUEST of the own driver has ended without an OFFER. -/
def requestFailed (d : Dev) : Dev := if d.executing 0x28 && d.arg 0 % 4 = 1 then d.complete .partner else d

/-- TOKEN_OFFER: accepted by a synced shadow in RUNNING or TWILIGHT, refused otherwise; without the lane clock it gets no answer (R521). -/
def tokenOffer (d : Dev) (epoch : Nat) : Dev :=
  if d.laneClockLost then d
  else if (d.state = 5 || d.state = 6) && d.isShadow && d.bit F.TWIN_STAT_SYNCED && d.bit F.TWIN_STAT_PARTNER_OK then
    let d := (d.becomeLead epoch).count F.TWIN_CNT_HANDOVER_COUNT
    let d := (d.merSend 0x02 epoch 1 [1]).claimBeacons
    if d.executing 0x28 && d.arg 0 % 4 = 1 then d.complete .ok else d
  else d.merSend 0x02 epoch 1 [2]

/-- TOKEN_ACCEPT: the old lead becomes a shadow, synced unless the two have parted (R517; log entry 101, DEDUCED). -/
def tokenAccept (d : Dev) (epoch : Nat) : Dev := match d.mer.offer with
  | none => d
  | some (_, after) =>
    let d := { d with mer := { d.mer with offer := none } }
    let d := (((d.set F.TWIN_TOKEN_EPOCH epoch).put F.TWIN_TOKEN_HELD false).put F.TWIN_STAT_SYNCED (!d.mer.parted)).setRole 2
    let d := d.count F.TWIN_CNT_HANDOVER_COUNT
    match after with
    | .command => if d.executing 0x28 then d.complete .ok else d
    | .auto => d
    | .eclipse => d.eclipseCancel
    | .service => d.enterService

/-- TOKEN_REQUEST: a lead without an OFFER under way hands over as under OP 0; any other device refuses. -/
def tokenRequest (d : Dev) : Dev :=
  if d.isLead then (if d.mer.offer.isNone then d.sendOffer .auto else d) else d.merSend 0x02 (d.get F.TWIN_TOKEN_EPOCH) 1 [2]

/-! ### Partner loss (R512, R513, R529) -/

/-- The partner is declared lost. -/
def partnerLost (d : Dev) : Dev :=
  if !d.bit F.TWIN_STAT_PARTNER_OK then d
  else
    let d := (d.put F.TWIN_STAT_PARTNER_OK false).raise 0x90 4
    let d := ({ d with mer := { d.mer with trigHeard := false } }.offerFailed.requestFailed).abandonJoin
    if !d.feat 1 then d
    else
      let d := d.loseViews d.remoteGroups true d.lossCause
      if (d.role = 2 || d.role = 3) && (d.state = 5 || d.state = 6) && !d.laneClockLost then d.takeToken else d

/-- PARTNER_LOST: 32 µs without a valid HEARTBEAT. -/
def partnerSilent (d : Dev) : Dev := match d.mer.hbRx with
  | some t => if 32000 ≤ d.elapsed t then d.partnerLost else d
  | none => d

/-! ### Heartbeats (R509, R512) -/

/-- HEARTBEAT_SEND: every 10 µs. -/
def heartbeatSend (d : Dev) : Dev :=
  if !d.enabled 0x90 || decide (d.elapsed d.mer.hbAt < 10000) then d
  else
    let hosting := d.sorting || (d.state = 8 && d.bit F.TWIN_CTRL_SVC_HOST)
    let w4 := d.state + d.get F.MODE_LEVEL_LEVEL * 16 + d.role * 2 ^ 8 + d.get F.DEV_STRAPS_TWIN_SIDE * 2 ^ 11 + b2n (d.bit F.TWIN_TOKEN_HELD) * 2 ^ 12
      + b2n (d.bit F.TWIN_STAT_SYNCED) * 2 ^ 13 + b2n hosting * 2 ^ 14
    let d := { d with mer := { d.mer with hbAt := d.time.c } }
    d.merSend 0x01 (d.get F.TWIN_TOKEN_EPOCH) 2
      [d.now % 2 ^ 32, d.now / 2 ^ 32 % 2 ^ 32, w4, (d.mer.rxNext + 2 ^ 32 - 1) % 2 ^ 32, d.get F.TWIN_CFG_CHECK_CHECK]

/-- Records up to ACK are acknowledged (R510). -/
def takeAck (d : Dev) (ack : Nat) : Dev :=
  let rest := d.mer.unacked.filter (fun r => decide (2 ^ 31 ≤ (ack + 2 ^ 32 - r.1) % 2 ^ 32))
  let moved := decide (rest.length < d.mer.unacked.length)
  { d with mer := { d.mer with unacked := rest, ackSeen := ack, ackAt := if moved then d.time.c else d.mer.ackAt } }

/-- Levels in the order of R519: RUNNING, TWILIGHT, ECLIPSE. -/
def betterLevel (a b : Nat) : Bool := (a = 5 && (b = 6 || b = 7)) || (a = 6 && b = 7)

/-- The views that a join brings back, and the end of the join on a device (R522). -/
def joinFinished (d : Dev) : Dev :=
  let lost := (List.range 8).filter d.viewLost
  let d := lost.foldl (fun d g => d.viewBack g 0x09) d
  let d := { d with mer := { d.mer with back := [], remoteLost := [], parted := false } }
  ((d.set F.TWIN_JOIN_STAT_PHASE 4).put F.TWIN_STAT_CATCHUP false).raise 0x90 8

/-- What a heartbeat of a live partner brings about. -/
def partnerAlive (d : Dev) : Dev :=
  let d := if d.bit F.TWIN_STAT_PARTNER_OK then d else d.put F.TWIN_STAT_PARTNER_OK true
  let d := if d.feat 1 && d.role = 4 then (d.put F.TWIN_STAT_SYNCED false).setRole 3 else d
  let d := if d.mer.waiting.isSome && d.mayTakeRole then d.roleWithPartner else d
  let d := if (d.role = 2 || d.role = 3) && d.mer.pHeld && epochAfter d.mer.pEpoch (d.get F.TWIN_TOKEN_EPOCH) then
    d.set F.TWIN_TOKEN_EPOCH d.mer.pEpoch else d
  let sorts := d.get F.TWIN_STAT_PARTNER_STATE = 5 || d.get F.TWIN_STAT_PARTNER_STATE = 6
  let d := if sorts then d else d.abandonJoin
  let p := d.get F.TWIN_JOIN_STAT_PHASE
  let d := if d.isLead && d.mer.pRole = 2 && d.mer.pSynced && decide (1 ≤ p ∧ p ≤ 3) then d.joinFinished else d
  if d.isLead && d.bit F.TWIN_CTRL_AUTO_HAND && d.mer.pSynced && betterLevel (d.get F.TWIN_STAT_PARTNER_STATE) d.state && d.mer.offer.isNone then
    d.sendOffer .auto else d

/-- HEARTBEAT. -/
def heartbeat (d : Dev) (ws : List Nat) : Dev :=
  let w4 := ws.getD 4 0
  let gap := match d.mer.hbRx with | some t => d.elapsed t | none => 0
  let missed := (gap + 5000) / 10000 - 1
  let d := d.count F.TWIN_HB_MISSED missed
  let d := { d with mer := { d.mer with hbRx := some d.time.c, pEpoch := merHi ws, pRole := bitsAt w4 8 3, pHeld := decide (bitsAt w4 12 1 = 1),
                                        pSynced := decide (bitsAt w4 13 1 = 1) } }
  let d := ((d.set F.TWIN_STAT_PARTNER_STATE (w4 % 16)).set F.TWIN_STAT_PARTNER_LEVEL (bitsAt w4 4 4)).set F.TWIN_STAT_HOSTING (bitsAt w4 14 1)
  let d := (d.set F.TWIN_PCFG_CHECK_CHECK (ws.getD 6 0)).takeAck (ws.getD 5 0)
  let st := w4 % 16
  if st = 1 ∨ st = 15 ∨ (st = 8 ∧ bitsAt w4 14 1 = 0) then d.partnerLost else d.partnerAlive

/-- MERIDIAN_RETRANSMIT: 20 µs without progress of ACK: every record not acknowledged is sent again (R510). -/
def retransmit (d : Dev) : Dev :=
  if !d.bit F.TWIN_STAT_LINK_UP || d.mer.unacked = [] || decide (d.elapsed d.mer.ackAt < 20000) then d
  else
    let d := { d with mer := { d.mer with ackAt := d.time.c } }
    (d.mer.unacked.foldl (fun d r => d.emit (.meridian r.2 (d.stripes r.2))) d).count F.TWIN_CNT_RETX_COUNT d.mer.unacked.length

/-! ### Relayed views (R105–R108) -/

/-- Records of a group that is lost and has not started again are discarded (R520). -/
def groupDropped (d : Dev) (g : Nat) : Bool := d.mer.remoteLost.contains g && !d.mer.back.contains g

/-- A trigger record before the join boundary belongs to no row of a group that has started again (R522). -/
def beforeJoin (d : Dev) (g t : Nat) : Bool := d.mer.back.contains g && decide (t < d.mer.joinAt)

/-- The relayed port of a record, if it is one. -/
def relayedPort (d : Dev) (p : Nat) : Bool := d.portState p = 9 && d.relayed p && decide (d.groupOf p < 8)

/-- TRIG: a trigger record for a relayed port; at 64 waiting records the oldest slot of its group is forced out (R108). The record gives whole ns: the
2^-16 ns of the stamp, one for the ports of a group, are a free value (log entry 102, DESIGN CHOICE). -/
def trigRecord (d : Dev) (p index t : Nat) : Dev :=
  let d := { d with mer := { d.mer with trigHeard := true } }
  let g := d.groupOf p
  if !d.relayedPort p || d.groupDropped g || d.beforeJoin g t then d
  else
    let d := if 64 ≤ (d.port p).fifo.length then
        ((d.portsOf g).foldl (fun d q => d.count (F.CXP_CNT_FORCED_COUNT q)) d).releaseSlot g (fun _ => true)
      else d
    let known := (d.portsOf g).findSome? (fun q => (d.port q).fifo.find? (fun e => e.index = index && e.stamp / 65536 = t))
    let stamp := match known with | some e => e.stamp | none => t * 65536 + d.freeVal 16
    let d := if known.isSome then d else d.freeUsed
    let x := d.port p
    let d := d.setPort p { x with fifo := x.fifo ++ [⟨index, stamp, d.freshSlots p .unmatched⟩] }
    let heads := (d.mer.trigIn.filter (fun e => e.1 = g)).map (·.2.1)
    if heads.contains index then d
    else { d with mer := { d.mer with trigIn := (g, index, d.time.c) :: d.mer.trigIn.take 1023 } }

/-- LEDGER: the disposition of a relayed line. The record waits for its slot; the data of a line that the host dropped is discarded. -/
def ledgerRecord (d : Dev) (p stream disp seq index : Nat) : Dev :=
  let g := d.groupOf p
  if !d.relayedPort p || d.groupDropped g then d
  else
    let x := d.port p
    let sid := (d.streams p).getD stream 256
    let dropped : Bool := disp = 2 || disp = 6
    let held := if dropped then x.held.filter (fun (h : HeldLine) => !(h.sid = sid && h.seq = seq)) else x.held
    let ledger := if x.fifo.any (fun e => e.index = index) && disp ≠ 2 then x.ledger ++ [⟨sid, seq, index, disp⟩] else x.ledger
    d.setPort p { x with held := held, ledger := ledger }

/-- The slot of a stream of a relayed port by its ledger record and the line held: complete where both are; short as received where the host's
was short; synthetic whole where the host's line was synthetic, or was short and this device has all of it (R106); a CRC error that the ledger does
not report makes it synthetic too (R107). -/
def relayedSlot (x : Port) (index : Nat) (s : StreamSlot) : StreamSlot :=
  match x.ledger.reverse.find? (fun l => l.sid = s.sid && l.index = index) with
  | none => { s with st := .missing, line := [] }
  | some l =>
    let s := { s with seq := l.seq }
    match x.held.find? (fun (h : HeldLine) => h.sid = s.sid && h.seq = l.seq) with
    | none => { s with st := .missing, line := [] }
    | some h =>
      if h.bad && l.disp ≠ 5 then { s with st := .crcBad, line := [] }
      else if l.disp = 5 || l.disp = 7 || (h.full && l.disp = 3) then { s with st := .forced, line := [] }
      else { s with st := if h.full then .complete else .short, line := h.line }

/-- The streams of a relayed port's oldest trigger as the ledger gives them. A line matched to its ledger record is counted, a CRC error that the
ledger does not report too (R106, R107, R117). -/
def fillRelayed (d : Dev) (p : Nat) : Dev :=
  let x := d.port p
  match x.fifo with
  | [] => d
  | e :: rest =>
    let done := e.slots.map (relayedSlot x e.index)
    let bad := (done.filter (fun s => s.st = .crcBad)).length
    let got := (done.filter (fun s => s.st ≠ .missing)).length
    let older := fun (h : HeldLine) => done.any (fun s => s.sid = h.sid && s.st ≠ .missing && decide (h.seq ≤ s.seq))
    let d := d.setPort p { x with fifo := { e with slots := done } :: rest, held := x.held.filter (fun (h : HeldLine) => !older h)
                                  ledger := x.ledger.filter (fun l => l.index ≠ e.index) }
    let d := if got = 0 then d else d.set (F.CXP_LAST_TRIG_INDEX p) e.index
    (d.count (F.CXP_CNT_CRC_COUNT p) bad).count (F.CXP_CNT_MATCHED_COUNT p) got

/-- A port that the SLOT record calls synthetic, though its ledger has every stream of the oldest slot complete, is synthetic whole (R106). -/
def slotForced (d : Dev) (set p : Nat) : Bool :=
  8 ≤ p && set / 2 ^ p % 2 = 1 && (match (d.port p).fifo with | e :: _ => e.slots.all (·.st = .complete) | [] => false)

/-- The group of the ports that a SLOT record names (bit i: port 8 + i). -/
def slotGroup (d : Dev) (set : Nat) : Option Nat := ((List.range 8).find? (fun i => set / 2 ^ i % 2 = 1)).map (fun i => d.groupOf (8 + i))

/-- SLOT: the oldest slot of a relayed group is released as the host released it: the ledger, which comes before, says which of its streams are
synthetic; bits 15:8 of `set` name the ports that were synthetic in part or whole. -/
def slotRecord (d : Dev) (set index : Nat) : Dev := match d.slotGroup set with
  | none => d
  | some g =>
    if 8 ≤ g || d.groupDropped g then d
    else
      let d := { d with mer := { d.mer with slotAt := Sparse.set d.mer.slotAt 0 g d.time.c } }
      if ((d.portsOf g).findSome? (fun p => (d.port p).fifo.head?)).map (·.index) ≠ some index then d
      else
        let d := (d.portsOf g).foldl (fun d p => d.fillRelayed p) d
        let d := d.releaseSlot g (d.slotForced set)
        { d with mer := { d.mer with trigIn := d.mer.trigIn.filter (fun e => !(e.1 = g && e.2.1 = index)) } }

/-- SLOT_RECORD_TIMEOUT: a slot of a relayed group has waited 1 ms for its SLOT record while the device sorts (R108). -/
def slotTimeout (d : Dev) (g : Nat) : Dev :=
  match (d.portsOf g).findSome? (fun p => (d.port p).fifo.head?) with
  | none => d
  | some e =>
    let came := match d.mer.trigIn.find? (fun x => x.1 = g && x.2.1 = e.index) with | some x => x.2.2 | none => 0
    if g < 8 && d.groupRemote g && d.sorting && decide (1000000 ≤ d.elapsed (max came (Sparse.get d.mer.slotAt 0 g))) then
      d.loseViews [g] true d.lossCause
    else d

/-- LAT: a learned latency of the lead (R324). -/
def latRecord (d : Dev) (i a : Nat) : Dev := if d.isShadow && decide (i < 2048) then d.write (latOff i) 4 a else d

/-! ### Digests (R516, R517) -/

/-- The lowest port of a group. -/
def lowPort (d : Dev) (g : Nat) : Nat := (d.portsOf g).headD 0

/-- One comparison: `row` and `verd` say which digests differ. -/
def digestResult (d : Dev) (port index : Nat) (row verd : Bool) : Dev :=
  let g := d.groupOf port
  let d := d.count F.TWIN_DIG_ROWS_COUNT
  if !row && !verd then { d with mer := { d.mer with misRun := Sparse.set d.mer.misRun 0 g 0 } }
  else
    let d := if row then d.count F.TWIN_DIG_RMIS_COUNT else d
    let d := if verd then d.count F.TWIN_DIG_VMIS_COUNT else d
    let d := if d.mer.digFirst then d
      else ((({ d with mer := { d.mer with digFirst := true } }.set F.TWIN_DIG_FIRST_INDEX index).put F.TWIN_DIG_INFO_KIND (!row)).set
        F.TWIN_DIG_INFO_PORT port)
    let d := d.raise 0x90 6
    let run := Sparse.get d.mer.misRun 0 g + 1
    let limit := d.get F.TWIN_CTRL_DIG_LIMIT
    let d := { d with mer := { d.mer with misRun := Sparse.set d.mer.misRun 0 g run, parted := d.mer.parted || decide (limit ≤ run) } }
    if run = limit || decide (limit ≤ run) && d.bit F.TWIN_STAT_SYNCED then (d.put F.TWIN_STAT_SYNCED false).raise 0x90 7 else d

/-- Comparison is on, and no pre-sync body is about (R517, R523). -/
def digestOn (d : Dev) : Bool := d.bit F.TWIN_CTRL_DIG_EN && d.feat 1 && d.role ≠ 3

/-- VERD_DIG of a row: its bodies in commit order, each with its outcome and, when committed, its final verdict; a body without a verdict adds
no words (R516). -/
def verdDigest (d : Dev) (x : Digest) : Nat :=
  if x.bodies = [] then 0
  else crc32c (x.bodies.flatMap (fun b => leBytes 4 b.1 ++ [b.2] ++ wordsLe (match x.gone.find? (fun y => y.id = b.1) with
    | some y => y.words
    | none => match d.bodyOf b.1 with | some c => verdWords c | none => [])))

/-- The latest deadline + GRACE of the committed bodies of a row has passed; one that waits for its commit has its deadline still to come. -/
def digestDue (d : Dev) (x : Digest) : Bool :=
  !x.sent && x.bodies.all (fun b => match x.gone.find? (fun y => y.id = b.1) with
    | some y => decide (y.due < d.now)
    | none => match d.bodyOf b.1 with
      | some c => decide (d.toDeadline c < -(c.grace * 1000 : Nat))
      | none => b.2 ≠ 0 || d.seg.closed.all (fun c => c.1.id ≠ b.1))

/-- DIGEST_SEND: the oldest row whose bodies are past deadline + GRACE. Digests older than 1 s are dropped. -/
def digestSend (d : Dev) : Dev :=
  match d.seg.digests.find? d.digestDue with
  | none => d
  | some x =>
    let v := d.verdDigest x
    let p := d.lowPort x.group
    let keep := fun (y : Digest) => !y.sent || decide (d.elapsed y.formed < 1000000000)
    let mark := fun (y : Digest) => if y.group = x.group && y.index = x.index then { y with sent := true, verd := v } else y
    let d := { d with seg := { d.seg with digests := (d.seg.digests.filter keep).map mark } }
    let d := d.merSend 0x15 (p ^^^ 8) 2 [x.index, x.rowDig, v, x.bodies.length]
    match d.mer.digIn.find? (fun e => e.port = p && e.index = x.index) with
    | none => d
    | some e =>
      let d := { d with mer := { d.mer with digIn := d.mer.digIn.filter (fun y => !(y.port = p && y.index = x.index)) } }
      if d.digestOn then d.digestResult p x.index (e.row ≠ x.rowDig) (e.verd ≠ v) else d

/-- DIGEST: compared at once with the own value, or kept until that is formed. -/
def digestRecord (d : Dev) (p index row verd : Nat) : Dev :=
  if !d.digestOn then d
  else match d.seg.digests.find? (fun x => x.sent && x.index = index && d.lowPort x.group = p) with
    | some x => d.digestResult p index (row ≠ x.rowDig) (verd ≠ x.verd)
    | none => { d with mer := { d.mer with digIn := d.mer.digIn ++ [⟨p, index, row, verd, d.time.c⟩] } }

/-- DIGEST_TIMEOUT: the oldest digest that has waited 100 ms counts as a row mismatch. -/
def digestTimeout (d : Dev) : Dev := match d.mer.digIn with
  | [] => d
  | e :: rest =>
    if d.elapsed e.at_ < 100000000 then d
    else
      let d := { d with mer := { d.mer with digIn := rest } }
      if d.digestOn then d.digestResult e.port e.index true false else d

/-! ### Joins (R522, R523) -/

/-- The memories that the model mirrors, by their number in MIRROR, with offset and length: latency table, background, contexts, crops,
partner indices, zones (log entry 55, DESIGN CHOICE). -/
def mirrorArea (m : Nat) : Option (Nat × Nat) :=
  [(0x4_4006_0000, 0x8000), (0x4_4180_0000, 0x40_0000), (0x4_2000_0000, 0x200_0000), (0x4_0000_0000, 0x200_0000), (0x4_4200_0000, 0x10_0000),
    (0x4_41C0_0000, 0x2000)][m]?

/-- Port-indexed data is remapped from p to p XOR 8 (R142): background entries 256 KiB a port, zone records 512 bytes a port. -/
def mirrorOffset (m o : Nat) : Nat := if m = 1 then o ^^^ 0x20_0000 else if m = 5 then o ^^^ 0x1000 else o

/-- The MIRROR records of one memory: pieces of 1,008 bytes in which something stands. -/
def mirrorPieces (d : Dev) (m : Nat) : List (Nat × List Nat) := match mirrorArea m with
  | none => []
  | some (base, len) =>
    let offs := ((d.mem.filter (fun c => decide (base ≤ c.1 ∧ c.1 < base + len))).map (fun c => (c.1 - base) / 1008 * 1008)).eraseDups
    offs.map (fun o => (o, (List.range (min 252 ((len - o) / 4))).map (fun i => d.read (base + o + 4 * i) 4)))

/-- A MIRROR record of a piece. -/
def sendMirror (m : Nat) (d : Dev) (e : Nat × List Nat) : Dev :=
  let d := d.merSend 0x21 m ((e.2.length + 4 + 3) / 4) (e.1 :: e.2)
  let bytes := d.mer.bytes + 4 * e.2.length
  { d with mer := { d.mer with mirrored := d.mer.mirrored + 1, bytes := bytes } }.set F.TWIN_JOIN_STAT_COPIED (bytes / 2 ^ 20)

/-- The pipeline load of the configured cameras in samples per ns × 10^3: line length × bands × line rate over the ports in a group (R16). -/
def portLoad (d : Dev) (p : Nat) : Nat × Nat :=
  (d.lineLen p * (d.bands p).length, d.get (F.TGEN_MIN_INT_MIN_INT (d.get (F.CXP_CTRL_TRIG_SRC p))) * 10)

/-- The sum of loads n ÷ i is above `num` ÷ 10 samples per ns. -/
def loadAbove (loads : List (Nat × Nat)) (num : Nat) : Bool :=
  let den := loads.foldl (fun m l => m * max 1 l.2) 1
  decide (num * den < 10 * (loads.map (fun l => l.1 * (den / max 1 l.2))).sum)

/-- The ports that count in R16: enabled pages with a camera in a group. -/
def loadedPorts (d : Dev) : List Nat := (List.range 16).filter (fun p => d.bit (F.BLK_CTRL_ENABLE (cxp p)))

/-- JOIN_GO written on a device. -/
def joinGo (d : Dev) : Dev :=
  let at_ := d.st40At F.TWIN_JOIN_AT_LO_AT_LO F.TWIN_JOIN_AT_HI_AT_HI
  let ahead := st40Diff at_ d.now
  if !d.isLead then d.refuse 0x90 0x40 .state
  else if ahead < 20000000 ∨ 10000000000 < ahead then d.refuse 0x90 0x40 .range
  else if !(d.bit F.TWIN_STAT_PARTNER_OK && d.mer.pRole = 3) ∨ d.get F.TWIN_CFG_CHECK_CHECK ≠ d.get F.TWIN_PCFG_CHECK_CHECK then
    d.refuse 0x90 0x40 .partner
  else if loadAbove (d.loadedPorts.map d.portLoad) 400 then d.refuse 0x90 0x40 .range 3
  else
    let t := st40Extend d.now at_
    let d := { d with mer := { d.mer with joinAt := t, mirrored := 0, bytes := 0 } }
    ((d.set F.TWIN_JOIN_STAT_PHASE 1).set F.TWIN_JOIN_STAT_COPIED 0).merSend 0x20 0 2 [t % 2 ^ 32, t / 2 ^ 32 % 2 ^ 32, d.get F.TWIN_CFG_CHECK_CHECK]

/-- JOIN: a joining device is armed. -/
def joinRecord (d : Dev) (t : Nat) : Dev :=
  if d.role ≠ 3 then d
  else ({ d with mer := { d.mer with joinAt := t, mirrored := 0, bytes := 0, mirror := [] } }.set F.TWIN_JOIN_STAT_PHASE 1).set
    F.TWIN_JOIN_STAT_COPIED 0

/-- The groups of the returning view start as after START. -/
def restartGroups (d : Dev) (gs : List Nat) : Dev :=
  let d := (gs.flatMap d.portsOf).foldl (fun d p => d.setPort p { d.port p with fifo := [], held := [], ledger := [], slotRecs := [], prev := [] }) d
  { d with mer := { d.mer with back := gs } }

/-- JOIN_BOUNDARY: the first row slot at or after JOIN_AT: the lead mirrors and restores the ROLEs saved; the returning view starts on both. -/
def joinBoundary (d : Dev) : Dev :=
  if d.get F.TWIN_JOIN_STAT_PHASE ≠ 1 ∨ d.now < d.mer.joinAt then d
  else
    let gs := (List.range 8).filter d.viewLost
    let d := (d.restartGroups gs).set F.TWIN_JOIN_STAT_PHASE 2
    if d.isLead then
      let d := gs.foldl (fun (d : Dev) g => (List.range 8).foldl (fun (d : Dev) l =>
        let u := d.get (F.TRAJ_GCFG_PARTNER l)
        if d.get (F.MODE_ROLE_SAVE_ROLE l) = 2 && (g = l || g = u) then
          (d.set (F.TRAJ_GCFG_ROLE l) 2).set (F.TRAJ_GCFG_ROLE u) (d.get (F.MODE_ROLE_SAVE_ROLE u))
        else d) d) d
      let d := (List.range 6).foldl (fun (d : Dev) m => (d.mirrorPieces m).foldl (sendMirror m) d) d
      d.merSend 0x22 0 1 [d.mer.mirrored]
    else if d.role = 3 then
      -- what the lead does not send is zero
      ({ d with mem := d.mem.filter (fun c => !(List.range 6).any (fun m => match mirrorArea m with
        | some (b, n) => decide (b ≤ c.1 ∧ c.1 < b + n)
        | none => false)) } : Dev).suspectShow
    else d

/-- MIRROR: a piece of a memory installed on the joining device; a memory that the model does not name is kept as it came. -/
def mirrorRecord (d : Dev) (m o : Nat) (data : List Nat) : Dev :=
  if d.role ≠ 3 ∨ d.get F.TWIN_JOIN_STAT_PHASE = 0 then d
  else
    let bytes := d.mer.bytes + 4 * data.length
    let d := ({ d with mer := { d.mer with mirrored := d.mer.mirrored + 1, bytes := bytes } }.set F.TWIN_JOIN_STAT_PHASE 2).set
      F.TWIN_JOIN_STAT_COPIED (bytes / 2 ^ 20)
    match mirrorArea m with
    | some (base, len) =>
      let d := (List.range data.length).foldl (fun d i => if o + 4 * i < len then d.write (base + mirrorOffset m (o + 4 * i)) 4 (data.getD i 0) else d) d
      if m = 0 then d.suspectShow else d
    | none => { d with mer := { d.mer with mirror := d.mer.mirror ++ [(m, o, data)] } }

/-- JOIN_END: the copy ends, catch-up begins. -/
def joinEnd (d : Dev) : Dev :=
  if d.role ≠ 3 ∨ d.get F.TWIN_JOIN_STAT_PHASE = 0 then d else (d.set F.TWIN_JOIN_STAT_PHASE 3).put F.TWIN_STAT_CATCHUP true

/-- JOIN_DONE: catch-up has reached live rows: a synced shadow. -/
def joinDone (d : Dev) : Dev :=
  if d.role ≠ 3 ∨ d.get F.TWIN_JOIN_STAT_PHASE ≠ 3 then d else ((d.put F.TWIN_STAT_SYNCED true).setRole 2).joinFinished

/-! ### The TWIN and MODE registers (R508, R530) -/

/-- A write of TWIN_CTRL: limits, the withdrawal of lanes, JOIN_GO. -/
def twinCtrlWrite (d : Dev) (word : Nat) : Dev :=
  let wd := fieldOf F.TWIN_CTRL_LANE_WD word
  let left := d.get F.TWIN_STAT_LANES &&& (15 - wd)
  if fieldOf F.TWIN_CTRL_DIG_LIMIT word = 0 ∨ fieldOf F.TWIN_CTRL_START_WAIT word = 0 then d.refuse 0x90 0x40 .range
  else if d.get F.TWIN_STAT_LANES ≠ 0 ∧ left = 0 then d.refuse 0x90 0x40 .state
  else
    let was := d.get F.TWIN_CTRL_LANE_WD
    let d := d.putFields word [F.TWIN_CTRL_DIG_LIMIT, F.TWIN_CTRL_START_WAIT, F.TWIN_CTRL_LANE_WD, F.TWIN_CTRL_SVC_HOST, F.TWIN_CTRL_AUTO_HAND,
      F.TWIN_CTRL_DIG_EN]
    let d := (List.range 4).foldl (fun d m =>
      let l := 96 + m
      let d' := d.setLane l { d.lane l with trainAt := none, holdAt := none, ownHold := none, trainFail := false }
      if wd / 2 ^ m % 2 = 1 ∧ was / 2 ^ m % 2 = 0 then d'.setPin (.merTx m) .idle
      else if wd / 2 ^ m % 2 = 0 ∧ was / 2 ^ m % 2 = 1 then ((d'.put (F.LANE_CFG_TEST_EN (l / 8) (l % 8)) false).unlock l).laneStart l
      else d) d
    let d := d.merRefresh
    if fieldOf F.TWIN_CTRL_JOIN_GO word = 1 then d.joinGo else d

/-- A write to a TWIN register. -/
def twinWrite (d : Dev) (off word : Nat) : Dev :=
  if off = 0x40 then d.twinCtrlWrite word
  else if off = 0x74 then (if word / 2 ^ 31 % 2 = 1 then { d with mer := { d.mer with digFirst := false } } else d)
  else d.regWrite 0x90 off word

/-- A write to a MODE register. -/
def modeWrite (d : Dev) (off word : Nat) : Dev :=
  if off = 0x50 then d.limited 0x91 off word (decide (1 ≤ fieldOf F.MODE_CTRL_HALF_MS word)) else d.regWrite 0x91 off word

/-- TWIN_HB.AGE: µs since the last valid HEARTBEAT, saturating. -/
def hbAge (d : Dev) : Nat := match d.mer.hbRx with
  | some t => min 65535 (d.elapsed t / 1000)
  | none => 0

/-! ### CFG_CHECK (R511) -/

/-- The field that belongs to port p XOR 8 where `f` belongs to port p: the CXP pages and their lanes, NR_MODEL, FOC_BAND, GEO_DEPTH0/1, STI_OFS; any
other field is its own. -/
def swapPort (f : Fld) : Fld :=
  let page := f.addr / 0x1_0000; let off := f.addr % 0x1_0000
  if 0x10 ≤ page ∧ page < 0x20 then { f with addr := f.addr ^^^ 0x8_0000, reset := if off = 0x40 ∧ f.lsb = 8 then f.reset ^^^ 8 else f.reset }
  else if 0x20 ≤ page ∧ page < 0x28 then { f with addr := f.addr ^^^ 0x4_0000 }
  else if page = 0x31 ∧ 0x100 ≤ off ∧ off < 0x200 then { f with addr := f.addr ^^^ 0x80 }
  else if page = 0x32 ∧ off = 0x48 then { f with lsb := f.lsb ^^^ 16 }
  else if page = 0x33 ∧ (off = 0x58 ∨ off = 0x5C) then { f with addr := f.addr ^^^ 4 }
  else if page = 0x34 ∧ 0x80 ≤ off ∧ off < 0xC0 then { f with addr := f.addr ^^^ 0x20 }
  else f

/-- A field whose value names a port or the generator of one: TRIG_SRC, FOC_SEL.PORT, STI_GRPg.ANCHOR (0xF there is none). -/
def swapValue (f : Fld) (v : Nat) : Nat :=
  let page := f.addr / 0x1_0000; let off := f.addr % 0x1_0000
  if (0x10 ≤ page ∧ page < 0x20 ∧ off = 0x40 ∧ f.lsb = 8) ∨ f = F.FOC_SEL_PORT ∨ (page = 0x34 ∧ 0x40 ≤ off ∧ off < 0x60 ∧ f.lsb = 16 ∧ v ≠ 0xF) then v ^^^ 8
  else v

/-- The value that stands for a field in the check: on side B with the ports p and p XOR 8 exchanged. -/
def checkValue (d : Dev) (f : Fld) : Nat := if d.get F.DEV_STRAPS_TWIN_SIDE = 1 then swapValue f (d.get (swapPort f)) else d.get f

/-- The configuration fields of a page: what a driver writes and the block keeps. -/
def pageConfig (d : Dev) (page : Nat) : List (Nat × Nat) := match pageRows page with
  | none => []
  | some (rows, inst) => (rowsHeader.map (fun r => (r, page)) ++ rows.map (fun r => (r, inst))).flatMap (fun e =>
      (List.range e.1.count).flatMap (fun n => ((e.1.fields e.2 n).filter (fun f => f.1 = .rw || f.1 = .rws)).map (fun f => (f.2.key, d.checkValue f.2))))

/-- The pages of R511. -/
def configPages : List Nat := (List.range 0x2A).map (0x10 + ·) ++ [0x80] ++ (List.range 8).map (0x81 + ·)

/-- The bytes of one active bank that are not zero, at the offsets they have in bank 0. `port8` is the distance from the records of port p to those of
port p XOR 8, 0 in a table without ports: on side B the two halves change places. -/
def tableBytes (d : Dev) (base bank len port8 : Nat) : List (Nat × Nat) :=
  let own := (d.mem.filter (fun c => decide (base + bank ≤ c.1 ∧ c.1 < base + bank + len))).map (fun c => (c.1 - bank, c.2.toNat))
  if port8 = 0 ∨ d.get F.DEV_STRAPS_TWIN_SIDE ≠ 1 then own
  else
    let upper := fun (c : Nat × Nat) => decide (c.1 / port8 % 2 = 1)
    (own.filter upper).map (fun c => (c.1 - port8, c.2)) ++ (own.filter (fun c => !upper c)).map (fun c => (c.1 + port8, c.2))

/-- The active banks of the swapped tables, from BAR2 memory: spectral classes, geometry, valve map, coefficients. -/
def activeTables (d : Dev) : List (Nat × Nat) :=
  let bank := fun (f : Fld) (len : Nat) => d.get f * len
  d.tableBytes 0x4_4000_0000 (bank F.SPEC_SWAP_ACTIVE 0x1_0000) 0x1_0000 0 ++ d.tableBytes 0x4_4002_0000 (bank F.SPEC_SWAP_ACTIVE 0x1_0000) 0x1_0000 0
    ++ d.tableBytes 0x4_4004_0000 (bank F.GEO_SWAP_ACTIVE 0x1000) 0x400 0x200 ++ d.tableBytes 0x4_4005_0000 (bank F.PLAN_SWAP_ACTIVE 0x8000) 0x8000 0
    ++ d.tableBytes 0x4_4100_0000 (bank F.COR_SWAP_ACTIVE 0x40_0000) 0x40_0000 0x20_0000

/-- CFG_CHECK of the configuration in force. -/
def cfgCheck (d : Dev) : Nat := crc32c (Config.configBytes (configPages.flatMap d.pageConfig) d.activeTables)

end Dev

/-! ### The meanings -/

def execHeartbeatSend (s : State) : Answer := s.run (·.heartbeatSend)
def execHeartbeat (ws : List Nat) (s : State) : Answer := s.run (·.merRx 0x01 ws (·.heartbeat ws))
def execPartnerLost (s : State) : Answer := s.run (·.partnerSilent)
def execFaultRecord (ws : List Nat) (s : State) : Answer := s.run (·.merRx 0x03 ws (·.partnerLost))

/-- A TOKEN record has an effect here only with the OP that the row names. -/
def execTokenOffer (ws : List Nat) (s : State) : Answer :=
  s.run (fun d => if ws.getD 2 0 % 4 = 0 then d.merRx 0x02 ws (·.tokenOffer (merHi ws)) else d)
def execTokenAccept (ws : List Nat) (s : State) : Answer :=
  s.run (fun d => if ws.getD 2 0 % 4 = 1 then d.merRx 0x02 ws (·.tokenAccept (merHi ws)) else d)
def execTokenRefuse (ws : List Nat) (s : State) : Answer :=
  s.run (fun d => if ws.getD 2 0 % 4 = 2 then d.merRx 0x02 ws (fun d => d.offerFailed.requestFailed) else d)
def execTokenRequest (ws : List Nat) (s : State) : Answer :=
  s.run (fun d => if ws.getD 2 0 % 4 = 3 then d.merRx 0x02 ws (·.tokenRequest) else d)
def execTrigRecord (ws : List Nat) (s : State) : Answer :=
  s.run (·.merRx 0x10 ws (·.trigRecord (merHi ws % 16) (ws.getD 2 0) (ws.getD 3 0 + ws.getD 4 0 * 2 ^ 32)))
def execLedgerRecord (ws : List Nat) (s : State) : Answer :=
  s.run (·.merRx 0x11 ws (·.ledgerRecord (merHi ws % 16) (merHi ws / 16 % 4) (merHi ws / 256 % 16) (ws.getD 2 0) (ws.getD 3 0)))
def execSlotRecord (ws : List Nat) (s : State) : Answer :=
  s.run (·.merRx 0x12 ws (·.slotRecord (merHi ws % 65536) (ws.getD 2 0)))
def execSlotRecordTimeout (g : Nat) (s : State) : Answer := s.run (·.slotTimeout g)
def execMissRecord (ws : List Nat) (s : State) : Answer := s.run (·.merRx 0x13 ws (·.missReceived (ws.getD 2 0)))
def execLatRecord (ws : List Nat) (s : State) : Answer := s.run (·.merRx 0x14 ws (·.latRecord (merHi ws % 2048) (ws.getD 2 0)))
def execDigestSend (s : State) : Answer := s.run (·.digestSend)
def execDigestRecord (ws : List Nat) (s : State) : Answer :=
  s.run (·.merRx 0x15 ws (·.digestRecord (merHi ws % 16) (ws.getD 2 0) (ws.getD 3 0) (ws.getD 4 0)))
def execDigestTimeout (s : State) : Answer := s.run (·.digestTimeout)
def execMeridianRetransmit (s : State) : Answer := s.run (·.retransmit)
def execLaneWdWrite (value : Nat) (s : State) : Answer := s.run (·.gated 0x90 0x40 (·.twinCtrlWrite value))
def execStartWaitExpiry (s : State) : Answer := s.run (·.startWaitExpiry)
def execJoinGo (value : Nat) (s : State) : Answer := s.run (·.gated 0x90 0x40 (·.twinCtrlWrite (value ||| 16)))
def execJoin (ws : List Nat) (s : State) : Answer := s.run (·.merRx 0x20 ws (·.joinRecord (ws.getD 2 0 + ws.getD 3 0 * 2 ^ 32)))
def execJoinBoundary (s : State) : Answer := s.run (·.joinBoundary)
def execMirror (ws : List Nat) (s : State) : Answer :=
  s.run (·.merRx 0x21 ws (·.mirrorRecord (merHi ws % 256) (ws.getD 2 0) ((ws.drop 3).dropLast)))
def execJoinEnd (ws : List Nat) (s : State) : Answer := s.run (·.merRx 0x22 ws (·.joinEnd))
def execJoinDone (s : State) : Answer := s.run (·.joinDone)
def execDigInfoClr (value : Nat) (s : State) : Answer := s.run (·.gated 0x90 0x74 (·.twinWrite 0x74 (value ||| 2 ^ 31)))

end Sys2Proof.Machine
end

