-- ==== Sys2Proof/Machine/Header.lean ====
section
/-! DEFINITION. The common header of every page (R59–R65): enable, reset, test, freeze, withdrawal, interrupts, locks; feature negotiation (R69,
R70) and interrupt routing (R80). -/

namespace Sys2Proof.Machine

/-- The blocks whose chapter names no test source: a write of TEST records UNSUPPORTED (R60). -/
def noTestSource (page : Nat) : Bool :=
  [3, 4, 5, 6, 7, 8, 9, 0x0C, 0x0E, 0x0F, 0x36, 0x37, 0x38, 0x39, 0x80, 0x90, 0x91].contains page

def isCxp (page : Nat) : Bool := 0x10 ≤ page && page ≤ 0x1F
def isLng (page : Nat) : Bool := 0x20 ≤ page && page ≤ 0x2C
def isEng (page : Nat) : Bool := 0x40 ≤ page && page ≤ 0x7F
def isMet (page : Nat) : Bool := 0x81 ≤ page && page ≤ 0x88

/-- The interrupt sources of a page: bits 0 to 2, and those that its chapter defines (R62). -/
def irqSources (page : Nat) : Nat :=
  let top :=
    if isCxp page then 11
    else if isLng page then 9
    else if isEng page then 6
    else if isMet page then 11
    else [(0, 7), (1, 3), (3, 6), (4, 11), (5, 4), (7, 6), (8, 4), (9, 6), (0x0A, 4), (0x0B, 4), (0x0C, 6), (0x0D, 5), (0x0E, 3), (0x0F, 8), (0x30, 6),
      (0x32, 3), (0x33, 4), (0x34, 4), (0x35, 4), (0x36, 3), (0x37, 6), (0x38, 4), (0x39, 7), (0x80, 10), (0x90, 9), (0x91, 3)].lookup page |>.getD 2
  -- bit 10 of a camera page stands for a group, and only ports 0 to 7 have one
  2 ^ (top + 1) - 1 - (if 0x18 ≤ page ∧ page ≤ 0x1F then 2 ^ 10 else 0)

/-- The fields of a page's block registers that the driver does not set (Table regs-2). -/
def innerFields (page : Nat) : List Fld := match pageRows page with
  | some (rows, inst) => rows.flatMap (fun r => (List.range r.count).flatMap (fun n =>
      ((r.fields inst n).filter (fun e => e.1 = .ro || e.1 = .w1c || e.1 = .rc)).map (·.2)))
  | none => []

/-- Whole-word counters of a page at these offsets. -/
def words (page : Nat) (offs : List Nat) : List Fld := offs.map (fun o => ⟨bar0 page o, 0, 32, 0⟩)

/-- Offsets `n` words long from `o`. -/
def run32 (o n : Nat) : List Nat := (List.range n).map (fun i => o + 4 * i)

/-- The counters that a SOFT_RESET of the page clears (each chapter's interrupt paragraph). -/
def counters (page : Nat) : List Fld :=
  if isCxp page then
    let p := page - 16
    [F.CXP_PWR_FLT_CNT p, F.TGEN_SKIP_DROPPED p, F.TGEN_SKIP_POSTPONED p] ++ words page (run32 0x60 8 ++ [0x88, 0x30C, 0x310])
  else if isLng page then
    let g := page - 0x20
    F.LNG_PLL_STAT_LOSS_CNT g :: (List.range 8).flatMap (fun k => [F.LANE_STAT_LOCK_LOSS_CNT g k, F.LANE_STAT_READAPT_CNT g k])
  else if isEng page then words page (run32 0x50 4 ++ [0x6C])
  else if isMet page then
    let n := page - 0x81
    words page (run32 0x60 9) ++ (List.range 4).map (fun k => F.MET_MOD_CNT2_ACK_TIMEOUTS n k)
  else if page = 0x30 then F.COR_SWAP_SWAP_CNT :: words page (run32 0x70 4)
  else if page = 0x33 then F.GEO_SWAP_SWAP_CNT :: words page [0x60, 0x64]
  else if page = 0x34 then [F.STI_AR_STAT_REJECTS, F.STI_AR_STAT_STEPS, F.STI_AR_STAT2_LOW_EDGE]
  else if page = 0x35 then F.SPEC_SWAP_SWAP_CNT :: words page [0x58, 0x5C]
  else if page = 0x36 then words page (run32 0x78 6)
  else if page = 0x37 then F.BODY_COMMIT_SEQ_COUNT :: words page (run32 0x90 8)
  else if page = 0x38 then words page (run32 0x60 7)
  else if page = 0x39 then
    F.DISP_SWAP_SWAP_CNT :: (words page (run32 0xE0 11) ++ (List.range 8).flatMap (fun g => [F.DISP_GRP_MISS_COUNT g, F.DISP_GRP_VERD_COUNT g]))
  else if page = 0x80 then F.PLAN_SWAP_SWAP_CNT :: words page (run32 0x90 16)
  else if page = 0x0F then (List.range 4).flatMap (fun n => [F.MOT_CH_CNT_GLITCH n, F.MOT_CH_CNT_ERRORS n])
  else if page = 4 then (List.range 16).map F.TIME_SCHED_CNT_COUNT
  else if page = 5 then [F.NET_PORT_STAT_DOWN_CNT 0, F.NET_PORT_STAT_DOWN_CNT 1] ++ words page (run32 0x70 8)
  else if page = 0x0C then (List.range 4).flatMap (fun c => words page (run32 (0x120 + 0x40 * c) 6))
  else if page = 0x90 then words page (run32 0x64 3 ++ run32 0x80 6)
  else if page = 0x91 then words page (run32 0x60 5)
  else []

namespace Dev

/-! ### What follows from a page starting or stopping -/

/-- A lane stops and its user sees the loss of lock (R135). -/
def stopLane (d : Dev) (l : Nat) : Dev :=
  let d := d.laneStop l
  if l < 64 then d.lockLoss (l / 4) (l % 4) else d

/-- The lanes of a group, all started or all stopped. -/
def groupLanes (d : Dev) (g : Nat) (on : Bool) : Dev :=
  (List.range 8).foldl (fun d k =>
    let l := 8 * g + k
    if !on then d.stopLane l else if (d.lane l).base = 0 then d.laneStart l else d.laneShow l) d

/-- The relay outputs whose lanes stand in group g follow its withdrawal (R110, R135). -/
def groupRelays (d : Dev) (g : Nat) : Dev :=
  if 8 ≤ g ∧ g ≤ 11 then (d.relayUpdate (2 * (g - 8))).relayUpdate (2 * (g - 8) + 1) else d

/-- A block has started or stopped, by ENABLE or by its governing feature; `mot` and `sig` say which channels ran before. A TRIM page that stops
gives up a pending apply, as one withdrawn does (log entry 100, DEDUCED). -/
def pageRuns (d : Dev) (page : Nat) (on : Bool) (mot sig : Nat → Bool) : Dev :=
  if isCxp page then (d.portEnable (page - 16) on).refreshStale
  else if isLng page then d.groupLanes (page - 0x20) on
  else if isMet page then (if !on then d.metHalt (page - 0x81) else if d.offline page then d else d.metUp (page - 0x81))
  else if page = 5 then d.netRefresh
  else if page = 0x0F then d.motRefresh mot
  else if page = 0x0D then d.sigRefresh sig
  else if page = 0x90 then d.merRefresh
  else if page = 0x0E then (if on then d else d.put F.TRIM_CTRL_PEND false)
  else d

/-- A change `f` of enables or features with all that follows from it. -/
def withRuns (d : Dev) (f : Dev → Dev) : Dev :=
  let d' := d.poolChange f
  ((List.range 0x92).filter (fun p => pageImplemented p && d.enabled p != d'.enabled p)).foldl
    (fun (x : Dev) p => x.pageRuns p (d'.enabled p) d.motRuns d.sigRuns) d'

/-! ### BLK_CTRL (R60, R61; Table regs-7) -/

def refuseCtrl (d : Dev) (page : Nat) (e : Err) : Dev := d.refuse page 0x0C e

/-- NEGOTIATED, CONFIGURED or SERVICE. -/
def quiet (d : Dev) : Bool := d.state = 3 || d.state = 4 || d.state = 8

/-- ENABLE written. On always-enabled pages the write is ignored. -/
def writeEnable (d : Dev) (page : Nat) (v : Bool) : Dev :=
  if alwaysEnabled page || d.bit (F.BLK_CTRL_ENABLE page) = v then d
  else if d.quiet || (servesOffline page && d.offline page) then d.withRuns (·.put (F.BLK_CTRL_ENABLE page) v)
  else d.refuseCtrl page .state

/-- TEST takes effect on a page or leaves it. -/
def setTest (d : Dev) (page : Nat) (v : Bool) : Dev :=
  let sig := d.sigRuns
  let d := (d.put (F.BLK_CTRL_TEST page) v).put (F.BLK_STAT_TEST page) v
  if isLng page then
    (List.range 8).foldl (fun d k =>
      let l := 8 * (page - 0x20) + k
      let d := (if v then d else d.put (F.LANE_PRBS_SYNC (page - 0x20) k) false).testAnew l
      let d := d.unlock l
      ((if v || d.bit (F.LANE_CFG_TEST_EN (page - 0x20) k) then d else d.laneStart l).laneShow l).relayOfLane l) d
  else if isMet page then
    d.metTest (page - 0x81) v
  else if page = 0x0D then d.sigRefresh sig
  else d

/-- TEST written: an engine takes it only through ENG_SELFTEST, a Meteor port only while OFFLINE (R263, R354). -/
def writeTest (d : Dev) (page : Nat) (v : Bool) : Dev :=
  if d.bit (F.BLK_CTRL_TEST page) = v then d
  else if noTestSource page then d.refuseCtrl page .unsupported
  else if !isEng page && (d.offline page || (!isMet page && (d.state = 4 || d.state = 8))) then d.setTest page v
  else d.refuseCtrl page .state

/-- FREEZE written: accepted from NEGOTIATED on. -/
def writeFreeze (d : Dev) (page : Nat) (v : Bool) : Dev :=
  if d.bit (F.BLK_CTRL_FREEZE page) = v then d
  else if d.state < 3 then d.refuseCtrl page .state
  else
    let d := d.put (F.BLK_CTRL_FREEZE page) v
    if page = 4 then d.clockRefresh
    else if isLng page then (List.range 8).foldl (fun d k => d.laneShow (8 * (page - 0x20) + k)) d else d

/-- OFFLINE_REQ set: what stops at once; the rest of the block's work ends by itself (R135, R262, R354, R377, R393, R399). -/
def withdrawPage (d : Dev) (page : Nat) : Dev :=
  let mot := d.motRuns
  let sig := d.sigRuns
  let d := d.put (F.BLK_CTRL_OFFLINE_REQ page) true
  if isLng page then (d.groupLanes (page - 0x20) false).groupRelays (page - 0x20)
  else if page = 0x0F then d.motRefresh mot
  else if page = 0x0D then d.sigRefresh sig
  else if page = 0x0E then d.put F.TRIM_CTRL_PEND false
  else d

/-- OFFLINE_REQ cleared: the block clears OFFLINE as it rejoins (R61); an engine rejoins only by R264. -/
def rejoinPage (d : Dev) (page : Nat) : Dev :=
  let mot := d.motRuns
  let sig := d.sigRuns
  let was := d.offline page
  let d := d.put (F.BLK_CTRL_OFFLINE_REQ page) false
  if isEng page then d.engRejoin (page - 0x40)
  else
    let d := d.put (F.BLK_STAT_OFFLINE page) false
    if isLng page then (d.groupLanes (page - 0x20) true).groupRelays (page - 0x20)
    else if isMet page then (if was && d.enabled page then (d.put (F.BLK_STAT_TEST page) false).metUp (page - 0x81) else d)
    else if page = 0x0F then d.motRefresh mot
    else if page = 0x0D then d.sigRefresh sig
    else d

/-- OFFLINE_REQ written. -/
def writeOffline (d : Dev) (page : Nat) (v : Bool) : Dev :=
  if d.bit (F.BLK_CTRL_OFFLINE_REQ page) = v then d
  else if !servesOffline page then d.refuseCtrl page .unsupported
  else if !v then d.poolChange (·.rejoinPage page)
  else if isEng page then (d.poolChange (fun d => (d.withdrawPage page).engOfflineReq (page - 0x40))).autoLevel
  else d.withdrawPage page

/-- The work of a withdrawn block has ended: no line is coming in, no block or state action is in progress, no feed is running and no byte is queued,
no body runs (R262, R468, R502). -/
def workEnded (d : Dev) (page : Nat) : Bool :=
  if isCxp page then (d.port (page - 16)).rx.all (fun r => !r.busy)
  else if isEng page then (d.eng (page - 0x40)).body.isNone
  else if page = 0x0C then (List.range 4).all (fun c => (d.packCh c).now.isNone && (d.packCh c).saving.isNone)
  else if page = 0x0A then (List.range 4).all (fun c => (d.crcUnit c).feed.isNone && (d.crcUnit c).queue.isEmpty)
  else true

/-- BLOCK_OFFLINE: the withdrawn block has finished its work and sets OFFLINE. -/
def blockOffline (d : Dev) (page : Nat) : Dev :=
  if !(servesOffline page && d.bit (F.BLK_CTRL_OFFLINE_REQ page) && !d.offline page) then d
  else if isMet page then d.metOffline (page - 0x81)
  else if d.workEnded page then d.put (F.BLK_STAT_OFFLINE page) true
  else d

/-- The fields of a page that the driver does not set return to reset, but for those of `keep`. -/
def clearInner (d : Dev) (page : Nat) (keep : List Fld := []) : Dev := d.clearFields ((innerFields page).filter (fun f => !keep.contains f))

/-- SOFT_RESET of a lane group: the lanes stop and start again; the equaliser, a written value, and the PLL stay. -/
def resetLanes (d : Dev) (g : Nat) : Dev :=
  let d := (d.groupLanes g false).clearInner (lng g) [F.LNG_MAP_PRESENT g, F.LNG_MAP_KIND g, F.LNG_PLL_STAT_REF_OK g, F.LNG_PLL_STAT_PLL_LOCK g]
  let d := (List.range 8).foldl (fun d k => d.setLane (8 * g + k) { manEq := (d.lane (8 * g + k)).manEq }) d
  (d.groupLanes g true).groupRelays g

/-- SOFT_RESET of the MOT page: every channel from its reset state, the input levels as they stand. -/
def resetMot (d : Dev) : Dev :=
  let d := (List.range 4).foldl (fun d n => d.setMot n { a := still (d.mot n).a.raw, b := still (d.mot n).b.raw, z := still (d.mot n).z.raw }) (d.clearInner 0x0F)
  ({ d with motReps := [], hitLatch := [] } : Dev).motRefresh (fun _ => false)

/-- SOFT_RESET of the SIG page: every channel from empty registers; the coefficient bank in force stays. -/
def resetSig (d : Dev) : Dev :=
  ({ d.clearInner 0x0D ((List.range 16).flatMap (fun n => [F.SIG_CH_XF_ACTIVE n, F.SIG_CH_GD_FINE n, F.SIG_CH_STAT_FAST_GD n])) with sigs := [] } : Dev).sigRefresh (fun _ => false)

/-- SOFT_RESET of a Meteor port: the link stops, and begins training where the port runs. -/
def resetMet (d : Dev) (n : Nat) : Dev :=
  let d := (d.metHalt n).clearInner (metPage n)
  if d.enabled (metPage n) && !d.offline (metPage n) then d.metUp n
  else if d.testing (metPage n) then d.metTest n true else d.metShow n

/-- SOFT_RESET of the TWIN page: what is known of the partner and of the link's records; role, token and the check of this side stay. -/
def resetTwin (d : Dev) : Dev :=
  ({ d.clearInner 0x90 [F.TWIN_STAT_ROLE, F.TWIN_TOKEN_HELD, F.TWIN_TOKEN_EPOCH, F.TWIN_CFG_CHECK_CHECK, F.TWIN_ROLE_DT_LO_DT, F.TWIN_ROLE_DT_HI_DT]
      with mer := {} } : Dev).merRefresh

/-- SOFT_RESET of a camera port: it stops and, where it is enabled, links up anew; its generator stops. What other pages and the lane layer set stays. -/
def resetCxp (d : Dev) (p : Nat) : Dev :=
  let on := d.enabled (cxp p)
  let d := ((d.portEnable p false).setPort p {}).setGen p { step := (d.gen p).step }
  let d := d.clearInner (cxp p) [F.CXP_LINK_LOCK p, F.CXP_RELAY_RLY_ACTIVE p, F.CXP_PWR_FLT p, F.CXP_PWR_EN_LEVEL p, F.GRP_CTRL_REMOTE p, F.GRP_PORTS_PORTS p]
  (if on then d.portEnable p true else d).refreshStale

/-- SOFT_RESET of the HOST page: every queue loses its staged records and begins anew, every descriptor ring forgets its descriptors; the link, SEQ,
LOST and HOST_RESETS stay. -/
def resetHost (d : Dev) : Dev :=
  let on := (List.range 5).filter (fun q => d.bit (F.RQ_CTRL_EN q))
  let d := (List.range 5).foldl (fun d q => d.hostResetQueue q) { d with rings := [], arb := {}, recLeft := 0 }
  let d := d.clearInner 6 ([F.HOST_LINK_D3HOT, F.HOST_LINK_BME, F.HOST_LINK_WIDTH, F.HOST_LINK_SPEED, F.HOST_RESETS_COUNT]
    ++ (List.range 5).flatMap (fun q => [F.RQ_SEQ_SEQ q, F.RQ_LOST_COUNT q]))
  on.foldl (fun d q => (d.put (F.RQ_CTRL_EN q) false).rqEnable q true) d

/-- SOFT_RESET of the TIME page: the ordinary clock, PPS and PTM begin anew; DT, its holdover, the loopback corrections and armed schedulers stay. -/
def resetTime (d : Dev) : Dev :=
  let d : Dev := { d with clock := {}, timing := { sched := d.timing.sched, skewAt := d.timing.skewAt } }
  ((d.setClockState 0).clearInner 4 ([F.TIME_SLEW_CTRL_BUSY, F.TIME_STAT_SKEW_WARN, F.TIME_STAT_SLEWING, F.TIME_STAT_HOLDOVER, F.TIME_STAT_SET]
    ++ (List.range 4).flatMap (fun i => [F.TIME_ISL_DLY_DEV i, F.TIME_ISL_DLY_DLY i])
    ++ (List.range 16).map F.TIME_SCHED_CTRL_LEVEL)).clockRefresh

/-- SOFT_RESET of the ISL page: windows, proposals, caps and what they showed; the codes in force and their INIT stay. -/
def resetIsl (d : Dev) : Dev :=
  (({ d with isl := { windowAt := d.time.c, commitAt := d.isl.commitAt } } : Dev).clearInner 3
    ((List.range 96).flatMap (fun i => [F.ISL_PT_FIXED i, F.ISL_PT_UNREG i, F.ISL_PT_INIT i, F.ISL_PT_VCODE i]))).queuePoints

/-- SOFT_RESET of a swapped table's page: the pending swap, and what `inner` names; the bank in force stays. -/
def resetSwap (d : Dev) (page : Nat) (s : SwapDef) (keep : List Fld := []) : Dev := (d.swapCancel s).clearInner page (s.active :: keep)

/-- What a block holds inside as after reset, beside its counters and what shows the state of something outside it (log entry 59, DEDUCED). -/
def resetInner (d : Dev) (page : Nat) : Dev :=
  if isCxp page then d.resetCxp (page - 16)
  else if isLng page then d.resetLanes (page - 0x20)
  else if isMet page then d.resetMet (page - 0x81)
  else if isEng page then
    let e := page - 0x40
    let x := d.eng e
    (d.setEng e { x with mem := clearCells x.mem 0x5_0000 0x3_0000, s := [], v := [], p := [], busy := 0 }).clearInner page
      [F.ENG_CFG_IMG_VALID e, F.ENG_CFG_SLOT e, F.ENG_PT_VCODE e, F.ENG_PT_ACT e, F.ENG_STAT_ST_PASS e, F.ENG_STAT_WITHDRAWN e, F.ENG_STAT_FETCHED e,
        F.ENG_STAT_RUN e]
  else if page = 1 then (if d.cmd.isSome then d else d.clearInner 1)
  else if page = 2 then
    (List.range 64).foldl (fun d v => if d.vectorPending v then d.signal v else d) (d.clearInner 2)
  else if page = 3 then d.resetIsl
  else if page = 4 then d.resetTime
  else if page = 5 then
    ({ d with net := {} } : Dev).clearInner 5 ((List.range 2).flatMap (fun e => [F.NET_PORT_STAT_TX_DIS e, F.NET_PORT_STAT_LOS e, F.NET_PORT_STAT_MOD_ABS e,
      F.NET_PORT_STAT_BLOCK_LOCK e, F.NET_PORT_STAT_LINK e]) ++ (List.range 64).map F.NET_MOD_ID_ID)
  else if page = 6 then d.resetHost
  else if page = 7 then
    ({ d with teth := { fwd := d.teth.fwd, ret := d.teth.ret, wait := d.teth.wait } } : Dev).clearInner 7 [F.TETH_ADDR_OVER, F.TETH_ADDR_LAST, F.TETH_ADDR_ROOT, F.TETH_ADDR_ADDR, F.TETH_STAT_CHAIN, F.TETH_STAT_RET_LOCK,
      F.TETH_STAT_FWD_LOCK]
  else if page = 8 then d.clearFields ((List.range 64).map F.SEC_REPORT_REPORT)
  else if page = 9 then (({ d with illumDt := 0 } : Dev).clearInner 9).nvmShow
  else if page = 0x0A then ({ d with crcUnits := [] } : Dev).clearInner 0x0A
  else if page = 0x0B then ({ d with monitors := [], obs := { snapAt := d.time.c } } : Dev).clearInner 0x0B
  else if page = 0x0C then
    ((List.range 4).foldl (fun d c => d.dropHist c) d).clearInner 0x0C ((List.range 4).flatMap (fun c => [F.PACK_CH_ST_CTRL_BUSY c]))
  else if page = 0x0D then d.resetSig
  else if page = 0x0E then d.put F.TRIM_CTRL_PEND false
  else if page = 0x0F then d.resetMot
  else if page = 0x30 then
    ((((List.range 16).foldl (ageEntries 15) { d with fgRows := [], zones := [], zoneRows := [] }).resetSwap 0x30 corSwap).put F.CAL_ILLUM_PEND false).refreshStale
  else if page = 0x31 then { d with tmState := [] }
  else if page = 0x32 then ({ d with focLive := [], focSnap := [] } : Dev).clearInner 0x32
  else if page = 0x33 then ({ d with geoHist := [] } : Dev).resetSwap 0x33 geoSwap
  else if page = 0x34 then { d.clearInner 0x34 with seams := [], arSteps := [], arSwapped := [] }
  else if page = 0x35 then d.resetSwap 0x35 specSwap
  else if page = 0x36 then { d.clearInner 0x36 with seg := { d.seg with groups := [], cut := [] } }
  else if page = 0x37 then d.bodySoftReset
  else if page = 0x38 then d.releaseStore.clearInner 0x38 ((List.range 8).map F.TRAJ_GSTAT_AVG_N)
  else if page = 0x39 then d.resetSwap 0x39 dispSwap ((List.range 8).map F.DISP_GRP_A_SLOT)
  else if page = 0x80 then
    ({ d with plan := { d.plan with pressAt := 0, validAt := 0, lastP := 400 } } : Dev).resetSwap 0x80 planSwap
      ([F.PLAN_SUSPECT_COUNT] ++ (List.range 4).flatMap (fun n => [F.PLAN_QDEPTH_DEPTH0 n, F.PLAN_QDEPTH_DEPTH1 n])
        ++ [F.PLAN_DIVERT_ASSERTED 0, F.PLAN_DIVERT_ASSERTED 1])
  else if page = 0x90 then d.resetTwin
  else d

/-- The internal state of a block and its counters as after reset; what the driver wrote stays (Table regs-6; log entry 59, DEDUCED). -/
def resetBlock (d : Dev) (page : Nat) : Dev := (d.resetInner page).clearFields (counters page)

/-- SOFT_RESET written as 1. -/
def softReset (d : Dev) (page : Nat) : Dev :=
  if !d.bit (F.BLK_CTRL_ENABLE page) || d.offline page || d.state = 8 then (d.resetBlock page).put (F.BLK_STAT_FAULT page) false
  else d.refuseCtrl page .state

/-- A whole BLK_CTRL word written: each field on its own (R56), in the order ENABLE, SOFT_RESET, FREEZE, TEST, OFFLINE_REQ; the spec gives the fields
of one write no order (log entry 85, DESIGN CHOICE). -/
def blkCtrlWrite (d : Dev) (page word : Nat) : Dev :=
  let b := fun (f : Fld) => fieldOf f word = 1
  let d := d.writeEnable page (b (F.BLK_CTRL_ENABLE page))
  let d := if b (F.BLK_CTRL_SOFT_RESET page) then d.softReset page else d
  let d := d.writeFreeze page (b (F.BLK_CTRL_FREEZE page))
  let d := d.writeTest page (b (F.BLK_CTRL_TEST page))
  d.writeOffline page (b (F.BLK_CTRL_OFFLINE_REQ page))

/-! ### Interrupts and locks (R57, R62–R65) -/

/-- The BLK_PARITY bits of a page, in their order. -/
def parityFields (page : Nat) : List Fld :=
  [F.BLK_PARITY_BUS_WR page, F.BLK_PARITY_BUS_RD page, F.BLK_PARITY_DATA_PATH page, F.BLK_PARITY_SRAM_CE page, F.BLK_PARITY_SRAM_UE page]

/-- One event that a block's hardware sets: with bit 2 the block has detected a fault, which may leave no verdict source usable (R62, R72). -/
def hwEvent (page : Nat) (d : Dev) (b : Nat) : Dev :=
  if b = 2 then ((d.put (F.BLK_STAT_FAULT page) true).raise page 2).autoLevel else d.raise page b

/-- The events `hwSet` and the BLK_PARITY bits `parity` that a page's hardware sets in one cycle. -/
def hwEvents (d : Dev) (page hwSet parity : Nat) : Dev :=
  if !pageImplemented page then d
  else
    let bits := fun (v : Nat) => (List.range 32).filter (fun b => v / 2 ^ b % 2 = 1)
    let d := ((parityFields page).zipIdx.filter (fun e => parity / 2 ^ e.2 % 2 = 1)).foldl (fun d e => d.setParity page e.1) d
    (bits (hwSet &&& irqSources page)).foldl (hwEvent page) d

/-- BLK_IRQ_STAT written; the bits of `hwSet` and those of BLK_PARITY are set by hardware in the same cycle, and the set wins (R57). -/
def irqStatWrite (d : Dev) (page value hwSet parity : Nat) : Dev :=
  let set := (hwSet &&& irqSources page) ||| (if parity % 32 = 0 then 0 else 2)
  (d.hwEvents page hwSet parity).gated page 0x1C (fun d =>
    let clear := value % 2 ^ 32 - (value % 2 ^ 32 &&& set)
    d.set (F.BLK_IRQ_RAW page) (d.get (F.BLK_IRQ_RAW page) - (d.get (F.BLK_IRQ_RAW page) &&& clear)))

/-- BLK_IRQ_EN written: a bit without a source is RSV; an event already pending then asserts the page interrupt (R62, R63). -/
def irqEnWrite (d : Dev) (page value : Nat) : Dev :=
  let was := d.asserted page
  let d := d.set (F.BLK_IRQ_EN page) (value &&& irqSources page)
  if !was && d.asserted page then d.pageAsserts page else d

/-- BLK_LOCK written (R65). -/
def lockWrite (d : Dev) (page value : Nat) : Dev :=
  if fieldOf (F.BLK_LOCK_KEY page) value = 0x4C4B then d.set (F.BLK_LOCK_LOCK page) (fieldOf (F.BLK_LOCK_LOCK page) value)
  else d.refuse page 0x30 .locked

/-! ### Feature negotiation (R69, R70, R23) -/

/-- The features that feature `b` requires (R23). -/
def requires (b : Nat) : List Nat :=
  if b = 9 then [8] else if b = 10 then [9, 19] else if b = 1 then [2, 3] else if b = 17 then [16] else if b = 6 ∨ b = 7 then [5] else []

/-- The set written to DRV_FEAT_ACCEPT0–3, and the set offered. -/
def acceptSet (d : Dev) : Nat := (List.range 4).foldl (fun v n => v + d.get (F.DRV_FEAT_ACCEPT_ACCEPT n) * 2 ^ (32 * n)) 0
def offerSet (d : Dev) : Nat := (List.range 4).foldl (fun v n => v + d.get (F.DEV_FEAT_OFFER_OFFER n) * 2 ^ (32 * n)) 0

/-- The lowest feature bit that makes a commit of `set` fail. -/
def commitFault (d : Dev) (set : Nat) : Option Nat :=
  let has := fun (b : Nat) => set / 2 ^ b % 2 = 1
  (List.range 128).find? (fun b => (b = 0 && !has 0) || (has b && (d.offerSet / 2 ^ b % 2 = 0 || (requires b).any (fun r => !has r))))

/-- DEV_FEAT_COMMIT written: in IDENT a 1 starts validation. -/
def featCommit (d : Dev) (value : Nat) : Dev :=
  if d.state ≠ 2 then d.refuse 0 0x70 .state
  else if value % 2 = 1 then d.put F.DEV_FEAT_COMMIT_COMMIT true
  else d

/-- Lanes past ADAPT follow F_AGEING_REPLAN (R123) and the ordinary clock F_PTP_GM (R424); without F_RELAY the commit ends relaying (R110); without
F_TRIM the trim outputs ramp to 0 V (R398), with it a ramp in progress stops. -/
def commitEffects (d : Dev) : Dev :=
  let d := ((List.range 100).foldl (fun d l => d.resettle l) d).clockRefresh
  let d := if d.feat 2 then d else (List.range 16).foldl (fun d p => (d.put (F.CXP_RELAY_RLY_EN p) false).relayUpdate p) d
  if d.feat 20 then d.trimRampEnd else d.setTrim { d.trim with ramp := true, rampAt := d.time.c }

/-- COMMIT_DONE: validation ends. It takes DRV_FEAT_ACCEPT as it stands then; whether the commit latches it the spec does not say (log entry 81,
DESIGN CHOICE). -/
def commitDone (d : Dev) : Dev :=
  if d.state ≠ 2 || !d.bit F.DEV_FEAT_COMMIT_COMMIT then d
  else
    let d := d.put F.DEV_FEAT_COMMIT_COMMIT false
    let set := d.acceptSet
    match d.commitFault set with
    | some b => ((d.set F.DEV_FEAT_RESULT_RESULT Err.feature.code).set F.DEV_FEAT_RESULT_BIT b).raise 0 7
    | none =>
      let d := ((d.set F.DEV_FEAT_RESULT_RESULT 0).set F.DEV_FEAT_RESULT_BIT 0).raise 0 7
      let d := (d.withRuns (fun d => { d with accepted := set })).commitEffects
      d.confirmImage.moveState 3

/-! ### Interrupt routing (R80) -/

/-- One source of IRQ_ROUTEn written: a source that is asserted becomes pending where it was not routed before. -/
def routeOne (value n : Nat) (d : Dev) (k : Nat) : Dev :=
  let p := 4 * n + k
  if !pageImplemented p then d
  else
    let v := fieldOf (F.IRQ_ROUTE_VECTOR n k) value
    let was := d.routedTo p v
    let d := (d.set (F.IRQ_ROUTE_MASK n k) (fieldOf (F.IRQ_ROUTE_MASK n k) value)).set (F.IRQ_ROUTE_VECTOR n k) v
    if !was && d.routedTo p v && d.asserted p then d.signal v else d

def routeWrite (d : Dev) (n value : Nat) : Dev := (List.range 4).foldl (routeOne value n) d

/-- IRQ_REARMn written: a vector re-armed with a source pending sends its message again at once. -/
def rearm (d : Dev) (n value : Nat) : Dev :=
  ((List.range 32).filter (fun b => value / 2 ^ b % 2 = 1)).foldl (fun d b =>
    let d := d.putBit (F.IRQ_ARMED_ARMED n) b true
    if d.vectorPending (32 * n + b) then d.signal (32 * n + b) else d) d

/-- PRBS_CHECK: the time of `bits` passes at a receiver in test: that of lane l, or that of Meteor port l − 104 (R131, R354). -/
def prbsTest (d : Dev) (l : Nat) (bits : List Bool) : Dev := if 104 ≤ l then d.metPrbs (l - 104) bits else d.prbsCheck l bits

end Dev

/-! ### The meanings -/

def execPrbsCheck (l : Nat) (bits : List Bool) (s : State) : Answer := s.run (·.prbsTest l bits)
def execBlkEnable (page : Nat) (v : Bool) (s : State) : Answer := s.run (fun d => d.gated page 0x0C (·.writeEnable page v))
def execSoftReset (page : Nat) (s : State) : Answer := s.run (fun d => d.gated page 0x0C (·.softReset page))
def execBlkTest (page : Nat) (v : Bool) (s : State) : Answer := s.run (fun d => d.gated page 0x0C (·.writeTest page v))
def execFreeze (page : Nat) (v : Bool) (s : State) : Answer := s.run (fun d => d.gated page 0x0C (·.writeFreeze page v))
def execOfflineReq (page : Nat) (v : Bool) (s : State) : Answer := s.run (fun d => d.gated page 0x0C (·.writeOffline page v))
def execBlockOffline (page : Nat) (s : State) : Answer := s.run (·.blockOffline page)
def execBlkIrqStatWrite (page value : Nat) (hw : SameCycle) (s : State) : Answer := s.run (·.irqStatWrite page value hw.irq hw.parity)
def execBlkLockWrite (page value : Nat) (s : State) : Answer := s.run (fun d => d.gated page 0x30 (·.lockWrite page value))
def execDevFeatCommit (value : Nat) (s : State) : Answer := s.run (fun d => d.gated 0 0x70 (·.featCommit value))
def execCommitDone (s : State) : Answer := s.run (·.commitDone)
def execIrqRouteWrite (n value : Nat) (s : State) : Answer :=
  s.run (fun d => if 37 ≤ n then d else d.gated 2 (0x80 + 4 * n) (·.routeWrite n value))
def execIrqRearm (n value : Nat) (s : State) : Answer :=
  s.run (fun d => if 2 ≤ n then d else d.gated 2 (0x140 + 4 * n) (·.rearm n value))

end Sys2Proof.Machine
end

