-- ==== Sys2Proof/Machine/Reset.lean ====
section
/-! DEFINITION. Resets and start-up (R42–R48, R452), lost reference clocks (R41, R411), temperatures (R49, R50), FAULT (R72, R76), and the
auxiliary interfaces (R31). -/

namespace Sys2Proof.Machine

/-- The BAR0 address that a key of the register store belongs to. -/
def keyAddr (key : Nat) : Nat := key / 32

/-- HBM_FAIL, which only the training of the HBM stack clears (R268). -/
def hbmFailKey (key : Nat) : Bool := key = F.DEV_ENV_STAT_HBM_FAIL.key

/-- Fields in OTP, which every reset keeps (R549). -/
def otpKey (key : Nat) : Bool :=
  let a := keyAddr key
  a = bar0 8 0x40 || a = bar0 8 0x44 || a = bar0 8 0x48 || key = F.SEC_SVN_FLOOR.key

/-- Fields that a warm-class reset keeps beside them (Table pkg-12, R68, R110, R397, R506, R538, R545): straps and the offer that follows them, reset
cause, the count of transitions, Tether, the token's EPOCH, NEXT_SRC, the lane layer of the CXP receivers and relay transmitters, camera power, trim
levels. -/
def warmKey (key : Nat) : Bool :=
  let a := keyAddr key
  let page := a / 0x1_0000
  otpKey key || hbmFailKey key || a = bar0 0 0x48 || a = bar0 0 0x4C || a = bar0 0 0x50 || (a = bar0 0 0x44 && key ≠ F.DEV_STATE_STATE.key) || page = 7
    || key = F.SEC_BOOT_CTRL_NEXT_SRC.key || key = F.TWIN_TOKEN_EPOCH.key || (0x20 ≤ page && page ≤ 0x2B)
    || (0x10 ≤ page && page ≤ 0x1F && (key = (F.CXP_PWR_EN_LEVEL (page - 0x10)).key || key = (F.CXP_LINK_LOCK (page - 0x10)).key
      || a = bar0 page 0x80))
    || (page = 0x0E && 0x100 ≤ a % 0x1_0000 && a % 4 = 0 && key % 32 = 16)

namespace Dev

/-! ### What a reset leaves (R44, Tables pkg-12 and pkg-13) -/

/-- After a power-on reset: OTP and MRAM, with what Vesper keeps there; the flash and the world outside; the free-running counter. A thermal trip
that has not cooled goes on holding the reset (Table pkg-12). -/
def coldDev (d : Dev) : Dev :=
  let d := d.commitCut
  { regs := d.regs.filter (fun e => otpKey e.1 || hbmFailKey e.1), host := d.host, flash := d.flash, mram := d.mram, free := d.free, out := d.out
    time := { c := d.time.c, cB := d.time.c }
    power := { porstLow := true, starting := false, hostHeld := d.power.hostHeld, linkSpeed := d.power.linkSpeed, linkWidth := d.power.linkWidth,
               sensors := d.power.sensors, tripHold := d.power.tripHold && !d.power.tripCool }
    pins := if d.power.tripHold && !d.power.tripCool then [(Pin.thermTripN.code, .low)] else []
    plan := { modules := d.plan.modules }
    nvmKeys := d.nvmKeys, nvmWear := d.nvmWear, nvmRetired := d.nvmRetired
    boot := { single := d.boot.single, active := d.boot.active, staged := d.boot.staged, trial := d.boot.trial, progKeys := d.boot.progKeys,
              subsys := d.boot.subsys } }

/-- The balls that a warm-class reset leaves as they are: relay outputs, Tether, THERM_TRIP_N, and the uplinks of the lane layer. -/
def warmPin (code : Nat) : Bool := code / 0x100 = 7 || code / 0x100 = 0xC || code / 0x100 = 0xF || code / 0x100 = 0x12

/-- After a warm-class reset: beside that, the always-on island and the lane layer, and the generations of the contexts (R202). Clocks that are
still absent stay marked, with the time island in holdover for REFCLK_TIME (R411). -/
def warmDev (d : Dev) : Dev :=
  let lost := d.get F.DEV_ENV_STAT_CLK_LOST
  let c := d.coldDev
  let c : Dev := { c with
    regs := d.regs.filter (fun e => warmKey e.1), pins := d.pins.filter (fun e => warmPin e.1)
    lanes := ((d.lanes.filter (fun e => e.1 < 96)).map (fun e => (e.1, { e.2 with saved := none, scan := false }))).filter (fun e => e.2 ≠ {})
    teth := d.teth, seg := { gens := d.seg.gens }
    queues := (d.queues.map (fun e => (e.1, ({ seals := e.2.seals } : Queue)))).filter (fun e => e.2 ≠ {})
    power := { c.power with porstLow := false, starting := true, bootAt := d.time.c, warmStart := true, throttles := d.power.throttles }
    boot := { c.boot with extest := d.boot.extest } }
  let c := (c.set F.DEV_ENV_STAT_CLK_LOST (lost - lost % 2)).put F.TIME_STAT_HOLDOVER (decide (lost / 2 % 2 = 1))
  (List.range 8).foldl relayUpdate ((List.range 96).foldl resettle c)

/-- A warm-class reset with its cause (R44, R45, R512): none while PORST_N is low. While a thermal trip holds, only WARM_RST_N once it has cooled
begins start-up; another source of reset is recorded, and the hold goes on. -/
def warmReset (d : Dev) (cause : Nat) : Dev :=
  if d.power.porstLow then d
  else if d.power.tripHold && !(cause = 2 && d.power.tripCool) then
    if cause = 4 then d else (d.countSat F.DEV_RESET_CAUSE_WARM_CNT).set F.DEV_RESET_CAUSE_CAUSE cause
  else
    let was := d.state
    let d := (d.merSend 0x03 0 1 [0x0A]).warmDev
    let d := if was = 1 then d else (d.set F.DEV_STATE_PREV was).count F.DEV_STATE_TRANS_CNT
    let d := (d.countSat F.DEV_RESET_CAUSE_WARM_CNT).set F.DEV_RESET_CAUSE_CAUSE cause
    (d.setPin .thermTripN .z).bootSelect

/-- PORST_ASSERT: PORST_N low for 10 µs (R44). -/
def porstAssert (d : Dev) : Dev := d.coldDev

/-- PORST_RELEASE: the straps are latched and start-up begins (R42, R43, R538), unless a thermal trip still holds the reset (R44). -/
def porstRelease (d : Dev) (bootSrc tethRoot twinSide : Nat) : Dev :=
  if !d.power.porstLow then d
  else
    let d : Dev := { d with power := { d.power with porstLow := false, starting := !d.power.tripHold, bootAt := d.time.c } }
    let d := ((d.set F.DEV_STRAPS_BOOT_SRC bootSrc).set F.DEV_STRAPS_TETH_ROOT tethRoot).set F.DEV_STRAPS_TWIN_SIDE twinSide
    let root := d.get F.DEV_STRAPS_TETH_ROOT
    let d := ((d.set F.TETH_ADDR_ROOT root).set F.TETH_ADDR_ADDR root).set (F.DEV_FEAT_OFFER_OFFER 0) (0x02FF_FFFF + root * 2 ^ 24)
    d.bootSelect

/-! ### The PCIe link (R45, R48) -/

/-- Neither PORST_N, a trip nor the first 1 ms of start-up keeps the host island in reset; nor does PCIE_PERST_N. -/
def linkAllowed (d : Dev) : Bool :=
  !d.power.hostHeld && !d.power.porstLow && !d.power.tripHold && (!d.power.starting || decide (1000000 ≤ d.elapsed d.power.bootAt))

/-- HOST_LINK shows the link that training arrives at. -/
def linkShow (d : Dev) : Dev := (d.set F.HOST_LINK_SPEED d.power.linkSpeed).set F.HOST_LINK_WIDTH d.power.linkWidth

/-- Link training begins once nothing holds the host island any more. The configuration space is ready at a time that the spec leaves open, no later
than 100 ms after (a free value within that bound; log entry 88, DESIGN CHOICE). -/
def linkStart (d : Dev) : Dev :=
  if !d.linkAllowed || d.power.pcieTrain then d
  else
    let d : Dev := { d with power := { d.power with pcieTrain := true, configAt := d.time.c + d.freeVal 32 % 100000001 } }
    (d.freeUsed.setPin .pcieTx .run).linkShow

/-- A configuration request is completed with Request Retry Status. -/
def configRetry (d : Dev) : Bool := d.power.pcieTrain && decide (d.time.c < d.power.configAt)

/-! ### Start-up (Table pkg-14) -/

/-- The lane PLLs lock where REFCLK_LANE is present. -/
def pllsUp (d : Dev) : Dev :=
  let ok := !d.laneClockLost
  (List.range 13).foldl (fun d g => (d.put (F.LNG_PLL_STAT_REF_OK g) ok).put (F.LNG_PLL_STAT_PLL_LOCK g) ok) d

/-- What happens by the clock during start-up: 0.2 ms after its begin the PLLs are locked and Tether repeats; RST_OUT_N is released at 0.5 ms, or
after 100 µs of a warm-class reset; at 1 ms a link that PCIE_PERST_N does not hold begins training (Tables pkg-13 and pkg-14, R48). -/
def bootTick (d : Dev) : Dev :=
  if !d.power.starting || d.power.porstLow then d
  else
    let t := d.elapsed d.power.bootAt
    let d := if t = 200000 then (d.pllsUp.setPin .tethOut .run).put F.TETH_ADDR_LAST (!d.bit F.TETH_STAT_RET_LOCK) else d
    let d := if t = (if d.power.warmStart then 100000 else 500000) then d.setPin .rstOutN .high else d
    if t = 1000000 then d.linkStart else d

/-- TRIM outputs held over a warm-class reset are shown at IDENT (R397). -/
def trimHeld (d : Dev) : Dev :=
  (List.range 16).foldl (fun d n =>
    let v := d.get (F.TRIM_CODE_NOW n)
    if v = 0 then d
    else
      let d := d.setTrim { d.trim with target := Sparse.set d.trim.target 0 n v }
      (d.set (F.TRIM_CODE_CODE n) v).putBit F.TRIM_HELD_HELD n true) d

/-- Vesper's part of start-up ends in IDENT. In a warm start-up the contexts' generations are read and written back; those of the contexts `badGens`
read with an uncorrectable error and restart at 0 (R202). -/
def vesperUp (d : Dev) (hbmOk : Bool) (dlys : List Nat) (devs : List Int) (badGens : List Nat) : Dev :=
  let d : Dev := { d with power := { d.power with starting := false } }
  let d := ((d.pllsUp.setPin .tethOut .run).put F.TETH_ADDR_LAST (!d.bit F.TETH_STAT_RET_LOCK)).setPin .rstOutN .high
  let d := d.put F.DEV_ENV_STAT_HBM_FAIL (!hbmOk)
  let d := (List.range 4).foldl (fun d i => (d.set (F.TIME_ISL_DLY_DLY i) (dlys.getD i 0)).setS (F.TIME_ISL_DLY_DEV i) (devs.getD i 0)) d
  let d := if d.power.warmStart && badGens ≠ [] then
      ({ d with seg := { d.seg with gens := d.seg.gens.filter (fun e => !badGens.contains e.1) } } : Dev).setParity 0x37 (F.BLK_PARITY_SRAM_UE 0x37)
    else d
  let d := d.showIdentity.trimHeld.nvmShow.linkStart
  (d.setPin .faultN .z).moveState 2

/-- STARTUP_COMPLETE: the image is found, Vesper starts it and reaches IDENT; with no image the boot ROM waits (R47, R542–R544). Bit k of
`readable`: flash slot k can be read; `single`: the flash is smaller than 16 MiB; then the outcome of the HBM training, of the loopbacks, and of the
reads of the contexts' generations. -/
def startupComplete (d : Dev) (readable : Nat) (single hbmOk : Bool) (dlys : List Nat) (devs : List Int) (badGens : List Nat) : Dev :=
  if d.state ≠ 1 || !d.power.starting || d.power.porstLow || d.power.tripHold then d
  else if d.boot.header ≠ [] then d.vesperUp hbmOk dlys devs badGens
  else if d.bit F.SEC_BOOT_STAT_WAITING then d
  else
    let d : Dev := { d with boot := { d.boot with single := single } }
    match d.bootFlash readable with
    | (d, true) => d.vesperUp hbmOk dlys devs badGens
    | (d, false) => d

/-! ### FAULT (R72, R76) -/

/-- Nothing more is fired: the generators stop, engines and bodies are abandoned, pulses that wait are removed. -/
def faultStop (d : Dev) : Dev :=
  let d := (d.stopGens.abandonAll).dropBodies
  let d := (List.range 8).foldl (fun d n => (d.setMetPort n { d.metPort n with pend := [] }).metShow n) d
  { d with plan := { d.plan with passing := [] } }

/-- A command in hand that is not legal in FAULT completes with STATE (R73, R76). -/
def faultCommand (d : Dev) : Dev := match d.cmd with
  | some l => if l.code = 0 ∨ l.code = 0x38 then d else d.complete .state
  | none => d

/-- FAULT is entered from any state but BOOT, with a FAULT record to the partner (R512). -/
def enterFault (d : Dev) : Dev :=
  if d.state = 1 || d.state = 15 then d
  else (((d.merSend 0x03 0 1 [0x0B]).faultStop.moveState 15 0x0B).setPin .faultN .low).faultCommand

/-- VESPER_INTERNAL: a command in hand ends with it. -/
def vesperInternal (d : Dev) : Dev := if d.state = 1 || d.state = 15 then d else (d.complete .internal).enterFault

/-! ### Reference clocks (R41, R411) -/

/-- A clock is marked absent, with the device event. -/
def clockLost (d : Dev) (k : Nat) : Dev := (d.putBit F.DEV_ENV_STAT_CLK_LOST k true).raise 0 4

/-- REFCLK_SYS_LOST: FAULT, and the Meteor transmitters stop. In BOOT, where R72 bars FAULT, the loss is only marked and raised: what else follows
there the spec leaves open (log entry 98, DESIGN CHOICE). -/
def refclkSysLost (d : Dev) : Dev :=
  if d.testBit F.DEV_ENV_STAT_CLK_LOST 0 then d
  else
    let d := d.clockLost 0
    if d.state = 1 then d else (List.range 8).foldl (fun d n => d.metHalt n) d.enterFault

def refclkTimeLost (d : Dev) : Dev :=
  if d.testBit F.DEV_ENV_STAT_CLK_LOST 1 then d else (((d.clockLost 1).put F.TIME_STAT_HOLDOVER true).raise timePage 4).holdDiscard

def refclkTimeReturn (d : Dev) : Dev :=
  if !d.testBit F.DEV_ENV_STAT_CLK_LOST 1 then d
  else (((d.putBit F.DEV_ENV_STAT_CLK_LOST 1 false).put F.TIME_STAT_HOLDOVER false).raise timePage 4).clockRefresh

/-- REFCLK_LANE_LOST: every lane PLL, and with it every lane, loses lock; the Ethernet links go down. -/
def refclkLaneLost (d : Dev) : Dev :=
  if d.testBit F.DEV_ENV_STAT_CLK_LOST 2 then d
  else
    let d := d.clockLost 2
    let d := (List.range 13).foldl (fun d g => (d.pllLoss g).put (F.LNG_PLL_STAT_REF_OK g) false) d
    let d := (List.range 100).foldl (fun d l => d.laneLockLoss l) d
    (List.range 2).foldl (fun d e => d.ethLinkChange e false false (d.bit (F.NET_PORT_STAT_LOS e)) (d.bit (F.NET_PORT_STAT_MOD_ABS e))) d

/-- REFCLK_LANE_RETURN: the PLLs lock; the lanes, in ACQUIRE since they lost lock, adapt again by LANE_LOCK. -/
def refclkLaneReturn (d : Dev) : Dev :=
  if !d.testBit F.DEV_ENV_STAT_CLK_LOST 2 then d else (d.putBit F.DEV_ENV_STAT_CLK_LOST 2 false).pllsUp

/-! ### Temperatures (R49, R50, R261) -/

/-- The hottest of the sensors. -/
def hottest (ts : List Int) : Int := ts.tail.foldl max (ts.headD 0)

def alarmCheck (d : Dev) (t : Int) : Dev :=
  let on := d.bit F.DEV_ENV_STAT_ALARM
  if !on && 105 ≤ t then (d.put F.DEV_ENV_STAT_ALARM true).raise 0 5
  else if on && t ≤ 100 then (d.put F.DEV_ENV_STAT_ALARM false).raise 0 5
  else d

/-- Throttle wants every engine at P3, and its end every engine at its request; the changes take their turns, 2 µs apart (R34, R261). -/
def throttleCheck (d : Dev) (t : Int) : Dev :=
  let on := d.bit F.DEV_ENV_STAT_THROTTLE
  if !on && 110 ≤ t then
    let d : Dev := { d with power := { d.power with throttles := d.power.throttles + 1 } }
    ((d.put F.DEV_ENV_STAT_THROTTLE true).raise 0 6).queuePoints
  else if on && t ≤ 105 then (d.put F.DEV_ENV_STAT_THROTTLE false).queuePoints
  else d

/-- The trip asserts THERM_TRIP_N and holds a warm-class reset; at 100 °C the hold may be left. -/
def tripCheck (d : Dev) (t : Int) : Dev :=
  if d.power.tripHold then { d with power := { d.power with tripCool := d.power.tripCool || decide (t ≤ 100) } }
  else if 118 ≤ t then
    let d := d.warmReset 7
    ({ d with power := { d.power with tripHold := true, starting := false } } : Dev).setPin .thermTripN .low
  else d

/-- The 32 sensors read `ts`: every threshold is judged by the hottest. -/
def temperatures (d : Dev) (ts : List Int) : Dev :=
  if d.power.porstLow || ts = [] then d
  else
    let t := hottest ts
    let d : Dev := { d with power := { d.power with sensors := ts } }
    (((d.setS F.DEV_ENV_STAT_TJ_MAX t).alarmCheck t).throttleCheck t).tripCheck t

/-! ### The host (R48, R433, R452) -/

/-- A block that a descriptor brought. -/
def descBlock (b : PackBlock) : Bool := match b.user with
  | .record .. => false
  | _ => true

/-- The blocks of descriptors leave a PACK channel (Table pack-6: HELD becomes 0). -/
def hostResetPack (d : Dev) (c : Nat) : Dev :=
  let x := d.packCh c
  let d := d.setPackCh c { x with queue := x.queue.filter (fun b => !descBlock b) }
  match x.now with
  | some b => if descBlock b then (d.packIdle c).dropHist c else d
  | none => d

/-- Registers that a host reset keeps: all but the HOST page and the MSI-X table, of those HOST_RESETS and each queue's SEQ and LOST (R443, R452). -/
def hostKey (key : Nat) : Bool :=
  (keyAddr key / 0x1_0000 ≠ 6 && keyAddr key < bar4 0) || key = F.HOST_RESETS_COUNT.key
    || (List.range 5).any (fun q => key = (F.RQ_SEQ_SEQ q).key || key = (F.RQ_LOST_COUNT q).key)

/-- HOST_RESET: the HOST page, configuration space with its BARs, and the MSI-X table return to reset (R452). PCIE_PERST_N low ends the link; after
the others it shows as before. -/
def hostReset (d : Dev) (perst : Bool) : Dev :=
  if d.power.porstLow then { d with power := { d.power with hostHeld := d.power.hostHeld || perst } }
  else
    let d : Dev := { d with regs := d.regs.filter (fun e => hostKey e.1), rings := [], arb := {}, recLeft := 0, pcie := {} }
    let d : Dev := { d with power := { d.power with hostHeld := d.power.hostHeld || perst, pcieTrain := d.power.pcieTrain && !perst } }
    let d := if perst then d.setPin .pcieTx .idle else if d.power.pcieTrain then d.linkShow else d
    let d := (List.range 5).foldl (fun d q => d.hostResetQueue q) d
    let d := (List.range 4).foldl (fun d c => d.hostResetPack c) d
    d.countSat F.HOST_RESETS_COUNT

/-- PCIE_PERST_RELEASE: the rising edge of PCIE_PERST_N, with the link that training will arrive at; training begins when a reset in progress and the
first 1 ms of start-up are over too (R45, R48). -/
def perstRelease (d : Dev) (speed width : Nat) : Dev :=
  ({ d with power := { d.power with hostHeld := false, linkSpeed := speed, linkWidth := width } } : Dev).linkStart

/-- Identity of the function (Table host-1): vendor and device, revision, class code; then subsystem vendor and subsystem from OTP. -/
def pcieIdentity (d : Dev) : List Nat :=
  let s := d.boot.subsys.getD (0x1F3D, 0x9616)
  [0x1F3D, 0x9616, 0xA1, 0x11_8000, s.1, s.2]

/-- The sizes of BAR0, BAR2 and BAR4 (Table host-2). -/
def barSizes : List Nat := [2 ^ 26, 2 ^ 35, 2 ^ 14]

/-- A 64-bit BAR holds the address bits above its size. -/
def barHeld (size v : Nat) : Nat := v % 2 ^ 64 / size * size

/-- What the function keeps of a write of its configuration space: BARs aligned to their sizes, payloads to 512 bytes and read requests to 4,096
bytes (Tables host-1 and host-2). -/
def pcieHeld (fn : PcieFunction) : PcieFunction :=
  { fn with bar0 := barHeld (2 ^ 26) fn.bar0, bar2 := barHeld (2 ^ 35) fn.bar2, bar4 := barHeld (2 ^ 14) fn.bar4
            maxPayload := min fn.maxPayload 2, maxRead := min fn.maxRead 5 }

/-- The BAR (0, 2 or 4) that decodes a memory address of the host, and the offset in it (R434). A command that names an offset of a BAR stands for
an access so decoded (log entry 99, DESIGN CHOICE). -/
def barDecode (d : Dev) (addr : Nat) : Option (Nat × Nat) :=
  if !d.pcie.memEn then none
  else ([(0, d.pcie.bar0), (2, d.pcie.bar2), (4, d.pcie.bar4)].zip barSizes).findSome? (fun e =>
    if e.1.2 ≤ addr ∧ addr < e.1.2 + e.2 then some (e.1.1, addr - e.1.2) else none)

/-- PCIE_BME_CHANGE: the host writes the function's configuration space; requests stop or resume, and what waited while they were stopped goes on
(R433, log entry 8, DEDUCED). `mask`: the Function Mask of MSI-X (R80, log entry 89, PRESUMED); `fn`: the other registers. No request reaches the
function without a link; until its configuration space is ready it answers with Request Retry Status and takes nothing (R48). -/
def bmeChange (d : Dev) (bme d3 mask : Bool) (fn : PcieFunction) : Dev :=
  if !d.power.pcieTrain then d
  else if d.configRetry then d.emit .requestRetry
  else
  let d : Dev := { d with pcie := pcieHeld fn }
  let d := (((d.put F.HOST_LINK_BME bme).put F.HOST_LINK_D3HOT d3).put F.MSIX_FUNCTION_MASK mask).sendPending
  if !d.canRequest then d
  else
    let d := (List.range 5).foldl (fun d q => d.queueResume q) d
    let d := (List.range 64).foldl (fun d v => if d.vectorPending v then d.signal v else d) d
    (List.range 2).foldl (fun d r => d.ringNext r) d

/-! ### Auxiliary interfaces (R31) -/

/-- The answer of the SMBus target to a command code. -/
def smbusData (d : Dev) (code : Nat) : Option (List Nat) :=
  if code = 0 then some (leBytes 4 (d.regWord 0 0x40))
  else if code = 1 then some (leBytes 4 (d.regWord 0 0x44))
  else if code = 2 then some (leBytes 4 (d.regWord 0 0x78))
  else if code = 3 then some (leBytes 4 (d.regWord 0 0x4C))
  else if code = 0x10 then some ((List.range 32).map (fun i => uns 8 (d.power.sensors.getD i 0)))
  else none

/-- The packet error code of SMBus: CRC-8 of x⁸ + x² + x + 1 over every byte of the transfer (log entry 90, PRESUMED). -/
def smbusPec (bs : List Nat) : Nat :=
  bs.foldl (fun c b => (List.range 8).foldl (fun c _ => (2 * c % 256) ^^^ (if 128 ≤ c then 7 else 0)) (c ^^^ b)) 0

/-- SMBUS_READ at address 0x5C: Block Read answers the byte count and the bytes, Read Byte byte 0; with `pec` a PEC follows, over address, code and
answer (R31). The target serves from the end of BOOT on and NACKs writes and other codes. -/
def smbusRead (d : Dev) (write : Bool) (code : Nat) (block pec : Bool) : Dev :=
  d.emit (.smbus (if write || d.state = 1 then none else (d.smbusData code).map (fun bs =>
    let body := if block then bs.length :: bs else bs.take 1
    if pec then body ++ [smbusPec ([0xB8, code, 0xB9] ++ body)] else body)))

/-- Whether the device reads DBG_UART_RX: in LIFECYCLE OPEN only (R31). What it does with the text read, the spec does not say. -/
def uartListens (d : Dev) : Bool := d.get F.SEC_LIFE_LIFECYCLE = 0

def smbusAlert (d : Dev) : Dev := d.emit (.smbus (if d.state = 1 then none else some [0x5C]))

/-- ETH_MOD_PRESENT: a module is put in; Vesper reads bytes 0–127 of its memory. -/
def ethModPresent (d : Dev) (e : Nat) (bytes : List Nat) : Dev :=
  if 2 ≤ e || d.state = 1 then d
  else
    let d := d.ethLinkChange e (d.bit (F.NET_PORT_STAT_LINK e)) (d.bit (F.NET_PORT_STAT_BLOCK_LOCK e)) (d.bit (F.NET_PORT_STAT_LOS e)) false
    (List.range 32).foldl (fun d i => d.set (F.NET_MOD_ID_ID (32 * e + i)) (leNat ((bytes.drop (4 * i)).take 4))) d

end Dev

/-! ### The meanings -/

def execPorstAssert (s : State) : Answer := s.run (·.porstAssert)

/-- AON_UNDER_VOLTAGE: VDD_AON below 0.70 V acts as PORST_N low (R39). -/
def execAonUnderVoltage (s : State) : Answer := s.run (·.porstAssert)
def execPorstRelease (bootSrc tethRoot twinSide : Nat) (s : State) : Answer := s.run (·.porstRelease bootSrc tethRoot twinSide)
def execStartupComplete (readable : Nat) (single : Bool) (mem : MemoryCheck) (dlys : List Nat) (devs : List Int) (s : State) : Answer :=
  s.run (·.startupComplete readable single mem.hbmOk dlys devs mem.badGens)
def execWarmRstN (s : State) : Answer := s.run (·.warmReset 2)
def execVesperWatchdog (s : State) : Answer := s.run (·.warmReset 4)
def execUnderVoltageReset (sram : Bool) (s : State) : Answer := s.run (·.warmReset (if sram then 6 else 5))
def execThermalTrip (temps : List Int) (s : State) : Answer := s.run (·.temperatures temps)
def execThermalAlarm (temps : List Int) (s : State) : Answer := s.run (·.temperatures temps)
def execThrottleEntry (temps : List Int) (s : State) : Answer := s.run (·.temperatures temps)
def execThrottleRelease (temps : List Int) (s : State) : Answer := s.run (·.temperatures temps)
def execHostReset (perst : Bool) (s : State) : Answer := s.run (·.hostReset perst)
def execPciePerstRelease (speed width : Nat) (s : State) : Answer := s.run (·.perstRelease speed width)
def execPcieBmeChange (req : RequestControl) (d3 : Bool) (s : State) : Answer := s.run (·.bmeChange req.bme d3 req.mask req.fn)
def execRefclkSysLost (s : State) : Answer := s.run (·.refclkSysLost)
def execRefclkTimeLost (s : State) : Answer := s.run (·.refclkTimeLost)
def execRefclkTimeReturn (s : State) : Answer := s.run (·.refclkTimeReturn)
def execRefclkLaneLost (s : State) : Answer := s.run (·.refclkLaneLost)
def execRefclkLaneReturn (s : State) : Answer := s.run (·.refclkLaneReturn)
def execVesperSramUe (s : State) : Answer := s.run (·.enterFault)
def execVesperInternal (s : State) : Answer := s.run (·.vesperInternal)
def execSmbusRead (kind : SmbusKind) (code : Nat) (s : State) : Answer :=
  s.run (·.smbusRead kind.write code kind.block kind.pec)
def execSmbusAlertResponse (s : State) : Answer := s.run (·.smbusAlert)
def execEthModPresent (e : Nat) (bytes : List Nat) (s : State) : Answer := s.run (·.ethModPresent e bytes)

end Sys2Proof.Machine
end

