-- ==== Sys2Proof/Machine/Command.lean ====
section
/-! DEFINITION. Vesper's command mailbox (R77–R79, Tables regs-19 and regs-20), and the commands that change DEV_STATE (R16, R71–R76, R518, R525,
R556, R563). -/

namespace Sys2Proof.Machine

/-- The states in which a command is legal (Table regs-20); none for a code that is not listed. -/
def cmdStates (code : Nat) : Option (List Nat) :=
  let conf := [4, 5, 6, 7, 8]
  if code = 0x00 ∨ code = 0x38 then some [2, 3, 4, 5, 6, 7, 8, 15]
  else if code = 0x10 ∨ code = 0x12 then some [3]
  else if code = 0x11 ∨ code = 0x20 then some [4]
  else if code = 0x21 ∨ code = 0x28 then some [5, 6, 7]
  else if code = 0x22 then some [5]
  else if code = 0x23 then some [5, 6]
  else if code = 0x24 then some [6, 7]
  else if code = 0x30 then some [4, 5, 6, 7]
  else if code = 0x31 then some [8]
  else if code = 0x40 ∨ code = 0x48 ∨ code = 0x50 ∨ code = 0x51 ∨ code = 0x52 then some conf
  else if code = 0x41 ∨ code = 0x42 then some (3 :: conf)
  else if code = 0x49 then some [4, 5, 6, 8]
  else if code = 0x53 then some [4, 8]
  else if code = 0x60 ∨ code = 0x61 then some (2 :: 3 :: conf)
  else if code = 0x62 then some [2, 3, 4, 8]
  else none

/-- The bits that a command defines in each argument word it uses (R78). -/
def cmdMasks (code : Nat) : List Nat :=
  let all := 0xFFFF_FFFF
  if code = 0x21 ∨ code = 0x30 then [1]
  else if code = 0x24 then [0xF]
  else if code = 0x28 then [3]
  else if code = 0x40 then [0x30F]
  else if code = 0x41 then [0x37F]
  else if code = 0x42 then [0x7F, 1, 0xF, all]
  else if code = 0x48 then [0x3F, 1]
  else if code = 0x49 then [7, all, 3, all, all, all]
  else if code = 0x50 ∨ code = 0x51 then [0x3FFFF]
  else if code = 0x52 then [1, all, all, all]
  else if code = 0x53 then [0xF]
  else if code = 0x61 then [all, 3, all]
  else []



/-- The pages that a command touches, on which it holds VESPER_LOCK and minds LOCK (R78). The spec gives no list; these are the pages that the
command's arguments name, and none for the commands of DEV_STATE (log entry 85, DESIGN CHOICE). -/
def cmdPages (code : Nat) (args : List Nat) : List Nat :=
  let a := args.getD 0 0
  if code = 0x40 then [0x10 + a % 16]
  else if code = 0x41 ∨ code = 0x42 then (if a % 128 < 104 then [0x20 + a % 128 / 8] else [])
  else if code = 0x48 then [0x40 + a % 64]
  else if code = 0x49 then
    0x39 :: ((List.range 64).filter (fun e => args.getD (4 + e / 32) 0 / 2 ^ (e % 32) % 2 = 1)).map (0x40 + ·)
  else if code = 0x50 ∨ code = 0x51 then [9]
  else if code = 0x52 then [3]
  else if code = 0x53 then [4]
  else if code = 0x60 ∨ code = 0x61 ∨ code = 0x62 then [8]
  else []

/-- The time limit of a command in ns (Table regs-20); none where no completion is due. -/
def cmdLimit (code : Nat) (args : List Nat) : Option Nat :=
  if code = 0x00 then some 10000
  else if code = 0x38 ∨ code = 0x62 then none
  else if code = 0x10 ∨ code = 0x52 ∨ code = 0x60 then some 50000000
  else if code = 0x11 ∨ code = 0x31 then some 10000000
  else if code = 0x21 then some (if args.getD 0 0 % 2 = 0 then 1000000000 else 1000000)
  else if code = 0x30 ∨ code = 0x53 then some 5000000
  else if code = 0x40 ∨ code = 0x42 ∨ code = 0x61 then some 2000000000
  else if code = 0x41 ∨ code = 0x50 ∨ code = 0x51 then some 100000000
  else if code = 0x48 then some 500000000
  else if code = 0x49 then some 200000000
  else some 1000000

namespace Dev

/-! ### Submitting and timing out (R77–R79) -/

/-- The feature of a command is accepted; in IDENT bit 25 of DRV_FEAT_ACCEPT0 stands for F_ATTEST (R78, R559). -/
def cmdFeature (d : Dev) (code : Nat) : Bool :=
  if code = 0x28 then d.feat 1
  else if code = 0x48 ∨ code = 0x49 then d.feat 5
  else if code = 0x60 then (if d.state = 2 then d.testBit (F.DRV_FEAT_ACCEPT_ACCEPT 0) 25 else d.feat 25)
  else true

/-- The command in hand may still run in the present state (R73). -/
def cmdLegal (d : Dev) (code : Nat) : Bool := match cmdStates code with
  | none => false
  | some ss => ss.contains d.state

/-- A field of an argument outside the limits of the command's chapter (R133, R134, R299, R473, R476, R555). -/
def cmdFieldBad (code : Nat) (args : List Nat) : Bool :=
  let a := fun (n : Nat) => args.getD n 0
  let kind := a 0 % 256; let inst := a 0 / 256 % 256
  if code = 0x24 then a 0 ≠ 5 && a 0 ≠ 6
  else if code = 0x28 then a 0 = 3
  else if code = 0x41 then 99 < a 0 % 128
  else if code = 0x42 then scanBad (a 0 % 128) (a 1 % 2 = 1) (a 2 % 16) (a 3)

  else if code = 0x50 then !calInstOk kind inst
  else if code = 0x51 then !calInstOk kind inst || !calInstOk kind (if a 0 / 2 ^ 17 % 2 = 1 ∧ (kind ≤ 1 ∨ kind = 3) then inst + 8 else inst)
  else if code = 0x61 then decide (0x4_0000_0000 < a 0 + a 1 % 4 * 2 ^ 32 + a 2)
  else false

/-- The arguments break R78, check 4. -/
def cmdArgsBad (code : Nat) (args : List Nat) : Bool :=
  ((cmdMasks code).zipIdx).any (fun e => args.getD e.2 0 &&& e.1 ≠ args.getD e.2 0) || cmdFieldBad code args

/-- The first check of R78 that fails, with its DETAIL. Outside SERVICE the state of a self-test is legal only with its engine OFFLINE (R263). -/
def cmdFault (d : Dev) (code : Nat) (args : List Nat) : Option (Err × Nat) :=
  if cmdStates code = none then some (.unsupported, 0)
  else if !d.cmdFeature code then some (.feature, 0)
  else if !d.cmdLegal code then some (.state, 0)
  else if code = 0x48 ∧ d.state ≠ 8 ∧ !d.offline (engPage (args.getD 0 0 % 64)) then some (.state, 9)
  else if cmdArgsBad code args then some (.range, 0)
  else if (cmdPages code args).any (fun p => d.bit (F.BLK_LOCK_LOCK p)) then some (.locked, 0)
  else if (cmdPages code args).any (fun p => d.bit (F.BLK_LOCK_VESPER_LOCK p)) then some (.busy, 0)
  else none

/-- What a command does from the moment it is accepted: an engine under self-test shows TEST (R263), a lane being scanned holds (R134). -/
def beginCmd (d : Dev) (code : Nat) (args : List Nat) : Dev :=
  if code = 0x48 then d.engTest (args.getD 0 0 % 64) true
  else if code = 0x42 then d.scanBegin (args.getD 0 0 % 128)
  else d

/-- What ends with a command that its limit has overtaken: the self-test, the scan, the restart of a port. -/
def abandonCmd (d : Dev) (code : Nat) (args : List Nat) : Dev :=
  let a := args.getD 0 0
  if code = 0x48 then d.engTest (a % 64) false
  else if code = 0x42 then d.scanEnd (a % 128)
  else if code = 0x40 then (d.setPort (a % 16) { d.port (a % 16) with restartAt := none }).relayUpdate (a % 16)
  else if code = 0x41 then d.adaptAbort
  else if code = 0x21 ∧ a % 2 = 0 ∧ d.sorting then d.stopNow
  else d

/-- CMD_DOORBELL written: a SUBMIT latches code and arguments, sets BUSY, and the checks are made. -/
def submit (d : Dev) (value : Nat) : Dev :=
  if value % 2 = 0 then d
  else if d.bit F.CMD_STATUS_BUSY then d.refuse 1 0x64 .busy
  else
    let args := (List.range 8).map (fun n => d.get (F.CMD_ARG_ARG n))
    let code := d.get F.CMD_CODE_CODE
    let d : Dev := { d.put F.CMD_STATUS_BUSY true with
      cmd := some ⟨code, d.get F.CMD_CODE_TAG, d.get F.CMD_CODE_FLAGS, args, d.time.c⟩ }
    match d.cmdFault code args with
    | some (e, detail) => d.complete e detail
    | none => ((cmdPages code args).foldl (fun d p => d.put (F.BLK_LOCK_VESPER_LOCK p) true) d).beginCmd code args

/-- CMD_TIMEOUT: the limit of the command has passed. A drain then stops at once (R74), any other command leaves DEV_STATE as it is (R79); an offer
under way no longer ends in SERVICE. -/
def cmdTimeout (d : Dev) : Dev := match d.cmd with
  | none => d
  | some l => match cmdLimit l.code l.args with
    | none => d
    | some n =>
      if d.elapsed l.t0 ≤ n then d
      else
        let d : Dev := { d with mer := { d.mer with offer := match d.mer.offer with
          | some (e, .service) => some (e, .auto)
          | o => o } }
        (d.abandonCmd l.code l.args).complete .timeout

/-- A command in hand with code `code`, checked again against the present state (R73), has the effect `f`. -/
def vesper (d : Dev) (code : Nat) (f : Dev → Dev) : Dev :=
  if !d.executing code then d else if d.cmdLegal code then f d else d.complete .state

/-! ### CONFIGURE (R16, R563, and the checks that name it) -/

/-- The stitch groups that have a port. -/
def usedGroups (d : Dev) : List Nat := (List.range 8).filter (fun g => d.portsOf g ≠ [])

/-- R563: the lowest page that is needed and disabled, while a group has a port. -/
def pageMissing (d : Dev) : Option Nat :=
  if d.usedGroups = [] then none
  else [0x30, 0x31, 0x33, 0x34, 0x35, 0x36, 0x37, 0x38, 0x39, 0x80].find? (fun p =>
    !d.bit (F.BLK_CTRL_ENABLE p) && (p ≠ 0x39 || d.feat 5))

/-- A configured port: enabled, or in a group (log entry 60, DEDUCED). -/
def configured (d : Dev) (p : Nat) : Bool := d.bit (F.BLK_CTRL_ENABLE (cxp p)) || d.groupOf p ≠ 15

/-- Minimum interval of the generator of port p, in 10 ns. -/
def portInt (d : Dev) (p : Nat) : Nat := d.get (F.TGEN_MIN_INT_MIN_INT (d.get (F.CXP_CTRL_TRIG_SRC p)))

/-- Two bands of one stream name the same component (R87). -/
def compsBad (d : Dev) (p : Nat) : Bool :=
  let ids := (d.bands p).map (fun b => (d.get (F.CXP_STREAM_ID_SID p b), d.get (F.CXP_BAND_COMP_COMP p b)))
  decide (ids.eraseDups.length ≠ ids.length)

/-- Port p breaks R16, R87, R99 or R116. -/
def portBad (d : Dev) (p : Nat) : Bool :=
  let g := d.groupOf p
  (8 ≤ g && g ≤ 14) || (d.relayed p && (p < 8 || !d.feat 1)) || 4 < d.get (F.CXP_FORMAT_SAMPLE_BITS p)
    || (d.configured p && (d.lineLen p = 0 || 16384 < d.lineLen p || d.compsBad p || loadAbove [d.portLoad p] 31))
    || (g < 8 && !d.relayed p && (d.get (F.CXP_LAT_LAT_MIN p) + d.portInt p ≤ d.get (F.CXP_LAT_LAT_MAX p)
      || d.get (F.GRP_CTRL_WDOG_LIMIT g) < d.get (F.CXP_LAT_LAT_MAX p)))

/-- Generator n breaks R92, R116 or R372. -/
def genBad (d : Dev) (n : Nat) : Bool :=
  let mode := d.get (F.TGEN_CTRL_MODE n)
  let w := d.get (F.TGEN_OUT_WIDTH_WIDTH n)
  let i := d.get (F.TGEN_MIN_INT_MIN_INT n)
  i < 250 || w < 20 || i * 10 < w || (2 ≤ mode && d.get (F.TGEN_DELAY_DELAY n) < 1000) || (mode = 1 && d.get (F.TGEN_STEP_STEP n) = 0 && d.get (F.TGEN_STEP_FRAC_FRAC n) = 0)
    || (mode = 2 && d.get (F.TGEN_STEP_STEP n) = 0)

/-- Group g breaks R104 or R189. -/
def groupBad (d : Dev) (g : Nat) : Bool :=
  let ps := d.portsOf g
  let p0 := d.lowPort g
  15000 < d.get (F.GRP_CTRL_WDOG_LIMIT g)
    || ps.any (fun p => d.get (F.CXP_CTRL_TRIG_SRC p) ≠ d.get (F.CXP_CTRL_TRIG_SRC p0) || d.relayed p != d.relayed p0
      || d.get (F.CXP_FORMAT_BANDS p) ≠ d.get (F.CXP_FORMAT_BANDS p0))
    || (ps ≠ [] && d.get (F.STI_GRP_WIDTH_M1 g) = 0 && ps.all (fun p => (d.geoSet (d.get F.GEO_SWAP_ACTIVE) p).xFirst ≠ 0))

/-- The sums of R16, R173, R189 and R219. -/
def sumsBad (d : Dev) : Bool :=
  let kept := (((List.range 16).filter (fun p => d.groupOf p ≠ 15)).map (fun p => d.geoDepth p * (d.bands p).length * d.lineLen p * 2)).sum
  let sky := d.usedGroups.map (fun g => (d.groupWidth g * (d.bands (d.lowPort g)).length, d.portInt (d.lowPort g) * 10))
  let crops := d.get F.BODY_CROP_POOL0_SMALL * 1088 + d.get F.BODY_CROP_POOL0_MEDIUM * 4288 + d.get F.BODY_CROP_POOL1_LARGE * 16960
  loadAbove (d.loadedPorts.map d.portLoad) 512 || decide (4194304 < kept) || loadAbove sky 512 || decide (33554432 < crops)


/-- R221: the role of group g does not fit. -/
def roleBad (d : Dev) (g : Nat) : Bool :=
  let r := d.roleOf g
  let u := d.get (F.TRAJ_GCFG_PARTNER g)
  (r = 0 && d.portsOf g ≠ [])
    || (r = 1 && ((List.range 8).filter (fun l => d.roleOf l = 2 && d.get (F.TRAJ_GCFG_PARTNER l) = g)).length ≠ 1)
    || (r = 2 && (d.roleOf u ≠ 1 || d.heightOf u ≤ d.heightOf g))

/-- R355: an enabled entry of the active valve map names a module or a port that is not there. -/
def valveBad (d : Dev) : Bool :=
  (List.range 2048).any (fun i => (d.valve (d.get F.PLAN_SWAP_ACTIVE) i).en
    && (!d.bit (F.BLK_CTRL_ENABLE (metPage (i / 256))) || d.get (F.MET_CFG_MODULES (i / 256)) < i / 64 % 4))

/-- What CONFIGURE refuses with RANGE: its DETAIL and CMD_RET0. -/
def configFault (d : Dev) : Option (Nat × List Nat) := match d.pageMissing with
  | some p => some (0, [p])
  | none =>
    if (List.range 16).any d.portBad || (List.range 16).any d.genBad || (List.range 8).any d.groupBad || d.sumsBad then some (0, [])
    else match d.geoCheck (d.get F.GEO_SWAP_ACTIVE), d.specCheck (d.get F.SPEC_SWAP_ACTIVE) with
      | some (_, p), _ => some (p, [])
      | none, some (_, g) => some (g, [])
      | none, none =>
        if (List.range 8).any d.roleBad || d.speedsBad || d.usedGroups.any (fun g => d.get (F.PLAN_TWI_TWI_MIN g) = 0) || d.ssiBad
            || (d.mapBad (d.get F.PLAN_SWAP_ACTIVE)).isSome || d.valveBad then some (0, [])
        else none

/-- D of R146: the least whole number of at least 1 with D × TGEN_MIN_INT × 10 ns ≥ 14 µs. -/
def maskLag (d : Dev) (g : Nat) : Nat := max 1 ((1400 + d.portInt (d.lowPort g) - 1) / max 1 (d.portInt (d.lowPort g)))

/-- CONFIGURE: the checks, then SLOT, the mask lag, CFG_CHECK, CONFIGURED. -/
def configure (d : Dev) : Dev :=
  let d := match d.mapBad (d.get F.PLAN_SWAP_ACTIVE) with
    | some i => if d.configFault = some (0, []) then d.set F.PLAN_MAP_ERR_INDEX i else d
    | none => d
  match d.configFault with
  | some (detail, rets) => d.complete .range detail rets
  | none =>
    let d := d.usedGroups.foldl (fun d g => d.set (F.COR_MASK_LAG_LAG g) (d.maskLag g)) d.takeSlots
    ((d.set F.TWIN_CFG_CHECK_CHECK d.cfgCheck).moveState 4).complete .ok

/-- RENEGOTIATE: no feature is accepted any more. -/
def renegotiate (d : Dev) : Dev :=
  let d := (List.range 4).foldl (fun d n => d.set (F.DRV_FEAT_ACCEPT_ACCEPT n) 0) d
  let d := (d.withRuns (fun d => { d with accepted := 0 })).clockRefresh
  (((List.range 100).foldl (fun d l => d.resettle l) d).moveState 2).complete .ok

/-! ### START and STOP (R74, R75, R94, R505, R563) -/

/-- What begins anew at START: foreground history, temporal filters, kept lines, the labeller's rows, the counts of associations. -/
def freshRun (d : Dev) : Dev :=
  let d : Dev := { d with fgRows := [], tmState := [], geoHist := [], seg := { d.seg with cut := [] } }
  (List.range 8).foldl (fun d g =>
    (d.setSegGroup g { d.segGroup g with runs := [], runsIdx := none, pend := none, prevFg := none, rows := [], last := none, expDue := false }).set
      (F.TRAJ_GSTAT_AVG_N g) 0) d

/-- START. -/
def start (d : Dev) : Dev := match d.pageMissing with
  | some p => d.complete .range 0 [p]
  | none =>
    let d := (List.range 16).foldl (armGen (fun m => (d.mot m).pos)) d.freshRun
    let d := d.moveState (if d.feat 5 then 5 else 6)
    d.takeRole.autoLevel.complete .ok

def stopDrain (d : Dev) : Dev := if d.plan.drain then d else d.startDrain

/-! ### Levels (R72, R268, R524) -/

/-- The verdict source of the target level is usable. -/
def sourceUsable (d : Dev) (target : Nat) : Bool :=
  !d.noSource && (target = 6 || (d.feat 5 && !d.enginesUnusable && !d.dispatcherUnusable && !d.hbmUnusable))

/-- RESUME. -/
def resume (d : Dev) : Dev :=
  let t := d.arg 0
  if t = d.state then d.complete .state 0
  else if !d.sourceUsable t then d.complete .state 1
  else
    let d := d.moveState t
    (if d.mer.waiting.isSome then d else d.takeRole).complete .ok

/-! ### TOKEN (R518) -/

/-- HANDOVER. -/
def handover (d : Dev) : Dev :=
  if !d.isLead then d.complete .state 10
  else if !(d.bit F.TWIN_STAT_PARTNER_OK && d.bit F.TWIN_STAT_LINK_UP) then d.complete .partner
  else if d.mer.offer.isSome then d
  else d.sendOffer .command

/-- REQUEST. -/
def request (d : Dev) : Dev :=
  if d.state = 7 then d.complete .state 13
  else if !d.isShadow then d.complete .state 10
  else if !(d.bit F.TWIN_STAT_PARTNER_OK && d.bit F.TWIN_STAT_LINK_UP) then d.complete .partner
  else d.merSend 0x02 (d.get F.TWIN_TOKEN_EPOCH) 1 [3]

/-- FORCE. A device without its lane clock takes no token (R513, R521). -/
def force (d : Dev) : Dev :=
  if d.state = 7 then d.complete .state 13
  else if !(d.role = 2 || d.role = 3) then d.complete .state 10
  else if d.laneClockLost then d.complete .state
  else d.takeToken.complete .ok

/-! ### SERVICE (R76, R525), resets (R79, R556) -/

/-- SERVICE_ENTER: the token first, where the device is lead. -/
def serviceEnter (d : Dev) : Dev :=
  let forced := d.arg 0 % 2 = 1
  if !(d.feat 1 && d.bit F.TWIN_STAT_PARTNER_OK) then (if forced then d.enterService else d.complete .state 2)
  else if !d.isLead then d.enterService
  else if d.partnerCanSort && d.bit F.TWIN_STAT_LINK_UP then (if d.mer.offer.isSome then d else d.sendOffer .service)
  else if forced then d.enterService
  else d.complete .partner

/-- SERVICE_EXIT: TEST is cleared on every page. -/
def serviceExit (d : Dev) : Dev :=
  let d := ((List.range 0x92).filter (fun p => pageImplemented p && (d.bit (F.BLK_CTRL_TEST p) || d.testing p))).foldl (fun d p => d.setTest p false) d
  d.enterConfigured.complete .ok

/-- FW_ACTIVATE. -/
def fwActivate (d : Dev) : Dev :=
  let stage := d.get F.SEC_FW_STAT_STAGE
  let src := d.get F.DEV_STRAPS_BOOT_SRC
  if stage = 1 then d.complete .busy
  else if stage = 2 ∧ (src = 0 ∨ src = 3) then (d.setBootRecord d.boot.active d.boot.staged true).warmReset 3
  else d.complete .state 12

end Dev

/-! ### The meanings -/

def execCmdSubmit (value : Nat) (s : State) : Answer := s.run (fun d => d.gated 1 0x64 (·.submit value))
def execCmdTimeout (s : State) : Answer := s.run (·.cmdTimeout)
def execNop (s : State) : Answer := s.run (·.vesper 0x00 (·.complete .ok))
def execConfigure (s : State) : Answer := s.run (·.vesper 0x10 (·.configure))
def execDeconfigure (s : State) : Answer := s.run (·.vesper 0x11 (fun d => (d.moveState 3).complete .ok))
def execRenegotiate (s : State) : Answer := s.run (·.vesper 0x12 (·.renegotiate))
def execStart (s : State) : Answer := s.run (·.vesper 0x20 (·.start))
def execStopDrain (s : State) : Answer := s.run (fun d => if d.arg 0 % 2 = 0 then d.vesper 0x21 (·.stopDrain) else d)
def execStopImmediate (s : State) : Answer := s.run (fun d => if d.arg 0 % 2 = 1 then d.vesper 0x21 (·.stopNow.complete .ok) else d)
def execEnterTwilight (s : State) : Answer := s.run (·.vesper 0x22 (fun d => (d.enterTwilight 1 0).complete .ok))
def execEnterEclipse (s : State) : Answer := s.run (·.vesper 0x23 (fun d => (d.enterEclipse 1 0).complete .ok))
def execResume (s : State) : Answer := s.run (·.vesper 0x24 (·.resume))
def execHandover (s : State) : Answer := s.run (fun d => if d.arg 0 = 0 then d.vesper 0x28 (·.handover) else d)
def execRequest (s : State) : Answer := s.run (fun d => if d.arg 0 = 1 then d.vesper 0x28 (·.request) else d)
def execForce (s : State) : Answer := s.run (fun d => if d.arg 0 = 2 then d.vesper 0x28 (·.force) else d)
def execServiceEnter (s : State) : Answer := s.run (·.vesper 0x30 (·.serviceEnter))
def execServiceExit (s : State) : Answer := s.run (·.vesper 0x31 (·.serviceExit))
def execDeviceReset (s : State) : Answer := s.run (·.vesper 0x38 (·.warmReset 3))
def execFwActivate (s : State) : Answer := s.run (·.vesper 0x62 (·.fwActivate))

end Sys2Proof.Machine
end

