-- ==== Sys2Proof/Machine/Tether.lean ====
section
/-! DEFINITION. Tether: repeating and addressing, the bridge and its queue of events, bulk transfers (R531–R541). Frames that give access to BAR0
stand in Frames. -/

namespace Sys2Proof.Machine

/-- The TETH page. -/
abbrev tethPage : Nat := 7

/-- The TYPE of a frame (R534). -/
def frameType (b : List Nat) : Nat := b.getD 0 0 / 16

/-- The little-endian number in the `n` bytes of a frame from byte `i`. -/
def frameWord (b : List Nat) (i n : Nat) : Nat := leNat ((b.drop i).take n)

/-- A frame that a receiver takes: sixteen bytes, CRC right, TYPE listed (R534). -/
def tethGood (b : List Nat) : Bool :=
  decide (b.length = 16 ∧ crc16 (b.take 14) = b.getD 14 0 * 256 + b.getD 15 0 ∧ 1 ≤ frameType b ∧ frameType b ≤ 7)

namespace Dev

/-- The device repeats: from 0.2 ms of start-up, and not in a power-on reset (R533). -/
def repeats (d : Dev) : Bool := d.pin .tethOut = .run && !d.power.porstLow

/-- A frame arrives on the forward or the return direction: a bad one is counted and still repeated; a good one of the named TYPE is handed on,
to be repeated as it is or changed (R533, R534). -/
def tethRx (d : Dev) (fwd : Bool) (typ : Nat) (b : List Nat) (f : Dev → Dev) : Dev :=
  if !d.repeats then d
  else if !tethGood b then (d.tethSend fwd b).count F.TETH_CNT_CRC
  else if frameType b = typ then f d else d

/-- The address of this device (R537). -/
def tethAddr (d : Dev) : Nat := d.get F.TETH_ADDR_ADDR

/-- A frame addressed to this device; address 0 is no address (R535). -/
def tethMine (d : Dev) (dst : Nat) : Bool := d.tethAddr ≠ 0 && dst = d.tethAddr

/-! ### Enumeration (R537–R539) -/

/-- ENUM: an address is taken, the frame goes on with NEXT + 1, and the last member answers (R537). -/
def tethEnum (d : Dev) (b : List Nat) : Dev :=
  let next := b.getD 4 0
  let full := decide (65 ≤ next)
  let d := if b.getD 0 0 % 2 = 1 then d.set F.TETH_ADDR_ADDR 0 else d
  let d := if full then (d.set F.TETH_ADDR_ADDR 0).put F.TETH_ADDR_OVER true
    else if d.tethAddr = 0 then d.set F.TETH_ADDR_ADDR next else d
  let d := d.tethSend true (frame16 (((b.take 14).set 4 (if full then next else next + 1))))
  if d.bit F.TETH_ADDR_LAST then
    d.tethReturn (frame16 ([0x20 + d.get F.TETH_ADDR_OVER, 0, d.tethAddr, b.getD 3 0, if full then 64 else next] ++ List.replicate 9 0))
  else d

/-- ENUM_END: repeated with this device's OVER; the enumeration of the bridge completes (R537, R539). -/
def tethEnumEnd (d : Dev) (b : List Nat) : Dev :=
  let full := b.getD 0 0 % 2 = 1 || d.bit F.TETH_ADDR_OVER
  let d := d.tethSend false (frame16 ((b.take 14).set 0 (0x20 + b2n full)))
  match d.teth.enumAt with
  | none => d
  | some _ =>
    let d := ((d.set F.TETH_ENUM_COUNT (b.getD 4 0)).put F.TETH_ENUM_OVER full).set F.TETH_STAT_CHAIN (b.getD 4 0)
    let d := d.put F.TETH_ENUM_DONE true
    ({ d with teth := { d.teth with enumAt := none } } : Dev).raise tethPage 3

/-- A write of TETH_ENUM (R539). -/
def tethEnumWrite (d : Dev) (word : Nat) : Dev :=
  let d := d.putFields word [F.TETH_ENUM_CLEAR]
  if fieldOf F.TETH_ENUM_GO word = 0 then d
  else if d.teth.bridge.isSome || d.teth.enumAt.isSome then d.refuse tethPage 0x80 .busy
  else
    let tag := (d.teth.tag + 1) % 256
    let d : Dev := { d.put F.TETH_ENUM_DONE false with teth := { d.teth with tag := tag, enumAt := some d.time.c } }
    d.tethSend true (frame16 ([0x10 + d.get F.TETH_ENUM_CLEAR, 0x7F, d.tethAddr, tag, 2] ++ List.replicate 9 0))

/-- TETH_ENUM_TIMEOUT: no ENUM_END within 1 ms. -/
def tethEnumTimeout (d : Dev) : Dev :=
  match d.teth.enumAt with
  | some t =>
    if 1000000 ≤ d.elapsed t then ({ d with teth := { d.teth with enumAt := none } } : Dev).hwError tethPage .timeout 0 else d
  | none => d

/-! ### The bridge (R540) -/

/-- An access of the bridge ends with its result. -/
def bridgeEnd (d : Dev) (result : Nat) : Dev :=
  let d : Dev := { d with teth := { d.teth with bridge := none } }
  ((d.set F.TETH_BR_STAT_RESULT result).put F.TETH_BR_STAT_BUSY false).raise tethPage 4

/-- A destination of the bridge: 2–64 or broadcast. -/
def bridgeDst (n : Nat) : Bool := (2 ≤ n && n ≤ 64) || n = 0x7F

/-- A broadcast WRITE of the bridge completes with OK when its last character has left (R540). -/
def broadcastTick (d : Dev) : Dev :=
  match d.teth.bridge with
  | some x => if x.write && x.dst = 0x7F && decide (d.teth.fwd.busyTo ≤ d.time.c) then d.bridgeEnd 0 else d
  | none => d

/-- A write of TETH_BR_CTRL: GO sends one READ or WRITE. -/
def bridgeWrite (d : Dev) (word : Nat) : Dev :=
  let dst := fieldOf F.TETH_BR_CTRL_DST word
  if !bridgeDst dst then d.refuse tethPage 0x84 .range
  else
    let d := d.putFields word [F.TETH_BR_CTRL_WRITE, F.TETH_BR_CTRL_DST]
    if fieldOf F.TETH_BR_CTRL_GO word = 0 then d
    else if d.bit F.TETH_BR_STAT_BUSY then d.refuse tethPage 0x84 .busy
    else
      let w := d.bit F.TETH_BR_CTRL_WRITE
      let tag := (d.teth.tag + 1) % 256
      let d : Dev := { d.put F.TETH_BR_STAT_BUSY true with teth := { d.teth with tag := tag, bridge := some ⟨dst, w, tag, d.time.c⟩ } }
      d.tethSend true (frame16 ([if w then 0x40 else 0x30, dst, d.tethAddr, tag] ++ leBytes 4 (d.get F.TETH_BR_ADDR_OFFSET)
        ++ leBytes 4 (if w then d.get F.TETH_BR_DATA_DATA else 0) ++ [0, 0]))

/-- RESP: the access whose destination and TAG it carries completes. -/
def tethResp (d : Dev) (b : List Nat) : Dev :=
  let d := d.tethSend false b
  match d.teth.bridge with
  | none => d
  | some x =>
    if b.getD 2 0 = x.dst ∧ b.getD 3 0 = x.tag then
      (if x.write then d else d.set F.TETH_BR_DATA_DATA (frameWord b 4 4)).bridgeEnd (b.getD 8 0)
    else d

/-- TETH_BR_TIMEOUT: no RESP within 100 µs. -/
def bridgeTimeout (d : Dev) : Dev :=
  match d.teth.bridge with
  | some x => if 100000 ≤ d.elapsed x.sent then (d.hwError tethPage .timeout 0).bridgeEnd Err.timeout.code else d
  | none => d

/-! ### Bulk transfers and events (R541) -/

/-- A write of TETH_BULK_CTRL. -/
def bulkWrite (d : Dev) (word : Nat) : Dev :=
  let dst := fieldOf F.TETH_BULK_CTRL_DST word
  if !bridgeDst dst then d.refuse tethPage 0xA0 .range
  else
    let d := d.putFields word [F.TETH_BULK_CTRL_DST]
    let first := d.get F.TETH_BULK_FIRST_FIRST
    let stop := d.get F.TETH_BULK_LEN_LEN / 8
    if fieldOf F.TETH_BULK_CTRL_GO word = 0 then d
    else if d.bit F.TETH_BR_STAT_BUSY then d.refuse tethPage 0xA0 .busy
    else if stop ≤ first then d.refuse tethPage 0xA0 .range
    else { d.put F.TETH_BR_STAT_BUSY true with teth := { d.teth with bulk := some ⟨dst, first, stop⟩ } }

/-- Byte `i` of the HBM from where the transfer reads; beyond the HBM the spec gives no value. -/
def bulkByte (d : Dev) (i : Nat) : Nat :=
  let a := d.get F.TETH_BULK_SRC_LO_SRC_LO * 64 + d.get F.TETH_BULK_SRC_HI_SRC_HI * 2 ^ 32 + i
  if a < 0x4_0000_0000 then (d.byte a).toNat else d.freeAt (i % 8) 8

/-- The clock of the forward direction: a BULK frame leaves in each slot of 1.9 µs, back to back; after the transfer, the frames that waited do. -/
def bulkTick (d : Dev) : Dev :=
  match d.teth.bulk with
  | none => d.teth.wait.foldl (fun d b => d.tethSend true b) ({ d with teth := { d.teth with wait := [] } } : Dev)
  | some x =>
    if x.stop ≤ x.next ∨ d.time.c < d.teth.fwd.busyTo then d
    else
      let d := d.tethSend true (frame16 ([0x60, x.dst] ++ leBytes 3 x.next ++ (List.range 8).map (fun i => d.bulkByte (8 * x.next + i)) ++ [0]))
      ({ d with teth := { d.teth with bulk := some { x with next := x.next + 1 } } } : Dev).freeUsed 8

/-- The clock of the Tether port. -/
def tethTick (d : Dev) : Dev := d.tethOwn.broadcastTick.bulkTick

/-- TETH_BULK_DONE: the last BULK frame has left. -/
def bulkDone (d : Dev) : Dev :=
  match d.teth.bulk with
  | some x =>
    if x.stop ≤ x.next ∧ d.teth.fwd.busyTo ≤ d.time.c then
      (({ d with teth := { d.teth with bulk := none } } : Dev).put F.TETH_BR_STAT_BUSY false).raise tethPage 4
    else d
  | none => d

/-- BULK: repeated; eight image bytes where it is addressed to this device or broadcast (R542). -/
def tethBulk (d : Dev) (b : List Nat) : Dev :=
  let d := d.tethSend true b
  if d.tethMine (b.getD 1 0) || b.getD 1 0 = 0x7F then d.bootChunk (frameWord b 2 3) ((b.drop 5).take 8) else d

/-- EVENT: repeated; with the bridge it enters the queue of 64 (R541). -/
def tethEvent (d : Dev) (b : List Nat) : Dev :=
  let d := d.tethSend false b
  if !d.feat 24 then d
  else if 64 ≤ d.teth.events.length then d.count F.TETH_CNT_OVERRUN
  else
    let e := 2 ^ 31 + b.getD 2 0 % 128 * 2 ^ 24 + b.getD 4 0 * 2 ^ 16 + frameWord b 6 2
    ({ d with teth := { d.teth with events := d.teth.events ++ [e] } } : Dev).raise tethPage 5

/-! ### The page -/

/-- The registers of the bridge, which F_TETHER_BRIDGE governs (R540). -/
def bridgeReg (off : Nat) : Bool := 0x80 ≤ off && off ≤ 0xA8

/-- A write to a block register of the TETH page, past the gate (R561). -/
def tethWrite (d : Dev) (off word : Nat) : Dev :=
  if bridgeReg off && !d.feat 24 then d.refuse tethPage off .feature
  else if off = 0x80 then d.tethEnumWrite word
  else if off = 0x84 then d.bridgeWrite word
  else if off = 0x88 then d.limited tethPage off word (fieldOf F.TETH_BR_ADDR_OFFSET word % 4 = 0)
  else if off = 0x9C then
    let n := fieldOf F.TETH_BULK_LEN_LEN word
    d.limited tethPage off word (n % 64 = 0 && n ≤ 0x40_0000)
  else if off = 0xA0 then d.bulkWrite word
  else if off = 0xA4 then d.limited tethPage off word (decide (fieldOf F.TETH_BULK_FIRST_FIRST word < d.get F.TETH_BULK_LEN_LEN / 8))
  else d.regWrite tethPage off word

/-- A read of a block register of the TETH page: the event queue gives its oldest entry up. -/
def tethRead (d : Dev) (off : Nat) : Dev × Nat :=
  if bridgeReg off && !d.feat 24 then (d, 0)
  else if off = 0xA8 then ({ d with teth := { d.teth with events := d.teth.events.drop 1 } }, d.teth.events.headD 0)
  else (d, d.regWord tethPage off)

/-- TETH_EVT_FIFO_READ. -/
def eventRead (d : Dev) : Dev :=
  let r := d.tethRead 0xA8
  r.1.emit (.readData 0x70A8 r.2)

/-- TETH_LINK_CHANGE: clock comes or goes on TETH_FWD_IN and TETH_RET_IN; LAST is set while TETH_RET_IN has none (R531). -/
def tethLink (d : Dev) (fwd ret : Bool) : Dev :=
  if d.power.porstLow then d
  else
    let same := d.bit F.TETH_STAT_FWD_LOCK = fwd && d.bit F.TETH_STAT_RET_LOCK = ret
    let d := ((d.put F.TETH_STAT_FWD_LOCK fwd).put F.TETH_STAT_RET_LOCK ret).put F.TETH_ADDR_LAST (!ret)
    if same then d else d.raise tethPage 6

end Dev

/-! ### The meanings -/

def execEnum (bytes : List Nat) (s : State) : Answer := s.run (fun d => d.tethRx true 1 bytes (·.tethEnum bytes))
def execEnumEnd (bytes : List Nat) (s : State) : Answer := s.run (fun d => d.tethRx false 2 bytes (·.tethEnumEnd bytes))
def execResp (bytes : List Nat) (s : State) : Answer := s.run (fun d => d.tethRx false 5 bytes (·.tethResp bytes))
def execBulk (bytes : List Nat) (s : State) : Answer := s.run (fun d => d.tethRx true 6 bytes (·.tethBulk bytes))
def execEvent (bytes : List Nat) (s : State) : Answer := s.run (fun d => d.tethRx false 7 bytes (·.tethEvent bytes))
def execTethEnumGo (value : Nat) (s : State) : Answer := s.run (·.gated tethPage 0x80 (·.tethWrite 0x80 (value ||| 1)))
def execTethEnumTimeout (s : State) : Answer := s.run (·.tethEnumTimeout)
def execTethBrGo (value : Nat) (s : State) : Answer := s.run (·.gated tethPage 0x84 (·.tethWrite 0x84 (value ||| 2 ^ 31)))
def execTethBrTimeout (s : State) : Answer := s.run (·.bridgeTimeout)
def execTethBulkGo (value : Nat) (s : State) : Answer := s.run (·.gated tethPage 0xA0 (·.tethWrite 0xA0 (value ||| 2 ^ 31)))
def execTethBulkDone (s : State) : Answer := s.run (·.bulkDone)
def execTethEvtFifoRead (s : State) : Answer := s.run (·.eventRead)
def execTethLinkChange (fwd ret : Bool) (s : State) : Answer := s.run (·.tethLink fwd ret)

end Sys2Proof.Machine
end

