-- ==== Sys2Proof/Machine/Bar0.lean ====
section
/-! DEFINITION. Access to BAR0: what a write to each register does beside storing its fields, what a read answers where the register shows
something else than what is stored (R54–R58). -/

namespace Sys2Proof.Machine.Dev

/-! ### Camera pages (Tables cam-6 to cam-9) -/

/-- A write of TGEN_CTRL: what R95 and F_CXP_FINE_TRIG refuse is left out, the other fields are taken; the idle level of TRIG_OUTn follows. -/
def tgenCtrlWrite (d : Dev) (p word : Nat) : Dev :=
  let pg := cxp p
  let run := d.bit (F.TGEN_CTRL_RUNNING p)
  let held := [F.TGEN_CTRL_MODE p, F.TGEN_CTRL_MOT_SEL p, F.TGEN_CTRL_IN_SEL p]
  let moved := held.any (fun f => decide (fieldOf f word ≠ d.get f))
  let fine := fieldOf (F.TGEN_CTRL_FINE p) word = 1
  let was := (d.get (F.TGEN_CTRL_OUT_EN p), d.get (F.TGEN_CTRL_OUT_POL p))
  let d := d.putFields word [F.TGEN_CTRL_RUN_AT_START p, F.TGEN_CTRL_OUT_POL p, F.TGEN_CTRL_OUT_EN p]
  let d := if run then (if moved then d.refuse pg 0xC0 .state else d) else d.putFields word held
  let d := if fine && !d.feat 12 then d.refuse pg 0xC0 .feature else d.put (F.TGEN_CTRL_FINE p) fine
  if was = (d.get (F.TGEN_CTRL_OUT_EN p), d.get (F.TGEN_CTRL_OUT_POL p)) then d
  else d.setPin (.trigOut p) (if d.bit (F.TGEN_CTRL_OUT_EN p) && d.bit (F.TGEN_CTRL_OUT_POL p) then .high else .low)

/-- A write to a block register of CXP page `p`. -/
def cxpWrite (d : Dev) (p off word : Nat) : Dev :=
  let pg := cxp p
  if off = 0x40 then
    let want := fieldOf (F.CXP_CTRL_POCXP_EN p) word = 1
    let have_ := d.bit (F.CXP_CTRL_POCXP_EN p)
    let d := (d.regWrite pg off (word - b2n want * 16 + b2n have_ * 16)).relayUpdate p
    if want = have_ then d else d.pocxpEnWrite p want
  else if off = 0x48 then (d.regWrite pg off word).refreshStale
  else if off = 0x80 then
    if 8 ≤ p then d else if fieldOf (F.CXP_RELAY_RLY_EN p) word = 1 ∧ !d.feat 2 then d.refuse pg off .feature else (d.regWrite pg off word).relayUpdate p
  else if off = 0x90 then d.ccGo p word
  else if off = 0xC0 then d.tgenCtrlWrite p word
  else if off = 0xC4 then d.tgenStepWrite p word
  else if off = 0x300 ∧ p < 8 then
    if d.state = 3 || d.state = 4 || d.state = 8 then d.regWrite pg off word else d.refuse pg off .state
  else d.regWrite pg off word

/-- The word of a block register of CXP page `p`. -/
def cxpRead (d : Dev) (p off : Nat) : Nat :=
  let w := d.regWord (cxp p) off
  if off = 0x300 ∧ p < 8 then w + b2n (d.groupRemote p) * 2 ^ 16
  else if off = 0x304 ∧ p < 8 then ((d.portsOf p).map (2 ^ ·)).sum
  else if off = 0x80 ∧ 8 ≤ p then 0
  else w

/-! ### Lane groups (Tables lane-6 and lane-7) -/

/-- Whether a register of a lane applies to its kind (R136). LANE_STAT of a relay lane, which has no receiver, reads 0 whole, ASTATE in TEST too; the
spec does not say which of its fields apply (log entry 87, DESIGN CHOICE). -/
def laneReg (l r : Nat) : Bool := match laneKind l with
  | .cxp => r ≠ 0xC
  | .relay => r = 0 || r = 0xC || r = 0x10
  | .meridian => true
  | .spare => false

/-- A write of LANE_EQ: the values are kept for EQ_MANUAL, and with it are in force (Table lane-7). -/
def laneEqWrite (d : Dev) (l word : Nat) : Dev :=
  let g := l / 8; let k := l % 8
  let ctle := fieldOf (F.LANE_EQ_CTLE g k) word
  if 24 < ctle then d.refuse (lng g) (0x88 + 0x20 * k) .range
  else
    let s := fun (f : Fld) => sgn f.width (fieldOf f word)
    let dfe := [s (F.LANE_EQ_DFE1 g k), s (F.LANE_EQ_DFE2 g k), s (F.LANE_EQ_DFE3 g k)]
    let d := d.setLane l { d.lane l with manEq := some (ctle, dfe) }
    if d.bit (F.LANE_CFG_EQ_MANUAL g k) then d.setEq l ctle dfe else d

/-- A write of LANE_CFG. EQ_MANUAL puts the values written to LANE_EQ in force. -/
def laneCfgWrite (d : Dev) (l word : Nat) : Dev :=
  let g := l / 8; let k := l % 8
  let d := if laneKind l = .meridian then d.putFields word [F.LANE_CFG_LOOP_FAR g k, F.LANE_CFG_LOOP_NEAR g k] else d
  let d := if laneKind l = .relay then d
    else
      let d := d.putFields word [F.LANE_CFG_EQ_MANUAL g k]
      match (d.lane l).manEq with
      | some (c, t) => if d.bit (F.LANE_CFG_EQ_MANUAL g k) then d.setEq l c t else d
      | none => d
  let want := word % 2 = 1
  if want = d.bit (F.LANE_CFG_TEST_EN g k) then d else d.laneTestEn l want

/-- A write of LANE_PRBS: GEN and CHK only where the lane's kind has them (Table lane-5). SYNC and the counts stay when CHK or PATTERN changes, which the
spec leaves open (log entry 87, DESIGN CHOICE); a pattern that starts anew starts from a new state. -/
def lanePrbsWrite (d : Dev) (l word : Nat) : Dev :=
  let g := l / 8; let k := l % 8
  let gen := fieldOf (F.LANE_PRBS_GEN g k) word = 1
  let chk := fieldOf (F.LANE_PRBS_CHK g k) word = 1
  let noGen := laneKind l = .cxp
  let noChk := laneKind l = .relay
  let was := (d.get (F.LANE_PRBS_PATTERN g k), d.bit (F.LANE_PRBS_GEN g k))
  let d := d.putFields word [F.LANE_PRBS_INVERT g k, F.LANE_PRBS_PATTERN g k]
  let d := if noGen then d else d.put (F.LANE_PRBS_GEN g k) gen
  let d := if noChk then d else d.put (F.LANE_PRBS_CHK g k) chk
  let d := if was = (d.get (F.LANE_PRBS_PATTERN g k), d.bit (F.LANE_PRBS_GEN g k)) then d else d.setLane l { d.lane l with gen := [] }
  let d := if (gen && noGen) || (chk && noChk) then d.refuse (lng g) (0x90 + 0x20 * k) .unsupported else d
  if fieldOf (F.LANE_PRBS_CLR g k) word = 1 then d.prbsClr l false else d

/-- A write to a block register of lane group `g`. -/
def lngWrite (d : Dev) (g off word : Nat) : Dev :=
  if 0x80 ≤ off ∧ off < 0x180 then
    let l := 8 * g + (off - 0x80) / 0x20
    let r := (off - 0x80) % 0x20
    if !laneReg l r then d
    else if r = 0 then d.laneCfgWrite l word
    else if r = 8 then d.laneEqWrite l word
    else if r = 0xC then d.txtapWrite l word
    else if r = 0x10 then d.lanePrbsWrite l word
    else d
  else d.regWrite (lng g) off word

/-- The word of a block register of lane group `g`. -/
def lngRead (d : Dev) (g off : Nat) : Dev × Nat :=
  let w := d.regWord (lng g) off
  if off = 0x4C then
    let bit := fun (k : Nat) (b : Bool) => b2n b * 2 ^ k
    (d, w - w % 2 ^ 24 + ((List.range 8).map (fun k =>
      bit k (d.bit (F.LANE_STAT_LOCK g k)) + bit (8 + k) (let a := d.get (F.LANE_STAT_ASTATE g k); decide (4 ≤ a ∧ a ≤ 6))
        + bit (16 + k) (d.bit (F.LANE_PRBS_SYNC g k)))).sum)
  else if 0x80 ≤ off ∧ off < 0x180 then
    let l := 8 * g + (off - 0x80) / 0x20
    let r := (off - 0x80) % 0x20
    let x := d.lane l
    if !laneReg l r then (d, 0)
    else if r = 0xC ∧ laneKind l = .meridian then (d, w % 2 ^ 24)
    else if r = 0x14 then (d.setLane l { x with bitsLatch := some (d.get (F.LANE_PRBS_BITS_BITS g (l % 8))) }, w)
    else if r = 0x18 then (d.setLane l { x with bitsLatch := none }, x.bitsLatch.getD w)
    else (d, w)
  else (d, w)

/-! ### The correction and sky islands (R166, R190) -/

/-- A write to a block register of the COR page. -/
def corWrite (d : Dev) (off word : Nat) : Dev :=
  if off = 0x44 then d.swapAsk corSwap word (fun _ => none)
  else if off = 0x60 then
    let v := fun (f : Fld) => fieldOf f word
    d.limited 0x30 off word (decide (1 ≤ v F.COR_BG_CFG_STALE_AGE ∧ 1 ≤ v F.COR_BG_CFG_STEP_MAX ∧ 0x10 ≤ v F.COR_BG_CFG_GATE
      ∧ 2 ≤ v F.COR_BG_CFG_NSHIFT ∧ v F.COR_BG_CFG_NSHIFT ≤ 6 ∧ 2 ≤ v F.COR_BG_CFG_SHIFT ∧ v F.COR_BG_CFG_SHIFT ≤ 12))
  else if off = 0x68 then d.limited 0x30 off word (decide (1024 ≤ fieldOf F.COR_BG_ZONE_ROWS word))
  else d.regWrite 0x30 off word

/-- A write to a block register of the NR page. -/
def nrWrite (d : Dev) (off word : Nat) : Dev :=
  if off = 0x44 then
    d.limited 0x31 off word (decide (1 ≤ fieldOf F.NR_PARAM_TM_SHIFT word ∧ fieldOf F.NR_PARAM_TM_SHIFT word ≤ 4))
  else d.regWrite 0x31 off word

/-- A write to a block register of the FOC page. -/
def focWrite (d : Dev) (off word : Nat) : Dev :=
  if off = 0x40 then d.focSnapWrite word
  else if off = 0x44 then d.limited 0x32 off word (decide (1 ≤ fieldOf F.FOC_MIN_STEP_MIN_STEP word))
  else d.regWrite 0x32 off word

/-- A write to a block register of the GEO page. -/
def geoWrite (d : Dev) (off word : Nat) : Dev :=
  if off = 0x40 then d.limited 0x33 off word (decide (fieldOf F.GEO_CTRL_KERNEL word ≤ 2))
  else if off = 0x44 then d.geoSwapGo word
  else d.regWrite 0x33 off word

/-- A write to a block register of the STI page. -/
def stiWrite (d : Dev) (off word : Nat) : Dev :=
  if off = 0x60 then
    d.featured 0x34 off word [(F.STI_AR_CTRL_AR_EN, 22)] (decide (1 ≤ fieldOf F.STI_AR_CTRL_GAIN word ∧ 256 ≤ fieldOf F.STI_AR_CTRL_ROWS word))
  else if off = 0x64 then
    d.limited 0x34 off word (decide (1 ≤ fieldOf F.STI_AR_LIM_REJECT word ∧ 1 ≤ fieldOf F.STI_AR_LIM_OFS_LIMIT word
      ∧ 1 ≤ fieldOf F.STI_AR_LIM_STEP_MAX word))
  else if 0x80 ≤ off ∧ off < 0xC0 ∧ off % 4 = 0 then d.stiOfsWrite ((off - 0x80) / 4) word
  else d.regWrite 0x34 off word

/-- A write to a block register of the SPEC page. -/
def specWrite (d : Dev) (off word : Nat) : Dev := if off = 0x44 then d.specSwapGo word else d.regWrite 0x35 off word

/-- SPEC_PROBE shows the class bytes at INDEX in both banks. -/
def specRead (d : Dev) (off : Nat) : Nat :=
  let w := d.regWord 0x35 off
  if off = 0x60 then
    let at_ := fun (bank : Nat) => (d.byte (0x4_4000_0000 + bank * 0x1_0000 + d.get F.SPEC_PROBE_INDEX)).toNat
    let n := d.get F.SPEC_SWAP_ACTIVE
    w % 2 ^ 16 + at_ n * 2 ^ 16 + at_ (1 - n) * 2 ^ 24
  else w

/-! ### Segmentation, bodies and trajectories (R218, R242) -/

/-- A write to a block register of the SEG page. -/
def segWrite (d : Dev) (off word : Nat) : Dev :=
  if off = 0x44 then d.limited 0x36 off word (decide (1 ≤ fieldOf F.SEG_THR_FIX word ∧ 0x10 ≤ fieldOf F.SEG_THR_K word))
  else if off = 0x70 then
    let h := fieldOf F.SEG_LIMITS_HEIGHT_MAX word
    let w := fieldOf F.SEG_LIMITS_WIDTH_MAX word
    d.limited 0x36 off word (decide (1 ≤ h ∧ h ≤ 4096 ∧ 1 ≤ w ∧ w ≤ 1024))
  else d.regWrite 0x36 off word

/-- SEG_STAT shows the form in force (R193). -/
def segRead (d : Dev) (off : Nat) : Nat := if off = 0x74 then b2n d.adaptive * 2 ^ F.SEG_STAT_ADAPTIVE.lsb else d.regWord 0x36 off

/-- A write to a block register of the BODY page. The crop pools in force follow their registers while nothing is in use (log entry 35, DEDUCED). -/
def bodyWrite (d : Dev) (off word : Nat) : Dev :=
  if off = 0x48 then d.ctxLowClr word
  else if 0x50 ≤ off ∧ off < 0x70 then d.limited 0x37 off word (decide (fieldOf (F.BODY_CROP_SHIFT ((off - 0x50) / 4)) word ≤ 8))
  else if off = 0x70 ∨ off = 0x74 then
    let d' := d.regWrite 0x37 off word
    if d'.regWord 0x37 off = d.regWord 0x37 off then d' else d'.poolReset
  else d.regWrite 0x37 off word

/-- BODY_Q_DEPTH and BODY_Q_HEAD show the queue. -/
def bodyRead (d : Dev) (off : Nat) : Nat :=
  if off = 0x80 then d.queueDepth else if off = 0x84 then d.queueHead else d.regWord 0x37 off

/-- A write that R222 holds to the speeds of every lower group, from CONFIGURED on. -/
def speedWrite (d : Dev) (off word : Nat) (ok : Bool) : Dev :=
  if d.configuredToService && (d.regWrite 0x38 off word).speedsBad then d.refuse 0x38 off .range else d.limited 0x38 off word ok

/-- A write to a block register of the TRAJ page. The averages of an upper group are RO; a written average of a group stands against an update that
falls due at the same commit (R238). -/
def trajWrite (d : Dev) (off word : Nat) : Dev :=
  let g := (off - 0x100) / 0x20
  let d := d.trajKeep
  if off = 0x40 then
    let r := fieldOf F.TRAJ_CTRL_AREA_RATIO word
    let s := fieldOf F.TRAJ_CTRL_AVG_SHIFT word
    d.limited 0x38 off word (decide ((r = 0 ∨ 0x11 ≤ r) ∧ 2 ≤ s ∧ s ≤ 12))
  else if off = 0x44 then d.speedWrite off word (decide (9700000 ≤ word ∧ word ≤ 9900000))
  else if off = 0x48 then d.speedWrite off word true
  else if off = 0x4C then d.limited 0x38 off word (decide (1 ≤ fieldOf F.TRAJ_WIN_TNORM word ∧ 1 ≤ fieldOf F.TRAJ_WIN_XWIN word))
  else if off = 0x54 then d.storePeakClr word
  else if 0x100 ≤ off ∧ off < 0x200 ∧ (off % 0x20 = 0x10 ∨ off % 0x20 = 0x14) then
    if d.roleOf g = 1 then d
    else
      let d := if d.roleOf g = 2 ∧ off % 0x20 = 0x10 then d.speedWrite off word true else d.regWrite 0x38 off word
      if d.accErr = 0 then { d with seg := { d.seg with avgWritten := d.seg.avgWritten ++ [2 * g + b2n (off % 0x20 = 0x14)] } } else d
  else if 0x100 ≤ off ∧ off < 0x200 ∧ off % 0x20 = 4 then d.speedWrite off word (decide (1000 ≤ word ∧ word ≤ 2000000))
  else if 0x100 ≤ off ∧ off < 0x200 ∧ off % 0x20 = 0 ∧ fieldOf (F.TRAJ_GCFG_ROLE g) word = 3 then (d.trajRoleChange g).regWrite 0x38 off word
  else d.regWrite 0x38 off word

/-- The averages of an upper group show v_g and the VX_AVG of its lower group (R235). -/
def trajRead (d : Dev) (off : Nat) : Dev × Nat :=
  let g := (off - 0x100) / 0x20
  if 0x100 ≤ off ∧ off < 0x200 ∧ d.roleOf g = 1 ∧ off % 0x20 = 0x10 then (d, uns 32 (d.vG g))
  else if 0x100 ≤ off ∧ off < 0x200 ∧ d.roleOf g = 1 ∧ off % 0x20 = 0x14 then (d, uns 32 (d.vxAvg g))
  else (d, d.regWord 0x38 off)

/-! ### Engines and dispatch (R270) -/

/-- A write to a block register of the page of engine `e`. -/
def engWrite (d : Dev) (e off word : Nat) : Dev := if off = 0x44 then d.engPtReq e word else d.regWrite (engPage e) off word

/-- GRACE and every LEAD together (R258). -/
def leadsOk (d : Dev) : Bool := (List.range 8).all (fun g => decide (d.get F.DISP_CTRL_GRACE + 200 ≤ d.get (F.DISP_GRP_A_LEAD g)))

/-- A write to a block register of the DISP page. -/
def dispWrite (d : Dev) (off word : Nat) : Dev :=
  let g := (off - 0x40) / 0x10
  if 0x40 ≤ off ∧ off < 0xC0 ∧ off % 0x10 = 0 then
    d.limited 0x39 off word (decide (fieldOf (F.DISP_GRP_A_DEFAULT g) word ≤ 2)
      && decide (d.get F.DISP_CTRL_GRACE + 200 ≤ fieldOf (F.DISP_GRP_A_LEAD g) word))
  else if 0x40 ≤ off ∧ off < 0xC0 ∧ off % 0x10 = 4 then
    d.limited 0x39 off word (decide (1 ≤ fieldOf (F.DISP_GRP_B_RUN_LIMIT g) word ∧ 1 ≤ fieldOf (F.DISP_GRP_B_MIN_RUN g) word))
  else if off = 0xC0 then d.swapAsk dispSwap word (fun d => if d.slotNextMissing then some (.state, 8) else none)
  else if off = 0xD4 then
    let n := fieldOf F.DISP_CTRL_GRACE word
    d.limited 0x39 off word (decide (10 ≤ n ∧ n ≤ 1000 ∧ 1 ≤ fieldOf F.DISP_CTRL_FAULT_LIMIT word) && (d.regWrite 0x39 off word).leadsOk)
  else d.regWrite 0x39 off word

/-- ENG_BUSY counts the cycles of the body that runs, too. -/
def engRead (d : Dev) (e off : Nat) : Nat :=
  if off = 0x6C then ((d.eng e).busy + (if (d.eng e).body.isSome then d.engCycles e else 0)) / 1024 % 2 ^ 32 else d.regWord (engPage e) off

/-- FOC_SUMz and FOC_EDGESz show the snapshot of the port that FOC_SEL names (R154). -/
def focRead (d : Dev) (off : Nat) : Nat :=
  let at_ := fun (z : Nat) => Sparse.get d.focSnap (0, 0) (16 * d.get F.FOC_SEL_PORT + z)
  if 0x80 ≤ off ∧ off < 0xC0 ∧ off % 4 = 0 then (at_ ((off - 0x80) / 4)).1
  else if 0xC0 ≤ off ∧ off < 0x100 ∧ off % 4 = 0 then (at_ ((off - 0xC0) / 4)).2
  else d.regWord 0x32 off

/-- STI_DELTAp reads DELTA = 0 for a port without a seam on its left (Table sky-8). -/
def stiRead (d : Dev) (off : Nat) : Nat :=
  let p := (off - 0xC0) / 4
  let w := d.regWord 0x34 off
  if 0xC0 ≤ off ∧ off < 0x100 ∧ off % 4 = 0 ∧ (8 ≤ d.groupOf p ∨ !(d.seamPairs (d.groupOf p)).any (fun e => e.2 = p)) then
    w - d.get (F.STI_DELTA_DELTA p) * 2 ^ (F.STI_DELTA_DELTA p).lsb
  else w

/-- DISP_POOLs shows the pool of its slot. -/
def dispRead (d : Dev) (off : Nat) : Nat :=
  if 0x110 ≤ off ∧ off < 0x130 ∧ off % 4 = 0 then
    let s := (off - 0x110) / 4
    d.poolSize s * 2 ^ (F.DISP_POOL_IN_SERVICE s).lsb + d.poolBusy s * 2 ^ (F.DISP_POOL_BUSY s).lsb
      + min 65535 (d.poolQueued s) * 2 ^ (F.DISP_POOL_QUEUED s).lsb
  else d.regWord 0x39 off

/-! ### Planning and Meteor ports (Tables plan-7 and met-9) -/

/-- A write to a block register of the PLAN page. -/
def planWrite (d : Dev) (off word : Nat) : Dev :=
  let v := fun (f : Fld) => fieldOf f word
  if off = 0x40 then
    d.featured 0x80 off word [(F.PLAN_CTRL_PCOMP_EN, 10), (F.PLAN_CTRL_LEARN_EN, 9)] (decide (v F.PLAN_CTRL_PAIR_RULE ≤ 2)) (·.pressOff)
  else if off = 0x44 then
    let m := v F.PLAN_TIMING_MET_LEAD
    d.limited 0x80 off word (decide (1 ≤ v F.PLAN_TIMING_HORIZON ∧ v F.PLAN_TIMING_HORIZON ≤ 1000 ∧ 100 ≤ m ∧ m ≤ 5000))
  else if off = 0x48 then
    d.limited 0x80 off word (decide (100 ≤ v F.PLAN_GUARD_ON_HARD ∧ v F.PLAN_GUARD_ON_HARD ≤ 50000))
  else if off = 0x4C then d.limited 0x80 off word (decide (1 ≤ v F.PLAN_PRESS_P_REF)) (·.pressOff)
  else if off = 0x50 then
    d.limited 0x80 off word (decide (1 ≤ v F.PLAN_PRESS_LIM_P_MIN ∧ v F.PLAN_PRESS_LIM_P_MIN < v F.PLAN_PRESS_LIM_P_MAX))
  else if off = 0x60 then
    let n := v F.PLAN_LEARN_SHIFT
    d.limited 0x80 off word (decide (1 ≤ v F.PLAN_LEARN_STEP_MAX ∧ 1 ≤ v F.PLAN_LEARN_IMPL_MAX ∧ 1 ≤ n ∧ n ≤ 8))
  else if off = 0x64 then d.limited 0x80 off word (decide (v F.PLAN_LEARN_LIM_LAT_MIN < v F.PLAN_LEARN_LIM_LAT_MAX))
  else if off = 0x70 then d.planSwapGo word
  else if off = 0xE0 ∨ off = 0xE4 then (d.regWrite 0x80 off word).divertUpdate
  else if 0x140 ≤ off ∧ off < 0x160 then d.limited 0x80 off word (decide (1 ≤ v (F.PLAN_TWI_TWI_MIN ((off - 0x140) / 4))))
  else d.regWrite 0x80 off word

/-- A write to a block register of the page of Meteor port `n`. -/
def metWrite (d : Dev) (n off word : Nat) : Dev :=
  let pg := metPage n
  let v := fun (f : Fld) => fieldOf f word
  if off = 0x40 then
    let b := v (F.MET_CFG_BEACON_INT n); let a := v (F.MET_CFG_ACK_TO n); let r := v (F.MET_CFG_RETRY_MAX n)
    d.limited pg off word (decide (1 ≤ r ∧ 10 ≤ a ∧ a ≤ 200 ∧ 10 ≤ b ∧ b ≤ 200 ∧ v (F.MET_CFG_REPEAT n) ≤ 2))
  else if off = 0x44 then
    let e := v (F.MET_TX_EARLY n)
    d.limited pg off word (decide (10 ≤ e ∧ e ≤ 1000))
  else if off = 0x48 then
    let t := v (F.MET_RANGE_PERIOD n)
    d.limited pg off word (decide (t = 0 ∨ (10 ≤ t ∧ t ≤ 60000)))
  else if off = 0x54 then
    if !d.testing pg then d
    else if d.bit (F.MET_TEST_PRBS_EN n) = decide (v (F.MET_TEST_PRBS_EN n) = 1) then d
    else (d.regWrite pg off word).metTest n true
  else if 0x100 ≤ off ∧ off < 0x180 ∧ off % 0x20 = 4 then
    let k := (off - 0x100) / 0x20
    if d.metFeedback then d else if !d.metRuns n then d.regWrite pg off word else d.queueDelay n k (v (F.MET_MOD_DELAY_DELAY n k))
  else d.regWrite pg off word

/-! ### PACK (Table pack-5) -/

/-- A write to a block register of the PACK page: SAVE before LOAD where both are written (log entry 62, DEDUCED). -/
def packWrite (d : Dev) (off word : Nat) : Dev :=
  if 0x100 ≤ off ∧ off < 0x200 ∧ off % 0x40 = 0x10 then
    let c := (off - 0x100) / 0x40
    let d := if word / 2 ^ 31 % 2 = 1 then d.packStart c false else d
    if word / 2 ^ 30 % 2 = 1 then d.packStart c true else d
  else d.regWrite 0x0C off word

/-! ### Any register -/

/-- BLK_ID.TYPE (Table regs-1). -/
def blkType (page : Nat) : Nat :=
  if page ≤ 0x0F then page + 1
  else if page < 0x20 then 0x20 else if page < 0x2D then 0x21
  else if page ≤ 0x39 then page
  else if page < 0x80 then 0x40 else if page = 0x80 then 0x50 else if page < 0x89 then 0x51
  else if page = 0x90 then 0x60 else 0x61

/-- A write to the common header of a page, past the gate. -/
def headerWrite (d : Dev) (page off word : Nat) : Dev :=
  if off = 0x0C then d.blkCtrlWrite page word
  else if off = 0x18 then d.irqEnWrite page word
  else if off = 0x1C then d.irqStatWrite page word 0 0
  else if off = 0x30 then d.lockWrite page word
  else d.regWrite page off word

/-- A write to a block register of a page, past the gate; over Tether where `teth`. -/
def blockWrite (d : Dev) (page off word : Nat) (teth : Bool) : Dev :=
  if page = 0 then
    if 0x60 ≤ off ∧ off < 0x70 then (if d.state = 2 then d.regWrite 0 off word else d.refuse 0 off .state)
    else if off = 0x70 then d.featCommit word
    else d.regWrite 0 off word
  -- CMD_CODE.FLAGS keeps bit 8 alone; bits 9 to 15 are RSV (Table regs-19)
  else if page = 1 then (if off = 0x64 then d.submit word else if off = 0x40 then d.regWrite 1 off (word - word / 2 ^ 9 % 2 ^ 7 * 2 ^ 9)
    else d.regWrite 1 off word)
  else if page = 2 then
    if 0x80 ≤ off ∧ off < 0x114 ∧ off % 4 = 0 then d.routeWrite ((off - 0x80) / 4) word
    else if off = 0x140 ∨ off = 0x144 then d.rearm ((off - 0x140) / 4) word
    else d
  else if page = 3 then d.islWrite off word
  else if page = 4 then d.timeWrite off word
  else if page = 5 then d.netWrite off word
  else if page = 6 then d.hostRegWrite off word
  else if page = 7 then d.tethWrite off word
  else if page = 8 then d.secWrite off word teth
  else if page = 9 then d.nvmWrite off word
  else if page = 0x0A then d.chkWrite off word
  else if page = 0x0B then d.obsWrite off word
  else if page = 0x0C then d.packWrite off word
  else if page = 0x0D then d.sigWrite off word
  else if page = 0x0E then d.trimWrite off word
  else if page = 0x0F then d.motWrite off word
  else if page < 0x20 then d.cxpWrite (page - 0x10) off word
  else if page < 0x30 then d.lngWrite (page - 0x20) off word
  else if page = 0x30 then d.corWrite off word
  else if page = 0x31 then d.nrWrite off word
  else if page = 0x32 then d.focWrite off word
  else if page = 0x33 then d.geoWrite off word
  else if page = 0x34 then d.stiWrite off word
  else if page = 0x35 then d.specWrite off word
  else if page = 0x36 then d.segWrite off word
  else if page = 0x37 then d.bodyWrite off word
  else if page = 0x38 then d.trajWrite off word
  else if page = 0x39 then d.dispWrite off word
  else if page < 0x80 then d.engWrite (page - 0x40) off word
  else if page = 0x80 then d.planWrite off word
  else if page < 0x90 then d.metWrite (page - 0x81) off word
  else if page = 0x90 then d.twinWrite off word
  else d.modeWrite off word

/-- The RWS fields that a write would change on an enabled page. Those of the descriptor rings follow the ring's EN (R453). -/
def heldFields (d : Dev) (page off word : Nat) : List Fld :=
  if page = 6 ∨ !d.bit (F.BLK_CTRL_ENABLE page) then []
  else ((regFields page off).filter (fun e => e.1 = .rws && decide (d.get e.2 ≠ fieldOf e.2 word))).map (·.2)

/-- A write to a block register: the RWS fields of an enabled page stay as they are, which records STATE, and the rest of the word is judged
without them (Table regs-2; log entry 69, DEDUCED). -/
def blockWriteHeld (d : Dev) (page off word : Nat) (teth : Bool) : Dev :=
  match d.heldFields page off word with
  | [] => d.blockWrite page off word teth
  | held =>
    let d' := d.refuse page off .state
    if (regFields page off).all (fun e => e.1 = .rws || e.1 = .ro || e.1 = .rc) then d' else d'.blockWrite page off (d.keepFields word held) teth

/-- An aligned 32-bit write at a BAR0 offset (R54, R56, R58, R65). -/
def bar0Write (d : Dev) (addr word : Nat) (teth : Bool) : Dev :=
  let page := addr / 0x1_0000
  let off := addr % 0x1_0000
  ({ d with accErr := 0 } : Dev).gatedSwap page off word (fun d =>
    let d := if page = 0x34 then d.arSettle else d
    if off < 0x40 then d.headerWrite page off word else d.blockWriteHeld page off word teth)

/-- A write to BAR4: a word of the MSI-X table; a message that waited and is no longer masked goes out (R80, log entry 89, PRESUMED). -/
def bar4Write (d : Dev) (off word : Nat) : Dev :=
  let v := off / 16
  if off % 4 ≠ 0 ∨ 64 ≤ v then d
  else if off % 16 = 0 then d.set (F.MSIX_ADDR_LO v) word
  else if off % 16 = 4 then d.set (F.MSIX_ADDR_HI v) word
  else if off % 16 = 8 then d.set (F.MSIX_DATA v) word
  else (d.set (F.MSIX_VECTOR_MASK v) word).sendPending

/-- A read of BAR4: the MSI-X table at offset 0 and the PBA at 0x2000 (Tables host-1 and host-2; log entry 89, PRESUMED). -/
def bar4Read (d : Dev) (off : Nat) : Nat :=
  let v := off / 16
  if off % 4 ≠ 0 then 0
  else if v < 64 then
    (if off % 16 = 0 then d.get (F.MSIX_ADDR_LO v) else if off % 16 = 4 then d.get (F.MSIX_ADDR_HI v)
     else if off % 16 = 8 then d.get (F.MSIX_DATA v) else d.get (F.MSIX_VECTOR_MASK v))
  else if off = 0x2000 ∨ off = 0x2004 then d.get (F.MSIX_PBA ((off - 0x2000) / 4))
  else 0

/-- An access of another size or alignment than 32 bits: only recorded, on the DEV page (R55). -/
def badAccess (d : Dev) (addr : Nat) : Dev := d.error 0 .range 0 .register (addr % 0x1_0000 / 4)

/-- A write of any size: only aligned 32-bit accesses are served (R55), and one that reaches its block with a parity error is dropped there and shown
in BUS_WR (Table regs-12). The addresses after the 64 MiB of BAR0 stand for those of BAR4. -/
def registerWrite (d : Dev) (addr size word : Nat) (parityOk : Bool) : Dev :=
  if 0x400_0000 ≤ addr then (if size = 4 then d.bar4Write (addr - 0x400_0000) word else d)
  else if size ≠ 4 ∨ addr % 4 ≠ 0 then d.badAccess addr
  else if parityOk then d.bar0Write addr (word % 2 ^ 32) false
  else if pageImplemented (addr / 0x1_0000) then d.setParity (addr / 0x1_0000) (F.BLK_PARITY_BUS_WR (addr / 0x1_0000))
  else d

/-- A withdrawal is in progress, or the return of an engine that meets the conditions of R264 (Table regs-8). -/
def blkBusy (d : Dev) (page : Nat) : Bool :=
  if d.offline page then isEng page && !d.bit (F.BLK_CTRL_OFFLINE_REQ page) && d.mayRejoin (page - 0x40) else d.bit (F.BLK_CTRL_OFFLINE_REQ page)

/-- A read of the common header of an implemented page. BLK_ERR_CODE gives its CODE and OVERRUN up (R64). No chapter defines a bit of BLK_FEAT
(log entry 7, DEDUCED). -/
def headerRead (d : Dev) (page off : Nat) : Dev × Nat :=
  let w := d.regWord page off
  if off = 0 then
    (d, blkType page * 2 ^ 16 + (match pageRows page with | some r => r.2 | none => 0) * 2 ^ 8 + 1)
  else if off = 4 then (d, 0x0100)
  else if off = 0x10 then
    let f := fun (f : Fld) (v : Nat) => v * 2 ^ f.lsb
    let st := if page = 0 then d.state else d.get (F.BLK_STAT_STATE page)
    (d, f (F.BLK_STAT_STATE page) st + f (F.BLK_STAT_TEST page) (b2n (d.testing page)) + f (F.BLK_STAT_FAULT page) (d.get (F.BLK_STAT_FAULT page))
      + f (F.BLK_STAT_STALE page) (b2n (d.stale page)) + f (F.BLK_STAT_OFFLINE page) (b2n (d.offline page))
      + f (F.BLK_STAT_BUSY page) (b2n (d.blkBusy page))
      + f (F.BLK_STAT_ENABLED page) (b2n (d.enabled page)))
  else if off = 0x1C then (d, d.irqStat page)
  else if off = 0x20 then ((d.set (F.BLK_ERR_CODE_CODE page) 0).set (F.BLK_ERR_CODE_OVERRUN page) 0, w)
  else (d, w)

/-- A read of a MET page: MET_LINK follows the port and the clock, MET_TOKEN what beacons would carry, once the features are settled (Table met-10; log entry 96, DEDUCED). -/
def metRead (d : Dev) (n off : Nat) : Nat :=
  let pg := metPage n
  if off = 0x4C then ((((d.put (F.MET_LINK_FEEDBACK n) d.metFeedback).put (F.MET_LINK_REPEAT_MODE n)
    (decide (3 ≤ d.state) && d.metRepeats n)).metPresent n).regWord pg off)
  else if off = 0x50 ∧ 3 ≤ d.state then ((d.put (F.MET_TOKEN_CLAIM n) d.claims).set (F.MET_TOKEN_EPOCH n) d.epochOut).regWord pg off
  else d.regWord pg off

/-- A read of a block register of a page whose feature is accepted. -/
def blockRead (d : Dev) (page off : Nat) : Dev × Nat :=
  if page = 2 ∧ 0x40 ≤ off ∧ off < 0x54 ∧ off % 4 = 0 then
    let n := (off - 0x40) / 4
    (d, ((List.range 32).map (fun b => b2n (pageImplemented (32 * n + b) && d.asserted (32 * n + b)) * 2 ^ b)).sum)
  else if page = 3 then (d, d.islRead off)
  else if page = 4 then d.timeRead off
  else if page = 7 then d.tethRead off
  else if page = 9 then (d, d.nvmRead off)
  else if page = 0x0B then (d, d.obsRead off)
  else if page = 0x0D then d.sigRead off
  else if page = 0x0F then d.motRead off
  else if 0x10 ≤ page ∧ page < 0x20 then (d, d.cxpRead (page - 0x10) off)
  else if 0x20 ≤ page ∧ page < 0x30 then d.lngRead (page - 0x20) off
  else if page = 0x32 then (d, d.focRead off)
  else if 0x40 ≤ page ∧ page < 0x80 then (d, d.engRead (page - 0x40) off)
  else if page = 0x34 then (d, d.stiRead off)
  else if page = 0x35 then (d, d.specRead off)
  else if page = 0x36 then (d, d.segRead off)
  else if page = 0x37 then (d, d.bodyRead off)
  else if page = 0x38 then d.trajRead off
  else if page = 0x39 then (d, d.dispRead off)
  else if isMet page then (d, d.metRead (page - 0x81) off)
  else if page = 0x90 ∧ off = 0x60 then (d, d.get F.TWIN_HB_MISSED * 2 ^ F.TWIN_HB_MISSED.lsb + d.hbAge * 2 ^ F.TWIN_HB_AGE.lsb)
  else (d, d.regWord page off)

/-- An aligned 32-bit read at a BAR0 offset (R54, R58, R543), or at one of BAR4 after it. -/
def bar0Read (d : Dev) (addr : Nat) : Dev × Nat :=
  let page := addr / 0x1_0000
  let off := addr % 0x1_0000
  if 0x400_0000 ≤ addr then (d, d.bar4Read (addr - 0x400_0000))
  else if !pageImplemented page || (d.state = 1 && page ≠ 0 && page ≠ 7 && page ≠ 8) then (d, 0)
  else if off < 0x40 then d.headerRead page off
  else if (match governing page with | none => false | some b => !d.feat b) then (d, 0)
  else d.blockRead page off

/-- A read that the driver makes: its data is answered. -/
def readOut (d : Dev) (addr : Nat) : Dev := let r := d.bar0Read addr; r.1.emit (.readData addr r.2)

/-- An error that arrives in the cycle of an RC read: where CODE held one before, it is an increment of OVERRUN and remains (R57, R64). -/
def errorInRead (page : Nat) (held : Bool) (d : Dev) (code : Nat) : Dev :=
  if held then (d.countSat (F.BLK_ERR_CODE_OVERRUN page)).raise page 0 else d.hwError page (Err.ofCode code) 0

/-- BLK_ERR_CODE_READ: a read of `size` bytes of BLK_ERR_CODE; the errors `codes` arrive in the same cycle, and the read returns what stood before
them (R55, R57). -/
def errCodeRead (d : Dev) (page size : Nat) (codes : List Nat) : Dev :=
  let addr := page * 0x1_0000 + 0x20
  let held := decide (d.get (F.BLK_ERR_CODE_CODE page) ≠ 0)
  let d := if size = 4 then d.readOut addr else (d.badAccess addr).emit (.readData addr 0)
  if !pageImplemented page then d else (codes.filter (· ≠ 0)).foldl (errorInRead page (held && size = 4)) d

/-! ### Frames that give access to BAR0 (R535) -/

/-- The RESP to a frame: code, data, the TYPE answered. -/
def tethAnswer (d : Dev) (b : List Nat) (code data : Nat) : Dev :=
  d.tethReturn (frame16 ([0x50, 0, d.tethAddr, b.getD 3 0] ++ leBytes 4 data ++ [code, frameType b, 0, 0, 0, 0]))

/-- The offset of a READ or WRITE that BAR0 has. -/
def tethOffOk (b : List Nat) : Bool := frameWord b 4 4 % 4 = 0 && decide (frameWord b 4 4 ≤ 0x3FF_FFFF)

/-- A misaligned access over Tether is recorded as over BAR0 (R55, R535). -/
def tethBad (d : Dev) (b : List Nat) : Dev := if frameWord b 4 4 % 4 = 0 then d else d.badAccess (frameWord b 4 4)

/-- A READ or WRITE is repeated; while a BULK transfer of this device runs it waits (R533, R541; log entry 111, DEDUCED). -/
def tethPass (d : Dev) (b : List Nat) : Dev :=
  if d.teth.bulk.isSome then { d with teth := { d.teth with wait := d.teth.wait ++ [b] } } else d.tethSend true b

/-- READ: repeated; served and answered where it is addressed to this device. -/
def tethReadFrame (d : Dev) (b : List Nat) : Dev :=
  let d := d.tethPass b
  if !d.tethMine (b.getD 1 0) then d
  else if !tethOffOk b then (d.tethBad b).tethAnswer b Err.range.code 0
  else
    let r := ({ d with accErr := 0 } : Dev).bar0Read (frameWord b 4 4)
    r.1.tethAnswer b r.1.accErr r.2

/-- WRITE: repeated; served where it is addressed to this device or broadcast, and answered where it is addressed. -/
def tethWriteFrame (d : Dev) (b : List Nat) : Dev :=
  let d := d.tethPass b
  let mine := d.tethMine (b.getD 1 0)
  if !mine && b.getD 1 0 ≠ 0x7F then d
  else if !tethOffOk b then (let d := d.tethBad b; if mine then d.tethAnswer b Err.range.code 0 else d)
  else
    let d := d.bar0Write (frameWord b 4 4) (frameWord b 8 4) true
    if mine then d.tethAnswer b d.accErr 0 else d

end Sys2Proof.Machine.Dev

namespace Sys2Proof.Machine

/-! ### The meanings -/

def execRegisterWrite (addr size : Nat) (word : BusWord) (s : State) : Answer :=
  s.run (·.registerWrite addr size word.value word.parityOk)
def execBlkErrCodeRead (access : ErrCodeRead) (s : State) : Answer := s.run (·.errCodeRead access.page access.size access.codes)
def execRead (bytes : List Nat) (s : State) : Answer := s.run (fun d => d.tethRx true 3 bytes (·.tethReadFrame bytes))
def execWrite (bytes : List Nat) (s : State) : Answer := s.run (fun d => d.tethRx true 4 bytes (·.tethWriteFrame bytes))

end Sys2Proof.Machine
end

