-- ==== Sys2Proof/Machine/Bf16.lean ====
section
/-! DEFINITION. The floating-point arithmetic of R285 and R286: exact values, rounded once to nearest even in bf16 or f32, subnormal inputs and
results replaced by a zero of the same sign. -/

namespace Sys2Proof.Machine

/-- A floating-point value: ±m × 2^e, an infinity, or no number. A zero keeps its sign. -/
inductive Fp where
  | nan
  | inf (neg : Bool)
  | fin (neg : Bool) (m : Nat) (e : Int)
  deriving DecidableEq, Repr

/-- The value of 32 bits of binary32; a subnormal is a zero of its sign. -/
def fpOf32 (b : Nat) : Fp :=
  let neg := decide (b / 2 ^ 31 % 2 = 1)
  let ex : Nat := b / 2 ^ 23 % 256
  let fr : Nat := b % 2 ^ 23
  if ex = 255 then (if fr = 0 then .inf neg else .nan)
  else if ex = 0 then .fin neg 0 0
  else .fin neg (2 ^ 23 + fr) ((ex : Int) - 150)

/-- The value of a bf16, the upper half of a binary32. -/
def fpOfBf (b : Nat) : Fp := fpOf32 (b % 65536 * 65536)

/-- The value of an integer. -/
def fpOfInt (i : Int) : Fp := .fin (decide (i < 0)) i.natAbs 0

/-- m × 2^-s rounded to nearest, ties to even. -/
def shiftRne (m s : Nat) : Nat :=
  let q := m / 2 ^ s
  let r := m % 2 ^ s
  if 2 * r > 2 ^ s ∨ (2 * r = 2 ^ s ∧ q % 2 = 1) then q + 1 else q

def signBit (neg : Bool) : Nat := if neg then 2 ^ 31 else 0

/-- The binary32 bits of a value rounded to `p` significant bits: 24 for f32, 8 for bf16. -/
def roundFp (p : Nat) : Fp → Nat
  | .nan => 0x7FC0_0000
  | .inf neg => signBit neg + 0x7F80_0000
  | .fin neg m e =>
    if m = 0 then signBit neg
    else
      let q : Int := max ((Nat.log2 m : Int) + e - p + 1) (-126 - p + 1)
      let k := if q ≤ e then m * 2 ^ (e - q).toNat else shiftRne m (q - e).toNat
      let (k, q) := if k = 2 ^ p then (2 ^ (p - 1), q + 1) else (k, q)
      let ex : Int := q + p - 1
      if k < 2 ^ (p - 1) then signBit neg
      else if 127 < ex then signBit neg + 0x7F80_0000
      else signBit neg + (ex + 127).toNat * 2 ^ 23 + (k - 2 ^ (p - 1)) * 2 ^ (24 - p)

def toF32 (x : Fp) : Nat := roundFp 24 x
def toBf (x : Fp) : Nat := roundFp 8 x / 65536

/-- The signed significand of a finite value at exponent `e0`, not above its own. -/
def alignTo (neg : Bool) (m : Nat) (e e0 : Int) : Int := (if neg then -1 else 1) * ((m * 2 ^ (e - e0).toNat : Nat) : Int)

/-- The exact sum. -/
def fpAdd : Fp → Fp → Fp
  | .nan, _ => .nan
  | _, .nan => .nan
  | .inf a, .inf b => if a = b then .inf a else .nan
  | .inf a, .fin _ _ _ => .inf a
  | .fin _ _ _, .inf b => .inf b
  | .fin na ma ea, .fin nb mb eb =>
    let e0 := min ea eb
    let s := alignTo na ma ea e0 + alignTo nb mb eb e0
    if s = 0 then .fin (na && nb && decide (ma = 0 ∧ mb = 0)) 0 0 else .fin (decide (s < 0)) s.natAbs e0

/-- The exact product. -/
def fpMul : Fp → Fp → Fp
  | .nan, _ => .nan
  | _, .nan => .nan
  | .inf a, .inf b => .inf (a != b)
  | .inf a, .fin nb mb _ => if mb = 0 then .nan else .inf (a != nb)
  | .fin na ma _, .inf b => if ma = 0 then .nan else .inf (na != b)
  | .fin na ma ea, .fin nb mb eb => .fin (na != nb) (ma * mb) (ea + eb)

def fpNeg : Fp → Fp
  | .nan => .nan
  | .inf a => .inf (!a)
  | .fin n m e => .fin (!n) m e

/-- Strictly less; false with a NaN. -/
def fpLt : Fp → Fp → Bool
  | .nan, _ => false
  | _, .nan => false
  | .inf a, .inf b => a && !b
  | .inf a, .fin _ _ _ => a
  | .fin _ _ _, .inf b => !b
  | .fin na ma ea, .fin nb mb eb =>
    let e0 := min ea eb
    decide (alignTo na ma ea e0 < alignTo nb mb eb e0)

/-- The i16 of a value: rounded to nearest even and saturated; 0 for a NaN. -/
def fpToI16 : Fp → Int
  | .nan => 0
  | .inf neg => if neg then -32768 else 32767
  | .fin neg m e =>
    let k := if 0 ≤ e then m * 2 ^ e.toNat else shiftRne m (-e).toNat
    if neg then -(min k 32768 : Nat) else (min k 32767 : Nat)

/-- The fixed tree of R286 over f32 bit patterns: neighbours first, rounded at each addition; `k` levels. -/
def treeSum : Nat → List Nat → Nat
  | 0, l => l.getD 0 0
  | k + 1, l => treeSum k ((List.range (l.length / 2)).map (fun i => toF32 (fpAdd (fpOf32 (l.getD (2 * i) 0)) (fpOf32 (l.getD (2 * i + 1) 0)))))

end Sys2Proof.Machine
end

