-- ==== Sys2Proof/Machine/Kreov.lean ====
section
/-! DEFINITION. The Kreov instruction set (R271–R301): every command here is one instruction that an engine executes. It takes place on an
engine that runs a body and whose word at PC is that instruction with those operands (Tables isa-3 and isa-4); otherwise nothing happens. -/

namespace Sys2Proof.Machine

/-- What one instruction comes to: the engine afterwards, with free values used; an exception (Table isa-9); a stall, in which nothing happens yet;
the end of the body by its verdict. -/
inductive KRes where
  | next (x : Eng) (free : Nat := 0)
  | exc (code : Nat)
  | stall
  | emit (w1 hint : Nat)

/-! ### Encodings (R275) -/

def kOp (w : Nat) : Nat := bitsAt w 26 6
def fA (w : Nat) : Nat := bitsAt w 21 5
def fB (w : Nat) : Nat := bitsAt w 16 5
def fC (w : Nat) : Nat := bitsAt w 11 5

def isR (func rd rs1 rs2 w : Nat) : Bool := decide (kOp w = 0x01 ∧ fA w = rd ∧ fB w = rs1 ∧ fC w = rs2 ∧ bitsAt w 0 11 = func)
def isI (op rd rs1 imm w : Nat) : Bool := decide (kOp w = op ∧ fA w = rd ∧ fB w = rs1 ∧ bitsAt w 0 16 = imm)
def isShift (kind rd rs1 amt w : Nat) : Bool := isI 0x08 rd rs1 (kind * 64 + amt) w && decide (amt < 64)
def isJ (rd off w : Nat) : Bool := decide (kOp w = 0x1E ∧ fA w = rd ∧ bitsAt w 0 21 = off)
def isV (op func vd vs1 vs2 pr typ w : Nat) : Bool :=
  decide (kOp w = op ∧ fA w = vd ∧ fB w = vs1 ∧ fC w = vs2 ∧ bitsAt w 8 3 = pr ∧ bitsAt w 6 2 = typ ∧ bitsAt w 0 6 = func)
def isVM (op vd rs1 pr off w : Nat) : Bool := decide (kOp w = op ∧ fA w = vd ∧ fB w = rs1 ∧ bitsAt w 13 3 = pr ∧ bitsAt w 0 13 = off)
def isVX (func vd rs1 lane typ w : Nat) : Bool :=
  decide (kOp w = 0x25 ∧ fA w = vd ∧ fB w = rs1 ∧ bitsAt w 10 6 = lane ∧ bitsAt w 8 2 = 0 ∧ bitsAt w 6 2 = typ ∧ bitsAt w 0 6 = func)
def isP (func pd ps1 ps2 rs w : Nat) : Bool :=
  decide (kOp w = 0x26 ∧ bitsAt w 23 3 = pd ∧ bitsAt w 20 3 = ps1 ∧ bitsAt w 17 3 = ps2 ∧ bitsAt w 12 5 = rs ∧ bitsAt w 6 6 = 0 ∧ bitsAt w 0 6 = func)
def isD (func a b c ch dir w : Nat) : Bool :=
  decide (kOp w = 0x30 ∧ fA w = a ∧ fB w = b ∧ fC w = c ∧ bitsAt w 9 2 = ch ∧ bitsAt w 8 1 = dir ∧ bitsAt w 6 2 = func ∧ bitsAt w 0 6 = 0)
def isEmit (rs1 rs2 w : Nat) : Bool := decide (kOp w = 0x3F ∧ fA w = 0 ∧ fB w = rs1 ∧ fC w = rs2 ∧ bitsAt w 0 11 = 0)

/-- Lanes of a type, and the width of one (Table isa-2). -/
def kLanes (typ : Nat) : Nat := [64, 32, 16, 32].getD typ 0
def kWidth (typ : Nat) : Nat := [8, 16, 32, 16].getD typ 8

/-- Whether a word is an instruction listed and well formed (R273, R275 and the ILLEGAL cases of each group). -/
def kLegal (w : Nat) : Bool :=
  let op := kOp w
  let f6 := bitsAt w 0 6
  let typ := bitsAt w 6 2
  let func := bitsAt w 0 11
  if op = 0x01 then decide (func ≤ 0x14) || (decide (func = 0x15 ∨ func = 0x16) && decide (fC w = 0))
  else if op = 0x08 then decide (bitsAt w 8 8 = 0 ∧ bitsAt w 6 2 ≠ 3)
  else if (2 ≤ op ∧ op ≤ 0x14) ∨ (0x18 ≤ op ∧ op ≤ 0x1F) ∨ op = 0x22 ∨ op = 0x23 then true
  else if op = 0x20 then
    if f6 ≤ 0x0F ∨ f6 = 0x14 then decide (typ ≠ 3)
    else if 0x10 ≤ f6 ∧ f6 ≤ 0x12 then decide (typ ≠ 3 ∧ fA w < 8)
    else if f6 = 0x18 ∨ f6 = 0x19 then decide (typ = 0)
    else if 0x1C ≤ f6 ∧ f6 ≤ 0x1F then decide (typ ≠ 3 ∧ fC w = 0)
    else if f6 = 0x20 then decide (typ ≤ 1)
    else if f6 = 0x21 ∨ f6 = 0x22 then decide (typ ≤ 1 ∧ fC w = 0)
    else false
  else if op = 0x21 then
    decide (typ = 3) && (decide (f6 ≤ 3 ∨ f6 = 5 ∨ f6 = 6 ∨ f6 = 8) || decide (f6 = 4 ∧ fA w % 2 = 0)
      || decide ((f6 = 9 ∨ f6 = 0x0A ∨ f6 = 0x10) ∧ fC w = 0) || decide (f6 = 0x0C ∧ fA w < 8))
  else if op = 0x24 then decide (f6 = 0 ∧ typ ≤ 1)
  else if op = 0x25 then decide (bitsAt w 8 2 = 0 ∧ f6 ≤ 2 ∧ bitsAt w 10 6 < kLanes typ ∧ (f6 ≠ 0 ∨ bitsAt w 10 6 = 0))
  else if op = 0x26 then
    let ps1 := bitsAt w 20 3
    let ps2 := bitsAt w 17 3
    let rs := bitsAt w 12 5
    decide (bitsAt w 6 6 = 0) && (decide (f6 ≤ 2 ∧ rs = 0) || decide (f6 = 3 ∧ ps2 = 0 ∧ rs = 0) || decide (f6 = 4 ∧ ps1 = 0 ∧ ps2 = 0)
      || decide (f6 = 5 ∧ bitsAt w 23 3 = 0 ∧ ps2 = 0))
  else if op = 0x30 then
    decide (f6 = 0) && (decide (typ = 0) || decide (typ = 1 ∧ fA w = 0 ∧ fB w = 0 ∧ fC w = 0 ∧ bitsAt w 8 1 = 0)
      || decide (typ = 2 ∧ fB w = 0 ∧ fC w = 0 ∧ bitsAt w 8 1 = 0))
  else if op = 0x38 then
    let imm := bitsAt w 0 16
    decide (fB w = 0) && (decide (imm = 1 ∨ imm = 2) || decide ((imm = 0 ∨ imm = 3 ∨ imm = 4) ∧ fA w = 0))
  else if op = 0x3F then decide (fA w = 0 ∧ func = 0)
  else false

/-! ### Registers and lanes (R271, R273, R274) -/

namespace Eng

def sReg (x : Eng) (i : Nat) : Nat := if i = 0 then 0 else Sparse.get x.s 0 i % 2 ^ 64
def setS (x : Eng) (i v : Nat) : Eng := if i = 0 then x else { x with s := Sparse.set x.s 0 i (v % 2 ^ 64) }
def vReg (x : Eng) (i : Nat) : Nat := Sparse.get x.v 0 i % 2 ^ 512
def setV (x : Eng) (i v : Nat) : Eng := { x with v := Sparse.set x.v 0 i (v % 2 ^ 512) }
def pReg (x : Eng) (i : Nat) : Nat := if i = 0 then 2 ^ 64 - 1 else Sparse.get x.p 0 i % 2 ^ 64
def setP (x : Eng) (i v : Nat) : Eng := if i = 0 then x else { x with p := Sparse.set x.p 0 i (v % 2 ^ 64) }

/-- The byte of local memory at an address, and `n` bytes as a little-endian number. -/
def byte (x : Eng) (a : Nat) : Nat := (Sparse.get x.mem (0 : Byte) a).toNat
def num (x : Eng) (a n : Nat) : Nat := leNat ((List.range n).map (fun i => x.byte (a + i)))

/-- The word at PC. -/
def word (x : Eng) : Nat := x.num x.pc 4

/-- The next instruction follows. -/
def step (x : Eng) : Eng := { x with pc := (x.pc + 4) % 65536 }

/-- A jump to a byte offset (R279). -/
def goto (x : Eng) (t : Int) : Eng := { x with pc := uns 16 t }

/-- Rights of Table eng-2 for one byte (R244, R280). -/
def inWindow (x : Eng) (a : Nat) : Bool := decide (winBase x.window ≤ a ∧ a < winBase x.window + 0x1_0000)
def readable (x : Eng) (a : Nat) : Bool := decide (a < 0x6_0000) || x.inWindow a
def writable (x : Eng) (a : Nat) : Bool := decide (0x5_0000 ≤ a ∧ a < 0x6_0000) || x.inWindow a

/-- An address touched by a transfer in flight that would have to complete first (R290): any read for a load, any transfer for a store. -/
def held (x : Eng) (store : Bool) (as : List Nat) : Bool :=
  x.xfers.any (fun t => (t.isRead || store) && as.any (fun a => decide (t.loc ≤ a ∧ a < t.loc + t.len)))

def busyCh (x : Eng) (ch : Nat) : Bool := x.xfers.any (fun t => t.ch = ch)

end Eng

/-- Lane i, `w` bits wide, of a vector. -/
def lane (v w i : Nat) : Nat := bitsAt v (w * i) w

/-- A vector from its lanes, `w` bits each. -/
def ofLanes (w : Nat) : List Nat → Nat
  | [] => 0
  | a :: l => a % 2 ^ w + 2 ^ w * ofLanes w l

/-- Bit i of a predicate. -/
def pbit (p i : Nat) : Bool := decide (p / 2 ^ i % 2 = 1)

/-- A vector whose enabled lanes are `f`, the others as in `old`. -/
def mapLanes (w n p old : Nat) (f : Nat → Nat) : Nat := ofLanes w ((List.range n).map (fun i => if pbit p i then f i else lane old w i))

def bits (n : Nat) (f : Nat → Bool) : Nat := ofLanes 1 ((List.range n).map (fun i => b2n (f i)))

/-- The lanes that a predicate enables, of a vector. -/
def enabledLanes (w n p v : Nat) : List Nat := ((List.range n).filter (pbit p)).map (lane v w)

/-- The best element of a list by a strict order; 0 for none. -/
def pickBest (better : Int → Int → Bool) : List Int → Int
  | [] => 0
  | a :: l => l.foldl (fun m x => if better x m then x else m) a

/-! ### Scalar instructions (R276–R279) -/

def quo64 (a b : Nat) : Nat :=
  if b = 0 then 0 else if sgn 64 a = -(2 ^ 63) ∧ sgn 64 b = -1 then 2 ^ 63 - 1 else uns 64 (Int.fdiv (sgn 64 a) (sgn 64 b))

def mod64 (a b : Nat) : Nat :=
  if b = 0 then 0 else if sgn 64 a = -(2 ^ 63) ∧ sgn 64 b = -1 then 0 else uns 64 (sgn 64 a - sgn 64 b * Int.fdiv (sgn 64 a) (sgn 64 b))

def kAlu (rd rs1 rs2 : Nat) (f : Nat → Nat → Nat) (_ : Dev) (x : Eng) : KRes := .next (x.setS rd (f (x.sReg rs1) (x.sReg rs2))).step
def kImm (rd rs1 imm : Nat) (f : Nat → Nat → Nat) (_ : Dev) (x : Eng) : KRes := .next (x.setS rd (f (x.sReg rs1) imm)).step

/-- The address rs1 + sign-extended imm16, within 64 bits. -/
def kAddr (x : Eng) (rs1 imm : Nat) : Nat := uns 64 (x.sReg rs1 + sgn 16 imm)

def kLoad (n : Nat) (signed : Bool) (rd rs1 imm : Nat) (_ : Dev) (x : Eng) : KRes :=
  let a := kAddr x rs1 imm
  let as := (List.range n).map (a + ·)
  if a % n ≠ 0 then .exc 0x04
  else if !as.all x.readable then .exc 0x05
  else if x.held false as then .stall
  else
    let v := x.num a n
    .next (x.setS rd (if signed then uns 64 (sgn (8 * n) v) else v)).step

def kStore (n rs2 rs1 imm : Nat) (_ : Dev) (x : Eng) : KRes :=
  let a := kAddr x rs1 imm
  let as := (List.range n).map (a + ·)
  if a % n ≠ 0 then .exc 0x04
  else if !as.all x.writable then .exc 0x06
  else if x.held true as then .stall
  else .next (Eng.step { x with mem := putCells x.mem a (leBytes n (x.sReg rs2)) })

def kBranch (rs1 rs2 off : Nat) (c : Nat → Nat → Bool) (_ : Dev) (x : Eng) : KRes :=
  .next (if c (x.sReg rs1) (x.sReg rs2) then x.goto (x.pc + 4 * sgn 16 off) else x.step)

def kCall (rd off : Nat) (_ : Dev) (x : Eng) : KRes := .next ((x.setS rd (x.pc + 4)).goto (x.pc + 4 * sgn 21 off))

/-- rs1 is taken before rd is written (R279). -/
def kJumpr (rd rs1 imm : Nat) (_ : Dev) (x : Eng) : KRes :=
  if x.sReg rs1 % 4 ≠ 0 then .exc 0x04 else .next ((x.setS rd (x.pc + 4)).goto (x.sReg rs1 + 4 * sgn 16 imm))

/-! ### Vector integer instructions (R283, R284) -/

def kVec (vd vs1 vs2 pr typ : Nat) (f : Nat → Nat → Nat → Nat) (_ : Dev) (x : Eng) : KRes :=
  if typ = 3 then .exc 0x02
  else
    let w := kWidth typ
    .next (x.setV vd (mapLanes w (kLanes typ) (x.pReg pr) (x.vReg vd) (fun i => f w (lane (x.vReg vs1) w i) (lane (x.vReg vs2) w i)))).step

def kCmp (vd vs1 vs2 pr typ : Nat) (f : Nat → Nat → Nat → Bool) (_ : Dev) (x : Eng) : KRes :=
  if typ = 3 ∨ 8 ≤ vd then .exc 0x02
  else
    let w := kWidth typ
    .next (x.setP vd (bits (kLanes typ) (fun i => pbit (x.pReg pr) i && f w (lane (x.vReg vs1) w i) (lane (x.vReg vs2) w i)))).step

def kSel (vd vs1 vs2 pr typ : Nat) (_ : Dev) (x : Eng) : KRes :=
  if typ = 3 then .exc 0x02
  else
    let w := kWidth typ
    .next (x.setV vd (mapLanes w (kLanes typ) (x.pReg pr) (x.vReg vs2) (fun i => lane (x.vReg vs1) w i))).step

/-- VDOT and VDOTU: the first factor signed or not, the second signed, four products into each i32 lane. -/
def kDot (signed : Bool) (vd vs1 vs2 pr typ : Nat) (_ : Dev) (x : Eng) : KRes :=
  if typ ≠ 0 then .exc 0x02
  else
    let a := fun i => if signed then sgn 8 (lane (x.vReg vs1) 8 i) else (lane (x.vReg vs1) 8 i : Int)
    let b := fun i => sgn 8 (lane (x.vReg vs2) 8 i)
    let dot := fun k => ((List.range 4).map (fun m => a (4 * k + m) * b (4 * k + m))).sum
    .next (x.setV vd (mapLanes 32 16 (x.pReg pr) (x.vReg vd) (fun k => uns 32 (sgn 32 (lane (x.vReg vd) 32 k) + dot k)))).step

def kRed (rd vs1 pr typ : Nat) (f : Nat → List Nat → Nat) (_ : Dev) (x : Eng) : KRes :=
  if typ = 3 then .exc 0x02
  else .next (x.setS rd (f (kWidth typ) (enabledLanes (kWidth typ) (kLanes typ) (x.pReg pr) (x.vReg vs1)))).step

def kNarrow (vd vs1 vs2 pr typ : Nat) (_ : Dev) (x : Eng) : KRes :=
  if 2 ≤ typ then .exc 0x02
  else
    let w := kWidth typ
    let n := kLanes typ
    let src := fun i => if i < n / 2 then lane (x.vReg vs1) (2 * w) i else lane (x.vReg vs2) (2 * w) (i - n / 2)
    .next (x.setV vd (mapLanes w n (x.pReg pr) (x.vReg vd) (fun i => uns w (satS w (sgn (2 * w) (src i)))))).step

def kWide (high : Bool) (vd vs1 pr typ : Nat) (_ : Dev) (x : Eng) : KRes :=
  if 2 ≤ typ then .exc 0x02
  else
    let w := kWidth typ
    let n := kLanes typ / 2
    .next (x.setV vd (mapLanes (2 * w) n (x.pReg pr) (x.vReg vd)
      (fun i => uns (2 * w) (sgn w (lane (x.vReg vs1) w (if high then i + n else i)))))).step

def kBcast (vd rs1 typ : Nat) (_ : Dev) (x : Eng) : KRes :=
  .next (x.setV vd (ofLanes (kWidth typ) (List.replicate (kLanes typ) (x.sReg rs1)))).step

def kExt (rd vs1 ln typ : Nat) (_ : Dev) (x : Eng) : KRes :=
  if kLanes typ ≤ ln then .exc 0x02
  else .next (x.setS rd (uns 64 (sgn (kWidth typ) (lane (x.vReg vs1) (kWidth typ) ln)))).step

def kIns (vd rs1 ln typ : Nat) (_ : Dev) (x : Eng) : KRes :=
  if kLanes typ ≤ ln then .exc 0x02
  else .next (x.setV vd (mapLanes (kWidth typ) (kLanes typ) (2 ^ ln) (x.vReg vd) (fun _ => x.sReg rs1))).step

/-! ### bf16 instructions (R285, R286) -/

/-- The bf16 group: type 3 and `legal` operands, then F_ISA_BF16 accepted (ILLEGAL stands before FEATURE in Table isa-9). -/
def kBf (typ : Nat) (f : Dev → Eng → KRes) (d : Dev) (x : Eng) (legal : Bool := true) : KRes :=
  if typ ≠ 3 ∨ legal = false then .exc 0x02 else if !d.feat 6 then .exc 0x03 else f d x

def kBfVec (vd vs1 vs2 pr : Nat) (f : Fp → Fp → Fp → Fp) (_ : Dev) (x : Eng) : KRes :=
  let at_ := fun v i => fpOfBf (lane (x.vReg v) 16 i)
  .next (x.setV vd (mapLanes 16 32 (x.pReg pr) (x.vReg vd) (fun i => toBf (f (at_ vd i) (at_ vs1 i) (at_ vs2 i))))).step

/-- VFMAW: products added in f32 to lane k of vd, or lane k − 16 of vd + 1. -/
def kFmaw (vd vs1 vs2 pr : Nat) (_ : Dev) (x : Eng) : KRes :=
  let p := x.pReg pr
  let acc := fun (v base i : Nat) =>
    toF32 (fpAdd (fpOf32 (lane (x.vReg v) 32 i)) (fpMul (fpOfBf (lane (x.vReg vs1) 16 (base + i))) (fpOfBf (lane (x.vReg vs2) 16 (base + i)))))
  let lo := mapLanes 32 16 p (x.vReg vd) (acc vd 0)
  let hi := mapLanes 32 16 (p / 2 ^ 16) (x.vReg (vd + 1)) (acc (vd + 1) 16)
  .next ((x.setV vd lo).setV (vd + 1) hi).step

/-- VFMAX and VFMIN: a NaN gives the other operand; which of two zeros of unlike sign is taken the spec does not say: a free value. -/
def kFminmax (max : Bool) (vd vs1 vs2 pr : Nat) (d : Dev) (x : Eng) : KRes :=
  let pick := fun (i : Nat) =>
    let a := fpOfBf (lane (x.vReg vs1) 16 i)
    let b := fpOfBf (lane (x.vReg vs2) 16 i)
    match a, b with
    | .nan, b => toBf b
    | a, .nan => toBf a
    | a, b => if fpLt a b then toBf (if max then b else a) else if fpLt b a then toBf (if max then a else b)
      else if a = b then toBf a else if d.freeAt i 1 = 0 then toBf a else toBf b
  .next (x.setV vd (mapLanes 16 32 (x.pReg pr) (x.vReg vd) pick)).step 32

def kCvtW2b (vd vs1 vs2 pr : Nat) (_ : Dev) (x : Eng) : KRes :=
  .next (x.setV vd (mapLanes 16 32 (x.pReg pr) (x.vReg vd)
    (fun i => toBf (fpOf32 (if i < 16 then lane (x.vReg vs1) 32 i else lane (x.vReg vs2) 32 (i - 16)))))).step

def kCvt (vd vs1 pr : Nat) (f : Nat → Nat) (_ : Dev) (x : Eng) : KRes :=
  .next (x.setV vd (mapLanes 16 32 (x.pReg pr) (x.vReg vd) (fun i => f (lane (x.vReg vs1) 16 i)))).step

/-- VFCMPLT. Unlike the comparisons of Table isa-6 its row gives disabled elements no result: their predicate bits, and those above the lane count, stay
(R274; log entry 108, DEDUCED). -/
def kFcmp (vd vs1 vs2 pr : Nat) (_ : Dev) (x : Eng) : KRes :=
  let lt := fun i => fpLt (fpOfBf (lane (x.vReg vs1) 16 i)) (fpOfBf (lane (x.vReg vs2) 16 i))
  .next (x.setP vd (bits 64 (fun i => if decide (i < 32) && pbit (x.pReg pr) i then lt i else pbit (x.pReg vd) i))).step

def kFredsum (rd vs1 pr : Nat) (_ : Dev) (x : Eng) : KRes :=
  .next (x.setS rd (treeSum 5 ((List.range 32).map (fun i => if pbit (x.pReg pr) i then toF32 (fpOfBf (lane (x.vReg vs1) 16 i)) else 0)))).step

/-! ### Vector memory and tables (R280–R282, R287) -/

/-- The bytes of a 64-byte access that the predicate enables: index and address. -/
def kBytes (x : Eng) (rs1 pr off : Nat) : List (Nat × Nat) :=
  ((List.range 64).filter (pbit (x.pReg pr))).map (fun i => (i, (x.sReg rs1 + uns 64 (4 * sgn 13 off) + i) % 2 ^ 64))

def kVld (vd rs1 pr off : Nat) (_ : Dev) (x : Eng) : KRes :=
  let bs := kBytes x rs1 pr off
  if x.sReg rs1 % 4 ≠ 0 then .exc 0x04
  else if !bs.all (fun b => x.readable b.2) then .exc 0x05
  else if x.held false (bs.map (·.2)) then .stall
  else
    let a := (x.sReg rs1 + uns 64 (4 * sgn 13 off)) % 2 ^ 64
    .next (x.setV vd (mapLanes 8 64 (x.pReg pr) (x.vReg vd) (fun i => x.byte ((a + i) % 2 ^ 64)))).step

def kVst (vs rs1 pr off : Nat) (_ : Dev) (x : Eng) : KRes :=
  let bs := kBytes x rs1 pr off
  if x.sReg rs1 % 4 ≠ 0 then .exc 0x04
  else if !bs.all (fun b => x.writable b.2) then .exc 0x06
  else if x.held true (bs.map (·.2)) then .stall
  else .next (Eng.step { x with mem := bs.foldl (fun m b => Sparse.set m 0 b.2 (BitVec.ofNat 8 (lane (x.vReg vs) 8 b.1))) x.mem })

def kVlut (vd vs1 rs pr typ : Nat) (_ : Dev) (x : Eng) : KRes :=
  if 2 ≤ typ then .exc 0x02
  else
    let base := x.sReg rs
    let w := kWidth typ
    let n := kLanes typ
    let p := x.pReg pr
    let at_ := fun i => (base + (if typ = 0 then 1 else 2) * lane (x.vReg vs1) w i) % 2 ^ 64
    let as := ((List.range n).filter (pbit p)).flatMap (fun i => if typ = 0 then [at_ i] else [at_ i, (at_ i + 1) % 2 ^ 64])
    if typ = 1 ∧ base % 2 ≠ 0 then .exc 0x04
    else if !as.all x.readable then .exc 0x07
    else if x.held false as then .stall
    else .next (x.setV vd (mapLanes w n p (x.vReg vd) (fun i => x.num (at_ i) (typ + 1)))).step

/-! ### Predicates, DMA, system (R274, R288–R295) -/

def kPred (pd ps1 ps2 : Nat) (f : Nat → Nat → Nat) (_ : Dev) (x : Eng) : KRes := .next (x.setP pd (f (x.pReg ps1) (x.pReg ps2))).step
def kPmovs (pd rs : Nat) (_ : Dev) (x : Eng) : KRes := .next (x.setP pd (x.sReg rs)).step
def kPmovp (rs ps1 : Nat) (_ : Dev) (x : Eng) : KRes := .next (x.setS rs (x.pReg ps1)).step

/-- The log window of an engine in HBM: base and size (Table eng-10). -/
def Dev.logWindow (d : Dev) (e : Nat) : Nat × Nat :=
  (d.get (F.ENG_LOGWIN_HI_BASE_HI e) * 2 ^ 32 + d.get (F.ENG_LOGWIN_LO_BASE_LO e) * 65536, d.get (F.ENG_LOGWIN_HI_SIZE e) * 65536)

/-- The rights of R246 for a remote range: reads from HBM outside every log window, or from the class banks; writes into the engine's own. An engine with
SIZE = 0 has no log window. -/
def Dev.remoteOk (d : Dev) (e : Nat) (write : Bool) (a n : Nat) : Bool :=
  if write then
    let (b, s) := d.logWindow e
    decide (b ≤ a ∧ a + n ≤ b + s ∧ a + n ≤ 0x4_0000_0000)
  else
    decide (0x4_4000_0000 ≤ a ∧ a + n ≤ 0x4_4002_0000)
      || (decide (a + n ≤ 0x4_0000_0000) && (List.range 64).all (fun e =>
        let (b, s) := d.logWindow e
        !decide (0 < s ∧ a < b + s ∧ b < a + n)))

/-- Whether a whole local range has a right; regions with one right adjoin only where the lower ends. -/
def localOk (x : Eng) (write : Bool) (a n : Nat) : Bool :=
  let w := winBase x.window
  let lo := if write then 0 else 0x5_0000
  decide (lo ≤ a ∧ a + n ≤ 0x6_0000) || decide (w ≤ a ∧ a + n ≤ w + 0x1_0000) || decide (x.window = 0 ∧ lo ≤ a ∧ a + n ≤ 0x7_0000)

def kDmaStart (e rloc rrem rlen ch dir : Nat) (d : Dev) (x : Eng) : KRes :=
  let loc := x.sReg rloc
  let rem := x.sReg rrem
  let len := x.sReg rlen
  if loc % 64 ≠ 0 ∨ rem % 64 ≠ 0 then .exc 0x04
  else if len % 64 ≠ 0 ∨ len < 64 ∨ 65536 < len then .exc 0x09
  else if !d.remoteOk e (decide (dir = 1)) rem len ∨ !localOk x (decide (dir = 1)) loc len then .exc 0x08
  else if x.busyCh ch ∨ x.xfers.any (fun t => (t.isRead || decide (dir = 0)) && decide (t.loc < loc + len ∧ loc < t.loc + t.len)) then .stall
  else
    let data := if dir = 1 then (List.range len).map (fun i => x.byte (loc + i)) else []
    .next (Eng.step { x with xfers := x.xfers ++ [⟨ch, decide (dir = 0), rem, loc, len, data⟩] })

def kWait (ch : Nat) (_ : Dev) (x : Eng) : KRes := if x.busyCh ch then .stall else .next x.step
def kStat (rd ch : Nat) (_ : Dev) (x : Eng) : KRes := .next (x.setS rd (b2n (x.busyCh ch))).step
def kNop (_ : Dev) (x : Eng) : KRes := .next x.step
def kTime (rd : Nat) (d : Dev) (x : Eng) : KRes := .next (x.setS rd d.now).step
def kCycle (e rd : Nat) (d : Dev) (x : Eng) : KRes := .next (x.setS rd (d.engCycles e)).step
def kRaise (code : Nat) (_ : Dev) (_ : Eng) : KRes := .exc code

/-- VEMIT: CONF, CODE, HINT_VALID and REJECT of s[rs1], HINT of s[rs2] (R293). -/
def kEmit (rs1 rs2 : Nat) (_ : Dev) (x : Eng) : KRes :=
  let v := x.sReg rs1
  .emit (bitsAt v 16 16 * 65536 + v % 4) (x.sReg rs2 % 2 ^ 32)

/-! ### Execution (R275, R281, R295, R296) -/

namespace Dev

/-- The instruction at PC of engine e, when its word `fits`: RUN_LIMIT before anything else, then its effect. -/
def kreov (d : Dev) (e : Nat) (fits : Nat → Bool) (f : Dev → Eng → KRes) : Dev :=
  let x := d.eng e
  let codeLen := match x.img with | some i => i.codeLen | none => 0
  if 64 ≤ e ∨ x.body.isNone ∨ codeLen ≤ x.pc ∨ !fits x.word then d
  else if x.limit * 1024 ≤ x.retired then d.engException e 0x10
  else match f d x with
    | .next y free => (d.setEng e { y with retired := y.retired + 1 }).freeUsed free
    | .exc code => d.engException e code
    | .stall => d
    | .emit w1 hint => (d.setEng e { x with retired := x.retired + 1 }).emitVerdict e w1 hint

/-- ILLEGAL_INSTRUCTION: the word at PC is no instruction, or PC has run off the code; the code listed first in Table isa-9 is raised. -/
def kIllegal (d : Dev) (e : Nat) : Dev :=
  let x := d.eng e
  let codeLen := match x.img with | some i => i.codeLen | none => 0
  if 64 ≤ e ∨ x.body.isNone ∨ (x.pc < codeLen ∧ kLegal x.word) then d
  else if x.limit * 1024 ≤ x.retired then d.engException e 0x10
  else d.engException e (if codeLen ≤ x.pc then 0x01 else 0x02)

/-- DMA_TRANSFER_DONE: the transfer of a channel completes (R290). While HBM is unusable a read from it ends its body as a hardware fault
(R268). -/
def dmaDone (d : Dev) (e ch : Nat) : Dev :=
  let x := d.eng e
  match x.xfers.find? (fun t => t.ch = ch) with
  | none => d
  | some t =>
    let rest := x.xfers.filter (fun u => u.ch ≠ ch)
    if t.isRead then
      if d.bit F.DEV_ENV_STAT_HBM_FAIL ∧ t.remote < 0x4_0000_0000 then (d.setEng e { x with xfers := rest }).engHwFault e 4
      else d.setEng e { x with xfers := rest, mem := copyCells d.mem t.remote t.len x.mem t.loc }
    else (d.setEng e { x with xfers := rest }).setBytes t.remote t.data

end Dev

/-! ### The meanings -/

def execAdd (e rd rs1 rs2 : Nat) (s : State) : Answer := s.run (·.kreov e (isR 0x000 rd rs1 rs2) (kAlu rd rs1 rs2 (fun a b => a + b)))
def execSub (e rd rs1 rs2 : Nat) (s : State) : Answer := s.run (·.kreov e (isR 0x001 rd rs1 rs2) (kAlu rd rs1 rs2 (fun a b => a + 2 ^ 64 - b)))
def execAnd (e rd rs1 rs2 : Nat) (s : State) : Answer := s.run (·.kreov e (isR 0x002 rd rs1 rs2) (kAlu rd rs1 rs2 (fun a b => a &&& b)))
def execOr (e rd rs1 rs2 : Nat) (s : State) : Answer := s.run (·.kreov e (isR 0x003 rd rs1 rs2) (kAlu rd rs1 rs2 (fun a b => a ||| b)))
def execXor (e rd rs1 rs2 : Nat) (s : State) : Answer := s.run (·.kreov e (isR 0x004 rd rs1 rs2) (kAlu rd rs1 rs2 (fun a b => a ^^^ b)))
def execShl (e rd rs1 rs2 : Nat) (s : State) : Answer := s.run (·.kreov e (isR 0x005 rd rs1 rs2) (kAlu rd rs1 rs2 (fun a b => a * 2 ^ (b % 64))))
def execShr (e rd rs1 rs2 : Nat) (s : State) : Answer := s.run (·.kreov e (isR 0x006 rd rs1 rs2) (kAlu rd rs1 rs2 (fun a b => a / 2 ^ (b % 64))))
def execSar (e rd rs1 rs2 : Nat) (s : State) : Answer := s.run (·.kreov e (isR 0x007 rd rs1 rs2) (kAlu rd rs1 rs2 (fun a b => uns 64 (sgn 64 a / 2 ^ (b % 64)))))
def execCmplt (e rd rs1 rs2 : Nat) (s : State) : Answer := s.run (·.kreov e (isR 0x008 rd rs1 rs2) (kAlu rd rs1 rs2 (fun a b => b2n (decide (sgn 64 a < sgn 64 b)))))
def execCmplo (e rd rs1 rs2 : Nat) (s : State) : Answer := s.run (·.kreov e (isR 0x009 rd rs1 rs2) (kAlu rd rs1 rs2 (fun a b => b2n (decide (a < b)))))
def execMul (e rd rs1 rs2 : Nat) (s : State) : Answer := s.run (·.kreov e (isR 0x00A rd rs1 rs2) (kAlu rd rs1 rs2 (fun a b => a * b)))
def execMulhu (e rd rs1 rs2 : Nat) (s : State) : Answer := s.run (·.kreov e (isR 0x00B rd rs1 rs2) (kAlu rd rs1 rs2 (fun a b => a * b / 2 ^ 64)))
def execMulhs (e rd rs1 rs2 : Nat) (s : State) : Answer := s.run (·.kreov e (isR 0x00C rd rs1 rs2) (kAlu rd rs1 rs2 (fun a b => uns 64 (sgn 64 a * sgn 64 b / 2 ^ 64))))
def execQuou (e rd rs1 rs2 : Nat) (s : State) : Answer := s.run (·.kreov e (isR 0x00D rd rs1 rs2) (kAlu rd rs1 rs2 (fun a b => if b = 0 then 0 else a / b)))
def execModu (e rd rs1 rs2 : Nat) (s : State) : Answer := s.run (·.kreov e (isR 0x00E rd rs1 rs2) (kAlu rd rs1 rs2 (fun a b => if b = 0 then 0 else a % b)))
def execQuo (e rd rs1 rs2 : Nat) (s : State) : Answer := s.run (·.kreov e (isR 0x00F rd rs1 rs2) (kAlu rd rs1 rs2 (fun a b => quo64 a b)))
def execMod (e rd rs1 rs2 : Nat) (s : State) : Answer := s.run (·.kreov e (isR 0x010 rd rs1 rs2) (kAlu rd rs1 rs2 (fun a b => mod64 a b)))
def execMin (e rd rs1 rs2 : Nat) (s : State) : Answer := s.run (·.kreov e (isR 0x011 rd rs1 rs2) (kAlu rd rs1 rs2 (fun a b => if sgn 64 a ≤ sgn 64 b then a else b)))
def execMax (e rd rs1 rs2 : Nat) (s : State) : Answer := s.run (·.kreov e (isR 0x012 rd rs1 rs2) (kAlu rd rs1 rs2 (fun a b => if sgn 64 a ≤ sgn 64 b then b else a)))
def execMinu (e rd rs1 rs2 : Nat) (s : State) : Answer := s.run (·.kreov e (isR 0x013 rd rs1 rs2) (kAlu rd rs1 rs2 (fun a b => min a b)))
def execMaxu (e rd rs1 rs2 : Nat) (s : State) : Answer := s.run (·.kreov e (isR 0x014 rd rs1 rs2) (kAlu rd rs1 rs2 (fun a b => max a b)))
def execClz (e rd rs1 : Nat) (s : State) : Answer := s.run (·.kreov e (isR 0x015 rd rs1 0) (kAlu rd rs1 0 (fun a _ => if a = 0 then 64 else 63 - Nat.log2 a)))
def execPopc (e rd rs1 : Nat) (s : State) : Answer := s.run (·.kreov e (isR 0x016 rd rs1 0) (kAlu rd rs1 0 (fun a _ => popCount 64 a)))
def execAddi (e rd rs1 imm : Nat) (s : State) : Answer := s.run (·.kreov e (isI 0x02 rd rs1 imm) (kImm rd rs1 imm (fun a i => a + uns 64 (sgn 16 i))))
def execAndi (e rd rs1 imm : Nat) (s : State) : Answer := s.run (·.kreov e (isI 0x03 rd rs1 imm) (kImm rd rs1 imm (fun a i => a &&& i)))
def execOri (e rd rs1 imm : Nat) (s : State) : Answer := s.run (·.kreov e (isI 0x04 rd rs1 imm) (kImm rd rs1 imm (fun a i => a ||| i)))
def execXori (e rd rs1 imm : Nat) (s : State) : Answer := s.run (·.kreov e (isI 0x05 rd rs1 imm) (kImm rd rs1 imm (fun a i => a ^^^ i)))
def execCmplti (e rd rs1 imm : Nat) (s : State) : Answer := s.run (·.kreov e (isI 0x06 rd rs1 imm) (kImm rd rs1 imm (fun a i => b2n (decide (sgn 64 a < sgn 16 i)))))
def execCmploi (e rd rs1 imm : Nat) (s : State) : Answer := s.run (·.kreov e (isI 0x07 rd rs1 imm) (kImm rd rs1 imm (fun a i => b2n (decide (a < i)))))
def execShli (e rd rs1 amt : Nat) (s : State) : Answer := s.run (·.kreov e (isShift 0 rd rs1 amt) (kImm rd rs1 amt (fun a n => a * 2 ^ n)))
def execShri (e rd rs1 amt : Nat) (s : State) : Answer := s.run (·.kreov e (isShift 1 rd rs1 amt) (kImm rd rs1 amt (fun a n => a / 2 ^ n)))
def execSari (e rd rs1 amt : Nat) (s : State) : Answer := s.run (·.kreov e (isShift 2 rd rs1 amt) (kImm rd rs1 amt (fun a n => uns 64 (sgn 64 a / 2 ^ n))))
def execAddhi (e rd rs1 imm : Nat) (s : State) : Answer := s.run (·.kreov e (isI 0x09 rd rs1 imm) (kImm rd rs1 imm (fun a i => a + uns 64 (sgn 16 i * 65536))))
def execLd8 (e rd rs1 imm : Nat) (s : State) : Answer := s.run (·.kreov e (isI 0x0A rd rs1 imm) (kLoad 1 true rd rs1 imm))
def execLd8u (e rd rs1 imm : Nat) (s : State) : Answer := s.run (·.kreov e (isI 0x0B rd rs1 imm) (kLoad 1 false rd rs1 imm))
def execLd16 (e rd rs1 imm : Nat) (s : State) : Answer := s.run (·.kreov e (isI 0x0C rd rs1 imm) (kLoad 2 true rd rs1 imm))
def execLd16u (e rd rs1 imm : Nat) (s : State) : Answer := s.run (·.kreov e (isI 0x0D rd rs1 imm) (kLoad 2 false rd rs1 imm))
def execLd32 (e rd rs1 imm : Nat) (s : State) : Answer := s.run (·.kreov e (isI 0x0E rd rs1 imm) (kLoad 4 true rd rs1 imm))
def execLd32u (e rd rs1 imm : Nat) (s : State) : Answer := s.run (·.kreov e (isI 0x0F rd rs1 imm) (kLoad 4 false rd rs1 imm))
def execLd64 (e rd rs1 imm : Nat) (s : State) : Answer := s.run (·.kreov e (isI 0x10 rd rs1 imm) (kLoad 8 false rd rs1 imm))
def execSt8 (e rs2 rs1 imm : Nat) (s : State) : Answer := s.run (·.kreov e (isI 0x11 rs2 rs1 imm) (kStore 1 rs2 rs1 imm))
def execSt16 (e rs2 rs1 imm : Nat) (s : State) : Answer := s.run (·.kreov e (isI 0x12 rs2 rs1 imm) (kStore 2 rs2 rs1 imm))
def execSt32 (e rs2 rs1 imm : Nat) (s : State) : Answer := s.run (·.kreov e (isI 0x13 rs2 rs1 imm) (kStore 4 rs2 rs1 imm))
def execSt64 (e rs2 rs1 imm : Nat) (s : State) : Answer := s.run (·.kreov e (isI 0x14 rs2 rs1 imm) (kStore 8 rs2 rs1 imm))
def execBrEq (e rs1 rs2 off : Nat) (s : State) : Answer := s.run (·.kreov e (isI 0x18 rs1 rs2 off) (kBranch rs1 rs2 off (fun a b => decide (a = b))))
def execBrNe (e rs1 rs2 off : Nat) (s : State) : Answer := s.run (·.kreov e (isI 0x19 rs1 rs2 off) (kBranch rs1 rs2 off (fun a b => decide (a ≠ b))))
def execBrLt (e rs1 rs2 off : Nat) (s : State) : Answer := s.run (·.kreov e (isI 0x1A rs1 rs2 off) (kBranch rs1 rs2 off (fun a b => decide (sgn 64 a < sgn 64 b))))
def execBrGe (e rs1 rs2 off : Nat) (s : State) : Answer := s.run (·.kreov e (isI 0x1B rs1 rs2 off) (kBranch rs1 rs2 off (fun a b => decide (sgn 64 b ≤ sgn 64 a))))
def execBrLo (e rs1 rs2 off : Nat) (s : State) : Answer := s.run (·.kreov e (isI 0x1C rs1 rs2 off) (kBranch rs1 rs2 off (fun a b => decide (a < b))))
def execBrHs (e rs1 rs2 off : Nat) (s : State) : Answer := s.run (·.kreov e (isI 0x1D rs1 rs2 off) (kBranch rs1 rs2 off (fun a b => decide (b ≤ a))))
def execCall (e rd off : Nat) (s : State) : Answer := s.run (·.kreov e (isJ rd off) (kCall rd off))
def execJumpr (e rd rs1 imm : Nat) (s : State) : Answer := s.run (·.kreov e (isI 0x1F rd rs1 imm) (kJumpr rd rs1 imm))
def execVadd (e vd vs1 vs2 pr typ : Nat) (s : State) : Answer := s.run (·.kreov e (isV 0x20 0x00 vd vs1 vs2 pr typ) (kVec vd vs1 vs2 pr typ (fun _ a b => a + b)))
def execVsub (e vd vs1 vs2 pr typ : Nat) (s : State) : Answer := s.run (·.kreov e (isV 0x20 0x01 vd vs1 vs2 pr typ) (kVec vd vs1 vs2 pr typ (fun w a b => a + 2 ^ w - b)))
def execVmul (e vd vs1 vs2 pr typ : Nat) (s : State) : Answer := s.run (·.kreov e (isV 0x20 0x02 vd vs1 vs2 pr typ) (kVec vd vs1 vs2 pr typ (fun _ a b => a * b)))
def execVmulh (e vd vs1 vs2 pr typ : Nat) (s : State) : Answer := s.run (·.kreov e (isV 0x20 0x03 vd vs1 vs2 pr typ) (kVec vd vs1 vs2 pr typ (fun w a b => uns w (sgn w a * sgn w b / 2 ^ w))))
def execVmin (e vd vs1 vs2 pr typ : Nat) (s : State) : Answer := s.run (·.kreov e (isV 0x20 0x04 vd vs1 vs2 pr typ) (kVec vd vs1 vs2 pr typ (fun w a b => if sgn w a ≤ sgn w b then a else b)))
def execVmax (e vd vs1 vs2 pr typ : Nat) (s : State) : Answer := s.run (·.kreov e (isV 0x20 0x05 vd vs1 vs2 pr typ) (kVec vd vs1 vs2 pr typ (fun w a b => if sgn w a ≤ sgn w b then b else a)))
def execVminu (e vd vs1 vs2 pr typ : Nat) (s : State) : Answer := s.run (·.kreov e (isV 0x20 0x06 vd vs1 vs2 pr typ) (kVec vd vs1 vs2 pr typ (fun _ a b => min a b)))
def execVmaxu (e vd vs1 vs2 pr typ : Nat) (s : State) : Answer := s.run (·.kreov e (isV 0x20 0x07 vd vs1 vs2 pr typ) (kVec vd vs1 vs2 pr typ (fun _ a b => max a b)))
def execVand (e vd vs1 vs2 pr typ : Nat) (s : State) : Answer := s.run (·.kreov e (isV 0x20 0x08 vd vs1 vs2 pr typ) (kVec vd vs1 vs2 pr typ (fun _ a b => a &&& b)))
def execVor (e vd vs1 vs2 pr typ : Nat) (s : State) : Answer := s.run (·.kreov e (isV 0x20 0x09 vd vs1 vs2 pr typ) (kVec vd vs1 vs2 pr typ (fun _ a b => a ||| b)))
def execVxor (e vd vs1 vs2 pr typ : Nat) (s : State) : Answer := s.run (·.kreov e (isV 0x20 0x0A vd vs1 vs2 pr typ) (kVec vd vs1 vs2 pr typ (fun _ a b => a ^^^ b)))
def execVsll (e vd vs1 vs2 pr typ : Nat) (s : State) : Answer := s.run (·.kreov e (isV 0x20 0x0B vd vs1 vs2 pr typ) (kVec vd vs1 vs2 pr typ (fun w a b => a * 2 ^ (b % w))))
def execVsrl (e vd vs1 vs2 pr typ : Nat) (s : State) : Answer := s.run (·.kreov e (isV 0x20 0x0C vd vs1 vs2 pr typ) (kVec vd vs1 vs2 pr typ (fun w a b => a / 2 ^ (b % w))))
def execVsra (e vd vs1 vs2 pr typ : Nat) (s : State) : Answer := s.run (·.kreov e (isV 0x20 0x0D vd vs1 vs2 pr typ) (kVec vd vs1 vs2 pr typ (fun w a b => uns w (sgn w a / 2 ^ (b % w)))))
def execVadds (e vd vs1 vs2 pr typ : Nat) (s : State) : Answer := s.run (·.kreov e (isV 0x20 0x0E vd vs1 vs2 pr typ) (kVec vd vs1 vs2 pr typ (fun w a b => uns w (satS w (sgn w a + sgn w b)))))
def execVsubs (e vd vs1 vs2 pr typ : Nat) (s : State) : Answer := s.run (·.kreov e (isV 0x20 0x0F vd vs1 vs2 pr typ) (kVec vd vs1 vs2 pr typ (fun w a b => uns w (satS w (sgn w a - sgn w b)))))
def execVcmpeq (e vd vs1 vs2 pr typ : Nat) (s : State) : Answer := s.run (·.kreov e (isV 0x20 0x10 vd vs1 vs2 pr typ) (kCmp vd vs1 vs2 pr typ (fun _ a b => decide (a = b))))
def execVcmplt (e vd vs1 vs2 pr typ : Nat) (s : State) : Answer := s.run (·.kreov e (isV 0x20 0x11 vd vs1 vs2 pr typ) (kCmp vd vs1 vs2 pr typ (fun w a b => decide (sgn w a < sgn w b))))
def execVcmpltu (e vd vs1 vs2 pr typ : Nat) (s : State) : Answer := s.run (·.kreov e (isV 0x20 0x12 vd vs1 vs2 pr typ) (kCmp vd vs1 vs2 pr typ (fun _ a b => decide (a < b))))
def execVsel (e vd vs1 vs2 pr typ : Nat) (s : State) : Answer := s.run (·.kreov e (isV 0x20 0x14 vd vs1 vs2 pr typ) (kSel vd vs1 vs2 pr typ))
def execVdot (e vd vs1 vs2 pr typ : Nat) (s : State) : Answer := s.run (·.kreov e (isV 0x20 0x18 vd vs1 vs2 pr typ) (kDot true vd vs1 vs2 pr typ))
def execVdotu (e vd vs1 vs2 pr typ : Nat) (s : State) : Answer := s.run (·.kreov e (isV 0x20 0x19 vd vs1 vs2 pr typ) (kDot false vd vs1 vs2 pr typ))
def execVredsum (e rd vs1 pr typ : Nat) (s : State) : Answer := s.run (·.kreov e (isV 0x20 0x1C rd vs1 0 pr typ) (kRed rd vs1 pr typ (fun w l => uns 64 (l.map (sgn w)).sum)))
def execVredsumu (e rd vs1 pr typ : Nat) (s : State) : Answer := s.run (·.kreov e (isV 0x20 0x1D rd vs1 0 pr typ) (kRed rd vs1 pr typ (fun _ l => l.sum)))
def execVredmax (e rd vs1 pr typ : Nat) (s : State) : Answer := s.run (·.kreov e (isV 0x20 0x1E rd vs1 0 pr typ) (kRed rd vs1 pr typ (fun w l => uns 64 (pickBest (fun x y => decide (y < x)) (l.map (sgn w))))))
def execVredmin (e rd vs1 pr typ : Nat) (s : State) : Answer := s.run (·.kreov e (isV 0x20 0x1F rd vs1 0 pr typ) (kRed rd vs1 pr typ (fun w l => uns 64 (pickBest (fun x y => decide (x < y)) (l.map (sgn w))))))
def execVnarrow (e vd vs1 vs2 pr typ : Nat) (s : State) : Answer := s.run (·.kreov e (isV 0x20 0x20 vd vs1 vs2 pr typ) (kNarrow vd vs1 vs2 pr typ))
def execVwidel (e vd vs1 pr typ : Nat) (s : State) : Answer := s.run (·.kreov e (isV 0x20 0x21 vd vs1 0 pr typ) (kWide false vd vs1 pr typ))
def execVwideh (e vd vs1 pr typ : Nat) (s : State) : Answer := s.run (·.kreov e (isV 0x20 0x22 vd vs1 0 pr typ) (kWide true vd vs1 pr typ))
def execVfadd (e vd vs1 vs2 pr typ : Nat) (s : State) : Answer := s.run (·.kreov e (isV 0x21 0x00 vd vs1 vs2 pr typ) (kBf typ (kBfVec vd vs1 vs2 pr (fun _ a b => fpAdd a b))))
def execVfsub (e vd vs1 vs2 pr typ : Nat) (s : State) : Answer := s.run (·.kreov e (isV 0x21 0x01 vd vs1 vs2 pr typ) (kBf typ (kBfVec vd vs1 vs2 pr (fun _ a b => fpAdd a (fpNeg b)))))
def execVfmul (e vd vs1 vs2 pr typ : Nat) (s : State) : Answer := s.run (·.kreov e (isV 0x21 0x02 vd vs1 vs2 pr typ) (kBf typ (kBfVec vd vs1 vs2 pr (fun _ a b => fpMul a b))))
def execVfma (e vd vs1 vs2 pr typ : Nat) (s : State) : Answer := s.run (·.kreov e (isV 0x21 0x03 vd vs1 vs2 pr typ) (kBf typ (kBfVec vd vs1 vs2 pr (fun c a b => fpAdd c (fpMul a b)))))
def execVfmaw (e vd vs1 vs2 pr typ : Nat) (s : State) : Answer := s.run (·.kreov e (isV 0x21 0x04 vd vs1 vs2 pr typ) (fun d x => kBf typ (kFmaw vd vs1 vs2 pr) d x (decide (vd % 2 = 0))))
def execVfmax (e vd vs1 vs2 pr typ : Nat) (s : State) : Answer := s.run (·.kreov e (isV 0x21 0x05 vd vs1 vs2 pr typ) (kBf typ (kFminmax true vd vs1 vs2 pr)))
def execVfmin (e vd vs1 vs2 pr typ : Nat) (s : State) : Answer := s.run (·.kreov e (isV 0x21 0x06 vd vs1 vs2 pr typ) (kBf typ (kFminmax false vd vs1 vs2 pr)))
def execVfcvtw2b (e vd vs1 vs2 pr typ : Nat) (s : State) : Answer := s.run (·.kreov e (isV 0x21 0x08 vd vs1 vs2 pr typ) (kBf typ (kCvtW2b vd vs1 vs2 pr)))
def execVfcvti2b (e vd vs1 pr typ : Nat) (s : State) : Answer := s.run (·.kreov e (isV 0x21 0x09 vd vs1 0 pr typ) (kBf typ (kCvt vd vs1 pr (fun a => toBf (fpOfInt (sgn 16 a))))))
def execVfcvtb2i (e vd vs1 pr typ : Nat) (s : State) : Answer := s.run (·.kreov e (isV 0x21 0x0A vd vs1 0 pr typ) (kBf typ (kCvt vd vs1 pr (fun a => uns 16 (fpToI16 (fpOfBf a))))))
def execVfcmplt (e vd vs1 vs2 pr typ : Nat) (s : State) : Answer := s.run (·.kreov e (isV 0x21 0x0C vd vs1 vs2 pr typ) (fun d x => kBf typ (kFcmp vd vs1 vs2 pr) d x (decide (vd < 8))))
def execVfredsum (e rd vs1 pr typ : Nat) (s : State) : Answer := s.run (·.kreov e (isV 0x21 0x10 rd vs1 0 pr typ) (kBf typ (kFredsum rd vs1 pr)))
def execVld (e vd rs1 pr off : Nat) (s : State) : Answer := s.run (·.kreov e (isVM 0x22 vd rs1 pr off) (kVld vd rs1 pr off))
def execVst (e vs rs1 pr off : Nat) (s : State) : Answer := s.run (·.kreov e (isVM 0x23 vs rs1 pr off) (kVst vs rs1 pr off))
def execVlut (e vd vs1 rs pr typ : Nat) (s : State) : Answer := s.run (·.kreov e (isV 0x24 0x00 vd vs1 rs pr typ) (kVlut vd vs1 rs pr typ))
def execVbcast (e vd rs1 typ : Nat) (s : State) : Answer := s.run (·.kreov e (isVX 0 vd rs1 0 typ) (kBcast vd rs1 typ))
def execVext (e rd vs1 lane typ : Nat) (s : State) : Answer := s.run (·.kreov e (isVX 1 rd vs1 lane typ) (kExt rd vs1 lane typ))
def execVins (e vd rs1 lane typ : Nat) (s : State) : Answer := s.run (·.kreov e (isVX 2 vd rs1 lane typ) (kIns vd rs1 lane typ))
def execPand (e pd ps1 ps2 : Nat) (s : State) : Answer := s.run (·.kreov e (isP 0 pd ps1 ps2 0) (kPred pd ps1 ps2 (fun a b => a &&& b)))
def execPor (e pd ps1 ps2 : Nat) (s : State) : Answer := s.run (·.kreov e (isP 1 pd ps1 ps2 0) (kPred pd ps1 ps2 (fun a b => a ||| b)))
def execPxor (e pd ps1 ps2 : Nat) (s : State) : Answer := s.run (·.kreov e (isP 2 pd ps1 ps2 0) (kPred pd ps1 ps2 (fun a b => a ^^^ b)))
def execPnot (e pd ps1 : Nat) (s : State) : Answer := s.run (·.kreov e (isP 3 pd ps1 0 0) (kPred pd ps1 0 (fun a _ => 2 ^ 64 - 1 - a)))
def execPmovs (e pd rs : Nat) (s : State) : Answer := s.run (·.kreov e (isP 4 pd 0 0 rs) (kPmovs pd rs))
def execPmovp (e rs ps1 : Nat) (s : State) : Answer := s.run (·.kreov e (isP 5 0 ps1 0 rs) (kPmovp rs ps1))
def execDmaStart (e rloc rrem rlen ch dir : Nat) (s : State) : Answer := s.run (·.kreov e (isD 0 rloc rrem rlen ch dir) (kDmaStart e rloc rrem rlen ch dir))
def execWait (e ch : Nat) (s : State) : Answer := s.run (·.kreov e (isD 1 0 0 0 ch 0) (kWait ch))
def execStat (e rd ch : Nat) (s : State) : Answer := s.run (·.kreov e (isD 2 rd 0 0 ch 0) (kStat rd ch))
def execNopInstruction (e : Nat) (s : State) : Answer := s.run (·.kreov e (isI 0x38 0 0 0) kNop)
def execTime (e rd : Nat) (s : State) : Answer := s.run (·.kreov e (isI 0x38 rd 0 1) (kTime rd))
def execCycle (e rd : Nat) (s : State) : Answer := s.run (·.kreov e (isI 0x38 rd 0 2) (kCycle e rd))
def execBrk (e : Nat) (s : State) : Answer := s.run (·.kreov e (isI 0x38 0 0 3) (kRaise 0x0A))
def execAbandon (e : Nat) (s : State) : Answer := s.run (·.kreov e (isI 0x38 0 0 4) (kRaise 0x0B))
def execVemit (e rs1 rs2 : Nat) (s : State) : Answer := s.run (·.kreov e (isEmit rs1 rs2) (kEmit rs1 rs2))
def execIllegalInstruction (e : Nat) (s : State) : Answer := s.run (·.kIllegal e)
def execDmaTransferDone (e ch : Nat) (s : State) : Answer := s.run (·.dmaDone e ch)

end Sys2Proof.Machine
end

