-- ==== Sys2Proof/Machine/Dispatch.lean ====
section
/-! DEFINITION. One arm per command: its meaning. -/

namespace Sys2Proof.Machine

/-- The effect of a command on everything but the queue. -/
def exec (i : Instr) (s : State) : Host.Outcome State Fault Refusal :=
  match i with
  | .porstAssert => Sys2Proof.Machine.execPorstAssert s
  | .aonUnderVoltage => Sys2Proof.Machine.execAonUnderVoltage s
  | .porstRelease bootSrc tethRoot twinSide => Sys2Proof.Machine.execPorstRelease bootSrc tethRoot twinSide s
  | .startupComplete readable single mem dlys devs => Sys2Proof.Machine.execStartupComplete readable single mem dlys devs s
  | .warmRstN => Sys2Proof.Machine.execWarmRstN s
  | .vesperWatchdog => Sys2Proof.Machine.execVesperWatchdog s
  | .underVoltageReset sram => Sys2Proof.Machine.execUnderVoltageReset sram s
  | .thermalTrip temps => Sys2Proof.Machine.execThermalTrip temps s
  | .thermalAlarm temps => Sys2Proof.Machine.execThermalAlarm temps s
  | .throttleEntry temps => Sys2Proof.Machine.execThrottleEntry temps s
  | .throttleRelease temps => Sys2Proof.Machine.execThrottleRelease temps s
  | .hostReset perst => Sys2Proof.Machine.execHostReset perst s
  | .pciePerstRelease speed width => Sys2Proof.Machine.execPciePerstRelease speed width s
  | .pcieBmeChange req d3 => Sys2Proof.Machine.execPcieBmeChange req d3 s
  | .refclkSysLost => Sys2Proof.Machine.execRefclkSysLost s
  | .refclkTimeLost => Sys2Proof.Machine.execRefclkTimeLost s
  | .refclkTimeReturn => Sys2Proof.Machine.execRefclkTimeReturn s
  | .refclkLaneLost => Sys2Proof.Machine.execRefclkLaneLost s
  | .refclkLaneReturn => Sys2Proof.Machine.execRefclkLaneReturn s
  | .vesperSramUe => Sys2Proof.Machine.execVesperSramUe s
  | .vesperInternal => Sys2Proof.Machine.execVesperInternal s
  | .smbusRead kind code => Sys2Proof.Machine.execSmbusRead kind code s
  | .smbusAlertResponse => Sys2Proof.Machine.execSmbusAlertResponse s
  | .ethModPresent e bytes => Sys2Proof.Machine.execEthModPresent e bytes s
  | .registerWrite addr size word => Sys2Proof.Machine.execRegisterWrite addr size word s
  | .blkEnable page v => Sys2Proof.Machine.execBlkEnable page v s
  | .softReset page => Sys2Proof.Machine.execSoftReset page s
  | .blkTest page v => Sys2Proof.Machine.execBlkTest page v s
  | .freeze page v => Sys2Proof.Machine.execFreeze page v s
  | .offlineReq page v => Sys2Proof.Machine.execOfflineReq page v s
  | .blockOffline page => Sys2Proof.Machine.execBlockOffline page s
  | .blkIrqStatWrite page value hw => Sys2Proof.Machine.execBlkIrqStatWrite page value hw s
  | .blkErrCodeRead access => Sys2Proof.Machine.execBlkErrCodeRead access s
  | .blkLockWrite page value => Sys2Proof.Machine.execBlkLockWrite page value s
  | .devFeatCommit value => Sys2Proof.Machine.execDevFeatCommit value s
  | .commitDone => Sys2Proof.Machine.execCommitDone s
  | .irqRouteWrite n value => Sys2Proof.Machine.execIrqRouteWrite n value s
  | .irqRearm n value => Sys2Proof.Machine.execIrqRearm n value s
  | .cmdSubmit value => Sys2Proof.Machine.execCmdSubmit value s
  | .cmdTimeout => Sys2Proof.Machine.execCmdTimeout s
  | .nop => Sys2Proof.Machine.execNop s
  | .configure => Sys2Proof.Machine.execConfigure s
  | .deconfigure => Sys2Proof.Machine.execDeconfigure s
  | .renegotiate => Sys2Proof.Machine.execRenegotiate s
  | .start => Sys2Proof.Machine.execStart s
  | .stopDrain => Sys2Proof.Machine.execStopDrain s
  | .drainComplete => Sys2Proof.Machine.execDrainComplete s
  | .stopImmediate => Sys2Proof.Machine.execStopImmediate s
  | .enterTwilight => Sys2Proof.Machine.execEnterTwilight s
  | .enterEclipse => Sys2Proof.Machine.execEnterEclipse s
  | .resume => Sys2Proof.Machine.execResume s
  | .handover => Sys2Proof.Machine.execHandover s
  | .request => Sys2Proof.Machine.execRequest s
  | .force => Sys2Proof.Machine.execForce s
  | .serviceEnter => Sys2Proof.Machine.execServiceEnter s
  | .serviceExit => Sys2Proof.Machine.execServiceExit s
  | .deviceReset => Sys2Proof.Machine.execDeviceReset s
  | .portRestart => Sys2Proof.Machine.execPortRestart s
  | .laneAdapt => Sys2Proof.Machine.execLaneAdapt s
  | .laneAdaptRestart => Sys2Proof.Machine.execLaneAdaptRestart s
  | .laneScan lost h v counts => Sys2Proof.Machine.execLaneScan lost h v counts s
  | .engSelftest logicOk memOk unit => Sys2Proof.Machine.execEngSelftest logicOk memOk unit s
  | .progLoad => Sys2Proof.Machine.execProgLoad s
  | .calCommit => Sys2Proof.Machine.execCalCommit s
  | .calRestore => Sys2Proof.Machine.execCalRestore s
  | .islReplan dlys devs => Sys2Proof.Machine.execIslReplan dlys devs s
  | .islReplanInit dlys devs => Sys2Proof.Machine.execIslReplanInit dlys devs s
  | .timeRecal dlys devs => Sys2Proof.Machine.execTimeRecal dlys devs s
  | .attest => Sys2Proof.Machine.execAttest s
  | .fwStage => Sys2Proof.Machine.execFwStage s
  | .fwStageDone ok => Sys2Proof.Machine.execFwStageDone ok s
  | .fwActivate => Sys2Proof.Machine.execFwActivate s
  | .triggerIssue g => Sys2Proof.Machine.execTriggerIssue g s
  | .trigInEdge i_ edge => Sys2Proof.Machine.execTrigInEdge i_ edge s
  | .tgenStepWrite g step => Sys2Proof.Machine.execTgenStepWrite g step s
  | .cxpPowerWaitExpiry p => Sys2Proof.Machine.execCxpPowerWaitExpiry p s
  | .cxpDiscovery p answered rates conns => Sys2Proof.Machine.execCxpDiscovery p answered rates conns s
  | .cxpLinkReady p => Sys2Proof.Machine.execCxpLinkReady p s
  | .cxpLockLoss p c => Sys2Proof.Machine.execCxpLockLoss p c s
  | .cxpRelink p => Sys2Proof.Machine.execCxpRelink p s
  | .cxpRelinkTimeout p => Sys2Proof.Machine.execCxpRelinkTimeout p s
  | .cxpPwrFault p low => Sys2Proof.Machine.execCxpPwrFault p low s
  | .pocxpEnWrite p v => Sys2Proof.Machine.execPocxpEnWrite p v s
  | .cxpStreamPacket p sid arrival items crcOk => Sys2Proof.Machine.execCxpStreamPacket p sid arrival items crcOk s
  | .cxpEventPacket p bytes => Sys2Proof.Machine.execCxpEventPacket p bytes s
  | .triggerMissing p => Sys2Proof.Machine.execTriggerMissing p s
  | .blockWatchdog g => Sys2Proof.Machine.execBlockWatchdog g s
  | .rowSlotRelease g => Sys2Proof.Machine.execRowSlotRelease g s
  | .cxpCcGo p value => Sys2Proof.Machine.execCxpCcGo p value s
  | .cxpCcAck p code bytes => Sys2Proof.Machine.execCxpCcAck p code bytes s
  | .cxpCcTimeout p => Sys2Proof.Machine.execCxpCcTimeout p s
  | .laneLock l ctle => Sys2Proof.Machine.execLaneLock l ctle s
  | .laneLockLoss l => Sys2Proof.Machine.execLaneLockLoss l s
  | .laneAdaptDone l => Sys2Proof.Machine.execLaneAdaptDone l s
  | .laneWindow l transitions patterns ctle dfe => Sys2Proof.Machine.execLaneWindow l transitions patterns ctle dfe s
  | .contentHoldEntry l => Sys2Proof.Machine.execContentHoldEntry l s
  | .contentHold l => Sys2Proof.Machine.execContentHold l s
  | .stepBoostEnd l => Sys2Proof.Machine.execStepBoostEnd l s
  | .laneMarginMeasure l v h => Sys2Proof.Machine.execLaneMarginMeasure l v h s
  | .merTrainRequest m pre main post => Sys2Proof.Machine.execMerTrainRequest m pre main post s
  | .merTrainDone m => Sys2Proof.Machine.execMerTrainDone m s
  | .trainFail m => Sys2Proof.Machine.execTrainFail m s
  | .laneTxtapWrite l value => Sys2Proof.Machine.execLaneTxtapWrite l value s
  | .laneTestEn l v => Sys2Proof.Machine.execLaneTestEn l v s
  | .prbsCheck l bits => Sys2Proof.Machine.execPrbsCheck l bits s
  | .prbsClr l errNow => Sys2Proof.Machine.execPrbsClr l errNow s
  | .prbsErrRead l => Sys2Proof.Machine.execPrbsErrRead l s
  | .pllLoss g => Sys2Proof.Machine.execPllLoss g s
  | .rowCorrection ue => Sys2Proof.Machine.execRowCorrection ue s
  | .bgAgeTick g => Sys2Proof.Machine.execBgAgeTick g s
  | .zoneDone g => Sys2Proof.Machine.execZoneDone g s
  | .corSwapGo value => Sys2Proof.Machine.execCorSwapGo value s
  | .corSwapApply => Sys2Proof.Machine.execCorSwapApply s
  | .focSnapWrite value => Sys2Proof.Machine.execFocSnapWrite value s
  | .focSnapshot => Sys2Proof.Machine.execFocSnapshot s
  | .skyRowBuild ueGeo ueSpec clsUe => Sys2Proof.Machine.execSkyRowBuild ueGeo ueSpec clsUe s
  | .arIntervalClose g => Sys2Proof.Machine.execArIntervalClose g s
  | .arStepApply g => Sys2Proof.Machine.execArStepApply g s
  | .stiOfsWrite p value => Sys2Proof.Machine.execStiOfsWrite p value s
  | .geoSwapGo value => Sys2Proof.Machine.execGeoSwapGo value s
  | .geoSwapApply => Sys2Proof.Machine.execGeoSwapApply s
  | .specSwapGo value => Sys2Proof.Machine.execSpecSwapGo value s
  | .specSwapApply => Sys2Proof.Machine.execSpecSwapApply s
  | .rowLabel => Sys2Proof.Machine.execRowLabel s
  | .bodyCommit => Sys2Proof.Machine.execBodyCommit s
  | .bodyRetire => Sys2Proof.Machine.execBodyRetire s
  | .ctxLowClr value => Sys2Proof.Machine.execCtxLowClr value s
  | .upperEntryExpiry g => Sys2Proof.Machine.execUpperEntryExpiry g s
  | .trajRoleChange g => Sys2Proof.Machine.execTrajRoleChange g s
  | .storePeakClr value => Sys2Proof.Machine.execStorePeakClr value s
  | .dispatchTake => Sys2Proof.Machine.execDispatchTake s
  | .bodyFetchDone e => Sys2Proof.Machine.execBodyFetchDone e s
  | .bodyDeadline => Sys2Proof.Machine.execBodyDeadline s
  | .graceExpiry => Sys2Proof.Machine.execGraceExpiry s
  | .engPtReq e value => Sys2Proof.Machine.execEngPtReq e value s
  | .engPointChange => Sys2Proof.Machine.execEngPointChange s
  | .engRejoin e => Sys2Proof.Machine.execEngRejoin e s
  | .engHwFault e kind => Sys2Proof.Machine.execEngHwFault e kind s
  | .engReload e => Sys2Proof.Machine.execEngReload e s
  | .hbmUe => Sys2Proof.Machine.execHbmUe s
  | .dispSwapGo value => Sys2Proof.Machine.execDispSwapGo value s
  | .dispSwapApply => Sys2Proof.Machine.execDispSwapApply s
  | .dmaTransferDone e ch => Sys2Proof.Machine.execDmaTransferDone e ch s
  | .add e rd rs1 rs2 => Sys2Proof.Machine.execAdd e rd rs1 rs2 s
  | .sub e rd rs1 rs2 => Sys2Proof.Machine.execSub e rd rs1 rs2 s
  | .and e rd rs1 rs2 => Sys2Proof.Machine.execAnd e rd rs1 rs2 s
  | .or e rd rs1 rs2 => Sys2Proof.Machine.execOr e rd rs1 rs2 s
  | .xor e rd rs1 rs2 => Sys2Proof.Machine.execXor e rd rs1 rs2 s
  | .shl e rd rs1 rs2 => Sys2Proof.Machine.execShl e rd rs1 rs2 s
  | .shr e rd rs1 rs2 => Sys2Proof.Machine.execShr e rd rs1 rs2 s
  | .sar e rd rs1 rs2 => Sys2Proof.Machine.execSar e rd rs1 rs2 s
  | .cmplt e rd rs1 rs2 => Sys2Proof.Machine.execCmplt e rd rs1 rs2 s
  | .cmplo e rd rs1 rs2 => Sys2Proof.Machine.execCmplo e rd rs1 rs2 s
  | .mul e rd rs1 rs2 => Sys2Proof.Machine.execMul e rd rs1 rs2 s
  | .mulhu e rd rs1 rs2 => Sys2Proof.Machine.execMulhu e rd rs1 rs2 s
  | .mulhs e rd rs1 rs2 => Sys2Proof.Machine.execMulhs e rd rs1 rs2 s
  | .quou e rd rs1 rs2 => Sys2Proof.Machine.execQuou e rd rs1 rs2 s
  | .modu e rd rs1 rs2 => Sys2Proof.Machine.execModu e rd rs1 rs2 s
  | .quo e rd rs1 rs2 => Sys2Proof.Machine.execQuo e rd rs1 rs2 s
  | .mod e rd rs1 rs2 => Sys2Proof.Machine.execMod e rd rs1 rs2 s
  | .min e rd rs1 rs2 => Sys2Proof.Machine.execMin e rd rs1 rs2 s
  | .max e rd rs1 rs2 => Sys2Proof.Machine.execMax e rd rs1 rs2 s
  | .minu e rd rs1 rs2 => Sys2Proof.Machine.execMinu e rd rs1 rs2 s
  | .maxu e rd rs1 rs2 => Sys2Proof.Machine.execMaxu e rd rs1 rs2 s
  | .clz e rd rs1 => Sys2Proof.Machine.execClz e rd rs1 s
  | .popc e rd rs1 => Sys2Proof.Machine.execPopc e rd rs1 s
  | .addi e rd rs1 imm => Sys2Proof.Machine.execAddi e rd rs1 imm s
  | .andi e rd rs1 imm => Sys2Proof.Machine.execAndi e rd rs1 imm s
  | .ori e rd rs1 imm => Sys2Proof.Machine.execOri e rd rs1 imm s
  | .xori e rd rs1 imm => Sys2Proof.Machine.execXori e rd rs1 imm s
  | .cmplti e rd rs1 imm => Sys2Proof.Machine.execCmplti e rd rs1 imm s
  | .cmploi e rd rs1 imm => Sys2Proof.Machine.execCmploi e rd rs1 imm s
  | .shli e rd rs1 amt => Sys2Proof.Machine.execShli e rd rs1 amt s
  | .shri e rd rs1 amt => Sys2Proof.Machine.execShri e rd rs1 amt s
  | .sari e rd rs1 amt => Sys2Proof.Machine.execSari e rd rs1 amt s
  | .addhi e rd rs1 imm => Sys2Proof.Machine.execAddhi e rd rs1 imm s
  | .ld8 e rd rs1 imm => Sys2Proof.Machine.execLd8 e rd rs1 imm s
  | .ld8u e rd rs1 imm => Sys2Proof.Machine.execLd8u e rd rs1 imm s
  | .ld16 e rd rs1 imm => Sys2Proof.Machine.execLd16 e rd rs1 imm s
  | .ld16u e rd rs1 imm => Sys2Proof.Machine.execLd16u e rd rs1 imm s
  | .ld32 e rd rs1 imm => Sys2Proof.Machine.execLd32 e rd rs1 imm s
  | .ld32u e rd rs1 imm => Sys2Proof.Machine.execLd32u e rd rs1 imm s
  | .ld64 e rd rs1 imm => Sys2Proof.Machine.execLd64 e rd rs1 imm s
  | .st8 e rs2 rs1 imm => Sys2Proof.Machine.execSt8 e rs2 rs1 imm s
  | .st16 e rs2 rs1 imm => Sys2Proof.Machine.execSt16 e rs2 rs1 imm s
  | .st32 e rs2 rs1 imm => Sys2Proof.Machine.execSt32 e rs2 rs1 imm s
  | .st64 e rs2 rs1 imm => Sys2Proof.Machine.execSt64 e rs2 rs1 imm s
  | .brEq e rs1 rs2 off => Sys2Proof.Machine.execBrEq e rs1 rs2 off s
  | .brNe e rs1 rs2 off => Sys2Proof.Machine.execBrNe e rs1 rs2 off s
  | .brLt e rs1 rs2 off => Sys2Proof.Machine.execBrLt e rs1 rs2 off s
  | .brGe e rs1 rs2 off => Sys2Proof.Machine.execBrGe e rs1 rs2 off s
  | .brLo e rs1 rs2 off => Sys2Proof.Machine.execBrLo e rs1 rs2 off s
  | .brHs e rs1 rs2 off => Sys2Proof.Machine.execBrHs e rs1 rs2 off s
  | .call e rd off => Sys2Proof.Machine.execCall e rd off s
  | .jumpr e rd rs1 imm => Sys2Proof.Machine.execJumpr e rd rs1 imm s
  | .vadd e vd vs1 vs2 pr typ => Sys2Proof.Machine.execVadd e vd vs1 vs2 pr typ s
  | .vsub e vd vs1 vs2 pr typ => Sys2Proof.Machine.execVsub e vd vs1 vs2 pr typ s
  | .vmul e vd vs1 vs2 pr typ => Sys2Proof.Machine.execVmul e vd vs1 vs2 pr typ s
  | .vmulh e vd vs1 vs2 pr typ => Sys2Proof.Machine.execVmulh e vd vs1 vs2 pr typ s
  | .vmin e vd vs1 vs2 pr typ => Sys2Proof.Machine.execVmin e vd vs1 vs2 pr typ s
  | .vmax e vd vs1 vs2 pr typ => Sys2Proof.Machine.execVmax e vd vs1 vs2 pr typ s
  | .vminu e vd vs1 vs2 pr typ => Sys2Proof.Machine.execVminu e vd vs1 vs2 pr typ s
  | .vmaxu e vd vs1 vs2 pr typ => Sys2Proof.Machine.execVmaxu e vd vs1 vs2 pr typ s
  | .vand e vd vs1 vs2 pr typ => Sys2Proof.Machine.execVand e vd vs1 vs2 pr typ s
  | .vor e vd vs1 vs2 pr typ => Sys2Proof.Machine.execVor e vd vs1 vs2 pr typ s
  | .vxor e vd vs1 vs2 pr typ => Sys2Proof.Machine.execVxor e vd vs1 vs2 pr typ s
  | .vsll e vd vs1 vs2 pr typ => Sys2Proof.Machine.execVsll e vd vs1 vs2 pr typ s
  | .vsrl e vd vs1 vs2 pr typ => Sys2Proof.Machine.execVsrl e vd vs1 vs2 pr typ s
  | .vsra e vd vs1 vs2 pr typ => Sys2Proof.Machine.execVsra e vd vs1 vs2 pr typ s
  | .vadds e vd vs1 vs2 pr typ => Sys2Proof.Machine.execVadds e vd vs1 vs2 pr typ s
  | .vsubs e vd vs1 vs2 pr typ => Sys2Proof.Machine.execVsubs e vd vs1 vs2 pr typ s
  | .vcmpeq e vd vs1 vs2 pr typ => Sys2Proof.Machine.execVcmpeq e vd vs1 vs2 pr typ s
  | .vcmplt e vd vs1 vs2 pr typ => Sys2Proof.Machine.execVcmplt e vd vs1 vs2 pr typ s
  | .vcmpltu e vd vs1 vs2 pr typ => Sys2Proof.Machine.execVcmpltu e vd vs1 vs2 pr typ s
  | .vsel e vd vs1 vs2 pr typ => Sys2Proof.Machine.execVsel e vd vs1 vs2 pr typ s
  | .vdot e vd vs1 vs2 pr typ => Sys2Proof.Machine.execVdot e vd vs1 vs2 pr typ s
  | .vdotu e vd vs1 vs2 pr typ => Sys2Proof.Machine.execVdotu e vd vs1 vs2 pr typ s
  | .vredsum e rd vs1 pr typ => Sys2Proof.Machine.execVredsum e rd vs1 pr typ s
  | .vredsumu e rd vs1 pr typ => Sys2Proof.Machine.execVredsumu e rd vs1 pr typ s
  | .vredmax e rd vs1 pr typ => Sys2Proof.Machine.execVredmax e rd vs1 pr typ s
  | .vredmin e rd vs1 pr typ => Sys2Proof.Machine.execVredmin e rd vs1 pr typ s
  | .vnarrow e vd vs1 vs2 pr typ => Sys2Proof.Machine.execVnarrow e vd vs1 vs2 pr typ s
  | .vwidel e vd vs1 pr typ => Sys2Proof.Machine.execVwidel e vd vs1 pr typ s
  | .vwideh e vd vs1 pr typ => Sys2Proof.Machine.execVwideh e vd vs1 pr typ s
  | .vfadd e vd vs1 vs2 pr typ => Sys2Proof.Machine.execVfadd e vd vs1 vs2 pr typ s
  | .vfsub e vd vs1 vs2 pr typ => Sys2Proof.Machine.execVfsub e vd vs1 vs2 pr typ s
  | .vfmul e vd vs1 vs2 pr typ => Sys2Proof.Machine.execVfmul e vd vs1 vs2 pr typ s
  | .vfma e vd vs1 vs2 pr typ => Sys2Proof.Machine.execVfma e vd vs1 vs2 pr typ s
  | .vfmaw e vd vs1 vs2 pr typ => Sys2Proof.Machine.execVfmaw e vd vs1 vs2 pr typ s
  | .vfmax e vd vs1 vs2 pr typ => Sys2Proof.Machine.execVfmax e vd vs1 vs2 pr typ s
  | .vfmin e vd vs1 vs2 pr typ => Sys2Proof.Machine.execVfmin e vd vs1 vs2 pr typ s
  | .vfcvtw2b e vd vs1 vs2 pr typ => Sys2Proof.Machine.execVfcvtw2b e vd vs1 vs2 pr typ s
  | .vfcvti2b e vd vs1 pr typ => Sys2Proof.Machine.execVfcvti2b e vd vs1 pr typ s
  | .vfcvtb2i e vd vs1 pr typ => Sys2Proof.Machine.execVfcvtb2i e vd vs1 pr typ s
  | .vfcmplt e vd vs1 vs2 pr typ => Sys2Proof.Machine.execVfcmplt e vd vs1 vs2 pr typ s
  | .vfredsum e rd vs1 pr typ => Sys2Proof.Machine.execVfredsum e rd vs1 pr typ s
  | .vld e vd rs1 pr off => Sys2Proof.Machine.execVld e vd rs1 pr off s
  | .vst e vs rs1 pr off => Sys2Proof.Machine.execVst e vs rs1 pr off s
  | .vlut e vd vs1 rs pr typ => Sys2Proof.Machine.execVlut e vd vs1 rs pr typ s
  | .vbcast e vd rs1 typ => Sys2Proof.Machine.execVbcast e vd rs1 typ s
  | .vext e rd vs1 lane typ => Sys2Proof.Machine.execVext e rd vs1 lane typ s
  | .vins e vd rs1 lane typ => Sys2Proof.Machine.execVins e vd rs1 lane typ s
  | .pand e pd ps1 ps2 => Sys2Proof.Machine.execPand e pd ps1 ps2 s
  | .por e pd ps1 ps2 => Sys2Proof.Machine.execPor e pd ps1 ps2 s
  | .pxor e pd ps1 ps2 => Sys2Proof.Machine.execPxor e pd ps1 ps2 s
  | .pnot e pd ps1 => Sys2Proof.Machine.execPnot e pd ps1 s
  | .pmovs e pd rs => Sys2Proof.Machine.execPmovs e pd rs s
  | .pmovp e rs ps1 => Sys2Proof.Machine.execPmovp e rs ps1 s
  | .dmaStart e rloc rrem rlen ch dir => Sys2Proof.Machine.execDmaStart e rloc rrem rlen ch dir s
  | .wait e ch => Sys2Proof.Machine.execWait e ch s
  | .stat e rd ch => Sys2Proof.Machine.execStat e rd ch s
  | .nopInstruction e => Sys2Proof.Machine.execNopInstruction e s
  | .time e rd => Sys2Proof.Machine.execTime e rd s
  | .cycle e rd => Sys2Proof.Machine.execCycle e rd s
  | .brk e => Sys2Proof.Machine.execBrk e s
  | .abandon e => Sys2Proof.Machine.execAbandon e s
  | .vemit e rs1 rs2 => Sys2Proof.Machine.execVemit e rs1 rs2 s
  | .illegalInstruction e => Sys2Proof.Machine.execIllegalInstruction e s
  | .verdictPlan => Sys2Proof.Machine.execVerdictPlan s
  | .pressureSample => Sys2Proof.Machine.execPressureSample s
  | .pressFail => Sys2Proof.Machine.execPressFail s
  | .planSwapGo value => Sys2Proof.Machine.execPlanSwapGo value s
  | .planSwapApply => Sys2Proof.Machine.execPlanSwapApply s
  | .divertRelease d => Sys2Proof.Machine.execDivertRelease d s
  | .beacon n => Sys2Proof.Machine.execBeacon n s
  | .fire n => Sys2Proof.Machine.execFire n s
  | .cancel n => Sys2Proof.Machine.execCancel n s
  | .rangeExchange n k => Sys2Proof.Machine.execRangeExchange n k s
  | .rangingPeriod n => Sys2Proof.Machine.execRangingPeriod n s
  | .status n bytes t4 => Sys2Proof.Machine.execStatus n bytes t4 s
  | .seat n bytes => Sys2Proof.Machine.execSeat n bytes s
  | .ackTimeout n k => Sys2Proof.Machine.execAckTimeout n k s
  | .modLost n k => Sys2Proof.Machine.execModLost n k s
  | .metRxLockLoss n => Sys2Proof.Machine.execMetRxLockLoss n s
  | .metTrainingTimeout n => Sys2Proof.Machine.execMetTrainingTimeout n s
  | .metOffline n => Sys2Proof.Machine.execMetOffline n s
  | .moduleFrame n k link rx rated fitted => Sys2Proof.Machine.execModuleFrame n k link rx rated fitted s
  | .moduleBeacon n k link bytes => Sys2Proof.Machine.execModuleBeacon n k link bytes s
  | .moduleDriveStart n k valve => Sys2Proof.Machine.execModuleDriveStart n k valve s
  | .moduleSeatDetect n k valve time => Sys2Proof.Machine.execModuleSeatDetect n k valve time s
  | .moduleNoSeat n k valve => Sys2Proof.Machine.execModuleNoSeat n k valve s
  | .moduleLinkWatchdog n k link => Sys2Proof.Machine.execModuleLinkWatchdog n k link s
  | .moduleStatusSend n k link => Sys2Proof.Machine.execModuleStatusSend n k link s
  | .moduleOntimeGuard n k valve rated => Sys2Proof.Machine.execModuleOntimeGuard n k valve rated s
  | .quadCount n a b age => Sys2Proof.Machine.execQuadCount n a b age s
  | .index level => Sys2Proof.Machine.execIndex level s
  | .ssiRead n raw par low age => Sys2Proof.Machine.execSsiRead n raw par low age s
  | .observerUpdate n => Sys2Proof.Machine.execObserverUpdate n s
  | .still n => Sys2Proof.Machine.execStill n s
  | .settlingEnd n => Sys2Proof.Machine.execSettlingEnd n s
  | .motChannelEnable n value a b => Sys2Proof.Machine.execMotChannelEnable n value a b s
  | .cmpArm c value => Sys2Proof.Machine.execCmpArm c value s
  | .posRead n => Sys2Proof.Machine.execPosRead n s
  | .hitTRead c => Sys2Proof.Machine.execHitTRead c s
  | .sigFineOutput n age => Sys2Proof.Machine.execSigFineOutput n age s
  | .sigXfGo n value => Sys2Proof.Machine.execSigXfGo n value s
  | .sigChannelEnable n value => Sys2Proof.Machine.execSigChannelEnable n value s
  | .sigSettled n => Sys2Proof.Machine.execSigSettled n s
  | .sigStuck n => Sys2Proof.Machine.execSigStuck n s
  | .sigOutRead n => Sys2Proof.Machine.execSigOutRead n s
  | .trimGo value => Sys2Proof.Machine.execTrimGo value s
  | .trimApply => Sys2Proof.Machine.execTrimApply s
  | .trimSlewStep => Sys2Proof.Machine.execTrimSlewStep s
  | .trimRampStep => Sys2Proof.Machine.execTrimRampStep s
  | .timeRateWrite value => Sys2Proof.Machine.execTimeRateWrite value s
  | .timeSet value => Sys2Proof.Machine.execTimeSet value s
  | .timeSlewWrite value => Sys2Proof.Machine.execTimeSlewWrite value s
  | .slewComplete => Sys2Proof.Machine.execSlewComplete s
  | .dtRebase => Sys2Proof.Machine.execDtRebase s
  | .skewMeasure devs => Sys2Proof.Machine.execSkewMeasure devs s
  | .schedArm n value => Sys2Proof.Machine.execSchedArm n value s
  | .schedAction n => Sys2Proof.Machine.execSchedAction n s
  | .ppsOutPulse => Sys2Proof.Machine.execPpsOutPulse s
  | .ppsIn edge => Sys2Proof.Machine.execPpsIn edge s
  | .ppsInTimeout => Sys2Proof.Machine.execPpsInTimeout s
  | .ethFrameRx e bytes fcsOk res full => Sys2Proof.Machine.execEthFrameRx e bytes fcsOk res full s
  | .ptpSync port parent steps gm theta mpd logS => Sys2Proof.Machine.execPtpSync port parent steps gm theta mpd logS s
  | .pdelayMeasure e delay => Sys2Proof.Machine.execPdelayMeasure e delay s
  | .masterTimeout => Sys2Proof.Machine.execMasterTimeout s
  | .macAgeOut mac => Sys2Proof.Machine.execMacAgeOut mac s
  | .ethLinkChange e link lock los modAbs => Sys2Proof.Machine.execEthLinkChange e link lock los modAbs s
  | .asymClrAll => Sys2Proof.Machine.execAsymClrAll s
  | .ptmDialog a1 a4 t32 b1 t2 => Sys2Proof.Machine.execPtmDialog a1 a4 t32 b1 t2 s
  | .ptmTimeout => Sys2Proof.Machine.execPtmTimeout s
  | .timeNowRead off => Sys2Proof.Machine.execTimeNowRead off s
  | .bar2Write off bytes => Sys2Proof.Machine.execBar2Write off bytes s
  | .recordWrite q => Sys2Proof.Machine.execRecordWrite q s
  | .rqFlushTimer q => Sys2Proof.Machine.execRqFlushTimer q s
  | .rqFlush q => Sys2Proof.Machine.execRqFlush q s
  | .rqEnable q v => Sys2Proof.Machine.execRqEnable q v s
  | .rqRelease q bank => Sys2Proof.Machine.execRqRelease q bank s
  | .rqFault q bank => Sys2Proof.Machine.execRqFault q bank s
  | .rqBankFault q parity => Sys2Proof.Machine.execRqBankFault q parity s
  | .rqRestore q => Sys2Proof.Machine.execRqRestore q s
  | .ringDataTimer q => Sys2Proof.Machine.execRingDataTimer q s
  | .hostRecGo value => Sys2Proof.Machine.execHostRecGo value s
  | .drTailWrite r value => Sys2Proof.Machine.execDrTailWrite r value s
  | .descriptorDone r full => Sys2Proof.Machine.execDescriptorDone r full s
  | .packBlock c => Sys2Proof.Machine.execPackBlock c s
  | .packBlockDone c verifyOk => Sys2Proof.Machine.execPackBlockDone c verifyOk s
  | .packSave c => Sys2Proof.Machine.execPackSave c s
  | .packLoad c => Sys2Proof.Machine.execPackLoad c s
  | .stateDone c => Sys2Proof.Machine.execStateDone c s
  | .illumApply value => Sys2Proof.Machine.execIllumApply value s
  | .marginWindow slacks canaries => Sys2Proof.Machine.execMarginWindow slacks canaries s
  | .obsSample m => Sys2Proof.Machine.execObsSample m s
  | .obsSnap value => Sys2Proof.Machine.execObsSnap value s
  | .obsPeriodicSnap => Sys2Proof.Machine.execObsPeriodicSnap s
  | .obsTestWrite value => Sys2Proof.Machine.execObsTestWrite value s
  | .obsMonitorEnable m value => Sys2Proof.Machine.execObsMonitorEnable m value s
  | .chkDataWrite c k value => Sys2Proof.Machine.execChkDataWrite c k value s
  | .chkGo c => Sys2Proof.Machine.execChkGo c s
  | .chkFeedDone c ue => Sys2Proof.Machine.execChkFeedDone c ue s
  | .chkInit c => Sys2Proof.Machine.execChkInit c s
  | .heartbeatSend => Sys2Proof.Machine.execHeartbeatSend s
  | .heartbeat ws => Sys2Proof.Machine.execHeartbeat ws s
  | .partnerLost => Sys2Proof.Machine.execPartnerLost s
  | .faultRecord ws => Sys2Proof.Machine.execFaultRecord ws s
  | .tokenOffer ws => Sys2Proof.Machine.execTokenOffer ws s
  | .tokenAccept ws => Sys2Proof.Machine.execTokenAccept ws s
  | .tokenRefuse ws => Sys2Proof.Machine.execTokenRefuse ws s
  | .tokenRequest ws => Sys2Proof.Machine.execTokenRequest ws s
  | .trigRecord ws => Sys2Proof.Machine.execTrigRecord ws s
  | .ledgerRecord ws => Sys2Proof.Machine.execLedgerRecord ws s
  | .slotRecord ws => Sys2Proof.Machine.execSlotRecord ws s
  | .slotRecordTimeout g => Sys2Proof.Machine.execSlotRecordTimeout g s
  | .missRecord ws => Sys2Proof.Machine.execMissRecord ws s
  | .latRecord ws => Sys2Proof.Machine.execLatRecord ws s
  | .digestSend => Sys2Proof.Machine.execDigestSend s
  | .digestRecord ws => Sys2Proof.Machine.execDigestRecord ws s
  | .digestTimeout => Sys2Proof.Machine.execDigestTimeout s
  | .meridianRetransmit => Sys2Proof.Machine.execMeridianRetransmit s
  | .laneWdWrite value => Sys2Proof.Machine.execLaneWdWrite value s
  | .startWaitExpiry => Sys2Proof.Machine.execStartWaitExpiry s
  | .viewLossTimeout g => Sys2Proof.Machine.execViewLossTimeout g s
  | .joinGo value => Sys2Proof.Machine.execJoinGo value s
  | .join ws => Sys2Proof.Machine.execJoin ws s
  | .joinBoundary => Sys2Proof.Machine.execJoinBoundary s
  | .mirror ws => Sys2Proof.Machine.execMirror ws s
  | .joinEnd ws => Sys2Proof.Machine.execJoinEnd ws s
  | .joinDone => Sys2Proof.Machine.execJoinDone s
  | .digInfoClr value => Sys2Proof.Machine.execDigInfoClr value s
  | .enum bytes => Sys2Proof.Machine.execEnum bytes s
  | .enumEnd bytes => Sys2Proof.Machine.execEnumEnd bytes s
  | .read bytes => Sys2Proof.Machine.execRead bytes s
  | .write bytes => Sys2Proof.Machine.execWrite bytes s
  | .resp bytes => Sys2Proof.Machine.execResp bytes s
  | .bulk bytes => Sys2Proof.Machine.execBulk bytes s
  | .event bytes => Sys2Proof.Machine.execEvent bytes s
  | .tethEnumGo value => Sys2Proof.Machine.execTethEnumGo value s
  | .tethEnumTimeout => Sys2Proof.Machine.execTethEnumTimeout s
  | .tethBrGo value => Sys2Proof.Machine.execTethBrGo value s
  | .tethBrTimeout => Sys2Proof.Machine.execTethBrTimeout s
  | .tethBulkGo value => Sys2Proof.Machine.execTethBulkGo value s
  | .tethBulkDone => Sys2Proof.Machine.execTethBulkDone s
  | .tethEvtFifoRead => Sys2Proof.Machine.execTethEvtFifoRead s
  | .tethLinkChange fwd ret => Sys2Proof.Machine.execTethLinkChange fwd ret s
  | .bootGo value teth => Sys2Proof.Machine.execBootGo value teth s
  | .nextSrc value teth => Sys2Proof.Machine.execNextSrc value teth s
  | .keyProgram value => Sys2Proof.Machine.execKeyProgram value s
  | .keyRevoke value => Sys2Proof.Machine.execKeyRevoke value s
  | .keyDone same => Sys2Proof.Machine.execKeyDone same s
  | .svnCommit value => Sys2Proof.Machine.execSvnCommit value s
  | .metRxLock n => Sys2Proof.Machine.execMetRxLock n s
  | .moduleDriveEnd n k valve => Sys2Proof.Machine.execModuleDriveEnd n k valve s
  | .sigFastOutput n bits => Sys2Proof.Machine.execSigFastOutput n bits s
  | .sigStuckEnd n => Sys2Proof.Machine.execSigStuckEnd n s
  | .obsQueueTjTick => Sys2Proof.Machine.execObsQueueTjTick s
  | .tapInstruction op bound => Sys2Proof.Machine.execTapInstruction op bound s

end Sys2Proof.Machine
end

