-- ==== Sys2Proof/Machine/Tick.lean ====
section
/-! DEFINITION. What the clock does of itself, a nanosecond at a time (log entry 1, DESIGN CHOICE). -/

namespace Sys2Proof.Machine.Dev

/-- What a nanosecond leaves to its end: encoder samples, bodies that a hardware fault struck go back, what was learnt goes to the partner. -/
def tickEnd (d : Dev) : Dev := d.motTickEnd.strikeTick.learnTick

/-- One nanosecond of the free-running counter with no command: the present one ends; encoder inputs, start-up, the encoder repeaters, the CRC units and
the Tether port go on. -/
def tick (d : Dev) : Dev :=
  let d := d.tickEnd
  ({ d with time := { d.time with c := d.time.c + 1 } } : Dev).motTick.bootTick.repTick.chkTick.tethTick

end Sys2Proof.Machine.Dev
end

