-- ==== Sys2Proof/WellFormed.lean ====
section
/-! DEFINITION. Which commands are well formed: each operand within the range that the spec gives the unit, register or field it names. An operand
that stands for a measurement is not limited. A meaning is total all the same: outside these ranges it does nothing or takes the operand's low
bits. -/

namespace Sys2Proof

/-- An operand below a bound. -/
def below (n bound : Nat) : Bool := decide (n < bound)

/-- A 32-bit register word. -/
def wordOk (n : Nat) : Bool := decide (n < 2 ^ 32)

/-- The bytes of a frame, and the words of a record. -/
def bytesOk (bs : List Nat) : Bool := bs.all (fun b => decide (b < 256))
def wordsOk (ws : List Nat) : Bool := ws.all wordOk

/-- The checks of each command. -/
def Instr.wf : Instr → Bool
  | .porstAssert => true
  | .aonUnderVoltage => true
  | .porstRelease _ _ _ => true
  | .startupComplete _ _ _ _ _ => true
  | .warmRstN => true
  | .vesperWatchdog => true
  | .underVoltageReset _ => true
  | .thermalTrip _ => true
  | .thermalAlarm _ => true
  | .throttleEntry _ => true
  | .throttleRelease _ => true
  | .hostReset _ => true
  | .pciePerstRelease _ _ => true
  | .pcieBmeChange _ _ => true
  | .refclkSysLost => true
  | .refclkTimeLost => true
  | .refclkTimeReturn => true
  | .refclkLaneLost => true
  | .refclkLaneReturn => true
  | .vesperSramUe => true
  | .vesperInternal => true
  | .smbusRead _ _ => true
  | .smbusAlertResponse => true
  | .ethModPresent e bytes => below e 2 && bytesOk bytes
  | .registerWrite _ _ word => wordOk word.value
  | .blkEnable page _ => below page 1024
  | .softReset page => below page 1024
  | .blkTest page _ => below page 1024
  | .freeze page _ => below page 1024
  | .offlineReq page _ => below page 1024
  | .blockOffline page => below page 1024
  | .blkIrqStatWrite page value _ => below page 1024 && wordOk value
  | .blkErrCodeRead access => below access.page 1024
  | .blkLockWrite page value => below page 1024 && wordOk value
  | .devFeatCommit value => wordOk value
  | .commitDone => true
  | .irqRouteWrite n value => below n 37 && wordOk value
  | .irqRearm n value => below n 2 && wordOk value
  | .cmdSubmit value => wordOk value
  | .cmdTimeout => true
  | .nop => true
  | .configure => true
  | .deconfigure => true
  | .renegotiate => true
  | .start => true
  | .stopDrain => true
  | .drainComplete => true
  | .stopImmediate => true
  | .enterTwilight => true
  | .enterEclipse => true
  | .resume => true
  | .handover => true
  | .request => true
  | .force => true
  | .serviceEnter => true
  | .serviceExit => true
  | .deviceReset => true
  | .portRestart => true
  | .laneAdapt => true
  | .laneAdaptRestart => true
  | .laneScan _ _ _ _ => true
  | .engSelftest _ _ _ => true
  | .progLoad => true
  | .calCommit => true
  | .calRestore => true
  | .islReplan _ _ => true
  | .islReplanInit _ _ => true
  | .timeRecal _ _ => true
  | .attest => true
  | .fwStage => true
  | .fwStageDone _ => true
  | .fwActivate => true
  | .triggerIssue g => below g 16
  | .trigInEdge i _ => below i 8
  | .tgenStepWrite g step => below g 16 && wordOk step
  | .cxpPowerWaitExpiry p => below p 16
  | .cxpDiscovery p _ _ _ => below p 16
  | .cxpLinkReady p => below p 16
  | .cxpLockLoss p c => below p 16 && below c 4
  | .cxpRelink p => below p 16
  | .cxpRelinkTimeout p => below p 16
  | .cxpPwrFault p _ => below p 16
  | .pocxpEnWrite p _ => below p 16
  | .cxpStreamPacket p _ _ _ _ => below p 16
  | .cxpEventPacket p bytes => below p 16 && bytesOk bytes
  | .triggerMissing p => below p 16
  | .blockWatchdog g => below g 8
  | .rowSlotRelease g => below g 8
  | .cxpCcGo p value => below p 16 && wordOk value
  | .cxpCcAck p _ bytes => below p 16 && bytesOk bytes
  | .cxpCcTimeout p => below p 16
  | .laneLock l _ => below l 104
  | .laneLockLoss l => below l 104
  | .laneAdaptDone l => below l 104
  | .laneWindow l _ _ _ _ => below l 104
  | .contentHoldEntry l => below l 104
  | .contentHold l => below l 104
  | .stepBoostEnd l => below l 104
  | .laneMarginMeasure l _ _ => below l 104
  | .merTrainRequest m _ _ _ => below m 4
  | .merTrainDone m => below m 4
  | .trainFail m => below m 4
  | .laneTxtapWrite l value => below l 104 && wordOk value
  | .laneTestEn l _ => below l 104
  | .prbsCheck l _ => below l 104
  | .prbsClr l _ => below l 104
  | .prbsErrRead l => below l 104
  | .pllLoss g => below g 13
  | .rowCorrection _ => true
  | .bgAgeTick g => below g 8
  | .zoneDone g => below g 8
  | .corSwapGo value => wordOk value
  | .corSwapApply => true
  | .focSnapWrite value => wordOk value
  | .focSnapshot => true
  | .skyRowBuild _ _ _ => true
  | .arIntervalClose g => below g 8
  | .arStepApply g => below g 8
  | .stiOfsWrite p value => below p 16 && wordOk value
  | .geoSwapGo value => wordOk value
  | .geoSwapApply => true
  | .specSwapGo value => wordOk value
  | .specSwapApply => true
  | .rowLabel => true
  | .bodyCommit => true
  | .bodyRetire => true
  | .ctxLowClr value => wordOk value
  | .upperEntryExpiry g => below g 8
  | .trajRoleChange g => below g 8
  | .storePeakClr value => wordOk value
  | .dispatchTake => true
  | .bodyFetchDone e => below e 64
  | .bodyDeadline => true
  | .graceExpiry => true
  | .engPtReq e value => below e 64 && wordOk value
  | .engPointChange => true
  | .engRejoin e => below e 64
  | .engHwFault e _ => below e 64
  | .engReload e => below e 64
  | .hbmUe => true
  | .dispSwapGo value => wordOk value
  | .dispSwapApply => true
  | .dmaTransferDone e ch => below e 64 && below ch 4
  | .add e rd rs1 rs2 => below e 64 && below rd 32 && below rs1 32 && below rs2 32
  | .sub e rd rs1 rs2 => below e 64 && below rd 32 && below rs1 32 && below rs2 32
  | .and e rd rs1 rs2 => below e 64 && below rd 32 && below rs1 32 && below rs2 32
  | .or e rd rs1 rs2 => below e 64 && below rd 32 && below rs1 32 && below rs2 32
  | .xor e rd rs1 rs2 => below e 64 && below rd 32 && below rs1 32 && below rs2 32
  | .shl e rd rs1 rs2 => below e 64 && below rd 32 && below rs1 32 && below rs2 32
  | .shr e rd rs1 rs2 => below e 64 && below rd 32 && below rs1 32 && below rs2 32
  | .sar e rd rs1 rs2 => below e 64 && below rd 32 && below rs1 32 && below rs2 32
  | .cmplt e rd rs1 rs2 => below e 64 && below rd 32 && below rs1 32 && below rs2 32
  | .cmplo e rd rs1 rs2 => below e 64 && below rd 32 && below rs1 32 && below rs2 32
  | .mul e rd rs1 rs2 => below e 64 && below rd 32 && below rs1 32 && below rs2 32
  | .mulhu e rd rs1 rs2 => below e 64 && below rd 32 && below rs1 32 && below rs2 32
  | .mulhs e rd rs1 rs2 => below e 64 && below rd 32 && below rs1 32 && below rs2 32
  | .quou e rd rs1 rs2 => below e 64 && below rd 32 && below rs1 32 && below rs2 32
  | .modu e rd rs1 rs2 => below e 64 && below rd 32 && below rs1 32 && below rs2 32
  | .quo e rd rs1 rs2 => below e 64 && below rd 32 && below rs1 32 && below rs2 32
  | .mod e rd rs1 rs2 => below e 64 && below rd 32 && below rs1 32 && below rs2 32
  | .min e rd rs1 rs2 => below e 64 && below rd 32 && below rs1 32 && below rs2 32
  | .max e rd rs1 rs2 => below e 64 && below rd 32 && below rs1 32 && below rs2 32
  | .minu e rd rs1 rs2 => below e 64 && below rd 32 && below rs1 32 && below rs2 32
  | .maxu e rd rs1 rs2 => below e 64 && below rd 32 && below rs1 32 && below rs2 32
  | .clz e rd rs1 => below e 64 && below rd 32 && below rs1 32
  | .popc e rd rs1 => below e 64 && below rd 32 && below rs1 32
  | .addi e rd rs1 imm => below e 64 && below rd 32 && below rs1 32 && below imm 65536
  | .andi e rd rs1 imm => below e 64 && below rd 32 && below rs1 32 && below imm 65536
  | .ori e rd rs1 imm => below e 64 && below rd 32 && below rs1 32 && below imm 65536
  | .xori e rd rs1 imm => below e 64 && below rd 32 && below rs1 32 && below imm 65536
  | .cmplti e rd rs1 imm => below e 64 && below rd 32 && below rs1 32 && below imm 65536
  | .cmploi e rd rs1 imm => below e 64 && below rd 32 && below rs1 32 && below imm 65536
  | .shli e rd rs1 amt => below e 64 && below rd 32 && below rs1 32 && below amt 64
  | .shri e rd rs1 amt => below e 64 && below rd 32 && below rs1 32 && below amt 64
  | .sari e rd rs1 amt => below e 64 && below rd 32 && below rs1 32 && below amt 64
  | .addhi e rd rs1 imm => below e 64 && below rd 32 && below rs1 32 && below imm 65536
  | .ld8 e rd rs1 imm => below e 64 && below rd 32 && below rs1 32 && below imm 65536
  | .ld8u e rd rs1 imm => below e 64 && below rd 32 && below rs1 32 && below imm 65536
  | .ld16 e rd rs1 imm => below e 64 && below rd 32 && below rs1 32 && below imm 65536
  | .ld16u e rd rs1 imm => below e 64 && below rd 32 && below rs1 32 && below imm 65536
  | .ld32 e rd rs1 imm => below e 64 && below rd 32 && below rs1 32 && below imm 65536
  | .ld32u e rd rs1 imm => below e 64 && below rd 32 && below rs1 32 && below imm 65536
  | .ld64 e rd rs1 imm => below e 64 && below rd 32 && below rs1 32 && below imm 65536
  | .st8 e rs2 rs1 imm => below e 64 && below rs2 32 && below rs1 32 && below imm 65536
  | .st16 e rs2 rs1 imm => below e 64 && below rs2 32 && below rs1 32 && below imm 65536
  | .st32 e rs2 rs1 imm => below e 64 && below rs2 32 && below rs1 32 && below imm 65536
  | .st64 e rs2 rs1 imm => below e 64 && below rs2 32 && below rs1 32 && below imm 65536
  | .brEq e rs1 rs2 off => below e 64 && below rs1 32 && below rs2 32 && below off 65536
  | .brNe e rs1 rs2 off => below e 64 && below rs1 32 && below rs2 32 && below off 65536
  | .brLt e rs1 rs2 off => below e 64 && below rs1 32 && below rs2 32 && below off 65536
  | .brGe e rs1 rs2 off => below e 64 && below rs1 32 && below rs2 32 && below off 65536
  | .brLo e rs1 rs2 off => below e 64 && below rs1 32 && below rs2 32 && below off 65536
  | .brHs e rs1 rs2 off => below e 64 && below rs1 32 && below rs2 32 && below off 65536
  | .call e rd off => below e 64 && below rd 32 && below off 2097152
  | .jumpr e rd rs1 imm => below e 64 && below rd 32 && below rs1 32 && below imm 65536
  | .vadd e vd vs1 vs2 pr typ => below e 64 && below vd 32 && below vs1 32 && below vs2 32 && below pr 8 && below typ 4
  | .vsub e vd vs1 vs2 pr typ => below e 64 && below vd 32 && below vs1 32 && below vs2 32 && below pr 8 && below typ 4
  | .vmul e vd vs1 vs2 pr typ => below e 64 && below vd 32 && below vs1 32 && below vs2 32 && below pr 8 && below typ 4
  | .vmulh e vd vs1 vs2 pr typ => below e 64 && below vd 32 && below vs1 32 && below vs2 32 && below pr 8 && below typ 4
  | .vmin e vd vs1 vs2 pr typ => below e 64 && below vd 32 && below vs1 32 && below vs2 32 && below pr 8 && below typ 4
  | .vmax e vd vs1 vs2 pr typ => below e 64 && below vd 32 && below vs1 32 && below vs2 32 && below pr 8 && below typ 4
  | .vminu e vd vs1 vs2 pr typ => below e 64 && below vd 32 && below vs1 32 && below vs2 32 && below pr 8 && below typ 4
  | .vmaxu e vd vs1 vs2 pr typ => below e 64 && below vd 32 && below vs1 32 && below vs2 32 && below pr 8 && below typ 4
  | .vand e vd vs1 vs2 pr typ => below e 64 && below vd 32 && below vs1 32 && below vs2 32 && below pr 8 && below typ 4
  | .vor e vd vs1 vs2 pr typ => below e 64 && below vd 32 && below vs1 32 && below vs2 32 && below pr 8 && below typ 4
  | .vxor e vd vs1 vs2 pr typ => below e 64 && below vd 32 && below vs1 32 && below vs2 32 && below pr 8 && below typ 4
  | .vsll e vd vs1 vs2 pr typ => below e 64 && below vd 32 && below vs1 32 && below vs2 32 && below pr 8 && below typ 4
  | .vsrl e vd vs1 vs2 pr typ => below e 64 && below vd 32 && below vs1 32 && below vs2 32 && below pr 8 && below typ 4
  | .vsra e vd vs1 vs2 pr typ => below e 64 && below vd 32 && below vs1 32 && below vs2 32 && below pr 8 && below typ 4
  | .vadds e vd vs1 vs2 pr typ => below e 64 && below vd 32 && below vs1 32 && below vs2 32 && below pr 8 && below typ 4
  | .vsubs e vd vs1 vs2 pr typ => below e 64 && below vd 32 && below vs1 32 && below vs2 32 && below pr 8 && below typ 4
  | .vcmpeq e vd vs1 vs2 pr typ => below e 64 && below vd 32 && below vs1 32 && below vs2 32 && below pr 8 && below typ 4
  | .vcmplt e vd vs1 vs2 pr typ => below e 64 && below vd 32 && below vs1 32 && below vs2 32 && below pr 8 && below typ 4
  | .vcmpltu e vd vs1 vs2 pr typ => below e 64 && below vd 32 && below vs1 32 && below vs2 32 && below pr 8 && below typ 4
  | .vsel e vd vs1 vs2 pr typ => below e 64 && below vd 32 && below vs1 32 && below vs2 32 && below pr 8 && below typ 4
  | .vdot e vd vs1 vs2 pr typ => below e 64 && below vd 32 && below vs1 32 && below vs2 32 && below pr 8 && below typ 4
  | .vdotu e vd vs1 vs2 pr typ => below e 64 && below vd 32 && below vs1 32 && below vs2 32 && below pr 8 && below typ 4
  | .vredsum e rd vs1 pr typ => below e 64 && below rd 32 && below vs1 32 && below pr 8 && below typ 4
  | .vredsumu e rd vs1 pr typ => below e 64 && below rd 32 && below vs1 32 && below pr 8 && below typ 4
  | .vredmax e rd vs1 pr typ => below e 64 && below rd 32 && below vs1 32 && below pr 8 && below typ 4
  | .vredmin e rd vs1 pr typ => below e 64 && below rd 32 && below vs1 32 && below pr 8 && below typ 4
  | .vnarrow e vd vs1 vs2 pr typ => below e 64 && below vd 32 && below vs1 32 && below vs2 32 && below pr 8 && below typ 4
  | .vwidel e vd vs1 pr typ => below e 64 && below vd 32 && below vs1 32 && below pr 8 && below typ 4
  | .vwideh e vd vs1 pr typ => below e 64 && below vd 32 && below vs1 32 && below pr 8 && below typ 4
  | .vfadd e vd vs1 vs2 pr typ => below e 64 && below vd 32 && below vs1 32 && below vs2 32 && below pr 8 && below typ 4
  | .vfsub e vd vs1 vs2 pr typ => below e 64 && below vd 32 && below vs1 32 && below vs2 32 && below pr 8 && below typ 4
  | .vfmul e vd vs1 vs2 pr typ => below e 64 && below vd 32 && below vs1 32 && below vs2 32 && below pr 8 && below typ 4
  | .vfma e vd vs1 vs2 pr typ => below e 64 && below vd 32 && below vs1 32 && below vs2 32 && below pr 8 && below typ 4
  | .vfmaw e vd vs1 vs2 pr typ => below e 64 && below vd 32 && below vs1 32 && below vs2 32 && below pr 8 && below typ 4
  | .vfmax e vd vs1 vs2 pr typ => below e 64 && below vd 32 && below vs1 32 && below vs2 32 && below pr 8 && below typ 4
  | .vfmin e vd vs1 vs2 pr typ => below e 64 && below vd 32 && below vs1 32 && below vs2 32 && below pr 8 && below typ 4
  | .vfcvtw2b e vd vs1 vs2 pr typ => below e 64 && below vd 32 && below vs1 32 && below vs2 32 && below pr 8 && below typ 4
  | .vfcvti2b e vd vs1 pr typ => below e 64 && below vd 32 && below vs1 32 && below pr 8 && below typ 4
  | .vfcvtb2i e vd vs1 pr typ => below e 64 && below vd 32 && below vs1 32 && below pr 8 && below typ 4
  | .vfcmplt e vd vs1 vs2 pr typ => below e 64 && below vd 32 && below vs1 32 && below vs2 32 && below pr 8 && below typ 4
  | .vfredsum e rd vs1 pr typ => below e 64 && below rd 32 && below vs1 32 && below pr 8 && below typ 4
  | .vld e vd rs1 pr off => below e 64 && below vd 32 && below rs1 32 && below pr 8 && below off 8192
  | .vst e vs rs1 pr off => below e 64 && below vs 32 && below rs1 32 && below pr 8 && below off 8192
  | .vlut e vd vs1 rs pr typ => below e 64 && below vd 32 && below vs1 32 && below rs 32 && below pr 8 && below typ 4
  | .vbcast e vd rs1 typ => below e 64 && below vd 32 && below rs1 32 && below typ 4
  | .vext e rd vs1 lane typ => below e 64 && below rd 32 && below vs1 32 && below lane 64 && below typ 4
  | .vins e vd rs1 lane typ => below e 64 && below vd 32 && below rs1 32 && below lane 64 && below typ 4
  | .pand e pd ps1 ps2 => below e 64 && below pd 8 && below ps1 8 && below ps2 8
  | .por e pd ps1 ps2 => below e 64 && below pd 8 && below ps1 8 && below ps2 8
  | .pxor e pd ps1 ps2 => below e 64 && below pd 8 && below ps1 8 && below ps2 8
  | .pnot e pd ps1 => below e 64 && below pd 8 && below ps1 8
  | .pmovs e pd rs => below e 64 && below pd 8 && below rs 32
  | .pmovp e rs ps1 => below e 64 && below rs 32 && below ps1 8
  | .dmaStart e rloc rrem rlen ch dir => below e 64 && below rloc 32 && below rrem 32 && below rlen 32 && below ch 4 && below dir 2
  | .wait e ch => below e 64 && below ch 4
  | .stat e rd ch => below e 64 && below rd 32 && below ch 4
  | .nopInstruction e => below e 64
  | .time e rd => below e 64 && below rd 32
  | .cycle e rd => below e 64 && below rd 32
  | .brk e => below e 64
  | .abandon e => below e 64
  | .vemit e rs1 rs2 => below e 64 && below rs1 32 && below rs2 32
  | .illegalInstruction e => below e 64
  | .verdictPlan => true
  | .pressureSample => true
  | .pressFail => true
  | .planSwapGo value => wordOk value
  | .planSwapApply => true
  | .divertRelease d => below d 2
  | .beacon n => below n 8
  | .fire n => below n 8
  | .cancel n => below n 8
  | .rangeExchange n k => below n 8 && below k 4
  | .rangingPeriod n => below n 8
  | .status n bytes _ => below n 8 && bytesOk bytes
  | .seat n bytes => below n 8 && bytesOk bytes
  | .ackTimeout n k => below n 8 && below k 4
  | .modLost n k => below n 8 && below k 4
  | .metRxLockLoss n => below n 8
  | .metTrainingTimeout n => below n 8
  | .metOffline n => below n 8
  | .moduleFrame n k link rx _ _ => below n 8 && below k 4 && below link 2 && bytesOk rx.bytes
  | .moduleBeacon n k link bytes => below n 8 && below k 4 && below link 2 && bytesOk bytes
  | .moduleDriveStart n k valve => below n 8 && below k 4 && below valve 64
  | .moduleSeatDetect n k valve _ => below n 8 && below k 4 && below valve 64
  | .moduleNoSeat n k valve => below n 8 && below k 4 && below valve 64
  | .moduleLinkWatchdog n k link => below n 8 && below k 4 && below link 2
  | .moduleStatusSend n k link => below n 8 && below k 4 && below link 2
  | .moduleOntimeGuard n k valve _ => below n 8 && below k 4 && below valve 64
  | .quadCount n _ _ _ => below n 4
  | .index level => below level.n 4
  | .ssiRead n _ _ _ _ => below n 4
  | .observerUpdate n => below n 4
  | .still n => below n 4
  | .settlingEnd n => below n 4
  | .motChannelEnable n value _ _ => below n 4 && wordOk value
  | .cmpArm c value => below c 8 && wordOk value
  | .posRead n => below n 4
  | .hitTRead c => below c 8
  | .sigFineOutput n _ => below n 16
  | .sigXfGo n value => below n 16 && wordOk value
  | .sigChannelEnable n value => below n 16 && wordOk value
  | .sigSettled n => below n 16
  | .sigStuck n => below n 16
  | .sigOutRead n => below n 16
  | .trimGo value => wordOk value
  | .trimApply => true
  | .trimSlewStep => true
  | .trimRampStep => true
  | .timeRateWrite value => wordOk value
  | .timeSet value => wordOk value
  | .timeSlewWrite value => wordOk value
  | .slewComplete => true
  | .dtRebase => true
  | .skewMeasure _ => true
  | .schedArm n value => below n 16 && wordOk value
  | .schedAction n => below n 16
  | .ppsOutPulse => true
  | .ppsIn _ => true
  | .ppsInTimeout => true
  | .ethFrameRx e bytes _ _ _ => below e 2 && bytesOk bytes
  | .ptpSync _ _ _ _ _ _ _ => true
  | .pdelayMeasure e _ => below e 2
  | .masterTimeout => true
  | .macAgeOut _ => true
  | .ethLinkChange e _ _ _ _ => below e 2
  | .asymClrAll => true
  | .ptmDialog _ _ _ _ _ => true
  | .ptmTimeout => true
  | .timeNowRead _ => true
  | .bar2Write _ bytes => bytesOk bytes
  | .recordWrite q => below q 5
  | .rqFlushTimer q => below q 5
  | .rqFlush q => below q 5
  | .rqEnable q _ => below q 5
  | .rqRelease q bank => below q 5 && below bank 2
  | .rqFault q bank => below q 5 && below bank 2
  | .rqBankFault q _ => below q 5
  | .rqRestore q => below q 5
  | .ringDataTimer q => below q 5
  | .hostRecGo value => wordOk value
  | .drTailWrite r value => below r 2 && wordOk value
  | .descriptorDone r _ => below r 2
  | .packBlock c => below c 4
  | .packBlockDone c _ => below c 4
  | .packSave c => below c 4
  | .packLoad c => below c 4
  | .stateDone c => below c 4
  | .illumApply value => wordOk value
  | .marginWindow _ _ => true
  | .obsSample m => below m 32
  | .obsSnap value => wordOk value
  | .obsPeriodicSnap => true
  | .obsTestWrite value => wordOk value
  | .obsMonitorEnable m value => below m 32 && wordOk value
  | .chkDataWrite c k value => below c 4 && below k 4 && wordOk value
  | .chkGo c => below c 4
  | .chkFeedDone c _ => below c 4
  | .chkInit c => below c 4
  | .heartbeatSend => true
  | .heartbeat ws => wordsOk ws
  | .partnerLost => true
  | .faultRecord ws => wordsOk ws
  | .tokenOffer ws => wordsOk ws
  | .tokenAccept ws => wordsOk ws
  | .tokenRefuse ws => wordsOk ws
  | .tokenRequest ws => wordsOk ws
  | .trigRecord ws => wordsOk ws
  | .ledgerRecord ws => wordsOk ws
  | .slotRecord ws => wordsOk ws
  | .slotRecordTimeout g => below g 8
  | .missRecord ws => wordsOk ws
  | .latRecord ws => wordsOk ws
  | .digestSend => true
  | .digestRecord ws => wordsOk ws
  | .digestTimeout => true
  | .meridianRetransmit => true
  | .laneWdWrite value => wordOk value
  | .startWaitExpiry => true
  | .viewLossTimeout g => below g 8
  | .joinGo value => wordOk value
  | .join ws => wordsOk ws
  | .joinBoundary => true
  | .mirror ws => wordsOk ws
  | .joinEnd ws => wordsOk ws
  | .joinDone => true
  | .digInfoClr value => wordOk value
  | .enum bytes => bytesOk bytes
  | .enumEnd bytes => bytesOk bytes
  | .read bytes => bytesOk bytes
  | .write bytes => bytesOk bytes
  | .resp bytes => bytesOk bytes
  | .bulk bytes => bytesOk bytes
  | .event bytes => bytesOk bytes
  | .tethEnumGo value => wordOk value
  | .tethEnumTimeout => true
  | .tethBrGo value => wordOk value
  | .tethBrTimeout => true
  | .tethBulkGo value => wordOk value
  | .tethBulkDone => true
  | .tethEvtFifoRead => true
  | .tethLinkChange _ _ => true
  | .bootGo value _ => wordOk value
  | .nextSrc value _ => wordOk value
  | .keyProgram value => wordOk value
  | .keyRevoke value => wordOk value
  | .keyDone _ => true
  | .svnCommit value => wordOk value
  | .metRxLock n => below n 8
  | .moduleDriveEnd n k valve => below n 8 && below k 4 && below valve 64
  | .sigFastOutput n _ => below n 16
  | .sigStuckEnd n => below n 16
  | .obsQueueTjTick => true
  | .tapInstruction _ _ => true

end Sys2Proof
end

