-- ==== Sys2Proof/Safety.lean ====
section
/-! DEFINITION. The words in which statements say that a command completes, what it leaves alone, and what a state keeps over every step. -/

namespace Sys2Proof.Machine

/-- The command answers a next state with the queue as it was, and of that state `P` holds. -/
def Completes (i : Instr) (s : State) (P : Dev → Prop) : Prop := ∃ d, exec i s = .next { s with dev := d } ∧ P d

/-- The canonical form of a memory: addresses strictly rising, no listed byte equal to what an unlisted address reads as. -/
def Memory.wf (m : List Host.Cell) : Bool := Sparse.wf 0 m

/-- The four memories are in canonical form, and the register store lists each field once. -/
abbrev Dev.Canonical (d : Dev) : Prop :=
  Sparse.sorted d.regs = true ∧ Memory.wf d.mem = true ∧ Memory.wf d.host = true ∧ Memory.wf d.flash = true ∧ Memory.wf d.mram = true

/-- Every register field but those of `fs` reads as before. -/
def KeepsRegs (d d' : Dev) (fs : List Fld) : Prop := ∀ g : Fld, g.key ∉ fs.map Fld.key → d'.get g = d.get g

/-- Every byte of BAR2 memory, host memory, flash and MRAM reads as before. -/
def KeepsMemory (d d' : Dev) : Prop :=
  ∀ a, d'.byte a = d.byte a ∧ Sparse.get d'.host 0 a = Sparse.get d.host 0 a ∧ Sparse.get d'.flash 0 a = Sparse.get d.flash 0 a
    ∧ Sparse.get d'.mram 0 a = Sparse.get d.mram 0 a

/-- A write at an offset of a page is taken (R54, R58, R65, R543): the page is implemented; the device is out of BOOT, or it is page DEV, TETH or SEC; the
feature that governs the page is accepted, or the register is BLK_SCRATCH; LOCK is 0, or the register is one that LOCK does not bar; and of the block
registers, VESPER_LOCK is 0. -/
abbrev Dev.taken (d : Dev) (page off : Nat) : Prop :=
  pageImplemented page = true ∧ (d.state ≠ 1 ∨ page ∈ [0, 7, 8]) ∧ ((governing page).all d.feat = true ∨ off = 0x34) ∧
  (d.bit (F.BLK_LOCK_LOCK page) = false ∨ off ∈ [0x30, 0x18, 0x1C, 0x2C, 0x34]) ∧ (d.bit (F.BLK_LOCK_VESPER_LOCK page) = false ∨ off < 0x40)

/-- A field that signalling a vector and forming a report record never touch: not IRQ_ARMED or the MSI-X pending bits (R80), not RQ_SEQ, RQ_LOST (R443) or
RQ_STAGE (R453). -/
def Fld.quiet (f : Fld) : Bool :=
  let a := f.key / 32
  let o := a % 0x1_0000
  let p := a / 0x1_0000
  !(p = 2 && (o = 0x148 || o = 0x14C)) && !(p = 6 && 0x130 ≤ o && o < 0x270 && ((o - 0x130) % 0x40 = 0 || (o - 0x130) % 0x40 = 4 || (o - 0x130) % 0x40 = 8)) && !(p = 0x400 && (o = 0x2000 || o = 0x2004))

/-- Nor does recording an event: not BLK_IRQ_RAW or BLK_EVT_CNT of a page (R62, R63). -/
def Fld.calm (f : Fld) : Bool :=
  let o := f.key / 32 % 0x1_0000
  f.quiet && !(o = 0x14 || o = 0x28)

/-- Nor does recording an error: not BLK_ERR_CODE or BLK_ERR_INFO of a page (R64). -/
def Fld.plain (f : Fld) : Bool :=
  let o := f.key / 32 % 0x1_0000
  f.calm && !(o = 0x20 || o = 0x24)

/-! ### Kreov -/

/-- Engine e runs a body within its run limit, and the word at its PC, inside the code of its image, is one that `fits` (R271, R275, R296). -/
def Dev.runs (d : Dev) (e : Nat) (fits : Nat → Bool) : Prop :=
  e < 64 ∧ (d.eng e).body.isSome = true ∧ (∃ i, (d.eng e).img = some i ∧ (d.eng e).pc < i.codeLen) ∧ fits (d.eng e).word = true
    ∧ (d.eng e).retired < (d.eng e).limit * 1024

/-- The instruction retires on engine e, which becomes `y`; no other engine, no register field and no byte of memory outside engines changes. -/
def Retires (i : Instr) (s : State) (e : Nat) (y : Eng) : Prop := Completes i s (fun d =>
  d.eng e = { y with retired := (s.dev.eng e).retired + 1 } ∧ (∀ k, k ≠ e → d.eng k = s.dev.eng k) ∧ KeepsRegs s.dev d [] ∧ KeepsMemory s.dev d)

/-- It writes `v` to a scalar register and the next instruction follows. -/
def WritesS (i : Instr) (s : State) (e rd v : Nat) : Prop := Retires i s e ((s.dev.eng e).setS rd v).step

/-- It writes `v` to a predicate register and the next instruction follows. -/
def WritesP (i : Instr) (s : State) (e pd v : Nat) : Prop := Retires i s e ((s.dev.eng e).setP pd v).step

/-- It writes a vector register whose `n` elements of `w` bits satisfy `P`, and the next instruction follows. -/
def WritesV (i : Instr) (s : State) (e vd w n : Nat) (P : Nat → Nat → Prop) : Prop :=
  ∃ u, Retires i s e ((s.dev.eng e).setV vd u).step ∧ ∀ k, k < n → P k (lane u w k)

/-- Element by element: `f` where the predicate enables the element, else as before (R274). -/
def WritesElements (i : Instr) (s : State) (e vd pr w n : Nat) (f : Nat → Nat) : Prop :=
  WritesV i s e vd w n (fun k v => v = if pbit ((s.dev.eng e).pReg pr) k then f k else lane ((s.dev.eng e).vReg vd) w k)

/-- A comparison: the predicate bit of each enabled element below n, all others 0. -/
def WritesBits (i : Instr) (s : State) (e vd pr n : Nat) (f : Nat → Bool) : Prop :=
  ∃ u, Retires i s e ((s.dev.eng e).setP vd u).step ∧ ∀ k, pbit u k = (decide (k < n) && pbit ((s.dev.eng e).pReg pr) k && f k)

/-- The instruction has no effect but an exception, which ends the body: its code and PC ÷ 4 stand in ENG_LAST_EXC, and its interrupt bit is set; with no
body fetched the engine keeps everything else but its reads in flight (R291, R295, Table isa-9). So where the dispatcher does not stop the body for its
deadline first (R251). -/
def Raises (i : Instr) (s : State) (e code : Nat) : Prop := s.dev.overdue e = none → Completes i s (fun d =>
  let x := s.dev.eng e
  d.get (F.ENG_LAST_EXC_CAUSE e) = code ∧ d.get (F.ENG_LAST_EXC_PC e) = x.pc / 4 % 2 ^ 14 ∧ d.testBit (F.BLK_IRQ_RAW (0x40 + e)) 3 = true
  ∧ (x.fetched = none → d.eng e = { x with body := none, struck := none, busy := x.busy + s.dev.engCycles e, xfers := x.xfers.filter (fun t => !t.isRead) })
  ∧ (∀ k, k ≠ e → d.eng k = s.dev.eng k) ∧ KeepsMemory s.dev d)

/-- The instruction waits: nothing changes but the representation. -/
def Waits (i : Instr) (s : State) : Prop := Completes i s (fun d => d = s.dev.canon)

/-! ### Meridian -/

/-- A record of type `typ` arrives in order over a link that is up: well formed, its CRC good, its SEQ the next one (R509, R510). -/
def Dev.hears (d : Dev) (typ : Nat) (ws : List Nat) : Prop :=
  d.enabled 0x90 = true ∧ d.bit F.TWIN_STAT_LINK_UP = true ∧ ws.getD 0 0 % 256 = typ ∧ merGood ws = true ∧ ws.getD 1 0 = d.mer.rxNext

/-! ### Tether -/

/-- A good frame of type `typ` arrives at a device that repeats (R533, R534). -/
def Dev.takes (d : Dev) (typ : Nat) (b : List Nat) : Prop := d.repeats = true ∧ tethGood b = true ∧ frameType b = typ

end Sys2Proof.Machine
end

