-- ==== Sys2Proof/Certificates/Slice0/Obligations.lean ====
section
/-! DEFINITION. The statements for the provers. A command's statement says, under hypotheses on the state and the operands alone, that the command
answers a next state, and what that state holds by the rules its docstring names. -/

open Sys2Proof Sys2Proof.Machine

/-! ### The machine as a whole -/

/-- One step runs the command at the front of the queue on the state with the queue's rest. -/
def Obligations.StepRunsFront : Prop := ∀ (c : Instr) (s : State), step { s with pending := c :: s.pending } = exec c s

/-- Whatever waits, n steps never stop, and take the first n commands of the queue in their order; with no command waiting a step is one nanosecond of
the free-running counter, and nothing enters the queue (the model's choice, log entry 1). -/
def Obligations.QueueDrainsInOrder : Prop :=
  (∀ (n : Nat) (s : State), ∃ t : State, core.run n s = Host.Outcome.next t ∧ t.pending = s.pending.drop n) ∧
  (∀ s : State, s.pending = [] →
    ∃ d, step s = .next { s with dev := d } ∧ d.time.c = s.dev.time.c + 1 ∧ d.time.base = s.dev.time.base ∧ d.time.rate = s.dev.time.rate)

/-- Every step keeps the register store and the four memories in canonical form: equal contents are equal data. -/
def Obligations.StepKeepsCanonical : Prop := ∀ s t : State, s.dev.Canonical → step s = .next t → t.dev.Canonical

/-- Reset is in canonical form, in BOOT, with no command waiting, and every register field reads the value its register table gives for reset:
among them the identity, the lanes' equaliser start, an unarmed queue and all vectors armed (R44, Tables regs-15 to regs-21). -/
def Obligations.ResetState : Prop :=
  State.reset.dev.Canonical ∧ State.reset.pending = [] ∧ State.reset.dev.state = 1 ∧ (∀ f : Fld, State.reset.dev.get f = f.reset)
    ∧ State.reset.dev.get F.DEV_IDENT_PART = 0x9616 ∧ State.reset.dev.get (F.IRQ_ARMED_ARMED 0) = 0xFFFF_FFFF
    ∧ State.reset.dev.get (F.IRQ_ARMED_ARMED 1) = 0xFFFF_FFFF ∧ (∀ p, alwaysEnabled p = true → State.reset.dev.bit (F.BLK_CTRL_ENABLE p) = true)
    ∧ (∀ p, alwaysEnabled p = false → State.reset.dev.bit (F.BLK_CTRL_ENABLE p) = false)

/-! ### Resets, start-up, protection -/

/-- Power-on reset and VDD_AON lost: the device stands in BOOT with PORST_N low; of the register fields only those in OTP and HBM_FAIL keep their values,
every other reads its reset value; HBM lists nothing; the flash is as before, and MRAM too unless a CAL_COMMIT was under way (R39, R44, R268, R472, R549;
that HBM then reads 0 is the model's choice, log entry 2). At the rising edge of PORST_N the straps are latched, the Tether address and bit 24 of the
offer follow TETH_ROOT, and start-up begins unless a thermal trip holds the reset (R42, R43, R44, R538). -/
def Obligations.PowerOn : Prop := ∀ s : State,
  let cold : Dev → Prop := fun d => d.state = 1 ∧ d.power.porstLow = true
    ∧ (∀ f : Fld, d.get f = if otpKey f.key ∨ hbmFailKey f.key then s.dev.get f else f.reset) ∧ d.mem = []
    ∧ d.power.tripHold = (s.dev.power.tripHold && !s.dev.power.tripCool)
    ∧ ∀ a, Sparse.get d.flash 0 a = Sparse.get s.dev.flash 0 a ∧ (s.dev.executing 0x50 = false → Sparse.get d.mram 0 a = Sparse.get s.dev.mram 0 a)
  Completes .porstAssert s cold ∧ Completes .aonUnderVoltage s cold ∧
  (∀ boot root side, s.dev.power.porstLow = true → Completes (.porstRelease boot root side) s (fun d => d.get F.DEV_STRAPS_BOOT_SRC = boot % 4
    ∧ d.get F.DEV_STRAPS_TETH_ROOT = root % 2 ∧ d.get F.DEV_STRAPS_TWIN_SIDE = side % 2 ∧ d.get F.TETH_ADDR_ADDR = root % 2
    ∧ d.get (F.DEV_FEAT_OFFER_OFFER 0) = 0x02FF_FFFF + root % 2 * 2 ^ 24
    ∧ d.power.porstLow = false ∧ d.power.starting = !s.dev.power.tripHold ∧ d.power.bootAt = s.dev.time.c))

/-- The warm-class resets by ball, watchdog and under-voltage: BOOT, start-up begins, the cause and the count are kept with the straps, the offer that
follows them and the Tether address; a field that Table pkg-12 does not keep reads its reset value, the marks of absent clocks and the boot ROM's own
status apart; the time island is in holdover exactly where REFCLK_TIME is still absent (R39, R44, R45, R411). -/
def Obligations.WarmResets : Prop := ∀ s : State, s.dev.power.porstLow = false → s.dev.power.tripHold = false →
  let warm : Nat → Dev → Prop := fun cause d => d.state = 1 ∧ d.power.starting = true ∧ d.get F.DEV_RESET_CAUSE_CAUSE = cause
    ∧ d.get F.DEV_RESET_CAUSE_WARM_CNT = satInc F.DEV_RESET_CAUSE_WARM_CNT.width (s.dev.get F.DEV_RESET_CAUSE_WARM_CNT) % 2 ^ F.DEV_RESET_CAUSE_WARM_CNT.width
    ∧ d.get F.DEV_STRAPS_BOOT_SRC = s.dev.get F.DEV_STRAPS_BOOT_SRC ∧ d.get F.TETH_ADDR_ADDR = s.dev.get F.TETH_ADDR_ADDR
    ∧ d.get (F.DEV_FEAT_OFFER_OFFER 0) = s.dev.get (F.DEV_FEAT_OFFER_OFFER 0)
    ∧ d.bit F.TIME_STAT_HOLDOVER = s.dev.testBit F.DEV_ENV_STAT_CLK_LOST 1
    ∧ ∀ f : Fld, warmKey f.key = false → f.key ≠ F.DEV_ENV_STAT_CLK_LOST.key → f.key ≠ F.SEC_BOOT_STAT_WAITING.key →
      f.key ≠ F.TIME_STAT_HOLDOVER.key → d.get f = f.reset
  Completes .warmRstN s (warm 2) ∧ Completes .vesperWatchdog s (warm 4) ∧
  Completes (.underVoltageReset false) s (warm 5) ∧ Completes (.underVoltageReset true) s (warm 6)

/-- Start-up ends: with an image that passed its checks Vesper reaches IDENT, RST_OUT_N is high and FAULT_N released, and in a warm start-up exactly the
context generations that read with an uncorrectable error restart at 0; where no slot of the flash can be read, the boot ROM stays in BOOT with the cause
and waits for an image (R47, R202, R542, R544, Table pkg-14). -/
def Obligations.StartupEnds : Prop := ∀ (s : State) (readable : Nat) (single hbmOk : Bool) (dlys : List Nat) (devs : List Int) (badGens : List Nat),
  s.dev.state = 1 → s.dev.power.starting = true → s.dev.power.porstLow = false → s.dev.power.tripHold = false →
  (s.dev.boot.header ≠ [] → Completes (.startupComplete readable single ⟨hbmOk, badGens⟩ dlys devs) s (fun d => d.state = 2 ∧ d.power.starting = false
    ∧ d.pin .rstOutN = .high ∧ d.pin .faultN = .z ∧ (s.dev.power.warmStart = true → ∀ c, Sparse.get d.seg.gens 0 c =
      if c ∈ badGens then 0 else Sparse.get s.dev.seg.gens 0 c))) ∧
  (s.dev.boot.header = [] → s.dev.bit F.SEC_BOOT_STAT_WAITING = false → Completes (.startupComplete 0 single ⟨hbmOk, badGens⟩ dlys devs) s (fun d =>
    d.state = 1 ∧ d.get F.SEC_BOOT_STAT_CAUSE = 1 ∧ d.get F.SEC_BOOT_STAT_WAITING = 1))

/-- The thresholds of Table pkg-15, each on the hottest sensor: the trip resets with its cause, asserts THERM_TRIP_N and holds; the alarm is set and
reported from 105 °C and cleared at 100 °C; throttle from 110 °C is counted and asks every engine that is not at P3 to change, and at its end, at 105 °C,
every engine that is not at the point it is to run at; the changes take their turns, no point changes at once (R34, R44, R49, R50, R261). -/
def Obligations.ThermalProtection : Prop := ∀ (s : State) (ts : List Int), ts ≠ [] → s.dev.power.porstLow = false → s.dev.power.tripHold = false →
  (118 ≤ Dev.hottest ts → Completes (.thermalTrip ts) s (fun d => d.state = 1 ∧ d.get F.DEV_RESET_CAUSE_CAUSE = 7 ∧ d.power.tripHold = true
    ∧ d.pin .thermTripN = .low)) ∧
  (s.dev.bit F.DEV_ENV_STAT_ALARM = false → 105 ≤ Dev.hottest ts → Dev.hottest ts < 110 → Completes (.thermalAlarm ts) s (fun d =>
    d.bit F.DEV_ENV_STAT_ALARM = true ∧ d.getS F.DEV_ENV_STAT_TJ_MAX = Dev.hottest ts ∧ d.testBit (F.BLK_IRQ_RAW 0) 5 = true)) ∧
  (s.dev.bit F.DEV_ENV_STAT_ALARM = true → Dev.hottest ts ≤ 100 → Completes (.thermalAlarm ts) s (fun d => d.bit F.DEV_ENV_STAT_ALARM = false
    ∧ d.testBit (F.BLK_IRQ_RAW 0) 5 = true)) ∧
  (s.dev.bit F.DEV_ENV_STAT_THROTTLE = false → 110 ≤ Dev.hottest ts → Dev.hottest ts < 118 → Completes (.throttleEntry ts) s (fun d =>
    d.bit F.DEV_ENV_STAT_THROTTLE = true ∧ d.power.throttles = s.dev.power.throttles + 1 ∧ ∀ e < 64,
      d.get (F.ENG_PT_ACT e) = s.dev.get (F.ENG_PT_ACT e) ∧ (s.dev.get (F.ENG_PT_ACT e) ≠ 3 → e ∈ d.engines.ptWait))) ∧
  (s.dev.bit F.DEV_ENV_STAT_THROTTLE = true → Dev.hottest ts ≤ 105 → Completes (.throttleRelease ts) s (fun d =>
    d.bit F.DEV_ENV_STAT_THROTTLE = false ∧ ∀ e < 64,
      d.get (F.ENG_PT_ACT e) = s.dev.get (F.ENG_PT_ACT e) ∧ (s.dev.get (F.ENG_PT_ACT e) ≠ d.wantedPoint e → e ∈ d.engines.ptWait)))

/-- A lost reference clock is marked and its consequence follows; on its return the mark goes. REFCLK_SYS: FAULT. REFCLK_TIME: holdover. REFCLK_LANE:
every lane PLL without lock (R41, R411). FAULT is entered from every state but BOOT: FAULT_N is low, nothing waits to be fired; a command that Vesper held
ends with INTERNAL where its own fault was the cause (R72, R76, Table regs-14). -/
def Obligations.ClocksAndFault : Prop := ∀ s : State,
  (s.dev.testBit F.DEV_ENV_STAT_CLK_LOST 0 = false → s.dev.state ≠ 1 → s.dev.state ≠ 15 → Completes .refclkSysLost s (fun d =>
    d.testBit F.DEV_ENV_STAT_CLK_LOST 0 = true ∧ d.state = 15 ∧ d.pin .faultN = .low)) ∧
  (s.dev.testBit F.DEV_ENV_STAT_CLK_LOST 1 = false → Completes .refclkTimeLost s (fun d =>
    d.testBit F.DEV_ENV_STAT_CLK_LOST 1 = true ∧ d.get F.TIME_STAT_HOLDOVER = 1 ∧ d.testBit (F.BLK_IRQ_RAW 0) 4 = true
      ∧ d.testBit (F.BLK_IRQ_RAW 4) 4 = true)) ∧
  (s.dev.testBit F.DEV_ENV_STAT_CLK_LOST 1 = true → Completes .refclkTimeReturn s (fun d =>
    d.testBit F.DEV_ENV_STAT_CLK_LOST 1 = false ∧ d.get F.TIME_STAT_HOLDOVER = 0 ∧ d.testBit (F.BLK_IRQ_RAW 4) 4 = true)) ∧
  (s.dev.testBit F.DEV_ENV_STAT_CLK_LOST 2 = false → Completes .refclkLaneLost s (fun d =>
    d.testBit F.DEV_ENV_STAT_CLK_LOST 2 = true ∧ ∀ g < 13, d.get (F.LNG_PLL_STAT_PLL_LOCK g) = 0 ∧ d.get (F.LNG_PLL_STAT_REF_OK g) = 0)) ∧
  (s.dev.testBit F.DEV_ENV_STAT_CLK_LOST 2 = true → Completes .refclkLaneReturn s (fun d =>
    d.testBit F.DEV_ENV_STAT_CLK_LOST 2 = false ∧ ∀ g < 13, d.get (F.LNG_PLL_STAT_PLL_LOCK g) = 1 ∧ d.get (F.LNG_PLL_STAT_REF_OK g) = 1)) ∧
  (s.dev.state ≠ 1 → s.dev.state ≠ 15 →
    Completes .vesperSramUe s (fun d => d.state = 15 ∧ d.get F.DEV_STATE_PREV = s.dev.state % 16 ∧ d.pin .faultN = .low ∧ d.plan.passing = []
      ∧ ∀ n < 8, (d.metPort n).pend = []) ∧
    (∀ l, s.dev.cmd = some l → Completes .vesperInternal s (fun d => d.state = 15 ∧ d.pin .faultN = .low ∧ d.cmd = none
      ∧ d.get F.CMD_STATUS_RESULT = 15 ∧ d.get F.CMD_STATUS_BUSY = 0 ∧ d.get F.CMD_STATUS_TAG = l.tag % 2 ^ 16)))

/-- The host and the auxiliary interfaces. A host reset returns the HOST page to reset and is counted, DEV_RESET_CAUSE, DEV_STATE and the numbering of the
records staying (R44, R443, R452); PCIE_PERST_N released begins link training where no reset and not the first 1 ms of start-up holds the host island (R45,
R48); Bus Master Enable, D3hot and the Function Mask are taken (R80, R433); the SMBus target answers from the end of BOOT on, Read Byte or Block Read, with
PEC where asked, and never a write (R31; the code of PEC is the model's, log entry 90); the identity of an Ethernet module is shown (R31, Table time-8). -/
def Obligations.HostAndAuxiliary : Prop := ∀ s : State,
  (∀ perst, s.dev.power.porstLow = false → Completes (.hostReset perst) s (fun d => d.get F.HOST_RESETS_COUNT =
      satInc F.HOST_RESETS_COUNT.width (s.dev.get F.HOST_RESETS_COUNT) % 2 ^ F.HOST_RESETS_COUNT.width ∧ d.get F.HOST_LINK_BME = 0
    ∧ (∀ q < 5, d.get (F.RQ_CTRL_EN q) = 0 ∧ (d.queue q).staging = [] ∧ d.get (F.RQ_SEQ_SEQ q) = s.dev.get (F.RQ_SEQ_SEQ q))
    ∧ d.get F.DEV_RESET_CAUSE_CAUSE = s.dev.get F.DEV_RESET_CAUSE_CAUSE ∧ d.state = s.dev.state)) ∧
  (∀ speed width, s.dev.power.porstLow = false → s.dev.power.tripHold = false → s.dev.power.pcieTrain = false →
    ((s.dev.power.starting = false ∨ 1000000 ≤ s.dev.elapsed s.dev.power.bootAt) → Completes (.pciePerstRelease speed width) s (fun d =>
      d.power.pcieTrain = true ∧ d.power.configAt ≤ s.dev.time.c + 100000000 ∧ d.pin .pcieTx = .run
      ∧ d.get F.HOST_LINK_SPEED = speed % 2 ^ F.HOST_LINK_SPEED.width ∧ d.get F.HOST_LINK_WIDTH = width % 2 ^ F.HOST_LINK_WIDTH.width)) ∧
    (s.dev.power.starting = true → s.dev.elapsed s.dev.power.bootAt < 1000000 → Completes (.pciePerstRelease speed width) s (fun d =>
      d.power.pcieTrain = false ∧ d.power.hostHeld = false ∧ KeepsRegs s.dev d []))) ∧
  (∀ bme d3 mask fn, s.dev.power.pcieTrain = true →
    (s.dev.power.configAt ≤ s.dev.time.c → Completes (.pcieBmeChange ⟨bme, mask, fn⟩ d3) s (fun d => d.bit F.HOST_LINK_BME = bme
      ∧ d.bit F.HOST_LINK_D3HOT = d3 ∧ d.bit F.MSIX_FUNCTION_MASK = mask ∧ d.pcie = Dev.pcieHeld fn)) ∧
    (s.dev.time.c < s.dev.power.configAt → Completes (.pcieBmeChange ⟨bme, mask, fn⟩ d3) s (fun d =>
      d.out = .requestRetry :: s.dev.out ∧ d.pcie = s.dev.pcie ∧ KeepsRegs s.dev d [] ∧ KeepsMemory s.dev d))) ∧
  (∀ write code block pec, (write = true ∨ s.dev.state = 1 ∨ s.dev.smbusData code = none) →
    Completes (.smbusRead ⟨write, block, pec⟩ code) s (fun d => d.out.head? = some (.smbus none))) ∧
  (∀ code block pec bs, s.dev.state ≠ 1 → s.dev.smbusData code = some bs → Completes (.smbusRead ⟨false, block, pec⟩ code) s (fun d =>
    let body := if block then bs.length :: bs else bs.take 1
    d.out.head? = some (.smbus (some (if pec then body ++ [Dev.smbusPec ([0xB8, code, 0xB9] ++ body)] else body))))) ∧
  (s.dev.state ≠ 1 → s.dev.smbusData 1 = some (leBytes 4 (s.dev.regWord 0 0x44)) ∧ s.dev.smbusData 0x11 = none) ∧
  Completes .smbusAlertResponse s (fun d => d.out.head? = some (.smbus (if s.dev.state = 1 then none else some [0x5C]))) ∧
  (∀ e bytes, e < 2 → s.dev.state ≠ 1 → Completes (.ethModPresent e bytes) s (fun d => d.get (F.NET_PORT_STAT_MOD_ABS e) = 0
    ∧ ∀ i < 32, d.get (F.NET_MOD_ID_ID (32 * e + i)) = leNat ((bytes.drop (4 * i)).take 4) % 2 ^ 32))

/-! ### The register model -/

/-- Writes that reach no register. One that is no aligned 32-bit access is dropped and recorded on the DEV page with RANGE, ORIGIN register and its word;
every field but those of the records of an event, and every byte, stays (R55). On a page that the device does not implement every register reads 0,
BLK_ID included, and a write changes nothing (R54). One that reaches its block with a parity error is dropped and shown in BUS_WR (Table regs-12). On the
page of a block whose feature is not accepted, from IDENT on: the header reads as it stands with ENABLED = 0, the block registers read 0, and every write
but that of BLK_SCRATCH changes nothing but the records of an error, FEATURE; BLK_SCRATCH is written (R58, R562, R543). -/
def Obligations.DroppedWrites : Prop := ∀ (s : State) (v : Nat),
  (∀ addr size ok, addr < 0x400_0000 → (size ≠ 4 ∨ addr % 4 ≠ 0) →
    s.dev.get (F.BLK_ERR_CODE_CODE 0) = 0 → Completes (.registerWrite addr size ⟨v, ok⟩) s (fun d => d.get (F.BLK_ERR_CODE_CODE 0) = 2
      ∧ d.get (F.BLK_ERR_INFO_ORIGIN 0) = 0 ∧ d.get (F.BLK_ERR_INFO_WORD 0) = addr % 0x1_0000 / 4
      ∧ (∀ f : Fld, f.plain = true → d.get f = s.dev.get f) ∧ KeepsMemory s.dev d)) ∧
  (∀ page off, page < 1024 → pageImplemented page = false → off < 0x1_0000 → off % 4 = 0 →
    (s.dev.bar0Read (page * 0x1_0000 + off)).2 = 0 ∧
    Completes (.registerWrite (page * 0x1_0000 + off) 4 ⟨v, true⟩) s (fun d => KeepsRegs s.dev d [] ∧ KeepsMemory s.dev d ∧ d.out = s.dev.out)) ∧
  (∀ page off, page < 1024 → pageImplemented page = true → off < 0x1_0000 → off % 4 = 0 →
    Completes (.registerWrite (page * 0x1_0000 + off) 4 ⟨v, false⟩) s (fun d => d.bit (F.BLK_PARITY_BUS_WR page) = true
      ∧ d.testBit (F.BLK_IRQ_RAW page) 1 = true
      ∧ (∀ f : Fld, f.calm = true → f.key ≠ (F.BLK_PARITY_BUS_WR page).key → d.get f = s.dev.get f) ∧ KeepsMemory s.dev d)) ∧
  (∀ (page off b : Nat), pageImplemented page = true → governing page = some b →
  s.dev.feat b = false → s.dev.state ≠ 1 → off < 0x1_0000 → off % 4 = 0 →
  (s.dev.bar0Read (page * 0x1_0000 + 0x10)).2 % 2 = 0 ∧
  (0x40 ≤ off → (s.dev.bar0Read (page * 0x1_0000 + off)).2 = 0) ∧
  (off < 0x40 → s.dev.bar0Read (page * 0x1_0000 + off) = s.dev.headerRead page off) ∧
  (off ≠ 0x34 → s.dev.get (F.BLK_ERR_CODE_CODE page) = 0 → Completes (.registerWrite (page * 0x1_0000 + off) 4 ⟨v, true⟩) s (fun d =>
    d.get (F.BLK_ERR_CODE_CODE page) = 5 ∧ (∀ f : Fld, f.plain = true → d.get f = s.dev.get f) ∧ KeepsMemory s.dev d)) ∧
  Completes (.registerWrite (page * 0x1_0000 + 0x34) 4 ⟨v, true⟩) s (fun d => d.get (F.BLK_SCRATCH_SCRATCH page) = v % 2 ^ 32
    ∧ KeepsRegs s.dev d [F.BLK_SCRATCH_SCRATCH page] ∧ KeepsMemory s.dev d))

/-- R65 whole. While LOCK = 1 a write records LOCKED and changes nothing else, those to BLK_LOCK, BLK_IRQ_EN, BLK_IRQ_STAT, BLK_PARITY and BLK_SCRATCH
apart, which pass; while VESPER_LOCK = 1 a write at 0x0040 and above records BUSY; a BLK_LOCK write with a wrong KEY leaves LOCK and records LOCKED. -/
def Obligations.PageLocks : Prop := ∀ (s : State) (page off v : Nat), pageImplemented page = true → s.dev.state ≠ 1 →
  (∀ b, governing page = some b → s.dev.feat b = true) → off < 0x1_0000 → off % 4 = 0 → s.dev.get (F.BLK_ERR_CODE_CODE page) = 0 →
  (s.dev.bit (F.BLK_LOCK_LOCK page) = true → off ∉ [0x30, 0x18, 0x1C, 0x2C, 0x34] → Completes (.registerWrite (page * 0x1_0000 + off) 4 ⟨v, true⟩) s (fun d =>
    d.get (F.BLK_ERR_CODE_CODE page) = 4 ∧ (∀ f : Fld, f.plain = true → d.get f = s.dev.get f) ∧ KeepsMemory s.dev d)) ∧
  (off ∈ [0x30, 0x18, 0x1C, 0x2C, 0x34] → s.dev.gate page off = .pass) ∧
  (s.dev.bit (F.BLK_LOCK_LOCK page) = false → s.dev.bit (F.BLK_LOCK_VESPER_LOCK page) = true → 0x40 ≤ off →
    Completes (.registerWrite (page * 0x1_0000 + off) 4 ⟨v, true⟩) s (fun d => d.get (F.BLK_ERR_CODE_CODE page) = 3
      ∧ (∀ f : Fld, f.plain = true → d.get f = s.dev.get f) ∧ KeepsMemory s.dev d)) ∧
  (bitsAt v 16 16 ≠ 0x4C4B → Completes (.blkLockWrite page v) s (fun d => d.get (F.BLK_LOCK_LOCK page) = s.dev.get (F.BLK_LOCK_LOCK page)
    ∧ d.get (F.BLK_ERR_CODE_CODE page) = 4)) ∧
  (bitsAt v 16 16 = 0x4C4B → Completes (.blkLockWrite page v) s (fun d => d.get (F.BLK_LOCK_LOCK page) = v % 2
    ∧ KeepsRegs s.dev d [F.BLK_LOCK_LOCK page] ∧ KeepsMemory s.dev d))

/-- R63 whole: the page interrupt is asserted exactly while BLK_IRQ_STAT ≠ 0, and every event counts in BLK_EVT_CNT, on a bit already set and on one not
enabled alike; its bit is set (R62). -/
def Obligations.EventsCounted : Prop := ∀ (d : Dev) (p b : Nat), b < 32 →
  (d.asserted p = true ↔ (d.get (F.BLK_IRQ_RAW p) &&& d.get (F.BLK_IRQ_EN p)) ≠ 0) ∧
  (d.raise p b).get (F.BLK_EVT_CNT_COUNT p) = (d.get (F.BLK_EVT_CNT_COUNT p) + 1) % 2 ^ 32 ∧ (d.raise p b).testBit (F.BLK_IRQ_RAW p) b = true ∧
  (d.raise p b).get (F.BLK_IRQ_EN p) = d.get (F.BLK_IRQ_EN p)

/-- An error goes into an empty CODE with its description and the next SEQ; into a full one it only counts in OVERRUN, and the first error and its
description stay; either way it is an ERR event (R64, Tables regs-10 and regs-11). -/
def Obligations.ErrorRecord : Prop := ∀ (d : Dev) (p : Nat) (e : Dev.Err) (detail : Nat) (o : Dev.Origin) (w : Nat),
  (d.get (F.BLK_ERR_CODE_CODE p) = 0 → (d.error p e detail o w).get (F.BLK_ERR_CODE_CODE p) = e.code
    ∧ (d.error p e detail o w).get (F.BLK_ERR_CODE_SEQ p) = (d.get (F.BLK_ERR_CODE_SEQ p) + 1) % 16
    ∧ (d.error p e detail o w).get (F.BLK_ERR_INFO_SEQ p) = (d.get (F.BLK_ERR_CODE_SEQ p) + 1) % 16
    ∧ (d.error p e detail o w).get (F.BLK_ERR_INFO_DETAIL p) = detail % 16 ∧ (d.error p e detail o w).get (F.BLK_ERR_INFO_ORIGIN p) = o.code
    ∧ (d.error p e detail o w).get (F.BLK_ERR_INFO_WORD p) = w % 2 ^ 14
    ∧ (d.error p e detail o w).get (F.BLK_ERR_CODE_OVERRUN p) = d.get (F.BLK_ERR_CODE_OVERRUN p)) ∧
  (d.get (F.BLK_ERR_CODE_CODE p) ≠ 0 → (d.error p e detail o w).get (F.BLK_ERR_CODE_CODE p) = d.get (F.BLK_ERR_CODE_CODE p)
    ∧ (d.error p e detail o w).get (F.BLK_ERR_CODE_OVERRUN p) = satInc 8 (d.get (F.BLK_ERR_CODE_OVERRUN p)) % 256
    ∧ (d.error p e detail o w).get (F.BLK_ERR_INFO_WORD p) = d.get (F.BLK_ERR_INFO_WORD p)
    ∧ (d.error p e detail o w).get (F.BLK_ERR_INFO_DETAIL p) = d.get (F.BLK_ERR_INFO_DETAIL p)) ∧
  (d.error p e detail o w).testBit (F.BLK_IRQ_RAW p) 0 = true

/-- The block control commands where Table regs-7 accepts them: ENABLE from NEGOTIATED, CONFIGURED and SERVICE; SOFT_RESET clears FAULT, and on a CXP page
the counters and the trigger index; TEST of a withdrawn page; FREEZE; a withdrawn block that has ended its work goes OFFLINE (R60, R61, Table regs-6). -/
def Obligations.BlockControl : Prop := ∀ (s : State) (page : Nat) (v : Bool), pageImplemented page = true →
  (s.dev.taken page 0x0C → alwaysEnabled page = false → s.dev.quiet = true → Completes (.blkEnable page v) s (fun d =>
    d.bit (F.BLK_CTRL_ENABLE page) = v)) ∧
  (s.dev.taken page 0x0C → (s.dev.bit (F.BLK_CTRL_ENABLE page) = false ∨ s.dev.offline page = true ∨ s.dev.state = 8) →
    Completes (.softReset page) s (fun d => d.bit (F.BLK_STAT_FAULT page) = false
      ∧ ∀ p < 16, page = 16 + p → d.get (F.CXP_CNT_MATCHED_COUNT p) = 0 ∧ (d.gen p).nextIndex = 0)) ∧
  (s.dev.taken page 0x0C → noTestSource page = false → isEng page = false → s.dev.offline page = true → Completes (.blkTest page v) s (fun d =>
    d.bit (F.BLK_CTRL_TEST page) = v)) ∧
  (s.dev.taken page 0x0C → 3 ≤ s.dev.state → Completes (.freeze page v) s (fun d => d.bit (F.BLK_CTRL_FREEZE page) = v)) ∧
  (s.dev.taken page 0x0C → servesOffline page = true → Completes (.offlineReq page v) s (fun d => d.bit (F.BLK_CTRL_OFFLINE_REQ page) = v)) ∧
  (servesOffline page = true → isMet page = false → s.dev.bit (F.BLK_CTRL_OFFLINE_REQ page) = true → s.dev.offline page = false →
    s.dev.workEnded page = true → Completes (.blockOffline page) s (fun d => d.offline page = true ∧ KeepsRegs s.dev d [F.BLK_STAT_OFFLINE page]
      ∧ KeepsMemory s.dev d))

/-- Interrupt and error registers: a write of 1 to BLK_IRQ_STAT clears the pending bit, and a set in the same cycle wins, a fault's or a parity error's
too (R57, R62, Tables regs-8 and regs-12); a read of BLK_ERR_CODE answers it and gives CODE and OVERRUN up, and an error that comes in that cycle to a CODE
held counts in OVERRUN alone (R57, R64); IRQ_ROUTE is taken; a vector re-armed with nothing pending is armed, and with a source
pending and not masked in PCIe sends its message at once and is disarmed (R80; where the masks stand is the model's, log entry 89). -/
def Obligations.InterruptRegisters : Prop := ∀ (s : State) (page n v b : Nat),
  (s.dev.taken page 0x1C → Completes (.blkIrqStatWrite page v ⟨0, 0⟩) s (fun d => d.get (F.BLK_IRQ_RAW page) =
      (s.dev.get (F.BLK_IRQ_RAW page) - (s.dev.get (F.BLK_IRQ_RAW page) &&& (v % 2 ^ 32))) % 2 ^ 32
    ∧ KeepsRegs s.dev d [F.BLK_IRQ_RAW page] ∧ KeepsMemory s.dev d)) ∧
  (s.dev.taken page 0x1C → b < 32 → irqSources page / 2 ^ b % 2 = 1 → b ≠ 2 → Completes (.blkIrqStatWrite page v ⟨2 ^ b, 0⟩) s (fun d =>
    d.testBit (F.BLK_IRQ_RAW page) b = true ∧ d.get (F.BLK_EVT_CNT_COUNT page) = (s.dev.get (F.BLK_EVT_CNT_COUNT page) + 1) % 2 ^ 32)) ∧
  (s.dev.taken page 0x1C → irqSources page / 4 % 2 = 1 → Completes (.blkIrqStatWrite page v ⟨4, 0⟩) s (fun d =>
    d.testBit (F.BLK_IRQ_RAW page) 2 = true ∧ d.bit (F.BLK_STAT_FAULT page) = true)) ∧
  (s.dev.taken page 0x1C → Completes (.blkIrqStatWrite page v ⟨0, 16⟩) s (fun d =>
    d.testBit (F.BLK_IRQ_RAW page) 1 = true ∧ d.bit (F.BLK_PARITY_SRAM_UE page) = true)) ∧
  (pageImplemented page = true → s.dev.state ≠ 1 → Completes (.blkErrCodeRead ⟨page, 4, []⟩) s (fun d =>
    d.out.head? = some (.readData (page * 0x1_0000 + 0x20) (s.dev.regWord page 0x20)) ∧ d.get (F.BLK_ERR_CODE_CODE page) = 0
      ∧ d.get (F.BLK_ERR_CODE_OVERRUN page) = 0 ∧ KeepsRegs s.dev d [F.BLK_ERR_CODE_CODE page, F.BLK_ERR_CODE_OVERRUN page] ∧ KeepsMemory s.dev d)) ∧
  (∀ c, pageImplemented page = true → s.dev.state ≠ 1 → s.dev.get (F.BLK_ERR_CODE_CODE page) ≠ 0 → c ≠ 0 →
    Completes (.blkErrCodeRead ⟨page, 4, [c]⟩) s (fun d => d.get (F.BLK_ERR_CODE_OVERRUN page) = 1 ∧ d.testBit (F.BLK_IRQ_RAW page) 0 = true)) ∧
  (n < 37 → s.dev.taken 2 (0x80 + 4 * n) → Completes (.irqRouteWrite n v) s (fun d => ∀ k < 4, pageImplemented (4 * n + k) = true →
    d.get (F.IRQ_ROUTE_MASK n k) = bitsAt v (8 * k + 7) 1 ∧ d.get (F.IRQ_ROUTE_VECTOR n k) = bitsAt v (8 * k) 6)) ∧
  (n < 2 → b < 32 → s.dev.taken 2 (0x140 + 4 * n) → s.dev.vectorPending (32 * n + b) = false → Completes (.irqRearm n (2 ^ b)) s (fun d =>
    d.armed (32 * n + b) = true ∧ d.out = s.dev.out)) ∧
  (n < 2 → b < 32 → s.dev.taken 2 (0x140 + 4 * n) → s.dev.vectorPending (32 * n + b) = true → s.dev.canRequest = true →
    s.dev.msixMasked (32 * n + b) = false →
    Completes (.irqRearm n (2 ^ b)) s (fun d => d.armed (32 * n + b) = false ∧ d.out = .msix (32 * n + b) :: s.dev.out))

/-- Feature negotiation: in IDENT a write of 1 starts validation; it fails with FEATURE and the lowest offending bit, the device staying in IDENT, or
succeeds into NEGOTIATED (R69, R70, R23, Table regs-18). Outside IDENT the write records STATE. -/
def Obligations.Negotiation : Prop := ∀ (s : State) (v : Nat),
  (s.dev.taken 0 0x70 → s.dev.state = 2 → v % 2 = 1 → Completes (.devFeatCommit v) s (fun d => d.bit F.DEV_FEAT_COMMIT_COMMIT = true
    ∧ KeepsRegs s.dev d [F.DEV_FEAT_COMMIT_COMMIT] ∧ KeepsMemory s.dev d)) ∧
  (s.dev.taken 0 0x70 → s.dev.state ≠ 2 → s.dev.get (F.BLK_ERR_CODE_CODE 0) = 0 → Completes (.devFeatCommit v) s (fun d =>
    d.get (F.BLK_ERR_CODE_CODE 0) = 1 ∧ d.bit F.DEV_FEAT_COMMIT_COMMIT = s.dev.bit F.DEV_FEAT_COMMIT_COMMIT)) ∧
  (∀ b, s.dev.state = 2 → s.dev.bit F.DEV_FEAT_COMMIT_COMMIT = true → s.dev.commitFault s.dev.acceptSet = some b → Completes .commitDone s (fun d =>
    d.state = 2 ∧ d.get F.DEV_FEAT_RESULT_RESULT = 5 ∧ d.get F.DEV_FEAT_RESULT_BIT = b ∧ d.accepted = s.dev.accepted
      ∧ d.testBit (F.BLK_IRQ_RAW 0) 7 = true)) ∧
  (s.dev.state = 2 → s.dev.bit F.DEV_FEAT_COMMIT_COMMIT = true → s.dev.commitFault s.dev.acceptSet = none → Completes .commitDone s (fun d =>
    d.state = 3))

/-! ### Vesper's commands -/

/-- The mailbox: a SUBMIT latches the command, sets BUSY and locks the pages it touches, or completes with the first check it fails; a command that
outlives its limit completes with TIMEOUT and leaves DEV_STATE, but that a drain then ends at once in CONFIGURED; NOP completes with OK (R74, R77–R79). -/
def Obligations.Mailbox : Prop := ∀ s : State,
  (∀ v, s.dev.taken 1 0x64 → v % 2 = 1 → s.dev.bit F.CMD_STATUS_BUSY = false →
    s.dev.cmdFault (s.dev.get F.CMD_CODE_CODE) ((List.range 8).map (fun n => s.dev.get (F.CMD_ARG_ARG n))) = none →
    Completes (.cmdSubmit v) s (fun d => d.bit F.CMD_STATUS_BUSY = true ∧ d.executing (s.dev.get F.CMD_CODE_CODE) = true
      ∧ (∀ n < 8, d.arg n = s.dev.get (F.CMD_ARG_ARG n))
      ∧ ∀ p ∈ cmdPages (s.dev.get F.CMD_CODE_CODE) ((List.range 8).map (fun n => s.dev.get (F.CMD_ARG_ARG n))), d.bit (F.BLK_LOCK_VESPER_LOCK p) = true)) ∧
  (∀ v e k, s.dev.taken 1 0x64 → v % 2 = 1 → s.dev.bit F.CMD_STATUS_BUSY = false →
    s.dev.cmdFault (s.dev.get F.CMD_CODE_CODE) ((List.range 8).map (fun n => s.dev.get (F.CMD_ARG_ARG n))) = some (e, k) →
    Completes (.cmdSubmit v) s (fun d => d.bit F.CMD_STATUS_BUSY = false ∧ d.get F.CMD_STATUS_RESULT = e.code ∧ d.cmd = none)) ∧
  (∀ l n, s.dev.cmd = some l → cmdLimit l.code l.args = some n → n < s.dev.elapsed l.t0 → Completes .cmdTimeout s (fun d =>
    d.bit F.CMD_STATUS_BUSY = false ∧ d.get F.CMD_STATUS_RESULT = 7 ∧ d.get F.CMD_STATUS_TAG = l.tag % 2 ^ 16
      ∧ (l.code ∉ [0x21, 0x48] → d.state = s.dev.state) ∧ (l.code = 0x21 → l.args.getD 0 0 % 2 = 1 → d.state = s.dev.state)
      ∧ (l.code = 0x21 → l.args.getD 0 0 % 2 = 0 → s.dev.sorting = true → d.state = 4))) ∧
  (s.dev.executing 0x00 = true → s.dev.cmdLegal 0x00 = true → Completes .nop s (fun d => d.bit F.CMD_STATUS_BUSY = false
    ∧ d.get F.CMD_STATUS_RESULT = 0 ∧ d.cmd = none ∧ d.state = s.dev.state))

/-- The commands between configuration and sorting (R16, R563, R71–R75, Table regs-20): CONFIGURE refuses with RANGE and stays, or enters CONFIGURED;
DECONFIGURE and RENEGOTIATE go back; START refuses with the page that is missing, or sorts; STOP at once ends in CONFIGURED, with drain it stops the
generators and ends in CONFIGURED when all is drained. -/
def Obligations.ConfigureStartStop : Prop := ∀ s : State,
  (s.dev.executing 0x10 = true → s.dev.state = 3 → s.dev.mapBad (s.dev.get F.PLAN_SWAP_ACTIVE) = none →
    (s.dev.configFault = none → Completes .configure s (fun d => d.state = 4 ∧ d.cmd = none)) ∧
    (∀ e, s.dev.configFault = some e → Completes .configure s (fun d => d.state = 3 ∧ d.cmd = none ∧ d.get F.CMD_STATUS_RESULT = 2))) ∧
  (s.dev.executing 0x11 = true → s.dev.state = 4 → Completes .deconfigure s (fun d => d.state = 3 ∧ d.cmd = none)) ∧
  (s.dev.executing 0x12 = true → s.dev.state = 3 → Completes .renegotiate s (fun d => d.state = 2 ∧ d.cmd = none)) ∧
  (∀ p, s.dev.executing 0x20 = true → s.dev.state = 4 → s.dev.pageMissing = some p → Completes .start s (fun d => d.state = 4 ∧ d.cmd = none
    ∧ d.get F.CMD_STATUS_RESULT = 2 ∧ d.get (F.CMD_RET_RET 0) = p % 2 ^ 32)) ∧
  (s.dev.executing 0x20 = true → s.dev.state = 4 → s.dev.pageMissing = none → Completes .start s (fun d => d.cmd = none
    ∧ (d.state = 5 ∨ d.state = 6 ∨ d.state = 7))) ∧
  (s.dev.executing 0x21 = true → s.dev.cmdLegal 0x21 = true → s.dev.arg 0 % 2 = 0 → s.dev.plan.drain = false → Completes .stopDrain s (fun d =>
    ∀ g < 16, d.bit (F.TGEN_CTRL_RUNNING g) = false)) ∧
  (s.dev.executing 0x21 = true → s.dev.cmdLegal 0x21 = true → s.dev.arg 0 % 2 = 1 → Completes .stopImmediate s (fun d => d.state = 4 ∧ d.cmd = none)) ∧
  (s.dev.plan.drain = true → s.dev.drained = true → s.dev.drainStore.drained = true → s.dev.drainStore.scheduled = false →
    Completes .drainComplete s (fun d => d.state = 4 ∧ d.cmd = none))

/-- The commands that change the level or the role, and those that leave sorting (R71, R72, R518, R524, R525, R79, R556): ENTER_TWILIGHT, ENTER_ECLIPSE and
RESUME end in the state they name; HANDOVER and REQUEST put their TOKEN record on the link; FORCE takes the token; SERVICE is entered and left;
DEVICE_RESET and FW_ACTIVATE with a staged image reset with cause 3. -/
def Obligations.LevelCommands : Prop := ∀ s : State,
  (s.dev.executing 0x22 = true → s.dev.state = 5 → Completes .enterTwilight s (fun d => d.state = 6 ∧ d.cmd = none)) ∧
  (s.dev.executing 0x23 = true → (s.dev.state = 5 ∨ s.dev.state = 6) → Completes .enterEclipse s (fun d => d.state = 7 ∧ d.cmd = none)) ∧
  (s.dev.executing 0x24 = true → (s.dev.state = 6 ∨ s.dev.state = 7) → s.dev.arg 0 ≠ s.dev.state → (s.dev.arg 0 = 5 ∨ s.dev.arg 0 = 6) →
    s.dev.sourceUsable (s.dev.arg 0) = true → Completes .resume s (fun d => d.state = s.dev.arg 0 ∧ d.cmd = none)) ∧
  (s.dev.executing 0x28 = true → s.dev.sorting = true → s.dev.arg 0 = 0 → s.dev.isLead = true → s.dev.bit F.TWIN_STAT_PARTNER_OK = true →
    s.dev.bit F.TWIN_STAT_LINK_UP = true → s.dev.mer.offer = none → Completes .handover s (fun d =>
      d.mer.offer = some ((s.dev.get F.TWIN_TOKEN_EPOCH + 1) % 65536, .command) ∧ ∃ ws, d.out = .meridian ws (s.dev.stripes ws) :: s.dev.out
        ∧ ws.head? = some ((s.dev.get F.TWIN_TOKEN_EPOCH + 1) % 65536 * 2 ^ 16 + 0x102))) ∧
  (s.dev.executing 0x28 = true → s.dev.sorting = true → s.dev.state ≠ 7 → s.dev.arg 0 = 1 → s.dev.isShadow = true →
    s.dev.bit F.TWIN_STAT_PARTNER_OK = true → s.dev.bit F.TWIN_STAT_LINK_UP = true → Completes .request s (fun d =>
      ∃ ws, d.out = .meridian ws (s.dev.stripes ws) :: s.dev.out ∧ ws.getD 2 0 = 3)) ∧
  (s.dev.executing 0x28 = true → s.dev.sorting = true → s.dev.state ≠ 7 → s.dev.arg 0 = 2 → (s.dev.role = 2 ∨ s.dev.role = 3) →
    s.dev.laneClockLost = false → Completes .force s (fun d => d.get F.TWIN_TOKEN_HELD = 1 ∧ d.role = 1 ∧ d.cmd = none)) ∧
  (s.dev.executing 0x30 = true → s.dev.cmdLegal 0x30 = true → s.dev.feat 1 = false → s.dev.arg 0 % 2 = 1 → Completes .serviceEnter s (fun d =>
    d.state = 8 ∧ d.cmd = none)) ∧
  (s.dev.executing 0x31 = true → s.dev.state = 8 → Completes .serviceExit s (fun d => d.state = 4 ∧ d.cmd = none)) ∧
  (s.dev.executing 0x38 = true → s.dev.cmdLegal 0x38 = true → s.dev.power.porstLow = false → s.dev.power.tripHold = false →
    Completes .deviceReset s (fun d => d.state = 1 ∧ d.get F.DEV_RESET_CAUSE_CAUSE = 3 ∧ d.cmd = none)) ∧
  (s.dev.executing 0x62 = true → s.dev.cmdLegal 0x62 = true → s.dev.power.porstLow = false → s.dev.power.tripHold = false →
    s.dev.get F.SEC_FW_STAT_STAGE = 2 → s.dev.get F.DEV_STRAPS_BOOT_SRC = 0 → Completes .fwActivate s (fun d =>
      d.state = 1 ∧ d.get F.DEV_RESET_CAUSE_CAUSE = 3 ∧ d.boot.trial = true))

/-! ### Camera ports and line triggering -/

/-- The link of a camera port (R84–R86, R111–R114): power wait, discovery over a running uplink with the highest common rate, READY, lock loss, relink, a
power fault, power over the cable, and PORT_RESTART with power held low or with the last rate kept. -/
def Obligations.CameraLink : Prop := ∀ (s : State) (p : Nat), p < 16 →
  (s.dev.portState p = 1 → 500000000 ≤ s.dev.elapsed (s.dev.port p).since → Completes (.cxpPowerWaitExpiry p) s (fun d => d.portState p = 2
    ∧ (d.port p).since = s.dev.time.c)) ∧
  (∀ rates conns c, s.dev.portState p = 2 → s.dev.uplink p = true → 1 ≤ c → c < 8 → c ≤ s.dev.get (F.CXP_LINK_SPEED_MAX p) → rates / 2 ^ c % 2 = 1 →
    (∀ c', c < c' → c' < 8 → c' ≤ s.dev.get (F.CXP_LINK_SPEED_MAX p) → rates / 2 ^ c' % 2 = 0) → s.dev.get (F.CXP_CTRL_CONN p) + 1 ≤ conns →
    Completes (.cxpDiscovery p true rates conns) s (fun d => d.portState p = 3 ∧ d.get (F.CXP_LINK_SPEED p) = c
      ∧ d.out.head? = some (.cxpSetup p c (s.dev.get (F.CXP_CTRL_CONN p))))) ∧
  (∀ rates conns, s.dev.portState p = 2 → s.dev.uplink p = true → conns < s.dev.get (F.CXP_CTRL_CONN p) + 1 → s.dev.get (F.BLK_ERR_CODE_CODE (cxp p)) = 0 →
    Completes (.cxpDiscovery p true rates conns) s (fun d => d.portState p = 2 ∧ d.get (F.BLK_ERR_CODE_CODE (cxp p)) = 2
      ∧ d.get (F.BLK_ERR_INFO_DETAIL (cxp p)) = 1)) ∧
  (s.dev.portState p = 3 → s.dev.allLocked p = true → 1000000 ≤ s.dev.elapsed (s.dev.port p).lockSince → Completes (.cxpLinkReady p) s (fun d =>
    d.portState p = 4 ∧ (d.port p).downAt = none)) ∧
  (∀ c, c ≤ s.dev.get (F.CXP_CTRL_CONN p) → s.dev.testBit (F.CXP_LINK_LOCK p) c = true → s.dev.portUp p = true → Completes (.cxpLockLoss p c) s (fun d => d.portState p = 7 ∧ d.testBit (F.CXP_LINK_LOCK p) c = false
    ∧ d.testBit (F.BLK_IRQ_RAW (cxp p)) 3 = true)) ∧
  (s.dev.portState p = 7 → s.dev.bit (F.CXP_CTRL_AUTO_RELINK p) = true → s.dev.allLocked p = true → s.dev.elapsed (s.dev.port p).since ≤ 10000000 →
    Completes (.cxpRelink p) s (fun d => d.portState p = 4)) ∧
  (s.dev.portState p = 7 → 10000000 < s.dev.elapsed (s.dev.port p).since → Completes (.cxpRelinkTimeout p) s (fun d => d.portState p = 7
    ∧ KeepsRegs s.dev d [] ∧ KeepsMemory s.dev d)) ∧
  (s.dev.portState p ≠ 0 → s.dev.portState p ≠ 9 → Completes (.cxpPwrFault p true) s (fun d => d.portState p = 8 ∧ d.get (F.CXP_CTRL_POCXP_EN p) = 0
    ∧ d.get (F.CXP_PWR_EN_LEVEL p) = 0 ∧ d.get (F.CXP_PWR_FLT_LATCH p) = 1 ∧ d.get (F.CXP_PWR_FLT p) = 1)) ∧
  Completes (.cxpPwrFault p false) s (fun d => d.get (F.CXP_PWR_FLT p) = 0 ∧ KeepsRegs s.dev d [F.CXP_PWR_FLT p] ∧ KeepsMemory s.dev d) ∧
  (s.dev.taken (cxp p) 0x40 → s.dev.bit (F.CXP_PWR_FLT_LATCH p) = false → s.dev.bit (F.CXP_PWR_FLT p) = false → s.dev.portState p = 8 →
    Completes (.pocxpEnWrite p true) s (fun d => d.portState p = 1 ∧ d.get (F.CXP_CTRL_POCXP_EN p) = 1 ∧ d.get (F.CXP_PWR_EN_LEVEL p) = 1)) ∧
  (s.dev.taken (cxp p) 0x40 → s.dev.get (F.BLK_ERR_CODE_CODE (cxp p)) = 0 → (s.dev.bit (F.CXP_PWR_FLT_LATCH p) = true ∨ s.dev.bit (F.CXP_PWR_FLT p) = true) →
    Completes (.pocxpEnWrite p true) s (fun d => d.get (F.CXP_CTRL_POCXP_EN p) = s.dev.get (F.CXP_CTRL_POCXP_EN p)
      ∧ d.get (F.BLK_ERR_CODE_CODE (cxp p)) = 1)) ∧
  (s.dev.taken (cxp p) 0x40 → Completes (.pocxpEnWrite p false) s (fun d => d.get (F.CXP_CTRL_POCXP_EN p) = 0 ∧ d.get (F.CXP_PWR_EN_LEVEL p) = 0
    ∧ KeepsRegs s.dev d [F.CXP_CTRL_POCXP_EN p, F.CXP_PWR_EN_LEVEL p] ∧ KeepsMemory s.dev d)) ∧
  (s.dev.executing 0x40 = true → s.dev.arg 0 % 16 = p → (s.dev.port p).restartAt = none → s.dev.relayed p = false →
    s.dev.bit (F.BLK_CTRL_ENABLE (cxp p)) = true →
    (s.dev.arg 0 / 256 % 2 = 1 → Completes .portRestart s (fun d => d.portState p = 6 ∧ d.get (F.CXP_PWR_EN_LEVEL p) = 0 ∧ (d.port p).restartAt = some s.dev.time.c)) ∧
    (s.dev.arg 0 / 256 % 2 = 0 → s.dev.arg 0 / 512 % 2 = 1 → Completes .portRestart s (fun d => d.portState p = 3)))

/-- Triggers, lines and row slots (R83, R90, R93, R95, R96, R98, R101, R102, R408): a trigger issued at its instant takes the next index; an edge on TRIG_IN
paces the generators that name it, stamped to 250 ps; a STEP is taken with its fraction for the triggers not yet begun; a line that finds no trigger is
counted extra; triggers past LAT_MAX are missing; the watchdog closes a slot; a slot with every line settled is released. -/
def Obligations.TriggersAndLines : Prop := ∀ (s : State) (g : Nat), g < 16 →
  (∀ t, (s.dev.gen g).due = [t] → s.dev.genRunning g = true → t ≤ s.dev.stamp → (s.dev.gen g).last = none → Completes (.triggerIssue g) s (fun d =>
    d.get (F.TGEN_INDEX_INDEX g) = (s.dev.gen g).nextIndex % 2 ^ 32 ∧ (d.gen g).last = some t ∧ (d.gen g).nextIndex = ((s.dev.gen g).nextIndex + 1) % 2 ^ 32
      ∧ d.get (F.TGEN_LAST_LO_DT_LO g) = t / 2 ^ 16 % 2 ^ 32)) ∧
  (∀ t l, (s.dev.gen g).due = [t] → s.dev.genRunning g = true → t ≤ s.dev.stamp → (s.dev.gen g).last = some l → (s.dev.gen g).postponed = false →
    t < l + s.dev.genMinInt g → Completes (.triggerIssue g) s (fun d => d.get (F.TGEN_SKIP_POSTPONED g) =
        (s.dev.get (F.TGEN_SKIP_POSTPONED g) + 1) % 2 ^ 16 ∧ (d.gen g).due.head? = some (l + s.dev.genMinInt g)
      ∧ (d.gen g).postponed = true)) ∧
  (∀ i high q, 10 ≤ high → q < 4 → s.dev.genRunning g = true → s.dev.get (F.TGEN_CTRL_MODE g) = 3 → s.dev.get (F.TGEN_CTRL_IN_SEL g) = i →
    Completes (.trigInEdge i ⟨high, q⟩) s (fun d =>
      (d.gen g).due = (s.dev.gen g).due ++ [(s.dev.stamp + q * 2 ^ 14) / 2 ^ 14 * 2 ^ 14 + s.dev.genDelay g] ∧ KeepsRegs s.dev d [] ∧ KeepsMemory s.dev d)) ∧
  (∀ i high q, high < 10 → Completes (.trigInEdge i ⟨high, q⟩) s (fun d => d.gen g = s.dev.gen g)) ∧
  (∀ step, s.dev.taken (cxp g) 0xC4 → step % 2 ^ 32 ≠ 0 → Completes (.tgenStepWrite g step) s (fun d => d.get (F.TGEN_STEP_STEP g) = step % 2 ^ 32
    ∧ (d.gen g).step = step % 2 ^ 32 * 2 ^ 16 + s.dev.get (F.TGEN_STEP_FRAC_FRAC g)
    ∧ (∀ t b, s.dev.genRunning g = true → s.dev.get (F.TGEN_CTRL_MODE g) = 1 → (s.dev.gen g).due = [t] → (s.dev.gen g).prev = some b →
        (d.gen g).due = [b + (d.gen g).step])
    ∧ KeepsRegs s.dev d [F.TGEN_STEP_STEP g] ∧ KeepsMemory s.dev d)) ∧
  (∀ sid a vs, sid ∈ s.dev.streams g → s.dev.portUp g = true → (s.dev.port g).fifo = [] → (Dev.rxOf (s.dev.port g) sid).busy = false →
    (Dev.rxOf (s.dev.port g) sid).marks = true → vs ≠ [] → vs.length ≤ s.dev.lineTotal g sid → Completes (.cxpStreamPacket g sid a [.samples vs] true) s (fun d =>
      d.get (F.CXP_CNT_EXTRA_COUNT g) = (s.dev.get (F.CXP_CNT_EXTRA_COUNT g) + 1) % 2 ^ 32 ∧ d.testBit (F.BLK_IRQ_RAW (cxp g)) 6 = true
        ∧ (Dev.rxOf (d.port g) sid).got = vs.map (s.dev.widen g))) ∧
  (∀ bytes, bytes ≠ [] → s.dev.portUp g = true → Completes (.cxpEventPacket g bytes) s (fun d =>
    d.get (F.BLK_EVT_CNT_COUNT (cxp g)) = (s.dev.get (F.BLK_EVT_CNT_COUNT (cxp g)) + 1) % 2 ^ 32)) ∧
  (∀ e x, s.dev.portState g ≠ 9 → (s.dev.port g).fifo = [e] → e.slots = [x] → x.st = .unmatched → e.stamp + s.dev.latMax g ≤ s.dev.stamp →
    Completes (.triggerMissing g) s (fun d => (d.port g).fifo = [{ e with slots := [{ x with st := .missing }] }]
      ∧ d.get (F.CXP_CNT_MISSING_COUNT g) = (s.dev.get (F.CXP_CNT_MISSING_COUNT g) + 1) % 2 ^ 32 ∧ d.testBit (F.BLK_IRQ_RAW (cxp g)) 7 = true)) ∧
  (g < 8 → s.dev.groupRemote g = false → (∃ p ∈ s.dev.portsOf g, ∃ e ∈ (s.dev.port p).fifo, e.slots.any (fun x => x.st = .filling) = true
      ∧ e.stamp + s.dev.get (F.GRP_CTRL_WDOG_LIMIT g) * 10 * 2 ^ 16 ≤ s.dev.stamp) → Completes (.blockWatchdog g) s (fun d =>
    d.get (F.GRP_WDOG_CLOSE_COUNT g) = (s.dev.get (F.GRP_WDOG_CLOSE_COUNT g) + 1) % 2 ^ 32 ∧ d.testBit (F.BLK_IRQ_RAW (cxp g)) 10 = true)) ∧
  (∀ p e rest, g < 8 → s.dev.portsOf g = [p] → s.dev.relayed p = false → s.dev.relaysOut p = false → s.dev.viewLost g = false → s.dev.sorting = true →
    (s.dev.port p).fifo = e :: rest → e.slots.all Dev.settled = true → rest.all (fun q => q.index ≠ e.index) = true → Completes (.rowSlotRelease g) s (fun d => d.get (F.GRP_SLOT_INDEX g) = e.index % 2 ^ 32
      ∧ (d.port p).fifo = rest ∧ ∃ r, d.slotsOut = s.dev.slotsOut ++ [r] ∧ r.group = g ∧ r.index = e.index ∧ r.stamp = e.stamp))

/-- The control channel (R118). A GO on a port in READY or STREAMING with BUSY = 0 takes LEN and WRITE and sets BUSY; over a running uplink it sends ADDR,
the direction and LEN + 1 bytes, those of the buffer for a write and zeros for a read (R135; the zeros are the model's). A GO while BUSY = 1, or in another
state of the port, sends nothing and records BUSY or STATE. The acknowledgement of a read fills the buffer from byte 0 on, that of a write leaves it; both
clear BUSY, show the code and raise CC_DONE. After 200 ms without one, BUSY is cleared with ACK = 0xFF, TIMEOUT is recorded and CC_DONE raised. -/
def Obligations.ControlChannel : Prop := ∀ (s : State) (p v : Nat), p < 16 →
  let asked : Dev → List Emission := fun d => d.out.filter (fun e => match e with | .ccRequest .. => true | _ => false)
  (s.dev.taken (cxp p) 0x90 → v % 2 = 1 → s.dev.bit (F.CXP_CC_CMD_BUSY p) = false → s.dev.portUp p = true → Completes (.cxpCcGo p v) s (fun d =>
    d.bit (F.CXP_CC_CMD_BUSY p) = true ∧ (d.port p).ccAt = s.dev.time.c ∧ d.get (F.CXP_CC_CMD_LEN p) = bitsAt v 8 8
      ∧ d.get (F.CXP_CC_CMD_WRITE p) = bitsAt v 1 1
      ∧ (s.dev.uplink p = true → d.out = .ccRequest p (s.dev.get (F.CXP_CC_ADDR_ADDR p)) (bitsAt v 1 1 = 1)
          (if bitsAt v 1 1 = 1 then s.dev.ccBytes p (bitsAt v 8 8 + 1) else List.replicate (bitsAt v 8 8 + 1) 0) :: s.dev.out)
      ∧ (s.dev.uplink p = false → d.out = s.dev.out)
      ∧ KeepsRegs s.dev d [F.CXP_CC_CMD_BUSY p, F.CXP_CC_CMD_LEN p, F.CXP_CC_CMD_WRITE p] ∧ KeepsMemory s.dev d)) ∧
  (s.dev.taken (cxp p) 0x90 → v % 2 = 1 → s.dev.bit (F.CXP_CC_CMD_BUSY p) = true → s.dev.get (F.BLK_ERR_CODE_CODE (cxp p)) = 0 →
    Completes (.cxpCcGo p v) s (fun d => d.get (F.BLK_ERR_CODE_CODE (cxp p)) = 3 ∧ d.ports = s.dev.ports ∧ asked d = asked s.dev)) ∧
  (s.dev.taken (cxp p) 0x90 → v % 2 = 1 → s.dev.bit (F.CXP_CC_CMD_BUSY p) = false → s.dev.portUp p = false → s.dev.get (F.BLK_ERR_CODE_CODE (cxp p)) = 0 →
    Completes (.cxpCcGo p v) s (fun d => d.get (F.BLK_ERR_CODE_CODE (cxp p)) = 1 ∧ d.bit (F.CXP_CC_CMD_BUSY p) = false ∧ d.ports = s.dev.ports
      ∧ asked d = asked s.dev)) ∧
  (∀ code bytes, s.dev.bit (F.CXP_CC_CMD_BUSY p) = true → Completes (.cxpCcAck p code bytes) s (fun d => d.bit (F.CXP_CC_CMD_BUSY p) = false
    ∧ d.get (F.CXP_CC_CMD_ACK p) = code % 256 ∧ d.testBit (F.BLK_IRQ_RAW (cxp p)) 8 = true ∧ KeepsMemory s.dev d
    ∧ (s.dev.bit (F.CXP_CC_CMD_WRITE p) = true → ∀ n < 64, d.get (F.CXP_CC_BUF_DATA p n) = s.dev.get (F.CXP_CC_BUF_DATA p n))
    ∧ (s.dev.bit (F.CXP_CC_CMD_WRITE p) = false → (∀ b ∈ bytes, b < 256) → ∀ i < s.dev.get (F.CXP_CC_CMD_LEN p) + 1,
        (d.ccBytes p (i + 1)).getD i 0 = bytes.getD i ((s.dev.ccBytes p (i + 1)).getD i 0)))) ∧
  (s.dev.bit (F.CXP_CC_CMD_BUSY p) = true → 200000000 ≤ s.dev.elapsed (s.dev.port p).ccAt → s.dev.get (F.BLK_ERR_CODE_CODE (cxp p)) = 0 →
    Completes (.cxpCcTimeout p) s (fun d => d.bit (F.CXP_CC_CMD_BUSY p) = false ∧ d.get (F.CXP_CC_CMD_ACK p) = 0xFF
      ∧ d.get (F.BLK_ERR_CODE_CODE (cxp p)) = 7 ∧ d.testBit (F.BLK_IRQ_RAW (cxp p)) 8 = true ∧ d.ports = s.dev.ports ∧ KeepsMemory s.dev d))

/-- R88 whole: a sample of n bits with value v becomes v × 2^(16 − n), 16 bits aligned to the most significant bit; n is 8, 10, 12, 14 or 16. -/
def Obligations.SamplesWidened : Prop := ∀ (d : Dev) (p v k : Nat), d.get (F.CXP_FORMAT_SAMPLE_BITS p) = k → k ≤ 4 → v < 2 ^ (8 + 2 * k) →
  d.widen p v = v * 2 ^ (16 - (8 + 2 * k)) ∧ d.widen p v < 2 ^ 16

/-! ### Serial lanes -/

/-- Lock, adaptation and its holds on a receive lane (R122, R123, R125, R126, R128, R133): ACQUIRE ends with LOCK, ADAPT ends settled, a loss of lock
leads back to ACQUIRE, windows set CONTENT_OK, content holds begin, last and end, the margin is shown, the step boost ends after 50 ms in TRACK.
LANE_ADAPT and LANE_SCAN (R133, R134, Table regs-20): a locked lane adapts again from its present values, or from presets; a lane that does not
exist is refused with RANGE; the scan of a locked lane with arguments in their limits, held since it was accepted, returns the openings measured, and one
that loses lock ends with STATE and DETAIL 5. -/
def Obligations.LaneAdaptation : Prop := ∀ s : State,
  (∀ l, l < 100 →
  (∀ ctle, (s.dev.lane l).base = 1 → s.dev.laneTest l = false → s.dev.testBit F.DEV_ENV_STAT_CLK_LOST 2 = false → Completes (.laneLock l ctle) s (fun d =>
    d.laneLocked l = true ∧ (d.lane l).base = (if s.dev.frozen (lng (l / 8)) then s.dev.laneSettled else 2))) ∧
  (s.dev.laneLocked l = true → Completes (.laneLockLoss l) s (fun d => d.laneLocked l = false ∧ (d.lane l).base = 1)) ∧
  ((s.dev.lane l).base = 2 → (s.dev.lane l).hold = false → s.dev.adapts l = true → 0 < (s.dev.lane l).wins → Completes (.laneAdaptDone l) s (fun d => (d.lane l).base = s.dev.laneSettled
    ∧ (d.lane l).saved = none)) ∧
  (∀ tr pa ctle dfe, s.dev.laneLocked l = true → Dev.qualifies tr pa = true → Completes (.laneWindow l tr pa ctle dfe) s (fun d =>
    d.get (F.LANE_STAT_CONTENT_OK (l / 8) (l % 8)) = 1 ∧ (d.lane l).hold = false ∧ (d.lane l).lastQual = s.dev.time.c)) ∧
  (∀ tr pa ctle dfe, s.dev.laneLocked l = true → Dev.qualifies tr pa = false → Completes (.laneWindow l tr pa ctle dfe) s (fun d =>
    d.get (F.LANE_STAT_CONTENT_OK (l / 8) (l % 8)) = 0 ∧ d.lane l = s.dev.lane l ∧ KeepsRegs s.dev d [F.LANE_STAT_CONTENT_OK (l / 8) (l % 8)]
      ∧ KeepsMemory s.dev d)) ∧
  (((s.dev.lane l).base = 2 ∨ (s.dev.lane l).base = 3) → s.dev.laneTest l = false → (s.dev.lane l).hold = false → 100000 ≤ s.dev.elapsed (s.dev.lane l).lastQual →
    Completes (.contentHoldEntry l) s (fun d => (d.lane l).hold = true ∧ (d.lane l).since = s.dev.time.c)) ∧
  ((s.dev.lane l).hold = true → s.dev.laneTest l = false → (s.dev.lane l).longDone = false → s.dev.get (F.LNG_ADAPT_CTRL_HOLD_LONG (l / 8)) ≠ 0 →
    s.dev.get (F.LNG_ADAPT_CTRL_HOLD_LONG (l / 8)) * 100000000 ≤ s.dev.elapsed (s.dev.lane l).since → Completes (.contentHold l) s (fun d =>
      (d.lane l).longDone = true ∧ d.testBit (F.BLK_IRQ_RAW (lng (l / 8))) 4 = true)) ∧
  (∀ used, (s.dev.lane l).boost = some used → 50000000 ≤ s.dev.trackUsed l used → Completes (.stepBoostEnd l) s (fun d => (d.lane l).boost = none
    ∧ KeepsRegs s.dev d [] ∧ KeepsMemory s.dev d)) ∧
  (∀ v h, s.dev.laneLocked l = true → s.dev.laneTest l = false → (s.dev.lane l).scan = false → Completes (.laneMarginMeasure l v h) s (fun d =>
    d.get (F.LANE_MARGIN_V_MV (l / 8) (l % 8)) = min v 255 ∧ d.get (F.LANE_MARGIN_VALID (l / 8) (l % 8)) = 1))) ∧
  (s.dev.executing 0x41 = true → s.dev.arg 0 / 512 % 2 = 0 → s.dev.adaptPending = false → 99 < s.dev.arg 0 % 128 → Completes .laneAdapt s (fun d =>
    d.cmd = none ∧ d.get F.CMD_STATUS_RESULT = 2)) ∧
  (∀ l, l < 100 → s.dev.executing 0x41 = true → s.dev.arg 0 = l → s.dev.adaptPending = false → s.dev.laneLocked l = true → s.dev.laneTest l = false →
    s.dev.frozen (lng (l / 8)) = false → Completes .laneAdapt s (fun d => (d.lane l).base = 2 ∧ (d.lane l).saved = some (s.dev.laneCtle l, s.dev.laneDfe l))) ∧
  (∀ l, (l < 64 ∨ (96 ≤ l ∧ l < 100)) → s.dev.executing 0x41 = true → s.dev.arg 0 = 512 + l → s.dev.adaptPending = false → s.dev.laneTest l = false →
    s.dev.frozen (lng (l / 8)) = false → s.dev.bit (F.LANE_CFG_EQ_MANUAL (l / 8) (l % 8)) = false → Completes .laneAdaptRestart s (fun d => d.laneCtle l = 8
      ∧ (d.lane l).saved = some (s.dev.laneCtle l, s.dev.laneDfe l))) ∧
  (∀ l e h v counts, l < 100 → 3 ≤ e → e ≤ 9 → s.dev.executing 0x42 = true → s.dev.arg 0 = l → s.dev.arg 1 = 1 → s.dev.arg 2 = e → s.dev.laneLocked l = true →
    (s.dev.lane l).scan = true → 16 * (3 * 10 ^ e) ≤ 1800000 * s.dev.laneRate l →
    Completes (.laneScan false h v counts) s (fun d => d.cmd = none ∧ d.get F.CMD_STATUS_RESULT = 0 ∧ d.get (F.CMD_RET_RET 0) = h % 2 ^ 32
      ∧ d.get (F.CMD_RET_RET 1) = v % 2 ^ 32 ∧ KeepsMemory s.dev d) ∧
    Completes (.laneScan true h v counts) s (fun d => d.cmd = none ∧ d.get F.CMD_STATUS_RESULT = 1 ∧ d.laneLocked l = false))

/-- Transmitter training and taps, test patterns and the lane PLL (R129–R132): taps move as asked with their sum kept at 63, training ends or fails to the
presets; LANE_TXTAP is taken only with a sum of 63; TEST_EN on a released lane; a transmitter with GEN sends its pattern; the checker synchronises on 64
error-free bits, then follows the pattern and counts each bit that differs, which PRBS_CLR clears; a read of LANE_PRBS_ERR latches the bits; the PLL's loss
is counted. -/
def Obligations.LaneTraining : Prop := ∀ (s : State),
  (∀ m pre main post, s.dev.training m = true → s.dev.get (F.LANE_TXTAP_PRE 12 m) ≤ 15 →
    s.dev.get (F.LANE_TXTAP_POST 12 m) ≤ 31 → Completes (.merTrainRequest m pre main post) s (fun d =>
      d.get (F.LANE_TXTAP_PRE 12 m) = (Dev.tapMove 15 (s.dev.get (F.LANE_TXTAP_PRE 12 m)) pre).1
        ∧ d.get (F.LANE_TXTAP_POST 12 m) = (Dev.tapMove 31 (s.dev.get (F.LANE_TXTAP_POST 12 m)) post).1
        ∧ d.get (F.LANE_TXTAP_PRE 12 m) + d.get (F.LANE_TXTAP_MAIN 12 m) + d.get (F.LANE_TXTAP_POST 12 m) = 63
        ∧ ∃ a r, d.out = .merRequest m r :: .merTrain m a :: s.dev.out)) ∧
  (∀ m t u, s.dev.training m = true → (s.dev.lane (96 + m)).holdAt = some t → 1000000 ≤ s.dev.elapsed t → (s.dev.lane (96 + m)).ownHold = some u →
    1000000 ≤ s.dev.elapsed u → Completes (.merTrainDone m) s (fun d => (d.lane (96 + m)).trainAt = none)) ∧
  (∀ m t, m < 4 → (s.dev.lane (96 + m)).trainAt = some t → 20000000 < s.dev.elapsed t → Completes (.trainFail m) s (fun d =>
    (d.lane (96 + m)).trainFail = true ∧ d.get (F.LANE_TXTAP_PRE 12 m) = 4 ∧ d.get (F.LANE_TXTAP_MAIN 12 m) = 49 ∧ d.get (F.LANE_TXTAP_POST 12 m) = 10
      ∧ d.testBit (F.BLK_IRQ_RAW (lng 12)) 7 = true)) ∧
  (∀ l v, 64 ≤ l → l < 96 → s.dev.taken (lng (l / 8)) (0x8C + 0x20 * (l % 8)) →
    (bitsAt v 0 4 + bitsAt v 8 6 + bitsAt v 16 5 = 63 →
      bitsAt v 24 4 ≤ 12 → Completes (.laneTxtapWrite l v) s (fun d =>
        d.get (F.LANE_TXTAP_PRE (l / 8) (l % 8)) + d.get (F.LANE_TXTAP_MAIN (l / 8) (l % 8)) + d.get (F.LANE_TXTAP_POST (l / 8) (l % 8)) = 63
          ∧ d.get (F.LANE_TXTAP_PRE (l / 8) (l % 8)) = bitsAt v 0 4)) ∧
    (bitsAt v 0 4 + bitsAt v 8 6 + bitsAt v 16 5 ≠ 63 →
      s.dev.get (F.BLK_ERR_CODE_CODE (lng (l / 8))) = 0 → Completes (.laneTxtapWrite l v) s (fun d =>
        d.get (F.BLK_ERR_CODE_CODE (lng (l / 8))) = 2 ∧ ∀ f : Fld, f.plain = true → d.get f = s.dev.get f))) ∧
  (∀ l, l < 100 → s.dev.taken (lng (l / 8)) (0x80 + 0x20 * (l % 8)) →
    (s.dev.laneReleased l = true → Completes (.laneTestEn l true) s (fun d => d.get (F.LANE_CFG_TEST_EN (l / 8) (l % 8)) = 1)) ∧
    (s.dev.bit (F.LANE_CFG_TEST_EN (l / 8) (l % 8)) = true → Completes (.laneTestEn l false) s (fun d => d.get (F.LANE_CFG_TEST_EN (l / 8) (l % 8)) = 0
      ∧ d.laneLocked l = false))) ∧
  (∀ l pat inv, (l < 64 ∨ (96 ≤ l ∧ l < 100)) → s.dev.bit (F.LANE_CFG_TEST_EN (l / 8) (l % 8)) = true →
    s.dev.bit (F.LANE_CFG_LOOP_NEAR (l / 8) (l % 8)) = false → s.dev.bit (F.LANE_PRBS_CHK (l / 8) (l % 8)) = true →
    s.dev.get (F.LANE_PRBS_PATTERN (l / 8) (l % 8)) = pat → 1 ≤ pat → pat ≤ 5 → s.dev.bit (F.LANE_PRBS_INVERT (l / 8) (l % 8)) = inv →
    (∀ bits, s.dev.bit (F.LANE_PRBS_SYNC (l / 8) (l % 8)) = true → s.dev.get (F.LANE_PRBS_ERR_ERRORS (l / 8) (l % 8)) + bits.length < 2 ^ 32 →
      Completes (.prbsCheck l bits) s (fun d => d.get (F.LANE_PRBS_ERR_ERRORS (l / 8) (l % 8)) = s.dev.get (F.LANE_PRBS_ERR_ERRORS (l / 8) (l % 8))
        + (bits.foldl (fun a b => (a.1 + b2n (((b != inv) != prbsNext pat a.2) || !a.2.any id || decide (a.2.length < (prbsTaps pat).1)),
            (prbsNext pat a.2 :: a.2).take (prbsTaps pat).1)) (0, (s.dev.lane l).hist)).1)) ∧
    (∀ b, s.dev.bit (F.LANE_PRBS_SYNC (l / 8) (l % 8)) = false → (s.dev.lane l).prbsRun = 63 → (s.dev.lane l).hist.length = (prbsTaps pat).1 →
      (s.dev.lane l).hist.any id = true → (b != inv) = prbsNext pat (s.dev.lane l).hist → Completes (.prbsCheck l [b]) s (fun d =>
        d.bit (F.LANE_PRBS_SYNC (l / 8) (l % 8)) = true))) ∧
  (∀ l bits pat, 64 ≤ l → l < 96 → bits ≠ [] → s.dev.bit (F.LANE_CFG_TEST_EN (l / 8) (l % 8)) = true →
    s.dev.bit (F.LANE_PRBS_GEN (l / 8) (l % 8)) = true → s.dev.get (F.LANE_PRBS_PATTERN (l / 8) (l % 8)) = pat → 1 ≤ pat → pat ≤ 5 →
    (s.dev.lane l).gen ≠ [] → Completes (.prbsCheck l bits) s (fun d => d.out = .prbs l ((prbsRun pat bits.length (s.dev.lane l).gen).1.map
      (· != s.dev.bit (F.LANE_PRBS_INVERT (l / 8) (l % 8)))) :: s.dev.out ∧ KeepsRegs s.dev d [])) ∧
  (∀ l, l < 100 → s.dev.taken (lng (l / 8)) (0x90 + 0x20 * (l % 8)) → Completes (.prbsClr l false) s (fun d =>
    d.get (F.LANE_PRBS_ERR_ERRORS (l / 8) (l % 8)) = 0 ∧ d.get (F.LANE_PRBS_BITS_BITS (l / 8) (l % 8)) = 0)) ∧
  (∀ l, l < 100 → Completes (.prbsErrRead l) s (fun d => (d.lane l).bitsLatch = some (s.dev.get (F.LANE_PRBS_BITS_BITS (l / 8) (l % 8)))
    ∧ (∃ a, d.out = .readData a (s.dev.get (F.LANE_PRBS_ERR_ERRORS (l / 8) (l % 8))) :: s.dev.out) ∧ KeepsRegs s.dev d [] ∧ KeepsMemory s.dev d)) ∧
  (∀ g, g < 13 → s.dev.bit (F.LNG_PLL_STAT_PLL_LOCK g) = true → Completes (.pllLoss g) s (fun d => d.get (F.LNG_PLL_STAT_PLL_LOCK g) = 0
    ∧ d.testBit (F.BLK_IRQ_RAW (lng g)) 9 = true))

/-! ### Kreov, the engines' instruction set -/

/-- The register files (R271, Table isa-1): s0 reads 0 and p0 reads all ones whatever is written to them, every other register reads the value last
written to it, in 64, 64 and 512 bits, and a write to one file leaves the other two, PC and local memory as they were. -/
def Obligations.EngineRegisters : Prop := ∀ (x : Eng) (i v : Nat),
  (∀ j, (x.setS i v).sReg j = if j = 0 then 0 else if j = i then v % 2 ^ 64 else x.sReg j) ∧
  (∀ j, (x.setP i v).pReg j = if j = 0 then 2 ^ 64 - 1 else if j = i then v % 2 ^ 64 else x.pReg j) ∧
  (∀ j, (x.setV i v).vReg j = if j = i then v % 2 ^ 512 else x.vReg j) ∧
  (∀ j, (x.setS i v).pReg j = x.pReg j ∧ (x.setS i v).vReg j = x.vReg j ∧ (x.setP i v).sReg j = x.sReg j ∧ (x.setP i v).vReg j = x.vReg j
    ∧ (x.setV i v).sReg j = x.sReg j ∧ (x.setV i v).pReg j = x.pReg j) ∧
  (x.setS i v).pc = x.pc ∧ (x.setP i v).pc = x.pc ∧ (x.setV i v).pc = x.pc ∧ (x.setS i v).mem = x.mem ∧ (x.setP i v).mem = x.mem
    ∧ (x.setV i v).mem = x.mem

/-- The scalar functions of Table isa-5 on 64-bit words (R276): arithmetic that wraps, shift amounts modulo 64, division that rounds towards minus
infinity with its corners, minima and maxima, leading zeros and set bits. Each retires with the result in rd and changes nothing else. -/
def Obligations.ScalarArithmetic : Prop := ∀ (s : State) (e rd rs1 rs2 : Nat),
  let a := BitVec.ofNat 64 ((s.dev.eng e).sReg rs1)
  let b := BitVec.ofNat 64 ((s.dev.eng e).sReg rs2)
  let runs := fun func => s.dev.runs e (isR func rd rs1 rs2)
  (runs 0x000 → WritesS (.add e rd rs1 rs2) s e rd (a + b).toNat) ∧
  (runs 0x001 → WritesS (.sub e rd rs1 rs2) s e rd (a - b).toNat) ∧
  (runs 0x002 → WritesS (.and e rd rs1 rs2) s e rd (a &&& b).toNat) ∧
  (runs 0x003 → WritesS (.or e rd rs1 rs2) s e rd (a ||| b).toNat) ∧
  (runs 0x004 → WritesS (.xor e rd rs1 rs2) s e rd (a ^^^ b).toNat) ∧
  (runs 0x005 → WritesS (.shl e rd rs1 rs2) s e rd (a <<< (b.toNat % 64)).toNat) ∧
  (runs 0x006 → WritesS (.shr e rd rs1 rs2) s e rd (a >>> (b.toNat % 64)).toNat) ∧
  (runs 0x007 → WritesS (.sar e rd rs1 rs2) s e rd (a.sshiftRight (b.toNat % 64)).toNat) ∧
  (runs 0x008 → WritesS (.cmplt e rd rs1 rs2) s e rd (if a.toInt < b.toInt then 1 else 0)) ∧
  (runs 0x009 → WritesS (.cmplo e rd rs1 rs2) s e rd (if a.toNat < b.toNat then 1 else 0)) ∧
  (runs 0x00A → WritesS (.mul e rd rs1 rs2) s e rd (a * b).toNat) ∧
  (runs 0x00B → WritesS (.mulhu e rd rs1 rs2) s e rd (a.toNat * b.toNat / 2 ^ 64)) ∧
  (runs 0x00C → WritesS (.mulhs e rd rs1 rs2) s e rd (BitVec.ofInt 64 (a.toInt * b.toInt / 2 ^ 64)).toNat) ∧
  (runs 0x00D → WritesS (.quou e rd rs1 rs2) s e rd (if b = 0 then 0 else a.toNat / b.toNat)) ∧
  (runs 0x00E → WritesS (.modu e rd rs1 rs2) s e rd (if b = 0 then 0 else a.toNat % b.toNat)) ∧
  (runs 0x00F → WritesS (.quo e rd rs1 rs2) s e rd (if b = 0 then 0 else if a.toInt = -2 ^ 63 ∧ b.toInt = -1 then 2 ^ 63 - 1
    else (BitVec.ofInt 64 (a.toInt.fdiv b.toInt)).toNat)) ∧
  (runs 0x010 → WritesS (.mod e rd rs1 rs2) s e rd (if b = 0 then 0 else (BitVec.ofInt 64 (a.toInt.fmod b.toInt)).toNat)) ∧
  (runs 0x011 → WritesS (.min e rd rs1 rs2) s e rd (BitVec.ofInt 64 (min a.toInt b.toInt)).toNat) ∧
  (runs 0x012 → WritesS (.max e rd rs1 rs2) s e rd (BitVec.ofInt 64 (max a.toInt b.toInt)).toNat) ∧
  (runs 0x013 → WritesS (.minu e rd rs1 rs2) s e rd (min a.toNat b.toNat)) ∧
  (runs 0x014 → WritesS (.maxu e rd rs1 rs2) s e rd (max a.toNat b.toNat)) ∧
  (s.dev.runs e (isR 0x015 rd rs1 0) → ∃ n, n ≤ 64 ∧ a.toNat < 2 ^ (64 - n) ∧ (n < 64 → 2 ^ (63 - n) ≤ a.toNat) ∧ WritesS (.clz e rd rs1) s e rd n) ∧
  (s.dev.runs e (isR 0x016 rd rs1 0) → WritesS (.popc e rd rs1) s e rd ((List.range 64).countP (fun k => a.getLsbD k)))

/-- The immediate instructions (R277): ADDI and CMPLTI sign-extend imm16, CMPLOI, ANDI, ORI and XORI zero-extend it, ADDHI adds it times 65,536, the
shifts take imm16[5:0] with the kind in imm16[7:6], and kind 3 or a set bit of imm16[15:8] is ILLEGAL. -/
def Obligations.ScalarImmediates : Prop := ∀ (s : State) (e rd rs1 imm : Nat), imm < 65536 →
  let a := BitVec.ofNat 64 ((s.dev.eng e).sReg rs1)
  let i := BitVec.ofNat 16 imm
  let runs := fun op => s.dev.runs e (isI op rd rs1 imm)
  (runs 0x02 → WritesS (.addi e rd rs1 imm) s e rd (a + i.signExtend 64).toNat) ∧
  (runs 0x03 → WritesS (.andi e rd rs1 imm) s e rd (a &&& i.zeroExtend 64).toNat) ∧
  (runs 0x04 → WritesS (.ori e rd rs1 imm) s e rd (a ||| i.zeroExtend 64).toNat) ∧
  (runs 0x05 → WritesS (.xori e rd rs1 imm) s e rd (a ^^^ i.zeroExtend 64).toNat) ∧
  (runs 0x06 → WritesS (.cmplti e rd rs1 imm) s e rd (if a.toInt < i.toInt then 1 else 0)) ∧
  (runs 0x07 → WritesS (.cmploi e rd rs1 imm) s e rd (if a.toNat < imm then 1 else 0)) ∧
  (runs 0x09 → WritesS (.addhi e rd rs1 imm) s e rd (a + (i.signExtend 64 <<< 16)).toNat) ∧
  (imm < 64 → runs 0x08 → WritesS (.shli e rd rs1 imm) s e rd (a <<< imm).toNat) ∧
  (∀ amt, amt < 64 → imm = 64 + amt → runs 0x08 → WritesS (.shri e rd rs1 amt) s e rd (a >>> amt).toNat) ∧
  (∀ amt, amt < 64 → imm = 128 + amt → runs 0x08 → WritesS (.sari e rd rs1 amt) s e rd (a.sshiftRight amt).toNat) ∧
  (192 ≤ imm → runs 0x08 → Raises (.illegalInstruction e) s e 0x02)

/-- Scalar loads and stores (R278, R280): the address is rs1 + sign-extended imm16; a load puts the little-endian bytes there into rd, sign- or
zero-extended, a store the low bytes of its data register into local memory and nowhere else; an address that is not a multiple of the access size
raises MISALIGN, a byte without the right LOAD_ACCESS or STORE_ACCESS. -/
def Obligations.LoadsAndStores : Prop := ∀ (s : State) (e r rs1 imm : Nat), imm < 65536 →
  let x := s.dev.eng e
  let a := (BitVec.ofNat 64 (x.sReg rs1) + (BitVec.ofNat 16 imm).signExtend 64).toNat
  (s.dev.runs e (isI 0x0A r rs1 imm) →
    x.readable a = true → x.xfers = [] →
      WritesS (.ld8 e r rs1 imm) s e r ((BitVec.ofNat (8) (x.num a 1)).signExtend 64).toNat) ∧
  (s.dev.runs e (isI 0x0C r rs1 imm) →
    (∀ k, k < 2 → x.readable (a + k) = true) → x.xfers = [] → a % 2 = 0 →
      WritesS (.ld16 e r rs1 imm) s e r ((BitVec.ofNat (16) (x.num a 2)).signExtend 64).toNat) ∧
  (s.dev.runs e (isI 0x0E r rs1 imm) →
    (∀ k, k < 4 → x.readable (a + k) = true) → x.xfers = [] → a % 4 = 0 →
      WritesS (.ld32 e r rs1 imm) s e r ((BitVec.ofNat (32) (x.num a 4)).signExtend 64).toNat) ∧
  (s.dev.runs e (isI 0x0B r rs1 imm) → x.readable a = true → x.xfers = [] → WritesS (.ld8u e r rs1 imm) s e r (x.num a 1)) ∧
  (s.dev.runs e (isI 0x0D r rs1 imm) → (∀ k, k < 2 → x.readable (a + k) = true) → x.xfers = [] → a % 2 = 0 → WritesS (.ld16u e r rs1 imm) s e r (x.num a 2)) ∧
  (s.dev.runs e (isI 0x0F r rs1 imm) → (∀ k, k < 4 → x.readable (a + k) = true) → x.xfers = [] → a % 4 = 0 → WritesS (.ld32u e r rs1 imm) s e r (x.num a 4)) ∧
  (s.dev.runs e (isI 0x10 r rs1 imm) → (∀ k, k < 8 → x.readable (a + k) = true) → x.xfers = [] → a % 8 = 0 → WritesS (.ld64 e r rs1 imm) s e r (x.num a 8)) ∧
  (s.dev.runs e (isI 0x11 r rs1 imm) → x.writable a = true → x.xfers = [] → ∃ m,
      Retires (.st8 e r rs1 imm) s e (Eng.step { x with mem := m }) ∧ (∀ k, k < 1 → ((Sparse.get m 0 (a + k) : Byte)).toNat = x.sReg r / 2 ^ (8 * k) % 256)
        ∧ ∀ b, b < a ∨ a + 1 ≤ b → Sparse.get m 0 b = Sparse.get x.mem 0 b) ∧
  (s.dev.runs e (isI 0x12 r rs1 imm) → (∀ k, k < 2 → x.writable (a + k) = true) → x.xfers = [] → a % 2 = 0 → ∃ m,
      Retires (.st16 e r rs1 imm) s e (Eng.step { x with mem := m }) ∧ (∀ k, k < 2 → ((Sparse.get m 0 (a + k) : Byte)).toNat = x.sReg r / 2 ^ (8 * k) % 256)
        ∧ ∀ b, b < a ∨ a + 2 ≤ b → Sparse.get m 0 b = Sparse.get x.mem 0 b) ∧
  (s.dev.runs e (isI 0x13 r rs1 imm) → (∀ k, k < 4 → x.writable (a + k) = true) → x.xfers = [] → a % 4 = 0 → ∃ m,
      Retires (.st32 e r rs1 imm) s e (Eng.step { x with mem := m }) ∧ (∀ k, k < 4 → ((Sparse.get m 0 (a + k) : Byte)).toNat = x.sReg r / 2 ^ (8 * k) % 256)
        ∧ ∀ b, b < a ∨ a + 4 ≤ b → Sparse.get m 0 b = Sparse.get x.mem 0 b) ∧
  (s.dev.runs e (isI 0x14 r rs1 imm) → (∀ k, k < 8 → x.writable (a + k) = true) → x.xfers = [] → a % 8 = 0 → ∃ m,
      Retires (.st64 e r rs1 imm) s e (Eng.step { x with mem := m }) ∧ (∀ k, k < 8 → ((Sparse.get m 0 (a + k) : Byte)).toNat = x.sReg r / 2 ^ (8 * k) % 256)
        ∧ ∀ b, b < a ∨ a + 8 ≤ b → Sparse.get m 0 b = Sparse.get x.mem 0 b) ∧
  (∀ op n i, (op, n, i) ∈ [(0x0C, 2, Instr.ld16 e r rs1 imm), (0x0D, 2, .ld16u e r rs1 imm), (0x0E, 4, .ld32 e r rs1 imm), (0x0F, 4, .ld32u e r rs1 imm),
      (0x10, 8, .ld64 e r rs1 imm), (0x12, 2, .st16 e r rs1 imm), (0x13, 4, .st32 e r rs1 imm), (0x14, 8, .st64 e r rs1 imm)] →
    s.dev.runs e (isI op r rs1 imm) → a % n ≠ 0 → Raises i s e 0x04) ∧
  (s.dev.runs e (isI 0x0A r rs1 imm) → x.readable a = false → Raises (.ld8 e r rs1 imm) s e 0x05) ∧
  (s.dev.runs e (isI 0x11 r rs1 imm) → x.writable a = false → Raises (.st8 e r rs1 imm) s e 0x06)

/-- Branches and jumps (R279): a branch whose condition holds goes to PC + 4 × offset, otherwise to the next instruction; CALL and JUMPR put PC + 4
into rd, JUMPR after it has taken rs1; a JUMPR whose rs1 is not a multiple of 4 raises MISALIGN. -/
def Obligations.Branches : Prop := ∀ (s : State) (e r rs : Nat),
  let x := s.dev.eng e
  let a := BitVec.ofNat 64 (x.sReg r)
  let b := BitVec.ofNat 64 (x.sReg rs)
  let pcAfter := fun (off : Int) => (BitVec.ofInt 16 (x.pc + 4 * off)).toNat
  (∀ off, off < 65536 → s.dev.runs e (isI 0x18 r rs off) →
      Retires (.brEq e r rs off) s e (if a = b then { x with pc := pcAfter (BitVec.ofNat 16 off).toInt } else { x with pc := (x.pc + 4) % 65536 })) ∧
  (∀ off, off < 65536 → s.dev.runs e (isI 0x19 r rs off) →
      Retires (.brNe e r rs off) s e (if a ≠ b then { x with pc := pcAfter (BitVec.ofNat 16 off).toInt } else { x with pc := (x.pc + 4) % 65536 })) ∧
  (∀ off, off < 65536 → s.dev.runs e (isI 0x1A r rs off) →
      Retires (.brLt e r rs off) s e (if a.slt b then { x with pc := pcAfter (BitVec.ofNat 16 off).toInt } else { x with pc := (x.pc + 4) % 65536 })) ∧
  (∀ off, off < 65536 → s.dev.runs e (isI 0x1B r rs off) →
      Retires (.brGe e r rs off) s e (if b.sle a then { x with pc := pcAfter (BitVec.ofNat 16 off).toInt } else { x with pc := (x.pc + 4) % 65536 })) ∧
  (∀ off, off < 65536 → s.dev.runs e (isI 0x1C r rs off) →
      Retires (.brLo e r rs off) s e (if a.ult b then { x with pc := pcAfter (BitVec.ofNat 16 off).toInt } else { x with pc := (x.pc + 4) % 65536 })) ∧
  (∀ off, off < 65536 → s.dev.runs e (isI 0x1D r rs off) →
      Retires (.brHs e r rs off) s e (if b.ule a then { x with pc := pcAfter (BitVec.ofNat 16 off).toInt } else { x with pc := (x.pc + 4) % 65536 })) ∧
  (∀ off, off < 2 ^ 21 → s.dev.runs e (isJ r off) → Retires (.call e r off) s e
    { (x.setS r (x.pc + 4)) with pc := pcAfter (BitVec.ofNat 21 off).toInt }) ∧
  (∀ imm, imm < 65536 → s.dev.runs e (isI 0x1F r rs imm) →
    (x.sReg rs % 4 = 0 → Retires (.jumpr e r rs imm) s e
      { (x.setS r (x.pc + 4)) with pc := (BitVec.ofInt 16 (x.sReg rs + 4 * (BitVec.ofNat 16 imm).toInt)).toNat }) ∧
    (x.sReg rs % 4 ≠ 0 → Raises (.jumpr e r rs imm) s e 0x04))

/-- Vector integer functions (R273, R274, R283, Table isa-6), element by element in the width of the type: a disabled element stays as it was. -/
def Obligations.VectorInteger : Prop := ∀ (s : State) (e vd vs1 vs2 pr typ : Nat),
  (∀ func i, (func, i) ∈ [(0x00, Instr.vadd e vd vs1 vs2 pr 3), (0x03, .vmulh e vd vs1 vs2 pr 3), (0x10, .vcmpeq e vd vs1 vs2 pr 3),
    (0x14, .vsel e vd vs1 vs2 pr 3), (0x18, .vdot e vd vs1 vs2 pr 3)] → s.dev.runs e (isV 0x20 func vd vs1 vs2 pr 3) → Raises i s e 0x02) ∧ (typ < 3 →
  let x := s.dev.eng e
  let w := kWidth typ
  let n := kLanes typ
  let a := fun k => BitVec.ofNat w (lane (x.vReg vs1) w k)
  let b := fun k => BitVec.ofNat w (lane (x.vReg vs2) w k)
  let clamp := fun (v : Int) => (BitVec.ofInt w (max (-2 ^ (w - 1)) (min (2 ^ (w - 1) - 1) v))).toNat
  let runs := fun func => s.dev.runs e (isV 0x20 func vd vs1 vs2 pr typ)
  (runs 0x00 → WritesElements (.vadd e vd vs1 vs2 pr typ) s e vd pr w n (fun k => (a k + b k).toNat)) ∧
  (runs 0x01 → WritesElements (.vsub e vd vs1 vs2 pr typ) s e vd pr w n (fun k => (a k - b k).toNat)) ∧
  (runs 0x02 → WritesElements (.vmul e vd vs1 vs2 pr typ) s e vd pr w n (fun k => (a k * b k).toNat)) ∧
  (runs 0x03 → WritesElements (.vmulh e vd vs1 vs2 pr typ) s e vd pr w n (fun k => (BitVec.ofInt w ((a k).toInt * (b k).toInt / 2 ^ w)).toNat)) ∧
  (runs 0x04 → WritesElements (.vmin e vd vs1 vs2 pr typ) s e vd pr w n (fun k => (BitVec.ofInt w (min (a k).toInt (b k).toInt)).toNat)) ∧
  (runs 0x05 → WritesElements (.vmax e vd vs1 vs2 pr typ) s e vd pr w n (fun k => (BitVec.ofInt w (max (a k).toInt (b k).toInt)).toNat)) ∧
  (runs 0x06 → WritesElements (.vminu e vd vs1 vs2 pr typ) s e vd pr w n (fun k => min (a k).toNat (b k).toNat)) ∧
  (runs 0x07 → WritesElements (.vmaxu e vd vs1 vs2 pr typ) s e vd pr w n (fun k => max (a k).toNat (b k).toNat)) ∧
  (runs 0x08 → WritesElements (.vand e vd vs1 vs2 pr typ) s e vd pr w n (fun k => (a k &&& b k).toNat)) ∧
  (runs 0x09 → WritesElements (.vor e vd vs1 vs2 pr typ) s e vd pr w n (fun k => (a k ||| b k).toNat)) ∧
  (runs 0x0A → WritesElements (.vxor e vd vs1 vs2 pr typ) s e vd pr w n (fun k => (a k ^^^ b k).toNat)) ∧
  (runs 0x0B → WritesElements (.vsll e vd vs1 vs2 pr typ) s e vd pr w n (fun k => (a k <<< ((b k).toNat % w)).toNat)) ∧
  (runs 0x0C → WritesElements (.vsrl e vd vs1 vs2 pr typ) s e vd pr w n (fun k => (a k >>> ((b k).toNat % w)).toNat)) ∧
  (runs 0x0D → WritesElements (.vsra e vd vs1 vs2 pr typ) s e vd pr w n (fun k => ((a k).sshiftRight ((b k).toNat % w)).toNat)) ∧
  (runs 0x0E → WritesElements (.vadds e vd vs1 vs2 pr typ) s e vd pr w n (fun k => clamp ((a k).toInt + (b k).toInt))) ∧
  (runs 0x0F → WritesElements (.vsubs e vd vs1 vs2 pr typ) s e vd pr w n (fun k => clamp ((a k).toInt - (b k).toInt))) ∧
  (runs 0x10 → (vd < 8 → WritesBits (.vcmpeq e vd vs1 vs2 pr typ) s e vd pr n (fun k => decide (a k = b k))) ∧ (8 ≤ vd → Raises (.vcmpeq e vd vs1 vs2 pr typ) s e 0x02)) ∧
  (runs 0x11 → (vd < 8 → WritesBits (.vcmplt e vd vs1 vs2 pr typ) s e vd pr n (fun k => (a k).slt (b k))) ∧ (8 ≤ vd → Raises (.vcmplt e vd vs1 vs2 pr typ) s e 0x02)) ∧
  (runs 0x12 → (vd < 8 → WritesBits (.vcmpltu e vd vs1 vs2 pr typ) s e vd pr n (fun k => (a k).ult (b k))) ∧ (8 ≤ vd → Raises (.vcmpltu e vd vs1 vs2 pr typ) s e 0x02)) ∧
  (runs 0x14 → WritesV (.vsel e vd vs1 vs2 pr typ) s e vd w n (fun k v => v = if pbit (x.pReg pr) k then (a k).toNat else (b k).toNat)) ∧
  (typ = 0 → runs 0x18 →
    WritesElements (.vdot e vd vs1 vs2 pr typ) s e vd pr 32 16 (fun k => (BitVec.ofInt 32 (lane (x.vReg vd) 32 k +
      ((List.range 4).map (fun m => (a (4 * k + m)).toInt * (b (4 * k + m)).toInt)).sum)).toNat)) ∧
  (typ = 0 → runs 0x19 →
    WritesElements (.vdotu e vd vs1 vs2 pr typ) s e vd pr 32 16 (fun k => (BitVec.ofInt 32 (lane (x.vReg vd) 32 k +
      ((List.range 4).map (fun m => ((a (4 * k + m)).toNat : Int) * (b (4 * k + m)).toInt)).sum)).toNat)) ∧
  (typ ≠ 0 → ∀ func i, (func, i) ∈ [(0x18, Instr.vdot e vd vs1 vs2 pr typ), (0x19, .vdotu e vd vs1 vs2 pr typ)] → runs func → Raises i s e 0x02))

/-- Reductions, width changes, and moves between the files (R274, R283, R284, Table isa-6): sums, maxima and minima of the enabled elements, 0 when none
is; VNARROW saturates, VWIDEL and VWIDEH sign-extend a half; VBCAST, VEXT and VINS. -/
def Obligations.VectorMoves : Prop := ∀ (s : State) (e d vs1 vs2 pr typ : Nat), typ < 4 →
  let x := s.dev.eng e
  let w := kWidth typ
  let n := kLanes typ
  let a := fun k => BitVec.ofNat w (lane (x.vReg vs1) w k)
  let on := (List.range n).filter (pbit (x.pReg pr))
  let runs := fun func => s.dev.runs e (isV 0x20 func d vs1 0 pr typ)
  (typ < 3 → runs 0x1C → WritesS (.vredsum e d vs1 pr typ) s e d (BitVec.ofInt 64 (on.map (fun k => (a k).toInt)).sum).toNat) ∧
  (typ < 3 → runs 0x1D → WritesS (.vredsumu e d vs1 pr typ) s e d (on.map (fun k => (a k).toNat)).sum) ∧
  (typ < 3 → runs 0x1E → (on = [] → WritesS (.vredmax e d vs1 pr typ) s e d 0) ∧
      (on ≠ [] → ∃ k ∈ on, (∀ j ∈ on, (a j).toInt ≤ (a k).toInt) ∧ WritesS (.vredmax e d vs1 pr typ) s e d ((a k).signExtend 64).toNat)) ∧
  (typ < 3 → runs 0x1F → (on = [] → WritesS (.vredmin e d vs1 pr typ) s e d 0) ∧
      (on ≠ [] → ∃ k ∈ on, (∀ j ∈ on, (a k).toInt ≤ (a j).toInt) ∧ WritesS (.vredmin e d vs1 pr typ) s e d ((a k).signExtend 64).toNat)) ∧
  (typ < 2 → s.dev.runs e (isV 0x20 0x20 d vs1 vs2 pr typ) → WritesElements (.vnarrow e d vs1 vs2 pr typ) s e d pr w n (fun k =>
    let v := (BitVec.ofNat (2 * w) (if k < n / 2 then lane (x.vReg vs1) (2 * w) k else lane (x.vReg vs2) (2 * w) (k - n / 2))).toInt
    (BitVec.ofInt w (max (-2 ^ (w - 1)) (min (2 ^ (w - 1) - 1) v))).toNat)) ∧
  (typ < 2 → runs 0x21 → WritesElements (.vwidel e d vs1 pr typ) s e d pr (2 * w) (n / 2) (fun k => ((a k).signExtend (2 * w)).toNat)) ∧
  (typ < 2 → runs 0x22 → WritesElements (.vwideh e d vs1 pr typ) s e d pr (2 * w) (n / 2) (fun k => ((a (k + n / 2)).signExtend (2 * w)).toNat)) ∧
  (typ = 3 → ∀ func i, (func, i) ∈ [(0x1C, Instr.vredsum e d vs1 pr typ), (0x1E, .vredmax e d vs1 pr typ)] → runs func → Raises i s e 0x02) ∧
  (2 ≤ typ → ∀ func i, (func, i) ∈ [(0x21, Instr.vwidel e d vs1 pr typ), (0x22, .vwideh e d vs1 pr typ)] → runs func → Raises i s e 0x02) ∧
  (∀ r, s.dev.runs e (isVX 0 d r 0 typ) → WritesV (.vbcast e d r typ) s e d w n (fun _ v => v = x.sReg r % 2 ^ w)) ∧
  (∀ ln, s.dev.runs e (isVX 1 d vs1 ln typ) → (ln < n → WritesS (.vext e d vs1 ln typ) s e d ((a ln).signExtend 64).toNat) ∧
    (n ≤ ln → Raises (.vext e d vs1 ln typ) s e 0x02)) ∧
  (∀ r ln, ln < n → s.dev.runs e (isVX 2 d r ln typ) → WritesV (.vins e d r ln typ) s e d w n (fun k v =>
    v = if k = ln then x.sReg r % 2 ^ w else lane (x.vReg d) w k))

/-- The bf16 group (R274, R285, R286, Table isa-7): with F_ISA_BF16 each function gives its values rounded once, element by element; VFMAW adds products in f32
to two registers; VFCMPLT is false where either is no
number and leaves the bits of disabled elements as they were (the model's choice, log entry 108); VFREDSUM adds in its fixed tree. Without the feature each raises FEATURE. -/
def Obligations.Bf16 : Prop := ∀ (s : State) (e d vs1 vs2 pr : Nat),
  let x := s.dev.eng e
  let l := fun v k => lane (x.vReg v) 16 k
  let a := fun v k => fpOfBf (l v k)
  let runs := fun func => s.dev.runs e (isV 0x21 func d vs1 vs2 pr 3)
  let runs1 := fun func => s.dev.runs e (isV 0x21 func d vs1 0 pr 3)
  (∀ typ, typ ≠ 3 → s.dev.runs e (isV 0x21 0x00 d vs1 vs2 pr typ) → Raises (.vfadd e d vs1 vs2 pr typ) s e 0x02) ∧
  (d % 2 = 1 → runs 0x04 → Raises (.vfmaw e d vs1 vs2 pr 3) s e 0x02) ∧
  (8 ≤ d → runs 0x0C → Raises (.vfcmplt e d vs1 vs2 pr 3) s e 0x02) ∧
  (s.dev.feat 6 = false → ∀ func i, (func, i) ∈ [(0x09, Instr.vfcvti2b e d vs1 pr 3), (0x0A, .vfcvtb2i e d vs1 pr 3), (0x10, .vfredsum e d vs1 pr 3)] →
    runs1 func → Raises i s e 0x03) ∧
  (s.dev.feat 6 = false → ∀ func i, (func, i) ∈ [(0x00, Instr.vfadd e d vs1 vs2 pr 3), (0x01, .vfsub e d vs1 vs2 pr 3), (0x02, .vfmul e d vs1 vs2 pr 3),
    (0x03, .vfma e d vs1 vs2 pr 3), (0x05, .vfmax e d vs1 vs2 pr 3), (0x06, .vfmin e d vs1 vs2 pr 3), (0x08, .vfcvtw2b e d vs1 vs2 pr 3)] →
    runs func → Raises i s e 0x03) ∧
  (s.dev.feat 6 = false → d % 2 = 0 → runs 0x04 → Raises (.vfmaw e d vs1 vs2 pr 3) s e 0x03) ∧
  (s.dev.feat 6 = false → d < 8 → runs 0x0C → Raises (.vfcmplt e d vs1 vs2 pr 3) s e 0x03) ∧
  (s.dev.feat 6 = true →
    (runs 0x00 → WritesElements (.vfadd e d vs1 vs2 pr 3) s e d pr 16 32 (fun k => toBf (fpAdd (a vs1 k) (a vs2 k)) % 2 ^ 16)) ∧
  (runs 0x01 → WritesElements (.vfsub e d vs1 vs2 pr 3) s e d pr 16 32 (fun k => toBf (fpAdd (a vs1 k) (fpNeg (a vs2 k))) % 2 ^ 16)) ∧
  (runs 0x02 → WritesElements (.vfmul e d vs1 vs2 pr 3) s e d pr 16 32 (fun k => toBf (fpMul (a vs1 k) (a vs2 k)) % 2 ^ 16)) ∧
  (runs 0x03 → WritesElements (.vfma e d vs1 vs2 pr 3) s e d pr 16 32 (fun k => toBf (fpAdd (a d k) (fpMul (a vs1 k) (a vs2 k))) % 2 ^ 16)) ∧
  (runs 0x08 → WritesElements (.vfcvtw2b e d vs1 vs2 pr 3) s e d pr 16 32 (fun k => toBf (fpOf32 (if k < 16 then lane (x.vReg vs1) 32 k else lane (x.vReg vs2) 32 (k - 16))) % 2 ^ 16)) ∧
    (runs 0x05 →
      WritesV (.vfmax e d vs1 vs2 pr 3) s e d 16 32 (fun k v => (pbit (x.pReg pr) k = false → v = l d k) ∧ (pbit (x.pReg pr) k = true →
        (a vs1 k = .nan → v = toBf (a vs2 k) % 2 ^ 16) ∧ (a vs2 k = .nan → v = toBf (a vs1 k) % 2 ^ 16)
          ∧ (fpLt (a vs1 k) (a vs2 k) = true → v = toBf (a vs2 k) % 2 ^ 16)
          ∧ (fpLt (a vs2 k) (a vs1 k) = true → v = toBf (a vs1 k) % 2 ^ 16)))) ∧
  (runs 0x06 →
      WritesV (.vfmin e d vs1 vs2 pr 3) s e d 16 32 (fun k v => (pbit (x.pReg pr) k = false → v = l d k) ∧ (pbit (x.pReg pr) k = true →
        (a vs1 k = .nan → v = toBf (a vs2 k) % 2 ^ 16) ∧ (a vs2 k = .nan → v = toBf (a vs1 k) % 2 ^ 16)
          ∧ (fpLt (a vs1 k) (a vs2 k) = true → v = toBf (a vs1 k) % 2 ^ 16)
          ∧ (fpLt (a vs2 k) (a vs1 k) = true → v = toBf (a vs2 k) % 2 ^ 16)))) ∧
    (d % 2 = 0 → runs 0x04 → ∃ lo hi, Retires (.vfmaw e d vs1 vs2 pr 3) s e ((x.setV d lo).setV (d + 1) hi).step ∧ ∀ k, k < 16 →
      lane lo 32 k = (if pbit (x.pReg pr) k then toF32 (fpAdd (fpOf32 (lane (x.vReg d) 32 k)) (fpMul (a vs1 k) (a vs2 k))) % 2 ^ 32 else lane (x.vReg d) 32 k) ∧
      lane hi 32 k = (if pbit (x.pReg pr) (16 + k) then toF32 (fpAdd (fpOf32 (lane (x.vReg (d + 1)) 32 k)) (fpMul (a vs1 (16 + k)) (a vs2 (16 + k)))) % 2 ^ 32
        else lane (x.vReg (d + 1)) 32 k)) ∧
    (runs1 0x09 → WritesElements (.vfcvti2b e d vs1 pr 3) s e d pr 16 32 (fun k => toBf (fpOfInt (BitVec.ofNat 16 (l vs1 k)).toInt) % 2 ^ 16)) ∧
    (runs1 0x0A → WritesElements (.vfcvtb2i e d vs1 pr 3) s e d pr 16 32 (fun k => (BitVec.ofInt 16 (fpToI16 (a vs1 k))).toNat)) ∧
    (d < 8 → runs 0x0C → ∃ u, Retires (.vfcmplt e d vs1 vs2 pr 3) s e (x.setP d u).step ∧
      ∀ k, k < 64 → pbit u k = if k < 32 ∧ pbit (x.pReg pr) k = true then fpLt (a vs1 k) (a vs2 k) else pbit (x.pReg d) k) ∧
    (runs1 0x10 → WritesS (.vfredsum e d vs1 pr 3) s e d
      (treeSum 5 ((List.range 32).map (fun k => if pbit (x.pReg pr) k then toF32 (a vs1 k) else 0)))))

/-- Vector memory, tables and predicates (R274, R280, R282, R287, Table isa-8): VLD and VST move the enabled bytes at rs1 + 4 × offset, and only those are
checked; VLUT reads a byte or a halfword per enabled element; the predicate operations; the exceptions of each. -/
def Obligations.VectorMemory : Prop := ∀ (s : State) (e v rs1 pr off : Nat), off < 2 ^ 13 →
  let x := s.dev.eng e
  let a := (BitVec.ofNat 64 (x.sReg rs1) + BitVec.ofInt 64 (4 * (BitVec.ofNat 13 off).toInt)).toNat
  let on := fun k => pbit (x.pReg pr) k
  (s.dev.runs e (isVM 0x22 v rs1 pr off) → (x.sReg rs1 % 4 ≠ 0 → Raises (.vld e v rs1 pr off) s e 0x04) ∧
    (x.sReg rs1 % 4 = 0 → (∃ k, k < 64 ∧ on k = true ∧ x.readable ((a + k) % 2 ^ 64) = false) → Raises (.vld e v rs1 pr off) s e 0x05) ∧
    (x.sReg rs1 % 4 = 0 → (∀ k, k < 64 → on k = true → x.readable ((a + k) % 2 ^ 64) = true) → x.xfers = [] →
      WritesElements (.vld e v rs1 pr off) s e v pr 8 64 (fun k => x.byte ((a + k) % 2 ^ 64)))) ∧
  (s.dev.runs e (isVM 0x23 v rs1 pr off) → (x.sReg rs1 % 4 ≠ 0 → Raises (.vst e v rs1 pr off) s e 0x04) ∧
    (x.sReg rs1 % 4 = 0 → (∃ k, k < 64 ∧ on k = true ∧ x.writable ((a + k) % 2 ^ 64) = false) → Raises (.vst e v rs1 pr off) s e 0x06) ∧
    (x.sReg rs1 % 4 = 0 → (∀ k, k < 64 → on k = true → x.writable ((a + k) % 2 ^ 64) = true) → x.xfers = [] → ∃ m,
      Retires (.vst e v rs1 pr off) s e (Eng.step { x with mem := m })
        ∧ (∀ k, k < 64 → on k = true → (Sparse.get m 0 ((a + k) % 2 ^ 64) : Byte).toNat = lane (x.vReg v) 8 k)
        ∧ ∀ b, (∀ k, k < 64 → on k = true → b ≠ (a + k) % 2 ^ 64) → Sparse.get m 0 b = Sparse.get x.mem 0 b)) ∧
  (∀ vs1 typ, s.dev.runs e (isV 0x24 0x00 v vs1 rs1 pr typ) →
    let at_ := fun k => (x.sReg rs1 + (typ + 1) * lane (x.vReg vs1) (kWidth typ) k) % 2 ^ 64
    (2 ≤ typ → Raises (.vlut e v vs1 rs1 pr typ) s e 0x02) ∧
    (typ = 1 → x.sReg rs1 % 2 = 1 → Raises (.vlut e v vs1 rs1 pr typ) s e 0x04) ∧
    (typ = 0 → (∃ k, k < 64 ∧ on k = true ∧ x.readable (at_ k) = false) → Raises (.vlut e v vs1 rs1 pr typ) s e 0x07) ∧
    (typ < 2 → (typ = 1 → x.sReg rs1 % 2 = 0) →
      (∀ k, k < kLanes typ → on k = true → x.readable (at_ k) = true ∧ x.readable ((at_ k + typ) % 2 ^ 64) = true) → x.xfers = [] →
      WritesElements (.vlut e v vs1 rs1 pr typ) s e v pr (kWidth typ) (kLanes typ) (fun k => x.num (at_ k) (typ + 1)))) ∧
  (∀ p1 p2, s.dev.runs e (isP 0 v p1 p2 0) → WritesP (.pand e v p1 p2) s e v (x.pReg p1 &&& x.pReg p2)) ∧
  (∀ p1 p2, s.dev.runs e (isP 1 v p1 p2 0) → WritesP (.por e v p1 p2) s e v (x.pReg p1 ||| x.pReg p2)) ∧
  (∀ p1 p2, s.dev.runs e (isP 2 v p1 p2 0) → WritesP (.pxor e v p1 p2) s e v (x.pReg p1 ^^^ x.pReg p2)) ∧
  (∀ p1, s.dev.runs e (isP 3 v p1 0 0) → WritesP (.pnot e v p1) s e v (~~~ BitVec.ofNat 64 (x.pReg p1)).toNat) ∧
  (s.dev.runs e (isP 4 v 0 0 rs1) → WritesP (.pmovs e v rs1) s e v (x.sReg rs1)) ∧
  (∀ p1, s.dev.runs e (isP 5 0 p1 0 rs1) → WritesS (.pmovp e rs1 p1) s e rs1 (x.pReg p1))

/-- DMA, time, verdict and exceptions (R288–R297, Tables isa-8 and isa-9): a start raises the first exception that applies, waits for its channel and for
transfers it overlaps, or enters a transfer; its end brings a read's bytes into local memory, sends a write's bytes; WAIT passes only an idle channel,
STAT, TIME and CYCLE read; VEMIT ends the body with its verdict; BRK, ABANDON and a word that is no instruction raise theirs, the run limit comes before
every instruction, and a body past its deadline leaves no exception. -/
def Obligations.DmaAndSystem : Prop := ∀ (s : State) (e : Nat),
  let x := s.dev.eng e
  (∀ rl rr rn ch dir, dir < 2 → s.dev.runs e (isD 0 rl rr rn ch dir) →
    let cmd := Instr.dmaStart e rl rr rn ch dir
    let loc := x.sReg rl
    let rem := x.sReg rr
    let len := x.sReg rn
    let shared := x.xfers.any (fun t => (t.isRead || decide (dir = 0)) && decide (t.loc < loc + len ∧ loc < t.loc + t.len))
    (loc % 64 ≠ 0 ∨ rem % 64 ≠ 0 → Raises cmd s e 0x04) ∧
    (loc % 64 = 0 → rem % 64 = 0 →
      (len % 64 ≠ 0 ∨ len < 64 ∨ 65536 < len → Raises cmd s e 0x09) ∧
      (len % 64 = 0 → 64 ≤ len → len ≤ 65536 →
        (s.dev.remoteOk e (decide (dir = 1)) rem len = false ∨ localOk x (decide (dir = 1)) loc len = false → Raises cmd s e 0x08) ∧
        (s.dev.remoteOk e (decide (dir = 1)) rem len = true → localOk x (decide (dir = 1)) loc len = true →
          (x.busyCh ch = true ∨ shared = true → Waits cmd s) ∧
          (x.busyCh ch = false → shared = false → Retires cmd s e (Eng.step { x with xfers := x.xfers ++
            [⟨ch, decide (dir = 0), rem, loc, len, if dir = 1 then (List.range len).map (fun k => x.byte (loc + k)) else []⟩] })))))) ∧
  (∀ ch, x.busyCh ch = false → Waits (.dmaTransferDone e ch) s) ∧
  (∀ ch t, x.xfers.find? (fun u => u.ch = ch) = some t → t.isRead = false → Completes (.dmaTransferDone e ch) s (fun d =>
    d.eng e = { x with xfers := x.xfers.filter (fun u => u.ch ≠ ch) } ∧ KeepsRegs s.dev d [] ∧ (∀ k, k ≠ e → d.eng k = s.dev.eng k) ∧
    (∀ k, k < t.data.length → d.byte (t.remote + k) = BitVec.ofNat 8 (t.data.getD k 0)) ∧
    (∀ a, a < t.remote ∨ t.remote + t.data.length ≤ a → d.byte a = s.dev.byte a))) ∧
  (∀ ch t, x.xfers.find? (fun u => u.ch = ch) = some t → t.isRead = true → s.dev.Canonical →
    s.dev.bit F.DEV_ENV_STAT_HBM_FAIL = false ∨ 0x4_0000_0000 ≤ t.remote → Completes (.dmaTransferDone e ch) s (fun d =>
      (∃ m, d.eng e = { x with xfers := x.xfers.filter (fun u => u.ch ≠ ch), mem := m } ∧
        (∀ k, k < t.len → Sparse.get m 0 (t.loc + k) = s.dev.byte (t.remote + k)) ∧
        (∀ a, a < t.loc ∨ t.loc + t.len ≤ a → Sparse.get m 0 a = Sparse.get x.mem 0 a)) ∧
      (∀ k, k ≠ e → d.eng k = s.dev.eng k) ∧ KeepsRegs s.dev d [] ∧ KeepsMemory s.dev d)) ∧
  (∀ ch, s.dev.runs e (isD 1 0 0 0 ch 0) → (x.busyCh ch = false → Retires (.wait e ch) s e x.step) ∧ (x.busyCh ch = true → Waits (.wait e ch) s)) ∧
  (∀ rd ch, s.dev.runs e (isD 2 rd 0 0 ch 0) → WritesS (.stat e rd ch) s e rd (if x.busyCh ch then 1 else 0)) ∧
  (s.dev.runs e (isI 0x38 0 0 0) → Retires (.nopInstruction e) s e x.step) ∧
  (∀ rd, s.dev.runs e (isI 0x38 rd 0 1) → WritesS (.time e rd) s e rd s.dev.now) ∧
  (∀ rd, s.dev.runs e (isI 0x38 rd 0 2) → WritesS (.cycle e rd) s e rd (s.dev.engCycles e)) ∧
  (s.dev.runs e (isI 0x38 0 0 3) → Raises (.brk e) s e 0x0A) ∧
  (s.dev.runs e (isI 0x38 0 0 4) → Raises (.abandon e) s e 0x0B) ∧
  (∀ id b r1 r2, s.dev.runs e (isEmit r1 r2) → x.body = some id → s.dev.bodyOf id = some b → b.verdict = none → s.dev.overdue e = none →
    let v : Verdict := ⟨bitsAt (x.sReg r1) 16 16 * 65536 + x.sReg r1 % 4, x.sReg r2 % 2 ^ 32⟩
    Completes (.vemit e r1 r2) s (fun d =>
      d.seg.bodies = s.dev.seg.bodies.map (fun c => if c.id = id then { c with verdict := some v, place := .resolved } else c)
      ∧ d.plan.passing = s.dev.plan.passing ++ [⟨id, v, false⟩]
      ∧ d.get (F.ENG_BUSY_KCYCLES e) = (x.busy + s.dev.engCycles e) / 1024 % 2 ^ 32
      ∧ (x.fetched = none → (d.eng e).body = none ∧ (d.eng e).retired = x.retired + 1 ∧ (d.eng e).xfers = x.xfers.filter (fun t => !t.isRead))
      ∧ (∀ k, k ≠ e → d.eng k = s.dev.eng k) ∧ KeepsMemory s.dev d)) ∧
  (∀ b, s.dev.overdue e = some b → b.place = .fetched e → ∀ i word, (i, word) ∈ [(Instr.brk e, isI 0x38 0 0 3), (.abandon e, isI 0x38 0 0 4)] → s.dev.runs e word →
    Completes i s (fun d => d.get (F.ENG_LAST_EXC_CAUSE e) = s.dev.get (F.ENG_LAST_EXC_CAUSE e) ∧ (x.fetched = none → (d.eng e).body = none))) ∧
  (e < 64 → x.body.isSome = true → (∀ i, x.img = some i → i.codeLen ≤ x.pc) → x.retired < x.limit * 1024 → Raises (.illegalInstruction e) s e 0x01) ∧
  (e < 64 → x.body.isSome = true → (∃ i, x.img = some i ∧ x.pc < i.codeLen) → kLegal x.word = false → x.retired < x.limit * 1024 →
    Raises (.illegalInstruction e) s e 0x02) ∧
  (∀ rd r1 r2 i word, (i, word) ∈ [(Instr.add e rd r1 r2, isR 0x000 rd r1 r2), (.brEq e r1 r2 rd, isI 0x18 r1 r2 rd), (.ld64 e rd r1 r2, isI 0x10 rd r1 r2),
      (.st64 e rd r1 r2, isI 0x14 rd r1 r2), (.vadd e rd r1 r2 0 0, isV 0x20 0x00 rd r1 r2 0 0), (.vfadd e rd r1 r2 0 3, isV 0x21 0x00 rd r1 r2 0 3),
      (.nopInstruction e, isI 0x38 0 0 0), (.vemit e r1 r2, isEmit r1 r2), (.illegalInstruction e, fun w => !kLegal w)] →
    e < 64 → x.body.isSome = true → (∃ i, x.img = some i ∧ x.pc < i.codeLen) → word x.word = true → x.limit * 1024 ≤ x.retired → Raises i s e 0x10)

/-! ### Swaps, line correction and the sky -/

/-- The bank swap of COR, GEO, SPEC, DISP and PLAN (R162, R163, R188, R260, R309). A request with TIMED = 0 whose inactive set passes its check becomes
pending and changes nothing else; one made while a swap is pending is refused with BUSY, one in BOOT or IDENT
with STATE (before R58 and R543: the model's reading, log entry 91). A pending untimed swap
toggles ACTIVE, clears PEND and signals SWAP_DONE; with DISP every SLOT takes its SLOT_NEXT. -/
def Obligations.BankSwaps : Prop := ∀ (s : State) (v : Nat),
  let asks : SwapDef → Prop := fun w => v % 2 = 1 ∧ Dev.fieldOf w.timed v = 0 ∧ s.dev.taken w.page w.off ∧ 3 ≤ s.dev.state ∧ s.dev.bit w.pend = false
  let pends : SwapDef → Dev → Prop := fun w d => d.bit w.pend = true ∧ d.get w.timed = 0 ∧ KeepsRegs s.dev d [w.pend, w.timed] ∧ KeepsMemory s.dev d
  let asksAgain : SwapDef → Prop := fun w => v % 2 = 1 ∧ s.dev.taken w.page w.off ∧ 3 ≤ s.dev.state ∧ s.dev.bit w.pend = true
    ∧ s.dev.get (F.BLK_ERR_CODE_CODE w.page) = 0
  let asksEarly : SwapDef → Prop := fun w => v % 2 = 1 ∧ s.dev.state ≤ 2 ∧ s.dev.get (F.BLK_ERR_CODE_CODE w.page) = 0
  let refused : SwapDef → Nat → Dev → Prop := fun w e d => d.bit w.pend = s.dev.bit w.pend ∧ d.get w.active = s.dev.get w.active
    ∧ d.get (F.BLK_ERR_CODE_CODE w.page) = e
  let due : SwapDef → Prop := fun w => s.dev.bit w.pend = true ∧ (s.dev.swapSt w).timed = none
  let toggles : SwapDef → Dev → Prop := fun w d => d.get w.active = 1 - s.dev.get w.active ∧ d.bit w.pend = false ∧ d.bit w.dtPend = true
    ∧ d.get w.cnt = (s.dev.get w.cnt + 1) % 2 ^ 8 ∧ d.testBit (F.BLK_IRQ_RAW w.page) w.irqDone = true
    ∧ (s.dev.sorting = false → KeepsMemory { s.dev with host := d.host } d)
  (asks corSwap → Completes (.corSwapGo v) s (pends corSwap)) ∧
  (asksAgain corSwap → Completes (.corSwapGo v) s (refused corSwap 3)) ∧ (asksEarly corSwap → Completes (.corSwapGo v) s (refused corSwap 1)) ∧
  (asks geoSwap → s.dev.geoCheck (1 - s.dev.get F.GEO_SWAP_ACTIVE) = none → Completes (.geoSwapGo v) s (pends geoSwap)) ∧
  (asksAgain geoSwap → Completes (.geoSwapGo v) s (refused geoSwap 3)) ∧ (asksEarly geoSwap → Completes (.geoSwapGo v) s (refused geoSwap 1)) ∧
  (asks specSwap → s.dev.specCheck (1 - s.dev.get F.SPEC_SWAP_ACTIVE) = none → Completes (.specSwapGo v) s (pends specSwap)) ∧
  (asksAgain specSwap → Completes (.specSwapGo v) s (refused specSwap 3)) ∧ (asksEarly specSwap → Completes (.specSwapGo v) s (refused specSwap 1)) ∧
  (asks dispSwap → s.dev.slotNextMissing = false → Completes (.dispSwapGo v) s (pends dispSwap)) ∧
  (asksAgain dispSwap → Completes (.dispSwapGo v) s (refused dispSwap 3)) ∧ (asksEarly dispSwap → Completes (.dispSwapGo v) s (refused dispSwap 1)) ∧
  (asks planSwap → s.dev.mapBad (1 - s.dev.get F.PLAN_SWAP_ACTIVE) = none → Completes (.planSwapGo v) s (pends planSwap)) ∧
  (asksAgain planSwap → Completes (.planSwapGo v) s (refused planSwap 3)) ∧ (asksEarly planSwap → Completes (.planSwapGo v) s (refused planSwap 1)) ∧
  (due corSwap → Completes .corSwapApply s (toggles corSwap)) ∧
  (due geoSwap → Completes .geoSwapApply s (toggles geoSwap)) ∧
  (due specSwap → Completes .specSwapApply s (toggles specSwap)) ∧
  (due dispSwap → Completes .dispSwapApply s (fun d => toggles dispSwap d ∧ ∀ g, g < 8 → d.get (F.DISP_GRP_A_SLOT g) = s.dev.get (F.DISP_GRP_A_SLOT_NEXT g) % 8)) ∧
  (due planSwap → Completes .planSwapApply s (toggles planSwap))

/-- Line correction (R103, R137, R154, R157, R160): the row slot with the lowest trigger DT leaves the ingest side and joins the corrected rows with its
index, stamp, ports and the noise floor of that moment, flagged when a coefficient read with an error; the due ageing of a group adds one to AGE, up to 15, in every entry of its
ports; a complete zone interval is closed and its rows count from 0; a focus snapshot is asked for, and taken. -/
def Obligations.LineCorrection : Prop := ∀ s : State,
  (∀ slot, s.dev.nextSlot = some slot → Completes (.rowCorrection []) s (fun d => d.slotsOut = s.dev.slotsOut.erase slot
    ∧ ∃ lines, d.corOut = s.dev.corOut ++ [{ slot with lines := lines, floor := s.dev.get F.COR_BG_FLOOR_N_FLOOR }] ∧ lines.map (·.port) = slot.lines.map (·.port))) ∧
  (∀ slot l b x, s.dev.nextSlot = some slot → l ∈ slot.lines → Completes (.rowCorrection [(l.port, b, x)]) s (fun d =>
    (∃ lines, d.corOut = s.dev.corOut ++ [{ slot with lines := lines, parity := true, floor := s.dev.get F.COR_BG_FLOOR_N_FLOOR }]) ∧ d.bit (F.BLK_PARITY_SRAM_UE 0x30) = true)) ∧
  (∀ g, Due.bgAge g ∈ s.dev.due → Completes (.bgAgeTick g) s (fun d => d.due = s.dev.due.filter (· ≠ .bgAge g)
    ∧ ∀ p ∈ s.dev.portsOf g, ∀ i, i < 65536 → (d.byte (bgOff p 0 i)).toNat =
      (s.dev.byte (bgOff p 0 i)).toNat / 16 * 16 + min 15 ((s.dev.byte (bgOff p 0 i)).toNat % 16 + 1))) ∧
  (∀ g, g < 8 → s.dev.portsOf g ≠ [] → s.dev.get F.COR_BG_ZONE_ROWS ≤ (Sparse.get s.dev.zoneRows (0, 0) g).1 → Completes (.zoneDone g) s (fun d =>
    Sparse.get d.zoneRows (0, 0) g = (0, 0) ∧ (g = s.dev.firstGroup → d.get F.COR_BG_ZONE_SEQ = (s.dev.get F.COR_BG_ZONE_SEQ + 1) % 2 ^ 16
      ∧ d.testBit (F.BLK_IRQ_RAW 0x30) 6 = true))) ∧
  (∀ v, s.dev.taken 0x32 0x40 → (v % 2 = 1 → Completes (.focSnapWrite v) s (fun d => d.get F.FOC_CTRL_SNAP = 1
      ∧ KeepsRegs s.dev d [F.FOC_CTRL_SNAP] ∧ KeepsMemory s.dev d)) ∧
    (v % 2 = 0 → Completes (.focSnapWrite v) s (fun d => KeepsRegs s.dev d [] ∧ KeepsMemory s.dev d))) ∧
  (s.dev.nextSlot.isSome = true → s.dev.bit F.FOC_CTRL_SNAP = true → Completes .focSnapshot s (fun d => d.get F.FOC_CTRL_SNAP = 0
    ∧ d.get F.FOC_CTRL_SEQ = (s.dev.get F.FOC_CTRL_SEQ + 1) % 2 ^ 16 ∧ d.focSnap = s.dev.focLive ∧ d.focLive = []
    ∧ d.testBit (F.BLK_IRQ_RAW 0x32) 3 = true))

/-- The sky (R167, R179, R181–R183, R190): a corrected row slot becomes a sky row of its group, index and stamp; the close of a registration interval
clears the sums of every seam; a step due at the next row moves its port's live offset while the loop is on, and is dropped otherwise; a written offset beyond OFS_LIMIT is refused with RANGE, one
of a port in a group waits for its row, one of a port in no group takes effect at once and clears LIMIT. -/
def Obligations.SkyRows : Prop := ∀ s : State,
  (∀ slot rest, s.dev.corOut = slot :: rest → Completes (.skyRowBuild false false []) s (fun d => d.corOut = rest ∧
    ∃ row, d.skyOut = s.dev.skyOut ++ [row] ∧ row.group = slot.group ∧ row.index = slot.index ∧ row.stamp = slot.stamp)) ∧
  (∀ g k, s.dev.due = [.arClose g k] → Completes (.arIntervalClose g) s (fun d => d.due = [] ∧ ∀ l r, (l, r) ∈ s.dev.seamPairs g →
    (d.seam r).sdg = 0 ∧ (d.seam r).sgg = 0 ∧ (d.seam r).n = 0)) ∧
  (∀ g slot rest p v, s.dev.corOut = slot :: rest → slot.group = g → s.dev.arSteps = [⟨g, slot.index, [(p, v)]⟩] → s.dev.ofsWrites = [] → p < 16 →
    s.dev.arOn = true → s.dev.get F.STI_AR_LIM_OFS_LIMIT < 2 ^ 12 →
    s.dev.bit (F.STI_OFS_LIMIT p) = false → (s.dev.getS (F.STI_OFS_OFS p) + v).natAbs ≤ s.dev.get F.STI_AR_LIM_OFS_LIMIT →
    Completes (.arStepApply g) s (fun d => d.getS (F.STI_OFS_OFS p) = s.dev.getS (F.STI_OFS_OFS p) + v ∧ d.arSteps = []
      ∧ d.get F.STI_AR_STAT_STEPS = (s.dev.get F.STI_AR_STAT_STEPS + 1) % 2 ^ 16
      ∧ KeepsRegs s.dev d [F.STI_OFS_OFS p, F.STI_AR_STAT_STEPS] ∧ KeepsMemory s.dev d)) ∧
  (∀ g slot rest p v, s.dev.corOut = slot :: rest → slot.group = g → s.dev.arSteps = [⟨g, slot.index, [(p, v)]⟩] → s.dev.ofsWrites = [] →
    s.dev.arOn = false → Completes (.arStepApply g) s (fun d => d.arSteps = [] ∧ KeepsRegs s.dev d [] ∧ KeepsMemory s.dev d)) ∧
  (∀ p v, p < 16 → s.dev.taken 0x34 (0x80 + 4 * p) →
    (s.dev.get F.STI_AR_LIM_OFS_LIMIT < (sgn 16 (v % 65536)).natAbs → s.dev.get (F.BLK_ERR_CODE_CODE 0x34) = 0 → Completes (.stiOfsWrite p v) s (fun d =>
      d.get (F.BLK_ERR_CODE_CODE 0x34) = 2 ∧ d.get (F.STI_OFS_OFS p) = s.dev.get (F.STI_OFS_OFS p) ∧ d.ofsWrites = s.dev.ofsWrites)) ∧
    ((sgn 16 (v % 65536)).natAbs ≤ s.dev.get F.STI_AR_LIM_OFS_LIMIT → 8 ≤ s.dev.groupOf p → Completes (.stiOfsWrite p v) s (fun d =>
      d.get (F.STI_OFS_OFS p) = v % 65536 ∧ d.get (F.STI_OFS_LIMIT p) = 0 ∧ KeepsRegs s.dev d [F.STI_OFS_OFS p, F.STI_OFS_LIMIT p]
        ∧ KeepsMemory s.dev d)) ∧
    ((sgn 16 (v % 65536)).natAbs ≤ s.dev.get F.STI_AR_LIM_OFS_LIMIT → s.dev.groupOf p < 8 → Completes (.stiOfsWrite p v) s (fun d =>
      (∃ w ∈ d.ofsWrites, w.port = p ∧ w.value = v % 65536) ∧ KeepsRegs s.dev d [] ∧ KeepsMemory s.dev d)))

/-! ### Bodies, trajectories and dispatch -/

/-- Segmentation, bodies and the upper store (R195, R203, R204, R207, R214, R218, R225–R227, R239, R242): the next sky row is taken and joins the rows of its
group; the oldest closed body is committed with the next number; bodies whose RETAIN has run out before the next row are retired and counted; upper
entries expire after the last labelled row, under the settings of the last commit; a lower group made single-plane releases its partner's entries;
BODY_CTX_LOW and TRAJ_STORE_PEAK are set by CLR. -/
def Obligations.BodiesAndStore : Prop := ∀ s : State,
  (∀ row rest, s.dev.skyOut = row :: rest → Completes .rowLabel s (fun d => d.skyOut = rest
    ∧ (d.segGroup row.group).rows.head? = some (row.index, row.stamp))) ∧
  (∀ b t rest, s.dev.seg.closed = (b, t) :: rest → Completes .bodyCommit s (fun d => d.seg.closed = rest
    ∧ d.get F.BODY_COMMIT_SEQ_COUNT = (s.dev.get F.BODY_COMMIT_SEQ_COUNT + 1) % 2 ^ 32
    ∧ ∃ c ∈ d.seg.bodies, c.id = b.id ∧ c.group = b.group ∧ c.crop = b.crop ∧ c.seq = (s.dev.get F.BODY_COMMIT_SEQ_COUNT + 1) % 2 ^ 32)) ∧
  (∀ row rest gone, s.dev.skyOut = row :: rest → gone = s.dev.seg.bodies.filter (fun b => decide (0 ≤ st40Diff (row.stamp / 65536 % 2 ^ 40) b.retire)) →
    gone ≠ [] → Completes .bodyRetire s (fun d => (∀ b ∈ gone, ∀ c ∈ d.seg.bodies, c.id ≠ b.id)
      ∧ d.get F.BODY_CNT_RETIRED_COUNT = (s.dev.get F.BODY_CNT_RETIRED_COUNT + gone.length) % 2 ^ 32)) ∧
  (∀ v, s.dev.taken 0x37 0x48 → (Dev.fieldOf F.BODY_CTX_LOW_CLR v = 1 → Completes (.ctxLowClr v) s (fun d =>
      d.get F.BODY_CTX_LOW_LOW = s.dev.get F.BODY_CTX_STAT_FREE % 2 ^ 19 ∧ KeepsRegs s.dev d [F.BODY_CTX_LOW_LOW] ∧ KeepsMemory s.dev d)) ∧
    (Dev.fieldOf F.BODY_CTX_LOW_CLR v = 0 → Completes (.ctxLowClr v) s (fun d => KeepsRegs s.dev d [] ∧ KeepsMemory s.dev d))) ∧
  (∀ g k stamp v, (s.dev.segGroup g).expDue = true → (∀ b ∈ s.dev.seg.closed, b.1.group ≠ g) → s.dev.roleOf g = 2 →
    (s.dev.segGroup g).last = some (k, stamp) → (s.dev.segGroup g).openB = [] → v = s.dev.trajView → Completes (.upperEntryExpiry g) s (fun d =>
      (d.segGroup g).expDue = false ∧ ∀ x ∈ d.seg.store, x ∈ s.dev.seg.store ∧ (x.group = s.dev.get (F.TRAJ_GCFG_PARTNER g) →
        v.gapLe g v.vyMin ((stamp : Int) + v.getS (F.TRAJ_GCFG_EXP_OFS g) * 65536 - x.tRef * 65536) 65536 = true))) ∧
  (∀ g u, g < 8 → u < 8 → g ≠ u → s.dev.sorting = true → s.dev.roleOf g = 2 → s.dev.get (F.TRAJ_GCFG_PARTNER g) = u → Completes (.trajRoleChange g) s (fun d =>
    d.roleOf g = 3 ∧ d.roleOf u = 3 ∧ (∀ x ∈ d.seg.store, x ∈ s.dev.seg.store ∧ x.group ≠ u)
      ∧ d.get (F.TRAJ_VX_AVG_VX_AVG u) = s.dev.get (F.TRAJ_VX_AVG_VX_AVG u) ∧ ∀ h, h < 8 → h ≠ g → h ≠ u → d.roleOf h = s.dev.roleOf h)) ∧
  (∀ v, s.dev.taken 0x38 0x54 → (Dev.fieldOf F.TRAJ_STORE_PEAK_CLR v = 1 → Completes (.storePeakClr v) s (fun d =>
      d.get F.TRAJ_STORE_PEAK_PEAK = s.dev.get F.TRAJ_STORE_STAT_USED % 2 ^ 17 ∧ KeepsRegs s.dev d [F.TRAJ_STORE_PEAK_PEAK] ∧ KeepsMemory s.dev d)) ∧
    (Dev.fieldOf F.TRAJ_STORE_PEAK_CLR v = 0 → Completes (.storePeakClr v) s (fun d => KeepsRegs s.dev d [] ∧ KeepsMemory s.dev d)))

/-- The dispatcher (R245, R248–R251, R257, R261, R262, R272): the next body is given to the first engine that waits for its slot, or resolved when less than MIN_RUN
is left; a complete window starts on a free engine with s1 at its window, s2 the group, PC at ENTRY and every other register 0; a deadline that has passed,
and a shadow's deadline + GRACE, resolve the body (a verdict in the cycle of the deadline itself comes first, R297); a point is asked for and applied, 2 µs
after the one before it; an OFFLINE engine that meets the conditions rejoins. -/
def Obligations.Dispatch : Prop := ∀ s : State,
  (∀ e b, s.dev.dispatching = true → s.dev.nextTake = some (e, b) → (s.dev.graced b = true ∨ (b.minRun * 1000 : Int) ≤ s.dev.toDeadline b) →
    Completes .dispatchTake s (fun d => (d.eng e).fetched = some b.id ∧ (d.bodyOf b.id).map (·.place) = some (.fetched e)
      ∧ d.get F.DISP_CNT_TAKEN_COUNT = (s.dev.get F.DISP_CNT_TAKEN_COUNT + 1) % 2 ^ 32)) ∧
  (∀ e b, s.dev.dispatching = true → s.dev.nextTake = some (e, b) → s.dev.graced b = false → s.dev.toDeadline b < b.minRun * 1000 →
    Completes .dispatchTake s (fun d => (d.bodyOf b.id).map (·.place) = some .resolved
      ∧ d.get (F.DISP_CNT_CAUSE_COUNT 1) = (s.dev.get (F.DISP_CNT_CAUSE_COUNT 1) + 1) % 2 ^ 32)) ∧
  (∀ e id b, (s.dev.eng e).fetched = some id → s.dev.bodyOf id = some b → (s.dev.eng e).ready = false → e < 64 →
    ((s.dev.eng e).body.isSome = true → Completes (.bodyFetchDone e) s (fun d => d.eng e = { s.dev.eng e with
      mem := s.dev.fillWindow (s.dev.eng e).mem (winBase (1 - (s.dev.eng e).window)) b, ready := true } ∧ KeepsRegs s.dev d [] ∧ KeepsMemory s.dev d)) ∧
    ((s.dev.eng e).body = none → s.dev.inTime id = true → Completes (.bodyFetchDone e) s (fun d => (d.eng e).body = some id ∧ (d.eng e).fetched = none
      ∧ (d.eng e).retired = 0 ∧ (d.eng e).window = 1 - (s.dev.eng e).window ∧ (∀ i, (s.dev.eng e).img = some i → (d.eng e).pc = i.entry)
      ∧ (∀ j, (d.eng e).sReg j = if j = 1 then winBase (1 - (s.dev.eng e).window) else if j = 2 then b.group % 2 ^ 64 else 0)
      ∧ (∀ j, (d.eng e).vReg j = 0) ∧ (∀ j, (d.eng e).pReg j = if j = 0 then 2 ^ 64 - 1 else 0)
      ∧ d.bit (F.ENG_STAT_RUN e) = true ∧ KeepsRegs s.dev d [F.ENG_STAT_RUN e, F.ENG_STAT_FETCHED e, F.ENG_BODY_BODY_ID e] ∧ KeepsMemory s.dev d))) ∧
  (∀ b, Dev.earliest (s.dev.seg.bodies.filter (fun b => b.place ≠ .resolved && !s.dev.graced b && decide (s.dev.toDeadline b < 0))) = some b →
    Completes .bodyDeadline s (fun d => (d.bodyOf b.id).map (·.place) = some .resolved)) ∧
  (∀ b, Dev.earliest (s.dev.seg.bodies.filter (fun b => b.place ≠ .resolved && s.dev.graced b && decide (s.dev.toDeadline b < -(b.grace * 1000 : Nat)))) = some b →
    Completes .graceExpiry s (fun d => (d.bodyOf b.id).map (·.place) = some .resolved ∧ (b.taken = false →
      d.get F.DISP_CNT_DIVERGED_COUNT = (s.dev.get F.DISP_CNT_DIVERGED_COUNT + 1) % 2 ^ 32 ∧ d.testBit (F.BLK_IRQ_RAW dispPage) 7 = true))) ∧
  (∀ e v, e < 64 → s.dev.taken (engPage e) 0x44 → Completes (.engPtReq e v) s (fun d => d.get (F.ENG_PT_REQ e) = v % 4
    ∧ d.engines.ptWait = s.dev.engines.ptWait.filter (fun x => x ≠ e) ++ [e] ∧ KeepsRegs s.dev d [F.ENG_PT_REQ e] ∧ KeepsMemory s.dev d)) ∧
  (∀ e rest, s.dev.engines.ptWait = e :: rest → e < 64 → ((∀ t, s.dev.engines.ptAt = some t → 2000 ≤ s.dev.elapsed t) →
      Completes .engPointChange s (fun d => d.get (F.ENG_PT_ACT e) = s.dev.wantedPoint e ∧ d.engines.ptWait = rest ∧ d.engines.ptAt = some s.dev.time.c
        ∧ KeepsRegs s.dev d [F.ENG_PT_ACT e, F.ENG_PT_VCODE e] ∧ KeepsMemory s.dev d)) ∧
    (∀ t, s.dev.engines.ptAt = some t → s.dev.elapsed t < 2000 → Completes .engPointChange s (fun d => d.engines.ptWait = e :: rest
      ∧ KeepsRegs s.dev d []))) ∧
  (∀ e, e < 64 → s.dev.offline (engPage e) = true → s.dev.bit (F.BLK_CTRL_OFFLINE_REQ (engPage e)) = false → s.dev.bit (F.ENG_CFG_IMG_VALID e) = true →
    (s.dev.bit (F.ENG_STAT_WITHDRAWN e) = false ∨ s.dev.bit (F.ENG_STAT_ST_PASS e) = true) → Completes (.engRejoin e) s (fun d =>
      d.offline (engPage e) = false ∧ d.bit (F.ENG_STAT_WITHDRAWN e) = false ∧ KeepsRegs s.dev d [F.BLK_STAT_OFFLINE (engPage e), F.ENG_STAT_WITHDRAWN e]
        ∧ KeepsMemory s.dev d))

/-- Vesper's work on engines, and faults (R259, R263, R265–R268, R299, R520): a self-test reports what it found, and is refused outside SERVICE on an engine in the
pool; a bad image is refused with RANGE, a good one is loaded into every engine of the mask with its slot; a hardware fault is counted, marked and
reported, and strikes the body that runs, a correctable error only shown; a program whose check holds is loaded again; the sixteenth uncorrectable HBM error of a second makes HBM unusable; a group whose ports have all
been down for HALF_MS loses its view. -/
def Obligations.EngineService : Prop := ∀ s : State,
  (∀ logic mem unit, s.dev.executing 0x48 = true → s.dev.arg 0 < 64 → s.dev.arg 1 % 2 = 0 →
    (s.dev.state = 8 → Completes (.engSelftest logic mem unit) s (fun d => d.cmd = none ∧ d.get F.CMD_STATUS_RESULT = 0
      ∧ d.bit (F.ENG_STAT_ST_PASS (s.dev.arg 0)) = logic ∧ d.get (F.CMD_RET_RET 0) = (if logic then 1 else 0) + 2 + unit % 256 * 256)) ∧
    (s.dev.state = 5 → s.dev.offline (engPage (s.dev.arg 0)) = false → Completes (.engSelftest logic mem unit) s (fun d => d.cmd = none
      ∧ d.get F.CMD_STATUS_RESULT = 1 ∧ d.get (F.ENG_STAT_ST_PASS (s.dev.arg 0)) = s.dev.get (F.ENG_STAT_ST_PASS (s.dev.arg 0))))) ∧
  (s.dev.executing 0x49 = true →
    let off := s.dev.arg 1 + s.dev.arg 2 % 4 * 2 ^ 32
    (s.dev.imgBad off (s.dev.arg 3) = true → Completes .progLoad s (fun d => d.cmd = none ∧ d.get F.CMD_STATUS_RESULT = 2)) ∧
    (s.dev.imgBad off (s.dev.arg 3) = false → s.dev.imgCheck off = true → s.dev.feat 7 = false → (s.dev.imgWord off 2 % 2 = 0 ∨ s.dev.feat 6 = true) →
      (∀ e ∈ s.dev.maskEngines, s.dev.offline (engPage e) = true) → Completes .progLoad s (fun d => d.cmd = none ∧ d.get F.CMD_STATUS_RESULT = 0
        ∧ ∀ e ∈ s.dev.maskEngines, d.bit (F.ENG_CFG_IMG_VALID e) = true ∧ d.engSlot e = s.dev.arg 0 % 8
          ∧ (d.eng e).img = some ⟨off, s.dev.arg 3, s.dev.imgWord off 3, s.dev.imgWord off 5⟩))) ∧
  (∀ e, e < 64 → s.dev.enabled (engPage e) = true → s.dev.sorting = false → Completes (.engHwFault e 0) s (fun d =>
    d.get (F.ENG_CNT_HWFAULT_COUNT e) = (s.dev.get (F.ENG_CNT_HWFAULT_COUNT e) + 1) % 2 ^ 32 ∧ d.bit (F.BLK_STAT_FAULT (engPage e)) = true
      ∧ d.bit (F.BLK_PARITY_SRAM_UE (engPage e)) = true ∧ d.testBit (F.BLK_IRQ_RAW (engPage e)) 4 = true
      ∧ (s.dev.justEmitted e = false → (d.eng e).struck = (s.dev.eng e).body)) ∧
    Completes (.engHwFault e 6) s (fun d => d.bit (F.BLK_PARITY_SRAM_CE (engPage e)) = true
      ∧ d.get (F.ENG_CNT_HWFAULT_COUNT e) = s.dev.get (F.ENG_CNT_HWFAULT_COUNT e) ∧ d.bit (F.BLK_STAT_FAULT (engPage e)) = s.dev.bit (F.BLK_STAT_FAULT (engPage e)))) ∧
  (∀ e i, e < 64 → s.dev.sorting = false → (s.dev.eng e).out = true → (s.dev.eng e).img = some i → s.dev.imgCheck i.off = true → Completes (.engReload e) s (fun d =>
    (d.eng e).out = false ∧ d.bit (F.ENG_CFG_IMG_VALID e) = true ∧ KeepsRegs s.dev d [F.ENG_CFG_IMG_VALID e] ∧ KeepsMemory s.dev d)) ∧
  (s.dev.sorting = false → (15 ≤ (s.dev.engines.hbmUe.filter (fun t => decide (s.dev.time.c - t < 1000000000))).length → Completes .hbmUe s (fun d =>
      d.bit F.DEV_ENV_STAT_HBM_FAIL = true ∧ KeepsRegs s.dev d [F.DEV_ENV_STAT_HBM_FAIL])) ∧
    ((s.dev.engines.hbmUe.filter (fun t => decide (s.dev.time.c - t < 1000000000))).length < 15 → Completes .hbmUe s (fun d =>
      d.engines.hbmUe = s.dev.engines.hbmUe.filter (fun t => decide (s.dev.time.c - t < 1000000000)) ++ [s.dev.time.c] ∧ KeepsRegs s.dev d []))) ∧
  (∀ g, g < 8 → s.dev.sorting = true → s.dev.portsOf g ≠ [] → s.dev.groupRemote g = false → s.dev.viewLost g = false →
    (∀ p ∈ s.dev.portsOf g, s.dev.portState p = 7 ∧ ∃ t, (s.dev.port p).downAt = some t ∧ s.dev.get F.MODE_CTRL_HALF_MS * 1000000 ≤ s.dev.elapsed t) →
    Completes (.viewLossTimeout g) s (fun d => d.viewLost g = true ∧ d.bit F.MODE_LEVEL_HALF = true))

/-! ### Ejection planning and Meteor -/

/-- The planner (R302, R304, R313, R327): the verdict that has waited longest is taken, leaves the body's own verdict as it is, and an orphan's is planned; a
pressure sample within its limits is in force with HOLD and FAIL clear, an invalid one leaves the last valid pressure with HOLD, without pressure
compensation P_REF is in force; invalid for longer than HOLD, P_REF with FAIL and PRESS_FAIL; DIVERT_OUT deasserts, at the level POL gives, HOLD ms after
its last condition. -/
def Obligations.Planning : Prop := ∀ s : State,
  (∀ id v rep rest b, s.dev.plan.passing = ⟨id, v, rep⟩ :: rest → s.dev.bodyOf id = some b → Completes .verdictPlan s (fun d =>
    d.plan.passing = rest ∧ (d.bodyOf id).map (·.verdict) = some b.verdict
      ∧ (s.dev.planning = true → rep = false → b.entry = .orphan → (d.bodyOf id).map (·.planned) = some true))) ∧
  ((s.dev.plan.pressAt = 0 ∨ 10000 ≤ s.dev.elapsed s.dev.plan.pressAt) →
    (s.dev.pressMeasured = false → Completes .pressureSample s (fun d => d.get F.PLAN_PRESS_STAT_P = s.dev.get F.PLAN_PRESS_P_REF % 2 ^ 16
      ∧ d.get F.PLAN_PRESS_STAT_HOLD = 0 ∧ d.get F.PLAN_PRESS_STAT_FAIL = 0
      ∧ KeepsRegs s.dev d [F.PLAN_PRESS_STAT_P, F.PLAN_PRESS_STAT_HOLD, F.PLAN_PRESS_STAT_FAIL] ∧ KeepsMemory s.dev d)) ∧
    (∀ p : Nat, s.dev.pressMeasured = true → s.dev.testBit F.SIG_STALE_STALE (s.dev.get F.PLAN_PRESS_SIG) = false → p < 2 ^ 16 →
      (p : Int) = s.dev.getS (F.SIG_CH_OUT_OUT (s.dev.get F.PLAN_PRESS_SIG)) * s.dev.get F.PLAN_PRESS_GAIN_GAIN / 65536 + s.dev.getS F.PLAN_PRESS_OFS_OFS →
      s.dev.get F.PLAN_PRESS_LIM_P_MIN ≤ p → p ≤ s.dev.get F.PLAN_PRESS_LIM_P_MAX → Completes .pressureSample s (fun d => d.get F.PLAN_PRESS_STAT_P = p
        ∧ d.get F.PLAN_PRESS_STAT_HOLD = 0 ∧ d.get F.PLAN_PRESS_STAT_FAIL = 0 ∧ d.plan.validAt = s.dev.time.c
        ∧ KeepsRegs s.dev d [F.PLAN_PRESS_STAT_P, F.PLAN_PRESS_STAT_HOLD, F.PLAN_PRESS_STAT_FAIL] ∧ KeepsMemory s.dev d)) ∧
    (s.dev.pressMeasured = true → s.dev.bit F.PLAN_PRESS_STAT_FAIL = false → s.dev.testBit F.SIG_STALE_STALE (s.dev.get F.PLAN_PRESS_SIG) = true →
      s.dev.elapsed s.dev.plan.validAt ≤ s.dev.get F.PLAN_PRESS_HOLD * 1000000 → Completes .pressureSample s (fun d =>
        d.get F.PLAN_PRESS_STAT_P = s.dev.plan.lastP % 2 ^ 16 ∧ d.get F.PLAN_PRESS_STAT_HOLD = 1 ∧ d.get F.PLAN_PRESS_STAT_FAIL = 0
        ∧ KeepsRegs s.dev d [F.PLAN_PRESS_STAT_P, F.PLAN_PRESS_STAT_HOLD, F.PLAN_PRESS_STAT_FAIL] ∧ KeepsMemory s.dev d))) ∧
  (s.dev.pressMeasured = true → s.dev.bit F.PLAN_PRESS_STAT_FAIL = false → s.dev.bit F.PLAN_PRESS_STAT_HOLD = true →
    s.dev.get F.PLAN_PRESS_HOLD * 1000000 < s.dev.elapsed s.dev.plan.validAt → Completes .pressFail s (fun d => d.get F.PLAN_PRESS_STAT_FAIL = 1
      ∧ d.get F.PLAN_PRESS_STAT_HOLD = 0 ∧ d.get F.PLAN_PRESS_STAT_P = s.dev.get F.PLAN_PRESS_P_REF % 2 ^ 16
      ∧ d.testBit (F.BLK_IRQ_RAW 0x80) 8 = true)) ∧
  (∀ n t, n < 2 → Sparse.find? s.dev.plan.divertAt n = some t → s.dev.get (F.PLAN_DIVERT_HOLD n) * 1000000 ≤ s.dev.elapsed t →
    Completes (.divertRelease n) s (fun d => d.get (F.PLAN_DIVERT_ASSERTED n) = 0
      ∧ d.pin (.divert n) = (if s.dev.bit (F.PLAN_DIVERT_POL n) then .high else .low) ∧ Sparse.find? d.plan.divertAt n = none
      ∧ KeepsRegs s.dev d [F.PLAN_DIVERT_ASSERTED n] ∧ KeepsMemory s.dev d))

/-- A Meteor port (R333, R335–R344, R352–R354, Tables met-3 to met-5): beacons, with the owner's claim and the time of their slot, as the 19 characters of a
slot, and a queued delay put in force by its beacon; the next FIRE, numbered and counted, and CANCEL frames ahead of it, a FIRE too late lost; ranging,
and the delay of its sixteenth exchange; what STATUS and SEAT frames show; retransmission; LOST modules; lock, training and OFFLINE. -/
def Obligations.MeteorPort : Prop := ∀ (s : State) (n : Nat), n < 8 → s.dev.metRuns n = true →
  let coded := fun (b : List Nat) =>
    Emission.metFrame n (slotChars 20 (s.dev.metPort n).busyTo (s.dev.metPort n).rd (s.dev.slotStart n) (frame16 b)).2
  let claims := if s.dev.claims then 1 else 0
  (s.dev.metFeedback = true → s.dev.beaconDue n = true → s.dev.boot.extest = none →
    ((s.dev.metPort n).beacons = [] → Completes (.beacon n) s (fun d =>
      d.out = coded ([0x30 + claims * 2, 0] ++ leBytes 2 s.dev.epochOut ++ leBytes 5 (uns 40 (s.dev.slotDt n)) ++ [0, 0]
        ++ [s.dev.get F.DEV_STRAPS_TWIN_SIDE, 0, 0]) :: s.dev.out ∧ (∀ b, .metFrame n b ∈ d.out.take 1 → b.length = 19)
      ∧ (d.metPort n).beaconAt = some (s.dev.slotStart n) ∧ (d.metPort n).busyTo = s.dev.slotStart n + 380 ∧ KeepsMemory s.dev d)) ∧
    (∀ k v rest, k < 4 → (s.dev.metPort n).beacons = (2, k, v) :: rest → Completes (.beacon n) s (fun d =>
      d.out = coded ([0x38 + claims * 2, k * 64] ++ leBytes 2 s.dev.epochOut ++ leBytes 5 (uns 40 (s.dev.slotDt n)) ++ leBytes 2 v
        ++ [s.dev.get F.DEV_STRAPS_TWIN_SIDE, 0, 0]) :: s.dev.out
      ∧ (d.metPort n).beacons = rest ∧ d.get (F.MET_MOD_DELAY_DELAY n k) = v % 2 ^ 16))) ∧
  (∀ p, s.dev.firable n = some p → s.dev.guardCut p = p.e → p.f < p.e → s.dev.slotDt n + 360 ≤ p.f - p.lead * 1000 →
    let k := p.valve / 64 % 4
    Completes (.fire n) s (fun d => (d.metPort n).pend = (s.dev.metPort n).pend.erase p ∧ p ∈ (d.metPort n).sent
      ∧ d.get (F.MET_CNT_FIRE_COUNT n) = (s.dev.get (F.MET_CNT_FIRE_COUNT n) + 1) % 2 ^ 32
      ∧ d.get (F.MET_MOD_SEQ_NEXT n k) = (s.dev.get (F.MET_MOD_SEQ_NEXT n k) + 1) % 2 ^ 16
      ∧ (s.dev.boot.extest = none → s.dev.metCopies n = 1 → d.out = coded (Dev.fireBytes p (s.dev.get (F.MET_MOD_SEQ_NEXT n k))) :: s.dev.out)
      ∧ (d.metPort n).busyTo = s.dev.slotStart n + 380 * s.dev.metCopies n ∧ KeepsMemory s.dev d)) ∧
  (∀ p, s.dev.firable n = some p → s.dev.guardCut p = p.e → p.f < p.e → p.f - 20000 ≤ s.dev.slotDt n + 360 → p.f - p.lead * 1000 < s.dev.slotDt n + 360 →
    Completes (.fire n) s (fun d => (d.metPort n).sent = (s.dev.metPort n).sent ∧ (d.metPort n).pend = (s.dev.metPort n).pend.erase p
      ∧ d.get (F.MET_CNT_LOST_COUNT n) = (s.dev.get (F.MET_CNT_LOST_COUNT n) + 1) % 2 ^ 32
      ∧ (∀ b, .metFrame n b ∈ d.out → .metFrame n b ∈ s.dev.out) ∧ KeepsMemory s.dev d)) ∧
  (∀ c, s.dev.nextCancel n = some c → s.dev.beaconBars n (s.dev.metCopies n) = false → Completes (.cancel n) s (fun d =>
    (d.metPort n).cancels = (s.dev.metPort n).cancels.erase c ∧ d.get (F.MET_CNT_CANCEL_COUNT n) = (s.dev.get (F.MET_CNT_CANCEL_COUNT n) + 1) % 2 ^ 32
      ∧ (s.dev.boot.extest = none → s.dev.metCopies n = 1 → d.out =
        coded (Dev.cancelBytes (c.bytes.getD 0 0) c.all (uns 40 c.f) (s.dev.get (F.MET_MOD_SEQ_NEXT n c.module))) :: s.dev.out)
      ∧ (d.metPort n).busyTo = s.dev.slotStart n + 380 * s.dev.metCopies n ∧ KeepsMemory s.dev d)) ∧
  (∀ k, k < 4 → s.dev.metRepeats n = false → (s.dev.metModule n k).ranging = true → (s.dev.metModule n k).rangeT1 = none → s.dev.boot.extest = none →
    Completes (.rangeExchange n k) s (fun d => (d.metModule n k).rangeT1 = some (s.dev.slotStart n) ∧ ∃ b, d.out = .metFrame n b :: s.dev.out)) ∧
  (∀ b (t4 : Nat), s.dev.bit (F.MET_LINK_RX_LOCK n) = true → s.dev.metFeedback = true → frameOk b = true → b.getD 0 0 / 8 = 9 → b.getD 1 0 < 64 →
    s.dev.modState n 0 = 1 → s.dev.get (F.MET_CFG_MODULES n) = 0 → (s.dev.metModule n 0).ranging = true → (s.dev.metModule n 0).rangeT1.isSome = true →
    (s.dev.metModule n 0).values.length = 15 →
    let vs := Dev.sorted ((s.dev.metModule n 0).values ++ [(t4 : Int) - frameNum b 9 3])
    let spread := vs.getD 15 0 - vs.getD 0 0
    Completes (.status n b t4) s (fun d => d.get (F.MET_MOD_DELAY_SPREAD n 0) = satU 16 spread
      ∧ (d.metModule n 0).ranging = decide (32 < spread) ∧ (spread ≤ 32 → d.lastDelay n 0 = satU 16 (roundTie ((vs.drop 4).take 8).sum 16)))) ∧
  (s.dev.metRepeats n = false → s.dev.get (F.MET_RANGE_PERIOD n) ≠ 0 →
    s.dev.get (F.MET_RANGE_PERIOD n) * 1000000 ≤ s.dev.elapsed (s.dev.metPort n).rangeAt → Completes (.rangingPeriod n) s (fun d =>
      (d.metPort n).rangeAt = s.dev.time.c ∧ ∀ k ∈ s.dev.metModules n, s.dev.modState n k = 2 → (d.metModule n k).ranging = true)) ∧
  (∀ b t4, s.dev.bit (F.MET_LINK_RX_LOCK n) = true → s.dev.metFeedback = true → frameOk b = true → b.getD 0 0 / 16 = 4 → b.getD 1 0 < 256 →
    Completes (.status n b t4) s (fun d => d.get (F.MET_MOD_SEQ_H n (b.getD 1 0 / 64)) = frameNum b 2 2 % 2 ^ 16
      ∧ (d.metModule n (b.getD 1 0 / 64)).statusAt = some s.dev.time.c ∧ (d.metPort n).flights =
        (s.dev.metPort n).flights.filter (fun f => !(f.module = b.getD 1 0 / 64 && Dev.covered (frameNum b 2 2) (frameNum b 4 2) f.seq)))) ∧
  (∀ b t4, s.dev.bit (F.MET_LINK_RX_LOCK n) = true → frameOk b = false → Completes (.status n b t4) s (fun d =>
    d.get (F.MET_CNT_RX_CRC_COUNT n) = (s.dev.get (F.MET_CNT_RX_CRC_COUNT n) + 1) % 2 ^ 32 ∧ KeepsRegs s.dev d [F.MET_CNT_RX_CRC_COUNT n]
      ∧ KeepsMemory s.dev d)) ∧
  (∀ b, s.dev.bit (F.MET_LINK_RX_LOCK n) = true → s.dev.metFeedback = true → frameOk b = true → b.getD 0 0 / 16 = 5 →
    (s.dev.metPort n).sent = [] → Completes (.seat n b) s (fun d => d.get (F.MET_CNT_SEAT_COUNT n) = (s.dev.get (F.MET_CNT_SEAT_COUNT n) + 1) % 2 ^ 32
      ∧ d.get F.PLAN_CNT_SEAT_ORPHAN_COUNT = (s.dev.get F.PLAN_CNT_SEAT_ORPHAN_COUNT + 1) % 2 ^ 32
      ∧ KeepsRegs s.dev d [F.MET_CNT_SEAT_COUNT n, F.PLAN_CNT_SEAT_ORPHAN_COUNT] ∧ KeepsMemory s.dev d)) ∧
  (∀ k f, k < 4 → s.dev.metRepeats n = false → (s.dev.metPort n).flights = [f] → f.module = k →
    (s.dev.slotDt n ≤ f.f - 20000 → s.dev.now < f.f - 20000 → s.dev.nextCancel n = none → s.dev.beaconBars n 1 = false →
      s.dev.get (F.MET_CFG_ACK_TO n) * 1000 ≤ s.dev.elapsed f.sentAt → f.retries < s.dev.get (F.MET_CFG_RETRY_MAX n) → Completes (.ackTimeout n k) s (fun d =>
        (d.metPort n).flights = [{ f with retries := f.retries + 1, sentAt := s.dev.slotStart n }]
          ∧ d.get (F.MET_CNT_RETX_COUNT n) = (s.dev.get (F.MET_CNT_RETX_COUNT n) + 1) % 2 ^ 32
          ∧ KeepsRegs s.dev d [F.MET_CNT_RETX_COUNT n, F.MET_MOD_CNT2_ACK_TIMEOUTS n k] ∧ KeepsMemory s.dev d)) ∧
    (f.fire = true → f.f - 20000 ≤ s.dev.now → Completes (.ackTimeout n k) s (fun d => (d.metPort n).flights = []
      ∧ d.get (F.MET_CNT_LOST_COUNT n) = (s.dev.get (F.MET_CNT_LOST_COUNT n) + 1) % 2 ^ 32 ∧ d.out = s.dev.out ∧ KeepsMemory s.dev d))) ∧
  (∀ k, k < 4 → s.dev.metFeedback = true → (s.dev.modState n k = 1 ∨ s.dev.modState n k = 2) → (s.dev.metModule n k).exhausted = true →
    Completes (.modLost n k) s (fun d => d.modState n k = 3
      ∧ (d.metPort n).flights = (s.dev.metPort n).flights.filter (fun f => !(f.module = k && f.fire)) ∧ d.testBit (F.BLK_IRQ_RAW (metPage n)) 5 = true)) ∧
  (s.dev.bit (F.MET_LINK_RX_LOCK n) = true → s.dev.metFeedback = true → 2 ≤ s.dev.metState n → s.dev.metState n ≤ 4 → Completes (.metRxLockLoss n) s (fun d =>
    d.bit (F.MET_LINK_RX_LOCK n) = false ∧ d.metState n = 5 ∧ (d.metPort n).flights = [] ∧ d.testBit (F.BLK_IRQ_RAW (metPage n)) 4 = true)) ∧
  (s.dev.bit (F.MET_LINK_RX_LOCK n) = false → s.dev.metState n = 5 → Completes (.metRxLock n) s (fun d =>
    d.bit (F.MET_LINK_RX_LOCK n) = true ∧ d.metState n = 1 ∧ (∀ k, k < 4 → d.modState n k = 0) ∧ KeepsMemory s.dev d)) ∧
  ((s.dev.metPort n).timedOut = false → 50000000 ≤ s.dev.elapsed (s.dev.metPort n).since → s.dev.get (F.BLK_ERR_CODE_CODE (metPage n)) = 0 →
    Completes (.metTrainingTimeout n) s (fun d => (d.metPort n).timedOut = true ∧ d.get (F.BLK_ERR_CODE_CODE (metPage n)) = 7)) ∧
  (s.dev.bit (F.BLK_CTRL_OFFLINE_REQ (metPage n)) = true → s.dev.offline (metPage n) = false → (s.dev.metPort n).pend = [] → (s.dev.metPort n).sent = [] →
    Completes (.metOffline n) s (fun d => d.offline (metPage n) = true ∧ d.bit (F.MET_LINK_TX_ON n) = false ∧ d.metState n = 0 ∧ KeepsMemory s.dev d))

/-- An ejector module (R331, R333, R334, R336, R345–R351, R356, Table met-6): it repeats what comes from the device, coded, to the module after it; a frame
with a wrong CRC is counted; a ranging reply passed up has its stay in TURN and a right CRC, other STATUS and SEAT frames pass as they are; a new FIRE
within the limits joins the table with its SEQ, a repeated SEQ changes nothing there, a late F is counted in REJ; a beacon is noted with its claim and
EPOCH; a held pulse of the owning link opens its valve with TIME_LOCK at F or within 20 ns, but not when the watchdog expires there, and its end closes it;
SEAT and STATUS frames leave, a SEAT after the ranging reply that is due; the watchdog empties a link; the on-time guard ends a drive. -/
def Obligations.EjectorModule : Prop := ∀ (s : State) (n k : Nat), n < 8 → k < 4 →
  let x := s.dev.module n k
  let coded := fun (t : LineTx) (b : List Nat) => (slotChars 20 t.busyTo t.rd (max s.dev.time.c t.busyTo) b).2
  let repeats := fun (l : Nat) (b : List Nat) (d : Dev) => d.out = if k < 3 then .modDown n k l (coded (modLink x l).down b) :: s.dev.out else s.dev.out
  (∀ l b rated fitted stay up, l < 2 → frameOk b = false → Completes (.moduleFrame n k l ⟨b, stay, up⟩ rated fitted) s (fun d =>
    (modLink (d.module n k) l).crcErr = ((modLink x l).crcErr + 1) % 256 ∧ (modLink (d.module n k) l).table = (modLink x l).table
      ∧ (up = false → repeats l b d) ∧ (up = true → d.out = s.dev.out) ∧ KeepsRegs s.dev d [] ∧ KeepsMemory s.dev d)) ∧
  (∀ l b rated fitted stay, l < 2 → frameOk b = true → b.getD 0 0 / 8 = 9 → frameNum b 9 3 + stay < 2 ^ 24 →
    Completes (.moduleFrame n k l ⟨b, stay, true⟩ rated fitted) s (fun d => ∃ r, d.out = .modFrame n k l (coded (modLink x l).up r) :: s.dev.out
      ∧ frameNum r 9 3 = frameNum b 9 3 + stay ∧ r.take 9 = b.take 9 ∧ frameOk r = true ∧ KeepsRegs s.dev d [] ∧ KeepsMemory s.dev d)) ∧
  (∀ l b rated fitted stay, l < 2 → frameOk b = true → b.getD 0 0 / 8 = 8 ∨ b.getD 0 0 / 16 = 5 →
    Completes (.moduleFrame n k l ⟨b, stay, true⟩ rated fitted) s (fun d => d.out = .modFrame n k l (coded (modLink x l).up b) :: s.dev.out
      ∧ KeepsRegs s.dev d [] ∧ KeepsMemory s.dev d)) ∧
  (∀ l b rated fitted stay, l < 2 → frameOk b = true → b.getD 1 0 / 64 = k → b.getD 0 0 / 16 = 1 →
    let f := frameNum b 4 5
    let dur := frameNum b 9 3
    let fwd := (frameNum b 2 2 + 65536 - (modLink x l).h) % 65536
    (fwd = 1 → (modLink x l).table = [] → (modLink x l).tombs = [] → 40000 ≤ ahead4 x s.dev.time.c f → ahead4 x s.dev.time.c f ≤ 80000000 →
      b.getD 1 0 % 64 ≤ (fitted + 63) % 64 → 1 ≤ dur → dur ≤ rated → dur ≤ 5000000 → Completes (.moduleFrame n k l ⟨b, stay, false⟩ rated fitted) s (fun d =>
        (modLink (d.module n k) l).table = [⟨b.getD 1 0 % 64, f, (f + 10 * dur) % 2 ^ 40, false, false⟩]
          ∧ (modLink (d.module n k) l).h = frameNum b 2 2 ∧ KeepsRegs s.dev d [] ∧ KeepsMemory s.dev d)) ∧
    (frameNum b 2 2 = (modLink x l).h → (modLink x l).map % 2 = 1 → Completes (.moduleFrame n k l ⟨b, stay, false⟩ rated fitted) s (fun d =>
      (modLink (d.module n k) l).table = (modLink x l).table ∧ (modLink (d.module n k) l).h = (modLink x l).h ∧ KeepsRegs s.dev d [])) ∧
    (fwd = 1 → (modLink x l).table = [] → ahead4 x s.dev.time.c f ≤ 0 → Completes (.moduleFrame n k l ⟨b, stay, false⟩ rated fitted) s (fun d =>
      (modLink (d.module n k) l).table = [] ∧ (modLink (d.module n k) l).rej = ((modLink x l).rej + 1) % 256 ∧ repeats l b d))) ∧
  (∀ l b, l < 2 → frameOk b = true → b.getD 0 0 / 16 = 3 → Completes (.moduleBeacon n k l b) s (fun d =>
    (modLink (d.module n k) l).beaconAt = some s.dev.time.c ∧ (modLink (d.module n k) l).beacons = (modLink x l).beacons + 1
      ∧ (modLink (d.module n k) l).epoch = frameNum b 2 2 ∧ (modLink (d.module n k) l).claim = decide (b.getD 0 0 / 2 % 2 = 1)
      ∧ repeats l b d ∧ KeepsRegs s.dev d [] ∧ KeepsMemory s.dev d)) ∧
  (∀ l v, x.owner = some l →
    let due := (modLink x l).table.find? (fun p => p.valve = v && !p.active && covers x s.dev.time.c p && decide (-80 ≤ ahead4 x s.dev.time.c p.f))
    (due = none → Completes (.moduleDriveStart n k v) s (fun d => d = s.dev.canon)) ∧
    (∀ p t, due = some p → timeLock (modLink x l) = true → x.drives = [] → (modLink x l).beaconAt = some t →
      (s.dev.time.c - t < 1000000 → Completes (.moduleDriveStart n k v) s (fun d => (d.module n k).drives = [⟨v, s.dev.time.c⟩]
        ∧ (⟨v, p.f, s.dev.time.c⟩ : SeatDue) ∈ (d.module n k).seats ∧ KeepsRegs s.dev d [] ∧ KeepsMemory s.dev d)) ∧
      (1000000 ≤ s.dev.time.c - t → Completes (.moduleDriveStart n k v) s (fun d => d = s.dev.canon)))) ∧
  (∀ l p, x.owner = some l → (modLink x l).table = [p] → p.active = true → ahead4 x s.dev.time.c p.e ≤ 0 → Completes (.moduleDriveEnd n k p.valve) s (fun d =>
    (∀ r ∈ (d.module n k).drives, r.valve ≠ p.valve) ∧ (modLink (d.module n k) l).table = [] ∧ KeepsRegs s.dev d [] ∧ KeepsMemory s.dev d)) ∧
  (∀ v t, x.seats.find? (fun t => t.valve = v) = some t →
    let l := x.owner.getD 0
    let seat := fun (kind m : Nat) => frame16 ([0x50 + kind, k * 64 + v] ++ leBytes 5 t.f ++ leBytes 3 m ++ [0, 0, 0, 0])
    ((modLink x l).turn = none →
      (∀ m, Completes (.moduleSeatDetect n k v m) s (fun d => d.out = .modFrame n k l (coded (modLink x l).up (seat 0 m)) :: s.dev.out
        ∧ t ∉ (d.module n k).seats ∧ KeepsRegs s.dev d [] ∧ KeepsMemory s.dev d)) ∧
      (10000000 ≤ s.dev.time.c - t.openAt → Completes (.moduleNoSeat n k v) s (fun d =>
        d.out = .modFrame n k l (coded (modLink x l).up (seat 1 0xFFFFFF)) :: s.dev.out
        ∧ t ∉ (d.module n k).seats ∧ KeepsRegs s.dev d [] ∧ KeepsMemory s.dev d))) ∧
    (∀ m u, (modLink x l).turn = some u → Completes (.moduleSeatDetect n k v m) s (fun d => d.out = s.dev.out
      ∧ (modLink (d.module n k) l).waiting = (modLink x l).waiting ++ [seat 0 m] ∧ t ∉ (d.module n k).seats))) ∧
  (∀ l t, l < 2 → (modLink x l).beaconAt = some t → 1000000 ≤ s.dev.time.c - t → Completes (.moduleLinkWatchdog n k l) s (fun d =>
    (modLink (d.module n k) l).table = [] ∧ (modLink (d.module n k) l).beaconAt = none ∧ (d.module n k).wdog = true
      ∧ KeepsRegs s.dev d [] ∧ KeepsMemory s.dev d)) ∧
  (∀ l, l < 2 → ((modLink x l).dirty = true ∧ 2000 ≤ s.dev.time.c - (modLink x l).statusAt) ∨ 100000 ≤ s.dev.time.c - (modLink x l).statusAt →
    Completes (.moduleStatusSend n k l) s (fun d => (modLink (d.module n k) l).statusAt = s.dev.time.c ∧ (modLink (d.module n k) l).turn = none
      ∧ (modLink (d.module n k) l).waiting = [] ∧ d.out.length = s.dev.out.length + 1 + (modLink x l).waiting.length
      ∧ ((modLink x l).waiting = [] → d.out = .modFrame n k l (coded (modLink x l).up
        (frame16 (Dev.statusBytes x k (max s.dev.time.c (modLink x l).up.busyTo) (modLink x l)))) :: s.dev.out)
      ∧ KeepsRegs s.dev d [] ∧ KeepsMemory s.dev d)) ∧
  (∀ v rated t, ⟨v, t⟩ ∈ x.drives → 10 * rated ≤ s.dev.time.c - t → Completes (.moduleOntimeGuard n k v rated) s (fun d =>
    (∀ r ∈ (d.module n k).drives, r.valve ≠ v) ∧ (d.module n k).faultCode = 5 ∧ KeepsRegs s.dev d [] ∧ KeepsMemory s.dev d))

/-! ### Motion, the signal chain and trims -/

/-- Motion feedback (R358–R379): a level change that passes validation moves a quadrature channel by one, forward in the order 00, 10, 11, 01 unless INVERT,
with the stamp of its edge or first stable sample: at once or MIN_EDGE after the one before, or with METHOD 1 at the sample after N_STAB ones (the raw
levels of one ns, the clock's part and the sampling instants are the model's choice, log entry 37); an excursion that ends too soon is a glitch, a double
change an error, and neither moves; the index is captured; an SSI read moves the position or gives the first, a failed one or a jump is an error; the
observer, standstill and the end of settling; starting a channel; arming a comparator; the reads that latch. -/
def Obligations.MotionChannels : Prop := ∀ (s : State) (n : Nat), n < 4 →
  let x := s.dev.mot n
  let off := 0x100 + 0x40 * n
  let still := fun (q : QuadIn) => q.raw = q.level ∧ q.run = 0
  let turn := fun (a b : Bool) => (quadPhase a b + 4 - quadPhase x.a.level x.b.level) % 4
  let moved := fun (k : Nat) => if (k = 1) = (s.dev.bit (F.MOT_CH_CFG_INVERT n) = false) then x.pos + 1 else x.pos - 1
  let minEdge := s.dev.get (F.MOT_CH_CFG_MIN_EDGE n)
  (s.dev.motRuns n = true → s.dev.isSsi n = false → still x.b → still x.z →
    (s.dev.bit (F.MOT_CH_CFG_METHOD n) = false →
      (still x.a → ∀ a b, (a ≠ x.a.level → x.a.at_ + minEdge ≤ s.dev.time.c) → (b ≠ x.b.level → x.b.at_ + minEdge ≤ s.dev.time.c) →
        let k := turn a b
        (k = 0 → Completes (.quadCount n a b x.z.raw) s (fun d => (d.mot n).pos = x.pos ∧ KeepsRegs s.dev d [] ∧ KeepsMemory s.dev d)) ∧
        (k = 2 → Completes (.quadCount n a b x.z.raw) s (fun d => (d.mot n).pos = x.pos ∧ (d.mot n).a.level = a ∧ (d.mot n).b.level = b
          ∧ d.get (F.MOT_CH_CNT_ERRORS n) = (s.dev.get (F.MOT_CH_CNT_ERRORS n) + 1) % 2 ^ 16)) ∧
        ((k = 1 ∨ k = 3) → Completes (.quadCount n a b x.z.raw) s (fun d => (d.mot n).a.level = a ∧ (d.mot n).b.level = b
          ∧ (d.mot n).stamp = s.dev.now ∧ (d.mot n).pos = moved k))) ∧
      (still x.a → s.dev.time.c < x.a.at_ + minEdge → Completes (.quadCount n (!x.a.level) x.b.level x.z.raw) s (fun d =>
        (d.mot n).a = { x.a with raw := !x.a.level, dt := s.dev.now } ∧ (d.mot n).pos = x.pos ∧ KeepsRegs s.dev d [] ∧ KeepsMemory s.dev d)) ∧
      (x.a.raw ≠ x.a.level → Completes (.quadCount n x.a.level x.b.level x.z.raw) s (fun d =>
        (d.mot n).pos = x.pos ∧ (d.mot n).a.level = x.a.level ∧ (d.mot n).a.raw = x.a.level ∧ (d.mot n).b.level = x.b.level
          ∧ d.get (F.MOT_CH_CNT_GLITCH n) = (s.dev.get (F.MOT_CH_CNT_GLITCH n) + 1) % 2 ^ 16)) ∧
      (x.a.raw ≠ x.a.level → x.a.at_ + minEdge ≤ s.dev.time.c + 1 → s.pending = [] → ∃ d, step s = .next { s with dev := d } ∧
        (d.mot n).a.level = !x.a.level ∧ (d.mot n).pos = moved (turn (!x.a.level) x.b.level) ∧ (d.mot n).stamp = x.a.dt)) ∧
    (s.dev.bit (F.MOT_CH_CFG_METHOD n) = true → 2 ≤ s.dev.get (F.MOT_CH_CFG_N_STAB n) →
      let p := 2 ^ s.dev.get (F.MOT_CH_CFG_PRESCALE n)
      let dt := if x.a.run = 0 then s.dev.now else x.a.dt
      let last := s.dev.get (F.MOT_CH_CFG_N_STAB n) ≤ x.a.run + 1 ∧ (s.dev.time.c + 1) % p = 0
      (still x.a → ∀ a, Completes (.quadCount n a x.b.level x.z.raw) s (fun d => (d.mot n).a = { x.a with raw := a } ∧ (d.mot n).pos = x.pos
        ∧ KeepsRegs s.dev d [] ∧ KeepsMemory s.dev d)) ∧
      (x.a.raw ≠ x.a.level → s.dev.time.c % p = 0 → s.pending = [] →
        (last → ∃ d, step s = .next { s with dev := d } ∧ (d.mot n).a.level = !x.a.level
          ∧ (d.mot n).pos = moved (turn (!x.a.level) x.b.level) ∧ (d.mot n).stamp = dt) ∧
        (¬ last → ∃ d, step s = .next { s with dev := d } ∧ (d.mot n).a = { x.a with run := x.a.run + 1, dt := dt } ∧ (d.mot n).pos = x.pos)) ∧
      (x.a.raw = x.a.level → 0 < x.a.run → s.dev.time.c % p = 0 → s.pending = [] → ∃ d, step s = .next { s with dev := d } ∧
        (d.mot n).a = { x.a with run := 0 } ∧ (d.mot n).pos = x.pos
          ∧ d.get (F.MOT_CH_CNT_GLITCH n) = (s.dev.get (F.MOT_CH_CNT_GLITCH n) + 1) % 2 ^ 16))) ∧
  (s.dev.motRuns n = true → s.dev.isSsi n = false → s.dev.get (F.MOT_CH_CFG_Z_MODE n) = 1 → s.dev.bit (F.MOT_CH_CFG_METHOD n) = false →
    still x.a → still x.b → x.z.raw = false → x.z.level = false → x.z.at_ + minEdge ≤ s.dev.time.c → Completes (.index ⟨n, true⟩) s (fun d =>
      d.bit (F.MOT_CH_STAT_INDEX_SEEN n) = true ∧ d.get (F.MOT_CH_IDX_LO_IDX_LO n) + 2 ^ 32 * d.get (F.MOT_CH_IDX_HI_IDX_HI n) = uns 48 x.pos
        ∧ d.testBit (F.BLK_IRQ_RAW 0x0F) 8 = true)) ∧
  (∀ t raw par, s.dev.motRuns n = true → s.dev.isSsi n = true → x.ssiOpen = true → x.ssiAt = some t →
    let age := s.dev.elapsed t
    let w := s.dev.get (F.MOT_CH_SSI_BITS n)
    let v := raw % 2 ^ w
    let errs := fun (d : Dev) => (d.mot n).pos = x.pos ∧ (d.mot n).errs = x.errs + 1 ∧ (d.mot n).ssiOpen = false
      ∧ d.get (F.MOT_CH_CNT_ERRORS n) = (s.dev.get (F.MOT_CH_CNT_ERRORS n) + 1) % 2 ^ 16 ∧ d.testBit (F.BLK_IRQ_RAW 0x0F) 6 = true
    Completes (.ssiRead n raw par true age) s errs ∧
    (s.dev.ssiFrame n ≤ age → s.dev.bit (F.MOT_CH_SSI_PARITY n) = true → (popCount w v + if par then 1 else 0) % 2 = 1 →
      Completes (.ssiRead n raw par false age) s errs) ∧
    (s.dev.ssiFrame n ≤ age → s.dev.bit (F.MOT_CH_SSI_GRAY n) = false → s.dev.bit (F.MOT_CH_SSI_PARITY n) = false →
      s.dev.bit (F.MOT_CH_STAT_LOST n) = false →
      (x.value = none → Completes (.ssiRead n raw par false age) s (fun d => (d.mot n).pos = v ∧ (d.mot n).value = some v ∧ (d.mot n).ssiAt = some t
        ∧ (d.mot n).ssiOpen = false ∧ (d.mot n).stamp = x.ssiDt - s.dev.get (F.MOT_CH_SSI3_LAT n) ∧ KeepsMemory s.dev d)) ∧
      (∀ p, x.value = some p →
        let m := sgn w ((v + 2 ^ w - p) % 2 ^ w)
        (s.dev.get (F.MOT_CH_SSI3_MAX_JUMP n) < m.natAbs → Completes (.ssiRead n raw par false age) s errs) ∧
        (m.natAbs ≤ s.dev.get (F.MOT_CH_SSI3_MAX_JUMP n) → Completes (.ssiRead n raw par false age) s (fun d =>
          (d.mot n).pos = x.pos + (if s.dev.bit (F.MOT_CH_CFG_INVERT n) then -m else m) ∧ (d.mot n).value = some v ∧ (d.mot n).errs = 0
            ∧ (d.mot n).stamp = x.ssiDt - s.dev.get (F.MOT_CH_SSI3_LAT n)))))) ∧
  (s.dev.motRuns n = true → 1000 ≤ s.dev.elapsed x.obsAt →
    (s.dev.bit (F.MOT_CH_STAT_STILL n) = true → Completes (.observerUpdate n) s (fun d =>
      d.mot n = { x with obsAt := s.dev.time.c, pHat := x.pos * 2 ^ 40, vHat := 0, aHat := 0 } ∧ KeepsRegs s.dev d [] ∧ KeepsMemory s.dev d)) ∧
    (s.dev.bit (F.MOT_CH_STAT_STILL n) = false → Completes (.observerUpdate n) s (fun d => (d.mot n).obsAt = s.dev.time.c ∧ (d.mot n).pos = x.pos
      ∧ KeepsRegs s.dev d [F.MOT_CH_SPEED_SPEED n, F.MOT_CH_ACCEL_ACCEL n] ∧ KeepsMemory s.dev d))) ∧
  (s.dev.motRuns n = true → s.dev.bit (F.MOT_CH_STAT_STILL n) = false → s.dev.get (F.MOT_CH_OBS_STILL n) * 1000 ≤ s.dev.elapsed x.countAt →
    Completes (.still n) s (fun d => d.bit (F.MOT_CH_STAT_STILL n) = true ∧ d.get (F.MOT_CH_SPEED_SPEED n) = 0 ∧ d.get (F.MOT_CH_ACCEL_ACCEL n) = 0
      ∧ d.testBit (F.BLK_IRQ_RAW 0x0F) 4 = true)) ∧
  (s.dev.bit (F.MOT_CH_STAT_SETTLING n) = true → 10 ^ 9 ≤ s.dev.elapsed x.settleAt * s.dev.get (F.MOT_CH_OBS_BW n) → Completes (.settlingEnd n) s (fun d =>
    d.bit (F.MOT_CH_STAT_SETTLING n) = false ∧ KeepsRegs s.dev d [F.MOT_CH_STAT_SETTLING n] ∧ KeepsMemory s.dev d)) ∧
  (∀ v a b, s.dev.taken 15 off → 1 ≤ Dev.fieldOf (F.MOT_CH_CFG_MIN_EDGE n) v → 2 ≤ Dev.fieldOf (F.MOT_CH_CFG_N_STAB n) v →
    Dev.fieldOf (F.MOT_CH_CFG_Z_MODE n) v ≠ 3 → (∀ f ∈ [F.MOT_CH_CFG_MIN_EDGE n, F.MOT_CH_CFG_N_STAB n, F.MOT_CH_CFG_PRESCALE n, F.MOT_CH_CFG_METHOD n,
      F.MOT_CH_CFG_INVERT n, F.MOT_CH_CFG_Z_MODE n, F.MOT_CH_CFG_KIND n], Dev.fieldOf f v = s.dev.get f) →
    (v % 2 = 1 → s.dev.bit (F.MOT_CH_CFG_EN n) = false → s.dev.enabled 15 = true → s.dev.offline 15 = false →
      s.dev.bit (F.BLK_CTRL_OFFLINE_REQ 15) = false → Completes (.motChannelEnable n v a b) s (fun d => d.bit (F.MOT_CH_CFG_EN n) = true ∧ (d.mot n).pos = 0
        ∧ (d.mot n).a.level = a ∧ (d.mot n).b.level = b ∧ d.bit (F.MOT_CH_STAT_RUN n) = true ∧ d.get (F.MOT_CH_POS_LO_POS_LO n) = 0
        ∧ (d.mot n).bad = x.bad ∧ (d.mot n).latch = x.latch ∧ KeepsMemory s.dev d)) ∧
    (v % 2 = 0 → Completes (.motChannelEnable n v a b) s (fun d => d.bit (F.MOT_CH_CFG_EN n) = false ∧ d.bit (F.MOT_CH_STAT_RUN n) = false
      ∧ d.mot n = x ∧ KeepsMemory s.dev d))) ∧
  (∀ c v, c < 8 → s.dev.taken 15 (0x200 + 0x20 * c) →
    (Dev.fieldOf (F.MOT_CMP_CTRL_DIR c) v = 3 → s.dev.get (F.BLK_ERR_CODE_CODE 15) = 0 → Completes (.cmpArm c v) s (fun d =>
      d.get (F.BLK_ERR_CODE_CODE 15) = 2 ∧ d.get (F.MOT_CMP_CTRL_ARM c) = s.dev.get (F.MOT_CMP_CTRL_ARM c))) ∧
    (Dev.fieldOf (F.MOT_CMP_CTRL_DIR c) v ≠ 3 → s.dev.bit (F.MOT_CMP_CTRL_ARM c) = false → Dev.fieldOf (F.MOT_CMP_CTRL_PAST c) v = 0 →
      Completes (.cmpArm c v) s (fun d => d.get (F.MOT_CMP_CTRL_ARM c) = v % 2 ∧ d.get (F.MOT_CMP_CTRL_SEL c) = Dev.fieldOf (F.MOT_CMP_CTRL_SEL c) v
        ∧ d.get (F.MOT_CMP_CTRL_DIR c) = Dev.fieldOf (F.MOT_CMP_CTRL_DIR c) v ∧ KeepsRegs s.dev d [F.MOT_CMP_CTRL_ARM c, F.MOT_CMP_CTRL_SEL c,
          F.MOT_CMP_CTRL_DIR c, F.MOT_CMP_CTRL_PAST c, F.MOT_CMP_CTRL_HIT c, F.MOT_CMP_CTRL_PASSED c] ∧ KeepsMemory s.dev d))) ∧
  (Completes (.posRead n) s (fun d => d.out = .readData (bar0 15 (0x118 + 0x40 * n)) (s.dev.regWord 15 (0x118 + 0x40 * n)) :: s.dev.out
    ∧ (d.mot n).latch = [0x1C, 0x20, 0x24, 0x28].map (fun k => (k, s.dev.regWord 15 (off + k))) ∧ KeepsRegs s.dev d [] ∧ KeepsMemory s.dev d)) ∧
  (∀ c, c < 8 → Completes (.hitTRead c) s (fun d => d.out = .readData (bar0 15 (0x20C + 0x20 * c)) (s.dev.regWord 15 (0x20C + 0x20 * c)) :: s.dev.out
    ∧ (c, s.dev.regWord 15 (0x210 + 0x20 * c)) ∈ d.hitLatch ∧ KeepsRegs s.dev d [] ∧ KeepsMemory s.dev d))

/-- The signal chain (R381–R393): a sample runs through the four 48-bit integrators; a fine output shows the bank in force; a fade starts on a running
channel and toggles the bank of one that is off; a channel that is enabled starts from empty registers and settles; settling ends after twice GD_FINE; a
bitstream without a change for 256 samples is stuck until 16 changes; OUT latches its instant. -/
def Obligations.SignalChain : Prop := ∀ (s : State) (n : Nat), n < 16 →
  let x := s.dev.sig n
  (∀ b, s.dev.sigRuns n = true → s.dev.testing 0x0D = false → s.dev.get (F.SIG_CH_CFG_PHASE n) = 0 → x.phase = [] → x.cnt + 1 < 2 ^ s.dev.sigK n →
    Completes (.sigFastOutput n [b]) s (fun d =>
      let u := if b = s.dev.bit (F.SIG_CH_CFG_INVERT n) then 2 ^ 48 - 1 else 1
      let i1 := (x.integ.getD 0 0 + u) % 2 ^ 48
      let i2 := (x.integ.getD 1 0 + i1) % 2 ^ 48
      let i3 := (x.integ.getD 2 0 + i2) % 2 ^ 48
      (d.sig n).integ = [i1, i2, i3, (x.integ.getD 3 0 + i3) % 2 ^ 48] ∧ (d.sig n).cnt = x.cnt + 1 ∧ (d.sig n).last = some b)) ∧
  (∀ y0 y1 rest age, x.ready = (y0, y1) :: rest → s.dev.sigRuns n = true → s.dev.bit (F.SIG_CH_XF_FADING n) = false → s.dev.staleWanted n = false →
    Completes (.sigFineOutput n age) s (fun d => (d.sig n).ready = rest ∧ d.bit (F.SIG_CH_STAT_STALE n) = false
      ∧ d.get (F.SIG_CH_OUT_OUT n) = uns 32 (if s.dev.bit (F.SIG_CH_XF_ACTIVE n) then y1 else y0))) ∧
  (∀ v, s.dev.taken 0x0D (0x104 + 0x20 * n) → Dev.fieldOf (F.SIG_CH_XF_GO n) v = 1 → s.dev.bit (F.SIG_CH_XF_FADING n) = false →
    (s.dev.bit (F.SIG_CH_CFG_EN n) = true → Completes (.sigXfGo n v) s (fun d => d.bit (F.SIG_CH_XF_FADING n) = true
      ∧ d.get (F.SIG_CH_XF_LEN n) = v % 256 ∧ (d.sig n).fadeI = 0 ∧ (d.sig n).fadeLen = v % 256
      ∧ KeepsRegs s.dev d [F.SIG_CH_XF_FADING n, F.SIG_CH_XF_LEN n] ∧ KeepsMemory s.dev d)) ∧
    (s.dev.bit (F.SIG_CH_CFG_EN n) = false → Completes (.sigXfGo n v) s (fun d => d.bit (F.SIG_CH_XF_ACTIVE n) = !s.dev.bit (F.SIG_CH_XF_ACTIVE n)
      ∧ KeepsRegs s.dev d [F.SIG_CH_XF_ACTIVE n, F.SIG_CH_XF_LEN n] ∧ KeepsMemory s.dev d))) ∧
  (∀ v, s.dev.taken 0x0D (0x100 + 0x20 * n) → s.dev.bit (F.SIG_CH_CFG_EN n) = false → Dev.fieldOf (F.SIG_CH_CFG_EN n) v = 1 →
    Dev.fieldOf (F.SIG_CH_CFG_DEC1 n) v ≤ 4 → Dev.fieldOf (F.SIG_CH_CFG_RANK n) v ≠ 3 →
    (s.dev.get (F.SIG_MCLK_DIV (Dev.fieldOf (F.SIG_CH_CFG_MCLK_SEL n) v)) ≠ 0 → s.dev.enabled 0x0D = true → s.dev.offline 0x0D = false →
      s.dev.bit (F.BLK_CTRL_OFFLINE_REQ 0x0D) = false → Completes (.sigChannelEnable n v) s (fun d => d.bit (F.SIG_CH_CFG_EN n) = true
        ∧ d.bit (F.SIG_CH_STAT_SETTLING n) = true ∧ (d.sig n).integ = [0, 0, 0, 0] ∧ (d.sig n).ready = [])) ∧
    (s.dev.get (F.SIG_MCLK_DIV (Dev.fieldOf (F.SIG_CH_CFG_MCLK_SEL n) v)) = 0 → s.dev.get (F.BLK_ERR_CODE_CODE 0x0D) = 0 →
      Completes (.sigChannelEnable n v) s (fun d => d.bit (F.SIG_CH_CFG_EN n) = false ∧ d.get (F.BLK_ERR_CODE_CODE 0x0D) = 1))) ∧
  (s.dev.sigRuns n = true → s.dev.bit (F.SIG_CH_STAT_SETTLING n) = true → 2 * s.dev.gdFine n * s.dev.sigDiv n ≤ s.dev.elapsed x.settleAt →
    Completes (.sigSettled n) s (fun d => d.bit (F.SIG_CH_STAT_SETTLING n) = false ∧ KeepsRegs s.dev d [F.SIG_CH_STAT_SETTLING n] ∧ KeepsMemory s.dev d)) ∧
  (s.dev.sigRuns n = true → s.dev.bit (F.SIG_CH_STAT_STUCK n) = false → 256 ≤ x.same → Completes (.sigStuck n) s (fun d =>
    d.bit (F.SIG_CH_STAT_STUCK n) = true ∧ d.bit (F.SIG_CH_STAT_STALE n) = true ∧ d.testBit F.SIG_STALE_STALE n = true ∧ (d.sig n).changes = 0)) ∧
  (s.dev.sigRuns n = true → s.dev.bit (F.SIG_CH_STAT_STUCK n) = true → 16 ≤ x.changes → Completes (.sigStuckEnd n) s (fun d =>
    d.bit (F.SIG_CH_STAT_STUCK n) = false ∧ d.bit (F.SIG_CH_STAT_SETTLING n) = true ∧ (d.sig n).settleAt = s.dev.time.c)) ∧
  Completes (.sigOutRead n) s (fun d => d.out = .readData (bar0 0x0D (0x108 + 0x20 * n)) (s.dev.regWord 0x0D (0x108 + 0x20 * n)) :: s.dev.out
    ∧ (d.sig n).latch = some (s.dev.get (F.SIG_CH_T_LO_DT_LO n)) ∧ (d.sig n).latchHi = some (s.dev.get (F.SIG_CH_T_HI_DT_HI n))
    ∧ KeepsRegs s.dev d [] ∧ KeepsMemory s.dev d)

/-- The trim outputs (R395–R400): GO applies the staged codes at once, or arms them for their instant, within 10 s; a request that finds one pending is refused with
BUSY; the armed codes apply when the instant comes; a slew step moves every output towards its code by at most SLEW; after a commit without F_TRIM each ramps to 0. -/
def Obligations.TrimOutputs : Prop := ∀ s : State,
  (∀ v, s.dev.taken 14 0x40 → Dev.fieldOf F.TRIM_CTRL_GO v = 1 → s.dev.offline 14 = false → s.dev.bit (F.BLK_CTRL_OFFLINE_REQ 14) = false →
    (s.dev.bit F.TRIM_CTRL_PEND = false → Dev.fieldOf F.TRIM_CTRL_TIMED v = 0 → s.dev.get F.TRIM_SLEW_SLEW = 0 → Completes (.trimGo v) s (fun d =>
      (∀ n, n < 16 → d.get (F.TRIM_CODE_NOW n) = s.dev.get (F.TRIM_CODE_CODE n) % 2 ^ 14) ∧ d.get F.TRIM_HELD_HELD = 0
        ∧ d.bit F.TRIM_CTRL_PEND = false ∧ d.testBit (F.BLK_IRQ_RAW 14) 3 = true)) ∧
    (s.dev.bit F.TRIM_CTRL_PEND = false → Dev.fieldOf F.TRIM_CTRL_TIMED v = 1 →
      let ahead := st40Diff (s.dev.st40At F.TRIM_APPLY_AT_LO_AT_LO F.TRIM_APPLY_AT_HI_AT_HI) (s.dev.now % 2 ^ 40)
      (0 < ahead → ahead ≤ 10 ^ 10 → Completes (.trimGo v) s (fun d => d.bit F.TRIM_CTRL_PEND = true ∧ d.get F.TRIM_CTRL_TIMED = 1
        ∧ (d.trim.due : Int) = s.dev.now + ahead ∧ KeepsRegs s.dev d [F.TRIM_CTRL_PEND, F.TRIM_CTRL_TIMED] ∧ KeepsMemory s.dev d)) ∧
      (10 ^ 10 < ahead → s.dev.get (F.BLK_ERR_CODE_CODE 14) = 0 → Completes (.trimGo v) s (fun d =>
        d.bit F.TRIM_CTRL_PEND = false ∧ d.get (F.BLK_ERR_CODE_CODE 14) = 2))) ∧
    (s.dev.bit F.TRIM_CTRL_PEND = true → s.dev.get (F.BLK_ERR_CODE_CODE 14) = 0 → Completes (.trimGo v) s (fun d =>
      d.bit F.TRIM_CTRL_PEND = true ∧ d.get (F.BLK_ERR_CODE_CODE 14) = 3))) ∧
  (s.dev.bit F.TRIM_CTRL_PEND = true →
    (s.dev.trim.due ≤ s.dev.now → s.dev.get F.TRIM_SLEW_SLEW = 0 →
      Completes .trimApply s (fun d => (∀ n, n < 16 → d.get (F.TRIM_CODE_NOW n) = s.dev.get (F.TRIM_CODE_CODE n) % 2 ^ 14)
        ∧ d.bit F.TRIM_CTRL_PEND = false ∧ d.get F.TRIM_HELD_HELD = 0 ∧ d.testBit (F.BLK_IRQ_RAW 14) 3 = true)) ∧
    (s.dev.now < s.dev.trim.due → Completes .trimApply s (fun d => d = s.dev.canon))) ∧
  (s.dev.enabled 14 = true → s.dev.offline 14 = false → s.dev.bit (F.BLK_CTRL_OFFLINE_REQ 14) = false → 10000 ≤ s.dev.elapsed s.dev.trim.stepAt →
    s.dev.get F.TRIM_SLEW_SLEW ≠ 0 → Completes .trimSlewStep s (fun d => (∀ n, n < 16 →
      let v := s.dev.get (F.TRIM_CODE_NOW n)
      let t := Sparse.get s.dev.trim.target 0 n
      d.get (F.TRIM_CODE_NOW n) = (if v < t then min t (v + s.dev.get F.TRIM_SLEW_SLEW) else max t (v - s.dev.get F.TRIM_SLEW_SLEW)) % 2 ^ 14)
      ∧ KeepsRegs s.dev d ((List.range 16).map (fun n => F.TRIM_CODE_NOW n)) ∧ KeepsMemory s.dev d)) ∧
  (s.dev.trim.ramp = true → 1000 ≤ s.dev.elapsed s.dev.trim.rampAt → Completes .trimRampStep s (fun d =>
    (∀ n, n < 16 → d.get (F.TRIM_CODE_NOW n) = (s.dev.get (F.TRIM_CODE_NOW n) - 1) % 2 ^ 14)
      ∧ KeepsRegs s.dev d ((List.range 16).map (fun n => F.TRIM_CODE_NOW n)) ∧ KeepsMemory s.dev d))

/-! ### Time and network -/

/-- The time base (R402–R405, R410, R430, Table regs-20): a rate within 500 ppm, a slew, its completion and a rebase all leave DT where it is; a rate
out of range, a rate while the servo runs and a slew during a slew are refused; a set in IDENT, NEGOTIATED, CONFIGURED or SERVICE moves DT and ends the
slew, in another state it is refused with STATE and its register stays; the loopbacks are shown and warned of; TIME_NOW is read whole. -/
def Obligations.TimeBase : Prop := ∀ s : State,
  (∀ v r, s.dev.taken 4 0x58 → r = s.dev.get F.TIME_RATE_LO_RATE_F + v % 2 ^ 32 * 2 ^ 32 →
    (s.dev.servoRuns = false → ((r : Int) - 2 ^ 32).natAbs * 1000000 ≤ 500 * 2 ^ 32 → Completes (.timeRateWrite v) s (fun d =>
      d.time.rate = r ∧ d.dt32 = s.dev.dt32 ∧ d.time.c = s.dev.time.c ∧ KeepsRegs s.dev d [F.TIME_RATE_LO_RATE_F, F.TIME_RATE_HI_RATE_I]
        ∧ KeepsMemory s.dev d)) ∧
    (s.dev.servoRuns = false → 500 * 2 ^ 32 < ((r : Int) - 2 ^ 32).natAbs * 1000000 → s.dev.get (F.BLK_ERR_CODE_CODE 4) = 0 →
      Completes (.timeRateWrite v) s (fun d => d.get (F.BLK_ERR_CODE_CODE 4) = 2 ∧ d.time = s.dev.time)) ∧
    (s.dev.servoRuns = true → s.dev.get (F.BLK_ERR_CODE_CODE 4) = 0 →
      Completes (.timeRateWrite v) s (fun d => d.get (F.BLK_ERR_CODE_CODE 4) = 3 ∧ d.time = s.dev.time))) ∧
  (∀ v, s.dev.taken 4 0x68 → (s.dev.state = 2 ∨ s.dev.state = 3 ∨ s.dev.state = 4 ∨ s.dev.state = 8) → Completes (.timeSet v) s (fun d =>
    d.dt32 = (s.dev.get F.TIME_SET_LO_SET_LO + v % 2 ^ 32 * 2 ^ 32) * 2 ^ 32 % 2 ^ 96 ∧ d.get F.TIME_STAT_SET = 1 ∧ d.time.slewLeft = 0)) ∧
  (∀ v, s.dev.taken 4 0x68 → s.dev.state ≠ 2 → s.dev.state ≠ 3 → s.dev.state ≠ 4 → s.dev.state ≠ 8 → s.dev.get (F.BLK_ERR_CODE_CODE 4) = 0 →
    Completes (.timeSet v) s (fun d => d.get (F.BLK_ERR_CODE_CODE 4) = 1 ∧ d.time = s.dev.time ∧ d.get F.TIME_SET_HI_SET_HI = s.dev.get F.TIME_SET_HI_SET_HI)) ∧
  (∀ v, s.dev.taken 4 0x5C → s.dev.slewing = false → Completes (.timeSlewWrite v) s (fun d => d.time.slewLeft = sgn 32 v * 2 ^ 32
    ∧ d.dt32 = s.dev.dt32 ∧ d.bit F.TIME_SLEW_CTRL_BUSY = decide (sgn 32 v ≠ 0)
    ∧ KeepsRegs s.dev d [F.TIME_SLEW_CTRL_BUSY, F.TIME_STAT_SLEWING] ∧ KeepsMemory s.dev d)) ∧
  (∀ v, s.dev.taken 4 0x5C → s.dev.slewing = true → s.dev.get (F.BLK_ERR_CODE_CODE 4) = 0 → Completes (.timeSlewWrite v) s (fun d =>
    d.get (F.BLK_ERR_CODE_CODE 4) = 3 ∧ d.time = s.dev.time)) ∧
  (s.dev.slewing = false → Completes .slewComplete s (fun d => d.time.slewLeft = 0 ∧ d.dt32 = s.dev.dt32 ∧ d.bit F.TIME_SLEW_CTRL_BUSY = false
    ∧ d.bit F.TIME_STAT_SLEWING = false)) ∧
  Completes .dtRebase s (fun d => d.time.base = s.dev.dt32 ∧ d.time.cB = s.dev.time.c ∧ d.dt32 = s.dev.dt32 ∧ d.time.rate = s.dev.time.rate
    ∧ KeepsRegs s.dev d [] ∧ KeepsMemory s.dev d) ∧
  (∀ devs, 10000000 ≤ s.dev.elapsed s.dev.timing.skewAt → (∀ i < 4, -32768 ≤ devs.getD i 0 ∧ devs.getD i 0 < 32768) →
    Completes (.skewMeasure devs) s (fun d => (∀ i < 4, d.getS (F.TIME_ISL_DLY_DEV i) = devs.getD i 0)
      ∧ ((∃ i < 4, 125 < (devs.getD i 0).natAbs) → d.bit F.TIME_STAT_SKEW_WARN = true ∧ d.testBit (F.BLK_IRQ_RAW 4) 10 = true)
      ∧ ((∀ i < 4, (devs.getD i 0).natAbs ≤ 125) → d.get F.TIME_STAT_SKEW_WARN = s.dev.get F.TIME_STAT_SKEW_WARN))) ∧
  (∀ dlys devs, s.dev.executing 0x53 = true → (∀ i < 4, -32768 ≤ devs.getD i 0 ∧ devs.getD i 0 < 32768) → Completes (.timeRecal dlys devs) s (fun d =>
    d.cmd = none ∧ d.get F.CMD_STATUS_RESULT = 0 ∧ ∀ i < 4, (s.dev.arg 0 % 16 = 0 ∨ s.dev.arg 0 / 2 ^ i % 2 = 1) →
      d.get (F.TIME_ISL_DLY_DLY i) = dlys.getD i 0 % 2 ^ 16 ∧ d.getS (F.TIME_ISL_DLY_DEV i) = devs.getD i 0)) ∧
  Completes (.timeNowRead 0x48) s (fun d => d.out = .readData (bar0 4 0x48) (s.dev.now % 2 ^ 32) :: s.dev.out
    ∧ d.timing.latch.find? (fun l => l.1 = 0x4C) = some (0x4C, s.dev.now / 2 ^ 32)
    ∧ d.timing.latch.find? (fun l => l.1 = 0x50) = some (0x50, s.dev.stamp % 2 ^ 16) ∧ KeepsRegs s.dev d [] ∧ KeepsMemory s.dev d) ∧
  (∀ v, s.dev.timing.latch.find? (fun l => l.1 = 0x4C) = some (0x4C, v) → Completes (.timeNowRead 0x4C) s (fun d =>
    d.out = .readData (bar0 4 0x4C) v :: s.dev.out ∧ d.timing.latch.find? (fun l => l.1 = 0x4C) = none ∧ KeepsRegs s.dev d [] ∧ KeepsMemory s.dev d))

/-- Schedulers, PPS and PTM (R412, R413, R415–R417, R428): an instant within the horizon is armed, one beyond it is refused with EXPIRED; at the instant
the scheduler acts, is counted, and goes off or on to the next period; PPS_OUT pulses at the whole second; an edge of PPS_IN is stamped to 250 ps, the third good one
makes it usable and 1.5 s of silence ends that; a PTM dialog pair leaves the two times, one unanswered within 1 ms TIMEOUT. -/
def Obligations.SchedulersAndPulses : Prop := ∀ s : State,
  (∀ n v j, n < 16 → s.dev.taken 4 (0x100 + 0x20 * n) → s.dev.bit (F.TIME_SCHED_CTRL_ARM n) = false → v % 2 = 1 →
    j = st40Diff (s.dev.st40At (F.TIME_SCHED_AT_LO_AT_LO n) (F.TIME_SCHED_AT_HI_AT_HI n)) s.dev.now →
    (100 ≤ j → j ≤ s.dev.get F.TIME_SCHED_CFG_HORIZON * 1000000000 → Completes (.schedArm n v) s (fun d =>
      d.bit (F.TIME_SCHED_CTRL_ARM n) = true ∧ d.schedAt n = some (((s.dev.now : Int) + j).toNat)
        ∧ d.get (F.TIME_SCHED_CTRL_ACTION n) = bitsAt v 2 2 ∧ d.get (F.TIME_SCHED_CTRL_POLICY n) = bitsAt v 4 1)) ∧
    (s.dev.get F.TIME_SCHED_CFG_HORIZON * 1000000000 < j → s.dev.get (F.BLK_ERR_CODE_CODE 4) = 0 → Completes (.schedArm n v) s (fun d =>
      d.get (F.BLK_ERR_CODE_CODE 4) = 9 ∧ d.bit (F.TIME_SCHED_CTRL_ARM n) = false ∧ d.schedAt n = s.dev.schedAt n)) ∧
    (j < 100 → j ≤ s.dev.get F.TIME_SCHED_CFG_HORIZON * 1000000000 → v / 16 % 2 = 1 → s.dev.get (F.TIME_SCHED_PERIOD_PERIOD n) = 0 →
      Completes (.schedArm n v) s (fun d => d.bit (F.TIME_SCHED_CTRL_LATE n) = true ∧ d.bit (F.TIME_SCHED_CTRL_ARM n) = false
        ∧ d.testBit (F.BLK_IRQ_RAW 4) 8 = true ∧ d.get (F.TIME_SCHED_CNT_COUNT n) = s.dev.get (F.TIME_SCHED_CNT_COUNT n)))) ∧
  (∀ n t, n < 16 → s.dev.schedAt n = some t → t ≤ s.dev.now →
    Completes (.schedAction n) s (fun d => d.get (F.TIME_SCHED_CNT_COUNT n) = (s.dev.get (F.TIME_SCHED_CNT_COUNT n) + 1) % 2 ^ 32
      ∧ d.bit (F.TIME_SCHED_CTRL_FIRED n) = true ∧ d.testBit (F.BLK_IRQ_RAW 4) 7 = true ∧ d.get (F.TIME_SCHED_LAST_LO_LAST n) = s.dev.now % 2 ^ 32
      ∧ d.get (F.TIME_SCHED_LAST_HI_LAST n) = s.dev.now / 2 ^ 32
      ∧ (s.dev.get (F.TIME_SCHED_CTRL_ACTION n) = 1 → s.dev.bit (F.TGEN_CTRL_OUT_EN n) = false →
          d.out.head? = some (.pulse (.trigOut n) (s.dev.get (F.TIME_SCHED_WIDTH_WIDTH n))))
      ∧ (s.dev.get (F.TIME_SCHED_CTRL_ACTION n) = 2 → s.dev.bit (F.TGEN_CTRL_OUT_EN n) = false →
          d.pin (.trigOut n) = .high ∧ d.bit (F.TIME_SCHED_CTRL_LEVEL n) = true)
      ∧ (s.dev.get (F.TIME_SCHED_CTRL_ACTION n) = 3 → s.dev.bit (F.TGEN_CTRL_OUT_EN n) = false →
          d.pin (.trigOut n) = .low ∧ d.bit (F.TIME_SCHED_CTRL_LEVEL n) = false)
      ∧ (s.dev.bit (F.TGEN_CTRL_OUT_EN n) = true →
          d.bit (F.TIME_SCHED_CTRL_BLOCKED n) = true ∧ d.pins = s.dev.pins)
      ∧ (s.dev.get (F.TIME_SCHED_PERIOD_PERIOD n) = 0 → d.bit (F.TIME_SCHED_CTRL_ARM n) = false ∧ d.schedAt n = none)
      ∧ (s.dev.get (F.TIME_SCHED_PERIOD_PERIOD n) ≠ 0 → d.schedAt n = some (t + s.dev.get (F.TIME_SCHED_PERIOD_PERIOD n))))) ∧
  (s.dev.bit F.TIME_PPS_OUT_EN = true → s.dev.bit F.TIME_STAT_SET = true → s.dev.now % 1000000000 < 2 →
    s.dev.timing.ppsOut ≠ some (s.dev.now / 1000000000) → Completes .ppsOutPulse s (fun d =>
      d.out = .pulse .ppsOut (s.dev.get F.TIME_PPS_WIDTH * 1000) :: s.dev.out ∧ KeepsRegs s.dev d [] ∧ KeepsMemory s.dev d)) ∧
  ((s.dev.bit F.TIME_PPS_OUT_EN = false ∨ s.dev.bit F.TIME_STAT_SET = false) → Completes .ppsOutPulse s (fun d => d.out = s.dev.out)) ∧
  (∀ edge : PpsEdge, edge.rising ≠ s.dev.bit F.TIME_PPS_IN_POL → edge.quarter < 4 →
    let dt := (s.dev.stamp + edge.quarter * 2 ^ 14) / 2 ^ 16
    Completes (.ppsIn edge) s (fun d => d.get F.TIME_PPS_IN_LO_DT_LO = dt % 2 ^ 32
      ∧ d.get F.TIME_PPS_IN_HI_DT_HI = dt / 2 ^ 32 % 2 ^ 32 ∧ d.testBit (F.BLK_IRQ_RAW 4) 9 = true ∧ d.timing.ppsAt = s.dev.time.c
      ∧ (s.dev.timing.ppsRun = 2 → ((dt : Int) - s.dev.timing.ppsDt - 1000000000).natAbs ≤ 100000 → d.bit F.TIME_STAT_PPS_IN_OK = true)
      ∧ (s.dev.bit F.TIME_STAT_GM_ACTIVE = true → d.get F.TIME_GM_SEC_SEC = (s.dev.get F.TIME_GM_SEC_SEC + 1) % 2 ^ 32))) ∧
  (∀ edge : PpsEdge, edge.rising = s.dev.bit F.TIME_PPS_IN_POL → Completes (.ppsIn edge) s (fun d => KeepsRegs s.dev d [] ∧ d.timing = s.dev.timing)) ∧
  (s.dev.bit F.TIME_STAT_PPS_IN_OK = true → 1500000000 ≤ s.dev.elapsed s.dev.timing.ppsAt → Completes .ppsInTimeout s (fun d =>
    d.bit F.TIME_STAT_PPS_IN_OK = false ∧ d.timing.ppsRun = 0)) ∧
  (∀ (a1 a4 t32 b1 t2 : Nat) (k : Int), s.dev.ptmDue = true → (a1 : Int) - a4 - t32 = 2 * k → Completes (.ptmDialog a1 a4 t32 b1 t2) s (fun d =>
    d.get F.TIME_PTM_MASTER_LO_MASTER = uns 64 ((t2 : Int) - k) % 2 ^ 32 ∧ d.get F.TIME_PTM_MASTER_HI_MASTER = uns 64 ((t2 : Int) - k) / 2 ^ 32
      ∧ d.get F.TIME_PTM_LOCAL_LO_LOCAL = (s.dev.now - b1) % 2 ^ 32 ∧ d.get F.TIME_PTM_LOCAL_HI_LOCAL = (s.dev.now - b1) / 2 ^ 32
      ∧ d.bit F.TIME_PTM_STAT_VALID = true ∧ d.bit F.TIME_PTM_STAT_ERR = false ∧ d.get F.TIME_PTM_STAT_SEQ = (s.dev.get F.TIME_PTM_STAT_SEQ + 1) % 2 ^ 16
      ∧ d.testBit (F.BLK_IRQ_RAW 4) 11 = true ∧ d.timing.ptmGo = none)) ∧
  (s.dev.ptmDue = true → s.dev.get (F.BLK_ERR_CODE_CODE 4) = 0 → Completes .ptmTimeout s (fun d => d.bit F.TIME_PTM_STAT_ERR = true
    ∧ d.get (F.BLK_ERR_CODE_CODE 4) = 7 ∧ d.timing.ptmGo = none))

/-- The ordinary clock, the transparent clock and the switch (R419, R420, R424, R426, R427): a measurement on the known path shows its offset less the
path's asymmetry; a clock of another domain is not followed; a measurement on another path starts a hold, in which the servo stands still; without a master the clock is free-running; CLR_ALL takes effect at the
next Sync; a unicast frame for the other port leaves there unchanged, one for the device's own address goes to the internal port, a Sync leaves with its
residence in the correction field; the peer delay is asked for and shown; a learned address ages out; a link change is shown and counted. -/
def Obligations.ClockAndNetwork : Prop := ∀ s : State,
  (∀ (port parent steps mpd : Nat) (gm : Announced) (raw logS : Int), gm.domain ≠ s.dev.get F.TIME_PTP_CFG_DOMAIN →
    Completes (.ptpSync port parent steps gm raw mpd logS) s (fun d => d = s.dev.canon)) ∧
  (∀ (port parent steps mpd : Nat) (gm x : Announced) (logS : Int), port < 2 → s.dev.ocPort port = true → s.dev.enabled 5 = true →
    s.dev.bit F.TIME_STAT_GM_ACTIVE = false → s.dev.bit F.TIME_CTRL_GM_EN = false → s.dev.follows gm = true → s.dev.clock.gm = some x → x.gm = gm.gm →
    s.dev.clock.hold = none →
    (∀ (e : PathEntry) (k : Int), s.dev.servoRuns = false → s.dev.clock.key = some ⟨port, parent, steps⟩ → s.dev.clock.clrAll = false →
      s.dev.clock.afresh = false → s.dev.pathOf ⟨port, parent, steps⟩ = some e →
      ((mpd : Int) - s.dev.clock.mpd).natAbs ≤ s.dev.get F.TIME_PATH_PATH_JUMP * 16 →
      Completes (.ptpSync port parent steps gm ((k + e.asym) * 2 ^ 16) mpd logS) s (fun d => d.getS F.TIME_OFS_THETA = satS 32 k
        ∧ d.get F.TIME_MPD_MPD = mpd % 2 ^ 32 ∧ d.get (F.BLK_STAT_STATE 4) = 5 ∧ d.time = s.dev.time)) ∧
    (∀ raw, s.dev.servoRuns = true → s.dev.bit F.TIME_CTRL_PATH_LEARN = true → s.dev.bit F.TIME_STAT_HOLDOVER = false →
      s.dev.get (F.BLK_STAT_STATE 4) = 2 → s.dev.clock.key ≠ some ⟨port, parent, steps⟩ → 1 < s.dev.get F.TIME_PATH_HOLD_N →
      Completes (.ptpSync port parent steps gm raw mpd logS) s (fun d => d.get (F.BLK_STAT_STATE 4) = 3 ∧ d.bit F.TIME_STAT_PATH_HOLD = true
        ∧ d.clock.key = some ⟨port, parent, steps⟩ ∧ d.time = s.dev.time))) ∧
  (s.dev.bit F.TIME_CTRL_GM_EN = false → Completes .masterTimeout s (fun d => d.get (F.BLK_STAT_STATE 4) = 0 ∧ d.clock.gm = none)) ∧
  (s.dev.taken 4 0x84 → Completes .asymClrAll s (fun d => d.clock.clrAll = true ∧ d.clock.paths = s.dev.clock.paths ∧ KeepsRegs s.dev d []
    ∧ KeepsMemory s.dev d)) ∧
  (∀ e bs res full, e < 2 → s.dev.ethUp e = true → s.dev.ethUp (1 - e) = true → s.dev.bit F.NET_CTRL_FWD_EN = true → full = 0 →
    beAt bs (etherAt bs) 2 ≠ 0x8808 → bs.length ≤ 9212 → beAt bs 0 6 ≠ s.dev.get F.NET_MAC_LO_MAC_LO + s.dev.get F.NET_MAC_HI_MAC_HI * 2 ^ 32 →
    (ptpIn bs = none → bs.getD 0 0 % 2 = 0 → s.dev.macPort (beAt bs 0 6) ≠ some e → Completes (.ethFrameRx e bs true res full) s (fun d =>
      d.out = .ethFrame (1 - e) bs :: s.dev.out ∧ d.get F.NET_CNT_FWD_COUNT = (s.dev.get F.NET_CNT_FWD_COUNT + 1) % 2 ^ 32
        ∧ d.get F.NET_CNT_TO_INT_COUNT = s.dev.get F.NET_CNT_TO_INT_COUNT ∧ KeepsMemory s.dev d)) ∧
    (∀ m, ptpIn bs = some m → bs.getD m.hdr 0 % 16 = 0 → s.dev.bit F.NET_CTRL_TC_EN = true → s.dev.bit F.NET_CTRL_TC_MODE = false →
      Completes (.ethFrameRx e bs true res full) s (fun d =>
        d.out = .ethFrame (1 - e) (addCorrection bs m ((res : Int) + s.dev.getS (F.NET_PORT_ASYM_ASYM (1 - e)) * 2 ^ 16)) :: s.dev.out
          ∧ d.get F.NET_TC_RES_LAST = min (res / 2 ^ 16) 65535))) ∧
  (∀ e bs res full, e < 2 → s.dev.ethUp e = true → beAt bs (etherAt bs) 2 ≠ 0x8808 → bs.length ≤ 9212 →
    beAt bs 0 6 = s.dev.get F.NET_MAC_LO_MAC_LO + s.dev.get F.NET_MAC_HI_MAC_HI * 2 ^ 32 → (ptpIn bs = none ∨ s.dev.bit F.NET_CTRL_TC_MODE = false) →
    Completes (.ethFrameRx e bs true res full) s (fun d =>
      d.out = s.dev.out ∧ d.get F.NET_CNT_TO_INT_COUNT = (s.dev.get F.NET_CNT_TO_INT_COUNT + 1) % 2 ^ 32
        ∧ (s.dev.bit F.NET_CTRL_LEARN_EN = true → s.dev.net.macs.length < 1024 → d.macPort (beAt bs 6 6) = some e))) ∧
  (∀ e delay, e < 2 → s.dev.bit F.NET_CTRL_TC_MODE = true → s.dev.enabled 5 = true → s.dev.ethOn e = true →
    s.dev.net.pdelayAt.find? (fun l => l.1 = e) = none → Completes (.pdelayMeasure e delay) s (fun d =>
      d.get (F.NET_PORT_PDELAY_PDELAY e) = delay % 2 ^ 32 ∧ (s.dev.ethUp e = true → d.out = .ptpSent e 2 :: s.dev.out) ∧ KeepsRegs s.dev d [F.NET_PORT_PDELAY_PDELAY e] ∧ KeepsMemory s.dev d)) ∧
  (∀ mac, s.dev.get F.NET_LEARN_AGE ≠ 0 → (∀ m ∈ s.dev.net.macs, m.mac = mac → s.dev.get F.NET_LEARN_AGE * 1000000000 ≤ s.dev.elapsed m.seen) →
    Completes (.macAgeOut mac) s (fun d => d.macPort mac = none ∧ (∀ o, o ≠ mac → d.macPort o = s.dev.macPort o) ∧ KeepsRegs s.dev d []
      ∧ KeepsMemory s.dev d)) ∧
  (∀ e los modAbs, e < 2 → s.dev.bit (F.NET_PORT_STAT_LINK e) = true → Completes (.ethLinkChange e false false los modAbs) s (fun d =>
    d.get (F.NET_PORT_STAT_LINK e) = 0 ∧ d.get (F.NET_PORT_STAT_DOWN_CNT e) = satInc 8 (s.dev.get (F.NET_PORT_STAT_DOWN_CNT e)) % 256
      ∧ d.bit (F.NET_PORT_STAT_LOS e) = los ∧ d.bit (F.NET_PORT_STAT_MOD_ABS e) = modAbs ∧ d.testBit (F.BLK_IRQ_RAW 5) 3 = true))

/-! ### Report queues, descriptor rings, PACK -/

/-- Report queues (R437–R443, R447, R450, R453): the oldest staged record goes to the bank that fills, or to the other with the full one sealed, or to the ring; one too large for a
bank is cut; the GAP records that wait precede it; a bank is sealed by its timer and by FLUSH; none goes while RQ1, or for the three others RQ0, has one; a queue is enabled only with
acceptable addresses and sizes, in ring mode where that holds, and disabled with what it holds sealed; a sealed bank is
released; a faulted bank loses what it names and takes the queue to its ring, from which RESTORE brings it back (log entry 109); RING_DATA; HOST_REC. -/
def Obligations.ReportQueues : Prop := ∀ (s : State) (q : Nat), q < 5 →
  (∀ r rest b, s.dev.bit (F.RQ_CTRL_EN q) = true → s.dev.canRequest = true → s.dev.recordGranted q = true → (s.dev.queue q).lost = [] → (s.dev.queue q).staging = r :: rest →
    s.dev.get (F.RQ_STAT_ACTIVE q) = b → b < 2 → s.dev.bankState q b = 1 → s.dev.get (F.RQ_STAT_MODE q) = 1 →
    ((s.dev.bank q b).used + r.bytes.length ≤ s.dev.bankBytes q → Completes (.recordWrite q) s (fun d => (d.queue q).staging = rest
      ∧ (d.bank q b).used = (s.dev.bank q b).used + r.bytes.length ∧ (d.bank q b).records = (s.dev.bank q b).records + 1
      ∧ (∀ i < r.bytes.length, Sparse.get d.host 0 (s.dev.bankAddr q b + (s.dev.bank q b).used + i) = BitVec.ofNat 8 (r.bytes.getD i 0))
      ∧ ∀ a, (a < s.dev.bankAddr q b + (s.dev.bank q b).used ∨ s.dev.bankAddr q b + (s.dev.bank q b).used + r.bytes.length ≤ a) →
          Sparse.get d.host 0 a = Sparse.get s.dev.host 0 a)) ∧
    (s.dev.bankBytes q < (s.dev.bank q b).used + r.bytes.length → s.dev.bankBytes q < 64 + r.bytes.length → 32 ≤ s.dev.bankBytes q - (s.dev.bank q b).used →
      Completes (.recordWrite q) s (fun d => (d.queue q).staging = rest ∧ (d.bank q b).used = (s.dev.bank q b).used + (s.dev.bankBytes q - (s.dev.bank q b).used) / 16 * 16
        ∧ (d.bank q b).records = (s.dev.bank q b).records + 1)) ∧
    (r.bytes ≠ [] → s.dev.bankBytes q < (s.dev.bank q b).used + r.bytes.length → 64 + r.bytes.length ≤ s.dev.bankBytes q → s.dev.bankState q (1 - b) = 0 → Completes (.recordWrite q) s (fun d =>
      (d.queue q).staging = rest ∧ d.bankState q b = 2 ∧ d.bit (bankDef q b).sealed = true ∧ d.bankState q (1 - b) = 1
        ∧ d.get (F.RQ_STAT_ACTIVE q) = 1 - b ∧ (d.bank q (1 - b)).records = 1 ∧ (d.bank q (1 - b)).used = 0x40 + r.bytes.length))) ∧
  (∀ r rest, s.dev.bit (F.RQ_CTRL_EN q) = true → s.dev.canRequest = true → s.dev.recordGranted q = true → (s.dev.queue q).lost = [] → (s.dev.queue q).staging = r :: rest →
    s.dev.get (F.RQ_STAT_MODE q) = 2 → r.bytes.length ≤ s.dev.ringArea q - s.dev.get (F.RQ_RING_PI_PI q) → s.dev.ringRoom q r.bytes.length = true →
    Completes (.recordWrite q) s (fun d => (d.queue q).staging = rest ∧ d.get (F.RQ_RING_PI_PI q) =
      (if s.dev.ringArea q ≤ s.dev.get (F.RQ_RING_PI_PI q) + r.bytes.length then 0 else s.dev.get (F.RQ_RING_PI_PI q) + r.bytes.length) % 2 ^ 32)) ∧
  (s.dev.recordReady q = true → s.dev.recordGranted q = true → (s.dev.queue q).lost ≠ [] → Completes (.recordWrite q) s (fun d => (d.queue q).lost = []
    ∧ (d.queue q).staging = (s.dev.queue q).staging.drop 1 ∧ d.bit (F.RQ_STAT_GAP q) = true)) ∧
  (s.dev.recordReady q = true → s.dev.recordReady 1 = true → q ≠ 1 → Completes (.recordWrite q) s (fun d => d = s.dev.canon)) ∧
  (s.dev.recordReady q = true → s.dev.recordReady 0 = true → 2 ≤ q → Completes (.recordWrite q) s (fun d => d = s.dev.canon)) ∧
  (∀ b < 2, s.dev.get (F.RQ_CTRL_FLUSH_US q) ≠ 0 → s.dev.canRequest = true → s.dev.holdsRecord q b = true →
    s.dev.get (F.RQ_CTRL_FLUSH_US q) * 1000 ≤ s.dev.elapsed (s.dev.bank q b).firstAt → Completes (.rqFlushTimer q) s (fun d =>
      d.bankState q b = 2 ∧ d.bit (bankDef q b).sealed = true)) ∧
  (∀ b < 2, s.dev.taken 6 (0x100 + 0x40 * q) → s.dev.holdsRecord q b = true →
    (s.dev.canRequest = true → Completes (.rqFlush q) s (fun d => d.bankState q b = 2 ∧ d.bit (bankDef q b).sealed = true)) ∧
    (s.dev.canRequest = false → Completes (.rqFlush q) s (fun d => d.bankState q b = 1 ∧ (d.queue q).sealWait.isSome = true))) ∧
  (s.dev.taken 6 (0x100 + 0x40 * q) →
    (s.dev.bit (F.RQ_CTRL_EN q) = false → s.dev.queueReady q = true → Completes (.rqEnable q true) s (fun d => d.bit (F.RQ_CTRL_EN q) = true
      ∧ d.get (F.RQ_STAT_MODE q) = (if (s.dev.queue q).ring = true then 2 else 1)
      ∧ ((s.dev.queue q).ring = false → s.dev.canRequest = true → s.dev.bankState q 0 = 0 → s.dev.bankState q 1 ≠ 1 → d.bankState q 0 = 1 ∧ d.get (F.RQ_STAT_ACTIVE q) = 0))) ∧
    (s.dev.bit (F.RQ_CTRL_EN q) = false → s.dev.queueReady q = false → s.dev.get (F.BLK_ERR_CODE_CODE 6) = 0 → Completes (.rqEnable q true) s (fun d =>
      d.bit (F.RQ_CTRL_EN q) = false ∧ d.get (F.BLK_ERR_CODE_CODE 6) = 2)) ∧
    (s.dev.bit (F.RQ_CTRL_EN q) = true → s.dev.canRequest = true → (s.dev.queue q).sealWait = none → Completes (.rqEnable q false) s (fun d =>
      d.bit (F.RQ_CTRL_EN q) = false ∧ d.get (F.RQ_STAT_MODE q) = 0
        ∧ ∀ b < 2, d.bankState q b ≠ 1 ∧ (s.dev.holdsRecord q b = true → d.bankState q b = 2)))) ∧
  (∀ b < 2, s.dev.taken 6 (0x100 + 0x40 * q) →
    (s.dev.bankState q b = 2 → Completes (.rqRelease q b) s (fun d => (d.bankState q b = 0 ∨ d.bankState q b = 1)
      ∧ (s.dev.bankState q (1 - b) = 1 → d.bankState q b = 0))) ∧
    (s.dev.bankState q b ≠ 2 → s.dev.get (F.BLK_ERR_CODE_CODE 6) = 0 → Completes (.rqRelease q b) s (fun d =>
      d.bankState q b = s.dev.bankState q b ∧ d.get (F.BLK_ERR_CODE_CODE 6) = 1)) ∧
    Completes (.rqFault q b) s (fun d => d.bankState q b = 3 ∧ (d.bank q b).records = 0 ∧ d.bit (F.RQ_STAT_FAULT q) = true
      ∧ (s.dev.bit (F.RQ_CTRL_EN q) = true → d.get (F.RQ_STAT_MODE q) = 2)
      ∧ (d.queue q).ring = true
      ∧ (d.queue q).lost = (if s.dev.bankState q b = 1 ∨ s.dev.bankState q b = 2 then
          (s.dev.bank q b).runs.foldl (fun l x => Dev.insertRun (s.dev.get (F.RQ_SEQ_SEQ q)) x l) (s.dev.queue q).lost else (s.dev.queue q).lost))) ∧
  (∀ b parity, s.dev.get (F.RQ_STAT_ACTIVE q) = b → b < 2 → s.dev.get (F.RQ_STAT_MODE q) = 1 → s.dev.bit (F.RQ_CTRL_EN q) = true →
    Completes (.rqBankFault q parity) s (fun d => d.bankState q b = 3 ∧ d.bit (F.RQ_STAT_FAULT q) = true ∧ d.get (F.RQ_STAT_MODE q) = 2
      ∧ d.bit (if parity then F.BLK_PARITY_DATA_PATH 6 else F.BLK_PARITY_SRAM_UE 6) = true)) ∧
  (s.dev.taken 6 (0x100 + 0x40 * q) → s.dev.get (F.RQ_STAT_MODE q) = 2 →
    (s.dev.bankState q 0 ≠ 3 → s.dev.bankState q 1 ≠ 3 → Completes (.rqRestore q) s (fun d => d.get (F.RQ_STAT_MODE q) = 1
      ∧ (d.queue q).ring = false)) ∧
    ((s.dev.bankState q 0 = 3 ∨ s.dev.bankState q 1 = 3) → s.dev.get (F.BLK_ERR_CODE_CODE 6) = 0 → Completes (.rqRestore q) s (fun d =>
      d.get (F.RQ_STAT_MODE q) = 2 ∧ d.get (F.BLK_ERR_CODE_CODE 6) = 1))) ∧
  (s.dev.get (F.RQ_STAT_MODE q) = 2 → (s.dev.queue q).ringNew = true →
    s.dev.get (F.RQ_CTRL_FLUSH_US q) * 1000 ≤ s.dev.elapsed (s.dev.queue q).ringAt → Completes (.ringDataTimer q) s (fun d =>
      d.bit (F.RQ_STAT_RING_DATA q) = true ∧ (d.queue q).ringNew = false ∧ (d.queue q).ringAt = s.dev.time.c)) ∧
  (∀ v, s.dev.taken 6 0x68 → bitsAt v 0 16 ≠ 0 → v / 2 ^ 31 % 2 = 1 →
    (s.dev.bit F.HOST_REC_BUSY = false → Completes (.hostRecGo v) s (fun d => d.bit F.HOST_REC_BUSY = true ∧ d.recLeft = bitsAt v 0 16
      ∧ d.get F.HOST_REC_GROUP = bitsAt v 24 3)) ∧
    (s.dev.bit F.HOST_REC_BUSY = true → s.dev.get (F.BLK_ERR_CODE_CODE 6) = 0 → Completes (.hostRecGo v) s (fun d =>
      d.get (F.BLK_ERR_CODE_CODE 6) = 3 ∧ d.recLeft = s.dev.recLeft)))

/-- BAR2 and descriptor rings (R434, R449, R450, R542, R543): a write into the HBM stores its bytes and nothing else; one into a read-only window is refused with
STATE and counted; in BOOT only an open boot window takes it; a tail beyond the ring is refused, one within starts the ring; a descriptor is carried out, or
ends with the error its check gave when it began, its RESULT written and the head advanced; a transfer to the host, a compressed one too, waits while RQ1 or RQ0 has a record. -/
def Obligations.WindowAndRings : Prop := ∀ s : State,
  (∀ a bs, s.dev.state ≠ 1 → a + bs.length ≤ 0x4_0000_0000 → Completes (.bar2Write a bs) s (fun d =>
    (∀ i < bs.length, d.byte (a + i) = BitVec.ofNat 8 (bs.getD i 0)) ∧ (∀ x, (x < a ∨ a + bs.length ≤ x) → d.byte x = s.dev.byte x)
      ∧ KeepsRegs s.dev d [] ∧ d.host = s.dev.canon.host)) ∧
  (∀ a bs, s.dev.state ≠ 1 → 0x4_0000_0000 ≤ a → a + bs.length ≤ 0x4_0200_0000 → bs ≠ [] → s.dev.get (F.BLK_ERR_CODE_CODE 6) = 0 →
    Completes (.bar2Write a bs) s (fun d => d.get (F.BLK_ERR_CODE_CODE 6) = 1 ∧ d.get (F.BLK_ERR_INFO_ORIGIN 6) = 2
      ∧ d.get (F.BLK_ERR_INFO_WORD 6) = a / 4 % 2 ^ 14
      ∧ d.get F.HOST_CNT_BAD_COUNT = (s.dev.get F.HOST_CNT_BAD_COUNT + 1) % 2 ^ 32 ∧ KeepsMemory s.dev d)) ∧
  (∀ a bs, s.dev.state = 1 → s.dev.bit F.SEC_BOOT_STAT_WAITING = true → (s.dev.boot.recovery = true ∨ s.dev.boot.src = 1) → a + bs.length ≤ 0x40_0000 →
    Completes (.bar2Write a bs) s (fun d => (∀ i < bs.length, Sparse.get d.boot.sram 0 (a + i) = BitVec.ofNat 8 (bs.getD i 0))
      ∧ KeepsRegs s.dev d [] ∧ KeepsMemory s.dev d)) ∧
  (∀ a bs, s.dev.state = 1 → s.dev.bit F.SEC_BOOT_STAT_WAITING = false → Completes (.bar2Write a bs) s (fun d => d.boot = s.dev.boot
    ∧ KeepsRegs s.dev d [] ∧ KeepsMemory s.dev d)) ∧
  (∀ r v, r < 2 → s.dev.taken 6 (0x310 + 0x20 * r) →
    (bitsAt v 0 16 < s.dev.get (F.DR_CTRL_SIZE r) → s.dev.bit (F.DR_CTRL_EN r) = false → Completes (.drTailWrite r v) s (fun d =>
      d.get (F.DR_TAIL_TAIL r) = bitsAt v 0 16 ∧ KeepsRegs s.dev d [F.DR_TAIL_TAIL r] ∧ KeepsMemory s.dev d)) ∧
    (bitsAt v 0 16 < s.dev.get (F.DR_CTRL_SIZE r) → s.dev.bit (F.DR_CTRL_EN r) = true → s.dev.canRequest = true →
      s.dev.get (F.DR_HEAD_HEAD r) ≠ bitsAt v 0 16 → Completes (.drTailWrite r v) s (fun d => d.get (F.DR_TAIL_TAIL r) = bitsAt v 0 16
        ∧ d.bit (F.DR_STAT_BUSY r) = true
        ∧ ∀ e, s.dev.bit (F.DR_STAT_BUSY r) = false → s.dev.descCheck (s.dev.desc r) = some e → (d.descRing r).fail = some e.code)) ∧
    (s.dev.get (F.DR_CTRL_SIZE r) ≤ bitsAt v 0 16 → s.dev.get (F.BLK_ERR_CODE_CODE 6) = 0 → Completes (.drTailWrite r v) s (fun d =>
      d.get (F.BLK_ERR_CODE_CODE 6) = 2 ∧ d.get (F.DR_TAIL_TAIL r) = s.dev.get (F.DR_TAIL_TAIL r)))) ∧
  (∀ r full x a, r < 2 → s.dev.bit (F.DR_STAT_BUSY r) = true → (s.dev.descRing r).packed = false → s.dev.canRequest = true → x = s.dev.desc r →
    a = s.dev.descAddr r →
    (∀ e : Dev.Err, e ≠ .ok → (s.dev.descRing r).out = none → (s.dev.descRing r).fail = some e.code → Completes (.descriptorDone r full) s (fun d =>
      d.hostBytes (a + 28) 4 = leBytes 4 (2 ^ 31 + e.code)
      ∧ d.bit (F.DR_STAT_ERR r) = true ∧ (x.irq = true → d.bit (F.DR_STAT_DONE r) = true) ∧ (∀ b, d.byte b = s.dev.byte b)
      ∧ d.get (F.DR_HEAD_HEAD r) = (if s.dev.get (F.DR_HEAD_HEAD r) + 1 < s.dev.get (F.DR_CTRL_SIZE r) then s.dev.get (F.DR_HEAD_HEAD r) + 1 else 0) % 2 ^ 16)) ∧
    (∀ (bytes : List Nat) (e : Dev.Err), (s.dev.descRing r).out = some (bytes, e.code) → (s.dev.descRing r).moved = 0 → (bytes.length + 4095) / 4096 ≤ s.dev.d2hBlocks r →
      (x.host + bytes.length ≤ a + 28 ∨ a + 32 ≤ x.host) → Completes (.descriptorDone r full) s (fun d =>
        (∀ i < bytes.length, Sparse.get d.host 0 (x.host + i) = BitVec.ofNat 8 (bytes.getD i 0)) ∧ d.hostBytes (a + 28) 4 = leBytes 4 (2 ^ 31 + e.code)
          ∧ (∀ b, d.byte b = s.dev.byte b))) ∧
    (∀ n, (n = x.len ∧ x.kind = 2 ∧ (s.dev.descRing r).out = none ∧ (s.dev.descRing r).fail = none ∨ ∃ bytes e, (s.dev.descRing r).out = some (bytes, e) ∧ n = bytes.length) →
      (s.dev.recordReady 1 = true ∨ s.dev.recordReady 0 = true) → (s.dev.descRing r).moved < n → Completes (.descriptorDone r full) s (fun d =>
        d.bit (F.DR_STAT_BUSY r) = true ∧ (d.descRing r).moved = (s.dev.descRing r).moved ∧ KeepsRegs s.dev d [] ∧ KeepsMemory s.dev d)) ∧
    ((s.dev.descRing r).out = none → (s.dev.descRing r).fail = none → x.kind = 2 → (s.dev.descRing r).moved = 0 → (x.len + 4095) / 4096 ≤ s.dev.d2hBlocks r →
      (x.host + x.len ≤ a + 28 ∨ a + 32 ≤ x.host) → Completes (.descriptorDone r full) s (fun d =>
      (∀ i < x.len, Sparse.get d.host 0 (x.host + i) = s.dev.byte (x.dev + i)) ∧ d.hostBytes (a + 28) 4 = leBytes 4 (2 ^ 31)
        ∧ (∀ b, d.byte b = s.dev.byte b))) ∧
    ((s.dev.descRing r).out = none → (s.dev.descRing r).fail = none → x.kind = 1 → x.dev + x.len ≤ 0x4_0000_0000 → Completes (.descriptorDone r full) s (fun d =>
      (∀ i < x.len, d.byte (x.dev + i) = Sparse.get s.dev.host 0 (x.host + i)) ∧ (∀ b, (b < x.dev ∨ x.dev + x.len ≤ b) → d.byte b = s.dev.byte b)
        ∧ d.hostBytes (a + 28) 4 = leBytes 4 (2 ^ 31))))

/-- PACK channels (R454, R455, R459, R462, R464–R467): the oldest block starts on an idle channel with the settings then, and
completes with STATE where the channel takes none; a block compressed is counted, its history held and its bytes left to the arbiter; one that fails its
header checks drops the history, is counted and leaves its destination alone; a mismatch of self-verification drops it too; SAVE and LOAD start on an
idle channel with room at their address, a SAVE writes the state image, a LOAD of what is none ends with RANGE. -/
def Obligations.PackChannels : Prop := ∀ (s : State) (c : Nat), c < 4 →
  (∀ b rest, (s.dev.packCh c).now = none → (s.dev.packCh c).saving = none → (s.dev.packCh c).queue = b :: rest → s.dev.packTakes c = true → Completes (.packBlock c) s (fun d =>
    (d.packCh c).now = some b ∧ (d.packCh c).cfg = ⟨s.dev.get (F.PACK_CH_CFG_STREAM c), s.dev.bit (F.PACK_CH_CFG_CARRY c), s.dev.bit (F.PACK_CH_CFG_FULL_CLEAR c)⟩ ∧ (d.packCh c).queue = rest ∧ d.get (F.PACK_CH_STAT_DIR c) = (match b.user with | .h2d _ => 2 | _ => 1)
      ∧ KeepsRegs s.dev d [F.PACK_CH_STAT_DIR c] ∧ KeepsMemory s.dev d)) ∧
  (∀ b rest r, (s.dev.packCh c).now = none → (s.dev.packCh c).saving = none → (s.dev.packCh c).queue = b :: rest → s.dev.packTakes c = false →
    (b.user = .d2h r ∨ b.user = .h2d r) → r < 2 → s.dev.canRequest = true → Completes (.packBlock c) s (fun d =>
      (d.packCh c).now = none ∧ d.hostBytes (s.dev.descAddr r + 28) 4 = leBytes 4 (2 ^ 31 + 1) ∧ d.bit (F.DR_STAT_ERR r) = true)) ∧
  (∀ b r, (s.dev.packCh c).now = some b → b.user = .d2h r → r < 2 → s.dev.feat 17 = false → Completes (.packBlockDone c true) s (fun d =>
    (d.packCh c).now = none ∧ d.bit (F.PACK_CH_STAT_HELD c) = true
      ∧ d.get (F.PACK_CH_CNT_BLOCKS_COUNT c) = (s.dev.get (F.PACK_CH_CNT_BLOCKS_COUNT c) + 1) % 2 ^ 32
      ∧ d.get (F.PACK_CH_HIST_STREAM_ID c) = (s.dev.packCh c).cfg.stream % 2 ^ 16
      ∧ (d.descRing r).out.isSome = true ∧ d.host = s.dev.canon.host)) ∧
  (∀ b r, (s.dev.packCh c).now = some b → b.user = .d2h r → r < 2 → s.dev.feat 17 = true → Completes (.packBlockDone c false) s (fun d =>
    (d.packCh c).now = none ∧ d.bit (F.PACK_CH_STAT_HELD c) = false ∧ (d.packCh c).table = []
      ∧ d.get (F.PACK_CH_CNT_VERIFY_FAIL_COUNT c) = (s.dev.get (F.PACK_CH_CNT_VERIFY_FAIL_COUNT c) + 1) % 2 ^ 32
      ∧ d.get (F.PACK_CH_STAT_LAST_ERR c) = 15 ∧ d.testBit (F.BLK_IRQ_RAW 0x0C) 3 = true)) ∧
  (∀ b r verifyOk, (s.dev.packCh c).now = some b → b.user = .h2d r → r < 2 → Dev.packHeadBad b.room b.bytes = true →
    Completes (.packBlockDone c verifyOk) s (fun d => (d.packCh c).now = none ∧ d.bit (F.PACK_CH_STAT_HELD c) = false
      ∧ d.get (F.PACK_CH_CNT_DECODE_ERR_COUNT c) = (s.dev.get (F.PACK_CH_CNT_DECODE_ERR_COUNT c) + 1) % 2 ^ 32
      ∧ d.get (F.PACK_CH_STAT_LAST_ERR c) = 2 ∧ d.testBit (F.BLK_IRQ_RAW 0x0C) 4 = true ∧ ∀ a, d.byte a = s.dev.byte a)) ∧
  (s.dev.taken 0x0C (0x110 + 0x40 * c) →
    ((s.dev.packCh c).now = none → (s.dev.packCh c).saving = none → s.dev.packAddr c + 262208 ≤ 0x4_0000_0000 →
      Completes (.packSave c) s (fun d => (d.packCh c).saving = some (false, s.dev.packAddr c) ∧ d.bit (F.PACK_CH_ST_CTRL_BUSY c) = true
        ∧ KeepsRegs s.dev d [F.PACK_CH_ST_CTRL_BUSY c] ∧ KeepsMemory s.dev d)
      ∧ Completes (.packLoad c) s (fun d => (d.packCh c).saving = some (true, s.dev.packAddr c) ∧ d.bit (F.PACK_CH_ST_CTRL_BUSY c) = true
        ∧ KeepsRegs s.dev d [F.PACK_CH_ST_CTRL_BUSY c] ∧ KeepsMemory s.dev d)) ∧
    ((s.dev.packCh c).now.isSome = true → s.dev.get (F.BLK_ERR_CODE_CODE 0x0C) = 0 →
      Completes (.packSave c) s (fun d => d.get (F.BLK_ERR_CODE_CODE 0x0C) = 3 ∧ d.packCh c = s.dev.packCh c)
      ∧ Completes (.packLoad c) s (fun d => d.get (F.BLK_ERR_CODE_CODE 0x0C) = 3 ∧ d.packCh c = s.dev.packCh c))) ∧
  (∀ a, (s.dev.packCh c).saving = some (false, a) → s.dev.bit (F.PACK_CH_STAT_HELD c) = true → Completes (.stateDone c) s (fun d =>
    (∀ i < (wordsLe (s.dev.packImage c)).length, d.byte (a + i) = BitVec.ofNat 8 ((wordsLe (s.dev.packImage c)).getD i 0))
      ∧ d.get (F.PACK_CH_ST_CTRL_RESULT c) = 0 ∧ d.bit (F.PACK_CH_ST_CTRL_BUSY c) = false ∧ d.testBit (F.BLK_IRQ_RAW 0x0C) 6 = true)) ∧
  (∀ a, (s.dev.packCh c).saving = some (true, a) → s.dev.read a 4 ≠ 0x5453_4B50 → Completes (.stateDone c) s (fun d =>
    d.get (F.PACK_CH_ST_CTRL_RESULT c) = 2 ∧ (d.packCh c).table = (s.dev.packCh c).table ∧ d.bit (F.PACK_CH_ST_CTRL_BUSY c) = false))

/-! ### Observatory and CRC units -/

/-- Monitors (R490–R496, R498): a queued event becomes a sample of its monitor; a snapshot, commanded or periodic, copies every enabled monitor of the mask,
and clears it where asked, one snapshot for all asked for at one counter value; a test value goes to every enabled monitor; enabling a monitor starts it anew, a source that does not exist is refused; the
temperature is an event every millisecond. CRC units (R499–R502): bytes are queued, taken anew at INIT, fed from memory; a feed ends with its result. -/
def Obligations.Observatory : Prop := ∀ s : State,
  (∀ m v rest, m < 32 → s.dev.obsRuns = true → s.dev.bit (F.OBS_MON_CFG_EN m) = true → (s.dev.monitor m).queue = v :: rest →
    Completes (.obsSample m) s (fun d => (d.monitor m).queue = rest ∧ (d.monitor m).live.count = satInc 32 (s.dev.monitor m).live.count
      ∧ (d.monitor m).live.sum = satS 64 ((s.dev.monitor m).live.sum + v) ∧ (d.monitor m).live.min = min v (s.dev.monitor m).live.min
      ∧ (d.monitor m).live.max = max v (s.dev.monitor m).live.max ∧ (d.monitor m).snap = (s.dev.monitor m).snap
      ∧ (∀ j, j ≠ m → d.monitor j = s.dev.monitor j) ∧ KeepsRegs s.dev d [] ∧ KeepsMemory s.dev d
      ∧ (s.dev.bit (F.OBS_MON_CFG_ABS m) = false → s.dev.bit (F.OBS_MON_CFG_LOG2 m) = false → ∀ u : Nat,
          v - s.dev.getS (F.OBS_MON_BASE_BASE m) = (u : Int) → u / 2 ^ s.dev.get (F.OBS_MON_CFG_SHIFT m) < 30 →
          Sparse.get (d.monitor m).live.bins 0 (u / 2 ^ s.dev.get (F.OBS_MON_CFG_SHIFT m) + 1) =
            satInc 32 (Sparse.get (s.dev.monitor m).live.bins 0 (u / 2 ^ s.dev.get (F.OBS_MON_CFG_SHIFT m) + 1))))) ∧
  (∀ v, s.dev.taken 0x0B 0x40 → s.dev.obs.snapC = some s.dev.time.c → Completes (.obsSnap v) s (fun d =>
    (∀ m, d.monitor m = s.dev.monitor m) ∧ d.get F.OBS_SNAP_SEQ_SEQ = s.dev.get F.OBS_SNAP_SEQ_SEQ ∧ KeepsMemory s.dev d)) ∧
  (∀ v, s.dev.taken 0x0B 0x40 → s.dev.obsRuns = true → s.dev.obs.snapC ≠ some s.dev.time.c → v % 2 = 1 → Completes (.obsSnap v) s (fun d =>
    (∀ m < 32, s.dev.bit (F.OBS_MON_CFG_EN m) = true → s.dev.testBit F.OBS_SNAP_MASK_MASK m = true → (d.monitor m).snap = (s.dev.monitor m).live
      ∧ (d.monitor m).live = (if v / 2 % 2 = 1 then { start := s.dev.now } else (s.dev.monitor m).live))
      ∧ (∀ m < 32, s.dev.bit (F.OBS_MON_CFG_EN m) = false → d.monitor m = s.dev.monitor m)
      ∧ d.get F.OBS_SNAP_SEQ_SEQ = (s.dev.get F.OBS_SNAP_SEQ_SEQ + 1) % 2 ^ 32 ∧ d.get F.OBS_SNAP_DT_LO_DT = s.dev.now % 2 ^ 32
      ∧ d.testBit (F.BLK_IRQ_RAW 0x0B) 3 = true ∧ d.obs.snapC = some s.dev.time.c)) ∧
  (s.dev.get F.OBS_CTRL_PERIOD ≠ 0 → s.dev.obsRuns = true → s.dev.get F.OBS_CTRL_PERIOD * 1000000 ≤ s.dev.elapsed s.dev.obs.snapAt →
    s.dev.obs.snapC ≠ some s.dev.time.c → Completes .obsPeriodicSnap s (fun d => d.obs.snapAt = s.dev.time.c ∧ d.get F.OBS_SNAP_SEQ_SEQ = (s.dev.get F.OBS_SNAP_SEQ_SEQ + 1) % 2 ^ 32
      ∧ ∀ m < 32, s.dev.bit (F.OBS_MON_CFG_EN m) = true → s.dev.testBit F.OBS_SNAP_MASK_MASK m = true → (d.monitor m).snap = (s.dev.monitor m).live)) ∧
  (∀ v, s.dev.taken 0x0B 0x5C → s.dev.testing 0x0B = true → s.dev.enabled 0x0B = true → Completes (.obsTestWrite v) s (fun d =>
    (∀ m < 32, s.dev.bit (F.OBS_MON_CFG_EN m) = true → (d.monitor m).live.count = satInc 32 (s.dev.monitor m).live.count
      ∧ (d.monitor m).live.sum = satS 64 ((s.dev.monitor m).live.sum + sgn 32 v))
      ∧ (∀ m < 32, s.dev.bit (F.OBS_MON_CFG_EN m) = false → d.monitor m = s.dev.monitor m) ∧ KeepsRegs s.dev d [] ∧ KeepsMemory s.dev d)) ∧
  (∀ m v, m < 32 → s.dev.taken 0x0B (0x100 + 8 * m) → s.dev.bit (F.OBS_MON_CFG_EN m) = false → v / 2 ^ 31 % 2 = 1 →
    (∀ hi b, obsSource (bitsAt v 0 8) = some (hi, b) → bitsAt v 16 8 ≤ hi → s.dev.feat b = true → (v / 2 ^ 30 % 2 = 1 → s.dev.feat 18 = true) →
      Completes (.obsMonitorEnable m v) s (fun d => d.bit (F.OBS_MON_CFG_EN m) = true ∧ d.get (F.OBS_MON_CFG_SRC m) = bitsAt v 0 8
        ∧ d.get (F.OBS_MON_CFG_INST m) = bitsAt v 16 8 ∧ (d.monitor m).queue = [] ∧ (d.monitor m).live = { start := s.dev.now })) ∧
    (obsSource (bitsAt v 0 8) = none → bitsAt v 0 8 ≠ 0 → s.dev.get (F.BLK_ERR_CODE_CODE 0x0B) = 0 → Completes (.obsMonitorEnable m v) s (fun d =>
      d.bit (F.OBS_MON_CFG_EN m) = false ∧ d.get (F.BLK_ERR_CODE_CODE 0x0B) = 2 ∧ d.monitor m = s.dev.monitor m))) ∧
  (∀ m, m < 32 → s.dev.elapsed s.dev.obs.queueAt < 10000 → 1000000 ≤ s.dev.elapsed s.dev.obs.tjAt → s.dev.bit (F.BLK_CTRL_ENABLE 0) = true →
    s.dev.bit (F.BLK_STAT_OFFLINE 0) = false → s.dev.bit (F.BLK_STAT_STALE 0) = false → s.dev.bit (F.BLK_CTRL_ENABLE 0x0B) = true →
    s.dev.bit (F.BLK_STAT_OFFLINE 0x0B) = false → s.dev.bit (F.BLK_STAT_TEST 0x0B) = false → s.dev.bit (F.OBS_MON_CFG_EN m) = true →
    s.dev.get (F.OBS_MON_CFG_SRC m) = 0x13 → s.dev.get (F.OBS_MON_CFG_INST m) = 0 → (s.dev.monitor m).queue.length < 256 →
    Completes .obsQueueTjTick s (fun d => d.obs.tjAt = s.dev.time.c
      ∧ (d.monitor m).queue = (s.dev.monitor m).queue ++ [satS 32 (s.dev.getS F.DEV_ENV_STAT_TJ_MAX)])) ∧
  (∀ c k v n, c < 4 → k < 4 → n = (if k = 0 then 4 else k) → s.dev.taken 0x0A (0x118 + 0x40 * c + 4 * k) → s.dev.offline 0x0A = false →
    (s.dev.bit (F.CHK_STAT_BUSY c) = false → (s.dev.crcUnit c).queue.length + n ≤ 16 → Completes (.chkDataWrite c k v) s (fun d =>
      (d.crcUnit c).queue = (s.dev.crcUnit c).queue ++ leBytes n v ∧ d.get (F.CHK_STAT_LEVEL c) = (s.dev.crcUnit c).queue.length + n
        ∧ KeepsRegs s.dev d [F.CHK_STAT_LEVEL c] ∧ KeepsMemory s.dev d)) ∧
    (16 < (s.dev.crcUnit c).queue.length + n → s.dev.get (F.BLK_ERR_CODE_CODE 0x0A) = 0 → Completes (.chkDataWrite c k v) s (fun d =>
      d.crcUnit c = s.dev.crcUnit c ∧ d.get (F.BLK_ERR_CODE_CODE 0x0A) = 3))) ∧
  (∀ c, c < 4 → s.dev.taken 0x0A (0x110 + 0x40 * c) → s.dev.bit (F.CHK_STAT_BUSY c) = false → (s.dev.crcUnit c).queue = [] →
    Completes (.chkInit c) s (fun d => (d.crcUnit c).reg = s.dev.get (F.CHK_INIT_INIT c) ∧ (d.crcUnit c).poly = s.dev.get (F.CHK_POLY_POLY c)
      ∧ (d.crcUnit c).width = 8 * 2 ^ s.dev.get (F.CHK_CFG_WIDTH c) ∧ d.get (F.CHK_COUNT_COUNT c) = 0) ∧
    (s.dev.offline 0x0A = false → s.dev.get (F.CHK_LEN_LEN c) ≠ 0 →
      s.dev.get (F.CHK_SRC_LO_SRC_LO c) + s.dev.get (F.CHK_SRC_HI_SRC_HI c) * 2 ^ 32 + s.dev.get (F.CHK_LEN_LEN c) ≤ 0x4_0000_0000 →
      Completes (.chkGo c) s (fun d => d.bit (F.CHK_STAT_BUSY c) = true ∧ (d.crcUnit c).feed =
        some (s.dev.get (F.CHK_SRC_LO_SRC_LO c) + s.dev.get (F.CHK_SRC_HI_SRC_HI c) * 2 ^ 32, s.dev.get (F.CHK_LEN_LEN c)))) ∧
    (s.dev.offline 0x0A = false → s.dev.get (F.CHK_LEN_LEN c) = 0 → s.dev.get (F.BLK_ERR_CODE_CODE 0x0A) = 0 → Completes (.chkGo c) s (fun d =>
      d.get (F.BLK_ERR_CODE_CODE 0x0A) = 2 ∧ d.crcUnit c = s.dev.crcUnit c))) ∧
  (∀ c a n x, c < 4 → x = s.dev.crcUnit c → x.feed = some (a, n) →
    (x.bad = false → Completes (.chkFeedDone c none) s (fun d => (d.crcUnit c).reg = crcBytes x.width x.poly x.refin x.reg (s.dev.bytes a n)
      ∧ (d.crcUnit c).feed = none ∧ d.get (F.CHK_COUNT_COUNT c) = (s.dev.get (F.CHK_COUNT_COUNT c) + n) % 2 ^ 32
      ∧ d.get (F.CHK_RESULT_RESULT c) = ((if x.refout then reflect x.width (d.crcUnit c).reg else (d.crcUnit c).reg) ^^^ x.xorout) % 2 ^ 32
      ∧ d.bit (F.CHK_STAT_DONE c) = true ∧ d.bit (F.CHK_STAT_BUSY c) = false ∧ d.testBit (F.BLK_IRQ_RAW 0x0A) 3 = true)) ∧
    (∀ k, Completes (.chkFeedDone c (some k)) s (fun d => d.bit (F.CHK_STAT_ERR c) = true ∧ d.get (F.CHK_STAT_CODE c) = 6
      ∧ (d.crcUnit c).bad = true ∧ d.bit (F.CHK_STAT_BUSY c) = false ∧ d.testBit (F.BLK_IRQ_RAW 0x0A) 4 = true)))

/-! ### The twin -/

/-- Records over Meridian (R505, R507, R509, R510, R512–R518, R324, R105–R108): a record damaged or out of order is counted and has no other effect, one received before has
none; heartbeats are sent, striped over the lanes that carry records, and taken; silence or a FAULT of the partner is its loss, on which a shadow takes the token; offers,
acceptances, refusals and requests of the token, none without the lane clock; trigger, ledger, slot, miss and latency records of relayed views; digests sent, compared and waited for; what is not acknowledged
is sent again. -/
def Obligations.MeridianRecords : Prop := ∀ (s : State) (ws : List Nat),
  (∀ e ∈ [(Instr.heartbeat ws, 1), (.faultRecord ws, 3), (.trigRecord ws, 0x10), (.ledgerRecord ws, 0x11), (.slotRecord ws, 0x12), (.missRecord ws, 0x13),
      (.latRecord ws, 0x14), (.digestRecord ws, 0x15), (.join ws, 0x20), (.mirror ws, 0x21), (.joinEnd ws, 0x22)],
    s.dev.enabled 0x90 = true → s.dev.bit F.TWIN_STAT_LINK_UP = true → ws.getD 0 0 % 256 = e.2 →
    (merGood ws = false → Completes e.1 s (fun d => d.get F.TWIN_CNT_CRC_COUNT = (s.dev.get F.TWIN_CNT_CRC_COUNT + 1) % 2 ^ 32
      ∧ KeepsRegs s.dev d [F.TWIN_CNT_CRC_COUNT] ∧ KeepsMemory s.dev d ∧ d.mer = s.dev.mer ∧ d.out = s.dev.out)) ∧
    (merGood ws = true → 2 ^ 31 ≤ (ws.getD 1 0 + 2 ^ 32 - s.dev.mer.rxNext) % 2 ^ 32 → Completes e.1 s (fun d => KeepsRegs s.dev d []
      ∧ KeepsMemory s.dev d ∧ d.mer = s.dev.mer ∧ d.out = s.dev.out))) ∧
  (s.dev.enabled 0x90 = true → s.dev.bit F.TWIN_STAT_LINK_UP = true → 10000 ≤ s.dev.elapsed s.dev.mer.hbAt → Completes .heartbeatSend s (fun d =>
    d.mer.hbAt = s.dev.time.c ∧ d.mer.txSeq = (s.dev.mer.txSeq + 1) % 2 ^ 32 ∧ ∃ o, d.out = .meridian o (s.dev.stripes o) :: s.dev.out ∧ o.length = 8
      ∧ o.take 4 = [s.dev.get F.TWIN_TOKEN_EPOCH * 2 ^ 16 + 0x201, s.dev.mer.txSeq, s.dev.now % 2 ^ 32, s.dev.now / 2 ^ 32 % 2 ^ 32]
      ∧ o.getD 5 0 = (s.dev.mer.rxNext + 2 ^ 32 - 1) % 2 ^ 32)) ∧
  (s.dev.hears 1 ws → ws.getD 4 0 % 16 ≠ 1 → ws.getD 4 0 % 16 ≠ 8 → ws.getD 4 0 % 16 ≠ 15 → Completes (.heartbeat ws) s (fun d =>
    d.bit F.TWIN_STAT_PARTNER_OK = true ∧ d.get F.TWIN_STAT_PARTNER_STATE = ws.getD 4 0 % 16 ∧ d.mer.hbRx = some s.dev.time.c ∧ d.mer.pEpoch = merHi ws
      ∧ d.get F.TWIN_PCFG_CHECK_CHECK = ws.getD 6 0 % 2 ^ 32)) ∧
  (s.dev.hears 3 ws → s.dev.bit F.TWIN_STAT_PARTNER_OK = true → s.dev.mer.offer = none → s.dev.executing 0x28 = false →
    (s.dev.feat 1 = false → Completes (.faultRecord ws) s (fun d => d.bit F.TWIN_STAT_PARTNER_OK = false ∧ d.testBit (F.BLK_IRQ_RAW 0x90) 4 = true)) ∧
    (s.dev.feat 1 = true → s.dev.role = 2 → (s.dev.state = 5 ∨ s.dev.state = 6) → s.dev.laneClockLost = false → s.dev.remoteGroups = [] →
      Completes (.faultRecord ws) s (fun d => d.bit F.TWIN_STAT_PARTNER_OK = false ∧ d.role = 1 ∧ d.get F.TWIN_TOKEN_HELD = 1
        ∧ d.get F.TWIN_TOKEN_EPOCH = (s.dev.get F.TWIN_TOKEN_EPOCH + 1) % 2 ^ 16
        ∧ d.get F.TWIN_CNT_TAKEOVER_COUNT = (s.dev.get F.TWIN_CNT_TAKEOVER_COUNT + 1) % 2 ^ 32))) ∧
  (∀ t, s.dev.mer.hbRx = some t → 32000 ≤ s.dev.elapsed t → s.dev.bit F.TWIN_STAT_PARTNER_OK = true → s.dev.mer.offer = none → s.dev.executing 0x28 = false →
    (s.dev.feat 1 = false → Completes .partnerLost s (fun d => d.bit F.TWIN_STAT_PARTNER_OK = false ∧ d.testBit (F.BLK_IRQ_RAW 0x90) 4 = true)) ∧
    (s.dev.feat 1 = true → s.dev.role = 2 → (s.dev.state = 5 ∨ s.dev.state = 6) → s.dev.laneClockLost = false → s.dev.remoteGroups = [] →
      Completes .partnerLost s (fun d => d.bit F.TWIN_STAT_PARTNER_OK = false ∧ d.role = 1 ∧ d.get F.TWIN_TOKEN_HELD = 1
        ∧ d.get F.TWIN_TOKEN_EPOCH = (s.dev.get F.TWIN_TOKEN_EPOCH + 1) % 2 ^ 16
        ∧ d.get F.TWIN_CNT_TAKEOVER_COUNT = (s.dev.get F.TWIN_CNT_TAKEOVER_COUNT + 1) % 2 ^ 32))) ∧
  (s.dev.hears 2 ws → s.dev.executing 0x28 = false →
    (ws.getD 2 0 % 4 = 0 → (s.dev.state = 5 ∨ s.dev.state = 6) → s.dev.isShadow = true → s.dev.bit F.TWIN_STAT_SYNCED = true →
      s.dev.bit F.TWIN_STAT_PARTNER_OK = true → s.dev.laneClockLost = false → Completes (.tokenOffer ws) s (fun d => d.role = 1
        ∧ d.get F.TWIN_TOKEN_HELD = 1 ∧ d.get F.TWIN_TOKEN_EPOCH = merHi ws % 2 ^ 16
        ∧ d.get F.TWIN_CNT_HANDOVER_COUNT = (s.dev.get F.TWIN_CNT_HANDOVER_COUNT + 1) % 2 ^ 32)) ∧
    (ws.getD 2 0 % 4 = 0 → s.dev.laneClockLost = false → (s.dev.isShadow = false ∨ s.dev.bit F.TWIN_STAT_SYNCED = false ∨ (s.dev.state ≠ 5 ∧ s.dev.state ≠ 6)) →
      Completes (.tokenOffer ws) s (fun d => d.role = s.dev.role ∧ ∃ o l, d.out = .meridian o l :: s.dev.out ∧ o.getD 0 0 % 256 = 2 ∧ o.getD 2 0 = 2)) ∧
    (ws.getD 2 0 % 4 = 0 → s.dev.laneClockLost = true → Completes (.tokenOffer ws) s (fun d => d.out = s.dev.out ∧ KeepsRegs s.dev d [] ∧ KeepsMemory s.dev d)) ∧
    (∀ e, ws.getD 2 0 % 4 = 1 → s.dev.mer.offer = some (e, .auto) → Completes (.tokenAccept ws) s (fun d => d.role = 2 ∧ d.get F.TWIN_TOKEN_HELD = 0
      ∧ d.get F.TWIN_STAT_SYNCED = (if s.dev.mer.parted = true then 0 else 1) ∧ d.get F.TWIN_TOKEN_EPOCH = merHi ws % 2 ^ 16 ∧ d.mer.offer = none)) ∧
    (∀ e, ws.getD 2 0 % 4 = 2 → s.dev.mer.offer = some (e, .auto) → Completes (.tokenRefuse ws) s (fun d => d.mer.offer = none ∧ d.role = s.dev.role
      ∧ KeepsRegs s.dev d [] ∧ KeepsMemory s.dev d)) ∧
    (ws.getD 2 0 % 4 = 3 → s.dev.isLead = true → s.dev.mer.offer = none → Completes (.tokenRequest ws) s (fun d =>
      d.mer.offer = some ((s.dev.get F.TWIN_TOKEN_EPOCH + 1) % 65536, .auto) ∧ ∃ o l, d.out = .meridian o l :: s.dev.out ∧ o.getD 2 0 = 0)) ∧
    (ws.getD 2 0 % 4 = 3 → s.dev.isLead = false → Completes (.tokenRequest ws) s (fun d => d.mer.offer = s.dev.mer.offer
      ∧ ∃ o l, d.out = .meridian o l :: s.dev.out ∧ o.getD 2 0 = 2))) ∧
  (∀ e, ws.getD 2 0 % 4 = 2 → s.dev.hears 2 ws → s.dev.executing 0x28 = true → s.dev.mer.offer = some (e, .command) → Completes (.tokenRefuse ws) s (fun d =>
    d.mer.offer = none ∧ d.cmd = none ∧ d.get F.CMD_STATUS_RESULT = 13)) ∧
  (∀ p, s.dev.hears 0x10 ws → p = merHi ws % 16 → s.dev.relayedPort p = true → s.dev.groupDropped (s.dev.groupOf p) = false →
    s.dev.beforeJoin (s.dev.groupOf p) (ws.getD 3 0 + ws.getD 4 0 * 2 ^ 32) = false → (s.dev.port p).fifo.length < 64 →
    Completes (.trigRecord ws) s (fun d => ∃ e, (d.port p).fifo = (s.dev.port p).fifo ++ [e] ∧ e.index = ws.getD 2 0
      ∧ e.stamp / 65536 = ws.getD 3 0 + ws.getD 4 0 * 2 ^ 32 ∧ KeepsRegs s.dev d [] ∧ KeepsMemory s.dev d)) ∧
  (∀ p, s.dev.hears 0x11 ws → p = merHi ws % 16 → s.dev.relayedPort p = true → s.dev.groupDropped (s.dev.groupOf p) = false →
    merHi ws / 256 % 16 ≠ 2 → (∃ e ∈ (s.dev.port p).fifo, e.index = ws.getD 3 0) → Completes (.ledgerRecord ws) s (fun d =>
      ∃ r, (d.port p).ledger = (s.dev.port p).ledger ++ [r] ∧ r.index = ws.getD 3 0 ∧ r.seq = ws.getD 2 0 ∧ r.disp = merHi ws / 256 % 16
        ∧ (d.port p).fifo = (s.dev.port p).fifo ∧ KeepsRegs s.dev d [] ∧ KeepsMemory s.dev d)) ∧
  (∀ g p e rest, s.dev.hears 0x12 ws → s.dev.slotGroup (merHi ws % 65536) = some g → g < 8 → s.dev.groupDropped g = false → s.dev.portsOf g = [p] →
    (s.dev.port p).fifo = e :: rest → e.index = ws.getD 2 0 → Completes (.slotRecord ws) s (fun d => (d.port p).fifo = rest
      ∧ d.get (F.GRP_SLOT_INDEX g) = ws.getD 2 0 % 2 ^ 32 ∧ Sparse.get d.mer.slotAt 0 g = s.dev.time.c)) ∧
  (∀ g p e rest, g < 8 → s.dev.portsOf g = [p] → (s.dev.port p).fifo = e :: rest → s.dev.groupRemote g = true → s.dev.sorting = true →
    s.dev.viewLost g = false → s.dev.mer.trigIn.find? (fun x => x.1 = g && x.2.1 = e.index) = none →
    1000000 ≤ s.dev.elapsed (Sparse.get s.dev.mer.slotAt 0 g) → Completes (.slotRecordTimeout g) s (fun d => d.viewLost g = true
      ∧ (d.port p).fifo = [])) ∧
  (∀ b, s.dev.hears 0x13 ws → s.dev.isShadow = true → s.dev.bodyOf (ws.getD 2 0) = some b → b.place = .queued → -(b.grace * 1000 : Nat) ≤ s.dev.toDeadline b →
    Completes (.missRecord ws) s (fun d => d.get (F.DISP_CNT_CAUSE_COUNT 4) = (s.dev.get (F.DISP_CNT_CAUSE_COUNT 4) + 1) % 2 ^ 32
      ∧ ∃ b' v, d.plan.passing = s.dev.plan.passing ++ [⟨b.id, v, b.verdict.isSome⟩] ∧ d.bodyOf (ws.getD 2 0) = some b' ∧ b'.place = .resolved ∧ b'.verdict = some v)) ∧
  (s.dev.hears 0x13 ws → s.dev.bodyOf (ws.getD 2 0) = none →
    ((s.dev.isShadow = false ∨ s.dev.awaited (ws.getD 2 0) = false) → Completes (.missRecord ws) s (fun d =>
      d.get F.DISP_CNT_DIVERGED_COUNT = (s.dev.get F.DISP_CNT_DIVERGED_COUNT + 1) % 2 ^ 32 ∧ KeepsRegs s.dev d [F.DISP_CNT_DIVERGED_COUNT]
        ∧ KeepsMemory s.dev d)) ∧
    (s.dev.isShadow = true → s.dev.awaited (ws.getD 2 0) = true → Completes (.missRecord ws) s (fun d =>
      d.seg.missHeld = s.dev.seg.missHeld ++ [(ws.getD 2 0, s.dev.now)] ∧ KeepsRegs s.dev d [] ∧ KeepsMemory s.dev d))) ∧
  (s.dev.hears 0x14 ws → s.dev.isShadow = true → Completes (.latRecord ws) s (fun d => d.read (latOff (merHi ws % 2048)) 4 = ws.getD 2 0 % 2 ^ 32
    ∧ (∀ a, (a < latOff (merHi ws % 2048) ∨ latOff (merHi ws % 2048) + 4 ≤ a) → d.byte a = s.dev.byte a) ∧ KeepsRegs s.dev d [])) ∧
  (∀ x, s.dev.seg.digests.find? s.dev.digestDue = some x → s.dev.bit F.TWIN_STAT_LINK_UP = true → s.dev.mer.digIn = [] → Completes .digestSend s (fun d =>
    ∃ o l, d.out = .meridian o l :: s.dev.out ∧ o.getD 0 0 % 256 = 0x15 ∧ o.getD 2 0 = x.index ∧ o.getD 3 0 = x.rowDig ∧ o.getD 4 0 = s.dev.verdDigest x
      ∧ KeepsRegs s.dev d [] ∧ KeepsMemory s.dev d)) ∧
  (s.dev.hears 0x15 ws → s.dev.digestOn = true →
    (s.dev.seg.digests = [] → Completes (.digestRecord ws) s (fun d => d.mer.digIn =
      s.dev.mer.digIn ++ [⟨merHi ws % 16, ws.getD 2 0, ws.getD 3 0, ws.getD 4 0, s.dev.time.c⟩] ∧ KeepsRegs s.dev d [] ∧ KeepsMemory s.dev d)) ∧
    (∀ x, s.dev.seg.digests = [x] → x.sent = true → x.index = ws.getD 2 0 → s.dev.lowPort x.group = merHi ws % 16 → ws.getD 3 0 = x.rowDig →
      ws.getD 4 0 = x.verd → Completes (.digestRecord ws) s (fun d => d.get F.TWIN_DIG_ROWS_COUNT = (s.dev.get F.TWIN_DIG_ROWS_COUNT + 1) % 2 ^ 32
        ∧ KeepsRegs s.dev d [F.TWIN_DIG_ROWS_COUNT] ∧ KeepsMemory s.dev d)) ∧
    (∀ x, s.dev.seg.digests = [x] → x.sent = true → x.index = ws.getD 2 0 → s.dev.lowPort x.group = merHi ws % 16 → ws.getD 3 0 ≠ x.rowDig →
      Completes (.digestRecord ws) s (fun d => d.get F.TWIN_DIG_ROWS_COUNT = (s.dev.get F.TWIN_DIG_ROWS_COUNT + 1) % 2 ^ 32
        ∧ d.get F.TWIN_DIG_RMIS_COUNT = (s.dev.get F.TWIN_DIG_RMIS_COUNT + 1) % 2 ^ 32 ∧ d.testBit (F.BLK_IRQ_RAW 0x90) 6 = true
        ∧ (Sparse.get s.dev.mer.misRun 0 (s.dev.groupOf (merHi ws % 16)) + 1 = s.dev.get F.TWIN_CTRL_DIG_LIMIT →
            d.bit F.TWIN_STAT_SYNCED = false ∧ d.testBit (F.BLK_IRQ_RAW 0x90) 7 = true)))) ∧
  (∀ e rest, s.dev.mer.digIn = e :: rest → 100000000 ≤ s.dev.elapsed e.at_ → s.dev.digestOn = true → Completes .digestTimeout s (fun d =>
    d.mer.digIn = rest ∧ d.get F.TWIN_DIG_RMIS_COUNT = (s.dev.get F.TWIN_DIG_RMIS_COUNT + 1) % 2 ^ 32 ∧ d.testBit (F.BLK_IRQ_RAW 0x90) 6 = true)) ∧
  (s.dev.bit F.TWIN_STAT_LINK_UP = true → s.dev.mer.unacked ≠ [] → 20000 ≤ s.dev.elapsed s.dev.mer.ackAt → Completes .meridianRetransmit s (fun d =>
    d.out = (s.dev.mer.unacked.map (fun r => Emission.meridian r.2 (s.dev.stripes r.2))).reverse ++ s.dev.out ∧ d.mer.unacked = s.dev.mer.unacked
      ∧ d.get F.TWIN_CNT_RETX_COUNT = (s.dev.get F.TWIN_CNT_RETX_COUNT + s.dev.mer.unacked.length) % 2 ^ 32))

/-- Lanes, role entry and joins (R505, R508, R522, R523): LANE_WD withdraws lanes but not the last one; a device that hears no partner leads; a join is started by a lead only, armed on the
partner, copies from its boundary, installs what it receives, catches up, and ends in a synced shadow; CLR makes the next mismatch the first. -/
def Obligations.TwinJoins : Prop := ∀ (s : State) (ws : List Nat) (v : Nat),
  (s.dev.taken 0x90 0x40 → v / 16 % 2 = 0 → bitsAt v 24 8 ≠ 0 → bitsAt v 16 8 ≠ 0 →
    ((s.dev.get F.TWIN_STAT_LANES = 0 ∨ s.dev.get F.TWIN_STAT_LANES &&& (15 - bitsAt v 8 4) ≠ 0) → Completes (.laneWdWrite v) s (fun d =>
      d.get F.TWIN_CTRL_LANE_WD = bitsAt v 8 4 ∧ d.get F.TWIN_CTRL_DIG_LIMIT = bitsAt v 24 8
        ∧ (∀ m < 4, v / 2 ^ (8 + m) % 2 = 1 → s.dev.get F.TWIN_CTRL_LANE_WD / 2 ^ m % 2 = 0 → d.pin (.merTx m) = .idle)
        ∧ ∀ m < 4, v / 2 ^ (8 + m) % 2 = 0 → s.dev.get F.TWIN_CTRL_LANE_WD / 2 ^ m % 2 = 1 → d.bit (F.LANE_STAT_LOCK 12 m) = false)) ∧
    (s.dev.get F.TWIN_STAT_LANES ≠ 0 → s.dev.get F.TWIN_STAT_LANES &&& (15 - bitsAt v 8 4) = 0 → s.dev.get (F.BLK_ERR_CODE_CODE 0x90) = 0 →
      Completes (.laneWdWrite v) s (fun d => d.get F.TWIN_CTRL_LANE_WD = s.dev.get F.TWIN_CTRL_LANE_WD ∧ d.get (F.BLK_ERR_CODE_CODE 0x90) = 1))) ∧
  (s.dev.taken 0x90 0x40 → bitsAt v 24 8 = 0 → s.dev.get (F.BLK_ERR_CODE_CODE 0x90) = 0 → Completes (.laneWdWrite v) s (fun d =>
    d.get F.TWIN_CTRL_LANE_WD = s.dev.get F.TWIN_CTRL_LANE_WD ∧ d.get (F.BLK_ERR_CODE_CODE 0x90) = 2)) ∧
  (∀ t, s.dev.mer.waiting = some t → s.dev.get F.TWIN_CTRL_START_WAIT * 1000000 ≤ s.dev.elapsed t → (s.dev.state = 5 ∨ s.dev.state = 6) → s.dev.laneClockLost = false → s.dev.bit F.TWIN_STAT_PARTNER_OK = false →
    s.dev.remoteGroups = [] → Completes .startWaitExpiry s (fun d => d.role = 1 ∧ d.get F.TWIN_TOKEN_HELD = 1
      ∧ d.get F.TWIN_TOKEN_EPOCH = (s.dev.get F.TWIN_TOKEN_EPOCH + 1) % 2 ^ 16 ∧ d.mer.waiting = none)) ∧
  (s.dev.taken 0x90 0x40 → bitsAt v 24 8 ≠ 0 → bitsAt v 16 8 ≠ 0 → bitsAt v 8 4 = s.dev.get F.TWIN_CTRL_LANE_WD →
    (s.dev.get F.TWIN_STAT_LANES = 0 ∨ s.dev.get F.TWIN_STAT_LANES &&& (15 - bitsAt v 8 4) ≠ 0) →
    s.dev.get F.TWIN_STAT_LANES = (List.range 4).foldl (fun n m => n + b2n (s.dev.merCarries m) * 2 ^ m) 0 →
    (∀ at_, s.dev.isLead = true → at_ = s.dev.st40At F.TWIN_JOIN_AT_LO_AT_LO F.TWIN_JOIN_AT_HI_AT_HI → 20000000 ≤ st40Diff at_ s.dev.now →
      st40Diff at_ s.dev.now ≤ 10000000000 → s.dev.bit F.TWIN_STAT_PARTNER_OK = true → s.dev.mer.pRole = 3 →
      s.dev.get F.TWIN_CFG_CHECK_CHECK = s.dev.get F.TWIN_PCFG_CHECK_CHECK → Dev.loadAbove (s.dev.loadedPorts.map s.dev.portLoad) 400 = false →
      s.dev.bit F.TWIN_STAT_LINK_UP = true → Completes (.joinGo v) s (fun d => d.get F.TWIN_JOIN_STAT_PHASE = 1 ∧ d.get F.TWIN_JOIN_STAT_COPIED = 0
        ∧ d.mer.joinAt = st40Extend s.dev.now at_ ∧ ∃ o l, d.out = .meridian o l :: s.dev.out ∧ o.getD 0 0 % 256 = 0x20
          ∧ o.getD 2 0 = d.mer.joinAt % 2 ^ 32)) ∧
    (s.dev.isLead = false → s.dev.get (F.BLK_ERR_CODE_CODE 0x90) = 0 → Completes (.joinGo v) s (fun d => d.get (F.BLK_ERR_CODE_CODE 0x90) = 1
      ∧ d.get F.TWIN_JOIN_STAT_PHASE = s.dev.get F.TWIN_JOIN_STAT_PHASE))) ∧
  (s.dev.hears 0x20 ws → s.dev.role = 3 → Completes (.join ws) s (fun d => d.mer.joinAt = ws.getD 2 0 + ws.getD 3 0 * 2 ^ 32
    ∧ d.get F.TWIN_JOIN_STAT_PHASE = 1 ∧ d.get F.TWIN_JOIN_STAT_COPIED = 0
    ∧ KeepsRegs s.dev d [F.TWIN_JOIN_STAT_PHASE, F.TWIN_JOIN_STAT_COPIED] ∧ KeepsMemory s.dev d)) ∧
  (s.dev.get F.TWIN_JOIN_STAT_PHASE = 1 → s.dev.mer.joinAt ≤ s.dev.now →
    (s.dev.role = 3 → Completes .joinBoundary s (fun d => d.get F.TWIN_JOIN_STAT_PHASE = 2
      ∧ (∀ m base len a, Dev.mirrorArea m = some (base, len) → base ≤ a → a < base + len → d.byte a = 0)
      ∧ KeepsRegs s.dev d [F.TWIN_JOIN_STAT_PHASE, F.PLAN_SUSPECT_COUNT] ∧ d.get F.PLAN_SUSPECT_COUNT = 0)) ∧
    (s.dev.isLead = true → s.dev.bit F.TWIN_STAT_LINK_UP = true → Completes .joinBoundary s (fun d => d.get F.TWIN_JOIN_STAT_PHASE = 2
      ∧ ∃ o l, d.out.head? = some (.meridian o l) ∧ o.getD 0 0 % 256 = 0x22 ∧ o.getD 2 0 = d.mer.mirrored))) ∧
  (∀ m base len, s.dev.hears 0x21 ws → s.dev.role = 3 → s.dev.get F.TWIN_JOIN_STAT_PHASE ≠ 0 → m = merHi ws % 256 → m ≠ 1 → m ≠ 5 →
    Dev.mirrorArea m = some (base, len) → Completes (.mirror ws) s (fun d => d.get F.TWIN_JOIN_STAT_PHASE = 2
      ∧ d.mer.mirrored = s.dev.mer.mirrored + 1 ∧ ∀ i < ((ws.drop 3).dropLast).length, ws.getD 2 0 + 4 * i < len →
        d.read (base + ws.getD 2 0 + 4 * i) 4 = ((ws.drop 3).dropLast).getD i 0 % 2 ^ 32)) ∧
  (s.dev.hears 0x22 ws → s.dev.role = 3 → s.dev.get F.TWIN_JOIN_STAT_PHASE ≠ 0 → Completes (.joinEnd ws) s (fun d =>
    d.get F.TWIN_JOIN_STAT_PHASE = 3 ∧ d.get F.TWIN_STAT_CATCHUP = 1
      ∧ KeepsRegs s.dev d [F.TWIN_JOIN_STAT_PHASE, F.TWIN_STAT_CATCHUP] ∧ KeepsMemory s.dev d)) ∧
  (s.dev.role = 3 → s.dev.get F.TWIN_JOIN_STAT_PHASE = 3 → Completes .joinDone s (fun d => d.role = 2 ∧ d.get F.TWIN_STAT_SYNCED = 1
    ∧ d.get F.TWIN_JOIN_STAT_PHASE = 4 ∧ d.get F.TWIN_STAT_CATCHUP = 0 ∧ d.testBit (F.BLK_IRQ_RAW 0x90) 8 = true)) ∧
  (s.dev.taken 0x90 0x74 → Completes (.digInfoClr v) s (fun d => d.mer.digFirst = false ∧ KeepsRegs s.dev d [] ∧ KeepsMemory s.dev d))

/-! ### Tether, boot and security -/

/-- The chain (R533–R541): frames leave coded, one after the other in their direction; a bad frame is counted and repeated; an ENUM gives an address and goes on with the next number;
READ and WRITE are repeated, behind a BULK transfer of the device's own, and served and answered where they are addressed, a misaligned one with RANGE, recorded as over BAR0;
own return frames wait for the others'; RESP ends the access of the bridge, the last character of a broadcast WRITE too; BULK and EVENT; the bridge's own commands, their refusals
and timeouts; the clocks of the chain. -/
def Obligations.TetherChain : Prop := ∀ (s : State) (b : List Nat) (v : Nat),
  (∀ e ∈ [Instr.enum b, .read b, .write b, .bulk b], s.dev.repeats = true → tethGood b = false → Completes e s (fun d =>
    d.out = .tethFwd (slotChars 100 s.dev.teth.fwd.busyTo s.dev.teth.fwd.rd (max s.dev.time.c s.dev.teth.fwd.busyTo) b).2 :: s.dev.out
      ∧ d.teth.fwd.busyTo = max s.dev.time.c s.dev.teth.fwd.busyTo + 100 * (b.length + 3)
      ∧ d.get F.TETH_CNT_CRC = (s.dev.get F.TETH_CNT_CRC + 1) % 2 ^ 16 ∧ KeepsRegs s.dev d [F.TETH_CNT_CRC] ∧ KeepsMemory s.dev d)) ∧
  (s.dev.takes 1 b → s.dev.bit F.TETH_ADDR_LAST = false →
    (b.getD 4 0 < 65 → (b.getD 0 0 % 2 = 1 ∨ s.dev.tethAddr = 0) → Completes (.enum b) s (fun d => d.tethAddr = b.getD 4 0
      ∧ d.out = (s.dev.tethSend true (frame16 ((b.take 14).set 4 (b.getD 4 0 + 1)))).out ∧ KeepsRegs s.dev d [F.TETH_ADDR_ADDR] ∧ KeepsMemory s.dev d)) ∧
    (65 ≤ b.getD 4 0 → Completes (.enum b) s (fun d => d.tethAddr = 0 ∧ d.bit F.TETH_ADDR_OVER = true
      ∧ d.out = (s.dev.tethSend true (frame16 ((b.take 14).set 4 (b.getD 4 0)))).out))) ∧
  (∀ t, s.dev.takes 2 b → s.dev.teth.enumAt = some t → Completes (.enumEnd b) s (fun d => d.get F.TETH_ENUM_COUNT = b.getD 4 0 % 256
    ∧ d.get F.TETH_STAT_CHAIN = b.getD 4 0 % 256 ∧ d.bit F.TETH_ENUM_DONE = true ∧ d.teth.enumAt = none ∧ d.testBit (F.BLK_IRQ_RAW 7) 3 = true)) ∧
  (s.dev.takes 3 b → s.dev.teth.bulk = none → s.dev.teth.held = [] → s.dev.tethMine (b.getD 1 0) = true →
    (∀ f, frameWord b 4 4 = 0x34 → f = frame16 ([0x50, 0, s.dev.tethAddr, b.getD 3 0] ++ leBytes 4 (s.dev.get (F.BLK_SCRATCH_SCRATCH 0)) ++ [0, 3, 0, 0, 0, 0]) →
      (s.dev.teth.ret.busyTo ≤ s.dev.time.c → Completes (.read b) s (fun d => d.out = ((s.dev.tethSend true b).tethSend false f).out ∧ d.teth.held = []
        ∧ KeepsRegs s.dev d [] ∧ KeepsMemory s.dev d)) ∧
      (s.dev.time.c < s.dev.teth.ret.busyTo → Completes (.read b) s (fun d => d.out = (s.dev.tethSend true b).out ∧ d.teth.held = [f]
        ∧ KeepsRegs s.dev d [] ∧ KeepsMemory s.dev d))) ∧
    (frameWord b 4 4 % 4 ≠ 0 → s.dev.teth.ret.busyTo ≤ s.dev.time.c → s.dev.get (F.BLK_ERR_CODE_CODE 0) = 0 → s.dev.testBit (F.TETH_EVT_MASK_MASK 0) 0 = false →
      Completes (.read b) s (fun d => d.get (F.BLK_ERR_CODE_CODE 0) = 2 ∧ KeepsMemory s.dev d
        ∧ d.out.head? = some (.tethRet (slotChars 100 s.dev.teth.ret.busyTo s.dev.teth.ret.rd s.dev.time.c
            (frame16 [0x50, 0, s.dev.tethAddr, b.getD 3 0, 0, 0, 0, 0, 2, 3, 0, 0, 0, 0])).2)))) ∧
  (s.dev.takes 3 b → s.dev.tethMine (b.getD 1 0) = false →
    (s.dev.teth.bulk = none → Completes (.read b) s (fun d => d.out = (s.dev.tethSend true b).out ∧ KeepsRegs s.dev d [] ∧ KeepsMemory s.dev d)) ∧
    (s.dev.teth.bulk.isSome = true → Completes (.read b) s (fun d => d.out = s.dev.out ∧ d.teth.wait = s.dev.teth.wait ++ [b] ∧ KeepsRegs s.dev d []
      ∧ KeepsMemory s.dev d))) ∧
  (s.dev.takes 4 b → frameWord b 4 4 = 0x34 → s.dev.teth.bulk = none →
    (s.dev.tethMine (b.getD 1 0) = true → s.dev.teth.held = [] → s.dev.teth.ret.busyTo ≤ s.dev.time.c → Completes (.write b) s (fun d =>
      d.get (F.BLK_SCRATCH_SCRATCH 0) = frameWord b 8 4 % 2 ^ 32
      ∧ d.out = ((s.dev.tethSend true b).tethSend false (frame16 [0x50, 0, s.dev.tethAddr, b.getD 3 0, 0, 0, 0, 0, 0, 4, 0, 0, 0, 0])).out
      ∧ KeepsRegs s.dev d [F.BLK_SCRATCH_SCRATCH 0] ∧ KeepsMemory s.dev d)) ∧
    (s.dev.tethMine (b.getD 1 0) = false → b.getD 1 0 = 0x7F → Completes (.write b) s (fun d => d.get (F.BLK_SCRATCH_SCRATCH 0) = frameWord b 8 4 % 2 ^ 32
      ∧ d.out = (s.dev.tethSend true b).out))) ∧
  (∀ x, s.dev.takes 5 b → s.dev.teth.bridge = some x → b.getD 2 0 = x.dst → b.getD 3 0 = x.tag → Completes (.resp b) s (fun d => d.teth.bridge = none
    ∧ d.bit F.TETH_BR_STAT_BUSY = false ∧ d.get F.TETH_BR_STAT_RESULT = b.getD 8 0 % 256 ∧ d.testBit (F.BLK_IRQ_RAW 7) 4 = true
    ∧ (x.write = false → d.get F.TETH_BR_DATA_DATA = frameWord b 4 4 % 2 ^ 32))) ∧
  (s.dev.takes 6 b → b.getD 1 0 = 0x7F → s.dev.state = 1 → s.dev.bit F.SEC_BOOT_STAT_WAITING = true → (s.dev.boot.recovery = true ∨ s.dev.boot.src = 2) →
    frameWord b 2 3 < 0x8_0000 → Completes (.bulk b) s (fun d => d.out = (s.dev.tethSend true b).out ∧ frameWord b 2 3 ∈ d.boot.chunks
      ∧ ∀ i < 8, Sparse.get d.boot.sram 0 (8 * frameWord b 2 3 + i) = BitVec.ofNat 8 (b.getD (5 + i) 0))) ∧
  (s.dev.takes 7 b → s.dev.feat 24 = true →
    (s.dev.teth.events.length < 64 → Completes (.event b) s (fun d => d.teth.events =
      s.dev.teth.events ++ [2 ^ 31 + b.getD 2 0 % 128 * 2 ^ 24 + b.getD 4 0 * 2 ^ 16 + frameWord b 6 2] ∧ d.testBit (F.BLK_IRQ_RAW 7) 5 = true)) ∧
    (64 ≤ s.dev.teth.events.length → Completes (.event b) s (fun d => d.teth.events = s.dev.teth.events
      ∧ d.get F.TETH_CNT_OVERRUN = (s.dev.get F.TETH_CNT_OVERRUN + 1) % 2 ^ 16))) ∧
  (s.dev.taken 7 0x80 → s.dev.feat 24 = true → s.dev.teth.bridge = none → s.dev.teth.enumAt = none → Completes (.tethEnumGo v) s (fun d =>
    d.teth.enumAt = some s.dev.time.c ∧ d.bit F.TETH_ENUM_DONE = false ∧ ∃ f, d.out = (s.dev.tethSend true f).out ∧ f.getD 4 0 = 2
      ∧ f.getD 0 0 / 16 = 1)) ∧
  (s.dev.taken 7 0x80 → s.dev.feat 24 = false → s.dev.get (F.BLK_ERR_CODE_CODE 7) = 0 → Completes (.tethEnumGo v) s (fun d => d.teth.enumAt = s.dev.teth.enumAt
    ∧ d.get (F.BLK_ERR_CODE_CODE 7) = 5)) ∧
  (∀ t, s.dev.teth.enumAt = some t → 1000000 ≤ s.dev.elapsed t → s.dev.get (F.BLK_ERR_CODE_CODE 7) = 0 → Completes .tethEnumTimeout s (fun d =>
    d.teth.enumAt = none ∧ d.get (F.BLK_ERR_CODE_CODE 7) = 7)) ∧
  (s.dev.taken 7 0x84 → s.dev.feat 24 = true → 2 ≤ bitsAt v 0 7 → bitsAt v 0 7 ≤ 64 →
    (s.dev.bit F.TETH_BR_STAT_BUSY = false → Completes (.tethBrGo v) s (fun d => d.bit F.TETH_BR_STAT_BUSY = true
      ∧ (∃ x, d.teth.bridge = some x ∧ x.dst = bitsAt v 0 7 ∧ x.sent = s.dev.time.c) ∧ ∃ f, d.out = (s.dev.tethSend true f).out ∧ f.getD 1 0 = bitsAt v 0 7)) ∧
    (s.dev.bit F.TETH_BR_STAT_BUSY = true → s.dev.get (F.BLK_ERR_CODE_CODE 7) = 0 → Completes (.tethBrGo v) s (fun d => d.teth.bridge = s.dev.teth.bridge
      ∧ d.get (F.BLK_ERR_CODE_CODE 7) = 3))) ∧
  (∀ x, s.dev.teth.bridge = some x → 100000 ≤ s.dev.elapsed x.sent → Completes .tethBrTimeout s (fun d => d.teth.bridge = none
    ∧ d.bit F.TETH_BR_STAT_BUSY = false ∧ d.get F.TETH_BR_STAT_RESULT = 7)) ∧
  (∀ x, s.dev.teth.bridge = some x → x.write = true → x.dst = 0x7F → s.dev.teth.fwd.busyTo ≤ s.dev.time.c + 1 → s.pending = [] →
    ∃ d, step s = .next { s with dev := d } ∧ d.teth.bridge = none ∧ d.bit F.TETH_BR_STAT_BUSY = false ∧ d.get F.TETH_BR_STAT_RESULT = 0
      ∧ d.testBit (F.BLK_IRQ_RAW 7) 4 = true) ∧
  (∀ x, s.dev.teth.bulk = some x → x.next < x.stop → s.dev.teth.fwd.busyTo ≤ s.dev.time.c + 1 → s.pending = [] →
    ∃ d, step s = .next { s with dev := d } ∧ d.teth.bulk = some { x with next := x.next + 1 } ∧ d.teth.fwd.busyTo = s.dev.time.c + 1901) ∧
  (s.dev.taken 7 0xA0 → s.dev.feat 24 = true → bitsAt v 0 7 = 0x7F → s.dev.bit F.TETH_BR_STAT_BUSY = false →
    s.dev.get F.TETH_BULK_FIRST_FIRST < s.dev.get F.TETH_BULK_LEN_LEN / 8 → Completes (.tethBulkGo v) s (fun d => d.bit F.TETH_BR_STAT_BUSY = true
      ∧ d.teth.bulk = some ⟨0x7F, s.dev.get F.TETH_BULK_FIRST_FIRST, s.dev.get F.TETH_BULK_LEN_LEN / 8⟩)) ∧
  (∀ x, s.dev.teth.bulk = some x → x.stop ≤ x.next → s.dev.teth.fwd.busyTo ≤ s.dev.time.c → Completes .tethBulkDone s (fun d => d.teth.bulk = none ∧ d.bit F.TETH_BR_STAT_BUSY = false
    ∧ d.testBit (F.BLK_IRQ_RAW 7) 4 = true)) ∧
  (∀ e rest, s.dev.feat 24 = true → s.dev.teth.events = e :: rest → Completes .tethEvtFifoRead s (fun d => d.teth.events = rest
    ∧ d.out = .readData 0x70A8 e :: s.dev.out ∧ KeepsRegs s.dev d [] ∧ KeepsMemory s.dev d)) ∧
  (∀ fwd ret, s.dev.power.porstLow = false → Completes (.tethLinkChange fwd ret) s (fun d => d.bit F.TETH_STAT_FWD_LOCK = fwd
    ∧ d.bit F.TETH_STAT_RET_LOCK = ret ∧ d.bit F.TETH_ADDR_LAST = !ret
    ∧ (s.dev.bit F.TETH_STAT_FWD_LOCK ≠ fwd → d.testBit (F.BLK_IRQ_RAW 7) 6 = true)))

/-- Boot, keys and images (R543–R545, R549–R559): GO checks the image that waits and starts it, or keeps waiting with the cause, one over Tether in the cycle of one taken over PCIe BUSY (log entry 112); NEXT_SRC is taken; a key is fused or
revoked only in IDENT and under R551, and shown when fusing ends; COMMIT raises the rollback floor to the running SVN; an image is staged into the other slot
and becomes READY, which both copies of the boot record then hold (log entry 47); ATTEST answers with the report; the test access port serves internal instructions in OPEN alone. -/
def Obligations.BootAndKeys : Prop := ∀ (s : State) (v : Nat),
  (s.dev.taken 8 0x58 → v / 2 ^ 31 % 2 = 1 → s.dev.boot.goAt = some s.dev.time.c → s.dev.get (F.BLK_ERR_CODE_CODE 8) = 0 → Completes (.bootGo v true) s (fun d =>
    d.get (F.BLK_ERR_CODE_CODE 8) = 3 ∧ d.boot = s.dev.boot ∧ d.get F.SEC_BOOT_CTRL_NEXT_SRC = s.dev.get F.SEC_BOOT_CTRL_NEXT_SRC)) ∧
  (∀ teth, s.dev.taken 8 0x58 → v / 2 ^ 31 % 2 = 1 → (teth = false ∨ s.dev.boot.goAt ≠ some s.dev.time.c) →
    (s.dev.state = 1 → s.dev.bit F.SEC_BOOT_STAT_WAITING = true → imageLenOk (bitsAt v 0 23) = true →
      s.dev.imageFault s.dev.sramBytes (bitsAt v 0 23) = 0 → Completes (.bootGo v teth) s (fun d => d.bit F.SEC_BOOT_STAT_WAITING = false
        ∧ (teth = false → d.boot.goAt = some s.dev.time.c) ∧ d.boot.header = s.dev.sramBytes 0 256 ∧ d.get F.SEC_SVN_RUNNING = headSvn (s.dev.sramBytes 0 256) % 256
        ∧ d.get F.SEC_FW_VER_VERSION = headWord (s.dev.sramBytes 0 256) 4 % 2 ^ 32)) ∧
    (∀ c, s.dev.state = 1 → s.dev.bit F.SEC_BOOT_STAT_WAITING = true → imageLenOk (bitsAt v 0 23) = true →
      s.dev.imageFault s.dev.sramBytes (bitsAt v 0 23) = c → c ≠ 0 → Completes (.bootGo v teth) s (fun d => d.bit F.SEC_BOOT_STAT_WAITING = true
        ∧ d.get F.SEC_BOOT_STAT_CAUSE = c % 256 ∧ d.boot.recovery = true)) ∧
    (s.dev.state ≠ 1 → s.dev.get (F.BLK_ERR_CODE_CODE 8) = 0 → Completes (.bootGo v teth) s (fun d => d.get (F.BLK_ERR_CODE_CODE 8) = 1
      ∧ d.boot = s.dev.boot))) ∧
  (∀ teth, s.dev.taken 8 0x58 → v / 2 ^ 31 % 2 = 0 → Completes (.nextSrc v teth) s (fun d => d.get F.SEC_BOOT_CTRL_NEXT_SRC = bitsAt v 23 2
    ∧ d.get F.SEC_BOOT_CTRL_LEN = bitsAt v 0 23 ∧ KeepsRegs s.dev d [F.SEC_BOOT_CTRL_NEXT_SRC, F.SEC_BOOT_CTRL_LEN] ∧ KeepsMemory s.dev d)) ∧
  (s.dev.taken 8 0xC0 → bitsAt v 16 16 = 0x4F54 → s.dev.state = 2 → s.dev.bit F.SEC_KEY_PROG_BUSY = false →
    (v / 16 % 2 = 0 → v / 8 % 2 = 1 → s.dev.testBit F.SEC_LIFE_PROG_FUSED (v % 4) = false → Completes (.keyProgram v) s (fun d =>
      d.bit F.SEC_KEY_PROG_BUSY = true ∧ d.boot.fusing = some ⟨v % 4, true, false, s.dev.keyData⟩)) ∧
    (v / 16 % 2 = 0 → v / 8 % 2 = 1 → s.dev.testBit F.SEC_LIFE_PROG_FUSED (v % 4) = true → s.dev.get (F.BLK_ERR_CODE_CODE 8) = 0 →
      Completes (.keyProgram v) s (fun d => d.boot = s.dev.boot ∧ d.get (F.BLK_ERR_CODE_CODE 8) = 2)) ∧
    (v / 16 % 2 = 1 → (v / 8 % 2 = 1 ∨ s.dev.revokeBarred (v % 4) = false) → Completes (.keyRevoke v) s (fun d => d.bit F.SEC_KEY_PROG_BUSY = true
      ∧ d.boot.fusing = some ⟨v % 4, decide (v / 8 % 2 = 1), true, s.dev.keyData⟩)) ∧
    (v / 16 % 2 = 1 → v / 8 % 2 = 0 → s.dev.revokeBarred (v % 4) = true → s.dev.get (F.BLK_ERR_CODE_CODE 8) = 0 → Completes (.keyRevoke v) s (fun d =>
      d.boot = s.dev.boot ∧ d.get (F.BLK_ERR_CODE_CODE 8) = 1 ∧ d.get (F.BLK_ERR_INFO_DETAIL 8) = 11))) ∧
  (s.dev.taken 8 0xC0 → s.dev.state ≠ 2 → s.dev.get (F.BLK_ERR_CODE_CODE 8) = 0 → ∀ i ∈ [Instr.keyProgram v, .keyRevoke v],
    Completes i s (fun d => d.boot = s.dev.boot ∧ d.get (F.BLK_ERR_CODE_CODE 8) = 1)) ∧
  (∀ x, s.dev.boot.fusing = some x → x.slot < 4 →
    (x.revoke = true → Completes (.keyDone true) s (fun d => d.testBit (if x.prog then F.SEC_LIFE_PROG_REVOKED else F.SEC_LIFE_FW_REVOKED) x.slot = true
      ∧ d.bit F.SEC_KEY_PROG_BUSY = false ∧ d.boot.fusing = none ∧ d.testBit (F.BLK_IRQ_RAW 8) 4 = true)) ∧
    (x.revoke = false → Completes (.keyDone true) s (fun d => d.testBit F.SEC_LIFE_PROG_FUSED x.slot = true ∧ d.bit F.SEC_KEY_PROG_BUSY = false
      ∧ Sparse.get d.boot.progKeys 0 x.slot = x.key + 1 ∧ d.testBit (F.BLK_IRQ_RAW 8) 4 = true)) ∧
    (x.revoke = false → s.dev.get (F.BLK_ERR_CODE_CODE 8) = 0 → Completes (.keyDone false) s (fun d => d.bit (F.BLK_STAT_FAULT 8) = true
      ∧ d.get (F.BLK_ERR_CODE_CODE 8) = 15 ∧ Sparse.get d.boot.progKeys 0 x.slot = 0 ∧ d.bit F.SEC_KEY_PROG_BUSY = false))) ∧
  (s.dev.taken 8 0x4C → v / 2 ^ 16 % 2 = 1 →
    (s.dev.state ≠ 1 → s.dev.bit F.SEC_FW_STAT_CONFIRMED = true → Completes (.svnCommit v) s (fun d =>
      d.get F.SEC_SVN_FLOOR = max (s.dev.get F.SEC_SVN_FLOOR) (s.dev.get F.SEC_SVN_RUNNING) % 256 ∧ KeepsRegs s.dev d [F.SEC_SVN_FLOOR]
        ∧ KeepsMemory s.dev d)) ∧
    (s.dev.bit F.SEC_FW_STAT_CONFIRMED = false → s.dev.get (F.BLK_ERR_CODE_CODE 8) = 0 → Completes (.svnCommit v) s (fun d =>
      d.get F.SEC_SVN_FLOOR = s.dev.get F.SEC_SVN_FLOOR ∧ d.get (F.BLK_ERR_CODE_CODE 8) = 1))) ∧
  (∀ img : Nat → Nat → List Nat, s.dev.executing 0x61 = true → s.dev.get F.SEC_FW_STAT_STAGE ≠ 1 → s.dev.arg 1 < 4 →
    s.dev.arg 0 + s.dev.arg 1 * 2 ^ 32 + s.dev.arg 2 ≤ 0x4_0000_0000 → (∀ a n, img a n = s.dev.bytes (s.dev.arg 0 + s.dev.arg 1 * 2 ^ 32 + a) n) →
    (s.dev.imageFault img (s.dev.arg 2) = 0 → s.dev.boot.single = false → Completes .fwStage s (fun d => d.cmd = none ∧ d.get F.CMD_STATUS_RESULT = 0
      ∧ d.get F.SEC_FW_STAT_STAGE = 1 ∧ d.boot.staging = some (1 - s.dev.boot.active, img 0 (headLen (img 0 256))))) ∧
    ((s.dev.imageFault img (s.dev.arg 2) = 4 ∨ s.dev.imageFault img (s.dev.arg 2) = 5) → Completes .fwStage s (fun d => d.cmd = none
      ∧ d.get F.CMD_STATUS_RESULT = 10 ∧ d.boot = s.dev.boot))) ∧
  (∀ k bs, s.dev.boot.staging = some (k, bs) →
    Completes (.fwStageDone true) s (fun d => d.get F.SEC_FW_STAT_STAGE = 2 ∧ d.boot.staged = some k ∧ d.boot.staging = none
      ∧ d.get F.SEC_FW_STAT_STAGED_SVN = headSvn bs % 256 ∧ (∀ i < bs.length, Sparse.get d.flash 0 (flashSlot k + i) = BitVec.ofNat 8 (bs.getD i 0))
      ∧ (∀ i < 16, Sparse.get d.mram 0 i = BitVec.ofNat 8 ((Dev.bootRecordBytes s.dev.boot.active (some k) s.dev.boot.trial).getD i 0)
          ∧ Sparse.get d.mram 0 (0x100 + i) = Sparse.get d.mram 0 i) ∧ d.testBit (F.BLK_IRQ_RAW 8) 3 = true) ∧
    Completes (.fwStageDone false) s (fun d => d.get F.SEC_FW_STAT_STAGE = 3 ∧ d.boot.staging = none ∧ d.boot.staged = s.dev.boot.staged
      ∧ ∀ a, Sparse.get d.flash 0 a = Sparse.get s.dev.flash 0 a)) ∧
  (s.dev.executing 0x60 = true → Completes .attest s (fun d => d.cmd = none ∧ d.get F.CMD_STATUS_RESULT = 0 ∧ ∀ n < 64, d.get (F.SEC_REPORT_REPORT n) =
    leNat (((s.dev.reportBody ++ edSign Dev.identityKey s.dev.reportBody).drop (4 * n)).take 4) % 2 ^ 32)) ∧
  Completes (.tapInstruction .extest v) s (fun d => d.boot.extest = some (v % 256) ∧ KeepsRegs s.dev d [] ∧ KeepsMemory s.dev d) ∧
  Completes (.tapInstruction .boundary v) s (fun d => d.boot.extest = none ∧ KeepsRegs s.dev d [] ∧ KeepsMemory s.dev d) ∧
  Completes (.tapInstruction .internal v) s (fun d => d.boot.extest = (if s.dev.get F.SEC_LIFE_LIFECYCLE = 0 then none else s.dev.boot.extest)
    ∧ KeepsRegs s.dev d [] ∧ KeepsMemory s.dev d)

/-! ### Calibration records and islands -/

/-- Calibration and ageing (R471, R473–R476, R480–R485): a first record of a key is written with GEN 1 into slot A, and with it both copies of the directory (their layout
is the model's, log entry 47); a commit of valve-map entries that fail names the lowest; a kind or instance that does not exist is refused, a full
store answers NOSPACE; a valid record is restored; APPLY takes the lamp proposals, without F_TRIM it is refused; a margin window shows each island's slack and
canary hits; ISL_REPLAN moves islands to their proposals, never above their ceilings, or to INIT. -/
def Obligations.CalibrationRecords : Prop := ∀ s : State,
  (∀ kind inst, s.dev.executing 0x50 = true → kind = s.dev.arg 0 % 256 → inst = s.dev.arg 0 / 256 % 256 →
    (calInstOk kind inst = false → Completes .calCommit s (fun d => d.cmd = none ∧ d.get F.CMD_STATUS_RESULT = 2 ∧ KeepsMemory s.dev d)) ∧
    (∀ src u, calInstOk kind inst = true → s.dev.calRefused kind inst (decide (s.dev.arg 0 / 2 ^ 16 % 2 = 1)) = none →
      src = s.dev.calSource kind inst (decide (s.dev.arg 0 / 2 ^ 16 % 2 = 1)) → s.dev.nvmKey kind inst = none → s.dev.nvmKeys.length < 128 →
      s.dev.freeRun ((64 + src.length + 65535) / 65536) = some u → Completes .calCommit s (fun d => d.cmd = none ∧ d.get F.CMD_STATUS_RESULT = 0
        ∧ d.get (F.CMD_RET_RET 0) = 1 ∧ d.get (F.CMD_RET_RET 1) = 0 ∧ d.nvmKeys.length = s.dev.nvmKeys.length + 1
        ∧ (∀ i < (s.dev.recordBytes kind inst 1 src).length,
            Sparse.get d.mram 0 (unitAt u + i) = BitVec.ofNat 8 ((s.dev.recordBytes kind inst 1 src).getD i 0))
        ∧ ∀ i < (Dev.dirBytes d.nvmKeys).length, Sparse.get d.mram 0 (0x1_0000 + i) = BitVec.ofNat 8 ((Dev.dirBytes d.nvmKeys).getD i 0)
            ∧ Sparse.get d.mram 0 (0x8_0000 + i) = Sparse.get d.mram 0 (0x1_0000 + i))) ∧
    (∀ j b, kind = 6 → inst < 8 → b = Dev.pickBank (s.dev.get F.PLAN_SWAP_ACTIVE) (decide (s.dev.arg 0 / 2 ^ 16 % 2 = 1)) → (List.range 256).find? (fun j => s.dev.entryBad b (256 * inst + j)) = some j → Completes .calCommit s (fun d =>
      d.cmd = none ∧ d.get F.CMD_STATUS_RESULT = 2 ∧ d.get F.PLAN_MAP_ERR_INDEX = 256 * inst + j ∧ KeepsMemory s.dev d)) ∧
    (∀ src, calInstOk kind inst = true → s.dev.calRefused kind inst (decide (s.dev.arg 0 / 2 ^ 16 % 2 = 1)) = none →
      src = s.dev.calSource kind inst (decide (s.dev.arg 0 / 2 ^ 16 % 2 = 1)) → s.dev.nvmKey kind inst = none →
      s.dev.freeRun ((64 + src.length + 65535) / 65536) = none → Completes .calCommit s (fun d => d.cmd = none ∧ d.get F.CMD_STATUS_RESULT = 11
        ∧ d.testBit (F.BLK_IRQ_RAW 9) 6 = true ∧ KeepsMemory s.dev d))) ∧
  (∀ kind inst, s.dev.executing 0x51 = true → kind = s.dev.arg 0 % 256 → inst = s.dev.arg 0 / 256 % 256 → s.dev.arg 0 / 2 ^ 17 % 2 = 0 →
    calInstOk kind inst = true →
    (s.dev.nvmKey kind inst = none → Completes .calRestore s (fun d => d.cmd = none ∧ d.get F.CMD_STATUS_RESULT = 2 ∧ KeepsMemory s.dev d)) ∧
    (∀ k x fb, s.dev.nvmKey kind inst = some k → s.dev.restoreSlot k (decide (s.dev.arg 0 / 2 ^ 16 % 2 = 1)) = some (x, fb) →
      (2 ≤ kind ∨ s.dev.recWord x 4 = s.dev.calShape kind inst) → s.dev.destPending kind inst = false → Completes .calRestore s (fun d => d.cmd = none
        ∧ d.get F.CMD_STATUS_RESULT = 0 ∧ d.get (F.CMD_RET_RET 0) = s.dev.recGen x % 2 ^ 32
        ∧ (kind = 9 → ∀ n < 16, d.get (F.TRIM_CODE_CODE n) = wordAt (s.dev.recPayload x) n % 2 ^ 14)))) ∧
  (∀ v, s.dev.taken 9 0x78 → bitsAt v 24 8 ≠ 0 →
    (bitsAt v 0 2 = 1 → s.dev.feat 20 = true → Completes (.illumApply v) s (fun d => ∀ n < 16, s.dev.bit (F.CAL_LAMP_PROP_VALID n) = true →
      d.get (F.TRIM_CODE_CODE n) = s.dev.get (F.CAL_LAMP_PROP_CODE n) % 2 ^ 14 ∧ d.get (F.CAL_LAMP_PROP_VALID n) = 0)) ∧
    (bitsAt v 0 2 = 1 → s.dev.feat 20 = false → s.dev.get (F.BLK_ERR_CODE_CODE 9) = 0 → Completes (.illumApply v) s (fun d =>
      d.get (F.BLK_ERR_CODE_CODE 9) = 5 ∧ ∀ n < 16, d.get (F.TRIM_CODE_CODE n) = s.dev.get (F.TRIM_CODE_CODE n))) ∧
    (bitsAt v 0 2 = 3 → s.dev.get (F.BLK_ERR_CODE_CODE 9) = 0 → Completes (.illumApply v) s (fun d => d.get (F.BLK_ERR_CODE_CODE 9) = 2
      ∧ d.get F.CAL_ILLUM_METHOD = s.dev.get F.CAL_ILLUM_METHOD))) ∧
  (∀ slacks canaries, 1000000000 ≤ s.dev.elapsed s.dev.isl.windowAt →
    (s.dev.bit F.DEV_ENV_STAT_THROTTLE = false → Completes (.marginWindow slacks canaries) s (fun d => d.isl.windowAt = s.dev.time.c
      ∧ ∀ i < 96, s.dev.bit (F.ISL_PT_UNREG i) = false → d.get (F.ISL_MGN_SLACK i) = slacks.getD i 0 % 65536
        ∧ d.get (F.ISL_MGN_CANARY i) = min (canaries.getD i 0) 255 ∧ d.bit (F.ISL_PT_PROP_VALID i) = true)) ∧
    (s.dev.bit F.DEV_ENV_STAT_THROTTLE = true → Completes (.marginWindow slacks canaries) s (fun d => d.isl.windowAt = s.dev.time.c
      ∧ KeepsRegs s.dev d [] ∧ KeepsMemory s.dev d))) ∧
  (∀ dlys devs, s.dev.executing 0x52 = true → (s.dev.state = 4 ∨ s.dev.state = 8) →
    (s.dev.arg 0 % 2 = 0 → Completes (.islReplan dlys devs) s (fun d => d.cmd = none ∧ d.get F.CMD_STATUS_RESULT = 0
      ∧ (∀ i < 96, s.dev.arg (1 + i / 32) / 2 ^ (i % 32) % 2 = 1 → s.dev.bit (F.ISL_PT_UNREG i) = false → Dev.isEngIsland i = false →
        s.dev.bit (F.ISL_PT_PROP_VALID i) = true → d.get (F.ISL_PT_VCODE i) =
          min (s.dev.get (F.ISL_PT_PROP i)) (min (s.dev.get (F.ISL_PT_INIT i) + s.dev.get F.ISL_LIMIT_HEADROOM) 30))
      ∧ ∀ e < 64, s.dev.arg (1 + (21 + e) / 32) / 2 ^ ((21 + e) % 32) % 2 = 1 → s.dev.bit (F.ISL_PT_UNREG (21 + e)) = false → ∀ p < 4,
          (d.eng e).points.getD p 0 ≤ min (Dev.pointInit.getD p 0 + s.dev.get F.ISL_LIMIT_HEADROOM) 30)) ∧
    (s.dev.arg 0 % 2 = 1 → Completes (.islReplanInit dlys devs) s (fun d => d.cmd = none ∧ d.get F.CMD_STATUS_RESULT = 0
      ∧ ∀ i < 96, s.dev.arg (1 + i / 32) / 2 ^ (i % 32) % 2 = 1 → s.dev.bit (F.ISL_PT_UNREG i) = false → Dev.isEngIsland i = false →
        d.get (F.ISL_PT_VCODE i) = s.dev.get (F.ISL_PT_INIT i) % 32)))
end

