-- ==== Sys2Proof/Laws/Sparse.lean ====
section
/-! SUPPORT. Sparse data: what a lookup finds after a change, and the canonical form that every change keeps. -/

namespace Sys2Proof.Machine.Sparse

variable {α : Type}

/-! ### Lookups -/

@[simp] theorem find?_nil (k : Nat) : find? ([] : List (Nat × α)) k = none := rfl

theorem erase_cons (e : Nat × α) (m : List (Nat × α)) (k : Nat) : erase (e :: m) k = if e.1 = k then erase m k else e :: erase m k := by
  by_cases h : e.1 = k <;> simp [erase, h]

@[simp] theorem find?_erase_self (m : List (Nat × α)) (k : Nat) : find? (erase m k) k = none := by
  induction m with
  | nil => rfl
  | cons e m ih => rw [erase_cons]; split <;> simp [find?, *]

theorem find?_erase_ne (m : List (Nat × α)) {k k' : Nat} (h : k' ≠ k) : find? (erase m k) k' = find? m k' := by
  induction m with
  | nil => rfl
  | cons e m ih =>
    obtain ⟨k1, v1⟩ := e
    rw [erase_cons]
    split
    · next h1 => rw [ih, find?, if_neg (by simp only at h1; omega)]
    · simp [find?, ih]

theorem find?_insert_self {m : List (Nat × α)} {k : Nat} (v : α) (h : find? m k = none) : find? (insert m k v) k = some v := by
  induction m with
  | nil => simp [insert, find?]
  | cons e m ih =>
    obtain ⟨k1, v1⟩ := e
    by_cases h1 : k1 = k
    · simp [find?, h1] at h
    · by_cases h2 : k < k1
      · simp [insert, h2, find?]
      · simp only [find?, h1, if_false] at h
        simp [insert, h2, find?, h1, ih h]

theorem find?_insert_ne (m : List (Nat × α)) {k k' : Nat} (v : α) (h : k' ≠ k) : find? (insert m k v) k' = find? m k' := by
  induction m with
  | nil => simp [insert, find?, Ne.symm h]
  | cons e m ih =>
    obtain ⟨k1, v1⟩ := e
    by_cases h2 : k < k1
    · simp [insert, h2, find?, Ne.symm h]
    · simp [insert, h2, find?, ih]

/-- Keeping the entries of some keys keeps what those keys read as. -/
theorem find?_filter (m : List (Nat × α)) (q : Nat → Bool) (k : Nat) :
    find? (m.filter (fun e => q e.1)) k = if q k then find? m k else none := by
  induction m with
  | nil => simp
  | cons e m ih =>
    obtain ⟨k1, v1⟩ := e
    by_cases h1 : k1 = k
    · subst h1
      cases hq : q k1 <;> simp [hq, find?, ih]
    · cases hq : q k1 <;> simp [hq, find?, h1, ih]

/-- A whole list kept where each step keeps a part: the part after a fold is the part before. -/
theorem foldl_keep {β γ δ : Type} (g : β → γ → β) (π : β → δ) (h : ∀ b c, π (g b c) = π b) (l : List γ) (b : β) : π (l.foldl g b) = π b := by
  induction l generalizing b with
  | nil => rfl
  | cons c l ih => rw [List.foldl_cons, ih, h]

/-- A property that each step keeps holds after a fold. -/
theorem foldl_keeps {β γ : Type} (g : β → γ → β) (P : β → Prop) (h : ∀ b c, P b → P (g b c)) (l : List γ) (b : β) (hb : P b) : P (l.foldl g b) := by
  induction l generalizing b with
  | nil => exact hb
  | cons c l ih => exact ih _ (h _ _ hb)

/-! ### The canonical form -/

/-- Keys strictly rising, as a property of every pair. -/
theorem sorted_iff (m : List (Nat × α)) : sorted m = true ↔ (m.map Prod.fst).Pairwise (· < ·) := by
  induction m with
  | nil => simp [sorted]
  | cons e m ih =>
    cases m with
    | nil => simp [sorted]
    | cons e' m =>
      obtain ⟨k, v⟩ := e
      obtain ⟨k', v'⟩ := e'
      simp only [sorted, Bool.and_eq_true, decide_eq_true_eq, ih, List.map_cons, List.pairwise_cons, List.mem_cons]
      constructor
      · rintro ⟨h, h1, h2⟩
        exact ⟨fun x hx => by
          rcases hx with rfl | hx
          · exact h
          · exact h.trans (h1 x hx), h1, h2⟩
      · rintro ⟨h, h1, h2⟩
        exact ⟨h k' (Or.inl rfl), h1, h2⟩

theorem sorted_erase {m : List (Nat × α)} (k : Nat) (h : sorted m = true) : sorted (erase m k) = true := by
  rw [sorted_iff] at *
  exact h.sublist (List.filter_sublist.map _)

theorem mem_erase_ne {m : List (Nat × α)} {k x : Nat} (h : x ∈ (erase m k).map Prod.fst) : x ≠ k := by
  simp only [erase, List.mem_map, List.mem_filter, decide_eq_true_eq] at h
  obtain ⟨e, ⟨-, h1⟩, rfl⟩ := h
  exact h1

theorem mem_insert_keys (m : List (Nat × α)) (k : Nat) (v : α) (x : Nat) :
    x ∈ (insert m k v).map Prod.fst ↔ x = k ∨ x ∈ m.map Prod.fst := by
  induction m with
  | nil => simp [insert]
  | cons e m ih =>
    obtain ⟨k1, v1⟩ := e
    by_cases h : k < k1
    · simp [insert, h]
    · simp only [insert, h, if_false, List.map_cons, List.mem_cons, ih]
      tauto

theorem sorted_insert {m : List (Nat × α)} {k : Nat} (v : α) (h : sorted m = true) (hk : ∀ x ∈ m.map Prod.fst, x ≠ k) :
    sorted (insert m k v) = true := by
  rw [sorted_iff] at *
  induction m with
  | nil => simp [insert]
  | cons e m ih =>
    obtain ⟨k1, v1⟩ := e
    simp only [List.map_cons, List.pairwise_cons] at h
    by_cases h2 : k < k1
    · simp only [insert, h2, if_true, List.map_cons, List.pairwise_cons, List.mem_cons]
      exact ⟨fun x hx => by
        rcases hx with rfl | hx
        · exact h2
        · exact h2.trans (h.1 x hx), h.1, h.2⟩
    · have h3 : k1 < k := lt_of_le_of_ne (not_lt.mp h2) (hk k1 (by simp))
      simp only [insert, h2, if_false, List.map_cons, List.pairwise_cons]
      refine ⟨fun x hx => ?_, ih h.2 (fun x hx => hk x (by simp [hx]))⟩
      rcases (mem_insert_keys m k v x).mp hx with rfl | hx
      · exact h3
      · exact h.1 x hx

theorem all_insert (m : List (Nat × α)) (k : Nat) (v : α) (p : Nat × α → Bool) : (insert m k v).all p = (p (k, v) && m.all p) := by
  induction m with
  | nil => simp [insert]
  | cons e m ih =>
    obtain ⟨k1, v1⟩ := e
    by_cases h : k < k1
    · simp [insert, h]
    · simp only [insert, h, if_false, List.all_cons, ih]
      cases p (k, v) <;> cases p (k1, v1) <;> rfl

theorem all_erase {m : List (Nat × α)} {p : Nat × α → Bool} (k : Nat) (h : m.all p = true) : (erase m k).all p = true := by
  simp only [erase, List.all_eq_true, List.mem_filter] at *
  exact fun e he => h e he.1

variable [DecidableEq α]

/-- What was put at a key is read there. -/
@[simp] theorem get_set_self (m : List (Nat × α)) (d : α) (k : Nat) (v : α) : get (set m d k v) d k = v := by
  unfold get set
  split
  · simp [*]
  · rw [find?_insert_self v (find?_erase_self m k)]; rfl

/-- Every other key reads as before, over any default. -/
theorem get_set_ne (m : List (Nat × α)) (d d' : α) {k k' : Nat} (v : α) (h : k' ≠ k) : get (set m d k v) d' k' = get m d' k' := by
  unfold get set
  split
  · rw [find?_erase_ne m h]
  · rw [find?_insert_ne _ v h, find?_erase_ne m h]

/-- A change of one key keeps the canonical form. -/
theorem wf_set {d : α} {m : List (Nat × α)} (k : Nat) (v : α) (h : wf d m = true) : wf d (set m d k v) = true := by
  simp only [wf, Bool.and_eq_true] at *
  unfold set
  split
  · exact ⟨sorted_erase k h.1, all_erase k h.2⟩
  · refine ⟨sorted_insert v (sorted_erase k h.1) (fun x hx => mem_erase_ne hx), ?_⟩
    rw [all_insert, all_erase k h.2]
    simp [*]

theorem sorted_set {d : α} {m : List (Nat × α)} (k : Nat) (v : α) (h : sorted m = true) : sorted (set m d k v) = true := by
  unfold set
  split
  · exact sorted_erase k h
  · exact sorted_insert v (sorted_erase k h) (fun x hx => mem_erase_ne hx)

/-- A part of canonical data is canonical. -/
theorem wf_filter {d : α} {m : List (Nat × α)} (p : Nat × α → Bool) (h : wf d m = true) : wf d (m.filter p) = true := by
  simp only [wf, Bool.and_eq_true, sorted_iff, List.all_eq_true, List.mem_filter] at *
  exact ⟨h.1.sublist (List.filter_sublist.map _), fun e he => h.2 e he.1⟩

theorem wf_foldl_set {d : α} (cs m : List (Nat × α)) (h : wf d m = true) : wf d (cs.foldl (fun m c => set m d c.1 c.2) m) = true := by
  induction cs generalizing m with
  | nil => exact h
  | cons c cs ih => exact ih _ (wf_set _ _ h)

/-! ### `canon` and `tidy` -/

theorem wf_foldr (d : α) (m : List (Nat × α)) : wf d (m.foldr (fun e acc => set acc d e.1 e.2) []) = true := by
  induction m with
  | nil => rfl
  | cons e m ih => exact wf_set _ _ ih

theorem get_foldr (d : α) (m : List (Nat × α)) (k : Nat) : get (m.foldr (fun e acc => set acc d e.1 e.2) []) d k = get m d k := by
  induction m with
  | nil => rfl
  | cons e m ih =>
    obtain ⟨k1, v1⟩ := e
    rw [List.foldr_cons]
    by_cases h : k = k1
    · subst h
      rw [get_set_self]
      simp [get, find?]
    · rw [get_set_ne _ d d _ h, ih]
      simp [get, find?, Ne.symm h]

/-- `canon` gives the canonical form. -/
@[simp] theorem wf_canon (d : α) (m : List (Nat × α)) : wf d (canon d m) = true := by
  unfold canon
  split
  · assumption
  · exact wf_foldr d m

/-- Nothing reads otherwise. -/
@[simp] theorem get_canon (d : α) (m : List (Nat × α)) (k : Nat) : get (canon d m) d k = get m d k := by
  unfold canon
  split
  · rfl
  · exact get_foldr d m k

theorem canon_of_wf {d : α} {m : List (Nat × α)} (h : wf d m = true) : canon d m = m := by simp [canon, h]

omit [DecidableEq α]

theorem sorted_foldr (m : List (Nat × α)) : sorted (m.foldr (fun e acc => insert (erase acc e.1) e.1 e.2) []) = true := by
  induction m with
  | nil => rfl
  | cons e m ih => exact sorted_insert _ (sorted_erase _ ih) (fun x hx => mem_erase_ne hx)

theorem find?_foldr (m : List (Nat × α)) (k : Nat) : find? (m.foldr (fun e acc => insert (erase acc e.1) e.1 e.2) []) k = find? m k := by
  induction m with
  | nil => rfl
  | cons e m ih =>
    obtain ⟨k1, v1⟩ := e
    rw [List.foldr_cons]
    by_cases h : k = k1
    · subst h
      rw [find?_insert_self v1 (find?_erase_self _ k)]
      simp [find?]
    · rw [find?_insert_ne _ v1 h, find?_erase_ne _ h, ih]
      simp [find?, Ne.symm h]

/-- `tidy` gives rising keys. -/
@[simp] theorem sorted_tidy (m : List (Nat × α)) : sorted (tidy m) = true := by
  unfold tidy
  split
  · assumption
  · exact sorted_foldr m

/-- Nothing reads otherwise. -/
@[simp] theorem find?_tidy (m : List (Nat × α)) (k : Nat) : find? (tidy m) k = find? m k := by
  unfold tidy
  split
  · rfl
  · exact find?_foldr m k

@[simp] theorem get_tidy (m : List (Nat × α)) (d : α) (k : Nat) : get (tidy m) d k = get m d k := by simp [get]

end Sys2Proof.Machine.Sparse
end

