-- ==== Sys2Proof/Laws/State.lean ====
section
/-! SUPPORT. What each plain update of the device leaves alone: one lemma per field of the device and update, all true by definition. -/

namespace Sys2Proof.Machine.Dev

variable (d : Dev)

/-! ### `set` -/

@[simp] theorem set_mem (f : Fld) (v : Nat) : (d.set f v).mem = d.mem := rfl
@[simp] theorem set_host (f : Fld) (v : Nat) : (d.set f v).host = d.host := rfl
@[simp] theorem set_flash (f : Fld) (v : Nat) : (d.set f v).flash = d.flash := rfl
@[simp] theorem set_mram (f : Fld) (v : Nat) : (d.set f v).mram = d.mram := rfl
@[simp] theorem set_free (f : Fld) (v : Nat) : (d.set f v).free = d.free := rfl
@[simp] theorem set_out (f : Fld) (v : Nat) : (d.set f v).out = d.out := rfl
@[simp] theorem set_pins (f : Fld) (v : Nat) : (d.set f v).pins = d.pins := rfl
@[simp] theorem set_time (f : Fld) (v : Nat) : (d.set f v).time = d.time := rfl
@[simp] theorem set_power (f : Fld) (v : Nat) : (d.set f v).power = d.power := rfl
@[simp] theorem set_pcie (f : Fld) (v : Nat) : (d.set f v).pcie = d.pcie := rfl
@[simp] theorem set_cmd (f : Fld) (v : Nat) : (d.set f v).cmd = d.cmd := rfl
@[simp] theorem set_queues (f : Fld) (v : Nat) : (d.set f v).queues = d.queues := rfl
@[simp] theorem set_mer (f : Fld) (v : Nat) : (d.set f v).mer = d.mer := rfl
@[simp] theorem set_accepted (f : Fld) (v : Nat) : (d.set f v).accepted = d.accepted := rfl
@[simp] theorem set_ports (f : Fld) (v : Nat) : (d.set f v).ports = d.ports := rfl
@[simp] theorem set_gens (f : Fld) (v : Nat) : (d.set f v).gens = d.gens := rfl
@[simp] theorem set_slotsOut (f : Fld) (v : Nat) : (d.set f v).slotsOut = d.slotsOut := rfl
@[simp] theorem set_lanes (f : Fld) (v : Nat) : (d.set f v).lanes = d.lanes := rfl
@[simp] theorem set_swaps (f : Fld) (v : Nat) : (d.set f v).swaps = d.swaps := rfl
@[simp] theorem set_due (f : Fld) (v : Nat) : (d.set f v).due = d.due := rfl
@[simp] theorem set_staleAge (f : Fld) (v : Nat) : (d.set f v).staleAge = d.staleAge := rfl
@[simp] theorem set_nrModel (f : Fld) (v : Nat) : (d.set f v).nrModel = d.nrModel := rfl
@[simp] theorem set_tmState (f : Fld) (v : Nat) : (d.set f v).tmState = d.tmState := rfl
@[simp] theorem set_focLive (f : Fld) (v : Nat) : (d.set f v).focLive = d.focLive := rfl
@[simp] theorem set_focSnap (f : Fld) (v : Nat) : (d.set f v).focSnap = d.focSnap := rfl
@[simp] theorem set_zones (f : Fld) (v : Nat) : (d.set f v).zones = d.zones := rfl
@[simp] theorem set_zoneRows (f : Fld) (v : Nat) : (d.set f v).zoneRows = d.zoneRows := rfl
@[simp] theorem set_corOut (f : Fld) (v : Nat) : (d.set f v).corOut = d.corOut := rfl
@[simp] theorem set_fgRows (f : Fld) (v : Nat) : (d.set f v).fgRows = d.fgRows := rfl
@[simp] theorem set_geoHist (f : Fld) (v : Nat) : (d.set f v).geoHist = d.geoHist := rfl
@[simp] theorem set_seams (f : Fld) (v : Nat) : (d.set f v).seams = d.seams := rfl
@[simp] theorem set_arSwapped (f : Fld) (v : Nat) : (d.set f v).arSwapped = d.arSwapped := rfl
@[simp] theorem set_arSteps (f : Fld) (v : Nat) : (d.set f v).arSteps = d.arSteps := rfl
@[simp] theorem set_ofsWrites (f : Fld) (v : Nat) : (d.set f v).ofsWrites = d.ofsWrites := rfl
@[simp] theorem set_skyOut (f : Fld) (v : Nat) : (d.set f v).skyOut = d.skyOut := rfl
@[simp] theorem set_seg (f : Fld) (v : Nat) : (d.set f v).seg = d.seg := rfl
@[simp] theorem set_engines (f : Fld) (v : Nat) : (d.set f v).engines = d.engines := rfl
@[simp] theorem set_plan (f : Fld) (v : Nat) : (d.set f v).plan = d.plan := rfl
@[simp] theorem set_mots (f : Fld) (v : Nat) : (d.set f v).mots = d.mots := rfl
@[simp] theorem set_motReps (f : Fld) (v : Nat) : (d.set f v).motReps = d.motReps := rfl
@[simp] theorem set_hitLatch (f : Fld) (v : Nat) : (d.set f v).hitLatch = d.hitLatch := rfl
@[simp] theorem set_cmpAt (f : Fld) (v : Nat) : (d.set f v).cmpAt = d.cmpAt := rfl
@[simp] theorem set_sigs (f : Fld) (v : Nat) : (d.set f v).sigs = d.sigs := rfl
@[simp] theorem set_trim (f : Fld) (v : Nat) : (d.set f v).trim = d.trim := rfl
@[simp] theorem set_clock (f : Fld) (v : Nat) : (d.set f v).clock = d.clock := rfl
@[simp] theorem set_timing (f : Fld) (v : Nat) : (d.set f v).timing = d.timing := rfl
@[simp] theorem set_net (f : Fld) (v : Nat) : (d.set f v).net = d.net := rfl
@[simp] theorem set_pack (f : Fld) (v : Nat) : (d.set f v).pack = d.pack := rfl
@[simp] theorem set_rings (f : Fld) (v : Nat) : (d.set f v).rings = d.rings := rfl
@[simp] theorem set_arb (f : Fld) (v : Nat) : (d.set f v).arb = d.arb := rfl
@[simp] theorem set_recLeft (f : Fld) (v : Nat) : (d.set f v).recLeft = d.recLeft := rfl
@[simp] theorem set_sampled (f : Fld) (v : Nat) : (d.set f v).sampled = d.sampled := rfl
@[simp] theorem set_nvmKeys (f : Fld) (v : Nat) : (d.set f v).nvmKeys = d.nvmKeys := rfl
@[simp] theorem set_nvmWear (f : Fld) (v : Nat) : (d.set f v).nvmWear = d.nvmWear := rfl
@[simp] theorem set_nvmRetired (f : Fld) (v : Nat) : (d.set f v).nvmRetired = d.nvmRetired := rfl
@[simp] theorem set_illumDt (f : Fld) (v : Nat) : (d.set f v).illumDt = d.illumDt := rfl
@[simp] theorem set_isl (f : Fld) (v : Nat) : (d.set f v).isl = d.isl := rfl
@[simp] theorem set_monitors (f : Fld) (v : Nat) : (d.set f v).monitors = d.monitors := rfl
@[simp] theorem set_obs (f : Fld) (v : Nat) : (d.set f v).obs = d.obs := rfl
@[simp] theorem set_crcUnits (f : Fld) (v : Nat) : (d.set f v).crcUnits = d.crcUnits := rfl
@[simp] theorem set_teth (f : Fld) (v : Nat) : (d.set f v).teth = d.teth := rfl
@[simp] theorem set_boot (f : Fld) (v : Nat) : (d.set f v).boot = d.boot := rfl
@[simp] theorem set_accErr (f : Fld) (v : Nat) : (d.set f v).accErr = d.accErr := rfl

/-! ### `put` -/

@[simp] theorem put_mem (f : Fld) (b : Bool) : (d.put f b).mem = d.mem := rfl
@[simp] theorem put_host (f : Fld) (b : Bool) : (d.put f b).host = d.host := rfl
@[simp] theorem put_flash (f : Fld) (b : Bool) : (d.put f b).flash = d.flash := rfl
@[simp] theorem put_mram (f : Fld) (b : Bool) : (d.put f b).mram = d.mram := rfl
@[simp] theorem put_free (f : Fld) (b : Bool) : (d.put f b).free = d.free := rfl
@[simp] theorem put_out (f : Fld) (b : Bool) : (d.put f b).out = d.out := rfl
@[simp] theorem put_pins (f : Fld) (b : Bool) : (d.put f b).pins = d.pins := rfl
@[simp] theorem put_time (f : Fld) (b : Bool) : (d.put f b).time = d.time := rfl
@[simp] theorem put_power (f : Fld) (b : Bool) : (d.put f b).power = d.power := rfl
@[simp] theorem put_pcie (f : Fld) (b : Bool) : (d.put f b).pcie = d.pcie := rfl
@[simp] theorem put_cmd (f : Fld) (b : Bool) : (d.put f b).cmd = d.cmd := rfl
@[simp] theorem put_queues (f : Fld) (b : Bool) : (d.put f b).queues = d.queues := rfl
@[simp] theorem put_mer (f : Fld) (b : Bool) : (d.put f b).mer = d.mer := rfl
@[simp] theorem put_accepted (f : Fld) (b : Bool) : (d.put f b).accepted = d.accepted := rfl
@[simp] theorem put_ports (f : Fld) (b : Bool) : (d.put f b).ports = d.ports := rfl
@[simp] theorem put_gens (f : Fld) (b : Bool) : (d.put f b).gens = d.gens := rfl
@[simp] theorem put_slotsOut (f : Fld) (b : Bool) : (d.put f b).slotsOut = d.slotsOut := rfl
@[simp] theorem put_lanes (f : Fld) (b : Bool) : (d.put f b).lanes = d.lanes := rfl
@[simp] theorem put_swaps (f : Fld) (b : Bool) : (d.put f b).swaps = d.swaps := rfl
@[simp] theorem put_due (f : Fld) (b : Bool) : (d.put f b).due = d.due := rfl
@[simp] theorem put_staleAge (f : Fld) (b : Bool) : (d.put f b).staleAge = d.staleAge := rfl
@[simp] theorem put_nrModel (f : Fld) (b : Bool) : (d.put f b).nrModel = d.nrModel := rfl
@[simp] theorem put_tmState (f : Fld) (b : Bool) : (d.put f b).tmState = d.tmState := rfl
@[simp] theorem put_focLive (f : Fld) (b : Bool) : (d.put f b).focLive = d.focLive := rfl
@[simp] theorem put_focSnap (f : Fld) (b : Bool) : (d.put f b).focSnap = d.focSnap := rfl
@[simp] theorem put_zones (f : Fld) (b : Bool) : (d.put f b).zones = d.zones := rfl
@[simp] theorem put_zoneRows (f : Fld) (b : Bool) : (d.put f b).zoneRows = d.zoneRows := rfl
@[simp] theorem put_corOut (f : Fld) (b : Bool) : (d.put f b).corOut = d.corOut := rfl
@[simp] theorem put_fgRows (f : Fld) (b : Bool) : (d.put f b).fgRows = d.fgRows := rfl
@[simp] theorem put_geoHist (f : Fld) (b : Bool) : (d.put f b).geoHist = d.geoHist := rfl
@[simp] theorem put_seams (f : Fld) (b : Bool) : (d.put f b).seams = d.seams := rfl
@[simp] theorem put_arSwapped (f : Fld) (b : Bool) : (d.put f b).arSwapped = d.arSwapped := rfl
@[simp] theorem put_arSteps (f : Fld) (b : Bool) : (d.put f b).arSteps = d.arSteps := rfl
@[simp] theorem put_ofsWrites (f : Fld) (b : Bool) : (d.put f b).ofsWrites = d.ofsWrites := rfl
@[simp] theorem put_skyOut (f : Fld) (b : Bool) : (d.put f b).skyOut = d.skyOut := rfl
@[simp] theorem put_seg (f : Fld) (b : Bool) : (d.put f b).seg = d.seg := rfl
@[simp] theorem put_engines (f : Fld) (b : Bool) : (d.put f b).engines = d.engines := rfl
@[simp] theorem put_plan (f : Fld) (b : Bool) : (d.put f b).plan = d.plan := rfl
@[simp] theorem put_mots (f : Fld) (b : Bool) : (d.put f b).mots = d.mots := rfl
@[simp] theorem put_motReps (f : Fld) (b : Bool) : (d.put f b).motReps = d.motReps := rfl
@[simp] theorem put_hitLatch (f : Fld) (b : Bool) : (d.put f b).hitLatch = d.hitLatch := rfl
@[simp] theorem put_cmpAt (f : Fld) (b : Bool) : (d.put f b).cmpAt = d.cmpAt := rfl
@[simp] theorem put_sigs (f : Fld) (b : Bool) : (d.put f b).sigs = d.sigs := rfl
@[simp] theorem put_trim (f : Fld) (b : Bool) : (d.put f b).trim = d.trim := rfl
@[simp] theorem put_clock (f : Fld) (b : Bool) : (d.put f b).clock = d.clock := rfl
@[simp] theorem put_timing (f : Fld) (b : Bool) : (d.put f b).timing = d.timing := rfl
@[simp] theorem put_net (f : Fld) (b : Bool) : (d.put f b).net = d.net := rfl
@[simp] theorem put_pack (f : Fld) (b : Bool) : (d.put f b).pack = d.pack := rfl
@[simp] theorem put_rings (f : Fld) (b : Bool) : (d.put f b).rings = d.rings := rfl
@[simp] theorem put_arb (f : Fld) (b : Bool) : (d.put f b).arb = d.arb := rfl
@[simp] theorem put_recLeft (f : Fld) (b : Bool) : (d.put f b).recLeft = d.recLeft := rfl
@[simp] theorem put_sampled (f : Fld) (b : Bool) : (d.put f b).sampled = d.sampled := rfl
@[simp] theorem put_nvmKeys (f : Fld) (b : Bool) : (d.put f b).nvmKeys = d.nvmKeys := rfl
@[simp] theorem put_nvmWear (f : Fld) (b : Bool) : (d.put f b).nvmWear = d.nvmWear := rfl
@[simp] theorem put_nvmRetired (f : Fld) (b : Bool) : (d.put f b).nvmRetired = d.nvmRetired := rfl
@[simp] theorem put_illumDt (f : Fld) (b : Bool) : (d.put f b).illumDt = d.illumDt := rfl
@[simp] theorem put_isl (f : Fld) (b : Bool) : (d.put f b).isl = d.isl := rfl
@[simp] theorem put_monitors (f : Fld) (b : Bool) : (d.put f b).monitors = d.monitors := rfl
@[simp] theorem put_obs (f : Fld) (b : Bool) : (d.put f b).obs = d.obs := rfl
@[simp] theorem put_crcUnits (f : Fld) (b : Bool) : (d.put f b).crcUnits = d.crcUnits := rfl
@[simp] theorem put_teth (f : Fld) (b : Bool) : (d.put f b).teth = d.teth := rfl
@[simp] theorem put_boot (f : Fld) (b : Bool) : (d.put f b).boot = d.boot := rfl
@[simp] theorem put_accErr (f : Fld) (b : Bool) : (d.put f b).accErr = d.accErr := rfl

/-! ### `count` -/

@[simp] theorem count_mem (f : Fld) (n : Nat) : (d.count f n).mem = d.mem := rfl
@[simp] theorem count_host (f : Fld) (n : Nat) : (d.count f n).host = d.host := rfl
@[simp] theorem count_flash (f : Fld) (n : Nat) : (d.count f n).flash = d.flash := rfl
@[simp] theorem count_mram (f : Fld) (n : Nat) : (d.count f n).mram = d.mram := rfl
@[simp] theorem count_free (f : Fld) (n : Nat) : (d.count f n).free = d.free := rfl
@[simp] theorem count_out (f : Fld) (n : Nat) : (d.count f n).out = d.out := rfl
@[simp] theorem count_pins (f : Fld) (n : Nat) : (d.count f n).pins = d.pins := rfl
@[simp] theorem count_time (f : Fld) (n : Nat) : (d.count f n).time = d.time := rfl
@[simp] theorem count_power (f : Fld) (n : Nat) : (d.count f n).power = d.power := rfl
@[simp] theorem count_pcie (f : Fld) (n : Nat) : (d.count f n).pcie = d.pcie := rfl
@[simp] theorem count_cmd (f : Fld) (n : Nat) : (d.count f n).cmd = d.cmd := rfl
@[simp] theorem count_queues (f : Fld) (n : Nat) : (d.count f n).queues = d.queues := rfl
@[simp] theorem count_mer (f : Fld) (n : Nat) : (d.count f n).mer = d.mer := rfl
@[simp] theorem count_accepted (f : Fld) (n : Nat) : (d.count f n).accepted = d.accepted := rfl
@[simp] theorem count_ports (f : Fld) (n : Nat) : (d.count f n).ports = d.ports := rfl
@[simp] theorem count_gens (f : Fld) (n : Nat) : (d.count f n).gens = d.gens := rfl
@[simp] theorem count_slotsOut (f : Fld) (n : Nat) : (d.count f n).slotsOut = d.slotsOut := rfl
@[simp] theorem count_lanes (f : Fld) (n : Nat) : (d.count f n).lanes = d.lanes := rfl
@[simp] theorem count_swaps (f : Fld) (n : Nat) : (d.count f n).swaps = d.swaps := rfl
@[simp] theorem count_due (f : Fld) (n : Nat) : (d.count f n).due = d.due := rfl
@[simp] theorem count_staleAge (f : Fld) (n : Nat) : (d.count f n).staleAge = d.staleAge := rfl
@[simp] theorem count_nrModel (f : Fld) (n : Nat) : (d.count f n).nrModel = d.nrModel := rfl
@[simp] theorem count_tmState (f : Fld) (n : Nat) : (d.count f n).tmState = d.tmState := rfl
@[simp] theorem count_focLive (f : Fld) (n : Nat) : (d.count f n).focLive = d.focLive := rfl
@[simp] theorem count_focSnap (f : Fld) (n : Nat) : (d.count f n).focSnap = d.focSnap := rfl
@[simp] theorem count_zones (f : Fld) (n : Nat) : (d.count f n).zones = d.zones := rfl
@[simp] theorem count_zoneRows (f : Fld) (n : Nat) : (d.count f n).zoneRows = d.zoneRows := rfl
@[simp] theorem count_corOut (f : Fld) (n : Nat) : (d.count f n).corOut = d.corOut := rfl
@[simp] theorem count_fgRows (f : Fld) (n : Nat) : (d.count f n).fgRows = d.fgRows := rfl
@[simp] theorem count_geoHist (f : Fld) (n : Nat) : (d.count f n).geoHist = d.geoHist := rfl
@[simp] theorem count_seams (f : Fld) (n : Nat) : (d.count f n).seams = d.seams := rfl
@[simp] theorem count_arSwapped (f : Fld) (n : Nat) : (d.count f n).arSwapped = d.arSwapped := rfl
@[simp] theorem count_arSteps (f : Fld) (n : Nat) : (d.count f n).arSteps = d.arSteps := rfl
@[simp] theorem count_ofsWrites (f : Fld) (n : Nat) : (d.count f n).ofsWrites = d.ofsWrites := rfl
@[simp] theorem count_skyOut (f : Fld) (n : Nat) : (d.count f n).skyOut = d.skyOut := rfl
@[simp] theorem count_seg (f : Fld) (n : Nat) : (d.count f n).seg = d.seg := rfl
@[simp] theorem count_engines (f : Fld) (n : Nat) : (d.count f n).engines = d.engines := rfl
@[simp] theorem count_plan (f : Fld) (n : Nat) : (d.count f n).plan = d.plan := rfl
@[simp] theorem count_mots (f : Fld) (n : Nat) : (d.count f n).mots = d.mots := rfl
@[simp] theorem count_motReps (f : Fld) (n : Nat) : (d.count f n).motReps = d.motReps := rfl
@[simp] theorem count_hitLatch (f : Fld) (n : Nat) : (d.count f n).hitLatch = d.hitLatch := rfl
@[simp] theorem count_cmpAt (f : Fld) (n : Nat) : (d.count f n).cmpAt = d.cmpAt := rfl
@[simp] theorem count_sigs (f : Fld) (n : Nat) : (d.count f n).sigs = d.sigs := rfl
@[simp] theorem count_trim (f : Fld) (n : Nat) : (d.count f n).trim = d.trim := rfl
@[simp] theorem count_clock (f : Fld) (n : Nat) : (d.count f n).clock = d.clock := rfl
@[simp] theorem count_timing (f : Fld) (n : Nat) : (d.count f n).timing = d.timing := rfl
@[simp] theorem count_net (f : Fld) (n : Nat) : (d.count f n).net = d.net := rfl
@[simp] theorem count_pack (f : Fld) (n : Nat) : (d.count f n).pack = d.pack := rfl
@[simp] theorem count_rings (f : Fld) (n : Nat) : (d.count f n).rings = d.rings := rfl
@[simp] theorem count_arb (f : Fld) (n : Nat) : (d.count f n).arb = d.arb := rfl
@[simp] theorem count_recLeft (f : Fld) (n : Nat) : (d.count f n).recLeft = d.recLeft := rfl
@[simp] theorem count_sampled (f : Fld) (n : Nat) : (d.count f n).sampled = d.sampled := rfl
@[simp] theorem count_nvmKeys (f : Fld) (n : Nat) : (d.count f n).nvmKeys = d.nvmKeys := rfl
@[simp] theorem count_nvmWear (f : Fld) (n : Nat) : (d.count f n).nvmWear = d.nvmWear := rfl
@[simp] theorem count_nvmRetired (f : Fld) (n : Nat) : (d.count f n).nvmRetired = d.nvmRetired := rfl
@[simp] theorem count_illumDt (f : Fld) (n : Nat) : (d.count f n).illumDt = d.illumDt := rfl
@[simp] theorem count_isl (f : Fld) (n : Nat) : (d.count f n).isl = d.isl := rfl
@[simp] theorem count_monitors (f : Fld) (n : Nat) : (d.count f n).monitors = d.monitors := rfl
@[simp] theorem count_obs (f : Fld) (n : Nat) : (d.count f n).obs = d.obs := rfl
@[simp] theorem count_crcUnits (f : Fld) (n : Nat) : (d.count f n).crcUnits = d.crcUnits := rfl
@[simp] theorem count_teth (f : Fld) (n : Nat) : (d.count f n).teth = d.teth := rfl
@[simp] theorem count_boot (f : Fld) (n : Nat) : (d.count f n).boot = d.boot := rfl
@[simp] theorem count_accErr (f : Fld) (n : Nat) : (d.count f n).accErr = d.accErr := rfl

/-! ### `countSat` -/

@[simp] theorem countSat_mem (f : Fld) : (d.countSat f).mem = d.mem := rfl
@[simp] theorem countSat_host (f : Fld) : (d.countSat f).host = d.host := rfl
@[simp] theorem countSat_flash (f : Fld) : (d.countSat f).flash = d.flash := rfl
@[simp] theorem countSat_mram (f : Fld) : (d.countSat f).mram = d.mram := rfl
@[simp] theorem countSat_free (f : Fld) : (d.countSat f).free = d.free := rfl
@[simp] theorem countSat_out (f : Fld) : (d.countSat f).out = d.out := rfl
@[simp] theorem countSat_pins (f : Fld) : (d.countSat f).pins = d.pins := rfl
@[simp] theorem countSat_time (f : Fld) : (d.countSat f).time = d.time := rfl
@[simp] theorem countSat_power (f : Fld) : (d.countSat f).power = d.power := rfl
@[simp] theorem countSat_pcie (f : Fld) : (d.countSat f).pcie = d.pcie := rfl
@[simp] theorem countSat_cmd (f : Fld) : (d.countSat f).cmd = d.cmd := rfl
@[simp] theorem countSat_queues (f : Fld) : (d.countSat f).queues = d.queues := rfl
@[simp] theorem countSat_mer (f : Fld) : (d.countSat f).mer = d.mer := rfl
@[simp] theorem countSat_accepted (f : Fld) : (d.countSat f).accepted = d.accepted := rfl
@[simp] theorem countSat_ports (f : Fld) : (d.countSat f).ports = d.ports := rfl
@[simp] theorem countSat_gens (f : Fld) : (d.countSat f).gens = d.gens := rfl
@[simp] theorem countSat_slotsOut (f : Fld) : (d.countSat f).slotsOut = d.slotsOut := rfl
@[simp] theorem countSat_lanes (f : Fld) : (d.countSat f).lanes = d.lanes := rfl
@[simp] theorem countSat_swaps (f : Fld) : (d.countSat f).swaps = d.swaps := rfl
@[simp] theorem countSat_due (f : Fld) : (d.countSat f).due = d.due := rfl
@[simp] theorem countSat_staleAge (f : Fld) : (d.countSat f).staleAge = d.staleAge := rfl
@[simp] theorem countSat_nrModel (f : Fld) : (d.countSat f).nrModel = d.nrModel := rfl
@[simp] theorem countSat_tmState (f : Fld) : (d.countSat f).tmState = d.tmState := rfl
@[simp] theorem countSat_focLive (f : Fld) : (d.countSat f).focLive = d.focLive := rfl
@[simp] theorem countSat_focSnap (f : Fld) : (d.countSat f).focSnap = d.focSnap := rfl
@[simp] theorem countSat_zones (f : Fld) : (d.countSat f).zones = d.zones := rfl
@[simp] theorem countSat_zoneRows (f : Fld) : (d.countSat f).zoneRows = d.zoneRows := rfl
@[simp] theorem countSat_corOut (f : Fld) : (d.countSat f).corOut = d.corOut := rfl
@[simp] theorem countSat_fgRows (f : Fld) : (d.countSat f).fgRows = d.fgRows := rfl
@[simp] theorem countSat_geoHist (f : Fld) : (d.countSat f).geoHist = d.geoHist := rfl
@[simp] theorem countSat_seams (f : Fld) : (d.countSat f).seams = d.seams := rfl
@[simp] theorem countSat_arSwapped (f : Fld) : (d.countSat f).arSwapped = d.arSwapped := rfl
@[simp] theorem countSat_arSteps (f : Fld) : (d.countSat f).arSteps = d.arSteps := rfl
@[simp] theorem countSat_ofsWrites (f : Fld) : (d.countSat f).ofsWrites = d.ofsWrites := rfl
@[simp] theorem countSat_skyOut (f : Fld) : (d.countSat f).skyOut = d.skyOut := rfl
@[simp] theorem countSat_seg (f : Fld) : (d.countSat f).seg = d.seg := rfl
@[simp] theorem countSat_engines (f : Fld) : (d.countSat f).engines = d.engines := rfl
@[simp] theorem countSat_plan (f : Fld) : (d.countSat f).plan = d.plan := rfl
@[simp] theorem countSat_mots (f : Fld) : (d.countSat f).mots = d.mots := rfl
@[simp] theorem countSat_motReps (f : Fld) : (d.countSat f).motReps = d.motReps := rfl
@[simp] theorem countSat_hitLatch (f : Fld) : (d.countSat f).hitLatch = d.hitLatch := rfl
@[simp] theorem countSat_cmpAt (f : Fld) : (d.countSat f).cmpAt = d.cmpAt := rfl
@[simp] theorem countSat_sigs (f : Fld) : (d.countSat f).sigs = d.sigs := rfl
@[simp] theorem countSat_trim (f : Fld) : (d.countSat f).trim = d.trim := rfl
@[simp] theorem countSat_clock (f : Fld) : (d.countSat f).clock = d.clock := rfl
@[simp] theorem countSat_timing (f : Fld) : (d.countSat f).timing = d.timing := rfl
@[simp] theorem countSat_net (f : Fld) : (d.countSat f).net = d.net := rfl
@[simp] theorem countSat_pack (f : Fld) : (d.countSat f).pack = d.pack := rfl
@[simp] theorem countSat_rings (f : Fld) : (d.countSat f).rings = d.rings := rfl
@[simp] theorem countSat_arb (f : Fld) : (d.countSat f).arb = d.arb := rfl
@[simp] theorem countSat_recLeft (f : Fld) : (d.countSat f).recLeft = d.recLeft := rfl
@[simp] theorem countSat_sampled (f : Fld) : (d.countSat f).sampled = d.sampled := rfl
@[simp] theorem countSat_nvmKeys (f : Fld) : (d.countSat f).nvmKeys = d.nvmKeys := rfl
@[simp] theorem countSat_nvmWear (f : Fld) : (d.countSat f).nvmWear = d.nvmWear := rfl
@[simp] theorem countSat_nvmRetired (f : Fld) : (d.countSat f).nvmRetired = d.nvmRetired := rfl
@[simp] theorem countSat_illumDt (f : Fld) : (d.countSat f).illumDt = d.illumDt := rfl
@[simp] theorem countSat_isl (f : Fld) : (d.countSat f).isl = d.isl := rfl
@[simp] theorem countSat_monitors (f : Fld) : (d.countSat f).monitors = d.monitors := rfl
@[simp] theorem countSat_obs (f : Fld) : (d.countSat f).obs = d.obs := rfl
@[simp] theorem countSat_crcUnits (f : Fld) : (d.countSat f).crcUnits = d.crcUnits := rfl
@[simp] theorem countSat_teth (f : Fld) : (d.countSat f).teth = d.teth := rfl
@[simp] theorem countSat_boot (f : Fld) : (d.countSat f).boot = d.boot := rfl
@[simp] theorem countSat_accErr (f : Fld) : (d.countSat f).accErr = d.accErr := rfl

/-! ### `setS` -/

@[simp] theorem setS_mem (f : Fld) (i : Int) : (d.setS f i).mem = d.mem := rfl
@[simp] theorem setS_host (f : Fld) (i : Int) : (d.setS f i).host = d.host := rfl
@[simp] theorem setS_flash (f : Fld) (i : Int) : (d.setS f i).flash = d.flash := rfl
@[simp] theorem setS_mram (f : Fld) (i : Int) : (d.setS f i).mram = d.mram := rfl
@[simp] theorem setS_free (f : Fld) (i : Int) : (d.setS f i).free = d.free := rfl
@[simp] theorem setS_out (f : Fld) (i : Int) : (d.setS f i).out = d.out := rfl
@[simp] theorem setS_pins (f : Fld) (i : Int) : (d.setS f i).pins = d.pins := rfl
@[simp] theorem setS_time (f : Fld) (i : Int) : (d.setS f i).time = d.time := rfl
@[simp] theorem setS_power (f : Fld) (i : Int) : (d.setS f i).power = d.power := rfl
@[simp] theorem setS_pcie (f : Fld) (i : Int) : (d.setS f i).pcie = d.pcie := rfl
@[simp] theorem setS_cmd (f : Fld) (i : Int) : (d.setS f i).cmd = d.cmd := rfl
@[simp] theorem setS_queues (f : Fld) (i : Int) : (d.setS f i).queues = d.queues := rfl
@[simp] theorem setS_mer (f : Fld) (i : Int) : (d.setS f i).mer = d.mer := rfl
@[simp] theorem setS_accepted (f : Fld) (i : Int) : (d.setS f i).accepted = d.accepted := rfl
@[simp] theorem setS_ports (f : Fld) (i : Int) : (d.setS f i).ports = d.ports := rfl
@[simp] theorem setS_gens (f : Fld) (i : Int) : (d.setS f i).gens = d.gens := rfl
@[simp] theorem setS_slotsOut (f : Fld) (i : Int) : (d.setS f i).slotsOut = d.slotsOut := rfl
@[simp] theorem setS_lanes (f : Fld) (i : Int) : (d.setS f i).lanes = d.lanes := rfl
@[simp] theorem setS_swaps (f : Fld) (i : Int) : (d.setS f i).swaps = d.swaps := rfl
@[simp] theorem setS_due (f : Fld) (i : Int) : (d.setS f i).due = d.due := rfl
@[simp] theorem setS_staleAge (f : Fld) (i : Int) : (d.setS f i).staleAge = d.staleAge := rfl
@[simp] theorem setS_nrModel (f : Fld) (i : Int) : (d.setS f i).nrModel = d.nrModel := rfl
@[simp] theorem setS_tmState (f : Fld) (i : Int) : (d.setS f i).tmState = d.tmState := rfl
@[simp] theorem setS_focLive (f : Fld) (i : Int) : (d.setS f i).focLive = d.focLive := rfl
@[simp] theorem setS_focSnap (f : Fld) (i : Int) : (d.setS f i).focSnap = d.focSnap := rfl
@[simp] theorem setS_zones (f : Fld) (i : Int) : (d.setS f i).zones = d.zones := rfl
@[simp] theorem setS_zoneRows (f : Fld) (i : Int) : (d.setS f i).zoneRows = d.zoneRows := rfl
@[simp] theorem setS_corOut (f : Fld) (i : Int) : (d.setS f i).corOut = d.corOut := rfl
@[simp] theorem setS_fgRows (f : Fld) (i : Int) : (d.setS f i).fgRows = d.fgRows := rfl
@[simp] theorem setS_geoHist (f : Fld) (i : Int) : (d.setS f i).geoHist = d.geoHist := rfl
@[simp] theorem setS_seams (f : Fld) (i : Int) : (d.setS f i).seams = d.seams := rfl
@[simp] theorem setS_arSwapped (f : Fld) (i : Int) : (d.setS f i).arSwapped = d.arSwapped := rfl
@[simp] theorem setS_arSteps (f : Fld) (i : Int) : (d.setS f i).arSteps = d.arSteps := rfl
@[simp] theorem setS_ofsWrites (f : Fld) (i : Int) : (d.setS f i).ofsWrites = d.ofsWrites := rfl
@[simp] theorem setS_skyOut (f : Fld) (i : Int) : (d.setS f i).skyOut = d.skyOut := rfl
@[simp] theorem setS_seg (f : Fld) (i : Int) : (d.setS f i).seg = d.seg := rfl
@[simp] theorem setS_engines (f : Fld) (i : Int) : (d.setS f i).engines = d.engines := rfl
@[simp] theorem setS_plan (f : Fld) (i : Int) : (d.setS f i).plan = d.plan := rfl
@[simp] theorem setS_mots (f : Fld) (i : Int) : (d.setS f i).mots = d.mots := rfl
@[simp] theorem setS_motReps (f : Fld) (i : Int) : (d.setS f i).motReps = d.motReps := rfl
@[simp] theorem setS_hitLatch (f : Fld) (i : Int) : (d.setS f i).hitLatch = d.hitLatch := rfl
@[simp] theorem setS_cmpAt (f : Fld) (i : Int) : (d.setS f i).cmpAt = d.cmpAt := rfl
@[simp] theorem setS_sigs (f : Fld) (i : Int) : (d.setS f i).sigs = d.sigs := rfl
@[simp] theorem setS_trim (f : Fld) (i : Int) : (d.setS f i).trim = d.trim := rfl
@[simp] theorem setS_clock (f : Fld) (i : Int) : (d.setS f i).clock = d.clock := rfl
@[simp] theorem setS_timing (f : Fld) (i : Int) : (d.setS f i).timing = d.timing := rfl
@[simp] theorem setS_net (f : Fld) (i : Int) : (d.setS f i).net = d.net := rfl
@[simp] theorem setS_pack (f : Fld) (i : Int) : (d.setS f i).pack = d.pack := rfl
@[simp] theorem setS_rings (f : Fld) (i : Int) : (d.setS f i).rings = d.rings := rfl
@[simp] theorem setS_arb (f : Fld) (i : Int) : (d.setS f i).arb = d.arb := rfl
@[simp] theorem setS_recLeft (f : Fld) (i : Int) : (d.setS f i).recLeft = d.recLeft := rfl
@[simp] theorem setS_sampled (f : Fld) (i : Int) : (d.setS f i).sampled = d.sampled := rfl
@[simp] theorem setS_nvmKeys (f : Fld) (i : Int) : (d.setS f i).nvmKeys = d.nvmKeys := rfl
@[simp] theorem setS_nvmWear (f : Fld) (i : Int) : (d.setS f i).nvmWear = d.nvmWear := rfl
@[simp] theorem setS_nvmRetired (f : Fld) (i : Int) : (d.setS f i).nvmRetired = d.nvmRetired := rfl
@[simp] theorem setS_illumDt (f : Fld) (i : Int) : (d.setS f i).illumDt = d.illumDt := rfl
@[simp] theorem setS_isl (f : Fld) (i : Int) : (d.setS f i).isl = d.isl := rfl
@[simp] theorem setS_monitors (f : Fld) (i : Int) : (d.setS f i).monitors = d.monitors := rfl
@[simp] theorem setS_obs (f : Fld) (i : Int) : (d.setS f i).obs = d.obs := rfl
@[simp] theorem setS_crcUnits (f : Fld) (i : Int) : (d.setS f i).crcUnits = d.crcUnits := rfl
@[simp] theorem setS_teth (f : Fld) (i : Int) : (d.setS f i).teth = d.teth := rfl
@[simp] theorem setS_boot (f : Fld) (i : Int) : (d.setS f i).boot = d.boot := rfl
@[simp] theorem setS_accErr (f : Fld) (i : Int) : (d.setS f i).accErr = d.accErr := rfl

/-! ### `putBit` -/

@[simp] theorem putBit_mem (f : Fld) (k : Nat) (b : Bool) : (d.putBit f k b).mem = d.mem := rfl
@[simp] theorem putBit_host (f : Fld) (k : Nat) (b : Bool) : (d.putBit f k b).host = d.host := rfl
@[simp] theorem putBit_flash (f : Fld) (k : Nat) (b : Bool) : (d.putBit f k b).flash = d.flash := rfl
@[simp] theorem putBit_mram (f : Fld) (k : Nat) (b : Bool) : (d.putBit f k b).mram = d.mram := rfl
@[simp] theorem putBit_free (f : Fld) (k : Nat) (b : Bool) : (d.putBit f k b).free = d.free := rfl
@[simp] theorem putBit_out (f : Fld) (k : Nat) (b : Bool) : (d.putBit f k b).out = d.out := rfl
@[simp] theorem putBit_pins (f : Fld) (k : Nat) (b : Bool) : (d.putBit f k b).pins = d.pins := rfl
@[simp] theorem putBit_time (f : Fld) (k : Nat) (b : Bool) : (d.putBit f k b).time = d.time := rfl
@[simp] theorem putBit_power (f : Fld) (k : Nat) (b : Bool) : (d.putBit f k b).power = d.power := rfl
@[simp] theorem putBit_pcie (f : Fld) (k : Nat) (b : Bool) : (d.putBit f k b).pcie = d.pcie := rfl
@[simp] theorem putBit_cmd (f : Fld) (k : Nat) (b : Bool) : (d.putBit f k b).cmd = d.cmd := rfl
@[simp] theorem putBit_queues (f : Fld) (k : Nat) (b : Bool) : (d.putBit f k b).queues = d.queues := rfl
@[simp] theorem putBit_mer (f : Fld) (k : Nat) (b : Bool) : (d.putBit f k b).mer = d.mer := rfl
@[simp] theorem putBit_accepted (f : Fld) (k : Nat) (b : Bool) : (d.putBit f k b).accepted = d.accepted := rfl
@[simp] theorem putBit_ports (f : Fld) (k : Nat) (b : Bool) : (d.putBit f k b).ports = d.ports := rfl
@[simp] theorem putBit_gens (f : Fld) (k : Nat) (b : Bool) : (d.putBit f k b).gens = d.gens := rfl
@[simp] theorem putBit_slotsOut (f : Fld) (k : Nat) (b : Bool) : (d.putBit f k b).slotsOut = d.slotsOut := rfl
@[simp] theorem putBit_lanes (f : Fld) (k : Nat) (b : Bool) : (d.putBit f k b).lanes = d.lanes := rfl
@[simp] theorem putBit_swaps (f : Fld) (k : Nat) (b : Bool) : (d.putBit f k b).swaps = d.swaps := rfl
@[simp] theorem putBit_due (f : Fld) (k : Nat) (b : Bool) : (d.putBit f k b).due = d.due := rfl
@[simp] theorem putBit_staleAge (f : Fld) (k : Nat) (b : Bool) : (d.putBit f k b).staleAge = d.staleAge := rfl
@[simp] theorem putBit_nrModel (f : Fld) (k : Nat) (b : Bool) : (d.putBit f k b).nrModel = d.nrModel := rfl
@[simp] theorem putBit_tmState (f : Fld) (k : Nat) (b : Bool) : (d.putBit f k b).tmState = d.tmState := rfl
@[simp] theorem putBit_focLive (f : Fld) (k : Nat) (b : Bool) : (d.putBit f k b).focLive = d.focLive := rfl
@[simp] theorem putBit_focSnap (f : Fld) (k : Nat) (b : Bool) : (d.putBit f k b).focSnap = d.focSnap := rfl
@[simp] theorem putBit_zones (f : Fld) (k : Nat) (b : Bool) : (d.putBit f k b).zones = d.zones := rfl
@[simp] theorem putBit_zoneRows (f : Fld) (k : Nat) (b : Bool) : (d.putBit f k b).zoneRows = d.zoneRows := rfl
@[simp] theorem putBit_corOut (f : Fld) (k : Nat) (b : Bool) : (d.putBit f k b).corOut = d.corOut := rfl
@[simp] theorem putBit_fgRows (f : Fld) (k : Nat) (b : Bool) : (d.putBit f k b).fgRows = d.fgRows := rfl
@[simp] theorem putBit_geoHist (f : Fld) (k : Nat) (b : Bool) : (d.putBit f k b).geoHist = d.geoHist := rfl
@[simp] theorem putBit_seams (f : Fld) (k : Nat) (b : Bool) : (d.putBit f k b).seams = d.seams := rfl
@[simp] theorem putBit_arSwapped (f : Fld) (k : Nat) (b : Bool) : (d.putBit f k b).arSwapped = d.arSwapped := rfl
@[simp] theorem putBit_arSteps (f : Fld) (k : Nat) (b : Bool) : (d.putBit f k b).arSteps = d.arSteps := rfl
@[simp] theorem putBit_ofsWrites (f : Fld) (k : Nat) (b : Bool) : (d.putBit f k b).ofsWrites = d.ofsWrites := rfl
@[simp] theorem putBit_skyOut (f : Fld) (k : Nat) (b : Bool) : (d.putBit f k b).skyOut = d.skyOut := rfl
@[simp] theorem putBit_seg (f : Fld) (k : Nat) (b : Bool) : (d.putBit f k b).seg = d.seg := rfl
@[simp] theorem putBit_engines (f : Fld) (k : Nat) (b : Bool) : (d.putBit f k b).engines = d.engines := rfl
@[simp] theorem putBit_plan (f : Fld) (k : Nat) (b : Bool) : (d.putBit f k b).plan = d.plan := rfl
@[simp] theorem putBit_mots (f : Fld) (k : Nat) (b : Bool) : (d.putBit f k b).mots = d.mots := rfl
@[simp] theorem putBit_motReps (f : Fld) (k : Nat) (b : Bool) : (d.putBit f k b).motReps = d.motReps := rfl
@[simp] theorem putBit_hitLatch (f : Fld) (k : Nat) (b : Bool) : (d.putBit f k b).hitLatch = d.hitLatch := rfl
@[simp] theorem putBit_cmpAt (f : Fld) (k : Nat) (b : Bool) : (d.putBit f k b).cmpAt = d.cmpAt := rfl
@[simp] theorem putBit_sigs (f : Fld) (k : Nat) (b : Bool) : (d.putBit f k b).sigs = d.sigs := rfl
@[simp] theorem putBit_trim (f : Fld) (k : Nat) (b : Bool) : (d.putBit f k b).trim = d.trim := rfl
@[simp] theorem putBit_clock (f : Fld) (k : Nat) (b : Bool) : (d.putBit f k b).clock = d.clock := rfl
@[simp] theorem putBit_timing (f : Fld) (k : Nat) (b : Bool) : (d.putBit f k b).timing = d.timing := rfl
@[simp] theorem putBit_net (f : Fld) (k : Nat) (b : Bool) : (d.putBit f k b).net = d.net := rfl
@[simp] theorem putBit_pack (f : Fld) (k : Nat) (b : Bool) : (d.putBit f k b).pack = d.pack := rfl
@[simp] theorem putBit_rings (f : Fld) (k : Nat) (b : Bool) : (d.putBit f k b).rings = d.rings := rfl
@[simp] theorem putBit_arb (f : Fld) (k : Nat) (b : Bool) : (d.putBit f k b).arb = d.arb := rfl
@[simp] theorem putBit_recLeft (f : Fld) (k : Nat) (b : Bool) : (d.putBit f k b).recLeft = d.recLeft := rfl
@[simp] theorem putBit_sampled (f : Fld) (k : Nat) (b : Bool) : (d.putBit f k b).sampled = d.sampled := rfl
@[simp] theorem putBit_nvmKeys (f : Fld) (k : Nat) (b : Bool) : (d.putBit f k b).nvmKeys = d.nvmKeys := rfl
@[simp] theorem putBit_nvmWear (f : Fld) (k : Nat) (b : Bool) : (d.putBit f k b).nvmWear = d.nvmWear := rfl
@[simp] theorem putBit_nvmRetired (f : Fld) (k : Nat) (b : Bool) : (d.putBit f k b).nvmRetired = d.nvmRetired := rfl
@[simp] theorem putBit_illumDt (f : Fld) (k : Nat) (b : Bool) : (d.putBit f k b).illumDt = d.illumDt := rfl
@[simp] theorem putBit_isl (f : Fld) (k : Nat) (b : Bool) : (d.putBit f k b).isl = d.isl := rfl
@[simp] theorem putBit_monitors (f : Fld) (k : Nat) (b : Bool) : (d.putBit f k b).monitors = d.monitors := rfl
@[simp] theorem putBit_obs (f : Fld) (k : Nat) (b : Bool) : (d.putBit f k b).obs = d.obs := rfl
@[simp] theorem putBit_crcUnits (f : Fld) (k : Nat) (b : Bool) : (d.putBit f k b).crcUnits = d.crcUnits := rfl
@[simp] theorem putBit_teth (f : Fld) (k : Nat) (b : Bool) : (d.putBit f k b).teth = d.teth := rfl
@[simp] theorem putBit_boot (f : Fld) (k : Nat) (b : Bool) : (d.putBit f k b).boot = d.boot := rfl
@[simp] theorem putBit_accErr (f : Fld) (k : Nat) (b : Bool) : (d.putBit f k b).accErr = d.accErr := rfl

/-! ### `emit` -/

@[simp] theorem emit_regs (e : Emission) : (d.emit e).regs = d.regs := rfl
@[simp] theorem emit_mem (e : Emission) : (d.emit e).mem = d.mem := rfl
@[simp] theorem emit_host (e : Emission) : (d.emit e).host = d.host := rfl
@[simp] theorem emit_flash (e : Emission) : (d.emit e).flash = d.flash := rfl
@[simp] theorem emit_mram (e : Emission) : (d.emit e).mram = d.mram := rfl
@[simp] theorem emit_free (e : Emission) : (d.emit e).free = d.free := rfl
@[simp] theorem emit_pins (e : Emission) : (d.emit e).pins = d.pins := rfl
@[simp] theorem emit_time (e : Emission) : (d.emit e).time = d.time := rfl
@[simp] theorem emit_power (e : Emission) : (d.emit e).power = d.power := rfl
@[simp] theorem emit_pcie (e : Emission) : (d.emit e).pcie = d.pcie := rfl
@[simp] theorem emit_cmd (e : Emission) : (d.emit e).cmd = d.cmd := rfl
@[simp] theorem emit_queues (e : Emission) : (d.emit e).queues = d.queues := rfl
@[simp] theorem emit_mer (e : Emission) : (d.emit e).mer = d.mer := rfl
@[simp] theorem emit_accepted (e : Emission) : (d.emit e).accepted = d.accepted := rfl
@[simp] theorem emit_ports (e : Emission) : (d.emit e).ports = d.ports := rfl
@[simp] theorem emit_gens (e : Emission) : (d.emit e).gens = d.gens := rfl
@[simp] theorem emit_slotsOut (e : Emission) : (d.emit e).slotsOut = d.slotsOut := rfl
@[simp] theorem emit_lanes (e : Emission) : (d.emit e).lanes = d.lanes := rfl
@[simp] theorem emit_swaps (e : Emission) : (d.emit e).swaps = d.swaps := rfl
@[simp] theorem emit_due (e : Emission) : (d.emit e).due = d.due := rfl
@[simp] theorem emit_staleAge (e : Emission) : (d.emit e).staleAge = d.staleAge := rfl
@[simp] theorem emit_nrModel (e : Emission) : (d.emit e).nrModel = d.nrModel := rfl
@[simp] theorem emit_tmState (e : Emission) : (d.emit e).tmState = d.tmState := rfl
@[simp] theorem emit_focLive (e : Emission) : (d.emit e).focLive = d.focLive := rfl
@[simp] theorem emit_focSnap (e : Emission) : (d.emit e).focSnap = d.focSnap := rfl
@[simp] theorem emit_zones (e : Emission) : (d.emit e).zones = d.zones := rfl
@[simp] theorem emit_zoneRows (e : Emission) : (d.emit e).zoneRows = d.zoneRows := rfl
@[simp] theorem emit_corOut (e : Emission) : (d.emit e).corOut = d.corOut := rfl
@[simp] theorem emit_fgRows (e : Emission) : (d.emit e).fgRows = d.fgRows := rfl
@[simp] theorem emit_geoHist (e : Emission) : (d.emit e).geoHist = d.geoHist := rfl
@[simp] theorem emit_seams (e : Emission) : (d.emit e).seams = d.seams := rfl
@[simp] theorem emit_arSwapped (e : Emission) : (d.emit e).arSwapped = d.arSwapped := rfl
@[simp] theorem emit_arSteps (e : Emission) : (d.emit e).arSteps = d.arSteps := rfl
@[simp] theorem emit_ofsWrites (e : Emission) : (d.emit e).ofsWrites = d.ofsWrites := rfl
@[simp] theorem emit_skyOut (e : Emission) : (d.emit e).skyOut = d.skyOut := rfl
@[simp] theorem emit_seg (e : Emission) : (d.emit e).seg = d.seg := rfl
@[simp] theorem emit_engines (e : Emission) : (d.emit e).engines = d.engines := rfl
@[simp] theorem emit_plan (e : Emission) : (d.emit e).plan = d.plan := rfl
@[simp] theorem emit_mots (e : Emission) : (d.emit e).mots = d.mots := rfl
@[simp] theorem emit_motReps (e : Emission) : (d.emit e).motReps = d.motReps := rfl
@[simp] theorem emit_hitLatch (e : Emission) : (d.emit e).hitLatch = d.hitLatch := rfl
@[simp] theorem emit_cmpAt (e : Emission) : (d.emit e).cmpAt = d.cmpAt := rfl
@[simp] theorem emit_sigs (e : Emission) : (d.emit e).sigs = d.sigs := rfl
@[simp] theorem emit_trim (e : Emission) : (d.emit e).trim = d.trim := rfl
@[simp] theorem emit_clock (e : Emission) : (d.emit e).clock = d.clock := rfl
@[simp] theorem emit_timing (e : Emission) : (d.emit e).timing = d.timing := rfl
@[simp] theorem emit_net (e : Emission) : (d.emit e).net = d.net := rfl
@[simp] theorem emit_pack (e : Emission) : (d.emit e).pack = d.pack := rfl
@[simp] theorem emit_rings (e : Emission) : (d.emit e).rings = d.rings := rfl
@[simp] theorem emit_arb (e : Emission) : (d.emit e).arb = d.arb := rfl
@[simp] theorem emit_recLeft (e : Emission) : (d.emit e).recLeft = d.recLeft := rfl
@[simp] theorem emit_sampled (e : Emission) : (d.emit e).sampled = d.sampled := rfl
@[simp] theorem emit_nvmKeys (e : Emission) : (d.emit e).nvmKeys = d.nvmKeys := rfl
@[simp] theorem emit_nvmWear (e : Emission) : (d.emit e).nvmWear = d.nvmWear := rfl
@[simp] theorem emit_nvmRetired (e : Emission) : (d.emit e).nvmRetired = d.nvmRetired := rfl
@[simp] theorem emit_illumDt (e : Emission) : (d.emit e).illumDt = d.illumDt := rfl
@[simp] theorem emit_isl (e : Emission) : (d.emit e).isl = d.isl := rfl
@[simp] theorem emit_monitors (e : Emission) : (d.emit e).monitors = d.monitors := rfl
@[simp] theorem emit_obs (e : Emission) : (d.emit e).obs = d.obs := rfl
@[simp] theorem emit_crcUnits (e : Emission) : (d.emit e).crcUnits = d.crcUnits := rfl
@[simp] theorem emit_teth (e : Emission) : (d.emit e).teth = d.teth := rfl
@[simp] theorem emit_boot (e : Emission) : (d.emit e).boot = d.boot := rfl
@[simp] theorem emit_accErr (e : Emission) : (d.emit e).accErr = d.accErr := rfl

/-! ### `freeUsed` -/

@[simp] theorem freeUsed_regs (n : Nat) : (d.freeUsed n).regs = d.regs := rfl
@[simp] theorem freeUsed_mem (n : Nat) : (d.freeUsed n).mem = d.mem := rfl
@[simp] theorem freeUsed_host (n : Nat) : (d.freeUsed n).host = d.host := rfl
@[simp] theorem freeUsed_flash (n : Nat) : (d.freeUsed n).flash = d.flash := rfl
@[simp] theorem freeUsed_mram (n : Nat) : (d.freeUsed n).mram = d.mram := rfl
@[simp] theorem freeUsed_out (n : Nat) : (d.freeUsed n).out = d.out := rfl
@[simp] theorem freeUsed_pins (n : Nat) : (d.freeUsed n).pins = d.pins := rfl
@[simp] theorem freeUsed_time (n : Nat) : (d.freeUsed n).time = d.time := rfl
@[simp] theorem freeUsed_power (n : Nat) : (d.freeUsed n).power = d.power := rfl
@[simp] theorem freeUsed_pcie (n : Nat) : (d.freeUsed n).pcie = d.pcie := rfl
@[simp] theorem freeUsed_cmd (n : Nat) : (d.freeUsed n).cmd = d.cmd := rfl
@[simp] theorem freeUsed_queues (n : Nat) : (d.freeUsed n).queues = d.queues := rfl
@[simp] theorem freeUsed_mer (n : Nat) : (d.freeUsed n).mer = d.mer := rfl
@[simp] theorem freeUsed_accepted (n : Nat) : (d.freeUsed n).accepted = d.accepted := rfl
@[simp] theorem freeUsed_ports (n : Nat) : (d.freeUsed n).ports = d.ports := rfl
@[simp] theorem freeUsed_gens (n : Nat) : (d.freeUsed n).gens = d.gens := rfl
@[simp] theorem freeUsed_slotsOut (n : Nat) : (d.freeUsed n).slotsOut = d.slotsOut := rfl
@[simp] theorem freeUsed_lanes (n : Nat) : (d.freeUsed n).lanes = d.lanes := rfl
@[simp] theorem freeUsed_swaps (n : Nat) : (d.freeUsed n).swaps = d.swaps := rfl
@[simp] theorem freeUsed_due (n : Nat) : (d.freeUsed n).due = d.due := rfl
@[simp] theorem freeUsed_staleAge (n : Nat) : (d.freeUsed n).staleAge = d.staleAge := rfl
@[simp] theorem freeUsed_nrModel (n : Nat) : (d.freeUsed n).nrModel = d.nrModel := rfl
@[simp] theorem freeUsed_tmState (n : Nat) : (d.freeUsed n).tmState = d.tmState := rfl
@[simp] theorem freeUsed_focLive (n : Nat) : (d.freeUsed n).focLive = d.focLive := rfl
@[simp] theorem freeUsed_focSnap (n : Nat) : (d.freeUsed n).focSnap = d.focSnap := rfl
@[simp] theorem freeUsed_zones (n : Nat) : (d.freeUsed n).zones = d.zones := rfl
@[simp] theorem freeUsed_zoneRows (n : Nat) : (d.freeUsed n).zoneRows = d.zoneRows := rfl
@[simp] theorem freeUsed_corOut (n : Nat) : (d.freeUsed n).corOut = d.corOut := rfl
@[simp] theorem freeUsed_fgRows (n : Nat) : (d.freeUsed n).fgRows = d.fgRows := rfl
@[simp] theorem freeUsed_geoHist (n : Nat) : (d.freeUsed n).geoHist = d.geoHist := rfl
@[simp] theorem freeUsed_seams (n : Nat) : (d.freeUsed n).seams = d.seams := rfl
@[simp] theorem freeUsed_arSwapped (n : Nat) : (d.freeUsed n).arSwapped = d.arSwapped := rfl
@[simp] theorem freeUsed_arSteps (n : Nat) : (d.freeUsed n).arSteps = d.arSteps := rfl
@[simp] theorem freeUsed_ofsWrites (n : Nat) : (d.freeUsed n).ofsWrites = d.ofsWrites := rfl
@[simp] theorem freeUsed_skyOut (n : Nat) : (d.freeUsed n).skyOut = d.skyOut := rfl
@[simp] theorem freeUsed_seg (n : Nat) : (d.freeUsed n).seg = d.seg := rfl
@[simp] theorem freeUsed_engines (n : Nat) : (d.freeUsed n).engines = d.engines := rfl
@[simp] theorem freeUsed_plan (n : Nat) : (d.freeUsed n).plan = d.plan := rfl
@[simp] theorem freeUsed_mots (n : Nat) : (d.freeUsed n).mots = d.mots := rfl
@[simp] theorem freeUsed_motReps (n : Nat) : (d.freeUsed n).motReps = d.motReps := rfl
@[simp] theorem freeUsed_hitLatch (n : Nat) : (d.freeUsed n).hitLatch = d.hitLatch := rfl
@[simp] theorem freeUsed_cmpAt (n : Nat) : (d.freeUsed n).cmpAt = d.cmpAt := rfl
@[simp] theorem freeUsed_sigs (n : Nat) : (d.freeUsed n).sigs = d.sigs := rfl
@[simp] theorem freeUsed_trim (n : Nat) : (d.freeUsed n).trim = d.trim := rfl
@[simp] theorem freeUsed_clock (n : Nat) : (d.freeUsed n).clock = d.clock := rfl
@[simp] theorem freeUsed_timing (n : Nat) : (d.freeUsed n).timing = d.timing := rfl
@[simp] theorem freeUsed_net (n : Nat) : (d.freeUsed n).net = d.net := rfl
@[simp] theorem freeUsed_pack (n : Nat) : (d.freeUsed n).pack = d.pack := rfl
@[simp] theorem freeUsed_rings (n : Nat) : (d.freeUsed n).rings = d.rings := rfl
@[simp] theorem freeUsed_arb (n : Nat) : (d.freeUsed n).arb = d.arb := rfl
@[simp] theorem freeUsed_recLeft (n : Nat) : (d.freeUsed n).recLeft = d.recLeft := rfl
@[simp] theorem freeUsed_sampled (n : Nat) : (d.freeUsed n).sampled = d.sampled := rfl
@[simp] theorem freeUsed_nvmKeys (n : Nat) : (d.freeUsed n).nvmKeys = d.nvmKeys := rfl
@[simp] theorem freeUsed_nvmWear (n : Nat) : (d.freeUsed n).nvmWear = d.nvmWear := rfl
@[simp] theorem freeUsed_nvmRetired (n : Nat) : (d.freeUsed n).nvmRetired = d.nvmRetired := rfl
@[simp] theorem freeUsed_illumDt (n : Nat) : (d.freeUsed n).illumDt = d.illumDt := rfl
@[simp] theorem freeUsed_isl (n : Nat) : (d.freeUsed n).isl = d.isl := rfl
@[simp] theorem freeUsed_monitors (n : Nat) : (d.freeUsed n).monitors = d.monitors := rfl
@[simp] theorem freeUsed_obs (n : Nat) : (d.freeUsed n).obs = d.obs := rfl
@[simp] theorem freeUsed_crcUnits (n : Nat) : (d.freeUsed n).crcUnits = d.crcUnits := rfl
@[simp] theorem freeUsed_teth (n : Nat) : (d.freeUsed n).teth = d.teth := rfl
@[simp] theorem freeUsed_boot (n : Nat) : (d.freeUsed n).boot = d.boot := rfl
@[simp] theorem freeUsed_accErr (n : Nat) : (d.freeUsed n).accErr = d.accErr := rfl

/-! ### `setByte` -/

@[simp] theorem setByte_regs (a : Nat) (v : Byte) : (d.setByte a v).regs = d.regs := rfl
@[simp] theorem setByte_host (a : Nat) (v : Byte) : (d.setByte a v).host = d.host := rfl
@[simp] theorem setByte_flash (a : Nat) (v : Byte) : (d.setByte a v).flash = d.flash := rfl
@[simp] theorem setByte_mram (a : Nat) (v : Byte) : (d.setByte a v).mram = d.mram := rfl
@[simp] theorem setByte_free (a : Nat) (v : Byte) : (d.setByte a v).free = d.free := rfl
@[simp] theorem setByte_out (a : Nat) (v : Byte) : (d.setByte a v).out = d.out := rfl
@[simp] theorem setByte_pins (a : Nat) (v : Byte) : (d.setByte a v).pins = d.pins := rfl
@[simp] theorem setByte_time (a : Nat) (v : Byte) : (d.setByte a v).time = d.time := rfl
@[simp] theorem setByte_power (a : Nat) (v : Byte) : (d.setByte a v).power = d.power := rfl
@[simp] theorem setByte_pcie (a : Nat) (v : Byte) : (d.setByte a v).pcie = d.pcie := rfl
@[simp] theorem setByte_cmd (a : Nat) (v : Byte) : (d.setByte a v).cmd = d.cmd := rfl
@[simp] theorem setByte_queues (a : Nat) (v : Byte) : (d.setByte a v).queues = d.queues := rfl
@[simp] theorem setByte_mer (a : Nat) (v : Byte) : (d.setByte a v).mer = d.mer := rfl
@[simp] theorem setByte_accepted (a : Nat) (v : Byte) : (d.setByte a v).accepted = d.accepted := rfl
@[simp] theorem setByte_ports (a : Nat) (v : Byte) : (d.setByte a v).ports = d.ports := rfl
@[simp] theorem setByte_gens (a : Nat) (v : Byte) : (d.setByte a v).gens = d.gens := rfl
@[simp] theorem setByte_slotsOut (a : Nat) (v : Byte) : (d.setByte a v).slotsOut = d.slotsOut := rfl
@[simp] theorem setByte_lanes (a : Nat) (v : Byte) : (d.setByte a v).lanes = d.lanes := rfl
@[simp] theorem setByte_swaps (a : Nat) (v : Byte) : (d.setByte a v).swaps = d.swaps := rfl
@[simp] theorem setByte_due (a : Nat) (v : Byte) : (d.setByte a v).due = d.due := rfl
@[simp] theorem setByte_staleAge (a : Nat) (v : Byte) : (d.setByte a v).staleAge = d.staleAge := rfl
@[simp] theorem setByte_nrModel (a : Nat) (v : Byte) : (d.setByte a v).nrModel = d.nrModel := rfl
@[simp] theorem setByte_tmState (a : Nat) (v : Byte) : (d.setByte a v).tmState = d.tmState := rfl
@[simp] theorem setByte_focLive (a : Nat) (v : Byte) : (d.setByte a v).focLive = d.focLive := rfl
@[simp] theorem setByte_focSnap (a : Nat) (v : Byte) : (d.setByte a v).focSnap = d.focSnap := rfl
@[simp] theorem setByte_zones (a : Nat) (v : Byte) : (d.setByte a v).zones = d.zones := rfl
@[simp] theorem setByte_zoneRows (a : Nat) (v : Byte) : (d.setByte a v).zoneRows = d.zoneRows := rfl
@[simp] theorem setByte_corOut (a : Nat) (v : Byte) : (d.setByte a v).corOut = d.corOut := rfl
@[simp] theorem setByte_fgRows (a : Nat) (v : Byte) : (d.setByte a v).fgRows = d.fgRows := rfl
@[simp] theorem setByte_geoHist (a : Nat) (v : Byte) : (d.setByte a v).geoHist = d.geoHist := rfl
@[simp] theorem setByte_seams (a : Nat) (v : Byte) : (d.setByte a v).seams = d.seams := rfl
@[simp] theorem setByte_arSwapped (a : Nat) (v : Byte) : (d.setByte a v).arSwapped = d.arSwapped := rfl
@[simp] theorem setByte_arSteps (a : Nat) (v : Byte) : (d.setByte a v).arSteps = d.arSteps := rfl
@[simp] theorem setByte_ofsWrites (a : Nat) (v : Byte) : (d.setByte a v).ofsWrites = d.ofsWrites := rfl
@[simp] theorem setByte_skyOut (a : Nat) (v : Byte) : (d.setByte a v).skyOut = d.skyOut := rfl
@[simp] theorem setByte_seg (a : Nat) (v : Byte) : (d.setByte a v).seg = d.seg := rfl
@[simp] theorem setByte_engines (a : Nat) (v : Byte) : (d.setByte a v).engines = d.engines := rfl
@[simp] theorem setByte_plan (a : Nat) (v : Byte) : (d.setByte a v).plan = d.plan := rfl
@[simp] theorem setByte_mots (a : Nat) (v : Byte) : (d.setByte a v).mots = d.mots := rfl
@[simp] theorem setByte_motReps (a : Nat) (v : Byte) : (d.setByte a v).motReps = d.motReps := rfl
@[simp] theorem setByte_hitLatch (a : Nat) (v : Byte) : (d.setByte a v).hitLatch = d.hitLatch := rfl
@[simp] theorem setByte_cmpAt (a : Nat) (v : Byte) : (d.setByte a v).cmpAt = d.cmpAt := rfl
@[simp] theorem setByte_sigs (a : Nat) (v : Byte) : (d.setByte a v).sigs = d.sigs := rfl
@[simp] theorem setByte_trim (a : Nat) (v : Byte) : (d.setByte a v).trim = d.trim := rfl
@[simp] theorem setByte_clock (a : Nat) (v : Byte) : (d.setByte a v).clock = d.clock := rfl
@[simp] theorem setByte_timing (a : Nat) (v : Byte) : (d.setByte a v).timing = d.timing := rfl
@[simp] theorem setByte_net (a : Nat) (v : Byte) : (d.setByte a v).net = d.net := rfl
@[simp] theorem setByte_pack (a : Nat) (v : Byte) : (d.setByte a v).pack = d.pack := rfl
@[simp] theorem setByte_rings (a : Nat) (v : Byte) : (d.setByte a v).rings = d.rings := rfl
@[simp] theorem setByte_arb (a : Nat) (v : Byte) : (d.setByte a v).arb = d.arb := rfl
@[simp] theorem setByte_recLeft (a : Nat) (v : Byte) : (d.setByte a v).recLeft = d.recLeft := rfl
@[simp] theorem setByte_sampled (a : Nat) (v : Byte) : (d.setByte a v).sampled = d.sampled := rfl
@[simp] theorem setByte_nvmKeys (a : Nat) (v : Byte) : (d.setByte a v).nvmKeys = d.nvmKeys := rfl
@[simp] theorem setByte_nvmWear (a : Nat) (v : Byte) : (d.setByte a v).nvmWear = d.nvmWear := rfl
@[simp] theorem setByte_nvmRetired (a : Nat) (v : Byte) : (d.setByte a v).nvmRetired = d.nvmRetired := rfl
@[simp] theorem setByte_illumDt (a : Nat) (v : Byte) : (d.setByte a v).illumDt = d.illumDt := rfl
@[simp] theorem setByte_isl (a : Nat) (v : Byte) : (d.setByte a v).isl = d.isl := rfl
@[simp] theorem setByte_monitors (a : Nat) (v : Byte) : (d.setByte a v).monitors = d.monitors := rfl
@[simp] theorem setByte_obs (a : Nat) (v : Byte) : (d.setByte a v).obs = d.obs := rfl
@[simp] theorem setByte_crcUnits (a : Nat) (v : Byte) : (d.setByte a v).crcUnits = d.crcUnits := rfl
@[simp] theorem setByte_teth (a : Nat) (v : Byte) : (d.setByte a v).teth = d.teth := rfl
@[simp] theorem setByte_boot (a : Nat) (v : Byte) : (d.setByte a v).boot = d.boot := rfl
@[simp] theorem setByte_accErr (a : Nat) (v : Byte) : (d.setByte a v).accErr = d.accErr := rfl

/-! ### `setPort` -/

@[simp] theorem setPort_regs (p : Nat) (x : Port) : (d.setPort p x).regs = d.regs := rfl
@[simp] theorem setPort_mem (p : Nat) (x : Port) : (d.setPort p x).mem = d.mem := rfl
@[simp] theorem setPort_host (p : Nat) (x : Port) : (d.setPort p x).host = d.host := rfl
@[simp] theorem setPort_flash (p : Nat) (x : Port) : (d.setPort p x).flash = d.flash := rfl
@[simp] theorem setPort_mram (p : Nat) (x : Port) : (d.setPort p x).mram = d.mram := rfl
@[simp] theorem setPort_free (p : Nat) (x : Port) : (d.setPort p x).free = d.free := rfl
@[simp] theorem setPort_out (p : Nat) (x : Port) : (d.setPort p x).out = d.out := rfl
@[simp] theorem setPort_pins (p : Nat) (x : Port) : (d.setPort p x).pins = d.pins := rfl
@[simp] theorem setPort_time (p : Nat) (x : Port) : (d.setPort p x).time = d.time := rfl
@[simp] theorem setPort_power (p : Nat) (x : Port) : (d.setPort p x).power = d.power := rfl
@[simp] theorem setPort_pcie (p : Nat) (x : Port) : (d.setPort p x).pcie = d.pcie := rfl
@[simp] theorem setPort_cmd (p : Nat) (x : Port) : (d.setPort p x).cmd = d.cmd := rfl
@[simp] theorem setPort_queues (p : Nat) (x : Port) : (d.setPort p x).queues = d.queues := rfl
@[simp] theorem setPort_mer (p : Nat) (x : Port) : (d.setPort p x).mer = d.mer := rfl
@[simp] theorem setPort_accepted (p : Nat) (x : Port) : (d.setPort p x).accepted = d.accepted := rfl
@[simp] theorem setPort_gens (p : Nat) (x : Port) : (d.setPort p x).gens = d.gens := rfl
@[simp] theorem setPort_slotsOut (p : Nat) (x : Port) : (d.setPort p x).slotsOut = d.slotsOut := rfl
@[simp] theorem setPort_lanes (p : Nat) (x : Port) : (d.setPort p x).lanes = d.lanes := rfl
@[simp] theorem setPort_swaps (p : Nat) (x : Port) : (d.setPort p x).swaps = d.swaps := rfl
@[simp] theorem setPort_due (p : Nat) (x : Port) : (d.setPort p x).due = d.due := rfl
@[simp] theorem setPort_staleAge (p : Nat) (x : Port) : (d.setPort p x).staleAge = d.staleAge := rfl
@[simp] theorem setPort_nrModel (p : Nat) (x : Port) : (d.setPort p x).nrModel = d.nrModel := rfl
@[simp] theorem setPort_tmState (p : Nat) (x : Port) : (d.setPort p x).tmState = d.tmState := rfl
@[simp] theorem setPort_focLive (p : Nat) (x : Port) : (d.setPort p x).focLive = d.focLive := rfl
@[simp] theorem setPort_focSnap (p : Nat) (x : Port) : (d.setPort p x).focSnap = d.focSnap := rfl
@[simp] theorem setPort_zones (p : Nat) (x : Port) : (d.setPort p x).zones = d.zones := rfl
@[simp] theorem setPort_zoneRows (p : Nat) (x : Port) : (d.setPort p x).zoneRows = d.zoneRows := rfl
@[simp] theorem setPort_corOut (p : Nat) (x : Port) : (d.setPort p x).corOut = d.corOut := rfl
@[simp] theorem setPort_fgRows (p : Nat) (x : Port) : (d.setPort p x).fgRows = d.fgRows := rfl
@[simp] theorem setPort_geoHist (p : Nat) (x : Port) : (d.setPort p x).geoHist = d.geoHist := rfl
@[simp] theorem setPort_seams (p : Nat) (x : Port) : (d.setPort p x).seams = d.seams := rfl
@[simp] theorem setPort_arSwapped (p : Nat) (x : Port) : (d.setPort p x).arSwapped = d.arSwapped := rfl
@[simp] theorem setPort_arSteps (p : Nat) (x : Port) : (d.setPort p x).arSteps = d.arSteps := rfl
@[simp] theorem setPort_ofsWrites (p : Nat) (x : Port) : (d.setPort p x).ofsWrites = d.ofsWrites := rfl
@[simp] theorem setPort_skyOut (p : Nat) (x : Port) : (d.setPort p x).skyOut = d.skyOut := rfl
@[simp] theorem setPort_seg (p : Nat) (x : Port) : (d.setPort p x).seg = d.seg := rfl
@[simp] theorem setPort_engines (p : Nat) (x : Port) : (d.setPort p x).engines = d.engines := rfl
@[simp] theorem setPort_plan (p : Nat) (x : Port) : (d.setPort p x).plan = d.plan := rfl
@[simp] theorem setPort_mots (p : Nat) (x : Port) : (d.setPort p x).mots = d.mots := rfl
@[simp] theorem setPort_motReps (p : Nat) (x : Port) : (d.setPort p x).motReps = d.motReps := rfl
@[simp] theorem setPort_hitLatch (p : Nat) (x : Port) : (d.setPort p x).hitLatch = d.hitLatch := rfl
@[simp] theorem setPort_cmpAt (p : Nat) (x : Port) : (d.setPort p x).cmpAt = d.cmpAt := rfl
@[simp] theorem setPort_sigs (p : Nat) (x : Port) : (d.setPort p x).sigs = d.sigs := rfl
@[simp] theorem setPort_trim (p : Nat) (x : Port) : (d.setPort p x).trim = d.trim := rfl
@[simp] theorem setPort_clock (p : Nat) (x : Port) : (d.setPort p x).clock = d.clock := rfl
@[simp] theorem setPort_timing (p : Nat) (x : Port) : (d.setPort p x).timing = d.timing := rfl
@[simp] theorem setPort_net (p : Nat) (x : Port) : (d.setPort p x).net = d.net := rfl
@[simp] theorem setPort_pack (p : Nat) (x : Port) : (d.setPort p x).pack = d.pack := rfl
@[simp] theorem setPort_rings (p : Nat) (x : Port) : (d.setPort p x).rings = d.rings := rfl
@[simp] theorem setPort_arb (p : Nat) (x : Port) : (d.setPort p x).arb = d.arb := rfl
@[simp] theorem setPort_recLeft (p : Nat) (x : Port) : (d.setPort p x).recLeft = d.recLeft := rfl
@[simp] theorem setPort_sampled (p : Nat) (x : Port) : (d.setPort p x).sampled = d.sampled := rfl
@[simp] theorem setPort_nvmKeys (p : Nat) (x : Port) : (d.setPort p x).nvmKeys = d.nvmKeys := rfl
@[simp] theorem setPort_nvmWear (p : Nat) (x : Port) : (d.setPort p x).nvmWear = d.nvmWear := rfl
@[simp] theorem setPort_nvmRetired (p : Nat) (x : Port) : (d.setPort p x).nvmRetired = d.nvmRetired := rfl
@[simp] theorem setPort_illumDt (p : Nat) (x : Port) : (d.setPort p x).illumDt = d.illumDt := rfl
@[simp] theorem setPort_isl (p : Nat) (x : Port) : (d.setPort p x).isl = d.isl := rfl
@[simp] theorem setPort_monitors (p : Nat) (x : Port) : (d.setPort p x).monitors = d.monitors := rfl
@[simp] theorem setPort_obs (p : Nat) (x : Port) : (d.setPort p x).obs = d.obs := rfl
@[simp] theorem setPort_crcUnits (p : Nat) (x : Port) : (d.setPort p x).crcUnits = d.crcUnits := rfl
@[simp] theorem setPort_teth (p : Nat) (x : Port) : (d.setPort p x).teth = d.teth := rfl
@[simp] theorem setPort_boot (p : Nat) (x : Port) : (d.setPort p x).boot = d.boot := rfl
@[simp] theorem setPort_accErr (p : Nat) (x : Port) : (d.setPort p x).accErr = d.accErr := rfl

/-! ### `setGen` -/

@[simp] theorem setGen_regs (g : Nat) (x : Gen) : (d.setGen g x).regs = d.regs := rfl
@[simp] theorem setGen_mem (g : Nat) (x : Gen) : (d.setGen g x).mem = d.mem := rfl
@[simp] theorem setGen_host (g : Nat) (x : Gen) : (d.setGen g x).host = d.host := rfl
@[simp] theorem setGen_flash (g : Nat) (x : Gen) : (d.setGen g x).flash = d.flash := rfl
@[simp] theorem setGen_mram (g : Nat) (x : Gen) : (d.setGen g x).mram = d.mram := rfl
@[simp] theorem setGen_free (g : Nat) (x : Gen) : (d.setGen g x).free = d.free := rfl
@[simp] theorem setGen_out (g : Nat) (x : Gen) : (d.setGen g x).out = d.out := rfl
@[simp] theorem setGen_pins (g : Nat) (x : Gen) : (d.setGen g x).pins = d.pins := rfl
@[simp] theorem setGen_time (g : Nat) (x : Gen) : (d.setGen g x).time = d.time := rfl
@[simp] theorem setGen_power (g : Nat) (x : Gen) : (d.setGen g x).power = d.power := rfl
@[simp] theorem setGen_pcie (g : Nat) (x : Gen) : (d.setGen g x).pcie = d.pcie := rfl
@[simp] theorem setGen_cmd (g : Nat) (x : Gen) : (d.setGen g x).cmd = d.cmd := rfl
@[simp] theorem setGen_queues (g : Nat) (x : Gen) : (d.setGen g x).queues = d.queues := rfl
@[simp] theorem setGen_mer (g : Nat) (x : Gen) : (d.setGen g x).mer = d.mer := rfl
@[simp] theorem setGen_accepted (g : Nat) (x : Gen) : (d.setGen g x).accepted = d.accepted := rfl
@[simp] theorem setGen_ports (g : Nat) (x : Gen) : (d.setGen g x).ports = d.ports := rfl
@[simp] theorem setGen_slotsOut (g : Nat) (x : Gen) : (d.setGen g x).slotsOut = d.slotsOut := rfl
@[simp] theorem setGen_lanes (g : Nat) (x : Gen) : (d.setGen g x).lanes = d.lanes := rfl
@[simp] theorem setGen_swaps (g : Nat) (x : Gen) : (d.setGen g x).swaps = d.swaps := rfl
@[simp] theorem setGen_due (g : Nat) (x : Gen) : (d.setGen g x).due = d.due := rfl
@[simp] theorem setGen_staleAge (g : Nat) (x : Gen) : (d.setGen g x).staleAge = d.staleAge := rfl
@[simp] theorem setGen_nrModel (g : Nat) (x : Gen) : (d.setGen g x).nrModel = d.nrModel := rfl
@[simp] theorem setGen_tmState (g : Nat) (x : Gen) : (d.setGen g x).tmState = d.tmState := rfl
@[simp] theorem setGen_focLive (g : Nat) (x : Gen) : (d.setGen g x).focLive = d.focLive := rfl
@[simp] theorem setGen_focSnap (g : Nat) (x : Gen) : (d.setGen g x).focSnap = d.focSnap := rfl
@[simp] theorem setGen_zones (g : Nat) (x : Gen) : (d.setGen g x).zones = d.zones := rfl
@[simp] theorem setGen_zoneRows (g : Nat) (x : Gen) : (d.setGen g x).zoneRows = d.zoneRows := rfl
@[simp] theorem setGen_corOut (g : Nat) (x : Gen) : (d.setGen g x).corOut = d.corOut := rfl
@[simp] theorem setGen_fgRows (g : Nat) (x : Gen) : (d.setGen g x).fgRows = d.fgRows := rfl
@[simp] theorem setGen_geoHist (g : Nat) (x : Gen) : (d.setGen g x).geoHist = d.geoHist := rfl
@[simp] theorem setGen_seams (g : Nat) (x : Gen) : (d.setGen g x).seams = d.seams := rfl
@[simp] theorem setGen_arSwapped (g : Nat) (x : Gen) : (d.setGen g x).arSwapped = d.arSwapped := rfl
@[simp] theorem setGen_arSteps (g : Nat) (x : Gen) : (d.setGen g x).arSteps = d.arSteps := rfl
@[simp] theorem setGen_ofsWrites (g : Nat) (x : Gen) : (d.setGen g x).ofsWrites = d.ofsWrites := rfl
@[simp] theorem setGen_skyOut (g : Nat) (x : Gen) : (d.setGen g x).skyOut = d.skyOut := rfl
@[simp] theorem setGen_seg (g : Nat) (x : Gen) : (d.setGen g x).seg = d.seg := rfl
@[simp] theorem setGen_engines (g : Nat) (x : Gen) : (d.setGen g x).engines = d.engines := rfl
@[simp] theorem setGen_plan (g : Nat) (x : Gen) : (d.setGen g x).plan = d.plan := rfl
@[simp] theorem setGen_mots (g : Nat) (x : Gen) : (d.setGen g x).mots = d.mots := rfl
@[simp] theorem setGen_motReps (g : Nat) (x : Gen) : (d.setGen g x).motReps = d.motReps := rfl
@[simp] theorem setGen_hitLatch (g : Nat) (x : Gen) : (d.setGen g x).hitLatch = d.hitLatch := rfl
@[simp] theorem setGen_cmpAt (g : Nat) (x : Gen) : (d.setGen g x).cmpAt = d.cmpAt := rfl
@[simp] theorem setGen_sigs (g : Nat) (x : Gen) : (d.setGen g x).sigs = d.sigs := rfl
@[simp] theorem setGen_trim (g : Nat) (x : Gen) : (d.setGen g x).trim = d.trim := rfl
@[simp] theorem setGen_clock (g : Nat) (x : Gen) : (d.setGen g x).clock = d.clock := rfl
@[simp] theorem setGen_timing (g : Nat) (x : Gen) : (d.setGen g x).timing = d.timing := rfl
@[simp] theorem setGen_net (g : Nat) (x : Gen) : (d.setGen g x).net = d.net := rfl
@[simp] theorem setGen_pack (g : Nat) (x : Gen) : (d.setGen g x).pack = d.pack := rfl
@[simp] theorem setGen_rings (g : Nat) (x : Gen) : (d.setGen g x).rings = d.rings := rfl
@[simp] theorem setGen_arb (g : Nat) (x : Gen) : (d.setGen g x).arb = d.arb := rfl
@[simp] theorem setGen_recLeft (g : Nat) (x : Gen) : (d.setGen g x).recLeft = d.recLeft := rfl
@[simp] theorem setGen_sampled (g : Nat) (x : Gen) : (d.setGen g x).sampled = d.sampled := rfl
@[simp] theorem setGen_nvmKeys (g : Nat) (x : Gen) : (d.setGen g x).nvmKeys = d.nvmKeys := rfl
@[simp] theorem setGen_nvmWear (g : Nat) (x : Gen) : (d.setGen g x).nvmWear = d.nvmWear := rfl
@[simp] theorem setGen_nvmRetired (g : Nat) (x : Gen) : (d.setGen g x).nvmRetired = d.nvmRetired := rfl
@[simp] theorem setGen_illumDt (g : Nat) (x : Gen) : (d.setGen g x).illumDt = d.illumDt := rfl
@[simp] theorem setGen_isl (g : Nat) (x : Gen) : (d.setGen g x).isl = d.isl := rfl
@[simp] theorem setGen_monitors (g : Nat) (x : Gen) : (d.setGen g x).monitors = d.monitors := rfl
@[simp] theorem setGen_obs (g : Nat) (x : Gen) : (d.setGen g x).obs = d.obs := rfl
@[simp] theorem setGen_crcUnits (g : Nat) (x : Gen) : (d.setGen g x).crcUnits = d.crcUnits := rfl
@[simp] theorem setGen_teth (g : Nat) (x : Gen) : (d.setGen g x).teth = d.teth := rfl
@[simp] theorem setGen_boot (g : Nat) (x : Gen) : (d.setGen g x).boot = d.boot := rfl
@[simp] theorem setGen_accErr (g : Nat) (x : Gen) : (d.setGen g x).accErr = d.accErr := rfl

/-! ### `setLane` -/

@[simp] theorem setLane_regs (l : Nat) (x : Lane) : (d.setLane l x).regs = d.regs := rfl
@[simp] theorem setLane_mem (l : Nat) (x : Lane) : (d.setLane l x).mem = d.mem := rfl
@[simp] theorem setLane_host (l : Nat) (x : Lane) : (d.setLane l x).host = d.host := rfl
@[simp] theorem setLane_flash (l : Nat) (x : Lane) : (d.setLane l x).flash = d.flash := rfl
@[simp] theorem setLane_mram (l : Nat) (x : Lane) : (d.setLane l x).mram = d.mram := rfl
@[simp] theorem setLane_free (l : Nat) (x : Lane) : (d.setLane l x).free = d.free := rfl
@[simp] theorem setLane_out (l : Nat) (x : Lane) : (d.setLane l x).out = d.out := rfl
@[simp] theorem setLane_pins (l : Nat) (x : Lane) : (d.setLane l x).pins = d.pins := rfl
@[simp] theorem setLane_time (l : Nat) (x : Lane) : (d.setLane l x).time = d.time := rfl
@[simp] theorem setLane_power (l : Nat) (x : Lane) : (d.setLane l x).power = d.power := rfl
@[simp] theorem setLane_pcie (l : Nat) (x : Lane) : (d.setLane l x).pcie = d.pcie := rfl
@[simp] theorem setLane_cmd (l : Nat) (x : Lane) : (d.setLane l x).cmd = d.cmd := rfl
@[simp] theorem setLane_queues (l : Nat) (x : Lane) : (d.setLane l x).queues = d.queues := rfl
@[simp] theorem setLane_mer (l : Nat) (x : Lane) : (d.setLane l x).mer = d.mer := rfl
@[simp] theorem setLane_accepted (l : Nat) (x : Lane) : (d.setLane l x).accepted = d.accepted := rfl
@[simp] theorem setLane_ports (l : Nat) (x : Lane) : (d.setLane l x).ports = d.ports := rfl
@[simp] theorem setLane_gens (l : Nat) (x : Lane) : (d.setLane l x).gens = d.gens := rfl
@[simp] theorem setLane_slotsOut (l : Nat) (x : Lane) : (d.setLane l x).slotsOut = d.slotsOut := rfl
@[simp] theorem setLane_swaps (l : Nat) (x : Lane) : (d.setLane l x).swaps = d.swaps := rfl
@[simp] theorem setLane_due (l : Nat) (x : Lane) : (d.setLane l x).due = d.due := rfl
@[simp] theorem setLane_staleAge (l : Nat) (x : Lane) : (d.setLane l x).staleAge = d.staleAge := rfl
@[simp] theorem setLane_nrModel (l : Nat) (x : Lane) : (d.setLane l x).nrModel = d.nrModel := rfl
@[simp] theorem setLane_tmState (l : Nat) (x : Lane) : (d.setLane l x).tmState = d.tmState := rfl
@[simp] theorem setLane_focLive (l : Nat) (x : Lane) : (d.setLane l x).focLive = d.focLive := rfl
@[simp] theorem setLane_focSnap (l : Nat) (x : Lane) : (d.setLane l x).focSnap = d.focSnap := rfl
@[simp] theorem setLane_zones (l : Nat) (x : Lane) : (d.setLane l x).zones = d.zones := rfl
@[simp] theorem setLane_zoneRows (l : Nat) (x : Lane) : (d.setLane l x).zoneRows = d.zoneRows := rfl
@[simp] theorem setLane_corOut (l : Nat) (x : Lane) : (d.setLane l x).corOut = d.corOut := rfl
@[simp] theorem setLane_fgRows (l : Nat) (x : Lane) : (d.setLane l x).fgRows = d.fgRows := rfl
@[simp] theorem setLane_geoHist (l : Nat) (x : Lane) : (d.setLane l x).geoHist = d.geoHist := rfl
@[simp] theorem setLane_seams (l : Nat) (x : Lane) : (d.setLane l x).seams = d.seams := rfl
@[simp] theorem setLane_arSwapped (l : Nat) (x : Lane) : (d.setLane l x).arSwapped = d.arSwapped := rfl
@[simp] theorem setLane_arSteps (l : Nat) (x : Lane) : (d.setLane l x).arSteps = d.arSteps := rfl
@[simp] theorem setLane_ofsWrites (l : Nat) (x : Lane) : (d.setLane l x).ofsWrites = d.ofsWrites := rfl
@[simp] theorem setLane_skyOut (l : Nat) (x : Lane) : (d.setLane l x).skyOut = d.skyOut := rfl
@[simp] theorem setLane_seg (l : Nat) (x : Lane) : (d.setLane l x).seg = d.seg := rfl
@[simp] theorem setLane_engines (l : Nat) (x : Lane) : (d.setLane l x).engines = d.engines := rfl
@[simp] theorem setLane_plan (l : Nat) (x : Lane) : (d.setLane l x).plan = d.plan := rfl
@[simp] theorem setLane_mots (l : Nat) (x : Lane) : (d.setLane l x).mots = d.mots := rfl
@[simp] theorem setLane_motReps (l : Nat) (x : Lane) : (d.setLane l x).motReps = d.motReps := rfl
@[simp] theorem setLane_hitLatch (l : Nat) (x : Lane) : (d.setLane l x).hitLatch = d.hitLatch := rfl
@[simp] theorem setLane_cmpAt (l : Nat) (x : Lane) : (d.setLane l x).cmpAt = d.cmpAt := rfl
@[simp] theorem setLane_sigs (l : Nat) (x : Lane) : (d.setLane l x).sigs = d.sigs := rfl
@[simp] theorem setLane_trim (l : Nat) (x : Lane) : (d.setLane l x).trim = d.trim := rfl
@[simp] theorem setLane_clock (l : Nat) (x : Lane) : (d.setLane l x).clock = d.clock := rfl
@[simp] theorem setLane_timing (l : Nat) (x : Lane) : (d.setLane l x).timing = d.timing := rfl
@[simp] theorem setLane_net (l : Nat) (x : Lane) : (d.setLane l x).net = d.net := rfl
@[simp] theorem setLane_pack (l : Nat) (x : Lane) : (d.setLane l x).pack = d.pack := rfl
@[simp] theorem setLane_rings (l : Nat) (x : Lane) : (d.setLane l x).rings = d.rings := rfl
@[simp] theorem setLane_arb (l : Nat) (x : Lane) : (d.setLane l x).arb = d.arb := rfl
@[simp] theorem setLane_recLeft (l : Nat) (x : Lane) : (d.setLane l x).recLeft = d.recLeft := rfl
@[simp] theorem setLane_sampled (l : Nat) (x : Lane) : (d.setLane l x).sampled = d.sampled := rfl
@[simp] theorem setLane_nvmKeys (l : Nat) (x : Lane) : (d.setLane l x).nvmKeys = d.nvmKeys := rfl
@[simp] theorem setLane_nvmWear (l : Nat) (x : Lane) : (d.setLane l x).nvmWear = d.nvmWear := rfl
@[simp] theorem setLane_nvmRetired (l : Nat) (x : Lane) : (d.setLane l x).nvmRetired = d.nvmRetired := rfl
@[simp] theorem setLane_illumDt (l : Nat) (x : Lane) : (d.setLane l x).illumDt = d.illumDt := rfl
@[simp] theorem setLane_isl (l : Nat) (x : Lane) : (d.setLane l x).isl = d.isl := rfl
@[simp] theorem setLane_monitors (l : Nat) (x : Lane) : (d.setLane l x).monitors = d.monitors := rfl
@[simp] theorem setLane_obs (l : Nat) (x : Lane) : (d.setLane l x).obs = d.obs := rfl
@[simp] theorem setLane_crcUnits (l : Nat) (x : Lane) : (d.setLane l x).crcUnits = d.crcUnits := rfl
@[simp] theorem setLane_teth (l : Nat) (x : Lane) : (d.setLane l x).teth = d.teth := rfl
@[simp] theorem setLane_boot (l : Nat) (x : Lane) : (d.setLane l x).boot = d.boot := rfl
@[simp] theorem setLane_accErr (l : Nat) (x : Lane) : (d.setLane l x).accErr = d.accErr := rfl

/-! ### `setQueue` -/

@[simp] theorem setQueue_regs (q : Nat) (x : Queue) : (d.setQueue q x).regs = d.regs := rfl
@[simp] theorem setQueue_mem (q : Nat) (x : Queue) : (d.setQueue q x).mem = d.mem := rfl
@[simp] theorem setQueue_host (q : Nat) (x : Queue) : (d.setQueue q x).host = d.host := rfl
@[simp] theorem setQueue_flash (q : Nat) (x : Queue) : (d.setQueue q x).flash = d.flash := rfl
@[simp] theorem setQueue_mram (q : Nat) (x : Queue) : (d.setQueue q x).mram = d.mram := rfl
@[simp] theorem setQueue_free (q : Nat) (x : Queue) : (d.setQueue q x).free = d.free := rfl
@[simp] theorem setQueue_out (q : Nat) (x : Queue) : (d.setQueue q x).out = d.out := rfl
@[simp] theorem setQueue_pins (q : Nat) (x : Queue) : (d.setQueue q x).pins = d.pins := rfl
@[simp] theorem setQueue_time (q : Nat) (x : Queue) : (d.setQueue q x).time = d.time := rfl
@[simp] theorem setQueue_power (q : Nat) (x : Queue) : (d.setQueue q x).power = d.power := rfl
@[simp] theorem setQueue_pcie (q : Nat) (x : Queue) : (d.setQueue q x).pcie = d.pcie := rfl
@[simp] theorem setQueue_cmd (q : Nat) (x : Queue) : (d.setQueue q x).cmd = d.cmd := rfl
@[simp] theorem setQueue_mer (q : Nat) (x : Queue) : (d.setQueue q x).mer = d.mer := rfl
@[simp] theorem setQueue_accepted (q : Nat) (x : Queue) : (d.setQueue q x).accepted = d.accepted := rfl
@[simp] theorem setQueue_ports (q : Nat) (x : Queue) : (d.setQueue q x).ports = d.ports := rfl
@[simp] theorem setQueue_gens (q : Nat) (x : Queue) : (d.setQueue q x).gens = d.gens := rfl
@[simp] theorem setQueue_slotsOut (q : Nat) (x : Queue) : (d.setQueue q x).slotsOut = d.slotsOut := rfl
@[simp] theorem setQueue_lanes (q : Nat) (x : Queue) : (d.setQueue q x).lanes = d.lanes := rfl
@[simp] theorem setQueue_swaps (q : Nat) (x : Queue) : (d.setQueue q x).swaps = d.swaps := rfl
@[simp] theorem setQueue_due (q : Nat) (x : Queue) : (d.setQueue q x).due = d.due := rfl
@[simp] theorem setQueue_staleAge (q : Nat) (x : Queue) : (d.setQueue q x).staleAge = d.staleAge := rfl
@[simp] theorem setQueue_nrModel (q : Nat) (x : Queue) : (d.setQueue q x).nrModel = d.nrModel := rfl
@[simp] theorem setQueue_tmState (q : Nat) (x : Queue) : (d.setQueue q x).tmState = d.tmState := rfl
@[simp] theorem setQueue_focLive (q : Nat) (x : Queue) : (d.setQueue q x).focLive = d.focLive := rfl
@[simp] theorem setQueue_focSnap (q : Nat) (x : Queue) : (d.setQueue q x).focSnap = d.focSnap := rfl
@[simp] theorem setQueue_zones (q : Nat) (x : Queue) : (d.setQueue q x).zones = d.zones := rfl
@[simp] theorem setQueue_zoneRows (q : Nat) (x : Queue) : (d.setQueue q x).zoneRows = d.zoneRows := rfl
@[simp] theorem setQueue_corOut (q : Nat) (x : Queue) : (d.setQueue q x).corOut = d.corOut := rfl
@[simp] theorem setQueue_fgRows (q : Nat) (x : Queue) : (d.setQueue q x).fgRows = d.fgRows := rfl
@[simp] theorem setQueue_geoHist (q : Nat) (x : Queue) : (d.setQueue q x).geoHist = d.geoHist := rfl
@[simp] theorem setQueue_seams (q : Nat) (x : Queue) : (d.setQueue q x).seams = d.seams := rfl
@[simp] theorem setQueue_arSwapped (q : Nat) (x : Queue) : (d.setQueue q x).arSwapped = d.arSwapped := rfl
@[simp] theorem setQueue_arSteps (q : Nat) (x : Queue) : (d.setQueue q x).arSteps = d.arSteps := rfl
@[simp] theorem setQueue_ofsWrites (q : Nat) (x : Queue) : (d.setQueue q x).ofsWrites = d.ofsWrites := rfl
@[simp] theorem setQueue_skyOut (q : Nat) (x : Queue) : (d.setQueue q x).skyOut = d.skyOut := rfl
@[simp] theorem setQueue_seg (q : Nat) (x : Queue) : (d.setQueue q x).seg = d.seg := rfl
@[simp] theorem setQueue_engines (q : Nat) (x : Queue) : (d.setQueue q x).engines = d.engines := rfl
@[simp] theorem setQueue_plan (q : Nat) (x : Queue) : (d.setQueue q x).plan = d.plan := rfl
@[simp] theorem setQueue_mots (q : Nat) (x : Queue) : (d.setQueue q x).mots = d.mots := rfl
@[simp] theorem setQueue_motReps (q : Nat) (x : Queue) : (d.setQueue q x).motReps = d.motReps := rfl
@[simp] theorem setQueue_hitLatch (q : Nat) (x : Queue) : (d.setQueue q x).hitLatch = d.hitLatch := rfl
@[simp] theorem setQueue_cmpAt (q : Nat) (x : Queue) : (d.setQueue q x).cmpAt = d.cmpAt := rfl
@[simp] theorem setQueue_sigs (q : Nat) (x : Queue) : (d.setQueue q x).sigs = d.sigs := rfl
@[simp] theorem setQueue_trim (q : Nat) (x : Queue) : (d.setQueue q x).trim = d.trim := rfl
@[simp] theorem setQueue_clock (q : Nat) (x : Queue) : (d.setQueue q x).clock = d.clock := rfl
@[simp] theorem setQueue_timing (q : Nat) (x : Queue) : (d.setQueue q x).timing = d.timing := rfl
@[simp] theorem setQueue_net (q : Nat) (x : Queue) : (d.setQueue q x).net = d.net := rfl
@[simp] theorem setQueue_pack (q : Nat) (x : Queue) : (d.setQueue q x).pack = d.pack := rfl
@[simp] theorem setQueue_rings (q : Nat) (x : Queue) : (d.setQueue q x).rings = d.rings := rfl
@[simp] theorem setQueue_arb (q : Nat) (x : Queue) : (d.setQueue q x).arb = d.arb := rfl
@[simp] theorem setQueue_recLeft (q : Nat) (x : Queue) : (d.setQueue q x).recLeft = d.recLeft := rfl
@[simp] theorem setQueue_sampled (q : Nat) (x : Queue) : (d.setQueue q x).sampled = d.sampled := rfl
@[simp] theorem setQueue_nvmKeys (q : Nat) (x : Queue) : (d.setQueue q x).nvmKeys = d.nvmKeys := rfl
@[simp] theorem setQueue_nvmWear (q : Nat) (x : Queue) : (d.setQueue q x).nvmWear = d.nvmWear := rfl
@[simp] theorem setQueue_nvmRetired (q : Nat) (x : Queue) : (d.setQueue q x).nvmRetired = d.nvmRetired := rfl
@[simp] theorem setQueue_illumDt (q : Nat) (x : Queue) : (d.setQueue q x).illumDt = d.illumDt := rfl
@[simp] theorem setQueue_isl (q : Nat) (x : Queue) : (d.setQueue q x).isl = d.isl := rfl
@[simp] theorem setQueue_monitors (q : Nat) (x : Queue) : (d.setQueue q x).monitors = d.monitors := rfl
@[simp] theorem setQueue_obs (q : Nat) (x : Queue) : (d.setQueue q x).obs = d.obs := rfl
@[simp] theorem setQueue_crcUnits (q : Nat) (x : Queue) : (d.setQueue q x).crcUnits = d.crcUnits := rfl
@[simp] theorem setQueue_teth (q : Nat) (x : Queue) : (d.setQueue q x).teth = d.teth := rfl
@[simp] theorem setQueue_boot (q : Nat) (x : Queue) : (d.setQueue q x).boot = d.boot := rfl
@[simp] theorem setQueue_accErr (q : Nat) (x : Queue) : (d.setQueue q x).accErr = d.accErr := rfl

/-! ### `setPin` -/

@[simp] theorem setPin_regs (p : Pin) (l : Level) : (d.setPin p l).regs = d.regs := rfl
@[simp] theorem setPin_mem (p : Pin) (l : Level) : (d.setPin p l).mem = d.mem := rfl
@[simp] theorem setPin_host (p : Pin) (l : Level) : (d.setPin p l).host = d.host := rfl
@[simp] theorem setPin_flash (p : Pin) (l : Level) : (d.setPin p l).flash = d.flash := rfl
@[simp] theorem setPin_mram (p : Pin) (l : Level) : (d.setPin p l).mram = d.mram := rfl
@[simp] theorem setPin_free (p : Pin) (l : Level) : (d.setPin p l).free = d.free := rfl
@[simp] theorem setPin_out (p : Pin) (l : Level) : (d.setPin p l).out = d.out := rfl
@[simp] theorem setPin_time (p : Pin) (l : Level) : (d.setPin p l).time = d.time := rfl
@[simp] theorem setPin_power (p : Pin) (l : Level) : (d.setPin p l).power = d.power := rfl
@[simp] theorem setPin_pcie (p : Pin) (l : Level) : (d.setPin p l).pcie = d.pcie := rfl
@[simp] theorem setPin_cmd (p : Pin) (l : Level) : (d.setPin p l).cmd = d.cmd := rfl
@[simp] theorem setPin_queues (p : Pin) (l : Level) : (d.setPin p l).queues = d.queues := rfl
@[simp] theorem setPin_mer (p : Pin) (l : Level) : (d.setPin p l).mer = d.mer := rfl
@[simp] theorem setPin_accepted (p : Pin) (l : Level) : (d.setPin p l).accepted = d.accepted := rfl
@[simp] theorem setPin_ports (p : Pin) (l : Level) : (d.setPin p l).ports = d.ports := rfl
@[simp] theorem setPin_gens (p : Pin) (l : Level) : (d.setPin p l).gens = d.gens := rfl
@[simp] theorem setPin_slotsOut (p : Pin) (l : Level) : (d.setPin p l).slotsOut = d.slotsOut := rfl
@[simp] theorem setPin_lanes (p : Pin) (l : Level) : (d.setPin p l).lanes = d.lanes := rfl
@[simp] theorem setPin_swaps (p : Pin) (l : Level) : (d.setPin p l).swaps = d.swaps := rfl
@[simp] theorem setPin_due (p : Pin) (l : Level) : (d.setPin p l).due = d.due := rfl
@[simp] theorem setPin_staleAge (p : Pin) (l : Level) : (d.setPin p l).staleAge = d.staleAge := rfl
@[simp] theorem setPin_nrModel (p : Pin) (l : Level) : (d.setPin p l).nrModel = d.nrModel := rfl
@[simp] theorem setPin_tmState (p : Pin) (l : Level) : (d.setPin p l).tmState = d.tmState := rfl
@[simp] theorem setPin_focLive (p : Pin) (l : Level) : (d.setPin p l).focLive = d.focLive := rfl
@[simp] theorem setPin_focSnap (p : Pin) (l : Level) : (d.setPin p l).focSnap = d.focSnap := rfl
@[simp] theorem setPin_zones (p : Pin) (l : Level) : (d.setPin p l).zones = d.zones := rfl
@[simp] theorem setPin_zoneRows (p : Pin) (l : Level) : (d.setPin p l).zoneRows = d.zoneRows := rfl
@[simp] theorem setPin_corOut (p : Pin) (l : Level) : (d.setPin p l).corOut = d.corOut := rfl
@[simp] theorem setPin_fgRows (p : Pin) (l : Level) : (d.setPin p l).fgRows = d.fgRows := rfl
@[simp] theorem setPin_geoHist (p : Pin) (l : Level) : (d.setPin p l).geoHist = d.geoHist := rfl
@[simp] theorem setPin_seams (p : Pin) (l : Level) : (d.setPin p l).seams = d.seams := rfl
@[simp] theorem setPin_arSwapped (p : Pin) (l : Level) : (d.setPin p l).arSwapped = d.arSwapped := rfl
@[simp] theorem setPin_arSteps (p : Pin) (l : Level) : (d.setPin p l).arSteps = d.arSteps := rfl
@[simp] theorem setPin_ofsWrites (p : Pin) (l : Level) : (d.setPin p l).ofsWrites = d.ofsWrites := rfl
@[simp] theorem setPin_skyOut (p : Pin) (l : Level) : (d.setPin p l).skyOut = d.skyOut := rfl
@[simp] theorem setPin_seg (p : Pin) (l : Level) : (d.setPin p l).seg = d.seg := rfl
@[simp] theorem setPin_engines (p : Pin) (l : Level) : (d.setPin p l).engines = d.engines := rfl
@[simp] theorem setPin_plan (p : Pin) (l : Level) : (d.setPin p l).plan = d.plan := rfl
@[simp] theorem setPin_mots (p : Pin) (l : Level) : (d.setPin p l).mots = d.mots := rfl
@[simp] theorem setPin_motReps (p : Pin) (l : Level) : (d.setPin p l).motReps = d.motReps := rfl
@[simp] theorem setPin_hitLatch (p : Pin) (l : Level) : (d.setPin p l).hitLatch = d.hitLatch := rfl
@[simp] theorem setPin_cmpAt (p : Pin) (l : Level) : (d.setPin p l).cmpAt = d.cmpAt := rfl
@[simp] theorem setPin_sigs (p : Pin) (l : Level) : (d.setPin p l).sigs = d.sigs := rfl
@[simp] theorem setPin_trim (p : Pin) (l : Level) : (d.setPin p l).trim = d.trim := rfl
@[simp] theorem setPin_clock (p : Pin) (l : Level) : (d.setPin p l).clock = d.clock := rfl
@[simp] theorem setPin_timing (p : Pin) (l : Level) : (d.setPin p l).timing = d.timing := rfl
@[simp] theorem setPin_net (p : Pin) (l : Level) : (d.setPin p l).net = d.net := rfl
@[simp] theorem setPin_pack (p : Pin) (l : Level) : (d.setPin p l).pack = d.pack := rfl
@[simp] theorem setPin_rings (p : Pin) (l : Level) : (d.setPin p l).rings = d.rings := rfl
@[simp] theorem setPin_arb (p : Pin) (l : Level) : (d.setPin p l).arb = d.arb := rfl
@[simp] theorem setPin_recLeft (p : Pin) (l : Level) : (d.setPin p l).recLeft = d.recLeft := rfl
@[simp] theorem setPin_sampled (p : Pin) (l : Level) : (d.setPin p l).sampled = d.sampled := rfl
@[simp] theorem setPin_nvmKeys (p : Pin) (l : Level) : (d.setPin p l).nvmKeys = d.nvmKeys := rfl
@[simp] theorem setPin_nvmWear (p : Pin) (l : Level) : (d.setPin p l).nvmWear = d.nvmWear := rfl
@[simp] theorem setPin_nvmRetired (p : Pin) (l : Level) : (d.setPin p l).nvmRetired = d.nvmRetired := rfl
@[simp] theorem setPin_illumDt (p : Pin) (l : Level) : (d.setPin p l).illumDt = d.illumDt := rfl
@[simp] theorem setPin_isl (p : Pin) (l : Level) : (d.setPin p l).isl = d.isl := rfl
@[simp] theorem setPin_monitors (p : Pin) (l : Level) : (d.setPin p l).monitors = d.monitors := rfl
@[simp] theorem setPin_obs (p : Pin) (l : Level) : (d.setPin p l).obs = d.obs := rfl
@[simp] theorem setPin_crcUnits (p : Pin) (l : Level) : (d.setPin p l).crcUnits = d.crcUnits := rfl
@[simp] theorem setPin_teth (p : Pin) (l : Level) : (d.setPin p l).teth = d.teth := rfl
@[simp] theorem setPin_boot (p : Pin) (l : Level) : (d.setPin p l).boot = d.boot := rfl
@[simp] theorem setPin_accErr (p : Pin) (l : Level) : (d.setPin p l).accErr = d.accErr := rfl

/-! ### `dropCmd` -/

@[simp] theorem dropCmd_regs : (d.dropCmd).regs = d.regs := rfl
@[simp] theorem dropCmd_mem : (d.dropCmd).mem = d.mem := rfl
@[simp] theorem dropCmd_host : (d.dropCmd).host = d.host := rfl
@[simp] theorem dropCmd_flash : (d.dropCmd).flash = d.flash := rfl
@[simp] theorem dropCmd_mram : (d.dropCmd).mram = d.mram := rfl
@[simp] theorem dropCmd_free : (d.dropCmd).free = d.free := rfl
@[simp] theorem dropCmd_out : (d.dropCmd).out = d.out := rfl
@[simp] theorem dropCmd_pins : (d.dropCmd).pins = d.pins := rfl
@[simp] theorem dropCmd_time : (d.dropCmd).time = d.time := rfl
@[simp] theorem dropCmd_power : (d.dropCmd).power = d.power := rfl
@[simp] theorem dropCmd_pcie : (d.dropCmd).pcie = d.pcie := rfl
@[simp] theorem dropCmd_queues : (d.dropCmd).queues = d.queues := rfl
@[simp] theorem dropCmd_mer : (d.dropCmd).mer = d.mer := rfl
@[simp] theorem dropCmd_accepted : (d.dropCmd).accepted = d.accepted := rfl
@[simp] theorem dropCmd_ports : (d.dropCmd).ports = d.ports := rfl
@[simp] theorem dropCmd_gens : (d.dropCmd).gens = d.gens := rfl
@[simp] theorem dropCmd_slotsOut : (d.dropCmd).slotsOut = d.slotsOut := rfl
@[simp] theorem dropCmd_lanes : (d.dropCmd).lanes = d.lanes := rfl
@[simp] theorem dropCmd_swaps : (d.dropCmd).swaps = d.swaps := rfl
@[simp] theorem dropCmd_due : (d.dropCmd).due = d.due := rfl
@[simp] theorem dropCmd_staleAge : (d.dropCmd).staleAge = d.staleAge := rfl
@[simp] theorem dropCmd_nrModel : (d.dropCmd).nrModel = d.nrModel := rfl
@[simp] theorem dropCmd_tmState : (d.dropCmd).tmState = d.tmState := rfl
@[simp] theorem dropCmd_focLive : (d.dropCmd).focLive = d.focLive := rfl
@[simp] theorem dropCmd_focSnap : (d.dropCmd).focSnap = d.focSnap := rfl
@[simp] theorem dropCmd_zones : (d.dropCmd).zones = d.zones := rfl
@[simp] theorem dropCmd_zoneRows : (d.dropCmd).zoneRows = d.zoneRows := rfl
@[simp] theorem dropCmd_corOut : (d.dropCmd).corOut = d.corOut := rfl
@[simp] theorem dropCmd_fgRows : (d.dropCmd).fgRows = d.fgRows := rfl
@[simp] theorem dropCmd_geoHist : (d.dropCmd).geoHist = d.geoHist := rfl
@[simp] theorem dropCmd_seams : (d.dropCmd).seams = d.seams := rfl
@[simp] theorem dropCmd_arSwapped : (d.dropCmd).arSwapped = d.arSwapped := rfl
@[simp] theorem dropCmd_arSteps : (d.dropCmd).arSteps = d.arSteps := rfl
@[simp] theorem dropCmd_ofsWrites : (d.dropCmd).ofsWrites = d.ofsWrites := rfl
@[simp] theorem dropCmd_skyOut : (d.dropCmd).skyOut = d.skyOut := rfl
@[simp] theorem dropCmd_seg : (d.dropCmd).seg = d.seg := rfl
@[simp] theorem dropCmd_engines : (d.dropCmd).engines = d.engines := rfl
@[simp] theorem dropCmd_plan : (d.dropCmd).plan = d.plan := rfl
@[simp] theorem dropCmd_mots : (d.dropCmd).mots = d.mots := rfl
@[simp] theorem dropCmd_motReps : (d.dropCmd).motReps = d.motReps := rfl
@[simp] theorem dropCmd_hitLatch : (d.dropCmd).hitLatch = d.hitLatch := rfl
@[simp] theorem dropCmd_cmpAt : (d.dropCmd).cmpAt = d.cmpAt := rfl
@[simp] theorem dropCmd_sigs : (d.dropCmd).sigs = d.sigs := rfl
@[simp] theorem dropCmd_trim : (d.dropCmd).trim = d.trim := rfl
@[simp] theorem dropCmd_clock : (d.dropCmd).clock = d.clock := rfl
@[simp] theorem dropCmd_timing : (d.dropCmd).timing = d.timing := rfl
@[simp] theorem dropCmd_net : (d.dropCmd).net = d.net := rfl
@[simp] theorem dropCmd_pack : (d.dropCmd).pack = d.pack := rfl
@[simp] theorem dropCmd_rings : (d.dropCmd).rings = d.rings := rfl
@[simp] theorem dropCmd_arb : (d.dropCmd).arb = d.arb := rfl
@[simp] theorem dropCmd_recLeft : (d.dropCmd).recLeft = d.recLeft := rfl
@[simp] theorem dropCmd_sampled : (d.dropCmd).sampled = d.sampled := rfl
@[simp] theorem dropCmd_nvmKeys : (d.dropCmd).nvmKeys = d.nvmKeys := rfl
@[simp] theorem dropCmd_nvmWear : (d.dropCmd).nvmWear = d.nvmWear := rfl
@[simp] theorem dropCmd_nvmRetired : (d.dropCmd).nvmRetired = d.nvmRetired := rfl
@[simp] theorem dropCmd_illumDt : (d.dropCmd).illumDt = d.illumDt := rfl
@[simp] theorem dropCmd_isl : (d.dropCmd).isl = d.isl := rfl
@[simp] theorem dropCmd_monitors : (d.dropCmd).monitors = d.monitors := rfl
@[simp] theorem dropCmd_obs : (d.dropCmd).obs = d.obs := rfl
@[simp] theorem dropCmd_crcUnits : (d.dropCmd).crcUnits = d.crcUnits := rfl
@[simp] theorem dropCmd_teth : (d.dropCmd).teth = d.teth := rfl
@[simp] theorem dropCmd_boot : (d.dropCmd).boot = d.boot := rfl
@[simp] theorem dropCmd_accErr : (d.dropCmd).accErr = d.accErr := rfl

/-! ### `canon` -/

@[simp] theorem canon_free : (d.canon).free = d.free := rfl
@[simp] theorem canon_out : (d.canon).out = d.out := rfl
@[simp] theorem canon_pins : (d.canon).pins = d.pins := rfl
@[simp] theorem canon_time : (d.canon).time = d.time := rfl
@[simp] theorem canon_power : (d.canon).power = d.power := rfl
@[simp] theorem canon_pcie : (d.canon).pcie = d.pcie := rfl
@[simp] theorem canon_cmd : (d.canon).cmd = d.cmd := rfl
@[simp] theorem canon_queues : (d.canon).queues = d.queues := rfl
@[simp] theorem canon_mer : (d.canon).mer = d.mer := rfl
@[simp] theorem canon_accepted : (d.canon).accepted = d.accepted := rfl
@[simp] theorem canon_ports : (d.canon).ports = d.ports := rfl
@[simp] theorem canon_gens : (d.canon).gens = d.gens := rfl
@[simp] theorem canon_slotsOut : (d.canon).slotsOut = d.slotsOut := rfl
@[simp] theorem canon_lanes : (d.canon).lanes = d.lanes := rfl
@[simp] theorem canon_swaps : (d.canon).swaps = d.swaps := rfl
@[simp] theorem canon_due : (d.canon).due = d.due := rfl
@[simp] theorem canon_staleAge : (d.canon).staleAge = d.staleAge := rfl
@[simp] theorem canon_nrModel : (d.canon).nrModel = d.nrModel := rfl
@[simp] theorem canon_tmState : (d.canon).tmState = d.tmState := rfl
@[simp] theorem canon_focLive : (d.canon).focLive = d.focLive := rfl
@[simp] theorem canon_focSnap : (d.canon).focSnap = d.focSnap := rfl
@[simp] theorem canon_zones : (d.canon).zones = d.zones := rfl
@[simp] theorem canon_zoneRows : (d.canon).zoneRows = d.zoneRows := rfl
@[simp] theorem canon_corOut : (d.canon).corOut = d.corOut := rfl
@[simp] theorem canon_fgRows : (d.canon).fgRows = d.fgRows := rfl
@[simp] theorem canon_geoHist : (d.canon).geoHist = d.geoHist := rfl
@[simp] theorem canon_seams : (d.canon).seams = d.seams := rfl
@[simp] theorem canon_arSwapped : (d.canon).arSwapped = d.arSwapped := rfl
@[simp] theorem canon_arSteps : (d.canon).arSteps = d.arSteps := rfl
@[simp] theorem canon_ofsWrites : (d.canon).ofsWrites = d.ofsWrites := rfl
@[simp] theorem canon_skyOut : (d.canon).skyOut = d.skyOut := rfl
@[simp] theorem canon_seg : (d.canon).seg = d.seg := rfl
@[simp] theorem canon_engines : (d.canon).engines = d.engines := rfl
@[simp] theorem canon_plan : (d.canon).plan = d.plan := rfl
@[simp] theorem canon_mots : (d.canon).mots = d.mots := rfl
@[simp] theorem canon_motReps : (d.canon).motReps = d.motReps := rfl
@[simp] theorem canon_hitLatch : (d.canon).hitLatch = d.hitLatch := rfl
@[simp] theorem canon_cmpAt : (d.canon).cmpAt = d.cmpAt := rfl
@[simp] theorem canon_sigs : (d.canon).sigs = d.sigs := rfl
@[simp] theorem canon_trim : (d.canon).trim = d.trim := rfl
@[simp] theorem canon_clock : (d.canon).clock = d.clock := rfl
@[simp] theorem canon_timing : (d.canon).timing = d.timing := rfl
@[simp] theorem canon_net : (d.canon).net = d.net := rfl
@[simp] theorem canon_pack : (d.canon).pack = d.pack := rfl
@[simp] theorem canon_rings : (d.canon).rings = d.rings := rfl
@[simp] theorem canon_arb : (d.canon).arb = d.arb := rfl
@[simp] theorem canon_recLeft : (d.canon).recLeft = d.recLeft := rfl
@[simp] theorem canon_sampled : (d.canon).sampled = d.sampled := rfl
@[simp] theorem canon_nvmKeys : (d.canon).nvmKeys = d.nvmKeys := rfl
@[simp] theorem canon_nvmWear : (d.canon).nvmWear = d.nvmWear := rfl
@[simp] theorem canon_nvmRetired : (d.canon).nvmRetired = d.nvmRetired := rfl
@[simp] theorem canon_illumDt : (d.canon).illumDt = d.illumDt := rfl
@[simp] theorem canon_isl : (d.canon).isl = d.isl := rfl
@[simp] theorem canon_monitors : (d.canon).monitors = d.monitors := rfl
@[simp] theorem canon_obs : (d.canon).obs = d.obs := rfl
@[simp] theorem canon_crcUnits : (d.canon).crcUnits = d.crcUnits := rfl
@[simp] theorem canon_teth : (d.canon).teth = d.teth := rfl
@[simp] theorem canon_boot : (d.canon).boot = d.boot := rfl
@[simp] theorem canon_accErr : (d.canon).accErr = d.accErr := rfl

end Sys2Proof.Machine.Dev
end

