-- ==== Sys2Proof/Laws/Fields.lean ====
section
/-! SUPPORT. Register fields: what a field reads as after each plain update of the device, and memory read after write. -/

namespace Sys2Proof.Machine.Dev

variable (d : Dev)

/-! ### A field after an update -/

/-- A field reads as what it was given, cut to its width. -/
@[simp] theorem get_set_self (f : Fld) (v : Nat) : (d.set f v).get f = v % 2 ^ f.width := by
  simp [get, set]

/-- A field at another place reads as before. -/
theorem get_set_ne {f g : Fld} (v : Nat) (h : g.key ≠ f.key) : (d.set f v).get g = d.get g :=
  Sparse.get_set_ne _ _ _ _ h

/-- Both cases at once, for fields that are one field when they stand in one place. -/
theorem get_set (f g : Fld) (v : Nat) (h : g.key = f.key → g = f) :
    (d.set f v).get g = if g.key = f.key then v % 2 ^ f.width else d.get g := by
  split
  · next e => rw [h e, get_set_self]
  · next e => exact get_set_ne d v e

theorem get_put_self (f : Fld) (b : Bool) (h : f.width ≠ 0) : (d.put f b).get f = b2n b := by
  rw [put, get_set_self]
  have : 2 ≤ 2 ^ f.width := by
    calc 2 = 2 ^ 1 := rfl
      _ ≤ 2 ^ f.width := Nat.pow_le_pow_right (by omega) (by omega)
  apply Nat.mod_eq_of_lt
  cases b <;> simp [b2n]; omega

theorem get_put_ne {f g : Fld} (b : Bool) (h : g.key ≠ f.key) : (d.put f b).get g = d.get g := get_set_ne d _ h

@[simp] theorem get_count_self (f : Fld) (n : Nat) : (d.count f n).get f = (d.get f + n) % 2 ^ f.width := get_set_self d f _

theorem get_count_ne {f g : Fld} (n : Nat) (h : g.key ≠ f.key) : (d.count f n).get g = d.get g := get_set_ne d _ h

@[simp] theorem get_countSat_self (f : Fld) : (d.countSat f).get f = satInc f.width (d.get f) % 2 ^ f.width := get_set_self d f _

theorem get_countSat_ne {f g : Fld} (h : g.key ≠ f.key) : (d.countSat f).get g = d.get g := get_set_ne d _ h

theorem get_setS_ne {f g : Fld} (i : Int) (h : g.key ≠ f.key) : (d.setS f i).get g = d.get g := get_set_ne d _ h

theorem get_putBit_ne {f g : Fld} (k : Nat) (b : Bool) (h : g.key ≠ f.key) : (d.putBit f k b).get g = d.get g := get_set_ne d _ h

/-- Putting a device into canonical form changes no field. -/
@[simp] theorem get_canon (f : Fld) : d.canon.get f = d.get f := by simp [get, canon]

@[simp] theorem bit_canon (f : Fld) : d.canon.bit f = d.bit f := by simp [bit]

/-- A device that differs only outside its register store reads alike. -/
theorem get_congr {d e : Dev} (h : d.regs = e.regs) (f : Fld) : d.get f = e.get f := by simp [get, h]

@[simp] theorem get_emit (e : Emission) (f : Fld) : (d.emit e).get f = d.get f := rfl
@[simp] theorem get_freeUsed (n : Nat) (f : Fld) : (d.freeUsed n).get f = d.get f := rfl
@[simp] theorem get_dropCmd (f : Fld) : d.dropCmd.get f = d.get f := rfl
@[simp] theorem get_setByte (a : Nat) (v : Byte) (f : Fld) : (d.setByte a v).get f = d.get f := rfl
@[simp] theorem get_setPort (p : Nat) (x : Port) (f : Fld) : (d.setPort p x).get f = d.get f := rfl
@[simp] theorem get_setGen (g : Nat) (x : Gen) (f : Fld) : (d.setGen g x).get f = d.get f := rfl
@[simp] theorem get_setLane (l : Nat) (x : Lane) (f : Fld) : (d.setLane l x).get f = d.get f := rfl
@[simp] theorem get_setQueue (q : Nat) (x : Queue) (f : Fld) : (d.setQueue q x).get f = d.get f := rfl
@[simp] theorem get_setPin (p : Pin) (l : Level) (f : Fld) : (d.setPin p l).get f = d.get f := rfl

/-! ### Numbered units -/

@[simp] theorem port_setPort (p : Nat) (x : Port) : (d.setPort p x).port p = x := Sparse.get_set_self _ _ _ _
@[simp] theorem gen_setGen (g : Nat) (x : Gen) : (d.setGen g x).gen g = x := Sparse.get_set_self _ _ _ _
@[simp] theorem lane_setLane (l : Nat) (x : Lane) : (d.setLane l x).lane l = x := Sparse.get_set_self _ _ _ _
@[simp] theorem queue_setQueue (q : Nat) (x : Queue) : (d.setQueue q x).queue q = x := Sparse.get_set_self _ _ _ _
/-- SMB_ALERT_N apart, whose conditions may hold it low. -/
theorem pin_setPin {p : Pin} (l : Level) (h : p ≠ .smbAlertN) : (d.setPin p l).pin p = l := by
  simp [pin, setPin, h, Sparse.get_set_self]

theorem port_setPort_ne {p q : Nat} (x : Port) (h : q ≠ p) : (d.setPort p x).port q = d.port q := Sparse.get_set_ne _ _ _ _ h
theorem gen_setGen_ne {p q : Nat} (x : Gen) (h : q ≠ p) : (d.setGen p x).gen q = d.gen q := Sparse.get_set_ne _ _ _ _ h
theorem lane_setLane_ne {p q : Nat} (x : Lane) (h : q ≠ p) : (d.setLane p x).lane q = d.lane q := Sparse.get_set_ne _ _ _ _ h
theorem queue_setQueue_ne {p q : Nat} (x : Queue) (h : q ≠ p) : (d.setQueue p x).queue q = d.queue q := Sparse.get_set_ne _ _ _ _ h
theorem pin_setPin_ne {p q : Pin} (l : Level) (h : q.code ≠ p.code) : (d.setPin p l).pin q = d.pin q := by
  show (if q = .smbAlertN ∧ d.smbAlerts then Level.low else Sparse.get (Sparse.set d.pins p.porLevel p.code l) q.porLevel q.code) = _
  rw [Sparse.get_set_ne _ _ _ _ h]; rfl

/-! ### Memory -/

@[simp] theorem byte_canon (a : Nat) : d.canon.byte a = d.byte a := by simp [byte, canon]

@[simp] theorem byte_setByte_self (a : Nat) (v : Byte) : (d.setByte a v).byte a = v := Sparse.get_set_self _ _ _ _

theorem byte_setByte_ne {a b : Nat} (v : Byte) (h : b ≠ a) : (d.setByte a v).byte b = d.byte b := Sparse.get_set_ne _ _ _ _ h

@[simp] theorem byte_set (f : Fld) (v a : Nat) : (d.set f v).byte a = d.byte a := rfl

/-- A byte outside the bytes written reads as before. -/
theorem byte_setBytes_ne (bs : List Nat) {a b : Nat} (h : b < a ∨ a + bs.length ≤ b) : (d.setBytes a bs).byte b = d.byte b := by
  induction bs generalizing d a with
  | nil => rfl
  | cons x xs ih =>
    simp only [List.length_cons] at h
    rw [setBytes, ih _ (by omega), byte_setByte_ne _ _ (by omega)]

/-- A byte written reads as what was written. -/
theorem byte_setBytes (bs : List Nat) (a i : Nat) (h : i < bs.length) : (d.setBytes a bs).byte (a + i) = BitVec.ofNat 8 (bs.getD i 0) := by
  induction bs generalizing d a i with
  | nil => simp at h
  | cons x xs ih =>
    rw [setBytes]
    cases i with
    | zero => rw [byte_setBytes_ne _ _ (by omega)]; simp
    | succ i =>
      rw [show a + (i + 1) = a + 1 + i by omega, ih _ _ _ (by simpa using h)]
      simp

end Sys2Proof.Machine.Dev
end

