-- ==== Sys2Proof/Laws/Canonical.lean ====
section
/-! SUPPORT. The canonical form of the memories: every memory operation keeps it, and `Dev.canon` gives it without a change of what reads. -/

namespace Sys2Proof.Machine.Dev

variable (d : Dev)

theorem wf_setByte (a : Nat) (v : Byte) (h : Memory.wf d.mem = true) : Memory.wf (d.setByte a v).mem = true := Sparse.wf_set _ _ h

theorem wf_setBytes (bs : List Nat) (a : Nat) (h : Memory.wf d.mem = true) : Memory.wf (d.setBytes a bs).mem = true := by
  induction bs generalizing d a with
  | nil => exact h
  | cons b bs ih => exact ih _ _ (wf_setByte _ _ _ h)

theorem wf_write (a n v : Nat) (h : Memory.wf d.mem = true) : Memory.wf (d.write a n v).mem = true := wf_setBytes _ _ _ h

theorem wf_setHostBytes (bs : List Nat) (a : Nat) (h : Memory.wf d.host = true) : Memory.wf (d.setHostBytes a bs).host = true := by
  induction bs generalizing d a with
  | nil => exact h
  | cons b bs ih => exact ih _ _ (Sparse.wf_set _ _ h)

theorem wf_setMram (bs : List Nat) (a : Nat) (h : Memory.wf d.mram = true) : Memory.wf (d.setMram a bs).mram = true := by
  induction bs generalizing d a with
  | nil => exact h
  | cons b bs ih => exact ih _ _ (Sparse.wf_set _ _ h)

theorem wf_setFlash (bs : List Nat) (a : Nat) (h : Memory.wf d.flash = true) : Memory.wf (d.setFlash a bs).flash = true := by
  induction bs generalizing d a with
  | nil => exact h
  | cons b bs ih => exact ih _ _ (Sparse.wf_set _ _ h)

theorem wf_copyMem (src dst n : Nat) (h : Memory.wf d.mem = true) : Memory.wf (d.copyMem src dst n).mem = true :=
  Sparse.wf_foldl_set _ _ (Sparse.wf_filter _ h)

/-- Whatever the device, its canonical form is canonical. -/
theorem canonical_canon : d.canon.Canonical := by
  simp [Canonical, Memory.wf, canon]

/-- Putting a device into canonical form changes no byte and no field. -/
theorem keeps_canon : KeepsMemory d d.canon ∧ KeepsRegs d d.canon [] := by
  simp [KeepsMemory, KeepsRegs, canon, byte, get]

end Sys2Proof.Machine.Dev
end

