-- ==== Sys2Proof/Laws/Shared.lean ====
section
/-! SUPPORT. What the shared operations can do: recording an event, an error or a report record, signalling a vector, completing a command. For
each: the fields of the device it may change at all, and the register fields it leaves alone (`Fld.plain`). -/

namespace Sys2Proof.Machine

/-! ### Places of register fields -/

theorem Fld.quiet_congr {f g : Fld} (h : f.key = g.key) : f.quiet = g.quiet := by simp only [Fld.quiet, h]
theorem Fld.calm_congr {f g : Fld} (h : f.key = g.key) : f.calm = g.calm := by simp only [Fld.calm, Fld.quiet, h]
theorem Fld.plain_congr {f g : Fld} (h : f.key = g.key) : f.plain = g.plain := by simp only [Fld.plain, Fld.calm, Fld.quiet, h]

/-- Two fields of which one is quiet stand at two places; so for calm and plain. -/
theorem Fld.ne_of_quiet {f g : Fld} (hf : f.quiet = true) (hg : g.quiet = false) : f.key ≠ g.key := fun h => by
  rw [Fld.quiet_congr h, hg] at hf; exact Bool.noConfusion hf
theorem Fld.ne_of_calm {f g : Fld} (hf : f.calm = true) (hg : g.calm = false) : f.key ≠ g.key := fun h => by
  rw [Fld.calm_congr h, hg] at hf; exact Bool.noConfusion hf
theorem Fld.ne_of_plain {f g : Fld} (hf : f.plain = true) (hg : g.plain = false) : f.key ≠ g.key := fun h => by
  rw [Fld.plain_congr h, hg] at hf; exact Bool.noConfusion hf

theorem Fld.quiet_of_calm {f : Fld} (h : f.calm = true) : f.quiet = true := by
  simp only [Fld.calm, Bool.and_eq_true] at h; exact h.1
theorem Fld.calm_of_plain {f : Fld} (h : f.plain = true) : f.calm = true := by
  simp only [Fld.plain, Bool.and_eq_true] at h; exact h.1

/-- A field of a page's header is quiet. -/
theorem Fld.quiet_header (p o l w r : Nat) (ho : o < 0x40) (hl : l < 32) : (⟨bar0 p o, l, w, r⟩ : Fld).quiet = true := by
  have h : (⟨bar0 p o, l, w, r⟩ : Fld).key / 32 % 0x1_0000 = o := by simp only [Fld.key, bar0]; omega
  simp only [Fld.quiet, h]
  simp; omega

/-- A field of a page's header apart from BLK_IRQ_RAW and BLK_EVT_CNT is calm. -/
theorem Fld.calm_header (p o l w r : Nat) (ho : o < 0x40) (hl : l < 32) (h1 : o ≠ 0x14) (h2 : o ≠ 0x28) :
    (⟨bar0 p o, l, w, r⟩ : Fld).calm = true := by
  have h : (⟨bar0 p o, l, w, r⟩ : Fld).key / 32 % 0x1_0000 = o := by simp only [Fld.key, bar0]; omega
  simp only [Fld.calm, h, Fld.quiet_header p o l w r ho hl]
  simp; omega

/-- And plain, where it is not BLK_ERR_CODE or BLK_ERR_INFO either. -/
theorem Fld.plain_header (p o l w r : Nat) (ho : o < 0x40) (hl : l < 32) (h1 : o ≠ 0x14) (h2 : o ≠ 0x28) (h3 : o ≠ 0x20) (h4 : o ≠ 0x24) :
    (⟨bar0 p o, l, w, r⟩ : Fld).plain = true := by
  have h : (⟨bar0 p o, l, w, r⟩ : Fld).key / 32 % 0x1_0000 = o := by simp only [Fld.key, bar0]; omega
  simp only [Fld.plain, h, Fld.calm_header p o l w r ho hl h1 h2]
  simp; omega

/-- A field of a page other than IRQ and HOST, past the header, is plain. -/
theorem Fld.plain_page (p o l w r : Nat) (ho : 0x40 ≤ o) (ho' : o < 0x1_0000) (hl : l < 32) (h2 : p ≠ 2) (h6 : p ≠ 6) (h4 : p ≠ 0x400) :
    (⟨bar0 p o, l, w, r⟩ : Fld).plain = true := by
  have h : (⟨bar0 p o, l, w, r⟩ : Fld).key / 32 % 0x1_0000 = o := by simp only [Fld.key, bar0]; omega
  have h' : (⟨bar0 p o, l, w, r⟩ : Fld).key / 32 / 0x1_0000 = p := by simp only [Fld.key, bar0]; omega
  simp only [Fld.plain, Fld.calm, Fld.quiet, h, h']
  simp; omega

theorem calm_raw (p : Nat) : (F.BLK_IRQ_RAW p).calm = false := by
  have h : (F.BLK_IRQ_RAW p).key / 32 % 0x1_0000 = 0x14 := by simp only [Fld.key, bar0]; omega
  simp [Fld.calm, h]

theorem calm_evt (p : Nat) : (F.BLK_EVT_CNT_COUNT p).calm = false := by
  have h : (F.BLK_EVT_CNT_COUNT p).key / 32 % 0x1_0000 = 0x28 := by simp only [Fld.key, bar0]; omega
  simp [Fld.calm, h]

theorem plain_code (p l w r : Nat) (hl : l < 32) : (⟨bar0 p 0x20, l, w, r⟩ : Fld).plain = false := by
  have h : (⟨bar0 p 0x20, l, w, r⟩ : Fld).key / 32 % 0x1_0000 = 0x20 := by simp only [Fld.key, bar0]; omega
  simp [Fld.plain, h]

theorem plain_info (p l w r : Nat) (hl : l < 32) : (⟨bar0 p 0x24, l, w, r⟩ : Fld).plain = false := by
  have h : (⟨bar0 p 0x24, l, w, r⟩ : Fld).key / 32 % 0x1_0000 = 0x24 := by simp only [Fld.key, bar0]; omega
  simp [Fld.plain, h]

theorem quiet_armed (n : Nat) (hn : n < 2) : (F.IRQ_ARMED_ARMED n).quiet = false := by
  interval_cases n <;> rfl

theorem quiet_pba (n : Nat) (hn : n < 2) : (F.MSIX_PBA n).quiet = false := by
  interval_cases n <;> rfl

theorem quiet_seq (q : Nat) (hq : q < 5) : (F.RQ_SEQ_SEQ q).quiet = false := by
  interval_cases q <;> rfl

theorem quiet_lost (q : Nat) (hq : q < 5) : (F.RQ_LOST_COUNT q).quiet = false := by
  interval_cases q <;> rfl

theorem quiet_stage (q : Nat) (hq : q < 5) : (F.RQ_STAGE_USED q).quiet = false := by
  interval_cases q <;> rfl

/-- A bit put into a field is there. -/
theorem Dev.testBit_putBit_self (d : Dev) (f : Fld) (k : Nat) (h : k < f.width) : (d.putBit f k true).testBit f k = true := by
  obtain ⟨n, hn⟩ := Nat.exists_eq_add_of_lt h
  have e1 : f.width = k + (n + 1) := by omega
  have hd : (2 : Nat) ∣ 2 ^ (n + 1) := ⟨2 ^ n, by rw [pow_succ]; ring⟩
  simp only [Dev.putBit, Dev.testBit, Dev.get_set_self, b2n, if_true, one_mul, decide_eq_true_eq]
  generalize d.get f = v
  rw [e1, pow_add, Nat.mod_mul_right_div_self, Nat.mod_mod_of_dvd _ hd]
  have h2 : 0 < 2 ^ k := Nat.two_pow_pos k
  have h3 : v = 2 ^ k * (v / 2 ^ k) + v % 2 ^ k := (Nat.div_add_mod v (2 ^ k)).symm
  have h4 : v / 2 ^ k % 2 * 2 ^ k ≤ v := le_trans (Nat.mul_le_mul_right _ (Nat.mod_le _ _)) (Nat.div_mul_le_self v (2 ^ k))
  have h5 : v - v / 2 ^ k % 2 * 2 ^ k + 2 ^ k = v % 2 ^ k + 2 ^ k * (v / 2 ^ k - v / 2 ^ k % 2 + 1) := by
    have h6 : v / 2 ^ k % 2 ≤ v / 2 ^ k := Nat.mod_le _ _
    obtain ⟨c, hc⟩ := Nat.exists_eq_add_of_le h6
    have h7 : v / 2 ^ k - v / 2 ^ k % 2 = c := by omega
    rw [h7]
    have h8 : v = 2 ^ k * (v / 2 ^ k % 2 + c) + v % 2 ^ k := by rw [← hc]; exact h3
    calc v - v / 2 ^ k % 2 * 2 ^ k + 2 ^ k
        = (2 ^ k * (v / 2 ^ k % 2 + c) + v % 2 ^ k) - v / 2 ^ k % 2 * 2 ^ k + 2 ^ k := by rw [← h8]
      _ = (v / 2 ^ k % 2 * 2 ^ k + (2 ^ k * c + v % 2 ^ k)) - v / 2 ^ k % 2 * 2 ^ k + 2 ^ k := by congr 2; ring
      _ = v % 2 ^ k + 2 ^ k * (c + 1) := by rw [Nat.add_sub_cancel_left]; ring
  rw [h5, Nat.add_mul_div_left _ _ h2, Nat.div_eq_of_lt (Nat.mod_lt _ h2)]
  omega

namespace Dev

variable (d : Dev)

/-! ### What may change -/

theorem putBit_eq (f : Fld) (k : Nat) (b : Bool) : ∃ r, d.putBit f k b = { d with regs := r } := ⟨_, rfl⟩

theorem signal_eq (v : Nat) : ∃ r o, d.signal v = { d with regs := r, out := o } := by
  simp only [signal]
  split
  · split
    · exact ⟨_, d.out, rfl⟩
    · exact ⟨_, _, rfl⟩
  · exact ⟨_, _, rfl⟩

theorem tethSend_eq (fwd : Bool) (b : List Nat) : ∃ t o, d.tethSend fwd b = { d with teth := t, out := o } := ⟨_, _, rfl⟩

theorem tethOwn_eq : ∃ t o, d.tethOwn = { d with teth := t, out := o } := by
  unfold tethOwn
  split
  · exact ⟨_, _, rfl⟩
  · split
    · exact ⟨_, _, rfl⟩
    · exact tethSend_eq _ _ _

theorem tethReturn_eq (b : List Nat) : ∃ t o, d.tethReturn b = { d with teth := t, out := o } := by
  obtain ⟨t, o, h⟩ := tethOwn_eq { d with teth := { d.teth with held := (d.teth.held ++ [b]).take 4 } }
  exact ⟨t, o, h⟩

theorem pageAsserts_eq (p : Nat) : ∃ r o t, d.pageAsserts p = { d with regs := r, out := o, teth := t } := by
  have h : ∃ r o, (if d.get (F.IRQ_ROUTE_MASK (p / 4) (p % 4)) = 0 then d.signal (d.get (F.IRQ_ROUTE_VECTOR (p / 4) (p % 4))) else d)
      = { d with regs := r, out := o } := by
    split
    · exact signal_eq _ _
    · exact ⟨_, _, rfl⟩
  obtain ⟨r, o, h⟩ := h
  simp only [pageAsserts, h]
  split
  · obtain ⟨t, o', h'⟩ := tethReturn_eq { d with regs := r, out := o } (frame16 ([0x70, 0, ({ d with regs := r, out := o } : Dev).get F.TETH_ADDR_ADDR, 0, p, 0]
      ++ leBytes 4 (({ d with regs := r, out := o } : Dev).irqStat p) ++ leBytes 4 (({ d with regs := r, out := o } : Dev).get (F.BLK_EVT_CNT_COUNT p))))
    exact ⟨r, o', t, h'⟩
  · exact ⟨_, _, d.teth, rfl⟩

theorem report_eq (q typ flags : Nat) (pl : List Nat) : ∃ r x, d.report q typ flags pl = { d with regs := r, queues := x } := by
  simp only [report]
  split
  · exact ⟨_, _, rfl⟩
  · split
    · exact ⟨_, _, rfl⟩
    · exact ⟨_, _, rfl⟩

theorem eventRecord_eq (p b : Nat) : ∃ r x, d.eventRecord p b = { d with regs := r, queues := x } := by
  unfold eventRecord
  split
  · exact report_eq _ _ _ _ _
  · exact ⟨_, _, rfl⟩

theorem raise_eq (p b : Nat) : ∃ r o x t, d.raise p b = { d with regs := r, out := o, queues := x, teth := t } := by
  obtain ⟨r, x, h⟩ := eventRecord_eq ((d.putBit (F.BLK_IRQ_RAW p) b true).count (F.BLK_EVT_CNT_COUNT p)) p b
  simp only [raise, h]
  split
  · obtain ⟨r', o, t, h'⟩ := pageAsserts_eq
      { ((d.putBit (F.BLK_IRQ_RAW p) b true).count (F.BLK_EVT_CNT_COUNT p)) with regs := r, queues := x } p
    exact ⟨r', o, x, t, h'⟩
  · exact ⟨r, d.out, x, d.teth, rfl⟩

theorem raiseQueue_eq (q : Nat) (f : Fld) : ∃ r o, d.raiseQueue q f = { d with regs := r, out := o } := by
  simp only [raiseQueue]
  split
  · exact ⟨_, _, rfl⟩
  · exact signal_eq _ _

theorem raiseRing_eq (q : Nat) (f : Fld) : ∃ r o, d.raiseRing q f = { d with regs := r, out := o } := by
  simp only [raiseRing]
  split
  · exact ⟨_, _, rfl⟩
  · exact signal_eq _ _

theorem error_eq (p : Nat) (e : Err) (detail : Nat) (o : Origin) (w : Nat) :
    ∃ r u x t, d.error p e detail o w = { d with regs := r, out := u, queues := x, teth := t } := by
  simp only [error]
  split
  · exact raise_eq _ _ _
  · exact raise_eq _ _ _

theorem hwError_eq (p : Nat) (e : Err) (detail : Nat) :
    ∃ r u x t, d.hwError p e detail = { d with regs := r, out := u, queues := x, teth := t, free := d.free + 1 } := by
  obtain ⟨r, u, x, t, h⟩ := error_eq d p e detail .hardware (d.freeVal 14)
  exact ⟨r, u, x, t, by rw [hwError, h]; rfl⟩

theorem refuse_eq (p off : Nat) (e : Err) (detail : Nat) :
    ∃ r u x t, d.refuse p off e detail = { d with regs := r, out := u, queues := x, teth := t, accErr := e.code } :=
  error_eq { d with accErr := e.code } p e detail .register (off / 4)

theorem setFault_eq (p : Nat) : ∃ r u x t, d.setFault p = { d with regs := r, out := u, queues := x, teth := t } := by
  unfold setFault
  split
  · exact ⟨_, _, _, d.teth, rfl⟩
  · exact raise_eq _ _ _

theorem setParity_eq (p : Nat) (f : Fld) : ∃ r u x t, d.setParity p f = { d with regs := r, out := u, queues := x, teth := t } := raise_eq _ _ _

theorem foldl_put_eq (fs : Nat → Fld) (b : Bool) (l : List Nat) : ∃ r, l.foldl (fun d p => d.put (fs p) b) d = { d with regs := r } := by
  induction l generalizing d with
  | nil => exact ⟨_, rfl⟩
  | cons p l ih => obtain ⟨r, h⟩ := ih (d.put (fs p) b); exact ⟨r, by rw [List.foldl_cons, h]; rfl⟩

theorem unlockAll_eq : ∃ r, d.unlockAll = { d with regs := r } := foldl_put_eq d _ _ _

theorem foldl_set_eq (fs vs : Nat → Nat) (F : Nat → Fld) (l : List Nat) :
    ∃ r, l.foldl (fun d n => d.set (F (fs n)) (vs n)) d = { d with regs := r } := by
  induction l generalizing d with
  | nil => exact ⟨_, rfl⟩
  | cons p l ih => obtain ⟨r, h⟩ := ih (d.set (F (fs p)) (vs p)); exact ⟨r, by rw [List.foldl_cons, h]; rfl⟩

theorem complete_eq (e : Err) (detail : Nat) (rets : List Nat) :
    ∃ r u x t, d.complete e detail rets = { d with regs := r, out := u, queues := x, teth := t, cmd := none } := by
  unfold complete
  split
  · next h => exact ⟨d.regs, d.out, d.queues, d.teth, by rw [← h]⟩
  · next l h =>
    obtain ⟨r0, h0⟩ := foldl_set_eq d id (fun n => rets.getD n 0) F.CMD_RET_RET (List.range 4)
    simp only [id] at h0
    obtain ⟨r1, h1⟩ : ∃ r, (((({ d with regs := r0 } : Dev).set F.CMD_STATUS_RESULT e.code).set F.CMD_STATUS_TAG l.tag).put
      F.CMD_STATUS_BUSY false).unlockAll.dropCmd = { d with regs := r, cmd := none } := by
      obtain ⟨r1, h1⟩ := unlockAll_eq (((({ d with regs := r0 } : Dev).set F.CMD_STATUS_RESULT e.code).set F.CMD_STATUS_TAG l.tag).put
        F.CMD_STATUS_BUSY false)
      exact ⟨r1, by rw [h1]; rfl⟩
    have h2 : ∀ d' : Dev, ∃ r u x t, (if e = .ok then d' else d'.error 1 e detail .command l.code) = { d' with regs := r, out := u, queues := x, teth := t } := by
      intro d'
      split
      · exact ⟨_, _, _, d'.teth, rfl⟩
      · exact error_eq _ _ _ _ _ _
    have h3 : ∀ d' : Dev, ∃ r u x t, (if l.flags % 2 = 1 then d'.raise 1 3 else d') = { d' with regs := r, out := u, queues := x, teth := t } := by
      intro d'
      split
      · exact raise_eq _ _ _
      · exact ⟨_, _, _, d'.teth, rfl⟩
    obtain ⟨r2, u2, x2, t2, h2⟩ := h2 { d with regs := r1, cmd := none }
    obtain ⟨r3, u3, x3, t3, h3⟩ := h3 { d with regs := r2, cmd := none, out := u2, queues := x2, teth := t2 }
    exact ⟨r3, u3, x3, t3, by simp only [h0, h1]; rw [h2, h3]⟩

theorem merSend_eq (typ hi units : Nat) (pl : List Nat) : ∃ m o, d.merSend typ hi units pl = { d with mer := m, out := o } := by
  unfold merSend
  split
  · exact ⟨_, _, rfl⟩
  · exact ⟨_, _, rfl⟩

/-! ### Register fields left alone -/

variable {f : Fld}

theorem get_signal (v : Nat) (hf : f.quiet = true) : (d.signal v).get f = d.get f := by
  have h : v % 64 / 32 < 2 := by have := Nat.mod_lt v (show 64 > 0 by decide); omega
  have ha : ∀ d' : Dev, (d'.putBit (F.IRQ_ARMED_ARMED (v % 64 / 32)) (v % 64 % 32) false).get f = d'.get f := fun d' =>
    get_putBit_ne _ _ _ (Fld.ne_of_quiet hf (quiet_armed _ h))
  simp only [signal]
  split
  · rw [ha]
    split
    · exact get_putBit_ne _ _ _ (Fld.ne_of_quiet hf (quiet_pba _ h))
    · rfl
  · rfl

theorem get_pageAsserts (p : Nat) (hf : f.quiet = true) : (d.pageAsserts p).get f = d.get f := by
  have h : ∀ (d' : Dev) (b : List Nat), (d'.tethReturn b).get f = d'.get f := fun d' b => by
    obtain ⟨t, o, h⟩ := tethReturn_eq d' b; rw [h]; rfl
  simp only [pageAsserts]
  split <;> split <;> simp [h, get_signal _ _ hf]

theorem get_report (q typ flags : Nat) (pl : List Nat) (hq : q < 5) (hf : f.quiet = true) : (d.report q typ flags pl).get f = d.get f := by
  have h1 : ∀ d' : Dev, (d'.count (F.RQ_SEQ_SEQ q)).get f = d'.get f := fun d' => get_count_ne d' 1 (Fld.ne_of_quiet hf (quiet_seq q hq))
  have h2 : ∀ d' : Dev, (d'.count (F.RQ_LOST_COUNT q)).get f = d'.get f := fun d' => get_count_ne d' 1 (Fld.ne_of_quiet hf (quiet_lost q hq))
  simp only [report]
  split
  · rw [h2, get_setQueue, h1]
  · split
    · rw [h2, get_setQueue, h1]
    · rw [refreshStage, get_set_ne _ _ (Fld.ne_of_quiet hf (quiet_stage q hq)), get_setQueue, h1]

theorem get_eventRecord (p b : Nat) (hf : f.quiet = true) : (d.eventRecord p b).get f = d.get f := by
  unfold eventRecord
  split
  · exact get_report _ _ _ _ _ (by omega) hf
  · rfl

/-- Recording an event leaves every calm field alone. -/
theorem get_raise (p b : Nat) (hf : f.calm = true) : (d.raise p b).get f = d.get f := by
  have h : (((d.putBit (F.BLK_IRQ_RAW p) b true).count (F.BLK_EVT_CNT_COUNT p)).eventRecord p b).get f = d.get f := by
    rw [get_eventRecord _ _ _ (Fld.quiet_of_calm hf), get_count_ne _ _ (Fld.ne_of_calm hf (calm_evt p)),
      get_putBit_ne _ _ _ (Fld.ne_of_calm hf (calm_raw p))]
  simp only [raise]
  split
  · rw [get_pageAsserts _ _ (Fld.quiet_of_calm hf), h]
  · exact h

theorem get_raiseQueue (q : Nat) (g : Fld) (hf : f.calm = true) (h : f.key ≠ g.key) : (d.raiseQueue q g).get f = d.get f := by
  simp only [raiseQueue]
  split
  · exact get_put_ne _ _ h
  · rw [get_signal _ _ (Fld.quiet_of_calm hf), get_put_ne _ _ h]

theorem get_raiseRing (q : Nat) (g : Fld) (hf : f.calm = true) (h : f.key ≠ g.key) : (d.raiseRing q g).get f = d.get f := by
  simp only [raiseRing]
  split
  · exact get_put_ne _ _ h
  · rw [get_signal _ _ (Fld.quiet_of_calm hf), get_put_ne _ _ h]

/-- An error leaves every plain field alone. -/
theorem get_error (p : Nat) (e : Err) (detail : Nat) (o : Origin) (w : Nat) (hf : f.plain = true) :
    (d.error p e detail o w).get f = d.get f := by
  have c : ∀ (d' : Dev) (l w' r v : Nat), l < 32 → (d'.set ⟨bar0 p 0x20, l, w', r⟩ v).get f = d'.get f := fun d' l w' r v hl =>
    get_set_ne d' v (Fld.ne_of_plain hf (plain_code p l w' r hl))
  have i : ∀ (d' : Dev) (l w' r v : Nat), l < 32 → (d'.set ⟨bar0 p 0x24, l, w', r⟩ v).get f = d'.get f := fun d' l w' r v hl =>
    get_set_ne d' v (Fld.ne_of_plain hf (plain_info p l w' r hl))
  simp only [error]
  rw [get_raise _ _ _ (Fld.calm_of_plain hf)]
  split
  · rw [i _ _ _ _ _ (by omega), i _ _ _ _ _ (by omega), i _ _ _ _ _ (by omega), i _ _ _ _ _ (by omega), i _ _ _ _ _ (by omega),
      c _ _ _ _ _ (by omega), c _ _ _ _ _ (by omega)]
  · exact c _ _ _ _ _ (by omega)

theorem get_hwError (p : Nat) (e : Err) (detail : Nat) (hf : f.plain = true) : (d.hwError p e detail).get f = d.get f := by
  rw [hwError, get_freeUsed, get_error _ _ _ _ _ _ hf]

theorem get_refuse (p off : Nat) (e : Err) (detail : Nat) (hf : f.plain = true) : (d.refuse p off e detail).get f = d.get f := by
  rw [refuse, get_error _ _ _ _ _ _ hf]; rfl

theorem get_setFault (p : Nat) (hf : f.plain = true) (h : f.key ≠ (F.BLK_STAT_FAULT p).key) : (d.setFault p).get f = d.get f := by
  unfold setFault
  split
  · rfl
  · rw [get_raise _ _ _ (Fld.calm_of_plain hf), get_put_ne _ _ h]

theorem get_setParity (p : Nat) (g : Fld) (hf : f.plain = true) (h : f.key ≠ g.key) : (d.setParity p g).get f = d.get f := by
  rw [setParity, get_raise _ _ _ (Fld.calm_of_plain hf), get_put_ne _ _ h]

theorem get_merSend (typ hi units : Nat) (pl : List Nat) : (d.merSend typ hi units pl).get f = d.get f := by
  obtain ⟨m, o, h⟩ := merSend_eq d typ hi units pl
  rw [h]; rfl

theorem get_foldl_put_ne (F : Nat → Fld) (b : Bool) (l : List Nat) (h : ∀ n ∈ l, f.key ≠ (F n).key) :
    (l.foldl (fun d n => d.put (F n) b) d).get f = d.get f := by
  induction l generalizing d with
  | nil => rfl
  | cons n l ih =>
    rw [List.foldl_cons, ih _ (fun m hm => h m (by simp [hm])), get_put_ne _ _ (h n (by simp))]

theorem get_foldl_set_ne (F : Nat → Fld) (v : Nat → Nat) (l : List Nat) (h : ∀ n ∈ l, f.key ≠ (F n).key) :
    (l.foldl (fun d n => d.set (F n) (v n)) d).get f = d.get f := by
  induction l generalizing d with
  | nil => rfl
  | cons n l ih =>
    rw [List.foldl_cons, ih _ (fun m hm => h m (by simp [hm])), get_set_ne _ _ (h n (by simp))]

/-- Not BLK_LOCK of any page, CMD_STATUS or a CMD_RET: what completing a command writes beside its records. -/
def apart (f : Fld) : Bool := !(f.key / 32 % 0x1_0000 = 0x30) && !(0x1_0068 ≤ f.key / 32 && f.key / 32 < 0x1_007C)

theorem apart_congr {f g : Fld} (h : f.key = g.key) : apart f = apart g := by simp only [apart, h]

theorem ne_of_apart {f g : Fld} (hf : apart f = true) (hg : apart g = false) : f.key ≠ g.key := fun h => by
  rw [apart_congr h, hg] at hf; exact Bool.noConfusion hf

theorem get_unlockAll (hf : apart f = true) : d.unlockAll.get f = d.get f :=
  get_foldl_put_ne d _ _ _ (fun p _ => ne_of_apart hf (by
    have h : (F.BLK_LOCK_VESPER_LOCK p).key / 32 % 0x1_0000 = 0x30 := by simp only [Fld.key, bar0]; omega
    simp [apart, h]))

/-- Completing a command leaves alone every plain field but BLK_LOCK, CMD_STATUS and CMD_RETn. -/
theorem get_complete (e : Err) (detail : Nat) (rets : List Nat) (hf : f.plain = true) (ha : apart f = true) :
    (d.complete e detail rets).get f = d.get f := by
  unfold complete
  split
  · rfl
  · next l _ =>
    have h3 : ∀ d' : Dev, (if l.flags % 2 = 1 then d'.raise 1 3 else d').get f = d'.get f := by
      intro d'; split
      · exact get_raise _ _ _ (Fld.calm_of_plain hf)
      · rfl
    have h2 : ∀ d' : Dev, (if e = .ok then d' else d'.error 1 e detail .command l.code).get f = d'.get f := by
      intro d'; split
      · rfl
      · exact get_error _ _ _ _ _ _ hf
    simp only [h3, h2]
    rw [get_dropCmd, get_unlockAll _ ha, get_put_ne _ _ (ne_of_apart ha rfl),
      get_set_ne _ _ (ne_of_apart ha rfl), get_set_ne _ _ (ne_of_apart ha rfl), get_foldl_set_ne]
    intro n hn
    have : n < 4 := List.mem_range.mp hn
    interval_cases n <;> exact ne_of_apart ha rfl

/-! ### What is recorded -/

theorem quiet_raw (p : Nat) : (F.BLK_IRQ_RAW p).quiet = true := Fld.quiet_header p 0x14 0 32 0 (by omega) (by omega)
theorem quiet_evt (p : Nat) : (F.BLK_EVT_CNT_COUNT p).quiet = true := Fld.quiet_header p 0x28 0 32 0 (by omega) (by omega)

theorem raise_quiet (p b : Nat) (hf : f.quiet = true) :
    (d.raise p b).get f = ((d.putBit (F.BLK_IRQ_RAW p) b true).count (F.BLK_EVT_CNT_COUNT p)).get f := by
  simp only [raise]
  split
  · rw [get_pageAsserts _ _ hf, get_eventRecord _ _ _ hf]
  · exact get_eventRecord _ _ _ hf

/-- An event sets its bit of BLK_IRQ_RAW (R62). -/
theorem raise_raw (p b : Nat) (hb : b < 32) : (d.raise p b).testBit (F.BLK_IRQ_RAW p) b = true := by
  have h : (d.raise p b).get (F.BLK_IRQ_RAW p) = (d.putBit (F.BLK_IRQ_RAW p) b true).get (F.BLK_IRQ_RAW p) := by
    rw [raise_quiet _ _ _ (quiet_raw p), get_count_ne]
    simp only [Fld.key, bar0]; omega
  have h2 := testBit_putBit_self d (F.BLK_IRQ_RAW p) b hb
  simp only [testBit] at h2 ⊢
  rw [h]; exact h2

/-- And is counted in BLK_EVT_CNT (R62). -/
theorem raise_evt (p b : Nat) : (d.raise p b).get (F.BLK_EVT_CNT_COUNT p) = (d.get (F.BLK_EVT_CNT_COUNT p) + 1) % 2 ^ 32 := by
  rw [raise_quiet _ _ _ (quiet_evt p), get_count_self, get_putBit_ne]
  simp only [Fld.key, bar0]; omega

theorem Err.code_lt (e : Err) : e.code < 16 := by cases e <;> decide

/-- An error finds its place in an empty BLK_ERR_CODE (R64). -/
theorem error_code (p : Nat) (e : Err) (detail : Nat) (o : Origin) (w : Nat) (h : d.get (F.BLK_ERR_CODE_CODE p) = 0) :
    (d.error p e detail o w).get (F.BLK_ERR_CODE_CODE p) = e.code := by
  have h1 := Err.code_lt e
  simp only [error, if_pos h]
  rw [get_raise _ _ _ (Fld.calm_header p 0x20 0 8 0 (by omega) (by omega) (by omega) (by omega))]
  repeat rw [get_set_ne _ _ (by simp only [Fld.key, bar0]; omega)]
  rw [get_set_self]
  exact Nat.mod_eq_of_lt (by simp only; omega)

/-- A further error is counted in OVERRUN, and the first stays (R64). -/
theorem error_overrun (p : Nat) (e : Err) (detail : Nat) (o : Origin) (w : Nat) (h : d.get (F.BLK_ERR_CODE_CODE p) ≠ 0) :
    (d.error p e detail o w).get (F.BLK_ERR_CODE_CODE p) = d.get (F.BLK_ERR_CODE_CODE p) ∧
    (d.error p e detail o w).get (F.BLK_ERR_CODE_OVERRUN p) = satInc 8 (d.get (F.BLK_ERR_CODE_OVERRUN p)) % 2 ^ 8 := by
  simp only [error, if_neg h]
  rw [get_raise _ _ _ (Fld.calm_header p 0x20 0 8 0 (by omega) (by omega) (by omega) (by omega)),
    get_raise _ _ _ (Fld.calm_header p 0x20 8 8 0 (by omega) (by omega) (by omega) (by omega)), get_countSat_self]
  exact ⟨get_countSat_ne _ (by simp only [Fld.key, bar0]; omega), rfl⟩

/-- A refused access records its error on its page (R56). -/
theorem refuse_code (p off : Nat) (e : Err) (detail : Nat) (h : d.get (F.BLK_ERR_CODE_CODE p) = 0) :
    (d.refuse p off e detail).get (F.BLK_ERR_CODE_CODE p) = e.code := error_code _ _ _ _ _ _ h

/-- A command completes: BUSY falls, RESULT and TAG are its own (R78). -/
theorem complete_status (e : Err) (detail : Nat) (rets : List Nat) (l : Latch) (h : d.cmd = some l) :
    (d.complete e detail rets).get F.CMD_STATUS_BUSY = 0 ∧ (d.complete e detail rets).get F.CMD_STATUS_RESULT = e.code ∧
    (d.complete e detail rets).get F.CMD_STATUS_TAG = l.tag % 2 ^ 16 := by
  have h0 := Err.code_lt e
  have h3 : ∀ (d' : Dev) (g : Fld), g.plain = true → (if l.flags % 2 = 1 then d'.raise 1 3 else d').get g = d'.get g := by
    intro d' g hg; split
    · exact get_raise _ _ _ (Fld.calm_of_plain hg)
    · rfl
  have h2 : ∀ (d' : Dev) (g : Fld), g.plain = true → (if e = .ok then d' else d'.error 1 e detail .command l.code).get g = d'.get g := by
    intro d' g hg; split
    · rfl
    · exact get_error _ _ _ _ _ _ hg
  have h4 : ∀ (d' : Dev) (g : Fld), (∀ p, g.key ≠ (F.BLK_LOCK_VESPER_LOCK p).key) → d'.unlockAll.get g = d'.get g :=
    fun d' g hg => get_foldl_put_ne d' _ _ _ (fun n _ => hg n)
  have e1 : (d.complete e detail rets) = (let d := (List.range 4).foldl (fun d n => d.set (F.CMD_RET_RET n) (rets.getD n 0)) d
      let d := ((d.set F.CMD_STATUS_RESULT e.code).set F.CMD_STATUS_TAG l.tag).put F.CMD_STATUS_BUSY false
      let d := d.unlockAll.dropCmd
      let d := if e = .ok then d else d.error 1 e detail .command l.code
      if l.flags % 2 = 1 then d.raise 1 3 else d) := by simp only [complete, h]
  rw [e1]
  refine ⟨?_, ?_, ?_⟩
  · rw [h3 _ _ rfl, h2 _ _ rfl, get_dropCmd, h4 _ _ (by intro p; simp only [Fld.key, bar0]; omega), get_put_self _ _ _ (by decide)]
    rfl
  · rw [h3 _ _ rfl, h2 _ _ rfl, get_dropCmd, h4 _ _ (by intro p; simp only [Fld.key, bar0]; omega), get_put_ne _ _ (by decide),
      get_set_ne _ _ (by decide), get_set_self]
    exact Nat.mod_eq_of_lt (by simp only; omega)
  · rw [h3 _ _ rfl, h2 _ _ rfl, get_dropCmd, h4 _ _ (by intro p; simp only [Fld.key, bar0]; omega), get_put_ne _ _ (by decide), get_set_self]

@[simp] theorem complete_cmd (e : Err) (detail : Nat) (rets : List Nat) : (d.complete e detail rets).cmd = none := by
  obtain ⟨r, u, x, t, h⟩ := complete_eq d e detail rets
  rw [h]

end Dev

/-! ### Writes that the gate takes -/

/-- A write that is taken passes the gate. -/
theorem Dev.gate_of_taken {d : Dev} {page off : Nat} (h : d.taken page off) : d.gate page off = .pass := by
  obtain ⟨h1, h2, h3, h4, h5⟩ := h
  unfold Dev.gate
  rw [if_neg (by simp [h1])]
  rw [if_neg (by simp only [List.mem_cons, List.not_mem_nil, or_false] at h2; simp; intro a b c; simp [a, b, c] at h2 ; omega)]
  rw [if_neg (by cases hg : governing page <;> simp_all; intro h; simp_all)]
  rw [if_neg (by simp only [List.mem_cons, List.not_mem_nil, or_false] at h4; simp; intro a; simp [a] at h4; omega)]
  rw [if_neg (by simp; intro a; simp [a] at h5; omega)]

end Sys2Proof.Machine
end

