-- ==== Sys2Proof/Tests/Slice0.lean ====
section
/-! SUPPORT. Tests: the smoke of WellFormed, single steps, and for every statement with hypotheses states and operands that meet them. -/

namespace Sys2Proof.Tests

open Sys2Proof.Machine

set_option Elab.async false

/-! ### States for the tests -/

/-- Reset with every feature accepted. -/
def wBase : Dev := { State.reset.dev with accepted := 0x3FFFFFF }

/-- Such a state with some fields set, and then changed by `f`. -/
def wit (fs : List (Fld × Nat)) (f : Dev → Dev := id) : State := { dev := f (fs.foldl (fun d x => d.set x.1 x.2) wBase) }

def keng (w : Nat) (x : Eng := {}) : Eng :=
  { x with mem := (leBytes 4 w).zipIdx.filterMap (fun b => if b.1 = 0 then none else some (b.2, BitVec.ofNat 8 b.1)) ++ x.mem, img := some ⟨0, 128, 4, 0⟩, body := some 7 }
def tf (bs : List Nat) : List Nat := frame16 ((bs ++ List.replicate 14 0).take 14)
def toCells (base : Nat) (bs : List Nat) : List Host.Cell := bs.zipIdx.filterMap (fun b => if b.1 = 0 then none else some (base + b.2, BitVec.ofNat 8 b.1))
def img320 (svn key : Nat) (bad : Bool := false) : List Nat :=
  wordsLe [headMagic, 0x9616_0101, 320, 0, 0x0102, svn, key, 0] ++ ((sha512 (List.replicate 64 0)).map (fun b => if bad then b ^^^ 1 else b)) ++ List.replicate 160 0 ++ List.replicate 64 0
def calRec (kind inst gen : Nat) (pay : List Nat) : List Nat :=
  let h := wordsLe ([recMagic, inst * 65536 + 0x100 + kind, gen, pay.length] ++ List.replicate 11 0)
  h ++ leBytes 4 (crc32c (h ++ pay)) ++ pay
def mrec (typ hi : Nat) (rest : List Nat) (seq : Nat := 0) : List Nat :=
  let u := (rest.length + 6) / 4; let b := (hi * 65536 + u * 256 + typ) :: seq :: (rest ++ List.replicate (4 * u - 3 - rest.length) 0); b ++ [crc32c (wordsLe b)]
def regsX : Eng := { s := [(6, 0xFFFF_FFFF_FFFF_FFF7), (7, 3)], p := [(1, 0x5555_FFFF_0000_1234)], v := [(3, 0x1234567890ABCDEF_1234567890ABCDEF_1234567890ABCDEF_1234567890ABCDEF), (4, 0x11), (9, 0x8001FF7F_3F80C000_00000001_7F804100_12345678 * 2 ^ 64 + 0x8001FF7F_3F80C000), (10, 0xFFFF7F80_40003F80_00000001_80000000_00010203 * 2 ^ 32 + 0xC1000001)] }

/-- A record longer than a bank, its length taken without unfolding it. -/
theorem long_lt {a b : Nat} (h : a < b + 70000) : a < b + (⟨5, List.replicate 70000 7⟩ : Rec).bytes.length := by
  rw [show (⟨5, List.replicate 70000 7⟩ : Rec).bytes.length = 70000 from List.length_replicate]; exact h

theorem runs_of {d : Dev} {e : Nat} {f : Nat → Bool}
    (h : (decide (e < 64) && (d.eng e).body.isSome && (d.eng e).img.any (fun i => decide ((d.eng e).pc < i.codeLen)) && f (d.eng e).word
      && decide ((d.eng e).retired < (d.eng e).limit * 1024)) = true) : d.runs e f := by
  simp only [Bool.and_eq_true, decide_eq_true_eq] at h
  obtain ⟨⟨⟨⟨h1, h2⟩, h3⟩, h4⟩, h5⟩ := h
  refine ⟨h1, h2, ?_, h4, h5⟩
  cases hi : (d.eng e).img with
  | none => rw [hi] at h3; exact absurd h3 (by simp)
  | some i => rw [hi] at h3; exact ⟨i, rfl, by simpa using h3⟩

theorem hears_of {d : Dev} {t : Nat} {ws : List Nat} (h : (d.enabled 0x90 && d.bit F.TWIN_STAT_LINK_UP && decide (ws.getD 0 0 % 256 = t)
    && merGood ws && decide (ws.getD 1 0 = d.mer.rxNext)) = true) : d.hears t ws := by
  simp only [Bool.and_eq_true, decide_eq_true_eq] at h
  exact ⟨h.1.1.1.1, h.1.1.1.2, h.1.1.2, h.1.2, h.2⟩

theorem takes_of {d : Dev} {t : Nat} {b : List Nat} (h : (d.repeats && tethGood b && decide (frameType b = t)) = true) : d.takes t b := by
  simp only [Bool.and_eq_true, decide_eq_true_eq] at h
  exact ⟨h.1.1, h.1.2, h.2⟩

theorem of_toList {p : Nat} {P : Nat → Prop} (h : ∀ b ∈ (governing p).toList, P b) : ∀ b, governing p = some b → P b :=
  fun b hb => h b (by rw [hb]; exact List.Mem.head _)

/-! ### Well-formedness: an ill-formed command for each check, and its neighbour inside the bound -/

theorem test_wf_refuses_1 : ([.ethModPresent 2 [], .ethModPresent 0 [255, 256], .registerWrite 0 0 ⟨2 ^ 32, false⟩, .blkEnable 1024 false, .blkIrqStatWrite 0 (2 ^ 32) ⟨0, 0⟩, .blkErrCodeRead ⟨1024, 0, []⟩, .irqRouteWrite 37 0, .irqRearm 2 0, .triggerIssue 16, .trigInEdge 8 ⟨0, 0⟩, .tgenStepWrite 0 (2 ^ 32), .cxpPowerWaitExpiry 16] : List Instr).all (fun i => !i.wf) = true := by
  decide +kernel

theorem test_wf_refuses_2 : ([.cxpLockLoss 0 4, .blockWatchdog 8, .laneLock 104 0, .merTrainRequest 4 0 0 0, .pllLoss 13, .bodyFetchDone 64, .dmaTransferDone 0 4, .add 0 32 0 0, .add 0 0 32 0, .add 0 0 0 32, .addi 0 0 0 65536, .shli 0 0 0 64] : List Instr).all (fun i => !i.wf) = true := by
  decide +kernel

theorem test_wf_refuses_3 : ([.brEq 0 0 0 65536, .call 0 0 2097152, .vadd 0 32 0 0 0 0, .vadd 0 0 32 0 0 0, .vadd 0 0 0 32 0 0, .vadd 0 0 0 0 8 0, .vadd 0 0 0 0 0 4, .vld 0 0 0 0 8192, .vst 0 32 0 0 0, .vlut 0 0 0 32 0 0, .vext 0 0 0 64 0, .pand 0 8 0 0] : List Instr).all (fun i => !i.wf) = true := by
  decide +kernel

theorem test_wf_refuses_4 : ([.pand 0 0 8 0, .pand 0 0 0 8, .dmaStart 0 32 0 0 0 0, .dmaStart 0 0 32 0 0 0, .dmaStart 0 0 0 32 0 0, .dmaStart 0 0 0 0 0 2, .divertRelease 2, .beacon 8, .rangeExchange 0 4, .moduleFrame 0 0 2 ⟨[], 0, false⟩ 0 0, .moduleFrame 0 0 0 ⟨[255, 256], 0, false⟩ 0 0, .moduleDriveStart 0 0 64] : List Instr).all (fun i => !i.wf) = true := by
  decide +kernel

theorem test_wf_refuses_5 : ([.quadCount 4 false false false, .index ⟨4, false⟩, .cmpArm 8 0, .sigFineOutput 16 0, .recordWrite 5, .rqRelease 0 2, .drTailWrite 2 0, .obsSample 32, .heartbeat ([0, 2 ^ 32])] : List Instr).all (fun i => !i.wf) = true := by
  decide +kernel

theorem test_wf_accepts_1 : ([.ethModPresent 1 [], .ethModPresent 0 [255], .registerWrite 0 0 ⟨2 ^ 32 - 1, false⟩, .blkEnable 1023 false, .blkIrqStatWrite 0 (2 ^ 32 - 1) ⟨0, 0⟩, .blkErrCodeRead ⟨1023, 0, []⟩, .irqRouteWrite 36 0, .irqRearm 1 0, .triggerIssue 15, .trigInEdge 7 ⟨0, 0⟩, .tgenStepWrite 0 (2 ^ 32 - 1), .cxpPowerWaitExpiry 15] : List Instr).all (fun i => i.wf) = true := by
  decide +kernel

theorem test_wf_accepts_2 : ([.cxpLockLoss 0 3, .blockWatchdog 7, .laneLock 103 0, .merTrainRequest 3 0 0 0, .pllLoss 12, .bodyFetchDone 63, .dmaTransferDone 0 3, .add 0 31 0 0, .add 0 0 31 0, .add 0 0 0 31, .addi 0 0 0 65535, .shli 0 0 0 63] : List Instr).all (fun i => i.wf) = true := by
  decide +kernel

theorem test_wf_accepts_3 : ([.brEq 0 0 0 65535, .call 0 0 2097151, .vadd 0 31 0 0 0 0, .vadd 0 0 31 0 0 0, .vadd 0 0 0 31 0 0, .vadd 0 0 0 0 7 0, .vadd 0 0 0 0 0 3, .vld 0 0 0 0 8191, .vst 0 31 0 0 0, .vlut 0 0 0 31 0 0, .vext 0 0 0 63 0, .pand 0 7 0 0] : List Instr).all (fun i => i.wf) = true := by
  decide +kernel

theorem test_wf_accepts_4 : ([.pand 0 0 7 0, .pand 0 0 0 7, .dmaStart 0 31 0 0 0 0, .dmaStart 0 0 31 0 0 0, .dmaStart 0 0 0 31 0 0, .dmaStart 0 0 0 0 0 1, .divertRelease 1, .beacon 7, .rangeExchange 0 3, .moduleFrame 0 0 1 ⟨[], 0, false⟩ 0 0, .moduleFrame 0 0 0 ⟨[255], 0, false⟩ 0 0, .moduleDriveStart 0 0 63] : List Instr).all (fun i => i.wf) = true := by
  decide +kernel

theorem test_wf_accepts_5 : ([.quadCount 3 false false false, .index ⟨3, false⟩, .cmpArm 7 0, .sigFineOutput 15 0, .recordWrite 4, .rqRelease 0 1, .drTailWrite 1 0, .obsSample 31, .heartbeat ([2 ^ 32 - 1])] : List Instr).all (fun i => i.wf) = true := by
  decide +kernel

/-! ### Worked examples of the spec, published check values, single steps -/

/-- FIPS 180-4: SHA-512 of "abc". -/
theorem test_sha512_abc : beNat (sha512 [0x61, 0x62, 0x63]) =
    0xddaf35a193617abacc417349ae20413112e6fa4e89a97ea20a9eeee64b55d39a2192992a274fc1a836ba3c23a3feebbd454d4423643ce80e2a9ac94fa54ca49f := by
  decide +kernel

/-- RFC 8032, 7.1, test 1: the public key of a seed. -/
theorem test_ed25519_public : beNat (edPublic (leBytes 32 0x9d61b19deffd5a60ba844af492ec2cc44449c5697b326919703bac031cae7f60).reverse) =
    0xd75a980182b10ab7d54bfed3c964073a0ee172f3daa62325af021a68f707511a := by
  decide +kernel

/-- CRC-16 and CRC-32C of "123456789". -/
theorem test_crc_check_values : crc16 (wordsLe [0x34333231, 0x38373635] ++ [0x39]) = 0x29B1 ∧ crc32c (wordsLe [0x34333231, 0x38373635] ++ [0x39]) = 0xE306_9283 := by
  decide +kernel

/-- CRC-8 of "123456789", the check value of the published PEC code. -/
theorem test_pec_check_value : Dev.smbusPec [0x31, 0x32, 0x33, 0x34, 0x35, 0x36, 0x37, 0x38, 0x39] = 0xF4 := by
  decide +kernel

/-- The published 8b/10b code groups of K28.5 at either disparity, K27.7, K29.7, D21.5 and D17.7. -/
theorem test_8b10b : code10 false true 0xBC = (true, 0b0011111010) ∧ code10 true true 0xBC = (false, 0b1100000101) ∧
    code10 false true 0xFB = (false, 0b1101101000) ∧ code10 false true 0xFD = (false, 0b1011101000) ∧ code10 true false 0xB5 = (true, 0b1010101010) ∧
    code10 false false 0xF1 = (true, 0b1000110111) := by
  decide +kernel

/-- Table pack-3: the code bytes of "ABABABA". -/
theorem test_pack_table_3 : (encodeBlock 64 false {} [65, 66, 65, 66, 65, 66, 65]).2 = [0x41, 0x84, 0x08, 0x24, 0x18, 0x10] := by
  decide +kernel

/-- The worked example of the Observatory: bins of 12,340, 90 and 0 by octaves, and of 5,000 linearly. -/
theorem test_observatory_bins : obsBin true 8 12340 = 7 ∧ obsBin true 8 90 = 1 ∧ obsBin true 8 0 = 1 ∧ obsBin false 10 5000 = 5 := by
  decide +kernel

/-- The worked example of the Meteor link: the FIRE frame of valve 203. -/
theorem test_fire_frame : Dev.fireBytes ⟨203, 1025540960, 1025540960 + 2970080, 0, 0, false, 0, [], false, 0, 0, 0⟩ 0x142 =
    [0x10, 0xCB, 0x42, 0x01, 0x60, 0x83, 0x20, 0x3D, 0x00, 0x30, 0x88, 0x04, 0x00, 0x00] := by
  decide +kernel

/-- The worked example of the schedulers: ST40 values seen from DT 0x0018_6AFF_FFF0_0000. -/
theorem test_st40 : st40Extend 0x18_6AFF_FFF0_0000 0x10_0000 = 0x18_6B00_0010_0000 ∧ st40Diff 0xFF_FFE0_0000 0x18_6AFF_FFF0_0000 = -0x10_0000 ∧
    st40Diff 0x10_0000_0000 0x18_6AFF_FFF0_0000 = 68720525312 := by
  decide +kernel

/-- The worked example of line correction: noise, spatial output, temporal output, flat correction. -/
theorem test_line_correction : variance (2048, 32) 1024 32000 = 248832 ∧
    spatialAt 32 (2048, 32) (List.replicate 5 ⟨2560, 1024, 0⟩) [31600, 32100, 32000, 32300, 35200] 2 = 32044 ∧
    temporalAt 48 2 (2048, 32) ⟨2560, 1024, 0⟩ true 32044 31980 = 31996 ∧ (flatAt ⟨2560, 1024, 0⟩ 31996).1 = 38715 := by
  decide +kernel

/-- Table isa-12: the word 0x2460_0001 is addhi s3, s0, 1. -/
theorem test_addhi : (match exec (.addhi 5 3 0 1) (wit [] (fun d => d.setEng 5 (keng 0x2460_0001))) with
    | .next t => (t.dev.eng 5).sReg 3 | _ => 0) = 0x1_0000 := by
  decide +kernel

/-- R276: an addition wraps at 64 bits; the destination is a source. -/
theorem test_add_wraps : (match exec (.add 5 6 6 7) (wit [] (fun d => d.setEng 5 (keng (2 ^ 26 + 6 * 2 ^ 21 + 6 * 2 ^ 16 + 7 * 2 ^ 11)
    { s := [(6, 2 ^ 64 - 9), (7, 11)] }))) with | .next t => (t.dev.eng 5).sReg 6 | _ => 0) = 2 := by
  decide +kernel

/-- BLK_SCRATCH keeps the word written to it (Table regs-12). -/
theorem test_scratch : (match exec (.registerWrite 0x34 4 ⟨0xDEAD_BEEF, true⟩) (wit [(F.DEV_STATE_STATE, 2)]) with
    | .next t => t.dev.get (F.BLK_SCRATCH_SCRATCH 0) | _ => 0) = 0xDEAD_BEEF := by
  decide +kernel

/-- A step with no command waiting is one nanosecond of the counter (log entry 1). -/
theorem test_idle : (match step State.reset with | .next t => t.dev.time.c | _ => 0) = 1 := by
  decide +kernel

theorem test_reset_queue : State.reset.pending = [] := by decide


/-! ### Every statement with hypotheses: states and operands that meet them, a conjunct for each clause -/

/-- StepKeepsCanonical: a canonical state that steps. -/
theorem wit_StepKeepsCanonical : ∃ s t : State, s.dev.Canonical ∧ step s = .next t := ⟨State.reset, _, by decide +kernel, rfl⟩

theorem wit_QueueDrainsInOrder :
  (∃ (s : State), (s.pending = [])) :=
  ⟨wit [(F.DEV_STATE_STATE, 2)], by decide +kernel⟩

theorem wit_ResetState :
  (∃ (p : _), (alwaysEnabled p = true)) ∧
  (∃ (p : Nat), (alwaysEnabled p = false)) :=
  ⟨⟨0, by decide +kernel⟩,
  ⟨16, by decide +kernel⟩⟩

theorem wit_PowerOn :
  (∃ (s : State), (s.dev.power.porstLow = true)) :=
  ⟨wit [(F.DEV_STATE_STATE, 2)] (fun dv => ({ dv with power := { dv.power with porstLow := true } } : Dev)), by decide +kernel⟩

theorem wit_WarmResets :
  (∃ (s : State), (s.dev.power.porstLow = false) ∧ (s.dev.power.tripHold = false)) :=
  ⟨wit [(F.DEV_STATE_STATE, 2)], by decide +kernel⟩

theorem wit_StartupEnds :
  (∃ (s : State), (s.dev.state = 1) ∧ (s.dev.power.starting = true) ∧ (s.dev.power.porstLow = false) ∧ (s.dev.power.tripHold = false) ∧
    (s.dev.boot.header ≠ [])) ∧
  (∃ (s : State), (s.dev.state = 1) ∧ (s.dev.power.starting = true) ∧ (s.dev.power.porstLow = false) ∧ (s.dev.power.tripHold = false) ∧
    (s.dev.boot.header = []) ∧ (s.dev.bit F.SEC_BOOT_STAT_WAITING = false)) :=
  ⟨⟨wit [(F.DEV_STATE_STATE, 1)] (fun dv => ({ dv with boot := { dv.boot with header := [1] } } : Dev)), by decide +kernel⟩,
  ⟨wit [(F.DEV_STATE_STATE, 1)], by decide +kernel⟩⟩

theorem wit_ThermalProtection :
  (∃ (s : State) (ts : List Int), (ts ≠ []) ∧ (s.dev.power.porstLow = false) ∧ (s.dev.power.tripHold = false) ∧ (118 ≤ Dev.hottest ts)) ∧
  (∃ (s : State) (ts : List Int), (ts ≠ []) ∧ (s.dev.power.porstLow = false) ∧ (s.dev.power.tripHold = false) ∧ (s.dev.bit F.DEV_ENV_STAT_ALARM = false)
    ∧ (105 ≤ Dev.hottest ts) ∧ (Dev.hottest ts < 110)) ∧
  (∃ (s : State) (ts : List Int), (ts ≠ []) ∧ (s.dev.power.porstLow = false) ∧ (s.dev.power.tripHold = false) ∧ (s.dev.bit F.DEV_ENV_STAT_ALARM = true)
    ∧ (Dev.hottest ts ≤ 100)) ∧
  (∃ (s : State) (ts : List Int), (ts ≠ []) ∧ (s.dev.power.porstLow = false) ∧ (s.dev.power.tripHold = false) ∧ (s.dev.bit F.DEV_ENV_STAT_THROTTLE =
    false) ∧ (110 ≤ Dev.hottest ts) ∧ (Dev.hottest ts < 118)) ∧
  (∃ (s : State) (ts : List Int), (ts ≠ []) ∧ (s.dev.power.porstLow = false) ∧ (s.dev.power.tripHold = false) ∧ (s.dev.bit F.DEV_ENV_STAT_THROTTLE =
    true) ∧ (Dev.hottest ts ≤ 105)) :=
  ⟨⟨wit [(F.DEV_STATE_STATE, 2)], [118, 30], by decide +kernel⟩,
  ⟨wit [(F.DEV_STATE_STATE, 2)], [105], by decide +kernel⟩,
  ⟨wit [(F.DEV_STATE_STATE, 2), (F.DEV_ENV_STAT_ALARM, 1)], [100], by decide +kernel⟩,
  ⟨wit [(F.DEV_STATE_STATE, 2)], [117], by decide +kernel⟩,
  ⟨wit [(F.DEV_STATE_STATE, 2), (F.DEV_ENV_STAT_THROTTLE, 1)], [105], by decide +kernel⟩⟩

theorem wit_ClocksAndFault :
  (∃ (s : State), (s.dev.testBit F.DEV_ENV_STAT_CLK_LOST 0 = false) ∧ (s.dev.state ≠ 1) ∧ (s.dev.state ≠ 15)) ∧
  (∃ (s : State), (s.dev.testBit F.DEV_ENV_STAT_CLK_LOST 1 = false)) ∧
  (∃ (s : State), (s.dev.testBit F.DEV_ENV_STAT_CLK_LOST 1 = true)) ∧
  (∃ (s : State), (s.dev.testBit F.DEV_ENV_STAT_CLK_LOST 2 = false)) ∧
  (∃ (s : State), (s.dev.testBit F.DEV_ENV_STAT_CLK_LOST 2 = true)) ∧
  (∃ (s : State) (l : Latch), (s.dev.state ≠ 1) ∧ (s.dev.state ≠ 15) ∧ (s.dev.cmd = some l)) :=
  ⟨⟨wit [(F.DEV_STATE_STATE, 2)], by decide +kernel⟩,
  ⟨wit [(F.DEV_STATE_STATE, 2)], by decide +kernel⟩,
  ⟨wit [(F.DEV_STATE_STATE, 2), (F.DEV_ENV_STAT_CLK_LOST, (2 ^ 1))], by decide +kernel⟩,
  ⟨wit [(F.DEV_STATE_STATE, 2)], by decide +kernel⟩,
  ⟨wit [(F.DEV_STATE_STATE, 2), (F.DEV_ENV_STAT_CLK_LOST, (2 ^ 2))], by decide +kernel⟩,
  ⟨wit [(F.DEV_STATE_STATE, 2)] (fun dv => ({ dv with cmd := some ⟨0x10, 5, 0, [0, 0, 0, 0, 0, 0, 0, 0], 0⟩ } : Dev)), ⟨0x10, 5, 0, [0, 0, 0, 0, 0, 0,
    0, 0], 0⟩, by decide +kernel⟩⟩

theorem wit_HostAndAuxiliary :
  (∃ (s : State), (s.dev.power.porstLow = false) ∧ (s.dev.power.tripHold = false) ∧ (s.dev.power.pcieTrain = false) ∧ (s.dev.power.starting = false ∨
    1000000 ≤ s.dev.elapsed s.dev.power.bootAt)) ∧
  (∃ (s : State), (s.dev.power.porstLow = false) ∧ (s.dev.power.tripHold = false) ∧ (s.dev.power.pcieTrain = false) ∧ (s.dev.power.starting = true) ∧
    (s.dev.elapsed s.dev.power.bootAt < 1000000)) ∧
  (∃ (s : State), (s.dev.power.pcieTrain = true) ∧ (s.dev.power.configAt ≤ s.dev.time.c)) ∧
  (∃ (s : State), (s.dev.power.pcieTrain = true) ∧ (s.dev.time.c < s.dev.power.configAt)) ∧
  (∃ (s : State) (write : Bool) (code : _), (write = true ∨ s.dev.state = 1 ∨ s.dev.smbusData code = none)) ∧
  (∃ (s : State) (code : _) (bs : List Nat), (s.dev.state ≠ 1) ∧ (s.dev.smbusData code = some bs)) ∧
  (∃ (s : State) (e : _), (e < 2) ∧ (s.dev.state ≠ 1)) :=
  ⟨⟨wit [(F.DEV_STATE_STATE, 2)] (fun dv =>
    ({ dv with time := { c := 1000000 }, power := { dv.power with porstLow := false, tripHold := false, pcieTrain := false, starting := true, bootAt := 0 } }
    : Dev)), by decide +kernel⟩,
  ⟨wit [(F.DEV_STATE_STATE, 2)] (fun dv =>
    ({ dv with time := { c := 999999 }, power := { dv.power with porstLow := false, tripHold := false, pcieTrain := false, starting := true, bootAt := 0 } }
    : Dev)), by decide +kernel⟩,
  ⟨wit [(F.DEV_STATE_STATE, 2)] (fun dv => ({ dv with power := { dv.power with pcieTrain := true, configAt := 0 }, time := { c := 8 } } : Dev)),
    by decide +kernel⟩,
  ⟨wit [(F.DEV_STATE_STATE, 2)] (fun dv => ({ dv with power := { dv.power with pcieTrain := true, configAt := 9 }, time := { c := 8 } } : Dev)),
    by decide +kernel⟩,
  ⟨wit [(F.DEV_STATE_STATE, 5)], true, 1, by decide +kernel⟩,
  ⟨wit [(F.DEV_STATE_STATE, 5)], 1, leBytes 4 ((wit [(F.DEV_STATE_STATE, 5)]).dev.regWord 0 0x44), by decide +kernel⟩,
  ⟨wit [(F.DEV_STATE_STATE, 2)], 1, by decide +kernel⟩⟩

theorem wit_DroppedWrites :
  (∃ (s : State) (addr : _) (size : _), (addr < 0x400_0000) ∧ (size ≠ 4 ∨ addr % 4 ≠ 0) ∧ (s.dev.get (F.BLK_ERR_CODE_CODE 0) = 0)) ∧
  (∃ (page : _) (off : _), (page < 1024) ∧ (pageImplemented page = false) ∧ (off < 0x1_0000) ∧ (off % 4 = 0)) ∧
  (∃ (page : _) (off : _), (page < 1024) ∧ (pageImplemented page = true) ∧ (off < 0x1_0000) ∧ (off % 4 = 0)) ∧
  (∃ (s : State) (page : Nat) (off : Nat) (b : Nat), (pageImplemented page = true) ∧ (governing page = some b) ∧ (s.dev.feat b = false) ∧ (s.dev.state ≠
    1) ∧ (off < 0x1_0000) ∧ (off % 4 = 0) ∧ (0x40 ≤ off)) ∧
  (∃ (s : State) (page : Nat) (off : Nat) (b : Nat), (pageImplemented page = true) ∧ (governing page = some b) ∧ (s.dev.feat b = false) ∧ (s.dev.state ≠
    1) ∧ (off < 0x1_0000) ∧ (off % 4 = 0) ∧ (off < 0x40)) ∧
  (∃ (s : State) (page : Nat) (off : Nat) (b : Nat), (pageImplemented page = true) ∧ (governing page = some b) ∧ (s.dev.feat b = false) ∧ (s.dev.state ≠
    1) ∧ (off < 0x1_0000) ∧ (off % 4 = 0) ∧ (off ≠ 0x34) ∧ (s.dev.get (F.BLK_ERR_CODE_CODE page) = 0)) :=
  ⟨⟨wit [(F.DEV_STATE_STATE, 2)], 0x3FF_FFFF, 1, by decide +kernel⟩,
  ⟨1023, 0xFFFC, by decide +kernel⟩,
  ⟨0x91, 0x34, by decide +kernel⟩,
  ⟨wit [(F.DEV_STATE_STATE, 2)] (fun dv => ({ dv with accepted := 0x1 } : Dev)), 0x40, 0x40, 5, by decide +kernel⟩,
  ⟨wit [(F.DEV_STATE_STATE, 2)] (fun dv => ({ dv with accepted := 0x1 } : Dev)), 0x40, 0x3C, 5, by decide +kernel⟩,
  ⟨wit [(F.DEV_STATE_STATE, 2)] (fun dv => ({ dv with accepted := 0x1 } : Dev)), 0x40, 0x40, 5, by decide +kernel⟩⟩

theorem wit_PageLocks :
  (∃ (s : State) (page : Nat) (off : Nat), (pageImplemented page = true) ∧ (s.dev.state ≠ 1) ∧ (∀ b, governing page = some b → s.dev.feat b = true) ∧
    (off < 0x1_0000) ∧ (off % 4 = 0) ∧ (s.dev.get (F.BLK_ERR_CODE_CODE page) = 0) ∧ (s.dev.bit (F.BLK_LOCK_LOCK page) = true) ∧ (off ∉ [0x30, 0x18,
    0x1C, 0x2C, 0x34])) ∧
  (∃ (s : State) (page : Nat) (off : Nat), (pageImplemented page = true) ∧ (s.dev.state ≠ 1) ∧ (∀ b, governing page = some b → s.dev.feat b = true) ∧
    (off < 0x1_0000) ∧ (off % 4 = 0) ∧ (s.dev.get (F.BLK_ERR_CODE_CODE page) = 0) ∧ (off ∈ [0x30, 0x18, 0x1C, 0x2C, 0x34])) ∧
  (∃ (s : State) (page : Nat) (off : Nat), (pageImplemented page = true) ∧ (s.dev.state ≠ 1) ∧ (∀ b, governing page = some b → s.dev.feat b = true) ∧
    (off < 0x1_0000) ∧ (off % 4 = 0) ∧ (s.dev.get (F.BLK_ERR_CODE_CODE page) = 0) ∧ (s.dev.bit (F.BLK_LOCK_LOCK page) = false) ∧ (s.dev.bit
    (F.BLK_LOCK_VESPER_LOCK page) = true) ∧ (0x40 ≤ off)) ∧
  (∃ (s : State) (page : Nat) (off : Nat) (v : Nat), (pageImplemented page = true) ∧ (s.dev.state ≠ 1) ∧ (∀ b, governing page = some b → s.dev.feat b =
    true) ∧ (off < 0x1_0000) ∧ (off % 4 = 0) ∧ (s.dev.get (F.BLK_ERR_CODE_CODE page) = 0) ∧ (bitsAt v 16 16 ≠ 0x4C4B)) ∧
  (∃ (s : State) (page : Nat) (off : Nat) (v : Nat), (pageImplemented page = true) ∧ (s.dev.state ≠ 1) ∧ (∀ b, governing page = some b → s.dev.feat b =
    true) ∧ (off < 0x1_0000) ∧ (off % 4 = 0) ∧ (s.dev.get (F.BLK_ERR_CODE_CODE page) = 0) ∧ (bitsAt v 16 16 = 0x4C4B)) :=
  ⟨⟨wit [(F.DEV_STATE_STATE, 2), (F.BLK_LOCK_LOCK 0x40, 1), (F.BLK_LOCK_LOCK 0x40, 1)], 0x40, 0xFFFC, by decide +kernel, by decide +kernel, of_toList
    (by decide +kernel), by decide +kernel⟩,
  ⟨wit [(F.DEV_STATE_STATE, 2)], 0x40, 0x34, by decide +kernel, by decide +kernel, of_toList (by decide +kernel), by decide +kernel⟩,
  ⟨wit [(F.DEV_STATE_STATE, 2), (F.BLK_LOCK_VESPER_LOCK 0x40, 1), (F.BLK_LOCK_VESPER_LOCK 0x40, 1)], 0x40, 0xFFFC, by decide +kernel, by decide +kernel,
    of_toList (by decide +kernel), by decide +kernel⟩,
  ⟨wit [(F.DEV_STATE_STATE, 2)], 0x40, 0xFFFC, 3, by decide +kernel, by decide +kernel, of_toList (by decide +kernel), by decide +kernel⟩,
  ⟨wit [(F.DEV_STATE_STATE, 2)], 0x40, 0xFFFC, 0x4C4B_0003, by decide +kernel, by decide +kernel, of_toList (by decide +kernel), by decide +kernel⟩⟩

theorem wit_EventsCounted :
  (∃ (b : Nat), (b < 32)) :=
  ⟨31, by decide +kernel⟩

theorem wit_ErrorRecord :
  (∃ (d : Dev) (p : Nat), (d.get (F.BLK_ERR_CODE_CODE p) = 0)) ∧
  (∃ (d : Dev) (p : Nat), (d.get (F.BLK_ERR_CODE_CODE p) ≠ 0)) :=
  ⟨⟨(wit [(F.DEV_STATE_STATE, 2)]).dev, 0, by decide +kernel⟩,
  ⟨(wit [(F.DEV_STATE_STATE, 2), (F.BLK_ERR_CODE_CODE 0, 1)]).dev, 0, by decide +kernel⟩⟩

theorem wit_BlockControl :
  (∃ (s : State) (page : Nat), (pageImplemented page = true) ∧ (s.dev.taken page 0x0C) ∧ (alwaysEnabled page = false) ∧ (s.dev.quiet = true)) ∧
  (∃ (s : State) (page : Nat), (pageImplemented page = true) ∧ (s.dev.taken page 0x0C) ∧ (s.dev.bit (F.BLK_CTRL_ENABLE page) = false ∨ s.dev.offline
    page = true ∨ s.dev.state = 8)) ∧
  (∃ (s : State) (page : Nat), (pageImplemented page = true) ∧ (s.dev.taken page 0x0C) ∧ (noTestSource page = false) ∧ (isEng page = false) ∧
    (s.dev.offline page = true)) ∧
  (∃ (s : State) (page : Nat), (pageImplemented page = true) ∧ (s.dev.taken page 0x0C) ∧ (3 ≤ s.dev.state)) ∧
  (∃ (s : State) (page : Nat), (pageImplemented page = true) ∧ (s.dev.taken page 0x0C) ∧ (servesOffline page = true)) ∧
  (∃ (s : State) (page : Nat), (pageImplemented page = true) ∧ (servesOffline page = true) ∧ (isMet page = false) ∧ (s.dev.bit (F.BLK_CTRL_OFFLINE_REQ
    page) = true) ∧ (s.dev.offline page = false) ∧ (s.dev.workEnded page = true)) :=
  ⟨⟨wit [(F.DEV_STATE_STATE, 3)], 0x40, by decide +kernel⟩,
  ⟨wit [(F.DEV_STATE_STATE, 8)], 0x91, by decide +kernel⟩,
  ⟨wit [(F.DEV_STATE_STATE, 2), (F.BLK_STAT_OFFLINE 0x10, 1), (F.BLK_STAT_OFFLINE 0x10, 1)], 0x10, by decide +kernel⟩,
  ⟨wit [(F.DEV_STATE_STATE, 3)], 0x91, by decide +kernel⟩,
  ⟨wit [(F.DEV_STATE_STATE, 2)], 0x88, by decide +kernel⟩,
  ⟨wit [(F.DEV_STATE_STATE, 2), (F.BLK_CTRL_OFFLINE_REQ 0x2C, 1), (F.BLK_CTRL_OFFLINE_REQ 0x2C, 1)], 0x2C, by decide +kernel⟩⟩

theorem wit_InterruptRegisters :
  (∃ (s : State) (page : Nat) (b : Nat), (s.dev.taken page 0x1C) ∧ (b < 32) ∧ (irqSources page / 2 ^ b % 2 = 1) ∧ (b ≠ 2)) ∧
  (∃ (s : State) (page : Nat), (s.dev.taken page 0x1C) ∧ (irqSources page / 4 % 2 = 1)) ∧
  (∃ (s : State) (page : Nat) (c : _), (pageImplemented page = true) ∧ (s.dev.state ≠ 1) ∧ (s.dev.get (F.BLK_ERR_CODE_CODE page) ≠ 0) ∧ (c ≠ 0)) ∧
  (∃ (s : State) (n : Nat), (n < 37) ∧ (s.dev.taken 2 (0x80 + 4 * n))) ∧
  (∃ (s : State) (n : Nat) (b : Nat), (n < 2) ∧ (b < 32) ∧ (s.dev.taken 2 (0x140 + 4 * n)) ∧ (s.dev.vectorPending (32 * n + b) = false)) ∧
  (∃ (s : State) (n : Nat) (b : Nat), (n < 2) ∧ (b < 32) ∧ (s.dev.taken 2 (0x140 + 4 * n)) ∧ (s.dev.vectorPending (32 * n + b) = true) ∧
    (s.dev.canRequest = true) ∧ (s.dev.msixMasked (32 * n + b) = false)) :=
  ⟨⟨wit [(F.DEV_STATE_STATE, 2)], 0, 7, by decide +kernel⟩,
  ⟨wit [(F.DEV_STATE_STATE, 2)], 0x91, by decide +kernel⟩,
  ⟨wit [(F.DEV_STATE_STATE, 2), (F.BLK_ERR_CODE_CODE 0x91, 1), (F.BLK_ERR_CODE_CODE 0x91, 3)], 0x91, 9, by decide +kernel⟩,
  ⟨wit [(F.DEV_STATE_STATE, 2)], 36, by decide +kernel⟩,
  ⟨wit [(F.DEV_STATE_STATE, 2)], 1, 31, by decide +kernel⟩,
  ⟨wit [(F.DEV_STATE_STATE, 2), (F.HOST_LINK_BME, 1), (F.BLK_IRQ_RAW 0, 32), (F.BLK_IRQ_EN 0, 32), (F.IRQ_ROUTE_VECTOR 0 0, 63), (F.MSIX_VECTOR_MASK 63,
    0)], 1, 31, by decide +kernel⟩⟩

theorem wit_Negotiation :
  (∃ (s : State) (v : Nat), (s.dev.taken 0 0x70) ∧ (s.dev.state = 2) ∧ (v % 2 = 1)) ∧
  (∃ (s : State), (s.dev.taken 0 0x70) ∧ (s.dev.state ≠ 2) ∧ (s.dev.get (F.BLK_ERR_CODE_CODE 0) = 0)) ∧
  (∃ (s : State) (b : _), (s.dev.state = 2) ∧ (s.dev.bit F.DEV_FEAT_COMMIT_COMMIT = true) ∧ (s.dev.commitFault s.dev.acceptSet = some b)) ∧
  (∃ (s : State), (s.dev.state = 2) ∧ (s.dev.bit F.DEV_FEAT_COMMIT_COMMIT = true) ∧ (s.dev.commitFault s.dev.acceptSet = none)) :=
  ⟨⟨wit [(F.DEV_STATE_STATE, 2)], 1, by decide +kernel⟩,
  ⟨wit [(F.DEV_STATE_STATE, 5)], by decide +kernel⟩,
  ⟨wit [(F.DEV_STATE_STATE, 2), (F.DEV_FEAT_COMMIT_COMMIT, 1)], 0, by decide +kernel⟩,
  ⟨wit [(F.DEV_STATE_STATE, 2), (F.DEV_FEAT_COMMIT_COMMIT, 1), (F.DRV_FEAT_ACCEPT_ACCEPT 0, 1)], by decide +kernel⟩⟩

theorem wit_Mailbox :
  (∃ (s : State) (v : _), (s.dev.taken 1 0x64) ∧ (v % 2 = 1) ∧ (s.dev.bit F.CMD_STATUS_BUSY = false) ∧ (s.dev.cmdFault (s.dev.get F.CMD_CODE_CODE)
    ((List.range 8).map (fun n => s.dev.get (F.CMD_ARG_ARG n))) = none)) ∧
  (∃ (s : State) (v : _) (e : Dev.Err) (k : _), (s.dev.taken 1 0x64) ∧ (v % 2 = 1) ∧ (s.dev.bit F.CMD_STATUS_BUSY = false) ∧ (s.dev.cmdFault (s.dev.get
    F.CMD_CODE_CODE) ((List.range 8).map (fun n => s.dev.get (F.CMD_ARG_ARG n))) = some (e, k))) ∧
  (∃ (s : State) (l : Latch) (n : _), (s.dev.cmd = some l) ∧ (cmdLimit l.code l.args = some n) ∧ (n < s.dev.elapsed l.t0)) ∧
  (∃ (s : State), (s.dev.executing 0x00 = true) ∧ (s.dev.cmdLegal 0x00 = true)) :=
  ⟨⟨wit [(F.DEV_STATE_STATE, 2)], 1, by decide +kernel⟩,
  ⟨wit [(F.DEV_STATE_STATE, 2), (F.CMD_CODE_CODE, 0x10)], 1, .state, 0, by decide +kernel⟩,
  ⟨wit [(F.DEV_STATE_STATE, 2)] (fun dv => ({ dv with cmd := some ⟨0x10, 5, 0, [0, 0, 0, 0, 0, 0, 0, 0], 0⟩, time := { c := 50000001 } } : Dev)), ⟨0x10,
    5, 0, [0, 0, 0, 0, 0, 0, 0, 0], 0⟩, 50000000, by decide +kernel⟩,
  ⟨wit [(F.DEV_STATE_STATE, 2)] (fun dv => ({ dv with cmd := some ⟨0x00, 0, 0, [0, 0, 0, 0, 0, 0, 0, 0], 0⟩ } : Dev)), by decide +kernel⟩⟩

theorem wit_ConfigureStartStop :
  (∃ (s : State), (s.dev.executing 0x10 = true) ∧ (s.dev.state = 3) ∧ (s.dev.mapBad (s.dev.get F.PLAN_SWAP_ACTIVE) = none) ∧ (s.dev.configFault = none)) ∧
  (∃ (s : State) (e : Nat × List Nat), (s.dev.executing 0x10 = true) ∧ (s.dev.state = 3) ∧ (s.dev.mapBad (s.dev.get F.PLAN_SWAP_ACTIVE) = none) ∧
    (s.dev.configFault = some e)) ∧
  (∃ (s : State), (s.dev.executing 0x11 = true) ∧ (s.dev.state = 4)) ∧
  (∃ (s : State), (s.dev.executing 0x12 = true) ∧ (s.dev.state = 3)) ∧
  (∃ (s : State) (p : _), (s.dev.executing 0x20 = true) ∧ (s.dev.state = 4) ∧ (s.dev.pageMissing = some p)) ∧
  (∃ (s : State), (s.dev.executing 0x20 = true) ∧ (s.dev.state = 4) ∧ (s.dev.pageMissing = none)) ∧
  (∃ (s : State), (s.dev.executing 0x21 = true) ∧ (s.dev.cmdLegal 0x21 = true) ∧ (s.dev.arg 0 % 2 = 0) ∧ (s.dev.plan.drain = false)) ∧
  (∃ (s : State), (s.dev.executing 0x21 = true) ∧ (s.dev.cmdLegal 0x21 = true) ∧ (s.dev.arg 0 % 2 = 1)) ∧
  (∃ (s : State), (s.dev.plan.drain = true) ∧ (s.dev.drained = true) ∧ (s.dev.drainStore.drained = true) ∧ (s.dev.drainStore.scheduled = false)) :=
  ⟨⟨wit [(F.DEV_STATE_STATE, 3)] (fun dv => ({ dv with cmd := some ⟨0x10, 0, 0, [0, 0, 0, 0, 0, 0, 0, 0], 0⟩ } : Dev)), by decide +kernel⟩,
  ⟨wit [(F.DEV_STATE_STATE, 3), (F.BLK_CTRL_ENABLE (cxp 0), 1), (F.CXP_CTRL_GROUP 0, 0)] (fun dv =>
    ({ dv with cmd := some ⟨0x10, 0, 0, [0, 0, 0, 0, 0, 0, 0, 0], 0⟩ } : Dev)), (0, [0x30]), by decide +kernel⟩,
  ⟨wit [(F.DEV_STATE_STATE, 4)] (fun dv => ({ dv with cmd := some ⟨0x11, 0, 0, [0, 0, 0, 0, 0, 0, 0, 0], 0⟩ } : Dev)), by decide +kernel⟩,
  ⟨wit [(F.DEV_STATE_STATE, 3)] (fun dv => ({ dv with cmd := some ⟨0x12, 0, 0, [0, 0, 0, 0, 0, 0, 0, 0], 0⟩ } : Dev)), by decide +kernel⟩,
  ⟨wit [(F.DEV_STATE_STATE, 4), (F.BLK_CTRL_ENABLE (cxp 0), 1), (F.CXP_CTRL_GROUP 0, 0)] (fun dv =>
    ({ dv with cmd := some ⟨0x20, 0, 0, [0, 0, 0, 0, 0, 0, 0, 0], 0⟩ } : Dev)), 0x30, by decide +kernel⟩,
  ⟨wit [(F.DEV_STATE_STATE, 4)] (fun dv => ({ dv with cmd := some ⟨0x20, 0, 0, [0, 0, 0, 0, 0, 0, 0, 0], 0⟩ } : Dev)), by decide +kernel⟩,
  ⟨wit [(F.DEV_STATE_STATE, 7)] (fun dv => ({ dv with cmd := some ⟨0x21, 0, 0, [0, 0, 0, 0, 0, 0, 0, 0], 0⟩ } : Dev)), by decide +kernel⟩,
  ⟨wit [(F.DEV_STATE_STATE, 5)] (fun dv => ({ dv with cmd := some ⟨0x21, 0, 0, [1, 0, 0, 0, 0, 0, 0, 0], 0⟩ } : Dev)), by decide +kernel⟩,
  ⟨wit [(F.DEV_STATE_STATE, 5)] (fun dv => ({ dv with cmd := some ⟨0x21, 5, 0, [0, 0, 0, 0, 0, 0, 0, 0], 0⟩, plan := { dv.plan with drain := true } } :
    Dev)), by decide +kernel⟩⟩

theorem wit_LevelCommands :
  (∃ (s : State), (s.dev.executing 0x22 = true) ∧ (s.dev.state = 5)) ∧
  (∃ (s : State), (s.dev.executing 0x23 = true) ∧ (s.dev.state = 5 ∨ s.dev.state = 6)) ∧
  (∃ (s : State), (s.dev.executing 0x24 = true) ∧ (s.dev.state = 6 ∨ s.dev.state = 7) ∧ (s.dev.arg 0 ≠ s.dev.state) ∧ (s.dev.arg 0 = 5 ∨ s.dev.arg 0 =
    6) ∧ (s.dev.sourceUsable (s.dev.arg 0) = true)) ∧
  (∃ (s : State), (s.dev.executing 0x28 = true) ∧ (s.dev.sorting = true) ∧ (s.dev.arg 0 = 0) ∧ (s.dev.isLead = true) ∧ (s.dev.bit F.TWIN_STAT_PARTNER_OK
    = true) ∧ (s.dev.bit F.TWIN_STAT_LINK_UP = true) ∧ (s.dev.mer.offer = none)) ∧
  (∃ (s : State), (s.dev.executing 0x28 = true) ∧ (s.dev.sorting = true) ∧ (s.dev.state ≠ 7) ∧ (s.dev.arg 0 = 1) ∧ (s.dev.isShadow = true) ∧ (s.dev.bit
    F.TWIN_STAT_PARTNER_OK = true) ∧ (s.dev.bit F.TWIN_STAT_LINK_UP = true)) ∧
  (∃ (s : State), (s.dev.executing 0x28 = true) ∧ (s.dev.sorting = true) ∧ (s.dev.state ≠ 7) ∧ (s.dev.arg 0 = 2) ∧ (s.dev.role = 2 ∨ s.dev.role = 3) ∧
    (s.dev.laneClockLost = false)) ∧
  (∃ (s : State), (s.dev.executing 0x30 = true) ∧ (s.dev.cmdLegal 0x30 = true) ∧ (s.dev.feat 1 = false) ∧ (s.dev.arg 0 % 2 = 1)) ∧
  (∃ (s : State), (s.dev.executing 0x31 = true) ∧ (s.dev.state = 8)) ∧
  (∃ (s : State), (s.dev.executing 0x38 = true) ∧ (s.dev.cmdLegal 0x38 = true) ∧ (s.dev.power.porstLow = false) ∧ (s.dev.power.tripHold = false)) ∧
  (∃ (s : State), (s.dev.executing 0x62 = true) ∧ (s.dev.cmdLegal 0x62 = true) ∧ (s.dev.power.porstLow = false) ∧ (s.dev.power.tripHold = false) ∧
    (s.dev.get F.SEC_FW_STAT_STAGE = 2) ∧ (s.dev.get F.DEV_STRAPS_BOOT_SRC = 0)) :=
  ⟨⟨wit [(F.DEV_STATE_STATE, 5)] (fun dv => ({ dv with cmd := some ⟨0x22, 0, 0, [0, 0, 0, 0, 0, 0, 0, 0], 0⟩ } : Dev)), by decide +kernel⟩,
  ⟨wit [(F.DEV_STATE_STATE, 5)] (fun dv => ({ dv with cmd := some ⟨0x23, 0, 0, [0, 0, 0, 0, 0, 0, 0, 0], 0⟩ } : Dev)), by decide +kernel⟩,
  ⟨wit [(F.DEV_STATE_STATE, 6)] (fun dv => ({ dv with cmd := some ⟨0x24, 0, 0, [5, 0, 0, 0, 0, 0, 0, 0], 0⟩ } : Dev)), by decide +kernel⟩,
  ⟨wit [(F.DEV_STATE_STATE, 5), (F.TWIN_STAT_ROLE, 1), (F.TWIN_STAT_PARTNER_OK, 1), (F.TWIN_STAT_LINK_UP, 1)] (fun dv =>
    ({ dv with cmd := some ⟨0x28, 0, 0, [0, 0, 0, 0, 0, 0, 0, 0], 0⟩ } : Dev)), by decide +kernel⟩,
  ⟨wit [(F.DEV_STATE_STATE, 5), (F.TWIN_STAT_ROLE, 2), (F.TWIN_STAT_PARTNER_OK, 1), (F.TWIN_STAT_LINK_UP, 1)] (fun dv =>
    ({ dv with cmd := some ⟨0x28, 0, 0, [1, 0, 0, 0, 0, 0, 0, 0], 0⟩ } : Dev)), by decide +kernel⟩,
  ⟨wit [(F.DEV_STATE_STATE, 5), (F.TWIN_STAT_ROLE, 3)] (fun dv => ({ dv with cmd := some ⟨0x28, 0, 0, [2, 0, 0, 0, 0, 0, 0, 0], 0⟩ } : Dev)),
    by decide +kernel⟩,
  ⟨wit [(F.DEV_STATE_STATE, 7)] (fun dv => ({ dv with accepted := 0x3FFFFFD, cmd := some ⟨0x30, 0, 0, [1, 0, 0, 0, 0, 0, 0, 0], 0⟩ } : Dev)),
    by decide +kernel⟩,
  ⟨wit [(F.DEV_STATE_STATE, 8)] (fun dv => ({ dv with cmd := some ⟨0x31, 0, 0, [0, 0, 0, 0, 0, 0, 0, 0], 0⟩ } : Dev)), by decide +kernel⟩,
  ⟨wit [(F.DEV_STATE_STATE, 2)] (fun dv => ({ dv with cmd := some ⟨0x38, 0, 0, [0, 0, 0, 0, 0, 0, 0, 0], 0⟩ } : Dev)), by decide +kernel⟩,
  ⟨wit [(F.DEV_STATE_STATE, 8), (F.SEC_FW_STAT_STAGE, 2)] (fun dv => ({ dv with cmd := some ⟨0x62, 0, 0, [0, 0, 0, 0, 0, 0, 0, 0], 0⟩ } : Dev)),
    by decide +kernel⟩⟩

theorem wit_CameraLink_1 :
  (∃ (s : State) (p : Nat), (p < 16) ∧ (s.dev.portState p = 1) ∧ (500000000 ≤ s.dev.elapsed (s.dev.port p).since)) ∧
  (∃ (s : State) (p : Nat) (rates : _) (conns : _) (c : _), (p < 16) ∧ (s.dev.portState p = 2) ∧ (s.dev.uplink p = true) ∧ (1 ≤ c) ∧ (c < 8) ∧ (c ≤
    s.dev.get (F.CXP_LINK_SPEED_MAX p)) ∧ (rates / 2 ^ c % 2 = 1) ∧ (∀ c', c < c' → c' < 8 → c' ≤ s.dev.get (F.CXP_LINK_SPEED_MAX p) → rates / 2 ^ c'
    % 2 = 0) ∧ (s.dev.get (F.CXP_CTRL_CONN p) + 1 ≤ conns)) ∧
  (∃ (s : State) (p : Nat) (conns : _), (p < 16) ∧ (s.dev.portState p = 2) ∧ (s.dev.uplink p = true) ∧ (conns < s.dev.get (F.CXP_CTRL_CONN p) + 1) ∧
    (s.dev.get (F.BLK_ERR_CODE_CODE (cxp p)) = 0)) ∧
  (∃ (s : State) (p : Nat), (p < 16) ∧ (s.dev.portState p = 3) ∧ (s.dev.allLocked p = true) ∧ (1000000 ≤ s.dev.elapsed (s.dev.port p).lockSince)) ∧
  (∃ (s : State) (p : Nat) (c : _), (p < 16) ∧ (c ≤ s.dev.get (F.CXP_CTRL_CONN p)) ∧ (s.dev.testBit (F.CXP_LINK_LOCK p) c = true) ∧ (s.dev.portUp p =
    true)) ∧
  (∃ (s : State) (p : Nat), (p < 16) ∧ (s.dev.portState p = 7) ∧ (s.dev.bit (F.CXP_CTRL_AUTO_RELINK p) = true) ∧ (s.dev.allLocked p = true) ∧
    (s.dev.elapsed (s.dev.port p).since ≤ 10000000)) ∧
  (∃ (s : State) (p : Nat), (p < 16) ∧ (s.dev.portState p = 7) ∧ (10000000 < s.dev.elapsed (s.dev.port p).since)) ∧
  (∃ (s : State) (p : Nat), (p < 16) ∧ (s.dev.portState p ≠ 0) ∧ (s.dev.portState p ≠ 9)) ∧
  (∃ (s : State) (p : Nat), (p < 16) ∧ (s.dev.taken (cxp p) 0x40) ∧ (s.dev.bit (F.CXP_PWR_FLT_LATCH p) = false) ∧ (s.dev.bit (F.CXP_PWR_FLT p) = false)
    ∧ (s.dev.portState p = 8)) ∧
  (∃ (s : State) (p : Nat), (p < 16) ∧ (s.dev.taken (cxp p) 0x40) ∧ (s.dev.get (F.BLK_ERR_CODE_CODE (cxp p)) = 0) ∧ (s.dev.bit (F.CXP_PWR_FLT_LATCH p) =
    true ∨ s.dev.bit (F.CXP_PWR_FLT p) = true)) :=
  ⟨⟨wit [(F.DEV_STATE_STATE, 2), (F.BLK_STAT_STATE (cxp 15), 1)] (fun dv => ({ dv with time := { c := 1000000000000 } } : Dev)), 15, by decide +kernel⟩,
  ⟨wit [(F.DEV_STATE_STATE, 2), (F.BLK_STAT_STATE (cxp 15), 2), (F.CXP_LINK_SPEED_MAX 15, 7)] (fun dv => dv.setPin (.cxpUp 15 0) .run), 15, 0x80, 1, 7,
    by decide +kernel, by decide +kernel, by decide +kernel, by decide +kernel, by decide +kernel, by decide +kernel, by decide +kernel, fun _ h1 h2
    => absurd h1 (by omega), by decide +kernel⟩,
  ⟨wit [(F.DEV_STATE_STATE, 2), (F.BLK_STAT_STATE (cxp 15), 2), (F.CXP_CTRL_CONN 15, 3)] (fun dv => dv.setPin (.cxpUp 15 0) .run), 15, 3,
    by decide +kernel⟩,
  ⟨wit [(F.DEV_STATE_STATE, 2), (F.BLK_STAT_STATE (cxp 15), 3), (F.CXP_LINK_LOCK 15, 15), (F.CXP_CTRL_CONN 15, 3)] (fun dv =>
    ({ dv with time := { c := 1000000000000 } } : Dev)), 15, by decide +kernel⟩,
  ⟨wit [(F.DEV_STATE_STATE, 2), (F.CXP_LINK_LOCK 15, (2 ^ 0)), (F.BLK_STAT_STATE (cxp 15), 5)], 15, 0, by decide +kernel⟩,
  ⟨wit [(F.DEV_STATE_STATE, 2), (F.BLK_STAT_STATE (cxp 15), 7), (F.CXP_CTRL_AUTO_RELINK 15, 1), (F.CXP_LINK_LOCK 15, 15), (F.CXP_CTRL_CONN 15, 3)] (fun
    dv => ({ dv with time := { c := 10000000 } } : Dev)), 15, by decide +kernel⟩,
  ⟨wit [(F.DEV_STATE_STATE, 2), (F.BLK_STAT_STATE (cxp 15), 7)] (fun dv => ({ dv with time := { c := 10000001 } } : Dev)), 15, by decide +kernel⟩,
  ⟨wit [(F.DEV_STATE_STATE, 2), (F.BLK_STAT_STATE (cxp 15), 8)], 15, by decide +kernel⟩,
  ⟨wit [(F.DEV_STATE_STATE, 2), (F.BLK_STAT_STATE (cxp 15), 8)], 15, by decide +kernel⟩,
  ⟨wit [(F.DEV_STATE_STATE, 2), (F.CXP_PWR_FLT_LATCH 15, 1)], 15, by decide +kernel⟩⟩

theorem wit_CameraLink_2 :
  (∃ (s : State) (p : Nat), (p < 16) ∧ (s.dev.executing 0x40 = true) ∧ (s.dev.arg 0 % 16 = p) ∧ ((s.dev.port p).restartAt = none) ∧ (s.dev.relayed p =
    false) ∧ (s.dev.bit (F.BLK_CTRL_ENABLE (cxp p)) = true) ∧ (s.dev.arg 0 / 256 % 2 = 1)) ∧
  (∃ (s : State) (p : Nat), (p < 16) ∧ (s.dev.executing 0x40 = true) ∧ (s.dev.arg 0 % 16 = p) ∧ ((s.dev.port p).restartAt = none) ∧ (s.dev.relayed p =
    false) ∧ (s.dev.bit (F.BLK_CTRL_ENABLE (cxp p)) = true) ∧ (s.dev.arg 0 / 256 % 2 = 0) ∧ (s.dev.arg 0 / 512 % 2 = 1)) :=
  ⟨⟨wit [(F.DEV_STATE_STATE, 4), (F.BLK_CTRL_ENABLE (cxp 15), 1)] (fun dv => ({ dv with cmd := some ⟨0x40, 0, 0, [0x10F, 0, 0, 0, 0, 0, 0, 0], 0⟩ } :
    Dev)), 15, by decide +kernel⟩,
  ⟨wit [(F.DEV_STATE_STATE, 8), (F.BLK_CTRL_ENABLE (cxp 15), 1)] (fun dv => ({ dv with cmd := some ⟨0x40, 0, 0, [0x20F, 0, 0, 0, 0, 0, 0, 0], 0⟩ } :
    Dev)), 15, by decide +kernel⟩⟩

theorem wit_TriggersAndLines :
  (∃ (s : State) (g : Nat) (t : Nat), (g < 16) ∧ ((s.dev.gen g).due = [t]) ∧ (s.dev.genRunning g = true) ∧ (t ≤ s.dev.stamp) ∧ ((s.dev.gen g).last =
    none)) ∧
  (∃ (s : State) (g : Nat) (t : Nat) (l : Nat), (g < 16) ∧ ((s.dev.gen g).due = [t]) ∧ (s.dev.genRunning g = true) ∧ (t ≤ s.dev.stamp) ∧ ((s.dev.gen
    g).last = some l) ∧ ((s.dev.gen g).postponed = false) ∧ (t < l + s.dev.genMinInt g)) ∧
  (∃ (s : State) (g : Nat) (i : _) (high : Nat) (q : _), (g < 16) ∧ (10 ≤ high) ∧ (q < 4) ∧ (s.dev.genRunning g = true) ∧ (s.dev.get (F.TGEN_CTRL_MODE
    g) = 3) ∧ (s.dev.get (F.TGEN_CTRL_IN_SEL g) = i)) ∧
  (∃ (g : Nat) (high : Nat), (g < 16) ∧ (high < 10)) ∧
  (∃ (s : State) (g : Nat) (step : _), (g < 16) ∧ (s.dev.taken (cxp g) 0xC4) ∧ (step % 2 ^ 32 ≠ 0)) ∧
  (∃ (s : State) (g : Nat) (sid : _) (vs : List Nat), (g < 16) ∧ (sid ∈ s.dev.streams g) ∧ (s.dev.portUp g = true) ∧ ((s.dev.port g).fifo = []) ∧
    ((Dev.rxOf (s.dev.port g) sid).busy = false) ∧ ((Dev.rxOf (s.dev.port g) sid).marks = true) ∧ (vs ≠ []) ∧ (vs.length ≤ s.dev.lineTotal g sid)) ∧
  (∃ (s : State) (g : Nat) (bytes : List Nat), (g < 16) ∧ (bytes ≠ []) ∧ (s.dev.portUp g = true)) ∧
  (∃ (s : State) (g : Nat) (e : TrigEntry) (x : StreamSlot), (g < 16) ∧ (s.dev.portState g ≠ 9) ∧ ((s.dev.port g).fifo = [e]) ∧ (e.slots = [x]) ∧ (x.st
    = .unmatched) ∧ (e.stamp + s.dev.latMax g ≤ s.dev.stamp)) ∧
  (∃ (s : State) (g : Nat), (g < 16) ∧ (g < 8) ∧ (s.dev.groupRemote g = false) ∧ (∃ p ∈ s.dev.portsOf g, ∃ e ∈ (s.dev.port p).fifo, e.slots.any (fun x
    => x.st = .filling) = true ∧ e.stamp + s.dev.get (F.GRP_CTRL_WDOG_LIMIT g) * 10 * 2 ^ 16 ≤ s.dev.stamp)) ∧
  (∃ (s : State) (g : Nat) (p : _) (e : TrigEntry) (rest : List TrigEntry), (g < 16) ∧ (g < 8) ∧ (s.dev.portsOf g = [p]) ∧ (s.dev.relayed p = false) ∧
    (s.dev.relaysOut p = false) ∧ (s.dev.viewLost g = false) ∧ (s.dev.sorting = true) ∧ ((s.dev.port p).fifo = e :: rest) ∧ (e.slots.all Dev.settled =
    true) ∧ (rest.all (fun q => q.index ≠ e.index) = true)) :=
  ⟨⟨wit [(F.DEV_STATE_STATE, 2), (F.TGEN_CTRL_RUNNING 15, 1)] (fun dv => ({ dv with time := { c := 1000000000000 } } : Dev).setGen 15
    { due := [70000] }), 15, 70000, by decide +kernel⟩,
  ⟨wit [(F.DEV_STATE_STATE, 2), (F.TGEN_CTRL_RUNNING 15, 1), (F.TGEN_MIN_INT_MIN_INT 15, 250)] (fun dv => ({ dv with time := { c := 1000000000000 } } :
    Dev).setGen 15 { due := [70000], last := some 60000 }), 15, 70000, 60000, by decide +kernel⟩,
  ⟨wit [(F.DEV_STATE_STATE, 2), (F.TGEN_CTRL_RUNNING 15, 1), (F.TGEN_CTRL_MODE 15, 3), (F.TGEN_CTRL_IN_SEL 15, 7)], 15, 7, 10, 3, by decide +kernel⟩,
  ⟨15, 9, by decide +kernel⟩,
  ⟨wit [(F.DEV_STATE_STATE, 2)], 15, 0xFFFF_FFFF, by decide +kernel⟩,
  ⟨wit [(F.DEV_STATE_STATE, 2), (F.BLK_STAT_STATE (cxp 15), 5), (F.CXP_FORMAT_LINE_LEN 15, 2), (F.CXP_FORMAT_BANDS 15, 0)] (fun dv => dv.setPort 15
    { rx := [{ sid := 0, marks := true }] }), 15, 0, [5, 6], by decide +kernel⟩,
  ⟨wit [(F.DEV_STATE_STATE, 2), (F.BLK_STAT_STATE (cxp 15), 5)], 15, [1, 2, 3], by decide +kernel⟩,
  ⟨wit [(F.DEV_STATE_STATE, 2), (F.BLK_STAT_STATE (cxp 15), 5), (F.CXP_CTRL_GROUP 15, 0), (F.CXP_LAT_LAT_MAX 15, 100)] (fun dv =>
    ({ dv with time := { c := 1000000000000 } } : Dev).setPort 15 { fifo := [(⟨3, 0, [⟨0, .unmatched, [], 0⟩]⟩)] }), 15, ⟨3, 0, [⟨0, .unmatched, [],
    0⟩]⟩, ⟨0, .unmatched, [], 0⟩, by decide +kernel⟩,
  ⟨wit [(F.DEV_STATE_STATE, 2), (F.CXP_CTRL_GROUP 15, 7), (F.GRP_CTRL_WDOG_LIMIT 7, 10)] (fun dv => ({ dv with time := { c := 1000000000000 } } :
    Dev).setPort 15 { fifo := [⟨3, 0, [⟨0, .filling, [], 0⟩]⟩] }), 7, by decide +kernel⟩,
  ⟨wit [(F.DEV_STATE_STATE, 5), (F.CXP_CTRL_GROUP 15, 7), (F.CXP_FORMAT_LINE_LEN 15, 2)] (fun dv => dv.setPort 15
    { fifo := (⟨3, 0, [⟨0, .complete, [1, 2], 0⟩]⟩) :: ([⟨4, 99, [⟨0, .unmatched, [], 0⟩]⟩]) }), 7, 15, ⟨3, 0, [⟨0, .complete, [1, 2], 0⟩]⟩, [⟨4, 99,
    [⟨0, .unmatched, [], 0⟩]⟩], by decide +kernel⟩⟩

theorem wit_ControlChannel :
  (∃ (s : State) (p : Nat) (v : Nat), (p < 16) ∧ (s.dev.taken (cxp p) 0x90) ∧ (v % 2 = 1) ∧ (s.dev.bit (F.CXP_CC_CMD_BUSY p) = false) ∧ (s.dev.portUp p
    = true)) ∧
  (∃ (s : State) (p : Nat) (v : Nat), (p < 16) ∧ (s.dev.taken (cxp p) 0x90) ∧ (v % 2 = 1) ∧ (s.dev.bit (F.CXP_CC_CMD_BUSY p) = true) ∧ (s.dev.get
    (F.BLK_ERR_CODE_CODE (cxp p)) = 0)) ∧
  (∃ (s : State) (p : Nat) (v : Nat), (p < 16) ∧ (s.dev.taken (cxp p) 0x90) ∧ (v % 2 = 1) ∧ (s.dev.bit (F.CXP_CC_CMD_BUSY p) = false) ∧ (s.dev.portUp p
    = false) ∧ (s.dev.get (F.BLK_ERR_CODE_CODE (cxp p)) = 0)) ∧
  (∃ (s : State) (p : Nat), (p < 16) ∧ (s.dev.bit (F.CXP_CC_CMD_BUSY p) = true) ∧ (200000000 ≤ s.dev.elapsed (s.dev.port p).ccAt) ∧ (s.dev.get
    (F.BLK_ERR_CODE_CODE (cxp p)) = 0)) :=
  ⟨⟨wit [(F.DEV_STATE_STATE, 2), (F.BLK_STAT_STATE (cxp 15), 5)] (fun dv => dv.setPin (.cxpUp 15 0) .run), 15, 0x0301, by decide +kernel⟩,
  ⟨wit [(F.DEV_STATE_STATE, 2), (F.CXP_CC_CMD_BUSY 15, 1)], 15, 1, by decide +kernel⟩,
  ⟨wit [(F.DEV_STATE_STATE, 2)] (fun dv => dv.setPin (.cxpUp 15 0) .run), 15, 1, by decide +kernel⟩,
  ⟨wit [(F.DEV_STATE_STATE, 2), (F.CXP_CC_CMD_BUSY 15, 1)] (fun dv => ({ dv with time := { c := 1000000000000 } } : Dev)), 15, by decide +kernel⟩⟩

theorem wit_SamplesWidened :
  (∃ (d : Dev) (p : Nat) (v : Nat) (k : Nat), (d.get (F.CXP_FORMAT_SAMPLE_BITS p) = k) ∧ (k ≤ 4) ∧ (v < 2 ^ (8 + 2 * k))) :=
  ⟨(wit [(F.DEV_STATE_STATE, 2), (F.CXP_FORMAT_SAMPLE_BITS 15, 4)]).dev, 15, 65535, 4, by decide +kernel⟩

theorem wit_LaneAdaptation_1 :
  (∃ (s : State) (l : _), (l < 100) ∧ ((s.dev.lane l).base = 1) ∧ (s.dev.laneTest l = false) ∧ (s.dev.testBit F.DEV_ENV_STAT_CLK_LOST 2 = false)) ∧
  (∃ (s : State) (l : _), (l < 100) ∧ ((s.dev.lane l).base = 2) ∧ ((s.dev.lane l).hold = false) ∧ (s.dev.adapts l = true) ∧ (0 < (s.dev.lane l).wins)) ∧
  (∃ (s : State) (l : _) (tr : Nat) (pa : _), (l < 100) ∧ (s.dev.laneLocked l = true) ∧ (Dev.qualifies tr pa = true)) ∧
  (∃ (s : State) (l : _) (tr : Nat) (pa : _), (l < 100) ∧ (s.dev.laneLocked l = true) ∧ (Dev.qualifies tr pa = false)) ∧
  (∃ (s : State) (l : _), (l < 100) ∧ ((s.dev.lane l).base = 2 ∨ (s.dev.lane l).base = 3) ∧ (s.dev.laneTest l = false) ∧ ((s.dev.lane l).hold = false) ∧
    (100000 ≤ s.dev.elapsed (s.dev.lane l).lastQual)) ∧
  (∃ (s : State) (l : _), (l < 100) ∧ ((s.dev.lane l).hold = true) ∧ (s.dev.laneTest l = false) ∧ ((s.dev.lane l).longDone = false) ∧ (s.dev.get
    (F.LNG_ADAPT_CTRL_HOLD_LONG (l / 8)) ≠ 0) ∧ (s.dev.get (F.LNG_ADAPT_CTRL_HOLD_LONG (l / 8)) * 100000000 ≤ s.dev.elapsed (s.dev.lane l).since)) ∧
  (∃ (s : State) (l : _) (used : _), (l < 100) ∧ ((s.dev.lane l).boost = some used) ∧ (50000000 ≤ s.dev.trackUsed l used)) ∧
  (∃ (s : State) (l : _), (l < 100) ∧ (s.dev.laneLocked l = true) ∧ (s.dev.laneTest l = false) ∧ ((s.dev.lane l).scan = false)) ∧
  (∃ (s : State), (s.dev.executing 0x41 = true) ∧ (s.dev.arg 0 / 512 % 2 = 0) ∧ (s.dev.adaptPending = false) ∧ (99 < s.dev.arg 0 % 128)) ∧
  (∃ (s : State) (l : _), (l < 100) ∧ (s.dev.executing 0x41 = true) ∧ (s.dev.arg 0 = l) ∧ (s.dev.adaptPending = false) ∧ (s.dev.laneLocked l = true) ∧
    (s.dev.laneTest l = false) ∧ (s.dev.frozen (lng (l / 8)) = false)) :=
  ⟨⟨wit [(F.DEV_STATE_STATE, 2)] (fun dv => dv.setLane 99 { base := 1 }), 99, by decide +kernel⟩,
  ⟨wit [(F.DEV_STATE_STATE, 2)] (fun dv => dv.setLane 99 { base := 2, wins := 1 }), 99, by decide +kernel⟩,
  ⟨wit [(F.DEV_STATE_STATE, 2), (F.LANE_STAT_LOCK (99 / 8) (99 % 8), 1)], 99, 1229, 128, by decide +kernel⟩,
  ⟨wit [(F.DEV_STATE_STATE, 2), (F.LANE_STAT_LOCK (99 / 8) (99 % 8), 1)], 99, 1228, 128, by decide +kernel⟩,
  ⟨wit [(F.DEV_STATE_STATE, 2)] (fun dv => ({ dv with time := { c := 1000000000000 } } : Dev).setLane 99 { base := 3 }), 99, by decide +kernel⟩,
  ⟨wit [(F.DEV_STATE_STATE, 2), (F.LNG_ADAPT_CTRL_HOLD_LONG (99 / 8), 15)] (fun dv => ({ dv with time := { c := 1500000000 } } : Dev).setLane 99
    { base := 3, hold := true }), 99, by decide +kernel⟩,
  ⟨wit [(F.DEV_STATE_STATE, 2), (F.LANE_STAT_ASTATE (99 / 8) (99 % 8), 3)] (fun dv => ({ dv with time := { c := 1000000 } } : Dev).setLane 99
    { boost := some 49000000, trackAt := 0 }), 99, 49000000, by decide +kernel⟩,
  ⟨wit [(F.DEV_STATE_STATE, 2), (F.LANE_STAT_LOCK (99 / 8) (99 % 8), 1)], 99, by decide +kernel⟩,
  ⟨wit [(F.DEV_STATE_STATE, 3)] (fun dv => ({ dv with cmd := some ⟨0x41, 0, 0, [100, 0, 0, 0, 0, 0, 0, 0], 0⟩ } : Dev)), by decide +kernel⟩,
  ⟨wit [(F.DEV_STATE_STATE, 8), (F.LANE_STAT_LOCK (99 / 8) (99 % 8), 1)] (fun dv => ({ dv with cmd := some ⟨0x41, 0, 0, [99, 0, 0, 0, 0, 0, 0, 0], 0⟩ }
    : Dev)), 99, by decide +kernel⟩⟩

theorem wit_LaneAdaptation_2 :
  (∃ (s : State) (l : _), (l < 64 ∨ (96 ≤ l ∧ l < 100)) ∧ (s.dev.executing 0x41 = true) ∧ (s.dev.arg 0 = 512 + l) ∧ (s.dev.adaptPending = false) ∧
    (s.dev.laneTest l = false) ∧ (s.dev.frozen (lng (l / 8)) = false) ∧ (s.dev.bit (F.LANE_CFG_EQ_MANUAL (l / 8) (l % 8)) = false)) ∧
  (∃ (s : State) (l : _) (e : _), (l < 100) ∧ (3 ≤ e) ∧ (e ≤ 9) ∧ (s.dev.executing 0x42 = true) ∧ (s.dev.arg 0 = l) ∧ (s.dev.arg 1 = 1) ∧ (s.dev.arg 2 =
    e) ∧ (s.dev.laneLocked l = true) ∧ ((s.dev.lane l).scan = true) ∧ (16 * (3 * 10 ^ e) ≤ 1800000 * s.dev.laneRate l)) :=
  ⟨⟨wit [(F.DEV_STATE_STATE, 8)] (fun dv => ({ dv with cmd := some ⟨0x41, 0, 0, [(512 + 99), 0, 0, 0, 0, 0, 0, 0], 0⟩ } : Dev)), 99, by decide +kernel⟩,
  ⟨wit [(F.DEV_STATE_STATE, 4), (F.LANE_STAT_LOCK (99 / 8) (99 % 8), 1)] (fun dv => ({ dv with cmd := some ⟨0x42, 0, 0, [99, 1, 3, 0, 0, 0, 0, 0], 0⟩ }
    : Dev).setLane 99 { scan := true }), 99, 3, by decide +kernel⟩⟩

theorem wit_LaneTraining_1 :
  (∃ (s : State) (m : _), (s.dev.training m = true) ∧ (s.dev.get (F.LANE_TXTAP_PRE 12 m) ≤ 15) ∧ (s.dev.get (F.LANE_TXTAP_POST 12 m) ≤ 31)) ∧
  (∃ (s : State) (m : _) (t : _) (u : _), (s.dev.training m = true) ∧ ((s.dev.lane (96 + m)).holdAt = some t) ∧ (1000000 ≤ s.dev.elapsed t) ∧
    ((s.dev.lane (96 + m)).ownHold = some u) ∧ (1000000 ≤ s.dev.elapsed u)) ∧
  (∃ (s : State) (m : _) (t : Nat), (m < 4) ∧ ((s.dev.lane (96 + m)).trainAt = some t) ∧ (20000000 < s.dev.elapsed t)) ∧
  (∃ (s : State) (l : _) (v : _), (64 ≤ l) ∧ (l < 96) ∧ (s.dev.taken (lng (l / 8)) (0x8C + 0x20 * (l % 8))) ∧ (bitsAt v 0 4 + bitsAt v 8 6 + bitsAt v 16
    5 = 63) ∧ (bitsAt v 24 4 ≤ 12)) ∧
  (∃ (s : State) (l : _) (v : _), (64 ≤ l) ∧ (l < 96) ∧ (s.dev.taken (lng (l / 8)) (0x8C + 0x20 * (l % 8))) ∧ (bitsAt v 0 4 + bitsAt v 8 6 + bitsAt v 16
    5 ≠ 63) ∧ (s.dev.get (F.BLK_ERR_CODE_CODE (lng (l / 8))) = 0)) ∧
  (∃ (s : State) (l : _), (l < 100) ∧ (s.dev.taken (lng (l / 8)) (0x80 + 0x20 * (l % 8))) ∧ (s.dev.laneReleased l = true)) ∧
  (∃ (s : State) (l : _), (l < 100) ∧ (s.dev.taken (lng (l / 8)) (0x80 + 0x20 * (l % 8))) ∧ (s.dev.bit (F.LANE_CFG_TEST_EN (l / 8) (l % 8)) = true)) ∧
  (∃ (s : State) (l : _) (pat : _) (inv : Bool) (bits : List Bool), (l < 64 ∨ (96 ≤ l ∧ l < 100)) ∧ (s.dev.bit (F.LANE_CFG_TEST_EN (l / 8) (l % 8)) =
    true) ∧ (s.dev.bit (F.LANE_CFG_LOOP_NEAR (l / 8) (l % 8)) = false) ∧ (s.dev.bit (F.LANE_PRBS_CHK (l / 8) (l % 8)) = true) ∧ (s.dev.get
    (F.LANE_PRBS_PATTERN (l / 8) (l % 8)) = pat) ∧ (1 ≤ pat) ∧ (pat ≤ 5) ∧ (s.dev.bit (F.LANE_PRBS_INVERT (l / 8) (l % 8)) = inv) ∧ (s.dev.bit
    (F.LANE_PRBS_SYNC (l / 8) (l % 8)) = true) ∧ (s.dev.get (F.LANE_PRBS_ERR_ERRORS (l / 8) (l % 8)) + bits.length < 2 ^ 32)) ∧
  (∃ (s : State) (l : _) (pat : _) (inv : Bool) (b : Bool), (l < 64 ∨ (96 ≤ l ∧ l < 100)) ∧ (s.dev.bit (F.LANE_CFG_TEST_EN (l / 8) (l % 8)) = true) ∧
    (s.dev.bit (F.LANE_CFG_LOOP_NEAR (l / 8) (l % 8)) = false) ∧ (s.dev.bit (F.LANE_PRBS_CHK (l / 8) (l % 8)) = true) ∧ (s.dev.get
    (F.LANE_PRBS_PATTERN (l / 8) (l % 8)) = pat) ∧ (1 ≤ pat) ∧ (pat ≤ 5) ∧ (s.dev.bit (F.LANE_PRBS_INVERT (l / 8) (l % 8)) = inv) ∧ (s.dev.bit
    (F.LANE_PRBS_SYNC (l / 8) (l % 8)) = false) ∧ ((s.dev.lane l).prbsRun = 63) ∧ ((s.dev.lane l).hist.length = (prbsTaps pat).1) ∧ ((s.dev.lane
    l).hist.any id = true) ∧ ((b != inv) = prbsNext pat (s.dev.lane l).hist)) ∧
  (∃ (s : State) (l : _) (bits : List Bool) (pat : _), (64 ≤ l) ∧ (l < 96) ∧ (bits ≠ []) ∧ (s.dev.bit (F.LANE_CFG_TEST_EN (l / 8) (l % 8)) = true) ∧
    (s.dev.bit (F.LANE_PRBS_GEN (l / 8) (l % 8)) = true) ∧ (s.dev.get (F.LANE_PRBS_PATTERN (l / 8) (l % 8)) = pat) ∧ (1 ≤ pat) ∧ (pat ≤ 5) ∧
    ((s.dev.lane l).gen ≠ [])) :=
  ⟨⟨wit [(F.DEV_STATE_STATE, 2), (F.LANE_TXTAP_PRE 12 3, 15), (F.LANE_TXTAP_POST 12 3, 31)] (fun dv => dv.setLane (96 + 3) { trainAt := some 0 }), 3,
    by decide +kernel⟩,
  ⟨wit [(F.DEV_STATE_STATE, 2)] (fun dv => ({ dv with time := { c := 1000000 } } : Dev).setLane (96 + 3)
    { trainAt := some 0, holdAt := some 0, ownHold := some 0 }), 3, 0, 0, by decide +kernel⟩,
  ⟨wit [(F.DEV_STATE_STATE, 2)] (fun dv => ({ dv with time := { c := 1000000000000 } } : Dev).setLane (96 + 3) { trainAt := some 0 }), 3, 0,
    by decide +kernel⟩,
  ⟨wit [(F.DEV_STATE_STATE, 2)], 64, (12 * 2 ^ 24 + 1 * 2 ^ 16 + 60 * 2 ^ 8 + 2), by decide +kernel⟩,
  ⟨wit [(F.DEV_STATE_STATE, 2)], 95, (12 * 2 ^ 24 + 1 * 2 ^ 16 + 60 * 2 ^ 8 + 3), by decide +kernel⟩,
  ⟨wit [(F.DEV_STATE_STATE, 2), (F.TWIN_CTRL_LANE_WD, 8)], 99, by decide +kernel⟩,
  ⟨wit [(F.DEV_STATE_STATE, 2), (F.LANE_CFG_TEST_EN (99 / 8) (99 % 8), 1)], 99, by decide +kernel⟩,
  ⟨wit [(F.DEV_STATE_STATE, 2), (F.LANE_CFG_TEST_EN (99 / 8) (99 % 8), 1), (F.LANE_PRBS_CHK (99 / 8) (99 % 8), 1), (F.LANE_PRBS_PATTERN (99 / 8) (99 %
    8), 5), (F.LANE_PRBS_SYNC (99 / 8) (99 % 8), 1), (F.LANE_PRBS_INVERT (99 / 8) (99 % 8), 1), (F.LANE_PRBS_ERR_ERRORS (99 / 8) (99 % 8), (2 ^ 32 -
    4))] (fun dv => dv.setLane 99 { hist := List.replicate 31 true }), 99, 5, true, [false, true, false], by decide +kernel⟩,
  ⟨wit [(F.DEV_STATE_STATE, 2), (F.LANE_CFG_TEST_EN (99 / 8) (99 % 8), 1), (F.LANE_PRBS_CHK (99 / 8) (99 % 8), 1), (F.LANE_PRBS_PATTERN (99 / 8) (99 %
    8), 1), (F.LANE_PRBS_INVERT (99 / 8) (99 % 8), 1)] (fun dv => dv.setLane 99 { prbsRun := 63, hist := List.replicate 7 true }), 99, 1, true, true,
    by decide +kernel⟩,
  ⟨wit [(F.DEV_STATE_STATE, 2), (F.LANE_CFG_TEST_EN (95 / 8) (95 % 8), 1), (F.LANE_PRBS_GEN (95 / 8) (95 % 8), 1), (F.LANE_PRBS_PATTERN (95 / 8) (95 %
    8), 5), (F.LANE_PRBS_INVERT (95 / 8) (95 % 8), 1)] (fun dv => dv.setLane 95 { gen := List.replicate 31 true }), 95, [true, false, true], 5,
    by decide +kernel⟩⟩

theorem wit_LaneTraining_2 :
  (∃ (s : State) (l : _), (l < 100) ∧ (s.dev.taken (lng (l / 8)) (0x90 + 0x20 * (l % 8)))) ∧
  (∃ (s : State) (g : _), (g < 13) ∧ (s.dev.bit (F.LNG_PLL_STAT_PLL_LOCK g) = true)) :=
  ⟨⟨wit [(F.DEV_STATE_STATE, 2)], 99, by decide +kernel⟩,
  ⟨wit [(F.DEV_STATE_STATE, 2), (F.LNG_PLL_STAT_PLL_LOCK 12, 1)], 12, by decide +kernel⟩⟩

theorem wit_ScalarArithmetic_1 :
  (∃ (s : State) (e : Nat) (rd : Nat) (rs1 : Nat) (rs2 : Nat), (s.dev.runs e (isR 0x000 rd rs1 rs2))) ∧
  (∃ (s : State) (e : Nat) (rd : Nat) (rs1 : Nat) (rs2 : Nat), (s.dev.runs e (isR 0x001 rd rs1 rs2))) ∧
  (∃ (s : State) (e : Nat) (rd : Nat) (rs1 : Nat) (rs2 : Nat), (s.dev.runs e (isR 0x002 rd rs1 rs2))) ∧
  (∃ (s : State) (e : Nat) (rd : Nat) (rs1 : Nat) (rs2 : Nat), (s.dev.runs e (isR 0x003 rd rs1 rs2))) ∧
  (∃ (s : State) (e : Nat) (rd : Nat) (rs1 : Nat) (rs2 : Nat), (s.dev.runs e (isR 0x004 rd rs1 rs2))) ∧
  (∃ (s : State) (e : Nat) (rd : Nat) (rs1 : Nat) (rs2 : Nat), (s.dev.runs e (isR 0x005 rd rs1 rs2))) ∧
  (∃ (s : State) (e : Nat) (rd : Nat) (rs1 : Nat) (rs2 : Nat), (s.dev.runs e (isR 0x006 rd rs1 rs2))) ∧
  (∃ (s : State) (e : Nat) (rd : Nat) (rs1 : Nat) (rs2 : Nat), (s.dev.runs e (isR 0x007 rd rs1 rs2))) ∧
  (∃ (s : State) (e : Nat) (rd : Nat) (rs1 : Nat) (rs2 : Nat), (s.dev.runs e (isR 0x008 rd rs1 rs2))) ∧
  (∃ (s : State) (e : Nat) (rd : Nat) (rs1 : Nat) (rs2 : Nat), (s.dev.runs e (isR 0x009 rd rs1 rs2))) :=
  ⟨⟨wit [(F.DEV_STATE_STATE, 2)] (fun dv => dv.setEng 63 (keng 78002176 regsX)), 63, 5, 6, 7, runs_of (by decide +kernel)⟩,
  ⟨wit [(F.DEV_STATE_STATE, 2)] (fun dv => dv.setEng 63 (keng 78002177 regsX)), 63, 5, 6, 7, runs_of (by decide +kernel)⟩,
  ⟨wit [(F.DEV_STATE_STATE, 2)] (fun dv => dv.setEng 63 (keng 78002178 regsX)), 63, 5, 6, 7, runs_of (by decide +kernel)⟩,
  ⟨wit [(F.DEV_STATE_STATE, 2)] (fun dv => dv.setEng 63 (keng 78002179 regsX)), 63, 5, 6, 7, runs_of (by decide +kernel)⟩,
  ⟨wit [(F.DEV_STATE_STATE, 2)] (fun dv => dv.setEng 63 (keng 78002180 regsX)), 63, 5, 6, 7, runs_of (by decide +kernel)⟩,
  ⟨wit [(F.DEV_STATE_STATE, 2)] (fun dv => dv.setEng 63 (keng 78002181 regsX)), 63, 5, 6, 7, runs_of (by decide +kernel)⟩,
  ⟨wit [(F.DEV_STATE_STATE, 2)] (fun dv => dv.setEng 63 (keng 78002182 regsX)), 63, 5, 6, 7, runs_of (by decide +kernel)⟩,
  ⟨wit [(F.DEV_STATE_STATE, 2)] (fun dv => dv.setEng 63 (keng 78002183 regsX)), 63, 5, 6, 7, runs_of (by decide +kernel)⟩,
  ⟨wit [(F.DEV_STATE_STATE, 2)] (fun dv => dv.setEng 63 (keng 78002184 regsX)), 63, 5, 6, 7, runs_of (by decide +kernel)⟩,
  ⟨wit [(F.DEV_STATE_STATE, 2)] (fun dv => dv.setEng 63 (keng 78002185 regsX)), 63, 5, 6, 7, runs_of (by decide +kernel)⟩⟩

theorem wit_ScalarArithmetic_2 :
  (∃ (s : State) (e : Nat) (rd : Nat) (rs1 : Nat) (rs2 : Nat), (s.dev.runs e (isR 0x00A rd rs1 rs2))) ∧
  (∃ (s : State) (e : Nat) (rd : Nat) (rs1 : Nat) (rs2 : Nat), (s.dev.runs e (isR 0x00B rd rs1 rs2))) ∧
  (∃ (s : State) (e : Nat) (rd : Nat) (rs1 : Nat) (rs2 : Nat), (s.dev.runs e (isR 0x00C rd rs1 rs2))) ∧
  (∃ (s : State) (e : Nat) (rd : Nat) (rs1 : Nat) (rs2 : Nat), (s.dev.runs e (isR 0x00D rd rs1 rs2))) ∧
  (∃ (s : State) (e : Nat) (rd : Nat) (rs1 : Nat) (rs2 : Nat), (s.dev.runs e (isR 0x00E rd rs1 rs2))) ∧
  (∃ (s : State) (e : Nat) (rd : Nat) (rs1 : Nat) (rs2 : Nat), (s.dev.runs e (isR 0x00F rd rs1 rs2))) ∧
  (∃ (s : State) (e : Nat) (rd : Nat) (rs1 : Nat) (rs2 : Nat), (s.dev.runs e (isR 0x010 rd rs1 rs2))) ∧
  (∃ (s : State) (e : Nat) (rd : Nat) (rs1 : Nat) (rs2 : Nat), (s.dev.runs e (isR 0x011 rd rs1 rs2))) ∧
  (∃ (s : State) (e : Nat) (rd : Nat) (rs1 : Nat) (rs2 : Nat), (s.dev.runs e (isR 0x012 rd rs1 rs2))) ∧
  (∃ (s : State) (e : Nat) (rd : Nat) (rs1 : Nat) (rs2 : Nat), (s.dev.runs e (isR 0x013 rd rs1 rs2))) :=
  ⟨⟨wit [(F.DEV_STATE_STATE, 2)] (fun dv => dv.setEng 63 (keng 78002186 regsX)), 63, 5, 6, 7, runs_of (by decide +kernel)⟩,
  ⟨wit [(F.DEV_STATE_STATE, 2)] (fun dv => dv.setEng 63 (keng 78002187 regsX)), 63, 5, 6, 7, runs_of (by decide +kernel)⟩,
  ⟨wit [(F.DEV_STATE_STATE, 2)] (fun dv => dv.setEng 63 (keng 78002188 regsX)), 63, 5, 6, 7, runs_of (by decide +kernel)⟩,
  ⟨wit [(F.DEV_STATE_STATE, 2)] (fun dv => dv.setEng 63 (keng 78002189 regsX)), 63, 5, 6, 7, runs_of (by decide +kernel)⟩,
  ⟨wit [(F.DEV_STATE_STATE, 2)] (fun dv => dv.setEng 63 (keng 78002190 regsX)), 63, 5, 6, 7, runs_of (by decide +kernel)⟩,
  ⟨wit [(F.DEV_STATE_STATE, 2)] (fun dv => dv.setEng 63 (keng 78002191 regsX)), 63, 5, 6, 7, runs_of (by decide +kernel)⟩,
  ⟨wit [(F.DEV_STATE_STATE, 2)] (fun dv => dv.setEng 63 (keng 78002192 regsX)), 63, 5, 6, 7, runs_of (by decide +kernel)⟩,
  ⟨wit [(F.DEV_STATE_STATE, 2)] (fun dv => dv.setEng 63 (keng 78002193 regsX)), 63, 5, 6, 7, runs_of (by decide +kernel)⟩,
  ⟨wit [(F.DEV_STATE_STATE, 2)] (fun dv => dv.setEng 63 (keng 78002194 regsX)), 63, 5, 6, 7, runs_of (by decide +kernel)⟩,
  ⟨wit [(F.DEV_STATE_STATE, 2)] (fun dv => dv.setEng 63 (keng 78002195 regsX)), 63, 5, 6, 7, runs_of (by decide +kernel)⟩⟩

theorem wit_ScalarArithmetic_3 :
  (∃ (s : State) (e : Nat) (rd : Nat) (rs1 : Nat) (rs2 : Nat), (s.dev.runs e (isR 0x014 rd rs1 rs2))) ∧
  (∃ (s : State) (e : Nat) (rd : Nat) (rs1 : Nat), (s.dev.runs e (isR 0x015 rd rs1 0))) ∧
  (∃ (s : State) (e : Nat) (rd : Nat) (rs1 : Nat), (s.dev.runs e (isR 0x016 rd rs1 0))) :=
  ⟨⟨wit [(F.DEV_STATE_STATE, 2)] (fun dv => dv.setEng 63 (keng 78002196 regsX)), 63, 5, 6, 7, runs_of (by decide +kernel)⟩,
  ⟨wit [(F.DEV_STATE_STATE, 2)] (fun dv => dv.setEng 63 (keng 77987861 regsX)), 63, 5, 6, runs_of (by decide +kernel)⟩,
  ⟨wit [(F.DEV_STATE_STATE, 2)] (fun dv => dv.setEng 63 (keng 77987862 regsX)), 63, 5, 6, runs_of (by decide +kernel)⟩⟩

theorem wit_ScalarImmediates_1 :
  (∃ (s : State) (e : Nat) (rd : Nat) (rs1 : Nat) (imm : Nat), (imm < 65536) ∧ (s.dev.runs e (isI 0x02 rd rs1 imm))) ∧
  (∃ (s : State) (e : Nat) (rd : Nat) (rs1 : Nat) (imm : Nat), (imm < 65536) ∧ (s.dev.runs e (isI 0x03 rd rs1 imm))) ∧
  (∃ (s : State) (e : Nat) (rd : Nat) (rs1 : Nat) (imm : Nat), (imm < 65536) ∧ (s.dev.runs e (isI 0x04 rd rs1 imm))) ∧
  (∃ (s : State) (e : Nat) (rd : Nat) (rs1 : Nat) (imm : Nat), (imm < 65536) ∧ (s.dev.runs e (isI 0x05 rd rs1 imm))) ∧
  (∃ (s : State) (e : Nat) (rd : Nat) (rs1 : Nat) (imm : Nat), (imm < 65536) ∧ (s.dev.runs e (isI 0x06 rd rs1 imm))) ∧
  (∃ (s : State) (e : Nat) (rd : Nat) (rs1 : Nat) (imm : Nat), (imm < 65536) ∧ (s.dev.runs e (isI 0x07 rd rs1 imm))) ∧
  (∃ (s : State) (e : Nat) (rd : Nat) (rs1 : Nat) (imm : Nat), (imm < 65536) ∧ (s.dev.runs e (isI 0x09 rd rs1 imm))) ∧
  (∃ (s : State) (e : Nat) (rd : Nat) (rs1 : Nat) (imm : Nat), (imm < 65536) ∧ (imm < 64) ∧ (s.dev.runs e (isI 0x08 rd rs1 imm))) ∧
  (∃ (s : State) (e : Nat) (rd : Nat) (rs1 : Nat) (imm : Nat) (amt : _), (imm < 65536) ∧ (amt < 64) ∧ (imm = 64 + amt) ∧ (s.dev.runs e (isI 0x08 rd rs1
    imm))) ∧
  (∃ (s : State) (e : Nat) (rd : Nat) (rs1 : Nat) (imm : Nat) (amt : _), (imm < 65536) ∧ (amt < 64) ∧ (imm = 128 + amt) ∧ (s.dev.runs e (isI 0x08 rd rs1
    imm))) :=
  ⟨⟨wit [(F.DEV_STATE_STATE, 2)] (fun dv => dv.setEng 63 (keng 145162239 regsX)), 63, 5, 6, 65535, by decide +kernel, runs_of (by decide +kernel)⟩,
  ⟨wit [(F.DEV_STATE_STATE, 2)] (fun dv => dv.setEng 63 (keng 212271103 regsX)), 63, 5, 6, 65535, by decide +kernel, runs_of (by decide +kernel)⟩,
  ⟨wit [(F.DEV_STATE_STATE, 2)] (fun dv => dv.setEng 63 (keng 279379967 regsX)), 63, 5, 6, 65535, by decide +kernel, runs_of (by decide +kernel)⟩,
  ⟨wit [(F.DEV_STATE_STATE, 2)] (fun dv => dv.setEng 63 (keng 346488831 regsX)), 63, 5, 6, 65535, by decide +kernel, runs_of (by decide +kernel)⟩,
  ⟨wit [(F.DEV_STATE_STATE, 2)] (fun dv => dv.setEng 63 (keng 413597695 regsX)), 63, 5, 6, 65535, by decide +kernel, runs_of (by decide +kernel)⟩,
  ⟨wit [(F.DEV_STATE_STATE, 2)] (fun dv => dv.setEng 63 (keng 480706559 regsX)), 63, 5, 6, 65535, by decide +kernel, runs_of (by decide +kernel)⟩,
  ⟨wit [(F.DEV_STATE_STATE, 2)] (fun dv => dv.setEng 63 (keng 614924287 regsX)), 63, 5, 6, 65535, by decide +kernel, runs_of (by decide +kernel)⟩,
  ⟨wit [(F.DEV_STATE_STATE, 2)] (fun dv => dv.setEng 63 (keng 547749951 regsX)), 63, 5, 6, 63, by decide +kernel, by decide +kernel, runs_of
    (by decide +kernel)⟩,
  ⟨wit [(F.DEV_STATE_STATE, 2)] (fun dv => dv.setEng 63 (keng 547750015 regsX)), 63, 5, 6, 127, 63, by decide +kernel, by decide +kernel,
    by decide +kernel, runs_of (by decide +kernel)⟩,
  ⟨wit [(F.DEV_STATE_STATE, 2)] (fun dv => dv.setEng 63 (keng 547750079 regsX)), 63, 5, 6, 191, 63, by decide +kernel, by decide +kernel,
    by decide +kernel, runs_of (by decide +kernel)⟩⟩

theorem wit_ScalarImmediates_2 :
  (∃ (s : State) (e : Nat) (rd : Nat) (rs1 : Nat) (imm : Nat), (imm < 65536) ∧ (192 ≤ imm) ∧ (s.dev.runs e (isI 0x08 rd rs1 imm))) :=
  ⟨wit [(F.DEV_STATE_STATE, 2)] (fun dv => dv.setEng 63 (keng 547750080 regsX)), 63, 5, 6, 192, by decide +kernel, by decide +kernel, runs_of
    (by decide +kernel)⟩

theorem wit_LoadsAndStores_1 :
  (∃ (s : State) (e : Nat) (r : Nat) (rs1 : Nat) (imm : Nat), (imm < 65536) ∧ (s.dev.runs e (isI 0x0A r rs1 imm)) ∧ ((s.dev.eng e).readable
    ((BitVec.ofNat 64 ((s.dev.eng e).sReg rs1) + (BitVec.ofNat 16 imm).signExtend 64).toNat) = true) ∧ ((s.dev.eng e).xfers = [])) ∧
  (∃ (s : State) (e : Nat) (r : Nat) (rs1 : Nat) (imm : Nat), (imm < 65536) ∧ (s.dev.runs e (isI 0x0C r rs1 imm)) ∧ (∀ k, k < 2 → (s.dev.eng e).readable
    (((BitVec.ofNat 64 ((s.dev.eng e).sReg rs1) + (BitVec.ofNat 16 imm).signExtend 64).toNat) + k) = true) ∧ ((s.dev.eng e).xfers = []) ∧
    (((BitVec.ofNat 64 ((s.dev.eng e).sReg rs1) + (BitVec.ofNat 16 imm).signExtend 64).toNat) % 2 = 0)) ∧
  (∃ (s : State) (e : Nat) (r : Nat) (rs1 : Nat) (imm : Nat), (imm < 65536) ∧ (s.dev.runs e (isI 0x0E r rs1 imm)) ∧ (∀ k, k < 4 → (s.dev.eng e).readable
    (((BitVec.ofNat 64 ((s.dev.eng e).sReg rs1) + (BitVec.ofNat 16 imm).signExtend 64).toNat) + k) = true) ∧ ((s.dev.eng e).xfers = []) ∧
    (((BitVec.ofNat 64 ((s.dev.eng e).sReg rs1) + (BitVec.ofNat 16 imm).signExtend 64).toNat) % 4 = 0)) ∧
  (∃ (s : State) (e : Nat) (r : Nat) (rs1 : Nat) (imm : Nat), (imm < 65536) ∧ (s.dev.runs e (isI 0x0B r rs1 imm)) ∧ ((s.dev.eng e).readable
    ((BitVec.ofNat 64 ((s.dev.eng e).sReg rs1) + (BitVec.ofNat 16 imm).signExtend 64).toNat) = true) ∧ ((s.dev.eng e).xfers = [])) ∧
  (∃ (s : State) (e : Nat) (r : Nat) (rs1 : Nat) (imm : Nat), (imm < 65536) ∧ (s.dev.runs e (isI 0x0D r rs1 imm)) ∧ (∀ k, k < 2 → (s.dev.eng e).readable
    (((BitVec.ofNat 64 ((s.dev.eng e).sReg rs1) + (BitVec.ofNat 16 imm).signExtend 64).toNat) + k) = true) ∧ ((s.dev.eng e).xfers = []) ∧
    (((BitVec.ofNat 64 ((s.dev.eng e).sReg rs1) + (BitVec.ofNat 16 imm).signExtend 64).toNat) % 2 = 0)) ∧
  (∃ (s : State) (e : Nat) (r : Nat) (rs1 : Nat) (imm : Nat), (imm < 65536) ∧ (s.dev.runs e (isI 0x0F r rs1 imm)) ∧ (∀ k, k < 4 → (s.dev.eng e).readable
    (((BitVec.ofNat 64 ((s.dev.eng e).sReg rs1) + (BitVec.ofNat 16 imm).signExtend 64).toNat) + k) = true) ∧ ((s.dev.eng e).xfers = []) ∧
    (((BitVec.ofNat 64 ((s.dev.eng e).sReg rs1) + (BitVec.ofNat 16 imm).signExtend 64).toNat) % 4 = 0)) ∧
  (∃ (s : State) (e : Nat) (r : Nat) (rs1 : Nat) (imm : Nat), (imm < 65536) ∧ (s.dev.runs e (isI 0x10 r rs1 imm)) ∧ (∀ k, k < 8 → (s.dev.eng e).readable
    (((BitVec.ofNat 64 ((s.dev.eng e).sReg rs1) + (BitVec.ofNat 16 imm).signExtend 64).toNat) + k) = true) ∧ ((s.dev.eng e).xfers = []) ∧
    (((BitVec.ofNat 64 ((s.dev.eng e).sReg rs1) + (BitVec.ofNat 16 imm).signExtend 64).toNat) % 8 = 0)) ∧
  (∃ (s : State) (e : Nat) (r : Nat) (rs1 : Nat) (imm : Nat), (imm < 65536) ∧ (s.dev.runs e (isI 0x11 r rs1 imm)) ∧ ((s.dev.eng e).writable
    ((BitVec.ofNat 64 ((s.dev.eng e).sReg rs1) + (BitVec.ofNat 16 imm).signExtend 64).toNat) = true) ∧ ((s.dev.eng e).xfers = [])) ∧
  (∃ (s : State) (e : Nat) (r : Nat) (rs1 : Nat) (imm : Nat), (imm < 65536) ∧ (s.dev.runs e (isI 0x12 r rs1 imm)) ∧ (∀ k, k < 2 → (s.dev.eng e).writable
    (((BitVec.ofNat 64 ((s.dev.eng e).sReg rs1) + (BitVec.ofNat 16 imm).signExtend 64).toNat) + k) = true) ∧ ((s.dev.eng e).xfers = []) ∧
    (((BitVec.ofNat 64 ((s.dev.eng e).sReg rs1) + (BitVec.ofNat 16 imm).signExtend 64).toNat) % 2 = 0)) ∧
  (∃ (s : State) (e : Nat) (r : Nat) (rs1 : Nat) (imm : Nat), (imm < 65536) ∧ (s.dev.runs e (isI 0x13 r rs1 imm)) ∧ (∀ k, k < 4 → (s.dev.eng e).writable
    (((BitVec.ofNat 64 ((s.dev.eng e).sReg rs1) + (BitVec.ofNat 16 imm).signExtend 64).toNat) + k) = true) ∧ ((s.dev.eng e).xfers = []) ∧
    (((BitVec.ofNat 64 ((s.dev.eng e).sReg rs1) + (BitVec.ofNat 16 imm).signExtend 64).toNat) % 4 = 0)) :=
  ⟨⟨wit [(F.DEV_STATE_STATE, 2)] (fun dv => dv.setEng 63 (keng 682033151
    { s := [(5, 0x8899AABBCCDDEEFF), (6, 0x50011)], p := [(1, 0x5555_FFFF_0000_1234), (2, 0x0F0F), (3, 0x00FF)], v := regsX.v, mem := [(0x50010, 0x80), (0x50011, 0xFF), (0x50017, 0x81)] })),
    63, 5, 6, 65535, by decide +kernel, runs_of (by decide +kernel), by decide +kernel⟩,
  ⟨wit [(F.DEV_STATE_STATE, 2)] (fun dv => dv.setEng 63 (keng 816250879
    { s := [(5, 0x8899AABBCCDDEEFF), (6, 0x50011)], p := [(1, 0x5555_FFFF_0000_1234), (2, 0x0F0F), (3, 0x00FF)], v := regsX.v, mem := [(0x50010, 0x80), (0x50011, 0xFF), (0x50017, 0x81)] })),
    63, 5, 6, 65535, by decide +kernel, runs_of (by decide +kernel), by decide +kernel⟩,
  ⟨wit [(F.DEV_STATE_STATE, 2)] (fun dv => dv.setEng 63 (keng 950468607
    { s := [(5, 0x8899AABBCCDDEEFF), (6, 0x50011)], p := [(1, 0x5555_FFFF_0000_1234), (2, 0x0F0F), (3, 0x00FF)], v := regsX.v, mem := [(0x50010, 0x80), (0x50011, 0xFF), (0x50017, 0x81)] })),
    63, 5, 6, 65535, by decide +kernel, runs_of (by decide +kernel), by decide +kernel⟩,
  ⟨wit [(F.DEV_STATE_STATE, 2)] (fun dv => dv.setEng 63 (keng 749142015
    { s := [(5, 0x8899AABBCCDDEEFF), (6, 0x50011)], p := [(1, 0x5555_FFFF_0000_1234), (2, 0x0F0F), (3, 0x00FF)], v := regsX.v, mem := [(0x50010, 0x80), (0x50011, 0xFF), (0x50017, 0x81)] })),
    63, 5, 6, 65535, by decide +kernel, runs_of (by decide +kernel), by decide +kernel⟩,
  ⟨wit [(F.DEV_STATE_STATE, 2)] (fun dv => dv.setEng 63 (keng 883359743
    { s := [(5, 0x8899AABBCCDDEEFF), (6, 0x50011)], p := [(1, 0x5555_FFFF_0000_1234), (2, 0x0F0F), (3, 0x00FF)], v := regsX.v, mem := [(0x50010, 0x80), (0x50011, 0xFF), (0x50017, 0x81)] })),
    63, 5, 6, 65535, by decide +kernel, runs_of (by decide +kernel), by decide +kernel⟩,
  ⟨wit [(F.DEV_STATE_STATE, 2)] (fun dv => dv.setEng 63 (keng 1017577471
    { s := [(5, 0x8899AABBCCDDEEFF), (6, 0x50011)], p := [(1, 0x5555_FFFF_0000_1234), (2, 0x0F0F), (3, 0x00FF)], v := regsX.v, mem := [(0x50010, 0x80), (0x50011, 0xFF), (0x50017, 0x81)] })),
    63, 5, 6, 65535, by decide +kernel, runs_of (by decide +kernel), by decide +kernel⟩,
  ⟨wit [(F.DEV_STATE_STATE, 2)] (fun dv => dv.setEng 63 (keng 1084686335
    { s := [(5, 0x8899AABBCCDDEEFF), (6, 0x50011)], p := [(1, 0x5555_FFFF_0000_1234), (2, 0x0F0F), (3, 0x00FF)], v := regsX.v, mem := [(0x50010, 0x80), (0x50011, 0xFF), (0x50017, 0x81)] })),
    63, 5, 6, 65535, by decide +kernel, runs_of (by decide +kernel), by decide +kernel⟩,
  ⟨wit [(F.DEV_STATE_STATE, 2)] (fun dv => dv.setEng 63 (keng 1151795199
    { s := [(5, 0x8899AABBCCDDEEFF), (6, 0x50011)], p := [(1, 0x5555_FFFF_0000_1234), (2, 0x0F0F), (3, 0x00FF)], v := regsX.v, mem := [(0x50010, 0x80), (0x50011, 0xFF), (0x50017, 0x81)] })),
    63, 5, 6, 65535, by decide +kernel, runs_of (by decide +kernel), by decide +kernel⟩,
  ⟨wit [(F.DEV_STATE_STATE, 2)] (fun dv => dv.setEng 63 (keng 1218904063
    { s := [(5, 0x8899AABBCCDDEEFF), (6, 0x50011)], p := [(1, 0x5555_FFFF_0000_1234), (2, 0x0F0F), (3, 0x00FF)], v := regsX.v, mem := [(0x50010, 0x80), (0x50011, 0xFF), (0x50017, 0x81)] })),
    63, 5, 6, 65535, by decide +kernel, runs_of (by decide +kernel), by decide +kernel⟩,
  ⟨wit [(F.DEV_STATE_STATE, 2)] (fun dv => dv.setEng 63 (keng 1286012927
    { s := [(5, 0x8899AABBCCDDEEFF), (6, 0x50011)], p := [(1, 0x5555_FFFF_0000_1234), (2, 0x0F0F), (3, 0x00FF)], v := regsX.v, mem := [(0x50010, 0x80), (0x50011, 0xFF), (0x50017, 0x81)] })),
    63, 5, 6, 65535, by decide +kernel, runs_of (by decide +kernel), by decide +kernel⟩⟩

theorem wit_LoadsAndStores_2 :
  (∃ (s : State) (e : Nat) (r : Nat) (rs1 : Nat) (imm : Nat), (imm < 65536) ∧ (s.dev.runs e (isI 0x14 r rs1 imm)) ∧ (∀ k, k < 8 → (s.dev.eng e).writable
    (((BitVec.ofNat 64 ((s.dev.eng e).sReg rs1) + (BitVec.ofNat 16 imm).signExtend 64).toNat) + k) = true) ∧ ((s.dev.eng e).xfers = []) ∧
    (((BitVec.ofNat 64 ((s.dev.eng e).sReg rs1) + (BitVec.ofNat 16 imm).signExtend 64).toNat) % 8 = 0)) ∧
  (∃ (s : State) (e : Nat) (r : Nat) (rs1 : Nat) (imm : Nat) (op : Nat) (n : Nat) (i : Instr), (imm < 65536) ∧ ((op, n, i) ∈ [(0x0C, 2, Instr.ld16 e r
    rs1 imm), (0x0D, 2, .ld16u e r rs1 imm), (0x0E, 4, .ld32 e r rs1 imm), (0x0F, 4, .ld32u e r rs1 imm), (0x10, 8, .ld64 e r rs1 imm), (0x12, 2,
    .st16 e r rs1 imm), (0x13, 4, .st32 e r rs1 imm), (0x14, 8, .st64 e r rs1 imm)]) ∧ (s.dev.runs e (isI op r rs1 imm)) ∧ (((BitVec.ofNat 64
    ((s.dev.eng e).sReg rs1) + (BitVec.ofNat 16 imm).signExtend 64).toNat) % n ≠ 0)) ∧
  (∃ (s : State) (e : Nat) (r : Nat) (rs1 : Nat) (imm : Nat), (imm < 65536) ∧ (s.dev.runs e (isI 0x0A r rs1 imm)) ∧ ((s.dev.eng e).readable
    ((BitVec.ofNat 64 ((s.dev.eng e).sReg rs1) + (BitVec.ofNat 16 imm).signExtend 64).toNat) = false)) ∧
  (∃ (s : State) (e : Nat) (r : Nat) (rs1 : Nat) (imm : Nat), (imm < 65536) ∧ (s.dev.runs e (isI 0x11 r rs1 imm)) ∧ ((s.dev.eng e).writable
    ((BitVec.ofNat 64 ((s.dev.eng e).sReg rs1) + (BitVec.ofNat 16 imm).signExtend 64).toNat) = false)) :=
  ⟨⟨wit [(F.DEV_STATE_STATE, 2)] (fun dv => dv.setEng 63 (keng 1353121791
    { s := [(5, 0x8899AABBCCDDEEFF), (6, 0x50011)], p := [(1, 0x5555_FFFF_0000_1234), (2, 0x0F0F), (3, 0x00FF)], v := regsX.v, mem := [(0x50010, 0x80), (0x50011, 0xFF), (0x50017, 0x81)] })),
    63, 5, 6, 65535, by decide +kernel, runs_of (by decide +kernel), by decide +kernel⟩,
  ⟨wit [(F.DEV_STATE_STATE, 2)] (fun dv => dv.setEng 63 (keng 816250879
    { s := [(6, 0x50012)], p := [(1, 0x5555_FFFF_0000_1234), (2, 0x0F0F), (3, 0x00FF)], v := regsX.v })), 63, 5, 6, 65535, _, _, _, by decide +kernel,
    List.Mem.head _, runs_of (by decide +kernel), by decide +kernel⟩,
  ⟨wit [(F.DEV_STATE_STATE, 2)] (fun dv => dv.setEng 63 (keng 682033151
    { s := [(6, 0x80001)], p := [(1, 0x5555_FFFF_0000_1234), (2, 0x0F0F), (3, 0x00FF)], v := regsX.v })), 63, 5, 6, 65535, by decide +kernel, runs_of
    (by decide +kernel), by decide +kernel⟩,
  ⟨wit [(F.DEV_STATE_STATE, 2)] (fun dv => dv.setEng 63 (keng 1151795199
    { s := [(6, 0x50000)], p := [(1, 0x5555_FFFF_0000_1234), (2, 0x0F0F), (3, 0x00FF)], v := regsX.v })), 63, 5, 6, 65535, by decide +kernel, runs_of
    (by decide +kernel), by decide +kernel⟩⟩

theorem wit_Branches :
  (∃ (s : State) (e : Nat) (r : Nat) (rs : Nat) (off : _), (off < 65536) ∧ (s.dev.runs e (isI 0x18 r rs off))) ∧
  (∃ (s : State) (e : Nat) (r : Nat) (rs : Nat) (off : _), (off < 65536) ∧ (s.dev.runs e (isI 0x19 r rs off))) ∧
  (∃ (s : State) (e : Nat) (r : Nat) (rs : Nat) (off : _), (off < 65536) ∧ (s.dev.runs e (isI 0x1A r rs off))) ∧
  (∃ (s : State) (e : Nat) (r : Nat) (rs : Nat) (off : _), (off < 65536) ∧ (s.dev.runs e (isI 0x1B r rs off))) ∧
  (∃ (s : State) (e : Nat) (r : Nat) (rs : Nat) (off : _), (off < 65536) ∧ (s.dev.runs e (isI 0x1C r rs off))) ∧
  (∃ (s : State) (e : Nat) (r : Nat) (rs : Nat) (off : _), (off < 65536) ∧ (s.dev.runs e (isI 0x1D r rs off))) ∧
  (∃ (s : State) (e : Nat) (r : Nat) (off : _), (off < 2 ^ 21) ∧ (s.dev.runs e (isJ r off))) ∧
  (∃ (s : State) (e : Nat) (r : Nat) (rs : Nat) (imm : _), (imm < 65536) ∧ (s.dev.runs e (isI 0x1F r rs imm)) ∧ ((s.dev.eng e).sReg rs % 4 = 0)) ∧
  (∃ (s : State) (e : Nat) (r : Nat) (rs : Nat) (imm : _), (imm < 65536) ∧ (s.dev.runs e (isI 0x1F r rs imm)) ∧ ((s.dev.eng e).sReg rs % 4 ≠ 0)) :=
  ⟨⟨wit [(F.DEV_STATE_STATE, 2)] (fun dv => dv.setEng 63 (keng 1621622768 regsX)), 63, 5, 7, 0xFFF0, by decide +kernel, runs_of (by decide +kernel)⟩,
  ⟨wit [(F.DEV_STATE_STATE, 2)] (fun dv => dv.setEng 63 (keng 1688731647 regsX)), 63, 5, 7, 65535, by decide +kernel, runs_of (by decide +kernel)⟩,
  ⟨wit [(F.DEV_STATE_STATE, 2)] (fun dv => dv.setEng 63 (keng 1755840511 regsX)), 63, 5, 7, 65535, by decide +kernel, runs_of (by decide +kernel)⟩,
  ⟨wit [(F.DEV_STATE_STATE, 2)] (fun dv => dv.setEng 63 (keng 1822949375 regsX)), 63, 5, 7, 65535, by decide +kernel, runs_of (by decide +kernel)⟩,
  ⟨wit [(F.DEV_STATE_STATE, 2)] (fun dv => dv.setEng 63 (keng 1890058239 regsX)), 63, 5, 7, 65535, by decide +kernel, runs_of (by decide +kernel)⟩,
  ⟨wit [(F.DEV_STATE_STATE, 2)] (fun dv => dv.setEng 63 (keng 1957167103 regsX)), 63, 5, 7, 65535, by decide +kernel, runs_of (by decide +kernel)⟩,
  ⟨wit [(F.DEV_STATE_STATE, 2)] (fun dv => dv.setEng 63 (keng 2025848831 regsX)), 63, 5, 0x1FFFFF, by decide +kernel, runs_of (by decide +kernel)⟩,
  ⟨wit [(F.DEV_STATE_STATE, 2)] (fun dv => dv.setEng 63 (keng 2091384831
    { s := [(5, 3), (7, 0x10)], p := [(1, 0x5555_FFFF_0000_1234), (2, 0x0F0F), (3, 0x00FF)], v := regsX.v })), 63, 5, 7, 65535, by decide +kernel,
    runs_of (by decide +kernel), by decide +kernel⟩,
  ⟨wit [(F.DEV_STATE_STATE, 2)] (fun dv => dv.setEng 63 (keng 2091384831
    { s := [(5, 3), (7, 0x12)], p := [(1, 0x5555_FFFF_0000_1234), (2, 0x0F0F), (3, 0x00FF)], v := regsX.v })), 63, 5, 7, 65535, by decide +kernel,
    runs_of (by decide +kernel), by decide +kernel⟩⟩

theorem wit_VectorInteger_1 :
  (∃ (s : State) (e : Nat) (vd : Nat) (vs1 : Nat) (vs2 : Nat) (pr : Nat) (func : Nat) (i : Instr), ((func, i) ∈ [(0x00, Instr.vadd e vd vs1 vs2 pr 3),
    (0x03, .vmulh e vd vs1 vs2 pr 3), (0x10, .vcmpeq e vd vs1 vs2 pr 3), (0x14, .vsel e vd vs1 vs2 pr 3), (0x18, .vdot e vd vs1 vs2 pr 3)]) ∧
    (s.dev.runs e (isV 0x20 func vd vs1 vs2 pr 3))) ∧
  (∃ (s : State) (e : Nat) (vd : Nat) (vs1 : Nat) (vs2 : Nat) (pr : Nat) (typ : Nat), (typ < 3) ∧ (s.dev.runs e (isV 0x20 0x00 vd vs1 vs2 pr typ))) ∧
  (∃ (s : State) (e : Nat) (vd : Nat) (vs1 : Nat) (vs2 : Nat) (pr : Nat) (typ : Nat), (typ < 3) ∧ (s.dev.runs e (isV 0x20 0x01 vd vs1 vs2 pr typ))) ∧
  (∃ (s : State) (e : Nat) (vd : Nat) (vs1 : Nat) (vs2 : Nat) (pr : Nat) (typ : Nat), (typ < 3) ∧ (s.dev.runs e (isV 0x20 0x02 vd vs1 vs2 pr typ))) ∧
  (∃ (s : State) (e : Nat) (vd : Nat) (vs1 : Nat) (vs2 : Nat) (pr : Nat) (typ : Nat), (typ < 3) ∧ (s.dev.runs e (isV 0x20 0x03 vd vs1 vs2 pr typ))) ∧
  (∃ (s : State) (e : Nat) (vd : Nat) (vs1 : Nat) (vs2 : Nat) (pr : Nat) (typ : Nat), (typ < 3) ∧ (s.dev.runs e (isV 0x20 0x04 vd vs1 vs2 pr typ))) ∧
  (∃ (s : State) (e : Nat) (vd : Nat) (vs1 : Nat) (vs2 : Nat) (pr : Nat) (typ : Nat), (typ < 3) ∧ (s.dev.runs e (isV 0x20 0x05 vd vs1 vs2 pr typ))) ∧
  (∃ (s : State) (e : Nat) (vd : Nat) (vs1 : Nat) (vs2 : Nat) (pr : Nat) (typ : Nat), (typ < 3) ∧ (s.dev.runs e (isV 0x20 0x06 vd vs1 vs2 pr typ))) ∧
  (∃ (s : State) (e : Nat) (vd : Nat) (vs1 : Nat) (vs2 : Nat) (pr : Nat) (typ : Nat), (typ < 3) ∧ (s.dev.runs e (isV 0x20 0x07 vd vs1 vs2 pr typ))) ∧
  (∃ (s : State) (e : Nat) (vd : Nat) (vs1 : Nat) (vs2 : Nat) (pr : Nat) (typ : Nat), (typ < 3) ∧ (s.dev.runs e (isV 0x20 0x08 vd vs1 vs2 pr typ))) :=
  ⟨⟨wit [(F.DEV_STATE_STATE, 2)] (fun dv => dv.setEng 63 (keng 2154385856 regsX)), 63, 3, 9, 10, 1, _, _, List.Mem.head _, runs_of (by decide +kernel)⟩,
  ⟨wit [(F.DEV_STATE_STATE, 2)] (fun dv => dv.setEng 63 (keng 2154385792 regsX)), 63, 3, 9, 10, 1, 2, by decide +kernel, runs_of (by decide +kernel)⟩,
  ⟨wit [(F.DEV_STATE_STATE, 2)] (fun dv => dv.setEng 63 (keng 2154385793 regsX)), 63, 3, 9, 10, 1, 2, by decide +kernel, runs_of (by decide +kernel)⟩,
  ⟨wit [(F.DEV_STATE_STATE, 2)] (fun dv => dv.setEng 63 (keng 2154385794 regsX)), 63, 3, 9, 10, 1, 2, by decide +kernel, runs_of (by decide +kernel)⟩,
  ⟨wit [(F.DEV_STATE_STATE, 2)] (fun dv => dv.setEng 63 (keng 2154385795 regsX)), 63, 3, 9, 10, 1, 2, by decide +kernel, runs_of (by decide +kernel)⟩,
  ⟨wit [(F.DEV_STATE_STATE, 2)] (fun dv => dv.setEng 63 (keng 2154385796 regsX)), 63, 3, 9, 10, 1, 2, by decide +kernel, runs_of (by decide +kernel)⟩,
  ⟨wit [(F.DEV_STATE_STATE, 2)] (fun dv => dv.setEng 63 (keng 2154385797 regsX)), 63, 3, 9, 10, 1, 2, by decide +kernel, runs_of (by decide +kernel)⟩,
  ⟨wit [(F.DEV_STATE_STATE, 2)] (fun dv => dv.setEng 63 (keng 2154385798 regsX)), 63, 3, 9, 10, 1, 2, by decide +kernel, runs_of (by decide +kernel)⟩,
  ⟨wit [(F.DEV_STATE_STATE, 2)] (fun dv => dv.setEng 63 (keng 2154385799 regsX)), 63, 3, 9, 10, 1, 2, by decide +kernel, runs_of (by decide +kernel)⟩,
  ⟨wit [(F.DEV_STATE_STATE, 2)] (fun dv => dv.setEng 63 (keng 2154385800 regsX)), 63, 3, 9, 10, 1, 2, by decide +kernel, runs_of (by decide +kernel)⟩⟩

theorem wit_VectorInteger_2 :
  (∃ (s : State) (e : Nat) (vd : Nat) (vs1 : Nat) (vs2 : Nat) (pr : Nat) (typ : Nat), (typ < 3) ∧ (s.dev.runs e (isV 0x20 0x09 vd vs1 vs2 pr typ))) ∧
  (∃ (s : State) (e : Nat) (vd : Nat) (vs1 : Nat) (vs2 : Nat) (pr : Nat) (typ : Nat), (typ < 3) ∧ (s.dev.runs e (isV 0x20 0x0A vd vs1 vs2 pr typ))) ∧
  (∃ (s : State) (e : Nat) (vd : Nat) (vs1 : Nat) (vs2 : Nat) (pr : Nat) (typ : Nat), (typ < 3) ∧ (s.dev.runs e (isV 0x20 0x0B vd vs1 vs2 pr typ))) ∧
  (∃ (s : State) (e : Nat) (vd : Nat) (vs1 : Nat) (vs2 : Nat) (pr : Nat) (typ : Nat), (typ < 3) ∧ (s.dev.runs e (isV 0x20 0x0C vd vs1 vs2 pr typ))) ∧
  (∃ (s : State) (e : Nat) (vd : Nat) (vs1 : Nat) (vs2 : Nat) (pr : Nat) (typ : Nat), (typ < 3) ∧ (s.dev.runs e (isV 0x20 0x0D vd vs1 vs2 pr typ))) ∧
  (∃ (s : State) (e : Nat) (vd : Nat) (vs1 : Nat) (vs2 : Nat) (pr : Nat) (typ : Nat), (typ < 3) ∧ (s.dev.runs e (isV 0x20 0x0E vd vs1 vs2 pr typ))) ∧
  (∃ (s : State) (e : Nat) (vd : Nat) (vs1 : Nat) (vs2 : Nat) (pr : Nat) (typ : Nat), (typ < 3) ∧ (s.dev.runs e (isV 0x20 0x0F vd vs1 vs2 pr typ))) ∧
  (∃ (s : State) (e : Nat) (vd : Nat) (vs1 : Nat) (vs2 : Nat) (pr : Nat) (typ : Nat), (typ < 3) ∧ (s.dev.runs e (isV 0x20 0x10 vd vs1 vs2 pr typ)) ∧ (vd
    < 8)) ∧
  (∃ (s : State) (e : Nat) (vd : Nat) (vs1 : Nat) (vs2 : Nat) (pr : Nat) (typ : Nat), (typ < 3) ∧ (s.dev.runs e (isV 0x20 0x10 vd vs1 vs2 pr typ)) ∧ (8
    ≤ vd)) ∧
  (∃ (s : State) (e : Nat) (vd : Nat) (vs1 : Nat) (vs2 : Nat) (pr : Nat) (typ : Nat), (typ < 3) ∧ (s.dev.runs e (isV 0x20 0x11 vd vs1 vs2 pr typ)) ∧ (vd
    < 8)) :=
  ⟨⟨wit [(F.DEV_STATE_STATE, 2)] (fun dv => dv.setEng 63 (keng 2154385801 regsX)), 63, 3, 9, 10, 1, 2, by decide +kernel, runs_of (by decide +kernel)⟩,
  ⟨wit [(F.DEV_STATE_STATE, 2)] (fun dv => dv.setEng 63 (keng 2154385802 regsX)), 63, 3, 9, 10, 1, 2, by decide +kernel, runs_of (by decide +kernel)⟩,
  ⟨wit [(F.DEV_STATE_STATE, 2)] (fun dv => dv.setEng 63 (keng 2154385803 regsX)), 63, 3, 9, 10, 1, 2, by decide +kernel, runs_of (by decide +kernel)⟩,
  ⟨wit [(F.DEV_STATE_STATE, 2)] (fun dv => dv.setEng 63 (keng 2154385804 regsX)), 63, 3, 9, 10, 1, 2, by decide +kernel, runs_of (by decide +kernel)⟩,
  ⟨wit [(F.DEV_STATE_STATE, 2)] (fun dv => dv.setEng 63 (keng 2154385805 regsX)), 63, 3, 9, 10, 1, 2, by decide +kernel, runs_of (by decide +kernel)⟩,
  ⟨wit [(F.DEV_STATE_STATE, 2)] (fun dv => dv.setEng 63 (keng 2154385806 regsX)), 63, 3, 9, 10, 1, 2, by decide +kernel, runs_of (by decide +kernel)⟩,
  ⟨wit [(F.DEV_STATE_STATE, 2)] (fun dv => dv.setEng 63 (keng 2154385807 regsX)), 63, 3, 9, 10, 1, 2, by decide +kernel, runs_of (by decide +kernel)⟩,
  ⟨wit [(F.DEV_STATE_STATE, 2)] (fun dv => dv.setEng 63 (keng 2162774416 regsX)), 63, 7, 9, 10, 1, 2, by decide +kernel, runs_of (by decide +kernel),
    by decide +kernel⟩,
  ⟨wit [(F.DEV_STATE_STATE, 2)] (fun dv => dv.setEng 63 (keng 2164871504 regsX)), 63, 8, 9, 10, 1, 1, by decide +kernel, runs_of (by decide +kernel),
    by decide +kernel⟩,
  ⟨wit [(F.DEV_STATE_STATE, 2)] (fun dv => dv.setEng 63 (keng 2162774417 regsX)), 63, 7, 9, 10, 1, 2, by decide +kernel, runs_of (by decide +kernel),
    by decide +kernel⟩⟩

theorem wit_VectorInteger_3 :
  (∃ (s : State) (e : Nat) (vd : Nat) (vs1 : Nat) (vs2 : Nat) (pr : Nat) (typ : Nat), (typ < 3) ∧ (s.dev.runs e (isV 0x20 0x11 vd vs1 vs2 pr typ)) ∧ (8
    ≤ vd)) ∧
  (∃ (s : State) (e : Nat) (vd : Nat) (vs1 : Nat) (vs2 : Nat) (pr : Nat) (typ : Nat), (typ < 3) ∧ (s.dev.runs e (isV 0x20 0x12 vd vs1 vs2 pr typ)) ∧ (vd
    < 8)) ∧
  (∃ (s : State) (e : Nat) (vd : Nat) (vs1 : Nat) (vs2 : Nat) (pr : Nat) (typ : Nat), (typ < 3) ∧ (s.dev.runs e (isV 0x20 0x12 vd vs1 vs2 pr typ)) ∧ (8
    ≤ vd)) ∧
  (∃ (s : State) (e : Nat) (vd : Nat) (vs1 : Nat) (vs2 : Nat) (pr : Nat) (typ : Nat), (typ < 3) ∧ (s.dev.runs e (isV 0x20 0x14 vd vs1 vs2 pr typ))) ∧
  (∃ (s : State) (e : Nat) (vd : Nat) (vs1 : Nat) (vs2 : Nat) (pr : Nat) (typ : Nat), (typ < 3) ∧ (typ = 0) ∧ (s.dev.runs e (isV 0x20 0x18 vd vs1 vs2 pr
    typ))) ∧
  (∃ (s : State) (e : Nat) (vd : Nat) (vs1 : Nat) (vs2 : Nat) (pr : Nat) (typ : Nat), (typ < 3) ∧ (typ = 0) ∧ (s.dev.runs e (isV 0x20 0x19 vd vs1 vs2 pr
    typ))) ∧
  (∃ (s : State) (e : Nat) (vd : Nat) (vs1 : Nat) (vs2 : Nat) (pr : Nat) (typ : Nat) (func : Nat) (i : Instr), (typ < 3) ∧ (typ ≠ 0) ∧ ((func, i) ∈
    [(0x18, Instr.vdot e vd vs1 vs2 pr typ), (0x19, .vdotu e vd vs1 vs2 pr typ)]) ∧ (s.dev.runs e (isV 0x20 func vd vs1 vs2 pr typ))) :=
  ⟨⟨wit [(F.DEV_STATE_STATE, 2)] (fun dv => dv.setEng 63 (keng 2164871505 regsX)), 63, 8, 9, 10, 1, 1, by decide +kernel, runs_of (by decide +kernel),
    by decide +kernel⟩,
  ⟨wit [(F.DEV_STATE_STATE, 2)] (fun dv => dv.setEng 63 (keng 2162774418 regsX)), 63, 7, 9, 10, 1, 2, by decide +kernel, runs_of (by decide +kernel),
    by decide +kernel⟩,
  ⟨wit [(F.DEV_STATE_STATE, 2)] (fun dv => dv.setEng 63 (keng 2164871506 regsX)), 63, 8, 9, 10, 1, 1, by decide +kernel, runs_of (by decide +kernel),
    by decide +kernel⟩,
  ⟨wit [(F.DEV_STATE_STATE, 2)] (fun dv => dv.setEng 63 (keng 2154385684 regsX)), 63, 3, 9, 10, 1, 0, by decide +kernel, runs_of (by decide +kernel)⟩,
  ⟨wit [(F.DEV_STATE_STATE, 2)] (fun dv => dv.setEng 63 (keng 2154385688 regsX)), 63, 3, 9, 10, 1, 0, by decide +kernel, by decide +kernel, runs_of
    (by decide +kernel)⟩,
  ⟨wit [(F.DEV_STATE_STATE, 2)] (fun dv => dv.setEng 63 (keng 2154385689 regsX)), 63, 3, 9, 10, 1, 0, by decide +kernel, by decide +kernel, runs_of
    (by decide +kernel)⟩,
  ⟨wit [(F.DEV_STATE_STATE, 2)] (fun dv => dv.setEng 63 (keng 2154385752 regsX)), 63, 3, 9, 10, 1, 1, _, _, by decide +kernel, by decide +kernel,
    List.Mem.head _, runs_of (by decide +kernel)⟩⟩

theorem wit_VectorMoves_1 :
  (∃ (s : State) (e : Nat) (d : Nat) (vs1 : Nat) (pr : Nat) (typ : Nat), (typ < 4) ∧ (typ < 3) ∧ (s.dev.runs e (isV 0x20 0x1C d vs1 0 pr typ))) ∧
  (∃ (s : State) (e : Nat) (d : Nat) (vs1 : Nat) (pr : Nat) (typ : Nat), (typ < 4) ∧ (typ < 3) ∧ (s.dev.runs e (isV 0x20 0x1D d vs1 0 pr typ))) ∧
  (∃ (s : State) (e : Nat) (d : Nat) (vs1 : Nat) (pr : Nat) (typ : Nat), (typ < 4) ∧ (typ < 3) ∧ (s.dev.runs e (isV 0x20 0x1E d vs1 0 pr typ)) ∧
    (((List.range (kLanes typ)).filter (pbit ((s.dev.eng e).pReg pr))) = [])) ∧
  (∃ (s : State) (e : Nat) (d : Nat) (vs1 : Nat) (pr : Nat) (typ : Nat), (typ < 4) ∧ (typ < 3) ∧ (s.dev.runs e (isV 0x20 0x1E d vs1 0 pr typ)) ∧
    (((List.range (kLanes typ)).filter (pbit ((s.dev.eng e).pReg pr))) ≠ [])) ∧
  (∃ (s : State) (e : Nat) (d : Nat) (vs1 : Nat) (pr : Nat) (typ : Nat), (typ < 4) ∧ (typ < 3) ∧ (s.dev.runs e (isV 0x20 0x1F d vs1 0 pr typ)) ∧
    (((List.range (kLanes typ)).filter (pbit ((s.dev.eng e).pReg pr))) = [])) ∧
  (∃ (s : State) (e : Nat) (d : Nat) (vs1 : Nat) (pr : Nat) (typ : Nat), (typ < 4) ∧ (typ < 3) ∧ (s.dev.runs e (isV 0x20 0x1F d vs1 0 pr typ)) ∧
    (((List.range (kLanes typ)).filter (pbit ((s.dev.eng e).pReg pr))) ≠ [])) ∧
  (∃ (s : State) (e : Nat) (d : Nat) (vs1 : Nat) (vs2 : Nat) (pr : Nat) (typ : Nat), (typ < 4) ∧ (typ < 2) ∧ (s.dev.runs e (isV 0x20 0x20 d vs1 vs2 pr
    typ))) ∧
  (∃ (s : State) (e : Nat) (d : Nat) (vs1 : Nat) (pr : Nat) (typ : Nat), (typ < 4) ∧ (typ < 2) ∧ (s.dev.runs e (isV 0x20 0x21 d vs1 0 pr typ))) ∧
  (∃ (s : State) (e : Nat) (d : Nat) (vs1 : Nat) (pr : Nat) (typ : Nat), (typ < 4) ∧ (typ < 2) ∧ (s.dev.runs e (isV 0x20 0x22 d vs1 0 pr typ))) ∧
  (∃ (s : State) (e : Nat) (d : Nat) (vs1 : Nat) (pr : Nat) (typ : Nat) (func : Nat) (i : Instr), (typ < 4) ∧ (typ = 3) ∧ ((func, i) ∈ [(0x1C,
    Instr.vredsum e d vs1 pr typ), (0x1E, .vredmax e d vs1 pr typ)]) ∧ (s.dev.runs e (isV 0x20 func d vs1 0 pr typ))) :=
  ⟨⟨wit [(F.DEV_STATE_STATE, 2)] (fun dv => dv.setEng 63 (keng 2156462492 regsX)), 63, 4, 9, 1, 2, by decide +kernel, by decide +kernel, runs_of
    (by decide +kernel)⟩,
  ⟨wit [(F.DEV_STATE_STATE, 2)] (fun dv => dv.setEng 63 (keng 2156462493 regsX)), 63, 4, 9, 1, 2, by decide +kernel, by decide +kernel, runs_of
    (by decide +kernel)⟩,
  ⟨wit [(F.DEV_STATE_STATE, 2)] (fun dv => dv.setEng 63 (keng 2156463262 regsX)), 63, 4, 9, 4, 2, by decide +kernel, by decide +kernel, runs_of
    (by decide +kernel), by decide +kernel⟩,
  ⟨wit [(F.DEV_STATE_STATE, 2)] (fun dv => dv.setEng 63 (keng 2156462494 regsX)), 63, 4, 9, 1, 2, by decide +kernel, by decide +kernel, runs_of
    (by decide +kernel), by decide +kernel⟩,
  ⟨wit [(F.DEV_STATE_STATE, 2)] (fun dv => dv.setEng 63 (keng 2156463263 regsX)), 63, 4, 9, 4, 2, by decide +kernel, by decide +kernel, runs_of
    (by decide +kernel), by decide +kernel⟩,
  ⟨wit [(F.DEV_STATE_STATE, 2)] (fun dv => dv.setEng 63 (keng 2156462495 regsX)), 63, 4, 9, 1, 2, by decide +kernel, by decide +kernel, runs_of
    (by decide +kernel), by decide +kernel⟩,
  ⟨wit [(F.DEV_STATE_STATE, 2)] (fun dv => dv.setEng 63 (keng 2156482912 regsX)), 63, 4, 9, 10, 1, 1, by decide +kernel, by decide +kernel, runs_of
    (by decide +kernel)⟩,
  ⟨wit [(F.DEV_STATE_STATE, 2)] (fun dv => dv.setEng 63 (keng 2156462369 regsX)), 63, 4, 9, 1, 0, by decide +kernel, by decide +kernel, runs_of
    (by decide +kernel)⟩,
  ⟨wit [(F.DEV_STATE_STATE, 2)] (fun dv => dv.setEng 63 (keng 2156462434 regsX)), 63, 4, 9, 1, 1, by decide +kernel, by decide +kernel, runs_of
    (by decide +kernel)⟩,
  ⟨wit [(F.DEV_STATE_STATE, 2)] (fun dv => dv.setEng 63 (keng 2156462556 regsX)), 63, 4, 9, 1, 3, _, _, by decide +kernel, by decide +kernel,
    List.Mem.head _, runs_of (by decide +kernel)⟩⟩

theorem wit_VectorMoves_2 :
  (∃ (s : State) (e : Nat) (d : Nat) (vs1 : Nat) (pr : Nat) (typ : Nat) (func : Nat) (i : Instr), (typ < 4) ∧ (2 ≤ typ) ∧ ((func, i) ∈ [(0x21,
    Instr.vwidel e d vs1 pr typ), (0x22, .vwideh e d vs1 pr typ)]) ∧ (s.dev.runs e (isV 0x20 func d vs1 0 pr typ))) ∧
  (∃ (s : State) (e : Nat) (d : Nat) (typ : Nat) (r : _), (typ < 4) ∧ (s.dev.runs e (isVX 0 d r 0 typ))) ∧
  (∃ (s : State) (e : Nat) (d : Nat) (vs1 : Nat) (typ : Nat) (ln : _), (typ < 4) ∧ (s.dev.runs e (isVX 1 d vs1 ln typ)) ∧ (ln < (kLanes typ))) ∧
  (∃ (s : State) (e : Nat) (d : Nat) (vs1 : Nat) (typ : Nat) (ln : _), (typ < 4) ∧ (s.dev.runs e (isVX 1 d vs1 ln typ)) ∧ ((kLanes typ) ≤ ln)) ∧
  (∃ (s : State) (e : Nat) (d : Nat) (typ : Nat) (r : _) (ln : _), (typ < 4) ∧ (ln < (kLanes typ)) ∧ (s.dev.runs e (isVX 2 d r ln typ))) :=
  ⟨⟨wit [(F.DEV_STATE_STATE, 2)] (fun dv => dv.setEng 63 (keng 2156462497 regsX)), 63, 4, 9, 1, 2, _, _, by decide +kernel, by decide +kernel,
    List.Mem.head _, runs_of (by decide +kernel)⟩,
  ⟨wit [(F.DEV_STATE_STATE, 2)] (fun dv => dv.setEng 63 (keng 2491744448 regsX)), 63, 4, 3, 5, by decide +kernel, runs_of (by decide +kernel)⟩,
  ⟨wit [(F.DEV_STATE_STATE, 2)] (fun dv => dv.setEng 63 (keng 2492038337 regsX)), 63, 4, 9, 3, 31, by decide +kernel, runs_of (by decide +kernel),
    by decide +kernel⟩,
  ⟨wit [(F.DEV_STATE_STATE, 2)] (fun dv => dv.setEng 63 (keng 2492039233 regsX)), 63, 4, 9, 1, 32, by decide +kernel, runs_of (by decide +kernel),
    by decide +kernel⟩,
  ⟨wit [(F.DEV_STATE_STATE, 2)] (fun dv => dv.setEng 63 (keng 2491759746 regsX)), 63, 4, 2, 5, 15, by decide +kernel, by decide +kernel, runs_of
    (by decide +kernel)⟩⟩

theorem wit_Bf16_1 :
  (∃ (s : State) (e : Nat) (d : Nat) (vs1 : Nat) (vs2 : Nat) (pr : Nat) (typ : _), (typ ≠ 3) ∧ (s.dev.runs e (isV 0x21 0x00 d vs1 vs2 pr typ))) ∧
  (∃ (s : State) (e : Nat) (d : Nat) (vs1 : Nat) (vs2 : Nat) (pr : Nat), (d % 2 = 1) ∧ (s.dev.runs e (isV 0x21 0x04 d vs1 vs2 pr 3))) ∧
  (∃ (s : State) (e : Nat) (d : Nat) (vs1 : Nat) (vs2 : Nat) (pr : Nat), (8 ≤ d) ∧ (s.dev.runs e (isV 0x21 0x0C d vs1 vs2 pr 3))) ∧
  (∃ (s : State) (e : Nat) (d : Nat) (vs1 : Nat) (pr : Nat) (func : Nat) (i : Instr), (s.dev.feat 6 = false) ∧ ((func, i) ∈ [(0x09, Instr.vfcvti2b e d
    vs1 pr 3), (0x0A, .vfcvtb2i e d vs1 pr 3), (0x10, .vfredsum e d vs1 pr 3)]) ∧ (s.dev.runs e (isV 0x21 func d vs1 0 pr 3))) ∧
  (∃ (s : State) (e : Nat) (d : Nat) (vs1 : Nat) (vs2 : Nat) (pr : Nat) (func : Nat) (i : Instr), (s.dev.feat 6 = false) ∧ ((func, i) ∈ [(0x00,
    Instr.vfadd e d vs1 vs2 pr 3), (0x01, .vfsub e d vs1 vs2 pr 3), (0x02, .vfmul e d vs1 vs2 pr 3), (0x03, .vfma e d vs1 vs2 pr 3), (0x05, .vfmax e d
    vs1 vs2 pr 3), (0x06, .vfmin e d vs1 vs2 pr 3), (0x08, .vfcvtw2b e d vs1 vs2 pr 3)]) ∧ (s.dev.runs e (isV 0x21 func d vs1 vs2 pr 3))) ∧
  (∃ (s : State) (e : Nat) (d : Nat) (vs1 : Nat) (vs2 : Nat) (pr : Nat), (s.dev.feat 6 = false) ∧ (d % 2 = 0) ∧ (s.dev.runs e (isV 0x21 0x04 d vs1 vs2
    pr 3))) ∧
  (∃ (s : State) (e : Nat) (d : Nat) (vs1 : Nat) (vs2 : Nat) (pr : Nat), (s.dev.feat 6 = false) ∧ (d < 8) ∧ (s.dev.runs e (isV 0x21 0x0C d vs1 vs2 pr
    3))) ∧
  (∃ (s : State) (e : Nat) (d : Nat) (vs1 : Nat) (vs2 : Nat) (pr : Nat), (s.dev.feat 6 = true) ∧ (s.dev.runs e (isV 0x21 0x00 d vs1 vs2 pr 3))) ∧
  (∃ (s : State) (e : Nat) (d : Nat) (vs1 : Nat) (vs2 : Nat) (pr : Nat), (s.dev.feat 6 = true) ∧ (s.dev.runs e (isV 0x21 0x01 d vs1 vs2 pr 3))) ∧
  (∃ (s : State) (e : Nat) (d : Nat) (vs1 : Nat) (vs2 : Nat) (pr : Nat), (s.dev.feat 6 = true) ∧ (s.dev.runs e (isV 0x21 0x02 d vs1 vs2 pr 3))) :=
  ⟨⟨wit [(F.DEV_STATE_STATE, 2)] (fun dv => dv.setEng 63 (keng 2223591808 regsX)), 63, 4, 9, 10, 1, 2, by decide +kernel, runs_of (by decide +kernel)⟩,
  ⟨wit [(F.DEV_STATE_STATE, 2)] (fun dv => dv.setEng 63 (keng 2225689028 regsX)), 63, 5, 9, 10, 1, by decide +kernel, runs_of (by decide +kernel)⟩,
  ⟨wit [(F.DEV_STATE_STATE, 2)] (fun dv => dv.setEng 63 (keng 2231980492 regsX)), 63, 8, 9, 10, 1, by decide +kernel, runs_of (by decide +kernel)⟩,
  ⟨wit [(F.DEV_STATE_STATE, 2)] (fun dv => ({ dv with accepted := 0x3FFFFBF } : Dev).setEng 63 (keng 2223571401 regsX)), 63, 4, 9, 1, _, _,
    by decide +kernel, List.Mem.head _, runs_of (by decide +kernel)⟩,
  ⟨wit [(F.DEV_STATE_STATE, 2)] (fun dv => ({ dv with accepted := 0x3FFFFBF } : Dev).setEng 63 (keng 2223591872 regsX)), 63, 4, 9, 10, 1, _, _,
    by decide +kernel, List.Mem.head _, runs_of (by decide +kernel)⟩,
  ⟨wit [(F.DEV_STATE_STATE, 2)] (fun dv => ({ dv with accepted := 0x3FFFFBF } : Dev).setEng 63 (keng 2223591876 regsX)), 63, 4, 9, 10, 1,
    by decide +kernel, by decide +kernel, runs_of (by decide +kernel)⟩,
  ⟨wit [(F.DEV_STATE_STATE, 2)] (fun dv => ({ dv with accepted := 0x3FFFFBF } : Dev).setEng 63 (keng 2223591884 regsX)), 63, 4, 9, 10, 1,
    by decide +kernel, by decide +kernel, runs_of (by decide +kernel)⟩,
  ⟨wit [(F.DEV_STATE_STATE, 2)] (fun dv => dv.setEng 63 (keng 2223591872 regsX)), 63, 4, 9, 10, 1, by decide +kernel, runs_of (by decide +kernel)⟩,
  ⟨wit [(F.DEV_STATE_STATE, 2)] (fun dv => dv.setEng 63 (keng 2223591873 regsX)), 63, 4, 9, 10, 1, by decide +kernel, runs_of (by decide +kernel)⟩,
  ⟨wit [(F.DEV_STATE_STATE, 2)] (fun dv => dv.setEng 63 (keng 2223591874 regsX)), 63, 4, 9, 10, 1, by decide +kernel, runs_of (by decide +kernel)⟩⟩

theorem wit_Bf16_2 :
  (∃ (s : State) (e : Nat) (d : Nat) (vs1 : Nat) (vs2 : Nat) (pr : Nat), (s.dev.feat 6 = true) ∧ (s.dev.runs e (isV 0x21 0x03 d vs1 vs2 pr 3))) ∧
  (∃ (s : State) (e : Nat) (d : Nat) (vs1 : Nat) (vs2 : Nat) (pr : Nat), (s.dev.feat 6 = true) ∧ (s.dev.runs e (isV 0x21 0x08 d vs1 vs2 pr 3))) ∧
  (∃ (s : State) (e : Nat) (d : Nat) (vs1 : Nat) (vs2 : Nat) (pr : Nat), (s.dev.feat 6 = true) ∧ (s.dev.runs e (isV 0x21 0x05 d vs1 vs2 pr 3))) ∧
  (∃ (s : State) (e : Nat) (d : Nat) (vs1 : Nat) (vs2 : Nat) (pr : Nat), (s.dev.feat 6 = true) ∧ (s.dev.runs e (isV 0x21 0x06 d vs1 vs2 pr 3))) ∧
  (∃ (s : State) (e : Nat) (d : Nat) (vs1 : Nat) (vs2 : Nat) (pr : Nat), (s.dev.feat 6 = true) ∧ (d % 2 = 0) ∧ (s.dev.runs e (isV 0x21 0x04 d vs1 vs2 pr
    3))) ∧
  (∃ (s : State) (e : Nat) (d : Nat) (vs1 : Nat) (pr : Nat), (s.dev.feat 6 = true) ∧ (s.dev.runs e (isV 0x21 0x09 d vs1 0 pr 3))) ∧
  (∃ (s : State) (e : Nat) (d : Nat) (vs1 : Nat) (pr : Nat), (s.dev.feat 6 = true) ∧ (s.dev.runs e (isV 0x21 0x0A d vs1 0 pr 3))) ∧
  (∃ (s : State) (e : Nat) (d : Nat) (vs1 : Nat) (vs2 : Nat) (pr : Nat), (s.dev.feat 6 = true) ∧ (d < 8) ∧ (s.dev.runs e (isV 0x21 0x0C d vs1 vs2 pr
    3))) ∧
  (∃ (s : State) (e : Nat) (d : Nat) (vs1 : Nat) (pr : Nat), (s.dev.feat 6 = true) ∧ (s.dev.runs e (isV 0x21 0x10 d vs1 0 pr 3))) :=
  ⟨⟨wit [(F.DEV_STATE_STATE, 2)] (fun dv => dv.setEng 63 (keng 2223591875 regsX)), 63, 4, 9, 10, 1, by decide +kernel, runs_of (by decide +kernel)⟩,
  ⟨wit [(F.DEV_STATE_STATE, 2)] (fun dv => dv.setEng 63 (keng 2223591880 regsX)), 63, 4, 9, 10, 1, by decide +kernel, runs_of (by decide +kernel)⟩,
  ⟨wit [(F.DEV_STATE_STATE, 2)] (fun dv => dv.setEng 63 (keng 2223591877 regsX)), 63, 4, 9, 10, 1, by decide +kernel, runs_of (by decide +kernel)⟩,
  ⟨wit [(F.DEV_STATE_STATE, 2)] (fun dv => dv.setEng 63 (keng 2223591878 regsX)), 63, 4, 9, 10, 1, by decide +kernel, runs_of (by decide +kernel)⟩,
  ⟨wit [(F.DEV_STATE_STATE, 2)] (fun dv => dv.setEng 63 (keng 2223591876 regsX)), 63, 4, 9, 10, 1, by decide +kernel, by decide +kernel, runs_of
    (by decide +kernel)⟩,
  ⟨wit [(F.DEV_STATE_STATE, 2)] (fun dv => dv.setEng 63 (keng 2223571401 regsX)), 63, 4, 9, 1, by decide +kernel, runs_of (by decide +kernel)⟩,
  ⟨wit [(F.DEV_STATE_STATE, 2)] (fun dv => dv.setEng 63 (keng 2223571402 regsX)), 63, 4, 9, 1, by decide +kernel, runs_of (by decide +kernel)⟩,
  ⟨wit [(F.DEV_STATE_STATE, 2)] (fun dv => dv.setEng 63 (keng 2223591884 regsX)), 63, 4, 9, 10, 1, by decide +kernel, by decide +kernel, runs_of
    (by decide +kernel)⟩,
  ⟨wit [(F.DEV_STATE_STATE, 2)] (fun dv => dv.setEng 63 (keng 2223571408 regsX)), 63, 4, 9, 1, by decide +kernel, runs_of (by decide +kernel)⟩⟩

theorem wit_VectorMemory_1 :
  (∃ (s : State) (e : Nat) (v : Nat) (rs1 : Nat) (pr : Nat) (off : Nat), (off < 2 ^ 13) ∧ (s.dev.runs e (isVM 0x22 v rs1 pr off)) ∧ ((s.dev.eng e).sReg
    rs1 % 4 ≠ 0)) ∧
  (∃ (s : State) (e : Nat) (v : Nat) (rs1 : Nat) (pr : Nat) (off : Nat), (off < 2 ^ 13) ∧ (s.dev.runs e (isVM 0x22 v rs1 pr off)) ∧ ((s.dev.eng e).sReg
    rs1 % 4 = 0) ∧ (∃ k, k < 64 ∧ (fun k => pbit ((s.dev.eng e).pReg pr) k) k = true ∧ (s.dev.eng e).readable ((((BitVec.ofNat 64 ((s.dev.eng e).sReg
    rs1) + BitVec.ofInt 64 (4 * (BitVec.ofNat 13 off).toInt)).toNat) + k) % 2 ^ 64) = false)) ∧
  (∃ (s : State) (e : Nat) (v : Nat) (rs1 : Nat) (pr : Nat) (off : Nat), (off < 2 ^ 13) ∧ (s.dev.runs e (isVM 0x22 v rs1 pr off)) ∧ ((s.dev.eng e).sReg
    rs1 % 4 = 0) ∧ (∀ k, k < 64 → (fun k => pbit ((s.dev.eng e).pReg pr) k) k = true → (s.dev.eng e).readable ((((BitVec.ofNat 64 ((s.dev.eng e).sReg
    rs1) + BitVec.ofInt 64 (4 * (BitVec.ofNat 13 off).toInt)).toNat) + k) % 2 ^ 64) = true) ∧ ((s.dev.eng e).xfers = [])) ∧
  (∃ (s : State) (e : Nat) (v : Nat) (rs1 : Nat) (pr : Nat) (off : Nat), (off < 2 ^ 13) ∧ (s.dev.runs e (isVM 0x23 v rs1 pr off)) ∧ ((s.dev.eng e).sReg
    rs1 % 4 ≠ 0)) ∧
  (∃ (s : State) (e : Nat) (v : Nat) (rs1 : Nat) (pr : Nat) (off : Nat), (off < 2 ^ 13) ∧ (s.dev.runs e (isVM 0x23 v rs1 pr off)) ∧ ((s.dev.eng e).sReg
    rs1 % 4 = 0) ∧ (∃ k, k < 64 ∧ (fun k => pbit ((s.dev.eng e).pReg pr) k) k = true ∧ (s.dev.eng e).writable ((((BitVec.ofNat 64 ((s.dev.eng e).sReg
    rs1) + BitVec.ofInt 64 (4 * (BitVec.ofNat 13 off).toInt)).toNat) + k) % 2 ^ 64) = false)) ∧
  (∃ (s : State) (e : Nat) (v : Nat) (rs1 : Nat) (pr : Nat) (off : Nat), (off < 2 ^ 13) ∧ (s.dev.runs e (isVM 0x23 v rs1 pr off)) ∧ ((s.dev.eng e).sReg
    rs1 % 4 = 0) ∧ (∀ k, k < 64 → (fun k => pbit ((s.dev.eng e).pReg pr) k) k = true → (s.dev.eng e).writable ((((BitVec.ofNat 64 ((s.dev.eng e).sReg
    rs1) + BitVec.ofInt 64 (4 * (BitVec.ofNat 13 off).toInt)).toNat) + k) % 2 ^ 64) = true) ∧ ((s.dev.eng e).xfers = [])) ∧
  (∃ (s : State) (e : Nat) (v : Nat) (rs1 : Nat) (pr : Nat) (off : Nat) (vs1 : _) (typ : _), (off < 2 ^ 13) ∧ (s.dev.runs e (isV 0x24 0x00 v vs1 rs1 pr
    typ)) ∧ (2 ≤ typ)) ∧
  (∃ (s : State) (e : Nat) (v : Nat) (rs1 : Nat) (pr : Nat) (off : Nat) (vs1 : _) (typ : _), (off < 2 ^ 13) ∧ (s.dev.runs e (isV 0x24 0x00 v vs1 rs1 pr
    typ)) ∧ (typ = 1) ∧ ((s.dev.eng e).sReg rs1 % 2 = 1)) ∧
  (∃ (s : State) (e : Nat) (v : Nat) (rs1 : Nat) (pr : Nat) (off : Nat) (vs1 : _) (typ : _), (off < 2 ^ 13) ∧ (s.dev.runs e (isV 0x24 0x00 v vs1 rs1 pr
    typ)) ∧ (typ = 0) ∧ (∃ k, k < 64 ∧ (fun k => pbit ((s.dev.eng e).pReg pr) k) k = true ∧ (s.dev.eng e).readable ((fun k => ((s.dev.eng e).sReg rs1
    + (typ + 1) * lane ((s.dev.eng e).vReg vs1) (kWidth typ) k) % 2 ^ 64) k) = false)) ∧
  (∃ (s : State) (e : Nat) (v : Nat) (rs1 : Nat) (pr : Nat) (off : Nat) (vs1 : _) (typ : _), (off < 2 ^ 13) ∧ (s.dev.runs e (isV 0x24 0x00 v vs1 rs1 pr
    typ)) ∧ (typ < 2) ∧ (typ = 1 → (s.dev.eng e).sReg rs1 % 2 = 0) ∧ (∀ k, k < kLanes typ → (fun k => pbit ((s.dev.eng e).pReg pr) k) k = true →
    (s.dev.eng e).readable ((fun k => ((s.dev.eng e).sReg rs1 + (typ + 1) * lane ((s.dev.eng e).vReg vs1) (kWidth typ) k) % 2 ^ 64) k) = true ∧
    (s.dev.eng e).readable (((fun k => ((s.dev.eng e).sReg rs1 + (typ + 1) * lane ((s.dev.eng e).vReg vs1) (kWidth typ) k) % 2 ^ 64) k + typ) % 2 ^
    64) = true) ∧ ((s.dev.eng e).xfers = [])) :=
  ⟨⟨wit [(F.DEV_STATE_STATE, 2)] (fun dv => dv.setEng 63 (keng 2288402431
    { s := [(6, 0x50002)], p := [(1, 0x5555_FFFF_0000_1234), (2, 0x0F0F), (3, 0x00FF)], v := regsX.v, mem := [(0x50010, 0x80), (0x50019, 0xFF), (0x50027, 0x81)] })),
    63, 3, 6, 1, 0x1FFF, by decide +kernel, runs_of (by decide +kernel), by decide +kernel⟩,
  ⟨wit [(F.DEV_STATE_STATE, 2)] (fun dv => dv.setEng 63 (keng 2288402431
    { s := [(6, 0x80004)], p := [(1, 0x5555_FFFF_0000_1234), (2, 0x0F0F), (3, 0x00FF)], v := regsX.v, mem := [(0x50010, 0x80), (0x50019, 0xFF), (0x50027, 0x81)] })),
    63, 3, 6, 1, 0x1FFF, by decide +kernel, runs_of (by decide +kernel), by decide +kernel⟩,
  ⟨wit [(F.DEV_STATE_STATE, 2)] (fun dv => dv.setEng 63 (keng 2288402431
    { s := [(6, 0x50010)], p := [(1, 0x5555_FFFF_0000_1234), (2, 0x0F0F), (3, 0x00FF)], v := regsX.v, mem := [(0x50010, 0x80), (0x50019, 0xFF), (0x50027, 0x81)] })),
    63, 3, 6, 1, 0x1FFF, by decide +kernel, runs_of (by decide +kernel), by decide +kernel⟩,
  ⟨wit [(F.DEV_STATE_STATE, 2)] (fun dv => dv.setEng 63 (keng 2355511295
    { s := [(6, 0x50002)], p := [(1, 0x5555_FFFF_0000_1234), (2, 0x0F0F), (3, 0x00FF)], v := regsX.v, mem := [(0x50010, 0x80), (0x50019, 0xFF), (0x50027, 0x81)] })),
    63, 3, 6, 1, 0x1FFF, by decide +kernel, runs_of (by decide +kernel), by decide +kernel⟩,
  ⟨wit [(F.DEV_STATE_STATE, 2)] (fun dv => dv.setEng 63 (keng 2355511295
    { s := [(6, 0x80004)], p := [(1, 0x5555_FFFF_0000_1234), (2, 0x0F0F), (3, 0x00FF)], v := regsX.v, mem := [(0x50010, 0x80), (0x50019, 0xFF), (0x50027, 0x81)] })),
    63, 3, 6, 1, 0x1FFF, by decide +kernel, runs_of (by decide +kernel), by decide +kernel⟩,
  ⟨wit [(F.DEV_STATE_STATE, 2)] (fun dv => dv.setEng 63 (keng 2355511295
    { s := [(6, 0x50010)], p := [(1, 0x5555_FFFF_0000_1234), (2, 0x0F0F), (3, 0x00FF)], v := regsX.v, mem := [(0x50010, 0x80), (0x50019, 0xFF), (0x50027, 0x81)] })),
    63, 3, 6, 1, 0x1FFF, by decide +kernel, runs_of (by decide +kernel), by decide +kernel⟩,
  ⟨wit [(F.DEV_STATE_STATE, 2)] (fun dv => dv.setEng 63 (keng 2422813056
    { s := [(6, 0x50010)], p := [(1, 0x5555_FFFF_0000_1234), (2, 0x0F0F), (3, 0x00FF)], v := regsX.v, mem := [(0x50010, 0x80), (0x50019, 0xFF), (0x50027, 0x81)] })),
    63, 3, 6, 1, 0x1FFF, 9, 2, by decide +kernel, runs_of (by decide +kernel), by decide +kernel⟩,
  ⟨wit [(F.DEV_STATE_STATE, 2)] (fun dv => dv.setEng 63 (keng 2422812992
    { s := [(6, 0x50001)], p := [(1, 0x5555_FFFF_0000_1234), (2, 0x0F0F), (3, 0x00FF)], v := regsX.v, mem := [(0x50010, 0x80), (0x50019, 0xFF), (0x50027, 0x81)] })),
    63, 3, 6, 1, 0x1FFF, 9, 1, by decide +kernel, runs_of (by decide +kernel), by decide +kernel⟩,
  ⟨wit [(F.DEV_STATE_STATE, 2)] (fun dv => dv.setEng 63 (keng 2422812928
    { s := [(6, 0x80000)], p := [(1, 0x5555_FFFF_0000_1234), (2, 0x0F0F), (3, 0x00FF)], v := regsX.v, mem := [(0x50010, 0x80), (0x50019, 0xFF), (0x50027, 0x81)] })),
    63, 3, 6, 1, 0x1FFF, 9, 0, by decide +kernel, runs_of (by decide +kernel), by decide +kernel⟩,
  ⟨wit [(F.DEV_STATE_STATE, 2)] (fun dv => dv.setEng 63 (keng 2422812992
    { s := [(6, 0x50010)], p := [(1, 0x5555_FFFF_0000_1234), (2, 0x0F0F), (3, 0x00FF)], v := regsX.v, mem := [(0x50010, 0x80), (0x50019, 0xFF), (0x50027, 0x81)] })),
    63, 3, 6, 1, 0x1FFF, 9, 1, by decide +kernel, runs_of (by decide +kernel), by decide +kernel⟩⟩

theorem wit_VectorMemory_2 :
  (∃ (s : State) (e : Nat) (v : Nat) (off : Nat) (p1 : _) (p2 : _), (off < 2 ^ 13) ∧ (s.dev.runs e (isP 0 v p1 p2 0))) ∧
  (∃ (s : State) (e : Nat) (v : Nat) (off : Nat) (p1 : _) (p2 : _), (off < 2 ^ 13) ∧ (s.dev.runs e (isP 1 v p1 p2 0))) ∧
  (∃ (s : State) (e : Nat) (v : Nat) (off : Nat) (p1 : _) (p2 : _), (off < 2 ^ 13) ∧ (s.dev.runs e (isP 2 v p1 p2 0))) ∧
  (∃ (s : State) (e : Nat) (v : Nat) (off : Nat) (p1 : _), (off < 2 ^ 13) ∧ (s.dev.runs e (isP 3 v p1 0 0))) ∧
  (∃ (s : State) (e : Nat) (v : Nat) (rs1 : Nat) (off : Nat), (off < 2 ^ 13) ∧ (s.dev.runs e (isP 4 v 0 0 rs1))) ∧
  (∃ (s : State) (e : Nat) (rs1 : Nat) (off : Nat) (p1 : _), (off < 2 ^ 13) ∧ (s.dev.runs e (isP 5 0 p1 0 rs1))) :=
  ⟨⟨wit [(F.DEV_STATE_STATE, 2)] (fun dv => dv.setEng 63 (keng 2577793024
    { s := [(6, 0x50010)], p := [(1, 0x5555_FFFF_0000_1234), (2, 0x0F0F), (3, 0x00FF)], v := regsX.v, mem := [(0x50010, 0x80), (0x50019, 0xFF), (0x50027, 0x81)] })),
    63, 3, 0x1FFF, 2, 3, by decide +kernel, runs_of (by decide +kernel)⟩,
  ⟨wit [(F.DEV_STATE_STATE, 2)] (fun dv => dv.setEng 63 (keng 2577793025
    { s := [(6, 0x50010)], p := [(1, 0x5555_FFFF_0000_1234), (2, 0x0F0F), (3, 0x00FF)], v := regsX.v, mem := [(0x50010, 0x80), (0x50019, 0xFF), (0x50027, 0x81)] })),
    63, 3, 0x1FFF, 2, 3, by decide +kernel, runs_of (by decide +kernel)⟩,
  ⟨wit [(F.DEV_STATE_STATE, 2)] (fun dv => dv.setEng 63 (keng 2577793026
    { s := [(6, 0x50010)], p := [(1, 0x5555_FFFF_0000_1234), (2, 0x0F0F), (3, 0x00FF)], v := regsX.v, mem := [(0x50010, 0x80), (0x50019, 0xFF), (0x50027, 0x81)] })),
    63, 3, 0x1FFF, 2, 3, by decide +kernel, runs_of (by decide +kernel)⟩,
  ⟨wit [(F.DEV_STATE_STATE, 2)] (fun dv => dv.setEng 63 (keng 2577399811
    { s := [(6, 0x50010)], p := [(1, 0x5555_FFFF_0000_1234), (2, 0x0F0F), (3, 0x00FF)], v := regsX.v, mem := [(0x50010, 0x80), (0x50019, 0xFF), (0x50027, 0x81)] })),
    63, 3, 0x1FFF, 2, by decide +kernel, runs_of (by decide +kernel)⟩,
  ⟨wit [(F.DEV_STATE_STATE, 2)] (fun dv => dv.setEng 63 (keng 2575327236
    { s := [(6, 0x50010)], p := [(1, 0x5555_FFFF_0000_1234), (2, 0x0F0F), (3, 0x00FF)], v := regsX.v, mem := [(0x50010, 0x80), (0x50019, 0xFF), (0x50027, 0x81)] })),
    63, 3, 6, 0x1FFF, by decide +kernel, runs_of (by decide +kernel)⟩,
  ⟨wit [(F.DEV_STATE_STATE, 2)] (fun dv => dv.setEng 63 (keng 2552258565
    { s := [(6, 0x50010)], p := [(1, 0x5555_FFFF_0000_1234), (2, 0x0F0F), (3, 0x00FF)], v := regsX.v, mem := [(0x50010, 0x80), (0x50019, 0xFF), (0x50027, 0x81)] })),
    63, 6, 0x1FFF, 2, by decide +kernel, runs_of (by decide +kernel)⟩⟩

theorem wit_DmaAndSystem_1 :
  (∃ (s : State) (e : Nat) (rl : _) (rr : _) (rn : _) (ch : _) (dir : _), (dir < 2) ∧ (s.dev.runs e (isD 0 rl rr rn ch dir)) ∧ (((s.dev.eng e).sReg rl)
    % 64 ≠ 0 ∨ ((s.dev.eng e).sReg rr) % 64 ≠ 0)) ∧
  (∃ (s : State) (e : Nat) (rl : _) (rr : _) (rn : _) (ch : _) (dir : _), (dir < 2) ∧ (s.dev.runs e (isD 0 rl rr rn ch dir)) ∧ (((s.dev.eng e).sReg rl)
    % 64 = 0) ∧ (((s.dev.eng e).sReg rr) % 64 = 0) ∧ (((s.dev.eng e).sReg rn) % 64 ≠ 0 ∨ ((s.dev.eng e).sReg rn) < 64 ∨ 65536 < ((s.dev.eng e).sReg
    rn))) ∧
  (∃ (s : State) (e : Nat) (rl : _) (rr : _) (rn : _) (ch : _) (dir : _), (dir < 2) ∧ (s.dev.runs e (isD 0 rl rr rn ch dir)) ∧ (((s.dev.eng e).sReg rl)
    % 64 = 0) ∧ (((s.dev.eng e).sReg rr) % 64 = 0) ∧ (((s.dev.eng e).sReg rn) % 64 = 0) ∧ (64 ≤ ((s.dev.eng e).sReg rn)) ∧ (((s.dev.eng e).sReg rn) ≤
    65536) ∧ (s.dev.remoteOk e (decide (dir = 1)) ((s.dev.eng e).sReg rr) ((s.dev.eng e).sReg rn) = false ∨ localOk (s.dev.eng e) (decide (dir = 1))
    ((s.dev.eng e).sReg rl) ((s.dev.eng e).sReg rn) = false)) ∧
  (∃ (s : State) (e : Nat) (rl : _) (rr : _) (rn : _) (ch : _) (dir : _), (dir < 2) ∧ (s.dev.runs e (isD 0 rl rr rn ch dir)) ∧ (((s.dev.eng e).sReg rl)
    % 64 = 0) ∧ (((s.dev.eng e).sReg rr) % 64 = 0) ∧ (((s.dev.eng e).sReg rn) % 64 = 0) ∧ (64 ≤ ((s.dev.eng e).sReg rn)) ∧ (((s.dev.eng e).sReg rn) ≤
    65536) ∧ (s.dev.remoteOk e (decide (dir = 1)) ((s.dev.eng e).sReg rr) ((s.dev.eng e).sReg rn) = true) ∧ (localOk (s.dev.eng e) (decide (dir = 1))
    ((s.dev.eng e).sReg rl) ((s.dev.eng e).sReg rn) = true) ∧ ((s.dev.eng e).busyCh ch = true ∨ ((s.dev.eng e).xfers.any (fun t => (t.isRead || decide
    (dir = 0)) && decide (t.loc < ((s.dev.eng e).sReg rl) + ((s.dev.eng e).sReg rn) ∧ ((s.dev.eng e).sReg rl) < t.loc + t.len))) = true)) ∧
  (∃ (s : State) (e : Nat) (rl : _) (rr : _) (rn : _) (ch : _) (dir : _), (dir < 2) ∧ (s.dev.runs e (isD 0 rl rr rn ch dir)) ∧ (((s.dev.eng e).sReg rl)
    % 64 = 0) ∧ (((s.dev.eng e).sReg rr) % 64 = 0) ∧ (((s.dev.eng e).sReg rn) % 64 = 0) ∧ (64 ≤ ((s.dev.eng e).sReg rn)) ∧ (((s.dev.eng e).sReg rn) ≤
    65536) ∧ (s.dev.remoteOk e (decide (dir = 1)) ((s.dev.eng e).sReg rr) ((s.dev.eng e).sReg rn) = true) ∧ (localOk (s.dev.eng e) (decide (dir = 1))
    ((s.dev.eng e).sReg rl) ((s.dev.eng e).sReg rn) = true) ∧ ((s.dev.eng e).busyCh ch = false) ∧ (((s.dev.eng e).xfers.any (fun t => (t.isRead ||
    decide (dir = 0)) && decide (t.loc < ((s.dev.eng e).sReg rl) + ((s.dev.eng e).sReg rn) ∧ ((s.dev.eng e).sReg rl) < t.loc + t.len))) = false)) ∧
  (∃ (s : State) (e : Nat) (ch : _) (t : Xfer), ((s.dev.eng e).xfers.find? (fun u => u.ch = ch) = some t) ∧ (t.isRead = false)) ∧
  (∃ (s : State) (e : Nat) (ch : _) (t : Xfer), ((s.dev.eng e).xfers.find? (fun u => u.ch = ch) = some t) ∧ (t.isRead = true) ∧ (s.dev.Canonical) ∧
    (s.dev.bit F.DEV_ENV_STAT_HBM_FAIL = false ∨ 0x4_0000_0000 ≤ t.remote)) ∧
  (∃ (s : State) (e : Nat) (ch : _), (s.dev.runs e (isD 1 0 0 0 ch 0)) ∧ ((s.dev.eng e).busyCh ch = false)) ∧
  (∃ (s : State) (e : Nat) (ch : _), (s.dev.runs e (isD 1 0 0 0 ch 0)) ∧ ((s.dev.eng e).busyCh ch = true)) ∧
  (∃ (s : State) (e : Nat) (rd : _) (ch : _), (s.dev.runs e (isD 2 rd 0 0 ch 0))) :=
  ⟨⟨wit [(F.DEV_STATE_STATE, 2)] (fun dv => dv.setEng 63 (keng 3238614272
    { s := [(8, 0x20), (9, 0x40_0000), (10, 0x80)], p := [(1, 0x5555_FFFF_0000_1234), (2, 0x0F0F), (3, 0x00FF)], v := regsX.v })), 63, 8, 9, 10, 2, 1,
    by decide +kernel, runs_of (by decide +kernel), by decide +kernel⟩,
  ⟨wit [(F.DEV_STATE_STATE, 2)] (fun dv => dv.setEng 63 (keng 3238614272
    { s := [(8, 0x5_0000), (9, 0x40), (10, 0x10040)], p := [(1, 0x5555_FFFF_0000_1234), (2, 0x0F0F), (3, 0x00FF)], v := regsX.v })), 63, 8, 9, 10, 2,
    1, by decide +kernel, runs_of (by decide +kernel), by decide +kernel⟩,
  ⟨wit [(F.DEV_STATE_STATE, 2)] (fun dv => dv.setEng 63 (keng 3238614272
    { s := [(8, 0x5_0000), (9, 0x3_FFFF_FFC0), (10, 0x80)], p := [(1, 0x5555_FFFF_0000_1234), (2, 0x0F0F), (3, 0x00FF)], v := regsX.v })), 63, 8, 9,
    10, 2, 1, by decide +kernel, runs_of (by decide +kernel), by decide +kernel⟩,
  ⟨wit [(F.DEV_STATE_STATE, 2)] (fun dv => dv.setEng 63 (keng 3238614016
    { s := [(8, 0x5_0000), (9, 0x40_0000), (10, 0x80)], p := [(1, 0x5555_FFFF_0000_1234), (2, 0x0F0F), (3, 0x00FF)], v := regsX.v, xfers := [⟨2, true, 0x41_0000, 0x6_0000, 64, []⟩] })),
    63, 8, 9, 10, 2, 0, by decide +kernel, runs_of (by decide +kernel), by decide +kernel⟩,
  ⟨wit [(F.DEV_STATE_STATE, 2)] (fun dv => dv.setEng 63 (keng 3238614016
    { s := [(8, 0x5_0000), (9, 0x40_0000), (10, 0x80)], p := [(1, 0x5555_FFFF_0000_1234), (2, 0x0F0F), (3, 0x00FF)], v := regsX.v, mem := [(0x50003, 9)] })),
    63, 8, 9, 10, 2, 0, by decide +kernel, runs_of (by decide +kernel), by decide +kernel⟩,
  ⟨wit [(F.DEV_STATE_STATE, 2)] (fun dv => dv.setEng 63 { xfers := [(⟨2, false, 0x40_0000, 0x5_0000, 64, List.replicate 64 7⟩)] }), 63, 2, ⟨2, false,
    0x40_0000, 0x5_0000, 64, List.replicate 64 7⟩, by decide +kernel⟩,
  ⟨wit [(F.DEV_STATE_STATE, 2)] (fun dv => ({ dv with mem := [(0x40_0001, 9)] } : Dev).setEng 63
    { xfers := [(⟨3, true, 0x40_0000, 0x5_0000, 64, []⟩)] }), 63, 3, ⟨3, true, 0x40_0000, 0x5_0000, 64, []⟩, by decide +kernel⟩,
  ⟨wit [(F.DEV_STATE_STATE, 2)] (fun dv => dv.setEng 63 (keng 3221226560
    { s := [(8, 0x5_0000), (9, 0x40_0000), (10, 0x80)], p := [(1, 0x5555_FFFF_0000_1234), (2, 0x0F0F), (3, 0x00FF)], v := regsX.v })), 63, 2, runs_of
    (by decide +kernel), by decide +kernel⟩,
  ⟨wit [(F.DEV_STATE_STATE, 2)] (fun dv => dv.setEng 63 (keng 3221226560
    { s := [], p := [(1, 0x5555_FFFF_0000_1234), (2, 0x0F0F), (3, 0x00FF)], v := regsX.v, xfers := [⟨2, true, 0, 0x5_0000, 64, []⟩] })), 63, 2,
    runs_of (by decide +kernel), by decide +kernel⟩,
  ⟨wit [(F.DEV_STATE_STATE, 2)] (fun dv => dv.setEng 63 (keng 3231712384
    { s := [(8, 0x5_0000), (9, 0x40_0000), (10, 0x80)], p := [(1, 0x5555_FFFF_0000_1234), (2, 0x0F0F), (3, 0x00FF)], v := regsX.v })), 63, 5, 2,
    runs_of (by decide +kernel)⟩⟩

theorem wit_DmaAndSystem_2 :
  (∃ (s : State) (e : Nat), (s.dev.runs e (isI 0x38 0 0 0))) ∧
  (∃ (s : State) (e : Nat) (rd : _), (s.dev.runs e (isI 0x38 rd 0 1))) ∧
  (∃ (s : State) (e : Nat) (rd : _), (s.dev.runs e (isI 0x38 rd 0 2))) ∧
  (∃ (s : State) (e : Nat), (s.dev.runs e (isI 0x38 0 0 3))) ∧
  (∃ (s : State) (e : Nat), (s.dev.runs e (isI 0x38 0 0 4))) ∧
  (∃ (s : State) (e : Nat) (id : Nat) (b : CBody) (r1 : _) (r2 : _), (s.dev.runs e (isEmit r1 r2)) ∧ ((s.dev.eng e).body = some id) ∧ (s.dev.bodyOf id =
    some b) ∧ (b.verdict = none) ∧ (s.dev.overdue e = none)) ∧
  (∃ (s : State) (e : Nat) (b : CBody) (i : Instr) (word : Nat → Bool), (s.dev.overdue e = some b) ∧ (b.place = .fetched e) ∧ ((i, word) ∈ [(Instr.brk
    e, isI 0x38 0 0 3), (.abandon e, isI 0x38 0 0 4)]) ∧ (s.dev.runs e word)) ∧
  (∃ (s : State) (e : Nat), (e < 64) ∧ ((s.dev.eng e).body.isSome = true) ∧ (∀ i, (s.dev.eng e).img = some i → i.codeLen ≤ (s.dev.eng e).pc) ∧
    ((s.dev.eng e).retired < (s.dev.eng e).limit * 1024)) ∧
  (∃ (s : State) (e : Nat), (e < 64) ∧ ((s.dev.eng e).body.isSome = true) ∧ (∃ i, (s.dev.eng e).img = some i ∧ (s.dev.eng e).pc < i.codeLen) ∧ (kLegal
    (s.dev.eng e).word = false) ∧ ((s.dev.eng e).retired < (s.dev.eng e).limit * 1024)) ∧
  (∃ (s : State) (e : Nat) (rd : _) (r1 : _) (r2 : _) (i : Instr) (word : Nat → Bool), ((i, word) ∈ [(Instr.add e rd r1 r2, isR 0x000 rd r1 r2), (.brEq
    e r1 r2 rd, isI 0x18 r1 r2 rd), (.ld64 e rd r1 r2, isI 0x10 rd r1 r2), (.st64 e rd r1 r2, isI 0x14 rd r1 r2), (.vadd e rd r1 r2 0 0, isV 0x20 0x00
    rd r1 r2 0 0), (.vfadd e rd r1 r2 0 3, isV 0x21 0x00 rd r1 r2 0 3), (.nopInstruction e, isI 0x38 0 0 0), (.vemit e r1 r2, isEmit r1 r2),
    (.illegalInstruction e, fun w => !kLegal w)]) ∧ (e < 64) ∧ ((s.dev.eng e).body.isSome = true) ∧ (∃ i, (s.dev.eng e).img = some i ∧ (s.dev.eng
    e).pc < i.codeLen) ∧ (word (s.dev.eng e).word = true) ∧ ((s.dev.eng e).limit * 1024 ≤ (s.dev.eng e).retired)) :=
  ⟨⟨wit [(F.DEV_STATE_STATE, 2)] (fun dv => dv.setEng 63 (keng 3758096384
    { s := [(8, 0x5_0000), (9, 0x40_0000), (10, 0x80)], p := [(1, 0x5555_FFFF_0000_1234), (2, 0x0F0F), (3, 0x00FF)], v := regsX.v })), 63, runs_of
    (by decide +kernel)⟩,
  ⟨wit [(F.DEV_STATE_STATE, 2)] (fun dv => dv.setEng 63 (keng 3768582145
    { s := [(8, 0x5_0000), (9, 0x40_0000), (10, 0x80)], p := [(1, 0x5555_FFFF_0000_1234), (2, 0x0F0F), (3, 0x00FF)], v := regsX.v })), 63, 5, runs_of
    (by decide +kernel)⟩,
  ⟨wit [(F.DEV_STATE_STATE, 2)] (fun dv => dv.setEng 63 (keng 3768582146
    { s := [(8, 0x5_0000), (9, 0x40_0000), (10, 0x80)], p := [(1, 0x5555_FFFF_0000_1234), (2, 0x0F0F), (3, 0x00FF)], v := regsX.v })), 63, 5, runs_of
    (by decide +kernel)⟩,
  ⟨wit [(F.DEV_STATE_STATE, 2)] (fun dv => dv.setEng 63 (keng 3758096387
    { s := [(8, 0x5_0000), (9, 0x40_0000), (10, 0x80)], p := [(1, 0x5555_FFFF_0000_1234), (2, 0x0F0F), (3, 0x00FF)], v := regsX.v })), 63, runs_of
    (by decide +kernel)⟩,
  ⟨wit [(F.DEV_STATE_STATE, 2)] (fun dv => dv.setEng 63 (keng 3758096388
    { s := [(8, 0x5_0000), (9, 0x40_0000), (10, 0x80)], p := [(1, 0x5555_FFFF_0000_1234), (2, 0x0F0F), (3, 0x00FF)], v := regsX.v })), 63, runs_of
    (by decide +kernel)⟩,
  ⟨wit [(F.DEV_STATE_STATE, 2)] (fun dv =>
    ({ dv with seg := { dv.seg with bodies := [(⟨7, 0, 0, 1, 100, 50, 200, .fetched 63, none, .none, 0, false, 0, none, 1024, 20, 0, 50, false, none, false⟩)] } }
    : Dev).setEng 63 (keng 4228265984
    { s := [(8, 0x5_0000), (9, 0x40_0000), (10, 0x80)], p := [(1, 0x5555_FFFF_0000_1234), (2, 0x0F0F), (3, 0x00FF)], v := regsX.v })), 63, 7, ⟨7, 0,
    0, 1, 100, 50, 200, .fetched 63, none, .none, 0, false, 0, none, 1024, 20, 0, 50, false, none, false⟩, 6, 7, runs_of (by decide +kernel),
    by decide +kernel⟩,
  ⟨wit [(F.DEV_STATE_STATE, 2)] (fun dv =>
    ({ dv with time := { c := 999999 }, seg := { dv.seg with bodies := [({ id := 7, group := 7, slot := 0, seq := 1, tEj := 9000000, deadline := 999000, retire := 9000000, place := .fetched 63 })] } }
    : Dev).setEng 63 (keng 3758096387 regsX)), 63,
    { id := 7, group := 7, slot := 0, seq := 1, tEj := 9000000, deadline := 999000, retire := 9000000, place := .fetched 63 }, _, _,
    by decide +kernel, by decide +kernel, List.Mem.head _, runs_of (by decide +kernel)⟩,
  ⟨wit [(F.DEV_STATE_STATE, 2)] (fun dv => dv.setEng 0 { (keng 0) with pc := 4 }), 0, by decide +kernel⟩,
  ⟨wit [(F.DEV_STATE_STATE, 2)] (fun dv => dv.setEng 0 (keng 0
    { s := [(8, 0x5_0000), (9, 0x40_0000), (10, 0x80)], p := [(1, 0x5555_FFFF_0000_1234), (2, 0x0F0F), (3, 0x00FF)], v := regsX.v })), 0,
    by decide +kernel⟩,
  ⟨wit [(F.DEV_STATE_STATE, 2)] (fun dv => dv.setEng 63 (keng 78002176
    { s := [], p := [(1, 0x5555_FFFF_0000_1234), (2, 0x0F0F), (3, 0x00FF)], v := regsX.v, retired := 1024, limit := 1 })), 63, 5, 6, 7, _, _,
    List.Mem.head _, by decide +kernel⟩⟩

theorem wit_BankSwaps_1 :
  (∃ (s : State) (v : Nat), ((fun w => v % 2 = 1 ∧ Dev.fieldOf w.timed v = 0 ∧ s.dev.taken w.page w.off ∧ 3 ≤ s.dev.state ∧ s.dev.bit w.pend = false)
    corSwap)) ∧
  (∃ (s : State) (v : Nat), ((fun w => v % 2 = 1 ∧ s.dev.taken w.page w.off ∧ 3 ≤ s.dev.state ∧ s.dev.bit w.pend = true ∧ s.dev.get (F.BLK_ERR_CODE_CODE
    w.page) = 0) corSwap)) ∧
  (∃ (s : State) (v : Nat), ((fun w => v % 2 = 1 ∧ s.dev.state ≤ 2 ∧ s.dev.get (F.BLK_ERR_CODE_CODE w.page) = 0) corSwap)) ∧
  (∃ (s : State) (v : Nat), ((fun w => v % 2 = 1 ∧ Dev.fieldOf w.timed v = 0 ∧ s.dev.taken w.page w.off ∧ 3 ≤ s.dev.state ∧ s.dev.bit w.pend = false)
    geoSwap) ∧ (s.dev.geoCheck (1 - s.dev.get F.GEO_SWAP_ACTIVE) = none)) ∧
  (∃ (s : State) (v : Nat), ((fun w => v % 2 = 1 ∧ s.dev.taken w.page w.off ∧ 3 ≤ s.dev.state ∧ s.dev.bit w.pend = true ∧ s.dev.get (F.BLK_ERR_CODE_CODE
    w.page) = 0) geoSwap)) ∧
  (∃ (s : State) (v : Nat), ((fun w => v % 2 = 1 ∧ s.dev.state ≤ 2 ∧ s.dev.get (F.BLK_ERR_CODE_CODE w.page) = 0) geoSwap)) ∧
  (∃ (s : State) (v : Nat), ((fun w => v % 2 = 1 ∧ Dev.fieldOf w.timed v = 0 ∧ s.dev.taken w.page w.off ∧ 3 ≤ s.dev.state ∧ s.dev.bit w.pend = false)
    specSwap) ∧ (s.dev.specCheck (1 - s.dev.get F.SPEC_SWAP_ACTIVE) = none)) ∧
  (∃ (s : State) (v : Nat), ((fun w => v % 2 = 1 ∧ s.dev.taken w.page w.off ∧ 3 ≤ s.dev.state ∧ s.dev.bit w.pend = true ∧ s.dev.get (F.BLK_ERR_CODE_CODE
    w.page) = 0) specSwap)) ∧
  (∃ (s : State) (v : Nat), ((fun w => v % 2 = 1 ∧ s.dev.state ≤ 2 ∧ s.dev.get (F.BLK_ERR_CODE_CODE w.page) = 0) specSwap)) ∧
  (∃ (s : State) (v : Nat), ((fun w => v % 2 = 1 ∧ Dev.fieldOf w.timed v = 0 ∧ s.dev.taken w.page w.off ∧ 3 ≤ s.dev.state ∧ s.dev.bit w.pend = false)
    dispSwap) ∧ (s.dev.slotNextMissing = false)) :=
  ⟨⟨wit [(F.DEV_STATE_STATE, 3)], 1, by decide +kernel⟩,
  ⟨wit [(F.DEV_STATE_STATE, 3), (corSwap.pend, 1)], 1, by decide +kernel⟩,
  ⟨wit [(F.DEV_STATE_STATE, 2)], 1, by decide +kernel⟩,
  ⟨wit [(F.DEV_STATE_STATE, 3)], 1, by decide +kernel⟩,
  ⟨wit [(F.DEV_STATE_STATE, 3), (geoSwap.pend, 1)], 1, by decide +kernel⟩,
  ⟨wit [(F.DEV_STATE_STATE, 2)], 1, by decide +kernel⟩,
  ⟨wit [(F.DEV_STATE_STATE, 3)], 1, by decide +kernel⟩,
  ⟨wit [(F.DEV_STATE_STATE, 3), (specSwap.pend, 1)], 1, by decide +kernel⟩,
  ⟨wit [(F.DEV_STATE_STATE, 2)], 1, by decide +kernel⟩,
  ⟨wit [(F.DEV_STATE_STATE, 3)], 1, by decide +kernel⟩⟩

theorem wit_BankSwaps_2 :
  (∃ (s : State) (v : Nat), ((fun w => v % 2 = 1 ∧ s.dev.taken w.page w.off ∧ 3 ≤ s.dev.state ∧ s.dev.bit w.pend = true ∧ s.dev.get (F.BLK_ERR_CODE_CODE
    w.page) = 0) dispSwap)) ∧
  (∃ (s : State) (v : Nat), ((fun w => v % 2 = 1 ∧ s.dev.state ≤ 2 ∧ s.dev.get (F.BLK_ERR_CODE_CODE w.page) = 0) dispSwap)) ∧
  (∃ (s : State) (v : Nat), ((fun w => v % 2 = 1 ∧ Dev.fieldOf w.timed v = 0 ∧ s.dev.taken w.page w.off ∧ 3 ≤ s.dev.state ∧ s.dev.bit w.pend = false)
    planSwap) ∧ (s.dev.mapBad (1 - s.dev.get F.PLAN_SWAP_ACTIVE) = none)) ∧
  (∃ (s : State) (v : Nat), ((fun w => v % 2 = 1 ∧ s.dev.taken w.page w.off ∧ 3 ≤ s.dev.state ∧ s.dev.bit w.pend = true ∧ s.dev.get (F.BLK_ERR_CODE_CODE
    w.page) = 0) planSwap)) ∧
  (∃ (s : State) (v : Nat), ((fun w => v % 2 = 1 ∧ s.dev.state ≤ 2 ∧ s.dev.get (F.BLK_ERR_CODE_CODE w.page) = 0) planSwap)) ∧
  (∃ (s : State), ((fun w => s.dev.bit w.pend = true ∧ (s.dev.swapSt w).timed = none) corSwap)) ∧
  (∃ (s : State), ((fun w => s.dev.bit w.pend = true ∧ (s.dev.swapSt w).timed = none) geoSwap)) ∧
  (∃ (s : State), ((fun w => s.dev.bit w.pend = true ∧ (s.dev.swapSt w).timed = none) specSwap)) ∧
  (∃ (s : State), ((fun w => s.dev.bit w.pend = true ∧ (s.dev.swapSt w).timed = none) dispSwap)) ∧
  (∃ (s : State), ((fun w => s.dev.bit w.pend = true ∧ (s.dev.swapSt w).timed = none) planSwap)) :=
  ⟨⟨wit [(F.DEV_STATE_STATE, 3), (dispSwap.pend, 1)], 1, by decide +kernel⟩,
  ⟨wit [(F.DEV_STATE_STATE, 2)], 1, by decide +kernel⟩,
  ⟨wit [(F.DEV_STATE_STATE, 3)], 1, by decide +kernel⟩,
  ⟨wit [(F.DEV_STATE_STATE, 3), (planSwap.pend, 1)], 1, by decide +kernel⟩,
  ⟨wit [(F.DEV_STATE_STATE, 2)], 1, by decide +kernel⟩,
  ⟨wit [(F.DEV_STATE_STATE, 2), (corSwap.pend, 1)], by decide +kernel⟩,
  ⟨wit [(F.DEV_STATE_STATE, 2), (geoSwap.pend, 1)], by decide +kernel⟩,
  ⟨wit [(F.DEV_STATE_STATE, 2), (specSwap.pend, 1)], by decide +kernel⟩,
  ⟨wit [(F.DEV_STATE_STATE, 2), (dispSwap.pend, 1)], by decide +kernel⟩,
  ⟨wit [(F.DEV_STATE_STATE, 2), (planSwap.pend, 1)], by decide +kernel⟩⟩

theorem wit_LineCorrection :
  (∃ (s : State) (slot : RowSlot) (l : PortLine), (s.dev.nextSlot = some slot) ∧ (l ∈ slot.lines)) ∧
  (∃ (s : State) (g : _), (Due.bgAge g ∈ s.dev.due)) ∧
  (∃ (s : State) (g : _), (g < 8) ∧ (s.dev.portsOf g ≠ []) ∧ (s.dev.get F.COR_BG_ZONE_ROWS ≤ (Sparse.get s.dev.zoneRows (0, 0) g).1)) ∧
  (∃ (s : State) (v : _), (s.dev.taken 0x32 0x40) ∧ (v % 2 = 1)) ∧
  (∃ (s : State) (v : _), (s.dev.taken 0x32 0x40) ∧ (v % 2 = 0)) ∧
  (∃ (s : State), (s.dev.nextSlot.isSome = true) ∧ (s.dev.bit F.FOC_CTRL_SNAP = true)) :=
  ⟨⟨wit [(F.DEV_STATE_STATE, 2), (F.CXP_CTRL_GROUP 15, 7), (F.CXP_FORMAT_LINE_LEN 15, 2)] (fun dv =>
    ({ dv with slotsOut := [⟨0, 1, 101, [], false, false, 16⟩, (⟨7, 3, 100, [⟨15, [[5, 6]], [false]⟩], false, false, 16⟩)] } : Dev)), ⟨7, 3, 100,
    [⟨15, [[5, 6]], [false]⟩], false, false, 16⟩, ⟨15, [[5, 6]], [false]⟩, by decide +kernel⟩,
  ⟨wit [(F.DEV_STATE_STATE, 2), (F.CXP_CTRL_GROUP 15, 7), (F.CXP_FORMAT_LINE_LEN 15, 2)] (fun dv => ({ dv with due := [.bgAge 7] } : Dev)), 7,
    by decide +kernel⟩,
  ⟨wit [(F.DEV_STATE_STATE, 2), (F.CXP_CTRL_GROUP 15, 7), (F.COR_BG_ZONE_ROWS, 3)] (fun dv => ({ dv with zoneRows := [(7, (3, 9))] } : Dev)), 7,
    by decide +kernel⟩,
  ⟨wit [(F.DEV_STATE_STATE, 2)], 3, by decide +kernel⟩,
  ⟨wit [(F.DEV_STATE_STATE, 2)], 2, by decide +kernel⟩,
  ⟨wit [(F.DEV_STATE_STATE, 2), (F.FOC_CTRL_SNAP, 1), (F.CXP_CTRL_GROUP 15, 7), (F.CXP_FORMAT_LINE_LEN 15, 2)] (fun dv =>
    ({ dv with slotsOut := [⟨7, 3, 100, [⟨15, [[5, 6]], [false]⟩], false, false, 16⟩], focLive := [(0, (4, 5))] } : Dev)), by decide +kernel⟩⟩

theorem wit_SkyRows :
  (∃ (s : State) (g : _) (k : _), (s.dev.due = [.arClose g k])) ∧
  (∃ (s : State) (g : _) (slot : RowSlot) (rest : List RowSlot) (p : _) (v : Int), (s.dev.corOut = slot :: rest) ∧ (slot.group = g) ∧ (s.dev.arSteps =
    [⟨g, slot.index, [(p, v)]⟩]) ∧ (s.dev.ofsWrites = []) ∧ (p < 16) ∧ (s.dev.arOn = true) ∧ (s.dev.get F.STI_AR_LIM_OFS_LIMIT < 2 ^ 12) ∧ (s.dev.bit
    (F.STI_OFS_LIMIT p) = false) ∧ ((s.dev.getS (F.STI_OFS_OFS p) + v).natAbs ≤ s.dev.get F.STI_AR_LIM_OFS_LIMIT)) ∧
  (∃ (s : State) (g : _) (slot : RowSlot) (rest : List RowSlot) (p : _) (v : Int), (s.dev.corOut = slot :: rest) ∧ (slot.group = g) ∧ (s.dev.arSteps =
    [⟨g, slot.index, [(p, v)]⟩]) ∧ (s.dev.ofsWrites = []) ∧ (s.dev.arOn = false)) ∧
  (∃ (s : State) (p : _) (v : _), (p < 16) ∧ (s.dev.taken 0x34 (0x80 + 4 * p)) ∧ (s.dev.get F.STI_AR_LIM_OFS_LIMIT < (sgn 16 (v % 65536)).natAbs) ∧
    (s.dev.get (F.BLK_ERR_CODE_CODE 0x34) = 0)) ∧
  (∃ (s : State) (p : _) (v : _), (p < 16) ∧ (s.dev.taken 0x34 (0x80 + 4 * p)) ∧ ((sgn 16 (v % 65536)).natAbs ≤ s.dev.get F.STI_AR_LIM_OFS_LIMIT) ∧ (8 ≤
    s.dev.groupOf p)) ∧
  (∃ (s : State) (p : _) (v : _), (p < 16) ∧ (s.dev.taken 0x34 (0x80 + 4 * p)) ∧ ((sgn 16 (v % 65536)).natAbs ≤ s.dev.get F.STI_AR_LIM_OFS_LIMIT) ∧
    (s.dev.groupOf p < 8)) :=
  ⟨⟨wit [(F.DEV_STATE_STATE, 2), (F.CXP_CTRL_GROUP 15, 7), (F.CXP_FORMAT_LINE_LEN 15, 2)] (fun dv => ({ dv with due := [.arClose 7 3] } : Dev)), 7, 3,
    by decide +kernel⟩,
  ⟨wit [(F.DEV_STATE_STATE, 2), (F.CXP_CTRL_GROUP 15, 7), (F.CXP_FORMAT_LINE_LEN 15, 2), (F.STI_AR_LIM_OFS_LIMIT, 12), (F.STI_AR_CTRL_AR_EN, 1)] (fun dv
    => ({ dv with corOut := [(⟨7, 3, 100, [⟨15, [[5, 6]], [false]⟩], false, false, 16⟩)], arSteps := [⟨7, 3, [(15, -12)]⟩] } : Dev)), 7, ⟨7, 3, 100,
    [⟨15, [[5, 6]], [false]⟩], false, false, 16⟩, [], 15, (-12), by decide +kernel⟩,
  ⟨wit [(F.DEV_STATE_STATE, 2), (F.CXP_CTRL_GROUP 15, 7), (F.CXP_FORMAT_LINE_LEN 15, 2), (F.STI_AR_LIM_OFS_LIMIT, 12), (F.STI_AR_CTRL_AR_EN, 0)] (fun dv
    => ({ dv with corOut := [(⟨7, 3, 100, [⟨15, [[5, 6]], [false]⟩], false, false, 16⟩)], arSteps := [⟨7, 3, [(15, -12)]⟩] } : Dev)), 7, ⟨7, 3, 100,
    [⟨15, [[5, 6]], [false]⟩], false, false, 16⟩, [], 15, (-12), by decide +kernel⟩,
  ⟨wit [(F.DEV_STATE_STATE, 2), (F.STI_AR_LIM_OFS_LIMIT, 12)], 15, 0xFFF3, by decide +kernel⟩,
  ⟨wit [(F.DEV_STATE_STATE, 2), (F.STI_AR_LIM_OFS_LIMIT, 12)], 15, 0xFFF4, by decide +kernel⟩,
  ⟨wit [(F.DEV_STATE_STATE, 2), (F.STI_AR_LIM_OFS_LIMIT, 12), (F.CXP_CTRL_GROUP 15, 7)], 15, 12, by decide +kernel⟩⟩

theorem wit_BodiesAndStore :
  (∃ (s : State) (b : Body) (t : Nat) (rest : List (Body × Nat)), (s.dev.seg.closed = (b, t) :: rest)) ∧
  (∃ (s : State) (row : SkyRow) (rest : List SkyRow) (gone : List CBody), (s.dev.skyOut = row :: rest) ∧ (gone = s.dev.seg.bodies.filter (fun b =>
    decide (0 ≤ st40Diff (row.stamp / 65536 % 2 ^ 40) b.retire))) ∧ (gone ≠ [])) ∧
  (∃ (s : State) (v : _), (s.dev.taken 0x37 0x48) ∧ (Dev.fieldOf F.BODY_CTX_LOW_CLR v = 1)) ∧
  (∃ (s : State) (v : _), (s.dev.taken 0x37 0x48) ∧ (Dev.fieldOf F.BODY_CTX_LOW_CLR v = 0)) ∧
  (∃ (s : State) (g : _) (k : _) (stamp : Nat) (v : Dev), ((s.dev.segGroup g).expDue = true) ∧ (∀ b ∈ s.dev.seg.closed, b.1.group ≠ g) ∧ (s.dev.roleOf g
    = 2) ∧ ((s.dev.segGroup g).last = some (k, stamp)) ∧ ((s.dev.segGroup g).openB = []) ∧ (v = s.dev.trajView)) ∧
  (∃ (s : State) (g : _) (u : _), (g < 8) ∧ (u < 8) ∧ (g ≠ u) ∧ (s.dev.sorting = true) ∧ (s.dev.roleOf g = 2) ∧ (s.dev.get (F.TRAJ_GCFG_PARTNER g) = u)) ∧
  (∃ (s : State) (v : _), (s.dev.taken 0x38 0x54) ∧ (Dev.fieldOf F.TRAJ_STORE_PEAK_CLR v = 1)) ∧
  (∃ (s : State) (v : _), (s.dev.taken 0x38 0x54) ∧ (Dev.fieldOf F.TRAJ_STORE_PEAK_CLR v = 0)) :=
  ⟨⟨wit [(F.DEV_STATE_STATE, 5)] (fun dv =>
    ({ dv with seg := { dv.seg with closed := [(({ id := 16384, group := 7, firstIdx := 1, x0 := 4, firstT := 65536, lastIdx := 2, lastT := 131072, xMin := 4, xMax := 6, area := 5, sx := 25, sy := 3, crop := some 3 }), 3)] } }
    : Dev)),
    { id := 16384, group := 7, firstIdx := 1, x0 := 4, firstT := 65536, lastIdx := 2, lastT := 131072, xMin := 4, xMax := 6, area := 5, sx := 25, sy := 3, crop := some 3 },
    3, [], by decide +kernel⟩,
  ⟨wit [(F.DEV_STATE_STATE, 2)] (fun dv =>
    ({ dv with skyOut := [(⟨7, 3, 6553600, false, false, [[5, 6]], [false, false], [0, 0], [], false, 16⟩)], seg := { dv.seg with bodies := ([{ id := 7, group := 7, slot := 0, seq := 1, tEj := 9000000, deadline := 40, retire := 50, place := .resolved }]) } }
    : Dev)), ⟨7, 3, 6553600, false, false, [[5, 6]], [false, false], [0, 0], [], false, 16⟩, [],
    [{ id := 7, group := 7, slot := 0, seq := 1, tEj := 9000000, deadline := 40, retire := 50, place := .resolved }], by decide +kernel⟩,
  ⟨wit [(F.DEV_STATE_STATE, 2)], (2 ^ F.BODY_CTX_LOW_CLR.lsb), by decide +kernel⟩,
  ⟨wit [(F.DEV_STATE_STATE, 2)], (0), by decide +kernel⟩,
  ⟨wit [(F.DEV_STATE_STATE, 2), (F.TRAJ_GCFG_ROLE 7, 2)] (fun dv => dv.setSegGroup 7 { expDue := true, last := some (3, 65536) }), 7, 3, 65536, (wit
    [(F.DEV_STATE_STATE, 2), (F.TRAJ_GCFG_ROLE 7, 2)] (fun dv => dv.setSegGroup 7 { expDue := true, last := some (3, 65536) })).dev.trajView,
    by decide +kernel⟩,
  ⟨wit [(F.DEV_STATE_STATE, 5), (F.TRAJ_GCFG_PARTNER 6, 7), (F.TRAJ_GCFG_ROLE 6, 2), (F.TRAJ_GCFG_PARTNER 6, 7)] (fun dv =>
    ({ dv with seg := { dv.seg with store := [⟨7, 7, 0, 0, 5, 1⟩] } } : Dev)), 6, 7, by decide +kernel⟩,
  ⟨wit [(F.DEV_STATE_STATE, 2)], (2 ^ F.TRAJ_STORE_PEAK_CLR.lsb), by decide +kernel⟩,
  ⟨wit [(F.DEV_STATE_STATE, 2)], (0), by decide +kernel⟩⟩

theorem wit_Dispatch :
  (∃ (s : State) (e : _) (b : CBody), (s.dev.dispatching = true) ∧ (s.dev.nextTake = some (e, b)) ∧ (s.dev.graced b = true ∨ (b.minRun * 1000 : Int) ≤
    s.dev.toDeadline b)) ∧
  (∃ (s : State) (e : _) (b : CBody), (s.dev.dispatching = true) ∧ (s.dev.nextTake = some (e, b)) ∧ (s.dev.graced b = false) ∧ (s.dev.toDeadline b <
    b.minRun * 1000)) ∧
  (∃ (s : State) (e : _) (id : _) (b : CBody), ((s.dev.eng e).fetched = some id) ∧ (s.dev.bodyOf id = some b) ∧ ((s.dev.eng e).ready = false) ∧ (e < 64)
    ∧ ((s.dev.eng e).body.isSome = true)) ∧
  (∃ (s : State) (e : _) (id : _) (b : CBody), ((s.dev.eng e).fetched = some id) ∧ (s.dev.bodyOf id = some b) ∧ ((s.dev.eng e).ready = false) ∧ (e < 64)
    ∧ ((s.dev.eng e).body = none) ∧ (s.dev.inTime id = true)) ∧
  (∃ (s : State) (b : CBody), (Dev.earliest (s.dev.seg.bodies.filter (fun b => b.place ≠ .resolved && !s.dev.graced b && decide (s.dev.toDeadline b <
    0))) = some b)) ∧
  (∃ (s : State) (b : CBody), (Dev.earliest (s.dev.seg.bodies.filter (fun b => b.place ≠ .resolved && s.dev.graced b && decide (s.dev.toDeadline b <
    -(b.grace * 1000 : Nat)))) = some b)) ∧
  (∃ (s : State) (e : _), (e < 64) ∧ (s.dev.taken (engPage e) 0x44)) ∧
  (∃ (s : State) (e : _) (rest : List Nat), (s.dev.engines.ptWait = e :: rest) ∧ (e < 64) ∧ (∀ t, s.dev.engines.ptAt = some t → 2000 ≤ s.dev.elapsed t)) ∧
  (∃ (s : State) (e : _) (rest : List Nat) (t : Nat), (s.dev.engines.ptWait = e :: rest) ∧ (e < 64) ∧ (s.dev.engines.ptAt = some t) ∧ (s.dev.elapsed t <
    2000)) ∧
  (∃ (s : State) (e : _), (e < 64) ∧ (s.dev.offline (engPage e) = true) ∧ (s.dev.bit (F.BLK_CTRL_OFFLINE_REQ (engPage e)) = false) ∧ (s.dev.bit
    (F.ENG_CFG_IMG_VALID e) = true) ∧ (s.dev.bit (F.ENG_STAT_WITHDRAWN e) = false ∨ s.dev.bit (F.ENG_STAT_ST_PASS e) = true)) :=
  ⟨⟨wit [(F.DEV_STATE_STATE, 5), (F.BLK_CTRL_ENABLE dispPage, 1), (F.BLK_CTRL_ENABLE (engPage 63), 1), (F.ENG_CFG_IMG_VALID 63, 1), (F.ENG_CFG_SLOT 63,
    0)] (fun dv =>
    ({ dv with time := { c := 1000000000000 }, seg := { dv.seg with bodies := [({ id := 7, group := 7, slot := 0, seq := 1, tEj := 9000000, deadline := 1000000020000, retire := 50 })] } }
    : Dev)), 63, { id := 7, group := 7, slot := 0, seq := 1, tEj := 9000000, deadline := 1000000020000, retire := 50 }, by decide +kernel⟩,
  ⟨wit [(F.DEV_STATE_STATE, 5), (F.BLK_CTRL_ENABLE dispPage, 1), (F.BLK_CTRL_ENABLE (engPage 63), 1), (F.ENG_CFG_IMG_VALID 63, 1), (F.ENG_CFG_SLOT 63,
    0)] (fun dv =>
    ({ dv with time := { c := 1000000000000 }, seg := { dv.seg with bodies := [({ id := 7, group := 7, slot := 0, seq := 1, tEj := 9000000, deadline := (1000000019999 % 2 ^ 40), retire := 50 })] } }
    : Dev)), 63, { id := 7, group := 7, slot := 0, seq := 1, tEj := 9000000, deadline := (1000000019999 % 2 ^ 40), retire := 50 }, by decide +kernel⟩,
  ⟨wit [(F.DEV_STATE_STATE, 2)] (fun dv =>
    ({ dv with seg := { dv.seg with bodies := [({ id := 7, group := 7, slot := 0, seq := 1, tEj := 9000000, deadline := 1000000020000, retire := 50, place := .fetched 63 })] } }
    : Dev).setEng 63 { fetched := some 7, body := some 9, img := some ⟨0, 128, 4, 0⟩ }), 63, 7,
    { id := 7, group := 7, slot := 0, seq := 1, tEj := 9000000, deadline := 1000000020000, retire := 50, place := .fetched 63 }, by decide +kernel⟩,
  ⟨wit [(F.DEV_STATE_STATE, 2)] (fun dv =>
    ({ dv with time := { c := 1000000000000 }, seg := { dv.seg with bodies := [({ id := 7, group := 7, slot := 0, seq := 1, tEj := 9000000, deadline := 1000000020000, retire := 50, place := .fetched 63 })] } }
    : Dev).setEng 63 { fetched := some 7, img := some ⟨0, 128, 8, 4⟩, s := [(5, 7)] }), 63, 7,
    { id := 7, group := 7, slot := 0, seq := 1, tEj := 9000000, deadline := 1000000020000, retire := 50, place := .fetched 63 }, by decide +kernel⟩,
  ⟨wit [(F.DEV_STATE_STATE, 5)] (fun dv =>
    ({ dv with time := { c := 1000000000000 }, seg := { dv.seg with bodies := [({ id := 7, group := 7, slot := 0, seq := 1, tEj := 9000000, deadline := 999999999999, retire := 50 })] } }
    : Dev)), { id := 7, group := 7, slot := 0, seq := 1, tEj := 9000000, deadline := 999999999999, retire := 50 }, by decide +kernel⟩,
  ⟨wit [(F.DEV_STATE_STATE, 5), (F.TWIN_STAT_ROLE, 2)] (fun dv =>
    ({ dv with time := { c := 1000000000000 }, seg := { dv.seg with bodies := [({ id := 7, group := 7, slot := 0, seq := 1, tEj := 9000000, deadline := 999999949999, retire := 50, grace := 50 })] } }
    : Dev)), { id := 7, group := 7, slot := 0, seq := 1, tEj := 9000000, deadline := 999999949999, retire := 50, grace := 50 }, by decide +kernel⟩,
  ⟨wit [(F.DEV_STATE_STATE, 2)], 63, by decide +kernel⟩,
  ⟨wit [(F.DEV_STATE_STATE, 2), (F.ENG_PT_REQ 63, 2)] (fun dv =>
    ({ dv with time := { c := 1000000000000 }, engines := { dv.engines with ptWait := [63, 3] } } : Dev)), 63, [3], by decide +kernel⟩,
  ⟨wit [(F.DEV_STATE_STATE, 2), (F.ENG_PT_REQ 63, 2)] (fun dv =>
    ({ dv with time := { c := 1999 }, engines := { dv.engines with ptWait := [63, 3], ptAt := some 0 } } : Dev)), 63, [3], 0, by decide +kernel⟩,
  ⟨wit [(F.DEV_STATE_STATE, 2), (F.BLK_STAT_OFFLINE (engPage 63), 1), (F.ENG_CFG_IMG_VALID 63, 1)], 63, by decide +kernel⟩⟩

theorem wit_EngineService :
  (∃ (s : State), (s.dev.executing 0x48 = true) ∧ (s.dev.arg 0 < 64) ∧ (s.dev.arg 1 % 2 = 0) ∧ (s.dev.state = 8)) ∧
  (∃ (s : State), (s.dev.executing 0x48 = true) ∧ (s.dev.arg 0 < 64) ∧ (s.dev.arg 1 % 2 = 0) ∧ (s.dev.state = 5) ∧ (s.dev.offline (engPage (s.dev.arg
    0)) = false)) ∧
  (∃ (s : State), (s.dev.executing 0x49 = true) ∧ (s.dev.imgBad (s.dev.arg 1 + s.dev.arg 2 % 4 * 2 ^ 32) (s.dev.arg 3) = true)) ∧
  (∃ (s : State), (s.dev.executing 0x49 = true) ∧ (s.dev.imgBad (s.dev.arg 1 + s.dev.arg 2 % 4 * 2 ^ 32) (s.dev.arg 3) = false) ∧ (s.dev.imgCheck
    (s.dev.arg 1 + s.dev.arg 2 % 4 * 2 ^ 32) = true) ∧ (s.dev.feat 7 = false) ∧ (s.dev.imgWord (s.dev.arg 1 + s.dev.arg 2 % 4 * 2 ^ 32) 2 % 2 = 0 ∨
    s.dev.feat 6 = true) ∧ (∀ e ∈ s.dev.maskEngines, s.dev.offline (engPage e) = true)) ∧
  (∃ (s : State) (e : _), (e < 64) ∧ (s.dev.enabled (engPage e) = true) ∧ (s.dev.sorting = false)) ∧
  (∃ (s : State) (e : _) (i : Image), (e < 64) ∧ (s.dev.sorting = false) ∧ ((s.dev.eng e).out = true) ∧ ((s.dev.eng e).img = some i) ∧ (s.dev.imgCheck
    i.off = true)) ∧
  (∃ (s : State), (s.dev.sorting = false) ∧ (15 ≤ (s.dev.engines.hbmUe.filter (fun t => decide (s.dev.time.c - t < 1000000000))).length)) ∧
  (∃ (s : State), (s.dev.sorting = false) ∧ ((s.dev.engines.hbmUe.filter (fun t => decide (s.dev.time.c - t < 1000000000))).length < 15)) ∧
  (∃ (s : State) (g : _), (g < 8) ∧ (s.dev.sorting = true) ∧ (s.dev.portsOf g ≠ []) ∧ (s.dev.groupRemote g = false) ∧ (s.dev.viewLost g = false) ∧ (∀ p
    ∈ s.dev.portsOf g, s.dev.portState p = 7 ∧ ∃ t, (s.dev.port p).downAt = some t ∧ s.dev.get F.MODE_CTRL_HALF_MS * 1000000 ≤ s.dev.elapsed t)) :=
  ⟨⟨wit [(F.DEV_STATE_STATE, 8)] (fun dv => ({ dv with cmd := some ⟨0x48, 0, 0, [63, 0, 0, 0, 0, 0, 0, 0], 0⟩ } : Dev)), by decide +kernel⟩,
  ⟨wit [(F.DEV_STATE_STATE, 5)] (fun dv => ({ dv with cmd := some ⟨0x48, 0, 0, [63, 0, 0, 0, 0, 0, 0, 0], 0⟩ } : Dev)), by decide +kernel⟩,
  ⟨wit [(F.DEV_STATE_STATE, 8)] (fun dv => ({ dv with cmd := some ⟨0x49, 0, 0, [0, 0, 0, 128, 0, 0, 0, 0], 0⟩ } : Dev)), by decide +kernel⟩,
  ⟨wit [(F.DEV_STATE_STATE, 4), (F.BLK_STAT_OFFLINE (engPage 63), 1)] (fun dv =>
    ({ dv with accepted := 0x3FFFF7F, cmd := some ⟨0x49, 0, 0, [5, 64, 0, 128, 0, 0x8000_0000, 0, 0], 0⟩, mem := [(64, 75), (65, 82), (66, 86), (67, 49), (69, 1), (76, 4), (92, 210), (93, 100), (94, 112), (95, 181), (131, 224)] }
    : Dev)), by decide +kernel⟩,
  ⟨wit [(F.DEV_STATE_STATE, 2), (F.BLK_CTRL_ENABLE (engPage 63), 1)], 63, by decide +kernel⟩,
  ⟨wit [(F.DEV_STATE_STATE, 2)] (fun dv =>
    ({ dv with mem := [(64, 75), (65, 82), (66, 86), (67, 49), (69, 1), (76, 4), (92, 210), (93, 100), (94, 112), (95, 181), (131, 224)] } :
    Dev).setEng 63 { out := true, img := some (⟨64, 128, 4, 0⟩) }), 63, ⟨64, 128, 4, 0⟩, by decide +kernel⟩,
  ⟨wit [(F.DEV_STATE_STATE, 2)] (fun dv => ({ dv with time := { c := 999999999 }, engines := { dv.engines with hbmUe := List.replicate 15 0 } } : Dev)),
    by decide +kernel⟩,
  ⟨wit [(F.DEV_STATE_STATE, 2)] (fun dv => ({ dv with time := { c := 1000000000 }, engines := { dv.engines with hbmUe := List.replicate 15 0 } } :
    Dev)), by decide +kernel⟩,
  ⟨wit [(F.DEV_STATE_STATE, 5), (F.CXP_CTRL_GROUP 15, 7), (F.BLK_STAT_STATE (cxp 15), 7), (F.MODE_CTRL_HALF_MS, 5)] (fun dv =>
    ({ dv with time := { c := 5000000 } } : Dev).setPort 15 { downAt := some 0 }), 7, by decide +kernel⟩⟩

theorem wit_Planning :
  (∃ (s : State) (id : _) (v : Verdict) (rep : Bool) (rest : List Passing) (b : CBody), (s.dev.plan.passing = ⟨id, v, rep⟩ :: rest) ∧ (s.dev.bodyOf id =
    some b)) ∧
  (∃ (s : State), (s.dev.plan.pressAt = 0 ∨ 10000 ≤ s.dev.elapsed s.dev.plan.pressAt) ∧ (s.dev.pressMeasured = false)) ∧
  (∃ (s : State) (p : Nat), (s.dev.plan.pressAt = 0 ∨ 10000 ≤ s.dev.elapsed s.dev.plan.pressAt) ∧ (s.dev.pressMeasured = true) ∧ (s.dev.testBit
    F.SIG_STALE_STALE (s.dev.get F.PLAN_PRESS_SIG) = false) ∧ (p < 2 ^ 16) ∧ ((p : Int) = s.dev.getS (F.SIG_CH_OUT_OUT (s.dev.get F.PLAN_PRESS_SIG)) *
    s.dev.get F.PLAN_PRESS_GAIN_GAIN / 65536 + s.dev.getS F.PLAN_PRESS_OFS_OFS) ∧ (s.dev.get F.PLAN_PRESS_LIM_P_MIN ≤ p) ∧ (p ≤ s.dev.get
    F.PLAN_PRESS_LIM_P_MAX)) ∧
  (∃ (s : State), (s.dev.plan.pressAt = 0 ∨ 10000 ≤ s.dev.elapsed s.dev.plan.pressAt) ∧ (s.dev.pressMeasured = true) ∧ (s.dev.bit F.PLAN_PRESS_STAT_FAIL
    = false) ∧ (s.dev.testBit F.SIG_STALE_STALE (s.dev.get F.PLAN_PRESS_SIG) = true) ∧ (s.dev.elapsed s.dev.plan.validAt ≤ s.dev.get F.PLAN_PRESS_HOLD
    * 1000000)) ∧
  (∃ (s : State), (s.dev.pressMeasured = true) ∧ (s.dev.bit F.PLAN_PRESS_STAT_FAIL = false) ∧ (s.dev.bit F.PLAN_PRESS_STAT_HOLD = true) ∧ (s.dev.get
    F.PLAN_PRESS_HOLD * 1000000 < s.dev.elapsed s.dev.plan.validAt)) ∧
  (∃ (s : State) (n : _) (t : _), (n < 2) ∧ (Sparse.find? s.dev.plan.divertAt n = some t) ∧ (s.dev.get (F.PLAN_DIVERT_HOLD n) * 1000000 ≤ s.dev.elapsed
    t)) :=
  ⟨⟨wit [(F.DEV_STATE_STATE, 5), (F.BLK_CTRL_ENABLE 0x80, 1)] (fun dv =>
    ({ dv with plan := { dv.plan with passing := [⟨7, ⟨1, 2⟩, false⟩] }, seg := { dv.seg with bodies := [({ id := 7, group := 7, slot := 0, seq := 1, tEj := 9000000, deadline := 8000000, retire := 50, place := .resolved, verdict := some ⟨1, 2⟩, entry := .orphan })] } }
    : Dev)), 7, ⟨1, 2⟩, false, [],
    { id := 7, group := 7, slot := 0, seq := 1, tEj := 9000000, deadline := 8000000, retire := 50, place := .resolved, verdict := some ⟨1, 2⟩, entry := .orphan },
    by decide +kernel⟩,
  ⟨wit [(F.DEV_STATE_STATE, 2)], by decide +kernel⟩,
  ⟨wit [(F.DEV_STATE_STATE, 2), (F.SIG_STALE_STALE, 7), (F.PLAN_CTRL_PCOMP_EN, 1), (F.PLAN_PRESS_SIG, 3), (F.PLAN_PRESS_OFS_OFS, 410),
    (F.PLAN_PRESS_LIM_P_MIN, 410), (F.PLAN_PRESS_LIM_P_MAX, 410)], 410, by decide +kernel⟩,
  ⟨wit [(F.DEV_STATE_STATE, 2), (F.SIG_STALE_STALE, 8), (F.PLAN_CTRL_PCOMP_EN, 1), (F.PLAN_PRESS_SIG, 3), (F.PLAN_PRESS_HOLD, 100)] (fun dv =>
    ({ dv with time := { c := 100000 }, plan := { dv.plan with validAt := 5, lastP := 77 } } : Dev)), by decide +kernel⟩,
  ⟨wit [(F.DEV_STATE_STATE, 2), (F.PLAN_PRESS_STAT_HOLD, 1), (F.PLAN_CTRL_PCOMP_EN, 1), (F.PLAN_PRESS_HOLD, 100)] (fun dv =>
    ({ dv with time := { c := 100000001 } } : Dev)), by decide +kernel⟩,
  ⟨wit [(F.DEV_STATE_STATE, 2), (F.PLAN_DIVERT_HOLD 1, 20), (F.PLAN_DIVERT_ASSERTED 1, 1)] (fun dv =>
    ({ dv with plan := { dv.plan with divertAt := [(1, 0)] }, time := { c := 20000000 } } : Dev)), 1, 0, by decide +kernel⟩⟩

theorem wit_MeteorPort_1 :
  (∃ (s : State) (n : Nat), (n < 8) ∧ (s.dev.metRuns n = true) ∧ (s.dev.metFeedback = true) ∧ (s.dev.beaconDue n = true) ∧ (s.dev.boot.extest = none) ∧
    ((s.dev.metPort n).beacons = [])) ∧
  (∃ (s : State) (n : Nat) (k : _) (v : _) (rest : List (Nat × Nat × Nat)), (n < 8) ∧ (s.dev.metRuns n = true) ∧ (s.dev.metFeedback = true) ∧
    (s.dev.beaconDue n = true) ∧ (s.dev.boot.extest = none) ∧ (k < 4) ∧ ((s.dev.metPort n).beacons = (2, k, v) :: rest)) ∧
  (∃ (s : State) (n : Nat) (p : Pulse), (n < 8) ∧ (s.dev.metRuns n = true) ∧ (s.dev.firable n = some p) ∧ (s.dev.guardCut p = p.e) ∧ (p.f < p.e) ∧
    (s.dev.slotDt n + 360 ≤ p.f - p.lead * 1000)) ∧
  (∃ (s : State) (n : Nat) (p : Pulse), (n < 8) ∧ (s.dev.metRuns n = true) ∧ (s.dev.firable n = some p) ∧ (s.dev.guardCut p = p.e) ∧ (p.f < p.e) ∧ (p.f
    - 20000 ≤ s.dev.slotDt n + 360) ∧ (p.f - p.lead * 1000 < s.dev.slotDt n + 360)) ∧
  (∃ (s : State) (n : Nat) (c : Flight), (n < 8) ∧ (s.dev.metRuns n = true) ∧ (s.dev.nextCancel n = some c) ∧ (s.dev.beaconBars n (s.dev.metCopies n) =
    false)) ∧
  (∃ (s : State) (n : Nat) (k : _), (n < 8) ∧ (s.dev.metRuns n = true) ∧ (k < 4) ∧ (s.dev.metRepeats n = false) ∧ ((s.dev.metModule n k).ranging = true)
    ∧ ((s.dev.metModule n k).rangeT1 = none) ∧ (s.dev.boot.extest = none)) ∧
  (∃ (s : State) (n : Nat) (b : List Nat), (n < 8) ∧ (s.dev.metRuns n = true) ∧ (s.dev.bit (F.MET_LINK_RX_LOCK n) = true) ∧ (s.dev.metFeedback = true) ∧
    (frameOk b = true) ∧ (b.getD 0 0 / 8 = 9) ∧ (b.getD 1 0 < 64) ∧ (s.dev.modState n 0 = 1) ∧ (s.dev.get (F.MET_CFG_MODULES n) = 0) ∧
    ((s.dev.metModule n 0).ranging = true) ∧ ((s.dev.metModule n 0).rangeT1.isSome = true) ∧ ((s.dev.metModule n 0).values.length = 15)) ∧
  (∃ (s : State) (n : Nat), (n < 8) ∧ (s.dev.metRuns n = true) ∧ (s.dev.metRepeats n = false) ∧ (s.dev.get (F.MET_RANGE_PERIOD n) ≠ 0) ∧ (s.dev.get
    (F.MET_RANGE_PERIOD n) * 1000000 ≤ s.dev.elapsed (s.dev.metPort n).rangeAt)) ∧
  (∃ (s : State) (n : Nat) (b : List Nat), (n < 8) ∧ (s.dev.metRuns n = true) ∧ (s.dev.bit (F.MET_LINK_RX_LOCK n) = true) ∧ (s.dev.metFeedback = true) ∧
    (frameOk b = true) ∧ (b.getD 0 0 / 16 = 4) ∧ (b.getD 1 0 < 256)) ∧
  (∃ (s : State) (n : Nat) (b : List Nat), (n < 8) ∧ (s.dev.metRuns n = true) ∧ (s.dev.bit (F.MET_LINK_RX_LOCK n) = true) ∧ (frameOk b = false)) :=
  ⟨⟨wit [(F.DEV_STATE_STATE, 2), (F.MET_LINK_TX_ON 7, 1), (F.BLK_STAT_STATE (metPage 7), 3)], 7, by decide +kernel⟩,
  ⟨wit [(F.DEV_STATE_STATE, 2), (F.MET_LINK_TX_ON 7, 1), (F.BLK_STAT_STATE (metPage 7), 3)] (fun dv => dv.setMetPort 7 { beacons := [(2, 3, 70000)] }),
    7, 3, 70000, [], by decide +kernel⟩,
  ⟨wit [(F.DEV_STATE_STATE, 2), (F.MET_LINK_TX_ON 7, 1), (F.BLK_STAT_STATE (metPage 7), 3), (F.MET_TX_EARLY 7, 20), (F.PLAN_GUARD_ON_HARD, 1)] (fun dv
    => ({ dv with time := { c := 1000000000000 } } : Dev).setMetPort 7
    { pend := [(⟨450, 1000000010360, 1000000011360, 10, 400, false, 1000000010360, [⟨7, 1000000010360, 1000000011360⟩], false, 0, 0, 0⟩)], beaconAt := some 999999999000 }),
    7, ⟨450, 1000000010360, 1000000011360, 10, 400, false, 1000000010360, [⟨7, 1000000010360, 1000000011360⟩], false, 0, 0, 0⟩, by decide +kernel⟩,
  ⟨wit [(F.DEV_STATE_STATE, 2), (F.MET_LINK_TX_ON 7, 1), (F.BLK_STAT_STATE (metPage 7), 3), (F.MET_TX_EARLY 7, 20), (F.PLAN_GUARD_ON_HARD, 1)] (fun dv
    => ({ dv with time := { c := 1000000000000 } } : Dev).setMetPort 7
    { pend := [(⟨450, 1000000020360, 1000000021360, 21, 400, false, 1000000020360, [⟨7, 1000000020360, 1000000021360⟩], false, 0, 0, 0⟩)], beaconAt := some 999999999000 }),
    7, ⟨450, 1000000020360, 1000000021360, 21, 400, false, 1000000020360, [⟨7, 1000000020360, 1000000021360⟩], false, 0, 0, 0⟩, by decide +kernel⟩,
  ⟨wit [(F.DEV_STATE_STATE, 2), (F.MET_LINK_TX_ON 7, 1), (F.BLK_STAT_STATE (metPage 7), 3)] (fun dv => ({ dv with time := { c := 1000000000000 } } :
    Dev).setMetPort 7 { cancels := [(⟨3, 5, List.replicate 16 1, true, 1000000050000, false, 0, 1⟩)], beaconAt := some 999999999000 }), 7, ⟨3, 5,
    List.replicate 16 1, true, 1000000050000, false, 0, 1⟩, by decide +kernel⟩,
  ⟨wit [(F.DEV_STATE_STATE, 2), (F.MET_LINK_TX_ON 7, 1), (F.BLK_STAT_STATE (metPage 7), 3)] (fun dv => dv.setMetModule 7 3 { ranging := true }), 7, 3,
    by decide +kernel⟩,
  ⟨wit [(F.DEV_STATE_STATE, 2), (F.MET_LINK_TX_ON 7, 1), (F.BLK_STAT_STATE (metPage 7), 3), (F.MET_LINK_RX_LOCK 7, 1), (F.MET_MOD_STAT_STATE 7 0, 1),
    (F.MET_CFG_MODULES 7, 0)] (fun dv => dv.setMetModule 7 0 { ranging := true, rangeT1 := some 3, values := List.replicate 15 100 }), 7, (frame16
    [0x48, 0, 1, 2, 3, 4, 5, 6, 7, 8, 0, 0, 0, 0]), by decide +kernel⟩,
  ⟨wit [(F.DEV_STATE_STATE, 2), (F.MET_LINK_TX_ON 7, 1), (F.BLK_STAT_STATE (metPage 7), 3), (F.MET_RANGE_PERIOD 7, 7), (F.MET_CFG_MODULES 7, 1),
    (F.MET_MOD_STAT_STATE 7 1, 2)] (fun dv => ({ dv with time := { c := 7000000 } } : Dev)), 7, by decide +kernel⟩,
  ⟨wit [(F.DEV_STATE_STATE, 2), (F.MET_LINK_TX_ON 7, 1), (F.BLK_STAT_STATE (metPage 7), 3), (F.MET_LINK_RX_LOCK 7, 1)], 7, (frame16 [0x40, 0xC0, 1, 2,
    0, 0, 0, 0, 0, 0, 0, 0, 0, 0]), by decide +kernel⟩,
  ⟨wit [(F.DEV_STATE_STATE, 2), (F.MET_LINK_TX_ON 7, 1), (F.BLK_STAT_STATE (metPage 7), 3), (F.MET_LINK_RX_LOCK 7, 1)], 7, [0x40, 0xC0],
    by decide +kernel⟩⟩

theorem wit_MeteorPort_2 :
  (∃ (s : State) (n : Nat) (b : List Nat), (n < 8) ∧ (s.dev.metRuns n = true) ∧ (s.dev.bit (F.MET_LINK_RX_LOCK n) = true) ∧ (s.dev.metFeedback = true) ∧
    (frameOk b = true) ∧ (b.getD 0 0 / 16 = 5) ∧ ((s.dev.metPort n).sent = [])) ∧
  (∃ (s : State) (n : Nat) (k : _) (f : Flight), (n < 8) ∧ (s.dev.metRuns n = true) ∧ (k < 4) ∧ (s.dev.metRepeats n = false) ∧ ((s.dev.metPort
    n).flights = [f]) ∧ (f.module = k) ∧ (s.dev.slotDt n ≤ f.f - 20000) ∧ (s.dev.now < f.f - 20000) ∧ (s.dev.nextCancel n = none) ∧ (s.dev.beaconBars
    n 1 = false) ∧ (s.dev.get (F.MET_CFG_ACK_TO n) * 1000 ≤ s.dev.elapsed f.sentAt) ∧ (f.retries < s.dev.get (F.MET_CFG_RETRY_MAX n))) ∧
  (∃ (s : State) (n : Nat) (k : _) (f : Flight), (n < 8) ∧ (s.dev.metRuns n = true) ∧ (k < 4) ∧ (s.dev.metRepeats n = false) ∧ ((s.dev.metPort
    n).flights = [f]) ∧ (f.module = k) ∧ (f.fire = true) ∧ (f.f - 20000 ≤ s.dev.now)) ∧
  (∃ (s : State) (n : Nat) (k : _), (n < 8) ∧ (s.dev.metRuns n = true) ∧ (k < 4) ∧ (s.dev.metFeedback = true) ∧ (s.dev.modState n k = 1 ∨ s.dev.modState
    n k = 2) ∧ ((s.dev.metModule n k).exhausted = true)) ∧
  (∃ (s : State) (n : Nat), (n < 8) ∧ (s.dev.metRuns n = true) ∧ (s.dev.bit (F.MET_LINK_RX_LOCK n) = true) ∧ (s.dev.metFeedback = true) ∧ (2 ≤
    s.dev.metState n) ∧ (s.dev.metState n ≤ 4)) ∧
  (∃ (s : State) (n : Nat), (n < 8) ∧ (s.dev.metRuns n = true) ∧ (s.dev.bit (F.MET_LINK_RX_LOCK n) = false) ∧ (s.dev.metState n = 5)) ∧
  (∃ (s : State) (n : Nat), (n < 8) ∧ (s.dev.metRuns n = true) ∧ ((s.dev.metPort n).timedOut = false) ∧ (50000000 ≤ s.dev.elapsed (s.dev.metPort
    n).since) ∧ (s.dev.get (F.BLK_ERR_CODE_CODE (metPage n)) = 0)) ∧
  (∃ (s : State) (n : Nat), (n < 8) ∧ (s.dev.metRuns n = true) ∧ (s.dev.bit (F.BLK_CTRL_OFFLINE_REQ (metPage n)) = true) ∧ (s.dev.offline (metPage n) =
    false) ∧ ((s.dev.metPort n).pend = []) ∧ ((s.dev.metPort n).sent = [])) :=
  ⟨⟨wit [(F.DEV_STATE_STATE, 2), (F.MET_LINK_TX_ON 7, 1), (F.BLK_STAT_STATE (metPage 7), 3), (F.MET_LINK_RX_LOCK 7, 1)], 7, (frame16 [0x50, 0xC3, 1, 2,
    0, 0, 0, 0, 0, 0, 0, 0, 0, 0]), by decide +kernel⟩,
  ⟨wit [(F.DEV_STATE_STATE, 2), (F.MET_LINK_TX_ON 7, 1), (F.BLK_STAT_STATE (metPage 7), 3), (F.MET_CFG_ACK_TO 7, 50), (F.MET_CFG_RETRY_MAX 7, 2)] (fun
    dv => ({ dv with time := { c := 1000000000000 } } : Dev).setMetPort 7
    { flights := [(⟨3, 5, List.replicate 16 1, true, 1000000050000, false, 0, 1⟩)], beaconAt := some 999999999000 }), 7, 3, ⟨3, 5, List.replicate 16
    1, true, 1000000050000, false, 0, 1⟩, by decide +kernel⟩,
  ⟨wit [(F.DEV_STATE_STATE, 2), (F.MET_LINK_TX_ON 7, 1), (F.BLK_STAT_STATE (metPage 7), 3), (F.MET_CFG_ACK_TO 7, 50), (F.MET_CFG_RETRY_MAX 7, 2)] (fun
    dv => ({ dv with time := { c := 1000000000000 } } : Dev).setMetPort 7
    { flights := [(⟨3, 5, List.replicate 16 1, true, 1000000020000, false, 0, 1⟩)], beaconAt := some 999999999000 }), 7, 3, ⟨3, 5, List.replicate 16
    1, true, 1000000020000, false, 0, 1⟩, by decide +kernel⟩,
  ⟨wit [(F.DEV_STATE_STATE, 2), (F.MET_LINK_TX_ON 7, 1), (F.BLK_STAT_STATE (metPage 7), 3), (F.MET_MOD_STAT_STATE 7 3, 2)] (fun dv => dv.setMetModule 7
    3 { exhausted := true }), 7, 3, by decide +kernel⟩,
  ⟨wit [(F.DEV_STATE_STATE, 2), (F.MET_LINK_TX_ON 7, 1), (F.BLK_STAT_STATE (metPage 7), 2), (F.MET_LINK_RX_LOCK 7, 1)], 7, by decide +kernel⟩,
  ⟨wit [(F.DEV_STATE_STATE, 2), (F.MET_LINK_TX_ON 7, 1), (F.BLK_STAT_STATE (metPage 7), 5)], 7, by decide +kernel⟩,
  ⟨wit [(F.DEV_STATE_STATE, 2), (F.MET_LINK_TX_ON 7, 1), (F.BLK_STAT_STATE (metPage 7), 3)] (fun dv => ({ dv with time := { c := 1000000000000 } } :
    Dev)), 7, by decide +kernel⟩,
  ⟨wit [(F.DEV_STATE_STATE, 2), (F.MET_LINK_TX_ON 7, 1), (F.BLK_STAT_STATE (metPage 7), 3), (F.BLK_CTRL_OFFLINE_REQ (metPage 7), 1)], 7,
    by decide +kernel⟩⟩

theorem wit_EjectorModule_1 :
  (∃ (n : Nat) (k : Nat) (l : Nat) (b : List Nat), (n < 8) ∧ (k < 4) ∧ (l < 2) ∧ (frameOk b = false)) ∧
  (∃ (n : Nat) (k : Nat) (l : Nat) (b : List Nat) (stay : _), (n < 8) ∧ (k < 4) ∧ (l < 2) ∧ (frameOk b = true) ∧ (b.getD 0 0 / 8 = 9) ∧ (frameNum b 9 3
    + stay < 2 ^ 24)) ∧
  (∃ (n : Nat) (k : Nat) (l : Nat) (b : List Nat), (n < 8) ∧ (k < 4) ∧ (l < 2) ∧ (frameOk b = true) ∧ (b.getD 0 0 / 8 = 8 ∨ b.getD 0 0 / 16 = 5)) ∧
  (∃ (s : State) (n : Nat) (k : Nat) (l : Nat) (b : List Nat) (rated : Nat) (fitted : Nat), (n < 8) ∧ (k < 4) ∧ (l < 2) ∧ (frameOk b = true) ∧ (b.getD 1
    0 / 64 = k) ∧ (b.getD 0 0 / 16 = 1) ∧ (((frameNum b 2 2 + 65536 - (modLink (s.dev.module n k) l).h) % 65536) = 1) ∧ ((modLink (s.dev.module n k)
    l).table = []) ∧ ((modLink (s.dev.module n k) l).tombs = []) ∧ (40000 ≤ ahead4 (s.dev.module n k) s.dev.time.c (frameNum b 4 5)) ∧ (ahead4
    (s.dev.module n k) s.dev.time.c (frameNum b 4 5) ≤ 80000000) ∧ (b.getD 1 0 % 64 ≤ (fitted + 63) % 64) ∧ (1 ≤ (frameNum b 9 3)) ∧ ((frameNum b 9 3)
    ≤ rated) ∧ ((frameNum b 9 3) ≤ 5000000)) ∧
  (∃ (s : State) (n : Nat) (k : Nat) (l : Nat) (b : List Nat), (n < 8) ∧ (k < 4) ∧ (l < 2) ∧ (frameOk b = true) ∧ (b.getD 1 0 / 64 = k) ∧ (b.getD 0 0 /
    16 = 1) ∧ (frameNum b 2 2 = (modLink (s.dev.module n k) l).h) ∧ ((modLink (s.dev.module n k) l).map % 2 = 1)) ∧
  (∃ (s : State) (n : Nat) (k : Nat) (l : Nat) (b : List Nat), (n < 8) ∧ (k < 4) ∧ (l < 2) ∧ (frameOk b = true) ∧ (b.getD 1 0 / 64 = k) ∧ (b.getD 0 0 /
    16 = 1) ∧ (((frameNum b 2 2 + 65536 - (modLink (s.dev.module n k) l).h) % 65536) = 1) ∧ ((modLink (s.dev.module n k) l).table = []) ∧ (ahead4
    (s.dev.module n k) s.dev.time.c (frameNum b 4 5) ≤ 0)) ∧
  (∃ (n : Nat) (k : Nat) (l : Nat) (b : List Nat), (n < 8) ∧ (k < 4) ∧ (l < 2) ∧ (frameOk b = true) ∧ (b.getD 0 0 / 16 = 3)) ∧
  (∃ (s : State) (n : Nat) (k : Nat) (l : Nat) (v : Nat), (n < 8) ∧ (k < 4) ∧ ((s.dev.module n k).owner = some l) ∧ (((modLink (s.dev.module n k)
    l).table.find? (fun p => p.valve = v && !p.active && covers (s.dev.module n k) s.dev.time.c p && decide (-80 ≤ ahead4 (s.dev.module n k)
    s.dev.time.c p.f))) = none)) ∧
  (∃ (s : State) (n : Nat) (k : Nat) (l : Nat) (v : Nat) (p : ModPulse) (t : Nat), (n < 8) ∧ (k < 4) ∧ ((s.dev.module n k).owner = some l) ∧ (((modLink
    (s.dev.module n k) l).table.find? (fun p => p.valve = v && !p.active && covers (s.dev.module n k) s.dev.time.c p && decide (-80 ≤ ahead4
    (s.dev.module n k) s.dev.time.c p.f))) = some p) ∧ (timeLock (modLink (s.dev.module n k) l) = true) ∧ ((s.dev.module n k).drives = []) ∧ ((modLink
    (s.dev.module n k) l).beaconAt = some t) ∧ (s.dev.time.c - t < 1000000)) ∧
  (∃ (s : State) (n : Nat) (k : Nat) (l : Nat) (v : Nat) (p : ModPulse) (t : Nat), (n < 8) ∧ (k < 4) ∧ ((s.dev.module n k).owner = some l) ∧ (((modLink
    (s.dev.module n k) l).table.find? (fun p => p.valve = v && !p.active && covers (s.dev.module n k) s.dev.time.c p && decide (-80 ≤ ahead4
    (s.dev.module n k) s.dev.time.c p.f))) = some p) ∧ (timeLock (modLink (s.dev.module n k) l) = true) ∧ ((s.dev.module n k).drives = []) ∧ ((modLink
    (s.dev.module n k) l).beaconAt = some t) ∧ (1000000 ≤ s.dev.time.c - t)) :=
  ⟨⟨7, 3, 1, [1, 2], by decide +kernel⟩,
  ⟨7, 2, 1, (frame16 [0x48, 0xC0, 1, 2, 3, 4, 5, 6, 7, 8, 0, 0, 0, 0]), 5, by decide +kernel⟩,
  ⟨7, 2, 1, (frame16 [0x40, 0x80, 1, 2, 3, 4, 5, 6, 7, 8, 0, 0, 0, 0]), by decide +kernel⟩,
  ⟨wit [(F.DEV_STATE_STATE, 2)] (fun dv => ({ dv with time := { c := 1000 } } : Dev)), 7, 3, 1, (frame16 [0x10, 0xFF, 1, 0, 248, 42, 0, 0, 0, 244, 1, 0,
    0, 0]), 500, 64, by decide +kernel⟩,
  ⟨wit [(F.DEV_STATE_STATE, 2)] (fun dv => ({ dv with time := { c := 1000 } } : Dev).setModule 7 3 (setModLink {} 1 { h := 1, map := 1 })), 7, 3, 1,
    (frame16 [0x10, 0xFF, 1, 0, 248, 42, 0, 0, 0, 244, 1, 0, 0, 0]), by decide +kernel⟩,
  ⟨wit [(F.DEV_STATE_STATE, 2)] (fun dv => ({ dv with time := { c := 1000 } } : Dev)), 7, 3, 1, (frame16 [0x10, 0xFF, 1, 0, 232, 3, 0, 0, 0, 244, 1, 0,
    0, 0]), by decide +kernel⟩,
  ⟨7, 3, 1, (frame16 [0x32, 0xFF, 188, 2, 5, 0, 0, 0, 0, 6, 0, 0, 0, 0]), by decide +kernel⟩,
  ⟨wit [(F.DEV_STATE_STATE, 2)] (fun dv => dv.setModule 7 3 { owner := some 1 }), 7, 3, 1, 5, by decide +kernel⟩,
  ⟨wit [(F.DEV_STATE_STATE, 2)] (fun dv => ({ dv with time := { c := 1000 } } : Dev).setModule 7 3 (setModLink { owner := some 1 } 1
    { table := [(⟨63, 1000, 2000, false, false⟩)], beacons := 3, claim := true, beaconAt := some 900 })), 7, 3, 1, 63, ⟨63, 1000, 2000, false, false⟩,
    900, by decide +kernel⟩,
  ⟨wit [(F.DEV_STATE_STATE, 2)] (fun dv => ({ dv with time := { c := 1001000 } } : Dev).setModule 7 3 (setModLink { owner := some 1 } 1
    { table := [(⟨63, 1001000, 1002000, false, false⟩)], beacons := 3, claim := true, beaconAt := some 1000 })), 7, 3, 1, 63, ⟨63, 1001000, 1002000,
    false, false⟩, 1000, by decide +kernel⟩⟩

theorem wit_EjectorModule_2 :
  (∃ (s : State) (n : Nat) (k : Nat) (l : Nat) (p : ModPulse), (n < 8) ∧ (k < 4) ∧ ((s.dev.module n k).owner = some l) ∧ ((modLink (s.dev.module n k)
    l).table = [p]) ∧ (p.active = true) ∧ (ahead4 (s.dev.module n k) s.dev.time.c p.e ≤ 0)) ∧
  (∃ (s : State) (n : Nat) (k : Nat) (v : Nat) (t : SeatDue), (n < 8) ∧ (k < 4) ∧ ((s.dev.module n k).seats.find? (fun t => t.valve = v) = some t) ∧
    ((modLink (s.dev.module n k) ((s.dev.module n k).owner.getD 0)).turn = none) ∧ (10000000 ≤ s.dev.time.c - t.openAt)) ∧
  (∃ (s : State) (n : Nat) (k : Nat) (v : Nat) (t : SeatDue) (u : Nat), (n < 8) ∧ (k < 4) ∧ ((s.dev.module n k).seats.find? (fun t => t.valve = v) =
    some t) ∧ ((modLink (s.dev.module n k) ((s.dev.module n k).owner.getD 0)).turn = some u)) ∧
  (∃ (s : State) (n : Nat) (k : Nat) (l : Nat) (t : Nat), (n < 8) ∧ (k < 4) ∧ (l < 2) ∧ ((modLink (s.dev.module n k) l).beaconAt = some t) ∧ (1000000 ≤
    s.dev.time.c - t)) ∧
  (∃ (s : State) (n : Nat) (k : Nat) (l : Nat), (n < 8) ∧ (k < 4) ∧ (l < 2) ∧ (((modLink (s.dev.module n k) l).dirty = true ∧ 2000 ≤ s.dev.time.c -
    (modLink (s.dev.module n k) l).statusAt) ∨ 100000 ≤ s.dev.time.c - (modLink (s.dev.module n k) l).statusAt)) ∧
  (∃ (s : State) (n : Nat) (k : Nat) (v : Nat) (rated : Nat) (t : Nat), (n < 8) ∧ (k < 4) ∧ (⟨v, t⟩ ∈ (s.dev.module n k).drives) ∧ (10 * rated ≤
    s.dev.time.c - t)) :=
  ⟨⟨wit [(F.DEV_STATE_STATE, 2)] (fun dv => ({ dv with time := { c := 2000 } } : Dev).setModule 7 3 (setModLink
    { owner := some 1, drives := [⟨63, 1000⟩] } 1 { table := [(⟨63, 1000, 2000, false, true⟩)], beacons := 3, claim := true, beaconAt := some 900 })),
    7, 3, 1, ⟨63, 1000, 2000, false, true⟩, by decide +kernel⟩,
  ⟨wit [(F.DEV_STATE_STATE, 2)] (fun dv => ({ dv with time := { c := 10001000 } } : Dev).setModule 7 3 { seats := [(⟨63, 1000, 1000⟩)] }), 7, 3, 63,
    ⟨63, 1000, 1000⟩, by decide +kernel⟩,
  ⟨wit [(F.DEV_STATE_STATE, 2)] (fun dv => ({ dv with time := { c := 2000 } } : Dev).setModule 7 3 (setModLink { seats := [(⟨63, 1000, 1000⟩)] } 0
    { turn := some 1900 })), 7, 3, 63, ⟨63, 1000, 1000⟩, 1900, by decide +kernel⟩,
  ⟨wit [(F.DEV_STATE_STATE, 2)] (fun dv => ({ dv with time := { c := 1001000 } } : Dev).setModule 7 3 (setModLink {} 1 { beaconAt := some 1000 })), 7,
    3, 1, 1000, by decide +kernel⟩,
  ⟨wit [(F.DEV_STATE_STATE, 2)] (fun dv => ({ dv with time := { c := 100000 } } : Dev).setModule 7 3 (setModLink {} 1 { waiting := [[1, 2], [3, 4]] })),
    7, 3, 1, by decide +kernel⟩,
  ⟨wit [(F.DEV_STATE_STATE, 2)] (fun dv => ({ dv with time := { c := 6000 } } : Dev).setModule 7 3 { drives := [⟨63, 1000⟩] }), 7, 3, 63, 500, 1000,
    by decide +kernel⟩⟩

theorem wit_MotionChannels_1 :
  (∃ (s : State) (n : Nat) (a : Bool) (b : Bool), (n < 4) ∧ (s.dev.motRuns n = true) ∧ (s.dev.isSsi n = false) ∧ ((fun (q : QuadIn) => q.raw = q.level ∧
    q.run = 0) (s.dev.mot n).b) ∧ ((fun (q : QuadIn) => q.raw = q.level ∧ q.run = 0) (s.dev.mot n).z) ∧ (s.dev.bit (F.MOT_CH_CFG_METHOD n) = false) ∧
    ((fun (q : QuadIn) => q.raw = q.level ∧ q.run = 0) (s.dev.mot n).a) ∧ (a ≠ (s.dev.mot n).a.level → (s.dev.mot n).a.at_ + (s.dev.get
    (F.MOT_CH_CFG_MIN_EDGE n)) ≤ s.dev.time.c) ∧ (b ≠ (s.dev.mot n).b.level → (s.dev.mot n).b.at_ + (s.dev.get (F.MOT_CH_CFG_MIN_EDGE n)) ≤
    s.dev.time.c) ∧ (((fun (a b : Bool) => (quadPhase a b + 4 - quadPhase (s.dev.mot n).a.level (s.dev.mot n).b.level) % 4) a b) = 0)) ∧
  (∃ (s : State) (n : Nat) (a : Bool) (b : Bool), (n < 4) ∧ (s.dev.motRuns n = true) ∧ (s.dev.isSsi n = false) ∧ ((fun (q : QuadIn) => q.raw = q.level ∧
    q.run = 0) (s.dev.mot n).b) ∧ ((fun (q : QuadIn) => q.raw = q.level ∧ q.run = 0) (s.dev.mot n).z) ∧ (s.dev.bit (F.MOT_CH_CFG_METHOD n) = false) ∧
    ((fun (q : QuadIn) => q.raw = q.level ∧ q.run = 0) (s.dev.mot n).a) ∧ (a ≠ (s.dev.mot n).a.level → (s.dev.mot n).a.at_ + (s.dev.get
    (F.MOT_CH_CFG_MIN_EDGE n)) ≤ s.dev.time.c) ∧ (b ≠ (s.dev.mot n).b.level → (s.dev.mot n).b.at_ + (s.dev.get (F.MOT_CH_CFG_MIN_EDGE n)) ≤
    s.dev.time.c) ∧ (((fun (a b : Bool) => (quadPhase a b + 4 - quadPhase (s.dev.mot n).a.level (s.dev.mot n).b.level) % 4) a b) = 2)) ∧
  (∃ (s : State) (n : Nat) (a : Bool) (b : Bool), (n < 4) ∧ (s.dev.motRuns n = true) ∧ (s.dev.isSsi n = false) ∧ ((fun (q : QuadIn) => q.raw = q.level ∧
    q.run = 0) (s.dev.mot n).b) ∧ ((fun (q : QuadIn) => q.raw = q.level ∧ q.run = 0) (s.dev.mot n).z) ∧ (s.dev.bit (F.MOT_CH_CFG_METHOD n) = false) ∧
    ((fun (q : QuadIn) => q.raw = q.level ∧ q.run = 0) (s.dev.mot n).a) ∧ (a ≠ (s.dev.mot n).a.level → (s.dev.mot n).a.at_ + (s.dev.get
    (F.MOT_CH_CFG_MIN_EDGE n)) ≤ s.dev.time.c) ∧ (b ≠ (s.dev.mot n).b.level → (s.dev.mot n).b.at_ + (s.dev.get (F.MOT_CH_CFG_MIN_EDGE n)) ≤
    s.dev.time.c) ∧ (((fun (a b : Bool) => (quadPhase a b + 4 - quadPhase (s.dev.mot n).a.level (s.dev.mot n).b.level) % 4) a b) = 1 ∨ ((fun (a b :
    Bool) => (quadPhase a b + 4 - quadPhase (s.dev.mot n).a.level (s.dev.mot n).b.level) % 4) a b) = 3)) ∧
  (∃ (s : State) (n : Nat), (n < 4) ∧ (s.dev.motRuns n = true) ∧ (s.dev.isSsi n = false) ∧ ((fun (q : QuadIn) => q.raw = q.level ∧ q.run = 0) (s.dev.mot
    n).b) ∧ ((fun (q : QuadIn) => q.raw = q.level ∧ q.run = 0) (s.dev.mot n).z) ∧ (s.dev.bit (F.MOT_CH_CFG_METHOD n) = false) ∧ ((fun (q : QuadIn) =>
    q.raw = q.level ∧ q.run = 0) (s.dev.mot n).a) ∧ (s.dev.time.c < (s.dev.mot n).a.at_ + (s.dev.get (F.MOT_CH_CFG_MIN_EDGE n)))) ∧
  (∃ (s : State) (n : Nat), (n < 4) ∧ (s.dev.motRuns n = true) ∧ (s.dev.isSsi n = false) ∧ ((fun (q : QuadIn) => q.raw = q.level ∧ q.run = 0) (s.dev.mot
    n).b) ∧ ((fun (q : QuadIn) => q.raw = q.level ∧ q.run = 0) (s.dev.mot n).z) ∧ (s.dev.bit (F.MOT_CH_CFG_METHOD n) = false) ∧ ((s.dev.mot n).a.raw ≠
    (s.dev.mot n).a.level) ∧ ((s.dev.mot n).a.at_ + (s.dev.get (F.MOT_CH_CFG_MIN_EDGE n)) ≤ s.dev.time.c + 1) ∧ (s.pending = [])) ∧
  (∃ (s : State) (n : Nat), (n < 4) ∧ (s.dev.motRuns n = true) ∧ (s.dev.isSsi n = false) ∧ ((fun (q : QuadIn) => q.raw = q.level ∧ q.run = 0) (s.dev.mot
    n).b) ∧ ((fun (q : QuadIn) => q.raw = q.level ∧ q.run = 0) (s.dev.mot n).z) ∧ (s.dev.bit (F.MOT_CH_CFG_METHOD n) = true) ∧ (2 ≤ s.dev.get
    (F.MOT_CH_CFG_N_STAB n)) ∧ ((fun (q : QuadIn) => q.raw = q.level ∧ q.run = 0) (s.dev.mot n).a)) ∧
  (∃ (s : State) (n : Nat), (n < 4) ∧ (s.dev.motRuns n = true) ∧ (s.dev.isSsi n = false) ∧ ((fun (q : QuadIn) => q.raw = q.level ∧ q.run = 0) (s.dev.mot
    n).b) ∧ ((fun (q : QuadIn) => q.raw = q.level ∧ q.run = 0) (s.dev.mot n).z) ∧ (s.dev.bit (F.MOT_CH_CFG_METHOD n) = true) ∧ (2 ≤ s.dev.get
    (F.MOT_CH_CFG_N_STAB n)) ∧ ((s.dev.mot n).a.raw ≠ (s.dev.mot n).a.level) ∧ (s.dev.time.c % (2 ^ s.dev.get (F.MOT_CH_CFG_PRESCALE n)) = 0) ∧
    (s.pending = []) ∧ (s.dev.get (F.MOT_CH_CFG_N_STAB n) ≤ (s.dev.mot n).a.run + 1 ∧ (s.dev.time.c + 1) % (2 ^ s.dev.get (F.MOT_CH_CFG_PRESCALE n)) =
    0)) ∧
  (∃ (s : State) (n : Nat), (n < 4) ∧ (s.dev.motRuns n = true) ∧ (s.dev.isSsi n = false) ∧ ((fun (q : QuadIn) => q.raw = q.level ∧ q.run = 0) (s.dev.mot
    n).b) ∧ ((fun (q : QuadIn) => q.raw = q.level ∧ q.run = 0) (s.dev.mot n).z) ∧ (s.dev.bit (F.MOT_CH_CFG_METHOD n) = true) ∧ (2 ≤ s.dev.get
    (F.MOT_CH_CFG_N_STAB n)) ∧ ((s.dev.mot n).a.raw ≠ (s.dev.mot n).a.level) ∧ (s.dev.time.c % (2 ^ s.dev.get (F.MOT_CH_CFG_PRESCALE n)) = 0) ∧
    (s.pending = []) ∧ (¬ (s.dev.get (F.MOT_CH_CFG_N_STAB n) ≤ (s.dev.mot n).a.run + 1 ∧ (s.dev.time.c + 1) % (2 ^ s.dev.get (F.MOT_CH_CFG_PRESCALE
    n)) = 0))) ∧
  (∃ (s : State) (n : Nat), (n < 4) ∧ (s.dev.motRuns n = true) ∧ (s.dev.isSsi n = false) ∧ ((fun (q : QuadIn) => q.raw = q.level ∧ q.run = 0) (s.dev.mot
    n).b) ∧ ((fun (q : QuadIn) => q.raw = q.level ∧ q.run = 0) (s.dev.mot n).z) ∧ (s.dev.bit (F.MOT_CH_CFG_METHOD n) = true) ∧ (2 ≤ s.dev.get
    (F.MOT_CH_CFG_N_STAB n)) ∧ ((s.dev.mot n).a.raw = (s.dev.mot n).a.level) ∧ (0 < (s.dev.mot n).a.run) ∧ (s.dev.time.c % (2 ^ s.dev.get
    (F.MOT_CH_CFG_PRESCALE n)) = 0) ∧ (s.pending = [])) ∧
  (∃ (s : State) (n : Nat), (n < 4) ∧ (s.dev.motRuns n = true) ∧ (s.dev.isSsi n = false) ∧ (s.dev.get (F.MOT_CH_CFG_Z_MODE n) = 1) ∧ (s.dev.bit
    (F.MOT_CH_CFG_METHOD n) = false) ∧ ((fun (q : QuadIn) => q.raw = q.level ∧ q.run = 0) (s.dev.mot n).a) ∧ ((fun (q : QuadIn) => q.raw = q.level ∧
    q.run = 0) (s.dev.mot n).b) ∧ ((s.dev.mot n).z.raw = false) ∧ ((s.dev.mot n).z.level = false) ∧ ((s.dev.mot n).z.at_ + (s.dev.get
    (F.MOT_CH_CFG_MIN_EDGE n)) ≤ s.dev.time.c)) :=
  ⟨⟨wit [(F.DEV_STATE_STATE, 2), (F.MOT_CH_CFG_EN 3, 1), (F.BLK_CTRL_ENABLE 15, 1)] (fun dv => ({ dv with time := { c := 1000 } } : Dev)), 3, false,
    false, by decide +kernel⟩,
  ⟨wit [(F.DEV_STATE_STATE, 2), (F.MOT_CH_CFG_EN 3, 1), (F.BLK_CTRL_ENABLE 15, 1)] (fun dv => ({ dv with time := { c := 1000 } } : Dev)), 3, true, true,
    by decide +kernel⟩,
  ⟨wit [(F.DEV_STATE_STATE, 2), (F.MOT_CH_CFG_EN 3, 1), (F.BLK_CTRL_ENABLE 15, 1)] (fun dv => ({ dv with time := { c := 1000 } } : Dev)), 3, true,
    false, by decide +kernel⟩,
  ⟨wit [(F.DEV_STATE_STATE, 2), (F.MOT_CH_CFG_EN 3, 1), (F.BLK_CTRL_ENABLE 15, 1), (F.MOT_CH_CFG_MIN_EDGE 3, 20)] (fun dv =>
    ({ dv with time := { c := 1000 } } : Dev).setMot 3 { a := { at_ := 990 } }), 3, by decide +kernel⟩,
  ⟨wit [(F.DEV_STATE_STATE, 2), (F.MOT_CH_CFG_EN 3, 1), (F.BLK_CTRL_ENABLE 15, 1), (F.MOT_CH_CFG_MIN_EDGE 3, 20)] (fun dv =>
    ({ dv with time := { c := 1000 } } : Dev).setMot 3 { a := { raw := true, at_ := 981, dt := 995 } }), 3, by decide +kernel⟩,
  ⟨wit [(F.DEV_STATE_STATE, 2), (F.MOT_CH_CFG_EN 3, 1), (F.BLK_CTRL_ENABLE 15, 1), (F.MOT_CH_CFG_METHOD 3, 1), (F.MOT_CH_CFG_N_STAB 3, 4),
    (F.MOT_CH_CFG_PRESCALE 3, 3)] (fun dv => ({ dv with time := { c := 1000 } } : Dev)), 3, by decide +kernel⟩,
  ⟨wit [(F.DEV_STATE_STATE, 2), (F.MOT_CH_CFG_EN 3, 1), (F.BLK_CTRL_ENABLE 15, 1), (F.MOT_CH_CFG_METHOD 3, 1), (F.MOT_CH_CFG_N_STAB 3, 4),
    (F.MOT_CH_CFG_PRESCALE 3, 0)] (fun dv => ({ dv with time := { c := 1000 } } : Dev).setMot 3 { a := { raw := true, run := 3, dt := 995 } }), 3,
    by decide +kernel⟩,
  ⟨wit [(F.DEV_STATE_STATE, 2), (F.MOT_CH_CFG_EN 3, 1), (F.BLK_CTRL_ENABLE 15, 1), (F.MOT_CH_CFG_METHOD 3, 1), (F.MOT_CH_CFG_N_STAB 3, 4),
    (F.MOT_CH_CFG_PRESCALE 3, 3)] (fun dv => ({ dv with time := { c := 1000 } } : Dev).setMot 3 { a := { raw := true, run := 2, dt := 995 } }), 3,
    by decide +kernel⟩,
  ⟨wit [(F.DEV_STATE_STATE, 2), (F.MOT_CH_CFG_EN 3, 1), (F.BLK_CTRL_ENABLE 15, 1), (F.MOT_CH_CFG_METHOD 3, 1), (F.MOT_CH_CFG_N_STAB 3, 4),
    (F.MOT_CH_CFG_PRESCALE 3, 3)] (fun dv => ({ dv with time := { c := 1000 } } : Dev).setMot 3 { a := { run := 2, dt := 995 } }), 3,
    by decide +kernel⟩,
  ⟨wit [(F.DEV_STATE_STATE, 2), (F.MOT_CH_CFG_EN 3, 1), (F.BLK_CTRL_ENABLE 15, 1), (F.MOT_CH_CFG_Z_MODE 3, 1)] (fun dv =>
    ({ dv with time := { c := 1000 } } : Dev)), 3, by decide +kernel⟩⟩

theorem wit_MotionChannels_2 :
  (∃ (s : State) (n : Nat) (t : Nat) (raw : Nat) (par : Bool), (n < 4) ∧ (s.dev.motRuns n = true) ∧ (s.dev.isSsi n = true) ∧ ((s.dev.mot n).ssiOpen =
    true) ∧ ((s.dev.mot n).ssiAt = some t) ∧ (s.dev.ssiFrame n ≤ (s.dev.elapsed t)) ∧ (s.dev.bit (F.MOT_CH_SSI_PARITY n) = true) ∧ ((popCount
    (s.dev.get (F.MOT_CH_SSI_BITS n)) (raw % 2 ^ (s.dev.get (F.MOT_CH_SSI_BITS n))) + if par then 1 else 0) % 2 = 1)) ∧
  (∃ (s : State) (n : Nat) (t : Nat), (n < 4) ∧ (s.dev.motRuns n = true) ∧ (s.dev.isSsi n = true) ∧ ((s.dev.mot n).ssiOpen = true) ∧ ((s.dev.mot
    n).ssiAt = some t) ∧ (s.dev.ssiFrame n ≤ (s.dev.elapsed t)) ∧ (s.dev.bit (F.MOT_CH_SSI_GRAY n) = false) ∧ (s.dev.bit (F.MOT_CH_SSI_PARITY n) =
    false) ∧ (s.dev.bit (F.MOT_CH_STAT_LOST n) = false) ∧ ((s.dev.mot n).value = none)) ∧
  (∃ (s : State) (n : Nat) (t : Nat) (raw : Nat) (p : Nat), (n < 4) ∧ (s.dev.motRuns n = true) ∧ (s.dev.isSsi n = true) ∧ ((s.dev.mot n).ssiOpen = true)
    ∧ ((s.dev.mot n).ssiAt = some t) ∧ (s.dev.ssiFrame n ≤ (s.dev.elapsed t)) ∧ (s.dev.bit (F.MOT_CH_SSI_GRAY n) = false) ∧ (s.dev.bit
    (F.MOT_CH_SSI_PARITY n) = false) ∧ (s.dev.bit (F.MOT_CH_STAT_LOST n) = false) ∧ ((s.dev.mot n).value = some p) ∧ (s.dev.get
    (F.MOT_CH_SSI3_MAX_JUMP n) < (sgn (s.dev.get (F.MOT_CH_SSI_BITS n)) (((raw % 2 ^ (s.dev.get (F.MOT_CH_SSI_BITS n))) + 2 ^ (s.dev.get
    (F.MOT_CH_SSI_BITS n)) - p) % 2 ^ (s.dev.get (F.MOT_CH_SSI_BITS n)))).natAbs)) ∧
  (∃ (s : State) (n : Nat) (t : Nat) (raw : Nat) (p : Nat), (n < 4) ∧ (s.dev.motRuns n = true) ∧ (s.dev.isSsi n = true) ∧ ((s.dev.mot n).ssiOpen = true)
    ∧ ((s.dev.mot n).ssiAt = some t) ∧ (s.dev.ssiFrame n ≤ (s.dev.elapsed t)) ∧ (s.dev.bit (F.MOT_CH_SSI_GRAY n) = false) ∧ (s.dev.bit
    (F.MOT_CH_SSI_PARITY n) = false) ∧ (s.dev.bit (F.MOT_CH_STAT_LOST n) = false) ∧ ((s.dev.mot n).value = some p) ∧ ((sgn (s.dev.get
    (F.MOT_CH_SSI_BITS n)) (((raw % 2 ^ (s.dev.get (F.MOT_CH_SSI_BITS n))) + 2 ^ (s.dev.get (F.MOT_CH_SSI_BITS n)) - p) % 2 ^ (s.dev.get
    (F.MOT_CH_SSI_BITS n)))).natAbs ≤ s.dev.get (F.MOT_CH_SSI3_MAX_JUMP n))) ∧
  (∃ (s : State) (n : Nat), (n < 4) ∧ (s.dev.motRuns n = true) ∧ (1000 ≤ s.dev.elapsed (s.dev.mot n).obsAt) ∧ (s.dev.bit (F.MOT_CH_STAT_STILL n) =
    true)) ∧
  (∃ (s : State) (n : Nat), (n < 4) ∧ (s.dev.motRuns n = true) ∧ (1000 ≤ s.dev.elapsed (s.dev.mot n).obsAt) ∧ (s.dev.bit (F.MOT_CH_STAT_STILL n) =
    false)) ∧
  (∃ (s : State) (n : Nat), (n < 4) ∧ (s.dev.motRuns n = true) ∧ (s.dev.bit (F.MOT_CH_STAT_STILL n) = false) ∧ (s.dev.get (F.MOT_CH_OBS_STILL n) * 1000
    ≤ s.dev.elapsed (s.dev.mot n).countAt)) ∧
  (∃ (s : State) (n : Nat), (n < 4) ∧ (s.dev.bit (F.MOT_CH_STAT_SETTLING n) = true) ∧ (10 ^ 9 ≤ s.dev.elapsed (s.dev.mot n).settleAt * s.dev.get
    (F.MOT_CH_OBS_BW n))) ∧
  (∃ (s : State) (n : Nat) (v : Nat), (n < 4) ∧ (s.dev.taken 15 (0x100 + 0x40 * n)) ∧ (1 ≤ Dev.fieldOf (F.MOT_CH_CFG_MIN_EDGE n) v) ∧ (2 ≤ Dev.fieldOf
    (F.MOT_CH_CFG_N_STAB n) v) ∧ (Dev.fieldOf (F.MOT_CH_CFG_Z_MODE n) v ≠ 3) ∧ (∀ f ∈ [F.MOT_CH_CFG_MIN_EDGE n, F.MOT_CH_CFG_N_STAB n,
    F.MOT_CH_CFG_PRESCALE n, F.MOT_CH_CFG_METHOD n, F.MOT_CH_CFG_INVERT n, F.MOT_CH_CFG_Z_MODE n, F.MOT_CH_CFG_KIND n], Dev.fieldOf f v = s.dev.get f)
    ∧ (v % 2 = 1) ∧ (s.dev.bit (F.MOT_CH_CFG_EN n) = false) ∧ (s.dev.enabled 15 = true) ∧ (s.dev.offline 15 = false) ∧ (s.dev.bit
    (F.BLK_CTRL_OFFLINE_REQ 15) = false)) ∧
  (∃ (s : State) (n : Nat) (v : Nat), (n < 4) ∧ (s.dev.taken 15 (0x100 + 0x40 * n)) ∧ (1 ≤ Dev.fieldOf (F.MOT_CH_CFG_MIN_EDGE n) v) ∧ (2 ≤ Dev.fieldOf
    (F.MOT_CH_CFG_N_STAB n) v) ∧ (Dev.fieldOf (F.MOT_CH_CFG_Z_MODE n) v ≠ 3) ∧ (∀ f ∈ [F.MOT_CH_CFG_MIN_EDGE n, F.MOT_CH_CFG_N_STAB n,
    F.MOT_CH_CFG_PRESCALE n, F.MOT_CH_CFG_METHOD n, F.MOT_CH_CFG_INVERT n, F.MOT_CH_CFG_Z_MODE n, F.MOT_CH_CFG_KIND n], Dev.fieldOf f v = s.dev.get f)
    ∧ (v % 2 = 0)) :=
  ⟨⟨wit [(F.DEV_STATE_STATE, 2), (F.MOT_CH_CFG_EN 3, 1), (F.BLK_CTRL_ENABLE 15, 1), (F.MOT_CH_CFG_KIND 3, 1), (F.MOT_CH_SSI_PARITY 3, 1),
    (F.MOT_CH_SSI_BITS 3, 25), (F.MOT_CH_SSI_GRAY 3, 0)] (fun dv => ({ dv with time := { c := 1000000 } } : Dev).setMot 3
    { ssiOpen := true, ssiAt := some 7, ssiDt := 77 }), 3, 7, 100, false, by decide +kernel⟩,
  ⟨wit [(F.DEV_STATE_STATE, 2), (F.MOT_CH_CFG_EN 3, 1), (F.BLK_CTRL_ENABLE 15, 1), (F.MOT_CH_CFG_KIND 3, 1), (F.MOT_CH_SSI_GRAY 3, 0),
    (F.MOT_CH_SSI_BITS 3, 25)] (fun dv => ({ dv with time := { c := 1000000 } } : Dev).setMot 3 { ssiOpen := true, ssiAt := some 7, ssiDt := 77 }), 3,
    7, by decide +kernel⟩,
  ⟨wit [(F.DEV_STATE_STATE, 2), (F.MOT_CH_CFG_EN 3, 1), (F.BLK_CTRL_ENABLE 15, 1), (F.MOT_CH_CFG_KIND 3, 1), (F.MOT_CH_SSI_GRAY 3, 0),
    (F.MOT_CH_SSI_BITS 3, 25), (F.MOT_CH_SSI3_MAX_JUMP 3, 99)] (fun dv => ({ dv with time := { c := 1000000 } } : Dev).setMot 3
    { ssiOpen := true, ssiAt := some 7, ssiDt := 77, value := some 0 }), 3, 7, 100, 0, by decide +kernel⟩,
  ⟨wit [(F.DEV_STATE_STATE, 2), (F.MOT_CH_CFG_EN 3, 1), (F.BLK_CTRL_ENABLE 15, 1), (F.MOT_CH_CFG_KIND 3, 1), (F.MOT_CH_SSI_GRAY 3, 0),
    (F.MOT_CH_SSI_BITS 3, 25), (F.MOT_CH_SSI3_MAX_JUMP 3, 100)] (fun dv => ({ dv with time := { c := 1000000 } } : Dev).setMot 3
    { ssiOpen := true, ssiAt := some 7, ssiDt := 77, value := some 0 }), 3, 7, 100, 0, by decide +kernel⟩,
  ⟨wit [(F.DEV_STATE_STATE, 2), (F.MOT_CH_CFG_EN 3, 1), (F.BLK_CTRL_ENABLE 15, 1), (F.MOT_CH_STAT_STILL 3, 1)] (fun dv =>
    ({ dv with time := { c := 1000000000000 } } : Dev).setMot 3 { pHat := 65536, vHat := 100 }), 3, by decide +kernel⟩,
  ⟨wit [(F.DEV_STATE_STATE, 2), (F.MOT_CH_CFG_EN 3, 1), (F.BLK_CTRL_ENABLE 15, 1)] (fun dv => ({ dv with time := { c := 1000000000000 } } : Dev).setMot
    3 { pHat := 65536, vHat := 100, pos := 3 }), 3, by decide +kernel⟩,
  ⟨wit [(F.DEV_STATE_STATE, 2), (F.MOT_CH_CFG_EN 3, 1), (F.BLK_CTRL_ENABLE 15, 1), (F.MOT_CH_OBS_STILL 3, 1000)] (fun dv =>
    ({ dv with time := { c := 1000000 } } : Dev)), 3, by decide +kernel⟩,
  ⟨wit [(F.DEV_STATE_STATE, 2), (F.MOT_CH_STAT_SETTLING 3, 1), (F.MOT_CH_OBS_BW 3, 1000)] (fun dv => ({ dv with time := { c := 1000000 } } : Dev)), 3,
    by decide +kernel⟩,
  ⟨wit [(F.DEV_STATE_STATE, 2), (F.BLK_CTRL_ENABLE 15, 1)], 3, 0x1440_0001, by decide +kernel⟩,
  ⟨wit [(F.DEV_STATE_STATE, 2), (F.MOT_CH_CFG_EN 3, 1)], 3, 0x1440_0000, by decide +kernel⟩⟩

theorem wit_MotionChannels_3 :
  (∃ (s : State) (n : Nat) (c : Nat) (v : Nat), (n < 4) ∧ (c < 8) ∧ (s.dev.taken 15 (0x200 + 0x20 * c)) ∧ (Dev.fieldOf (F.MOT_CMP_CTRL_DIR c) v = 3) ∧
    (s.dev.get (F.BLK_ERR_CODE_CODE 15) = 0)) ∧
  (∃ (s : State) (n : Nat) (c : Nat) (v : Nat), (n < 4) ∧ (c < 8) ∧ (s.dev.taken 15 (0x200 + 0x20 * c)) ∧ (Dev.fieldOf (F.MOT_CMP_CTRL_DIR c) v ≠ 3) ∧
    (s.dev.bit (F.MOT_CMP_CTRL_ARM c) = false) ∧ (Dev.fieldOf (F.MOT_CMP_CTRL_PAST c) v = 0)) :=
  ⟨⟨wit [(F.DEV_STATE_STATE, 2)], 3, 7, 0xD, by decide +kernel⟩,
  ⟨wit [(F.DEV_STATE_STATE, 2)], 3, 7, 0x5, by decide +kernel⟩⟩

theorem wit_SignalChain :
  (∃ (s : State) (n : Nat), (n < 16) ∧ (s.dev.sigRuns n = true) ∧ (s.dev.testing 0x0D = false) ∧ (s.dev.get (F.SIG_CH_CFG_PHASE n) = 0) ∧ ((s.dev.sig
    n).phase = []) ∧ ((s.dev.sig n).cnt + 1 < 2 ^ s.dev.sigK n)) ∧
  (∃ (s : State) (n : Nat) (y0 : Int) (y1 : Int) (rest : List (Int × Int)), (n < 16) ∧ ((s.dev.sig n).ready = (y0, y1) :: rest) ∧ (s.dev.sigRuns n =
    true) ∧ (s.dev.bit (F.SIG_CH_XF_FADING n) = false) ∧ (s.dev.staleWanted n = false)) ∧
  (∃ (s : State) (n : Nat) (v : _), (n < 16) ∧ (s.dev.taken 0x0D (0x104 + 0x20 * n)) ∧ (Dev.fieldOf (F.SIG_CH_XF_GO n) v = 1) ∧ (s.dev.bit
    (F.SIG_CH_XF_FADING n) = false) ∧ (s.dev.bit (F.SIG_CH_CFG_EN n) = true)) ∧
  (∃ (s : State) (n : Nat) (v : _), (n < 16) ∧ (s.dev.taken 0x0D (0x104 + 0x20 * n)) ∧ (Dev.fieldOf (F.SIG_CH_XF_GO n) v = 1) ∧ (s.dev.bit
    (F.SIG_CH_XF_FADING n) = false) ∧ (s.dev.bit (F.SIG_CH_CFG_EN n) = false)) ∧
  (∃ (s : State) (n : Nat) (v : _), (n < 16) ∧ (s.dev.taken 0x0D (0x100 + 0x20 * n)) ∧ (s.dev.bit (F.SIG_CH_CFG_EN n) = false) ∧ (Dev.fieldOf
    (F.SIG_CH_CFG_EN n) v = 1) ∧ (Dev.fieldOf (F.SIG_CH_CFG_DEC1 n) v ≤ 4) ∧ (Dev.fieldOf (F.SIG_CH_CFG_RANK n) v ≠ 3) ∧ (s.dev.get (F.SIG_MCLK_DIV
    (Dev.fieldOf (F.SIG_CH_CFG_MCLK_SEL n) v)) ≠ 0) ∧ (s.dev.enabled 0x0D = true) ∧ (s.dev.offline 0x0D = false) ∧ (s.dev.bit (F.BLK_CTRL_OFFLINE_REQ
    0x0D) = false)) ∧
  (∃ (s : State) (n : Nat) (v : _), (n < 16) ∧ (s.dev.taken 0x0D (0x100 + 0x20 * n)) ∧ (s.dev.bit (F.SIG_CH_CFG_EN n) = false) ∧ (Dev.fieldOf
    (F.SIG_CH_CFG_EN n) v = 1) ∧ (Dev.fieldOf (F.SIG_CH_CFG_DEC1 n) v ≤ 4) ∧ (Dev.fieldOf (F.SIG_CH_CFG_RANK n) v ≠ 3) ∧ (s.dev.get (F.SIG_MCLK_DIV
    (Dev.fieldOf (F.SIG_CH_CFG_MCLK_SEL n) v)) = 0) ∧ (s.dev.get (F.BLK_ERR_CODE_CODE 0x0D) = 0)) ∧
  (∃ (s : State) (n : Nat), (n < 16) ∧ (s.dev.sigRuns n = true) ∧ (s.dev.bit (F.SIG_CH_STAT_SETTLING n) = true) ∧ (2 * s.dev.gdFine n * s.dev.sigDiv n ≤
    s.dev.elapsed (s.dev.sig n).settleAt)) ∧
  (∃ (s : State) (n : Nat), (n < 16) ∧ (s.dev.sigRuns n = true) ∧ (s.dev.bit (F.SIG_CH_STAT_STUCK n) = false) ∧ (256 ≤ (s.dev.sig n).same)) ∧
  (∃ (s : State) (n : Nat), (n < 16) ∧ (s.dev.sigRuns n = true) ∧ (s.dev.bit (F.SIG_CH_STAT_STUCK n) = true) ∧ (16 ≤ (s.dev.sig n).changes)) :=
  ⟨⟨wit [(F.DEV_STATE_STATE, 2), (F.SIG_CH_CFG_EN 15, 1), (F.BLK_CTRL_ENABLE 13, 1)], 15, by decide +kernel⟩,
  ⟨wit [(F.DEV_STATE_STATE, 2), (F.SIG_CH_CFG_EN 15, 1), (F.BLK_CTRL_ENABLE 13, 1)] (fun dv => dv.setSig 15 { ready := [(-5, 9)] }), 15, (-5), 9, [],
    by decide +kernel⟩,
  ⟨wit [(F.DEV_STATE_STATE, 2), (F.SIG_CH_CFG_EN 15, 1)], 15, 2 ^ (F.SIG_CH_XF_GO 15).lsb, by decide +kernel⟩,
  ⟨wit [(F.DEV_STATE_STATE, 2)], 15, 2 ^ (F.SIG_CH_XF_GO 15).lsb, by decide +kernel⟩,
  ⟨wit [(F.DEV_STATE_STATE, 2), (F.SIG_MCLK_DIV (Dev.fieldOf (F.SIG_CH_CFG_MCLK_SEL 15) ((2 ^ 31 + 3 * 2 ^ 29 + 4 * 2 ^ 26))), 1), (F.BLK_CTRL_ENABLE
    0x0D, 1), (F.SIG_MCLK_DIV 3, 5)], 15, (2 ^ 31 + 3 * 2 ^ 29 + 4 * 2 ^ 26), by decide +kernel⟩,
  ⟨wit [(F.DEV_STATE_STATE, 2), (F.SIG_MCLK_DIV 2, 5)], 15, (2 ^ 31 + 3 * 2 ^ 29 + 4 * 2 ^ 26), by decide +kernel⟩,
  ⟨wit [(F.DEV_STATE_STATE, 2), (F.SIG_CH_CFG_EN 15, 1), (F.BLK_CTRL_ENABLE 13, 1), (F.SIG_CH_STAT_SETTLING 15, 1), (F.SIG_MCLK_DIV 0, 5)] (fun dv =>
    ({ dv with time := { c := 1000000000000 } } : Dev)), 15, by decide +kernel⟩,
  ⟨wit [(F.DEV_STATE_STATE, 2), (F.SIG_CH_CFG_EN 15, 1), (F.BLK_CTRL_ENABLE 13, 1)] (fun dv => dv.setSig 15 { same := 256 }), 15, by decide +kernel⟩,
  ⟨wit [(F.DEV_STATE_STATE, 2), (F.SIG_CH_CFG_EN 15, 1), (F.BLK_CTRL_ENABLE 13, 1), (F.SIG_CH_STAT_STUCK 15, 1)] (fun dv => dv.setSig 15
    { changes := 16 }), 15, by decide +kernel⟩⟩

theorem wit_TrimOutputs :
  (∃ (s : State) (v : _), (s.dev.taken 14 0x40) ∧ (Dev.fieldOf F.TRIM_CTRL_GO v = 1) ∧ (s.dev.offline 14 = false) ∧ (s.dev.bit (F.BLK_CTRL_OFFLINE_REQ
    14) = false) ∧ (s.dev.bit F.TRIM_CTRL_PEND = false) ∧ (Dev.fieldOf F.TRIM_CTRL_TIMED v = 0) ∧ (s.dev.get F.TRIM_SLEW_SLEW = 0)) ∧
  (∃ (s : State) (v : _), (s.dev.taken 14 0x40) ∧ (Dev.fieldOf F.TRIM_CTRL_GO v = 1) ∧ (s.dev.offline 14 = false) ∧ (s.dev.bit (F.BLK_CTRL_OFFLINE_REQ
    14) = false) ∧ (s.dev.bit F.TRIM_CTRL_PEND = false) ∧ (Dev.fieldOf F.TRIM_CTRL_TIMED v = 1) ∧ (0 < (st40Diff (s.dev.st40At
    F.TRIM_APPLY_AT_LO_AT_LO F.TRIM_APPLY_AT_HI_AT_HI) (s.dev.now % 2 ^ 40))) ∧ ((st40Diff (s.dev.st40At F.TRIM_APPLY_AT_LO_AT_LO
    F.TRIM_APPLY_AT_HI_AT_HI) (s.dev.now % 2 ^ 40)) ≤ 10 ^ 10)) ∧
  (∃ (s : State) (v : _), (s.dev.taken 14 0x40) ∧ (Dev.fieldOf F.TRIM_CTRL_GO v = 1) ∧ (s.dev.offline 14 = false) ∧ (s.dev.bit (F.BLK_CTRL_OFFLINE_REQ
    14) = false) ∧ (s.dev.bit F.TRIM_CTRL_PEND = false) ∧ (Dev.fieldOf F.TRIM_CTRL_TIMED v = 1) ∧ (10 ^ 10 < (st40Diff (s.dev.st40At
    F.TRIM_APPLY_AT_LO_AT_LO F.TRIM_APPLY_AT_HI_AT_HI) (s.dev.now % 2 ^ 40))) ∧ (s.dev.get (F.BLK_ERR_CODE_CODE 14) = 0)) ∧
  (∃ (s : State) (v : _), (s.dev.taken 14 0x40) ∧ (Dev.fieldOf F.TRIM_CTRL_GO v = 1) ∧ (s.dev.offline 14 = false) ∧ (s.dev.bit (F.BLK_CTRL_OFFLINE_REQ
    14) = false) ∧ (s.dev.bit F.TRIM_CTRL_PEND = true) ∧ (s.dev.get (F.BLK_ERR_CODE_CODE 14) = 0)) ∧
  (∃ (s : State), (s.dev.bit F.TRIM_CTRL_PEND = true) ∧ (s.dev.trim.due ≤ s.dev.now) ∧ (s.dev.get F.TRIM_SLEW_SLEW = 0)) ∧
  (∃ (s : State), (s.dev.bit F.TRIM_CTRL_PEND = true) ∧ (s.dev.now < s.dev.trim.due)) ∧
  (∃ (s : State), (s.dev.enabled 14 = true) ∧ (s.dev.offline 14 = false) ∧ (s.dev.bit (F.BLK_CTRL_OFFLINE_REQ 14) = false) ∧ (10000 ≤ s.dev.elapsed
    s.dev.trim.stepAt) ∧ (s.dev.get F.TRIM_SLEW_SLEW ≠ 0)) ∧
  (∃ (s : State), (s.dev.trim.ramp = true) ∧ (1000 ≤ s.dev.elapsed s.dev.trim.rampAt)) :=
  ⟨⟨wit [(F.DEV_STATE_STATE, 2), (F.BLK_CTRL_ENABLE 14, 1)], 1, by decide +kernel⟩,
  ⟨wit [(F.DEV_STATE_STATE, 2), (F.BLK_CTRL_ENABLE 14, 1), (F.TRIM_APPLY_AT_LO_AT_LO, ((1000 + 10 ^ 10) % 2 ^ 32)), (F.TRIM_APPLY_AT_HI_AT_HI, 2)] (fun
    dv => ({ dv with time := { c := 1000 } } : Dev)), 3, by decide +kernel⟩,
  ⟨wit [(F.DEV_STATE_STATE, 2), (F.TRIM_APPLY_AT_LO_AT_LO, 2000000000), (F.TRIM_APPLY_AT_HI_AT_HI, 10)] (fun dv => ({ dv with time := { c := 1000 } } :
    Dev)), 3, by decide +kernel⟩,
  ⟨wit [(F.DEV_STATE_STATE, 2), (F.TRIM_CTRL_PEND, 1), (F.BLK_CTRL_ENABLE 14, 1)], 1, by decide +kernel⟩,
  ⟨wit [(F.DEV_STATE_STATE, 2), (F.TRIM_CTRL_PEND, 1), (F.TRIM_APPLY_AT_LO_AT_LO, 1000)] (fun dv => ({ dv with time := { c := 1000 } } : Dev)),
    by decide +kernel⟩,
  ⟨wit [(F.DEV_STATE_STATE, 2), (F.TRIM_CTRL_PEND, 1)] (fun dv => ({ dv with time := { c := 999 }, trim := { dv.trim with due := 1000 } } : Dev)),
    by decide +kernel⟩,
  ⟨wit [(F.DEV_STATE_STATE, 2), (F.BLK_CTRL_ENABLE 14, 1), (F.TRIM_SLEW_SLEW, 1)] (fun dv => ({ dv with time := { c := 1000000000000 } } : Dev)),
    by decide +kernel⟩,
  ⟨wit [(F.DEV_STATE_STATE, 2)] (fun dv => ({ dv with time := { c := 1000000000000 }, trim := { dv.trim with ramp := true } } : Dev)),
    by decide +kernel⟩⟩

theorem wit_TimeBase :
  (∃ (s : State) (v : Nat) (r : Nat), (s.dev.taken 4 0x58) ∧ (r = s.dev.get F.TIME_RATE_LO_RATE_F + v % 2 ^ 32 * 2 ^ 32) ∧ (s.dev.servoRuns = false) ∧
    (((r : Int) - 2 ^ 32).natAbs * 1000000 ≤ 500 * 2 ^ 32)) ∧
  (∃ (s : State) (v : Nat) (r : Nat), (s.dev.taken 4 0x58) ∧ (r = s.dev.get F.TIME_RATE_LO_RATE_F + v % 2 ^ 32 * 2 ^ 32) ∧ (s.dev.servoRuns = false) ∧
    (500 * 2 ^ 32 < ((r : Int) - 2 ^ 32).natAbs * 1000000) ∧ (s.dev.get (F.BLK_ERR_CODE_CODE 4) = 0)) ∧
  (∃ (s : State) (v : Nat) (r : Nat), (s.dev.taken 4 0x58) ∧ (r = s.dev.get F.TIME_RATE_LO_RATE_F + v % 2 ^ 32 * 2 ^ 32) ∧ (s.dev.servoRuns = true) ∧
    (s.dev.get (F.BLK_ERR_CODE_CODE 4) = 0)) ∧
  (∃ (s : State), (s.dev.taken 4 0x68) ∧ (s.dev.state = 2 ∨ s.dev.state = 3 ∨ s.dev.state = 4 ∨ s.dev.state = 8)) ∧
  (∃ (s : State), (s.dev.taken 4 0x68) ∧ (s.dev.state ≠ 2) ∧ (s.dev.state ≠ 3) ∧ (s.dev.state ≠ 4) ∧ (s.dev.state ≠ 8) ∧ (s.dev.get (F.BLK_ERR_CODE_CODE
    4) = 0)) ∧
  (∃ (s : State), (s.dev.taken 4 0x5C) ∧ (s.dev.slewing = false)) ∧
  (∃ (s : State), (s.dev.taken 4 0x5C) ∧ (s.dev.slewing = true) ∧ (s.dev.get (F.BLK_ERR_CODE_CODE 4) = 0)) ∧
  (∃ (s : State) (devs : List Int), (10000000 ≤ s.dev.elapsed s.dev.timing.skewAt) ∧ (∀ i < 4, -32768 ≤ devs.getD i 0 ∧ devs.getD i 0 < 32768)) ∧
  (∃ (s : State) (devs : List Int), (s.dev.executing 0x53 = true) ∧ (∀ i < 4, -32768 ≤ devs.getD i 0 ∧ devs.getD i 0 < 32768)) ∧
  (∃ (s : State) (v : Nat), (s.dev.timing.latch.find? (fun l => l.1 = 0x4C) = some (0x4C, v))) :=
  ⟨⟨wit [(F.DEV_STATE_STATE, 2), (F.TIME_RATE_LO_RATE_F, 2147483)], 1, (2 ^ 32 + 2147483), by decide +kernel⟩,
  ⟨wit [(F.DEV_STATE_STATE, 2), (F.TIME_RATE_LO_RATE_F, 2147484)], 1, (2 ^ 32 + 2147484), by decide +kernel⟩,
  ⟨wit [(F.DEV_STATE_STATE, 2), (F.TIME_CTRL_SERVO_EN, 1)], 1, (2 ^ 32), by decide +kernel⟩,
  ⟨wit [(F.DEV_STATE_STATE, 8), (F.TIME_SET_LO_SET_LO, 5)], by decide +kernel⟩,
  ⟨wit [(F.DEV_STATE_STATE, 5)], by decide +kernel⟩,
  ⟨wit [(F.DEV_STATE_STATE, 2)], by decide +kernel⟩,
  ⟨wit [(F.DEV_STATE_STATE, 2)] (fun dv => ({ dv with time := { slewLeft := 5 * 2 ^ 32 } } : Dev)), by decide +kernel⟩,
  ⟨wit [(F.DEV_STATE_STATE, 2)] (fun dv => ({ dv with time := { c := 1000000000000 } } : Dev)), [32767, -32768, 126, 0], by decide +kernel⟩,
  ⟨wit [(F.DEV_STATE_STATE, 8)] (fun dv => ({ dv with cmd := some ⟨0x53, 0, 0, [8, 0, 0, 0, 0, 0, 0, 0], 0⟩ } : Dev)), [32767, -32768, 126, 0],
    by decide +kernel⟩,
  ⟨wit [(F.DEV_STATE_STATE, 2)] (fun dv => ({ dv with timing := { dv.timing with latch := [(0x4C, 9)] } } : Dev)), 9, by decide +kernel⟩⟩

theorem wit_SchedulersAndPulses_1 :
  (∃ (s : State) (n : Nat) (v : Nat) (j : Int), (n < 16) ∧ (s.dev.taken 4 (0x100 + 0x20 * n)) ∧ (s.dev.bit (F.TIME_SCHED_CTRL_ARM n) = false) ∧ (v % 2 =
    1) ∧ (j = st40Diff (s.dev.st40At (F.TIME_SCHED_AT_LO_AT_LO n) (F.TIME_SCHED_AT_HI_AT_HI n)) s.dev.now) ∧ (100 ≤ j) ∧ (j ≤ s.dev.get
    F.TIME_SCHED_CFG_HORIZON * 1000000000)) ∧
  (∃ (s : State) (n : Nat) (v : Nat) (j : Int), (n < 16) ∧ (s.dev.taken 4 (0x100 + 0x20 * n)) ∧ (s.dev.bit (F.TIME_SCHED_CTRL_ARM n) = false) ∧ (v % 2 =
    1) ∧ (j = st40Diff (s.dev.st40At (F.TIME_SCHED_AT_LO_AT_LO n) (F.TIME_SCHED_AT_HI_AT_HI n)) s.dev.now) ∧ (s.dev.get F.TIME_SCHED_CFG_HORIZON *
    1000000000 < j) ∧ (s.dev.get (F.BLK_ERR_CODE_CODE 4) = 0)) ∧
  (∃ (s : State) (n : Nat) (v : Nat) (j : Int), (n < 16) ∧ (s.dev.taken 4 (0x100 + 0x20 * n)) ∧ (s.dev.bit (F.TIME_SCHED_CTRL_ARM n) = false) ∧ (v % 2 =
    1) ∧ (j = st40Diff (s.dev.st40At (F.TIME_SCHED_AT_LO_AT_LO n) (F.TIME_SCHED_AT_HI_AT_HI n)) s.dev.now) ∧ (j < 100) ∧ (j ≤ s.dev.get
    F.TIME_SCHED_CFG_HORIZON * 1000000000) ∧ (v / 16 % 2 = 1) ∧ (s.dev.get (F.TIME_SCHED_PERIOD_PERIOD n) = 0)) ∧
  (∃ (s : State) (n : Nat) (t : Nat), (n < 16) ∧ (s.dev.schedAt n = some t) ∧ (t ≤ s.dev.now)) ∧
  (∃ (s : State), (s.dev.bit F.TIME_PPS_OUT_EN = true) ∧ (s.dev.bit F.TIME_STAT_SET = true) ∧ (s.dev.now % 1000000000 < 2) ∧ (s.dev.timing.ppsOut ≠ some
    (s.dev.now / 1000000000))) ∧
  (∃ (s : State), (s.dev.bit F.TIME_PPS_OUT_EN = false ∨ s.dev.bit F.TIME_STAT_SET = false)) ∧
  (∃ (s : State) (edge : PpsEdge), (edge.rising ≠ s.dev.bit F.TIME_PPS_IN_POL) ∧ (edge.quarter < 4)) ∧
  (∃ (s : State) (edge : PpsEdge), (edge.rising = s.dev.bit F.TIME_PPS_IN_POL)) ∧
  (∃ (s : State), (s.dev.bit F.TIME_STAT_PPS_IN_OK = true) ∧ (1500000000 ≤ s.dev.elapsed s.dev.timing.ppsAt)) ∧
  (∃ (s : State) (a1 : Nat) (a4 : Nat) (t32 : Nat) (k : Int), (s.dev.ptmDue = true) ∧ ((a1 : Int) - a4 - t32 = 2 * k)) :=
  ⟨⟨wit [(F.DEV_STATE_STATE, 2), (F.TIME_SCHED_CFG_HORIZON, 1), (F.TIME_SCHED_AT_LO_AT_LO 15, (10 ^ 9 + 100))] (fun dv =>
    ({ dv with time := { c := 100 } } : Dev)), 15, 0x1D, (10 ^ 9), by decide +kernel⟩,
  ⟨wit [(F.DEV_STATE_STATE, 2), (F.TIME_SCHED_CFG_HORIZON, 1), (F.TIME_SCHED_AT_LO_AT_LO 15, (10 ^ 9 + 101))] (fun dv =>
    ({ dv with time := { c := 100 } } : Dev)), 15, 0x1D, (10 ^ 9 + 1), by decide +kernel⟩,
  ⟨wit [(F.DEV_STATE_STATE, 2), (F.TIME_SCHED_CFG_HORIZON, 1), (F.TIME_SCHED_AT_LO_AT_LO 15, 199)] (fun dv => ({ dv with time := { c := 100 } } : Dev)),
    15, 0x1D, 99, by decide +kernel⟩,
  ⟨wit [(F.DEV_STATE_STATE, 2), (F.TIME_SCHED_CTRL_ARM 15, 1), (F.TIME_SCHED_CTRL_ACTION 15, 2)] (fun dv =>
    ({ dv with time := { c := 1000 }, timing := { dv.timing with sched := [(15, 1000)] } } : Dev)), 15, 1000, by decide +kernel⟩,
  ⟨wit [(F.DEV_STATE_STATE, 2), (F.TIME_PPS_OUT_EN, 1), (F.TIME_STAT_SET, 1)] (fun dv => ({ dv with time := { c := 1000000000000 } } : Dev)),
    by decide +kernel⟩,
  ⟨wit [(F.DEV_STATE_STATE, 2)], by decide +kernel⟩,
  ⟨wit [(F.DEV_STATE_STATE, 2)], ⟨true, 3⟩, by decide +kernel⟩,
  ⟨wit [(F.DEV_STATE_STATE, 2)], ⟨false, 3⟩, by decide +kernel⟩,
  ⟨wit [(F.DEV_STATE_STATE, 2), (F.TIME_STAT_PPS_IN_OK, 1)] (fun dv => ({ dv with time := { c := 1000000000000 } } : Dev)), by decide +kernel⟩,
  ⟨wit [(F.DEV_STATE_STATE, 2), (F.TIME_PTM_CTRL_EN, 1)] (fun dv =>
    ({ dv with time := { c := 10000 }, timing := { dv.timing with ptmGo := some 0 }, pcie := { dv.pcie with ptmEn := true } } : Dev)), 900, 100, 200,
    300, by decide +kernel⟩⟩

theorem wit_SchedulersAndPulses_2 :
  (∃ (s : State), (s.dev.ptmDue = true) ∧ (s.dev.get (F.BLK_ERR_CODE_CODE 4) = 0)) :=
  ⟨wit [(F.DEV_STATE_STATE, 2), (F.TIME_PTM_CTRL_EN, 1)] (fun dv =>
    ({ dv with time := { c := 10000 }, timing := { dv.timing with ptmGo := some 0 }, pcie := { dv.pcie with ptmEn := true } } : Dev)),
    by decide +kernel⟩

theorem wit_ClockAndNetwork :
  (∃ (s : State) (gm : Announced), (gm.domain ≠ s.dev.get F.TIME_PTP_CFG_DOMAIN)) ∧
  (∃ (s : State) (port : Nat) (parent : Nat) (steps : Nat) (mpd : Nat) (gm : Announced) (x : Announced) (e : PathEntry), (port < 2) ∧ (s.dev.ocPort port
    = true) ∧ (s.dev.enabled 5 = true) ∧ (s.dev.bit F.TIME_STAT_GM_ACTIVE = false) ∧ (s.dev.bit F.TIME_CTRL_GM_EN = false) ∧ (s.dev.follows gm = true)
    ∧ (s.dev.clock.gm = some x) ∧ (x.gm = gm.gm) ∧ (s.dev.clock.hold = none) ∧ (s.dev.servoRuns = false) ∧ (s.dev.clock.key = some ⟨port, parent,
    steps⟩) ∧ (s.dev.clock.clrAll = false) ∧ (s.dev.clock.afresh = false) ∧ (s.dev.pathOf ⟨port, parent, steps⟩ = some e) ∧ (((mpd : Int) -
    s.dev.clock.mpd).natAbs ≤ s.dev.get F.TIME_PATH_PATH_JUMP * 16)) ∧
  (∃ (s : State) (port : Nat) (parent : Nat) (steps : Nat) (gm : Announced) (x : Announced), (port < 2) ∧ (s.dev.ocPort port = true) ∧ (s.dev.enabled 5
    = true) ∧ (s.dev.bit F.TIME_STAT_GM_ACTIVE = false) ∧ (s.dev.bit F.TIME_CTRL_GM_EN = false) ∧ (s.dev.follows gm = true) ∧ (s.dev.clock.gm = some
    x) ∧ (x.gm = gm.gm) ∧ (s.dev.clock.hold = none) ∧ (s.dev.servoRuns = true) ∧ (s.dev.bit F.TIME_CTRL_PATH_LEARN = true) ∧ (s.dev.bit
    F.TIME_STAT_HOLDOVER = false) ∧ (s.dev.get (F.BLK_STAT_STATE 4) = 2) ∧ (s.dev.clock.key ≠ some ⟨port, parent, steps⟩) ∧ (1 < s.dev.get
    F.TIME_PATH_HOLD_N)) ∧
  (∃ (s : State), (s.dev.taken 4 0x84)) ∧
  (∃ (s : State) (e : Nat) (bs : List Nat) (full : Nat), (e < 2) ∧ (s.dev.ethUp e = true) ∧ (s.dev.ethUp (1 - e) = true) ∧ (s.dev.bit F.NET_CTRL_FWD_EN
    = true) ∧ (full = 0) ∧ (beAt bs (etherAt bs) 2 ≠ 0x8808) ∧ (bs.length ≤ 9212) ∧ (beAt bs 0 6 ≠ s.dev.get F.NET_MAC_LO_MAC_LO + s.dev.get
    F.NET_MAC_HI_MAC_HI * 2 ^ 32) ∧ (ptpIn bs = none) ∧ (bs.getD 0 0 % 2 = 0) ∧ (s.dev.macPort (beAt bs 0 6) ≠ some e)) ∧
  (∃ (s : State) (e : Nat) (bs : List Nat) (full : Nat) (m : PtpAt), (e < 2) ∧ (s.dev.ethUp e = true) ∧ (s.dev.ethUp (1 - e) = true) ∧ (s.dev.bit
    F.NET_CTRL_FWD_EN = true) ∧ (full = 0) ∧ (beAt bs (etherAt bs) 2 ≠ 0x8808) ∧ (bs.length ≤ 9212) ∧ (beAt bs 0 6 ≠ s.dev.get F.NET_MAC_LO_MAC_LO +
    s.dev.get F.NET_MAC_HI_MAC_HI * 2 ^ 32) ∧ (ptpIn bs = some m) ∧ (bs.getD m.hdr 0 % 16 = 0) ∧ (s.dev.bit F.NET_CTRL_TC_EN = true) ∧ (s.dev.bit
    F.NET_CTRL_TC_MODE = false)) ∧
  (∃ (s : State) (e : Nat) (bs : List Nat), (e < 2) ∧ (s.dev.ethUp e = true) ∧ (beAt bs (etherAt bs) 2 ≠ 0x8808) ∧ (bs.length ≤ 9212) ∧ (beAt bs 0 6 =
    s.dev.get F.NET_MAC_LO_MAC_LO + s.dev.get F.NET_MAC_HI_MAC_HI * 2 ^ 32) ∧ (ptpIn bs = none ∨ s.dev.bit F.NET_CTRL_TC_MODE = false)) ∧
  (∃ (s : State) (e : Nat), (e < 2) ∧ (s.dev.bit F.NET_CTRL_TC_MODE = true) ∧ (s.dev.enabled 5 = true) ∧ (s.dev.ethOn e = true) ∧
    (s.dev.net.pdelayAt.find? (fun l => l.1 = e) = none)) ∧
  (∃ (s : State) (mac : Nat), (s.dev.get F.NET_LEARN_AGE ≠ 0) ∧ (∀ m ∈ s.dev.net.macs, m.mac = mac → s.dev.get F.NET_LEARN_AGE * 1000000000 ≤
    s.dev.elapsed m.seen)) ∧
  (∃ (s : State) (e : Nat), (e < 2) ∧ (s.dev.bit (F.NET_PORT_STAT_LINK e) = true)) :=
  ⟨⟨wit [(F.DEV_STATE_STATE, 2)], ⟨9, 128, 0, 128, 1, false⟩, by decide +kernel⟩,
  ⟨wit [(F.DEV_STATE_STATE, 2), (F.BLK_CTRL_ENABLE 5, 1), (F.TIME_CTRL_OC_SEL, 3), (F.TIME_PATH_PATH_JUMP, 1)] (fun dv =>
    ({ dv with clock := { dv.clock with gm := some (⟨9, 127, 1, 128, 0, false⟩), key := some ⟨1, 5, 2⟩, paths := [(⟨0, ⟨1, 5, 2⟩, 33, 0⟩)], mpd := 1000 } }
    : Dev)), 1, 5, 2, 1016, ⟨9, 128, 0, 128, 0, false⟩, ⟨9, 127, 1, 128, 0, false⟩, ⟨0, ⟨1, 5, 2⟩, 33, 0⟩, by decide +kernel⟩,
  ⟨wit [(F.DEV_STATE_STATE, 2), (F.BLK_CTRL_ENABLE 5, 1), (F.TIME_CTRL_PATH_LEARN, 1), (F.BLK_STAT_STATE 4, 2), (F.TIME_CTRL_OC_SEL, 3),
    (F.TIME_CTRL_SERVO_EN, 1), (F.TIME_PATH_HOLD_N, 2)] (fun dv =>
    ({ dv with clock := { dv.clock with gm := some (⟨9, 127, 1, 128, 0, false⟩), key := some ⟨0, 5, 2⟩, mpd := 1000 } } : Dev)), 1, 5, 2, ⟨9, 128, 0,
    128, 0, false⟩, ⟨9, 127, 1, 128, 0, false⟩, by decide +kernel⟩,
  ⟨wit [(F.DEV_STATE_STATE, 2)], by decide +kernel⟩,
  ⟨wit [(F.DEV_STATE_STATE, 2), (F.NET_CTRL_FWD_EN, 1), (F.BLK_CTRL_ENABLE 5, 1), (F.NET_CTRL_EN0, 1), (F.NET_CTRL_EN1, 1), (F.NET_PORT_STAT_LINK 0, 1),
    (F.NET_PORT_STAT_LINK 1, 1), (F.NET_MAC_LO_MAC_LO, 0x1234)], 1, ([2, 0, 0, 0, 0, 9, 4, 0, 0, 0, 0, 1, 8, 6] ++ List.replicate 46 1), 0,
    by decide +kernel⟩,
  ⟨wit [(F.DEV_STATE_STATE, 2), (F.NET_CTRL_FWD_EN, 1), (F.NET_CTRL_TC_EN, 1), (F.NET_CTRL_TC_MODE, 0), (F.BLK_CTRL_ENABLE 5, 1), (F.NET_CTRL_EN0, 1),
    (F.NET_CTRL_EN1, 1), (F.NET_PORT_STAT_LINK 0, 1), (F.NET_PORT_STAT_LINK 1, 1), (F.NET_MAC_LO_MAC_LO, 0x1234)], 1, ([1, 0x1B, 0x19, 0, 0, 0, 4, 0,
    0, 0, 0, 1, 0x88, 0xF7, 0, 2] ++ List.replicate 44 1), 0, ⟨14, none⟩, by decide +kernel⟩,
  ⟨wit [(F.DEV_STATE_STATE, 2), (F.BLK_CTRL_ENABLE 5, 1), (F.NET_CTRL_EN0, 1), (F.NET_CTRL_EN1, 1), (F.NET_PORT_STAT_LINK 0, 1), (F.NET_PORT_STAT_LINK
    1, 1), (F.NET_MAC_LO_MAC_LO, 0x1234)], 1, ([0, 0, 0, 0, 0x12, 0x34, 4, 0, 0, 0, 0, 1, 8, 6] ++ List.replicate 46 1), by decide +kernel⟩,
  ⟨wit [(F.DEV_STATE_STATE, 2), (F.NET_CTRL_TC_MODE, 1), (F.BLK_CTRL_ENABLE 5, 1), (F.NET_CTRL_EN0, 1), (F.NET_CTRL_EN1, 1), (F.NET_PORT_STAT_LINK 0,
    1), (F.NET_PORT_STAT_LINK 1, 1), (F.NET_MAC_LO_MAC_LO, 0x1234)], 1, by decide +kernel⟩,
  ⟨wit [(F.DEV_STATE_STATE, 2), (F.NET_LEARN_AGE, 3)] (fun dv =>
    ({ dv with time := { c := 3000000000 }, net := { dv.net with macs := [⟨7, 1, 0⟩, ⟨8, 1, 5⟩] } } : Dev)), 7, by decide +kernel⟩,
  ⟨wit [(F.DEV_STATE_STATE, 2), (F.NET_PORT_STAT_LINK 1, 1)], 1, by decide +kernel⟩⟩

theorem wit_ReportQueues_1 :
  (∃ (s : State) (q : Nat) (r : Rec) (rest : List Rec) (b : Nat), (q < 5) ∧ (s.dev.bit (F.RQ_CTRL_EN q) = true) ∧ (s.dev.canRequest = true) ∧
    (s.dev.recordGranted q = true) ∧ ((s.dev.queue q).lost = []) ∧ ((s.dev.queue q).staging = r :: rest) ∧ (s.dev.get (F.RQ_STAT_ACTIVE q) = b) ∧ (b <
    2) ∧ (s.dev.bankState q b = 1) ∧ (s.dev.get (F.RQ_STAT_MODE q) = 1) ∧ ((s.dev.bank q b).used + r.bytes.length ≤ s.dev.bankBytes q)) ∧
  (∃ (s : State) (q : Nat) (r : Rec) (rest : List Rec) (b : _), (q < 5) ∧ (s.dev.bit (F.RQ_CTRL_EN q) = true) ∧ (s.dev.canRequest = true) ∧
    (s.dev.recordGranted q = true) ∧ ((s.dev.queue q).lost = []) ∧ ((s.dev.queue q).staging = r :: rest) ∧ (s.dev.get (F.RQ_STAT_ACTIVE q) = b) ∧ (b <
    2) ∧ (s.dev.bankState q b = 1) ∧ (s.dev.get (F.RQ_STAT_MODE q) = 1) ∧ (s.dev.bankBytes q < (s.dev.bank q b).used + r.bytes.length) ∧
    (s.dev.bankBytes q < 64 + r.bytes.length) ∧ (32 ≤ s.dev.bankBytes q - (s.dev.bank q b).used)) ∧
  (∃ (s : State) (q : Nat) (r : Rec) (rest : List Rec) (b : Nat), (q < 5) ∧ (s.dev.bit (F.RQ_CTRL_EN q) = true) ∧ (s.dev.canRequest = true) ∧
    (s.dev.recordGranted q = true) ∧ ((s.dev.queue q).lost = []) ∧ ((s.dev.queue q).staging = r :: rest) ∧ (s.dev.get (F.RQ_STAT_ACTIVE q) = b) ∧ (b <
    2) ∧ (s.dev.bankState q b = 1) ∧ (s.dev.get (F.RQ_STAT_MODE q) = 1) ∧ (r.bytes ≠ []) ∧ (s.dev.bankBytes q < (s.dev.bank q b).used +
    r.bytes.length) ∧ (64 + r.bytes.length ≤ s.dev.bankBytes q) ∧ (s.dev.bankState q (1 - b) = 0)) ∧
  (∃ (s : State) (q : Nat) (r : Rec) (rest : List Rec), (q < 5) ∧ (s.dev.bit (F.RQ_CTRL_EN q) = true) ∧ (s.dev.canRequest = true) ∧ (s.dev.recordGranted
    q = true) ∧ ((s.dev.queue q).lost = []) ∧ ((s.dev.queue q).staging = r :: rest) ∧ (s.dev.get (F.RQ_STAT_MODE q) = 2) ∧ (r.bytes.length ≤
    s.dev.ringArea q - s.dev.get (F.RQ_RING_PI_PI q)) ∧ (s.dev.ringRoom q r.bytes.length = true)) ∧
  (∃ (s : State) (q : Nat), (q < 5) ∧ (s.dev.recordReady q = true) ∧ (s.dev.recordGranted q = true) ∧ ((s.dev.queue q).lost ≠ [])) ∧
  (∃ (s : State) (q : Nat), (q < 5) ∧ (s.dev.recordReady q = true) ∧ (s.dev.recordReady 1 = true) ∧ (q ≠ 1)) ∧
  (∃ (s : State) (q : Nat), (q < 5) ∧ (s.dev.recordReady q = true) ∧ (s.dev.recordReady 0 = true) ∧ (2 ≤ q)) ∧
  (∃ (s : State) (q : Nat) (b : Nat), (q < 5) ∧ (b < 2) ∧ (s.dev.get (F.RQ_CTRL_FLUSH_US q) ≠ 0) ∧ (s.dev.canRequest = true) ∧ (s.dev.holdsRecord q b =
    true) ∧ (s.dev.get (F.RQ_CTRL_FLUSH_US q) * 1000 ≤ s.dev.elapsed (s.dev.bank q b).firstAt)) ∧
  (∃ (s : State) (q : Nat) (b : Nat), (q < 5) ∧ (b < 2) ∧ (s.dev.taken 6 (0x100 + 0x40 * q)) ∧ (s.dev.holdsRecord q b = true) ∧ (s.dev.canRequest =
    true)) ∧
  (∃ (s : State) (q : Nat) (b : Nat), (q < 5) ∧ (b < 2) ∧ (s.dev.taken 6 (0x100 + 0x40 * q)) ∧ (s.dev.holdsRecord q b = true) ∧ (s.dev.canRequest =
    false)) :=
  ⟨⟨wit [(F.DEV_STATE_STATE, 2), (F.RQ_CTRL_EN 4, 1), (F.HOST_LINK_BME, 1), (F.RQ_STAT_ACTIVE 4, 1), ((bankDef 4 1).state, 1), (F.RQ_STAT_MODE 4, 1),
    (F.RQ_BANK_A_LO_ADDR 4, 4096), (F.RQ_BANK_B_LO_ADDR 4, 8192), (F.RQ_RING_LO_ADDR 4, 12288), (F.RQ_BANK_SIZE_SIZE 4, 1)] (fun dv => dv.setQueue 4
    { staging := [(⟨5, List.replicate 64 7⟩)], bankB := { used := 65472 } }), 4, ⟨5, List.replicate 64 7⟩, [], 1, by decide +kernel⟩,
  ⟨wit [(F.DEV_STATE_STATE, 2), (F.RQ_CTRL_EN 1, 1), (F.HOST_LINK_BME, 1), (F.RQ_STAT_ACTIVE 1, 1), ((bankDef 1 1).state, 1), (F.RQ_STAT_MODE 1, 1),
    (F.RQ_BANK_A_LO_ADDR 1, 4096), (F.RQ_BANK_B_LO_ADDR 1, 8192), (F.RQ_RING_LO_ADDR 1, 12288), (F.RQ_BANK_SIZE_SIZE 1, 1), (F.RQ_RING_SIZE_SIZE 1,
    1), ((bankDef 1 1).state, 1)] (fun dv => dv.setQueue 1 { staging := [(⟨5, List.replicate 70000 7⟩)], bankB := { used := 128 } }), 1, ⟨5,
    List.replicate 70000 7⟩, [], 1, by decide +kernel, by decide +kernel, by decide +kernel, by decide +kernel, by decide +kernel, congrArg
    Queue.staging (Dev.queue_setQueue _ _ _), by decide +kernel, by decide +kernel, by decide +kernel, by decide +kernel, long_lt (by decide +kernel),
    long_lt (by decide +kernel), by decide +kernel⟩,
  ⟨wit [(F.DEV_STATE_STATE, 2), (F.RQ_CTRL_EN 4, 1), (F.HOST_LINK_BME, 1), (F.RQ_STAT_ACTIVE 4, 1), ((bankDef 4 1).state, 1), (F.RQ_STAT_MODE 4, 1),
    (F.RQ_BANK_A_LO_ADDR 4, 4096), (F.RQ_BANK_B_LO_ADDR 4, 8192), (F.RQ_RING_LO_ADDR 4, 12288), (F.RQ_BANK_SIZE_SIZE 4, 1)] (fun dv => dv.setQueue 4
    { staging := [(⟨5, List.replicate 64 7⟩)], bankB := { used := 65473, records := 1 } }), 4, ⟨5, List.replicate 64 7⟩, [], 1, by decide +kernel⟩,
  ⟨wit [(F.DEV_STATE_STATE, 2), (F.RQ_CTRL_EN 4, 1), (F.HOST_LINK_BME, 1), (F.RQ_STAT_MODE 4, 2), (F.RQ_BANK_A_LO_ADDR 4, 4096), (F.RQ_BANK_B_LO_ADDR 4,
    8192), (F.RQ_RING_LO_ADDR 4, 12288), (F.RQ_RING_SIZE_SIZE 4, 1), (F.RQ_RING_PI_PI 4, 65408), (F.RQ_RING_CI_CI 4, 65408)] (fun dv => dv.setQueue 4
    { staging := [(⟨5, List.replicate 64 7⟩)] }), 4, ⟨5, List.replicate 64 7⟩, [], by decide +kernel⟩,
  ⟨wit [(F.DEV_STATE_STATE, 2), (F.RQ_CTRL_EN 1, 1), (F.HOST_LINK_BME, 1), (F.RQ_BANK_A_LO_ADDR 1, 4096), (F.RQ_BANK_B_LO_ADDR 1, 8192),
    (F.RQ_RING_LO_ADDR 1, 12288), (F.RQ_BANK_SIZE_SIZE 1, 1), (F.RQ_RING_SIZE_SIZE 1, 1), ((bankDef 1 1).state, 1), (F.RQ_STAT_MODE 1, 1),
    (F.RQ_STAT_ACTIVE 1, 1)] (fun dv => dv.setQueue 1 { staging := [⟨5, List.replicate 64 7⟩], lost := [⟨2, 3, 1⟩], bankB := { used := 128 } }), 1,
    by decide +kernel⟩,
  ⟨wit [(F.DEV_STATE_STATE, 2), (F.RQ_CTRL_EN 4, 1), (F.HOST_LINK_BME, 1), (F.RQ_RING_LO_ADDR 4, 12288), (F.RQ_RING_SIZE_SIZE 4, 1), (F.RQ_STAT_MODE 4,
    2), (F.RQ_CTRL_EN 1, 1), (F.RQ_RING_LO_ADDR 1, 12288), (F.RQ_RING_SIZE_SIZE 1, 1), (F.RQ_STAT_MODE 1, 2)] (fun dv => dv.setQueue 1
    { staging := [⟨5, List.replicate 64 7⟩], bankB := { used := 128 } } |>.setQueue 4
    { staging := [⟨5, List.replicate 64 7⟩], bankB := { used := 128 } }), 4, by decide +kernel⟩,
  ⟨wit [(F.DEV_STATE_STATE, 2), (F.RQ_CTRL_EN 4, 1), (F.HOST_LINK_BME, 1), (F.RQ_RING_LO_ADDR 4, 12288), (F.RQ_RING_SIZE_SIZE 4, 1), (F.RQ_STAT_MODE 4,
    2), (F.RQ_CTRL_EN 0, 1), (F.RQ_RING_LO_ADDR 0, 12288), (F.RQ_RING_SIZE_SIZE 0, 1), (F.RQ_STAT_MODE 0, 2)] (fun dv => dv.setQueue 0
    { staging := [⟨5, List.replicate 64 7⟩], bankB := { used := 128 } } |>.setQueue 4
    { staging := [⟨5, List.replicate 64 7⟩], bankB := { used := 128 } }), 4, by decide +kernel⟩,
  ⟨wit [(F.DEV_STATE_STATE, 2), (F.RQ_CTRL_FLUSH_US 4, 1000), (F.HOST_LINK_BME, 1), ((bankDef 4 1).state, 1)] (fun dv =>
    ({ dv with time := { c := 1000000 } } : Dev).setQueue 4 { bankB := { used := 128, records := 1, firstAt := 0 } }), 4, 1, by decide +kernel⟩,
  ⟨wit [(F.DEV_STATE_STATE, 2), (F.HOST_LINK_BME, 1), ((bankDef 4 1).state, 1)] (fun dv => dv.setQueue 4
    { bankB := { used := 128, records := 1, firstAt := 0 } }), 4, 1, by decide +kernel⟩,
  ⟨wit [(F.DEV_STATE_STATE, 2), ((bankDef 4 1).state, 1)] (fun dv => dv.setQueue 4 { bankB := { used := 128, records := 1, firstAt := 0 } }), 4, 1,
    by decide +kernel⟩⟩

theorem wit_ReportQueues_2 :
  (∃ (s : State) (q : Nat), (q < 5) ∧ (s.dev.taken 6 (0x100 + 0x40 * q)) ∧ (s.dev.bit (F.RQ_CTRL_EN q) = false) ∧ (s.dev.queueReady q = true)) ∧
  (∃ (s : State) (q : Nat), (q < 5) ∧ (s.dev.taken 6 (0x100 + 0x40 * q)) ∧ (s.dev.bit (F.RQ_CTRL_EN q) = false) ∧ (s.dev.queueReady q = false) ∧
    (s.dev.get (F.BLK_ERR_CODE_CODE 6) = 0)) ∧
  (∃ (s : State) (q : Nat), (q < 5) ∧ (s.dev.taken 6 (0x100 + 0x40 * q)) ∧ (s.dev.bit (F.RQ_CTRL_EN q) = true) ∧ (s.dev.canRequest = true) ∧
    ((s.dev.queue q).sealWait = none)) ∧
  (∃ (s : State) (q : Nat) (b : Nat), (q < 5) ∧ (b < 2) ∧ (s.dev.taken 6 (0x100 + 0x40 * q)) ∧ (s.dev.bankState q b = 2)) ∧
  (∃ (s : State) (q : Nat) (b : Nat), (q < 5) ∧ (b < 2) ∧ (s.dev.taken 6 (0x100 + 0x40 * q)) ∧ (s.dev.bankState q b ≠ 2) ∧ (s.dev.get
    (F.BLK_ERR_CODE_CODE 6) = 0)) ∧
  (∃ (s : State) (q : Nat), (q < 5) ∧ (s.dev.taken 6 (0x100 + 0x40 * q)) ∧ (s.dev.get (F.RQ_STAT_MODE q) = 2) ∧ (s.dev.bankState q 0 ≠ 3) ∧
    (s.dev.bankState q 1 ≠ 3)) ∧
  (∃ (s : State) (q : Nat), (q < 5) ∧ (s.dev.taken 6 (0x100 + 0x40 * q)) ∧ (s.dev.get (F.RQ_STAT_MODE q) = 2) ∧ (s.dev.bankState q 0 = 3 ∨
    s.dev.bankState q 1 = 3) ∧ (s.dev.get (F.BLK_ERR_CODE_CODE 6) = 0)) ∧
  (∃ (s : State) (q : Nat), (q < 5) ∧ (s.dev.get (F.RQ_STAT_MODE q) = 2) ∧ ((s.dev.queue q).ringNew = true) ∧ (s.dev.get (F.RQ_CTRL_FLUSH_US q) * 1000 ≤
    s.dev.elapsed (s.dev.queue q).ringAt)) ∧
  (∃ (s : State) (q : Nat) (v : _), (q < 5) ∧ (s.dev.taken 6 0x68) ∧ (bitsAt v 0 16 ≠ 0) ∧ (v / 2 ^ 31 % 2 = 1) ∧ (s.dev.bit F.HOST_REC_BUSY = false)) ∧
  (∃ (s : State) (q : Nat) (v : _), (q < 5) ∧ (s.dev.taken 6 0x68) ∧ (bitsAt v 0 16 ≠ 0) ∧ (v / 2 ^ 31 % 2 = 1) ∧ (s.dev.bit F.HOST_REC_BUSY = true) ∧
    (s.dev.get (F.BLK_ERR_CODE_CODE 6) = 0)) :=
  ⟨⟨wit [(F.DEV_STATE_STATE, 2), (F.RQ_BANK_A_LO_ADDR 4, 4096), (F.RQ_BANK_B_LO_ADDR 4, 8192), (F.RQ_RING_LO_ADDR 4, 12288)], 4, by decide +kernel⟩,
  ⟨wit [(F.DEV_STATE_STATE, 2), (F.RQ_BANK_A_LO_ADDR 4, 4096), (F.RQ_BANK_B_LO_ADDR 4, 8192), (F.RQ_RING_LO_ADDR 4, 12289)], 4, by decide +kernel⟩,
  ⟨wit [(F.DEV_STATE_STATE, 2), (F.RQ_CTRL_EN 4, 1), (F.HOST_LINK_BME, 1), (F.RQ_BANK_A_LO_ADDR 4, 4096), (F.RQ_BANK_B_LO_ADDR 4, 8192),
    (F.RQ_RING_LO_ADDR 4, 12288)], 4, by decide +kernel⟩,
  ⟨wit [(F.DEV_STATE_STATE, 2), ((bankDef 4 1).state, 2)], 4, 1, by decide +kernel⟩,
  ⟨wit [(F.DEV_STATE_STATE, 2)], 4, 1, by decide +kernel⟩,
  ⟨wit [(F.DEV_STATE_STATE, 2), (F.RQ_STAT_MODE 4, 2)], 4, by decide +kernel⟩,
  ⟨wit [(F.DEV_STATE_STATE, 2), (F.RQ_STAT_MODE 4, 2), ((bankDef 4 0).state, 3)], 4, by decide +kernel⟩,
  ⟨wit [(F.DEV_STATE_STATE, 2), (F.RQ_STAT_MODE 4, 2)] (fun dv => ({ dv with time := { c := 1000000000000 } } : Dev).setQueue 4 { ringNew := true }), 4,
    by decide +kernel⟩,
  ⟨wit [(F.DEV_STATE_STATE, 2)], 4, 0x8000_FFFF, by decide +kernel⟩,
  ⟨wit [(F.DEV_STATE_STATE, 2), (F.HOST_REC_BUSY, 1)], 4, 0x8000_0001, by decide +kernel⟩⟩

theorem wit_WindowAndRings_1 :
  (∃ (s : State) (a : Nat) (bs : List Nat), (s.dev.state ≠ 1) ∧ (a + bs.length ≤ 0x4_0000_0000)) ∧
  (∃ (s : State) (a : Nat) (bs : List Nat), (s.dev.state ≠ 1) ∧ (0x4_0000_0000 ≤ a) ∧ (a + bs.length ≤ 0x4_0200_0000) ∧ (bs ≠ []) ∧ (s.dev.get
    (F.BLK_ERR_CODE_CODE 6) = 0)) ∧
  (∃ (s : State) (a : Nat) (bs : List Nat), (s.dev.state = 1) ∧ (s.dev.bit F.SEC_BOOT_STAT_WAITING = true) ∧ (s.dev.boot.recovery = true ∨
    s.dev.boot.src = 1) ∧ (a + bs.length ≤ 0x40_0000)) ∧
  (∃ (s : State), (s.dev.state = 1) ∧ (s.dev.bit F.SEC_BOOT_STAT_WAITING = false)) ∧
  (∃ (s : State) (r : Nat) (v : _), (r < 2) ∧ (s.dev.taken 6 (0x310 + 0x20 * r)) ∧ (bitsAt v 0 16 < s.dev.get (F.DR_CTRL_SIZE r)) ∧ (s.dev.bit
    (F.DR_CTRL_EN r) = false)) ∧
  (∃ (s : State) (r : _) (v : _), (r < 2) ∧ (s.dev.taken 6 (0x310 + 0x20 * r)) ∧ (bitsAt v 0 16 < s.dev.get (F.DR_CTRL_SIZE r)) ∧ (s.dev.bit
    (F.DR_CTRL_EN r) = true) ∧ (s.dev.canRequest = true) ∧ (s.dev.get (F.DR_HEAD_HEAD r) ≠ bitsAt v 0 16)) ∧
  (∃ (s : State) (r : Nat) (v : _), (r < 2) ∧ (s.dev.taken 6 (0x310 + 0x20 * r)) ∧ (s.dev.get (F.DR_CTRL_SIZE r) ≤ bitsAt v 0 16) ∧ (s.dev.get
    (F.BLK_ERR_CODE_CODE 6) = 0)) ∧
  (∃ (s : State) (r : Nat) (x : Dev.Desc) (a : Nat) (e : Dev.Err), (r < 2) ∧ (s.dev.bit (F.DR_STAT_BUSY r) = true) ∧ ((s.dev.descRing r).packed = false)
    ∧ (s.dev.canRequest = true) ∧ (x = s.dev.desc r) ∧ (a = s.dev.descAddr r) ∧ (e ≠ .ok) ∧ ((s.dev.descRing r).out = none) ∧ ((s.dev.descRing r).fail
    = some e.code)) ∧
  (∃ (s : State) (r : Nat) (x : Dev.Desc) (a : Nat) (bytes : List Nat) (e : Dev.Err), (r < 2) ∧ (s.dev.bit (F.DR_STAT_BUSY r) = true) ∧ ((s.dev.descRing
    r).packed = false) ∧ (s.dev.canRequest = true) ∧ (x = s.dev.desc r) ∧ (a = s.dev.descAddr r) ∧ ((s.dev.descRing r).out = some (bytes, e.code)) ∧
    ((s.dev.descRing r).moved = 0) ∧ ((bytes.length + 4095) / 4096 ≤ s.dev.d2hBlocks r) ∧ (x.host + bytes.length ≤ a + 28 ∨ a + 32 ≤ x.host)) ∧
  (∃ (s : State) (r : Nat) (x : Dev.Desc) (a : Nat) (n : Nat), (r < 2) ∧ (s.dev.bit (F.DR_STAT_BUSY r) = true) ∧ ((s.dev.descRing r).packed = false) ∧
    (s.dev.canRequest = true) ∧ (x = s.dev.desc r) ∧ (a = s.dev.descAddr r) ∧ (n = x.len ∧ x.kind = 2 ∧ (s.dev.descRing r).out = none ∧
    (s.dev.descRing r).fail = none ∨ ∃ bytes e, (s.dev.descRing r).out = some (bytes, e) ∧ n = bytes.length) ∧ (s.dev.recordReady 1 = true ∨
    s.dev.recordReady 0 = true) ∧ ((s.dev.descRing r).moved < n)) :=
  ⟨⟨wit [(F.DEV_STATE_STATE, 2)], 0x3_FFFF_FFFE, [5, 260], by decide +kernel⟩,
  ⟨wit [(F.DEV_STATE_STATE, 2)], 0x4_01FF_FFFC, [1, 2, 3, 4], by decide +kernel⟩,
  ⟨wit [(F.DEV_STATE_STATE, 1), (F.SEC_BOOT_STAT_WAITING, 1)] (fun dv => ({ dv with boot := { dv.boot with src := 1 } } : Dev)), 0x3F_FFFE, [5, 260],
    by decide +kernel⟩,
  ⟨wit [(F.DEV_STATE_STATE, 1)], by decide +kernel⟩,
  ⟨wit [(F.DEV_STATE_STATE, 2)], 1, 255, by decide +kernel⟩,
  ⟨wit [(F.DEV_STATE_STATE, 2), (F.DR_CTRL_EN 1, 1), (F.HOST_LINK_BME, 1), (F.DR_CTRL_SIZE 1, 256)], 1, 255, by decide +kernel⟩,
  ⟨wit [(F.DEV_STATE_STATE, 2)], 1, 256, by decide +kernel⟩,
  ⟨wit [(F.DEV_STATE_STATE, 2), (F.DR_STAT_BUSY 1, 1), (F.HOST_LINK_BME, 1), (F.DR_BASE_LO_ADDR 1, 0x1000), (F.DR_TAIL_TAIL 1, 1), (F.DR_CTRL_EN 1, 1)]
    (fun dv => ({ dv with host := [(4096, 17), (4100, 2), (4104, 64), (4113, 32)] } : Dev).setDescRing 1 { fail := some 2 }), 1, ⟨1, true, false, 0,
    0, 2, 64, 8192⟩, 0x1000, .range, by decide +kernel⟩,
  ⟨wit [(F.DEV_STATE_STATE, 2), (F.DR_STAT_BUSY 1, 1), (F.HOST_LINK_BME, 1), (F.DR_BASE_LO_ADDR 1, 0x1000), (F.DR_TAIL_TAIL 1, 1), (F.DR_CTRL_EN 1, 1)]
    (fun dv => ({ dv with host := [(4096, 18), (4100, 8), (4104, 64), (4112, 32), (4113, 16)] } : Dev).setDescRing 1
    { out := some (([9, 8, 7, 6, 5, 4, 3, 2]), 0) }), 1, ⟨2, true, false, 0, 0, 8, 64, 4128⟩, 0x1000, [9, 8, 7, 6, 5, 4, 3, 2], .ok,
    by decide +kernel⟩,
  ⟨wit [(F.DEV_STATE_STATE, 2), (F.DR_STAT_BUSY 1, 1), (F.HOST_LINK_BME, 1), (F.DR_BASE_LO_ADDR 1, 0x1000), (F.DR_TAIL_TAIL 1, 1), (F.DR_CTRL_EN 1, 1),
    (F.RQ_CTRL_EN 1, 1), (F.RQ_RING_LO_ADDR 1, 12288), (F.RQ_RING_SIZE_SIZE 1, 1), (F.RQ_STAT_MODE 1, 2)] (fun dv =>
    ({ dv with host := [(4096, 18), (4100, 8), (4104, 64), (4112, 32), (4113, 16)], mem := [(65, 3), (71, 9)] } : Dev).setQueue 1
    { staging := [⟨5, List.replicate 64 7⟩], bankB := { used := 128 } }), 1, ⟨2, true, false, 0, 0, 8, 64, 4128⟩, 0x1000, 8, by decide +kernel,
    by decide +kernel, by decide +kernel, by decide +kernel, by decide +kernel, by decide +kernel, .inl (by decide +kernel), by decide +kernel⟩⟩

theorem wit_WindowAndRings_2 :
  (∃ (s : State) (r : Nat) (x : Dev.Desc) (a : Nat), (r < 2) ∧ (s.dev.bit (F.DR_STAT_BUSY r) = true) ∧ ((s.dev.descRing r).packed = false) ∧
    (s.dev.canRequest = true) ∧ (x = s.dev.desc r) ∧ (a = s.dev.descAddr r) ∧ ((s.dev.descRing r).out = none) ∧ ((s.dev.descRing r).fail = none) ∧
    (x.kind = 2) ∧ ((s.dev.descRing r).moved = 0) ∧ ((x.len + 4095) / 4096 ≤ s.dev.d2hBlocks r) ∧ (x.host + x.len ≤ a + 28 ∨ a + 32 ≤ x.host)) ∧
  (∃ (s : State) (r : Nat) (x : Dev.Desc) (a : Nat), (r < 2) ∧ (s.dev.bit (F.DR_STAT_BUSY r) = true) ∧ ((s.dev.descRing r).packed = false) ∧
    (s.dev.canRequest = true) ∧ (x = s.dev.desc r) ∧ (a = s.dev.descAddr r) ∧ ((s.dev.descRing r).out = none) ∧ ((s.dev.descRing r).fail = none) ∧
    (x.kind = 1) ∧ (x.dev + x.len ≤ 0x4_0000_0000)) :=
  ⟨⟨wit [(F.DEV_STATE_STATE, 2), (F.DR_STAT_BUSY 1, 1), (F.HOST_LINK_BME, 1), (F.DR_BASE_LO_ADDR 1, 0x1000), (F.DR_TAIL_TAIL 1, 1), (F.DR_CTRL_EN 1, 1)]
    (fun dv => ({ dv with host := [(4096, 18), (4100, 8), (4104, 64), (4112, 32), (4113, 16)], mem := [(65, 3), (71, 9)] } : Dev)), 1, ⟨2, true,
    false, 0, 0, 8, 64, 4128⟩, 0x1000, by decide +kernel⟩,
  ⟨wit [(F.DEV_STATE_STATE, 2), (F.DR_STAT_BUSY 1, 1), (F.HOST_LINK_BME, 1), (F.DR_BASE_LO_ADDR 1, 0x1000), (F.DR_TAIL_TAIL 1, 1), (F.DR_CTRL_EN 1, 1)]
    (fun dv =>
    ({ dv with host := [(4096, 17), (4100, 8), (4104, 248), (4105, 255), (4106, 255), (4107, 255), (4108, 3), (4113, 32), (0x2001, 3), (0x2007, 9)] }
    : Dev)), 1, ⟨1, true, false, 0, 0, 8, 17179869176, 8192⟩, 0x1000, by decide +kernel⟩⟩

theorem wit_PackChannels :
  (∃ (s : State) (c : Nat) (b : PackBlock) (rest : List PackBlock), (c < 4) ∧ ((s.dev.packCh c).now = none) ∧ ((s.dev.packCh c).saving = none) ∧
    ((s.dev.packCh c).queue = b :: rest) ∧ (s.dev.packTakes c = true)) ∧
  (∃ (s : State) (c : Nat) (b : PackBlock) (rest : List PackBlock) (r : Nat), (c < 4) ∧ ((s.dev.packCh c).now = none) ∧ ((s.dev.packCh c).saving = none)
    ∧ ((s.dev.packCh c).queue = b :: rest) ∧ (s.dev.packTakes c = false) ∧ (b.user = .d2h r ∨ b.user = .h2d r) ∧ (r < 2) ∧ (s.dev.canRequest = true)) ∧
  (∃ (s : State) (c : Nat) (b : PackBlock) (r : Nat), (c < 4) ∧ ((s.dev.packCh c).now = some b) ∧ (b.user = .d2h r) ∧ (r < 2) ∧ (s.dev.feat 17 = false)) ∧
  (∃ (s : State) (c : Nat) (b : PackBlock) (r : Nat), (c < 4) ∧ ((s.dev.packCh c).now = some b) ∧ (b.user = .d2h r) ∧ (r < 2) ∧ (s.dev.feat 17 = true)) ∧
  (∃ (s : State) (c : Nat) (b : PackBlock) (r : Nat), (c < 4) ∧ ((s.dev.packCh c).now = some b) ∧ (b.user = .h2d r) ∧ (r < 2) ∧ (Dev.packHeadBad b.room
    b.bytes = true)) ∧
  (∃ (s : State) (c : Nat), (c < 4) ∧ (s.dev.taken 0x0C (0x110 + 0x40 * c)) ∧ ((s.dev.packCh c).now = none) ∧ ((s.dev.packCh c).saving = none) ∧
    (s.dev.packAddr c + 262208 ≤ 0x4_0000_0000)) ∧
  (∃ (s : State) (c : Nat), (c < 4) ∧ (s.dev.taken 0x0C (0x110 + 0x40 * c)) ∧ ((s.dev.packCh c).now.isSome = true) ∧ (s.dev.get (F.BLK_ERR_CODE_CODE
    0x0C) = 0)) ∧
  (∃ (s : State) (c : Nat) (a : Nat), (c < 4) ∧ ((s.dev.packCh c).saving = some (false, a)) ∧ (s.dev.bit (F.PACK_CH_STAT_HELD c) = true)) ∧
  (∃ (s : State) (c : Nat) (a : Nat), (c < 4) ∧ ((s.dev.packCh c).saving = some (true, a)) ∧ (s.dev.read a 4 ≠ 0x5453_4B50)) :=
  ⟨⟨wit [(F.DEV_STATE_STATE, 2), (F.BLK_CTRL_ENABLE 0x0C, 1), (F.PACK_CH_CFG_EN 3, 1)] (fun dv => dv.setPackCh 3
    { queue := [(⟨.h2d 1, [1, 2, 3, 4], 100⟩)] }), 3, ⟨.h2d 1, [1, 2, 3, 4], 100⟩, [], by decide +kernel⟩,
  ⟨wit [(F.DEV_STATE_STATE, 2), (F.HOST_LINK_BME, 1), (F.DR_STAT_BUSY 1, 1), (F.DR_BASE_LO_ADDR 1, 0x1000), (F.DR_TAIL_TAIL 1, 1), (F.DR_CTRL_EN 1, 1)]
    (fun dv => ({ dv with host := [(4096, 18), (4100, 8), (4104, 64), (4112, 32), (4113, 16)] } : Dev).setPackCh 3
    { queue := [(⟨.h2d 1, [1, 2, 3, 4], 100⟩)] }), 3, ⟨.h2d 1, [1, 2, 3, 4], 100⟩, [], 1, by decide +kernel⟩,
  ⟨wit [(F.DEV_STATE_STATE, 2)] (fun dv => ({ dv with accepted := 0x3FDFFFF } : Dev).setPackCh 3
    { now := some (⟨.d2h 1, [1, 2, 3, 4, 1, 2, 3, 4], 100⟩) }), 3, ⟨.d2h 1, [1, 2, 3, 4, 1, 2, 3, 4], 100⟩, 1, by decide +kernel⟩,
  ⟨wit [(F.DEV_STATE_STATE, 2)] (fun dv => dv.setPackCh 3 { now := some (⟨.d2h 1, [1, 2, 3, 4, 1, 2, 3, 4], 100⟩) }), 3, ⟨.d2h 1, [1, 2, 3, 4, 1, 2, 3,
    4], 100⟩, 1, by decide +kernel⟩,
  ⟨wit [(F.DEV_STATE_STATE, 2)] (fun dv => dv.setPackCh 3 { now := some (⟨.h2d 1, [1, 2, 3, 4], 100⟩) }), 3, ⟨.h2d 1, [1, 2, 3, 4], 100⟩, 1,
    by decide +kernel⟩,
  ⟨wit [(F.DEV_STATE_STATE, 2), (F.PACK_CH_ST_ADDR_LO_ADDR_LO 3, 0x3FFEFFF), (F.PACK_CH_ST_ADDR_HI_ADDR_HI 3, 3)], 3, by decide +kernel⟩,
  ⟨wit [(F.DEV_STATE_STATE, 2)] (fun dv => dv.setPackCh 3 { now := some ⟨.d2h 1, [1, 2, 3, 4, 1, 2, 3, 4], 100⟩ }), 3, by decide +kernel⟩,
  ⟨wit [(F.DEV_STATE_STATE, 2), (F.PACK_CH_STAT_HELD 3, 1)] (fun dv => dv.setPackCh 3 { saving := some (false, 4096), table := [(65, 66)] }), 3, 4096,
    by decide +kernel⟩,
  ⟨wit [(F.DEV_STATE_STATE, 2)] (fun dv => dv.setPackCh 3 { saving := some (true, 4096), table := [(65, 66)] }), 3, 4096, by decide +kernel⟩⟩

theorem wit_Observatory_1 :
  (∃ (s : State) (m : _) (v : Int) (rest : List Int), (m < 32) ∧ (s.dev.obsRuns = true) ∧ (s.dev.bit (F.OBS_MON_CFG_EN m) = true) ∧ ((s.dev.monitor
    m).queue = v :: rest)) ∧
  (∃ (s : State), (s.dev.taken 0x0B 0x40) ∧ (s.dev.obs.snapC = some s.dev.time.c)) ∧
  (∃ (s : State) (v : Nat), (s.dev.taken 0x0B 0x40) ∧ (s.dev.obsRuns = true) ∧ (s.dev.obs.snapC ≠ some s.dev.time.c) ∧ (v % 2 = 1)) ∧
  (∃ (s : State), (s.dev.get F.OBS_CTRL_PERIOD ≠ 0) ∧ (s.dev.obsRuns = true) ∧ (s.dev.get F.OBS_CTRL_PERIOD * 1000000 ≤ s.dev.elapsed s.dev.obs.snapAt)
    ∧ (s.dev.obs.snapC ≠ some s.dev.time.c)) ∧
  (∃ (s : State), (s.dev.taken 0x0B 0x5C) ∧ (s.dev.testing 0x0B = true) ∧ (s.dev.enabled 0x0B = true)) ∧
  (∃ (s : State) (m : _) (v : Nat) (hi : _) (b : _), (m < 32) ∧ (s.dev.taken 0x0B (0x100 + 8 * m)) ∧ (s.dev.bit (F.OBS_MON_CFG_EN m) = false) ∧ (v / 2 ^
    31 % 2 = 1) ∧ (obsSource (bitsAt v 0 8) = some (hi, b)) ∧ (bitsAt v 16 8 ≤ hi) ∧ (s.dev.feat b = true) ∧ (v / 2 ^ 30 % 2 = 1 → s.dev.feat 18 =
    true)) ∧
  (∃ (s : State) (m : _) (v : Nat), (m < 32) ∧ (s.dev.taken 0x0B (0x100 + 8 * m)) ∧ (s.dev.bit (F.OBS_MON_CFG_EN m) = false) ∧ (v / 2 ^ 31 % 2 = 1) ∧
    (obsSource (bitsAt v 0 8) = none) ∧ (bitsAt v 0 8 ≠ 0) ∧ (s.dev.get (F.BLK_ERR_CODE_CODE 0x0B) = 0)) ∧
  (∃ (s : State) (m : _), (m < 32) ∧ (s.dev.elapsed s.dev.obs.queueAt < 10000) ∧ (1000000 ≤ s.dev.elapsed s.dev.obs.tjAt) ∧ (s.dev.bit
    (F.BLK_CTRL_ENABLE 0) = true) ∧ (s.dev.bit (F.BLK_STAT_OFFLINE 0) = false) ∧ (s.dev.bit (F.BLK_STAT_STALE 0) = false) ∧ (s.dev.bit
    (F.BLK_CTRL_ENABLE 0x0B) = true) ∧ (s.dev.bit (F.BLK_STAT_OFFLINE 0x0B) = false) ∧ (s.dev.bit (F.BLK_STAT_TEST 0x0B) = false) ∧ (s.dev.bit
    (F.OBS_MON_CFG_EN m) = true) ∧ (s.dev.get (F.OBS_MON_CFG_SRC m) = 0x13) ∧ (s.dev.get (F.OBS_MON_CFG_INST m) = 0) ∧ ((s.dev.monitor m).queue.length
    < 256)) ∧
  (∃ (s : State) (c : _) (k : _) (n : _), (c < 4) ∧ (k < 4) ∧ (n = (if k = 0 then 4 else k)) ∧ (s.dev.taken 0x0A (0x118 + 0x40 * c + 4 * k)) ∧
    (s.dev.offline 0x0A = false) ∧ (s.dev.bit (F.CHK_STAT_BUSY c) = false) ∧ ((s.dev.crcUnit c).queue.length + n ≤ 16)) ∧
  (∃ (s : State) (c : _) (k : _) (n : _), (c < 4) ∧ (k < 4) ∧ (n = (if k = 0 then 4 else k)) ∧ (s.dev.taken 0x0A (0x118 + 0x40 * c + 4 * k)) ∧
    (s.dev.offline 0x0A = false) ∧ (16 < (s.dev.crcUnit c).queue.length + n) ∧ (s.dev.get (F.BLK_ERR_CODE_CODE 0x0A) = 0)) :=
  ⟨⟨wit [(F.DEV_STATE_STATE, 2), (F.BLK_CTRL_ENABLE 0x0B, 1), (F.OBS_MON_CFG_EN 31, 1)] (fun dv => dv.setMonitor 31 { queue := [-3, 4] }), 31, (-3), [4],
    by decide +kernel⟩,
  ⟨wit [(F.DEV_STATE_STATE, 2)] (fun dv => ({ dv with obs := { dv.obs with snapC := some 900 }, time := { c := 900 } } : Dev)), by decide +kernel⟩,
  ⟨wit [(F.DEV_STATE_STATE, 2), (F.BLK_CTRL_ENABLE 0x0B, 1)], 3, by decide +kernel⟩,
  ⟨wit [(F.DEV_STATE_STATE, 2), (F.OBS_CTRL_PERIOD, 5), (F.BLK_CTRL_ENABLE 0x0B, 1)] (fun dv => ({ dv with time := { c := 1000000000000 } } : Dev)),
    by decide +kernel⟩,
  ⟨wit [(F.DEV_STATE_STATE, 2), (F.BLK_CTRL_ENABLE 0x0B, 1), (F.BLK_STAT_TEST 0x0B, 1)], by decide +kernel⟩,
  ⟨wit [(F.DEV_STATE_STATE, 2)], 31, (2 ^ 31 + 2 ^ 30 + 0x13), 0, 0, by decide +kernel⟩,
  ⟨wit [(F.DEV_STATE_STATE, 2)], 31, (2 ^ 31 + 0xFF), by decide +kernel⟩,
  ⟨wit [(F.DEV_STATE_STATE, 2), (F.BLK_CTRL_ENABLE 0, 1), (F.BLK_CTRL_ENABLE 0x0B, 1), (F.OBS_MON_CFG_EN 31, 1), (F.OBS_MON_CFG_SRC 31, 0x13)] (fun dv
    => ({ dv with time := { c := 1009999 }, obs := { dv.obs with queueAt := 1000000 } } : Dev)), 31, by decide +kernel⟩,
  ⟨wit [(F.DEV_STATE_STATE, 2)] (fun dv => dv.setCrcUnit 3 { queue := List.replicate 13 1 }), 3, 3, 3, by decide +kernel⟩,
  ⟨wit [(F.DEV_STATE_STATE, 2)] (fun dv => dv.setCrcUnit 3 { queue := List.replicate 13 1 }), 3, 0, 4, by decide +kernel⟩⟩

theorem wit_Observatory_2 :
  (∃ (s : State) (c : _), (c < 4) ∧ (s.dev.taken 0x0A (0x110 + 0x40 * c)) ∧ (s.dev.bit (F.CHK_STAT_BUSY c) = false) ∧ ((s.dev.crcUnit c).queue = []) ∧
    (s.dev.offline 0x0A = false) ∧ (s.dev.get (F.CHK_LEN_LEN c) ≠ 0) ∧ (s.dev.get (F.CHK_SRC_LO_SRC_LO c) + s.dev.get (F.CHK_SRC_HI_SRC_HI c) * 2 ^ 32
    + s.dev.get (F.CHK_LEN_LEN c) ≤ 0x4_0000_0000)) ∧
  (∃ (s : State) (c : _), (c < 4) ∧ (s.dev.taken 0x0A (0x110 + 0x40 * c)) ∧ (s.dev.bit (F.CHK_STAT_BUSY c) = false) ∧ ((s.dev.crcUnit c).queue = []) ∧
    (s.dev.offline 0x0A = false) ∧ (s.dev.get (F.CHK_LEN_LEN c) = 0) ∧ (s.dev.get (F.BLK_ERR_CODE_CODE 0x0A) = 0)) ∧
  (∃ (s : State) (c : _) (a : _) (n : _) (x : CrcUnit), (c < 4) ∧ (x = s.dev.crcUnit c) ∧ (x.feed = some (a, n)) ∧ (x.bad = false)) :=
  ⟨⟨wit [(F.DEV_STATE_STATE, 2), (F.CHK_LEN_LEN 3, 4), (F.CHK_SRC_LO_SRC_LO 3, 0xFFFF_FFFC), (F.CHK_SRC_HI_SRC_HI 3, 3)], 3, by decide +kernel⟩,
  ⟨wit [(F.DEV_STATE_STATE, 2)], 3, by decide +kernel⟩,
  ⟨wit [(F.DEV_STATE_STATE, 2)] (fun dv => ({ dv with mem := [(65, 3)] } : Dev).setCrcUnit 3 ({ feed := some (64, 3), reg := 5 })), 3, 64, 3,
    { feed := some (64, 3), reg := 5 }, by decide +kernel⟩⟩

theorem wit_MeridianRecords_1 :
  (∃ (s : State) (ws : List Nat) (e : Instr × Nat), (e ∈ [(Instr.heartbeat ws, 1), (.faultRecord ws, 3), (.trigRecord ws, 0x10), (.ledgerRecord ws,
    0x11), (.slotRecord ws, 0x12), (.missRecord ws, 0x13), (.latRecord ws, 0x14), (.digestRecord ws, 0x15), (.join ws, 0x20), (.mirror ws, 0x21),
    (.joinEnd ws, 0x22)]) ∧ (s.dev.enabled 0x90 = true) ∧ (s.dev.bit F.TWIN_STAT_LINK_UP = true) ∧ (ws.getD 0 0 % 256 = e.2) ∧ (merGood ws = false)) ∧
  (∃ (s : State) (ws : List Nat) (e : Instr × Nat), (e ∈ [(Instr.heartbeat ws, 1), (.faultRecord ws, 3), (.trigRecord ws, 0x10), (.ledgerRecord ws,
    0x11), (.slotRecord ws, 0x12), (.missRecord ws, 0x13), (.latRecord ws, 0x14), (.digestRecord ws, 0x15), (.join ws, 0x20), (.mirror ws, 0x21),
    (.joinEnd ws, 0x22)]) ∧ (s.dev.enabled 0x90 = true) ∧ (s.dev.bit F.TWIN_STAT_LINK_UP = true) ∧ (ws.getD 0 0 % 256 = e.2) ∧ (merGood ws = true) ∧
    (2 ^ 31 ≤ (ws.getD 1 0 + 2 ^ 32 - s.dev.mer.rxNext) % 2 ^ 32)) ∧
  (∃ (s : State), (s.dev.enabled 0x90 = true) ∧ (s.dev.bit F.TWIN_STAT_LINK_UP = true) ∧ (10000 ≤ s.dev.elapsed s.dev.mer.hbAt)) ∧
  (∃ (s : State) (ws : List Nat), (s.dev.hears 1 ws) ∧ (ws.getD 4 0 % 16 ≠ 1) ∧ (ws.getD 4 0 % 16 ≠ 8) ∧ (ws.getD 4 0 % 16 ≠ 15)) ∧
  (∃ (s : State) (ws : List Nat), (s.dev.hears 3 ws) ∧ (s.dev.bit F.TWIN_STAT_PARTNER_OK = true) ∧ (s.dev.mer.offer = none) ∧ (s.dev.executing 0x28 =
    false) ∧ (s.dev.feat 1 = false)) ∧
  (∃ (s : State) (ws : List Nat), (s.dev.hears 3 ws) ∧ (s.dev.bit F.TWIN_STAT_PARTNER_OK = true) ∧ (s.dev.mer.offer = none) ∧ (s.dev.executing 0x28 =
    false) ∧ (s.dev.feat 1 = true) ∧ (s.dev.role = 2) ∧ (s.dev.state = 5 ∨ s.dev.state = 6) ∧ (s.dev.laneClockLost = false) ∧ (s.dev.remoteGroups =
    [])) ∧
  (∃ (s : State) (t : _), (s.dev.mer.hbRx = some t) ∧ (32000 ≤ s.dev.elapsed t) ∧ (s.dev.bit F.TWIN_STAT_PARTNER_OK = true) ∧ (s.dev.mer.offer = none) ∧
    (s.dev.executing 0x28 = false) ∧ (s.dev.feat 1 = false)) ∧
  (∃ (s : State) (t : _), (s.dev.mer.hbRx = some t) ∧ (32000 ≤ s.dev.elapsed t) ∧ (s.dev.bit F.TWIN_STAT_PARTNER_OK = true) ∧ (s.dev.mer.offer = none) ∧
    (s.dev.executing 0x28 = false) ∧ (s.dev.feat 1 = true) ∧ (s.dev.role = 2) ∧ (s.dev.state = 5 ∨ s.dev.state = 6) ∧ (s.dev.laneClockLost = false) ∧
    (s.dev.remoteGroups = [])) ∧
  (∃ (s : State) (ws : List Nat), (s.dev.hears 2 ws) ∧ (s.dev.executing 0x28 = false) ∧ (ws.getD 2 0 % 4 = 0) ∧ (s.dev.state = 5 ∨ s.dev.state = 6) ∧
    (s.dev.isShadow = true) ∧ (s.dev.bit F.TWIN_STAT_SYNCED = true) ∧ (s.dev.bit F.TWIN_STAT_PARTNER_OK = true) ∧ (s.dev.laneClockLost = false)) ∧
  (∃ (s : State) (ws : List Nat), (s.dev.hears 2 ws) ∧ (s.dev.executing 0x28 = false) ∧ (ws.getD 2 0 % 4 = 0) ∧ (s.dev.laneClockLost = false) ∧
    (s.dev.isShadow = false ∨ s.dev.bit F.TWIN_STAT_SYNCED = false ∨ (s.dev.state ≠ 5 ∧ s.dev.state ≠ 6))) :=
  ⟨⟨wit [(F.DEV_STATE_STATE, 2), (F.BLK_CTRL_ENABLE 0x90, 1), (F.TWIN_STAT_LINK_UP, 1)], [1, 0, 0, 0], _, List.Mem.head _, by decide +kernel⟩,
  ⟨wit [(F.DEV_STATE_STATE, 2), (F.BLK_CTRL_ENABLE 0x90, 1), (F.TWIN_STAT_LINK_UP, 1)], mrec 1 0 [0] 0xFFFF_FFFF, _, List.Mem.head _, by decide +kernel⟩,
  ⟨wit [(F.DEV_STATE_STATE, 2), (F.BLK_CTRL_ENABLE 0x90, 1), (F.TWIN_STAT_LINK_UP, 1)] (fun dv => ({ dv with time := { c := 10000 } } : Dev)),
    by decide +kernel⟩,
  ⟨wit [(F.DEV_STATE_STATE, 2), (F.BLK_CTRL_ENABLE 0x90, 1), (F.TWIN_STAT_LINK_UP, 1)], mrec 1 7 [0, 0, 5, 0, 9] 0, hears_of (by decide +kernel),
    by decide +kernel⟩,
  ⟨wit [(F.DEV_STATE_STATE, 2), (F.BLK_CTRL_ENABLE 0x90, 1), (F.TWIN_STAT_LINK_UP, 1), (F.TWIN_STAT_PARTNER_OK, 1)] (fun dv =>
    ({ dv with accepted := 0x3FFFFFD } : Dev)), mrec 3 0 [0] 0, hears_of (by decide +kernel), by decide +kernel⟩,
  ⟨wit [(F.DEV_STATE_STATE, 5), (F.BLK_CTRL_ENABLE 0x90, 1), (F.TWIN_STAT_LINK_UP, 1), (F.TWIN_STAT_PARTNER_OK, 1), (F.TWIN_STAT_ROLE, 2)], mrec 3 0 [0]
    0, hears_of (by decide +kernel), by decide +kernel⟩,
  ⟨wit [(F.DEV_STATE_STATE, 2), (F.TWIN_STAT_PARTNER_OK, 1), (F.BLK_CTRL_ENABLE 0x90, 1), (F.TWIN_STAT_LINK_UP, 1)] (fun dv =>
    ({ dv with accepted := 0x3FFFFFD, time := { c := 32000 }, mer := { dv.mer with hbRx := some 0 } } : Dev)), 0, by decide +kernel⟩,
  ⟨wit [(F.DEV_STATE_STATE, 5), (F.TWIN_STAT_PARTNER_OK, 1), (F.TWIN_STAT_ROLE, 2), (F.BLK_CTRL_ENABLE 0x90, 1), (F.TWIN_STAT_LINK_UP, 1)] (fun dv =>
    ({ dv with time := { c := 32000 }, mer := { dv.mer with hbRx := some 0 } } : Dev)), 0, by decide +kernel⟩,
  ⟨wit [(F.DEV_STATE_STATE, 5), (F.BLK_CTRL_ENABLE 0x90, 1), (F.TWIN_STAT_LINK_UP, 1), (F.TWIN_STAT_ROLE, 2), (F.TWIN_STAT_SYNCED, 1),
    (F.TWIN_STAT_PARTNER_OK, 1)], mrec 2 65535 [0] 0, hears_of (by decide +kernel), by decide +kernel⟩,
  ⟨wit [(F.DEV_STATE_STATE, 2), (F.BLK_CTRL_ENABLE 0x90, 1), (F.TWIN_STAT_LINK_UP, 1)], mrec 2 65535 [0] 0, hears_of (by decide +kernel),
    by decide +kernel⟩⟩

theorem wit_MeridianRecords_2 :
  (∃ (s : State) (ws : List Nat), (s.dev.hears 2 ws) ∧ (s.dev.executing 0x28 = false) ∧ (ws.getD 2 0 % 4 = 0) ∧ (s.dev.laneClockLost = true)) ∧
  (∃ (s : State) (ws : List Nat) (e : Nat), (s.dev.hears 2 ws) ∧ (s.dev.executing 0x28 = false) ∧ (ws.getD 2 0 % 4 = 1) ∧ (s.dev.mer.offer = some (e,
    .auto))) ∧
  (∃ (s : State) (ws : List Nat) (e : Nat), (s.dev.hears 2 ws) ∧ (s.dev.executing 0x28 = false) ∧ (ws.getD 2 0 % 4 = 2) ∧ (s.dev.mer.offer = some (e,
    .auto))) ∧
  (∃ (s : State) (ws : List Nat), (s.dev.hears 2 ws) ∧ (s.dev.executing 0x28 = false) ∧ (ws.getD 2 0 % 4 = 3) ∧ (s.dev.isLead = true) ∧ (s.dev.mer.offer
    = none)) ∧
  (∃ (s : State) (ws : List Nat), (s.dev.hears 2 ws) ∧ (s.dev.executing 0x28 = false) ∧ (ws.getD 2 0 % 4 = 3) ∧ (s.dev.isLead = false)) ∧
  (∃ (s : State) (ws : List Nat) (e : Nat), (ws.getD 2 0 % 4 = 2) ∧ (s.dev.hears 2 ws) ∧ (s.dev.executing 0x28 = true) ∧ (s.dev.mer.offer = some (e,
    .command))) ∧
  (∃ (s : State) (ws : List Nat) (p : _), (s.dev.hears 0x10 ws) ∧ (p = merHi ws % 16) ∧ (s.dev.relayedPort p = true) ∧ (s.dev.groupDropped
    (s.dev.groupOf p) = false) ∧ (s.dev.beforeJoin (s.dev.groupOf p) (ws.getD 3 0 + ws.getD 4 0 * 2 ^ 32) = false) ∧ ((s.dev.port p).fifo.length <
    64)) ∧
  (∃ (s : State) (ws : List Nat) (p : _), (s.dev.hears 0x11 ws) ∧ (p = merHi ws % 16) ∧ (s.dev.relayedPort p = true) ∧ (s.dev.groupDropped
    (s.dev.groupOf p) = false) ∧ (merHi ws / 256 % 16 ≠ 2) ∧ (∃ e ∈ (s.dev.port p).fifo, e.index = ws.getD 3 0)) ∧
  (∃ (s : State) (ws : List Nat) (g : Nat) (p : Nat) (e : TrigEntry) (rest : List TrigEntry), (s.dev.hears 0x12 ws) ∧ (s.dev.slotGroup (merHi ws %
    65536) = some g) ∧ (g < 8) ∧ (s.dev.groupDropped g = false) ∧ (s.dev.portsOf g = [p]) ∧ ((s.dev.port p).fifo = e :: rest) ∧ (e.index = ws.getD 2
    0)) ∧
  (∃ (s : State) (g : Nat) (p : Nat) (e : TrigEntry) (rest : List TrigEntry), (g < 8) ∧ (s.dev.portsOf g = [p]) ∧ ((s.dev.port p).fifo = e :: rest) ∧
    (s.dev.groupRemote g = true) ∧ (s.dev.sorting = true) ∧ (s.dev.viewLost g = false) ∧ (s.dev.mer.trigIn.find? (fun x => x.1 = g && x.2.1 = e.index)
    = none) ∧ (1000000 ≤ s.dev.elapsed (Sparse.get s.dev.mer.slotAt 0 g))) :=
  ⟨⟨wit [(F.DEV_STATE_STATE, 2), (F.BLK_CTRL_ENABLE 0x90, 1), (F.TWIN_STAT_LINK_UP, 1), (F.DEV_ENV_STAT_CLK_LOST, 4)], mrec 2 65535 [0] 0, hears_of
    (by decide +kernel), by decide +kernel⟩,
  ⟨wit [(F.DEV_STATE_STATE, 2), (F.BLK_CTRL_ENABLE 0x90, 1), (F.TWIN_STAT_LINK_UP, 1)] (fun dv =>
    ({ dv with mer := { dv.mer with offer := some (5, .auto) } } : Dev)), mrec 2 65535 [1] 0, 5, hears_of (by decide +kernel), by decide +kernel⟩,
  ⟨wit [(F.DEV_STATE_STATE, 2), (F.BLK_CTRL_ENABLE 0x90, 1), (F.TWIN_STAT_LINK_UP, 1)] (fun dv =>
    ({ dv with mer := { dv.mer with offer := some (5, .auto) } } : Dev)), mrec 2 65535 [2] 0, 5, hears_of (by decide +kernel), by decide +kernel⟩,
  ⟨wit [(F.DEV_STATE_STATE, 2), (F.BLK_CTRL_ENABLE 0x90, 1), (F.TWIN_STAT_LINK_UP, 1), (F.TWIN_STAT_ROLE, 1)], mrec 2 65535 [3] 0, hears_of
    (by decide +kernel), by decide +kernel⟩,
  ⟨wit [(F.DEV_STATE_STATE, 2), (F.BLK_CTRL_ENABLE 0x90, 1), (F.TWIN_STAT_LINK_UP, 1)], mrec 2 65535 [3] 0, hears_of (by decide +kernel),
    by decide +kernel⟩,
  ⟨wit [(F.DEV_STATE_STATE, 2), (F.BLK_CTRL_ENABLE 0x90, 1), (F.TWIN_STAT_LINK_UP, 1)] (fun dv =>
    ({ dv with cmd := some ⟨0x28, 0, 0, [0, 0, 0, 0, 0, 0, 0, 0], 0⟩, mer := { dv.mer with offer := some (5, .command) } } : Dev)), mrec 2 65535 [2]
    0, 5, by decide +kernel, hears_of (by decide +kernel), by decide +kernel⟩,
  ⟨wit [(F.DEV_STATE_STATE, 2), (F.BLK_CTRL_ENABLE 0x90, 1), (F.TWIN_STAT_LINK_UP, 1), (F.BLK_STAT_STATE (cxp 15), 9), (F.CXP_CTRL_RELAYED 15, 1),
    (F.CXP_CTRL_GROUP 15, 7)], mrec 16 65535 [5, 4294967295, 255] 0, 15, hears_of (by decide +kernel), by decide +kernel⟩,
  ⟨wit [(F.DEV_STATE_STATE, 2), (F.BLK_CTRL_ENABLE 0x90, 1), (F.TWIN_STAT_LINK_UP, 1), (F.BLK_STAT_STATE (cxp 15), 9), (F.CXP_CTRL_RELAYED 15, 1),
    (F.CXP_CTRL_GROUP 15, 7)] (fun dv => dv.setPort 15 { fifo := [⟨5, 0, []⟩] }), mrec 17 61711 [3, 5, 0] 0, 15, hears_of (by decide +kernel),
    by decide +kernel⟩,
  ⟨wit [(F.DEV_STATE_STATE, 2), (F.BLK_CTRL_ENABLE 0x90, 1), (F.TWIN_STAT_LINK_UP, 1), (F.BLK_STAT_STATE (cxp 15), 9), (F.CXP_CTRL_RELAYED 15, 1),
    (F.CXP_CTRL_GROUP 15, 7)] (fun dv => dv.setPort 15 { fifo := (⟨5, 0, []⟩) :: ([]) }), mrec 18 128 [5, 0] 0, 7, 15, ⟨5, 0, []⟩, [], hears_of
    (by decide +kernel), by decide +kernel⟩,
  ⟨wit [(F.DEV_STATE_STATE, 5), (F.BLK_STAT_STATE (cxp 15), 9), (F.CXP_CTRL_RELAYED 15, 1), (F.CXP_CTRL_GROUP 15, 7)] (fun dv =>
    ({ dv with time := { c := 1000000 } } : Dev).setPort 15 { fifo := (⟨5, 0, []⟩) :: ([]) }), 7, 15, ⟨5, 0, []⟩, [], by decide +kernel⟩⟩

theorem wit_MeridianRecords_3 :
  (∃ (s : State) (ws : List Nat) (b : CBody), (s.dev.hears 0x13 ws) ∧ (s.dev.isShadow = true) ∧ (s.dev.bodyOf (ws.getD 2 0) = some b) ∧ (b.place =
    .queued) ∧ (-(b.grace * 1000 : Nat) ≤ s.dev.toDeadline b)) ∧
  (∃ (s : State) (ws : List Nat), (s.dev.hears 0x13 ws) ∧ (s.dev.bodyOf (ws.getD 2 0) = none) ∧ (s.dev.isShadow = false ∨ s.dev.awaited (ws.getD 2 0) =
    false)) ∧
  (∃ (s : State) (ws : List Nat), (s.dev.hears 0x13 ws) ∧ (s.dev.bodyOf (ws.getD 2 0) = none) ∧ (s.dev.isShadow = true) ∧ (s.dev.awaited (ws.getD 2 0) =
    true)) ∧
  (∃ (s : State) (ws : List Nat), (s.dev.hears 0x14 ws) ∧ (s.dev.isShadow = true)) ∧
  (∃ (s : State) (x : Digest), (s.dev.seg.digests.find? s.dev.digestDue = some x) ∧ (s.dev.bit F.TWIN_STAT_LINK_UP = true) ∧ (s.dev.mer.digIn = [])) ∧
  (∃ (s : State) (ws : List Nat), (s.dev.hears 0x15 ws) ∧ (s.dev.digestOn = true) ∧ (s.dev.seg.digests = [])) ∧
  (∃ (s : State) (ws : List Nat) (x : Digest), (s.dev.hears 0x15 ws) ∧ (s.dev.digestOn = true) ∧ (s.dev.seg.digests = [x]) ∧ (x.sent = true) ∧ (x.index
    = ws.getD 2 0) ∧ (s.dev.lowPort x.group = merHi ws % 16) ∧ (ws.getD 3 0 = x.rowDig) ∧ (ws.getD 4 0 = x.verd)) ∧
  (∃ (s : State) (ws : List Nat) (x : Digest), (s.dev.hears 0x15 ws) ∧ (s.dev.digestOn = true) ∧ (s.dev.seg.digests = [x]) ∧ (x.sent = true) ∧ (x.index
    = ws.getD 2 0) ∧ (s.dev.lowPort x.group = merHi ws % 16) ∧ (ws.getD 3 0 ≠ x.rowDig)) ∧
  (∃ (s : State) (e : DigestIn) (rest : List DigestIn), (s.dev.mer.digIn = e :: rest) ∧ (100000000 ≤ s.dev.elapsed e.at_) ∧ (s.dev.digestOn = true)) ∧
  (∃ (s : State), (s.dev.bit F.TWIN_STAT_LINK_UP = true) ∧ (s.dev.mer.unacked ≠ []) ∧ (20000 ≤ s.dev.elapsed s.dev.mer.ackAt)) :=
  ⟨⟨wit [(F.DEV_STATE_STATE, 2), (F.BLK_CTRL_ENABLE 0x90, 1), (F.TWIN_STAT_LINK_UP, 1), (F.TWIN_STAT_ROLE, 2)] (fun dv =>
    ({ dv with seg := { dv.seg with bodies := [({ id := 7, group := 0, slot := 0, seq := 0, tEj := 0, deadline := 0, retire := 0 })] } } : Dev)), mrec
    19 0 [7] 0, { id := 7, group := 0, slot := 0, seq := 0, tEj := 0, deadline := 0, retire := 0 }, hears_of (by decide +kernel), by decide +kernel⟩,
  ⟨wit [(F.DEV_STATE_STATE, 2), (F.BLK_CTRL_ENABLE 0x90, 1), (F.TWIN_STAT_LINK_UP, 1)], mrec 19 0 [7] 0, hears_of (by decide +kernel),
    by decide +kernel⟩,
  ⟨wit [(F.DEV_STATE_STATE, 2), (F.BLK_CTRL_ENABLE 0x90, 1), (F.TWIN_STAT_LINK_UP, 1), (F.TWIN_STAT_ROLE, 2)] (fun dv =>
    ({ dv with seg := { dv.seg with gens := [(7, 0)] } } : Dev)), mrec 19 0 [7] 0, hears_of (by decide +kernel), by decide +kernel⟩,
  ⟨wit [(F.DEV_STATE_STATE, 2), (F.BLK_CTRL_ENABLE 0x90, 1), (F.TWIN_STAT_LINK_UP, 1), (F.TWIN_STAT_ROLE, 2)], mrec 20 2047 [4294967295] 0, hears_of
    (by decide +kernel), by decide +kernel⟩,
  ⟨wit [(F.DEV_STATE_STATE, 2), (F.TWIN_STAT_LINK_UP, 1)] (fun dv => ({ dv with seg := { dv.seg with digests := [(⟨7, 5, 9, [], [], false, 4, 0⟩)] } } :
    Dev)), ⟨7, 5, 9, [], [], false, 4, 0⟩, by decide +kernel⟩,
  ⟨wit [(F.DEV_STATE_STATE, 2), (F.BLK_CTRL_ENABLE 0x90, 1), (F.TWIN_STAT_LINK_UP, 1), (F.TWIN_CTRL_DIG_EN, 1)], mrec 21 3 [5, 9, 4] 0, hears_of
    (by decide +kernel), by decide +kernel⟩,
  ⟨wit [(F.DEV_STATE_STATE, 2), (F.BLK_CTRL_ENABLE 0x90, 1), (F.TWIN_STAT_LINK_UP, 1), (F.TWIN_CTRL_DIG_EN, 1), (F.CXP_CTRL_GROUP 15, 7)] (fun dv =>
    ({ dv with seg := { dv.seg with digests := [(⟨7, 5, 9, [], [], true, 4, 0⟩)] } } : Dev)), mrec 21 15 [5, 9, 4] 0, ⟨7, 5, 9, [], [], true, 4, 0⟩,
    hears_of (by decide +kernel), by decide +kernel⟩,
  ⟨wit [(F.DEV_STATE_STATE, 2), (F.BLK_CTRL_ENABLE 0x90, 1), (F.TWIN_STAT_LINK_UP, 1), (F.TWIN_CTRL_DIG_EN, 1), (F.CXP_CTRL_GROUP 15, 7)] (fun dv =>
    ({ dv with seg := { dv.seg with digests := [(⟨7, 5, 9, [], [], true, 4, 0⟩)] } } : Dev)), mrec 21 15 [5, 8, 4] 0, ⟨7, 5, 9, [], [], true, 4, 0⟩,
    hears_of (by decide +kernel), by decide +kernel⟩,
  ⟨wit [(F.DEV_STATE_STATE, 2), (F.TWIN_CTRL_DIG_EN, 1)] (fun dv =>
    ({ dv with time := { c := 100000000 }, mer := { dv.mer with digIn := (⟨0, 0, 0, 0, 0⟩) :: ([]) } } : Dev)), ⟨0, 0, 0, 0, 0⟩, [],
    by decide +kernel⟩,
  ⟨wit [(F.DEV_STATE_STATE, 2), (F.TWIN_STAT_LINK_UP, 1)] (fun dv =>
    ({ dv with time := { c := 20000 }, mer := { dv.mer with unacked := [(1, [5]), (2, [6])] } } : Dev)), by decide +kernel⟩⟩

theorem wit_TwinJoins_1 :
  (∃ (s : State) (v : Nat), (s.dev.taken 0x90 0x40) ∧ (v / 16 % 2 = 0) ∧ (bitsAt v 24 8 ≠ 0) ∧ (bitsAt v 16 8 ≠ 0) ∧ (s.dev.get F.TWIN_STAT_LANES = 0 ∨
    s.dev.get F.TWIN_STAT_LANES &&& (15 - bitsAt v 8 4) ≠ 0)) ∧
  (∃ (s : State) (v : Nat), (s.dev.taken 0x90 0x40) ∧ (v / 16 % 2 = 0) ∧ (bitsAt v 24 8 ≠ 0) ∧ (bitsAt v 16 8 ≠ 0) ∧ (s.dev.get F.TWIN_STAT_LANES ≠ 0) ∧
    (s.dev.get F.TWIN_STAT_LANES &&& (15 - bitsAt v 8 4) = 0) ∧ (s.dev.get (F.BLK_ERR_CODE_CODE 0x90) = 0)) ∧
  (∃ (s : State) (v : Nat), (s.dev.taken 0x90 0x40) ∧ (bitsAt v 24 8 = 0) ∧ (s.dev.get (F.BLK_ERR_CODE_CODE 0x90) = 0)) ∧
  (∃ (s : State) (t : Nat), (s.dev.mer.waiting = some t) ∧ (s.dev.get F.TWIN_CTRL_START_WAIT * 1000000 ≤ s.dev.elapsed t) ∧ (s.dev.state = 5 ∨
    s.dev.state = 6) ∧ (s.dev.laneClockLost = false) ∧ (s.dev.bit F.TWIN_STAT_PARTNER_OK = false) ∧ (s.dev.remoteGroups = [])) ∧
  (∃ (s : State) (v : Nat) (at_ : Nat), (s.dev.taken 0x90 0x40) ∧ (bitsAt v 24 8 ≠ 0) ∧ (bitsAt v 16 8 ≠ 0) ∧ (bitsAt v 8 4 = s.dev.get
    F.TWIN_CTRL_LANE_WD) ∧ (s.dev.get F.TWIN_STAT_LANES = 0 ∨ s.dev.get F.TWIN_STAT_LANES &&& (15 - bitsAt v 8 4) ≠ 0) ∧ (s.dev.get F.TWIN_STAT_LANES
    = (List.range 4).foldl (fun n m => n + b2n (s.dev.merCarries m) * 2 ^ m) 0) ∧ (s.dev.isLead = true) ∧ (at_ = s.dev.st40At F.TWIN_JOIN_AT_LO_AT_LO
    F.TWIN_JOIN_AT_HI_AT_HI) ∧ (20000000 ≤ st40Diff at_ s.dev.now) ∧ (st40Diff at_ s.dev.now ≤ 10000000000) ∧ (s.dev.bit F.TWIN_STAT_PARTNER_OK =
    true) ∧ (s.dev.mer.pRole = 3) ∧ (s.dev.get F.TWIN_CFG_CHECK_CHECK = s.dev.get F.TWIN_PCFG_CHECK_CHECK) ∧ (Dev.loadAbove (s.dev.loadedPorts.map
    s.dev.portLoad) 400 = false) ∧ (s.dev.bit F.TWIN_STAT_LINK_UP = true)) ∧
  (∃ (s : State) (v : Nat), (s.dev.taken 0x90 0x40) ∧ (bitsAt v 24 8 ≠ 0) ∧ (bitsAt v 16 8 ≠ 0) ∧ (bitsAt v 8 4 = s.dev.get F.TWIN_CTRL_LANE_WD) ∧
    (s.dev.get F.TWIN_STAT_LANES = 0 ∨ s.dev.get F.TWIN_STAT_LANES &&& (15 - bitsAt v 8 4) ≠ 0) ∧ (s.dev.get F.TWIN_STAT_LANES = (List.range 4).foldl
    (fun n m => n + b2n (s.dev.merCarries m) * 2 ^ m) 0) ∧ (s.dev.isLead = false) ∧ (s.dev.get (F.BLK_ERR_CODE_CODE 0x90) = 0)) ∧
  (∃ (s : State) (ws : List Nat), (s.dev.hears 0x20 ws) ∧ (s.dev.role = 3)) ∧
  (∃ (s : State), (s.dev.get F.TWIN_JOIN_STAT_PHASE = 1) ∧ (s.dev.mer.joinAt ≤ s.dev.now) ∧ (s.dev.role = 3)) ∧
  (∃ (s : State), (s.dev.get F.TWIN_JOIN_STAT_PHASE = 1) ∧ (s.dev.mer.joinAt ≤ s.dev.now) ∧ (s.dev.isLead = true) ∧ (s.dev.bit F.TWIN_STAT_LINK_UP =
    true)) ∧
  (∃ (s : State) (ws : List Nat) (m : Nat) (base : Nat) (len : Nat), (s.dev.hears 0x21 ws) ∧ (s.dev.role = 3) ∧ (s.dev.get F.TWIN_JOIN_STAT_PHASE ≠ 0) ∧
    (m = merHi ws % 256) ∧ (m ≠ 1) ∧ (m ≠ 5) ∧ (Dev.mirrorArea m = some (base, len))) :=
  ⟨⟨wit [(F.DEV_STATE_STATE, 2)], 0x0101_0F00, by decide +kernel⟩,
  ⟨wit [(F.DEV_STATE_STATE, 2), (F.TWIN_STAT_LANES, 15)], 0xFFFF_0F00, by decide +kernel⟩,
  ⟨wit [(F.DEV_STATE_STATE, 2)], 0x00FF_0F00, by decide +kernel⟩,
  ⟨wit [(F.DEV_STATE_STATE, 5), (F.TWIN_CTRL_START_WAIT, 1)] (fun dv => ({ dv with time := { c := 1000000 }, mer := { dv.mer with waiting := some 0 } }
    : Dev)), 0, by decide +kernel⟩,
  ⟨wit [(F.DEV_STATE_STATE, 2), (F.TWIN_STAT_LANES, 0), (F.TWIN_STAT_ROLE, 1), (F.TWIN_STAT_PARTNER_OK, 1), (F.TWIN_CFG_CHECK_CHECK, 5),
    (F.TWIN_STAT_LINK_UP, 1), (F.TWIN_JOIN_AT_LO_AT_LO, 20000000), (F.TWIN_PCFG_CHECK_CHECK, 5)] (fun dv =>
    ({ dv with time := { c := 0 }, mer := { dv.mer with pRole := 3 } } : Dev)), 0x0101_0010, 20000000, by decide +kernel⟩,
  ⟨wit [(F.DEV_STATE_STATE, 2), (F.TWIN_STAT_LANES, 0)], 0x0101_0010, by decide +kernel⟩,
  ⟨wit [(F.DEV_STATE_STATE, 2), (F.BLK_CTRL_ENABLE 0x90, 1), (F.TWIN_STAT_LINK_UP, 1), (F.TWIN_STAT_ROLE, 3)], mrec 32 0 [5, 6] 0, hears_of
    (by decide +kernel), by decide +kernel⟩,
  ⟨wit [(F.DEV_STATE_STATE, 2), (F.TWIN_JOIN_STAT_PHASE, 1), (F.TWIN_STAT_ROLE, 3)] (fun dv => ({ dv with time := { c := 1000000000000 } } : Dev)),
    by decide +kernel⟩,
  ⟨wit [(F.DEV_STATE_STATE, 2), (F.TWIN_JOIN_STAT_PHASE, 1), (F.TWIN_STAT_ROLE, 1), (F.TWIN_STAT_LINK_UP, 1)] (fun dv =>
    ({ dv with time := { c := 1000000000000 } } : Dev)), by decide +kernel⟩,
  ⟨wit [(F.DEV_STATE_STATE, 2), (F.BLK_CTRL_ENABLE 0x90, 1), (F.TWIN_STAT_LINK_UP, 1), (F.TWIN_STAT_ROLE, 3), (F.TWIN_JOIN_STAT_PHASE, 1)], mrec 33 2
    [0, 1, 2, 3] 0, 2, 0x4_2000_0000, 0x200_0000, hears_of (by decide +kernel), by decide +kernel⟩⟩

theorem wit_TwinJoins_2 :
  (∃ (s : State) (ws : List Nat), (s.dev.hears 0x22 ws) ∧ (s.dev.role = 3) ∧ (s.dev.get F.TWIN_JOIN_STAT_PHASE ≠ 0)) ∧
  (∃ (s : State), (s.dev.role = 3) ∧ (s.dev.get F.TWIN_JOIN_STAT_PHASE = 3)) ∧
  (∃ (s : State), (s.dev.taken 0x90 0x74)) :=
  ⟨⟨wit [(F.DEV_STATE_STATE, 2), (F.BLK_CTRL_ENABLE 0x90, 1), (F.TWIN_STAT_LINK_UP, 1), (F.TWIN_STAT_ROLE, 3), (F.TWIN_JOIN_STAT_PHASE, 2)], mrec 34 0
    [5] 0, hears_of (by decide +kernel), by decide +kernel⟩,
  ⟨wit [(F.DEV_STATE_STATE, 2), (F.TWIN_STAT_ROLE, 3), (F.TWIN_JOIN_STAT_PHASE, 3)], by decide +kernel⟩,
  ⟨wit [(F.DEV_STATE_STATE, 2)], by decide +kernel⟩⟩

theorem wit_TetherChain_1 :
  (∃ (s : State) (b : List Nat) (e : Instr), (e ∈ [Instr.enum b, .read b, .write b, .bulk b]) ∧ (s.dev.repeats = true) ∧ (tethGood b = false)) ∧
  (∃ (s : State) (b : List Nat), (s.dev.takes 1 b) ∧ (s.dev.bit F.TETH_ADDR_LAST = false) ∧ (b.getD 4 0 < 65) ∧ (b.getD 0 0 % 2 = 1 ∨ s.dev.tethAddr =
    0)) ∧
  (∃ (s : State) (b : List Nat), (s.dev.takes 1 b) ∧ (s.dev.bit F.TETH_ADDR_LAST = false) ∧ (65 ≤ b.getD 4 0)) ∧
  (∃ (s : State) (b : List Nat) (t : Nat), (s.dev.takes 2 b) ∧ (s.dev.teth.enumAt = some t)) ∧
  (∃ (s : State) (b : List Nat) (f : List Nat), (s.dev.takes 3 b) ∧ (s.dev.teth.bulk = none) ∧ (s.dev.teth.held = []) ∧ (s.dev.tethMine (b.getD 1 0) =
    true) ∧ (frameWord b 4 4 = 0x34) ∧ (f = frame16 ([0x50, 0, s.dev.tethAddr, b.getD 3 0] ++ leBytes 4 (s.dev.get (F.BLK_SCRATCH_SCRATCH 0)) ++ [0,
    3, 0, 0, 0, 0])) ∧ (s.dev.teth.ret.busyTo ≤ s.dev.time.c)) ∧
  (∃ (s : State) (b : List Nat) (f : List Nat), (s.dev.takes 3 b) ∧ (s.dev.teth.bulk = none) ∧ (s.dev.teth.held = []) ∧ (s.dev.tethMine (b.getD 1 0) =
    true) ∧ (frameWord b 4 4 = 0x34) ∧ (f = frame16 ([0x50, 0, s.dev.tethAddr, b.getD 3 0] ++ leBytes 4 (s.dev.get (F.BLK_SCRATCH_SCRATCH 0)) ++ [0,
    3, 0, 0, 0, 0])) ∧ (s.dev.time.c < s.dev.teth.ret.busyTo)) ∧
  (∃ (s : State) (b : List Nat), (s.dev.takes 3 b) ∧ (s.dev.teth.bulk = none) ∧ (s.dev.teth.held = []) ∧ (s.dev.tethMine (b.getD 1 0) = true) ∧
    (frameWord b 4 4 % 4 ≠ 0) ∧ (s.dev.teth.ret.busyTo ≤ s.dev.time.c) ∧ (s.dev.get (F.BLK_ERR_CODE_CODE 0) = 0) ∧ (s.dev.testBit
    (F.TETH_EVT_MASK_MASK 0) 0 = false)) ∧
  (∃ (s : State) (b : List Nat), (s.dev.takes 3 b) ∧ (s.dev.tethMine (b.getD 1 0) = false) ∧ (s.dev.teth.bulk = none)) ∧
  (∃ (s : State) (b : List Nat), (s.dev.takes 3 b) ∧ (s.dev.tethMine (b.getD 1 0) = false) ∧ (s.dev.teth.bulk.isSome = true)) ∧
  (∃ (s : State) (b : List Nat), (s.dev.takes 4 b) ∧ (frameWord b 4 4 = 0x34) ∧ (s.dev.teth.bulk = none) ∧ (s.dev.tethMine (b.getD 1 0) = true) ∧
    (s.dev.teth.held = []) ∧ (s.dev.teth.ret.busyTo ≤ s.dev.time.c)) :=
  ⟨⟨wit [(F.DEV_STATE_STATE, 2)] (fun dv => dv.setPin .tethOut .run), [0x30, 5], _, List.Mem.head _, by decide +kernel⟩,
  ⟨wit [(F.DEV_STATE_STATE, 2)] (fun dv => dv.setPin .tethOut .run), tf [16, 127, 0, 0, 64], takes_of (by decide +kernel), by decide +kernel⟩,
  ⟨wit [(F.DEV_STATE_STATE, 2)] (fun dv => dv.setPin .tethOut .run), tf [16, 127, 0, 0, 65], takes_of (by decide +kernel), by decide +kernel⟩,
  ⟨wit [(F.DEV_STATE_STATE, 2)] (fun dv => ({ dv with teth := { dv.teth with enumAt := some 0 } } : Dev).setPin .tethOut .run), tf [32, 0, 0, 0, 255],
    0, takes_of (by decide +kernel), by decide +kernel⟩,
  ⟨wit [(F.DEV_STATE_STATE, 2), (F.TETH_ADDR_ADDR, 64)] (fun dv => ({ dv with teth := { dv.teth with ret := { busyTo := 9 } }, time := { c := 9 } } :
    Dev).setPin .tethOut .run), tf [48, 64, 1, 9, 52], frame16 ([0x50, 0, (wit [(F.DEV_STATE_STATE, 2), (F.TETH_ADDR_ADDR, 64)] (fun dv =>
    ({ dv with teth := { dv.teth with ret := { busyTo := 9 } }, time := { c := 9 } } : Dev).setPin .tethOut .run)).dev.tethAddr, (tf [48, 64, 1, 9,
    52]).getD 3 0] ++ leBytes 4 ((wit [(F.DEV_STATE_STATE, 2), (F.TETH_ADDR_ADDR, 64)] (fun dv =>
    ({ dv with teth := { dv.teth with ret := { busyTo := 9 } }, time := { c := 9 } } : Dev).setPin .tethOut .run)).dev.get (F.BLK_SCRATCH_SCRATCH 0))
    ++ [0, 3, 0, 0, 0, 0]), takes_of (by decide +kernel), by decide +kernel⟩,
  ⟨wit [(F.DEV_STATE_STATE, 2), (F.TETH_ADDR_ADDR, 64)] (fun dv => ({ dv with teth := { dv.teth with ret := { busyTo := 10 } }, time := { c := 9 } } :
    Dev).setPin .tethOut .run), tf [48, 64, 1, 9, 52], frame16 ([0x50, 0, (wit [(F.DEV_STATE_STATE, 2), (F.TETH_ADDR_ADDR, 64)] (fun dv =>
    ({ dv with teth := { dv.teth with ret := { busyTo := 10 } }, time := { c := 9 } } : Dev).setPin .tethOut .run)).dev.tethAddr, (tf [48, 64, 1, 9,
    52]).getD 3 0] ++ leBytes 4 ((wit [(F.DEV_STATE_STATE, 2), (F.TETH_ADDR_ADDR, 64)] (fun dv =>
    ({ dv with teth := { dv.teth with ret := { busyTo := 10 } }, time := { c := 9 } } : Dev).setPin .tethOut .run)).dev.get (F.BLK_SCRATCH_SCRATCH 0))
    ++ [0, 3, 0, 0, 0, 0]), takes_of (by decide +kernel), by decide +kernel⟩,
  ⟨wit [(F.DEV_STATE_STATE, 2), (F.TETH_ADDR_ADDR, 64)] (fun dv => dv.setPin .tethOut .run), tf [48, 64, 1, 9, 53], takes_of (by decide +kernel),
    by decide +kernel⟩,
  ⟨wit [(F.DEV_STATE_STATE, 2), (F.TETH_ADDR_ADDR, 64)] (fun dv => dv.setPin .tethOut .run), tf [48, 63, 1, 9, 52], takes_of (by decide +kernel),
    by decide +kernel⟩,
  ⟨wit [(F.DEV_STATE_STATE, 2)] (fun dv => ({ dv with teth := { dv.teth with bulk := some ⟨7, 0, 5⟩ } } : Dev).setPin .tethOut .run), tf [48, 64, 1, 9,
    52], takes_of (by decide +kernel), by decide +kernel⟩,
  ⟨wit [(F.DEV_STATE_STATE, 2), (F.TETH_ADDR_ADDR, 64)] (fun dv => dv.setPin .tethOut .run), tf [64, 64, 1, 9, 52, 0, 0, 0, 255, 255, 255, 255],
    takes_of (by decide +kernel), by decide +kernel⟩⟩

theorem wit_TetherChain_2 :
  (∃ (s : State) (b : List Nat), (s.dev.takes 4 b) ∧ (frameWord b 4 4 = 0x34) ∧ (s.dev.teth.bulk = none) ∧ (s.dev.tethMine (b.getD 1 0) = false) ∧
    (b.getD 1 0 = 0x7F)) ∧
  (∃ (s : State) (b : List Nat) (x : Bridge), (s.dev.takes 5 b) ∧ (s.dev.teth.bridge = some x) ∧ (b.getD 2 0 = x.dst) ∧ (b.getD 3 0 = x.tag)) ∧
  (∃ (s : State) (b : List Nat), (s.dev.takes 6 b) ∧ (b.getD 1 0 = 0x7F) ∧ (s.dev.state = 1) ∧ (s.dev.bit F.SEC_BOOT_STAT_WAITING = true) ∧
    (s.dev.boot.recovery = true ∨ s.dev.boot.src = 2) ∧ (frameWord b 2 3 < 0x8_0000)) ∧
  (∃ (s : State) (b : List Nat), (s.dev.takes 7 b) ∧ (s.dev.feat 24 = true) ∧ (s.dev.teth.events.length < 64)) ∧
  (∃ (s : State) (b : List Nat), (s.dev.takes 7 b) ∧ (s.dev.feat 24 = true) ∧ (64 ≤ s.dev.teth.events.length)) ∧
  (∃ (s : State), (s.dev.taken 7 0x80) ∧ (s.dev.feat 24 = true) ∧ (s.dev.teth.bridge = none) ∧ (s.dev.teth.enumAt = none)) ∧
  (∃ (s : State), (s.dev.taken 7 0x80) ∧ (s.dev.feat 24 = false) ∧ (s.dev.get (F.BLK_ERR_CODE_CODE 7) = 0)) ∧
  (∃ (s : State) (t : Nat), (s.dev.teth.enumAt = some t) ∧ (1000000 ≤ s.dev.elapsed t) ∧ (s.dev.get (F.BLK_ERR_CODE_CODE 7) = 0)) ∧
  (∃ (s : State) (v : Nat), (s.dev.taken 7 0x84) ∧ (s.dev.feat 24 = true) ∧ (2 ≤ bitsAt v 0 7) ∧ (bitsAt v 0 7 ≤ 64) ∧ (s.dev.bit F.TETH_BR_STAT_BUSY =
    false)) ∧
  (∃ (s : State) (v : Nat), (s.dev.taken 7 0x84) ∧ (s.dev.feat 24 = true) ∧ (2 ≤ bitsAt v 0 7) ∧ (bitsAt v 0 7 ≤ 64) ∧ (s.dev.bit F.TETH_BR_STAT_BUSY =
    true) ∧ (s.dev.get (F.BLK_ERR_CODE_CODE 7) = 0)) :=
  ⟨⟨wit [(F.DEV_STATE_STATE, 2), (F.TETH_ADDR_ADDR, 64)] (fun dv => dv.setPin .tethOut .run), tf [64, 127, 1, 9, 52, 0, 0, 0, 5], takes_of
    (by decide +kernel), by decide +kernel⟩,
  ⟨wit [(F.DEV_STATE_STATE, 2)] (fun dv => ({ dv with teth := { dv.teth with bridge := some (⟨7, false, 9, 0⟩) } } : Dev).setPin .tethOut .run), tf [80,
    0, 7, 9], ⟨7, false, 9, 0⟩, takes_of (by decide +kernel), by decide +kernel⟩,
  ⟨wit [(F.DEV_STATE_STATE, 1), (F.SEC_BOOT_STAT_WAITING, 1)] (fun dv => ({ dv with boot := { dv.boot with src := 2 } } : Dev).setPin .tethOut .run), tf
    [96, 127, 255, 255, 7, 1, 2, 3, 4, 5, 6, 7, 8], takes_of (by decide +kernel), by decide +kernel⟩,
  ⟨wit [(F.DEV_STATE_STATE, 2)] (fun dv => ({ dv with teth := { dv.teth with events := List.replicate 63 5 } } : Dev).setPin .tethOut .run), tf [112, 0,
    255, 255], takes_of (by decide +kernel), by decide +kernel⟩,
  ⟨wit [(F.DEV_STATE_STATE, 2)] (fun dv => ({ dv with teth := { dv.teth with events := List.replicate 64 5 } } : Dev).setPin .tethOut .run), tf [112, 0,
    255, 255], takes_of (by decide +kernel), by decide +kernel⟩,
  ⟨wit [(F.DEV_STATE_STATE, 2)], by decide +kernel⟩,
  ⟨wit [(F.DEV_STATE_STATE, 2)] (fun dv => ({ dv with accepted := 0x2FFFFFF } : Dev)), by decide +kernel⟩,
  ⟨wit [(F.DEV_STATE_STATE, 2)] (fun dv => ({ dv with time := { c := 1000000 }, teth := { dv.teth with enumAt := some 0 } } : Dev)), 0,
    by decide +kernel⟩,
  ⟨wit [(F.DEV_STATE_STATE, 2)], 2, by decide +kernel⟩,
  ⟨wit [(F.DEV_STATE_STATE, 2), (F.TETH_BR_STAT_BUSY, 1)], 64, by decide +kernel⟩⟩

theorem wit_TetherChain_3 :
  (∃ (s : State) (x : Bridge), (s.dev.teth.bridge = some x) ∧ (100000 ≤ s.dev.elapsed x.sent)) ∧
  (∃ (s : State) (x : Bridge), (s.dev.teth.bridge = some x) ∧ (x.write = true) ∧ (x.dst = 0x7F) ∧ (s.dev.teth.fwd.busyTo ≤ s.dev.time.c + 1) ∧
    (s.pending = [])) ∧
  (∃ (s : State) (x : Bulk), (s.dev.teth.bulk = some x) ∧ (x.next < x.stop) ∧ (s.dev.teth.fwd.busyTo ≤ s.dev.time.c + 1) ∧ (s.pending = [])) ∧
  (∃ (s : State) (v : Nat), (s.dev.taken 7 0xA0) ∧ (s.dev.feat 24 = true) ∧ (bitsAt v 0 7 = 0x7F) ∧ (s.dev.bit F.TETH_BR_STAT_BUSY = false) ∧ (s.dev.get
    F.TETH_BULK_FIRST_FIRST < s.dev.get F.TETH_BULK_LEN_LEN / 8)) ∧
  (∃ (s : State) (x : Bulk), (s.dev.teth.bulk = some x) ∧ (x.stop ≤ x.next) ∧ (s.dev.teth.fwd.busyTo ≤ s.dev.time.c)) ∧
  (∃ (s : State) (e : Nat) (rest : List Nat), (s.dev.feat 24 = true) ∧ (s.dev.teth.events = e :: rest)) ∧
  (∃ (s : State), (s.dev.power.porstLow = false)) :=
  ⟨⟨wit [(F.DEV_STATE_STATE, 2)] (fun dv => ({ dv with time := { c := 100000 }, teth := { dv.teth with bridge := some (⟨7, false, 9, 0⟩) } } : Dev)), ⟨7,
    false, 9, 0⟩, by decide +kernel⟩,
  ⟨wit [(F.DEV_STATE_STATE, 2)] (fun dv =>
    ({ dv with teth := { dv.teth with bridge := some (⟨0x7F, true, 9, 0⟩), fwd := { busyTo := 10 } }, time := { c := 9 } } : Dev)), ⟨0x7F, true, 9,
    0⟩, by decide +kernel⟩,
  ⟨wit [(F.DEV_STATE_STATE, 2)] (fun dv => ({ dv with teth := { dv.teth with bulk := some (⟨7, 0, 5⟩), fwd := { busyTo := 10 } }, time := { c := 9 } } :
    Dev)), ⟨7, 0, 5⟩, by decide +kernel⟩,
  ⟨wit [(F.DEV_STATE_STATE, 2), (F.TETH_BULK_LEN_LEN, 8)], 0x8000_007F, by decide +kernel⟩,
  ⟨wit [(F.DEV_STATE_STATE, 2)] (fun dv => ({ dv with teth := { dv.teth with bulk := some (⟨7, 5, 5⟩) } } : Dev)), ⟨7, 5, 5⟩, by decide +kernel⟩,
  ⟨wit [(F.DEV_STATE_STATE, 2)] (fun dv => ({ dv with teth := { dv.teth with events := 5 :: ([6]) } } : Dev)), 5, [6], by decide +kernel⟩,
  ⟨wit [(F.DEV_STATE_STATE, 2)], by decide +kernel⟩⟩

theorem wit_BootAndKeys_1 :
  (∃ (s : State) (v : Nat), (s.dev.taken 8 0x58) ∧ (v / 2 ^ 31 % 2 = 1) ∧ (s.dev.boot.goAt = some s.dev.time.c) ∧ (s.dev.get (F.BLK_ERR_CODE_CODE 8) =
    0)) ∧
  (∃ (s : State) (v : Nat) (teth : Bool), (s.dev.taken 8 0x58) ∧ (v / 2 ^ 31 % 2 = 1) ∧ (teth = false ∨ s.dev.boot.goAt ≠ some s.dev.time.c) ∧
    (s.dev.state = 1) ∧ (s.dev.bit F.SEC_BOOT_STAT_WAITING = true) ∧ (imageLenOk (bitsAt v 0 23) = true) ∧ (s.dev.imageFault s.dev.sramBytes (bitsAt v
    0 23) = 0)) ∧
  (∃ (s : State) (v : Nat) (teth : Bool) (c : Nat), (s.dev.taken 8 0x58) ∧ (v / 2 ^ 31 % 2 = 1) ∧ (teth = false ∨ s.dev.boot.goAt ≠ some s.dev.time.c) ∧
    (s.dev.state = 1) ∧ (s.dev.bit F.SEC_BOOT_STAT_WAITING = true) ∧ (imageLenOk (bitsAt v 0 23) = true) ∧ (s.dev.imageFault s.dev.sramBytes (bitsAt v
    0 23) = c) ∧ (c ≠ 0)) ∧
  (∃ (s : State) (v : Nat) (teth : Bool), (s.dev.taken 8 0x58) ∧ (v / 2 ^ 31 % 2 = 1) ∧ (teth = false ∨ s.dev.boot.goAt ≠ some s.dev.time.c) ∧
    (s.dev.state ≠ 1) ∧ (s.dev.get (F.BLK_ERR_CODE_CODE 8) = 0)) ∧
  (∃ (s : State) (v : Nat), (s.dev.taken 8 0x58) ∧ (v / 2 ^ 31 % 2 = 0)) ∧
  (∃ (s : State) (v : Nat), (s.dev.taken 8 0xC0) ∧ (bitsAt v 16 16 = 0x4F54) ∧ (s.dev.state = 2) ∧ (s.dev.bit F.SEC_KEY_PROG_BUSY = false) ∧ (v / 16 % 2
    = 0) ∧ (v / 8 % 2 = 1) ∧ (s.dev.testBit F.SEC_LIFE_PROG_FUSED (v % 4) = false)) ∧
  (∃ (s : State) (v : Nat), (s.dev.taken 8 0xC0) ∧ (bitsAt v 16 16 = 0x4F54) ∧ (s.dev.state = 2) ∧ (s.dev.bit F.SEC_KEY_PROG_BUSY = false) ∧ (v / 16 % 2
    = 0) ∧ (v / 8 % 2 = 1) ∧ (s.dev.testBit F.SEC_LIFE_PROG_FUSED (v % 4) = true) ∧ (s.dev.get (F.BLK_ERR_CODE_CODE 8) = 0)) ∧
  (∃ (s : State) (v : Nat), (s.dev.taken 8 0xC0) ∧ (bitsAt v 16 16 = 0x4F54) ∧ (s.dev.state = 2) ∧ (s.dev.bit F.SEC_KEY_PROG_BUSY = false) ∧ (v / 16 % 2
    = 1) ∧ (v / 8 % 2 = 1 ∨ s.dev.revokeBarred (v % 4) = false)) ∧
  (∃ (s : State) (v : Nat), (s.dev.taken 8 0xC0) ∧ (bitsAt v 16 16 = 0x4F54) ∧ (s.dev.state = 2) ∧ (s.dev.bit F.SEC_KEY_PROG_BUSY = false) ∧ (v / 16 % 2
    = 1) ∧ (v / 8 % 2 = 0) ∧ (s.dev.revokeBarred (v % 4) = true) ∧ (s.dev.get (F.BLK_ERR_CODE_CODE 8) = 0)) ∧
  (∃ (s : State) (v : Nat) (i : Instr), (s.dev.taken 8 0xC0) ∧ (s.dev.state ≠ 2) ∧ (s.dev.get (F.BLK_ERR_CODE_CODE 8) = 0) ∧ (i ∈ [Instr.keyProgram v,
    .keyRevoke v])) :=
  ⟨⟨wit [(F.DEV_STATE_STATE, 2)] (fun dv => ({ dv with boot := { dv.boot with goAt := some 9 }, time := { c := 9 } } : Dev)), (2 ^ 31),
    by decide +kernel⟩,
  ⟨wit [(F.DEV_STATE_STATE, 1), (F.SEC_BOOT_STAT_WAITING, 1), (F.SEC_LIFE_LIFECYCLE, 0)] (fun dv =>
    ({ dv with boot := { dv.boot with src := 1, sram := toCells 0 (img320 0 255) } } : Dev)), (2 ^ 31 + 320), false, by decide +kernel⟩,
  ⟨wit [(F.DEV_STATE_STATE, 1), (F.SEC_BOOT_STAT_WAITING, 1), (F.SEC_LIFE_LIFECYCLE, 0)] (fun dv =>
    ({ dv with boot := { dv.boot with src := 1, sram := toCells 0 (img320 0 255 true) } } : Dev)), (2 ^ 31 + 320), true, 6, by decide +kernel⟩,
  ⟨wit [(F.DEV_STATE_STATE, 2)], (2 ^ 31), false, by decide +kernel⟩,
  ⟨wit [(F.DEV_STATE_STATE, 2)], (2 ^ 31 - 1), by decide +kernel⟩,
  ⟨wit [(F.DEV_STATE_STATE, 2)], 0x4F54_000B, by decide +kernel⟩,
  ⟨wit [(F.DEV_STATE_STATE, 2), (F.SEC_LIFE_PROG_FUSED, 8)], 0x4F54_000B, by decide +kernel⟩,
  ⟨wit [(F.DEV_STATE_STATE, 2)], 0x4F54_0013, by decide +kernel⟩,
  ⟨wit [(F.DEV_STATE_STATE, 2), (F.SEC_LIFE_FW_FUSED, 8)], 0x4F54_0013, by decide +kernel⟩,
  ⟨wit [(F.DEV_STATE_STATE, 5)], 5, _, by decide +kernel, by decide +kernel, by decide +kernel, List.Mem.head _⟩⟩

theorem wit_BootAndKeys_2 :
  (∃ (s : State) (x : Fusing), (s.dev.boot.fusing = some x) ∧ (x.slot < 4) ∧ (x.revoke = true)) ∧
  (∃ (s : State) (x : Fusing), (s.dev.boot.fusing = some x) ∧ (x.slot < 4) ∧ (x.revoke = false) ∧ (s.dev.get (F.BLK_ERR_CODE_CODE 8) = 0)) ∧
  (∃ (s : State) (v : Nat), (s.dev.taken 8 0x4C) ∧ (v / 2 ^ 16 % 2 = 1) ∧ (s.dev.state ≠ 1) ∧ (s.dev.bit F.SEC_FW_STAT_CONFIRMED = true)) ∧
  (∃ (s : State) (v : Nat), (s.dev.taken 8 0x4C) ∧ (v / 2 ^ 16 % 2 = 1) ∧ (s.dev.bit F.SEC_FW_STAT_CONFIRMED = false) ∧ (s.dev.get (F.BLK_ERR_CODE_CODE
    8) = 0)) ∧
  (∃ (s : State) (img : Nat → Nat → List Nat), (s.dev.executing 0x61 = true) ∧ (s.dev.get F.SEC_FW_STAT_STAGE ≠ 1) ∧ (s.dev.arg 1 < 4) ∧ (s.dev.arg 0 +
    s.dev.arg 1 * 2 ^ 32 + s.dev.arg 2 ≤ 0x4_0000_0000) ∧ (∀ a n, img a n = s.dev.bytes (s.dev.arg 0 + s.dev.arg 1 * 2 ^ 32 + a) n) ∧
    (s.dev.imageFault img (s.dev.arg 2) = 0) ∧ (s.dev.boot.single = false)) ∧
  (∃ (s : State) (img : Nat → Nat → List Nat), (s.dev.executing 0x61 = true) ∧ (s.dev.get F.SEC_FW_STAT_STAGE ≠ 1) ∧ (s.dev.arg 1 < 4) ∧ (s.dev.arg 0 +
    s.dev.arg 1 * 2 ^ 32 + s.dev.arg 2 ≤ 0x4_0000_0000) ∧ (∀ a n, img a n = s.dev.bytes (s.dev.arg 0 + s.dev.arg 1 * 2 ^ 32 + a) n) ∧
    (s.dev.imageFault img (s.dev.arg 2) = 4 ∨ s.dev.imageFault img (s.dev.arg 2) = 5)) ∧
  (∃ (s : State) (k : Nat) (bs : List Nat), (s.dev.boot.staging = some (k, bs))) ∧
  (∃ (s : State), (s.dev.executing 0x60 = true)) :=
  ⟨⟨wit [(F.DEV_STATE_STATE, 2)] (fun dv => ({ dv with boot := { dv.boot with fusing := some (⟨3, true, true, 5⟩) } } : Dev)), ⟨3, true, true, 5⟩,
    by decide +kernel⟩,
  ⟨wit [(F.DEV_STATE_STATE, 2)] (fun dv => ({ dv with boot := { dv.boot with fusing := some (⟨3, true, false, 5⟩) } } : Dev)), ⟨3, true, false, 5⟩,
    by decide +kernel⟩,
  ⟨wit [(F.DEV_STATE_STATE, 2), (F.SEC_FW_STAT_CONFIRMED, 1), (F.SEC_SVN_RUNNING, 5)], 0x1_0000, by decide +kernel⟩,
  ⟨wit [(F.DEV_STATE_STATE, 2)], 0x1_FFFF, by decide +kernel⟩,
  ⟨wit [(F.DEV_STATE_STATE, 2), (F.SEC_LIFE_LIFECYCLE, 0)] (fun dv =>
    ({ dv with cmd := some ⟨0x61, 0, 0, [0, 0, 320, 0, 0, 0, 0, 0], 0⟩, mem := toCells 0 (img320 0 255) } : Dev)), fun a n => (wit
    [(F.DEV_STATE_STATE, 2), (F.SEC_LIFE_LIFECYCLE, 0)] (fun dv =>
    ({ dv with cmd := some ⟨0x61, 0, 0, [0, 0, 320, 0, 0, 0, 0, 0], 0⟩, mem := toCells 0 (img320 0 255) } : Dev))).dev.bytes (0 + a) n,
    by decide +kernel, by decide +kernel, by decide +kernel, by decide +kernel, fun _ _ => rfl, by decide +kernel⟩,
  ⟨wit [(F.DEV_STATE_STATE, 2), (F.SEC_LIFE_LIFECYCLE, 1)] (fun dv =>
    ({ dv with cmd := some ⟨0x61, 0, 0, [0, 0, 320, 0, 0, 0, 0, 0], 0⟩, mem := toCells 0 (img320 0 255) } : Dev)), fun a n => (wit
    [(F.DEV_STATE_STATE, 2), (F.SEC_LIFE_LIFECYCLE, 1)] (fun dv =>
    ({ dv with cmd := some ⟨0x61, 0, 0, [0, 0, 320, 0, 0, 0, 0, 0], 0⟩, mem := toCells 0 (img320 0 255) } : Dev))).dev.bytes (0 + a) n,
    by decide +kernel, by decide +kernel, by decide +kernel, by decide +kernel, fun _ _ => rfl, by decide +kernel⟩,
  ⟨wit [(F.DEV_STATE_STATE, 2)] (fun dv => ({ dv with boot := { dv.boot with staging := some (1, ([1, 2, 3])) } } : Dev)), 1, [1, 2, 3],
    by decide +kernel⟩,
  ⟨wit [(F.DEV_STATE_STATE, 2)] (fun dv => ({ dv with cmd := some ⟨0x60, 0, 0, [0, 0, 0, 0, 0, 0, 0, 0], 0⟩ } : Dev)), by decide +kernel⟩⟩

theorem wit_CalibrationRecords_1 :
  (∃ (s : State) (kind : Nat) (inst : Nat), (s.dev.executing 0x50 = true) ∧ (kind = s.dev.arg 0 % 256) ∧ (inst = s.dev.arg 0 / 256 % 256) ∧ (calInstOk
    kind inst = false)) ∧
  (∃ (s : State) (kind : Nat) (inst : Nat) (src : List Nat) (u : Nat), (s.dev.executing 0x50 = true) ∧ (kind = s.dev.arg 0 % 256) ∧ (inst = s.dev.arg 0
    / 256 % 256) ∧ (calInstOk kind inst = true) ∧ (s.dev.calRefused kind inst (decide (s.dev.arg 0 / 2 ^ 16 % 2 = 1)) = none) ∧ (src = s.dev.calSource
    kind inst (decide (s.dev.arg 0 / 2 ^ 16 % 2 = 1))) ∧ (s.dev.nvmKey kind inst = none) ∧ (s.dev.nvmKeys.length < 128) ∧ (s.dev.freeRun ((64 +
    src.length + 65535) / 65536) = some u)) ∧
  (∃ (s : State) (kind : _) (inst : _) (j : _) (b : _), (s.dev.executing 0x50 = true) ∧ (kind = s.dev.arg 0 % 256) ∧ (inst = s.dev.arg 0 / 256 % 256) ∧
    (kind = 6) ∧ (inst < 8) ∧ (b = Dev.pickBank (s.dev.get F.PLAN_SWAP_ACTIVE) (decide (s.dev.arg 0 / 2 ^ 16 % 2 = 1))) ∧ ((List.range 256).find? (fun
    j => s.dev.entryBad b (256 * inst + j)) = some j)) ∧
  (∃ (s : State) (kind : Nat) (inst : Nat) (src : List Nat), (s.dev.executing 0x50 = true) ∧ (kind = s.dev.arg 0 % 256) ∧ (inst = s.dev.arg 0 / 256 %
    256) ∧ (calInstOk kind inst = true) ∧ (s.dev.calRefused kind inst (decide (s.dev.arg 0 / 2 ^ 16 % 2 = 1)) = none) ∧ (src = s.dev.calSource kind
    inst (decide (s.dev.arg 0 / 2 ^ 16 % 2 = 1))) ∧ (s.dev.nvmKey kind inst = none) ∧ (s.dev.freeRun ((64 + src.length + 65535) / 65536) = none)) ∧
  (∃ (s : State) (kind : Nat) (inst : Nat), (s.dev.executing 0x51 = true) ∧ (kind = s.dev.arg 0 % 256) ∧ (inst = s.dev.arg 0 / 256 % 256) ∧ (s.dev.arg 0
    / 2 ^ 17 % 2 = 0) ∧ (calInstOk kind inst = true) ∧ (s.dev.nvmKey kind inst = none)) ∧
  (∃ (s : State) (kind : Nat) (inst : Nat) (k : NvmKey) (x : NvmSlot) (fb : Bool), (s.dev.executing 0x51 = true) ∧ (kind = s.dev.arg 0 % 256) ∧ (inst =
    s.dev.arg 0 / 256 % 256) ∧ (s.dev.arg 0 / 2 ^ 17 % 2 = 0) ∧ (calInstOk kind inst = true) ∧ (s.dev.nvmKey kind inst = some k) ∧ (s.dev.restoreSlot
    k (decide (s.dev.arg 0 / 2 ^ 16 % 2 = 1)) = some (x, fb)) ∧ (2 ≤ kind ∨ s.dev.recWord x 4 = s.dev.calShape kind inst) ∧ (s.dev.destPending kind
    inst = false)) ∧
  (∃ (s : State) (v : Nat), (s.dev.taken 9 0x78) ∧ (bitsAt v 24 8 ≠ 0) ∧ (bitsAt v 0 2 = 1) ∧ (s.dev.feat 20 = true)) ∧
  (∃ (s : State) (v : Nat), (s.dev.taken 9 0x78) ∧ (bitsAt v 24 8 ≠ 0) ∧ (bitsAt v 0 2 = 1) ∧ (s.dev.feat 20 = false) ∧ (s.dev.get (F.BLK_ERR_CODE_CODE
    9) = 0)) ∧
  (∃ (s : State) (v : Nat), (s.dev.taken 9 0x78) ∧ (bitsAt v 24 8 ≠ 0) ∧ (bitsAt v 0 2 = 3) ∧ (s.dev.get (F.BLK_ERR_CODE_CODE 9) = 0)) ∧
  (∃ (s : State), (1000000000 ≤ s.dev.elapsed s.dev.isl.windowAt) ∧ (s.dev.bit F.DEV_ENV_STAT_THROTTLE = false)) :=
  ⟨⟨wit [(F.DEV_STATE_STATE, 2)] (fun dv => ({ dv with cmd := some ⟨0x50, 0, 0, [0x1008, 0, 0, 0, 0, 0, 0, 0], 0⟩ } : Dev)), 8, 16, by decide +kernel⟩,
  ⟨wit [(F.DEV_STATE_STATE, 2)] (fun dv =>
    ({ dv with cmd := some ⟨0x50, 0, 0, [9, 0, 0, 0, 0, 0, 0, 0], 0⟩, nvmKeys := (List.range 127).map (fun i => ({ kind := 13, inst := i } : NvmKey)) }
    : Dev)), 9, 0, (wit [(F.DEV_STATE_STATE, 2)] (fun dv =>
    ({ dv with cmd := some ⟨0x50, 0, 0, [9, 0, 0, 0, 0, 0, 0, 0], 0⟩, nvmKeys := (List.range 127).map (fun i => ({ kind := 13, inst := i } : NvmKey)) }
    : Dev))).dev.calSource 9 0 false, 0, by decide +kernel⟩,
  ⟨wit [(F.DEV_STATE_STATE, 2)] (fun dv => ({ dv with cmd := some ⟨0x50, 0, 0, [0x1_0706, 0, 0, 0, 0, 0, 0, 0], 0⟩, mem := [(0x4_4005_F037, 0x80)] } :
    Dev)), 6, 7, 3, 1, by decide +kernel⟩,
  ⟨wit [(F.DEV_STATE_STATE, 2)] (fun dv => ({ dv with cmd := some ⟨0x50, 0, 0, [9, 0, 0, 0, 0, 0, 0, 0], 0⟩, nvmRetired := List.range 240 } : Dev)), 9,
    0, (wit [(F.DEV_STATE_STATE, 2)] (fun dv => ({ dv with cmd := some ⟨0x50, 0, 0, [9, 0, 0, 0, 0, 0, 0, 0], 0⟩, nvmRetired := List.range 240 } :
    Dev))).dev.calSource 9 0 false, by decide +kernel⟩,
  ⟨wit [(F.DEV_STATE_STATE, 2)] (fun dv => ({ dv with cmd := some ⟨0x51, 0, 0, [9, 0, 0, 0, 0, 0, 0, 0], 0⟩ } : Dev)), 9, 0, by decide +kernel⟩,
  ⟨wit [(F.DEV_STATE_STATE, 2)] (fun dv =>
    ({ dv with cmd := some ⟨0x51, 0, 0, [9, 0, 0, 0, 0, 0, 0, 0], 0⟩, nvmKeys := [({ kind := 9, inst := 0, a := some ⟨0, 1, false⟩ })], mram := toCells 0x10_0000 (calRec 9 0 5 (List.replicate 64 7)) }
    : Dev)), 9, 0, { kind := 9, inst := 0, a := some ⟨0, 1, false⟩ }, ⟨0, 1, false⟩, false, by decide +kernel⟩,
  ⟨wit [(F.DEV_STATE_STATE, 2), (F.CAL_LAMP_PROP_VALID 15, 1), (F.CAL_LAMP_PROP_CODE 15, 0x3FFF)], 0x0100_0001, by decide +kernel⟩,
  ⟨wit [(F.DEV_STATE_STATE, 2)] (fun dv => ({ dv with accepted := 0x3EFFFFF } : Dev)), 0xFF00_0001, by decide +kernel⟩,
  ⟨wit [(F.DEV_STATE_STATE, 2)], 0x0100_0003, by decide +kernel⟩,
  ⟨wit [(F.DEV_STATE_STATE, 2)] (fun dv => ({ dv with time := { c := 1000000000 } } : Dev)), by decide +kernel⟩⟩

theorem wit_CalibrationRecords_2 :
  (∃ (s : State), (1000000000 ≤ s.dev.elapsed s.dev.isl.windowAt) ∧ (s.dev.bit F.DEV_ENV_STAT_THROTTLE = true)) ∧
  (∃ (s : State), (s.dev.executing 0x52 = true) ∧ (s.dev.state = 4 ∨ s.dev.state = 8) ∧ (s.dev.arg 0 % 2 = 0)) ∧
  (∃ (s : State), (s.dev.executing 0x52 = true) ∧ (s.dev.state = 4 ∨ s.dev.state = 8) ∧ (s.dev.arg 0 % 2 = 1)) :=
  ⟨⟨wit [(F.DEV_STATE_STATE, 2), (F.DEV_ENV_STAT_THROTTLE, 1)] (fun dv => ({ dv with time := { c := 1000000000 } } : Dev)), by decide +kernel⟩,
  ⟨wit [(F.DEV_STATE_STATE, 4), (F.ISL_PT_PROP_VALID 0, 1), (F.ISL_PT_PROP 0, 17)] (fun dv =>
    ({ dv with cmd := some ⟨0x52, 0, 0, [0, 1, 0x8000_0000, 0, 0, 0, 0, 0], 0⟩ } : Dev)), by decide +kernel⟩,
  ⟨wit [(F.DEV_STATE_STATE, 4), (F.ISL_PT_PROP_VALID 0, 1), (F.ISL_PT_PROP 0, 17)] (fun dv =>
    ({ dv with cmd := some ⟨0x52, 0, 0, [1, 1, 0x8000_0000, 0, 0, 0, 0, 0], 0⟩ } : Dev)), by decide +kernel⟩⟩

end Sys2Proof.Tests
end

section
/-! PROOF. O19, the commands between configuration and sorting. A field before page 0x20, DEV_STATE and the generators' RUNNING among them, is written
by none of the blocks that segment, plan, eject or hold the level: one lemma for each of their operations that these commands call. The commands' ends
follow from those. -/

namespace Sys2Proof.Machine

/-! ### Early and late fields -/

/-- A plain field that stands before page 0x20: DEV_STATE and the RUNNING bits of the generators among them. The blocks that segment, trace, plan and
eject write none of these. -/
def Fld.early (f : Fld) : Prop := f.plain = true ∧ f.key < 0x20 * 0x1_0000 * 32

/-- A field of page 0x20 or a later one. -/
def Fld.late (f : Fld) : Prop := 0x20 * 0x1_0000 * 32 ≤ f.key

@[simp] theorem Fld.late_bar0 (p o l w r : Nat) (h : 0x20 ≤ p) : (⟨bar0 p o, l, w, r⟩ : Fld).late := by
  simp only [Fld.late, Fld.key, bar0]; omega

@[simp] theorem Fld.late_bar0_add (p n o l w r : Nat) (h : 0x20 ≤ p) : (⟨bar0 (p + n) o, l, w, r⟩ : Fld).late :=
  Fld.late_bar0 _ _ _ _ _ (by omega)

@[simp] theorem Fld.early_devState : F.DEV_STATE_STATE.early := ⟨rfl, by decide⟩

theorem Fld.early_running (g : Nat) (h : g < 16) : (F.TGEN_CTRL_RUNNING g).early :=
  ⟨Fld.plain_page _ _ _ _ _ (by omega) (by omega) (by omega) (by omega) (by omega) (by omega), by simp only [Fld.key, bar0]; omega⟩

/-! ### Folds -/

/-- What every step of a fold leaves as it was, the fold does. -/
theorem foldl_keeps {σ α β : Type} (obs : σ → β) {step : σ → α → σ} (h : ∀ s a s', step s a = s' → obs s' = obs s) (l : List α) (s : σ) :
    obs (l.foldl step s) = obs s := by
  induction l generalizing s with
  | nil => rfl
  | cons a l ih => rw [List.foldl_cons, ih, h s a _ rfl]

namespace Dev

variable (d : Dev) {f : Fld}

theorem get_foldl {α : Type} {step : Dev → α → Dev} (h : ∀ d a, (step d a).get f = d.get f) (l : List α) : (l.foldl step d).get f = d.get f :=
  foldl_keeps (·.get f) (fun d a _ e => e ▸ h d a) l d

theorem fst_get_foldl {α β : Type} {step : Dev × β → α → Dev × β} (h : ∀ x a x', step x a = x' → x'.1.get f = x.1.get f) (l : List α)
    (x : Dev × β) : (l.foldl step x).1.get f = x.1.get f :=
  foldl_keeps (fun x : Dev × β => x.1.get f) h l x

/-- What one step of a fold gives a field and no other step takes from it, the fold leaves there. -/
theorem get_foldl_of_mem {step : Dev → Nat → Dev} {n v : Nat} (hn : ∀ d, (step d n).get f = v)
    (hm : ∀ d m, m ≠ n → d.get f = v → (step d m).get f = v) {l : List Nat} (h : n ∈ l) : (l.foldl step d).get f = v := by
  have keeps : ∀ (l : List Nat) (d : Dev), d.get f = v → (l.foldl step d).get f = v := by
    intro l
    induction l with
    | nil => exact fun _ hd => hd
    | cons m l ih =>
      intro d hd
      by_cases e : m = n
      · exact ih _ (e ▸ hn d)
      · exact ih _ (hm d m e hd)
  induction l generalizing d with
  | nil => exact absurd h List.not_mem_nil
  | cons m l ih =>
    rcases List.mem_cons.mp h with rfl | h
    · exact keeps l _ (hn d)
    · exact ih _ h

/-! ### Updates outside the register store -/

theorem get_ite (c : Prop) [Decidable c] (a b : Dev) : (if c then a else b).get f = if c then a.get f else b.get f :=
  apply_ite (·.get f) c a b

@[simp] theorem get_withPlan (x : Plan) : ({ d with plan := x } : Dev).get f = d.get f := rfl
@[simp] theorem get_setMetPort (n : Nat) (x : MetPort) : (d.setMetPort n x).get f = d.get f := rfl
@[simp] theorem get_updBody (id : Nat) (u : CBody → CBody) : (d.updBody id u).get f = d.get f := rfl
@[simp] theorem get_setSegGroup (g : Nat) (x : SegGroup) : (d.setSegGroup g x).get f = d.get f := rfl
@[simp] theorem get_freeLater (b : Body) : (d.freeLater b).get f = d.get f := rfl
@[simp] theorem get_digestBody (g k id o : Nat) : (d.digestBody g k id o).get f = d.get f := rfl

@[simp] theorem get_setDivertAt (n : Nat) (t : Option Nat) : (d.setDivertAt n t).get f = d.get f := rfl

@[simp] theorem get_pass (id : Nat) (v : Verdict) (replaced : Bool) : (d.pass id v replaced).get f = d.get f := get_congr rfl f

@[simp] theorem get_setBytes (a : Nat) (bs : List Nat) : (d.setBytes a bs).get f = d.get f := by
  induction bs generalizing d a with
  | nil => rfl
  | cons b bs ih => rw [setBytes, ih]; rfl

@[simp] theorem get_cropRow (b : Body) (row : SkyRow) (runs : List (Nat × Nat)) : (d.cropRow b row runs).get f = d.get f := by
  unfold cropRow
  split
  · rfl
  · extract_lets
    split <;> simp

@[simp] theorem get_sendOffer (a : AfterOffer) : (d.sendOffer a).get f = d.get f := get_merSend d _ _ _ _

@[simp] theorem get_twilightPass (b : CBody) (cause : Nat) (replaced : Bool) : (d.twilightPass b cause replaced).get f = d.get f := by
  unfold twilightPass
  extract_lets v plan d₁
  have h₁ : d₁.get f = d.get f := (get_ite _ _ _).trans (ite_self _)
  rw [get_pass, h₁]

section Early

variable (hf : f.early)
include hf

/-! ### Plain updates of late fields, events and errors -/

@[simp] theorem get_set_late {g : Fld} (v : Nat) (hg : g.late) : (d.set g v).get f = d.get f :=
  get_set_ne d v (by unfold Fld.early Fld.late at *; omega)

@[simp] theorem get_put_late {g : Fld} (b : Bool) (hg : g.late) : (d.put g b).get f = d.get f := get_set_late d hf _ hg
@[simp] theorem get_count_late {g : Fld} (n : Nat) (hg : g.late) : (d.count g n).get f = d.get f := get_set_late d hf _ hg
@[simp] theorem get_putBit_late {g : Fld} (k : Nat) (b : Bool) (hg : g.late) : (d.putBit g k b).get f = d.get f := get_set_late d hf _ hg
@[simp] theorem get_setDt_late {g g' : Fld} (t : Nat) (hg : g.late) (hg' : g'.late) : (d.setDt g g' t).get f = d.get f := by
  simp [setDt, hf, hg, hg']
@[simp] theorem get_raise_early (p b : Nat) : (d.raise p b).get f = d.get f := get_raise d p b (Fld.calm_of_plain hf.1)
@[simp] theorem get_hwError_early (p : Nat) (e : Err) (n : Nat) : (d.hwError p e n).get f = d.get f := get_hwError d p e n hf.1

/-! ### The planner (R304–R319) -/

@[simp] theorem get_metShow (n : Nat) : (d.metShow n).get f = d.get f := by
  have h : (if n % 2 = 0 then F.PLAN_QDEPTH_DEPTH0 (n / 2) else F.PLAN_QDEPTH_DEPTH1 (n / 2)).late := by split <;> simp
  simp only [metShow]
  rw [get_put_late _ hf _ (by simp), get_put_late _ hf _ (by simp), get_set_late _ hf _ (by simp), get_foldl _ (by simp [hf]),
    get_set_late _ hf _ h]

@[simp] theorem get_queueFull : d.queueFull.get f = d.get f := by simp [queueFull, hf]

@[simp] theorem get_queuePulse (v : Valve) (p : Pulse) (isNew isCont : Bool) : (d.queuePulse v p isNew isCont).1.get f = d.get f := by
  simp only [queuePulse]
  repeat' split
  all_goals simp [hf]

@[simp] theorem get_joinPulse (v : Valve) (p : Pulse) : (d.joinPulse v p).1.get f = d.get f := by
  simp only [joinPulse]
  repeat' split
  all_goals simp [hf]

@[simp] theorem get_placePulse (v : Valve) (body press : Nat) (a e : Int) : (d.placePulse v body press a e).1.get f = d.get f := by
  simp only [placePulse]
  repeat' split
  all_goals simp [hf]

@[simp] theorem get_swapDate_plan (t : Nat) : (d.swapDate planSwap t).get f = d.get f := by
  unfold swapDate
  split
  · simp [planSwap, hf]
  · rfl

/-- The window and the placing of a pulse are kept abstract: only what a placed pulse leaves alone matters. -/
@[simp] theorem get_planReject (b : CBody) (hint : Option Nat) : (d.planReject b hint).1.get f = d.get f := by
  rw [planReject, apply_ite Prod.fst, get_ite, fst_get_foldl]
  · simp [get_ite, hf]
  · intro x v x' hx
    have h := get_placePulse x.1 hf v b.id
    obtain ⟨window, hw⟩ : ∃ w, w = x.1.pulseOf v := ⟨_, rfl⟩
    obtain ⟨place, hp⟩ : ∃ p, p = x.1.placePulse v b.id := ⟨_, rfl⟩
    rw [← hp] at h
    rw [← hw, ← hp] at hx
    subst hx
    dsimp only
    split <;> exact h _ _ _

@[simp] theorem get_planBody (b : CBody) (vs more : List Verdict) : (d.planBody b vs more).1.get f = d.get f := by
  simp only [planBody, apply_ite Prod.fst]
  simp [hf, get_ite]

@[simp] theorem get_planPair (low up : CBody) : (d.planPair low up).1.get f = d.get f := by
  simp only [planPair]
  repeat' split
  all_goals simp [hf]

@[simp] theorem get_route (b : CBody) : (d.route b).1.get f = d.get f := by
  simp only [route]
  repeat' split
  all_goals simp [hf]

@[simp] theorem get_releaseOrphan (id : Nat) : (d.releaseOrphan id).get f = d.get f := by
  simp only [releaseOrphan]
  repeat' split
  all_goals simp [hf]

/-! ### The store of upper entries (R240) -/

@[simp] theorem get_storeShow : d.storeShow.get f = d.get f := by simp [storeShow, hf]

@[simp] theorem get_dropEntry (id : Nat) : (d.dropEntry id).get f = d.get f := by
  rw [dropEntry, get_storeShow _ hf]; rfl

@[simp] theorem get_releaseEntry (id : Nat) : (d.releaseEntry id).get f = d.get f := by
  unfold releaseEntry
  split <;> simp [hf]

@[simp] theorem get_drainStore : d.drainStore.get f = d.get f := by
  unfold drainStore releaseStore
  split
  · exact get_foldl _ (by simp [hf]) _
  · rfl

/-! ### Contexts, crops and the ends of bodies (R202–R213) -/

@[simp] theorem get_bodyShow : d.bodyShow.get f = d.get f := by simp [bodyShow, hf]

@[simp] theorem get_freeBatch (ctxs slots : List Nat) : (d.freeBatch ctxs slots).get f = d.get f := by
  simp only [freeBatch]
  rw [get_bodyShow _ hf, get_foldl]
  · split <;> rfl
  · intro d s
    split <;> rfl

@[simp] theorem get_rowBatch : d.rowBatch.get f = d.get f := by
  rw [rowBatch, get_freeBatch _ hf]; rfl

@[simp] theorem get_closeBody (cfg : SegCfg) (k : Nat) (b : Body) : (d.closeBody cfg k b).get f = d.get f := by
  simp only [closeBody]
  generalize d.outcome cfg b = o
  split
  · rfl
  all_goals simp [hf]

@[simp] theorem get_truncGroup (g : Nat) : (d.truncGroup g).1.get f = d.get f := by
  unfold truncGroup
  extract_lets x k bs cfg d₁
  have h₁ : d₁.get f = d.get f := get_foldl d (fun d b => get_closeBody d hf _ _ _) bs
  rw [get_rowBatch _ hf, get_setSegGroup, h₁]

@[simp] theorem get_endGroup (g : Nat) : (d.endGroup g).get f = d.get f := by
  have h := get_truncGroup d hf g
  unfold endGroup
  generalize d.truncGroup g = r at h
  dsimp only
  split
  · exact (get_count_late _ hf _ (by simp)).trans h
  · exact h

@[simp] theorem get_takeCtx : d.takeCtx.1.get f = d.get f := by
  unfold takeCtx
  split
  · dsimp only
    split
    · exact get_count_late d hf _ (by simp)
    · exact (get_raise_early _ hf _ _).trans (get_count_late d hf _ (by simp))
  · extract_lets g g' was seg d₁ warn
    have h₁ : d₁.get f = d.get f := get_bodyShow _ hf
    dsimp only
    rw [get_ite, get_raise_early _ hf, ite_self, h₁]

@[simp] theorem get_takeCrop (g : Nat) : (d.takeCrop g).1.get f = d.get f := by
  unfold takeCrop
  dsimp only
  split
  · rfl
  · split
    · dsimp only
      split
      · exact get_count_late d hf _ (by simp)
      · exact (get_raise_early _ hf _ _).trans (get_count_late d hf _ (by simp))
    · exact get_bodyShow _ hf

end Early

end Dev

/-! ### The labeller (R197–R201) -/

namespace Lab

variable (l : Lab) {f : Fld}

@[simp] theorem d_upd (id : Nat) (u : Body → Body) : (l.upd id u).d = l.d := rfl
@[simp] theorem d_flag (m : Member) : (l.flag m).d = l.d := by
  cases m with
  | body id => rfl
  | split id => simp only [flag]; split <;> rfl

@[simp] theorem d_foldl_flag (ms : List Member) : (ms.foldl flag l).d = l.d :=
  foldl_keeps Lab.d (fun l m _ e => e ▸ d_flag l m) ms l

variable (hf : f.early)
include hf

@[simp] theorem get_open (s e : Nat) (w c : Bool) : (l.open_ s e w c).1.d.get f = l.d.get f := by
  have h := Dev.get_takeCtx l.d hf
  unfold open_
  generalize l.d.takeCtx = r at h
  obtain ⟨d', _ | id⟩ := r
  · exact h
  · have h' := Dev.get_takeCrop d' hf l.row.group
    dsimp only
    generalize d'.takeCrop l.row.group = r' at h'
    exact ((Dev.get_count_late _ hf _ (by simp)).trans h').trans h

@[simp] theorem get_countW : l.countW.d.get f = l.d.get f := by simp [countW, hf]

@[simp] theorem get_merge (into id : Nat) : (l.merge into id).d.get f = l.d.get f := by
  unfold merge
  split
  · rfl
  · split <;> simp [hf]

@[simp] theorem get_joinFirst (s e : Nat) (m : Member) : (l.joinFirst s e m).1.d.get f = l.d.get f := by
  cases m with
  | body id => rfl
  | split id =>
    simp only [joinFirst]
    split
    · rfl
    · rfl
    · have h := get_open l hf s e (l.flagW.contains id) true
      generalize l.open_ s e (l.flagW.contains id) true = r at h
      obtain ⟨l', _ | c⟩ := r <;> exact h

@[simp] theorem get_join (x : Lab × Option Nat) (m : Member) : (join x m).1.d.get f = x.1.d.get f := by
  obtain ⟨l, t⟩ := x
  cases t <;> cases m
  · rfl
  · simp only [join]
    split <;> rfl
  · exact get_merge l hf _ _
  · simp only [join]
    split <;> simp [hf]

@[simp] theorem get_foldl_join (ms : List Member) (x : Lab × Option Nat) : (ms.foldl join x).1.d.get f = x.1.d.get f :=
  foldl_keeps (fun x : Lab × Option Nat => x.1.d.get f) (fun x m _ e => e ▸ get_join hf x m) ms x

/-- The owner of a run is noted in the labeller alone; what opens or merges a body writes no early field. -/
theorem get_run (r : Nat × Nat) : (l.run r).d.get f = l.d.get f := by
  unfold run
  extract_lets s e c untracked finish flagged
  have hfin : ∀ (l : Lab) (o : Option Nat), (finish l o).d = l.d := by
    intro l o
    cases o <;> rfl
  clear_value finish c
  split
  · split
    · rw [hfin]
    · rw [hfin]
      exact get_open l hf s e false false
  · split
    · rw [hfin, get_countW _ hf, get_open _ hf]
      exact congrArg (Dev.get · f) (d_foldl_flag l _)
    · next m ms _ =>
      have h := (get_foldl_join hf ms (l.joinFirst s e m)).trans (get_joinFirst l hf s e m)
      generalize ms.foldl join (l.joinFirst s e m) = x at h
      rw [hfin, ← h]
      split
      · rfl
      · rw [get_countW _ hf]
        have hd : ∀ l' : Lab, l'.d = x.1.d → l'.d.get f = x.1.d.get f := fun _ e => by rw [e]
        apply hd
        split
        · exact (d_upd _ _ _).trans (d_foldl_flag _ _)
        · exact d_foldl_flag _ _

end Lab

namespace Dev

variable (d : Dev) {f : Fld}

section Early

variable (hf : f.early)
include hf

/-! ### Rows and groups (R74, R195–R203) -/

theorem get_labelOnly (row : SkyRow) (fg : List Bool) (cfg : SegCfg) (below : List Bool) : (d.labelOnly row fg cfg below).get f = d.get f := by
  unfold labelOnly
  extract_lets g k x prevK above mask d₁ seg d₂ runs link l done mine live d₃ tall d₄ closing d₅ group
  have h₁ : d₁.get f = d.get f := get_count_late d hf _ (by simp)
  have h₂ : d₂.get f = d.get f := by
    rw [get_ite]
    split
    · exact (get_congr rfl f).trans h₁
    · exact h₁
  have hl : l.d.get f = d.get f :=
    (foldl_keeps (fun l : Lab => l.d.get f) (fun l r _ e => e ▸ Lab.get_run l hf r) runs _).trans h₂
  have h₃ : d₃.get f = d.get f :=
    (get_foldl l.d (fun d b => by rw [get_ite, get_cropRow, ite_self]) live).trans hl
  have h₄ : d₄.get f = d.get f := (get_foldl d₃ (fun d b => by simp [hf]) _).trans h₃
  have h₅ : d₅.get f = d.get f := (get_foldl d₄ (fun d b => get_closeBody d hf _ _ _) closing).trans h₄
  rw [get_setSegGroup, h₅]

theorem get_labelPending (g : Nat) : (d.labelPending g).get f = d.get f := by
  unfold labelPending
  split
  · rw [get_labelOnly _ hf, get_setSegGroup]
  · rfl

theorem get_closeGroup (g : Nat) : (d.closeGroup g).get f = d.get f := by
  unfold closeGroup
  split
  · rw [get_drainStore _ hf, get_endGroup _ hf, get_labelPending _ hf]
  · rfl

/-! ### Retirement (R203) -/

theorem get_retireAll : d.retireAll.get f = d.get f := by
  unfold retireAll retireBodies
  split
  · rfl
  · extract_lets d₁ gone digests d₂
    have h₁ : d₁.get f = d.get f := get_foldl d (fun d b => get_releaseEntry d hf _) _
    rw [get_freeBatch _ hf, get_count_late _ hf _ (by simp)]
    exact h₁

/-! ### What a change of level brings with it (R68, R72, R504, R526) -/

@[simp] theorem get_cancelAll (n : Nat) : (d.cancelAll n).get f = d.get f := by
  simp only [cancelAll]
  split
  · rw [get_metShow _ hf, get_setMetPort]
  · rw [get_metShow _ hf, get_foldl _ (fun d k => get_setMetPort d _ _), get_setMetPort]

@[simp] theorem get_cancelEverything : d.cancelEverything.get f = d.get f := by
  unfold cancelEverything
  extract_lets d₁
  have h₁ : d₁.get f = d.get f := get_foldl d (fun d n => get_cancelAll d hf n) (List.range 8)
  clear_value d₁
  exact (get_congr rfl f).trans h₁

@[simp] theorem get_abandonJoin : d.abandonJoin.get f = d.get f := by
  unfold abandonJoin
  extract_lets p
  split
  · rfl
  · rw [get_put_late _ hf _ (by simp), get_set_late _ hf _ (by simp)]
    rfl

@[simp] theorem get_setRole (r : Nat) : (d.setRole r).get f = d.get f := by simp [setRole, hf]

@[simp] theorem get_levelUpdate (cause detail : Nat) : (d.levelUpdate cause detail).get f = d.get f := by
  unfold levelUpdate
  extract_lets d₁ was d₂
  have h₁ : d₁.get f = d.get f := by simp [d₁, hf]
  split
  · exact h₁
  · simp [d₂, hf, h₁]

@[simp] theorem get_driveDivert (n : Nat) (on : Bool) : (d.driveDivert n on).get f = d.get f := by simp [driveDivert, hf]

@[simp] theorem get_divertOne (n : Nat) : (d.divertOne n).get f = d.get f := by
  unfold divertOne
  repeat' split
  all_goals simp [hf]
  split <;> simp [hf]

@[simp] theorem get_divertUpdate : d.divertUpdate.get f = d.get f := by simp [divertUpdate, hf]

@[simp] theorem get_leaveSorting : d.leaveSorting.get f = d.get f := by
  unfold leaveSorting
  extract_lets lost d₁ mer seg d₂ d₃ d₄
  have h₁ : d₁.get f = d.get f := get_foldl d (fun d g => get_putBit_late d hf _ _ (by simp)) lost
  have h₂ : d₂.get f = d.get f := (get_congr rfl f).trans h₁
  have h₄ : d₄.get f = d.get f := by
    rw [get_abandonJoin _ hf, get_put_late _ hf _ (by simp), get_put_late _ hf _ (by simp), h₂]
  split
  · exact h₄
  · rw [get_setRole _ hf, h₄]

@[simp] theorem get_roleWithPartner : d.roleWithPartner.get f = d.get f := by
  unfold roleWithPartner
  extract_lets mer d₁
  have h₁ : d₁.get f = d.get f := rfl
  split
  · simp [becomeLead, hf, h₁]
  · simp [hf, h₁]

@[simp] theorem get_takeRole : d.takeRole.get f = d.get f := by
  unfold takeRole
  split
  · rfl
  · split
    · exact get_roleWithPartner d hf
    · rfl

@[simp] theorem get_eclipseCancel : d.eclipseCancel.get f = d.get f := by simp [eclipseCancel, hf]

end Early

/-! ### DEV_STATE after a change of level -/

/-- A level that is entered is the state, and stays it through all that the change brings with it. -/
theorem state_moveState (s cause detail : Nat) (hs : s < 16) : (d.moveState s cause detail).state = s := by
  unfold moveState
  split
  · assumption
  · extract_lets d₁ d₂ d₃
    have h₁ : d₁.get F.DEV_STATE_STATE = s := by
      rw [get_count_ne _ _ (by decide), get_set_self]
      exact Nat.mod_eq_of_lt hs
    have h₂ : d₂.get F.DEV_STATE_STATE = s := by
      rw [get_divertUpdate _ Fld.early_devState, get_raise_early _ Fld.early_devState, get_set_ne _ _ (by decide), h₁]
    have h₃ : d₃.get F.DEV_STATE_STATE = s := by
      rw [get_ite, get_leaveSorting _ Fld.early_devState, ite_self, h₂]
    rw [state, get_levelUpdate _ Fld.early_devState, h₃]

theorem state_enterEclipse (cause detail : Nat) : (d.enterEclipse cause detail).state = 7 := by
  unfold enterEclipse
  extract_lets n d₁ mer d₂
  have h₁ : d₁.get F.DEV_STATE_STATE = 7 :=
    (get_count_late _ Fld.early_devState _ (by simp)).trans (state_moveState _ 7 cause detail (by decide))
  clear_value d₁
  have h₂ : d₂.get F.DEV_STATE_STATE = 7 := (get_abandonJoin _ Fld.early_devState).trans h₁
  rw [state, get_ite, get_sendOffer, get_eclipseCancel _ Fld.early_devState, ite_self, h₂]

theorem state_enterTwilight (cause detail : Nat) : (d.enterTwilight cause detail).state = 6 := by
  unfold enterTwilight
  extract_lets bs d₁
  rw [state, get_count_late _ Fld.early_devState _ (by simp), get_foldl]
  · exact state_moveState _ 6 cause detail (by decide)
  · intro d b
    rw [get_twilightPass, get_count_late _ Fld.early_devState _ (by simp)]

/-- What the device does by itself leaves the level or lowers it. -/
theorem state_autoLevel : d.autoLevel.state = d.state ∨ d.autoLevel.state = 6 ∨ d.autoLevel.state = 7 := by
  unfold autoLevel
  split
  · exact .inr (.inr (state_enterEclipse _ _ _))
  split
  · exact .inr (.inl (state_enterTwilight _ _ _))
  split
  · exact .inr (.inl (state_enterTwilight _ _ _))
  split
  · exact .inr (.inl (state_enterTwilight _ _ _))
  · exact .inl rfl

theorem state_enterConfigured : d.enterConfigured.state = 4 := by
  unfold enterConfigured
  extract_lets plan d₁
  exact (get_retireAll _ Fld.early_devState).trans (state_moveState d₁ 4 1 0 (by decide))

theorem state_complete (e : Err) (detail : Nat) (rets : List Nat) : (d.complete e detail rets).state = d.state :=
  get_complete d e detail rets rfl rfl

/-! ### The generators at a STOP with drain (R74) -/

theorem running_stopGens (g : Nat) (hg : g < 16) : d.stopGens.get (F.TGEN_CTRL_RUNNING g) = 0 := by
  have hs : ∀ d : Dev, (d.put (F.TGEN_CTRL_RUNNING g) false).get (F.TGEN_CTRL_RUNNING g) = 0 := fun d => get_put_self d _ false one_ne_zero
  refine get_foldl_of_mem (n := g) d (fun d => hs _) (fun d m hm hd => ?_) (List.mem_range.mpr hg)
  rw [get_put_ne _ _ (by simp only [Fld.key, bar0]; omega)]
  exact hd

theorem running_startDrain (g : Nat) (hg : g < 16) : d.startDrain.get (F.TGEN_CTRL_RUNNING g) = 0 := by
  rw [startDrain, get_foldl _ (fun d n => get_closeGroup d (Fld.early_running g hg) n), get_withPlan, running_stopGens d g hg]

/-! ### Vesper's commands (R73, R78) -/

/-- A command that completes shows its CMD_RETn. -/
theorem complete_ret (e : Err) (detail : Nat) (rets : List Nat) (n : Nat) (hn : n < 4) (l : Latch) (h : d.cmd = some l) :
    (d.complete e detail rets).get (F.CMD_RET_RET n) = rets.getD n 0 % 2 ^ 32 := by
  have hp : (F.CMD_RET_RET n).plain = true := Fld.plain_page 1 _ _ _ _ (by omega) (by omega) (by omega) (by omega) (by omega) (by omega)
  unfold complete
  rw [h]
  dsimp only
  rw [get_ite, get_raise _ _ _ (Fld.calm_of_plain hp), ite_self, get_ite, get_error _ _ _ _ _ _ hp, ite_self, get_dropCmd, unlockAll,
    get_foldl_put_ne _ _ _ _ (fun p _ => by simp only [Fld.key, bar0]; omega), get_put_ne _ _ (by simp only [Fld.key, bar0]; omega),
    get_set_ne _ _ (by simp only [Fld.key, bar0]; omega), get_set_ne _ _ (by simp only [Fld.key, bar0]; omega)]
  refine get_foldl_of_mem (step := fun d n => d.set (F.CMD_RET_RET n) (rets.getD n 0)) d (fun d => get_set_self d _ _) (fun d m hm hd => ?_)
    (List.mem_range.mpr hn)
  rw [get_set_ne _ _ (by simp only [Fld.key, bar0]; omega), hd]

/-- R73: a command still legal in the present state has its effect. -/
theorem vesper_legal {code : Nat} (u : Dev → Dev) (he : d.executing code = true) (hl : d.cmdLegal code = true) : d.vesper code u = u d := by
  simp [vesper, he, hl]

theorem cmd_of_executing {code : Nat} (h : d.executing code = true) : ∃ l, d.cmd = some l := by
  cases e : d.cmd with
  | none => simp [executing, e] at h
  | some l => exact ⟨l, rfl⟩

@[simp] theorem state_canon : d.canon.state = d.state := get_canon d _

/-- A command is legal in a state that Table regs-20 lists for it. -/
theorem cmdLegal_of_mem {d : Dev} {code : Nat} {states : List Nat} (hc : cmdStates code = some states) (hs : d.state ∈ states) :
    d.cmdLegal code = true := by
  simp [cmdLegal, hc, hs]

/-! ### What the commands end with -/

/-- A completed command that follows a change of level leaves that level and no command in hand. -/
theorem complete_after {t : Nat} (h : d.state = t) (e : Err) : (d.complete e).canon.state = t ∧ (d.complete e).canon.cmd = none :=
  ⟨by rw [state_canon, state_complete, h], complete_cmd d e 0 []⟩

/-- R16: with nothing to refuse CONFIGURE ends in CONFIGURED. -/
theorem configure_accepted (hm : d.mapBad (d.get F.PLAN_SWAP_ACTIVE) = none) (hc : d.configFault = none) :
    d.configure.canon.state = 4 ∧ d.configure.canon.cmd = none := by
  unfold configure
  rw [hm]
  dsimp only
  rw [hc]
  refine complete_after _ ?_ .ok
  apply state_moveState
  decide

/-- R16: what CONFIGURE finds bad it refuses with RANGE. -/
theorem configure_refused (hm : d.mapBad (d.get F.PLAN_SWAP_ACTIVE) = none) {detail : Nat} {rets : List Nat}
    (hc : d.configFault = some (detail, rets)) : d.configure = d.complete .range detail rets := by
  unfold configure
  rw [hm]
  dsimp only
  rw [hc]

/-- R563: START with a page missing. -/
theorem start_refused {p : Nat} (hp : d.pageMissing = some p) : d.start = d.complete .range 0 [p] := by
  simp only [start, hp]

/-- R71, R72: START sorts, at the level that the features allow or the one that a lost verdict source leaves. -/
theorem start_accepted (hp : d.pageMissing = none) : d.start.state = 5 ∨ d.start.state = 6 ∨ d.start.state = 7 := by
  simp only [start, hp]
  rw [state_complete]
  generalize (List.range 16).foldl (armGen fun m => (d.mot m).pos) d.freshRun = d₁
  have ht : (if d₁.feat 5 = true then 5 else 6) < 16 := by split <;> decide
  have h₂ := state_moveState d₁ _ 1 0 ht
  generalize d₁.moveState _ 1 0 = d₂ at h₂ ⊢
  have h₃ : d₂.takeRole.state = d₂.state := get_takeRole d₂ Fld.early_devState
  have h₄ := state_autoLevel d₂.takeRole
  rw [h₃, h₂] at h₄
  split at h₄ <;> tauto

theorem start_cmd (hp : d.pageMissing = none) : d.start.cmd = none := by
  simp only [start, hp]
  apply complete_cmd

/-- R72: RENEGOTIATE ends in IDENT whatever its pages did. -/
theorem renegotiate_ends : d.renegotiate.canon.state = 2 ∧ d.renegotiate.canon.cmd = none := by
  unfold renegotiate
  refine complete_after _ ?_ .ok
  apply state_moveState
  decide

/-- R74: a drain that has nothing left enters CONFIGURED and completes. -/
theorem drainComplete_of_drained (hd : d.plan.drain = true) (hr : d.drained = true) (hs : d.drainStore.drained = true)
    (hp : d.drainStore.scheduled = false) : d.drainComplete = d.drainStore.enterConfigured.complete .ok := by
  simp only [drainComplete, hd, hr, hs, hp, ↓reduceIte, Bool.not_true, Bool.false_eq_true, Bool.or_self]

end Dev

/-- A meaning that changes the device by `u` completes with whatever of `u`'s device holds in canonical form too. -/
theorem completes_of_run {i : Instr} {s : State} {u : Dev → Dev} {P : Dev → Prop} (h : exec i s = s.run u) (hP : P (u s.dev).canon) :
    Completes i s P := ⟨_, h, hP⟩

/-- A command of Vesper in hand, legal in the present state, completes with its effect. -/
theorem completes_of_vesper {i : Instr} {s : State} {code : Nat} {u : Dev → Dev} {P : Dev → Prop} (h : exec i s = s.run (·.vesper code u))
    (he : s.dev.executing code = true) (hl : s.dev.cmdLegal code = true) (hP : P (u s.dev).canon) : Completes i s P :=
  completes_of_run h (by rw [Dev.vesper_legal _ _ he hl]; exact hP)

/-! ### The commands complete -/

section Commands

variable {s : State}

/-- CONFIGURE (R16). -/
theorem configure_completes (he : s.dev.executing 0x10 = true) (hs : s.dev.state = 3)
    (hm : s.dev.mapBad (s.dev.get F.PLAN_SWAP_ACTIVE) = none) :
    (s.dev.configFault = none → Completes .configure s (fun d => d.state = 4 ∧ d.cmd = none)) ∧
    ∀ e, s.dev.configFault = some e → Completes .configure s (fun d => d.state = 3 ∧ d.cmd = none ∧ d.get F.CMD_STATUS_RESULT = 2) := by
  have hl : s.dev.cmdLegal 0x10 = true := Dev.cmdLegal_of_mem rfl (by simp [hs])
  refine ⟨fun hc => ?_, fun ⟨detail, rets⟩ hc => ?_⟩
  · exact completes_of_vesper rfl he hl (Dev.configure_accepted _ hm hc)
  · refine completes_of_vesper rfl he hl ?_
    obtain ⟨l, hcmd⟩ := Dev.cmd_of_executing _ he
    obtain ⟨-, hres, -⟩ := Dev.complete_status s.dev .range detail rets l hcmd
    rw [Dev.configure_refused _ hm hc]
    exact ⟨by rw [Dev.state_canon, Dev.state_complete, hs], Dev.complete_cmd _ _ _ _, by rw [Dev.get_canon, hres]; rfl⟩

theorem deconfigure_completes (he : s.dev.executing 0x11 = true) (hs : s.dev.state = 4) :
    Completes .deconfigure s (fun d => d.state = 3 ∧ d.cmd = none) :=
  completes_of_vesper rfl he (Dev.cmdLegal_of_mem rfl (by simp [hs])) (Dev.complete_after _ (Dev.state_moveState _ 3 1 0 (by decide)) .ok)

theorem renegotiate_completes (he : s.dev.executing 0x12 = true) (hs : s.dev.state = 3) :
    Completes .renegotiate s (fun d => d.state = 2 ∧ d.cmd = none) :=
  completes_of_vesper rfl he (Dev.cmdLegal_of_mem rfl (by simp [hs])) (Dev.renegotiate_ends _)

theorem start_completes_refused {p : Nat} (he : s.dev.executing 0x20 = true) (hs : s.dev.state = 4) (hp : s.dev.pageMissing = some p) :
    Completes .start s (fun d => d.state = 4 ∧ d.cmd = none ∧ d.get F.CMD_STATUS_RESULT = 2 ∧ d.get (F.CMD_RET_RET 0) = p % 2 ^ 32) := by
  refine completes_of_vesper rfl he (Dev.cmdLegal_of_mem rfl (by simp [hs])) ?_
  obtain ⟨l, hcmd⟩ := Dev.cmd_of_executing _ he
  obtain ⟨-, hres, -⟩ := Dev.complete_status s.dev .range 0 [p] l hcmd
  have hret := Dev.complete_ret s.dev .range 0 [p] 0 (by decide) l hcmd
  rw [Dev.start_refused _ hp]
  refine ⟨by rw [Dev.state_canon, Dev.state_complete, hs], Dev.complete_cmd _ _ _ _, ?_, ?_⟩
  · rw [Dev.get_canon, hres]; rfl
  · rw [Dev.get_canon, hret]; rfl

theorem start_completes_sorting (he : s.dev.executing 0x20 = true) (hs : s.dev.state = 4) (hp : s.dev.pageMissing = none) :
    Completes .start s (fun d => d.cmd = none ∧ (d.state = 5 ∨ d.state = 6 ∨ d.state = 7)) := by
  refine completes_of_vesper rfl he (Dev.cmdLegal_of_mem rfl (by simp [hs])) ⟨?_, ?_⟩
  · exact Dev.start_cmd _ hp
  · rw [Dev.state_canon]
    exact Dev.start_accepted _ hp

theorem stopDrain_completes (he : s.dev.executing 0x21 = true) (hl : s.dev.cmdLegal 0x21 = true) (ha : s.dev.arg 0 % 2 = 0)
    (hd : s.dev.plan.drain = false) : Completes .stopDrain s (fun d => ∀ g < 16, d.bit (F.TGEN_CTRL_RUNNING g) = false) := by
  refine completes_of_run rfl ?_
  intro g hg
  rw [if_pos ha, Dev.vesper_legal _ _ he hl, Dev.stopDrain, hd, if_neg Bool.false_ne_true, Dev.bit_canon, Dev.bit,
    Dev.running_startDrain _ g hg]
  rfl

theorem stopImmediate_completes (he : s.dev.executing 0x21 = true) (hl : s.dev.cmdLegal 0x21 = true) (ha : s.dev.arg 0 % 2 = 1) :
    Completes .stopImmediate s (fun d => d.state = 4 ∧ d.cmd = none) := by
  refine completes_of_run rfl ?_
  rw [if_pos ha, Dev.vesper_legal _ _ he hl]
  exact Dev.complete_after _ (Dev.state_enterConfigured _) .ok

theorem drainComplete_completes (hd : s.dev.plan.drain = true) (h₁ : s.dev.drained = true) (h₂ : s.dev.drainStore.drained = true)
    (h₃ : s.dev.drainStore.scheduled = false) : Completes .drainComplete s (fun d => d.state = 4 ∧ d.cmd = none) := by
  refine completes_of_run rfl ?_
  rw [Dev.drainComplete_of_drained _ hd h₁ h₂ h₃]
  exact Dev.complete_after _ (Dev.state_enterConfigured _) .ok

end Commands

/-- Settles O19: each clause is the lemma of its command above; DEV_STATE outlasts what a change of level brings with it, and the generators stay
stopped while the rest drains. -/
theorem configureStartStop : Obligations.ConfigureStartStop := fun _ =>
  ⟨configure_completes, deconfigure_completes, renegotiate_completes, fun _ => start_completes_refused, start_completes_sorting,
    stopDrain_completes, stopImmediate_completes, drainComplete_completes⟩

end Sys2Proof.Machine
end

section
/-! PROOF. O4, and what the package, power and clock commands share: the reset state, what recording and showing leave alone, and a register store
of which a reset keeps some keys. -/

namespace Sys2Proof.Machine

/-- Settles O4: the reset state lists no field, so that every field reads its reset value; of ENABLE that is whether the page is always enabled. -/
theorem resetState : Obligations.ResetState := by
  have henable : ∀ p b, alwaysEnabled p = b → State.reset.dev.bit (F.BLK_CTRL_ENABLE p) = b := by
    rintro p _ rfl
    have h : State.reset.dev.get (F.BLK_CTRL_ENABLE p) = if alwaysEnabled p then 1 else 0 := rfl
    rw [Dev.bit, h]
    cases alwaysEnabled p <;> rfl
  exact ⟨⟨rfl, rfl, rfl, rfl, rfl⟩, rfl, rfl, fun _ => rfl, rfl, rfl, rfl, fun p => henable p true, fun p => henable p false⟩

/-- What every step of a fold over a list leaves as it was, the fold does. -/
theorem foldl_keeps_of_mem {σ α β : Type} (obs : σ → β) {step : σ → α → σ} (l : List α) (h : ∀ s, ∀ a ∈ l, obs (step s a) = obs s) (s : σ) :
    obs (l.foldl step s) = obs s := by
  induction l generalizing s with
  | nil => rfl
  | cons a l ih => rw [List.foldl_cons, ih (fun s b hb => h s b (List.mem_cons_of_mem _ hb)), h s a List.mem_cons_self]

/-- The same over the numbers below `n`. -/
theorem foldl_keeps_range {σ β : Type} (obs : σ → β) {step : σ → Nat → σ} (n : Nat) (h : ∀ s, ∀ a < n, obs (step s a) = obs s) (s : σ) :
    obs ((List.range n).foldl step s) = obs s :=
  foldl_keeps_of_mem obs _ (fun s a ha => h s a (List.mem_range.mp ha)) s

namespace Dev

variable (d : Dev) {f : Fld}

/-! ### What recording and showing leave alone -/

/-- The device without what recording an event and showing a value may change: register fields, what has been sent, the report queues, Tether. -/
def unrecorded (d : Dev) : Dev := { d with regs := [], out := [], queues := [], teth := {} }

@[simp] theorem unrecorded_set (g : Fld) (v : Nat) : (d.set g v).unrecorded = d.unrecorded := rfl
@[simp] theorem unrecorded_put (g : Fld) (b : Bool) : (d.put g b).unrecorded = d.unrecorded := rfl
@[simp] theorem unrecorded_putBit (g : Fld) (k : Nat) (b : Bool) : (d.putBit g k b).unrecorded = d.unrecorded := rfl
@[simp] theorem unrecorded_count (g : Fld) (n : Nat) : (d.count g n).unrecorded = d.unrecorded := rfl
@[simp] theorem unrecorded_setDt (g h : Fld) (t : Nat) : (d.setDt g h t).unrecorded = d.unrecorded := rfl

@[simp] theorem unrecorded_raise (p b : Nat) : (d.raise p b).unrecorded = d.unrecorded := by
  obtain ⟨r, o, x, t, h⟩ := raise_eq d p b
  rw [h]; rfl

@[simp] theorem unrecorded_setParity (p : Nat) (g : Fld) : (d.setParity p g).unrecorded = d.unrecorded := by simp [setParity]

theorem power_of_unrecorded {d e : Dev} (h : e.unrecorded = d.unrecorded) : e.power = d.power := (congrArg Dev.power h :)
theorem seg_of_unrecorded {d e : Dev} (h : e.unrecorded = d.unrecorded) : e.seg = d.seg := (congrArg Dev.seg h :)
theorem pins_of_unrecorded {d e : Dev} (h : e.unrecorded = d.unrecorded) : e.pins = d.pins := (congrArg Dev.pins h :)

theorem plan_of_unrecorded {d e : Dev} (h : e.unrecorded = d.unrecorded) : e.plan = d.plan := (congrArg Dev.plan h :)
theorem cmd_of_unrecorded {d e : Dev} (h : e.unrecorded = d.unrecorded) : e.cmd = d.cmd := (congrArg Dev.cmd h :)

theorem unrecorded_ite (c : Prop) [Decidable c] (a b : Dev) : (if c then a else b).unrecorded = if c then a.unrecorded else b.unrecorded :=
  apply_ite unrecorded c a b

theorem unrecorded_foldl {α : Type} {step : Dev → α → Dev} (h : ∀ d a, (step d a).unrecorded = d.unrecorded) (l : List α) :
    (l.foldl step d).unrecorded = d.unrecorded :=
  foldl_keeps unrecorded (fun d a _ e => e ▸ h d a) l d

theorem get_foldl_range {step : Dev → Nat → Dev} (n : Nat) (h : ∀ d a, a < n → (step d a).get f = d.get f) :
    ((List.range n).foldl step d).get f = d.get f :=
  foldl_keeps_range (·.get f) n h d

/-! ### A register store filtered -/

/-- Of a store that keeps the keys of `q`, a field reads as before where `q` keeps it, and its reset value elsewhere. -/
theorem get_of_filter {d e : Dev} (q : Nat → Bool) (h : e.regs = d.regs.filter (fun x => q x.1)) :
    e.get f = if q f.key then d.get f else f.reset := by
  rw [get, h, Sparse.get, Sparse.find?_filter]
  split <;> rfl

/-! ### Places -/

theorem pin_of_ne {p : Pin} (h : p ≠ .smbAlertN) : d.pin p = Sparse.get d.pins p.porLevel p.code := by simp [pin, h]

theorem pin_congr {d e : Dev} (h : e.pins = d.pins) {p : Pin} (hp : p ≠ .smbAlertN) : e.pin p = d.pin p := by
  rw [pin_of_ne _ hp, pin_of_ne _ hp, h]

theorem pin_canon {p : Pin} (hp : p ≠ .smbAlertN) : d.canon.pin p = d.pin p := by
  rw [pin_of_ne _ hp, pin_of_ne _ hp, canon_pins]

end Dev

/-- A meaning whose device is known to be `e` completes with whatever holds of `e` in canonical form. -/
theorem completes_of_eq {i : Instr} {s : State} {u : Dev → Dev} {e : Dev} {P : Dev → Prop} (h : exec i s = s.run u) (he : u s.dev = e) (hP : P e.canon) :
    Completes i s P := completes_of_run h (he ▸ hP)

end Sys2Proof.Machine
end

section
/-! PROOF. O5, the power-on reset. A CAL_COMMIT cut short touches MRAM, the wear of its units and the records of an event alone; then the reset
keeps the keys in OTP and HBM_FAIL. -/

namespace Sys2Proof.Machine

/-- Fields in OTP and HBM_FAIL are no records of an event. -/
theorem calm_of_kept {f : Fld} (h : (otpKey f.key || hbmFailKey f.key) = true) : f.calm = true := by
  have hsec : ∀ o, 0x40 ≤ o → o < 0x50 → f.key / 32 = bar0 8 o → f.calm = true := by
    intro o h₁ h₂ h
    have hp : f.key / 32 / 0x1_0000 = 8 := by simp only [h, bar0]; omega
    have ho : f.key / 32 % 0x1_0000 = o := by simp only [h, bar0]; omega
    simp only [Fld.calm, Fld.quiet, hp, ho]
    simp; omega
  simp only [otpKey, hbmFailKey, keyAddr, Bool.or_eq_true, decide_eq_true_eq] at h
  rcases h with (((h | h) | h) | h) | h
  · exact hsec 0x40 (by omega) (by omega) (of_decide_eq_true h)
  · exact hsec 0x44 (by omega) (by omega) (of_decide_eq_true h)
  · exact hsec 0x48 (by omega) (by omega) (of_decide_eq_true h)
  · exact (Fld.calm_congr (g := F.SEC_SVN_FLOOR) h).trans rfl
  · exact (Fld.calm_congr (g := F.DEV_ENV_STAT_HBM_FAIL) h).trans rfl

namespace Dev

variable (d : Dev) {f : Fld}

/-! ### A CAL_COMMIT cut short (R472, R488) -/

/-- The device without what a commit cut short may change: MRAM, its directory and wear, the free values, and the records of an event. -/
def uncut (d : Dev) : Dev := { d.unrecorded with mram := [], free := 0, nvmKeys := [], nvmWear := [], nvmRetired := [] }

theorem uncut_of_unrecorded {d e : Dev} (h : e.unrecorded = d.unrecorded) : e.uncut = d.uncut := by rw [uncut, uncut, h]

theorem get_setMram (a : Nat) (bs : List Nat) : (d.setMram a bs).get f = d.get f := by
  induction bs generalizing d a with
  | nil => rfl
  | cons b bs ih => exact ih _ _

theorem uncut_setMram (a : Nat) (bs : List Nat) : (d.setMram a bs).uncut = d.uncut := by
  induction bs generalizing d a with
  | nil => rfl
  | cons b bs ih => exact ih _ _

theorem get_wearUnit (u : Nat) (hf : f.calm = true) : (d.wearUnit u).get f = d.get f := by
  unfold wearUnit
  extract_lets n d₁ d₂
  have h₂ : d₂.get f = d.get f := by rw [get_ite, get_raise _ _ _ hf, ite_self]; rfl
  rw [get_ite, ← h₂]
  exact ite_self _

theorem uncut_wearUnit (u : Nat) : (d.wearUnit u).uncut = d.uncut := by
  unfold wearUnit
  extract_lets n d₁ d₂
  have h₂ : d₂.uncut = d.uncut := by
    have h : d₂.unrecorded = d₁.unrecorded := by rw [unrecorded_ite, unrecorded_raise, ite_self]
    exact (uncut_of_unrecorded h).trans rfl
  split
  · exact h₂
  · exact h₂

theorem commitCut_keeps {β : Type} (obs : Dev → β) (hfree : ∀ d n, obs (freeUsed d n) = obs d) (hmram : ∀ d a bs, obs (setMram d a bs) = obs d)
    (hkeys : ∀ d k, obs { d with nvmKeys := k } = obs d) (hwear : ∀ d u, obs (wearUnit d u) = obs d) : obs d.commitCut = obs d := by
  unfold commitCut
  extract_lets a kind inst inactive force
  split
  · rfl
  split
  · rfl
  next k hk =>
  generalize d.recordSlot k _ = slot
  obtain ⟨toB, _ | slot⟩ := slot
  · rfl
  · dsimp only
    refine (apply_ite obs _ _ _).trans ((ite_congr rfl (fun _ => hfree _ _) fun _ => ?_).trans (ite_self _))
    exact (foldl_keeps obs (fun d i _ e => e ▸ hwear d _) _ _).trans ((hkeys _ _).trans ((hfree _ _).trans (hmram _ _ _)))

theorem get_commitCut (hf : f.calm = true) : d.commitCut.get f = d.get f :=
  commitCut_keeps d (·.get f) (fun _ _ => rfl) (fun d => get_setMram d) (fun _ _ => rfl) (fun d u => get_wearUnit d u hf)

theorem uncut_commitCut : d.commitCut.uncut = d.uncut :=
  commitCut_keeps d uncut (fun _ _ => rfl) uncut_setMram (fun _ _ => rfl) uncut_wearUnit

@[simp] theorem commitCut_flash : d.commitCut.flash = d.flash := (congrArg Dev.flash (uncut_commitCut d) :)
@[simp] theorem commitCut_power : d.commitCut.power = d.power := (congrArg Dev.power (uncut_commitCut d) :)

theorem commitCut_of_idle (h : d.executing 0x50 = false) : d.commitCut = d := by simp [commitCut, h]

/-! ### The reset (R44, Table pkg-12) -/

theorem get_coldDev : d.coldDev.get f = if otpKey f.key ∨ hbmFailKey f.key then d.get f else f.reset := by
  rw [get_of_filter (d := d.commitCut) (fun k => otpKey k || hbmFailKey k) rfl]
  by_cases h : (otpKey f.key || hbmFailKey f.key) = true
  · rw [if_pos h, if_pos (by simpa using h), get_commitCut _ (calm_of_kept h)]
  · rw [if_neg h, if_neg (by simpa using h)]

theorem coldDev_mram (h : d.executing 0x50 = false) : d.coldDev.mram = d.mram := (congrArg Dev.mram (commitCut_of_idle d h) :)
theorem coldDev_flash : d.coldDev.flash = d.flash := commitCut_flash d

theorem coldDev_tripHold : d.coldDev.power.tripHold = (d.power.tripHold && !d.power.tripCool) := by
  show (d.commitCut.power.tripHold && !d.commitCut.power.tripCool) = _
  rw [commitCut_power]

theorem state_coldDev : d.coldDev.state = 1 := get_coldDev d

/-! ### The rising edge of PORST_N (R42, R43, R44, R538) -/

/-- Selecting the boot source writes NEXT_SRC, WAITING and MISS alone. -/
theorem get_bootSelect (h₁ : f.key ≠ F.SEC_BOOT_CTRL_NEXT_SRC.key) (h₂ : f.key ≠ F.SEC_BOOT_STAT_WAITING.key)
    (h₃ : f.key ≠ F.TETH_BOOT_STAT_MISS.key) : d.bootSelect.get f = d.get f := by
  unfold bootSelect
  rw [get_set_ne _ _ h₃, get_put_ne _ _ h₂, get_set_ne _ _ h₁]
  rfl

@[simp] theorem bootSelect_power : d.bootSelect.power = d.power := rfl

end Dev

/-- A power-on reset, whatever brings it. -/
theorem cold_completes {i : Instr} {s : State} (h : exec i s = s.run (·.porstAssert)) : Completes i s (fun d => d.state = 1 ∧ d.power.porstLow = true
    ∧ (∀ f : Fld, d.get f = if otpKey f.key ∨ hbmFailKey f.key then s.dev.get f else f.reset) ∧ d.mem = []
    ∧ d.power.tripHold = (s.dev.power.tripHold && !s.dev.power.tripCool)
    ∧ ∀ a, Sparse.get d.flash 0 a = Sparse.get s.dev.flash 0 a ∧ (s.dev.executing 0x50 = false → Sparse.get d.mram 0 a = Sparse.get s.dev.mram 0 a)) := by
  refine completes_of_run h ⟨?_, rfl, fun f => ?_, rfl, Dev.coldDev_tripHold _, fun a => ⟨?_, fun hidle => ?_⟩⟩
  · rw [Dev.state_canon]; exact Dev.state_coldDev _
  · rw [Dev.get_canon]; exact Dev.get_coldDev _
  · exact (Sparse.get_canon _ _ _).trans (congrArg (Sparse.get · 0 a) (Dev.coldDev_flash _))
  · exact (Sparse.get_canon _ _ _).trans (congrArg (Sparse.get · 0 a) (Dev.coldDev_mram _ hidle))

theorem porstRelease_completes {s : State} (boot root side : Nat) (h : s.dev.power.porstLow = true) :
    Completes (.porstRelease boot root side) s (fun d => d.get F.DEV_STRAPS_BOOT_SRC = boot % 4
      ∧ d.get F.DEV_STRAPS_TETH_ROOT = root % 2 ∧ d.get F.DEV_STRAPS_TWIN_SIDE = side % 2 ∧ d.get F.TETH_ADDR_ADDR = root % 2
      ∧ d.get (F.DEV_FEAT_OFFER_OFFER 0) = 0x02FF_FFFF + root % 2 * 2 ^ 24
      ∧ d.power.porstLow = false ∧ d.power.starting = !s.dev.power.tripHold ∧ d.power.bootAt = s.dev.time.c) := by
  refine completes_of_run (u := (·.porstRelease boot root side)) rfl ?_
  simp (disch := decide) only [Dev.porstRelease, h, Bool.not_true, Bool.false_eq_true, if_false, Dev.get_canon, Dev.get_bootSelect, Dev.get_set_ne,
    Dev.get_set_self, Dev.canon_power, Dev.bootSelect_power, Dev.set_power]
  refine ⟨rfl, rfl, rfl, ?_, ?_, trivial, trivial, trivial⟩
  · omega
  · omega

/-- Settles O5: the two ways down are one reset, and the release latches the straps. -/
theorem powerOn : Obligations.PowerOn := fun _ => ⟨cold_completes rfl, cold_completes rfl, fun boot root side => porstRelease_completes boot root side⟩

end Sys2Proof.Machine
end

section
/-! PROOF. O6, the warm-class resets. After the reset keeps the keys of Table pkg-12, the lanes and relay outputs settle anew in keys that it keeps
too; so a field that it does not keep reads its reset value. -/

namespace Sys2Proof.Machine

/-! ### Keys that a warm-class reset keeps -/

theorem warmKey_lanePage {k : Nat} (h : 0x20 ≤ k / 32 / 0x1_0000) (h' : k / 32 / 0x1_0000 ≤ 0x2B) : warmKey k = true := by
  simp [warmKey, keyAddr, h, h']

theorem warmKey_relayActive {p : Nat} (h : p < 8) : warmKey (F.CXP_RELAY_RLY_ACTIVE p).key = true := by
  have ha : (F.CXP_RELAY_RLY_ACTIVE p).key / 32 = bar0 (16 + p) 0x80 := by simp only [Fld.key, bar0]; omega
  have hp : bar0 (16 + p) 0x80 / 0x1_0000 = 16 + p := by simp only [bar0]; omega
  simp only [warmKey, keyAddr, ha, hp]
  simp; omega

/-- The always-on pages: those before the cameras'. -/
abbrev Fld.low (f : Fld) : Prop := f.key < 0x10 * 0x1_0000 * 32

/-- A kept key of a later page stands at another place than a field that is not kept, or one of the pages before the cameras'. -/
theorem Fld.ne_of_warm {f g : Fld} (hf : warmKey f.key = true → f.low) (hg : warmKey g.key = true) (hg' : ¬g.low) : f.key ≠ g.key := fun e => by
  unfold Fld.low at *
  exact hg' (e ▸ hf (e ▸ hg))

/-- And so does any kept key, from a field that is not kept. -/
theorem Fld.ne_of_not_warm {f g : Fld} (hf : warmKey f.key = false) (hg : warmKey g.key = true) : f.key ≠ g.key := fun e => by
  rw [e, hg] at hf; exact Bool.noConfusion hf

namespace Dev

variable (d : Dev) {f : Fld}

/-! ### Lanes and relay outputs settle anew -/

theorem get_resettle {l : Nat} (hl : l < 96) (hf : warmKey f.key = true → f.low) : (d.resettle l).get f = d.get f := by
  have hlane : ∀ o s w r, o < 0x1000 → s < 32 → f.key ≠ (⟨bar0 (32 + l / 8) o, s, w, r⟩ : Fld).key := fun o s w r ho hs => by
    refine Fld.ne_of_warm hf (warmKey_lanePage ?_ ?_) ?_
    all_goals simp only [Fld.low, Fld.key, bar0]; omega
  simp only [resettle, laneShow, not_le.mpr hl]
  split
  · rw [if_neg not_false, get_set_ne _ _ (hlane _ _ _ _ (by omega) (by omega)), get_ite, get_put_ne _ _ (hlane _ _ _ _ (by omega) (by omega)), ite_self]
    rfl
  · rfl

theorem resettle_power {l : Nat} (hl : l < 96) : (d.resettle l).power = d.power := by
  simp only [resettle, laneShow, not_le.mpr hl]
  split
  · rw [if_neg not_false, set_power, apply_ite Dev.power, put_power, ite_self]
    rfl
  · rfl

theorem get_relayUpdate (p : Nat) (hf : p < 8 → f.key ≠ (F.CXP_RELAY_RLY_ACTIVE p).key) : (d.relayUpdate p).get f = d.get f := by
  unfold relayUpdate
  split
  · rfl
  · rw [get_put_ne _ _ (hf (by omega))]
    exact get_foldl d (fun d c => get_setPin d _ _ f) _

theorem relayUpdate_power (p : Nat) : (d.relayUpdate p).power = d.power := by
  unfold relayUpdate
  split
  · rfl
  · rw [put_power]
    exact foldl_keeps_range Dev.power 4 (fun d c _ => setPin_power d _ _) d

/-! ### What the reset leaves (R44, R411) -/

theorem get_warmDev (hf : warmKey f.key = true → f.low) (h₁ : f.key ≠ F.DEV_ENV_STAT_CLK_LOST.key) (h₂ : f.key ≠ F.TIME_STAT_HOLDOVER.key) :
    d.warmDev.get f = if warmKey f.key then d.get f else f.reset := by
  unfold warmDev
  rw [get_foldl_range _ 8 (fun d p hp => get_relayUpdate d p fun _ => Fld.ne_of_warm hf (warmKey_relayActive hp) (by
      simp only [Fld.low, Fld.key, bar0]; omega)),
    get_foldl_range _ 96 (fun d l hl => get_resettle d hl hf), get_put_ne _ _ h₂, get_set_ne _ _ h₁]
  exact get_of_filter warmKey rfl

theorem holdover_warmDev : d.warmDev.get F.TIME_STAT_HOLDOVER = b2n (d.testBit F.DEV_ENV_STAT_CLK_LOST 1) := by
  unfold warmDev
  have hlow : F.TIME_STAT_HOLDOVER.low := by decide
  rw [get_foldl_range _ 8 (fun d p hp => get_relayUpdate d p fun _ => Fld.ne_of_warm (fun _ => hlow)
      (warmKey_relayActive hp) (by simp only [Fld.low, Fld.key, bar0]; omega)),
    get_foldl_range _ 96 (fun d l hl => get_resettle d hl fun _ => hlow)]
  exact get_put_self _ _ _ one_ne_zero

theorem starting_warmDev : d.warmDev.power.starting = true := by
  unfold warmDev
  rw [foldl_keeps Dev.power (fun d p _ e => e ▸ relayUpdate_power d p), foldl_keeps_range Dev.power 96 (fun d l hl => resettle_power d hl)]
  rfl

/-- The reset itself, where nothing bars it. -/
theorem warmReset_eq (cause : Nat) (hp : d.power.porstLow = false) (ht : d.power.tripHold = false) :
    d.warmReset cause = ((((if d.state = 1 then (d.merSend 0x03 0 1 [0x0A]).warmDev
      else ((d.merSend 0x03 0 1 [0x0A]).warmDev.set F.DEV_STATE_PREV d.state).count F.DEV_STATE_TRANS_CNT).countSat F.DEV_RESET_CAUSE_WARM_CNT).set
        F.DEV_RESET_CAUSE_CAUSE cause).setPin .thermTripN .z).bootSelect := by
  simp [warmReset, hp, ht]

/-- A field that the reset keeps on the pages before the cameras', or does not keep, and that neither shows the reset nor the boot ROM. -/
def resetKeeps (f : Fld) : Prop :=
  (warmKey f.key = true → f.low) ∧ f.key ∉ [F.DEV_ENV_STAT_CLK_LOST.key, F.TIME_STAT_HOLDOVER.key, F.DEV_STATE_PREV.key, F.DEV_STATE_TRANS_CNT.key,
    F.DEV_RESET_CAUSE_WARM_CNT.key, F.DEV_RESET_CAUSE_CAUSE.key, F.SEC_BOOT_CTRL_NEXT_SRC.key, F.SEC_BOOT_STAT_WAITING.key, F.TETH_BOOT_STAT_MISS.key]

section Reset

variable (cause : Nat) (hp : d.power.porstLow = false) (ht : d.power.tripHold = false)
include hp ht

theorem get_warmReset (hf : resetKeeps f) : (d.warmReset cause).get f = if warmKey f.key then d.get f else f.reset := by
  obtain ⟨hlow, hne⟩ := hf
  simp only [List.mem_cons, List.not_mem_nil, or_false, not_or] at hne
  obtain ⟨h₁, h₂, h₃, h₄, h₅, h₆, h₇, h₈, h₉⟩ := hne
  rw [warmReset_eq d cause hp ht, get_bootSelect _ h₇ h₈ h₉, get_setPin, get_set_ne _ _ h₆, get_countSat_ne _ h₅, get_ite, get_count_ne _ _ h₄,
    get_set_ne _ _ h₃, ite_self, get_warmDev _ hlow h₁ h₂, get_merSend]

theorem state_warmReset : (d.warmReset cause).state = 1 :=
  get_warmReset d cause hp ht ⟨by decide, by decide⟩

theorem cause_warmReset (hc : cause < 16) : (d.warmReset cause).get F.DEV_RESET_CAUSE_CAUSE = cause := by
  rw [warmReset_eq d cause hp ht, get_bootSelect _ (by decide) (by decide) (by decide), get_setPin, get_set_self]
  exact Nat.mod_eq_of_lt hc

theorem warmCnt_warmReset : (d.warmReset cause).get F.DEV_RESET_CAUSE_WARM_CNT =
    satInc F.DEV_RESET_CAUSE_WARM_CNT.width (d.get F.DEV_RESET_CAUSE_WARM_CNT) % 2 ^ F.DEV_RESET_CAUSE_WARM_CNT.width := by
  rw [warmReset_eq d cause hp ht, get_bootSelect _ (by decide) (by decide) (by decide), get_setPin, get_set_ne _ _ (by decide), get_countSat_self,
    get_ite, get_count_ne _ _ (by decide), get_set_ne _ _ (by decide), ite_self,
    get_warmDev _ (fun _ => by decide) (by decide) (by decide), get_merSend]
  rfl

theorem holdover_warmReset : (d.warmReset cause).bit F.TIME_STAT_HOLDOVER = d.testBit F.DEV_ENV_STAT_CLK_LOST 1 := by
  rw [bit, warmReset_eq d cause hp ht, get_bootSelect _ (by decide) (by decide) (by decide), get_setPin, get_set_ne _ _ (by decide),
    get_countSat_ne _ (by decide), get_ite, get_count_ne _ _ (by decide), get_set_ne _ _ (by decide), ite_self, holdover_warmDev, testBit,
    get_merSend, ← testBit]
  cases d.testBit F.DEV_ENV_STAT_CLK_LOST 1 <;> rfl

theorem starting_warmReset : (d.warmReset cause).power.starting = true := by
  rw [warmReset_eq d cause hp ht, bootSelect_power, setPin_power, set_power, countSat_power, apply_ite power, count_power, set_power, ite_self]
  exact starting_warmDev _

end Reset

end Dev

/-- A warm-class reset with its cause, whatever brings it. -/
theorem warm_completes {i : Instr} {s : State} (cause : Nat) (hc : cause < 16) (h : exec i s = s.run (·.warmReset cause))
    (hp : s.dev.power.porstLow = false) (ht : s.dev.power.tripHold = false) :
    Completes i s (fun d => d.state = 1 ∧ d.power.starting = true ∧ d.get F.DEV_RESET_CAUSE_CAUSE = cause
      ∧ d.get F.DEV_RESET_CAUSE_WARM_CNT = satInc F.DEV_RESET_CAUSE_WARM_CNT.width (s.dev.get F.DEV_RESET_CAUSE_WARM_CNT) % 2 ^ F.DEV_RESET_CAUSE_WARM_CNT.width
      ∧ d.get F.DEV_STRAPS_BOOT_SRC = s.dev.get F.DEV_STRAPS_BOOT_SRC ∧ d.get F.TETH_ADDR_ADDR = s.dev.get F.TETH_ADDR_ADDR
      ∧ d.get (F.DEV_FEAT_OFFER_OFFER 0) = s.dev.get (F.DEV_FEAT_OFFER_OFFER 0)
      ∧ d.bit F.TIME_STAT_HOLDOVER = s.dev.testBit F.DEV_ENV_STAT_CLK_LOST 1
      ∧ ∀ f : Fld, warmKey f.key = false → f.key ≠ F.DEV_ENV_STAT_CLK_LOST.key → f.key ≠ F.SEC_BOOT_STAT_WAITING.key →
        f.key ≠ F.TIME_STAT_HOLDOVER.key → d.get f = f.reset) := by
  have kept : ∀ f : Fld, warmKey f.key = true → Dev.resetKeeps f → (s.dev.warmReset cause).canon.get f = s.dev.get f := fun f hw hf => by
    rw [Dev.get_canon, Dev.get_warmReset _ _ hp ht hf, if_pos hw]
  refine completes_of_run h ⟨?_, Dev.starting_warmReset _ _ hp ht, ?_, ?_, ?_, ?_, ?_, ?_, fun f hw h₁ h₂ h₃ => ?_⟩
  · rw [Dev.state_canon, Dev.state_warmReset _ _ hp ht]
  · rw [Dev.get_canon, Dev.cause_warmReset _ _ hp ht hc]
  · rw [Dev.get_canon, Dev.warmCnt_warmReset _ _ hp ht]
  · exact kept _ rfl ⟨fun _ => by decide, by decide⟩
  · exact kept _ rfl ⟨fun _ => by decide, by decide⟩
  · exact kept _ rfl ⟨fun _ => by decide, by decide⟩
  · rw [Dev.bit_canon, Dev.holdover_warmReset _ _ hp ht]
  · have apart : ∀ g : Fld, warmKey g.key = true → f.key ≠ g.key := fun g => Fld.ne_of_not_warm hw
    rw [Dev.get_canon, Dev.get_warmReset _ _ hp ht ⟨fun h => absurd hw (by simp [h]), ?_⟩, if_neg (by simp [hw])]
    simp only [List.mem_cons, List.not_mem_nil, or_false, not_or]
    exact ⟨h₁, h₃, apart _ rfl, apart _ rfl, apart _ rfl, apart _ rfl, apart _ rfl, h₂, apart _ rfl⟩

/-- Settles O6: the four sources bring one reset, each with its cause. -/
theorem warmResets : Obligations.WarmResets := fun _ hp ht =>
  ⟨warm_completes 2 (by decide) rfl hp ht, warm_completes 4 (by decide) rfl hp ht, warm_completes 5 (by decide) rfl hp ht,
    warm_completes 6 (by decide) rfl hp ht⟩

end Sys2Proof.Machine
end

section
/-! PROOF. What a change of level leaves alone: all but the records of events, the balls DIVERT_OUT, Meridian, the divert timers and the cut groups. -/

namespace Sys2Proof.Machine

/-- Of a list filtered by key, entries with a key that the filter drops are of no account. -/
theorem Sparse.filter_set {α : Type} [DecidableEq α] (m : List (Nat × α)) (dflt : α) (q : Nat → Bool) {k : Nat} (v : α) (hq : q k = false) :
    (Sparse.set m dflt k v).filter (fun e => q e.1) = m.filter (fun e => q e.1) := by
  have herase : ∀ m : List (Nat × α), (Sparse.erase m k).filter (fun e => q e.1) = m.filter (fun e => q e.1) := fun m => by
    rw [Sparse.erase, List.filter_filter]
    refine List.filter_congr fun e _ => ?_
    by_cases he : e.1 = k
    · simp [he, hq]
    · simp [he]
  have hinsert : ∀ m : List (Nat × α), (Sparse.insert m k v).filter (fun e => q e.1) = m.filter (fun e => q e.1) := fun m => by
    induction m with
    | nil => simp [Sparse.insert, hq]
    | cons e m ih =>
      simp only [Sparse.insert]
      split
      · simp [hq]
      · simp only [List.filter_cons, ih]
  unfold Sparse.set
  split
  · exact herase m
  · exact (hinsert _).trans (herase m)

/-- The balls DIVERT_OUT. -/
def divertCode (code : Nat) : Bool := code / 0x100 = 6

@[simp] theorem divertCode_divert (n : Nat) : divertCode (Pin.divert n).code = true :=
  decide_eq_true (by simp only [Pin.code]; omega)

namespace Dev

variable (d : Dev) {f : Fld}

/-- The device without what a change of level may change. -/
def unlevelled (d : Dev) : Dev :=
  { d.unrecorded with pins := d.pins.filter (fun e => !divertCode e.1), mer := {}, plan := { d.plan with divertAt := [] }, seg := { d.seg with cut := [] } }

theorem unlevelled_of_unrecorded {d e : Dev} (h : e.unrecorded = d.unrecorded) : e.unlevelled = d.unlevelled := by
  have hpins : e.pins = d.pins := pins_of_unrecorded h
  have hplan : e.plan = d.plan := plan_of_unrecorded h
  have hseg : e.seg = d.seg := seg_of_unrecorded h
  simp only [unlevelled, h, hpins, hplan, hseg]

theorem unlevelled_ite (c : Prop) [Decidable c] (a b : Dev) : (if c then a else b).unlevelled = if c then a.unlevelled else b.unlevelled :=
  apply_ite unlevelled c a b

@[simp] theorem unlevelled_setDivertAt (n : Nat) (t : Option Nat) : (d.setDivertAt n t).unlevelled = d.unlevelled := rfl

@[simp] theorem unlevelled_setPin_divert (n : Nat) (l : Level) : (d.setPin (.divert n) l).unlevelled = d.unlevelled := by
  have h := Sparse.filter_set d.pins (Pin.divert n).porLevel (fun k => !divertCode k) (k := (Pin.divert n).code) l (by simp)
  simp only [unlevelled, unrecorded, setPin, h]

@[simp] theorem unlevelled_driveDivert (n : Nat) (on : Bool) : (d.driveDivert n on).unlevelled = d.unlevelled := by
  rw [driveDivert, unlevelled_setPin_divert]; rfl

@[simp] theorem unlevelled_divertOne (n : Nat) : (d.divertOne n).unlevelled = d.unlevelled := by
  unfold divertOne
  split
  · rw [unlevelled_setDivertAt, unlevelled_setPin_divert]; rfl
  split
  · simp
  split
  · split
    · simp
    · dsimp only
      split <;> simp
  · simp

theorem unlevelled_divertUpdate : d.divertUpdate.unlevelled = d.unlevelled := by simp [divertUpdate]

theorem unlevelled_leaveSorting : d.leaveSorting.unlevelled = d.unlevelled := by
  unfold leaveSorting
  extract_lets lost d₁ mer seg d₂ d₃ d₄
  have h₁ : d₁.unlevelled = d.unlevelled := unlevelled_of_unrecorded (unrecorded_foldl d (fun d g => unrecorded_putBit d _ _ _) lost)
  have h₂ : d₂.unlevelled = d₁.unlevelled := rfl
  have h₄ : d₄.unlevelled = d₂.unlevelled := by
    show d₃.abandonJoin.unlevelled = d₃.unlevelled
    unfold abandonJoin
    extract_lets p
    split <;> rfl
  have hrole : (d₄.setRole 0).unlevelled = d₄.unlevelled := unlevelled_of_unrecorded (by simp [setRole])
  rw [unlevelled_ite, hrole, ite_self, h₄, h₂, h₁]

theorem unrecorded_levelUpdate (cause detail : Nat) : (d.levelUpdate cause detail).unrecorded = d.unrecorded := by
  unfold levelUpdate
  extract_lets d₁ was d₂
  have h₁ : d₁.unrecorded = d.unrecorded := unrecorded_put d _ _
  have h₂ : d₂.unrecorded = d₁.unrecorded := by simp [d₂]
  split
  · exact h₁
  · rw [unrecorded_raise, unrecorded_setDt, h₂, h₁]

theorem unlevelled_moveState (s cause detail : Nat) : (d.moveState s cause detail).unlevelled = d.unlevelled := by
  unfold moveState
  split
  · rfl
  · extract_lets d₁ d₂ d₃
    have h₁ : d₁.unlevelled = d.unlevelled := unlevelled_of_unrecorded (by simp [d₁])
    have h₂ : d₂.unlevelled = d₁.unlevelled :=
      (unlevelled_divertUpdate _).trans (unlevelled_of_unrecorded ((unrecorded_raise _ 0 3).trans (unrecorded_set d₁ _ _)))
    rw [unlevelled_of_unrecorded (unrecorded_levelUpdate _ _ _), unlevelled_ite, unlevelled_leaveSorting, ite_self, h₂, h₁]

/-! ### What that says of the parts -/

/-- A ball other than DIVERT_OUT and SMB_ALERT_N shows the same after a change of level. -/
theorem pin_of_unlevelled {d e : Dev} (h : e.unlevelled = d.unlevelled) {p : Pin} (hp : p ≠ .smbAlertN) (hd : divertCode p.code = false) :
    e.pin p = d.pin p := by
  have hpins : e.pins.filter (fun x => !divertCode x.1) = d.pins.filter (fun x => !divertCode x.1) := (congrArg Dev.pins h :)
  have hfind : ∀ l : List (Nat × Level), Sparse.find? l p.code = Sparse.find? (l.filter (fun x => !divertCode x.1)) p.code := fun l => by
    rw [Sparse.find?_filter l (fun k => !divertCode k)]
    simp [hd]
  rw [pin_of_ne _ hp, pin_of_ne _ hp, Sparse.get, Sparse.get, hfind, hpins, ← hfind]

theorem pin_moveState (s cause detail : Nat) {p : Pin} (hp : p ≠ .smbAlertN) (hd : divertCode p.code = false) :
    (d.moveState s cause detail).pin p = d.pin p := pin_of_unlevelled (unlevelled_moveState d s cause detail) hp hd

@[simp] theorem moveState_cmd (s cause detail : Nat) : (d.moveState s cause detail).cmd = d.cmd :=
  (congrArg Dev.cmd (unlevelled_moveState d s cause detail) :)

@[simp] theorem moveState_passing (s cause detail : Nat) : (d.moveState s cause detail).plan.passing = d.plan.passing :=
  (congrArg (·.plan.passing) (unlevelled_moveState d s cause detail) :)

@[simp] theorem moveState_metPort (s cause detail n : Nat) : (d.moveState s cause detail).metPort n = d.metPort n :=
  (congrArg (·.metPort n) (unlevelled_moveState d s cause detail) :)

end Dev

end Sys2Proof.Machine
end

section
/-! PROOF. O7, the end of start-up. From the image on, each part of Vesper's start leaves alone the power state it has cleared, the contexts'
generations and RST_OUT_N; the boot ROM with no slot to read tries each with cause 1. -/

namespace Sys2Proof.Machine

namespace Dev

variable (d : Dev) {f : Fld}

/-! ### Vesper's part of start-up (R47, R202) -/

/-- What of the device the end of start-up is judged by, beside its registers. -/
def startView (d : Dev) : Bool × Bool × List (Nat × Nat) × Level := (d.power.starting, d.power.warmStart, d.seg.gens, d.pin .rstOutN)

theorem startView_of_unlevelled {d e : Dev} (h : e.unlevelled = d.unlevelled) : e.startView = d.startView := by
  have hpower : e.power = d.power := (congrArg Dev.power h :)
  have hgens : e.seg.gens = d.seg.gens := (congrArg (·.seg.gens) h :)
  simp only [startView, hpower, hgens, pin_of_unlevelled h (p := .rstOutN) (by simp) rfl]

theorem startView_of_unrecorded {d e : Dev} (h : e.unrecorded = d.unrecorded) : e.startView = d.startView :=
  startView_of_unlevelled (unlevelled_of_unrecorded h)

@[simp] theorem startView_set (g : Fld) (v : Nat) : (d.set g v).startView = d.startView := startView_of_unrecorded (unrecorded_set d g v)
@[simp] theorem startView_put (g : Fld) (b : Bool) : (d.put g b).startView = d.startView := startView_set d g _
@[simp] theorem startView_setS (g : Fld) (i : Int) : (d.setS g i).startView = d.startView := startView_set d g _
@[simp] theorem startView_putBit (g : Fld) (k : Nat) (b : Bool) : (d.putBit g k b).startView = d.startView := startView_set d g _

theorem startView_setPin {p : Pin} (l : Level) (h : Pin.rstOutN.code ≠ p.code) : (d.setPin p l).startView = d.startView := by
  simp only [startView, pin_setPin_ne _ _ h]; rfl

theorem unrecorded_pllsUp : d.pllsUp.unrecorded = d.unrecorded := by
  unfold pllsUp
  exact unrecorded_foldl d (fun d g => by simp) _

@[simp] theorem pllsUp_power : d.pllsUp.power = d.power := power_of_unrecorded (unrecorded_pllsUp d)
@[simp] theorem pllsUp_seg : d.pllsUp.seg = d.seg := seg_of_unrecorded (unrecorded_pllsUp d)

theorem unrecorded_showIdentity : d.showIdentity.unrecorded = d.unrecorded := by
  unfold showIdentity
  exact unrecorded_foldl d (fun d n => unrecorded_set d _ _) _

theorem unrecorded_nvmShow : d.nvmShow.unrecorded = d.unrecorded := by simp [nvmShow]

theorem startView_trimHeld : d.trimHeld.startView = d.startView := by
  refine foldl_keeps_range startView 16 (fun d n _ => ?_) d
  dsimp only
  split
  · rfl
  · simp only [startView_putBit, startView_set]
    rfl

theorem startView_linkStart : d.linkStart.startView = d.startView := by
  unfold linkStart
  split
  · rfl
  · simp only [linkShow, startView_set]
    rw [startView_setPin _ _ (by decide)]
    rfl

theorem pin_faultN_moveState (s : Nat) : ((d.setPin .faultN .z).moveState s).pin .faultN = .z := by
  rw [pin_moveState _ _ _ _ (by simp) rfl, pin_setPin _ _ (by simp)]

/-- Start-up before the contexts' generations are read. -/
def vesperBegins (d : Dev) (hbmOk : Bool) (dlys : List Nat) (devs : List Int) : Dev :=
  let d : Dev := { d with power := { d.power with starting := false } }
  let d := ((d.pllsUp.setPin .tethOut .run).put F.TETH_ADDR_LAST (!d.bit F.TETH_STAT_RET_LOCK)).setPin .rstOutN .high
  let d := d.put F.DEV_ENV_STAT_HBM_FAIL (!hbmOk)
  (List.range 4).foldl (fun d i => (d.set (F.TIME_ISL_DLY_DLY i) (dlys.getD i 0)).setS (F.TIME_ISL_DLY_DEV i) (devs.getD i 0)) d

/-- The contexts of `badGens` restart at generation 0 in a warm start-up. -/
def gensRead (d : Dev) (badGens : List Nat) : Dev :=
  if d.power.warmStart && badGens ≠ [] then
    ({ d with seg := { d.seg with gens := d.seg.gens.filter (fun e => !badGens.contains e.1) } } : Dev).setParity 0x37 (F.BLK_PARITY_SRAM_UE 0x37)
  else d

theorem vesperUp_eq (hbmOk : Bool) (dlys : List Nat) (devs : List Int) (badGens : List Nat) : d.vesperUp hbmOk dlys devs badGens =
    (((((d.vesperBegins hbmOk dlys devs).gensRead badGens).showIdentity.trimHeld.nvmShow.linkStart).setPin .faultN .z).moveState 2) := rfl

theorem startView_vesperBegins (hbmOk : Bool) (dlys : List Nat) (devs : List Int) :
    (d.vesperBegins hbmOk dlys devs).startView = (false, d.power.warmStart, d.seg.gens, .high) := by
  simp only [vesperBegins]
  rw [foldl_keeps_range startView 4 (fun d i _ => by simp), startView_put, startView]
  simp only [setPin_power, put_power, pllsUp_power, setPin_seg, put_seg, pllsUp_seg, pin_setPin _ _ (show Pin.rstOutN ≠ .smbAlertN by simp)]

theorem get_gensRead (badGens : List Nat) (c : Nat) (h : d.power.warmStart = true) :
    Sparse.get (d.gensRead badGens).seg.gens 0 c = if c ∈ badGens then 0 else Sparse.get d.seg.gens 0 c := by
  unfold gensRead
  split
  · rw [seg_of_unrecorded (unrecorded_setParity _ _ _), Sparse.get, Sparse.find?_filter _ (fun k => !badGens.contains k), Sparse.get]
    by_cases hc : c ∈ badGens
    · simp [hc]
    · simp [hc]
  · next hne =>
    have hnil : badGens = [] := by simpa [h] using hne
    simp [hnil]

theorem startView_gensRead (badGens : List Nat) :
    (d.gensRead badGens).power = d.power ∧ (d.gensRead badGens).pin .rstOutN = d.pin .rstOutN := by
  unfold gensRead
  split
  · exact ⟨(power_of_unrecorded (unrecorded_setParity _ _ _)).trans rfl,
      (pin_congr (pins_of_unrecorded (unrecorded_setParity _ _ _)) (by simp)).trans rfl⟩
  · exact ⟨rfl, rfl⟩

/-- With an image that passed its checks Vesper reaches IDENT. -/
theorem vesperUp_ends (hbmOk : Bool) (dlys : List Nat) (devs : List Int) (badGens : List Nat) {u : Dev}
    (hu : d.vesperUp hbmOk dlys devs badGens = u) :
    u.state = 2 ∧ u.power.starting = false ∧ u.pin .rstOutN = .high ∧ u.pin .faultN = .z ∧ (d.power.warmStart = true → ∀ c,
      Sparse.get u.seg.gens 0 c = if c ∈ badGens then 0 else Sparse.get d.seg.gens 0 c) := by
  have hbegins := startView_vesperBegins d hbmOk dlys devs
  generalize hb : d.vesperBegins hbmOk dlys devs = b at hbegins
  obtain ⟨hstart, hwarm, hgens, hpin⟩ := by simpa only [startView, Prod.mk.injEq] using hbegins
  obtain ⟨hpow, hrst⟩ := startView_gensRead b badGens
  rw [vesperUp_eq, hb] at hu
  have hview : u.startView = (b.gensRead badGens).startView := by
    rw [← hu, startView_of_unlevelled (unlevelled_moveState _ _ _ _), startView_setPin _ _ (by decide), startView_linkStart,
      startView_of_unrecorded (unrecorded_nvmShow _), startView_trimHeld, startView_of_unrecorded (unrecorded_showIdentity _)]
  obtain ⟨hus, -, hug, hup⟩ := by simpa only [startView, Prod.mk.injEq] using hview
  refine ⟨?_, ?_, ?_, ?_, fun hw c => ?_⟩
  · rw [← hu]; exact state_moveState _ 2 1 0 (by decide)
  · rw [hus, hpow, hstart]
  · rw [hup, hrst, hpin]
  · rw [← hu]; exact pin_faultN_moveState _ 2
  · rw [hug, get_gensRead _ _ _ (hwarm.trans hw), hgens]

/-! ### No slot of the flash can be read (R542, R544) -/

/-- A slot that cannot be read fails with cause 1; the device stays in its state. -/
theorem cause_imageChecked : (d.imageChecked 1).get F.SEC_BOOT_STAT_CAUSE = 1 := by
  simp only [imageChecked, one_ne_zero, if_false, get_set_self]
  rfl

theorem state_imageChecked : (d.imageChecked 1).state = d.state := by
  simp only [imageChecked, one_ne_zero, if_false, state]
  rw [get_set_ne _ _ (by decide), get_count_ne _ _ (by decide)]
  rfl

theorem bootSlot_unread (k : Nat) : bootSlot 0 (d, false) k = (d.imageChecked 1, false) := by simp [bootSlot]

/-- Every slot tried fails, and one is tried. -/
theorem bootSlots_unread : ∃ u : Dev, d.bootSlots.foldl (bootSlot 0) (d, false) = (u.imageChecked 1, false) ∧ u.state = d.state := by
  simp only [bootSlots]
  split
  · exact ⟨d, by rw [List.foldl_cons, List.foldl_nil, bootSlot_unread], rfl⟩
  · refine ⟨d.imageChecked 1, ?_, state_imageChecked d⟩
    rw [List.foldl_cons, List.foldl_cons, List.foldl_nil, bootSlot_unread, bootSlot_unread]

theorem get_setBootRecord (active : Nat) (staged : Option Nat) (trial : Bool) : (d.setBootRecord active staged trial).get f = d.get f := by
  rw [setBootRecord, get_setMram, get_setMram]; rfl

/-- With no slot to read, the boot ROM waits, as the last check left the registers. -/
theorem bootFlash_eq : ∃ u e : Dev, d.bootFlash 0 = (e.put F.SEC_BOOT_STAT_WAITING true, false) ∧ (∀ g, e.get g = (u.imageChecked 1).get g)
    ∧ u.state = d.state := by
  obtain ⟨u, hu, hstate⟩ := bootSlots_unread d
  simp only [bootFlash, hu, Bool.false_eq_true, if_false]
  refine ⟨u, _, rfl, fun g => (get_ite _ _ _).trans ((ite_congr rfl (fun _ => ?_) fun _ => ?_).trans (ite_self _)), hstate⟩
  · show Dev.get (if _ then _ else _) g = _
    rw [get_ite, get_setBootRecord, ite_self]
  · show Dev.get (if _ then _ else _) g = _
    rw [get_ite, get_setBootRecord, ite_self]

theorem bootFlash_unread : ∃ e, d.bootFlash 0 = (e, false) ∧ e.state = d.state ∧ e.get F.SEC_BOOT_STAT_CAUSE = 1
    ∧ e.get F.SEC_BOOT_STAT_WAITING = 1 := by
  obtain ⟨u, e, he, hget, hstate⟩ := bootFlash_eq d
  refine ⟨_, he, ?_, ?_, get_put_self _ _ _ one_ne_zero⟩
  · rw [state, get_put_ne _ _ (by decide), hget, ← hstate]
    exact state_imageChecked u
  · rw [get_put_ne _ _ (by decide), hget, cause_imageChecked]

end Dev

theorem exec_startupComplete (s : State) (readable : Nat) (single hbmOk : Bool) (dlys : List Nat) (devs : List Int) (badGens : List Nat) :
    exec (.startupComplete readable single ⟨hbmOk, badGens⟩ dlys devs) s
      = s.run (·.startupComplete readable single hbmOk dlys devs badGens) := rfl

theorem startup_with_image {s : State} (readable : Nat) (single hbmOk : Bool) (dlys : List Nat) (devs : List Int) (badGens : List Nat)
    (hs : s.dev.state = 1) (hst : s.dev.power.starting = true) (hp : s.dev.power.porstLow = false) (ht : s.dev.power.tripHold = false)
    (himg : s.dev.boot.header ≠ []) :
    Completes (.startupComplete readable single ⟨hbmOk, badGens⟩ dlys devs) s (fun d => d.state = 2 ∧ d.power.starting = false
      ∧ d.pin .rstOutN = .high ∧ d.pin .faultN = .z ∧ (s.dev.power.warmStart = true → ∀ c, Sparse.get d.seg.gens 0 c =
        if c ∈ badGens then 0 else Sparse.get s.dev.seg.gens 0 c)) := by
  obtain ⟨u, hv⟩ : ∃ u, s.dev.vesperUp hbmOk dlys devs badGens = u := ⟨_, rfl⟩
  have hu : s.dev.startupComplete readable single hbmOk dlys devs badGens = u := by
    unfold Dev.startupComplete
    rw [if_neg (by simp [hs, hst, hp, ht]), if_pos himg, hv]
  obtain ⟨h₁, h₂, h₃, h₄, h₅⟩ := Dev.vesperUp_ends s.dev hbmOk dlys devs badGens hv
  exact completes_of_eq (exec_startupComplete s readable single hbmOk dlys devs badGens) hu
    ⟨(Dev.state_canon _).trans h₁, h₂, (Dev.pin_canon _ (by simp)).trans h₃, (Dev.pin_canon _ (by simp)).trans h₄, h₅⟩

theorem startup_unread {s : State} (single hbmOk : Bool) (dlys : List Nat) (devs : List Int) (badGens : List Nat)
    (hs : s.dev.state = 1) (hst : s.dev.power.starting = true) (hp : s.dev.power.porstLow = false) (ht : s.dev.power.tripHold = false)
    (himg : s.dev.boot.header = []) (hw : s.dev.bit F.SEC_BOOT_STAT_WAITING = false) :
    Completes (.startupComplete 0 single ⟨hbmOk, badGens⟩ dlys devs) s (fun d =>
      d.state = 1 ∧ d.get F.SEC_BOOT_STAT_CAUSE = 1 ∧ d.get F.SEC_BOOT_STAT_WAITING = 1) := by
  obtain ⟨u, hno, h₁, h₂, h₃⟩ := Dev.bootFlash_unread { s.dev with boot := { s.dev.boot with single := single } }
  have hu : s.dev.startupComplete 0 single hbmOk dlys devs badGens = u := by
    unfold Dev.startupComplete
    rw [if_neg (by simp [hs, hst, hp, ht]), if_neg (by simp [himg]), if_neg (by simp [hw])]
    dsimp only
    rw [hno]
  exact completes_of_eq (exec_startupComplete s 0 single hbmOk dlys devs badGens) hu
    ⟨(Dev.state_canon _).trans (h₁.trans hs), (Dev.get_canon _ _).trans h₂, (Dev.get_canon _ _).trans h₃⟩

/-- Settles O7: with an image in hand Vesper starts it; with no slot to read each fails with cause 1, and the boot ROM waits. -/
theorem startupEnds : Obligations.StartupEnds := fun _ readable single hbmOk dlys devs badGens hs hst hp ht =>
  ⟨startup_with_image readable single hbmOk dlys devs badGens hs hst hp ht, startup_unread single hbmOk dlys devs badGens hs hst hp ht⟩

end Sys2Proof.Machine
end

section
/-! PROOF. O8, the thresholds on the hottest sensor. The three checks follow each other: the alarm and the throttle leave the reset logic and each
other's mark alone, and what the throttle queues is read off the points in force. -/

namespace Sys2Proof.Machine

/-- A signed number that fits its field reads back as itself. -/
theorem sgn_uns_mod {w : Nat} {i : Int} (h₀ : 0 ≤ i) (h : 2 * i < 2 ^ w) : sgn w (uns w i % 2 ^ w) = i := by
  obtain ⟨n, rfl⟩ := Int.eq_ofNat_of_zero_le h₀
  have hn : 2 * n < 2 ^ w := by exact_mod_cast h
  have hu : uns w n = n := by
    have hmod : ((n : Int) % ((2 ^ w : Nat) : Int)) = (n : Int) := Int.emod_eq_of_lt (by omega) (by exact_mod_cast (by omega : n < 2 ^ w))
    rw [uns, hmod, Int.toNat_natCast]
  have hm : n % 2 ^ w = n := Nat.mod_eq_of_lt (by omega)
  simp [sgn, hu, hm, hn]

namespace Dev

variable (d : Dev) {f : Fld}

/-! ### The alarm (R49) -/

theorem unrecorded_alarmCheck (t : Int) : (d.alarmCheck t).unrecorded = d.unrecorded := by
  unfold alarmCheck
  extract_lets on
  split
  · rw [unrecorded_raise, unrecorded_put]
  · split
    · rw [unrecorded_raise, unrecorded_put]
    · rfl

theorem get_alarmCheck (t : Int) (hf : f.calm = true) (h : f.key ≠ F.DEV_ENV_STAT_ALARM.key) : (d.alarmCheck t).get f = d.get f := by
  unfold alarmCheck
  extract_lets on
  split
  · rw [get_raise _ _ _ hf, get_put_ne _ _ h]
  · split
    · rw [get_raise _ _ _ hf, get_put_ne _ _ h]
    · rfl

theorem alarmCheck_sets {t : Int} (ha : d.bit F.DEV_ENV_STAT_ALARM = false) (ht : 105 ≤ t) :
    (d.alarmCheck t).bit F.DEV_ENV_STAT_ALARM = true ∧ (d.alarmCheck t).testBit (F.BLK_IRQ_RAW 0) 5 = true := by
  have h : d.alarmCheck t = (d.put F.DEV_ENV_STAT_ALARM true).raise 0 5 := by simp [alarmCheck, ha, ht]
  rw [h]
  refine ⟨?_, raise_raw _ _ _ (by decide)⟩
  rw [bit, get_raise _ _ _ rfl, get_put_self _ _ _ one_ne_zero]
  rfl

theorem alarmCheck_clears {t : Int} (ha : d.bit F.DEV_ENV_STAT_ALARM = true) (ht : t ≤ 100) :
    (d.alarmCheck t).bit F.DEV_ENV_STAT_ALARM = false ∧ (d.alarmCheck t).testBit (F.BLK_IRQ_RAW 0) 5 = true := by
  have h : d.alarmCheck t = (d.put F.DEV_ENV_STAT_ALARM false).raise 0 5 := by simp [alarmCheck, ha, ht]
  rw [h]
  refine ⟨?_, raise_raw _ _ _ (by decide)⟩
  rw [bit, get_raise _ _ _ rfl, get_put_self _ _ _ one_ne_zero]
  rfl

/-! ### Throttle (R50, R261) -/

@[simp] theorem get_queuePoints : d.queuePoints.get f = d.get f := rfl
@[simp] theorem queuePoints_power : d.queuePoints.power = d.power := rfl
theorem wantedPoint_queuePoints (e : Nat) : d.queuePoints.wantedPoint e = d.wantedPoint e := rfl

/-- An engine that is not at the point it is to run at waits for its change. -/
theorem mem_queuePoints {e : Nat} (he : e < 64) (h : d.get (F.ENG_PT_ACT e) ≠ d.wantedPoint e) : e ∈ d.queuePoints.engines.ptWait := by
  simp only [queuePoints, List.mem_append, List.mem_filter, List.mem_range]
  by_cases hw : e ∈ d.engines.ptWait
  · exact .inl hw
  · exact .inr ⟨he, by simp [h, hw]⟩

/-- What the entry into throttle does. -/
def throttled (d : Dev) : Dev :=
  ((({ d with power := { d.power with throttles := d.power.throttles + 1 } } : Dev).put F.DEV_ENV_STAT_THROTTLE true).raise 0 6).queuePoints

theorem throttled_power : d.throttled.power = { d.power with throttles := d.power.throttles + 1 } := by
  rw [throttled, queuePoints_power, power_of_unrecorded (unrecorded_raise _ _ _), put_power]

theorem get_throttled (hf : f.calm = true) (h : f.key ≠ F.DEV_ENV_STAT_THROTTLE.key) : d.throttled.get f = d.get f := by
  rw [throttled, get_queuePoints, get_raise _ _ _ hf, get_put_ne _ _ h]; rfl

theorem throttle_throttled : d.throttled.bit F.DEV_ENV_STAT_THROTTLE = true := by
  rw [bit, throttled, get_queuePoints, get_raise _ _ _ rfl, get_put_self _ _ _ one_ne_zero]
  rfl

/-- The three courses of the throttle. -/
theorem throttleCheck_cases (t : Int) :
    (d.bit F.DEV_ENV_STAT_THROTTLE = false ∧ 110 ≤ t ∧ d.throttleCheck t = d.throttled) ∨
    (d.bit F.DEV_ENV_STAT_THROTTLE = true ∧ t ≤ 105 ∧ d.throttleCheck t = (d.put F.DEV_ENV_STAT_THROTTLE false).queuePoints) ∨
    d.throttleCheck t = d := by
  unfold throttleCheck
  extract_lets on
  split
  · next h => exact .inl ⟨by simpa [on] using (Bool.and_eq_true_iff.mp h).1, by simpa using (Bool.and_eq_true_iff.mp h).2, rfl⟩
  · split
    · next h => exact .inr (.inl ⟨(Bool.and_eq_true_iff.mp h).1, by simpa using (Bool.and_eq_true_iff.mp h).2, rfl⟩)
    · exact .inr (.inr rfl)

theorem throttleCheck_enters {t : Int} (h : d.bit F.DEV_ENV_STAT_THROTTLE = false) (ht : 110 ≤ t) : d.throttleCheck t = d.throttled := by
  simp [throttleCheck, h, ht, throttled]

theorem throttleCheck_leaves {t : Int} (h : d.bit F.DEV_ENV_STAT_THROTTLE = true) (ht : t ≤ 105) :
    d.throttleCheck t = (d.put F.DEV_ENV_STAT_THROTTLE false).queuePoints := by
  simp [throttleCheck, h, ht]

/-- The reset logic is as it was. -/
theorem throttleCheck_power (t : Int) : ∃ n, (d.throttleCheck t).power = { d.power with throttles := n } := by
  obtain ⟨-, -, h⟩ | ⟨-, -, h⟩ | h := throttleCheck_cases d t
  · exact ⟨_, by rw [h, throttled_power]⟩
  · exact ⟨d.power.throttles, by rw [h]; rfl⟩
  · exact ⟨d.power.throttles, by rw [h]⟩

/-- Below 110 °C nothing but the mark changes in the registers. -/
theorem get_throttleCheck {t : Int} (ht : t < 110) (h : f.key ≠ F.DEV_ENV_STAT_THROTTLE.key) : (d.throttleCheck t).get f = d.get f := by
  obtain ⟨-, hge, -⟩ | ⟨-, -, e⟩ | e := throttleCheck_cases d t
  · omega
  · rw [e, get_queuePoints, get_put_ne _ _ h]
  · rw [e]

/-! ### The sensors -/

/-- The sensors as they are read and shown, before the thresholds are judged. -/
def measured (d : Dev) (ts : List Int) : Dev := ({ d with power := { d.power with sensors := ts } } : Dev).setS F.DEV_ENV_STAT_TJ_MAX (hottest ts)

theorem get_measured (ts : List Int) (h : f.key ≠ F.DEV_ENV_STAT_TJ_MAX.key) : (d.measured ts).get f = d.get f := get_setS_ne _ _ h

/-- The alarm judged after that. -/
def alarmed (d : Dev) (ts : List Int) : Dev := (d.measured ts).alarmCheck (hottest ts)

theorem get_alarmed (ts : List Int) (hf : f.calm = true) (h₁ : f.key ≠ F.DEV_ENV_STAT_TJ_MAX.key) (h₂ : f.key ≠ F.DEV_ENV_STAT_ALARM.key) :
    (d.alarmed ts).get f = d.get f := by
  rw [alarmed, get_alarmCheck _ _ hf h₂, get_measured _ _ h₁]

theorem alarmed_power (ts : List Int) : (d.alarmed ts).power = { d.power with sensors := ts } :=
  power_of_unrecorded (unrecorded_alarmCheck (d.measured ts) (hottest ts))

theorem throttle_alarmed (ts : List Int) : (d.alarmed ts).bit F.DEV_ENV_STAT_THROTTLE = d.bit F.DEV_ENV_STAT_THROTTLE := by
  rw [bit, get_alarmed _ _ rfl (by decide) (by decide), ← bit]

section Temperatures

variable {ts : List Int} (hts : ts ≠ []) (hp : d.power.porstLow = false) (hh : d.power.tripHold = false)
include hts hp

theorem temperatures_eq : d.temperatures ts = ((d.alarmed ts).throttleCheck (hottest ts)).tripCheck (hottest ts) := by
  unfold temperatures
  rw [if_neg (by simp [hp, hts])]
  rfl

include hh

/-- Below the trip point the trip does nothing. -/
theorem temperatures_of_lt (h : hottest ts < 118) : d.temperatures ts = (d.alarmed ts).throttleCheck (hottest ts) := by
  obtain ⟨n, hn⟩ := throttleCheck_power (d.alarmed ts) (hottest ts)
  have hhold : ((d.alarmed ts).throttleCheck (hottest ts)).power.tripHold = false := by rw [hn, alarmed_power]; exact hh
  rw [temperatures_eq d hts hp, tripCheck, if_neg (by simp [hhold]), if_neg (by omega)]

/-- At it the device resets with its cause and is held, with THERM_TRIP_N low. -/
theorem temperatures_trips (h : 118 ≤ hottest ts) : (d.temperatures ts).state = 1 ∧ (d.temperatures ts).get F.DEV_RESET_CAUSE_CAUSE = 7
    ∧ (d.temperatures ts).power.tripHold = true ∧ (d.temperatures ts).pin .thermTripN = .low := by
  obtain ⟨n, hn⟩ := throttleCheck_power (d.alarmed ts) (hottest ts)
  rw [temperatures_eq d hts hp]
  generalize (d.alarmed ts).throttleCheck (hottest ts) = b at hn
  rw [alarmed_power] at hn
  have hbp : b.power.porstLow = false := by rw [hn]; exact hp
  have hbh : b.power.tripHold = false := by rw [hn]; exact hh
  rw [tripCheck, if_neg (by simp [hbh]), if_pos h]
  have hs := state_warmReset b 7 hbp hbh
  have hc := cause_warmReset b 7 hbp hbh (by decide)
  generalize b.warmReset 7 = r at hs hc
  exact ⟨hs, hc, rfl, pin_setPin _ _ (by simp)⟩

end Temperatures

/-- The point in force is no record of an event, and no field of page DEV. -/
theorem calm_ptAct {e : Nat} (he : e < 64) : (F.ENG_PT_ACT e).calm = true :=
  Fld.calm_of_plain (Fld.plain_page _ _ _ _ _ (by omega) (by omega) (by omega) (by omega) (by omega) (by omega))

theorem ptAct_ne (e : Nat) {g : Fld} (hg : g.key < 0x40 * 0x1_0000 * 32) : (F.ENG_PT_ACT e).key ≠ g.key := by
  simp only [Fld.key, bar0] at *; omega

theorem get_ptAct_alarmed (ts : List Int) {e : Nat} (he : e < 64) : (d.alarmed ts).get (F.ENG_PT_ACT e) = d.get (F.ENG_PT_ACT e) :=
  get_alarmed d ts (calm_ptAct he) (ptAct_ne e (by decide)) (ptAct_ne e (by decide))

@[simp] theorem wantedPoint_canon (e : Nat) : d.canon.wantedPoint e = d.wantedPoint e := by simp [wantedPoint]

end Dev

/-! ### The commands complete -/

section Commands

variable {s : State} {ts : List Int} (hts : ts ≠ []) (hp : s.dev.power.porstLow = false) (hh : s.dev.power.tripHold = false)
include hts hp hh

theorem thermalTrip_completes (h : 118 ≤ Dev.hottest ts) : Completes (.thermalTrip ts) s (fun d => d.state = 1 ∧ d.get F.DEV_RESET_CAUSE_CAUSE = 7
    ∧ d.power.tripHold = true ∧ d.pin .thermTripN = .low) := by
  obtain ⟨h₁, h₂, h₃, h₄⟩ := Dev.temperatures_trips s.dev hts hp hh h
  exact completes_of_run (u := (·.temperatures ts)) rfl
    ⟨(Dev.state_canon _).trans h₁, (Dev.get_canon _ _).trans h₂, h₃, (Dev.pin_canon _ (by simp)).trans h₄⟩

theorem thermalAlarm_sets (ha : s.dev.bit F.DEV_ENV_STAT_ALARM = false) (h : 105 ≤ Dev.hottest ts) (h' : Dev.hottest ts < 110) :
    Completes (.thermalAlarm ts) s (fun d => d.bit F.DEV_ENV_STAT_ALARM = true ∧ d.getS F.DEV_ENV_STAT_TJ_MAX = Dev.hottest ts
      ∧ d.testBit (F.BLK_IRQ_RAW 0) 5 = true) := by
  have ha' : (s.dev.measured ts).bit F.DEV_ENV_STAT_ALARM = false := by rw [Dev.bit, Dev.get_measured _ _ (by decide), ← Dev.bit, ha]
  obtain ⟨h₁, h₂⟩ := Dev.alarmCheck_sets _ ha' h
  refine completes_of_eq (u := (·.temperatures ts)) rfl (Dev.temperatures_of_lt _ hts hp hh (by omega)) ⟨?_, ?_, ?_⟩
  · rw [Dev.bit_canon, Dev.bit, Dev.get_throttleCheck _ h' (by decide)]
    exact h₁
  · rw [Dev.getS, Dev.get_canon, Dev.get_throttleCheck _ h' (by decide), Dev.alarmed, Dev.get_alarmCheck _ _ rfl (by decide), Dev.measured, Dev.setS,
      Dev.get_set_self]
    exact sgn_uns_mod (by omega) (by show _ < (2 : Int) ^ 8; omega)
  · rw [Dev.testBit, Dev.get_canon, Dev.get_throttleCheck _ h' (by decide)]
    exact h₂

theorem thermalAlarm_clears (ha : s.dev.bit F.DEV_ENV_STAT_ALARM = true) (h : Dev.hottest ts ≤ 100) :
    Completes (.thermalAlarm ts) s (fun d => d.bit F.DEV_ENV_STAT_ALARM = false ∧ d.testBit (F.BLK_IRQ_RAW 0) 5 = true) := by
  have ha' : (s.dev.measured ts).bit F.DEV_ENV_STAT_ALARM = true := by rw [Dev.bit, Dev.get_measured _ _ (by decide), ← Dev.bit, ha]
  obtain ⟨h₁, h₂⟩ := Dev.alarmCheck_clears _ ha' h
  refine completes_of_eq (u := (·.temperatures ts)) rfl (Dev.temperatures_of_lt _ hts hp hh (by omega)) ⟨?_, ?_⟩
  · rw [Dev.bit_canon, Dev.bit, Dev.get_throttleCheck _ (by omega) (by decide)]
    exact h₁
  · rw [Dev.testBit, Dev.get_canon, Dev.get_throttleCheck _ (by omega) (by decide)]
    exact h₂

theorem throttleEntry_completes (ha : s.dev.bit F.DEV_ENV_STAT_THROTTLE = false) (h : 110 ≤ Dev.hottest ts) (h' : Dev.hottest ts < 118) :
    Completes (.throttleEntry ts) s (fun d => d.bit F.DEV_ENV_STAT_THROTTLE = true ∧ d.power.throttles = s.dev.power.throttles + 1 ∧ ∀ e < 64,
      d.get (F.ENG_PT_ACT e) = s.dev.get (F.ENG_PT_ACT e) ∧ (s.dev.get (F.ENG_PT_ACT e) ≠ 3 → e ∈ d.engines.ptWait)) := by
  have ha' : (s.dev.alarmed ts).bit F.DEV_ENV_STAT_THROTTLE = false := by rw [Dev.throttle_alarmed, ha]
  refine completes_of_eq (u := (·.temperatures ts)) rfl
    ((Dev.temperatures_of_lt _ hts hp hh h').trans (Dev.throttleCheck_enters _ ha' h)) ⟨?_, ?_, fun e he => ?_⟩
  · rw [Dev.bit_canon, Dev.throttle_throttled]
  · rw [Dev.canon_power, Dev.throttled_power, Dev.alarmed_power]
  · have hact : (s.dev.alarmed ts).throttled.get (F.ENG_PT_ACT e) = s.dev.get (F.ENG_PT_ACT e) := by
      rw [Dev.get_throttled _ (Dev.calm_ptAct he) (Dev.ptAct_ne e (by decide)), Dev.get_ptAct_alarmed _ _ he]
    refine ⟨by rw [Dev.get_canon, hact], fun hne => Dev.mem_queuePoints _ he ?_⟩
    have hwant : (s.dev.alarmed ts).throttled.wantedPoint e = 3 := by rw [Dev.wantedPoint, if_pos (Dev.throttle_throttled _)]
    exact fun heq => hne (hact.symm.trans (heq.trans hwant))

theorem throttleRelease_completes (ha : s.dev.bit F.DEV_ENV_STAT_THROTTLE = true) (h : Dev.hottest ts ≤ 105) :
    Completes (.throttleRelease ts) s (fun d => d.bit F.DEV_ENV_STAT_THROTTLE = false ∧ ∀ e < 64,
      d.get (F.ENG_PT_ACT e) = s.dev.get (F.ENG_PT_ACT e) ∧ (s.dev.get (F.ENG_PT_ACT e) ≠ d.wantedPoint e → e ∈ d.engines.ptWait)) := by
  have ha' : (s.dev.alarmed ts).bit F.DEV_ENV_STAT_THROTTLE = true := by rw [Dev.throttle_alarmed, ha]
  refine completes_of_eq (u := (·.temperatures ts)) rfl
    ((Dev.temperatures_of_lt _ hts hp hh (by omega)).trans (Dev.throttleCheck_leaves _ ha' h)) ⟨?_, fun e he => ?_⟩
  · rw [Dev.bit_canon, Dev.bit, Dev.get_queuePoints, Dev.get_put_self _ _ _ one_ne_zero]
    rfl
  · have hact : ((s.dev.alarmed ts).put F.DEV_ENV_STAT_THROTTLE false).get (F.ENG_PT_ACT e) = s.dev.get (F.ENG_PT_ACT e) := by
      rw [Dev.get_put_ne _ _ (Dev.ptAct_ne e (by decide)), Dev.get_ptAct_alarmed _ _ he]
    refine ⟨by rw [Dev.get_canon, Dev.get_queuePoints, hact], fun hne => Dev.mem_queuePoints _ he ?_⟩
    rwa [hact, ← Dev.wantedPoint_queuePoints, ← Dev.wantedPoint_canon]

end Commands

/-- Settles O8: each clause is the lemma of its command above. -/
theorem thermalProtection : Obligations.ThermalProtection := fun _ _ hts hp hh =>
  ⟨thermalTrip_completes hts hp hh, thermalAlarm_sets hts hp hh, thermalAlarm_clears hts hp hh, throttleEntry_completes hts hp hh,
    throttleRelease_completes hts hp hh⟩

end Sys2Proof.Machine
end

section
/-! PROOF. O9, the entry into FAULT and the loss of REFCLK_SYS and REFCLK_TIME. What the stop before FAULT writes stands on the pages of the
generators, the planner and the Meteor ports, so DEV_STATE and the marks of the clocks outlast it. -/

namespace Sys2Proof.Machine

/-- What one step of a fold brings about, and every step keeps, holds after the fold. -/
theorem foldl_holds_of_mem {σ α : Type} {P : σ → Prop} {step : σ → α → σ} {a : α} (ha : ∀ s, P (step s a)) (hk : ∀ s b, P s → P (step s b))
    {l : List α} (h : a ∈ l) (s : σ) : P (l.foldl step s) := by
  obtain ⟨l₁, l₂, rfl⟩ := List.append_of_mem h
  rw [List.foldl_append, List.foldl_cons]
  exact Sparse.foldl_keeps step P hk l₂ _ (ha _)

/-- Bit `b` of `v` set: any other bit is as before. -/
theorem setBit_div_mod {v b k : Nat} (hk : k ≠ b) : (v - v / 2 ^ b % 2 * 2 ^ b + 2 ^ b) / 2 ^ k % 2 = v / 2 ^ k % 2 := by
  have hpos : ∀ n, 0 < 2 ^ n := fun n => Nat.two_pow_pos n
  rcases Nat.mod_two_eq_zero_or_one (v / 2 ^ b) with h | h
  · rw [h, Nat.zero_mul, Nat.sub_zero]
    rcases Nat.lt_or_gt_of_ne hk with hlt | hgt
    · obtain ⟨c, rfl⟩ := Nat.exists_eq_add_of_lt hlt
      rw [show 2 ^ (k + c + 1) = 2 ^ k * (2 * 2 ^ c) by ring, Nat.add_mul_div_left _ _ (hpos k), Nat.add_mul_mod_self_left]
    · obtain ⟨c, rfl⟩ := Nat.exists_eq_add_of_lt hgt
      rw [show 2 ^ (b + c + 1) = 2 ^ b * (2 * 2 ^ c) by ring, ← Nat.div_div_eq_div_mul, ← Nat.div_div_eq_div_mul, ← Nat.div_div_eq_div_mul,
        ← Nat.div_div_eq_div_mul, Nat.add_div_right _ (hpos b)]
      congr 2
      omega
  · have hle : 2 ^ b ≤ v := by
      by_contra hlt
      rw [Nat.div_eq_of_lt (by omega)] at h
      omega
    rw [h, Nat.one_mul, Nat.sub_add_cancel hle]

namespace Dev

variable (d : Dev) {f : Fld}

/-! ### Bits of a field -/

/-- A bit set beside another leaves that one set. -/
theorem testBit_putBit_true {f : Fld} {k : Nat} (b : Nat) (hk : k < f.width) (h : d.testBit f k = true) : (d.putBit f b true).testBit f k = true := by
  by_cases hb : k = b
  · subst hb; exact testBit_putBit_self d f k hk
  · rw [testBit, decide_eq_true_eq] at h ⊢
    obtain ⟨c, hc⟩ := Nat.exists_eq_add_of_lt hk
    rw [putBit, get_set_self, hc, show 2 ^ (k + c + 1) = 2 ^ k * (2 * 2 ^ c) by ring, Nat.mod_mul_right_div_self,
      Nat.mod_mod_of_dvd _ (Nat.dvd_mul_right 2 _)]
    simp only [b2n, if_true, Nat.one_mul]
    rw [setBit_div_mod hb, h]

/-- An event keeps every bit of BLK_IRQ_RAW that is set. -/
theorem raise_keeps_raw {q k : Nat} (p b : Nat) (hk : k < 32) (h : d.testBit (F.BLK_IRQ_RAW q) k = true) :
    (d.raise p b).testBit (F.BLK_IRQ_RAW q) k = true := by
  have hget : (d.raise p b).get (F.BLK_IRQ_RAW q) = (d.putBit (F.BLK_IRQ_RAW p) b true).get (F.BLK_IRQ_RAW q) := by
    rw [raise_quiet _ _ _ (quiet_raw q), get_count_ne]
    simp only [Fld.key, bar0]; omega
  rw [testBit, hget, ← testBit]
  by_cases hq : q = p
  · subst hq; exact testBit_putBit_true d b hk h
  · rw [testBit, get_putBit_ne _ _ _ (by simp only [Fld.key, bar0]; omega), ← testBit, h]

theorem testBit_canon (f : Fld) (k : Nat) : d.canon.testBit f k = d.testBit f k := by rw [testBit, get_canon, ← testBit]

/-! ### Nothing more is fired (R76) -/

theorem get_stopGens (h : ∀ g < 16, f.key ≠ (F.TGEN_CTRL_RUNNING g).key) : d.stopGens.get f = d.get f :=
  get_foldl_range d 16 fun d g hg => by rw [get_put_ne _ _ (h g hg), get_setGen]

theorem unrecorded_metShow (n : Nat) : (d.metShow n).unrecorded = d.unrecorded := by
  unfold metShow
  extract_lets x q d₁ d₂ ready d₃
  have h₁ : d₁.unrecorded = d.unrecorded := unrecorded_set d _ _
  have h₂ : d₂.unrecorded = d₁.unrecorded := unrecorded_foldl d₁ (fun d k => unrecorded_set d _ _) _
  have h₃ : d₃.unrecorded = d₂.unrecorded := (unrecorded_put _ _ _).trans (unrecorded_set d₂ _ _)
  rw [unrecorded_put, h₃, h₂, h₁]

theorem cmd_metShow (n : Nat) : (d.metShow n).cmd = d.cmd := cmd_of_unrecorded (unrecorded_metShow d n)
theorem cmd_setMetPort (n : Nat) (x : MetPort) : (d.setMetPort n x).cmd = d.cmd := rfl

theorem metPort_metShow (n k : Nat) : (d.metShow n).metPort k = d.metPort k := by
  have h : (d.metShow n).plan = d.plan := plan_of_unrecorded (unrecorded_metShow d n)
  rw [metPort, h]; rfl

@[simp] theorem get_setEng (e : Nat) (x : Eng) : (d.setEng e x).get f = d.get f := rfl

@[simp] theorem get_engShow (e : Nat) (hf : f.early) : (d.engShow e).get f = d.get f := by simp [engShow, hf]

theorem startBody_cases (e : Nat) : d.startBody e = d ∨ ∃ x, d.startBody e = (d.setEng e x).engShow e := by
  unfold startBody
  extract_lets x w
  split
  · split
    · exact .inl rfl
    · exact .inr ⟨_, rfl⟩
  · exact .inl rfl

theorem get_startBody (e : Nat) (hf : f.early) : (d.startBody e).get f = d.get f := by
  obtain h | ⟨x, h⟩ := startBody_cases d e
  · rw [h]
  · rw [h, get_engShow _ _ hf, get_setEng]

theorem get_endBody (e : Nat) (hf : f.early) : (d.endBody e).get f = d.get f := by
  unfold endBody
  extract_lets x cycles d₁ d₂
  have h₁ : d₁.get f = d.get f := get_engShow _ _ hf
  have h₂ : d₂.get f = d.get f := (get_set_late _ hf _ (by simp)).trans h₁
  rw [get_ite, get_put_late (g := F.BLK_STAT_OFFLINE (engPage e)) _ hf _ (Fld.late_bar0 _ _ _ _ _ (by unfold engPage; omega)), get_startBody _ _ hf, ite_self, h₂]

theorem get_abandonAll (hf : f.early) : d.abandonAll.get f = d.get f := by
  refine get_foldl d (fun d e => ?_) _
  extract_lets x n d₁
  split
  · rfl
  · have h₁ : d₁.get f = d.get f := get_count_late _ hf _ (by simp)
    rw [get_ite, get_endBody _ _ hf, get_engShow _ _ hf, ite_self, h₁]

@[simp] theorem get_dropBodies : d.dropBodies.get f = d.get f := rfl

theorem cmd_dropBodies : d.dropBodies.cmd = d.cmd := rfl
theorem cmd_engShow (e : Nat) : (d.engShow e).cmd = d.cmd := rfl

theorem cmd_startBody (e : Nat) : (d.startBody e).cmd = d.cmd := by
  obtain h | ⟨x, h⟩ := startBody_cases d e
  · rw [h]
  · rw [h]; rfl

theorem cmd_endBody (e : Nat) : (d.endBody e).cmd = d.cmd := by
  unfold endBody
  extract_lets x cycles d₁ d₂
  have h₂ : d₂.cmd = d.cmd := rfl
  rw [apply_ite Dev.cmd, put_cmd, cmd_startBody, ite_self, h₂]

theorem cmd_abandonAll : d.abandonAll.cmd = d.cmd := by
  refine foldl_keeps_range Dev.cmd 64 (fun d e _ => ?_) d
  extract_lets x n d₁
  split
  · rfl
  · have h₁ : d₁.cmd = d.cmd := rfl
    rw [apply_ite Dev.cmd, cmd_endBody, cmd_engShow, ite_self, h₁]

theorem cmd_stopGens : d.stopGens.cmd = d.cmd := foldl_keeps_range Dev.cmd 16 (fun d g _ => put_cmd (d.setGen g _) _ _) d

theorem get_faultStop (hf : f.early) (h : ∀ g < 16, f.key ≠ (F.TGEN_CTRL_RUNNING g).key) : d.faultStop.get f = d.get f := by
  unfold faultStop
  extract_lets d₁ d₂
  have h₁ : d₁.get f = d.get f := (get_dropBodies _).trans ((get_abandonAll _ hf).trans (get_stopGens _ h))
  have h₂ : d₂.get f = d₁.get f := get_foldl_range d₁ 8 fun d n _ => (get_metShow _ hf n).trans (get_setMetPort d _ _)
  clear_value d₁ d₂
  exact (get_withPlan d₂ _).trans (h₂.trans h₁)

theorem cmd_faultStop : d.faultStop.cmd = d.cmd := by
  unfold faultStop
  extract_lets d₁ d₂
  have h₁ : d₁.cmd = d.cmd := (cmd_dropBodies _).trans ((cmd_abandonAll _).trans (cmd_stopGens _))
  have h₂ : d₂.cmd = d₁.cmd := foldl_keeps_range Dev.cmd 8 (fun d n _ => (cmd_metShow _ n).trans (cmd_setMetPort d n _)) d₁
  clear_value d₁ d₂
  exact h₂.trans h₁

/-- No pulse waits on any port, and no verdict is on its way. -/
theorem faultStop_empties : d.faultStop.plan.passing = [] ∧ ∀ n < 8, (d.faultStop.metPort n).pend = [] := by
  refine ⟨rfl, fun n hn => ?_⟩
  unfold faultStop
  extract_lets d₁ d₂
  have h₂ : (d₂.metPort n).pend = [] := by
    refine foldl_holds_of_mem (P := fun d : Dev => (d.metPort n).pend = []) (fun d => ?_) (fun d m hm => ?_) (List.mem_range.mpr hn) d₁
    · rw [metPort_metShow]
      exact congrArg MetPort.pend (Sparse.get_set_self _ _ _ _)
    · rw [metPort_metShow]
      by_cases e : n = m
      · subst e
        exact congrArg MetPort.pend (Sparse.get_set_self _ _ _ _)
      · exact (congrArg MetPort.pend (Sparse.get_set_ne _ _ _ _ e)).trans hm
  clear_value d₁ d₂
  exact h₂

/-! ### The entry into FAULT (R72, R76, R512) -/

/-- The device in FAULT, before the command in hand is judged. -/
def faulted (d : Dev) : Dev := ((d.merSend 0x03 0 1 [0x0B]).faultStop.moveState 15 0x0B).setPin .faultN .low

theorem enterFault_eq (h₁ : d.state ≠ 1) (h₁₅ : d.state ≠ 15) : d.enterFault = d.faulted.faultCommand := by
  unfold enterFault
  rw [if_neg (by simp [h₁, h₁₅])]
  rfl

theorem faultCommand_of_none (h : d.cmd = none) : d.faultCommand = d := by simp [faultCommand, h]

theorem faultCommand_keeps {β : Type} (obs : Dev → β) (h : ∀ d : Dev, obs (d.complete .state) = obs d) : obs d.faultCommand = obs d := by
  unfold faultCommand
  split
  · split
    · rfl
    · exact h d
  · rfl

theorem complete_pins (e : Err) : (d.complete e).pins = d.pins := by
  obtain ⟨r, u, x, t, h⟩ := complete_eq d e 0 []
  rw [h]

theorem complete_plan (e : Err) : (d.complete e).plan = d.plan := by
  obtain ⟨r, u, x, t, h⟩ := complete_eq d e 0 []
  rw [h]

/-- The fields that a transition writes itself. -/
def transitionKeys : List Nat := [F.DEV_STATE_PREV.key, F.DEV_STATE_STATE.key, F.DEV_STATE_TRANS_CNT.key, (F.BLK_STAT_STATE 0).key]

theorem get_moveState (s cause detail : Nat) (hf : f.early) (h : f.key ∉ transitionKeys) : (d.moveState s cause detail).get f = d.get f := by
  simp only [transitionKeys, List.mem_cons, List.not_mem_nil, or_false, not_or] at h
  obtain ⟨hprev, hstate, hcnt, hstat⟩ := h
  unfold moveState
  split
  · rfl
  · extract_lets d₁ d₂ d₃
    have h₁ : d₁.get f = d.get f := by rw [get_count_ne _ _ hcnt, get_set_ne _ _ hstate, get_set_ne _ _ hprev]
    have h₂ : d₂.get f = d₁.get f := by rw [get_divertUpdate _ hf, get_raise_early _ hf, get_set_ne _ _ hstat]
    have h₃ : d₃.get f = d₂.get f := by rw [get_ite, get_leaveSorting _ hf, ite_self]
    rw [get_levelUpdate _ hf, h₃, h₂, h₁]

theorem early_prev : F.DEV_STATE_PREV.early := ⟨rfl, by decide⟩

/-- A change of level shows the state that it leaves. -/
theorem prev_moveState (s cause detail : Nat) (h : d.state ≠ s) : (d.moveState s cause detail).get F.DEV_STATE_PREV = d.state % 16 := by
  unfold moveState
  rw [if_neg h]
  extract_lets d₁ d₂ d₃
  have h₁ : d₁.get F.DEV_STATE_PREV = d.state % 16 := by
    rw [get_count_ne _ _ (by decide), get_set_ne _ _ (by decide), get_set_self]
    rfl
  have h₂ : d₂.get F.DEV_STATE_PREV = d₁.get F.DEV_STATE_PREV := by
    rw [get_divertUpdate _ early_prev, get_raise_early _ early_prev, get_set_ne _ _ (by decide)]
  have h₃ : d₃.get F.DEV_STATE_PREV = d₂.get F.DEV_STATE_PREV := by rw [get_ite, get_leaveSorting _ early_prev, ite_self]
  rw [get_levelUpdate _ early_prev, h₃, h₂, h₁]

/-- A field before the generators' pages is none of their RUNNING bits. -/
theorem ne_running (hf : f.key < 0x10 * 0x1_0000 * 32) : ∀ g < 16, f.key ≠ (F.TGEN_CTRL_RUNNING g).key := fun g _ => by
  simp only [Fld.key, bar0] at *; omega

theorem get_haltedBefore (hf : f.early) (hlow : f.key < 0x10 * 0x1_0000 * 32) : (d.merSend 0x03 0 1 [0x0B]).faultStop.get f = d.get f := by
  rw [get_faultStop _ hf (ne_running hlow), get_merSend]

theorem get_faulted (hf : f.early) (hlow : f.key < 0x10 * 0x1_0000 * 32) (h : f.key ∉ transitionKeys) : d.faulted.get f = d.get f := by
  rw [faulted, get_setPin, get_moveState _ _ _ _ hf h, get_haltedBefore _ hf hlow]

theorem state_faulted : d.faulted.state = 15 := state_moveState _ 15 0x0B 0 (by decide)

theorem pin_faulted : d.faulted.pin .faultN = .low := pin_setPin _ _ (by simp)

theorem prev_faulted (h : d.state ≠ 15) : d.faulted.get F.DEV_STATE_PREV = d.state % 16 := by
  have hs : (d.merSend 0x03 0 1 [0x0B]).faultStop.state = d.state := get_haltedBefore d Fld.early_devState (by decide)
  rw [faulted, get_setPin, prev_moveState _ _ _ _ (by rw [hs]; exact h), hs]

theorem cmd_faulted : d.faulted.cmd = d.cmd := by
  obtain ⟨m, o, h⟩ := merSend_eq d 0x03 0 1 [0x0B]
  rw [faulted, setPin_cmd, moveState_cmd, cmd_faultStop, h]

theorem faulted_empties : d.faulted.plan.passing = [] ∧ ∀ n < 8, (d.faulted.metPort n).pend = [] := by
  obtain ⟨hpass, hpend⟩ := faultStop_empties (d.merSend 0x03 0 1 [0x0B])
  generalize hx : (d.merSend 0x03 0 1 [0x0B]).faultStop = x at hpass hpend
  rw [faulted, hx]
  refine ⟨?_, fun n hn => ?_⟩
  · rw [setPin_plan, moveState_passing, hpass]
  · show ((x.moveState 15 0x0B).metPort n).pend = []
    rw [moveState_metPort, hpend n hn]

section Fault

variable (h₁ : d.state ≠ 1) (h₁₅ : d.state ≠ 15)
include h₁ h₁₅

theorem get_enterFault (hf : f.early) (hlow : f.key < 0x10 * 0x1_0000 * 32) (h : f.key ∉ transitionKeys) (ha : apart f = true) :
    d.enterFault.get f = d.get f := by
  rw [enterFault_eq d h₁ h₁₅, faultCommand_keeps _ (·.get f) (fun d => get_complete d .state 0 [] hf.1 ha), get_faulted _ hf hlow h]

theorem state_enterFault : d.enterFault.state = 15 := by
  rw [enterFault_eq d h₁ h₁₅, faultCommand_keeps _ Dev.state (fun d => state_complete d .state 0 []), state_faulted]

theorem pin_enterFault : d.enterFault.pin .faultN = .low := by
  rw [enterFault_eq d h₁ h₁₅, pin_congr (faultCommand_keeps _ Dev.pins (fun d => complete_pins d .state)) (by simp), pin_faulted]

theorem prev_enterFault : d.enterFault.get F.DEV_STATE_PREV = d.state % 16 := by
  rw [enterFault_eq d h₁ h₁₅, faultCommand_keeps _ (·.get F.DEV_STATE_PREV) (fun d => get_complete d .state 0 [] rfl rfl), prev_faulted _ h₁₅]

theorem enterFault_empties : d.enterFault.plan.passing = [] ∧ ∀ n < 8, (d.enterFault.metPort n).pend = [] := by
  have hplan : d.enterFault.plan = d.faulted.plan := by
    rw [enterFault_eq d h₁ h₁₅, faultCommand_keeps _ Dev.plan (fun d => complete_plan d .state)]
  obtain ⟨hpass, hpend⟩ := faulted_empties d
  refine ⟨by rw [hplan, hpass], fun n hn => ?_⟩
  rw [metPort, hplan]
  exact hpend n hn

end Fault

/-! ### REFCLK_SYS lost (R41) -/

theorem clockLost_marks (k : Nat) (hk : k < 3) : (d.clockLost k).testBit F.DEV_ENV_STAT_CLK_LOST k = true := by
  rw [clockLost, testBit, get_raise _ _ _ rfl]
  exact testBit_putBit_self d F.DEV_ENV_STAT_CLK_LOST k hk

theorem clockLost_raises (k : Nat) : (d.clockLost k).testBit (F.BLK_IRQ_RAW 0) 4 = true := raise_raw _ _ _ (by decide)

theorem get_clockLost (k : Nat) (hf : f.calm = true) (h : f.key ≠ F.DEV_ENV_STAT_CLK_LOST.key) : (d.clockLost k).get f = d.get f := by
  rw [clockLost, get_raise _ _ _ hf, get_putBit_ne _ _ _ h]

/-- A Meteor port stopped: its lines are low, and its fields lie behind page DEV. -/
theorem get_metHalt (n : Nat) (hf : f.early) : (d.metHalt n).get f = d.get f := by
  unfold metHalt
  extract_lets d₁ d₂
  have h₁ : d₁.get f = d.get f := by
    rw [get_put_late _ hf _ (by simp), get_put_late _ hf _ (by simp), get_setMetPort]
  have h₂ : d₂.get f = d₁.get f := get_foldl d₁ (fun d k => get_set_late d hf _ (by simp)) _
  have hstat : (F.BLK_STAT_STATE (metPage n)).late := Fld.late_bar0 _ _ _ _ _ (by unfold metPage; omega)
  rw [get_metShow _ hf, get_setPin, get_set_late _ hf _ (by simp), get_set_late _ hf _ hstat, h₂, h₁]

theorem pin_metHalt (n : Nat) : (d.metHalt n).pin .faultN = d.pin .faultN := by
  unfold metHalt
  extract_lets d₁ d₂
  have h₁ : d₁.pins = d.pins := rfl
  have h₂ : d₂.pins = d₁.pins := foldl_keeps_range Dev.pins 4 (fun d k _ => pins_of_unrecorded (unrecorded_set d _ _)) d₁
  rw [pin_congr (pins_of_unrecorded (unrecorded_metShow _ n)) (by simp), pin_setPin_ne _ _ (by simp only [Pin.code]; omega)]
  exact pin_congr ((pins_of_unrecorded ((unrecorded_set _ _ _).trans (unrecorded_set d₂ _ _))).trans (h₂.trans h₁)) (by simp)

/-- What the loss of REFCLK_SYS does where FAULT can be entered. -/
theorem refclkSysLost_faults (h : d.testBit F.DEV_ENV_STAT_CLK_LOST 0 = false) (h₁ : d.state ≠ 1) (h₁₅ : d.state ≠ 15) :
    d.refclkSysLost.testBit F.DEV_ENV_STAT_CLK_LOST 0 = true ∧ d.refclkSysLost.state = 15 ∧ d.refclkSysLost.pin .faultN = .low := by
  have hstate : (d.clockLost 0).state = d.state := get_clockLost d 0 rfl (by decide)
  have hmark : (d.clockLost 0).testBit F.DEV_ENV_STAT_CLK_LOST 0 = true := clockLost_marks d 0 (by decide)
  have heq : d.refclkSysLost = (List.range 8).foldl (fun d n => d.metHalt n) (d.clockLost 0).enterFault := by
    unfold refclkSysLost
    extract_lets c
    rw [if_neg (by simp [h]), if_neg (show c.state ≠ 1 from hstate ▸ h₁)]
  rw [← hstate] at h₁ h₁₅
  generalize d.clockLost 0 = c at *
  have hget : ∀ f : Fld, f.early → d.refclkSysLost.get f = c.enterFault.get f := fun f hf => by
    rw [heq, get_foldl_range _ 8 fun d n _ => get_metHalt d n hf]
  refine ⟨?_, ?_, ?_⟩
  · rw [testBit, hget _ ⟨rfl, by decide⟩, get_enterFault c h₁ h₁₅ ⟨rfl, by decide⟩ (by decide) (by decide) rfl]
    exact hmark
  · rw [state, hget _ Fld.early_devState]
    exact state_enterFault c h₁ h₁₅
  · rw [heq, foldl_keeps_range (·.pin .faultN) 8 fun d n _ => pin_metHalt d n]
    exact pin_enterFault c h₁ h₁₅

/-! ### REFCLK_TIME (R411) -/

/-- The fields in which the ordinary clock shows its state and its path. -/
def clockKeys : List Nat := [(F.BLK_STAT_STATE timePage).key, F.TIME_STAT_LOCKED.key, F.TIME_STAT_PATH_HOLD.key, F.TIME_STAT_GM_ACTIVE.key,
  F.TIME_ASYM_ASYM.key, F.TIME_PATH_ENTRY.key]

/-- What a step leaves of a field beside the clock's own: its value where no event writes it, and every bit of BLK_IRQ_RAW set before. -/
def KeepsBesideClock (d e : Dev) : Prop := (∀ g : Fld, g.calm = true → g.key ∉ clockKeys → e.get g = d.get g)
  ∧ ∀ q ∈ [0, timePage], ∀ k < 32, d.testBit (F.BLK_IRQ_RAW q) k = true → e.testBit (F.BLK_IRQ_RAW q) k = true

variable {d} in
theorem KeepsBesideClock.trans {e u : Dev} (h : KeepsBesideClock d e) (h' : KeepsBesideClock e u) : KeepsBesideClock d u :=
  ⟨fun f hf hk => (h'.1 f hf hk).trans (h.1 f hf hk), fun q hq k hk hb => h'.2 q hq k hk (h.2 q hq k hk hb)⟩

/-- A step that writes the clock's own fields alone. -/
theorem keepsBesideClock_of_get {e : Dev} (h : ∀ g : Fld, g.key ∉ clockKeys → e.get g = d.get g) : KeepsBesideClock d e := by
  refine ⟨fun g _ hk => h g hk, fun q hq k _ hb => ?_⟩
  rw [testBit, h, ← testBit, hb]
  rcases List.mem_cons.mp hq with rfl | hq
  · decide
  · rw [List.mem_singleton.mp hq]; decide

theorem keepsBesideClock_raise (p b : Nat) : KeepsBesideClock d (d.raise p b) :=
  ⟨fun _ hf _ => get_raise d p b hf, fun _ _ _ hk hb => raise_keeps_raw d p b hk hb⟩

theorem keepsBesideClock_setClockState (s : Nat) : KeepsBesideClock d (d.setClockState s) := by
  unfold setClockState
  extract_lets was locked d₁
  have h₁ : KeepsBesideClock d d₁ := keepsBesideClock_of_get d fun f hk => by
    simp only [clockKeys, List.mem_cons, List.not_mem_nil, or_false, not_or] at hk
    obtain ⟨hstat, hlocked, hhold, hgm, -, -⟩ := hk
    rw [get_put_ne _ _ hgm, get_put_ne _ _ hhold, get_put_ne _ _ hlocked, get_set_ne _ _ hstat]
  clear_value d₁
  split
  · exact h₁.trans (keepsBesideClock_raise d₁ _ _)
  · exact h₁

theorem get_pathShow (hk : f.key ∉ clockKeys) : d.pathShow.get f = d.get f := by
  simp only [clockKeys, List.mem_cons, List.not_mem_nil, or_false, not_or] at hk
  obtain ⟨-, -, -, -, hasym, hentry⟩ := hk
  unfold pathShow
  extract_lets d₁
  have h₁ : d₁.get f = d.get f := get_setS_ne _ _ hasym
  clear_value d₁
  split
  · split
    · rw [get_set_ne _ _ hentry, h₁]
    · exact h₁
  · exact h₁

theorem keepsBesideClock_withClock (c : Clock) : KeepsBesideClock d { d with clock := c } := keepsBesideClock_of_get d fun _ _ => rfl

theorem keepsBesideClock_refl : KeepsBesideClock d d := keepsBesideClock_of_get d fun _ _ => rfl

theorem keepsBesideClock_holdDiscard : KeepsBesideClock d d.holdDiscard := by
  unfold holdDiscard
  split
  · exact keepsBesideClock_refl d
  · split
    · exact keepsBesideClock_refl d
    · exact (keepsBesideClock_withClock d _).trans ((keepsBesideClock_of_get _ fun _ => get_pathShow _).trans (keepsBesideClock_setClockState _ _))

theorem get_announce : d.announce.get f = d.get f := by
  unfold announce
  split
  · rfl
  · exact get_foldl d (fun d e => by rw [get_ite, get_emit, ite_self]) _

theorem keepsBesideClock_clockRefresh : KeepsBesideClock d d.clockRefresh := by
  have hself := keepsBesideClock_refl d
  have hset : ∀ c s, KeepsBesideClock d (({ d with clock := c } : Dev).setClockState s) := fun c s =>
    (keepsBesideClock_withClock d c).trans (keepsBesideClock_setClockState _ s)
  unfold clockRefresh
  extract_lets s
  split
  · split
    · exact hself
    · exact (keepsBesideClock_setClockState d 4).trans (keepsBesideClock_of_get _ fun _ _ => get_announce _)
  · split
    · split
      · exact hself
      · exact hset _ _
    · split
      · split
        · exact hself
        · exact hset _ _
      · split
        · exact hself
        · exact hset _ _

theorem testBit_putBit_false {f : Fld} {k : Nat} (hk : k < f.width) : (d.putBit f k false).testBit f k = false := by
  obtain ⟨c, hc⟩ := Nat.exists_eq_add_of_lt hk
  rw [testBit, putBit, get_set_self, hc, show 2 ^ (k + c + 1) = 2 ^ k * (2 * 2 ^ c) by ring, Nat.mod_mul_right_div_self,
    Nat.mod_mod_of_dvd _ (Nat.dvd_mul_right 2 _)]
  rw [Nat.mul_comm (_ % 2), Nat.add_comm, b2n]
  simp only [Bool.false_eq_true, if_false, Nat.zero_mul, Nat.zero_add, Nat.sub_mul_div, decide_eq_false_iff_not]
  omega

theorem refclkTimeLost_holds (h : d.testBit F.DEV_ENV_STAT_CLK_LOST 1 = false) {u : Dev} (hu : d.refclkTimeLost = u) :
    u.testBit F.DEV_ENV_STAT_CLK_LOST 1 = true ∧ u.get F.TIME_STAT_HOLDOVER = 1 ∧ u.testBit (F.BLK_IRQ_RAW 0) 4 = true
      ∧ u.testBit (F.BLK_IRQ_RAW 4) 4 = true := by
  have hmark := clockLost_marks d 1 (by decide)
  have hraise := clockLost_raises d 1
  unfold refclkTimeLost at hu
  rw [if_neg (by simp [h])] at hu
  generalize d.clockLost 1 = c at hu hmark hraise
  have hbegin : KeepsBesideClock ((c.put F.TIME_STAT_HOLDOVER true).raise timePage 4) u := hu ▸ keepsBesideClock_holdDiscard _
  obtain ⟨hget, hraw⟩ := hbegin
  refine ⟨?_, ?_, ?_, ?_⟩
  · rw [testBit, hget _ rfl (by decide), get_raise _ _ _ rfl, get_put_ne _ _ (by decide)]
    exact hmark
  · rw [hget _ rfl (by decide), get_raise _ _ _ rfl, get_put_self _ _ _ one_ne_zero]
    rfl
  · refine hraw 0 (by decide) 4 (by decide) (raise_keeps_raw _ _ _ (by decide) ?_)
    rw [testBit, get_put_ne _ _ (by decide)]
    exact hraise
  · exact hraw timePage (by decide) 4 (by decide) (raise_raw _ _ _ (by decide))

theorem refclkTimeReturn_ends (h : d.testBit F.DEV_ENV_STAT_CLK_LOST 1 = true) {u : Dev} (hu : d.refclkTimeReturn = u) :
    u.testBit F.DEV_ENV_STAT_CLK_LOST 1 = false ∧ u.get F.TIME_STAT_HOLDOVER = 0 ∧ u.testBit (F.BLK_IRQ_RAW 4) 4 = true := by
  unfold refclkTimeReturn at hu
  rw [if_neg (by simp [h])] at hu
  obtain ⟨hget, hraw⟩ : KeepsBesideClock (((d.putBit F.DEV_ENV_STAT_CLK_LOST 1 false).put F.TIME_STAT_HOLDOVER false).raise timePage 4) u :=
    hu ▸ keepsBesideClock_clockRefresh _
  refine ⟨?_, ?_, hraw timePage (by decide) 4 (by decide) (raise_raw _ _ _ (by decide))⟩
  · rw [testBit, hget _ rfl (by decide), get_raise _ _ _ rfl, get_put_ne _ _ (by decide)]
    exact testBit_putBit_false d (by decide)
  · rw [hget _ rfl (by decide), get_raise _ _ _ rfl, get_put_self _ _ _ one_ne_zero]
    rfl

/-! ### A fault of Vesper's own -/

/-- The command in hand ends with INTERNAL, and FAULT finds none to end. -/
theorem vesperInternal_ends {l : Latch} (hl : d.cmd = some l) (h₁ : d.state ≠ 1) (h₁₅ : d.state ≠ 15) {u : Dev} (hu : d.vesperInternal = u) :
    u.state = 15 ∧ u.pin .faultN = .low ∧ u.cmd = none ∧ u.get F.CMD_STATUS_RESULT = 15 ∧ u.get F.CMD_STATUS_BUSY = 0
      ∧ u.get F.CMD_STATUS_TAG = l.tag % 2 ^ 16 := by
  have hcmd : (d.complete .internal).cmd = none := complete_cmd d .internal 0 []
  have hstate : (d.complete .internal).state = d.state := state_complete d .internal 0 []
  obtain ⟨hbusy, hresult, htag⟩ := complete_status d .internal 0 [] l hl
  unfold vesperInternal at hu
  rw [if_neg (by simp [h₁, h₁₅])] at hu
  generalize d.complete .internal = c at *
  rw [enterFault_eq c (hstate ▸ h₁) (hstate ▸ h₁₅), faultCommand_of_none _ ((cmd_faulted c).trans hcmd)] at hu
  subst hu
  refine ⟨state_faulted c, pin_faulted c, (cmd_faulted c).trans hcmd, ?_, ?_, ?_⟩
  · rw [get_faulted c ⟨rfl, by decide⟩ (by decide) (by decide), hresult]; rfl
  · rw [get_faulted c ⟨rfl, by decide⟩ (by decide) (by decide), hbusy]
  · rw [get_faulted c ⟨rfl, by decide⟩ (by decide) (by decide), htag]

end Dev

/-! ### The commands complete -/

section Commands

variable {s : State}

theorem refclkSysLost_completes (h : s.dev.testBit F.DEV_ENV_STAT_CLK_LOST 0 = false) (h₁ : s.dev.state ≠ 1) (h₁₅ : s.dev.state ≠ 15) :
    Completes .refclkSysLost s (fun d => d.testBit F.DEV_ENV_STAT_CLK_LOST 0 = true ∧ d.state = 15 ∧ d.pin .faultN = .low) := by
  obtain ⟨hmark, hstate, hpin⟩ := Dev.refclkSysLost_faults s.dev h h₁ h₁₅
  exact completes_of_run (u := (·.refclkSysLost)) rfl
    ⟨(Dev.testBit_canon _ _ _).trans hmark, (Dev.state_canon _).trans hstate, (Dev.pin_canon _ (by simp)).trans hpin⟩

theorem refclkTimeLost_completes (h : s.dev.testBit F.DEV_ENV_STAT_CLK_LOST 1 = false) : Completes .refclkTimeLost s (fun d =>
    d.testBit F.DEV_ENV_STAT_CLK_LOST 1 = true ∧ d.get F.TIME_STAT_HOLDOVER = 1 ∧ d.testBit (F.BLK_IRQ_RAW 0) 4 = true
      ∧ d.testBit (F.BLK_IRQ_RAW 4) 4 = true) := by
  obtain ⟨u, hu⟩ : ∃ u, s.dev.refclkTimeLost = u := ⟨_, rfl⟩
  obtain ⟨hmark, hhold, hraw, hraw'⟩ := Dev.refclkTimeLost_holds s.dev h hu
  exact completes_of_eq (u := (·.refclkTimeLost)) rfl hu ⟨(Dev.testBit_canon _ _ _).trans hmark, (Dev.get_canon _ _).trans hhold,
    (Dev.testBit_canon _ _ _).trans hraw, (Dev.testBit_canon _ _ _).trans hraw'⟩

theorem refclkTimeReturn_completes (h : s.dev.testBit F.DEV_ENV_STAT_CLK_LOST 1 = true) : Completes .refclkTimeReturn s (fun d =>
    d.testBit F.DEV_ENV_STAT_CLK_LOST 1 = false ∧ d.get F.TIME_STAT_HOLDOVER = 0 ∧ d.testBit (F.BLK_IRQ_RAW 4) 4 = true) := by
  obtain ⟨u, hu⟩ : ∃ u, s.dev.refclkTimeReturn = u := ⟨_, rfl⟩
  obtain ⟨hmark, hhold, hraw⟩ := Dev.refclkTimeReturn_ends s.dev h hu
  exact completes_of_eq (u := (·.refclkTimeReturn)) rfl hu
    ⟨(Dev.testBit_canon _ _ _).trans hmark, (Dev.get_canon _ _).trans hhold, (Dev.testBit_canon _ _ _).trans hraw⟩

theorem vesperSramUe_completes (h₁ : s.dev.state ≠ 1) (h₁₅ : s.dev.state ≠ 15) : Completes .vesperSramUe s (fun d =>
    d.state = 15 ∧ d.get F.DEV_STATE_PREV = s.dev.state % 16 ∧ d.pin .faultN = .low ∧ d.plan.passing = [] ∧ ∀ n < 8, (d.metPort n).pend = []) := by
  obtain ⟨u, hu⟩ : ∃ u, s.dev.enterFault = u := ⟨_, rfl⟩
  have hstate := hu ▸ Dev.state_enterFault s.dev h₁ h₁₅
  have hprev := hu ▸ Dev.prev_enterFault s.dev h₁ h₁₅
  have hpin := hu ▸ Dev.pin_enterFault s.dev h₁ h₁₅
  obtain ⟨hpass, hpend⟩ := hu ▸ Dev.enterFault_empties s.dev h₁ h₁₅
  exact completes_of_eq (u := (·.enterFault)) rfl hu
    ⟨(Dev.state_canon _).trans hstate, (Dev.get_canon _ _).trans hprev, (Dev.pin_canon _ (by simp)).trans hpin, hpass, hpend⟩

theorem vesperInternal_completes (h₁ : s.dev.state ≠ 1) (h₁₅ : s.dev.state ≠ 15) {l : Latch} (hl : s.dev.cmd = some l) :
    Completes .vesperInternal s (fun d => d.state = 15 ∧ d.pin .faultN = .low ∧ d.cmd = none
      ∧ d.get F.CMD_STATUS_RESULT = 15 ∧ d.get F.CMD_STATUS_BUSY = 0 ∧ d.get F.CMD_STATUS_TAG = l.tag % 2 ^ 16) := by
  obtain ⟨u, hu⟩ : ∃ u, s.dev.vesperInternal = u := ⟨_, rfl⟩
  obtain ⟨hstate, hpin, hcmd, hresult, hbusy, htag⟩ := Dev.vesperInternal_ends s.dev hl h₁ h₁₅ hu
  exact completes_of_eq (u := (·.vesperInternal)) rfl hu ⟨(Dev.state_canon _).trans hstate, (Dev.pin_canon _ (by simp)).trans hpin, hcmd,
    (Dev.get_canon _ _).trans hresult, (Dev.get_canon _ _).trans hbusy, (Dev.get_canon _ _).trans htag⟩

end Commands

end Sys2Proof.Machine
end

section
/-! PROOF. O9, the loss of REFCLK_LANE, and the whole of O9. What a lane that loses lock writes stands on the pages of the cameras, in the lanes' own
part of their group's page, or on page TWIN; the marks of the clocks and the PLLs' lock stand beside that. -/

namespace Sys2Proof.Machine

/-- A field that a lane which loses lock may write, beside the records of events: of a camera, in the lanes' part of a page, or on page TWIN. -/
def Fld.laneSide (f : Fld) : Prop :=
  (0x10 * 0x1_0000 * 32 ≤ f.key ∧ f.key < 0x20 * 0x1_0000 * 32) ∨ 0x80 ≤ f.key / 32 % 0x1_0000 ∨ 0x90 * 0x1_0000 * 32 ≤ f.key

/-- A plain field that it does not write, nor the end of a command: the marks of the clocks and the PLLs' lock among them. -/
def Fld.offLanes (f : Fld) : Prop := f.plain = true ∧ Dev.apart f = true ∧ ¬ f.laneSide

theorem Fld.ne_of_offLanes {f g : Fld} (hf : f.offLanes) (hg : g.laneSide) : f.key ≠ g.key := fun h => hf.2.2 (by rwa [laneSide, h])

@[simp] theorem Fld.laneSide_camera (p o l w r : Nat) (hp : p < 16) (ho : o < 0x1_0000) (hl : l < 32) : (⟨bar0 (16 + p) o, l, w, r⟩ : Fld).laneSide :=
  .inl (by simp only [key, bar0]; omega)

@[simp] theorem Fld.laneSide_lane (g k o l w r : Nat) (hk : k < 8) (ho : 0x80 ≤ o) (ho' : o < 0x100) (hl : l < 32) :
    (⟨bar0 (32 + g) (o + 0x20 * k), l, w, r⟩ : Fld).laneSide := .inr (.inl (by simp only [key, bar0]; omega))

@[simp] theorem Fld.laneSide_twin (o l w r : Nat) : (⟨bar0 144 o, l, w, r⟩ : Fld).laneSide := .inr (.inr (by simp only [key, bar0]; omega))

theorem Fld.offLanes_clkLost : F.DEV_ENV_STAT_CLK_LOST.offLanes := ⟨rfl, rfl, by unfold Fld.laneSide; decide⟩

theorem Fld.offLanes_pll {g l w r : Nat} (hg : g < 13) (hl : l < 32) : (⟨bar0 (32 + g) 0x44, l, w, r⟩ : Fld).offLanes := by
  refine ⟨Fld.plain_page _ _ _ _ _ (by omega) (by omega) hl (by omega) (by omega) (by omega), ?_, ?_⟩
  · have h : (⟨bar0 (32 + g) 0x44, l, w, r⟩ : Fld).key / 32 = bar0 (32 + g) 0x44 := by simp only [key, bar0]; omega
    simp only [Dev.apart, h, bar0, Bool.and_eq_true, Bool.not_eq_true', Bool.and_eq_false_iff, decide_eq_false_iff_not]
    omega
  · simp only [laneSide, key, bar0]; omega

namespace Dev

variable (d : Dev) {f : Fld}

section OffLanes

variable (hf : f.offLanes)
include hf

/-! ### The camera ports (R86) -/

omit hf in
theorem get_ledgerOut (p sid seq index disp : Nat) : (d.ledgerOut p sid seq index disp).get f = d.get f := by
  rw [ledgerOut, get_ite, get_merSend, ite_self]

theorem get_raise_offLanes (p b : Nat) : (d.raise p b).get f = d.get f := get_raise d p b (Fld.calm_of_plain hf.1)

section Camera

variable {p : Nat} (hp : p < 16)
include hp

theorem get_count_camera (o l w r n : Nat) (ho : o < 0x1_0000) (hl : l < 32) : (d.count ⟨bar0 (16 + p) o, l, w, r⟩ n).get f = d.get f :=
  get_count_ne _ _ (Fld.ne_of_offLanes hf (Fld.laneSide_camera _ _ _ _ _ hp ho hl))

theorem get_countMissing (sid index disp : Nat) : (d.countMissing p sid index disp).get f = d.get f := by
  rw [countMissing, get_ledgerOut, get_raise_offLanes _ hf, get_count_camera _ hf hp _ _ _ _ _ (by decide) (by decide)]

theorem get_markMissing (disp : Nat) (late : TrigEntry → StreamSlot → Bool) : (d.markMissing p disp late).get f = d.get f := by
  unfold markMissing
  extract_lets x hit fifo
  rw [get_foldl _ (fun d h => get_countMissing d hf hp _ _ _), get_setPort]

theorem get_endLine (sid : Nat) : (d.endLine p sid).get f = d.get f := by
  unfold endLine
  extract_lets r full x st
  split
  · rfl
  · rfl
  · rfl
  · extract_lets d₁ d₂ d₃ d₄
    have h₁ : d₁.get f = d.get f := rfl
    have h₂ : d₂.get f = d₁.get f := by rw [get_ite, get_count_camera _ hf hp _ _ _ _ _ (by decide) (by decide), ite_self]
    have h₃ : d₃.get f = d₂.get f := by rw [get_ite, get_count_camera _ hf hp _ _ _ _ _ (by decide) (by decide), ite_self]
    have h₄ : d₄.get f = d₃.get f := by rw [get_ite, get_raise_offLanes _ hf, ite_self]
    rw [get_ledgerOut, h₄, h₃, h₂, h₁]

theorem get_endStreams : (d.endStreams p).get f = d.get f :=
  get_foldl d (fun d sid => by rw [get_ite, get_endLine _ hf hp, ite_self]) _

theorem get_portDown : (d.portDown p).get f = d.get f := by rw [portDown, get_endStreams _ hf hp, get_markMissing _ hf hp]

omit hf hp in
theorem get_markDown : (d.markDown p).get f = d.get f := by rw [markDown, get_ite, get_setPort, ite_self]

theorem get_setPortState (s : Nat) : (d.setPortState p s).get f = d.get f :=
  get_set_ne _ _ (Fld.ne_of_offLanes hf (Fld.laneSide_camera _ _ _ _ _ hp (by decide) (by decide)))

theorem get_lockLoss (c : Nat) : (d.lockLoss p c).get f = d.get f := by
  unfold lockLoss
  extract_lets held d₁ d₂ x
  have h₁ : d₁.get f = d.get f := by
    rw [get_ite, get_relayUpdate _ _ fun _ => Fld.ne_of_offLanes hf (Fld.laneSide_camera _ _ _ _ _ hp (by decide) (by decide)),
      get_putBit_ne _ _ _ (Fld.ne_of_offLanes hf (Fld.laneSide_camera _ _ _ _ _ hp (by decide) (by decide))), ite_self]
  clear_value d₁
  split
  · exact h₁
  · split
    · have h₂ : d₂.get f = d.get f := by rw [get_setPortState _ hf hp, get_portDown _ hf hp, h₁]
      rw [get_raise_offLanes _ hf, get_markDown, get_setPort, h₂]
    · rw [get_ite, get_markDown, get_endStreams _ hf hp, ite_self, h₁]

end Camera

/-! ### The lanes (R122, R134) -/

theorem get_abandonJoin_offLanes : d.abandonJoin.get f = d.get f := by
  unfold abandonJoin
  extract_lets p
  split
  · rfl
  · rw [get_put_ne _ _ (Fld.ne_of_offLanes hf (by simp)), get_set_ne _ _ (Fld.ne_of_offLanes hf (by simp))]
    rfl

theorem get_merRefresh : d.merRefresh.get f = d.get f := by
  unfold merRefresh
  extract_lets ms was d₁ m d₂
  split
  · rfl
  · have h₁ : d₁.get f = d.get f := by
      rw [get_put_ne _ _ (Fld.ne_of_offLanes hf (by simp)), get_set_ne _ _ (Fld.ne_of_offLanes hf (by simp))]
    have h₂ : d₂.get f = d₁.get f := by
      simp only [d₂]
      clear_value d₁
      split
      · rfl
      · rw [get_ite, get_abandonJoin_offLanes _ hf, get_count_ne _ _ (Fld.ne_of_offLanes hf (by simp)), ite_self]
    rw [get_raise_offLanes _ hf, h₂, h₁]

theorem ne_lane (l o b w r : Nat) (ho : 0x80 ≤ o) (ho' : o < 0x100) (hb : b < 32) :
    f.key ≠ (⟨bar0 (32 + l / 8) (o + 0x20 * (l % 8)), b, w, r⟩ : Fld).key :=
  Fld.ne_of_offLanes hf (Fld.laneSide_lane _ _ _ _ _ _ (by omega) ho ho' hb)

theorem get_laneShow (l : Nat) : (d.laneShow l).get f = d.get f := by
  unfold laneShow
  extract_lets g k x d₁ d₂ d₃
  have h₁ : d₁.get f = d.get f := rfl
  have h₂ : d₂.get f = d₁.get f := by
    rw [get_ite, get_put_ne _ _ (ne_lane hf l _ _ _ _ (by decide) (by decide) (by decide)), ite_self]
  have h₃ : d₃.get f = d₂.get f := get_set_ne _ _ (ne_lane hf l _ _ _ _ (by decide) (by decide) (by decide))
  rw [get_ite, get_merRefresh _ hf, ite_self, h₃, h₂, h₁]

theorem get_scanLost (l : Nat) : (d.scanLost l).get f = d.get f := by
  rw [scanLost, get_ite, get_complete _ _ _ _ hf.1 hf.2.1, get_setLane, ite_self]

theorem get_laneLose (l : Nat) : (d.laneLose l).get f = d.get f := by
  unfold laneLose
  extract_lets g k d₁ d₂ x d₃
  have h₁ : d₁.get f = d.get f := by
    rw [get_put_ne _ _ (ne_lane hf l _ _ _ _ (by decide) (by decide) (by decide)),
      get_put_ne _ _ (ne_lane hf l _ _ _ _ (by decide) (by decide) (by decide))]
  have h₂ : d₂.get f = d₁.get f := by
    rw [get_raise_offLanes _ hf, get_countSat_ne _ (ne_lane hf l _ _ _ _ (by decide) (by decide) (by decide))]
  have h₃ : d₃.get f = d₂.get f := by rw [get_laneShow _ hf, get_setLane]
  clear_value d₁ d₂ d₃
  rw [get_scanLost _ hf]
  split
  · rw [get_lockLoss _ hf (by omega), h₃, h₂, h₁]
  · rw [h₃, h₂, h₁]

theorem get_laneLockLoss (l : Nat) : (d.laneLockLoss l).get f = d.get f := by rw [laneLockLoss, get_ite, get_laneLose _ hf, ite_self]

end OffLanes

/-! ### The PLLs (R41) -/

theorem get_pllLoss (g : Nat) (hf : f.calm = true) (hl : g < 13 → f.key ≠ (F.LNG_PLL_STAT_PLL_LOCK g).key)
    (hc : g < 13 → f.key ≠ (F.LNG_PLL_STAT_LOSS_CNT g).key) : (d.pllLoss g).get f = d.get f := by
  unfold pllLoss
  split
  · next h => rw [get_raise _ _ _ hf, get_countSat_ne _ (hc h.1), get_put_ne _ _ (hl h.1)]
  · rfl

theorem calm_pll {g l w r : Nat} (hg : g < 13) (hl : l < 32) : (⟨bar0 (32 + g) 0x44, l, w, r⟩ : Fld).calm = true :=
  Fld.calm_of_plain (Fld.offLanes_pll hg hl).1

/-- Two fields of PLL_STAT that differ in the group or in the place have different keys. -/
theorem pll_ne {g g' l l' w w' r r' : Nat} (hl : l < 32) (hl' : l' < 32) (h : g ≠ g' ∨ l ≠ l') :
    (⟨bar0 (32 + g) 0x44, l, w, r⟩ : Fld).key ≠ (⟨bar0 (32 + g') 0x44, l', w', r'⟩ : Fld).key := by
  simp only [Fld.key, bar0]; omega

/-- A PLL that loses its lock shows none. -/
theorem pllLoss_unlocks {g : Nat} (hg : g < 13) : (d.pllLoss g).get (F.LNG_PLL_STAT_PLL_LOCK g) = 0 := by
  unfold pllLoss
  split
  · rw [get_raise _ _ _ (calm_pll hg (by decide)), get_countSat_ne _ (pll_ne (by decide) (by decide) (.inr (by decide))), get_put_self _ _ _ one_ne_zero]
    rfl
  · next h => simpa [hg, bit] using h

/-- The loss of the reference clock at one group's PLL. -/
def pllRefLoss (d : Dev) (g : Nat) : Dev := (d.pllLoss g).put (F.LNG_PLL_STAT_REF_OK g) false

theorem get_pllRefLoss_ne {g : Nat} (hf : f.calm = true) (h : ∀ l w r : Nat, l < 32 → f.key ≠ (⟨bar0 (32 + g) 0x44, l, w, r⟩ : Fld).key) :
    (d.pllRefLoss g).get f = d.get f := by
  rw [pllRefLoss, get_put_ne _ _ (h _ _ _ (by decide)), get_pllLoss _ _ hf (fun _ => h _ _ _ (by decide)) (fun _ => h _ _ _ (by decide))]

/-- Every PLL is without lock and without reference once each has lost it. -/
theorem pllsDown {g : Nat} (hg : g < 13) : ((List.range 13).foldl pllRefLoss d).get (F.LNG_PLL_STAT_PLL_LOCK g) = 0
    ∧ ((List.range 13).foldl pllRefLoss d).get (F.LNG_PLL_STAT_REF_OK g) = 0 := by
  have hmem : g ∈ List.range 13 := List.mem_range.mpr hg
  refine ⟨get_foldl_of_mem d (fun d => ?_) (fun d m hm hd => ?_) hmem, get_foldl_of_mem d (fun d => ?_) (fun d m hm hd => ?_) hmem⟩
  · rw [pllRefLoss, get_put_ne _ _ (pll_ne (by decide) (by decide) (.inr (by decide))), pllLoss_unlocks _ hg]
  · rw [get_pllRefLoss_ne _ (calm_pll hg (by decide)) fun l w r hl => pll_ne (by decide) hl (.inl hm.symm), hd]
  · rw [pllRefLoss, get_put_self _ _ _ one_ne_zero]; rfl
  · rw [get_pllRefLoss_ne _ (calm_pll hg (by decide)) fun l w r hl => pll_ne (by decide) hl (.inl hm.symm), hd]

theorem get_pllsDown (hf : f.calm = true) (h : f.key < 0x10 * 0x1_0000 * 32) : ((List.range 13).foldl pllRefLoss d).get f = d.get f :=
  get_foldl d (fun d g => get_pllRefLoss_ne d hf fun l w r hl => by simp only [Fld.key, bar0] at *; omega) _

/-- The PLLs lock where REFCLK_LANE is present. -/
theorem pllsUp_locks {g : Nat} (hg : g < 13) (h : d.laneClockLost = false) :
    d.pllsUp.get (F.LNG_PLL_STAT_PLL_LOCK g) = 1 ∧ d.pllsUp.get (F.LNG_PLL_STAT_REF_OK g) = 1 := by
  have hmem : g ∈ List.range 13 := List.mem_range.mpr hg
  unfold pllsUp
  rw [h]
  refine ⟨get_foldl_of_mem d (fun d => ?_) (fun d m hm hd => ?_) hmem, get_foldl_of_mem d (fun d => ?_) (fun d m hm hd => ?_) hmem⟩
  · rw [get_put_self _ _ _ one_ne_zero]; rfl
  · rw [get_put_ne _ _ (pll_ne (by decide) (by decide) (.inl hm.symm)), get_put_ne _ _ (pll_ne (by decide) (by decide) (.inl hm.symm)), hd]
  · rw [get_put_ne _ _ (pll_ne (by decide) (by decide) (.inr (by decide))), get_put_self _ _ _ one_ne_zero]; rfl
  · rw [get_put_ne _ _ (pll_ne (by decide) (by decide) (.inl hm.symm)), get_put_ne _ _ (pll_ne (by decide) (by decide) (.inl hm.symm)), hd]

theorem get_pllsUp (h : ∀ g, f.key ≠ (F.LNG_PLL_STAT_PLL_LOCK g).key ∧ f.key ≠ (F.LNG_PLL_STAT_REF_OK g).key) : d.pllsUp.get f = d.get f := by
  unfold pllsUp
  exact get_foldl d (fun d g => by rw [get_put_ne _ _ (h g).1, get_put_ne _ _ (h g).2]) _

/-! ### The Ethernet ports (Table time-8) -/

theorem get_clearFields {fs : List Fld} (h : ∀ g ∈ fs, f.key ≠ g.key) : (d.clearFields fs).get f = d.get f :=
  foldl_keeps_of_mem (·.get f) fs (fun d g hg => get_set_ne d _ (h g hg)) d

/-- A change on an Ethernet link is shown on page NET alone. -/
theorem get_ethLinkChange (e : Nat) (link lock los modAbs : Bool) (hf : f.calm = true)
    (h : f.key < 5 * 0x1_0000 * 32 ∨ 6 * 0x1_0000 * 32 ≤ f.key) : (d.ethLinkChange e link lock los modAbs).get f = d.get f := by
  have hne : ∀ o l w r : Nat, o < 0x1_0000 → l < 32 → f.key ≠ (⟨bar0 5 o, l, w, r⟩ : Fld).key := fun o l w r ho hl => by
    simp only [Fld.key, bar0] at *; omega
  unfold ethLinkChange
  split
  · rfl
  · next he =>
    extract_lets was mod d₁ d₂ d₃ d₄
    have h₁ : d₁.get f = d.get f := by
      rw [get_put_ne _ _ (hne _ _ _ _ (by omega) (by decide)), get_put_ne _ _ (hne _ _ _ _ (by omega) (by decide)),
        get_put_ne _ _ (hne _ _ _ _ (by omega) (by decide)), get_put_ne _ _ (hne _ _ _ _ (by omega) (by decide))]
    have h₂ : d₂.get f = d₁.get f := by
      rw [get_ite, get_clearFields _ fun g hg => ?_, ite_self]
      obtain ⟨n, hn, rfl⟩ := List.mem_map.mp hg
      have := List.mem_range.mp hn
      exact hne _ _ _ _ (by omega) (by decide)
    have h₃ : d₃.get f = d₂.get f := by rw [get_ite, get_countSat_ne _ (hne _ _ _ _ (by omega) (by decide)), ite_self]
    have h₄ : d₄.get f = d₃.get f := by rw [get_ite, get_raise _ _ _ hf, ite_self]
    rw [get_ite, get_raise _ _ _ hf, ite_self, h₄, h₃, h₂, h₁]

/-- REFCLK_LANE lost: the mark is set, and no PLL holds lock or sees its reference. -/
theorem refclkLaneLost_unlocks (h : d.testBit F.DEV_ENV_STAT_CLK_LOST 2 = false) {u : Dev} (hu : d.refclkLaneLost = u) :
    u.testBit F.DEV_ENV_STAT_CLK_LOST 2 = true
      ∧ ∀ g < 13, u.get (F.LNG_PLL_STAT_PLL_LOCK g) = 0 ∧ u.get (F.LNG_PLL_STAT_REF_OK g) = 0 := by
  have hmark := clockLost_marks d 2 (by decide)
  unfold refclkLaneLost at hu
  rw [if_neg (by simp [h])] at hu
  generalize d.clockLost 2 = c at hu hmark
  have hget : ∀ f : Fld, f.offLanes → (f.key < 5 * 0x1_0000 * 32 ∨ 6 * 0x1_0000 * 32 ≤ f.key) →
      u.get f = ((List.range 13).foldl pllRefLoss c).get f := fun f hf hk => by
    rw [← hu, get_foldl _ fun d e => get_ethLinkChange d e _ _ _ _ (Fld.calm_of_plain hf.1) hk, get_foldl _ fun d l => get_laneLockLoss d hf l]
    rfl
  refine ⟨?_, fun g hg => ?_⟩
  · rw [testBit, hget _ Fld.offLanes_clkLost (by decide), get_pllsDown _ rfl (by decide)]
    exact hmark
  · obtain ⟨hlock, href⟩ := pllsDown c hg
    have hpage : ∀ l w r : Nat, 6 * 0x1_0000 * 32 ≤ (⟨bar0 (32 + g) 0x44, l, w, r⟩ : Fld).key := fun l w r => by
      simp only [Fld.key, bar0]; omega
    exact ⟨(hget _ (Fld.offLanes_pll hg (by decide)) (.inr (hpage _ _ _))).trans hlock,
      (hget _ (Fld.offLanes_pll hg (by decide)) (.inr (hpage _ _ _))).trans href⟩

/-- REFCLK_LANE back: the mark goes, and every PLL locks. -/
theorem refclkLaneReturn_locks (h : d.testBit F.DEV_ENV_STAT_CLK_LOST 2 = true) :
    d.refclkLaneReturn.testBit F.DEV_ENV_STAT_CLK_LOST 2 = false
      ∧ ∀ g < 13, d.refclkLaneReturn.get (F.LNG_PLL_STAT_PLL_LOCK g) = 1 ∧ d.refclkLaneReturn.get (F.LNG_PLL_STAT_REF_OK g) = 1 := by
  have hclear : (d.putBit F.DEV_ENV_STAT_CLK_LOST 2 false).testBit F.DEV_ENV_STAT_CLK_LOST 2 = false := testBit_putBit_false d (by decide)
  unfold refclkLaneReturn
  rw [if_neg (by simp [h])]
  generalize d.putBit F.DEV_ENV_STAT_CLK_LOST 2 false = c at hclear
  refine ⟨?_, fun g hg => pllsUp_locks c hg hclear⟩
  rw [testBit, get_pllsUp c fun g => ⟨by simp only [Fld.key, bar0]; omega, by simp only [Fld.key, bar0]; omega⟩]
  exact hclear

end Dev

/-! ### The commands complete -/

theorem refclkLaneLost_completes {s : State} (h : s.dev.testBit F.DEV_ENV_STAT_CLK_LOST 2 = false) : Completes .refclkLaneLost s (fun d =>
    d.testBit F.DEV_ENV_STAT_CLK_LOST 2 = true ∧ ∀ g < 13, d.get (F.LNG_PLL_STAT_PLL_LOCK g) = 0 ∧ d.get (F.LNG_PLL_STAT_REF_OK g) = 0) := by
  obtain ⟨u, hu⟩ : ∃ u, s.dev.refclkLaneLost = u := ⟨_, rfl⟩
  obtain ⟨hmark, hpll⟩ := Dev.refclkLaneLost_unlocks s.dev h hu
  exact completes_of_eq (u := (·.refclkLaneLost)) rfl hu ⟨(Dev.testBit_canon _ _ _).trans hmark,
    fun g hg => ⟨(Dev.get_canon _ _).trans (hpll g hg).1, (Dev.get_canon _ _).trans (hpll g hg).2⟩⟩

theorem refclkLaneReturn_completes {s : State} (h : s.dev.testBit F.DEV_ENV_STAT_CLK_LOST 2 = true) : Completes .refclkLaneReturn s (fun d =>
    d.testBit F.DEV_ENV_STAT_CLK_LOST 2 = false ∧ ∀ g < 13, d.get (F.LNG_PLL_STAT_PLL_LOCK g) = 1 ∧ d.get (F.LNG_PLL_STAT_REF_OK g) = 1) := by
  obtain ⟨hmark, hpll⟩ := Dev.refclkLaneReturn_locks s.dev h
  exact completes_of_run (u := (·.refclkLaneReturn)) rfl ⟨(Dev.testBit_canon _ _ _).trans hmark,
    fun g hg => ⟨(Dev.get_canon _ _).trans (hpll g hg).1, (Dev.get_canon _ _).trans (hpll g hg).2⟩⟩

/-- Settles O9: each clause is the lemma of its command. -/
theorem clocksAndFault : Obligations.ClocksAndFault := fun _ =>
  ⟨refclkSysLost_completes, refclkTimeLost_completes, refclkTimeReturn_completes, refclkLaneLost_completes, refclkLaneReturn_completes,
    fun h₁ h₁₅ => ⟨vesperSramUe_completes h₁ h₁₅, fun _ => vesperInternal_completes h₁ h₁₅⟩⟩

end Sys2Proof.Machine
end

section
/-! PROOF. O10, a host reset and the start of link training. The host reset filters the register store by `hostKey`; what it writes after that are
the link's speed and width, the queues' counts of lost records, and fields of page PACK. -/

namespace Sys2Proof.Machine

namespace Dev

variable (d : Dev) {f : Fld}

/-! ### Page PACK (Table pack-6) -/

@[simp] theorem get_setPackCh (c : Nat) (x : PackCh) : (d.setPackCh c x).get f = d.get f := rfl

section BeforePack

variable (hf : f.key < 0xC * 0x1_0000 * 32)
include hf

theorem get_set_pack (o l w r v : Nat) : (d.set ⟨bar0 12 o, l, w, r⟩ v).get f = d.get f :=
  get_set_ne _ _ (by simp only [Fld.key, bar0] at *; omega)

theorem get_dropHist (c : Nat) : (d.dropHist c).get f = d.get f := by
  simp only [dropHist, showHist, put]
  rw [get_set_pack _ hf, get_set_pack _ hf, get_set_pack _ hf, get_setPackCh]

theorem get_hostResetPack (c : Nat) : (d.hostResetPack c).get f = d.get f := by
  unfold hostResetPack
  extract_lets x d₁
  have h₁ : d₁.get f = d.get f := get_setPackCh d _ _
  clear_value d₁
  split
  · rw [get_ite, get_dropHist _ hf, packIdle, get_set_pack _ hf, get_setPackCh, ite_self, h₁]
  · exact h₁

end BeforePack

theorem packIdle_queues (c : Nat) : (d.packIdle c).queues = d.queues := rfl
theorem dropHist_queues (c : Nat) : (d.dropHist c).queues = d.queues := by
  simp only [dropHist, showHist, put_queues, set_queues, setPackCh]

theorem hostResetPack_queues (c : Nat) : (d.hostResetPack c).queues = d.queues := by
  unfold hostResetPack
  extract_lets x d₁
  have h₁ : d₁.queues = d.queues := rfl
  clear_value d₁
  split
  · rw [apply_ite Dev.queues, dropHist_queues, packIdle_queues, ite_self, h₁]
  · exact h₁

/-! ### The report queues (R443) -/

theorem get_hostResetQueue (q : Nat) (h : f.key ≠ (F.RQ_LOST_COUNT q).key) : (d.hostResetQueue q).get f = d.get f := by
  rw [hostResetQueue, get_count_ne _ _ h, loseRuns, get_setQueue, get_setQueue]

/-- A queue stages nothing after a host reset. -/
theorem staging_hostResetQueue (q : Nat) : ((d.hostResetQueue q).queue q).staging = [] := by
  have h : ∀ (d : Dev) x rs, (((d.setQueue q x).loseRuns q rs).queue q).staging = x.staging := fun d x rs => by
    rw [loseRuns, queue_setQueue, queue_setQueue]
  exact h d _ _

theorem queue_hostResetQueue_ne {q q' : Nat} (hq : q' ≠ q) : (d.hostResetQueue q).queue q' = d.queue q' := by
  have h : ∀ (d : Dev) x rs, ((d.setQueue q x).loseRuns q rs).queue q' = d.queue q' := fun d x rs =>
    (Sparse.get_set_ne _ _ _ _ hq).trans (Sparse.get_set_ne _ _ _ _ hq)
  exact h d _ _

/-! ### The reset as a whole (R452) -/

/-- A host reset before the queues and PACK follow. -/
def hostCleared (d : Dev) (perst : Bool) : Dev :=
  let d : Dev := { d with regs := d.regs.filter (fun e => hostKey e.1), rings := [], arb := {}, recLeft := 0, pcie := {} }
  let d : Dev := { d with power := { d.power with hostHeld := d.power.hostHeld || perst, pcieTrain := d.power.pcieTrain && !perst } }
  if perst then d.setPin .pcieTx .idle else if d.power.pcieTrain then d.linkShow else d

/-- What a host reset writes after it has cleared the store. -/
def hostResetKeys : List Nat := [F.HOST_LINK_SPEED.key, F.HOST_LINK_WIDTH.key]

theorem get_linkShow (h : f.key ∉ hostResetKeys) : d.linkShow.get f = d.get f := by
  simp only [hostResetKeys, List.mem_cons, List.not_mem_nil, or_false, not_or] at h
  rw [linkShow, get_set_ne _ _ h.2, get_set_ne _ _ h.1]

theorem unrecorded_linkShow : d.linkShow.unrecorded = d.unrecorded := (unrecorded_set _ _ _).trans (unrecorded_set d _ _)

theorem get_hostCleared (perst : Bool) (h : f.key ∉ hostResetKeys) : (d.hostCleared perst).get f = if hostKey f.key then d.get f else f.reset := by
  unfold hostCleared
  extract_lets d₁ p d₂
  have h₂ : d₂.get f = if hostKey f.key then d.get f else f.reset := get_of_filter hostKey rfl
  clear_value d₂
  rw [get_ite, get_setPin, get_ite, get_linkShow _ h, ite_self, ite_self, h₂]

/-- The queues and the PACK channels after a host reset. -/
def hostResetUnits (d : Dev) : Dev := (List.range 4).foldl (fun d c => d.hostResetPack c) ((List.range 5).foldl (fun d q => d.hostResetQueue q) d)

theorem get_hostResetUnits (hf : f.key < 0xC * 0x1_0000 * 32) (h : ∀ q < 5, f.key ≠ (F.RQ_LOST_COUNT q).key) :
    d.hostResetUnits.get f = d.get f := by
  rw [hostResetUnits, get_foldl _ fun d c => get_hostResetPack d hf c, get_foldl_range _ 5 fun d q hq => get_hostResetQueue d q (h q hq)]

theorem staging_hostResetUnits {q : Nat} (hq : q < 5) : (d.hostResetUnits.queue q).staging = [] := by
  have hpack : d.hostResetUnits.queues = ((List.range 5).foldl (fun d q => d.hostResetQueue q) d).queues :=
    foldl_keeps_range Dev.queues 4 (fun d c _ => hostResetPack_queues d c) _
  rw [queue, hpack]
  refine foldl_holds_of_mem (P := fun d : Dev => (d.queue q).staging = []) (fun d => staging_hostResetQueue d q) (fun d m hm => ?_)
    (List.mem_range.mpr hq) d
  by_cases e : q = m
  · exact e ▸ staging_hostResetQueue d q
  · rw [queue_hostResetQueue_ne d e, hm]

section HostReset

variable (perst : Bool) (hp : d.power.porstLow = false)
include hp

theorem hostReset_eq : d.hostReset perst = (d.hostCleared perst).hostResetUnits.countSat F.HOST_RESETS_COUNT := by
  unfold hostReset
  rw [if_neg (by simp [hp])]
  rfl

/-- A field before page PACK that no queue or link writes anew reads as before where a host reset keeps it, and its reset value elsewhere. -/
theorem get_hostReset (hf : f.key < 0xC * 0x1_0000 * 32) (hc : f.key ≠ F.HOST_RESETS_COUNT.key) (hl : ∀ q < 5, f.key ≠ (F.RQ_LOST_COUNT q).key)
    (hk : f.key ∉ hostResetKeys) : (d.hostReset perst).get f = if hostKey f.key then d.get f else f.reset := by
  rw [hostReset_eq d perst hp, get_countSat_ne _ hc, get_hostResetUnits _ hf hl, get_hostCleared _ _ hk]

theorem resets_hostReset : (d.hostReset perst).get F.HOST_RESETS_COUNT
    = satInc F.HOST_RESETS_COUNT.width (d.get F.HOST_RESETS_COUNT) % 2 ^ F.HOST_RESETS_COUNT.width := by
  rw [hostReset_eq d perst hp, get_countSat_self, get_hostResetUnits _ (by decide) (fun q _ => by simp only [Fld.key, bar0]; omega),
    get_hostCleared _ _ (by decide), if_pos (by decide)]

theorem staging_hostReset {q : Nat} (hq : q < 5) : ((d.hostReset perst).queue q).staging = [] := by
  have hcount : ∀ d : Dev, (d.countSat F.HOST_RESETS_COUNT).queue q = d.queue q := fun _ => rfl
  rw [hostReset_eq d perst hp, hcount, staging_hostResetUnits _ hq]

/-- The enable of a queue returns to reset, its numbering stays. -/
theorem queue_hostReset {q : Nat} (hq : q < 5) :
    (d.hostReset perst).get (F.RQ_CTRL_EN q) = 0 ∧ (d.hostReset perst).get (F.RQ_SEQ_SEQ q) = d.get (F.RQ_SEQ_SEQ q) := by
  have hen : hostKey (F.RQ_CTRL_EN q).key = false := by interval_cases q <;> rfl
  have hseq : hostKey (F.RQ_SEQ_SEQ q).key = true := by interval_cases q <;> rfl
  refine ⟨?_, ?_⟩
  · rw [get_hostReset d perst hp (by simp only [Fld.key, bar0]; omega) (by simp only [Fld.key, bar0]; omega)
      (fun m _ => by simp only [Fld.key, bar0]; omega) (by simp [hostResetKeys, Fld.key, bar0]; omega), hen]
    rfl
  · rw [get_hostReset d perst hp (by simp only [Fld.key, bar0]; omega) (by simp only [Fld.key, bar0]; omega)
      (fun m _ => by simp only [Fld.key, bar0]; omega) (by simp [hostResetKeys, Fld.key, bar0]; omega), hseq]
    rfl

/-- A field of page DEV outlasts a host reset. -/
theorem get_hostReset_dev (hf : f.key < 0x1_0000 * 32) : (d.hostReset perst).get f = d.get f := by
  have hkey : hostKey f.key = true := by
    have h : f.key / 32 / 0x1_0000 ≠ 6 ∧ f.key / 32 < bar4 0 := by unfold bar4; omega
    simp [hostKey, keyAddr, h]
  rw [get_hostReset d perst hp (by omega) (by simp only [Fld.key, bar0] at *; omega) (fun m _ => by simp only [Fld.key, bar0] at *; omega)
    (by simp [hostResetKeys, Fld.key, bar0] at *; omega), hkey]
  rfl

end HostReset

/-! ### Link training (R45, R48) -/

/-- Where nothing holds the host island, training begins. -/
theorem linkStart_trains (ha : d.linkAllowed = true) (ht : d.power.pcieTrain = false) : d.linkStart.power.pcieTrain = true
    ∧ d.linkStart.power.configAt ≤ d.time.c + 100000000 ∧ d.linkStart.pin .pcieTx = .run
    ∧ d.linkStart.get F.HOST_LINK_SPEED = d.power.linkSpeed % 2 ^ F.HOST_LINK_SPEED.width
    ∧ d.linkStart.get F.HOST_LINK_WIDTH = d.power.linkWidth % 2 ^ F.HOST_LINK_WIDTH.width := by
  have hconfig : d.freeVal 32 % 100000001 ≤ 100000000 := by omega
  unfold linkStart
  rw [if_neg (by simp [ha, ht])]
  refine ⟨rfl, Nat.add_le_add_left hconfig _, ?_, ?_, ?_⟩
  · exact (pin_congr (pins_of_unrecorded (unrecorded_linkShow _)) (by simp)).trans (pin_setPin _ _ (by simp))
  · rw [linkShow, get_set_ne _ _ (by decide), get_set_self]; rfl
  · rw [linkShow, get_set_self]; rfl

/-- Where something does, PCIE_PERST_N is noted alone. -/
theorem linkStart_held (ha : d.linkAllowed = false) : d.linkStart = d := by simp [linkStart, ha]

/-- The device with PCIE_PERST_N released, before training is judged. -/
def perstHigh (d : Dev) (speed width : Nat) : Dev :=
  { d with power := { d.power with hostHeld := false, linkSpeed := speed, linkWidth := width } }

theorem linkAllowed_perstHigh (speed width : Nat) (hp : d.power.porstLow = false) (hh : d.power.tripHold = false) :
    (d.perstHigh speed width).linkAllowed = (!d.power.starting || decide (1000000 ≤ d.elapsed d.power.bootAt)) := by
  have h : (d.perstHigh speed width).linkAllowed = (!false && !d.power.porstLow && !d.power.tripHold &&
      (!d.power.starting || decide (1000000 ≤ d.elapsed d.power.bootAt))) := rfl
  simp [h, hp, hh]

end Dev

/-! ### The commands complete -/

section Commands

variable {s : State} (hp : s.dev.power.porstLow = false)
include hp

theorem hostReset_completes (perst : Bool) : Completes (.hostReset perst) s (fun d => d.get F.HOST_RESETS_COUNT =
      satInc F.HOST_RESETS_COUNT.width (s.dev.get F.HOST_RESETS_COUNT) % 2 ^ F.HOST_RESETS_COUNT.width ∧ d.get F.HOST_LINK_BME = 0
    ∧ (∀ q < 5, d.get (F.RQ_CTRL_EN q) = 0 ∧ (d.queue q).staging = [] ∧ d.get (F.RQ_SEQ_SEQ q) = s.dev.get (F.RQ_SEQ_SEQ q))
    ∧ d.get F.DEV_RESET_CAUSE_CAUSE = s.dev.get F.DEV_RESET_CAUSE_CAUSE ∧ d.state = s.dev.state) := by
  have hresets := Dev.resets_hostReset s.dev perst hp
  have hbme : (s.dev.hostReset perst).get F.HOST_LINK_BME = 0 := by
    rw [Dev.get_hostReset s.dev perst hp (by decide) (by decide) (by decide) (by decide), if_neg (by decide)]
  have hqueue := fun q (hq : q < 5) => Dev.queue_hostReset s.dev perst hp hq
  have hstaging := fun q (hq : q < 5) => Dev.staging_hostReset s.dev perst hp hq
  have hcause := Dev.get_hostReset_dev s.dev perst hp (f := F.DEV_RESET_CAUSE_CAUSE) (by decide)
  have hstate := Dev.get_hostReset_dev s.dev perst hp (f := F.DEV_STATE_STATE) (by decide)
  obtain ⟨u, hu⟩ : ∃ u, s.dev.hostReset perst = u := ⟨_, rfl⟩
  simp only [hu] at hresets hbme hqueue hstaging hcause hstate
  exact completes_of_eq (u := (·.hostReset perst)) rfl hu ⟨(Dev.get_canon _ _).trans hresets, (Dev.get_canon _ _).trans hbme,
    fun q hq => ⟨(Dev.get_canon _ _).trans (hqueue q hq).1, hstaging q hq, (Dev.get_canon _ _).trans (hqueue q hq).2⟩,
    (Dev.get_canon _ _).trans hcause, (Dev.state_canon _).trans hstate⟩

variable (hh : s.dev.power.tripHold = false) (speed width : Nat)
include hh

theorem perstRelease_trains (ht : s.dev.power.pcieTrain = false)
    (h : s.dev.power.starting = false ∨ 1000000 ≤ s.dev.elapsed s.dev.power.bootAt) : Completes (.pciePerstRelease speed width) s (fun d =>
      d.power.pcieTrain = true ∧ d.power.configAt ≤ s.dev.time.c + 100000000 ∧ d.pin .pcieTx = .run
      ∧ d.get F.HOST_LINK_SPEED = speed % 2 ^ F.HOST_LINK_SPEED.width ∧ d.get F.HOST_LINK_WIDTH = width % 2 ^ F.HOST_LINK_WIDTH.width) := by
  have ha : (s.dev.perstHigh speed width).linkAllowed = true := by
    rw [Dev.linkAllowed_perstHigh _ _ _ hp hh]
    rcases h with h | h <;> simp [h]
  obtain ⟨htrain, hconfig, hpin, hspeed, hwidth⟩ := Dev.linkStart_trains (s.dev.perstHigh speed width) ha ht
  exact completes_of_run (u := (·.perstRelease speed width)) rfl
    ⟨htrain, hconfig, (Dev.pin_canon _ (by simp)).trans hpin, (Dev.get_canon _ _).trans hspeed, (Dev.get_canon _ _).trans hwidth⟩

theorem perstRelease_waits (ht : s.dev.power.pcieTrain = false) (hs : s.dev.power.starting = true)
    (h : s.dev.elapsed s.dev.power.bootAt < 1000000) : Completes (.pciePerstRelease speed width) s (fun d =>
      d.power.pcieTrain = false ∧ d.power.hostHeld = false ∧ KeepsRegs s.dev d []) := by
  have ha : (s.dev.perstHigh speed width).linkAllowed = false := by
    rw [Dev.linkAllowed_perstHigh _ _ _ hp hh]
    simp [hs, h]
  exact completes_of_eq (u := (·.perstRelease speed width)) rfl (Dev.linkStart_held _ ha) ⟨ht, rfl, fun _ _ => Dev.get_canon _ _⟩

end Commands

end Sys2Proof.Machine
end

section
/-! PROOF. O10, the configuration requests of the host, SMBus and the Ethernet modules. What follows a change of Bus Master Enable sends messages,
seals and opens banks and begins descriptors; none of that touches the link's own state. -/

namespace Sys2Proof.Machine

namespace Dev

variable (d : Dev) {f : Fld}

/-! ### The link's own state (R80, R433) -/

/-- The fields that a configuration request gives. -/
def linkKeys : List Nat := [F.HOST_LINK_BME.key, F.HOST_LINK_D3HOT.key, F.MSIX_FUNCTION_MASK.key]

/-- What a configuration request gives: Bus Master Enable, D3hot, the Function Mask and the function's other registers. -/
def linkView (d : Dev) : Nat × Nat × Nat × PcieFunction :=
  (d.get F.HOST_LINK_BME, d.get F.HOST_LINK_D3HOT, d.get F.MSIX_FUNCTION_MASK, d.pcie)

theorem linkView_set {g : Fld} (v : Nat) (h : g.key ∉ linkKeys) : (d.set g v).linkView = d.linkView := by
  simp only [linkKeys, List.mem_cons, List.not_mem_nil, or_false, not_or] at h
  obtain ⟨hbme, hd3, hmask⟩ := h
  simp only [linkView, get_set_ne d v (Ne.symm hbme), get_set_ne d v (Ne.symm hd3), get_set_ne d v (Ne.symm hmask)]
  rfl

@[simp] theorem linkView_emit (e : Emission) : (d.emit e).linkView = d.linkView := rfl
@[simp] theorem linkView_setQueue (q : Nat) (x : Queue) : (d.setQueue q x).linkView = d.linkView := rfl
@[simp] theorem linkView_setBank (q b : Nat) (x : Bank) : (d.setBank q b x).linkView = d.linkView := rfl
@[simp] theorem linkView_setDescRing (r : Nat) (x : DescRing) : (d.setDescRing r x).linkView = d.linkView := rfl
@[simp] theorem linkView_setPackCh (c : Nat) (x : PackCh) : (d.setPackCh c x).linkView = d.linkView := rfl

@[simp] theorem linkView_setHostBytes (bs : List Nat) : ∀ (d : Dev) (a : Nat), (d.setHostBytes a bs).linkView = d.linkView := by
  induction bs with
  | nil => exact fun _ _ => rfl
  | cons b bs ih => exact fun _ _ => (ih _ _).trans rfl

@[simp] theorem linkView_hostWrite (a : Nat) (bs : List Nat) : (d.hostWrite a bs).linkView = d.linkView := by
  rw [hostWrite, apply_ite linkView, linkView_setHostBytes, ite_self]

/-- A field of a report queue or a descriptor ring is not the link's. -/
theorem ne_linkKeys {o l w r : Nat} (ho : 0x100 ≤ o) (ho' : o < 0x1_0000) (hl : l < 32) : (⟨bar0 6 o, l, w, r⟩ : Fld).key ∉ linkKeys := by
  simp only [linkKeys, List.mem_cons, List.not_mem_nil, or_false, Fld.key, bar0, bar4]; omega

theorem linkView_setQueueField {o l w r : Nat} (v : Nat) (ho : 0x100 ≤ o) (ho' : o < 0x1_0000) (hl : l < 32) :
    (d.set ⟨bar0 6 o, l, w, r⟩ v).linkView = d.linkView := linkView_set d v (ne_linkKeys ho ho' hl)

/-! ### Messages (R80) -/

theorem linkView_putPba (v : Nat) (b : Bool) (hv : v < 64) : (d.putBit (F.MSIX_PBA (v / 32)) (v % 32) b).linkView = d.linkView :=
  linkView_set d _ (by simp only [linkKeys, List.mem_cons, List.not_mem_nil, or_false, Fld.key, bar0, bar4]; omega)

theorem linkView_signal (v : Nat) : (d.signal v).linkView = d.linkView := by
  have harmed : ∀ (d : Dev) n k b, n < 2 → (d.putBit (F.IRQ_ARMED_ARMED n) k b).linkView = d.linkView := fun d n k b hn =>
    linkView_set d _ (by simp only [linkKeys, List.mem_cons, List.not_mem_nil, or_false, Fld.key, bar0, bar4]; omega)
  unfold signal
  extract_lets u
  split
  · rw [harmed _ _ _ _ (by omega), apply_ite linkView, linkView_putPba _ _ _ (by omega), linkView_emit, ite_self]
  · rfl

theorem linkView_sendPending : d.sendPending.linkView = d.linkView :=
  foldl_keeps_range linkView 64 (fun d v hv => by rw [apply_ite linkView, linkView_putPba _ _ _ hv, linkView_emit, ite_self]) d

/-! ### Banks (R437–R440) -/

section Queue

variable {q : Nat} (hq : q < 5)
include hq

theorem linkView_setBankState (b s : Nat) : (d.setBankState q b s).linkView = d.linkView := by
  unfold setBankState bankDef
  split
  · exact linkView_setQueueField d s (by omega) (by omega) (by decide)
  · exact linkView_setQueueField d s (by omega) (by omega) (by decide)

theorem linkView_raiseSealed (b : Nat) : (d.raiseQueue q (bankDef q b).sealed).linkView = d.linkView := by
  have hput : (d.put (bankDef q b).sealed true).linkView = d.linkView := by
    unfold bankDef
    split
    · exact linkView_setQueueField d _ (by omega) (by omega) (by decide)
    · exact linkView_setQueueField d _ (by omega) (by omega) (by decide)
  rw [raiseQueue, apply_ite linkView, linkView_signal, ite_self, hput]

theorem linkView_openBank (b : Nat) : (d.openBank q b).linkView = d.linkView := by
  rw [openBank, linkView_setBankState _ hq, linkView_setBank, linkView_hostWrite]

theorem linkView_setActive (v : Nat) : (d.set (F.RQ_STAT_ACTIVE q) v).linkView = d.linkView :=
  linkView_setQueueField d v (by omega) (by omega) (by decide)

theorem linkView_turn : (d.turn q).linkView = d.linkView := by
  unfold turn
  extract_lets a
  rw [apply_ite linkView, apply_ite linkView, apply_ite linkView, linkView_setActive _ hq, linkView_openBank _ hq, linkView_openBank _ hq, ite_self,
    ite_self, ite_self]

theorem linkView_sealBank (b cause : Nat) : (d.sealBank q b cause).linkView = d.linkView := by
  unfold sealBank
  extract_lets x k seals ws d₁ d₂
  have h₁ : d₁.linkView = d.linkView := (linkView_setQueue _ _ _).trans (linkView_hostWrite d _ _)
  have h₂ : d₂.linkView = d₁.linkView := (linkView_raiseSealed _ hq b).trans (linkView_setBankState d₁ hq _ _)
  clear_value d₁ d₂
  rw [linkView_turn _ hq, apply_ite linkView, linkView_setActive _ hq, ite_self, h₂, h₁]

theorem linkView_sealActive (cause : Nat) : (d.sealActive q cause).linkView = d.linkView :=
  foldl_keeps_of_mem linkView _ (fun d b _ => by rw [apply_ite linkView, linkView_sealBank _ hq, ite_self]) d

theorem linkView_freeBanks : (d.freeBanks q).linkView = d.linkView :=
  foldl_keeps_of_mem linkView _ (fun d b _ => by rw [apply_ite linkView, linkView_setBankState _ hq, ite_self]) d

theorem linkView_queueResume : (d.queueResume q).linkView = d.linkView := by
  unfold queueResume
  extract_lets x d₁
  have h₁ : d₁.linkView = d.linkView := by
    simp only [d₁]
    split
    · rw [apply_ite linkView, linkView_freeBanks _ hq, ite_self, linkView_sealActive _ hq, linkView_setQueue]
    · rfl
  rw [linkView_turn _ hq, h₁]

end Queue

/-! ### Descriptors (R449) -/

theorem linkView_ringNext {r : Nat} (hr : r < 2) : (d.ringNext r).linkView = d.linkView := by
  unfold ringNext
  extract_lets x d₁ fail b c
  have h₁ : d₁.linkView = d.linkView := linkView_setQueueField d _ (by omega) (by omega) (by decide)
  clear_value d₁
  split
  · rfl
  · rw [apply_ite linkView, linkView_setDescRing, linkView_setDescRing, linkView_setPackCh, ite_self, h₁]

/-! ### The configuration request -/

/-- The device with a configuration request taken, before what waits goes on. -/
def configTaken (d : Dev) (bme d3 mask : Bool) (fn : PcieFunction) : Dev :=
  ((({ d with pcie := pcieHeld fn } : Dev).put F.HOST_LINK_BME bme).put F.HOST_LINK_D3HOT d3).put F.MSIX_FUNCTION_MASK mask

theorem linkView_configTaken (bme d3 mask : Bool) (fn : PcieFunction) :
    (d.configTaken bme d3 mask fn).linkView = (b2n bme, b2n d3, b2n mask, pcieHeld fn) := by
  have hpcie : (d.configTaken bme d3 mask fn).pcie = pcieHeld fn := rfl
  rw [linkView, hpcie, configTaken, get_put_ne _ _ (by decide), get_put_ne _ _ (by decide), get_put_self _ _ _ one_ne_zero,
    get_put_ne _ _ (by decide), get_put_self _ _ _ one_ne_zero, get_put_self _ _ _ one_ne_zero]

section Configured

variable (bme d3 mask : Bool) (fn : PcieFunction) (ht : d.power.pcieTrain = true)
include ht

theorem linkView_bmeChange (h : d.power.configAt ≤ d.time.c) :
    (d.bmeChange bme d3 mask fn).linkView = (b2n bme, b2n d3, b2n mask, pcieHeld fn) := by
  unfold bmeChange
  rw [if_neg (by simp [ht]), if_neg (by simp [configRetry, h])]
  extract_lets p d₁ d₂ d₃
  have h₁ : d₁.linkView = (b2n bme, b2n d3, b2n mask, pcieHeld fn) := (linkView_sendPending _).trans (linkView_configTaken d bme d3 mask fn)
  have h₂ : d₂.linkView = d₁.linkView := foldl_keeps_range linkView 5 (fun d q hq => linkView_queueResume d hq) d₁
  have h₃ : d₃.linkView = d₂.linkView :=
    foldl_keeps_range linkView 64 (fun d v _ => by rw [apply_ite linkView, linkView_signal, ite_self]) d₂
  clear_value d₁ d₂ d₃
  split
  · exact h₁
  · rw [foldl_keeps_range linkView 2 (fun d r hr => linkView_ringNext d hr), h₃, h₂, h₁]

/-- Before the configuration space is ready the function takes nothing. -/
theorem bmeChange_retries (h : d.time.c < d.power.configAt) : d.bmeChange bme d3 mask fn = d.emit .requestRetry := by
  unfold bmeChange
  rw [if_neg (by simp [ht]), if_pos (by simp [configRetry, ht, h])]

end Configured

/-! ### Ethernet modules (Table time-8) -/

/-- A module that is present shows so. -/
theorem modAbs_ethLinkChange {e : Nat} (link lock los : Bool) (he : e < 2) :
    (d.ethLinkChange e link lock los false).get (F.NET_PORT_STAT_MOD_ABS e) = 0 := by
  have hcalm : (F.NET_PORT_STAT_MOD_ABS e).calm = true :=
    Fld.calm_of_plain (Fld.plain_page _ _ _ _ _ (by omega) (by omega) (by decide) (by decide) (by decide) (by decide))
  unfold ethLinkChange
  rw [if_neg (by omega)]
  extract_lets was mod d₁ d₂ d₃ d₄
  have h₁ : d₁.get (F.NET_PORT_STAT_MOD_ABS e) = 0 := get_put_self _ _ _ one_ne_zero
  have h₃ : d₃.get (F.NET_PORT_STAT_MOD_ABS e) = d₁.get (F.NET_PORT_STAT_MOD_ABS e) := by
    rw [get_ite, get_countSat_ne _ (by simp only [Fld.key, bar0]; omega), ite_self]; rfl
  have h₄ : d₄.get (F.NET_PORT_STAT_MOD_ABS e) = d₃.get (F.NET_PORT_STAT_MOD_ABS e) := by rw [get_ite, get_raise _ _ _ hcalm, ite_self]
  rw [get_ite, get_raise _ _ _ hcalm, ite_self, h₄, h₃, h₁]

theorem modId_ne {e n m : Nat} (h : n ≠ m) : (F.NET_MOD_ID_ID (32 * e + n)).key ≠ (F.NET_MOD_ID_ID (32 * e + m)).key := by
  simp only [Fld.key, bar0]; omega

/-- What a module put in shows: it is present, and its identity is read. -/
theorem ethModPresent_shows {e : Nat} (bytes : List Nat) (he : e < 2) (hs : d.state ≠ 1) :
    (d.ethModPresent e bytes).get (F.NET_PORT_STAT_MOD_ABS e) = 0
      ∧ ∀ i < 32, (d.ethModPresent e bytes).get (F.NET_MOD_ID_ID (32 * e + i)) = leNat ((bytes.drop (4 * i)).take 4) % 2 ^ 32 := by
  unfold ethModPresent
  rw [if_neg (by simp [he, hs])]
  extract_lets d₁
  have h₁ : d₁.get (F.NET_PORT_STAT_MOD_ABS e) = 0 := modAbs_ethLinkChange d _ _ _ he
  clear_value d₁
  refine ⟨?_, fun i hi => ?_⟩
  · rw [get_foldl_range _ 32 fun d i hi => get_set_ne _ _ (by simp only [Fld.key, bar0]; omega), h₁]
  · refine get_foldl_of_mem d₁ (fun d => ?_) (fun d m hm hd => ?_) (List.mem_range.mpr hi)
    · rw [get_set_self]
    · rw [get_set_ne _ _ (modId_ne hm.symm), hd]

end Dev

/-! ### The commands complete -/

section Commands

variable {s : State}

theorem pcieBmeChange_takes (bme d3 mask : Bool) (fn : PcieFunction) (ht : s.dev.power.pcieTrain = true)
    (h : s.dev.power.configAt ≤ s.dev.time.c) : Completes (.pcieBmeChange ⟨bme, mask, fn⟩ d3) s (fun d => d.bit F.HOST_LINK_BME = bme
      ∧ d.bit F.HOST_LINK_D3HOT = d3 ∧ d.bit F.MSIX_FUNCTION_MASK = mask ∧ d.pcie = Dev.pcieHeld fn) := by
  obtain ⟨u, hu⟩ : ∃ u, s.dev.bmeChange bme d3 mask fn = u := ⟨_, rfl⟩
  have hview := hu ▸ Dev.linkView_bmeChange s.dev bme d3 mask fn ht h
  obtain ⟨hbme, hd3, hmask, hpcie⟩ := by simpa only [Dev.linkView, Prod.mk.injEq] using hview
  have hbit : ∀ {g : Fld} {b : Bool}, u.get g = b2n b → u.canon.bit g = b := fun {g b} hg => by
    rw [Dev.bit_canon, Dev.bit, hg]
    cases b <;> rfl
  exact completes_of_eq (u := (·.bmeChange bme d3 mask fn)) rfl hu ⟨hbit hbme, hbit hd3, hbit hmask, hpcie⟩

theorem pcieBmeChange_retries (bme d3 mask : Bool) (fn : PcieFunction) (ht : s.dev.power.pcieTrain = true)
    (h : s.dev.time.c < s.dev.power.configAt) : Completes (.pcieBmeChange ⟨bme, mask, fn⟩ d3) s (fun d =>
      d.out = .requestRetry :: s.dev.out ∧ d.pcie = s.dev.pcie ∧ KeepsRegs s.dev d [] ∧ KeepsMemory s.dev d) := by
  obtain ⟨hmem, hregs⟩ := Dev.keeps_canon (s.dev.emit .requestRetry)
  exact completes_of_eq (u := (·.bmeChange bme d3 mask fn)) rfl (Dev.bmeChange_retries s.dev bme d3 mask fn ht h) ⟨rfl, rfl, hregs, hmem⟩

theorem smbusRead_nacks {write : Bool} {code : Nat} (block pec : Bool) (h : write = true ∨ s.dev.state = 1 ∨ s.dev.smbusData code = none) :
    Completes (.smbusRead ⟨write, block, pec⟩ code) s (fun d => d.out.head? = some (.smbus none)) := by
  refine completes_of_run (u := (·.smbusRead write code block pec)) rfl ?_
  rcases h with h | h | h
  · simp [Dev.smbusRead, Dev.emit, h]
  · simp [Dev.smbusRead, Dev.emit, h]
  · simp [Dev.smbusRead, Dev.emit, h]

theorem smbusRead_serves {code : Nat} {bs : List Nat} (block pec : Bool) (hs : s.dev.state ≠ 1) (h : s.dev.smbusData code = some bs) :
    Completes (.smbusRead ⟨false, block, pec⟩ code) s (fun d =>
      let body := if block then bs.length :: bs else bs.take 1
      d.out.head? = some (.smbus (some (if pec then body ++ [Dev.smbusPec ([0xB8, code, 0xB9] ++ body)] else body)))) :=
  completes_of_run (u := (·.smbusRead false code block pec)) rfl (by simp [Dev.smbusRead, Dev.emit, hs, h])

theorem smbusAlertResponse_answers :
    Completes .smbusAlertResponse s (fun d => d.out.head? = some (.smbus (if s.dev.state = 1 then none else some [0x5C]))) :=
  completes_of_run (u := (·.smbusAlert)) rfl rfl

theorem ethModPresent_completes {e : Nat} (bytes : List Nat) (he : e < 2) (hs : s.dev.state ≠ 1) : Completes (.ethModPresent e bytes) s (fun d =>
    d.get (F.NET_PORT_STAT_MOD_ABS e) = 0
      ∧ ∀ i < 32, d.get (F.NET_MOD_ID_ID (32 * e + i)) = leNat ((bytes.drop (4 * i)).take 4) % 2 ^ 32) := by
  obtain ⟨u, hu⟩ : ∃ u, s.dev.ethModPresent e bytes = u := ⟨_, rfl⟩
  obtain ⟨habs, hid⟩ := hu ▸ Dev.ethModPresent_shows s.dev bytes he hs
  exact completes_of_eq (u := (·.ethModPresent e bytes)) rfl hu ⟨(Dev.get_canon _ _).trans habs, fun i hi => (Dev.get_canon _ _).trans (hid i hi)⟩

end Commands

/-- Settles O10: each clause is the lemma of its command; the register words that SMBus answers with are those of `smbusData`. -/
theorem hostAndAuxiliary : Obligations.HostAndAuxiliary := fun _ =>
  ⟨fun perst hp => hostReset_completes hp perst,
    fun speed width hp hh ht => ⟨perstRelease_trains hp hh speed width ht, perstRelease_waits hp hh speed width ht⟩,
    fun bme d3 mask fn ht => ⟨pcieBmeChange_takes bme d3 mask fn ht, pcieBmeChange_retries bme d3 mask fn ht⟩,
    fun _ _ block pec h => smbusRead_nacks block pec h, fun _ block pec _ hs h => smbusRead_serves block pec hs h,
    fun _ => ⟨rfl, rfl⟩, smbusAlertResponse_answers, fun _ bytes he hs => ethModPresent_completes bytes he hs⟩

end Sys2Proof.Machine
end

section
/-! PROOF. O3: each of the 409 commands, and the clock, is a change of the device alone, and what `State.run` answers is in canonical form. -/

namespace Sys2Proof.Machine

/-- An answer that changes the device alone and leaves it in canonical form. -/
def Ran (s : State) (o : Answer) : Prop := ∃ d : Dev, o = .next { s with dev := d.canon }

theorem ran_run (s : State) (u : Dev → Dev) : Ran s (s.run u) := ⟨_, rfl⟩

/-- The meaning of every command is given by `State.run`. -/
theorem ran_exec (i : Instr) (s : State) : Ran s (exec i s) := by
  unfold exec
  split
  all_goals exact ran_run _ _

theorem ran_step (s : State) : ∃ rest, Ran { s with pending := rest } (step s) := by
  unfold step
  split
  · exact ⟨s.pending, ran_run s _⟩
  · next c cs _ => exact ⟨cs, ran_exec c _⟩

/-- Settles O3: what a step answers, from any state, is what `State.run` put into canonical form. -/
theorem stepKeepsCanonical : Obligations.StepKeepsCanonical := by
  intro s t _ hstep
  obtain ⟨rest, d, h⟩ := ran_step s
  obtain rfl : t = ⟨d.canon, rest⟩ := by rw [hstep] at h; exact Host.Outcome.next.inj h
  exact d.canonical_canon

end Sys2Proof.Machine
end

section
/-! PROOF. O13 and O14: what an event and an error record, field by field. -/

namespace Sys2Proof.Machine

namespace Dev

variable (d : Dev)

theorem asserted_iff (p : Nat) : d.asserted p = true ↔ (d.get (F.BLK_IRQ_RAW p) &&& d.get (F.BLK_IRQ_EN p)) ≠ 0 := decide_eq_true_iff

theorem Origin.code_lt (o : Origin) : o.code < 4 := by cases o <;> decide

/-- The fields of BLK_ERR_CODE and BLK_ERR_INFO are calm: the event of an error leaves them alone. -/
theorem calm_errCode (p l w r : Nat) (hl : l < 32) : (⟨bar0 p 0x20, l, w, r⟩ : Fld).calm = true :=
  Fld.calm_header p 0x20 l w r (by decide) hl (by decide) (by decide)
theorem calm_errInfo (p l w r : Nat) (hl : l < 32) : (⟨bar0 p 0x24, l, w, r⟩ : Fld).calm = true :=
  Fld.calm_header p 0x24 l w r (by decide) hl (by decide) (by decide)

/-- A field of another word of the page, or at another bit of the word, reads as before. -/
theorem get_set_header {p o o' l l' w w' r r' : Nat} (v : Nat) (hl : l < 32) (hl' : l' < 32) (h : o ≠ o' ∨ l ≠ l') :
    (d.set ⟨bar0 p o', l', w', r'⟩ v).get ⟨bar0 p o, l, w, r⟩ = d.get ⟨bar0 p o, l, w, r⟩ :=
  get_set_ne d v (by simp only [Fld.key, bar0]; omega)

variable (p : Nat) (e : Err) (detail : Nat) (o : Origin) (w : Nat)

/-- An error raises an ERR event. -/
theorem error_raises : (d.error p e detail o w).testBit (F.BLK_IRQ_RAW p) 0 = true := raise_raw _ p 0 (by decide)

/-- An error into an empty CODE: its description and the next SEQ beside it. -/
theorem error_describes (h : d.get (F.BLK_ERR_CODE_CODE p) = 0) :
    (d.error p e detail o w).get (F.BLK_ERR_CODE_SEQ p) = (d.get (F.BLK_ERR_CODE_SEQ p) + 1) % 16
    ∧ (d.error p e detail o w).get (F.BLK_ERR_INFO_SEQ p) = (d.get (F.BLK_ERR_CODE_SEQ p) + 1) % 16
    ∧ (d.error p e detail o w).get (F.BLK_ERR_INFO_DETAIL p) = detail % 16 ∧ (d.error p e detail o w).get (F.BLK_ERR_INFO_ORIGIN p) = o.code
    ∧ (d.error p e detail o w).get (F.BLK_ERR_INFO_WORD p) = w % 2 ^ 14
    ∧ (d.error p e detail o w).get (F.BLK_ERR_CODE_OVERRUN p) = d.get (F.BLK_ERR_CODE_OVERRUN p) := by
  have ho : o.code % 4 = o.code := Nat.mod_eq_of_lt o.code_lt
  simp [error, h, get_raise, calm_errCode, calm_errInfo, get_set_header, ho]

/-- An error that finds CODE held leaves the description of the first alone. -/
theorem error_keeps_info {l w' r : Nat} (hl : l < 32) (h : d.get (F.BLK_ERR_CODE_CODE p) ≠ 0) :
    (d.error p e detail o w).get ⟨bar0 p 0x24, l, w', r⟩ = d.get ⟨bar0 p 0x24, l, w', r⟩ := by
  simp [error, h, get_raise, calm_errInfo, hl, countSat, get_set_header]

end Dev

/-- Settles O13: the clauses are what the page's interrupt and `Dev.raise` say of themselves; BLK_IRQ_EN is none of the records of an event. -/
theorem eventsCounted : Obligations.EventsCounted := fun d p b hb =>
  ⟨d.asserted_iff p, d.raise_evt p b, d.raise_raw p b hb,
    d.get_raise p b (Fld.calm_header p 0x18 0 32 0 (by decide) (by decide) (by decide) (by decide))⟩

/-- Settles O14, by whether CODE is empty. -/
theorem errorRecord : Obligations.ErrorRecord := fun d p e detail o w =>
  ⟨fun h => ⟨d.error_code p e detail o w h, d.error_describes p e detail o w h⟩,
    fun h => by
      obtain ⟨hcode, hover⟩ := d.error_overrun p e detail o w h
      exact ⟨hcode, hover, d.error_keeps_info p e detail o w (by decide) h, d.error_keeps_info p e detail o w (by decide) h⟩,
    d.error_raises p e detail o w⟩

end Sys2Proof.Machine
end

section
/-! PROOF. O17, and what the commands that stand for register writes share: a write that the gate takes has its effect, and what that effect leaves
alone stays so in canonical form. -/

namespace Sys2Proof.Machine

namespace Dev

variable (d : Dev)

/-- A write that is taken has its effect. -/
theorem gated_of_taken {d : Dev} {page off : Nat} (u : Dev → Dev) (h : d.taken page off) : d.gated page off u = u d := by
  rw [gated, gate_of_taken h]

/-- Fields left alone stay so in canonical form. -/
theorem keepsRegs_canon {d e : Dev} {fs : List Fld} (h : KeepsRegs d e fs) : KeepsRegs d e.canon fs := fun g hg => by rw [get_canon, h g hg]

/-- Memories that are as before read as before in canonical form. -/
theorem keepsMemory_canon {d e : Dev} (hmem : e.mem = d.mem) (hhost : e.host = d.host) (hflash : e.flash = d.flash) (hmram : e.mram = d.mram) :
    KeepsMemory d e.canon := fun a => by simp [byte, canon, hmem, hhost, hflash, hmram]

theorem keepsRegs_set (f : Fld) (v : Nat) : KeepsRegs d (d.set f v) [f] := fun g hg => get_set_ne d v (by simpa using hg)

end Dev

/-- A register write that is taken completes with whatever holds after its effect. -/
theorem completes_of_taken {i : Instr} {s : State} {page off : Nat} {u : Dev → Dev} {P : Dev → Prop} (h : exec i s = s.run (·.gated page off u))
    (ht : s.dev.taken page off) (hP : P (u s.dev).canon) : Completes i s P := completes_of_eq h (Dev.gated_of_taken u ht) hP

namespace Dev

variable (d : Dev)

/-! ### The commit (R69, R70, R23) -/

/-- The sets offered and accepted stand in words 0x50 to 0x6C of page DEV, and DEV_FEAT_COMMIT past them. -/
theorem get_put_commit {o n l w r : Nat} (b : Bool) (ho : o + 4 * n < 0x70) (hl : l < 32) :
    (d.put F.DEV_FEAT_COMMIT_COMMIT b).get ⟨bar0 0 (o + 0x4 * n), l, w, r⟩ = d.get ⟨bar0 0 (o + 0x4 * n), l, w, r⟩ :=
  get_put_ne _ _ (by simp only [Fld.key, bar0]; omega)

theorem acceptSet_put_commit (b : Bool) : (d.put F.DEV_FEAT_COMMIT_COMMIT b).acceptSet = d.acceptSet :=
  List.foldl_ext _ _ _ fun v n hn => by
    have := List.mem_range.mp hn
    rw [get_put_commit d b (by omega) (by decide)]

theorem offerSet_put_commit (b : Bool) : (d.put F.DEV_FEAT_COMMIT_COMMIT b).offerSet = d.offerSet :=
  List.foldl_ext _ _ _ fun v n hn => by
    have := List.mem_range.mp hn
    rw [get_put_commit d b (by omega) (by decide)]

theorem commitFault_put_commit (b : Bool) (set : Nat) : (d.put F.DEV_FEAT_COMMIT_COMMIT b).commitFault set = d.commitFault set := by
  simp only [commitFault, offerSet_put_commit]

theorem lt_of_commitFault {set b : Nat} (h : d.commitFault set = some b) : b < 128 := by
  unfold commitFault at h
  exact List.mem_range.mp (List.mem_of_find?_eq_some h)

section Commit

variable {d}

/-- Validation with the sets as they stand after COMMIT has ended. -/
theorem commitFault_ended {o : Option Nat} (hf : d.commitFault d.acceptSet = o) :
    (d.put F.DEV_FEAT_COMMIT_COMMIT false).commitFault (d.put F.DEV_FEAT_COMMIT_COMMIT false).acceptSet = o := by
  rw [commitFault_put_commit, acceptSet_put_commit, hf]

variable (hs : d.state = 2) (hc : d.bit F.DEV_FEAT_COMMIT_COMMIT = true)
include hs hc

/-- A set that cannot be accepted: RESULT and BIT say why, and nothing else comes of it (R70). Validation is kept abstract: only what it finds matters. -/
theorem commitDone_refused {b : Nat} (hf : d.commitFault d.acceptSet = some b) : d.commitDone =
    (((d.put F.DEV_FEAT_COMMIT_COMMIT false).set F.DEV_FEAT_RESULT_RESULT Err.feature.code).set F.DEV_FEAT_RESULT_BIT b).raise 0 7 := by
  have hended := commitFault_ended hf
  unfold commitDone
  rw [if_neg (by simp [hs, hc])]
  revert hended
  generalize Dev.commitFault = fault
  intro hended
  simp only [hended]

/-- A set that is accepted ends in NEGOTIATED (R69). -/
theorem state_commitDone (hf : d.commitFault d.acceptSet = none) : d.commitDone.state = 3 := by
  have hended := commitFault_ended hf
  unfold commitDone
  rw [if_neg (by simp [hs, hc])]
  revert hended
  generalize Dev.commitFault = fault
  intro hended
  simp only [hended]
  exact state_moveState _ 3 1 0 (by decide)

end Commit

end Dev

/-! ### The commands complete -/

section Commands

variable {s : State}

theorem devFeatCommit_starts {v : Nat} (ht : s.dev.taken 0 0x70) (hs : s.dev.state = 2) (hv : v % 2 = 1) : Completes (.devFeatCommit v) s (fun d =>
    d.bit F.DEV_FEAT_COMMIT_COMMIT = true ∧ KeepsRegs s.dev d [F.DEV_FEAT_COMMIT_COMMIT] ∧ KeepsMemory s.dev d) := by
  have hput : s.dev.featCommit v = s.dev.put F.DEV_FEAT_COMMIT_COMMIT true := by simp [Dev.featCommit, hs, hv]
  refine completes_of_taken (u := (·.featCommit v)) rfl ht ?_
  rw [hput]
  refine ⟨?_, Dev.keepsRegs_canon (Dev.keepsRegs_set _ _ _), Dev.keepsMemory_canon rfl rfl rfl rfl⟩
  rw [Dev.bit_canon, Dev.bit, Dev.get_put_self _ _ _ one_ne_zero]
  rfl

theorem devFeatCommit_refuses {v : Nat} (ht : s.dev.taken 0 0x70) (hs : s.dev.state ≠ 2) (h₀ : s.dev.get (F.BLK_ERR_CODE_CODE 0) = 0) :
    Completes (.devFeatCommit v) s (fun d =>
      d.get (F.BLK_ERR_CODE_CODE 0) = 1 ∧ d.bit F.DEV_FEAT_COMMIT_COMMIT = s.dev.bit F.DEV_FEAT_COMMIT_COMMIT) := by
  have href : s.dev.featCommit v = s.dev.refuse 0 0x70 .state := by simp [Dev.featCommit, hs]
  refine completes_of_taken (u := (·.featCommit v)) rfl ht ?_
  rw [href]
  exact ⟨by rw [Dev.get_canon, Dev.refuse_code _ _ _ _ _ h₀]; rfl, by rw [Dev.bit_canon, Dev.bit, Dev.get_refuse _ _ _ _ _ rfl]; rfl⟩

theorem commitDone_completes_refused {b : Nat} (hs : s.dev.state = 2) (hc : s.dev.bit F.DEV_FEAT_COMMIT_COMMIT = true)
    (hf : s.dev.commitFault s.dev.acceptSet = some b) : Completes .commitDone s (fun d => d.state = 2 ∧ d.get F.DEV_FEAT_RESULT_RESULT = 5
      ∧ d.get F.DEV_FEAT_RESULT_BIT = b ∧ d.accepted = s.dev.accepted ∧ d.testBit (F.BLK_IRQ_RAW 0) 7 = true) := by
  have hb := s.dev.lt_of_commitFault hf
  refine completes_of_eq (u := (·.commitDone)) rfl (Dev.commitDone_refused hs hc hf) ⟨?_, ?_, ?_, ?_, ?_⟩
  · rw [Dev.state_canon, Dev.state, Dev.get_raise _ _ _ rfl, Dev.get_set_ne _ _ (by decide), Dev.get_set_ne _ _ (by decide),
      Dev.get_put_ne _ _ (by decide)]
    exact hs
  · rw [Dev.get_canon, Dev.get_raise _ _ _ rfl, Dev.get_set_ne _ _ (by decide), Dev.get_set_self]
    rfl
  · rw [Dev.get_canon, Dev.get_raise _ _ _ rfl, Dev.get_set_self]
    exact Nat.mod_eq_of_lt (by simp only; omega)
  · rw [Dev.canon_accepted]
    exact (congrArg Dev.accepted (Dev.unrecorded_raise _ 0 7) :)
  · rw [Dev.testBit_canon]
    exact Dev.raise_raw _ _ _ (by decide)

theorem commitDone_completes_accepted (hs : s.dev.state = 2) (hc : s.dev.bit F.DEV_FEAT_COMMIT_COMMIT = true)
    (hf : s.dev.commitFault s.dev.acceptSet = none) : Completes .commitDone s (fun d => d.state = 3) :=
  completes_of_run (u := (·.commitDone)) rfl (by rw [Dev.state_canon, Dev.state_commitDone hs hc hf])

end Commands

/-- Settles O17: each clause is the lemma of its command; validation reads nothing that the end of COMMIT changes. -/
theorem negotiation : Obligations.Negotiation := fun _ _ =>
  ⟨devFeatCommit_starts, devFeatCommit_refuses, fun _ => commitDone_completes_refused, commitDone_completes_accepted⟩

end Sys2Proof.Machine
end

section
/-! PROOF. O20, the commands of the level, the role, service and reset. A record given to a link that is up goes out whole; the change of level, of role or
the reset is what the lemmas of O6 and O19 say of it. -/

namespace Sys2Proof.Machine

namespace Dev

variable (d : Dev) {f : Fld}

/-! ### Records of the token (R509, R518) -/

/-- A record given to a link that is up leaves at once, with its first word and its payload as given. -/
theorem merSend_out (typ hi units : Nat) (pl : List Nat) (hup : d.bit F.TWIN_STAT_LINK_UP = true) : ∃ ws,
    (d.merSend typ hi units pl).out = .meridian ws (d.stripes ws) :: d.out ∧ ws.head? = some (hi * 2 ^ 16 + units * 2 ^ 8 + typ)
      ∧ ∀ n < pl.length, ws.getD (2 + n) 0 = pl.getD n 0 := by
  unfold merSend
  rw [if_neg (by simp [hup])]
  refine ⟨_, rfl, rfl, fun n hn => ?_⟩
  simp [List.getD_eq_getElem?_getD, Nat.add_comm 2, List.getElem?_append_left, hn]

/-- HANDOVER offers the token with the next EPOCH. -/
theorem handover_offers (hl : d.isLead = true) (hp : d.bit F.TWIN_STAT_PARTNER_OK = true) (hup : d.bit F.TWIN_STAT_LINK_UP = true)
    (ho : d.mer.offer = none) : d.handover = d.sendOffer .command := by
  simp [handover, hl, hp, hup, ho]

/-- REQUEST asks for it. -/
theorem request_asks (h₇ : d.state ≠ 7) (hs : d.isShadow = true) (hp : d.bit F.TWIN_STAT_PARTNER_OK = true)
    (hup : d.bit F.TWIN_STAT_LINK_UP = true) : d.request = d.merSend 0x02 (d.get F.TWIN_TOKEN_EPOCH) 1 [3] := by
  simp [request, h₇, hs, hp, hup]

/-! ### The token taken by force (R513) -/

theorem get_metSlot (n : Nat) (bytes : List Nat) : (d.metSlot n bytes).get f = d.get f := by
  rw [metSlot, get_setMetPort, get_ite, get_emit, ite_self]

/-- A beacon shows CLAIM and EPOCH in its port's MET_TOKEN, and writes no other field. -/
theorem get_sendBeacon (n sub k value : Nat) (h : ∀ l w r, l < 32 → f.key ≠ (⟨bar0 (129 + n) 0x50, l, w, r⟩ : Fld).key) :
    (d.sendBeacon n sub k value).get f = d.get f := by
  unfold sendBeacon
  extract_lets d₁ t x d₂
  have h₁ : d₁.get f = d.get f := by rw [get_set_ne _ _ (h _ _ _ (by decide)), get_put_ne _ _ (h _ _ _ (by decide))]
  have h₂ : d₂.get f = d₁.get f := by rw [get_ite, get_setMetPort, ite_self]
  rw [metSend, get_foldl _ fun d _ => get_metSlot d _ _, h₂, h₁]

/-- The token's own fields stand behind the Meteor ports'. -/
theorem get_claimBeacons (o l w r : Nat) : d.claimBeacons.get ⟨bar0 0x90 o, l, w, r⟩ = d.get ⟨bar0 0x90 o, l, w, r⟩ :=
  get_foldl_range d 8 fun d n hn => by
    rw [get_ite, get_sendBeacon _ _ _ _ _ fun l' w' r' hl' => by simp only [Fld.key, bar0]; omega, ite_self]

/-- The device that has taken the token is lead and holds it. -/
theorem takeToken_leads : d.takeToken.get F.TWIN_TOKEN_HELD = 1 ∧ d.takeToken.role = 1 := by
  unfold takeToken role
  extract_lets seg d₁
  rw [get_claimBeacons, get_claimBeacons, get_count_ne _ _ (by decide), get_count_ne _ _ (by decide)]
  unfold becomeLead setRole setDt
  rw [get_raise _ _ _ rfl, get_raise _ _ _ rfl]
  refine ⟨?_, ?_⟩
  · rw [get_set_ne _ _ (by decide), get_set_ne _ _ (by decide), get_set_ne _ _ (by decide), get_put_self _ _ _ one_ne_zero]
    rfl
  · rw [get_set_ne _ _ (by decide), get_set_ne _ _ (by decide), get_set_self]
    rfl

theorem force_takes (h₇ : d.state ≠ 7) (hr : d.role = 2 ∨ d.role = 3) (hc : d.laneClockLost = false) : d.force = d.takeToken.complete .ok := by
  unfold force
  rw [if_neg h₇, if_neg (by simpa using fun h₂ => hr.resolve_left h₂), if_neg (by simp [hc])]

/-! ### RESUME and SERVICE (R72, R76, R525) -/

theorem state_resume (h : d.arg 0 ≠ d.state) (hu : d.sourceUsable (d.arg 0) = true) (ht : d.arg 0 < 16) :
    d.resume.state = d.arg 0 ∧ d.resume.cmd = none := by
  unfold resume
  extract_lets t d₁
  rw [if_neg h, if_neg (by simp [show d.sourceUsable t = true from hu])]
  refine ⟨?_, complete_cmd _ _ _ _⟩
  have h₁ : d₁.state = t := state_moveState d t 1 0 ht
  rw [state_complete, state, get_ite, get_takeRole _ Fld.early_devState, ite_self]
  exact h₁

theorem serviceEnter_forced (hf : d.feat 1 = false) (ha : d.arg 0 % 2 = 1) : d.serviceEnter = d.enterService := by
  simp [serviceEnter, hf, ha]

/-- SERVICE is entered whatever was under way. -/
theorem enterService_ends : d.enterService.state = 8 ∧ d.enterService.cmd = none := by
  unfold enterService
  extract_lets d₁ d₂ d₃
  exact ⟨(state_complete _ _ _ _).trans (state_moveState _ 8 1 0 (by decide)), complete_cmd _ _ _ _⟩

/-! ### What bringing lanes and balls up to date leaves alone -/

/-- The device without what bringing a lane, the Meridian link or a ball up to date may change. -/
def unshown (d : Dev) : Dev := { d.unrecorded with pins := [], lanes := [], mer := {} }

theorem unshown_of_unrecorded {d e : Dev} (h : e.unrecorded = d.unrecorded) : e.unshown = d.unshown := by rw [unshown, unshown, h]

theorem cmd_of_unshown {d e : Dev} (h : e.unshown = d.unshown) : e.cmd = d.cmd := (congrArg Dev.cmd h :)
theorem boot_of_unshown {d e : Dev} (h : e.unshown = d.unshown) : e.boot = d.boot := (congrArg Dev.boot h :)

@[simp] theorem unshown_set (g : Fld) (v : Nat) : (d.set g v).unshown = d.unshown := rfl
@[simp] theorem unshown_put (g : Fld) (b : Bool) : (d.put g b).unshown = d.unshown := rfl
@[simp] theorem unshown_putBit (g : Fld) (k : Nat) (b : Bool) : (d.putBit g k b).unshown = d.unshown := rfl
@[simp] theorem unshown_setS (g : Fld) (i : Int) : (d.setS g i).unshown = d.unshown := rfl
@[simp] theorem unshown_count (g : Fld) (n : Nat) : (d.count g n).unshown = d.unshown := rfl
@[simp] theorem unshown_setPin (p : Pin) (l : Level) : (d.setPin p l).unshown = d.unshown := rfl
@[simp] theorem unshown_setLane (l : Nat) (x : Lane) : (d.setLane l x).unshown = d.unshown := rfl
@[simp] theorem unshown_raise (p b : Nat) : (d.raise p b).unshown = d.unshown := unshown_of_unrecorded (unrecorded_raise d p b)

theorem unshown_ite (c : Prop) [Decidable c] (a b : Dev) : (if c then a else b).unshown = if c then a.unshown else b.unshown :=
  apply_ite unshown c a b

theorem unshown_foldl {α : Type} {step : Dev → α → Dev} (h : ∀ d a, (step d a).unshown = d.unshown) (l : List α) :
    (l.foldl step d).unshown = d.unshown := foldl_keeps unshown (fun d a _ e => e ▸ h d a) l d

theorem unshown_abandonJoin : d.abandonJoin.unshown = d.unshown := by
  unfold abandonJoin
  extract_lets p
  split <;> rfl

theorem unshown_merRefresh : d.merRefresh.unshown = d.unshown := by
  unfold merRefresh
  extract_lets ms was d₁ m d₂
  split
  · rfl
  · have h₂ : d₂.unshown = d₁.unshown := by
      simp only [d₂]
      split
      · rfl
      · rw [unshown_ite, unshown_abandonJoin, unshown_count, ite_self]
    rw [unshown_raise, h₂, unshown_put, unshown_set]

theorem unshown_laneShow (l : Nat) : (d.laneShow l).unshown = d.unshown := by
  unfold laneShow
  extract_lets g k x d₁ d₂ d₃
  have h₂ : d₂.unshown = d.unshown := by rw [unshown_ite, unshown_put, ite_self, unshown_setLane]
  rw [unshown_ite, unshown_merRefresh, ite_self, unshown_set, h₂]

theorem unshown_resettle (l : Nat) : (d.resettle l).unshown = d.unshown := by
  unfold resettle
  extract_lets x
  rw [unshown_ite, unshown_laneShow, unshown_setLane, ite_self]

theorem unshown_relayUpdate (p : Nat) : (d.relayUpdate p).unshown = d.unshown := by
  unfold relayUpdate
  split
  · rfl
  · rw [unshown_put, unshown_foldl _ fun d c => unshown_setPin d _ _]

/-! ### Resets (R79, R556) -/

theorem warmDev_drops : d.warmDev.cmd = none ∧ d.warmDev.boot.trial = d.boot.trial := by
  have h : d.commitCut.boot = d.boot := (congrArg Dev.boot (uncut_commitCut d) :)
  unfold warmDev
  extract_lets lost c power boot c₁ c₂
  have h₂ : c₂.cmd = none ∧ c₂.boot.trial = d.boot.trial := ⟨rfl, congrArg (·.trial) h⟩
  have hview : ((List.range 8).foldl relayUpdate ((List.range 96).foldl resettle c₂)).unshown = c₂.unshown := by
    rw [unshown_foldl _ fun d p => unshown_relayUpdate d p, unshown_foldl _ fun d l => unshown_resettle d l]
  rw [cmd_of_unshown hview, boot_of_unshown hview]
  exact h₂

theorem warmReset_drops (cause : Nat) (hp : d.power.porstLow = false) (ht : d.power.tripHold = false) :
    (d.warmReset cause).cmd = none ∧ (d.warmReset cause).boot.trial = d.boot.trial := by
  obtain ⟨m, o, hsend⟩ := merSend_eq d 0x03 0 1 [0x0A]
  obtain ⟨hcmd, hboot⟩ := warmDev_drops (d.merSend 0x03 0 1 [0x0A])
  have hsame : (d.merSend 0x03 0 1 [0x0A]).boot = d.boot := by rw [hsend]
  rw [hsame] at hboot
  rw [warmReset_eq d cause hp ht]
  generalize (d.merSend 0x03 0 1 [0x0A]).warmDev = e at hcmd hboot
  split
  · exact ⟨hcmd, hboot⟩
  · exact ⟨hcmd, hboot⟩

theorem boot_setMram (a : Nat) (bs : List Nat) : (d.setMram a bs).boot = d.boot := (congrArg Dev.boot (uncut_setMram d a bs) :)
theorem power_setMram (a : Nat) (bs : List Nat) : (d.setMram a bs).power = d.power := (congrArg Dev.power (uncut_setMram d a bs) :)

theorem trial_setBootRecord (active : Nat) (staged : Option Nat) (trial : Bool) : (d.setBootRecord active staged trial).boot.trial = trial := by
  unfold setBootRecord
  rw [boot_setMram, boot_setMram]

theorem power_setBootRecord (active : Nat) (staged : Option Nat) (trial : Bool) : (d.setBootRecord active staged trial).power = d.power := by
  unfold setBootRecord
  rw [power_setMram, power_setMram]

/-- A staged image is activated by a trial boot. -/
theorem fwActivate_boots (hst : d.get F.SEC_FW_STAT_STAGE = 2) (hsrc : d.get F.DEV_STRAPS_BOOT_SRC = 0) :
    d.fwActivate = (d.setBootRecord d.boot.active d.boot.staged true).warmReset 3 := by
  simp [fwActivate, hst, hsrc]

end Dev

/-! ### The commands complete -/

section Commands

variable {s : State}

theorem enterTwilight_completes (he : s.dev.executing 0x22 = true) (hs : s.dev.state = 5) :
    Completes .enterTwilight s (fun d => d.state = 6 ∧ d.cmd = none) :=
  completes_of_vesper rfl he (Dev.cmdLegal_of_mem rfl (by simp [hs])) (Dev.complete_after _ (Dev.state_enterTwilight _ 1 0) .ok)

theorem enterEclipse_completes (he : s.dev.executing 0x23 = true) (hs : s.dev.state = 5 ∨ s.dev.state = 6) :
    Completes .enterEclipse s (fun d => d.state = 7 ∧ d.cmd = none) :=
  completes_of_vesper rfl he (Dev.cmdLegal_of_mem rfl (by rcases hs with hs | hs <;> simp [hs]))
    (Dev.complete_after _ (Dev.state_enterEclipse _ 1 0) .ok)

theorem resume_completes (he : s.dev.executing 0x24 = true) (hs : s.dev.state = 6 ∨ s.dev.state = 7) (hne : s.dev.arg 0 ≠ s.dev.state)
    (ha : s.dev.arg 0 = 5 ∨ s.dev.arg 0 = 6) (hu : s.dev.sourceUsable (s.dev.arg 0) = true) :
    Completes .resume s (fun d => d.state = s.dev.arg 0 ∧ d.cmd = none) := by
  obtain ⟨hstate, hcmd⟩ := s.dev.state_resume hne hu (by omega)
  exact completes_of_vesper (u := (·.resume)) rfl he (Dev.cmdLegal_of_mem rfl (by rcases hs with hs | hs <;> simp [hs]))
    ⟨by rw [Dev.state_canon, hstate], hcmd⟩

/-- A command of the token has its operation in ARG0. -/
theorem completes_of_token {i : Instr} {n : Nat} {u : Dev → Dev} {P : Dev → Prop}
    (h : exec i s = s.run (fun d => if d.arg 0 = n then d.vesper 0x28 u else d)) (he : s.dev.executing 0x28 = true) (hs : s.dev.sorting = true)
    (ha : s.dev.arg 0 = n) (hP : P (u s.dev).canon) : Completes i s P := by
  refine completes_of_run h ?_
  have hl : s.dev.cmdLegal 0x28 = true := Dev.cmdLegal_of_mem rfl (by simpa [Dev.sorting, or_assoc] using hs)
  rw [if_pos ha, Dev.vesper_legal _ _ he hl]
  exact hP

theorem handover_completes (he : s.dev.executing 0x28 = true) (hs : s.dev.sorting = true) (ha : s.dev.arg 0 = 0) (hl : s.dev.isLead = true)
    (hp : s.dev.bit F.TWIN_STAT_PARTNER_OK = true) (hup : s.dev.bit F.TWIN_STAT_LINK_UP = true) (ho : s.dev.mer.offer = none) :
    Completes .handover s (fun d => d.mer.offer = some ((s.dev.get F.TWIN_TOKEN_EPOCH + 1) % 65536, .command)
      ∧ ∃ ws, d.out = .meridian ws (s.dev.stripes ws) :: s.dev.out
        ∧ ws.head? = some ((s.dev.get F.TWIN_TOKEN_EPOCH + 1) % 65536 * 2 ^ 16 + 0x102)) := by
  refine completes_of_token (u := (·.handover)) rfl he hs ha ?_
  rw [s.dev.handover_offers hl hp hup ho]
  obtain ⟨ws, hout, hhead, -⟩ := s.dev.merSend_out 0x02 ((s.dev.get F.TWIN_TOKEN_EPOCH + 1) % 65536) 1 [0] hup
  exact ⟨rfl, ws, hout, hhead⟩

theorem request_completes (he : s.dev.executing 0x28 = true) (hs : s.dev.sorting = true) (h₇ : s.dev.state ≠ 7) (ha : s.dev.arg 0 = 1)
    (hl : s.dev.isShadow = true) (hp : s.dev.bit F.TWIN_STAT_PARTNER_OK = true) (hup : s.dev.bit F.TWIN_STAT_LINK_UP = true) :
    Completes .request s (fun d => ∃ ws, d.out = .meridian ws (s.dev.stripes ws) :: s.dev.out ∧ ws.getD 2 0 = 3) := by
  refine completes_of_token (u := (·.request)) rfl he hs ha ?_
  rw [s.dev.request_asks h₇ hl hp hup]
  obtain ⟨ws, hout, -, hpay⟩ := s.dev.merSend_out 0x02 (s.dev.get F.TWIN_TOKEN_EPOCH) 1 [3] hup
  exact ⟨ws, hout, hpay 0 (by decide)⟩

theorem force_completes (he : s.dev.executing 0x28 = true) (hs : s.dev.sorting = true) (h₇ : s.dev.state ≠ 7) (ha : s.dev.arg 0 = 2)
    (hr : s.dev.role = 2 ∨ s.dev.role = 3) (hc : s.dev.laneClockLost = false) :
    Completes .force s (fun d => d.get F.TWIN_TOKEN_HELD = 1 ∧ d.role = 1 ∧ d.cmd = none) := by
  refine completes_of_token (u := (·.force)) rfl he hs ha ?_
  obtain ⟨hheld, hrole⟩ := s.dev.takeToken_leads
  rw [s.dev.force_takes h₇ hr hc]
  generalize s.dev.takeToken = d at hheld hrole
  refine ⟨?_, ?_, (Dev.canon_cmd _).trans (d.complete_cmd .ok 0 [])⟩
  · rw [Dev.get_canon, Dev.get_complete _ _ _ _ rfl rfl, hheld]
  · rw [Dev.role, Dev.get_canon, Dev.get_complete _ _ _ _ rfl rfl]
    exact hrole

theorem serviceEnter_completes (he : s.dev.executing 0x30 = true) (hl : s.dev.cmdLegal 0x30 = true) (hf : s.dev.feat 1 = false)
    (ha : s.dev.arg 0 % 2 = 1) : Completes .serviceEnter s (fun d => d.state = 8 ∧ d.cmd = none) := by
  refine completes_of_vesper (u := (·.serviceEnter)) rfl he hl ?_
  obtain ⟨hstate, hcmd⟩ := s.dev.enterService_ends
  rw [s.dev.serviceEnter_forced hf ha]
  exact ⟨by rw [Dev.state_canon, hstate], hcmd⟩

theorem serviceExit_completes (he : s.dev.executing 0x31 = true) (hs : s.dev.state = 8) :
    Completes .serviceExit s (fun d => d.state = 4 ∧ d.cmd = none) :=
  completes_of_vesper rfl he (Dev.cmdLegal_of_mem rfl (by simp [hs])) (Dev.complete_after _ (Dev.state_enterConfigured _) .ok)

theorem deviceReset_completes (he : s.dev.executing 0x38 = true) (hl : s.dev.cmdLegal 0x38 = true) (hp : s.dev.power.porstLow = false)
    (ht : s.dev.power.tripHold = false) :
    Completes .deviceReset s (fun d => d.state = 1 ∧ d.get F.DEV_RESET_CAUSE_CAUSE = 3 ∧ d.cmd = none) :=
  completes_of_vesper (u := (·.warmReset 3)) rfl he hl ⟨by rw [Dev.state_canon, Dev.state_warmReset _ _ hp ht],
    by rw [Dev.get_canon, Dev.cause_warmReset _ _ hp ht (by decide)], (Dev.warmReset_drops _ 3 hp ht).1⟩

theorem fwActivate_completes (he : s.dev.executing 0x62 = true) (hl : s.dev.cmdLegal 0x62 = true) (hp : s.dev.power.porstLow = false)
    (ht : s.dev.power.tripHold = false) (hst : s.dev.get F.SEC_FW_STAT_STAGE = 2) (hsrc : s.dev.get F.DEV_STRAPS_BOOT_SRC = 0) :
    Completes .fwActivate s (fun d => d.state = 1 ∧ d.get F.DEV_RESET_CAUSE_CAUSE = 3 ∧ d.boot.trial = true) := by
  refine completes_of_vesper (u := (·.fwActivate)) rfl he hl ?_
  rw [s.dev.fwActivate_boots hst hsrc]
  have htrial := s.dev.trial_setBootRecord s.dev.boot.active s.dev.boot.staged true
  rw [← s.dev.power_setBootRecord s.dev.boot.active s.dev.boot.staged true] at hp ht
  generalize s.dev.setBootRecord s.dev.boot.active s.dev.boot.staged true = d at htrial hp ht
  exact ⟨by rw [Dev.state_canon, Dev.state_warmReset _ _ hp ht], by rw [Dev.get_canon, Dev.cause_warmReset _ _ hp ht (by decide)],
    (d.warmReset_drops 3 hp ht).2.trans htrial⟩

end Commands

/-- Settles O20: each clause is the lemma of its command. -/
theorem levelCommands : Obligations.LevelCommands := fun _ =>
  ⟨enterTwilight_completes, enterEclipse_completes, resume_completes, handover_completes, request_completes, force_completes, serviceEnter_completes,
    serviceExit_completes, deviceReset_completes, fwActivate_completes⟩

end Sys2Proof.Machine
end

section
/-! PROOF. O18, the mailbox. What a lane shows, and what the blocks write of themselves, stands behind a page's header and behind the first sixteen
pages; what ends with a command that has run out leaves the command in hand. -/

namespace Sys2Proof.Machine

/-- A calm field of a page's header, or of one of the first sixteen pages: no lane, no port and no engine shows anything there. -/
def Fld.aside (f : Fld) : Prop := f.calm = true ∧ (f.key / 32 % 0x1_0000 < 0x40 ∨ f.key < 0x10 * 0x1_0000 * 32)

theorem Fld.ne_of_aside {f : Fld} (hf : f.aside) {p o l w r : Nat} (hp : 0x10 ≤ p) (ho : 0x40 ≤ o) (ho' : o < 0x1_0000) (hl : l < 32) :
    f.key ≠ (⟨bar0 p o, l, w, r⟩ : Fld).key := fun h => by
  have h₂ := hf.2
  simp only [key, bar0] at *
  omega

/-- The fields of a page's header are aside, but for BLK_IRQ_RAW and BLK_EVT_CNT. -/
theorem Fld.aside_header (p o l w r : Nat) (ho : o < 0x40) (hl : l < 32) (h₁ : o ≠ 0x14) (h₂ : o ≠ 0x28) : (⟨bar0 p o, l, w, r⟩ : Fld).aside :=
  ⟨calm_header p o l w r ho hl h₁ h₂, .inl (by simp only [key, bar0]; omega)⟩

theorem Fld.aside_busy : F.CMD_STATUS_BUSY.aside := ⟨rfl, .inr (by decide)⟩
theorem Fld.aside_devState : F.DEV_STATE_STATE.aside := ⟨rfl, .inr (by decide)⟩

namespace Dev

variable (d : Dev) {f : Fld}

/-! ### Lanes, links and engines leave alone what is aside -/

section Aside

variable (hf : f.aside)
include hf

theorem get_raise_aside (p b : Nat) : (d.raise p b).get f = d.get f := get_raise d p b hf.1

section Behind

variable {p o l w r : Nat} (hp : 0x10 ≤ p) (ho : 0x40 ≤ o) (ho' : o < 0x1_0000) (hl : l < 32)
include hp ho ho' hl

theorem get_set_aside (v : Nat) : (d.set ⟨bar0 p o, l, w, r⟩ v).get f = d.get f := get_set_ne d v (Fld.ne_of_aside hf hp ho ho' hl)
theorem get_put_aside (b : Bool) : (d.put ⟨bar0 p o, l, w, r⟩ b).get f = d.get f := get_put_ne d b (Fld.ne_of_aside hf hp ho ho' hl)
theorem get_count_aside (n : Nat) : (d.count ⟨bar0 p o, l, w, r⟩ n).get f = d.get f := get_count_ne d n (Fld.ne_of_aside hf hp ho ho' hl)

end Behind

theorem get_abandonJoin_aside : d.abandonJoin.get f = d.get f := by
  unfold abandonJoin
  extract_lets p
  split
  · rfl
  · rw [get_put_aside _ hf (by decide) (by decide) (by decide) (by decide), get_set_aside _ hf (by decide) (by decide) (by decide) (by decide)]
    rfl

theorem get_merRefresh_aside : d.merRefresh.get f = d.get f := by
  unfold merRefresh
  extract_lets ms was d₁ m d₂
  split
  · rfl
  · have h₁ : d₁.get f = d.get f := by
      rw [get_put_aside _ hf (by decide) (by decide) (by decide) (by decide), get_set_aside _ hf (by decide) (by decide) (by decide) (by decide)]
    have h₂ : d₂.get f = d₁.get f := by
      simp only [d₂]
      clear_value d₁
      split
      · rfl
      · rw [get_ite, get_abandonJoin_aside _ hf, get_count_aside _ hf (by decide) (by decide) (by decide) (by decide), ite_self]
    rw [get_raise_aside _ hf, h₂, h₁]

/-- A lane shows itself on its group's page, behind the header. -/
theorem get_laneShow_aside (l : Nat) : (d.laneShow l).get f = d.get f := by
  unfold laneShow
  extract_lets g k x d₁ d₂ d₃
  have h₂ : d₂.get f = d₁.get f := by rw [get_ite, get_put_aside _ hf (by omega) (by omega) (by omega) (by decide), ite_self]
  have h₃ : d₃.get f = d₂.get f := get_set_aside _ hf (by omega) (by omega) (by omega) (by decide) _
  rw [get_ite, get_merRefresh_aside _ hf, ite_self, h₃, h₂]
  rfl

theorem get_setEq_aside (l ctle : Nat) (dfe : List Int) : (d.setEq l ctle dfe).get f = d.get f := by
  unfold setEq
  extract_lets d₁ d₂ d₃
  have h : ∀ (d : Dev) (o b w r v : Nat), 0x80 ≤ o → o < 0x100 → b < 32 → (d.set ⟨bar0 (32 + l / 8) (o + 0x20 * (l % 8)), b, w, r⟩ v).get f = d.get f :=
    fun d o b w r v ho ho' hb => get_set_aside d hf (by omega) (by omega) (by omega) hb v
  rw [setS, h _ _ _ _ _ _ (by decide) (by decide) (by decide)]
  have h₃ : d₃.get f = d₂.get f := h _ _ _ _ _ _ (by decide) (by decide) (by decide)
  have h₂ : d₂.get f = d₁.get f := h _ _ _ _ _ _ (by decide) (by decide) (by decide)
  have h₁ : d₁.get f = d.get f := h _ _ _ _ _ _ (by decide) (by decide) (by decide)
  rw [h₃, h₂, h₁]

theorem get_adaptAbort_aside : d.adaptAbort.get f = d.get f :=
  get_foldl d (fun d l => by
    split
    · rfl
    · extract_lets x d₁
      have h₁ : d₁.get f = d.get f := by rw [get_ite, get_setEq_aside _ hf, ite_self]
      rw [get_laneShow_aside _ hf, get_setLane, h₁]) _

theorem get_scanBegin_aside (l : Nat) : (d.scanBegin l).get f = d.get f := by
  rw [scanBegin, get_ite, get_laneShow_aside _ hf, get_setLane, ite_self]

theorem get_scanEnd_aside (l : Nat) : (d.scanEnd l).get f = d.get f := by rw [scanEnd, get_laneShow_aside _ hf, get_setLane]

theorem get_relayUpdate_aside (p : Nat) : (d.relayUpdate p).get f = d.get f :=
  get_relayUpdate d p fun _ => Fld.ne_of_aside hf (by omega) (by decide) (by decide) (by decide)

/-- A change of engines leaves alone what the change itself and the events of emptied pools leave alone. -/
theorem get_poolChange_aside {u : Dev → Dev} (hu : (u d).get f = d.get f) : (d.poolChange u).get f = d.get f :=
  (get_foldl (u d) (fun x s => by rw [get_ite, get_raise_aside _ hf, ite_self]) _).trans hu

theorem get_engTest_aside (e : Nat) (v : Bool) (h : f.key ≠ (F.BLK_STAT_TEST (engPage e)).key) : (d.engTest e v).get f = d.get f :=
  get_poolChange_aside d hf (get_put_ne d v h)

/-- What begins with a command stands behind the headers, but for the TEST of an engine. -/
theorem get_beginCmd_aside (code : Nat) (args : List Nat) (h : ∀ e, f.key ≠ (F.BLK_STAT_TEST (engPage e)).key) :
    (d.beginCmd code args).get f = d.get f := by
  rw [beginCmd, get_ite, get_ite, get_engTest_aside _ hf _ _ (h _), get_scanBegin_aside _ hf, ite_self, ite_self]

end Aside

/-! ### The command in hand -/

theorem unshown_poolChange {u : Dev → Dev} (hu : (u d).unshown = d.unshown) : (d.poolChange u).unshown = d.unshown :=
  (unshown_foldl (u d) (fun x s => by rw [unshown_ite, unshown_raise, ite_self]) _).trans hu

theorem unshown_engTest (e : Nat) (v : Bool) : (d.engTest e v).unshown = d.unshown := unshown_poolChange d rfl

theorem unshown_scanBegin (l : Nat) : (d.scanBegin l).unshown = d.unshown := by
  rw [scanBegin, unshown_ite, unshown_laneShow, unshown_setLane, ite_self]

theorem unshown_beginCmd (code : Nat) (args : List Nat) : (d.beginCmd code args).unshown = d.unshown := by
  rw [beginCmd, unshown_ite, unshown_ite, unshown_engTest, unshown_scanBegin, ite_self, ite_self]

theorem unshown_setEq (l ctle : Nat) (dfe : List Int) : (d.setEq l ctle dfe).unshown = d.unshown := by simp only [setEq, unshown_setS, unshown_set]

theorem unshown_adaptAbort : d.adaptAbort.unshown = d.unshown :=
  unshown_foldl d (fun d l => by
    split
    · rfl
    · extract_lets x d₁
      have h₁ : d₁.unshown = d.unshown := by rw [unshown_ite, unshown_setEq, ite_self]
      rw [unshown_laneShow, unshown_setLane, h₁]) _

theorem cmd_freeBatch (ctxs slots : List Nat) : (d.freeBatch ctxs slots).cmd = d.cmd := by
  unfold freeBatch
  extract_lets q seg d₁
  have h₁ : d₁.cmd = d.cmd := (apply_ite Dev.cmd _ _ _).trans (ite_self _)
  refine (foldl_keeps_of_mem Dev.cmd _ (fun d s _ => ?_) d₁).trans h₁
  extract_lets p q d₂
  exact (apply_ite Dev.cmd _ _ _).trans (ite_self _)

theorem cmd_storeShow : d.storeShow.cmd = d.cmd := rfl

theorem cmd_stopRewind : d.stopRewind.cmd = d.cmd := by
  unfold stopRewind
  extract_lets open_ q n d₁ seg d₂ d₃
  have h₁ : d₁.cmd = d.cmd := foldl_keeps_range Dev.cmd 8 (fun d g _ => by rfl) d
  have h₃ : d₃.cmd = d₂.cmd := cmd_of_unrecorded (unrecorded_foldl d₂ (fun d _ => unrecorded_raise d _ _) _)
  rw [cmd_freeBatch, count_cmd, cmd_storeShow, h₃]
  clear_value d₁
  exact h₁

theorem cmd_cancelAll (n : Nat) : (d.cancelAll n).cmd = d.cmd := by
  unfold cancelAll
  extract_lets x d₁
  rw [apply_ite Dev.cmd, cmd_metShow, cmd_metShow, foldl_keeps_of_mem Dev.cmd _ (fun d k _ => cmd_setMetPort d n _), ite_self]
  exact cmd_setMetPort d n _

theorem cmd_cancelEverything : d.cancelEverything.cmd = d.cmd := by
  unfold cancelEverything
  extract_lets d₁
  have h₁ : d₁.cmd = d.cmd := foldl_keeps_range Dev.cmd 8 (fun d n _ => cmd_cancelAll d n) d
  clear_value d₁
  exact h₁

theorem cmd_haltBodies : d.haltBodies.cmd = d.cmd := by
  rw [haltBodies, cmd_cancelEverything, cmd_dropBodies, cmd_abandonAll, cmd_stopRewind]

/-- Outside sorting, and with no drain under way, an orphan is only marked: the planner takes no verdict (R328). -/
theorem releaseOrphan_idle (h₄ : d.state = 4) (hd : d.plan.drain = false) (id : Nat) :
    d.releaseOrphan id = d.updBody id (fun b => { b with entry := .orphan }) := by
  have hplan : ∀ b, ((d.updBody id (fun b => { b with entry := .orphan })).route b).1 = d.updBody id (fun b => { b with entry := .orphan }) := fun b => by
    have h : (d.updBody id (fun b => { b with entry := .orphan })).planning = false := by
      have hs : (d.updBody id (fun b => { b with entry := .orphan })).state = 4 := h₄
      have hp : (d.updBody id (fun b => { b with entry := .orphan })).plan.drain = false := hd
      simp [planning, hs, hp]
    simp [route, h]
  unfold releaseOrphan
  extract_lets d₁
  split
  · rw [hplan, ite_self]
  · rfl

/-- In CONFIGURED the end of a drain releases what is stored and keeps the command. -/
theorem releaseEntry_idle (h₄ : d.state = 4) (hd : d.plan.drain = false) (id : Nat) :
    (d.releaseEntry id).state = 4 ∧ (d.releaseEntry id).plan.drain = false ∧ (d.releaseEntry id).cmd = d.cmd := by
  have hs : (d.releaseEntry id).state = 4 := (get_releaseEntry d Fld.early_devState id).trans h₄
  refine ⟨hs, ?_⟩
  unfold releaseEntry
  split
  · have h₁ : ((d.dropEntry id).count F.TRAJ_CNT_ORPHAN_COUNT).state = 4 :=
      (get_count_late _ Fld.early_devState _ (by simp)).trans ((get_dropEntry d Fld.early_devState id).trans h₄)
    rw [releaseOrphan_idle _ h₁ hd]
    exact ⟨hd, rfl⟩
  · exact ⟨hd, rfl⟩

theorem retireAll_idle (h₄ : d.state = 4) (hd : d.plan.drain = false) : d.retireAll.cmd = d.cmd := by
  unfold retireAll retireBodies
  split
  · rfl
  · extract_lets d₁ gone digests d₂
    have h₁ : d₁.state = 4 ∧ d₁.plan.drain = false ∧ d₁.cmd = d.cmd :=
      Sparse.foldl_keeps _ (fun d' : Dev => d'.state = 4 ∧ d'.plan.drain = false ∧ d'.cmd = d.cmd) (fun d' b ⟨hs, hp, hc⟩ => by
        obtain ⟨hs', hp', hc'⟩ := d'.releaseEntry_idle hs hp b.id
        exact ⟨hs', hp', hc'.trans hc⟩) _ d ⟨h₄, hd, rfl⟩
    rw [cmd_freeBatch]
    exact h₁.2.2

theorem cmd_enterConfigured : d.enterConfigured.cmd = d.cmd := by
  unfold enterConfigured
  extract_lets plan d₁
  have hdrain : (d₁.moveState 4 1 0).plan.drain = false := (congrArg (·.plan.drain) (unlevelled_moveState d₁ 4 1 0) :)
  rw [retireAll_idle _ (state_moveState _ 4 1 0 (by decide)) hdrain, moveState_cmd]

theorem cmd_stopNow : d.stopNow.cmd = d.cmd := by rw [stopNow, cmd_enterConfigured, cmd_haltBodies, cmd_stopGens]

/-! ### A command that has run out (R79) -/

theorem cmd_abandonCmd (code : Nat) (args : List Nat) : (d.abandonCmd code args).cmd = d.cmd := by
  unfold abandonCmd
  extract_lets a
  split
  · exact cmd_of_unshown (unshown_engTest d _ _)
  split
  · exact cmd_of_unshown (unshown_laneShow (d.setLane _ _) _)
  split
  · exact (cmd_of_unshown (unshown_relayUpdate _ _)).trans (setPort_cmd d _ _)
  split
  · exact cmd_of_unshown (unshown_adaptAbort d)
  split
  · exact cmd_stopNow d
  · rfl

/-- Only a drain changes DEV_STATE as it ends. -/
theorem state_abandonCmd (code : Nat) (args : List Nat) (h : ¬(code = 0x21 ∧ args.getD 0 0 % 2 = 0)) : (d.abandonCmd code args).state = d.state := by
  have hf := Fld.aside_devState
  unfold abandonCmd
  extract_lets a
  split
  · exact get_engTest_aside d hf _ _ (by simp only [Fld.key, bar0, engPage]; omega)
  split
  · exact get_scanEnd_aside d hf _
  split
  · exact get_relayUpdate_aside _ hf _
  split
  · exact get_adaptAbort_aside d hf
  · rw [if_neg fun hdrain => h ⟨hdrain.1, hdrain.2.1⟩]

theorem state_abandonCmd_drain (args : List Nat) (ha : args.getD 0 0 % 2 = 0) (hs : d.sorting = true) : (d.abandonCmd 0x21 args).state = 4 := by
  have h : d.abandonCmd 0x21 args = d.stopNow := by
    unfold abandonCmd
    rw [if_neg (by decide), if_neg (by decide), if_neg (by decide), if_neg (by decide), if_pos ⟨rfl, ha, hs⟩]
  rw [h]
  exact state_enterConfigured _

/-- Past its limit a command ends with TIMEOUT; of the rest of the device only an offer of the token has been seen to before. -/
theorem cmdTimeout_late {l : Latch} {n : Nat} (hl : d.cmd = some l) (hn : cmdLimit l.code l.args = some n) (ht : n < d.elapsed l.t0) :
    ∃ e : Dev, e.cmd = d.cmd ∧ e.state = d.state ∧ e.sorting = d.sorting ∧ d.cmdTimeout = (e.abandonCmd l.code l.args).complete .timeout := by
  unfold cmdTimeout
  rw [hl]
  revert hn
  generalize cmdLimit = limit
  intro hn
  simp only [hn]
  rw [if_neg (by omega)]
  refine ⟨_, ?_, ?_, ?_, rfl⟩
  · rfl
  · rfl
  · rfl

/-! ### A command submitted (R77, R78) -/

/-- The code and the arguments as the mailbox shows them. -/
def cmdCode (d : Dev) : Nat := d.get F.CMD_CODE_CODE
def cmdArgs (d : Dev) : List Nat := (List.range 8).map (fun n => d.get (F.CMD_ARG_ARG n))

/-- The command latched, BUSY set. -/
def latched (d : Dev) : Dev := { d.put F.CMD_STATUS_BUSY true with
  cmd := some ⟨d.cmdCode, d.get F.CMD_CODE_TAG, d.get F.CMD_CODE_FLAGS, d.cmdArgs, d.time.c⟩ }

theorem get_latched (h : f.key ≠ F.CMD_STATUS_BUSY.key) : d.latched.get f = d.get f := get_put_ne d true h

theorem busy_latched : d.latched.get F.CMD_STATUS_BUSY = 1 := get_put_self d F.CMD_STATUS_BUSY true one_ne_zero

/-- The checks read nothing that latching changes. -/
theorem cmdFault_latched (code : Nat) (args : List Nat) : d.latched.cmdFault code args = d.cmdFault code args := by
  have hs : d.latched.state = d.state := get_latched d (by decide)
  have ha : d.latched.get (F.DRV_FEAT_ACCEPT_ACCEPT 0) = d.get (F.DRV_FEAT_ACCEPT_ACCEPT 0) := get_latched d (by decide)
  have hfeat : ∀ b, d.latched.feat b = d.feat b := fun _ => rfl
  have hoff : ∀ p, d.latched.offline p = d.offline p := fun p => by
    rw [offline, offline, bit, bit, get_latched d (by simp only [Fld.key, bar0]; omega)]
  have hlock : ∀ p l w r : Nat, l < 32 → d.latched.bit ⟨bar0 p 0x30, l, w, r⟩ = d.bit ⟨bar0 p 0x30, l, w, r⟩ := fun p l w r hl => by
    rw [bit, bit, get_latched d (by simp only [Fld.key, bar0]; omega)]
  unfold cmdFault cmdFeature cmdLegal testBit
  simp only [hs, ha, hfeat, hoff, hlock _ _ _ _ (show 0 < 32 by decide), hlock _ _ _ _ (show 1 < 32 by decide)]

theorem submit_refused {v : Nat} {e : Err} {k : Nat} (hv : v % 2 = 1) (hb : d.bit F.CMD_STATUS_BUSY = false)
    (hf : d.cmdFault d.cmdCode d.cmdArgs = some (e, k)) : d.submit v = d.latched.complete e k := by
  rw [← cmdFault_latched] at hf
  unfold submit
  rw [if_neg (by omega), if_neg (by simp [hb])]
  revert hf
  generalize Dev.cmdFault = fault
  intro hf
  extract_lets args code cmd latch
  have h : fault latch code args = some (e, k) := hf
  simp only [h]
  rfl

theorem submit_accepted {v : Nat} (hv : v % 2 = 1) (hb : d.bit F.CMD_STATUS_BUSY = false) (hf : d.cmdFault d.cmdCode d.cmdArgs = none) :
    d.submit v = ((cmdPages d.cmdCode d.cmdArgs).foldl (fun d p => d.put (F.BLK_LOCK_VESPER_LOCK p) true) d.latched).beginCmd d.cmdCode d.cmdArgs := by
  rw [← cmdFault_latched] at hf
  unfold submit
  rw [if_neg (by omega), if_neg (by simp [hb])]
  revert hf
  generalize Dev.cmdFault = fault
  intro hf
  extract_lets args code cmd latch
  have h : fault latch code args = none := hf
  simp only [h]
  rfl

/-- What locks the pages of a command leaves every other field. -/
theorem get_lockPages (ps : List Nat) (h : ∀ p, f.key ≠ (F.BLK_LOCK_VESPER_LOCK p).key) :
    (ps.foldl (fun d p => d.put (F.BLK_LOCK_VESPER_LOCK p) true) d).get f = d.get f := get_foldl_put_ne d _ _ _ fun p _ => h p

theorem lockPages_locks {ps : List Nat} {p : Nat} (hp : p ∈ ps) :
    (ps.foldl (fun d p => d.put (F.BLK_LOCK_VESPER_LOCK p) true) d).get (F.BLK_LOCK_VESPER_LOCK p) = 1 := by
  have hself : ∀ d : Dev, (d.put (F.BLK_LOCK_VESPER_LOCK p) true).get (F.BLK_LOCK_VESPER_LOCK p) = 1 := fun d => get_put_self d _ true one_ne_zero
  refine get_foldl_of_mem (n := p) d (fun d => hself _) (fun d m hm hd => ?_) hp
  rw [get_put_ne _ _ (by simp only [Fld.key, bar0]; omega), hd]

/-- An accepted command is in hand, BUSY is set and its pages are locked. -/
theorem submit_holds {v : Nat} (hv : v % 2 = 1) (hb : d.bit F.CMD_STATUS_BUSY = false) (hf : d.cmdFault d.cmdCode d.cmdArgs = none) :
    (d.submit v).get F.CMD_STATUS_BUSY = 1 ∧ (d.submit v).cmd = d.latched.cmd
      ∧ ∀ p ∈ cmdPages d.cmdCode d.cmdArgs, (d.submit v).get (F.BLK_LOCK_VESPER_LOCK p) = 1 := by
  rw [d.submit_accepted hv hb hf]
  refine ⟨?_, ?_, fun p hp => ?_⟩
  · rw [get_beginCmd_aside _ Fld.aside_busy _ _ (fun e => by simp only [Fld.key, bar0, engPage]; omega),
      get_lockPages _ _ (fun p => by simp only [Fld.key, bar0]; omega), busy_latched]
  · rw [cmd_of_unshown (unshown_beginCmd _ _ _), cmd_of_unshown (unshown_foldl _ (fun d p => unshown_put d _ _) _)]
  · rw [get_beginCmd_aside _ (Fld.aside_header _ _ _ _ _ (by decide) (by decide) (by decide) (by decide)) _ _
      (fun e => by simp only [Fld.key, bar0, engPage]; omega), lockPages_locks _ hp]

/-- A command that its limit has overtaken ends with TIMEOUT, whatever ends with it. -/
theorem cmdTimeout_ends {l : Latch} {n : Nat} (hl : d.cmd = some l) (hn : cmdLimit l.code l.args = some n) (ht : n < d.elapsed l.t0) :
    d.cmdTimeout.get F.CMD_STATUS_BUSY = 0 ∧ d.cmdTimeout.get F.CMD_STATUS_RESULT = 7 ∧ d.cmdTimeout.get F.CMD_STATUS_TAG = l.tag % 2 ^ 16
      ∧ (¬(l.code = 0x21 ∧ l.args.getD 0 0 % 2 = 0) → d.cmdTimeout.state = d.state)
      ∧ (l.code = 0x21 → l.args.getD 0 0 % 2 = 0 → d.sorting = true → d.cmdTimeout.state = 4) := by
  obtain ⟨e, hcmd, hstate, hsort, heq⟩ := d.cmdTimeout_late hl hn ht
  obtain ⟨hbusy, hresult, htag⟩ := complete_status _ .timeout 0 [] l ((cmd_abandonCmd e l.code l.args).trans (hcmd.trans hl))
  rw [heq]
  refine ⟨hbusy, hresult, htag, fun h => ?_, fun hcode ha hs => ?_⟩
  · rw [state_complete, state_abandonCmd _ _ _ h, hstate]
  · rw [state_complete, hcode, state_abandonCmd_drain _ _ ha (hsort.trans hs)]

end Dev

/-! ### The commands complete -/

section Commands

variable {s : State}

theorem cmdSubmit_completes {v : Nat} (ht : s.dev.taken 1 0x64) (hv : v % 2 = 1) (hb : s.dev.bit F.CMD_STATUS_BUSY = false)
    (hf : s.dev.cmdFault s.dev.cmdCode s.dev.cmdArgs = none) : Completes (.cmdSubmit v) s (fun d =>
      d.bit F.CMD_STATUS_BUSY = true ∧ d.executing s.dev.cmdCode = true ∧ (∀ n < 8, d.arg n = s.dev.get (F.CMD_ARG_ARG n))
        ∧ ∀ p ∈ cmdPages s.dev.cmdCode s.dev.cmdArgs, d.bit (F.BLK_LOCK_VESPER_LOCK p) = true) := by
  obtain ⟨hbusy, hcmd, hlock⟩ := s.dev.submit_holds hv hb hf
  refine completes_of_taken (u := (·.submit v)) rfl ht ?_
  generalize s.dev.submit v = d at hbusy hcmd hlock
  refine ⟨by rw [Dev.bit_canon, Dev.bit, hbusy]; rfl, ?_, fun n hn => ?_, fun p hp => by rw [Dev.bit_canon, Dev.bit, hlock p hp]; rfl⟩
  · simp [Dev.executing, hcmd, Dev.latched]
  · simp [Dev.arg, hcmd, Dev.latched, Dev.cmdArgs, hn]

theorem cmdSubmit_completes_refused {v : Nat} {e : Dev.Err} {k : Nat} (ht : s.dev.taken 1 0x64) (hv : v % 2 = 1) (hb : s.dev.bit F.CMD_STATUS_BUSY = false)
    (hf : s.dev.cmdFault s.dev.cmdCode s.dev.cmdArgs = some (e, k)) : Completes (.cmdSubmit v) s (fun d =>
      d.bit F.CMD_STATUS_BUSY = false ∧ d.get F.CMD_STATUS_RESULT = e.code ∧ d.cmd = none) := by
  obtain ⟨hbusy, hresult, -⟩ := s.dev.latched.complete_status e k [] _ rfl
  have hcmd := s.dev.latched.complete_cmd e k []
  refine completes_of_taken (u := (·.submit v)) rfl ht ?_
  rw [s.dev.submit_refused hv hb hf]
  generalize s.dev.latched.complete e k = d at hbusy hresult hcmd
  exact ⟨by rw [Dev.bit_canon, Dev.bit, hbusy]; rfl, by rw [Dev.get_canon, hresult], hcmd⟩

theorem cmdTimeout_completes {l : Latch} {n : Nat} (hl : s.dev.cmd = some l) (hn : cmdLimit l.code l.args = some n) (ht : n < s.dev.elapsed l.t0) :
    Completes .cmdTimeout s (fun d => d.bit F.CMD_STATUS_BUSY = false ∧ d.get F.CMD_STATUS_RESULT = 7 ∧ d.get F.CMD_STATUS_TAG = l.tag % 2 ^ 16
      ∧ (l.code ∉ [0x21, 0x48] → d.state = s.dev.state) ∧ (l.code = 0x21 → l.args.getD 0 0 % 2 = 1 → d.state = s.dev.state)
      ∧ (l.code = 0x21 → l.args.getD 0 0 % 2 = 0 → s.dev.sorting = true → d.state = 4)) := by
  obtain ⟨hbusy, hresult, htag, hkeep, hdrain⟩ := s.dev.cmdTimeout_ends hl hn ht
  refine completes_of_run (u := (·.cmdTimeout)) rfl ?_
  generalize s.dev.cmdTimeout = d at hbusy hresult htag hkeep hdrain
  simp only [Dev.bit_canon, Dev.get_canon, Dev.state_canon]
  exact ⟨by rw [Dev.bit, hbusy]; rfl, hresult, htag, fun h => hkeep fun h₂ => h (by simp [h₂.1]), fun _ ha => hkeep fun h₂ => by omega, hdrain⟩

theorem nop_completes (he : s.dev.executing 0x00 = true) (hl : s.dev.cmdLegal 0x00 = true) : Completes .nop s (fun d =>
    d.bit F.CMD_STATUS_BUSY = false ∧ d.get F.CMD_STATUS_RESULT = 0 ∧ d.cmd = none ∧ d.state = s.dev.state) := by
  obtain ⟨l, hcmd⟩ := Dev.cmd_of_executing s.dev he
  obtain ⟨hbusy, hresult, -⟩ := s.dev.complete_status .ok 0 [] l hcmd
  have hnone := s.dev.complete_cmd .ok 0 []
  have hstate := s.dev.state_complete .ok 0 []
  refine completes_of_vesper (u := (·.complete .ok)) rfl he hl ?_
  generalize s.dev.complete .ok = d at hbusy hresult hnone hstate
  exact ⟨by rw [Dev.bit_canon, Dev.bit, hbusy]; rfl, by rw [Dev.get_canon, hresult]; rfl, hnone, by rw [Dev.state_canon, hstate]⟩

end Commands

/-- Settles O18: each clause is the lemma of its command. -/
theorem mailbox : Obligations.Mailbox := fun _ =>
  ⟨fun _ => cmdSubmit_completes, fun _ _ _ => cmdSubmit_completes_refused, fun _ _ => cmdTimeout_completes, nop_completes⟩

end Sys2Proof.Machine
end

section
/-! PROOF. What the device does by itself at a change of level leaves the marks of every page: its FAULT and OFFLINE_REQ, and the events pending. -/

namespace Sys2Proof.Machine

/-- FAULT of BLK_STAT or OFFLINE_REQ of BLK_CTRL, of any page. -/
def Fld.mark (f : Fld) : Prop := (f.key / 32 % 0x1_0000 = 0x0C ∨ f.key / 32 % 0x1_0000 = 0x10) ∧ f.key % 32 = 4

/-- Neither a mark nor BLK_IRQ_RAW. -/
def Fld.unmarked (f : Fld) : Prop := ¬f.mark ∧ f.key / 32 % 0x1_0000 ≠ 0x14

theorem Fld.unmarked_page (p o l w r : Nat) (ho : 0x40 ≤ o) (ho' : o < 0x1_0000) (hl : l < 32) : (⟨bar0 p o, l, w, r⟩ : Fld).unmarked := by
  simp only [unmarked, mark, key, bar0]; omega

theorem Fld.mark_calm {f : Fld} (h : f.mark) : f.calm = true := by
  obtain ⟨ho, -⟩ := h
  simp only [calm, quiet]
  simp
  omega

namespace Dev

/-- The marks and the pending events of every page of `d` stand in `e`, and so do the features accepted. -/
structure MarksStand (d e : Dev) : Prop where
  accepted : e.accepted = d.accepted
  mark : ∀ f : Fld, f.mark → e.get f = d.get f
  raw : ∀ p k, k < 32 → d.testBit (F.BLK_IRQ_RAW p) k = true → e.testBit (F.BLK_IRQ_RAW p) k = true

namespace MarksStand

variable {d e : Dev}

theorem of_get (ha : e.accepted = d.accepted) (h : ∀ f, e.get f = d.get f) : d.MarksStand e :=
  ⟨ha, fun f _ => h f, fun p k _ hd => by rw [testBit, h]; exact hd⟩

theorem of_regs (h : e.regs = d.regs) (ha : e.accepted = d.accepted := by rfl) : d.MarksStand e := of_get ha (get_congr h)

theorem refl (d : Dev) : d.MarksStand d := of_regs rfl

theorem trans {c : Dev} (h : c.MarksStand d) (h' : d.MarksStand e) : c.MarksStand e :=
  ⟨h'.accepted.trans h.accepted, fun f hf => (h'.mark f hf).trans (h.mark f hf), fun p k hk hd => h'.raw p k hk (h.raw p k hk hd)⟩

theorem set {g : Fld} (v : Nat) (hg : g.unmarked) (h : d.MarksStand e) : d.MarksStand (e.set g v) :=
  h.trans ⟨rfl, fun f hf => get_set_ne e v fun hk => hg.1 (by rwa [Fld.mark, ← hk]), fun p k _ hd => by
    rw [testBit, get_set_ne e v fun hk => hg.2 (by rw [← hk]; simp only [Fld.key, bar0]; omega)]
    exact hd⟩

theorem put {g : Fld} (b : Bool) (hg : g.unmarked) (h : d.MarksStand e) : d.MarksStand (e.put g b) := h.set _ hg
theorem putBit {g : Fld} (k : Nat) (b : Bool) (hg : g.unmarked) (h : d.MarksStand e) : d.MarksStand (e.putBit g k b) := h.set _ hg
theorem count {g : Fld} (n : Nat) (hg : g.unmarked) (h : d.MarksStand e) : d.MarksStand (e.count g n) := h.set _ hg

theorem raise (p b : Nat) (h : d.MarksStand e) : d.MarksStand (e.raise p b) :=
  h.trans ⟨(congrArg Dev.accepted (unrecorded_raise e p b) :), fun _ hf => get_raise e p b (Fld.mark_calm hf), fun _ _ hk hd => raise_keeps_raw e p b hk hd⟩

theorem ite {c : Prop} [Decidable c] {e' : Dev} (h : d.MarksStand e) (h' : d.MarksStand e') : d.MarksStand (if c then e else e') := by
  split
  · exact h
  · exact h'

theorem foldl_of_mem {α : Type} {step : Dev → α → Dev} (l : List α) (hs : ∀ e : Dev, ∀ a ∈ l, e.MarksStand (step e a)) (h : d.MarksStand e) :
    d.MarksStand (l.foldl step e) := by
  induction l generalizing e with
  | nil => exact h
  | cons a l ih => exact ih (fun e b hb => hs e b (List.mem_cons_of_mem _ hb)) (h.trans (hs e a List.mem_cons_self))

end MarksStand

open MarksStand

variable (d : Dev)

/-! ### Engines and pulses -/

theorem marksStand_engShow (e : Nat) : d.MarksStand (d.engShow e) :=
  (((refl d).put _ (Fld.unmarked_page _ _ _ _ _ (by decide) (by decide) (by decide))).put _
    (Fld.unmarked_page _ _ _ _ _ (by decide) (by decide) (by decide))).set _ (Fld.unmarked_page _ _ _ _ _ (by decide) (by decide) (by decide))

theorem marksStand_setEng_engShow (e : Nat) (x : Eng) : d.MarksStand ((d.setEng e x).engShow e) :=
  (of_regs rfl : d.MarksStand (d.setEng e x)).trans (marksStand_engShow _ e)

theorem marksStand_startBody (e : Nat) : d.MarksStand (d.startBody e) := by
  obtain h | ⟨x, h⟩ := startBody_cases d e
  · rw [h]; exact refl d
  · rw [h]; exact marksStand_setEng_engShow d e x

theorem marksStand_endBody (e : Nat) : d.MarksStand (d.endBody e) := by
  unfold endBody
  extract_lets x cycles d₁ d₂
  have h₁ : d.MarksStand d₁ := marksStand_setEng_engShow d e _
  have h₂ : d.MarksStand d₂ := h₁.set _ (Fld.unmarked_page _ _ _ _ _ (by decide) (by decide) (by decide))
  clear_value d₂
  refine ite (h₂.put _ ?_) (h₂.trans (marksStand_startBody d₂ e))
  simp only [Fld.unmarked, Fld.mark, Fld.key, bar0]
  omega

theorem marksStand_abandonAll : d.MarksStand d.abandonAll := by
  refine foldl_of_mem _ (fun d e _ => ?_) (refl d)
  extract_lets x n d₁
  have h₁ : d.MarksStand d₁ := MarksStand.count (e := d.setEng e _) _ (Fld.unmarked_page _ _ _ _ _ (by decide) (by decide) (by decide)) (of_regs rfl)
  exact ite (refl d) (ite (h₁.trans (marksStand_endBody d₁ e)) (h₁.trans (marksStand_engShow d₁ e)))

theorem marksStand_dropBodies : d.MarksStand d.dropBodies := of_regs rfl

theorem unmarked_queueDepth {n : Nat} (hn : n < 8) : (if n % 2 = 0 then F.PLAN_QDEPTH_DEPTH0 (n / 2) else F.PLAN_QDEPTH_DEPTH1 (n / 2)).unmarked := by
  split
  · exact Fld.unmarked_page _ _ _ _ _ (by omega) (by omega) (by decide)
  · exact Fld.unmarked_page _ _ _ _ _ (by omega) (by omega) (by decide)

theorem unmarked_inFlight (n : Nat) {k : Nat} (hk : k < 4) : (F.MET_MOD_CNT2_IN_FLIGHT n k).unmarked :=
  Fld.unmarked_page _ _ _ _ _ (by omega) (by omega) (by decide)

theorem marksStand_metShow {n : Nat} (hn : n < 8) : d.MarksStand (d.metShow n) := by
  unfold metShow
  extract_lets x q d₁ d₂ ready d₃
  have h₁ : d.MarksStand d₁ := (refl d).set _ (unmarked_queueDepth hn)
  have h₂ : d.MarksStand d₂ := foldl_of_mem _ (fun d k hk => (refl d).set _ (unmarked_inFlight n (List.mem_range.mp hk))) h₁
  have h₃ : d.MarksStand d₃ := (h₂.set _ (Fld.unmarked_page _ _ _ _ _ (by decide) (by decide) (by decide))).put _
    (Fld.unmarked_page _ _ _ _ _ (by decide) (by decide) (by decide))
  exact h₃.put _ (Fld.unmarked_page _ _ _ _ _ (by decide) (by decide) (by decide))

theorem marksStand_cancelAll {n : Nat} (hn : n < 8) : d.MarksStand (d.cancelAll n) := by
  unfold cancelAll
  extract_lets x d₁
  have h₁ : d.MarksStand d₁ := of_regs rfl
  have h₂ : ∀ l : List Nat, d₁.MarksStand (l.foldl (fun d k => d.setMetPort n { d.metPort n with cancels := (d.metPort n).cancels ++
      [{ module := k, seq := 0, bytes := [k * 64], fire := false, f := 0, all := true }] }) d₁) := fun l =>
    foldl_of_mem l (fun d k _ => of_regs (by rfl)) (refl d₁)
  exact ite (h₁.trans (marksStand_metShow d₁ hn)) ((h₁.trans (h₂ _)).trans (marksStand_metShow _ hn))

theorem marksStand_cancelEverything : d.MarksStand d.cancelEverything := by
  unfold cancelEverything
  extract_lets d₁
  have h₁ : d.MarksStand d₁ := foldl_of_mem _ (fun d n hn => marksStand_cancelAll d (List.mem_range.mp hn)) (refl d)
  clear_value d₁
  exact h₁.trans (of_regs rfl)

/-! ### The change of level -/

theorem marksStand_divertOne {n : Nat} (hn : n < 2) : d.MarksStand (d.divertOne n) := by
  have hput : ∀ b, d.MarksStand (d.put (F.PLAN_DIVERT_ASSERTED n) b) := fun b =>
    (refl d).put b (Fld.unmarked_page _ _ _ _ _ (by omega) (by omega) (by decide))
  have hset : ∀ (d : Dev) t, MarksStand d (d.setDivertAt n t) := fun d t => of_regs rfl
  have hdrive : ∀ on, d.MarksStand (d.driveDivert n on) := fun on => (hput on).trans (of_regs rfl)
  unfold divertOne
  refine ite ((hput false).trans (of_regs rfl)) (ite ((hdrive true).trans (hset _ _)) (ite (ite ((hdrive false).trans (hset _ _)) ?_) (hdrive false)))
  extract_lets d₁
  split
  · exact hdrive true
  · exact (hdrive true).trans (hset _ _)

theorem marksStand_abandonJoin : d.MarksStand d.abandonJoin := by
  unfold abandonJoin
  extract_lets p
  refine ite (refl d) (.put _ ?_ (.set _ ?_ (of_regs rfl)))
  · exact Fld.unmarked_page _ _ _ _ _ (by decide) (by decide) (by decide)
  · exact Fld.unmarked_page _ _ _ _ _ (by decide) (by decide) (by decide)

theorem marksStand_setRole (r : Nat) : d.MarksStand (d.setRole r) := by
  refine .raise _ _ (.set _ ?_ (.set _ ?_ (.set _ ?_ (refl d))))
  · exact Fld.unmarked_page _ _ _ _ _ (by decide) (by decide) (by decide)
  · exact Fld.unmarked_page _ _ _ _ _ (by decide) (by decide) (by decide)
  · exact Fld.unmarked_page _ _ _ _ _ (by decide) (by decide) (by decide)

theorem marksStand_leaveSorting : d.MarksStand d.leaveSorting := by
  have hpage : ∀ p o l w r : Nat, 0x40 ≤ o → o < 0x1_0000 → l < 32 → (⟨bar0 p o, l, w, r⟩ : Fld).unmarked := Fld.unmarked_page
  unfold leaveSorting
  extract_lets lost d₁ mer seg d₂ d₃ d₄
  have h₁ : d.MarksStand d₁ := foldl_of_mem lost (fun d g _ => (refl d).putBit _ _ (hpage _ _ _ _ _ (by decide) (by decide) (by decide))) (refl d)
  have h₂ : d.MarksStand d₂ := h₁.trans (of_regs rfl)
  have h₃ : d.MarksStand d₃ := (h₂.put _ (hpage _ _ _ _ _ (by decide) (by decide) (by decide))).put _ (hpage _ _ _ _ _ (by decide) (by decide) (by decide))
  have h₄ : d.MarksStand d₄ := h₃.trans (marksStand_abandonJoin d₃)
  exact ite h₄ (h₄.trans (marksStand_setRole d₄ 0))

theorem marksStand_levelUpdate (cause detail : Nat) : d.MarksStand (d.levelUpdate cause detail) := by
  have hmode : ∀ o l w r : Nat, 0x40 ≤ o → o < 0x1_0000 → l < 32 → (⟨bar0 145 o, l, w, r⟩ : Fld).unmarked := Fld.unmarked_page 145
  unfold levelUpdate
  extract_lets d₁ was d₂
  have h₁ : d.MarksStand d₁ := (refl d).put _ (hmode _ _ _ _ (by decide) (by decide) (by decide))
  have h₂ : d.MarksStand d₂ := (((h₁.set _ (hmode _ _ _ _ (by decide) (by decide) (by decide))).set _
    (hmode _ _ _ _ (by decide) (by decide) (by decide))).set _ (hmode _ _ _ _ (by decide) (by decide) (by decide))).set _
    (hmode _ _ _ _ (by decide) (by decide) (by decide))
  exact ite h₁ (((h₂.set _ (hmode _ _ _ _ (by decide) (by decide) (by decide))).set _ (hmode _ _ _ _ (by decide) (by decide) (by decide))).raise _ _)

theorem marksStand_moveState (s cause detail : Nat) : d.MarksStand (d.moveState s cause detail) := by
  unfold moveState
  refine ite (refl d) ?_
  extract_lets d₁ d₂ d₃
  have h₁ : d.MarksStand d₁ := (((refl d).set _ (Fld.unmarked_page _ _ _ _ _ (by decide) (by decide) (by decide))).set _
    (Fld.unmarked_page _ _ _ _ _ (by decide) (by decide) (by decide))).count _ (Fld.unmarked_page _ _ _ _ _ (by decide) (by decide) (by decide))
  have h₂ : d.MarksStand d₂ := (((h₁.set _ (by simp only [Fld.unmarked, Fld.mark, Fld.key, bar0]; omega)).raise 0 3).trans
    (marksStand_divertOne _ (by decide))).trans (marksStand_divertOne _ (by decide))
  have h₃ : d.MarksStand d₃ := ite h₂ (h₂.trans (marksStand_leaveSorting d₂))
  exact h₃.trans (marksStand_levelUpdate d₃ cause detail)

theorem accepted_pass (id : Nat) (v : Verdict) (replaced : Bool) : (d.pass id v replaced).accepted = d.accepted := rfl

theorem accepted_twilightPass (b : CBody) (cause : Nat) (replaced : Bool) : (d.twilightPass b cause replaced).accepted = d.accepted := by
  unfold twilightPass
  generalize d.twilight b.group (ctxOf b.id) cause = v
  dsimp only
  rw [accepted_pass]
  split <;> rfl

theorem marksStand_twilightPass (b : CBody) (cause : Nat) (replaced : Bool) : d.MarksStand (d.twilightPass b cause replaced) :=
  of_get (accepted_twilightPass d b cause replaced) fun _ => get_twilightPass d b cause replaced

theorem marksStand_sendOffer (a : AfterOffer) : d.MarksStand (d.sendOffer a) := by
  refine of_get ?_ fun _ => get_sendOffer d a
  obtain ⟨m, o, h⟩ := merSend_eq d 0x02 ((d.get F.TWIN_TOKEN_EPOCH + 1) % 65536) 1 [0]
  rw [sendOffer, h]

/-- The count of a group's verdicts stands in a last word of four; the groups of bodies have no bound here. -/
theorem unmarked_verdicts (g : Nat) : (F.DISP_GRP_VERD_COUNT g).unmarked := by
  simp only [Fld.unmarked, Fld.mark, Fld.key, bar0]; omega

theorem marksStand_enterTwilight (cause detail : Nat) : d.MarksStand (d.enterTwilight cause detail) := by
  unfold enterTwilight
  extract_lets bs d₁
  have h₁ : d.MarksStand d₁ := (marksStand_abandonAll d).trans (marksStand_moveState _ 6 cause detail)
  refine .count _ (Fld.unmarked_page _ _ _ _ _ (by decide) (by decide) (by decide)) (foldl_of_mem bs (fun d b _ => ?_) h₁)
  exact ((refl d).count 1 (unmarked_verdicts b.group)).trans (marksStand_twilightPass _ b 0 false)

theorem marksStand_enterEclipse (cause detail : Nat) : d.MarksStand (d.enterEclipse cause detail) := by
  have hcount : ∀ (e : Dev) (o n : Nat), 0x40 ≤ o → o < 0x1_0000 → e.MarksStand (e.count ⟨bar0 145 o, 0, 32, 0⟩ n) := fun e o n ho ho' =>
    (refl e).count n (Fld.unmarked_page _ _ _ _ _ ho ho' (by decide))
  unfold enterEclipse
  extract_lets n d₁ mer d₂
  have h₁ : d.MarksStand d₁ := (((marksStand_abandonAll d).trans (marksStand_dropBodies _)).trans (marksStand_moveState _ 7 cause detail)).trans
    (hcount _ _ n (by decide) (by decide))
  clear_value d₁
  have h₂ : d.MarksStand d₂ := (h₁.trans (of_regs rfl : d₁.MarksStand { d₁ with mer := { d₁.mer with waiting := none } })).trans (marksStand_abandonJoin _)
  have hcancel : d₂.MarksStand d₂.eclipseCancel := (hcount d₂ _ _ (by decide) (by decide)).trans (marksStand_cancelEverything _)
  exact ite (h₂.trans (marksStand_sendOffer d₂ _)) (h₂.trans hcancel)

/-- What the device does by itself leaves every mark and every pending event. -/
theorem marksStand_autoLevel : d.MarksStand d.autoLevel :=
  ite (marksStand_enterEclipse d _ _) (ite (marksStand_enterTwilight d _ _) (ite (marksStand_enterTwilight d _ _)
    (ite (marksStand_enterTwilight d _ _) (refl d))))

end Dev
end Sys2Proof.Machine
end

section
/-! PROOF. O16, the interrupt and error registers. What the hardware sets in the cycle of a write stands before the write, and the write clears none of
it; a page's fault and its event also outlast what the device then does by itself. -/

namespace Sys2Proof.Machine

/-! ### Words with bits cleared -/

/-- A number without its bits that another one has. -/
theorem testBit_sub_and (x y b : Nat) : (x - (x &&& y)).testBit b = (x.testBit b && !y.testBit b) := by
  have hle : ∀ x y : Nat, x &&& y ≤ x := fun x y => Nat.and_le_left
  induction b generalizing x y with
  | zero =>
    have hand : (x &&& y) % 2 = 1 ↔ x % 2 = 1 ∧ y % 2 = 1 := Nat.and_mod_two_eq_one
    have h := hle x y
    simp only [Nat.testBit_zero]
    rw [Bool.eq_iff_iff]
    simp only [decide_eq_true_eq, Bool.and_eq_true, Bool.not_eq_true', decide_eq_false_iff_not]
    omega
  | succ b ih =>
    have hand : (x &&& y) % 2 = 1 ↔ x % 2 = 1 ∧ y % 2 = 1 := Nat.and_mod_two_eq_one
    have hdiv : (x &&& y) / 2 = x / 2 &&& y / 2 := Nat.and_div_two
    have h := hle x y
    have h' := hle (x / 2) (y / 2)
    rw [Nat.testBit_add_one, Nat.testBit_add_one, Nat.testBit_add_one, ← ih, show (x - (x &&& y)) / 2 = x / 2 - (x / 2 &&& y / 2) by omega]

/-- The bits of a power of two. -/
theorem bits_two_pow : ∀ b < 32, (List.range 32).filter (fun k => 2 ^ b / 2 ^ k % 2 = 1) = [b] := by decide

namespace Dev

variable (d : Dev) {f : Fld}

theorem testBit_eq (f : Fld) (k : Nat) : d.testBit f k = (d.get f).testBit k := by rw [testBit, Nat.testBit_eq_decide_div_mod_eq]

/-! ### BLK_IRQ_STAT (R57, R62) -/

/-- Neither lock bars BLK_IRQ_STAT: a write that is taken is so still after events of its cycle, which leave the accepted features and do not lead into
BOOT. -/
theorem gated_irqStat {d e : Dev} {page : Nat} (u : Dev → Dev) (ht : d.taken page 0x1C) (ha : e.accepted = d.accepted)
    (hs : e.state = d.state ∨ e.state ≠ 1) : e.gated page 0x1C u = u e := by
  obtain ⟨himp, hboot, hfeat, -, -⟩ := ht
  have hf : e.feat = d.feat := by funext b; rw [feat, feat, ha]
  refine gated_of_taken u ⟨himp, ?_, by rwa [hf], .inr (by decide), .inr (by decide)⟩
  rcases hs with hs | hs
  · rwa [hs]
  · exact .inl hs

/-- The clearing part of a write of BLK_IRQ_STAT. -/
def clearRaw (d : Dev) (page clear : Nat) : Dev := d.set (F.BLK_IRQ_RAW page) (d.get (F.BLK_IRQ_RAW page) - (d.get (F.BLK_IRQ_RAW page) &&& clear))

theorem get_clearRaw {page clear : Nat} (h : f.key ≠ (F.BLK_IRQ_RAW page).key) : (d.clearRaw page clear).get f = d.get f := get_set_ne d _ h

/-- A pending bit that is not cleared stays. -/
theorem testBit_clearRaw {page clear b : Nat} (hb : b < 32) (h : d.testBit (F.BLK_IRQ_RAW page) b = true) (hc : clear.testBit b = false) :
    (d.clearRaw page clear).testBit (F.BLK_IRQ_RAW page) b = true := by
  rw [testBit_eq] at h ⊢
  rw [clearRaw, get_set_self, Nat.testBit_mod_two_pow, testBit_sub_and, h, hc]
  simpa using hb

/-- A write of BLK_IRQ_STAT that is taken: the events of its cycle, then the bits that it clears and they did not set. -/
theorem irqStatWrite_eq {page v hw parity : Nat} (ht : d.taken page 0x1C) (ha : (d.hwEvents page hw parity).accepted = d.accepted)
    (hs : (d.hwEvents page hw parity).state = d.state ∨ (d.hwEvents page hw parity).state ≠ 1) :
    d.irqStatWrite page v hw parity = (d.hwEvents page hw parity).clearRaw page
      (v % 2 ^ 32 - (v % 2 ^ 32 &&& ((hw &&& irqSources page) ||| (if parity % 32 = 0 then 0 else 2)))) := by
  unfold irqStatWrite
  rw [gated_irqStat _ ht ha hs]
  rfl

/-- A cycle without events. -/
theorem hwEvents_none (page : Nat) : d.hwEvents page 0 0 = d := by simp [hwEvents]

/-- A cycle with one event that the page has a source for. -/
theorem hwEvents_one {page b : Nat} (himp : pageImplemented page = true) (hb : b < 32) (hsrc : irqSources page / 2 ^ b % 2 = 1) :
    2 ^ b &&& irqSources page = 2 ^ b ∧ d.hwEvents page (2 ^ b) 0 = hwEvent page d b := by
  have hand : 2 ^ b &&& irqSources page = 2 ^ b := by
    rw [Nat.and_comm, Nat.and_two_pow, Nat.testBit_eq_decide_div_mod_eq, hsrc]; simp
  refine ⟨hand, ?_⟩
  unfold hwEvents
  rw [if_neg (by simp [himp]), hand]
  simp only [bits_two_pow b hb]
  simp

/-- A cycle with an uncorrectable error of the page's SRAM alone. -/
theorem hwEvents_sramUe {page : Nat} (himp : pageImplemented page = true) : d.hwEvents page 0 16 = d.setParity page (F.BLK_PARITY_SRAM_UE page) := by
  unfold hwEvents
  rw [if_neg (by simp [himp])]
  simp [parityFields, List.zipIdx]

/-! ### BLK_ERR_CODE (R57, R64) -/

theorem lt_of_pageImplemented {page : Nat} (h : pageImplemented page = true) : page < 0x92 := by
  by_contra hp
  simp (disch := omega) [pageImplemented, pageRows, if_neg] at h

/-- CODE and OVERRUN given up. -/
def errGivenUp (d : Dev) (page : Nat) : Dev := (d.set (F.BLK_ERR_CODE_CODE page) 0).set (F.BLK_ERR_CODE_OVERRUN page) 0

/-- A read of BLK_ERR_CODE answers what stands there and gives CODE and OVERRUN up. -/
theorem readOut_errCode {page : Nat} (himp : pageImplemented page = true) (hs : d.state ≠ 1) : d.readOut (page * 0x1_0000 + 0x20) =
    (d.errGivenUp page).emit (.readData (page * 0x1_0000 + 0x20) (d.regWord page 0x20)) := by
  have hp := lt_of_pageImplemented himp
  have hpage : (page * 0x1_0000 + 0x20) / 0x1_0000 = page := by omega
  have hoff : (page * 0x1_0000 + 0x20) % 0x1_0000 = 0x20 := by omega
  have hread : d.bar0Read (page * 0x1_0000 + 0x20) = (d.errGivenUp page, d.regWord page 0x20) := by
    unfold bar0Read
    simp only [hpage, hoff]
    rw [if_neg (by omega), if_neg (by simp [himp, hs]), if_pos (by decide)]
    rfl
  rw [readOut, hread]

theorem get_errGivenUp (page : Nat) : (d.errGivenUp page).get (F.BLK_ERR_CODE_CODE page) = 0 ∧ (d.errGivenUp page).get (F.BLK_ERR_CODE_OVERRUN page) = 0 := by
  refine ⟨?_, ?_⟩
  · rw [errGivenUp, get_set_ne _ _ (by simp only [Fld.key, bar0]; omega), get_set_self]; rfl
  · rw [errGivenUp, get_set_self]; rfl

theorem keepsRegs_errGivenUp (page : Nat) : KeepsRegs d (d.errGivenUp page) [F.BLK_ERR_CODE_CODE page, F.BLK_ERR_CODE_OVERRUN page] := fun g hg => by
  simp only [List.map_cons, List.map_nil, List.mem_cons, List.not_mem_nil, or_false, not_or] at hg
  rw [errGivenUp, get_set_ne _ _ hg.2, get_set_ne _ _ hg.1]

/-- An error that comes in the cycle of the read to a CODE that was held counts in OVERRUN alone, from 0. -/
theorem errorInRead_held {page c : Nat} (h : d.get (F.BLK_ERR_CODE_OVERRUN page) = 0) :
    (errorInRead page true d c).get (F.BLK_ERR_CODE_OVERRUN page) = 1 ∧ (errorInRead page true d c).testBit (F.BLK_IRQ_RAW page) 0 = true := by
  refine ⟨?_, raise_raw _ _ _ (by decide)⟩
  rw [errorInRead, if_pos rfl, get_raise _ _ _ (Fld.calm_header page 0x20 8 8 0 (by decide) (by decide) (by decide) (by decide)), get_countSat_self, h]
  rfl

theorem errCodeRead_alone {page : Nat} (himp : pageImplemented page = true) (hs : d.state ≠ 1) : d.errCodeRead page 4 [] =
    (d.errGivenUp page).emit (.readData (page * 0x1_0000 + 0x20) (d.regWord page 0x20)) := by
  rw [← d.readOut_errCode himp hs]
  simp [errCodeRead]

theorem errCodeRead_held {page c : Nat} (himp : pageImplemented page = true) (hs : d.state ≠ 1) (h : d.get (F.BLK_ERR_CODE_CODE page) ≠ 0) (hc : c ≠ 0) :
    d.errCodeRead page 4 [c] =
      errorInRead page true ((d.errGivenUp page).emit (.readData (page * 0x1_0000 + 0x20) (d.regWord page 0x20))) c := by
  rw [← d.readOut_errCode himp hs]
  simp [errCodeRead, himp, h, hc]

/-! ### Routing (R80) -/

/-- The fields of IRQ_ROUTE are quiet. -/
theorem quiet_route {n l w r : Nat} (hn : n < 37) (hl : l < 32) : (⟨bar0 2 (0x80 + 0x4 * n), l, w, r⟩ : Fld).quiet = true := by
  have h : (⟨bar0 2 (0x80 + 0x4 * n), l, w, r⟩ : Fld).key / 32 = 0x2_0080 + 4 * n := by simp only [Fld.key, bar0]; omega
  simp only [Fld.quiet, h]
  simp
  omega

/-- Two fields of IRQ_ROUTEn at different bits differ. -/
theorem get_set_route {n l l' w w' r r' : Nat} (v : Nat) (h : l ≠ l') :
    (d.set ⟨bar0 2 (0x80 + 0x4 * n), l', w', r'⟩ v).get ⟨bar0 2 (0x80 + 0x4 * n), l, w, r⟩ = d.get ⟨bar0 2 (0x80 + 0x4 * n), l, w, r⟩ :=
  get_set_ne d v (by simp only [Fld.key]; omega)

/-- Signalling after a route is taken leaves IRQ_ROUTE alone. -/
theorem get_routeOne (n v k : Nat) (hn : n < 37) {l w r : Nat} (hl : l < 32) :
    (routeOne v n d k).get ⟨bar0 2 (0x80 + 0x4 * n), l, w, r⟩ = if pageImplemented (4 * n + k) then
      ((d.set (F.IRQ_ROUTE_MASK n k) (fieldOf (F.IRQ_ROUTE_MASK n k) v)).set (F.IRQ_ROUTE_VECTOR n k) (fieldOf (F.IRQ_ROUTE_VECTOR n k) v)).get
        ⟨bar0 2 (0x80 + 0x4 * n), l, w, r⟩ else d.get ⟨bar0 2 (0x80 + 0x4 * n), l, w, r⟩ := by
  unfold routeOne
  extract_lets p w was d₁
  have hp : (!pageImplemented p) = !pageImplemented (4 * n + k) := rfl
  rw [hp]
  cases pageImplemented (4 * n + k)
  · rfl
  · rw [if_neg (by decide), if_pos rfl, get_ite, get_signal _ _ (quiet_route hn hl), ite_self]

/-- The field of source k as written. -/
theorem routeOne_self (n v k : Nat) (hn : n < 37) (hk : k < 4) (himp : pageImplemented (4 * n + k) = true) :
    (routeOne v n d k).get (F.IRQ_ROUTE_MASK n k) = bitsAt v (8 * k + 7) 1 ∧ (routeOne v n d k).get (F.IRQ_ROUTE_VECTOR n k) = bitsAt v (8 * k) 6 := by
  refine ⟨?_, ?_⟩
  · rw [get_routeOne _ _ _ _ hn (by omega), if_pos himp, get_set_route _ _ (by omega), get_set_self, Nat.add_comm (8 * k)]
    exact Nat.mod_mod _ _
  · rw [get_routeOne _ _ _ _ hn (by omega), if_pos himp, get_set_self]
    exact Nat.mod_mod _ _

/-- The fields of another source stay. -/
theorem routeOne_other (n v : Nat) {k m l w r : Nat} (hn : n < 37) (hk : k < 4) (hm : l / 8 = k) (hne : m ≠ k) (hl : l % 8 = 0 ∨ l % 8 = 7) :
    (routeOne v n d m).get ⟨bar0 2 (0x80 + 0x4 * n), l, w, r⟩ = d.get ⟨bar0 2 (0x80 + 0x4 * n), l, w, r⟩ := by
  rw [get_routeOne _ _ _ _ hn (by omega), get_set_route _ _ (by omega), get_set_route _ _ (by omega), ite_self]

theorem routeWrite_routes {n v k : Nat} (hn : n < 37) (hk : k < 4) (himp : pageImplemented (4 * n + k) = true) :
    (d.routeWrite n v).get (F.IRQ_ROUTE_MASK n k) = bitsAt v (8 * k + 7) 1 ∧ (d.routeWrite n v).get (F.IRQ_ROUTE_VECTOR n k) = bitsAt v (8 * k) 6 := by
  have hmem : k ∈ List.range 4 := List.mem_range.mpr hk
  refine ⟨get_foldl_of_mem d (fun d => (routeOne_self d n v k hn hk himp).1) (fun d m hm hd => ?_) hmem,
    get_foldl_of_mem d (fun d => (routeOne_self d n v k hn hk himp).2) (fun d m hm hd => ?_) hmem⟩
  · exact (routeOne_other d n v hn hk (by omega) hm (by omega)).trans hd
  · exact (routeOne_other d n v hn hk (by omega) hm (by omega)).trans hd

/-! ### Re-arming (R80) -/

section Rearm

variable {n b : Nat} (hn : n < 2)
include hn

/-- What of the device does not stand in IRQ_ARMED reads the same after a vector is armed. -/
theorem get_putBit_armed (c : Bool) (h : ∀ n < 2, f.key ≠ (F.IRQ_ARMED_ARMED n).key) : (d.putBit (F.IRQ_ARMED_ARMED n) b c).get f = d.get f :=
  get_putBit_ne d b c (h n hn)

/-- The sources of a vector are no matter of whether it is armed. -/
theorem vectorPending_putBit_armed (v : Nat) (c : Bool) : (d.putBit (F.IRQ_ARMED_ARMED n) b c).vectorPending v = d.vectorPending v := by
  have hroute : ∀ p < 146, (d.putBit (F.IRQ_ARMED_ARMED n) b c).routedTo p v = d.routedTo p v := fun p hp => by
    rw [routedTo, routedTo, get_putBit_armed d hn c fun n hn => by simp only [Fld.key, bar0]; omega,
      get_putBit_armed d hn c fun n hn => by simp only [Fld.key, bar0]; omega]
  have hassert : ∀ p, (d.putBit (F.IRQ_ARMED_ARMED n) b c).asserted p = d.asserted p := fun p => by
    rw [asserted, asserted, irqStat, irqStat, get_putBit_armed d hn c fun n hn => by simp only [Fld.key, bar0]; omega,
      get_putBit_armed d hn c fun n hn => by simp only [Fld.key, bar0]; omega]
  have hhost : ∀ o l w r, 0x100 ≤ o → o < 0x400 → l < 32 → (d.putBit (F.IRQ_ARMED_ARMED n) b c).get ⟨bar0 6 o, l, w, r⟩ = d.get ⟨bar0 6 o, l, w, r⟩ :=
    fun o l w r ho ho' hl => get_putBit_armed d hn c fun n hn => by simp only [Fld.key, bar0]; omega
  have hany : ∀ (m : Nat) (p q : Nat → Bool), (∀ a < m, p a = q a) → (List.range m).any p = (List.range m).any q := fun m p q h => by
    rw [Bool.eq_iff_iff, List.any_eq_true, List.any_eq_true]
    exact exists_congr fun a => and_congr_right fun ha => by rw [h a (List.mem_range.mp ha)]
  have hqueue : ∀ q < 5, (d.putBit (F.IRQ_ARMED_ARMED n) b c).queuePending q = d.queuePending q := fun q hq => by
    simp only [queuePending, bit]
    rw [hhost _ _ _ _ (by omega) (by omega) (by decide), hhost _ _ _ _ (by omega) (by omega) (by decide),
      hhost _ _ _ _ (by omega) (by omega) (by decide), hhost _ _ _ _ (by omega) (by omega) (by decide),
      hhost _ _ _ _ (by omega) (by omega) (by decide)]
  have hring : ∀ r < 2, (d.putBit (F.IRQ_ARMED_ARMED n) b c).ringPending r = d.ringPending r := fun r hr => by
    simp only [ringPending, bit]
    rw [hhost _ _ _ _ (by omega) (by omega) (by decide), hhost _ _ _ _ (by omega) (by omega) (by decide)]
  unfold vectorPending
  rw [hany 146 _ _ fun p hp => by rw [hroute p hp, hassert], hany 5 _ _ fun q hq => by rw [hqueue q hq, hhost _ _ _ _ (by omega) (by omega) (by decide)],
    hany 2 _ _ fun q hq => by rw [hring q hq, hhost _ _ _ _ (by omega) (by omega) (by decide)]]

omit hn in
theorem armed_putBit {c : Bool} (hb : b < 32) : (d.putBit (F.IRQ_ARMED_ARMED n) b c).armed (32 * n + b) = c := by
  rw [armed, show (32 * n + b) / 32 = n by omega, show (32 * n + b) % 32 = b by omega]
  cases c
  · exact testBit_putBit_false d hb
  · exact testBit_putBit_self d _ b hb

omit hn in
/-- Of several vectors written, one. -/
theorem rearm_one (hb : b < 32) : d.rearm n (2 ^ b) = if (d.putBit (F.IRQ_ARMED_ARMED n) b true).vectorPending (32 * n + b)
    then (d.putBit (F.IRQ_ARMED_ARMED n) b true).signal (32 * n + b) else d.putBit (F.IRQ_ARMED_ARMED n) b true := by
  unfold rearm
  rw [bits_two_pow b hb]
  rfl

/-- An armed vector that the host takes sends its message and is disarmed. -/
theorem signal_sends (hb : b < 32) (harm : d.armed (32 * n + b) = true) (hreq : d.canRequest = true) (hmask : d.msixMasked (32 * n + b) = false) :
    d.signal (32 * n + b) = (d.emit (.msix (32 * n + b))).putBit (F.IRQ_ARMED_ARMED n) b false := by
  unfold signal
  extract_lets v
  have hv : v = 32 * n + b := Nat.mod_eq_of_lt (by omega)
  rw [hv, if_pos (by simp [harm, hreq]), if_neg (by simp [hmask]), show (32 * n + b) / 32 = n by omega, show (32 * n + b) % 32 = b by omega]

/-- Arming a vector leaves what the host has set of it. -/
theorem canRequest_putBit_armed (c : Bool) : (d.putBit (F.IRQ_ARMED_ARMED n) b c).canRequest = d.canRequest := by
  rw [canRequest, canRequest, bit, bit, bit, bit, get_putBit_armed d hn c fun n hn => by simp only [Fld.key, bar0]; omega,
    get_putBit_armed d hn c fun n hn => by simp only [Fld.key, bar0]; omega]

theorem msixMasked_putBit_armed (v : Nat) (c : Bool) : (d.putBit (F.IRQ_ARMED_ARMED n) b c).msixMasked v = d.msixMasked v := by
  rw [msixMasked, msixMasked, bit, bit, bit, bit, get_putBit_armed d hn c fun n hn => by simp only [Fld.key, bar0, bar4]; omega,
    get_putBit_armed d hn c fun n hn => by simp only [Fld.key, bar0, bar4]; omega]

/-- With nothing pending a vector is armed, and nothing is sent. -/
theorem rearm_arms (hb : b < 32) (hp : d.vectorPending (32 * n + b) = false) :
    (d.rearm n (2 ^ b)).armed (32 * n + b) = true ∧ (d.rearm n (2 ^ b)).out = d.out := by
  rw [d.rearm_one hb, vectorPending_putBit_armed d hn, hp]
  exact ⟨armed_putBit d hb, rfl⟩

/-- With a source pending the message goes at once. -/
theorem rearm_sends (hb : b < 32) (hp : d.vectorPending (32 * n + b) = true) (hreq : d.canRequest = true) (hmask : d.msixMasked (32 * n + b) = false) :
    (d.rearm n (2 ^ b)).armed (32 * n + b) = false ∧ (d.rearm n (2 ^ b)).out = .msix (32 * n + b) :: d.out := by
  rw [d.rearm_one hb, vectorPending_putBit_armed d hn, hp, if_pos rfl, signal_sends _ hn hb (armed_putBit d hb)
    ((canRequest_putBit_armed d hn true).trans hreq) ((msixMasked_putBit_armed d hn _ true).trans hmask)]
  exact ⟨armed_putBit _ hb, rfl⟩

end Rearm

end Dev

/-! ### The commands complete -/

section Commands

variable {s : State} {page v : Nat}

theorem irqStatWrite_clears (ht : s.dev.taken page 0x1C) : Completes (.blkIrqStatWrite page v ⟨0, 0⟩) s (fun d =>
    d.get (F.BLK_IRQ_RAW page) = (s.dev.get (F.BLK_IRQ_RAW page) - (s.dev.get (F.BLK_IRQ_RAW page) &&& (v % 2 ^ 32))) % 2 ^ 32
      ∧ KeepsRegs s.dev d [F.BLK_IRQ_RAW page] ∧ KeepsMemory s.dev d) := by
  have hnone := s.dev.hwEvents_none page
  have heq : s.dev.irqStatWrite page v 0 0 = s.dev.clearRaw page (v % 2 ^ 32) := by
    rw [Dev.irqStatWrite_eq _ ht (by rw [hnone]) (by rw [hnone]; exact .inl rfl), hnone]
    simp
  refine completes_of_eq (u := (·.irqStatWrite page v 0 0)) rfl heq ⟨?_, Dev.keepsRegs_canon (Dev.keepsRegs_set _ _ _), Dev.keepsMemory_canon rfl rfl rfl rfl⟩
  rw [Dev.get_canon, Dev.clearRaw, Dev.get_set_self]

/-- A write that comes with events: what stands after them and is not BLK_IRQ_RAW stands, and a bit that they set stays pending. -/
theorem irqStatWrite_sets {hw parity b : Nat} {e : Dev} (ht : s.dev.taken page 0x1C) (he : s.dev.hwEvents page hw parity = e)
    (ha : e.accepted = s.dev.accepted) (hs : e.state = s.dev.state ∨ e.state ≠ 1) (hb : b < 32) (hraw : e.testBit (F.BLK_IRQ_RAW page) b = true)
    (hset : ((hw &&& irqSources page) ||| (if parity % 32 = 0 then 0 else 2)).testBit b = true) {P : Dev → Prop}
    (hP : ∀ d : Dev, d.testBit (F.BLK_IRQ_RAW page) b = true → (∀ f : Fld, f.key ≠ (F.BLK_IRQ_RAW page).key → d.get f = e.get f) → P d) :
    Completes (.blkIrqStatWrite page v ⟨hw, parity⟩) s P := by
  subst he
  refine completes_of_eq (u := (·.irqStatWrite page v hw parity)) rfl (Dev.irqStatWrite_eq _ ht ha hs) (hP _ ?_ fun f hf => ?_)
  · rw [Dev.testBit_canon]
    exact Dev.testBit_clearRaw _ hb hraw (by rw [testBit_sub_and, hset]; simp)
  · rw [Dev.get_canon, Dev.get_clearRaw _ hf]

theorem accepted_raise (d : Dev) (p b : Nat) : (d.raise p b).accepted = d.accepted := (congrArg Dev.accepted (d.unrecorded_raise p b) :)

theorem irqStatWrite_event {b : Nat} (ht : s.dev.taken page 0x1C) (hb : b < 32) (hsrc : irqSources page / 2 ^ b % 2 = 1) (h₂ : b ≠ 2) :
    Completes (.blkIrqStatWrite page v ⟨2 ^ b, 0⟩) s (fun d => d.testBit (F.BLK_IRQ_RAW page) b = true
      ∧ d.get (F.BLK_EVT_CNT_COUNT page) = (s.dev.get (F.BLK_EVT_CNT_COUNT page) + 1) % 2 ^ 32) := by
  obtain ⟨hand, hone⟩ := s.dev.hwEvents_one ht.1 hb hsrc
  rw [Dev.hwEvent, if_neg h₂] at hone
  refine irqStatWrite_sets ht hone (accepted_raise _ _ _) (.inl (Dev.get_raise _ _ _ rfl)) hb (Dev.raise_raw _ _ _ hb) ?_ fun d hraw hget => ⟨hraw, ?_⟩
  · rw [hand]; simp
  · rw [hget _ (by simp only [Fld.key, bar0]; omega), Dev.raise_evt]

/-- The fault a page shows, with its event, outlasts what the device then does by itself. -/
theorem faultEvent_stands (d : Dev) (page : Nat) : ((d.put (F.BLK_STAT_FAULT page) true).raise page 2).autoLevel.testBit (F.BLK_IRQ_RAW page) 2 = true
    ∧ ((d.put (F.BLK_STAT_FAULT page) true).raise page 2).autoLevel.get (F.BLK_STAT_FAULT page) = 1 := by
  have hmark : (F.BLK_STAT_FAULT page).mark := by simp only [Fld.mark, Fld.key, bar0]; omega
  obtain ⟨-, hget, hraw⟩ := ((d.put (F.BLK_STAT_FAULT page) true).raise page 2).marksStand_autoLevel
  refine ⟨hraw page 2 (by decide) (Dev.raise_raw _ _ _ (by decide)), ?_⟩
  rw [hget _ hmark, Dev.get_raise _ _ _ (Fld.mark_calm hmark), Dev.get_put_self _ _ _ one_ne_zero]
  rfl

theorem irqStatWrite_fault (ht : s.dev.taken page 0x1C) (hsrc : irqSources page / 4 % 2 = 1) : Completes (.blkIrqStatWrite page v ⟨4, 0⟩) s (fun d =>
    d.testBit (F.BLK_IRQ_RAW page) 2 = true ∧ d.bit (F.BLK_STAT_FAULT page) = true) := by
  obtain ⟨hand, hone⟩ := s.dev.hwEvents_one ht.1 (b := 2) (by decide) hsrc
  rw [Dev.hwEvent, if_pos rfl] at hone
  obtain ⟨hraw, hfault⟩ := faultEvent_stands s.dev page
  refine irqStatWrite_sets ht hone ?_ ?_ (by decide) hraw ?_ fun d hraw hget => ⟨hraw, ?_⟩
  · rw [(Dev.marksStand_autoLevel _).accepted, accepted_raise]; rfl
  · have hkeep : ((s.dev.put (F.BLK_STAT_FAULT page) true).raise page 2).state = s.dev.state := by
      rw [Dev.state, Dev.get_raise _ _ _ rfl, Dev.get_put_ne _ _ (by simp only [Fld.key, bar0]; omega)]; rfl
    rcases Dev.state_autoLevel ((s.dev.put (F.BLK_STAT_FAULT page) true).raise page 2) with h | h | h
    · exact .inl (h.trans hkeep)
    · exact .inr (by rw [h]; decide)
    · exact .inr (by rw [h]; decide)
  · rw [hand]; decide
  · rw [Dev.bit, hget _ (by simp only [Fld.key, bar0]; omega), hfault]; rfl

theorem irqStatWrite_parity (ht : s.dev.taken page 0x1C) : Completes (.blkIrqStatWrite page v ⟨0, 16⟩) s (fun d =>
    d.testBit (F.BLK_IRQ_RAW page) 1 = true ∧ d.bit (F.BLK_PARITY_SRAM_UE page) = true) := by
  refine irqStatWrite_sets ht (s.dev.hwEvents_sramUe ht.1) (accepted_raise _ _ _) (.inl ?_) (by decide) (Dev.raise_raw _ _ _ (by decide)) ?_
    fun d hraw hget => ⟨hraw, ?_⟩
  · exact (Dev.get_raise _ _ _ rfl).trans (Dev.get_put_ne _ _ (by simp only [Fld.key, bar0]; omega))
  · rw [Nat.zero_and]; decide
  · rw [Dev.bit, hget _ (by simp only [Fld.key, bar0]; omega), Dev.setParity,
      Dev.get_raise _ _ _ (Fld.calm_header page 0x2C 4 1 0 (by decide) (by decide) (by decide) (by decide)), Dev.get_put_self _ _ _ one_ne_zero]
    rfl

theorem blkErrCodeRead_completes (himp : pageImplemented page = true) (hs : s.dev.state ≠ 1) : Completes (.blkErrCodeRead ⟨page, 4, []⟩) s (fun d =>
    d.out.head? = some (.readData (page * 0x1_0000 + 0x20) (s.dev.regWord page 0x20)) ∧ d.get (F.BLK_ERR_CODE_CODE page) = 0
      ∧ d.get (F.BLK_ERR_CODE_OVERRUN page) = 0 ∧ KeepsRegs s.dev d [F.BLK_ERR_CODE_CODE page, F.BLK_ERR_CODE_OVERRUN page] ∧ KeepsMemory s.dev d) := by
  obtain ⟨hcode, hover⟩ := s.dev.get_errGivenUp page
  exact completes_of_eq (u := (·.errCodeRead page 4 [])) rfl (s.dev.errCodeRead_alone himp hs) ⟨rfl, (Dev.get_canon _ _).trans hcode,
    (Dev.get_canon _ _).trans hover, Dev.keepsRegs_canon (s.dev.keepsRegs_errGivenUp page), Dev.keepsMemory_canon rfl rfl rfl rfl⟩

theorem blkErrCodeRead_completes_held {c : Nat} (himp : pageImplemented page = true) (hs : s.dev.state ≠ 1)
    (h : s.dev.get (F.BLK_ERR_CODE_CODE page) ≠ 0) (hc : c ≠ 0) : Completes (.blkErrCodeRead ⟨page, 4, [c]⟩) s (fun d =>
      d.get (F.BLK_ERR_CODE_OVERRUN page) = 1 ∧ d.testBit (F.BLK_IRQ_RAW page) 0 = true) := by
  obtain ⟨hover, hraw⟩ := Dev.errorInRead_held ((s.dev.errGivenUp page).emit (.readData (page * 0x1_0000 + 0x20) (s.dev.regWord page 0x20))) (c := c)
    (s.dev.get_errGivenUp page).2
  exact completes_of_eq (u := (·.errCodeRead page 4 [c])) rfl (s.dev.errCodeRead_held himp hs h hc)
    ⟨(Dev.get_canon _ _).trans hover, (Dev.testBit_canon _ _ _).trans hraw⟩

theorem irqRouteWrite_completes {n : Nat} (hn : n < 37) (ht : s.dev.taken 2 (0x80 + 4 * n)) : Completes (.irqRouteWrite n v) s (fun d =>
    ∀ k < 4, pageImplemented (4 * n + k) = true →
      d.get (F.IRQ_ROUTE_MASK n k) = bitsAt v (8 * k + 7) 1 ∧ d.get (F.IRQ_ROUTE_VECTOR n k) = bitsAt v (8 * k) 6) := by
  have heq : (if 37 ≤ n then s.dev else s.dev.gated 2 (0x80 + 4 * n) (·.routeWrite n v)) = s.dev.routeWrite n v := by
    rw [if_neg (by omega), Dev.gated_of_taken _ ht]
  refine completes_of_eq (u := fun d => if 37 ≤ n then d else d.gated 2 (0x80 + 4 * n) (·.routeWrite n v)) rfl heq fun k hk himp => ?_
  rw [Dev.get_canon, Dev.get_canon]
  exact s.dev.routeWrite_routes hn hk himp

section Rearm

variable {n b : Nat} (hn : n < 2) (hb : b < 32) (ht : s.dev.taken 2 (0x140 + 4 * n))
include hn ht

theorem completes_of_rearm {P : Dev → Prop} (hP : P (s.dev.rearm n v).canon) : Completes (.irqRearm n v) s P := by
  refine completes_of_eq (u := fun d => if 2 ≤ n then d else d.gated 2 (0x140 + 4 * n) (·.rearm n v)) rfl ?_ hP
  rw [if_neg (by omega), Dev.gated_of_taken _ ht]

include hb

theorem irqRearm_arms (hp : s.dev.vectorPending (32 * n + b) = false) : Completes (.irqRearm n (2 ^ b)) s (fun d =>
    d.armed (32 * n + b) = true ∧ d.out = s.dev.out) := by
  obtain ⟨harm, hout⟩ := s.dev.rearm_arms hn hb hp
  exact completes_of_rearm hn ht ⟨(Dev.testBit_canon _ _ _).trans harm, hout⟩

theorem irqRearm_sends (hp : s.dev.vectorPending (32 * n + b) = true) (hreq : s.dev.canRequest = true)
    (hmask : s.dev.msixMasked (32 * n + b) = false) : Completes (.irqRearm n (2 ^ b)) s (fun d =>
      d.armed (32 * n + b) = false ∧ d.out = .msix (32 * n + b) :: s.dev.out) := by
  obtain ⟨harm, hout⟩ := s.dev.rearm_sends hn hb hp hreq hmask
  exact completes_of_rearm hn ht ⟨(Dev.testBit_canon _ _ _).trans harm, hout⟩

end Rearm

end Commands

/-- Settles O16: each clause is the lemma of its command. -/
theorem interruptRegisters : Obligations.InterruptRegisters := fun _ _ _ _ _ =>
  ⟨irqStatWrite_clears, irqStatWrite_event, irqStatWrite_fault, irqStatWrite_parity, blkErrCodeRead_completes,
    fun _ => blkErrCodeRead_completes_held, irqRouteWrite_completes, irqRearm_arms, irqRearm_sends⟩

end Sys2Proof.Machine
end

section
/-! PROOF. O15, block control. What follows from a block that starts, stops, is withdrawn, tested or frozen is shown in every other word of its page and
of the pages of its users: BLK_CTRL itself is written by the command alone. -/

namespace Sys2Proof.Machine

/-- A field of BLK_CTRL, of any page. -/
def Fld.ctrl (f : Fld) : Prop := f.key / 32 % 0x1_0000 = 0x0C

theorem Fld.ctrl_header (p l w r : Nat) (hl : l < 32) : (⟨bar0 p 0x0C, l, w, r⟩ : Fld).ctrl := by
  simp only [ctrl, key, bar0]; omega

theorem Fld.ctrl_plain {f : Fld} (h : f.ctrl) : f.plain = true := by
  rw [ctrl] at h
  simp only [plain, calm, quiet, h]
  simp

theorem Fld.ctrl_apart {f : Fld} (h : f.ctrl) : Dev.apart f = true := by
  rw [ctrl] at h
  simp only [Dev.apart, h]
  simp
  omega

theorem Fld.ctrl_aside {f : Fld} (h : f.ctrl) : f.aside := ⟨calm_of_plain (ctrl_plain h), .inl (by rw [ctrl] at h; omega)⟩

theorem Fld.ne_of_ctrl {f : Fld} (hf : f.ctrl) {p o l w r : Nat} (ho : o % 0x1_0000 ≠ 0x0C) (hl : l < 32) : f.key ≠ (⟨bar0 p o, l, w, r⟩ : Fld).key :=
  fun h => by
    rw [ctrl, h] at hf
    simp only [key, bar0] at hf
    omega

namespace Dev

variable (d : Dev) {f : Fld}

section Ctrl

variable (hf : f.ctrl)
include hf

section Words

variable {p o l w r : Nat} (ho : o % 0x1_0000 ≠ 0x0C) (hl : l < 32)
include ho hl

theorem get_set_ctrl (v : Nat) : (d.set ⟨bar0 p o, l, w, r⟩ v).get f = d.get f := get_set_ne d v (Fld.ne_of_ctrl hf ho hl)
theorem get_put_ctrl (b : Bool) : (d.put ⟨bar0 p o, l, w, r⟩ b).get f = d.get f := get_put_ne d b (Fld.ne_of_ctrl hf ho hl)
theorem get_putBit_ctrl (k : Nat) (b : Bool) : (d.putBit ⟨bar0 p o, l, w, r⟩ k b).get f = d.get f := get_putBit_ne d k b (Fld.ne_of_ctrl hf ho hl)
theorem get_count_ctrl (n : Nat) : (d.count ⟨bar0 p o, l, w, r⟩ n).get f = d.get f := get_count_ne d n (Fld.ne_of_ctrl hf ho hl)

end Words

theorem get_raise_ctrl (p b : Nat) : (d.raise p b).get f = d.get f := get_raise_aside d (Fld.ctrl_aside hf) p b

/-! ### Camera ports -/

theorem get_countMissing_ctrl (p sid index disp : Nat) : (d.countMissing p sid index disp).get f = d.get f := by
  rw [countMissing, get_ledgerOut, get_raise_ctrl _ hf, get_count_ctrl _ hf (by decide) (by decide)]

theorem get_markMissing_ctrl (p disp : Nat) (late : TrigEntry → StreamSlot → Bool) : (d.markMissing p disp late).get f = d.get f := by
  unfold markMissing
  extract_lets x hit fifo
  rw [get_foldl _ (fun d h => get_countMissing_ctrl d hf _ _ _ _), get_setPort]

theorem get_endLine_ctrl (p sid : Nat) : (d.endLine p sid).get f = d.get f := by
  unfold endLine
  extract_lets r full x st
  split
  · rfl
  · rfl
  · rfl
  · extract_lets d₁ d₂ d₃ d₄
    have h₁ : d₁.get f = d.get f := rfl
    have h₂ : d₂.get f = d₁.get f := by rw [get_ite, get_count_ctrl _ hf (by decide) (by decide), ite_self]
    have h₃ : d₃.get f = d₂.get f := by rw [get_ite, get_count_ctrl _ hf (by decide) (by decide), ite_self]
    have h₄ : d₄.get f = d₃.get f := by rw [get_ite, get_raise_ctrl _ hf, ite_self]
    rw [get_ledgerOut, h₄, h₃, h₂, h₁]

theorem get_endStreams_ctrl (p : Nat) : (d.endStreams p).get f = d.get f :=
  get_foldl d (fun d sid => by rw [get_ite, get_endLine_ctrl _ hf, ite_self]) _

theorem get_portDown_ctrl (p : Nat) : (d.portDown p).get f = d.get f := by rw [portDown, get_endStreams_ctrl _ hf, get_markMissing_ctrl _ hf]

theorem get_setPortState_ctrl (p s : Nat) : (d.setPortState p s).get f = d.get f := get_set_ctrl d hf (by decide) (by decide) s

theorem get_lockLoss_ctrl (p c : Nat) : (d.lockLoss p c).get f = d.get f := by
  unfold lockLoss
  extract_lets held d₁ d₂ x
  have h₁ : d₁.get f = d.get f := by
    rw [get_ite, get_relayUpdate_aside _ (Fld.ctrl_aside hf), get_putBit_ctrl _ hf (by decide) (by decide), ite_self]
  clear_value d₁
  have h₂ : d₂.get f = d.get f := by rw [get_setPortState_ctrl _ hf, get_portDown_ctrl _ hf, h₁]
  rw [get_ite, get_ite, get_ite, get_raise_ctrl _ hf, get_markDown, get_setPort, get_markDown, get_endStreams_ctrl _ hf, h₂, h₁, ite_self, ite_self, ite_self]

theorem get_portEnable_ctrl (p : Nat) (v : Bool) : (d.portEnable p v).get f = d.get f := by
  unfold portEnable
  split
  · extract_lets po d₁ x
    have h₁ : d₁.get f = d.get f := by rw [get_setPort, get_put_ctrl _ hf (by decide) (by decide)]
    clear_value d₁
    rw [get_ite, get_setPortState_ctrl _ hf, get_setPortState_ctrl _ hf, get_setPort, ite_self, h₁]
  · extract_lets d₁ x
    have h₁ : d₁.get f = d.get f := by rw [get_setPortState_ctrl _ hf, get_portDown_ctrl _ hf]
    rw [get_setPort, get_set_ctrl _ hf (by decide) (by decide), get_put_ctrl _ hf (by decide) (by decide), h₁]

theorem get_refreshStale_ctrl : d.refreshStale.get f = d.get f := by
  unfold refreshStale
  extract_lets was n d₁
  have h₁ : d₁.get f = d.get f := by rw [get_put_ctrl _ hf (by decide) (by decide), get_set_ctrl _ hf (by decide) (by decide)]
  rw [get_ite, get_raise_ctrl _ hf, ite_self, h₁]

/-! ### Lanes -/

theorem get_laneShow_ctrl (l : Nat) : (d.laneShow l).get f = d.get f := get_laneShow_aside d (Fld.ctrl_aside hf) l

theorem get_scanLost_ctrl (l : Nat) : (d.scanLost l).get f = d.get f := by
  rw [scanLost, get_ite, get_complete _ _ _ _ (Fld.ctrl_plain hf) (Fld.ctrl_apart hf), get_setLane, ite_self]

omit hf in
theorem get_uplinkPin (l : Nat) (v : Level) : (d.uplinkPin l v).get f = d.get f := by rw [uplinkPin, get_ite, get_setPin, ite_self]

theorem get_laneStop_ctrl (l : Nat) : (d.laneStop l).get f = d.get f := by
  unfold laneStop
  extract_lets d₁ d₂
  have h₁ : d₁.get f = d.get f := by rw [get_put_ctrl _ hf (by omega) (by decide), get_put_ctrl _ hf (by omega) (by decide)]
  have h₂ : d₂.get f = d₁.get f := by rw [get_ite, get_setPin, get_uplinkPin, ite_self]
  rw [get_laneShow_ctrl _ hf, get_scanLost_ctrl _ hf, get_setLane, h₂, h₁]

theorem get_marginFresh_ctrl (l : Nat) : (d.marginFresh l).get f = d.get f := by
  rw [marginFresh, get_setLane, get_putBit_ctrl _ hf (by decide) (by decide)]

theorem get_laneStart_ctrl (l : Nat) : (d.laneStart l).get f = d.get f := by
  unfold laneStart
  extract_lets d₁ d₂
  have h₁ : d₁.get f = d.get f := by rw [get_ite, get_setPin, get_uplinkPin, ite_self]
  have h₂ : d₂.get f = d₁.get f := get_marginFresh_ctrl d₁ hf l
  rw [get_ite, get_laneShow_ctrl _ hf, get_setLane, h₂, h₁, ite_self]

theorem get_stopLane_ctrl (l : Nat) : (d.stopLane l).get f = d.get f := by
  rw [stopLane, get_ite, get_lockLoss_ctrl _ hf, get_laneStop_ctrl _ hf, ite_self]

theorem get_groupLanes_ctrl (g : Nat) (on : Bool) : (d.groupLanes g on).get f = d.get f :=
  get_foldl d (fun d k => by
    rw [get_ite, get_ite, get_stopLane_ctrl _ hf, get_laneStart_ctrl _ hf, get_laneShow_ctrl _ hf, ite_self, ite_self]) _

theorem get_groupRelays_ctrl (g : Nat) : (d.groupRelays g).get f = d.get f := by
  rw [groupRelays, get_ite, get_relayUpdate_aside _ (Fld.ctrl_aside hf), get_relayUpdate_aside _ (Fld.ctrl_aside hf), ite_self]

theorem get_relayOfLane_ctrl (l : Nat) : (d.relayOfLane l).get f = d.get f := by
  rw [relayOfLane, get_ite, get_relayUpdate_aside _ (Fld.ctrl_aside hf), ite_self]

theorem get_unlock_ctrl (l : Nat) : (d.unlock l).get f = d.get f := by
  unfold unlock
  extract_lets d₁
  have h₁ : d₁.get f = d.get f := get_put_ctrl d hf (by omega) (by decide) _
  rw [get_scanLost_ctrl _ hf, get_ite, get_lockLoss_ctrl _ hf, ite_self, h₁]

omit hf in
theorem get_testAnew (l : Nat) : (d.testAnew l).get f = d.get f := get_setLane d _ _ _

/-! ### Meteor ports -/

theorem get_metShow_ctrl {n : Nat} (hn : n < 8) : (d.metShow n).get f = d.get f := by
  have hdepth : ∀ (d : Dev) v, (d.set (if n % 2 = 0 then F.PLAN_QDEPTH_DEPTH0 (n / 2) else F.PLAN_QDEPTH_DEPTH1 (n / 2)) v).get f = d.get f := fun d v => by
    split
    · exact get_set_ctrl d hf (by omega) (by decide) v
    · exact get_set_ctrl d hf (by omega) (by decide) v
  unfold metShow
  extract_lets x q d₁ d₂ ready d₃
  have h₁ : d₁.get f = d.get f := hdepth d q
  have h₂ : d₂.get f = d₁.get f := get_foldl_range d₁ 4 fun d k hk => get_set_ctrl d hf (by omega) (by decide) _
  have h₃ : d₃.get f = d₂.get f := by rw [get_put_ctrl _ hf (by decide) (by decide), get_set_ctrl _ hf (by decide) (by decide)]
  rw [get_put_ctrl _ hf (by decide) (by decide), h₃, h₂, h₁]

theorem get_blkStat_ctrl (p l w r v : Nat) (hl : l < 32) : (d.set ⟨bar0 p 0x10, l, w, r⟩ v).get f = d.get f := get_set_ctrl d hf (by decide) hl v

omit hf in
theorem get_queueBeacon (n sub k value : Nat) : (d.queueBeacon n sub k value).get f = d.get f := get_setMetPort d _ _

theorem get_metUp_ctrl {n : Nat} (hn : n < 8) : (d.metUp n).get f = d.get f := by
  unfold metUp
  extract_lets d₁ d₂ d₃ d₄
  have h₁ : d₁.get f = d.get f := by
    rw [get_put_ctrl _ hf (by decide) (by decide), get_put_ctrl _ hf (by decide) (by decide), get_setMetPort]
  have h₂ : d₂.get f = d₁.get f := get_foldl_range d₁ 4 fun d k hk => by
    rw [get_set_ctrl _ hf (by omega) (by decide), get_set_ctrl _ hf (by omega) (by decide)]
  have h₃ : d₃.get f = d₂.get f := by rw [get_setPin, get_blkStat_ctrl _ hf _ _ _ _ _ (by decide)]
  have h₄ : d₄.get f = d₃.get f := by
    rw [get_ite, get_foldl _ fun d k => by rw [queueSync, get_queueBeacon, get_queueBeacon], ite_self]
  rw [get_metShow_ctrl _ hf hn, h₄, h₃, h₂, h₁]

theorem get_metHalt_ctrl {n : Nat} (hn : n < 8) : (d.metHalt n).get f = d.get f := by
  unfold metHalt
  extract_lets d₁ d₂
  have h₁ : d₁.get f = d.get f := by
    rw [get_put_ctrl _ hf (by decide) (by decide), get_put_ctrl _ hf (by decide) (by decide), get_setMetPort]
  have h₂ : d₂.get f = d₁.get f := get_foldl_range d₁ 4 fun d k hk => get_set_ctrl d hf (by omega) (by decide) _
  rw [get_metShow_ctrl _ hf hn, get_setPin, get_set_ctrl _ hf (by decide) (by decide), get_blkStat_ctrl _ hf _ _ _ _ _ (by decide), h₂, h₁]

theorem get_metTest_ctrl (n : Nat) (on : Bool) : (d.metTest n on).get f = d.get f := by
  unfold metTest
  extract_lets x d₁ d₂
  have h₂ : d₂.get f = d₁.get f := by
    rw [get_blkStat_ctrl _ hf _ _ _ _ _ (by decide), get_put_ctrl _ hf (by decide) (by decide), get_put_ctrl _ hf (by decide) (by decide)]
  rw [get_setPin, h₂]
  exact get_setMetPort d _ _

/-! ### Ethernet, motion and signal channels -/

theorem get_netRefresh_ctrl : d.netRefresh.get f = d.get f :=
  get_foldl_range d 2 fun d e he => by
    extract_lets d₁
    have h₁ : d₁.get f = d.get f := get_setPin d _ _ _
    rw [get_ite, get_put_ctrl _ hf (by omega) (by decide), get_setPin, ite_self, h₁]

omit hf in
theorem get_repRefresh : d.repRefresh.get f = d.get f :=
  get_foldl d (fun d r => by
    have hdrive : (d.repDrive r).get f = d.get f := by
      unfold repDrive
      extract_lets p
      rw [get_setPin, get_setPin]
    have hlow : (d.repLow r).get f = d.get f := by
      rw [repLow, get_setPin, get_setPin, get_setPin]
      rfl
    rw [get_ite, hdrive, hlow, ite_self]) _

theorem get_motStart_ctrl (n : Nat) (a b : Bool) : (d.motStart n a b).get f = d.get f := by
  unfold motStart motShow
  extract_lets x d₁ d₂ p
  have h₁ : d₁.get f = d.get f := rfl
  have h₂ : d₂.get f = d₁.get f := by
    rw [get_put_ctrl _ hf (by omega) (by decide), get_put_ctrl _ hf (by omega) (by decide), get_put_ctrl _ hf (by omega) (by decide)]
  rw [get_set_ctrl _ hf (by omega) (by decide), get_set_ctrl _ hf (by omega) (by decide), get_set_ctrl _ hf (by omega) (by decide),
    get_set_ctrl _ hf (by omega) (by decide), h₂, h₁]

theorem get_motRefresh_ctrl (was : Nat → Bool) : (d.motRefresh was).get f = d.get f := by
  rw [motRefresh, get_repRefresh]
  exact get_foldl d (fun d n => by
    extract_lets x
    rw [get_ite, get_ite, sclkIdle, sclkIdle, get_setPin, get_setPin, get_motStart_ctrl _ hf, get_put_ctrl _ hf (by omega) (by decide), ite_self, ite_self]) _

theorem get_setStale_ctrl (n : Nat) (v : Bool) : (d.setStale n v).get f = d.get f := by
  unfold setStale
  extract_lets was d₁
  have h₁ : d₁.get f = d.get f := by rw [get_putBit_ctrl _ hf (by decide) (by decide), get_put_ctrl _ hf (by omega) (by decide)]
  rw [get_ite, get_raise_ctrl _ hf, ite_self, h₁]

theorem get_staleUp_ctrl (n : Nat) : (d.staleUp n).get f = d.get f := by rw [staleUp, get_ite, get_setStale_ctrl _ hf, ite_self]

theorem get_sigStart_ctrl (n : Nat) : (d.sigStart n).get f = d.get f := by
  unfold sigStart settle sigDelays
  extract_lets d₁ d₂
  have h₁ : d₁.get f = d.get f := rfl
  have h₂ : d₂.get f = d₁.get f := by rw [get_put_ctrl _ hf (by omega) (by decide), get_put_ctrl _ hf (by omega) (by decide)]
  have hsig : ∀ (d : Dev) x, (d.setSig n x).get f = d.get f := fun _ _ => rfl
  rw [get_staleUp_ctrl _ hf, get_put_ctrl _ hf (by omega) (by decide), hsig, get_set_ctrl _ hf (by omega) (by decide),
    get_set_ctrl _ hf (by omega) (by decide), h₂, h₁]

theorem get_sigRefresh_ctrl (was : Nat → Bool) : (d.sigRefresh was).get f = d.get f := by
  rw [sigRefresh, mclkPins, get_foldl _ fun d m => get_setPin d _ _ _]
  exact get_foldl d (fun d n => by
    rw [get_ite, get_ite, get_sigStart_ctrl _ hf, get_setStale_ctrl _ hf, get_staleUp_ctrl _ hf, ite_self, ite_self]) _

/-! ### The clock -/

theorem get_setClockState_ctrl (s : Nat) : (d.setClockState s).get f = d.get f := by
  unfold setClockState
  extract_lets was locked d₁
  have h₁ : d₁.get f = d.get f := by
    rw [get_put_ctrl _ hf (by decide) (by decide), get_put_ctrl _ hf (by decide) (by decide), get_put_ctrl _ hf (by decide) (by decide),
      get_blkStat_ctrl _ hf _ _ _ _ _ (by decide)]
  rw [get_ite, get_raise_ctrl _ hf, ite_self, h₁]

theorem get_clockRefresh_ctrl : d.clockRefresh.get f = d.get f := by
  unfold clockRefresh
  extract_lets s
  split
  · rw [get_ite, get_announce, get_setClockState_ctrl _ hf, ite_self]
  split
  · rw [get_ite, get_setClockState_ctrl _ hf]
    exact ite_self _
  split
  · rw [get_ite, get_setClockState_ctrl _ hf]
    exact ite_self _
  · rw [get_ite, get_setClockState_ctrl _ hf]
    exact ite_self _

/-! ### Blocks that start and stop -/

omit hf in
theorem lt_of_isMet {page : Nat} (h : isMet page = true) : page - 0x81 < 8 := by
  simp only [isMet, Bool.and_eq_true, decide_eq_true_eq] at h
  omega

theorem get_pageRuns_ctrl (page : Nat) (on : Bool) (mot sig : Nat → Bool) : (d.pageRuns page on mot sig).get f = d.get f := by
  unfold pageRuns
  split
  · rw [get_refreshStale_ctrl _ hf, get_portEnable_ctrl _ hf]
  split
  · exact get_groupLanes_ctrl d hf _ _
  split
  · next h => rw [get_ite, get_ite, get_metHalt_ctrl _ hf (lt_of_isMet h), get_metUp_ctrl _ hf (lt_of_isMet h), ite_self, ite_self]
  split
  · exact get_netRefresh_ctrl d hf
  split
  · exact get_motRefresh_ctrl d hf _
  split
  · exact get_sigRefresh_ctrl d hf _
  split
  · exact get_merRefresh_aside d (Fld.ctrl_aside hf)
  · rw [get_ite, get_ite, get_put_ctrl _ hf (by decide) (by decide), ite_self, ite_self]

/-- A change of engines leaves BLK_CTRL as the change itself does. -/
theorem get_poolChange_ctrl (u : Dev → Dev) : (d.poolChange u).get f = (u d).get f :=
  get_foldl (u d) (fun x s => by rw [get_ite, get_raise_ctrl _ hf, ite_self]) _

theorem get_withRuns_ctrl (u : Dev → Dev) : (d.withRuns u).get f = (u d).get f := by
  unfold withRuns
  extract_lets d₁
  have h₁ : d₁.get f = (u d).get f := get_poolChange_ctrl d hf u
  clear_value d₁
  rw [get_foldl _ fun x p => get_pageRuns_ctrl x hf _ _ _ _, h₁]

/-- TEST changes, with what follows of it: BLK_CTRL as written. -/
theorem get_setTest_ctrl (page : Nat) (v : Bool) : (d.setTest page v).get f = (d.put (F.BLK_CTRL_TEST page) v).get f := by
  unfold setTest
  extract_lets sig d₁
  have h₁ : d₁.get f = (d.put (F.BLK_CTRL_TEST page) v).get f := get_put_ctrl _ hf (by decide) (by decide) v
  clear_value d₁
  rw [← h₁]
  split
  · refine get_foldl d₁ (fun d k => ?_) _
    extract_lets l d₂ d₃
    have h₂ : d₂.get f = d.get f := by rw [get_testAnew, get_ite, get_put_ctrl _ hf (by omega) (by decide), ite_self]
    have h₃ : d₃.get f = d₂.get f := get_unlock_ctrl d₂ hf l
    rw [get_relayOfLane_ctrl _ hf, get_laneShow_ctrl _ hf, get_ite, get_laneStart_ctrl _ hf, ite_self, h₃, h₂]
  split
  · exact get_metTest_ctrl d₁ hf _ _
  split
  · exact get_sigRefresh_ctrl d₁ hf _
  · rfl

/-! ### Blocks withdrawn, and back -/

theorem get_engShow_ctrl (e : Nat) : (d.engShow e).get f = d.get f := by
  unfold engShow
  extract_lets x
  rw [get_set_ctrl _ hf (by decide) (by decide), get_put_ctrl _ hf (by decide) (by decide), get_put_ctrl _ hf (by decide) (by decide)]

theorem get_engOfflineReq_ctrl (e : Nat) : (d.engOfflineReq e).get f = d.get f := by
  unfold engOfflineReq
  extract_lets x d₁
  have h₁ : d₁.get f = d.get f := by
    simp only [d₁]
    split
    · rw [requeue, setPlace, get_updBody, get_engShow_ctrl _ hf, get_setEng]
    · rfl
  rw [get_ite, get_put_ctrl _ hf (by decide) (by decide), ite_self, h₁]

theorem get_engRejoin_ctrl (e : Nat) : (d.engRejoin e).get f = d.get f := by
  rw [engRejoin, get_ite, get_put_ctrl _ hf (by decide) (by decide), get_put_ctrl _ hf (by decide) (by decide), ite_self]

theorem get_withdrawPage_ctrl (page : Nat) : (d.withdrawPage page).get f = (d.put (F.BLK_CTRL_OFFLINE_REQ page) true).get f := by
  unfold withdrawPage
  extract_lets mot sig d₁
  change _ = d₁.get f
  clear_value d₁
  split
  · rw [get_groupRelays_ctrl _ hf, get_groupLanes_ctrl _ hf]
  split
  · exact get_motRefresh_ctrl d₁ hf _
  split
  · exact get_sigRefresh_ctrl d₁ hf _
  · rw [get_ite, get_put_ctrl _ hf (by decide) (by decide), ite_self]

theorem get_rejoinPage_ctrl (page : Nat) : (d.rejoinPage page).get f = (d.put (F.BLK_CTRL_OFFLINE_REQ page) false).get f := by
  unfold rejoinPage
  extract_lets mot sig was d₁ d₂
  have h₂ : d₂.get f = d₁.get f := get_put_ctrl d₁ hf (by decide) (by decide) _
  split
  · exact get_engRejoin_ctrl d₁ hf _
  clear_value d₂
  split
  · rw [get_groupRelays_ctrl _ hf, get_groupLanes_ctrl _ hf, h₂]
  split
  · next h => rw [get_ite, get_metUp_ctrl _ hf (lt_of_isMet h), get_put_ctrl _ hf (by decide) (by decide), ite_self, h₂]
  split
  · rw [get_motRefresh_ctrl _ hf, h₂]
  split
  · rw [get_sigRefresh_ctrl _ hf, h₂]
  · exact h₂

end Ctrl

/-! ### The writes of BLK_CTRL (R60, R61) -/

theorem bit_put_self {g : Fld} (v : Bool) (hw : g.width = 1) : (d.put g v).bit g = v := by
  rw [bit, get_put_self _ _ _ (by omega)]
  cases v <;> rfl

variable {page : Nat}

theorem writeEnable_takes (v : Bool) (ha : alwaysEnabled page = false) (hq : d.quiet = true) : (d.writeEnable page v).bit (F.BLK_CTRL_ENABLE page) = v := by
  unfold writeEnable
  split
  · next h => simpa [ha] using h
  · rw [if_pos (by simp [hq]), bit, get_withRuns_ctrl d (Fld.ctrl_header page _ _ _ (by decide))]
    exact bit_put_self d v rfl

theorem writeTest_takes (v : Bool) (hn : noTestSource page = false) (he : isEng page = false) (ho : d.offline page = true) :
    (d.writeTest page v).bit (F.BLK_CTRL_TEST page) = v := by
  unfold writeTest
  split
  · assumption
  · rw [if_neg (by simp [hn]), if_pos (by simp [he, ho]), bit, get_setTest_ctrl d (Fld.ctrl_header page _ _ _ (by decide))]
    exact bit_put_self d v rfl

theorem writeFreeze_takes (v : Bool) (hs : 3 ≤ d.state) : (d.writeFreeze page v).bit (F.BLK_CTRL_FREEZE page) = v := by
  have hf : (F.BLK_CTRL_FREEZE page).ctrl := Fld.ctrl_header page _ _ _ (by decide)
  unfold writeFreeze
  split
  · assumption
  · rw [if_neg (by omega), bit, get_ite, get_ite, get_clockRefresh_ctrl _ hf, get_foldl _ fun d k => get_laneShow_ctrl d hf _, ite_self, ite_self]
    exact bit_put_self d v rfl

theorem writeOffline_takes (v : Bool) (hs : servesOffline page = true) : (d.writeOffline page v).bit (F.BLK_CTRL_OFFLINE_REQ page) = v := by
  have hf : (F.BLK_CTRL_OFFLINE_REQ page).ctrl := Fld.ctrl_header page _ _ _ (by decide)
  have hmark : (F.BLK_CTRL_OFFLINE_REQ page).mark := by simp only [Fld.mark, Fld.key, bar0]; omega
  unfold writeOffline
  split
  · assumption
  rw [if_neg (by simp [hs])]
  cases v
  · rw [if_pos (by decide), bit, get_poolChange_ctrl _ hf, get_rejoinPage_ctrl _ hf]
    exact bit_put_self d false rfl
  · have hreq : (d.put (F.BLK_CTRL_OFFLINE_REQ page) true).bit (F.BLK_CTRL_OFFLINE_REQ page) = true := bit_put_self d true rfl
    rw [if_neg (by decide)]
    split
    · rw [bit, (marksStand_autoLevel _).mark _ hmark, get_poolChange_ctrl _ hf, get_engOfflineReq_ctrl _ hf, get_withdrawPage_ctrl _ hf]
      exact hreq
    · rw [bit, get_withdrawPage_ctrl _ hf]
      exact hreq

theorem blockOffline_ends (hs : servesOffline page = true) (hm : isMet page = false) (hr : d.bit (F.BLK_CTRL_OFFLINE_REQ page) = true)
    (ho : d.offline page = false) (hw : d.workEnded page = true) : d.blockOffline page = d.put (F.BLK_STAT_OFFLINE page) true := by
  unfold blockOffline
  rw [if_neg (by simp [hs, hr, ho]), if_neg (by simp [hm]), if_pos hw]

/-! ### SOFT_RESET (R60, Table regs-6) -/

theorem softReset_resets (h : d.bit (F.BLK_CTRL_ENABLE page) = false ∨ d.offline page = true ∨ d.state = 8) :
    d.softReset page = (d.resetBlock page).put (F.BLK_STAT_FAULT page) false := by
  unfold softReset
  rw [if_pos (by rcases h with h | h | h <;> simp [h])]

/-- Clearing fields whose reset value is 0 leaves each of them 0. -/
theorem get_clearFields_mem {fs : List Fld} {f : Fld} (hmem : f ∈ fs) (h : ∀ g ∈ fs, g.reset = 0) : (d.clearFields fs).get f = 0 := by
  have hclear : ∀ (d : Dev), ∀ g ∈ fs, g.key = f.key → (d.set g g.reset).get f = 0 := fun d g hg hk => by
    rw [get, set, h g hg, h f hmem, hk, Sparse.get_set_self, Nat.zero_mod]
  have hkeep : ∀ (l : List Fld) (d : Dev), (∀ g ∈ l, g ∈ fs) → d.get f = 0 → (d.clearFields l).get f = 0 := fun l => by
    induction l with
    | nil => exact fun _ _ hd => hd
    | cons g l ih =>
      refine fun d hl hd => ih (d.set g g.reset) (fun g' hg' => hl g' (List.mem_cons_of_mem _ hg')) ?_
      by_cases hk : g.key = f.key
      · exact hclear d g (hl g List.mem_cons_self) hk
      · rw [get_set_ne _ _ (Ne.symm hk), hd]
  obtain ⟨l₁, l₂, rfl⟩ := List.append_of_mem hmem
  rw [clearFields, List.foldl_append, List.foldl_cons]
  exact hkeep l₂ _ (fun g hg => by simp [hg]) (hclear _ f hmem rfl)

/-- The trigger generators, which clearing fields and showing leave alone. -/
theorem gens_clearFields (fs : List Fld) : (d.clearFields fs).gens = d.gens := by
  unfold clearFields
  exact foldl_keeps_of_mem Dev.gens fs (fun d g _ => by rfl) d

theorem gens_refreshStale : d.refreshStale.gens = d.gens := by
  unfold refreshStale
  extract_lets was n d₁
  have h : (d₁.raise 0x30 5).gens = d₁.gens := (congrArg Dev.gens (unrecorded_raise d₁ 0x30 5) :)
  rw [apply_ite Dev.gens, h, ite_self]
  rfl

theorem gens_portEnable (p : Nat) : (d.portEnable p true).gens = d.gens := by
  unfold portEnable
  rw [if_pos rfl]
  extract_lets po d₁ x
  have h₁ : d₁.gens = d.gens := rfl
  rw [apply_ite Dev.gens]
  exact (ite_self _).trans h₁

/-- After SOFT_RESET a camera's generator counts its triggers from 0, and its counters are 0. -/
theorem resetBlock_camera {p : Nat} (hp : p < 16) (hpage : page = 16 + p) :
    (d.resetBlock page).get (F.CXP_CNT_MATCHED_COUNT p) = 0 ∧ ((d.resetBlock page).gen p).nextIndex = 0 := by
  subst hpage
  have hcxp : isCxp (16 + p) = true := by simp [isCxp]; omega
  have hfs : counters (16 + p) = [F.CXP_PWR_FLT_CNT p, F.TGEN_SKIP_DROPPED p, F.TGEN_SKIP_POSTPONED p] ++ words (16 + p) (run32 0x60 8 ++ [0x88, 0x30C, 0x310]) := by
    rw [counters, if_pos hcxp, Nat.add_sub_cancel_left]
  unfold resetBlock
  refine ⟨get_clearFields_mem _ ?_ ?_, ?_⟩
  · rw [hfs]
    exact List.mem_append_right _ (List.mem_map.mpr ⟨0x60, by decide, rfl⟩)
  · rw [hfs]
    intro g hg
    rcases List.mem_append.mp hg with hg | hg
    · simp only [List.mem_cons, List.not_mem_nil, or_false] at hg
      rcases hg with rfl | rfl | rfl <;> rfl
    · obtain ⟨o, -, rfl⟩ := List.mem_map.mp hg
      rfl
  · rw [gen, gens_clearFields, resetInner, if_pos hcxp, Nat.add_sub_cancel_left]
    unfold resetCxp
    extract_lets on d₁ d₂
    have h₁ : d₁.gen p = { step := (d.gen p).step } := gen_setGen _ _ _
    have h₂ : d₂.gens = d₁.gens := gens_clearFields d₁ _
    rw [gens_refreshStale, apply_ite Dev.gens, gens_portEnable, ite_self, h₂]
    exact congrArg (·.nextIndex) h₁

end Dev

/-! ### The commands complete -/

section Commands

variable {s : State} {page : Nat} {v : Bool}

theorem blkEnable_completes (ht : s.dev.taken page 0x0C) (ha : alwaysEnabled page = false) (hq : s.dev.quiet = true) :
    Completes (.blkEnable page v) s (fun d => d.bit (F.BLK_CTRL_ENABLE page) = v) :=
  completes_of_taken (u := (·.writeEnable page v)) rfl ht (by rw [Dev.bit_canon, s.dev.writeEnable_takes v ha hq])

theorem softReset_completes (ht : s.dev.taken page 0x0C)
    (h : s.dev.bit (F.BLK_CTRL_ENABLE page) = false ∨ s.dev.offline page = true ∨ s.dev.state = 8) : Completes (.softReset page) s (fun d =>
      d.bit (F.BLK_STAT_FAULT page) = false ∧ ∀ p < 16, page = 16 + p → d.get (F.CXP_CNT_MATCHED_COUNT p) = 0 ∧ (d.gen p).nextIndex = 0) := by
  refine completes_of_taken (u := (·.softReset page)) rfl ht ?_
  rw [s.dev.softReset_resets h]
  refine ⟨by rw [Dev.bit_canon, Dev.bit_put_self _ false rfl], fun p hp hpage => ?_⟩
  obtain ⟨hcount, hindex⟩ := s.dev.resetBlock_camera hp hpage
  generalize s.dev.resetBlock page = d at hcount hindex
  exact ⟨by rw [Dev.get_canon, Dev.get_put_ne _ _ (by simp only [Fld.key, bar0]; omega), hcount], hindex⟩

theorem blkTest_completes (ht : s.dev.taken page 0x0C) (hn : noTestSource page = false) (he : isEng page = false) (ho : s.dev.offline page = true) :
    Completes (.blkTest page v) s (fun d => d.bit (F.BLK_CTRL_TEST page) = v) :=
  completes_of_taken (u := (·.writeTest page v)) rfl ht (by rw [Dev.bit_canon, s.dev.writeTest_takes v hn he ho])

theorem freeze_completes (ht : s.dev.taken page 0x0C) (hs : 3 ≤ s.dev.state) :
    Completes (.freeze page v) s (fun d => d.bit (F.BLK_CTRL_FREEZE page) = v) :=
  completes_of_taken (u := (·.writeFreeze page v)) rfl ht (by rw [Dev.bit_canon, s.dev.writeFreeze_takes v hs])

theorem offlineReq_completes (ht : s.dev.taken page 0x0C) (hs : servesOffline page = true) :
    Completes (.offlineReq page v) s (fun d => d.bit (F.BLK_CTRL_OFFLINE_REQ page) = v) :=
  completes_of_taken (u := (·.writeOffline page v)) rfl ht (by rw [Dev.bit_canon, s.dev.writeOffline_takes v hs])

theorem blockOffline_completes (hs : servesOffline page = true) (hm : isMet page = false) (hr : s.dev.bit (F.BLK_CTRL_OFFLINE_REQ page) = true)
    (ho : s.dev.offline page = false) (hw : s.dev.workEnded page = true) : Completes (.blockOffline page) s (fun d =>
      d.offline page = true ∧ KeepsRegs s.dev d [F.BLK_STAT_OFFLINE page] ∧ KeepsMemory s.dev d) :=
  completes_of_eq (u := (·.blockOffline page)) rfl (s.dev.blockOffline_ends hs hm hr ho hw)
    ⟨(Dev.bit_canon _ _).trans (Dev.bit_put_self _ true rfl), Dev.keepsRegs_canon (Dev.keepsRegs_set _ _ _), Dev.keepsMemory_canon rfl rfl rfl rfl⟩

end Commands

/-- Settles O15: each clause is the lemma of its command. -/
theorem blockControl : Obligations.BlockControl := fun _ _ _ _ =>
  ⟨blkEnable_completes, softReset_completes, blkTest_completes, freeze_completes, offlineReq_completes, blockOffline_completes⟩

end Sys2Proof.Machine
end

section
/-! PROOF. O22, O23 and O24. The statements O22 and O23 take any register store, also one that lists a field with a value wider than the field, and there
each fails: a number of bands or a length so large makes registers of other purposes part of a port's stream table or transaction buffer. No command
writes such a value, so no run reaches these stores; the two refutations rest on nothing else. -/

namespace Sys2Proof.Machine

/-- Settles O24: a sample below 2^n, shifted left by 16 - n, stays below 2^16. -/
theorem samplesWidened : Obligations.SamplesWidened := by
  intro d p v k hk hk4 hv
  have hwiden : d.widen p v = v * 2 ^ (16 - (8 + 2 * k)) := by rw [Dev.widen, hk, Nat.mod_eq_of_lt hv]
  refine ⟨hwiden, ?_⟩
  calc d.widen p v = v * 2 ^ (16 - (8 + 2 * k)) := hwiden
    _ < 2 ^ (8 + 2 * k) * 2 ^ (16 - (8 + 2 * k)) := Nat.mul_lt_mul_of_pos_right hv (Nat.two_pow_pos _)
    _ = 2 ^ 16 := by rw [← Nat.pow_add, Nat.add_sub_cancel' (by omega)]

/-- What completes as a change of the device leaves that device, in canonical form. -/
theorem Completes.of_run {i : Instr} {s : State} {u : Dev → Dev} {P : Dev → Prop} (h : Completes i s P) (hi : exec i s = s.run u) : P (u s.dev).canon := by
  obtain ⟨d, hd, hP⟩ := h
  rw [hi] at hd
  injection hd with hs
  injection hs with hdev
  exact hdev ▸ hP

/-! ### O22: BANDS beyond its two bits -/

/-- Port 0 is READY with stream 5 alone, that of band 112: the stream ID of that band lies where CXP_CNT_EXTRA does. -/
def bandsOverCounters : State := { dev := {
  regs := [((F.BLK_STAT_STATE 16).key, 4), ((F.CXP_FORMAT_LINE_LEN 0).key, 1), ((F.CXP_FORMAT_BANDS 0).key, 112), ((F.CXP_CNT_EXTRA_COUNT 0).key, 5)]
  ports := [(0, { rx := [{ sid := 5, marks := true }] })] } }

/-- Refutes O22: with BANDS = 112 the line that finds no trigger is counted in the word that holds its own stream's ID; the stream has no band any more,
its line no samples, and the sample received is not kept. -/
theorem not_triggersAndLines : ¬ Obligations.TriggersAndLines := by
  intro h
  obtain ⟨-, -, -, -, -, hline, -⟩ := h bandsOverCounters 0 (by decide)
  obtain ⟨-, -, hgot⟩ := (hline 5 0 [1] (by decide +kernel) (by decide +kernel) rfl rfl rfl (by decide) (by decide +kernel)).of_run rfl
  revert hgot
  decide +kernel

/-! ### O23: LEN beyond its eight bits -/

/-- Port 0 waits for the end of a read of 0x3F0_1F01 bytes; the last stands where the MSI-X pending bits do. A vector, masked in PCIe, waits for the page's event. -/
def lenOverPba : State := { dev := {
  regs := [(F.HOST_LINK_BME.key, 1), ((F.BLK_IRQ_EN 16).key, 0x100), ((F.CXP_CC_CMD_BUSY 0).key, 1), ((F.CXP_CC_CMD_LEN 0).key, 0x3F0_1F00)] } }

theorem Dev.ccBytes_getD (d : Dev) (p : Nat) {n i : Nat} (h : i < n) :
    (d.ccBytes p n).getD i 0 = bitsAt (d.get (F.CXP_CC_BUF_DATA p (i / 4))) (8 * (i % 4)) 8 := by
  simp [ccBytes, List.getD_eq_getElem?_getD, h]

/-- Refutes O23: with LEN = 0x3F0_1F00 the read takes in the MSI-X pending bits, and CC_DONE sets one. The camera brings no byte, so the last byte should
read as before. -/
theorem not_controlChannel : ¬ Obligations.ControlChannel := by
  intro h
  obtain ⟨-, -, -, hack, -⟩ := h lenOverPba 0 0 (by decide)
  obtain ⟨-, -, -, -, -, hread⟩ := (hack 0 [] (by decide +kernel)).of_run rfl
  have hlast := hread (by decide +kernel) (by simp) 0x3F0_1F00 (by decide +kernel)
  rw [Dev.ccBytes_getD _ _ (Nat.lt_succ_self _), Dev.ccBytes_getD _ _ (Nat.lt_succ_self _)] at hlast
  revert hlast
  decide +kernel

end Sys2Proof.Machine
end

section
/-! PROOF. O21, the link of a camera port. What a port counts when its lines end stands in words 0x5C to 0x7C of its page; the link's own fields, and the
command in hand, outlast that. -/

namespace Sys2Proof.Machine

/-! ### What the accounting of lines leaves alone -/

/-- A calm field outside words 0x5C to 0x7C of its page, where a camera port counts its lines and shows the trigger it matched last. -/
def Fld.uncounted (f : Fld) : Prop := f.calm = true ∧ (f.key / 32 % 0x1_0000 < 0x5C ∨ 0x80 ≤ f.key / 32 % 0x1_0000)

theorem Fld.ne_of_uncounted {f : Fld} (hf : f.uncounted) {p o l w r : Nat} (ho : 0x5C ≤ o) (ho' : o < 0x80) (hl : l < 32) :
    f.key ≠ (⟨bar0 p o, l, w, r⟩ : Fld).key := fun h => by
  have h₂ := hf.2
  simp only [key, bar0] at *
  omega

/-- A field of a camera's page past the header and outside those words. -/
theorem Fld.uncounted_camera {p o l w r : Nat} (hp : p < 16) (ho : 0x40 ≤ o) (ho' : o < 0x1_0000) (hl : l < 32) (h : o < 0x5C ∨ 0x80 ≤ o) :
    (⟨bar0 (16 + p) o, l, w, r⟩ : Fld).uncounted :=
  ⟨calm_of_plain (plain_page _ _ _ _ _ ho ho' hl (by omega) (by omega) (by omega)), by simp only [key, bar0]; omega⟩

theorem Fld.uncounted_portState (p : Nat) : (F.BLK_STAT_STATE p).uncounted :=
  ⟨calm_header _ _ _ _ _ (by decide) (by decide) (by decide) (by decide), by simp only [key, bar0]; omega⟩

namespace Dev

variable (d : Dev) {f : Fld} (p : Nat)

section Uncounted

variable (hf : f.uncounted)
include hf

theorem get_count_uncounted {p o l w r : Nat} (n : Nat) (ho : 0x5C ≤ o) (ho' : o < 0x80) (hl : l < 32) :
    (d.count ⟨bar0 p o, l, w, r⟩ n).get f = d.get f := get_count_ne d n (Fld.ne_of_uncounted hf ho ho' hl)

theorem get_countMissing_uncounted (sid index disp : Nat) : (d.countMissing p sid index disp).get f = d.get f := by
  rw [countMissing, get_ledgerOut, get_raise _ _ _ hf.1, get_count_uncounted _ hf _ (by decide) (by decide) (by decide)]

theorem get_markMissing_uncounted (disp : Nat) (late : TrigEntry → StreamSlot → Bool) : (d.markMissing p disp late).get f = d.get f := by
  unfold markMissing
  extract_lets x hit fifo
  rw [get_foldl _ (fun d h => get_countMissing_uncounted d p hf _ _ _), get_setPort]

theorem get_endLine_uncounted (sid : Nat) : (d.endLine p sid).get f = d.get f := by
  unfold endLine
  extract_lets r full x st
  split
  · rfl
  · rfl
  · rfl
  · extract_lets d₁ d₂ d₃ d₄
    have h₁ : d₁.get f = d.get f := rfl
    have h₂ : d₂.get f = d₁.get f := by rw [get_ite, get_count_uncounted _ hf _ (by decide) (by decide) (by decide), ite_self]
    have h₃ : d₃.get f = d₂.get f := by rw [get_ite, get_count_uncounted _ hf _ (by decide) (by decide) (by decide), ite_self]
    have h₄ : d₄.get f = d₃.get f := by rw [get_ite, get_raise _ _ _ hf.1, ite_self]
    rw [get_ledgerOut, h₄, h₃, h₂, h₁]

theorem get_portDown_uncounted : (d.portDown p).get f = d.get f := by
  rw [portDown, endStreams, get_foldl _ (fun d sid => by rw [get_ite, get_endLine_uncounted _ _ hf, ite_self]), get_markMissing_uncounted _ _ hf]

end Uncounted

/-- The device without what the accounting of a port's lines may change: the records of events, Meridian and the ports. -/
def unlined (d : Dev) : Dev := { d.unrecorded with mer := {}, ports := [] }

theorem unlined_of_unrecorded {d e : Dev} (h : e.unrecorded = d.unrecorded) : e.unlined = d.unlined := by rw [unlined, unlined, h]

theorem cmd_of_unlined {d e : Dev} (h : e.unlined = d.unlined) : e.cmd = d.cmd := (congrArg Dev.cmd h :)
theorem time_of_unlined {d e : Dev} (h : e.unlined = d.unlined) : e.time = d.time := (congrArg Dev.time h :)

theorem unlined_ite (c : Prop) [Decidable c] (a b : Dev) : (if c then a else b).unlined = if c then a.unlined else b.unlined := apply_ite unlined c a b

theorem unlined_foldl {α : Type} {step : Dev → α → Dev} (h : ∀ d a, (step d a).unlined = d.unlined) (l : List α) :
    (l.foldl step d).unlined = d.unlined := foldl_keeps unlined (fun d a _ e => e ▸ h d a) l d

theorem unlined_raise (p b : Nat) : (d.raise p b).unlined = d.unlined := unlined_of_unrecorded (unrecorded_raise d p b)

theorem unlined_ledgerOut (sid seq index disp : Nat) : (d.ledgerOut p sid seq index disp).unlined = d.unlined := by
  unfold ledgerOut
  split
  · obtain ⟨m, o, h⟩ := merSend_eq d 0x11 ((p ^^^ 8) + d.streamIdx p sid % 4 * 16 + disp * 256) 2 [seq, index]
    rw [h]; rfl
  · rfl

theorem unlined_markMissing (disp : Nat) (late : TrigEntry → StreamSlot → Bool) : (d.markMissing p disp late).unlined = d.unlined := by
  unfold markMissing
  extract_lets x hit fifo
  rw [unlined_foldl _ fun d h => by rw [countMissing, unlined_ledgerOut, unlined_raise]; rfl]
  rfl

theorem unlined_endLine (sid : Nat) : (d.endLine p sid).unlined = d.unlined := by
  unfold endLine
  extract_lets r full x st
  split
  · rfl
  · rfl
  · rfl
  · extract_lets d₁ d₂ d₃ d₄
    have h₁ : d₁.unlined = d.unlined := rfl
    have h₂ : d₂.unlined = d₁.unlined := (unlined_ite _ _ _).trans (ite_self _)
    have h₃ : d₃.unlined = d₂.unlined := (unlined_ite _ _ _).trans (ite_self _)
    have h₄ : d₄.unlined = d₃.unlined := by rw [unlined_ite, unlined_raise, ite_self]
    rw [unlined_ledgerOut, h₄, h₃, h₂, h₁]

theorem unlined_portDown : (d.portDown p).unlined = d.unlined := by
  rw [portDown, endStreams, unlined_foldl _ (fun d sid => by rw [unlined_ite, unlined_endLine, ite_self]), unlined_markMissing]

/-! ### The port's own records -/

theorem ports_of_unrecorded {d e : Dev} (h : e.unrecorded = d.unrecorded) : e.ports = d.ports := (congrArg Dev.ports h :)

theorem port_congr {d e : Dev} (h : e.ports = d.ports) (q : Nat) : e.port q = d.port q := by rw [port, port, h]

theorem ports_relayUpdate : (d.relayUpdate p).ports = d.ports := (congrArg Dev.ports (unshown_relayUpdate d p) :)

theorem apart_portState : apart (F.BLK_STAT_STATE (cxp p)) = true := by
  have h : (F.BLK_STAT_STATE (cxp p)).key / 32 = bar0 (16 + p) 0x10 := by simp only [Fld.key, bar0, cxp]; omega
  simp only [apart, h, bar0, Bool.and_eq_true, Bool.not_eq_true', Bool.and_eq_false_iff, decide_eq_false_iff_not]
  omega

theorem port_complete (e : Err) (detail : Nat) (rets : List Nat) : (d.complete e detail rets).port p = d.port p := by
  obtain ⟨r, u, q, t, h⟩ := complete_eq d e detail rets
  rw [h]; rfl

theorem portState_complete (e : Err) (detail : Nat) (rets : List Nat) : (d.complete e detail rets).portState p = d.portState p :=
  get_complete _ _ _ _ (Fld.plain_header _ _ _ _ _ (by decide) (by decide) (by decide) (by decide) (by decide) (by decide)) (apart_portState p)

theorem portState_canon : d.canon.portState p = d.portState p := get_canon d _

theorem portState_setPortState {s : Nat} (hs : s < 256) : (d.setPortState p s).portState p = s :=
  (get_set_self d (F.BLK_STAT_STATE (cxp p)) s).trans (Nat.mod_eq_of_lt hs)

/-- The port's state is shown in the header of its page, and nowhere else. -/
theorem get_setPortState_ne (s : Nat) (h : f.key ≠ (F.BLK_STAT_STATE (cxp p)).key) : (d.setPortState p s).get f = d.get f := get_set_ne d s h

/-! ### Power wait and discovery (R84, R85) -/

theorem powerWaitExpiry_discovers (hs : d.portState p = 1) (ht : 500000000 ≤ d.elapsed (d.port p).since) :
    d.powerWaitExpiry p = (d.setPortState p 2).setPort p { d.port p with since := d.time.c } := by
  simp only [powerWaitExpiry, hs, ht]
  rfl

/-- The largest of a list of numbers is the one of its members that none exceeds. -/
theorem foldl_max_eq {l : List Nat} {c : Nat} (hc : c ∈ l) (hl : ∀ x ∈ l, x ≤ c) : l.foldl max 0 = c := by
  have h : (0 :: l).max? = some c := List.max?_eq_some_iff.mpr ⟨List.mem_cons_of_mem _ hc, by simpa using hl⟩
  rw [List.max?_cons'] at h
  exact Option.some.inj h

/-- The rates from which discovery chooses: those of the camera up to SPEED_MAX (R85). -/
def commonRates (d : Dev) (p rates : Nat) : List Nat :=
  (List.range 8).filter (fun c => c ≠ 0 && c ≤ d.get (F.CXP_LINK_SPEED_MAX p) && rates / 2 ^ c % 2 = 1)

theorem mem_commonRates {rates c : Nat} :
    c ∈ d.commonRates p rates ↔ c < 8 ∧ c ≠ 0 ∧ c ≤ d.get (F.CXP_LINK_SPEED_MAX p) ∧ rates / 2 ^ c % 2 = 1 := by
  simp [commonRates, and_assoc]

theorem topRate {rates c : Nat} (h₁ : 1 ≤ c) (h₈ : c < 8) (hm : c ≤ d.get (F.CXP_LINK_SPEED_MAX p)) (hc : rates / 2 ^ c % 2 = 1)
    (htop : ∀ c', c < c' → c' < 8 → c' ≤ d.get (F.CXP_LINK_SPEED_MAX p) → rates / 2 ^ c' % 2 = 0) : (d.commonRates p rates).foldl max 0 = c := by
  refine foldl_max_eq ((mem_commonRates d p).mpr ⟨h₈, by omega, hm, hc⟩) fun x hx => ?_
  obtain ⟨hx₈, -, hxm, hx⟩ := (mem_commonRates d p).mp hx
  by_contra hlt
  have := htop x (by omega) hx₈ hxm
  omega

section Discovery

variable (hs : d.portState p = 2) (hu : d.uplink p = true)
include hs hu

theorem discovery_found {rates conns c : Nat} (hc : (d.commonRates p rates).foldl max 0 = c) (h₁ : 1 ≤ c) (hn : d.get (F.CXP_CTRL_CONN p) + 1 ≤ conns) :
    ∃ x : Port, d.discovery p true rates conns =
      ((((((d.set (F.CXP_LINK_CONN_FOUND p) (conns - 1)).set (F.CXP_LINK_SPEED p) c).put (F.CXP_LINK_HSUP p) (d.feat 11)).emit
        (.cxpSetup p c (d.get (F.CXP_CTRL_CONN p)))).setPortState p 3).setPort p x) := by
  subst hc
  unfold discovery
  rw [if_pos ⟨hs, rfl, hu⟩]
  exact ⟨_, if_neg (not_or.mpr ⟨Nat.one_le_iff_ne_zero.mp h₁, by omega⟩)⟩

theorem discovery_refused {rates conns : Nat} (hn : conns < d.get (F.CXP_CTRL_CONN p) + 1) :
    ∃ x : Port, d.discovery p true rates conns = ((d.set (F.CXP_LINK_CONN_FOUND p) (conns - 1)).hwError (cxp p) .range 1).setPort p x := by
  unfold discovery
  rw [if_pos ⟨hs, rfl, hu⟩]
  exact ⟨_, if_pos (.inr hn)⟩

end Discovery

/-! ### READY, lock loss and relink (R84, R86) -/

/-- A port that reaches READY shows it and is not down, also where a restart ends with it (R114, R115). -/
theorem portReady_ready : (d.portReady p).portState p = 4 ∧ ((d.portReady p).port p).downAt = none := by
  unfold portReady
  extract_lets restarted x d₁ d₂ d₃
  have hd₂ : d₂.portState p = 4 ∧ (d₂.port p).downAt = none := by
    constructor
    · rw [portState, get_relayUpdate _ _ fun _ => by simp only [Fld.key, bar0]; omega, get_raise _ _ _ (Fld.uncounted_portState _).1]
      exact portState_setPortState d p (show 4 < 256 by decide)
    · rw [port_congr (ports_relayUpdate _ p), port_congr (ports_of_unrecorded (unrecorded_raise _ _ _)), port_setPort]
  have hd₃ : d₃.portState p = 4 ∧ (d₃.port p).downAt = none := hd₂
  clear_value restarted d₂ d₃
  split
  · split
    · rwa [portState_complete, port_complete]
    · exact hd₃
  · exact hd₂

theorem linkReady_ready (hs : d.portState p = 3) (hl : d.allLocked p = true) (ht : 1000000 ≤ d.elapsed (d.port p).lockSince) :
    d.linkReady p = d.portReady p := if_pos ⟨hs, hl, ht⟩

theorem relink_ready (hs : d.portState p = 7) (ha : d.bit (F.CXP_CTRL_AUTO_RELINK p) = true) (hl : d.allLocked p = true)
    (ht : d.elapsed (d.port p).since ≤ 10000000) : d.relink p = d.portReady p := if_pos ⟨hs, ha, hl, ht⟩

/-- A bit cleared in a field is 0, also one past the field's width. -/
theorem testBit_putBit_false_any (k : Nat) : (d.putBit f k false).testBit f k = false := by
  by_cases hk : k < f.width
  · exact testBit_putBit_false d hk
  · have hlt : (d.putBit f k false).get f < 2 ^ k := by
      rw [putBit, get_set_self]
      exact (Nat.mod_lt _ (Nat.two_pow_pos _)).trans_le (Nat.pow_le_pow_right (by decide) (by omega))
    simp [testBit, Nat.div_eq_of_lt hlt]

/-- Connection c without the lock it had, and the relay outputs after it. -/
def unlocked (d : Dev) (p c : Nat) : Dev := (d.putBit (F.CXP_LINK_LOCK p) c false).relayUpdate p

theorem get_unlocked_ne (c : Nat) (hl : f.key ≠ (F.CXP_LINK_LOCK p).key) (hr : f.key ≠ (F.CXP_RELAY_RLY_ACTIVE p).key) :
    (d.unlocked p c).get f = d.get f := by
  rw [unlocked, get_relayUpdate _ _ fun _ => hr, get_putBit_ne _ _ _ hl]

theorem portState_unlocked (c : Nat) : (d.unlocked p c).portState p = d.portState p :=
  get_unlocked_ne d p c (by simp only [Fld.key, bar0]; omega) (by simp only [Fld.key, bar0]; omega)

theorem lockLoss_down {c : Nat} (hc : c ≤ d.get (F.CXP_CTRL_CONN p)) (hl : d.testBit (F.CXP_LINK_LOCK p) c = true) (hu : d.portUp p = true) :
    ∃ x : Port, d.lockLoss p c = (((((d.unlocked p c).portDown p).setPortState p 7).setPort p x).markDown p).raise (cxp p) 3 := by
  have hconn : (d.unlocked p c).get (F.CXP_CTRL_CONN p) = d.get (F.CXP_CTRL_CONN p) :=
    get_unlocked_ne d p c (by simp only [Fld.key, bar0]; omega) (by simp only [Fld.key, bar0]; omega)
  have hup : (d.unlocked p c).portUp p = true := by rw [← hu, portUp, portUp, portState_unlocked]
  unfold lockLoss
  extract_lets held d₁ d₂
  have h₁ : d₁ = d.unlocked p c := if_pos hl
  rw [h₁, if_neg (by simp [held, hl, hconn, hc]), if_pos hup]
  subst d₂
  rw [h₁]
  exact ⟨_, rfl⟩

theorem portState_setPort (x : Port) : (d.setPort p x).portState p = d.portState p := rfl

theorem portState_markDown : (d.markDown p).portState p = d.portState p := get_markDown d

theorem portState_raise (q b : Nat) : (d.raise q b).portState p = d.portState p := get_raise _ _ _ (Fld.uncounted_portState _).1

theorem portState_relayUpdate : (d.relayUpdate p).portState p = d.portState p :=
  get_relayUpdate d p fun _ => by simp only [Fld.key, bar0]; omega

/-- A field given the value that it holds, one that is not its reset value, stands as it stood. -/
theorem get_set_same {f g : Fld} {v : Nat} (hv : d.get f = v) (hr : v ≠ f.reset) (hw : v < 2 ^ f.width) : (d.set f v).get g = d.get g := by
  by_cases h : g.key = f.key
  · have hfind : Sparse.find? d.regs f.key = some v := by
      unfold get Sparse.get at hv
      cases hx : Sparse.find? d.regs f.key with
      | none => simp [hx] at hv; omega
      | some x => simpa [hx] using hv
    simp only [get, set, Nat.mod_eq_of_lt hw, h, Sparse.get, Sparse.set, if_neg hr, hfind, Sparse.find?_insert_self v (Sparse.find?_erase_self _ _)]
  · exact get_set_ne d v h

/-! ### Power over the cable (R111, R112) -/

/-- Power is off after a fault, and the fault is latched and counted. -/
def powerCut (d : Dev) (p : Nat) : Dev :=
  ((((((d.put (F.CXP_PWR_FLT p) true).put (F.CXP_PWR_EN_LEVEL p) false).put (F.CXP_CTRL_POCXP_EN p) false).put (F.CXP_PWR_FLT_LATCH p) true).countSat
    (F.CXP_PWR_FLT_CNT p)).raise (cxp p) 5)

theorem powerCut_shows (hp : p < 16) : (d.powerCut p).get (F.CXP_CTRL_POCXP_EN p) = 0 ∧ (d.powerCut p).get (F.CXP_PWR_EN_LEVEL p) = 0
    ∧ (d.powerCut p).get (F.CXP_PWR_FLT_LATCH p) = 1 ∧ (d.powerCut p).get (F.CXP_PWR_FLT p) = 1 ∧ (d.powerCut p).portState p = d.portState p := by
  have hcalm : ∀ {o l w r : Nat}, 0x80 ≤ o ∨ o = 0x40 → o < 0x1_0000 → l < 32 → (⟨bar0 (16 + p) o, l, w, r⟩ : Fld).calm = true :=
    fun ho ho' hl => (Fld.uncounted_camera hp (by omega) ho' hl (by omega)).1
  simp [powerCut, portState, get_raise, hcalm, (Fld.uncounted_portState _).1, countSat, put, get_set_header, b2n]

theorem pwrFault_cuts (h₀ : d.portState p ≠ 0) (h₉ : d.portState p ≠ 9) (hp : p < 16) :
    d.pwrFault p true = (((d.powerCut p).portDown p).setPortState p 8).markDown p := by
  obtain ⟨-, -, -, -, hs⟩ := powerCut_shows d p hp
  unfold pwrFault
  rw [if_pos rfl]
  exact if_neg (not_or.mpr ⟨hs.trans_ne h₀, hs.trans_ne h₉⟩)

/-- A write of 1 that finds a fault, present or latched, is refused (R111). -/
theorem pocxpEnWrite_refused (ht : d.taken (cxp p) 0x40) (h : d.bit (F.CXP_PWR_FLT_LATCH p) = true ∨ d.bit (F.CXP_PWR_FLT p) = true) :
    d.pocxpEnWrite p true = d.refuse (cxp p) 0x40 .state := by
  rw [pocxpEnWrite, gated_of_taken _ ht]
  simp only [if_true, if_pos h]

theorem pocxpEnWrite_restores (ht : d.taken (cxp p) 0x40) (hl : d.bit (F.CXP_PWR_FLT_LATCH p) = false) (hf : d.bit (F.CXP_PWR_FLT p) = false)
    (hs : d.portState p = 8) : ∃ x : Port, d.pocxpEnWrite p true =
      ((((d.put (F.CXP_CTRL_POCXP_EN p) true).put (F.CXP_PWR_EN_LEVEL p) true).setPortState p 1).setPort p x).restartHistory p := by
  have h₁ : (d.put (F.CXP_CTRL_POCXP_EN p) true).portState p = 8 := by
    rw [← hs]; exact get_put_ne _ _ (by simp only [Fld.key, bar0]; omega)
  have h₂ : ((d.put (F.CXP_CTRL_POCXP_EN p) true).put (F.CXP_PWR_EN_LEVEL p) true).portState p = 8 := by
    rw [← h₁]; exact get_put_ne _ _ (by simp only [Fld.key, bar0]; omega)
  rw [pocxpEnWrite, gated_of_taken _ ht]
  simp only [if_true, hl, hf, h₁, h₂, Bool.false_eq_true, or_self, if_false, show (8 : Nat) ≠ 0 by decide]
  exact ⟨_, rfl⟩

theorem pocxpEnWrite_off (ht : d.taken (cxp p) 0x40) :
    d.pocxpEnWrite p false = (d.put (F.CXP_CTRL_POCXP_EN p) false).put (F.CXP_PWR_EN_LEVEL p) false := by
  rw [pocxpEnWrite, gated_of_taken _ ht]
  rfl

/-! ### PORT_RESTART (R113, R114) -/

/-- The port RESTARTING: its lines ended, its history gone, its relay output idle. -/
def restarting (d : Dev) (p : Nat) : Dev :=
  let d := ((d.portDown p).setPortState p 6).markDown p
  ((d.setPort p { linesAnew (d.port p) with restartAt := some d.time.c, since := d.time.c }).restartHistory p).relayUpdate p

theorem unlined_left (s : Nat) : (((d.portDown p).setPortState p s).markDown p).unlined = d.unlined := by
  have h : ((d.portDown p).setPortState p s).unlined = d.unlined := unlined_portDown d p
  generalize (d.portDown p).setPortState p s = e at *
  rw [markDown, unlined_ite, ← h]
  exact ite_self _

theorem cmd_anew (x : Port) : (((d.setPort p x).restartHistory p).relayUpdate p).cmd = d.cmd :=
  (cmd_of_unshown (unshown_relayUpdate _ p) :)

theorem portState_anew (x : Port) : (((d.setPort p x).restartHistory p).relayUpdate p).portState p = d.portState p := portState_relayUpdate _ p

theorem port_anew (x : Port) : (((d.setPort p x).restartHistory p).relayUpdate p).port p = x :=
  (port_congr (ports_relayUpdate _ p) p).trans (port_setPort d p x)

theorem cmd_restarting : (d.restarting p).cmd = d.cmd := (cmd_anew _ p _).trans (cmd_of_unlined (unlined_left d p 6))

theorem portState_restarting : (d.restarting p).portState p = 6 := by
  rw [restarting, portState_anew, portState_markDown, portState_setPortState _ _ (by decide)]

theorem restartAt_restarting : ((d.restarting p).port p).restartAt = some d.time.c := by
  rw [restarting, port_anew]
  exact congrArg (fun t : TimeBase => some t.c) (time_of_unlined (unlined_left d p 6))

theorem arg_congr {d e : Dev} (h : e.cmd = d.cmd) (n : Nat) : e.arg n = d.arg n := by rw [arg, arg, h]
theorem executing_congr {d e : Dev} (h : e.cmd = d.cmd) (code : Nat) : e.executing code = d.executing code := by rw [executing, executing, h]

theorem portRestart_begins (he : d.executing 0x40 = true) (ha : d.arg 0 % 16 = p) (hr : (d.port p).restartAt = none) (hy : d.relayed p = false)
    (hn : d.bit (F.BLK_CTRL_ENABLE (cxp p)) = true) : d.portRestart =
      if d.arg 0 / 256 % 2 = 1 then (d.restarting p).put (F.CXP_PWR_EN_LEVEL p) false else (d.restarting p).restartLink p := by
  subst ha
  unfold portRestart
  rw [if_neg (by simp [he, hr])]
  extract_lets p e x r q
  rw [if_neg (by simp [p, hy]), if_neg (by simp [p, hn])]
  have hcmd : q.arg 0 = d.arg 0 := arg_congr (cmd_restarting d p) 0
  rw [hcmd]
  rfl

/-- With ARG0 bit 9 the restart goes to LINK_CHECK at once (R114). -/
theorem portState_restartLink (he : d.executing 0x40 = true) (ha : d.arg 0 / 512 % 2 = 1) : (d.restartLink p).portState p = 3 := by
  unfold restartLink
  extract_lets po keep e x
  have hk : keep = true := by simp [keep, he, ha]
  rw [hk, portState_setPort, if_pos rfl, portState_setPortState _ _ (by decide)]

end Dev

section Commands

variable {s : State} {p : Nat}

theorem Completes.mono {i : Instr} {P Q : Dev → Prop} (h : Completes i s P) (hPQ : ∀ d, P d → Q d) : Completes i s Q := by
  obtain ⟨d, hd, hP⟩ := h
  exact ⟨d, hd, hPQ d hP⟩

theorem powerWaitExpiry_completes (hs : s.dev.portState p = 1) (ht : 500000000 ≤ s.dev.elapsed (s.dev.port p).since) :
    Completes (.cxpPowerWaitExpiry p) s (fun d => d.portState p = 2 ∧ (d.port p).since = s.dev.time.c) :=
  completes_of_eq (u := (·.powerWaitExpiry p)) rfl (s.dev.powerWaitExpiry_discovers p hs ht)
    ⟨by rw [Dev.portState_canon, Dev.portState_setPort, Dev.portState_setPortState _ _ (by decide)],
      by rw [Dev.port_congr (Dev.canon_ports _), Dev.port_setPort]⟩

theorem discovery_completes {rates conns c : Nat} (hs : s.dev.portState p = 2) (hu : s.dev.uplink p = true) (h₁ : 1 ≤ c) (h₈ : c < 8)
    (hm : c ≤ s.dev.get (F.CXP_LINK_SPEED_MAX p)) (hc : rates / 2 ^ c % 2 = 1)
    (htop : ∀ c', c < c' → c' < 8 → c' ≤ s.dev.get (F.CXP_LINK_SPEED_MAX p) → rates / 2 ^ c' % 2 = 0)
    (hn : s.dev.get (F.CXP_CTRL_CONN p) + 1 ≤ conns) :
    Completes (.cxpDiscovery p true rates conns) s (fun d => d.portState p = 3 ∧ d.get (F.CXP_LINK_SPEED p) = c
      ∧ d.out.head? = some (.cxpSetup p c (s.dev.get (F.CXP_CTRL_CONN p)))) := by
  obtain ⟨x, hx⟩ := s.dev.discovery_found p hs hu (s.dev.topRate p h₁ h₈ hm hc htop) h₁ hn
  refine completes_of_eq (u := (·.discovery p true rates conns)) rfl hx ⟨?_, ?_, rfl⟩
  · rw [Dev.portState_canon, Dev.portState_setPort, Dev.portState_setPortState _ _ (by decide)]
  · rw [Dev.get_canon, Dev.get_setPort, Dev.get_setPortState_ne _ _ _ (by simp only [Fld.key, bar0]; omega), Dev.get_emit,
      Dev.get_put_ne _ _ (by simp only [Fld.key, bar0]; omega), Dev.get_set_self]
    exact Nat.mod_eq_of_lt (by simp only; omega)

theorem discovery_completes_refused {rates conns : Nat} (hs : s.dev.portState p = 2) (hu : s.dev.uplink p = true)
    (hn : conns < s.dev.get (F.CXP_CTRL_CONN p) + 1) (h₀ : s.dev.get (F.BLK_ERR_CODE_CODE (cxp p)) = 0) :
    Completes (.cxpDiscovery p true rates conns) s (fun d => d.portState p = 2 ∧ d.get (F.BLK_ERR_CODE_CODE (cxp p)) = 2
      ∧ d.get (F.BLK_ERR_INFO_DETAIL (cxp p)) = 1) := by
  obtain ⟨x, hx⟩ := s.dev.discovery_refused p hs hu (rates := rates) hn
  have hne : ∀ {g : Fld}, g.key ≠ (F.CXP_LINK_CONN_FOUND p).key → (s.dev.set (F.CXP_LINK_CONN_FOUND p) (conns - 1)).get g = s.dev.get g :=
    fun h => Dev.get_set_ne _ _ h
  have h₀' := (hne (by simp only [Fld.key, bar0]; omega)).trans h₀
  obtain ⟨-, -, hd, -⟩ := Dev.error_describes _ (cxp p) .range 1 .hardware ((s.dev.set (F.CXP_LINK_CONN_FOUND p) (conns - 1)).freeVal 14) h₀'
  refine completes_of_eq (u := (·.discovery p true rates conns)) rfl hx ⟨?_, ?_, ?_⟩
  · rw [Dev.portState_canon, Dev.portState, Dev.get_setPort, Dev.get_hwError, hne (by simp only [Fld.key, bar0]; omega)]
    · exact hs
    · exact Fld.plain_header _ _ _ _ _ (by decide) (by decide) (by decide) (by decide) (by decide) (by decide)
  · rw [Dev.get_canon, Dev.get_setPort, Dev.hwError, Dev.get_freeUsed, Dev.error_code _ _ _ _ _ _ h₀']
    rfl
  · rw [Dev.get_canon, Dev.get_setPort, Dev.hwError, Dev.get_freeUsed, hd]

theorem ready_completes {i : Instr} {u : Dev → Dev} (hi : exec i s = s.run u) (hu : u s.dev = s.dev.portReady p) :
    Completes i s (fun d => d.portState p = 4 ∧ (d.port p).downAt = none) :=
  completes_of_eq hi hu ((Dev.portState_canon _ p).symm ▸ s.dev.portReady_ready p)

theorem lockLoss_completes (hp : p < 16) {c : Nat} (hc : c ≤ s.dev.get (F.CXP_CTRL_CONN p)) (hl : s.dev.testBit (F.CXP_LINK_LOCK p) c = true)
    (hu : s.dev.portUp p = true) : Completes (.cxpLockLoss p c) s (fun d => d.portState p = 7 ∧ d.testBit (F.CXP_LINK_LOCK p) c = false
      ∧ d.testBit (F.BLK_IRQ_RAW (cxp p)) 3 = true) := by
  obtain ⟨x, hx⟩ := s.dev.lockLoss_down p hc hl hu
  have hlock : (F.CXP_LINK_LOCK p).uncounted := Fld.uncounted_camera hp (by decide) (by decide) (by decide) (by decide)
  refine completes_of_eq (u := (·.lockLoss p c)) rfl hx ⟨?_, ?_, ?_⟩
  · rw [Dev.portState_canon, Dev.portState_raise, Dev.portState_markDown, Dev.portState_setPort, Dev.portState_setPortState _ _ (by decide)]
  · rw [Dev.testBit_canon, Dev.testBit, Dev.get_raise _ _ _ hlock.1, Dev.get_markDown, Dev.get_setPort,
      Dev.get_setPortState_ne _ _ _ (by simp only [Fld.key, bar0]; omega), Dev.get_portDown_uncounted _ _ hlock, Dev.unlocked,
      Dev.get_relayUpdate _ _ fun _ => by simp only [Fld.key, bar0]; omega]
    exact Dev.testBit_putBit_false_any _ c
  · rw [Dev.testBit_canon]
    exact Dev.raise_raw _ _ _ (by decide)

theorem relinkTimeout_completes (hs : s.dev.portState p = 7) (ht : 10000000 < s.dev.elapsed (s.dev.port p).since) :
    Completes (.cxpRelinkTimeout p) s (fun d => d.portState p = 7 ∧ KeepsRegs s.dev d [] ∧ KeepsMemory s.dev d) := by
  have he : s.dev.relinkTimeout p = s.dev.setPortState p 7 := if_pos ⟨hs, ht⟩
  refine completes_of_eq (u := (·.relinkTimeout p)) rfl he ⟨?_, Dev.keepsRegs_canon fun g _ => ?_, Dev.keepsMemory_canon rfl rfl rfl rfl⟩
  · rw [Dev.portState_canon, Dev.portState_setPortState _ _ (by decide)]
  · exact Dev.get_set_same _ hs (show (7 : Nat) ≠ 0 by decide) (show 7 < 2 ^ 8 by decide)

theorem pwrFault_completes (hp : p < 16) (h₀ : s.dev.portState p ≠ 0) (h₉ : s.dev.portState p ≠ 9) : Completes (.cxpPwrFault p true) s (fun d =>
    d.portState p = 8 ∧ d.get (F.CXP_CTRL_POCXP_EN p) = 0 ∧ d.get (F.CXP_PWR_EN_LEVEL p) = 0 ∧ d.get (F.CXP_PWR_FLT_LATCH p) = 1
      ∧ d.get (F.CXP_PWR_FLT p) = 1) := by
  obtain ⟨hen, hlevel, hlatch, hflt, -⟩ := s.dev.powerCut_shows p hp
  have hkeep : ∀ {o l w r : Nat}, o = 0x40 ∨ o = 0x84 → l < 32 → ((((s.dev.powerCut p).portDown p).setPortState p 8).markDown p).canon.get
      ⟨bar0 (16 + p) o, l, w, r⟩ = (s.dev.powerCut p).get ⟨bar0 (16 + p) o, l, w, r⟩ := fun ho hl => by
    rw [Dev.get_canon, Dev.get_markDown, Dev.get_setPortState_ne _ _ _ (by simp only [Fld.key, bar0]; omega),
      Dev.get_portDown_uncounted _ _ (Fld.uncounted_camera hp (by omega) (by omega) hl (by omega))]
  refine completes_of_eq (u := (·.pwrFault p true)) rfl (s.dev.pwrFault_cuts p h₀ h₉ hp) ⟨?_, ?_, ?_, ?_, ?_⟩
  · rw [Dev.portState_canon, Dev.portState_markDown, Dev.portState_setPortState _ _ (by decide)]
  · rw [hkeep (.inl rfl) (by decide), hen]
  · rw [hkeep (.inr rfl) (by decide), hlevel]
  · rw [hkeep (.inr rfl) (by decide), hlatch]
  · rw [hkeep (.inr rfl) (by decide), hflt]

theorem pwrFault_completes_high : Completes (.cxpPwrFault p false) s (fun d =>
    d.get (F.CXP_PWR_FLT p) = 0 ∧ KeepsRegs s.dev d [F.CXP_PWR_FLT p] ∧ KeepsMemory s.dev d) :=
  completes_of_eq (u := (·.pwrFault p false)) (e := s.dev.put (F.CXP_PWR_FLT p) false) rfl rfl
    ⟨by rw [Dev.get_canon, Dev.get_put_self _ _ _ one_ne_zero]; rfl, Dev.keepsRegs_canon (Dev.keepsRegs_set _ _ _), Dev.keepsMemory_canon rfl rfl rfl rfl⟩

theorem pocxpEnWrite_completes (ht : s.dev.taken (cxp p) 0x40) (hl : s.dev.bit (F.CXP_PWR_FLT_LATCH p) = false)
    (hf : s.dev.bit (F.CXP_PWR_FLT p) = false) (hs : s.dev.portState p = 8) : Completes (.pocxpEnWrite p true) s (fun d =>
      d.portState p = 1 ∧ d.get (F.CXP_CTRL_POCXP_EN p) = 1 ∧ d.get (F.CXP_PWR_EN_LEVEL p) = 1) := by
  obtain ⟨x, hx⟩ := s.dev.pocxpEnWrite_restores p ht hl hf hs
  refine completes_of_eq (u := (·.pocxpEnWrite p true)) rfl hx ⟨?_, ?_, ?_⟩
  · rw [Dev.portState_canon]
    exact Dev.portState_setPortState _ p (show 1 < 256 by decide)
  · rw [Dev.get_canon]
    refine (Dev.get_setPortState_ne _ p 1 (by simp only [Fld.key, bar0]; omega)).trans ?_
    rw [Dev.get_put_ne _ _ (by simp only [Fld.key, bar0]; omega), Dev.get_put_self _ _ _ one_ne_zero]
    rfl
  · rw [Dev.get_canon]
    refine (Dev.get_setPortState_ne _ p 1 (by simp only [Fld.key, bar0]; omega)).trans ?_
    rw [Dev.get_put_self _ _ _ one_ne_zero]
    rfl

theorem pocxpEnWrite_completes_refused (hp : p < 16) (ht : s.dev.taken (cxp p) 0x40) (h₀ : s.dev.get (F.BLK_ERR_CODE_CODE (cxp p)) = 0)
    (h : s.dev.bit (F.CXP_PWR_FLT_LATCH p) = true ∨ s.dev.bit (F.CXP_PWR_FLT p) = true) : Completes (.pocxpEnWrite p true) s (fun d =>
      d.get (F.CXP_CTRL_POCXP_EN p) = s.dev.get (F.CXP_CTRL_POCXP_EN p) ∧ d.get (F.BLK_ERR_CODE_CODE (cxp p)) = 1) :=
  completes_of_eq (u := (·.pocxpEnWrite p true)) rfl (s.dev.pocxpEnWrite_refused p ht h)
    ⟨by rw [Dev.get_canon, Dev.get_refuse _ _ _ _ _ (Fld.plain_page _ _ _ _ _ (by decide) (by decide) (by decide) (by omega) (by omega) (by omega))],
      by rw [Dev.get_canon, Dev.refuse_code _ _ _ _ _ h₀]; rfl⟩

theorem pocxpEnWrite_completes_off (ht : s.dev.taken (cxp p) 0x40) : Completes (.pocxpEnWrite p false) s (fun d =>
    d.get (F.CXP_CTRL_POCXP_EN p) = 0 ∧ d.get (F.CXP_PWR_EN_LEVEL p) = 0 ∧ KeepsRegs s.dev d [F.CXP_CTRL_POCXP_EN p, F.CXP_PWR_EN_LEVEL p]
      ∧ KeepsMemory s.dev d) := by
  refine completes_of_eq (u := (·.pocxpEnWrite p false)) rfl (s.dev.pocxpEnWrite_off p ht)
    ⟨?_, ?_, Dev.keepsRegs_canon fun g hg => ?_, Dev.keepsMemory_canon rfl rfl rfl rfl⟩
  · rw [Dev.get_canon, Dev.get_put_ne _ _ (by simp only [Fld.key, bar0]; omega), Dev.get_put_self _ _ _ one_ne_zero]
    rfl
  · rw [Dev.get_canon, Dev.get_put_self _ _ _ one_ne_zero]
    rfl
  · simp only [List.map_cons, List.map_nil, List.mem_cons, List.not_mem_nil, or_false, not_or] at hg
    rw [Dev.get_put_ne _ _ hg.2, Dev.get_put_ne _ _ hg.1]

section Restart

variable (he : s.dev.executing 0x40 = true) (ha : s.dev.arg 0 % 16 = p) (hr : (s.dev.port p).restartAt = none) (hy : s.dev.relayed p = false)
  (hn : s.dev.bit (F.BLK_CTRL_ENABLE (cxp p)) = true)
include he ha hr hy hn

theorem portRestart_completes_unpowered (h : s.dev.arg 0 / 256 % 2 = 1) : Completes .portRestart s (fun d =>
    d.portState p = 6 ∧ d.get (F.CXP_PWR_EN_LEVEL p) = 0 ∧ (d.port p).restartAt = some s.dev.time.c) := by
  refine completes_of_eq (u := (·.portRestart)) rfl ((s.dev.portRestart_begins p he ha hr hy hn).trans (if_pos h)) ⟨?_, ?_, ?_⟩
  · rw [Dev.portState_canon]
    exact (Dev.get_put_ne _ _ (by simp only [Fld.key, bar0]; omega)).trans (s.dev.portState_restarting p)
  · rw [Dev.get_canon, Dev.get_put_self _ _ _ one_ne_zero]
    rfl
  · exact s.dev.restartAt_restarting p

theorem portRestart_completes_rate (h : s.dev.arg 0 / 256 % 2 = 0) (h₉ : s.dev.arg 0 / 512 % 2 = 1) :
    Completes .portRestart s (fun d => d.portState p = 3) := by
  have hcmd := s.dev.cmd_restarting p
  refine completes_of_eq (u := (·.portRestart)) rfl ((s.dev.portRestart_begins p he ha hr hy hn).trans (if_neg (by omega))) ?_
  rw [Dev.portState_canon]
  exact Dev.portState_restartLink _ p ((Dev.executing_congr hcmd _).trans he) ((Dev.arg_congr hcmd 0).symm ▸ h₉)

end Restart

end Commands

/-- Settles O21: each clause is the lemma of its command. -/
theorem cameraLink : Obligations.CameraLink := fun s p hp =>
  ⟨powerWaitExpiry_completes, fun _ _ _ => discovery_completes, fun _ _ => discovery_completes_refused,
    fun hs hl ht => ready_completes (u := (·.linkReady p)) rfl (s.dev.linkReady_ready p hs hl ht), fun _ => lockLoss_completes hp,
    fun hs ha hl ht => (ready_completes (u := (·.relink p)) rfl (s.dev.relink_ready p hs ha hl ht)).mono fun _ ⟨h, _⟩ => h,
    relinkTimeout_completes, pwrFault_completes hp, pwrFault_completes_high, pocxpEnWrite_completes, pocxpEnWrite_completes_refused hp,
    pocxpEnWrite_completes_off, fun he ha hr hy hn => ⟨portRestart_completes_unpowered he ha hr hy hn, portRestart_completes_rate he ha hr hy hn⟩⟩

end Sys2Proof.Machine
end

section
/-! PROOF. O38, line correction. A row slot passes the duties that fall before it, then its lines, band by band: all of that leaves the slots on their
way, the corrected rows and the noise floor alone, and every line keeps its port. -/

namespace Sys2Proof.Machine

/-! ### What the correction of rows leaves alone -/

/-- A plain field that neither CAL shows nor COR writes as rows pass: of COR only the set-up and the count of its background, words 0x64 and 0x68. -/
def Fld.steady (f : Fld) : Prop := f.plain = true ∧ f.key / 32 / 0x1_0000 ≠ 9 ∧
  (f.key / 32 / 0x1_0000 = 0x30 → 0x64 ≤ f.key / 32 % 0x1_0000 ∧ f.key / 32 % 0x1_0000 < 0x6C)

theorem Fld.calm_of_steady {f : Fld} (hf : f.steady) : f.calm = true := calm_of_plain hf.1

theorem Fld.steady_cor {o l w r : Nat} (ho : 0x64 ≤ o) (ho' : o < 0x6C) (hl : l < 32) : (⟨bar0 0x30 o, l, w, r⟩ : Fld).steady :=
  ⟨plain_page _ _ _ _ _ (by omega) (by omega) hl (by decide) (by decide) (by decide), by simp only [key, bar0]; omega, by simp only [key, bar0]; omega⟩

theorem Fld.steady_group {p : Nat} (hp : p < 16) : (F.CXP_CTRL_GROUP p).steady :=
  ⟨plain_page _ _ _ _ _ (by decide) (by decide) (by decide) (by omega) (by omega) (by omega), by simp only [key, bar0]; omega,
    by simp only [key, bar0]; omega⟩

theorem Fld.ne_cal_of_steady {f : Fld} (hf : f.steady) {o l w r : Nat} (ho : o < 0x1_0000) (hl : l < 32) : f.key ≠ (⟨bar0 9 o, l, w, r⟩ : Fld).key :=
  fun h => by
    obtain ⟨-, h₉, -⟩ := hf
    simp only [key, bar0] at *
    omega

theorem Fld.ne_cor_of_steady {f : Fld} (hf : f.steady) {o l w r : Nat} (ho : o < 0x1_0000) (hl : l < 32) (h : o < 0x64 ∨ 0x6C ≤ o) :
    f.key ≠ (⟨bar0 0x30 o, l, w, r⟩ : Fld).key := fun hk => by
  obtain ⟨-, -, h₃⟩ := hf
  simp only [key, bar0] at *
  omega

namespace Dev

variable (d : Dev) {f : Fld}

/-- The row slots on their way to the correction island, the corrected rows, and one field. -/
def rowView (d : Dev) (f : Fld) : List RowSlot × List RowSlot × Nat := (d.slotsOut, d.corOut, d.get f)

theorem rowView_set {g : Fld} (v : Nat) (h : f.key ≠ g.key) : (d.set g v).rowView f = d.rowView f := by
  rw [rowView, get_set_ne d v h]
  rfl

theorem rowView_setSwapSt (s : SwapDef) (x : SwapSt) : (d.setSwapSt s x).rowView f = d.rowView f := rfl

theorem rowView_raise (p b : Nat) (hf : f.calm = true) : (d.raise p b).rowView f = d.rowView f := by
  rw [rowView, get_raise d p b hf]
  obtain ⟨r, o, x, t, h⟩ := raise_eq d p b
  rw [h]
  rfl

theorem rowView_hwError (p : Nat) (e : Err) (detail : Nat) (hf : f.plain = true) : (d.hwError p e detail).rowView f = d.rowView f := by
  rw [rowView, get_hwError d p e detail hf, hwError]
  obtain ⟨r, o, x, t, h⟩ := error_eq d p e detail .hardware (d.freeVal 14)
  rw [h]
  rfl

theorem rowView_foldl {α : Type} {step : Dev → α → Dev} (h : ∀ d a, (step d a).rowView f = d.rowView f) (l : List α) :
    (l.foldl step d).rowView f = d.rowView f := foldl_keeps (·.rowView f) (fun d a _ e => e ▸ h d a) l d

theorem rowView_ite {c : Prop} [Decidable c] {a b : Dev} (ha : a.rowView f = d.rowView f) (hb : b.rowView f = d.rowView f) :
    (if c then a else b).rowView f = d.rowView f := by
  split
  · exact ha
  · exact hb

theorem setBytes_keeps {P : Dev → Prop} (hmem : ∀ d m, P d → P { d with mem := m }) (bs : List Nat) (a : Nat) (h : P d) : P (d.setBytes a bs) := by
  induction bs generalizing d a with
  | nil => exact h
  | cons b bs ih => exact ih _ _ (hmem _ _ h)

theorem rowView_setBytes (bs : List Nat) (a : Nat) : (d.setBytes a bs).rowView f = d.rowView f :=
  setBytes_keeps (P := fun e => e.rowView f = d.rowView f) d (fun _ _ h => h) bs a rfl

/-- What an event leaves alone: all but the monitors' queues and the interrupt of the page of monitors. -/
theorem observe_keeps {P : Dev → Prop} (hmon : ∀ d m, P d → P { d with monitors := m }) (hraise : ∀ d, P d → P (d.raise 0x0B 4))
    (page src inst : Nat) (v : Int) (h : P d) : P (d.observe page src inst v) := by
  unfold observe
  split
  · exact h
  · refine List.foldlRecOn _ _ h fun d h m _ => ?_
    split
    · dsimp only
      split
      · exact hmon _ _ h
      · split
        · exact hraise _ (hmon _ _ h)
        · exact hmon _ _ h
    · exact h

/-! ### The illumination proposals (R479) -/

section Proposals

variable {P : Dev → Prop} (hset : ∀ d o l w r v, o < 0x1_0000 → l < 32 → P d → P (d.set ⟨bar0 9 o, l, w, r⟩ v))
  (hraise : ∀ d, P d → P (d.raise 9 5)) (hmem : ∀ d m n t, P d → P { d with mem := m, free := n, illumDt := t })
include hset hraise hmem

theorem lampPropose_keeps {n : Nat} (hn : n < 16) (h : P d) : P (d.lampPropose n) := by
  have hv : P (d.put (F.CAL_LAMP_PROP_VALID n) false) := hset _ _ _ _ _ _ (by omega) (by decide) h
  unfold lampPropose
  extract_lets d₁ p b rs r now step v
  split
  · exact hv
  · split
    · exact hv
    · exact hraise _ (hmem _ _ _ _ (hset _ _ _ _ _ _ (by omega) (by decide) (hset _ _ _ _ _ _ (by omega) (by decide) hv)))

omit hset hraise in
theorem stepGain_keeps (n p b : Nat) (r : Nat × Nat) (x : Nat) (h : P d) : P (stepGain n p b r d x) := by
  unfold stepGain
  extract_lets a w c step g
  split
  · exact h
  · exact hmem _ _ _ _ (setBytes_keeps d (fun d m h => hmem d m d.free d.illumDt h) _ _ h)

theorem tapPropose_keeps (t : Nat) (h : P d) : P (d.tapPropose t) := by
  unfold tapPropose
  extract_lets act rs dropped d₁ d₂ made
  split
  · exact h
  · split
    · exact hmem _ d.mem d.free _ (hset _ _ _ _ _ _ (by decide) (by decide) h)
    · have h₁ : P d₁ := hmem d _ d.free d.illumDt h
      have h₂ : P d₂ := List.foldlRecOn _ _ h₁ fun d h e _ => List.foldlRecOn _ _ h fun d h x _ => stepGain_keeps d hmem _ _ _ _ x h
      exact hraise _ (hmem _ d₂.mem d₂.free _ (hset _ _ _ _ _ _ (by decide) (by decide) h₂))

/-- What the proposals leave alone: all but the registers of CAL, the coefficients, the free values used and the DT of the last proposal. -/
theorem illumPropose_keeps (herr : ∀ d, P d → P (d.hwError 9 .feature 0)) (t : Nat) (h : P d) : P (d.illumPropose t) := by
  unfold illumPropose
  extract_lets m
  split
  · split
    · exact List.foldlRecOn _ _ h fun d h n hn => lampPropose_keeps d hset hraise hmem (List.mem_range.mp hn) h
    · exact herr _ h
  · split
    · exact tapPropose_keeps d hset hraise hmem t h
    · exact h

end Proposals

theorem rowView_illumPropose (t : Nat) (hf : f.steady) : (d.illumPropose t).rowView f = d.rowView f :=
  illumPropose_keeps (P := fun e => e.rowView f = d.rowView f) d
    (fun e _ _ _ _ v ho hl h => (rowView_set e v (Fld.ne_cal_of_steady hf ho hl)).trans h)
    (fun e h => (rowView_raise e _ _ (Fld.calm_of_steady hf)).trans h) (fun _ _ _ _ h => h) (fun e h => (rowView_hwError e _ _ _ hf.1).trans h) t rfl

theorem zoneRows_raise (p b : Nat) : (d.raise p b).zoneRows = d.zoneRows := (congrArg Dev.zoneRows (unrecorded_raise d p b) :)

theorem zoneRows_illumPropose (t : Nat) : (d.illumPropose t).zoneRows = d.zoneRows :=
  illumPropose_keeps (P := fun e => e.zoneRows = d.zoneRows) d (fun _ _ _ _ _ _ _ _ h => h)
    (fun e h => (zoneRows_raise e 9 5).trans h) (fun _ _ _ _ h => h)
    (fun e h => by
      obtain ⟨r, o, x, t, he⟩ := error_eq e 9 .feature 0 .hardware (e.freeVal 14)
      rw [hwError, he]
      exact h) t rfl

/-- An error recorded leaves the interrupts that stand. -/
theorem error_keeps_raw {q k : Nat} (p : Nat) (e : Err) (detail : Nat) (o : Origin) (w : Nat) (hk : k < 32) (h : d.testBit (F.BLK_IRQ_RAW q) k = true) :
    (d.error p e detail o w).testBit (F.BLK_IRQ_RAW q) k = true := by
  have hne : ∀ {o l w r : Nat}, o = 0x20 ∨ o = 0x24 → l < 32 → (F.BLK_IRQ_RAW q).key ≠ (⟨bar0 p o, l, w, r⟩ : Fld).key := fun ho hl => by
    simp only [Fld.key, bar0]; omega
  unfold error
  refine raise_keeps_raw _ _ _ hk ?_
  rw [← h, testBit, testBit]
  congr 3
  split
  · simp [get_set_ne, hne]
  · simp [countSat, get_set_ne, hne]

theorem raw_illumPropose {q k : Nat} (t : Nat) (hq : q ≠ 9) (hk : k < 32) (h : d.testBit (F.BLK_IRQ_RAW q) k = true) :
    (d.illumPropose t).testBit (F.BLK_IRQ_RAW q) k = true :=
  illumPropose_keeps (P := fun e => e.testBit (F.BLK_IRQ_RAW q) k = true) d
    (fun e _ _ _ _ v ho hl h => by
      rwa [testBit, get_set_ne _ _ (by simp only [Fld.key, bar0]; omega), ← testBit])
    (fun e h => raise_keeps_raw e _ _ hk h) (fun _ _ _ _ h => h) (fun e h => error_keeps_raw e _ _ _ _ _ hk h) t h

/-! ### A closed interval (R160) -/

theorem rowView_observe (page src inst : Nat) (v : Int) (hf : f.calm = true) : (d.observe page src inst v).rowView f = d.rowView f :=
  observe_keeps (P := fun e => e.rowView f = d.rowView f) d (fun _ _ h => h) (fun e h => (rowView_raise e _ _ hf).trans h) page src inst v rfl

theorem rowView_writeZone (p b z : Nat) (hf : f.calm = true) : (d.writeZone p b z).rowView f = d.rowView f := by
  unfold writeZone
  extract_lets i s res abs d₁
  have h₁ : d₁.rowView f = d.rowView f := rowView_setBytes d _ _
  clear_value d₁
  rw [rowView_observe _ _ _ _ _ hf]
  exact h₁

/-- The records of an interval of group g written, and its rows counting from 0. -/
def zonesWritten (d : Dev) (g : Nat) : Dev :=
  let d := (d.portsOf g).foldl (fun d p => (List.range 4).foldl (fun d b => (List.range 16).foldl (fun d z => d.writeZone p b z) d) d) d
  { d with zoneRows := Sparse.set d.zoneRows (0, 0) g (0, 0) }

theorem rowView_zonesWritten (g : Nat) (hf : f.calm = true) : (d.zonesWritten g).rowView f = d.rowView f :=
  rowView_foldl d (fun d _ => rowView_foldl d (fun d _ => rowView_foldl d (fun d _ => rowView_writeZone d _ _ _ hf) _) _) _

theorem zoneRows_zonesWritten (g : Nat) : Sparse.get (d.zonesWritten g).zoneRows (0, 0) g = (0, 0) := by
  unfold zonesWritten
  extract_lets e
  exact Sparse.get_set_self e.zoneRows (0, 0) g (0, 0)

theorem get_of_rowView {e : Dev} (h : e.rowView f = d.rowView f) : e.get f = d.get f := congrArg (·.2.2) h

/-- Groups have the ports that they had, where no port changed its group. -/
theorem portsOf_congr {e : Dev} (h : ∀ p < 16, e.groupOf p = d.groupOf p) (g : Nat) : e.portsOf g = d.portsOf g :=
  List.filter_congr fun p hp => by rw [h p (List.mem_range.mp hp)]

theorem firstGroup_zonesWritten (g : Nat) : (d.zonesWritten g).firstGroup = d.firstGroup := by
  have h : (d.zonesWritten g).portsOf = d.portsOf := funext fun g' =>
    portsOf_congr d (fun p hp => get_of_rowView d (rowView_zonesWritten d g (Fld.calm_of_steady (Fld.steady_group hp)))) g'
  rw [firstGroup, firstGroup, h]

theorem zoneClose_complete {g : Nat} (hp : d.portsOf g ≠ []) (hr : d.get F.COR_BG_ZONE_ROWS ≤ (Sparse.get d.zoneRows (0, 0) g).1) :
    d.zoneClose g = if g = d.firstGroup then (((d.zonesWritten g).count F.COR_BG_ZONE_SEQ).raise 0x30 6).illumPropose (Sparse.get d.zoneRows (0, 0) g).2
      else d.zonesWritten g := by
  unfold zoneClose
  extract_lets x d₁ d₂
  rw [if_neg (not_or.mpr ⟨Nat.not_lt.mpr hr, hp⟩), show d₂ = d.zonesWritten g from rfl, firstGroup_zonesWritten]

theorem zoneRows_zoneClose {g : Nat} (hp : d.portsOf g ≠ []) (hr : d.get F.COR_BG_ZONE_ROWS ≤ (Sparse.get d.zoneRows (0, 0) g).1) :
    Sparse.get (d.zoneClose g).zoneRows (0, 0) g = (0, 0) := by
  rw [zoneClose_complete d hp hr]
  split
  · rw [zoneRows_illumPropose, zoneRows_raise]
    exact zoneRows_zonesWritten d g
  · exact zoneRows_zonesWritten d g

/-- The group with the lowest number that has a port counts its closed intervals, and says so (R160). -/
theorem zoneClose_first (hp : d.portsOf d.firstGroup ≠ []) (hr : d.get F.COR_BG_ZONE_ROWS ≤ (Sparse.get d.zoneRows (0, 0) d.firstGroup).1) :
    (d.zoneClose d.firstGroup).get F.COR_BG_ZONE_SEQ = (d.get F.COR_BG_ZONE_SEQ + 1) % 2 ^ 16 ∧
      (d.zoneClose d.firstGroup).testBit (F.BLK_IRQ_RAW 0x30) 6 = true := by
  have hf : F.COR_BG_ZONE_SEQ.steady := Fld.steady_cor (by decide) (by decide) (by decide)
  rw [zoneClose_complete d hp hr, if_pos rfl]
  refine ⟨?_, raw_illumPropose _ _ (by decide) (by decide) (raise_raw _ _ _ (by decide))⟩
  rw [get_of_rowView _ (rowView_illumPropose _ _ hf), get_raise _ _ _ (Fld.calm_of_steady hf), get_count_self,
    get_of_rowView _ (rowView_zonesWritten d _ (Fld.calm_of_steady hf))]

theorem rowView_zoneClose (g : Nat) (hf : f.steady) (hs : f.key ≠ F.COR_BG_ZONE_SEQ.key) : (d.zoneClose g).rowView f = d.rowView f := by
  unfold zoneClose
  extract_lets x d₁ d₂
  refine rowView_ite d rfl ?_
  have h₂ : d₂.rowView f = d.rowView f := rowView_zonesWritten d g (Fld.calm_of_steady hf)
  refine rowView_ite d ?_ h₂
  rw [rowView_illumPropose _ _ hf, rowView_raise _ _ _ (Fld.calm_of_steady hf)]
  exact (rowView_set d₂ _ hs).trans h₂

/-! ### Ageing (R157) -/

theorem rowView_refreshStale (hf : f.calm = true) (hc : f.key ≠ F.COR_BG_STALE_COLS.key) (hs : f.key ≠ (F.BLK_STAT_STALE 0x30).key) :
    d.refreshStale.rowView f = d.rowView f := by
  unfold refreshStale
  extract_lets was n d₁
  have h₁ : d₁.rowView f = d.rowView f := (rowView_set _ _ hs).trans (rowView_set d _ hc)
  exact rowView_ite d ((rowView_raise _ _ _ hf).trans h₁) h₁

theorem rowView_refreshStale_steady (hf : f.steady) : d.refreshStale.rowView f = d.rowView f :=
  rowView_refreshStale d (Fld.calm_of_steady hf) (Fld.ne_cor_of_steady hf (by decide) (by decide) (by decide))
    (Fld.ne_cor_of_steady hf (by decide) (by decide) (by decide))

theorem unrecorded_refreshStale : d.refreshStale.unrecorded = d.unrecorded := by
  unfold refreshStale
  extract_lets was n d₁
  rw [unrecorded_ite, unrecorded_raise]
  exact ite_self _

theorem mem_refreshStale : d.refreshStale.mem = d.mem := (congrArg Dev.mem (unrecorded_refreshStale d) :)

theorem due_refreshStale : d.refreshStale.due = d.due := (congrArg Dev.due (unrecorded_refreshStale d) :)

/-- A fold in which each member of a list without repetition changes its own part alone: that part is changed once. -/
theorem foldl_at_of_mem {σ α β : Type} {step : σ → α → σ} (obs : σ → α → β) (u : β → β) (hself : ∀ s a, obs (step s a) a = u (obs s a))
    (hne : ∀ s a b, a ≠ b → obs (step s b) a = obs s a) {l : List α} (hl : l.Nodup) {a : α} (ha : a ∈ l) (s : σ) :
    obs (l.foldl step s) a = u (obs s a) := by
  induction l generalizing s with
  | nil => exact absurd ha List.not_mem_nil
  | cons b l ih =>
    obtain ⟨hb, hl⟩ := List.nodup_cons.mp hl
    rw [List.foldl_cons]
    obtain rfl | ha := List.mem_cons.mp ha
    · rw [foldl_keeps_of_mem (obs · a) l fun s c hc => hne s a c fun h => hb (h ▸ hc), hself]
    · rw [ih hl ha, hne s a b fun h => hb (h ▸ ha)]

/-- The low byte of an entry whose AGE advances, up to 15. -/
def aged (inc : Nat) (v : Byte) : Byte := BitVec.ofNat 8 (v.toNat / 16 * 16 + min 15 (v.toNat % 16 + inc))

theorem toNat_aged (inc : Nat) (v : Byte) : (aged inc v).toNat = v.toNat / 16 * 16 + min 15 (v.toNat % 16 + inc) := by
  have := v.isLt
  rw [aged, BitVec.toNat_ofNat, Nat.mod_eq_of_lt]
  omega

theorem byte_ageEntries_self (inc p : Nat) {i : Nat} (hi : i < 65536) : (ageEntries inc d p).byte (bgOff p 0 i) = aged inc (d.byte (bgOff p 0 i)) :=
  foldl_at_of_mem (fun (d : Dev) i => d.byte (bgOff p 0 i)) (aged inc) (fun _ _ => byte_setByte_self _ _ _)
    (fun d a b h => byte_setByte_ne d _ (by simp only [bgOff]; omega)) List.nodup_range (List.mem_range.mpr hi) d

theorem byte_ageEntries_ne (inc : Nat) {p q i : Nat} (hi : i < 65536) (h : p ≠ q) : (ageEntries inc d q).byte (bgOff p 0 i) = d.byte (bgOff p 0 i) :=
  foldl_keeps_range (·.byte (bgOff p 0 i)) _ (fun d j hj => byte_setByte_ne d _ (by simp only [bgOff]; omega)) d

theorem bgAge_due {g : Nat} (h : Due.bgAge g ∈ d.due) :
    d.bgAge g = ((d.portsOf g).foldl (ageEntries 1) { d with due := d.due.filter (· ≠ .bgAge g) }).refreshStale := if_pos (List.contains_iff_mem.mpr h)

theorem byte_bgAge {g p i : Nat} (h : Due.bgAge g ∈ d.due) (hp : p ∈ d.portsOf g) (hi : i < 65536) :
    (d.bgAge g).byte (bgOff p 0 i) = aged 1 (d.byte (bgOff p 0 i)) := by
  rw [bgAge_due d h, byte, mem_refreshStale]
  exact foldl_at_of_mem (fun (d : Dev) p => d.byte (bgOff p 0 i)) (aged 1) (fun d p => byte_ageEntries_self d 1 p hi)
    (fun d _ _ h => byte_ageEntries_ne d 1 hi h) (List.nodup_range.filter _) hp _

theorem due_ageEntries (inc p : Nat) : (ageEntries inc d p).due = d.due := by
  unfold ageEntries
  refine foldl_keeps_range Dev.due _ (fun d i _ => ?_) d
  rfl

theorem rowView_ageEntries (inc p : Nat) : (ageEntries inc d p).rowView f = d.rowView f := by
  unfold ageEntries
  refine rowView_foldl d (fun d i => ?_) _
  rfl

theorem due_bgAge {g : Nat} (h : Due.bgAge g ∈ d.due) : (d.bgAge g).due = d.due.filter (· ≠ .bgAge g) := by
  rw [bgAge_due d h, due_refreshStale]
  exact foldl_keeps Dev.due (fun d p _ e => e ▸ due_ageEntries d 1 p) _ _

theorem rowView_bgAge (g : Nat) (hf : f.steady) : (d.bgAge g).rowView f = d.rowView f := by
  unfold bgAge
  refine rowView_ite d ?_ rfl
  rw [rowView_refreshStale_steady _ hf, rowView_foldl _ fun d p => rowView_ageEntries d 1 p]
  rfl

/-! ### Focus snapshots (R154) -/

/-- The snapshot taken and shown. -/
def snapTaken (d : Dev) : Dev := ((({ d with focSnap := d.focLive, focLive := [] }).count F.FOC_CTRL_SEQ).put F.FOC_CTRL_SNAP false).raise 0x32 3

/-- What the events of a snapshot leave as it stood when it was taken. -/
theorem focSnapshot_keeps {P : Dev → Prop} (hmon : ∀ d m, P d → P { d with monitors := m }) (hraise : ∀ d, P d → P (d.raise 0x0B 4))
    (hb : d.bit F.FOC_CTRL_SNAP = true) (h : P d.snapTaken) : P d.focSnapshot := by
  unfold focSnapshot
  rw [if_pos hb]
  refine List.foldlRecOn _ _ h fun d h e _ => ?_
  split
  · exact h
  · exact observe_keeps d hmon hraise _ _ _ _ h

theorem focSnapshot_shows (hb : d.bit F.FOC_CTRL_SNAP = true) : d.focSnapshot.get F.FOC_CTRL_SNAP = 0 ∧
    d.focSnapshot.get F.FOC_CTRL_SEQ = (d.get F.FOC_CTRL_SEQ + 1) % 2 ^ 16 ∧ d.focSnapshot.focSnap = d.focLive ∧ d.focSnapshot.focLive = [] ∧
    d.focSnapshot.testBit (F.BLK_IRQ_RAW 0x32) 3 = true := by
  have hc : ∀ {l w r : Nat}, l < 32 → (⟨bar0 0x32 0x40, l, w, r⟩ : Fld).calm = true := fun hl =>
    Fld.calm_of_plain (Fld.plain_page _ _ _ _ _ (by decide) (by decide) hl (by decide) (by decide) (by decide))
  have hget : ∀ {l w r : Nat}, l < 32 → d.focSnapshot.get ⟨bar0 0x32 0x40, l, w, r⟩ = d.snapTaken.get ⟨bar0 0x32 0x40, l, w, r⟩ := fun hl =>
    focSnapshot_keeps (P := fun e => e.get _ = d.snapTaken.get _) d (fun _ _ h => h) (fun e h => (get_raise e _ _ (hc hl)).trans h) hb rfl
  have hraised : d.snapTaken.focSnap = d.focLive ∧ d.snapTaken.focLive = [] :=
    ⟨(congrArg Dev.focSnap (unrecorded_raise _ 0x32 3) :), (congrArg Dev.focLive (unrecorded_raise _ 0x32 3) :)⟩
  have hrec : d.focSnapshot.focSnap = d.focLive ∧ d.focSnapshot.focLive = [] :=
    focSnapshot_keeps (P := fun e => e.focSnap = d.focLive ∧ e.focLive = []) d (fun _ _ h => h)
      (fun e ⟨hcopy, hlive⟩ => ⟨(congrArg Dev.focSnap (unrecorded_raise e _ _) :).trans hcopy,
        (congrArg Dev.focLive (unrecorded_raise e _ _) :).trans hlive⟩) hb hraised
  obtain ⟨hcopy, hlive⟩ := hrec
  refine ⟨?_, ?_, hcopy, hlive, focSnapshot_keeps (P := fun e => e.testBit (F.BLK_IRQ_RAW 0x32) 3 = true) d (fun _ _ h => h)
    (fun e h => raise_keeps_raw e _ _ (by decide) h) hb (raise_raw _ _ _ (by decide))⟩
  · rw [hget (by decide), snapTaken, get_raise _ _ _ (hc (by decide)), get_put_self _ _ _ one_ne_zero]
    rfl
  · rw [hget (by decide), snapTaken, get_raise _ _ _ (hc (by decide)), get_put_ne _ _ (by decide), get_count_self]
    rfl

theorem rowView_focSnapshot (hf : f.steady) (h : f.key / 32 ≠ bar0 0x32 0x40) : d.focSnapshot.rowView f = d.rowView f := by
  have hne : ∀ {l w r : Nat}, l < 32 → f.key ≠ (⟨bar0 0x32 0x40, l, w, r⟩ : Fld).key := fun hl hk => h (by rw [hk]; simp only [Fld.key, bar0]; omega)
  by_cases hb : d.bit F.FOC_CTRL_SNAP = true
  · refine focSnapshot_keeps (P := fun e => e.rowView f = d.rowView f) d (fun _ _ h => h)
      (fun e h => (rowView_raise e _ _ (Fld.calm_of_steady hf)).trans h) hb ?_
    exact (rowView_raise _ _ _ (Fld.calm_of_steady hf)).trans ((rowView_set _ _ (hne (by decide))).trans (rowView_set _ _ (hne (by decide))))
  · rw [focSnapshot, if_neg hb]

/-! ### A COR swap before a row (R163) -/

theorem rowView_corSwapApply (t : Option (Nat × Nat × Nat)) (hf : f.steady) : (d.corSwapApply t).rowView f = d.rowView f := by
  have hcor : ∀ {l w r : Nat}, l < 32 → f.key ≠ (⟨bar0 0x30 0x44, l, w, r⟩ : Fld).key := fun hl =>
    Fld.ne_cor_of_steady hf (by decide) hl (by decide)
  have hswap : (d.swapApply corSwap).rowView f = d.rowView f := by
    unfold swapApply
    extract_lets d₁
    have h₁ : d₁.rowView f = d.rowView f := by
      refine (rowView_set _ _ (hcor (show 8 < 32 by decide))).trans ?_
      exact (rowView_set _ _ (hcor (show 2 < 32 by decide))).trans (rowView_set d _ (hcor (show 3 < 32 by decide)))
    rw [rowView_raise _ _ _ (Fld.calm_of_steady hf), rowView_setSwapSt, ← h₁]
    exact rowView_set (g := F.COR_SWAP_DT_PEND) d₁ _ (hcor (by decide))
  have hmodel : ∀ d : Dev, d.activateModel.rowView f = d.rowView f := fun d => by
    unfold activateModel
    refine rowView_foldl d (fun d i => ?_) _
    rfl
  refine rowView_ite d ?_ rfl
  exact (rowView_set _ _ (Fld.ne_cal_of_steady hf (by decide) (by decide))).trans ((hmodel _).trans hswap)

theorem rowView_swapPassed (t : Nat) (hf : f.steady) : (d.swapPassed corSwap t).rowView f = d.rowView f := by
  have hcor : ∀ {o l w r : Nat}, 0x44 ≤ o → o < 0x58 → l < 32 → f.key ≠ (⟨bar0 0x30 o, l, w, r⟩ : Fld).key := fun _ ho hl =>
    Fld.ne_cor_of_steady hf (by omega) hl (by omega)
  have h : (d.swapDate corSwap t).rowView f = d.rowView f := by
    refine rowView_ite d ?_ rfl
    refine (rowView_set (g := F.COR_SWAP_DT_PEND) _ _ (hcor (by decide) (by decide) (by decide))).trans ?_
    refine (rowView_set (g := F.COR_SWAP_DT_HI_DT_HI) _ _ (hcor (by decide) (by decide) (by decide))).trans ?_
    exact rowView_set (g := F.COR_SWAP_DT_LO_DT_LO) d _ (hcor (by decide) (by decide) (by decide))
  exact h

/-! ### A row (R137) -/

theorem rowView_count_cor {o l w r : Nat} (n : Nat) (hf : f.steady) (ho : o < 0x1_0000) (hl : l < 32) (h : o < 0x64 ∨ 0x6C ≤ o) :
    (d.count ⟨bar0 0x30 o, l, w, r⟩ n).rowView f = d.rowView f := rowView_set d _ (Fld.ne_cor_of_steady hf ho hl h)

theorem rowView_focusLine (p : Nat) (mask : List Bool) (c : List Nat) : (d.focusLine p mask c).rowView f = d.rowView f := by
  unfold focusLine
  extract_lets len at_
  refine rowView_foldl d (fun d x => rowView_ite d rfl ?_) _
  exact rowView_ite d rfl rfl

theorem rowView_trackAt (p b : Nat) (c : List Nat) (x : Nat) (hf : f.steady) : (trackAt p b c d x).rowView f = d.rowView f := by
  unfold trackAt
  extract_lets v e r sh ns lim
  exact rowView_ite d (rowView_setBytes d _ _) (rowView_ite d (rowView_setBytes d _ _)
    (rowView_count_cor d _ hf (by decide) (by decide) (by decide)))

theorem rowView_zoneAt (p b z : Nat) (c : List Nat) (x : Nat) : (zoneAt p b z c d x).rowView f = d.rowView f := rowView_ite d rfl rfl

theorem rowView_backgroundLine (p b : Nat) (mask : List Bool) (c : List Nat) (hf : f.steady) : (d.backgroundLine p b mask c).rowView f = d.rowView f := by
  unfold backgroundLine
  extract_lets gap d₁
  have h₁ : d₁.rowView f = d.rowView f := rowView_ite d (rowView_foldl d (fun d z => rowView_foldl d (fun d x => rowView_zoneAt d p b z c x) _) _) rfl
  exact rowView_ite d ((rowView_foldl d₁ (fun d x => rowView_trackAt d p b c x hf) _).trans h₁) h₁

theorem rowView_correctBand (ue : List (Nat × Nat × Nat)) (p b : Nat) (mask : List Bool) (synth : Bool) (raw : List Nat) (hf : f.steady) :
    (d.correctBand ue p b mask synth raw).1.rowView f = d.rowView f := by
  unfold correctBand
  extract_lets nr cor m cs s y tm t d₁ flat fl d₂ c rep d₃ out d₄ d₅
  have h₁ : d₁.rowView f = d.rowView f := rowView_ite d rfl rfl
  have h₂ : d₂.rowView f = d₁.rowView f := rowView_count_cor d₁ _ hf (by decide) (by decide) (by decide)
  have h₃ : d₃.rowView f = d₂.rowView f := rowView_count_cor d₂ _ hf (by decide) (by decide) (by decide)
  have h₄ : d₄.rowView f = d₃.rowView f := rowView_ite d₃ (rowView_focusLine d₃ _ _ _) rfl
  have h₅ : d₅.rowView f = d₄.rowView f := rowView_ite d₄ (rowView_backgroundLine d₄ _ _ _ _ hf) rfl
  exact h₅.trans (h₄.trans (h₃.trans (h₂.trans h₁)))

theorem rowView_correctPort (ue : List (Nat × Nat × Nat)) (g k : Nat) (acc : Dev × List PortLine) (l : PortLine) (hf : f.steady) :
    (correctPort ue g k acc l).1.rowView f = acc.1.rowView f :=
  foldl_keeps (fun x : Dev × List (List Nat) => x.1.rowView f) (fun x b _ e => e ▸ rowView_correctBand x.1 ue _ b _ _ _ hf) _ _

theorem rowView_correctPorts (ue : List (Nat × Nat × Nat)) (g k : Nat) (ls : List PortLine) (hf : f.steady) :
    (ls.foldl (correctPort ue g k) (d, [])).1.rowView f = d.rowView f :=
  foldl_keeps (fun x : Dev × List PortLine => x.1.rowView f) (fun x l _ e => e ▸ rowView_correctPort ue g k x l hf) ls (d, [])

/-- The lines of a corrected row are those of its ports, in order. -/
theorem ports_correctPorts (ue : List (Nat × Nat × Nat)) (g k : Nat) (ls : List PortLine) (acc : Dev × List PortLine) :
    (ls.foldl (correctPort ue g k) acc).2.map (·.port) = acc.2.map (·.port) ++ ls.map (·.port) := by
  induction ls generalizing acc with
  | nil => simp
  | cons l ls ih => rw [List.foldl_cons, ih]; simp [correctPort]

/-- Whether a coefficient of a port of the row read with an error. -/
def readsBad (ue : List (Nat × Nat × Nat)) (slot : RowSlot) : Bool := slot.lines.any (fun l => ue.any (fun e => e.1 = l.port))

/-- The duties that fall before a row slot: a closing interval, an ageing, a swap, a snapshot. -/
def beforeRow (d : Dev) (slot : RowSlot) : Dev :=
  let d := d.zoneClose slot.group
  let d := { d.bgAge slot.group with staleAge := d.get F.COR_BG_CFG_STALE_AGE }
  ((d.corSwapApply (some (slot.stamp / 2 ^ 16, slot.group, slot.index))).swapPassed corSwap (slot.stamp / 2 ^ 16)).focSnapshot

theorem rowView_beforeRow (slot : RowSlot) : (d.beforeRow slot).rowView F.COR_BG_FLOOR_N_FLOOR = d.rowView F.COR_BG_FLOOR_N_FLOOR := by
  have hf : F.COR_BG_FLOOR_N_FLOOR.steady := Fld.steady_cor (by decide) (by decide) (by decide)
  unfold beforeRow
  rw [rowView_focSnapshot _ hf (by decide), rowView_swapPassed _ _ hf, rowView_corSwapApply _ _ hf]
  exact (rowView_bgAge _ _ hf).trans (rowView_zoneClose d _ hf (by decide))

/-- A row slot corrected: where it goes, and what it carries (R103, R137). -/
theorem correctRow_moves (ue : List (Nat × Nat × Nat)) (slot : RowSlot) : (d.correctRow ue slot).slotsOut = d.slotsOut.erase slot ∧
    (∃ lines, (d.correctRow ue slot).corOut = d.corOut ++ [{ slot with
      lines := lines, parity := slot.parity || readsBad ue slot, floor := d.get F.COR_BG_FLOOR_N_FLOOR }] ∧
      lines.map (·.port) = slot.lines.map (·.port)) ∧
    (readsBad ue slot = true → (d.correctRow ue slot).bit (F.BLK_PARITY_SRAM_UE 0x30) = true) := by
  have hf : F.COR_BG_FLOOR_N_FLOOR.steady := Fld.steady_cor (by decide) (by decide) (by decide)
  have hp : (F.BLK_PARITY_SRAM_UE 0x30).calm = true := by decide
  unfold correctRow
  extract_lets g k t dz da ds dp dl bad r dr df dc dn du
  have hu : ∀ {f : Fld}, du.rowView f = dc.rowView f := rowView_ite dc (rowView_ite dc rfl rfl) (rowView_ite dc rfl rfl)
  have hr : dr.rowView F.COR_BG_FLOOR_N_FLOOR = (d.slotsOut.erase slot, d.corOut, d.get F.COR_BG_FLOOR_N_FLOOR) :=
    (rowView_correctPorts dl ue g k slot.lines hf).trans (rowView_beforeRow { d with slotsOut := d.slotsOut.erase slot } slot)
  have hd : df.rowView F.COR_BG_FLOOR_N_FLOOR = dr.rowView F.COR_BG_FLOOR_N_FLOOR :=
    rowView_ite dr ((rowView_raise _ _ _ (Fld.calm_of_steady hf)).trans (rowView_set dr _ (by decide))) rfl
  obtain ⟨hslots, hcor, hfloor⟩ : df.slotsOut = d.slotsOut.erase slot ∧ df.corOut = d.corOut ∧
      df.get F.COR_BG_FLOOR_N_FLOOR = d.get F.COR_BG_FLOOR_N_FLOOR := by simpa [rowView] using hd.trans hr
  have he := (rowView_refreshStale_steady du hf).trans hu
  refine ⟨(congrArg (·.1) he).trans hslots, ⟨r.2, (congrArg (·.2.1) he).trans ?_, ports_correctPorts ue g k slot.lines (dl, [])⟩, fun hb => ?_⟩
  · rw [← hfloor, ← hcor]
    rfl
  · have hset : df = dr.setParity 0x30 (F.BLK_PARITY_SRAM_UE 0x30) := if_pos hb
    have hget : du.refreshStale.get (F.BLK_PARITY_SRAM_UE 0x30) = df.get (F.BLK_PARITY_SRAM_UE 0x30) :=
      get_of_rowView dc ((rowView_refreshStale du hp (by decide) (by decide)).trans hu)
    rw [bit, hget, hset, setParity, get_raise _ _ _ hp, get_put_self _ _ _ one_ne_zero]
    rfl

theorem rowCorrection_next (ue : List (Nat × Nat × Nat)) {slot : RowSlot} (h : d.nextSlot = some slot) : d.rowCorrection ue = d.correctRow ue slot := by
  rw [rowCorrection, h]

end Dev

section Commands

variable {s : State}

theorem rowCorrection_completes {slot : RowSlot} (h : s.dev.nextSlot = some slot) : Completes (.rowCorrection []) s (fun d =>
    d.slotsOut = s.dev.slotsOut.erase slot ∧ ∃ lines, d.corOut = s.dev.corOut ++ [{ slot with lines := lines, floor := s.dev.get F.COR_BG_FLOOR_N_FLOOR }]
      ∧ lines.map (·.port) = slot.lines.map (·.port)) := by
  obtain ⟨hslots, ⟨lines, hcor, hports⟩, -⟩ := s.dev.correctRow_moves [] slot
  have hbad : Dev.readsBad [] slot = false := by simp [Dev.readsBad]
  rw [hbad, Bool.or_false] at hcor
  exact completes_of_eq (u := (·.rowCorrection [])) rfl (s.dev.rowCorrection_next [] h) ⟨hslots, lines, hcor, hports⟩

theorem rowCorrection_completes_bad {slot : RowSlot} {l : PortLine} {b x : Nat} (h : s.dev.nextSlot = some slot) (hl : l ∈ slot.lines) :
    Completes (.rowCorrection [(l.port, b, x)]) s (fun d =>
      (∃ lines, d.corOut = s.dev.corOut ++ [{ slot with lines := lines, parity := true, floor := s.dev.get F.COR_BG_FLOOR_N_FLOOR }])
        ∧ d.bit (F.BLK_PARITY_SRAM_UE 0x30) = true) := by
  obtain ⟨-, ⟨lines, hcor, -⟩, hparity⟩ := s.dev.correctRow_moves [(l.port, b, x)] slot
  have hbad : Dev.readsBad [(l.port, b, x)] slot = true := List.any_eq_true.mpr ⟨l, hl, by simp⟩
  rw [hbad, Bool.or_true] at hcor
  exact completes_of_eq (u := (·.rowCorrection [(l.port, b, x)])) rfl (s.dev.rowCorrection_next _ h)
    ⟨⟨lines, hcor⟩, (Dev.bit_canon _ _).trans (hparity hbad)⟩

theorem bgAgeTick_completes {g : Nat} (h : Due.bgAge g ∈ s.dev.due) : Completes (.bgAgeTick g) s (fun d => d.due = s.dev.due.filter (· ≠ .bgAge g)
    ∧ ∀ p ∈ s.dev.portsOf g, ∀ i, i < 65536 → (d.byte (bgOff p 0 i)).toNat =
      (s.dev.byte (bgOff p 0 i)).toNat / 16 * 16 + min 15 ((s.dev.byte (bgOff p 0 i)).toNat % 16 + 1)) :=
  completes_of_eq (u := (·.bgAge g)) rfl rfl
    ⟨s.dev.due_bgAge h, fun p hp i hi => by rw [Dev.byte_canon, s.dev.byte_bgAge h hp hi, Dev.toNat_aged]⟩

theorem zoneDone_completes {g : Nat} (hp : s.dev.portsOf g ≠ []) (hr : s.dev.get F.COR_BG_ZONE_ROWS ≤ (Sparse.get s.dev.zoneRows (0, 0) g).1) :
    Completes (.zoneDone g) s (fun d => Sparse.get d.zoneRows (0, 0) g = (0, 0) ∧ (g = s.dev.firstGroup →
      d.get F.COR_BG_ZONE_SEQ = (s.dev.get F.COR_BG_ZONE_SEQ + 1) % 2 ^ 16 ∧ d.testBit (F.BLK_IRQ_RAW 0x30) 6 = true)) := by
  refine completes_of_eq (u := (·.zoneClose g)) rfl rfl ⟨?_, fun hg => ?_⟩
  · exact s.dev.zoneRows_zoneClose hp hr
  · subst hg
    rw [Dev.get_canon, Dev.testBit_canon]
    exact s.dev.zoneClose_first hp hr

theorem focSnapWrite_completes {v : Nat} (ht : s.dev.taken 0x32 0x40) (hv : v % 2 = 1) : Completes (.focSnapWrite v) s (fun d =>
    d.get F.FOC_CTRL_SNAP = 1 ∧ KeepsRegs s.dev d [F.FOC_CTRL_SNAP] ∧ KeepsMemory s.dev d) := by
  refine completes_of_taken (u := fun d => if v % 2 = 1 then d.put F.FOC_CTRL_SNAP true else d) rfl ht ?_
  rw [if_pos hv]
  exact ⟨by rw [Dev.get_canon, Dev.get_put_self _ _ _ one_ne_zero]; rfl, Dev.keepsRegs_canon (Dev.keepsRegs_set _ _ _),
    Dev.keepsMemory_canon rfl rfl rfl rfl⟩

theorem focSnapWrite_completes_idle {v : Nat} (ht : s.dev.taken 0x32 0x40) (hv : v % 2 = 0) : Completes (.focSnapWrite v) s (fun d =>
    KeepsRegs s.dev d [] ∧ KeepsMemory s.dev d) := by
  refine completes_of_taken (u := fun d => if v % 2 = 1 then d.put F.FOC_CTRL_SNAP true else d) rfl ht ?_
  rw [if_neg (by omega)]
  exact ⟨Dev.keepsRegs_canon fun _ _ => rfl, Dev.keepsMemory_canon rfl rfl rfl rfl⟩

theorem focSnapshot_completes (h : s.dev.nextSlot.isSome = true) (hb : s.dev.bit F.FOC_CTRL_SNAP = true) : Completes .focSnapshot s (fun d =>
    d.get F.FOC_CTRL_SNAP = 0 ∧ d.get F.FOC_CTRL_SEQ = (s.dev.get F.FOC_CTRL_SEQ + 1) % 2 ^ 16 ∧ d.focSnap = s.dev.focLive ∧ d.focLive = []
      ∧ d.testBit (F.BLK_IRQ_RAW 0x32) 3 = true) := by
  obtain ⟨hsnap, hseq, hcopy, hlive, hraw⟩ := s.dev.focSnapshot_shows hb
  refine completes_of_eq (u := (·.focSnapshotEvent)) rfl (if_pos h) ⟨?_, ?_, hcopy, hlive, ?_⟩
  · rw [Dev.get_canon, hsnap]
  · rw [Dev.get_canon, hseq]
  · rw [Dev.testBit_canon, hraw]

end Commands

/-- Settles O38: each clause is the lemma of its command. -/
theorem lineCorrection : Obligations.LineCorrection := fun _ =>
  ⟨fun _ => rowCorrection_completes, fun _ _ _ _ => rowCorrection_completes_bad, fun _ => bgAgeTick_completes, fun _ _ => zoneDone_completes,
    fun _ ht => ⟨focSnapWrite_completes ht, focSnapWrite_completes_idle ht⟩, focSnapshot_completes⟩

end Sys2Proof.Machine
end

section
/-! PROOF. O26, transmitter taps, training, test patterns and the lane PLL. What a lane shows of itself is ASTATE and VALID of its margin alone: its other
fields are written by the command. The checker's count follows the pattern bit by bit, as long as ERRORS does not saturate. -/

namespace Sys2Proof.Machine

/-! ### A lane's own fields -/

/-- A field of a lane's own registers other than ASTATE and VALID of the margin, which follow the lane. -/
def Fld.laneSet (f : Fld) : Prop :=
  (0x20 * 0x1_0000 * 32 ≤ f.key ∧ f.key < 0x90 * 0x1_0000 * 32) ∧ 0x80 ≤ f.key / 32 % 0x1_0000 ∧ f.key % 0x400 ≠ 0x84 ∧ f.key % 0x400 ≠ 0x390

theorem Fld.laneSet_lane (g k o b w r : Nat) (hg : g < 13) (hk : k < 8) (ho : 0x80 ≤ o) (ho' : o < 0xA0) (hb : b < 32)
    (h : (o - 0x80) * 32 + b ≠ 0x84) (h' : (o - 0x80) * 32 + b ≠ 0x390) : (⟨bar0 (32 + g) (o + 0x20 * k), b, w, r⟩ : Fld).laneSet := by
  simp only [laneSet, key, bar0]
  omega

theorem Fld.plain_of_laneSet {f : Fld} (hf : f.laneSet) : f.plain = true := by
  simp only [laneSet] at hf
  simp only [plain, calm, quiet, Bool.and_eq_true, Bool.not_eq_true', Bool.and_eq_false_iff, Bool.or_eq_false_iff, decide_eq_false_iff_not]
  omega

theorem Fld.calm_of_laneSet {f : Fld} (hf : f.laneSet) : f.calm = true := calm_of_plain (plain_of_laneSet hf)

theorem Fld.apart_of_laneSet {f : Fld} (hf : f.laneSet) : Dev.apart f = true := by
  simp only [laneSet] at hf
  simp only [Dev.apart, Bool.and_eq_true, Bool.not_eq_true', Bool.and_eq_false_iff, decide_eq_false_iff_not]
  omega

theorem Fld.uncounted_of_laneSet {f : Fld} (hf : f.laneSet) : f.uncounted := ⟨calm_of_laneSet hf, .inr hf.2.1⟩

/-- No lane's own field stands in the header or the group's part of a page, nor on a camera's page. -/
theorem Fld.ne_of_laneSet {f : Fld} (hf : f.laneSet) {p o b w r : Nat} (ho : o < 0x1_0000) (hb : b < 32) (h : o < 0x80 ∨ p < 0x20) :
    f.key ≠ (⟨bar0 p o, b, w, r⟩ : Fld).key := fun e => by
  rw [laneSet, e] at hf
  simp only [key, bar0] at hf
  omega

/-- Two fields of one lane that differ in the word or in the place have different keys. -/
theorem Fld.lane_ne {g k o o' b b' w w' r r' : Nat} (hb : b < 32) (hb' : b' < 32) (h : o ≠ o' ∨ b ≠ b') :
    (⟨bar0 (32 + g) (o + 0x20 * k), b, w, r⟩ : Fld).key ≠ (⟨bar0 (32 + g) (o' + 0x20 * k), b', w', r'⟩ : Fld).key := by
  simp only [key, bar0]
  omega

theorem laneKind_relay {l : Nat} (h : 64 ≤ l) (h' : l < 96) : laneKind l = .relay := by
  rw [laneKind, if_neg (by omega), if_pos h']

theorem laneKind_ne_spare {l : Nat} (h : l < 100) : laneKind l ≠ .spare := by
  unfold laneKind
  split_ifs <;> simp

theorem laneKind_receiver {l : Nat} (h : l < 64 ∨ (96 ≤ l ∧ l < 100)) : laneKind l = .cxp ∨ laneKind l = .meridian := by
  rcases h with h | ⟨h, h'⟩
  · exact .inl (if_pos h)
  · rw [laneKind, if_neg (by omega), if_neg (by omega), if_pos h']
    exact .inr rfl

namespace Dev

variable (d : Dev) {f : Fld}

/-- A field of another word of the lane, or at another bit of the word, reads as before. -/
theorem get_set_lane {g k o o' b b' w w' r r' : Nat} (v : Nat) (hb : b < 32) (hb' : b' < 32) (h : o ≠ o' ∨ b ≠ b') :
    (d.set ⟨bar0 (32 + g) (o' + 0x20 * k), b', w', r'⟩ v).get ⟨bar0 (32 + g) (o + 0x20 * k), b, w, r⟩ = d.get ⟨bar0 (32 + g) (o + 0x20 * k), b, w, r⟩ :=
  get_set_ne d v (Fld.lane_ne hb hb' h)

/-! ### What a lane shows (R127) -/

theorem lane_congr {d e : Dev} (h : e.lanes = d.lanes) (l : Nat) : e.lane l = d.lane l := by rw [lane, lane, h]

theorem lanes_of_unrecorded {d e : Dev} (h : e.unrecorded = d.unrecorded) : e.lanes = d.lanes := (congrArg Dev.lanes h :)

theorem lane_raise (p b l : Nat) : (d.raise p b).lane l = d.lane l := lane_congr (lanes_of_unrecorded (unrecorded_raise d p b)) l

theorem lane_canon (l : Nat) : d.canon.lane l = d.lane l := rfl

theorem lanes_abandonJoin : d.abandonJoin.lanes = d.lanes := by
  unfold abandonJoin
  extract_lets p
  split <;> rfl

/-- The link follows the lanes and changes none. -/
theorem lanes_merRefresh : d.merRefresh.lanes = d.lanes := by
  unfold merRefresh
  extract_lets ms was d₁ m d₂
  split
  · rfl
  · have h₂ : d₂.lanes = d₁.lanes := by
      simp only [d₂]
      split
      · rfl
      · rw [apply_ite Dev.lanes, lanes_abandonJoin, count_lanes, ite_self]
    rw [lanes_of_unrecorded (unrecorded_raise _ _ _), h₂]
    rfl

/-- A lane that is shown counts its time in TRACK; nothing else of it changes. -/
theorem lane_laneShow (l : Nat) :
    (d.laneShow l).lane l = { d.lane l with boost := (d.lane l).boost.map (d.trackUsed l), trackAt := d.time.c } := by
  unfold laneShow
  extract_lets g k x d₁ d₂ d₃
  have h₂ : d₂.lanes = d₁.lanes := by rw [apply_ite Dev.lanes, put_lanes, ite_self]
  have h₃ : (if 96 ≤ l then d₃.merRefresh else d₃).lanes = d₁.lanes := by rw [apply_ite Dev.lanes, lanes_merRefresh, ite_self, set_lanes, h₂]
  rw [lane_congr h₃]
  exact lane_setLane d l _

section LaneSet

variable (hf : f.laneSet)
include hf

theorem get_raise_laneSet (p b : Nat) : (d.raise p b).get f = d.get f := get_raise d p b (Fld.calm_of_laneSet hf)

theorem ne_twin_of_laneSet (o b w r : Nat) : f.key ≠ (⟨bar0 144 o, b, w, r⟩ : Fld).key := by
  have h := hf.1.2
  simp only [Fld.key, bar0] at *
  omega

theorem get_abandonJoin_laneSet : d.abandonJoin.get f = d.get f := by
  unfold abandonJoin
  extract_lets p
  split
  · rfl
  · rw [get_put_ne _ _ (ne_twin_of_laneSet hf _ _ _ _), get_set_ne _ _ (ne_twin_of_laneSet hf _ _ _ _)]
    rfl

theorem get_merRefresh_laneSet : d.merRefresh.get f = d.get f := by
  unfold merRefresh
  extract_lets ms was d₁ m d₂
  split
  · rfl
  · have h₁ : d₁.get f = d.get f := by
      rw [get_put_ne _ _ (ne_twin_of_laneSet hf _ _ _ _), get_set_ne _ _ (ne_twin_of_laneSet hf _ _ _ _)]
    have h₂ : d₂.get f = d₁.get f := by
      simp only [d₂]
      clear_value d₁
      split
      · rfl
      · rw [get_ite, get_abandonJoin_laneSet _ hf, get_count_ne _ _ (ne_twin_of_laneSet hf _ _ _ _), ite_self]
    rw [get_raise_laneSet _ hf, h₂, h₁]

theorem get_laneShow_laneSet (l : Nat) : (d.laneShow l).get f = d.get f := by
  have ⟨_, _, hastate, hvalid⟩ := hf
  have hne : ∀ o b w r, (o = 0x84 ∧ b = 4) ∨ (o = 0x9C ∧ b = 16) →
      f.key ≠ (⟨bar0 (32 + l / 8) (o + 0x20 * (l % 8)), b, w, r⟩ : Fld).key := fun o b w r h => by
    simp only [Fld.key, bar0] at *
    omega
  unfold laneShow
  extract_lets g k x d₁ d₂ d₃
  have h₂ : d₂.get f = d₁.get f := by rw [get_ite, get_put_ne _ _ (hne _ _ _ _ (by decide)), ite_self]
  have h₃ : d₃.get f = d₂.get f := get_set_ne _ _ (hne _ _ _ _ (by decide))
  rw [get_ite, get_merRefresh_laneSet _ hf, ite_self, h₃, h₂]
  rfl

/-! ### What a lane that leaves TEST brings with it (R86, R131, R134) -/

theorem get_scanLost_laneSet (l : Nat) : (d.scanLost l).get f = d.get f := by
  rw [scanLost, get_ite, get_complete _ _ _ _ (Fld.plain_of_laneSet hf) (Fld.apart_of_laneSet hf), get_setLane, ite_self]

theorem get_relayUpdate_laneSet (p : Nat) : (d.relayUpdate p).get f = d.get f :=
  get_relayUpdate d p fun hp => Fld.ne_of_laneSet hf (by decide) (by decide) (.inr (by omega))

theorem get_relayOfLane_laneSet (l : Nat) : (d.relayOfLane l).get f = d.get f := by
  rw [relayOfLane, get_ite, get_relayUpdate_laneSet _ hf, ite_self]

theorem get_endStreams_laneSet (p : Nat) : (d.endStreams p).get f = d.get f :=
  get_foldl d (fun d sid => by rw [get_ite, get_endLine_uncounted _ _ (Fld.uncounted_of_laneSet hf), ite_self]) _

theorem get_lockLoss_laneSet (p c : Nat) : (d.lockLoss p c).get f = d.get f := by
  have hdown : ∀ d : Dev, ((d.portDown p).setPortState p 7).get f = d.get f := fun d => by
    rw [get_setPortState_ne _ _ _ (Fld.ne_of_laneSet hf (by decide) (by decide) (.inl (by decide))),
      get_portDown_uncounted _ _ (Fld.uncounted_of_laneSet hf)]
  unfold lockLoss
  extract_lets held d₁ d₂ x
  have h₁ : d₁.get f = d.get f := by
    rw [get_ite, get_relayUpdate_laneSet _ hf, get_putBit_ne _ _ _ (Fld.ne_of_laneSet hf (by decide) (by decide) (.inl (by decide))), ite_self]
  have h₂ : d₂.get f = d₁.get f := hdown d₁
  clear_value d₁ d₂
  rw [get_ite, get_ite, get_ite, get_raise_laneSet _ hf, get_markDown, get_setPort, get_markDown, get_endStreams_laneSet _ hf, h₂, h₁, ite_self,
    ite_self, ite_self]

/-- What follows the loss of a lane's lock leaves the lanes' other fields alone. -/
theorem get_unlock_laneSet (l : Nat) : (d.unlock l).get f = (d.put (F.LANE_STAT_LOCK (l / 8) (l % 8)) false).get f := by
  unfold unlock
  extract_lets d₁
  rw [get_scanLost_laneSet _ hf, get_ite, get_lockLoss_laneSet _ hf, ite_self]

theorem get_marginFresh_laneSet (l : Nat) : (d.marginFresh l).get f = d.get f := by
  rw [marginFresh, get_setLane, get_putBit_ne _ _ _ (Fld.ne_of_laneSet hf (by decide) (by decide) (.inl (by decide)))]

theorem get_laneStart_laneSet (l : Nat) : (d.laneStart l).get f = d.get f := by
  unfold laneStart
  extract_lets d₁ d₂
  have h₁ : d₁.get f = d.get f := by rw [get_ite, get_setPin, get_uplinkPin, ite_self]
  have h₂ : d₂.get f = d₁.get f := get_marginFresh_laneSet d₁ hf l
  rw [get_ite, get_laneShow_laneSet _ hf, get_setLane, h₂, h₁, ite_self]

end LaneSet

/-! ### Training (R129) -/

theorem lt_of_training {m : Nat} (h : d.training m = true) : m < 4 := by
  unfold training at h
  split at h
  · simp only [Bool.and_eq_true, decide_eq_true_eq] at h
    exact h.1
  · exact absurd h (by decide)

theorem tapMove_le {top v : Nat} (r : Nat) (h : v ≤ top) : (tapMove top v r).1 ≤ top := by
  unfold tapMove
  split_ifs <;> simp only <;> omega

/-- The taps of a Meridian lane moved as a request asks, MAIN with what keeps their sum. -/
def tapsMoved (d : Dev) (m pre post : Nat) : Dev :=
  let a := (tapMove 15 (d.get (F.LANE_TXTAP_PRE 12 m)) pre).1
  let c := (tapMove 31 (d.get (F.LANE_TXTAP_POST 12 m)) post).1
  ((d.set (F.LANE_TXTAP_PRE 12 m) a).set (F.LANE_TXTAP_POST 12 m) c).set (F.LANE_TXTAP_MAIN 12 m) (63 - a - c)

theorem get_tapsMoved {m : Nat} (pre post : Nat) (hpre : d.get (F.LANE_TXTAP_PRE 12 m) ≤ 15) (hpost : d.get (F.LANE_TXTAP_POST 12 m) ≤ 31) :
    (d.tapsMoved m pre post).get (F.LANE_TXTAP_PRE 12 m) = (tapMove 15 (d.get (F.LANE_TXTAP_PRE 12 m)) pre).1
    ∧ (d.tapsMoved m pre post).get (F.LANE_TXTAP_POST 12 m) = (tapMove 31 (d.get (F.LANE_TXTAP_POST 12 m)) post).1
    ∧ (d.tapsMoved m pre post).get (F.LANE_TXTAP_MAIN 12 m)
      = 63 - (tapMove 15 (d.get (F.LANE_TXTAP_PRE 12 m)) pre).1 - (tapMove 31 (d.get (F.LANE_TXTAP_POST 12 m)) post).1 := by
  have ha := tapMove_le pre hpre
  have hc := tapMove_le post hpost
  unfold tapsMoved
  extract_lets a c
  refine ⟨?_, ?_, ?_⟩
  · rw [get_set_lane _ _ (by decide) (by decide) (.inr (by decide)), get_set_lane _ _ (by decide) (by decide) (.inr (by decide)), get_set_self]
    exact Nat.mod_eq_of_lt (by simp only; omega)
  · rw [get_set_lane _ _ (by decide) (by decide) (.inr (by decide)), get_set_self]
    exact Nat.mod_eq_of_lt (by simp only; omega)
  · rw [get_set_self]
    exact Nat.mod_eq_of_lt (by simp only; omega)

/-- In training a request moves the taps and is answered. -/
theorem merTrainRequest_moves {m : Nat} (pre main post : Nat) (ht : d.training m = true) :
    ∃ x a, d.merTrainRequest m pre main post = (((d.tapsMoved m pre post).setLane (96 + m) x).emit (.merTrain m a)).ownRequest m :=
  ⟨_, _, if_pos ht⟩

theorem get_ownRequest (m : Nat) : (d.ownRequest m).get f = d.get f := rfl

theorem out_ownRequest (m : Nat) : ∃ r, (d.ownRequest m).out = .merRequest m r :: d.out := ⟨_, rfl⟩

/-- Both sides at hold for 1 ms end the training. -/
theorem merTrainDone_ends {m t u : Nat} (ht : d.training m = true) (hh : (d.lane (96 + m)).holdAt = some t) (ht₁ : 1000000 ≤ d.elapsed t)
    (ho : (d.lane (96 + m)).ownHold = some u) (hu₁ : 1000000 ≤ d.elapsed u) : d.merTrainDone m =
      (d.setLane (96 + m) { d.lane (96 + m) with trainAt := none, holdAt := none, ownHold := none }).laneShow (96 + m) := by
  simp only [merTrainDone, hh, ho]
  exact if_pos ⟨ht, ht₁, hu₁⟩

/-- The preset taps of a Meridian lane (R129). -/
def tapsPreset (d : Dev) (m : Nat) : Dev := ((d.set (F.LANE_TXTAP_PRE 12 m) 4).set (F.LANE_TXTAP_MAIN 12 m) 49).set (F.LANE_TXTAP_POST 12 m) 10

theorem get_tapsPreset (m : Nat) : (d.tapsPreset m).get (F.LANE_TXTAP_PRE 12 m) = 4 ∧ (d.tapsPreset m).get (F.LANE_TXTAP_MAIN 12 m) = 49
    ∧ (d.tapsPreset m).get (F.LANE_TXTAP_POST 12 m) = 10 := by
  refine ⟨?_, ?_, get_set_self _ _ _⟩
  · rw [tapsPreset, get_set_lane _ _ (by decide) (by decide) (.inr (by decide)), get_set_lane _ _ (by decide) (by decide) (.inr (by decide)), get_set_self]
    rfl
  · rw [tapsPreset, get_set_lane _ _ (by decide) (by decide) (.inr (by decide)), get_set_self]
    rfl

/-- Beyond 20 ms the training has failed. -/
theorem trainFail_fails {m t : Nat} (hm : m < 4) (ht : (d.lane (96 + m)).trainAt = some t) (hlate : 20000000 < d.elapsed t) : d.trainFail m =
    (((d.tapsPreset m).setLane (96 + m) { d.lane (96 + m) with trainAt := none, holdAt := none, ownHold := none, trainFail := true }).laneShow
      (96 + m)).raise (lng 12) 7 := by
  simp only [trainFail, ht]
  exact if_pos ⟨hm, hlate⟩

/-! ### Taps written (R130) -/

/-- A write of taps whose sum is not 63 is refused. -/
theorem txtapWrite_refuses {l v : Nat} (hl : 64 ≤ l) (hl' : l < 96) (ht : d.taken (lng (l / 8)) (0x8C + 0x20 * (l % 8)))
    (hsum : bitsAt v 0 4 + bitsAt v 8 6 + bitsAt v 16 5 ≠ 63) : d.txtapWrite l v = d.refuse (lng (l / 8)) (0x8C + 0x20 * (l % 8)) .range := by
  rw [txtapWrite, gated_of_taken _ ht, if_neg (not_not.mpr (laneKind_relay hl hl'))]
  exact if_pos (.inl hsum)

/-- One whose sum is 63 and whose amplitude is in range sets the taps. -/
theorem txtapWrite_sets {l v : Nat} (hl : 64 ≤ l) (hl' : l < 96) (ht : d.taken (lng (l / 8)) (0x8C + 0x20 * (l % 8)))
    (hsum : bitsAt v 0 4 + bitsAt v 8 6 + bitsAt v 16 5 = 63) (hamp : bitsAt v 24 4 ≤ 12) : d.txtapWrite l v =
      (((d.set (F.LANE_TXTAP_PRE (l / 8) (l % 8)) (bitsAt v 0 4)).set (F.LANE_TXTAP_MAIN (l / 8) (l % 8)) (bitsAt v 8 6)).set
        (F.LANE_TXTAP_POST (l / 8) (l % 8)) (bitsAt v 16 5)).set (F.LANE_TXTAP_AMP (l / 8) (l % 8)) (bitsAt v 24 4) := by
  rw [txtapWrite, gated_of_taken _ ht, if_neg (not_not.mpr (laneKind_relay hl hl'))]
  exact if_neg (not_or.mpr ⟨not_not.mpr hsum, not_lt.mpr hamp⟩)

theorem get_txtapWrite {l v : Nat} (hl : 64 ≤ l) (hl' : l < 96) (ht : d.taken (lng (l / 8)) (0x8C + 0x20 * (l % 8)))
    (hsum : bitsAt v 0 4 + bitsAt v 8 6 + bitsAt v 16 5 = 63) (hamp : bitsAt v 24 4 ≤ 12) :
    (d.txtapWrite l v).get (F.LANE_TXTAP_PRE (l / 8) (l % 8)) = bitsAt v 0 4
    ∧ (d.txtapWrite l v).get (F.LANE_TXTAP_MAIN (l / 8) (l % 8)) = bitsAt v 8 6
    ∧ (d.txtapWrite l v).get (F.LANE_TXTAP_POST (l / 8) (l % 8)) = bitsAt v 16 5 := by
  have hmod : ∀ b w, bitsAt v b w % 2 ^ w = bitsAt v b w := fun _ _ => Nat.mod_mod _ _
  rw [d.txtapWrite_sets hl hl' ht hsum hamp]
  refine ⟨?_, ?_, ?_⟩
  · rw [get_set_lane _ _ (by decide) (by decide) (.inr (by decide)), get_set_lane _ _ (by decide) (by decide) (.inr (by decide)),
      get_set_lane _ _ (by decide) (by decide) (.inr (by decide)), get_set_self, hmod]
  · rw [get_set_lane _ _ (by decide) (by decide) (.inr (by decide)), get_set_lane _ _ (by decide) (by decide) (.inr (by decide)), get_set_self, hmod]
  · rw [get_set_lane _ _ (by decide) (by decide) (.inr (by decide)), get_set_self, hmod]

/-! ### TEST_EN (R131) -/

/-- A lane in TEST, shown. -/
def enterTest (d : Dev) (l : Nat) : Dev := (((d.put (F.LANE_CFG_TEST_EN (l / 8) (l % 8)) true).testAnew l).laneShow l).relayOfLane l

/-- A lane out of TEST, which starts anew where its page is not in test. -/
def leaveTest (d : Dev) (l : Nat) : Dev :=
  let d := (((d.put (F.LANE_CFG_TEST_EN (l / 8) (l % 8)) false).put (F.LANE_PRBS_SYNC (l / 8) (l % 8)) false).testAnew l).unlock l
  ((if d.testing (lng (l / 8)) then d else d.laneStart l).laneShow l).relayOfLane l

theorem laneTestEn_enters {l : Nat} (hl : l < 100) (ht : d.taken (lng (l / 8)) (0x80 + 0x20 * (l % 8))) (hr : d.laneReleased l = true) :
    d.laneTestEn l true = d.enterTest l := by
  rw [laneTestEn, gated_of_taken _ ht, if_neg (laneKind_ne_spare hl), if_pos rfl]
  exact if_pos (.inl hr)

theorem laneTestEn_leaves {l : Nat} (hl : l < 100) (ht : d.taken (lng (l / 8)) (0x80 + 0x20 * (l % 8)))
    (hb : d.bit (F.LANE_CFG_TEST_EN (l / 8) (l % 8)) = true) : d.laneTestEn l false = d.leaveTest l := by
  rw [laneTestEn, gated_of_taken _ ht, if_neg (laneKind_ne_spare hl), if_neg Bool.false_ne_true]
  exact if_pos hb

section OwnFields

variable {l : Nat} (hl : l < 100)
include hl

theorem laneSet_testEn : (F.LANE_CFG_TEST_EN (l / 8) (l % 8)).laneSet :=
  Fld.laneSet_lane _ _ _ _ _ _ (by omega) (by omega) (by decide) (by decide) (by decide) (by decide) (by decide)

theorem laneSet_lock : (F.LANE_STAT_LOCK (l / 8) (l % 8)).laneSet :=
  Fld.laneSet_lane _ _ _ _ _ _ (by omega) (by omega) (by decide) (by decide) (by decide) (by decide) (by decide)

theorem laneSet_prbs {b w r : Nat} (hb : b < 32) : (⟨bar0 (32 + l / 8) (0x90 + 0x20 * (l % 8)), b, w, r⟩ : Fld).laneSet :=
  Fld.laneSet_lane _ _ _ _ _ _ (by omega) (by omega) (by decide) (by decide) hb (by omega) (by omega)

theorem laneSet_errors : (F.LANE_PRBS_ERR_ERRORS (l / 8) (l % 8)).laneSet :=
  Fld.laneSet_lane _ _ _ _ _ _ (by omega) (by omega) (by decide) (by decide) (by decide) (by decide) (by decide)

theorem get_enterTest : (d.enterTest l).get (F.LANE_CFG_TEST_EN (l / 8) (l % 8)) = 1 := by
  rw [enterTest, get_relayOfLane_laneSet _ (laneSet_testEn hl), get_laneShow_laneSet _ (laneSet_testEn hl), get_testAnew, get_put_self _ _ _ one_ne_zero]
  rfl

theorem get_leaveTest : (d.leaveTest l).get (F.LANE_CFG_TEST_EN (l / 8) (l % 8)) = 0 ∧ (d.leaveTest l).get (F.LANE_STAT_LOCK (l / 8) (l % 8)) = 0 := by
  have hstart : ∀ {f : Fld}, f.laneSet → (d.leaveTest l).get f = ((((d.put (F.LANE_CFG_TEST_EN (l / 8) (l % 8)) false).put
      (F.LANE_PRBS_SYNC (l / 8) (l % 8)) false).testAnew l).put (F.LANE_STAT_LOCK (l / 8) (l % 8)) false).get f := fun {f} hf => by
    rw [leaveTest, get_relayOfLane_laneSet _ hf, get_laneShow_laneSet _ hf, get_ite, get_laneStart_laneSet _ hf, ite_self, get_unlock_laneSet _ hf]
  constructor
  · rw [hstart (laneSet_testEn hl), get_put_ne _ _ (Fld.lane_ne (by decide) (by decide) (.inl (by decide))), get_testAnew,
      get_put_ne _ _ (Fld.lane_ne (by decide) (by decide) (.inl (by decide))), get_put_self _ _ _ one_ne_zero]
    rfl
  · rw [hstart (laneSet_lock hl), get_put_self _ _ _ one_ne_zero]
    rfl

end OwnFields

/-! ### The generator (R131, R136) -/

/-- A transmitter in test changes at most its generator and the free values used. -/
theorem prbsSend_keeps (l n : Nat) : (d.prbsSend l n).1.regs = d.regs ∧ ((d.prbsSend l n).1.lane l).hist = (d.lane l).hist
    ∧ ((d.prbsSend l n).1.lane l).prbsRun = (d.lane l).prbsRun := by
  unfold prbsSend
  extract_lets g k pat start d₁ r
  have hregs : d₁.regs = d.regs := (apply_ite Dev.regs _ _ _).trans (ite_self _)
  have hlanes : d₁.lanes = d.lanes := (apply_ite Dev.lanes _ _ _).trans (ite_self _)
  split
  · exact ⟨rfl, rfl, rfl⟩
  · have hlane : (d₁.setLane l { d₁.lane l with gen := r.2 }).lane l = { d.lane l with gen := r.2 } := by rw [lane_setLane, lane_congr hlanes]
    exact ⟨hregs, (congrArg Lane.hist hlane :), (congrArg Lane.prbsRun hlane :)⟩

/-- A generator that runs goes on with its pattern. -/
theorem prbsSend_runs {l n pat : Nat} (hg : d.bit (F.LANE_PRBS_GEN (l / 8) (l % 8)) = true) (hp : d.get (F.LANE_PRBS_PATTERN (l / 8) (l % 8)) = pat)
    (h₁ : 1 ≤ pat) (h₅ : pat ≤ 5) (hgen : (d.lane l).gen ≠ []) : d.prbsSend l n =
      (d.setLane l { d.lane l with gen := (prbsRun pat n (d.lane l).gen).2 },
        (prbsRun pat n (d.lane l).gen).1.map (· != d.bit (F.LANE_PRBS_INVERT (l / 8) (l % 8)))) := by
  have hpat : (!d.bit (F.LANE_PRBS_GEN (l / 8) (l % 8)) || decide (pat = 0) || decide (5 < pat)) = false := by simp [hg]; omega
  simp only [prbsSend, hp, hpat, if_neg hgen]
  rfl

theorem prbsRun_length (pat n : Nat) (h : List Bool) : (prbsRun pat n h).1.length = n := by
  induction n generalizing h with
  | zero => rfl
  | succ n ih => simp [prbsRun, ih]

/-- A relay lane in test has no receiver: its generator sends. -/
theorem prbsCheck_sends {l pat : Nat} {bits : List Bool} (hl : 64 ≤ l) (hl' : l < 96) (hbits : bits ≠ [])
    (he : d.bit (F.LANE_CFG_TEST_EN (l / 8) (l % 8)) = true) (hg : d.bit (F.LANE_PRBS_GEN (l / 8) (l % 8)) = true)
    (hp : d.get (F.LANE_PRBS_PATTERN (l / 8) (l % 8)) = pat) (h₁ : 1 ≤ pat) (h₅ : pat ≤ 5) (hgen : (d.lane l).gen ≠ []) : ∃ x, d.prbsCheck l bits =
      (d.setLane l x).emit (.prbs l ((prbsRun pat bits.length (d.lane l).gen).1.map (· != d.bit (F.LANE_PRBS_INVERT (l / 8) (l % 8))))) := by
  have hout : (prbsRun pat bits.length (d.lane l).gen).1.map (· != d.bit (F.LANE_PRBS_INVERT (l / 8) (l % 8))) ≠ [] := fun h => by
    rw [List.map_eq_nil_iff, ← List.length_eq_zero_iff, prbsRun_length, List.length_eq_zero_iff] at h
    exact hbits h
  refine ⟨{ d.lane l with gen := (prbsRun pat bits.length (d.lane l).gen).2 }, ?_⟩
  simp [prbsCheck, he, laneKind_relay hl hl', d.prbsSend_runs hg hp h₁ h₅ hgen, hout]

/-! ### The checker (R132) -/

/-- Bits that arrive at a receiver in test without near-end loopback go to its checker. -/
theorem prbsCheck_receives {l pat : Nat} (bits : List Bool) (hl : l < 64 ∨ (96 ≤ l ∧ l < 100))
    (he : d.bit (F.LANE_CFG_TEST_EN (l / 8) (l % 8)) = true) (hn : d.bit (F.LANE_CFG_LOOP_NEAR (l / 8) (l % 8)) = false)
    (hc : d.bit (F.LANE_PRBS_CHK (l / 8) (l % 8)) = true) (hp : d.get (F.LANE_PRBS_PATTERN (l / 8) (l % 8)) = pat) (h₁ : 1 ≤ pat) (h₅ : pat ≤ 5) :
    ∃ e : Dev, d.prbsCheck l bits = (bits.map (· != d.bit (F.LANE_PRBS_INVERT (l / 8) (l % 8)))).foldl (prbsBit l) e
      ∧ e.regs = d.regs ∧ (e.lane l).hist = (d.lane l).hist ∧ (e.lane l).prbsRun = (d.lane l).prbsRun := by
  unfold prbsCheck
  extract_lets g k pat' mer tx rx out e
  have htx : tx.1.regs = d.regs ∧ (tx.1.lane l).hist = (d.lane l).hist ∧ (tx.1.lane l).prbsRun = (d.lane l).prbsRun := by
    simp only [tx]
    split
    · exact d.prbsSend_keeps l _
    · exact ⟨rfl, rfl, rfl⟩
  have hrx : rx = bits := if_neg (by simp [g, k, hn])
  have hregs : e.regs = tx.1.regs := (apply_ite Dev.regs _ _ _).trans (ite_self _)
  have hlanes : e.lanes = tx.1.lanes := (apply_ite Dev.lanes _ _ _).trans (ite_self _)
  have hget : ∀ f, e.get f = d.get f := get_congr (hregs.trans htx.1)
  refine ⟨e, ?_, hregs.trans htx.1, by rw [lane_congr hlanes]; exact htx.2.1, by rw [lane_congr hlanes]; exact htx.2.2⟩
  rw [if_neg (by simp [g, k, he]), if_pos ⟨by rw [bit, hget]; exact hc, h₁.trans_eq hp.symm, hp.trans_le h₅, laneKind_receiver hl⟩, hrx]
  simp only [bit, hget, g, k]

/-- The bit and the history counted at a checker that is synchronised: a unit of 65,536 bits is full, or one bit more is held below it. -/
def tallyBit (d : Dev) (l : Nat) (hist : List Bool) : Dev :=
  if (d.lane l).prbsRem + 1 = 65536 then
    (d.setLane l { d.lane l with hist := hist, prbsRem := 0 }).countSat (F.LANE_PRBS_BITS_BITS (l / 8) (l % 8))
  else d.setLane l { d.lane l with hist := hist, prbsRem := (d.lane l).prbsRem + 1 }

theorem lane_tallyBit (l : Nat) (hist : List Bool) : ((d.tallyBit l hist).lane l).hist = hist := by
  unfold tallyBit
  split
  · exact congrArg Lane.hist (lane_setLane d l _)
  · exact congrArg Lane.hist (lane_setLane d l _)

theorem get_tallyBit {l : Nat} (hist : List Bool) (h : f.key ≠ (F.LANE_PRBS_BITS_BITS (l / 8) (l % 8)).key) : (d.tallyBit l hist).get f = d.get f := by
  rw [tallyBit, get_ite, get_countSat_ne _ h, get_setLane, get_setLane, ite_self]

theorem prbsBit_synced {l : Nat} (b : Bool) (hs : d.bit (F.LANE_PRBS_SYNC (l / 8) (l % 8)) = true) {s : Bool × List Bool}
    (h : prbsStep (d.get (F.LANE_PRBS_PATTERN (l / 8) (l % 8))) true (d.lane l).hist b = s) :
    prbsBit l d b = if s.1 then (d.tallyBit l s.2).prbsError l else d.tallyBit l s.2 := by
  simp only [prbsBit, hs, h]
  rfl

theorem lane_prbsError (l : Nat) : ((d.prbsError l).lane l).hist = (d.lane l).hist := by
  unfold prbsError
  extract_lets g k d₁
  split
  · rfl
  · rw [lane_raise, lane_setLane]
    rfl

/-- An error is counted in ERRORS, and raised where it is the first. -/
theorem get_prbsError {l : Nat} (hf : f.calm = true) : (d.prbsError l).get f = (d.countSat (F.LANE_PRBS_ERR_ERRORS (l / 8) (l % 8))).get f := by
  rw [prbsError, get_ite, get_raise _ _ _ hf, get_setLane, ite_self]

/-- One bit at a synchronised checker as the count of errors and the history follow it. -/
def followBit (pat : Nat) (inv : Bool) (a : Nat × List Bool) (b : Bool) : Nat × List Bool :=
  (a.1 + b2n (((b != inv) != prbsNext pat a.2) || !a.2.any id || decide (a.2.length < (prbsTaps pat).1)),
    (prbsNext pat a.2 :: a.2).take (prbsTaps pat).1)

theorem followBit_eq (pat : Nat) (inv : Bool) (a : Nat × List Bool) (b : Bool) : followBit pat inv a b =
    (a.1 + b2n (prbsStep pat true a.2 (b != inv)).1, (prbsStep pat true a.2 (b != inv)).2) := by
  simp only [followBit, prbsStep, if_true]
  congr 3
  ac_rfl

section Synced

variable {d} {l pat : Nat} (hl : l < 100)

/-- A synchronised checker of pattern `pat` that has counted `n` errors and holds the history `h`. -/
def Follows (d : Dev) (l pat n : Nat) (h : List Bool) : Prop :=
  d.bit (F.LANE_PRBS_SYNC (l / 8) (l % 8)) = true ∧ d.get (F.LANE_PRBS_PATTERN (l / 8) (l % 8)) = pat
    ∧ d.get (F.LANE_PRBS_ERR_ERRORS (l / 8) (l % 8)) = n ∧ (d.lane l).hist = h

include hl in
/-- One bit at a synchronised checker below the end of ERRORS: it stays synchronised, and follows. -/
theorem follows_prbsBit {n : Nat} {h : List Bool} {b : Bool} {s : Bool × List Bool} (hd : Follows d l pat n h) (hn : n + 1 < 2 ^ 32)
    (hs : prbsStep pat true h b = s) : Follows (prbsBit l d b) l pat (n + b2n s.1) s.2 := by
  obtain ⟨hsync, hpat, herr, hhist⟩ := hd
  have hstep := d.prbsBit_synced b hsync (by rw [hpat, hhist, hs])
  have hprbs : ∀ {k w r : Nat}, k < 32 → (prbsBit l d b).get ⟨bar0 (32 + l / 8) (0x90 + 0x20 * (l % 8)), k, w, r⟩ =
      d.get ⟨bar0 (32 + l / 8) (0x90 + 0x20 * (l % 8)), k, w, r⟩ := fun hk => by
    rw [hstep, get_ite, get_prbsError _ (Fld.calm_of_laneSet (laneSet_prbs hl hk)), countSat, get_set_lane _ _ hk (by decide) (.inl (by decide)), ite_self,
      get_tallyBit _ _ (Fld.lane_ne hk (by decide) (.inl (by decide)))]
  have htally : (d.tallyBit l s.2).get (F.LANE_PRBS_ERR_ERRORS (l / 8) (l % 8)) = n := by
    rw [get_tallyBit _ _ (Fld.lane_ne (by decide) (by decide) (.inl (by decide))), herr]
  refine ⟨?_, ?_, ?_, ?_⟩
  · rw [bit, hprbs (by decide)]
    exact hsync
  · rw [hprbs (by decide), hpat]
  · rw [hstep]
    cases s.1
    · exact htally
    · rw [if_pos rfl, get_prbsError _ (Fld.calm_of_laneSet (laneSet_errors hl)), get_countSat_self, htally]
      simp only [satInc, if_pos hn]
      exact Nat.mod_eq_of_lt hn
  · rw [hstep]
    cases s.1
    · exact lane_tallyBit d l _
    · exact (lane_prbsError _ l).trans (lane_tallyBit d l _)

include hl in
/-- The same for all bits that arrive, as long as ERRORS does not saturate. -/
theorem follows_prbsBits {inv : Bool} {a : Nat × List Bool} {n : Nat} (bits : List Bool) (hd : Follows d l pat (n + a.1) a.2)
    (hn : n + a.1 + bits.length < 2 ^ 32) :
    Follows ((bits.map (· != inv)).foldl (prbsBit l) d) l pat (n + (bits.foldl (followBit pat inv) a).1) (bits.foldl (followBit pat inv) a).2 := by
  induction bits generalizing d a with
  | nil => exact hd
  | cons b bits ih =>
    rw [List.length_cons] at hn
    rw [List.map_cons, List.foldl_cons, List.foldl_cons]
    have hle : ∀ b : Bool, b2n b ≤ 1 := fun b => by cases b <;> decide
    have h : Follows (prbsBit l d (b != inv)) l pat (n + (followBit pat inv a b).1) (followBit pat inv a b).2 := by
      rw [followBit_eq, ← Nat.add_assoc]
      exact follows_prbsBit hl hd (by omega) rfl
    have hstep : (followBit pat inv a b).1 ≤ a.1 + 1 := by
      rw [followBit_eq]
      exact Nat.add_le_add_left (hle _) _
    exact ih h (by omega)

end Synced

/-- The 64th error-free bit synchronises the checker. -/
theorem prbsBit_syncs {l : Nat} {b : Bool} (hs : d.bit (F.LANE_PRBS_SYNC (l / 8) (l % 8)) = false) (hr : (d.lane l).prbsRun = 63)
    (hb : (prbsStep (d.get (F.LANE_PRBS_PATTERN (l / 8) (l % 8))) false (d.lane l).hist b).1 = false) :
    (prbsBit l d b).get (F.LANE_PRBS_SYNC (l / 8) (l % 8)) = 1 := by
  simp only [prbsBit, hs, hb, hr]
  exact get_put_self _ _ true one_ne_zero

/-! ### Counts cleared and read (R132) -/

theorem get_prbsClr {l : Nat} (ht : d.taken (lng (l / 8)) (0x90 + 0x20 * (l % 8))) :
    (d.prbsClr l false).get (F.LANE_PRBS_ERR_ERRORS (l / 8) (l % 8)) = 0 ∧ (d.prbsClr l false).get (F.LANE_PRBS_BITS_BITS (l / 8) (l % 8)) = 0 := by
  have hclr : ∃ x, d.prbsClr l false =
      ((d.set (F.LANE_PRBS_ERR_ERRORS (l / 8) (l % 8)) 0).set (F.LANE_PRBS_BITS_BITS (l / 8) (l % 8)) 0).setLane l x :=
    by rw [prbsClr, gated_of_taken _ ht]; exact ⟨_, rfl⟩
  obtain ⟨x, hx⟩ := hclr
  rw [hx, get_setLane, get_setLane, get_set_self, get_set_lane _ _ (by decide) (by decide) (.inl (by decide)), get_set_self]
  exact ⟨rfl, rfl⟩

/-! ### The PLL -/

theorem pllLoss_raises {g : Nat} (hg : g < 13) (h : d.bit (F.LNG_PLL_STAT_PLL_LOCK g) = true) :
    (d.pllLoss g).testBit (F.BLK_IRQ_RAW (lng g)) 9 = true := by
  rw [pllLoss, if_pos ⟨hg, h⟩]
  exact raise_raw _ _ _ (by decide)

end Dev

/-! ### The commands complete -/

section Commands

variable {s : State}

theorem merTrainRequest_completes {m : Nat} (pre main post : Nat) (ht : s.dev.training m = true) (hpre : s.dev.get (F.LANE_TXTAP_PRE 12 m) ≤ 15)
    (hpost : s.dev.get (F.LANE_TXTAP_POST 12 m) ≤ 31) : Completes (.merTrainRequest m pre main post) s (fun d =>
      d.get (F.LANE_TXTAP_PRE 12 m) = (Dev.tapMove 15 (s.dev.get (F.LANE_TXTAP_PRE 12 m)) pre).1
        ∧ d.get (F.LANE_TXTAP_POST 12 m) = (Dev.tapMove 31 (s.dev.get (F.LANE_TXTAP_POST 12 m)) post).1
        ∧ d.get (F.LANE_TXTAP_PRE 12 m) + d.get (F.LANE_TXTAP_MAIN 12 m) + d.get (F.LANE_TXTAP_POST 12 m) = 63
        ∧ ∃ a r, d.out = .merRequest m r :: .merTrain m a :: s.dev.out) := by
  obtain ⟨x, a, he⟩ := s.dev.merTrainRequest_moves pre main post ht
  obtain ⟨hPre, hPost, hMain⟩ := s.dev.get_tapsMoved pre post hpre hpost
  obtain ⟨r, hr⟩ := (((s.dev.tapsMoved m pre post).setLane (96 + m) x).emit (.merTrain m a)).out_ownRequest m
  have ha := Dev.tapMove_le pre hpre
  have hc := Dev.tapMove_le post hpost
  refine completes_of_eq (u := (·.merTrainRequest m pre main post)) rfl he ?_
  simp only [Dev.get_canon, Dev.get_ownRequest, Dev.get_emit, Dev.get_setLane, hPre, hPost, hMain, true_and]
  exact ⟨by omega, a, r, hr⟩

theorem merTrainDone_completes {m t u : Nat} (ht : s.dev.training m = true) (hh : (s.dev.lane (96 + m)).holdAt = some t)
    (ht₁ : 1000000 ≤ s.dev.elapsed t) (ho : (s.dev.lane (96 + m)).ownHold = some u) (hu₁ : 1000000 ≤ s.dev.elapsed u) :
    Completes (.merTrainDone m) s (fun d => (d.lane (96 + m)).trainAt = none) := by
  refine completes_of_eq (u := (·.merTrainDone m)) rfl (s.dev.merTrainDone_ends ht hh ht₁ ho hu₁) ?_
  rw [Dev.lane_canon, Dev.lane_laneShow, Dev.lane_setLane]

theorem trainFail_completes {m t : Nat} (hm : m < 4) (ht : (s.dev.lane (96 + m)).trainAt = some t) (hlate : 20000000 < s.dev.elapsed t) :
    Completes (.trainFail m) s (fun d => (d.lane (96 + m)).trainFail = true ∧ d.get (F.LANE_TXTAP_PRE 12 m) = 4 ∧ d.get (F.LANE_TXTAP_MAIN 12 m) = 49
      ∧ d.get (F.LANE_TXTAP_POST 12 m) = 10 ∧ d.testBit (F.BLK_IRQ_RAW (lng 12)) 7 = true) := by
  have he := s.dev.trainFail_fails hm ht hlate
  have htap : ∀ {b w r : Nat}, b < 32 → (s.dev.trainFail m).canon.get ⟨bar0 (32 + 12) (0x8C + 0x20 * m), b, w, r⟩ =
      (s.dev.tapsPreset m).get ⟨bar0 (32 + 12) (0x8C + 0x20 * m), b, w, r⟩ := fun {b w r} hb => by
    have hf : (⟨bar0 (32 + 12) (0x8C + 0x20 * m), b, w, r⟩ : Fld).laneSet :=
      Fld.laneSet_lane _ _ _ _ _ _ (by decide) (by omega) (by decide) (by decide) hb (by omega) (by omega)
    rw [Dev.get_canon, he, Dev.get_raise_laneSet _ hf, Dev.get_laneShow_laneSet _ hf, Dev.get_setLane]
  obtain ⟨hPre, hMain, hPost⟩ := s.dev.get_tapsPreset m
  refine completes_of_run (u := (·.trainFail m)) rfl ⟨?_, (htap (by decide)).trans hPre, (htap (by decide)).trans hMain, (htap (by decide)).trans hPost, ?_⟩
  · rw [he, Dev.lane_canon, Dev.lane_raise, Dev.lane_laneShow, Dev.lane_setLane]
  · rw [he, Dev.testBit_canon, Dev.raise_raw _ _ _ (by decide)]

theorem laneTxtapWrite_completes {l v : Nat} (hl : 64 ≤ l) (hl' : l < 96) (ht : s.dev.taken (lng (l / 8)) (0x8C + 0x20 * (l % 8)))
    (hsum : bitsAt v 0 4 + bitsAt v 8 6 + bitsAt v 16 5 = 63) (hamp : bitsAt v 24 4 ≤ 12) : Completes (.laneTxtapWrite l v) s (fun d =>
      d.get (F.LANE_TXTAP_PRE (l / 8) (l % 8)) + d.get (F.LANE_TXTAP_MAIN (l / 8) (l % 8)) + d.get (F.LANE_TXTAP_POST (l / 8) (l % 8)) = 63
        ∧ d.get (F.LANE_TXTAP_PRE (l / 8) (l % 8)) = bitsAt v 0 4) := by
  obtain ⟨hPre, hMain, hPost⟩ := s.dev.get_txtapWrite hl hl' ht hsum hamp
  refine completes_of_run (u := (·.txtapWrite l v)) rfl ?_
  rw [Dev.get_canon, Dev.get_canon, Dev.get_canon, hPre, hMain, hPost]
  exact ⟨hsum, rfl⟩

theorem laneTxtapWrite_completes_refused {l v : Nat} (hl : 64 ≤ l) (hl' : l < 96) (ht : s.dev.taken (lng (l / 8)) (0x8C + 0x20 * (l % 8)))
    (hsum : bitsAt v 0 4 + bitsAt v 8 6 + bitsAt v 16 5 ≠ 63) (h₀ : s.dev.get (F.BLK_ERR_CODE_CODE (lng (l / 8))) = 0) :
    Completes (.laneTxtapWrite l v) s (fun d =>
      d.get (F.BLK_ERR_CODE_CODE (lng (l / 8))) = 2 ∧ ∀ f : Fld, f.plain = true → d.get f = s.dev.get f) :=
  completes_of_eq (u := (·.txtapWrite l v)) rfl (s.dev.txtapWrite_refuses hl hl' ht hsum)
    ⟨by rw [Dev.get_canon, Dev.refuse_code _ _ _ _ _ h₀]; rfl, fun f hf => by rw [Dev.get_canon, Dev.get_refuse _ _ _ _ _ hf]⟩

theorem laneTestEn_completes {l : Nat} (hl : l < 100) (ht : s.dev.taken (lng (l / 8)) (0x80 + 0x20 * (l % 8))) (hr : s.dev.laneReleased l = true) :
    Completes (.laneTestEn l true) s (fun d => d.get (F.LANE_CFG_TEST_EN (l / 8) (l % 8)) = 1) :=
  completes_of_eq (u := (·.laneTestEn l true)) rfl (s.dev.laneTestEn_enters hl ht hr) (by rw [Dev.get_canon, Dev.get_enterTest _ hl])

theorem laneTestEn_completes_off {l : Nat} (hl : l < 100) (ht : s.dev.taken (lng (l / 8)) (0x80 + 0x20 * (l % 8)))
    (hb : s.dev.bit (F.LANE_CFG_TEST_EN (l / 8) (l % 8)) = true) :
    Completes (.laneTestEn l false) s (fun d => d.get (F.LANE_CFG_TEST_EN (l / 8) (l % 8)) = 0 ∧ d.laneLocked l = false) := by
  obtain ⟨htest, hlock⟩ := s.dev.get_leaveTest hl
  refine completes_of_eq (u := (·.laneTestEn l false)) rfl (s.dev.laneTestEn_leaves hl ht hb) ⟨by rw [Dev.get_canon, htest], ?_⟩
  rw [Dev.laneLocked, Dev.bit, Dev.get_canon, hlock]
  rfl

/-- Below 104 a lane's test patterns are those of LANE_PRBS. -/
theorem prbsCheck_lane {l : Nat} (bits : List Bool) (hl : l < 104) {e : Dev} (h : s.dev.prbsCheck l bits = e) : s.dev.prbsTest l bits = e :=
  (if_neg (by omega)).trans h

section Checker

variable {l pat : Nat} {inv : Bool} (hl : l < 64 ∨ (96 ≤ l ∧ l < 100)) (he : s.dev.bit (F.LANE_CFG_TEST_EN (l / 8) (l % 8)) = true)
  (hn : s.dev.bit (F.LANE_CFG_LOOP_NEAR (l / 8) (l % 8)) = false) (hc : s.dev.bit (F.LANE_PRBS_CHK (l / 8) (l % 8)) = true)
  (hp : s.dev.get (F.LANE_PRBS_PATTERN (l / 8) (l % 8)) = pat) (h₁ : 1 ≤ pat) (h₅ : pat ≤ 5)
  (hi : s.dev.bit (F.LANE_PRBS_INVERT (l / 8) (l % 8)) = inv)
include hl he hn hc hp h₁ h₅ hi

theorem prbsCheck_completes_synced (bits : List Bool) (hs : s.dev.bit (F.LANE_PRBS_SYNC (l / 8) (l % 8)) = true)
    (hlt : s.dev.get (F.LANE_PRBS_ERR_ERRORS (l / 8) (l % 8)) + bits.length < 2 ^ 32) : Completes (.prbsCheck l bits) s (fun d =>
      d.get (F.LANE_PRBS_ERR_ERRORS (l / 8) (l % 8)) = s.dev.get (F.LANE_PRBS_ERR_ERRORS (l / 8) (l % 8))
        + (bits.foldl (Dev.followBit pat inv) (0, (s.dev.lane l).hist)).1) := by
  obtain ⟨e, hcheck, hregs, hhist, -⟩ := s.dev.prbsCheck_receives bits hl he hn hc hp h₁ h₅
  have hget := Dev.get_congr hregs
  obtain ⟨-, -, herr, -⟩ := Dev.follows_prbsBits (d := e) (pat := pat) (inv := inv) (a := (0, (s.dev.lane l).hist))
    (n := s.dev.get (F.LANE_PRBS_ERR_ERRORS (l / 8) (l % 8))) (show l < 100 by omega) bits
    ⟨by rw [Dev.bit, hget]; exact hs, by rw [hget, hp], hget _, hhist⟩ hlt
  refine completes_of_eq (u := (·.prbsTest l bits)) rfl (prbsCheck_lane bits (by omega) hcheck) ?_
  rw [Dev.get_canon, hi, herr]

theorem prbsCheck_completes_syncs (b : Bool) (hs : s.dev.bit (F.LANE_PRBS_SYNC (l / 8) (l % 8)) = false) (hr : (s.dev.lane l).prbsRun = 63)
    (hlen : (s.dev.lane l).hist.length = (prbsTaps pat).1) (hany : (s.dev.lane l).hist.any id = true)
    (hb : (b != inv) = prbsNext pat (s.dev.lane l).hist) : Completes (.prbsCheck l [b]) s (fun d =>
      d.bit (F.LANE_PRBS_SYNC (l / 8) (l % 8)) = true) := by
  obtain ⟨e, hcheck, hregs, hhist, hrun⟩ := s.dev.prbsCheck_receives [b] hl he hn hc hp h₁ h₅
  have hget := Dev.get_congr hregs
  have hok : (prbsStep pat false (s.dev.lane l).hist (b != inv)).1 = false := by simp [prbsStep, hlen, hany, hb]
  have hsync := e.prbsBit_syncs (l := l) (b := b != inv) (by rw [Dev.bit, hget]; exact hs) (hrun.trans hr) (by rw [hget, hp, hhist, hok])
  refine completes_of_eq (u := (·.prbsTest l [b])) rfl (prbsCheck_lane [b] (by omega) hcheck) ?_
  rw [List.map_singleton, List.foldl_cons, List.foldl_nil, Dev.bit_canon, hi, Dev.bit, hsync]
  rfl

end Checker

theorem prbsCheck_completes_sends {l pat : Nat} {bits : List Bool} (hl : 64 ≤ l) (hl' : l < 96) (hbits : bits ≠ [])
    (he : s.dev.bit (F.LANE_CFG_TEST_EN (l / 8) (l % 8)) = true) (hg : s.dev.bit (F.LANE_PRBS_GEN (l / 8) (l % 8)) = true)
    (hp : s.dev.get (F.LANE_PRBS_PATTERN (l / 8) (l % 8)) = pat) (h₁ : 1 ≤ pat) (h₅ : pat ≤ 5) (hgen : (s.dev.lane l).gen ≠ []) :
    Completes (.prbsCheck l bits) s (fun d => d.out = .prbs l ((prbsRun pat bits.length (s.dev.lane l).gen).1.map
      (· != s.dev.bit (F.LANE_PRBS_INVERT (l / 8) (l % 8)))) :: s.dev.out ∧ KeepsRegs s.dev d []) := by
  obtain ⟨x, hx⟩ := s.dev.prbsCheck_sends hl hl' hbits he hg hp h₁ h₅ hgen
  exact completes_of_eq (u := (·.prbsTest l bits)) rfl (prbsCheck_lane bits (by omega) hx) ⟨rfl, Dev.keepsRegs_canon fun _ _ => rfl⟩

theorem prbsClr_completes {l : Nat} (ht : s.dev.taken (lng (l / 8)) (0x90 + 0x20 * (l % 8))) : Completes (.prbsClr l false) s (fun d =>
    d.get (F.LANE_PRBS_ERR_ERRORS (l / 8) (l % 8)) = 0 ∧ d.get (F.LANE_PRBS_BITS_BITS (l / 8) (l % 8)) = 0) := by
  obtain ⟨herr, hbits⟩ := s.dev.get_prbsClr ht
  exact completes_of_run (u := (·.prbsClr l false)) rfl ⟨by rw [Dev.get_canon, herr], by rw [Dev.get_canon, hbits]⟩

theorem prbsErrRead_completes (l : Nat) : Completes (.prbsErrRead l) s (fun d =>
    (d.lane l).bitsLatch = some (s.dev.get (F.LANE_PRBS_BITS_BITS (l / 8) (l % 8)))
      ∧ (∃ a, d.out = .readData a (s.dev.get (F.LANE_PRBS_ERR_ERRORS (l / 8) (l % 8))) :: s.dev.out) ∧ KeepsRegs s.dev d [] ∧ KeepsMemory s.dev d) :=
  completes_of_run (u := (·.prbsErrRead l)) rfl ⟨congrArg Lane.bitsLatch (Dev.lane_setLane s.dev l _), ⟨_, rfl⟩, Dev.keepsRegs_canon fun _ _ => rfl,
    Dev.keepsMemory_canon rfl rfl rfl rfl⟩

theorem pllLoss_completes {g : Nat} (hg : g < 13) (h : s.dev.bit (F.LNG_PLL_STAT_PLL_LOCK g) = true) : Completes (.pllLoss g) s (fun d =>
    d.get (F.LNG_PLL_STAT_PLL_LOCK g) = 0 ∧ d.testBit (F.BLK_IRQ_RAW (lng g)) 9 = true) :=
  completes_of_run (u := (·.pllLoss g)) rfl
    ⟨by rw [Dev.get_canon, Dev.pllLoss_unlocks _ hg], by rw [Dev.testBit_canon, Dev.pllLoss_raises _ hg h]⟩

end Commands

/-- Settles O26: each clause is the lemma of its command. -/
theorem laneTraining : Obligations.LaneTraining := fun _ =>
  ⟨fun _ pre main post => merTrainRequest_completes pre main post, fun _ _ _ => merTrainDone_completes, fun _ _ => trainFail_completes,
    fun _ _ hl hl' ht => ⟨laneTxtapWrite_completes hl hl' ht, laneTxtapWrite_completes_refused hl hl' ht⟩,
    fun _ hl ht => ⟨laneTestEn_completes hl ht, laneTestEn_completes_off hl ht⟩,
    fun _ _ _ hl he hn hc hp h₁ h₅ hi => ⟨prbsCheck_completes_synced hl he hn hc hp h₁ h₅ hi, prbsCheck_completes_syncs hl he hn hc hp h₁ h₅ hi⟩,
    fun _ _ _ => prbsCheck_completes_sends, fun _ _ => prbsClr_completes, fun l _ => prbsErrRead_completes l, fun _ => pllLoss_completes⟩

end Sys2Proof.Machine
end

section
/-! PROOF. What the device does by itself at a change of level, as a principle: a property of the device that no field a change of level writes can
end, that outlasts every event, and that only reads the register store, holds after `autoLevel` where it held before. -/

namespace Sys2Proof.Machine

/-- A field that a change of level may write: of page DEV, of the pages from the engines' on, and of page DISP the counts of bodies abandoned and of
verdicts (a group of bodies has no bound here). -/
def Fld.levelled (g : Fld) : Prop :=
  g.key < 0x1_0000 * 32 ∨ 0x40 * 0x1_0000 * 32 ≤ g.key ∨ g.key = F.DISP_CNT_ABORT_COUNT.key ∨ ∃ n, g.key = (F.DISP_GRP_VERD_COUNT n).key

theorem Fld.levelled_page {p o l w r : Nat} (h : 0x40 ≤ p) : (⟨bar0 p o, l, w, r⟩ : Fld).levelled :=
  .inr (.inl (by simp only [key, bar0]; omega))

namespace Dev

/-- What a change of level may do to a device keeps `P`. -/
structure LevelKeeps (P : Dev → Prop) : Prop where
  set : ∀ {d : Dev} {g : Fld} (v : Nat), g.levelled → P d → P (d.set g v)
  raise : ∀ {d : Dev} (p b : Nat), P d → P (d.raise p b)
  same : ∀ {d e : Dev}, P d → (∀ f, e.get f = d.get f) → P e

namespace LevelKeeps

variable {P : Dev → Prop} (hP : LevelKeeps P) {d : Dev}
include hP

theorem setPage {p o l w r : Nat} (v : Nat) (hp : 0x40 ≤ p) (h : P d) : P (d.set ⟨bar0 p o, l, w, r⟩ v) := hP.set v (Fld.levelled_page hp) h

theorem outside {e : Dev} (h : P d) (hr : e.regs = d.regs) : P e := hP.same h (get_congr hr)

omit hP in
theorem foldl {α : Type} {step : Dev → α → Dev} (hs : ∀ d a, P d → P (step d a)) (l : List α) (h : P d) : P (l.foldl step d) :=
  List.foldlRecOn l step h fun d h a _ => hs d a h

/-! ### Engines and pulses -/

theorem engShow (e : Nat) (h : P d) : P (d.engShow e) :=
  hP.setPage _ (Nat.le_add_right _ _) (hP.setPage _ (Nat.le_add_right _ _) (hP.setPage _ (Nat.le_add_right _ _) h))

theorem engShow_setEng (e : Nat) (x : Eng) (h : P d) : P ((d.setEng e x).engShow e) := hP.engShow e (hP.outside h rfl)

theorem startBody (e : Nat) (h : P d) : P (d.startBody e) := by
  obtain he | ⟨x, he⟩ := startBody_cases d e
  · rwa [he]
  · rw [he]; exact hP.engShow_setEng e x h

theorem endBody (e : Nat) (h : P d) : P (d.endBody e) := by
  unfold Dev.endBody
  extract_lets x cycles d₁ d₂
  have h₂ : P d₂ := hP.setPage _ (Nat.le_add_right _ _) (hP.engShow_setEng e _ h)
  exact iteInduction (fun _ => hP.setPage _ (Nat.le_add_right _ _) h₂) fun _ => hP.startBody e h₂

theorem abandonAll (h : P d) : P d.abandonAll := by
  refine foldl (fun d e h => ?_) _ h
  extract_lets x n d₁
  have h₁ : P d₁ := hP.set _ (.inr (.inr (.inl rfl))) (hP.outside h rfl)
  exact iteInduction (fun _ => h) fun _ => iteInduction (fun _ => hP.endBody e h₁) fun _ => hP.engShow e h₁

theorem metShow (n : Nat) (h : P d) : P (d.metShow n) := by
  unfold Dev.metShow
  extract_lets x q d₁ d₂ ready d₃
  have h₁ : P d₁ := by
    refine hP.set _ ?_ h
    split
    · exact Fld.levelled_page (by decide)
    · exact Fld.levelled_page (by decide)
  have h₂ : P d₂ := foldl (fun d k h => hP.setPage _ (by omega) h) _ h₁
  have h₃ : P d₃ := hP.setPage _ (by omega) (hP.setPage _ (by omega) h₂)
  exact hP.setPage _ (by omega) h₃

theorem cancelAll (n : Nat) (h : P d) : P (d.cancelAll n) := by
  unfold Dev.cancelAll
  extract_lets x d₁
  have h₁ : P d₁ := hP.outside h rfl
  refine iteInduction (fun _ => hP.metShow n h₁) fun _ => hP.metShow n (foldl (fun d k h => ?_) _ h₁)
  exact hP.outside h rfl

theorem cancelEverything (h : P d) : P d.cancelEverything := by
  unfold Dev.cancelEverything
  extract_lets d₁
  have h₁ : P d₁ := foldl (fun d n h => hP.cancelAll n h) _ h
  clear_value d₁
  exact hP.outside h₁ rfl

/-! ### The change of level -/

theorem driveDivert (n : Nat) (on : Bool) (h : P d) : P (d.driveDivert n on) := hP.outside (hP.setPage _ (by decide) h) rfl

theorem setDivertAt (n : Nat) (t : Option Nat) (h : P d) : P (d.setDivertAt n t) := hP.outside h rfl

theorem divertOne (n : Nat) (h : P d) : P (d.divertOne n) := by
  have hput : P (d.put (F.PLAN_DIVERT_ASSERTED n) false) := hP.setPage _ (by decide) h
  unfold Dev.divertOne
  refine iteInduction (fun _ => hP.outside hput rfl) fun _ => ?_
  refine iteInduction (fun _ => hP.setDivertAt n _ (hP.driveDivert n _ h)) fun _ => ?_
  refine iteInduction (fun _ => ?_) fun _ => hP.driveDivert n _ h
  refine iteInduction (fun _ => hP.setDivertAt n _ (hP.driveDivert n _ h)) fun _ => ?_
  extract_lets d₁
  split
  · exact hP.driveDivert n _ h
  · exact hP.setDivertAt n _ (hP.driveDivert n _ h)

theorem abandonJoin (h : P d) : P d.abandonJoin := by
  unfold Dev.abandonJoin
  extract_lets p
  exact iteInduction (fun _ => h) fun _ => hP.setPage _ (by decide) (hP.setPage _ (by decide) (hP.outside h rfl))

theorem setRole (r : Nat) (h : P d) : P (d.setRole r) :=
  hP.raise _ _ (hP.setPage _ (by decide) (hP.setPage _ (by decide) (hP.setPage _ (by decide) h)))

theorem leaveSorting (h : P d) : P d.leaveSorting := by
  unfold Dev.leaveSorting
  extract_lets lost d₁ mer seg d₂ d₃ d₄
  have h₁ : P d₁ := foldl (fun d g h => hP.setPage _ (by decide) h) _ h
  have h₂ : P d₂ := hP.outside h₁ rfl
  have h₄ : P d₄ := hP.abandonJoin (hP.setPage _ (by decide) (hP.setPage _ (by decide) h₂))
  exact iteInduction (fun _ => h₄) fun _ => hP.setRole 0 h₄

theorem levelUpdate (cause detail : Nat) (h : P d) : P (d.levelUpdate cause detail) := by
  unfold Dev.levelUpdate
  extract_lets d₁ was d₂
  have h₁ : P d₁ := hP.setPage _ (by decide) h
  have h₂ : P d₂ := hP.setPage _ (by decide) (hP.setPage _ (by decide) (hP.setPage _ (by decide) (hP.setPage _ (by decide) h₁)))
  exact iteInduction (fun _ => h₁) fun _ => hP.raise _ _ (hP.setPage _ (by decide) (hP.setPage _ (by decide) h₂))

theorem moveState (s cause detail : Nat) (h : P d) : P (d.moveState s cause detail) := by
  unfold Dev.moveState
  refine iteInduction (fun _ => h) fun _ => ?_
  extract_lets d₁ d₂ d₃
  have h₁ : P d₁ := hP.set _ (.inl (by decide)) (hP.set _ (.inl (by decide)) (hP.set _ (.inl (by decide)) h))
  have h₂ : P d₂ := hP.divertOne 1 (hP.divertOne 0 (hP.raise _ _ (hP.set _ (.inl (by decide)) h₁)))
  exact hP.levelUpdate cause detail (iteInduction (fun _ => h₂) fun _ => hP.leaveSorting h₂)

theorem enterTwilight (cause detail : Nat) (h : P d) : P (d.enterTwilight cause detail) := by
  unfold Dev.enterTwilight
  extract_lets bs d₁
  refine hP.setPage _ (by decide) (foldl (fun d b h => ?_) bs (hP.moveState 6 cause detail (hP.abandonAll h)))
  exact hP.same (hP.set _ (.inr (.inr (.inr ⟨b.group, rfl⟩))) h) fun _ => get_twilightPass (d.count (F.DISP_GRP_VERD_COUNT b.group)) b 0 false

theorem eclipseCancel (h : P d) : P d.eclipseCancel := hP.cancelEverything (hP.setPage _ (by decide) h)

theorem enterEclipse (cause detail : Nat) (h : P d) : P (d.enterEclipse cause detail) := by
  unfold Dev.enterEclipse
  extract_lets n d₁ mer d₂
  have h₀ : P d.abandonAll.dropBodies := hP.same (hP.abandonAll h) fun _ => get_dropBodies _
  have h₁ : P d₁ := hP.setPage _ (by decide) (hP.moveState 7 cause detail h₀)
  clear_value d₁
  have h₂ : P d₂ := hP.abandonJoin (hP.outside h₁ rfl)
  exact iteInduction (fun _ => hP.same h₂ fun _ => get_sendOffer d₂ _) fun _ => hP.eclipseCancel h₂

/-- What the device does by itself keeps what every change of level keeps. -/
theorem autoLevel (h : P d) : P d.autoLevel :=
  iteInduction (fun _ => hP.enterEclipse _ _ h) fun _ => iteInduction (fun _ => hP.enterTwilight _ _ h) fun _ =>
    iteInduction (fun _ => hP.enterTwilight _ _ h) fun _ => iteInduction (fun _ => hP.enterTwilight _ _ h) fun _ => h

end LevelKeeps

/-- A calm field that no change of level writes outlasts what the device does by itself. -/
theorem get_autoLevel (d : Dev) {f : Fld} (hf : f.calm = true) (hl : ∀ g : Fld, g.levelled → f.key ≠ g.key) : d.autoLevel.get f = d.get f :=
  LevelKeeps.autoLevel (P := fun e => e.get f = d.get f)
    ⟨fun v hg h => (get_set_ne _ v (hl _ hg)).trans h, fun p b h => (get_raise _ p b hf).trans h, fun h he => (he f).trans h⟩ rfl

/-- Outside the states in which the device sorts it changes no level by itself. -/
theorem autoLevel_idle {d : Dev} (h : d.sorting = false) : d.autoLevel = d := by
  simp only [sorting, Bool.or_eq_false_iff, decide_eq_false_iff_not] at h
  obtain ⟨⟨h₅, h₆⟩, -⟩ := h
  simp [autoLevel, h₅, h₆]

end Dev
end Sys2Proof.Machine
end

section
/-! PROOF. O37, the bank swaps of COR, GEO, SPEC, DISP and PLAN. The fields of a swap stand in one register, so what one swap does to them is said once
for all five; what is a page's own is its check, which the request leaves as it was, and what else takes effect with the swap. -/

namespace Sys2Proof.Machine

/-! ### The register of a swap -/

/-- A field of the swap's register. -/
def SwapDef.bits (w : SwapDef) (l n : Nat) : Fld := ⟨bar0 w.page w.off, l, n, 0⟩

/-- The swap's fields stand in its register, as R162 and R163 give it, and its register is one of the five. -/
structure SwapDef.Laid (w : SwapDef) : Prop where
  known : [(0x30, 0x44), (0x33, 0x44), (0x35, 0x44), (0x39, 0xC0), (0x80, 0x70)].contains (w.page, w.off) = true
  timed : w.timed = w.bits 1 1
  pend : w.pend = w.bits 2 1
  active : w.active = w.bits 3 1
  dtPend : w.dtPend = w.bits 4 1
  cnt : w.cnt = w.bits 8 8
  done : w.irqDone < 32

theorem corSwap_laid : corSwap.Laid := ⟨rfl, rfl, rfl, rfl, rfl, rfl, by decide⟩
theorem geoSwap_laid : geoSwap.Laid := ⟨rfl, rfl, rfl, rfl, rfl, rfl, by decide⟩
theorem specSwap_laid : specSwap.Laid := ⟨rfl, rfl, rfl, rfl, rfl, rfl, by decide⟩
theorem dispSwap_laid : dispSwap.Laid := ⟨rfl, rfl, rfl, rfl, rfl, rfl, by decide⟩
theorem planSwap_laid : planSwap.Laid := ⟨rfl, rfl, rfl, rfl, rfl, rfl, by decide⟩

theorem SwapDef.bits_ne (w : SwapDef) {l l' n n' : Nat} (h : l ≠ l') : (w.bits l n).key ≠ (w.bits l' n').key := by
  simp only [bits, Fld.key]; omega

namespace SwapDef.Laid

variable {w : SwapDef} (hw : w.Laid)
include hw

/-- Past the headers of the pages, and past page IRQ and page HOST. -/
theorem place : (0x30 ≤ w.page ∧ w.page ≤ 0x80) ∧ 0x40 ≤ w.off ∧ w.off < 0x1_0000 := by
  have h := hw.known
  simp only [List.contains_cons, List.contains_nil, Bool.or_false, Bool.or_eq_true, beq_iff_eq, Prod.mk.injEq] at h
  omega

theorem plain {l n : Nat} (hl : l < 32) : (w.bits l n).plain = true := by
  obtain ⟨⟨h₁, h₂⟩, h₃, h₄⟩ := hw.place
  exact Fld.plain_page _ _ _ _ _ h₃ h₄ hl (by omega) (by omega) (by omega)

theorem ne_devState {l n : Nat} (hl : l < 32) : F.DEV_STATE_STATE.key ≠ (w.bits l n).key := by
  obtain ⟨⟨h₁, -⟩, -⟩ := hw.place
  simp only [bits, Fld.key, bar0]; omega

theorem ne_errCode {l n : Nat} (hl : l < 32) : (F.BLK_ERR_CODE_CODE w.page).key ≠ (w.bits l n).key := by
  obtain ⟨-, h₃, -⟩ := hw.place
  simp only [bits, Fld.key, bar0]; omega

end SwapDef.Laid

namespace Dev

variable (d : Dev) {w : SwapDef} {v : Nat} {check : Dev → Option (Err × Nat)}

/-! ### What the statement says of a request and of a swap that takes effect -/

/-- A request with TIMED = 0 that the gate takes, no swap pending. -/
def Asks (w : SwapDef) (v : Nat) : Prop :=
  v % 2 = 1 ∧ fieldOf w.timed v = 0 ∧ d.taken w.page w.off ∧ 3 ≤ d.state ∧ d.bit w.pend = false

/-- A request that the gate takes while a swap is pending. -/
def AsksAgain (w : SwapDef) (v : Nat) : Prop :=
  v % 2 = 1 ∧ d.taken w.page w.off ∧ 3 ≤ d.state ∧ d.bit w.pend = true ∧ d.get (F.BLK_ERR_CODE_CODE w.page) = 0

/-- A request in BOOT or IDENT. -/
def AsksEarly (w : SwapDef) (v : Nat) : Prop := v % 2 = 1 ∧ d.state ≤ 2 ∧ d.get (F.BLK_ERR_CODE_CODE w.page) = 0

/-- The swap is pending in `e`, and nothing else has changed. -/
def Pends (w : SwapDef) (e : Dev) : Prop := e.bit w.pend = true ∧ e.get w.timed = 0 ∧ KeepsRegs d e [w.pend, w.timed] ∧ KeepsMemory d e

/-- The request was refused with the error of this code. -/
def Refused (w : SwapDef) (code : Nat) (e : Dev) : Prop :=
  e.bit w.pend = d.bit w.pend ∧ e.get w.active = d.get w.active ∧ e.get (F.BLK_ERR_CODE_CODE w.page) = code

/-- A swap without an instant is pending. -/
def SwapDue (w : SwapDef) : Prop := d.bit w.pend = true ∧ (d.swapSt w).timed = none

/-- The swap has taken effect in `e`. -/
def Toggles (w : SwapDef) (e : Dev) : Prop := e.get w.active = 1 - d.get w.active ∧ e.bit w.pend = false ∧ e.bit w.dtPend = true
  ∧ e.get w.cnt = (d.get w.cnt + 1) % 2 ^ 8 ∧ e.testBit (F.BLK_IRQ_RAW w.page) w.irqDone = true
  ∧ (d.sorting = false → KeepsMemory { d with host := e.host } e)

/-! ### Requests (R162) -/

theorem swapGo_early (hw : w.Laid) (h : d.AsksEarly w v) : d.swapGo w v check = d.refuse w.page w.off .state := by
  obtain ⟨hv, hs, -⟩ := h
  have he : d.swapEarly w.page w.off v = true := by rw [swapEarly, hw.known]; simp [hv, hs]
  rw [swapGo, gatedSwap, if_pos he]

theorem swapGo_taken (ht : d.taken w.page w.off) (hs : 3 ≤ d.state) : d.swapGo w v check = d.swapAsk w v check := by
  have he : d.swapEarly w.page w.off v = false := by
    have : ¬d.state ≤ 2 := by omega
    simp [swapEarly, this]
  rw [swapGo, gatedSwap, he, if_neg Bool.false_ne_true]
  exact gated_of_taken _ ht

/-- TIMED is all that a request writes before it is judged. -/
theorem state_setTimed (hw : w.Laid) (x : Nat) : (d.set w.timed x).state = d.state := by
  rw [hw.timed]
  exact get_set_ne d x (hw.ne_devState (by decide))

theorem pend_setTimed (hw : w.Laid) (x : Nat) : (d.set w.timed x).bit w.pend = d.bit w.pend := by
  rw [bit, hw.timed, hw.pend, get_set_ne d x (w.bits_ne (by decide)), ← bit]

/-- An accepted request that is not timed leaves its entry beside TIMED and PEND. -/
theorem swapAsk_pends (hw : w.Laid) (h : d.Asks w v) (hc : check (d.set w.timed 0) = none) :
    ∃ x, d.swapAsk w v check = ((d.set w.timed 0).put w.pend true).setSwapSt w x := by
  obtain ⟨hv, ht, -, hs, hp⟩ := h
  have hput : d.putFields v [w.timed] = d.set w.timed 0 := by rw [← ht]; rfl
  have hstate := d.state_setTimed hw 0
  have hpend := d.pend_setTimed hw 0
  have htimed : (d.set w.timed 0).bit w.timed = false := by rw [bit, get_set_self, Nat.zero_mod]; rfl
  rw [swapAsk, hput]
  generalize d.set w.timed 0 = e at *
  refine ⟨{ timed := none, late := false, before := e.released w, passed := (e.swapSt w).passed }, ?_⟩
  have h₁ : ¬v % 2 = 0 := by omega
  have h₂ : ¬e.state ≤ 2 := by omega
  simp [h₁, h₂, hpend, hp, htimed, hc]

theorem swapAsk_busy (hw : w.Laid) (h : d.AsksAgain w v) :
    d.swapAsk w v check = (d.set w.timed (fieldOf w.timed v)).refuse w.page w.off .busy := by
  obtain ⟨hv, -, hs, hp, -⟩ := h
  have hput : d.putFields v [w.timed] = d.set w.timed (fieldOf w.timed v) := rfl
  rw [swapAsk, hput, if_neg (by omega), if_neg (by rw [d.state_setTimed hw]; omega), if_pos (by rw [d.pend_setTimed hw, hp])]

/-- What a refusal leaves, where TIMED was all that had been written. -/
theorem refused_refuse (hw : w.Laid) {e : Dev} (he : ∀ f : Fld, f.key ≠ w.timed.key → e.get f = d.get f)
    (h₀ : d.get (F.BLK_ERR_CODE_CODE w.page) = 0) (err : Err) : d.Refused w err.code (e.refuse w.page w.off err).canon := by
  rw [hw.timed] at he
  have hget : ∀ l, 1 < l → l < 32 → (e.refuse w.page w.off err).get (w.bits l 1) = d.get (w.bits l 1) := fun l h₁ hl => by
    rw [get_refuse _ _ _ _ _ (hw.plain hl), he _ (w.bits_ne (by omega))]
  refine ⟨?_, ?_, ?_⟩
  · rw [bit_canon, bit, hw.pend, hget 2 (by decide) (by decide), ← bit]
  · rw [get_canon, hw.active, hget 3 (by decide) (by decide)]
  · rw [get_canon, refuse_code _ _ _ _ _ ((he _ (hw.ne_errCode (by decide))).trans h₀)]

/-! ### The checks, which the request leaves as they were (R178, R187, R260) -/

theorem portsOf_set {f : Fld} (x : Nat) (h : ∀ p < 16, (F.CXP_CTRL_GROUP p).key ≠ f.key) : (d.set f x).portsOf = d.portsOf :=
  funext fun g => portsOf_congr d (fun p hp => get_set_ne d x (h p hp)) g

theorem geoCheck_set (x n : Nat) : (d.set F.GEO_SWAP_TIMED x).geoCheck n = d.geoCheck n := by
  generalize he : d.set F.GEO_SWAP_TIMED x = e
  have hget : ∀ f : Fld, f.key ≠ F.GEO_SWAP_TIMED.key → e.get f = d.get f := fun f hf => he ▸ get_set_ne d x hf
  have hports : e.portsOf = d.portsOf := he ▸ d.portsOf_set x fun p _ => by simp only [Fld.key, bar0]; omega
  have hset : e.geoSet = d.geoSet := he ▸ rfl
  have hlen : e.lineLen = d.lineLen := funext fun p => hget _ (by simp only [Fld.key, bar0]; omega)
  have hwidth : e.groupWidth = d.groupWidth := funext fun g => congrArg (· + 1) (hget (F.STI_GRP_WIDTH_M1 g) (by simp only [Fld.key, bar0]; omega))
  have hbands : e.bands = d.bands := funext fun p => by rw [bands, bands, hget _ (by simp only [Fld.key, bar0]; omega)]
  have hdepth : e.geoDepth = d.geoDepth := funext fun p => by
    rw [geoDepth, geoDepth, hget _ (by simp only [Fld.key, bar0]; omega), hget _ (by simp only [Fld.key, bar0]; omega)]
  have hen : ∀ p, e.bit (F.BLK_CTRL_ENABLE p) = d.bit (F.BLK_CTRL_ENABLE p) := fun p => by
    rw [bit, hget _ (by simp only [Fld.key, bar0]; omega), ← bit]
  have hgeoPorts : e.geoPorts = d.geoPorts := funext fun g => by simp only [geoPorts, hports, hen]
  have hok : e.geoPortOk = d.geoPortOk := by
    funext n g p
    simp only [geoPortOk, hset, hlen, hwidth, hbands, hdepth]
  have hbad : e.geoPortBad = d.geoPortBad := by
    funext n g p
    simp only [geoPortBad, hgeoPorts, hset, hok]
  have hfirst : e.geoBad n = d.geoBad n := funext fun g => by rw [geoBad, geoBad, hgeoPorts, hbad]
  rw [geoCheck, geoCheck, hfirst]

theorem specCheck_set (x n : Nat) : (d.set F.SPEC_SWAP_TIMED x).specCheck n = d.specCheck n := by
  have hports : (d.set F.SPEC_SWAP_TIMED x).portsOf = d.portsOf := d.portsOf_set x fun p _ => by simp only [Fld.key, bar0]; omega
  have hbad : (d.set F.SPEC_SWAP_TIMED x).specBad = d.specBad := by
    funext n g
    rw [specBad, specBad, hports]
    rfl
  rw [specCheck, specCheck, hbad]

/-- A set is examined in the bank that is not in force, which TIMED does not change. -/
theorem geoCheck_asked (hc : d.geoCheck (1 - d.get F.GEO_SWAP_ACTIVE) = none) :
    (d.set F.GEO_SWAP_TIMED 0).geoCheck (1 - (d.set F.GEO_SWAP_TIMED 0).get F.GEO_SWAP_ACTIVE) = none := by
  rw [geoCheck_set, get_set_ne d _ (by decide), hc]

theorem specCheck_asked (hc : d.specCheck (1 - d.get F.SPEC_SWAP_ACTIVE) = none) :
    (d.set F.SPEC_SWAP_TIMED 0).specCheck (1 - (d.set F.SPEC_SWAP_TIMED 0).get F.SPEC_SWAP_ACTIVE) = none := by
  rw [specCheck_set, get_set_ne d _ (by decide), hc]

theorem slotNextMissing_set (x : Nat) : (d.set F.DISP_SWAP_TIMED x).slotNextMissing = d.slotNextMissing := by
  generalize he : d.set F.DISP_SWAP_TIMED x = e
  have hget : ∀ f : Fld, f.key ≠ F.DISP_SWAP_TIMED.key → e.get f = d.get f := fun f hf => he ▸ get_set_ne d x hf
  have hports : e.portsOf = d.portsOf := he ▸ d.portsOf_set x fun p _ => by simp only [Fld.key, bar0]; omega
  have hbit : ∀ p o l r, o < 0xC0 → l < 32 → e.bit ⟨bar0 p o, l, 1, r⟩ = d.bit ⟨bar0 p o, l, 1, r⟩ := fun p o l r ho hl => by
    rw [bit, hget _ (by simp only [Fld.key, bar0]; omega), ← bit]
  have hfeat : e.feat = d.feat := he ▸ rfl
  have heng : e.eng = d.eng := he ▸ rfl
  have henabled : e.enabled = d.enabled := funext fun p => by rw [enabled, enabled, hbit _ _ _ _ (by decide) (by decide), hfeat]
  have hservice : e.engInService = d.engInService := funext fun n => by
    simp only [engInService, offline, testing, henabled, heng, hbit _ 0x40 8 _ (by decide) (by decide), hbit _ 0x0C 4 _ (by decide) (by decide),
      hbit _ 0x10 2 _ (by decide) (by decide), hbit _ 0x10 5 _ (by decide) (by decide)]
  have hslot : e.engSlot = d.engSlot := funext fun n => hget _ (by simp only [Fld.key, bar0]; omega)
  have hpool : e.poolSize = d.poolSize := funext fun k => by rw [poolSize, poolSize, hservice, hslot]
  have hnext : ∀ g, e.get (F.DISP_GRP_A_SLOT_NEXT g) = d.get (F.DISP_GRP_A_SLOT_NEXT g) := fun g => hget _ (by simp only [Fld.key, bar0]; omega)
  rw [slotNextMissing, slotNextMissing, groupsWithPort, groupsWithPort, hports, hpool]
  simp only [hnext]

theorem slotsFound_asked (hc : d.slotNextMissing = false) :
    (if (d.set F.DISP_SWAP_TIMED 0).slotNextMissing then some (Err.state, 8) else none) = none := by
  rw [slotNextMissing_set, hc, if_neg Bool.false_ne_true]

/-- A request for the valve map whose check finds nothing, or that is refused before it is judged, names no entry. -/
theorem planSwapGo_eq (h : d.mapBad (1 - d.get F.PLAN_SWAP_ACTIVE) = none ∨ d.state ≤ 2 ∨ d.bit F.PLAN_SWAP_PEND = true) :
    d.planSwapGo v = d.swapGo planSwap v fun _ => (d.mapBad (1 - d.get F.PLAN_SWAP_ACTIVE)).map fun _ => (.range, 0) := by
  unfold planSwapGo
  generalize d.mapBad (1 - d.get F.PLAN_SWAP_ACTIVE) = bad at h ⊢
  cases bad with
  | none => rfl
  | some i =>
    have hasked : ¬(d.gate 0x80 0x70 = .pass ∧ v % 2 = 1 ∧ ¬d.state ≤ 2 ∧ ¬d.bit F.PLAN_SWAP_PEND = true) := fun ⟨_, _, hs, hp⟩ =>
      h.elim nofun (Or.rec hs hp)
    dsimp only
    rw [if_neg hasked]

/-! ### The swap takes effect (R163) -/

theorem swapReady_due (h : d.SwapDue w) (t : Option (Nat × Nat × Nat)) : d.swapReady w t = true := by
  obtain ⟨hp, ht⟩ := h
  simp only [swapReady, hp, ht, Bool.and_self]

/-- The memories but that of the host. -/
def stores (d : Dev) : List Host.Cell × List Host.Cell × List Host.Cell := (d.mem, d.flash, d.mram)

theorem stores_raise (p b : Nat) : (d.raise p b).stores = d.stores := (congrArg stores (unrecorded_raise d p b) :)

/-- The swap has taken effect in `e`, which is not yet in canonical form. -/
structure Swapped (w : SwapDef) (d e : Dev) : Prop where
  active : e.get w.active = 1 - d.get w.active
  pend : e.bit w.pend = false
  dtPend : e.bit w.dtPend = true
  cnt : e.get w.cnt = (d.get w.cnt + 1) % 2 ^ 8
  done : e.testBit (F.BLK_IRQ_RAW w.page) w.irqDone = true
  stores : d.sorting = false → e.stores = d.stores

theorem swapped_swapApply (hw : w.Laid) : Swapped w d (d.swapApply w) := by
  have hget : ∀ l n, l < 32 → (d.swapApply w).get (w.bits l n) =
      ((((d.set w.active (1 - d.get w.active)).put w.pend false).count w.cnt).put w.dtPend true).get (w.bits l n) := fun l n hl =>
    get_raise _ _ _ (Fld.calm_of_plain (hw.plain hl))
  simp only [hw.active, hw.pend, hw.dtPend, hw.cnt] at hget
  have ne : ∀ {l l' n n'}, l ≠ l' → (w.bits l n).key ≠ (w.bits l' n').key := w.bits_ne
  refine ⟨?_, ?_, ?_, ?_, raise_raw _ _ _ hw.done, fun _ => stores_raise _ _ _⟩
  · rw [hw.active, hget 3 1 (by decide), get_put_ne _ _ (ne (by decide)), get_count_ne _ _ (ne (by decide)), get_put_ne _ _ (ne (by decide)),
      get_set_self]
    exact Nat.mod_eq_of_lt (show 1 - d.get (w.bits 3 1) < 2 by omega)
  · rw [bit, hw.pend, hget 2 1 (by decide), get_put_ne _ _ (ne (by decide)), get_count_ne _ _ (ne (by decide)), get_put_self _ _ _ one_ne_zero]
    rfl
  · rw [bit, hw.dtPend, hget 4 1 (by decide), get_put_self _ _ _ one_ne_zero]
    rfl
  · rw [hw.cnt, hget 8 8 (by decide), get_put_ne _ _ (ne (by decide)), get_count_self, get_put_ne _ _ (ne (by decide)),
      get_set_ne _ _ (ne (by decide))]
    rfl

theorem get_swapApply_ne (hw : w.Laid) {f : Fld} (hf : f.calm = true) (h : ∀ l n, l < 32 → f.key ≠ (w.bits l n).key) :
    (d.swapApply w).get f = d.get f := by
  have hne : ∀ {e : Dev} {g : Fld} (l n : Nat) (x : Nat), g = w.bits l n → l < 32 → (e.set g x).get f = e.get f := fun l n x hg hl =>
    get_set_ne _ x (hg ▸ h l n hl)
  refine (get_raise _ _ _ hf).trans ((hne 4 1 _ hw.dtPend (by decide)).trans ?_)
  exact (hne 8 8 _ hw.cnt (by decide)).trans ((hne 2 1 _ hw.pend (by decide)).trans (hne 3 1 _ hw.active (by decide)))

namespace Swapped

variable {d} {c e e' : Dev}

/-- What comes after the swap and leaves its register, its event and the memories alone leaves it in effect. -/
theorem after (hw : w.Laid) (h : Swapped w d e) (hget : ∀ l n, l < 32 → e'.get (w.bits l n) = e.get (w.bits l n))
    (hraw : e.testBit (F.BLK_IRQ_RAW w.page) w.irqDone = true → e'.testBit (F.BLK_IRQ_RAW w.page) w.irqDone = true)
    (hst : d.sorting = false → e'.stores = e.stores) : Swapped w d e' where
  active := by rw [hw.active, hget 3 1 (by decide), ← hw.active, h.active]
  pend := by rw [bit, hw.pend, hget 2 1 (by decide), ← hw.pend, ← bit, h.pend]
  dtPend := by rw [bit, hw.dtPend, hget 4 1 (by decide), ← hw.dtPend, ← bit, h.dtPend]
  cnt := by rw [hw.cnt, hget 8 8 (by decide), ← hw.cnt, h.cnt]
  done := hraw h.done
  stores := fun hs => (hst hs).trans (h.stores hs)

/-- What comes before the swap and leaves its register, DEV_STATE and the memories alone does not change what the swap does. -/
theorem before (hw : w.Laid) (h : Swapped w d e) (hget : ∀ l n, l < 32 → d.get (w.bits l n) = c.get (w.bits l n))
    (hs : d.sorting = c.sorting) (hst : d.stores = c.stores) : Swapped w c e where
  active := by rw [h.active, hw.active, hget 3 1 (by decide)]
  pend := h.pend
  dtPend := h.dtPend
  cnt := by rw [h.cnt, hw.cnt, hget 8 8 (by decide)]
  done := h.done
  stores := fun hs' => (h.stores (hs.trans hs')).trans hst

theorem toggles (h : Swapped w d e) : d.Toggles w e.canon := by
  refine ⟨?_, ?_, ?_, ?_, ?_, fun hs a => ?_⟩
  · rw [get_canon, h.active]
  · rw [bit_canon, h.pend]
  · rw [bit_canon, h.dtPend]
  · rw [get_canon, h.cnt]
  · rw [testBit_canon, h.done]
  · have hst := h.stores hs
    simp only [Dev.stores, Prod.mk.injEq] at hst
    obtain ⟨hmem, hflash, hmram⟩ := hst
    refine ⟨by rw [byte_canon, byte, hmem]; rfl, rfl, ?_, ?_⟩
    · simp [canon, hflash]
    · simp [canon, hmram]

end Swapped

/-! ### What takes effect with a swap of COR (R144) -/

theorem activateModel_outside : d.activateModel.regs = d.regs ∧ d.activateModel.stores = d.stores := by
  unfold activateModel
  exact Prod.mk.inj (foldl_keeps (fun d : Dev => (d.regs, d.stores)) (fun _ _ _ h => h ▸ rfl) (List.range 64) d)

theorem swapped_cor (h : d.SwapDue corSwap) (t : Option (Nat × Nat × Nat)) : Swapped corSwap d (d.corSwapApply t) := by
  obtain ⟨hregs, hstores⟩ := (d.swapApply corSwap).activateModel_outside
  have hput : ∀ f : Fld, f.key ≠ F.CAL_ILLUM_PEND.key →
      ((d.swapApply corSwap).activateModel.put F.CAL_ILLUM_PEND false).get f = (d.swapApply corSwap).get f := fun f hf =>
    (get_put_ne _ _ hf).trans (get_congr hregs f)
  rw [corSwapApply, if_pos (d.swapReady_due h t)]
  refine (d.swapped_swapApply corSwap_laid).after corSwap_laid (fun l n hl => hput _ ?_) (fun hraw => ?_) fun _ => hstores
  · simp only [SwapDef.bits, Fld.key, bar0, corSwap]; omega
  · rwa [testBit, hput _ (by decide), ← testBit]

/-! ### What comes before a swap of GEO: the intervals that have ended are closed (R179) -/

/-- One register field and the memories. -/
def fieldView (d : Dev) (f : Fld) : Nat × List Host.Cell × List Host.Cell × List Host.Cell := (d.get f, d.stores)

section Closing

variable {f : Fld} (hf : f.calm = true) (hk : f.key < 0x34 * 0x1_0000 * 32)

include hf in
theorem fieldView_raise (p b : Nat) : (d.raise p b).fieldView f = d.fieldView f := by rw [fieldView, get_raise d p b hf, stores_raise, fieldView]

include hf in
theorem fieldView_observe (page src inst : Nat) (v : Int) : (d.observe page src inst v).fieldView f = d.fieldView f :=
  observe_keeps (P := fun e => e.fieldView f = d.fieldView f) d (fun _ _ h => h) (fun e h => (e.fieldView_raise hf _ _).trans h) page src inst v rfl

include hk in
theorem fieldView_set_sky (o l n r v : Nat) : (d.set ⟨bar0 0x34 o, l, n, r⟩ v).fieldView f = d.fieldView f := by
  rw [fieldView, get_set_ne d v (by simp only [Fld.key, bar0] at *; omega)]
  rfl

include hf hk

theorem fieldView_closeSeam (g : Nat) (swapped : Bool) (acc : Dev × List (Nat × Int)) (lr : Nat × Nat) :
    (closeSeam g swapped acc lr).1.fieldView f = acc.1.fieldView f := by
  have hsum : ∀ (d : Dev) (x : SeamSum), (d.setSeam lr.2 x).fieldView f = d.fieldView f := fun _ _ => rfl
  have hcount : ∀ (d : Dev) (o l n : Nat), (d.count ⟨bar0 0x34 o, l, n, 0⟩).fieldView f = d.fieldView f := fun d o l n =>
    d.fieldView_set_sky hk o l n 0 _
  unfold closeSeam
  extract_lets d s cleared delta d₁ d₂ d₃
  have h₁ : d₁.fieldView f = d.fieldView f := (fieldView_set_sky _ hk _ _ _ _ _).trans (d.fieldView_set_sky hk _ _ _ _ _)
  have h₂ : d₂.fieldView f = d.fieldView f := (d₁.fieldView_observe hf _ _ _ _).trans h₁
  have h₃ : d₃.fieldView f = d.fieldView f := (hcount _ _ _ _).trans ((hsum _ _).trans h₂)
  split
  · exact hsum _ _
  split
  · exact (hcount _ _ _ _).trans (hsum _ _)
  split
  · split
    · exact (d₃.fieldView_raise hf _ _).trans h₃
    · exact h₃
  · exact (hsum _ _).trans h₂

theorem fieldView_arClose (g k : Nat) : (d.arClose g k).fieldView f = d.fieldView f := by
  unfold arClose
  extract_lets swapped r d₁
  have h₁ : d₁.fieldView f = d.fieldView f :=
    foldl_keeps (fun x : Dev × List (Nat × Int) => x.1.fieldView f) (fun x lr _ h => h ▸ fieldView_closeSeam hf hk g swapped x lr) _ (d, [])
  split
  · exact h₁
  · exact h₁

theorem fieldView_arSettle : d.arSettle.fieldView f = d.fieldView f := by
  refine foldl_keeps (fun d : Dev => d.fieldView f) (fun d x e h => ?_) d.due d
  subst h
  cases x with
  | arClose h i => exact d.fieldView_arClose hf hk h i
  | bgAge _ => rfl

end Closing

theorem swapped_geo (h : d.SwapDue geoSwap) : Swapped geoSwap d d.geoSwapApply := by
  have hbits : ∀ {l n}, l < 32 → (geoSwap.bits l n).key < 0x34 * 0x1_0000 * 32 := by
    intro l n hl
    simp only [SwapDef.bits, Fld.key, bar0, geoSwap]; omega
  have hview : ∀ {f : Fld}, f.calm = true → f.key < 0x34 * 0x1_0000 * 32 → d.arSettle.get f = d.get f := fun hf hk =>
    congrArg Prod.fst (d.fieldView_arSettle hf hk)
  have hstate : d.arSettle.state = d.state := hview rfl (by decide)
  have hstores : d.arSettle.stores = d.stores := congrArg Prod.snd (d.fieldView_arSettle (f := F.DEV_STATE_STATE) rfl (by decide))
  rw [geoSwapApply, if_pos (d.swapReady_due h _)]
  refine .before geoSwap_laid ?_ (fun l n hl => hview (Fld.calm_of_plain (geoSwap_laid.plain hl)) (hbits hl))
    (by rw [sorting, sorting, hstate]) hstores
  exact (d.arSettle.swapped_swapApply geoSwap_laid).after geoSwap_laid (fun _ _ _ => rfl) id fun _ => rfl

theorem swapped_spec (h : d.SwapDue specSwap) : Swapped specSwap d d.specSwapApply := by
  rw [specSwapApply, if_pos (d.swapReady_due h _)]
  exact d.swapped_swapApply specSwap_laid

/-! ### What takes effect with a swap of DISP (R260) -/

/-- The first register of each four of page DISP, up to its counters: SLOT and SLOT_NEXT of every group, and DISP_SWAP. -/
theorem get_autoLevel_disp {o l n r : Nat} (ho : o % 0x10 = 0) (h₀ : 0x40 ≤ o) (h₁ : o < 0x100) (hl : l < 32) :
    d.autoLevel.get ⟨bar0 0x39 o, l, n, r⟩ = d.get ⟨bar0 0x39 o, l, n, r⟩ := by
  refine d.get_autoLevel (Fld.calm_of_plain (Fld.plain_page _ _ _ _ _ h₀ (by omega) hl (by decide) (by decide) (by decide))) fun g hg => ?_
  rcases hg with hg | hg | hg | ⟨m, hg⟩
  all_goals
    simp only [Fld.key, bar0] at *
    omega

theorem get_takeSlots {f : Fld} (hf : ∀ g < 8, f.key ≠ (F.DISP_GRP_A_SLOT g).key) : d.takeSlots.get f = d.get f :=
  get_foldl_range d 8 fun d g hg => get_set_ne d _ (hf g hg)

/-- One group's SLOT given its SLOT_NEXT. -/
def takeSlot (d : Dev) (g : Nat) : Dev := d.set (F.DISP_GRP_A_SLOT g) (d.get (F.DISP_GRP_A_SLOT_NEXT g))

/-- A group's SLOT_NEXT and SLOT. -/
def slotPair (d : Dev) (g : Nat) : Nat × Nat := (d.get (F.DISP_GRP_A_SLOT_NEXT g), d.get (F.DISP_GRP_A_SLOT g))

theorem takeSlots_eq : d.takeSlots = (List.range 8).foldl takeSlot d := rfl

theorem stores_takeSlots : d.takeSlots.stores = d.stores := by
  rw [takeSlots_eq]
  exact foldl_keeps stores (step := takeSlot) (fun _ _ _ h => h ▸ rfl) _ d

theorem slotPair_takeSlot (g : Nat) : (d.takeSlot g).slotPair g = ((d.slotPair g).1, (d.slotPair g).1 % 8) := by
  rw [slotPair, takeSlot, get_set_ne d _ (by simp only [Fld.key, bar0]; omega), get_set_self]
  rfl

theorem slotPair_takeSlot_ne {g h : Nat} (hgh : g ≠ h) : (d.takeSlot h).slotPair g = d.slotPair g := by
  rw [slotPair, takeSlot, get_set_ne d _ (by simp only [Fld.key, bar0]; omega), get_set_ne d _ (by simp only [Fld.key, bar0]; omega), slotPair]

theorem slotPair_takeSlots {g : Nat} (hg : g < 8) : d.takeSlots.slotPair g = ((d.slotPair g).1, (d.slotPair g).1 % 8) := by
  rw [takeSlots_eq]
  exact foldl_at_of_mem slotPair (fun x => (x.1, x.1 % 8)) slotPair_takeSlot (fun d _ _ => d.slotPair_takeSlot_ne) List.nodup_range
    (List.mem_range.mpr hg) d

theorem slot_takeSlots {g : Nat} (hg : g < 8) : d.takeSlots.get (F.DISP_GRP_A_SLOT g) = d.get (F.DISP_GRP_A_SLOT_NEXT g) % 8 := by
  have h := d.slotPair_takeSlots hg
  simp only [slotPair, Prod.mk.injEq] at h
  exact h.2

/-- With the slots taken DISP_SWAP, its event and the memories are as the swap leaves them. -/
theorem swapped_takeSlots : Swapped dispSwap d (d.swapApply dispSwap).takeSlots := by
  refine (d.swapped_swapApply dispSwap_laid).after dispSwap_laid (fun l n hl => ?_) (fun hraw => ?_) fun _ => stores_takeSlots _
  · exact get_takeSlots _ fun g hg => by simp only [SwapDef.bits, Fld.key, bar0, dispSwap]; omega
  · rwa [testBit, get_takeSlots _ fun g _ => by simp only [Fld.key, bar0, dispSwap]; omega, ← testBit]

theorem sorting_takeSlots : (d.swapApply dispSwap).takeSlots.sorting = d.sorting := by
  have hs : (d.swapApply dispSwap).takeSlots.state = d.state := by
    rw [state, get_takeSlots _ fun g _ => by simp only [Fld.key, bar0]; omega]
    exact d.get_swapApply_ne dispSwap_laid rfl fun l n hl => dispSwap_laid.ne_devState hl
  rw [sorting, sorting, hs]

theorem swapped_disp (h : d.SwapDue dispSwap) (t : Option (Nat × Nat × Nat)) : Swapped dispSwap d (d.dispSwapDue t).autoLevel := by
  rw [dispSwapDue, if_pos (d.swapReady_due h t)]
  refine d.swapped_takeSlots.after dispSwap_laid (fun l n hl => ?_) (fun hraw => ?_) fun hs => ?_
  · exact get_autoLevel_disp _ (by decide) (by decide) (by decide) hl
  · exact (marksStand_autoLevel _).raw _ _ (by decide) hraw
  · rw [autoLevel_idle (d.sorting_takeSlots.trans hs)]

theorem slot_disp (h : d.SwapDue dispSwap) (t : Option (Nat × Nat × Nat)) {g : Nat} (hg : g < 8) :
    (d.dispSwapDue t).autoLevel.get (F.DISP_GRP_A_SLOT g) = d.get (F.DISP_GRP_A_SLOT_NEXT g) % 8 := by
  rw [dispSwapDue, if_pos (d.swapReady_due h t), get_autoLevel_disp _ (by omega) (by omega) (by omega) (by decide), slot_takeSlots _ hg,
    get_swapApply_ne _ dispSwap_laid]
  · exact Fld.calm_of_plain (Fld.plain_page _ _ _ _ _ (by omega) (by omega) (by decide) (by decide) (by decide) (by decide))
  · intro l n hl
    simp only [SwapDef.bits, Fld.key, bar0, dispSwap]; omega

end Dev

/-! ### The commands complete -/

section Commands

variable {s : State} {i : Instr} {w : SwapDef} {v : Nat} {check : Dev → Option (Dev.Err × Nat)}

theorem swapGo_pends (hi : exec i s = s.run fun _ => s.dev.swapGo w v check) (hw : w.Laid) (hc : check (s.dev.set w.timed 0) = none)
    (h : s.dev.Asks w v) : Completes i s (s.dev.Pends w) := by
  obtain ⟨-, -, ht, hs, -⟩ := id h
  obtain ⟨x, hx⟩ := s.dev.swapAsk_pends hw h hc
  refine completes_of_eq hi ((s.dev.swapGo_taken ht hs).trans hx) ⟨?_, ?_, Dev.keepsRegs_canon fun g hg => ?_, Dev.keepsMemory_canon rfl rfl rfl rfl⟩
  · rw [Dev.bit_canon]
    exact Dev.bit_put_self _ true (by rw [hw.pend]; rfl)
  · rw [Dev.get_canon]
    refine (Dev.get_put_ne (s.dev.set w.timed 0) true (by rw [hw.timed, hw.pend]; exact w.bits_ne (by decide))).trans ?_
    rw [Dev.get_set_self, Nat.zero_mod]
  · simp only [List.map_cons, List.map_nil, List.mem_cons, List.not_mem_nil, or_false, not_or] at hg
    exact (Dev.get_put_ne (s.dev.set w.timed 0) true hg.1).trans (Dev.get_set_ne _ _ hg.2)

theorem swapGo_busy (hi : exec i s = s.run fun _ => s.dev.swapGo w v check) (hw : w.Laid) (h : s.dev.AsksAgain w v) :
    Completes i s (s.dev.Refused w 3) := by
  obtain ⟨-, ht, hs, -, h₀⟩ := id h
  exact completes_of_eq hi ((s.dev.swapGo_taken ht hs).trans (s.dev.swapAsk_busy hw h))
    (s.dev.refused_refuse hw (fun _ hf => Dev.get_set_ne _ _ hf) h₀ .busy)

theorem swapGo_state (hi : exec i s = s.run fun _ => s.dev.swapGo w v check) (hw : w.Laid) (h : s.dev.AsksEarly w v) :
    Completes i s (s.dev.Refused w 1) := by
  obtain ⟨-, -, h₀⟩ := id h
  exact completes_of_eq hi (s.dev.swapGo_early hw h) (s.dev.refused_refuse hw (fun _ _ => rfl) h₀ .state)

/-- A meaning by what it makes of the device in hand. -/
theorem exec_eq_run {u : Dev → Dev} {e : Dev} (hi : exec i s = s.run u) (he : u s.dev = e) : exec i s = s.run fun _ => e := by
  rw [hi, State.run, State.run, he]

theorem exec_corSwapGo : exec (.corSwapGo v) s = s.run fun _ => s.dev.swapGo corSwap v fun _ => none :=
  exec_eq_run (u := (·.swapGo corSwap v fun _ => none)) rfl rfl

theorem exec_geoSwapGo : exec (.geoSwapGo v) s = s.run fun _ => s.dev.swapGo geoSwap v fun d => d.geoCheck (1 - d.get F.GEO_SWAP_ACTIVE) :=
  exec_eq_run (u := (·.geoSwapGo v)) rfl rfl

theorem exec_specSwapGo : exec (.specSwapGo v) s = s.run fun _ => s.dev.swapGo specSwap v fun d => d.specCheck (1 - d.get F.SPEC_SWAP_ACTIVE) :=
  exec_eq_run (u := (·.specSwapGo v)) rfl rfl

theorem exec_dispSwapGo : exec (.dispSwapGo v) s = s.run fun _ =>
    s.dev.swapGo dispSwap v fun d => if d.slotNextMissing then some (.state, 8) else none :=
  exec_eq_run (u := (·.swapGo dispSwap v fun d => if d.slotNextMissing then some (.state, 8) else none)) rfl rfl

theorem exec_planSwapGo (h : s.dev.mapBad (1 - s.dev.get F.PLAN_SWAP_ACTIVE) = none ∨ s.dev.state ≤ 2 ∨ s.dev.bit F.PLAN_SWAP_PEND = true) :
    exec (.planSwapGo v) s = s.run fun _ => s.dev.swapGo planSwap v fun _ =>
      (s.dev.mapBad (1 - s.dev.get F.PLAN_SWAP_ACTIVE)).map fun _ => (.range, 0) :=
  exec_eq_run (u := (·.planSwapGo v)) rfl (s.dev.planSwapGo_eq h)

theorem corSwapApply_completes (h : s.dev.SwapDue corSwap) : Completes .corSwapApply s (s.dev.Toggles corSwap) :=
  completes_of_run (u := fun d => d.corSwapApply d.nextCorDt) rfl (s.dev.swapped_cor h _).toggles

theorem geoSwapApply_completes (h : s.dev.SwapDue geoSwap) : Completes .geoSwapApply s (s.dev.Toggles geoSwap) :=
  completes_of_run (u := (·.geoSwapApply)) rfl (s.dev.swapped_geo h).toggles

theorem specSwapApply_completes (h : s.dev.SwapDue specSwap) : Completes .specSwapApply s (s.dev.Toggles specSwap) :=
  completes_of_run (u := (·.specSwapApply)) rfl (s.dev.swapped_spec h).toggles

theorem dispSwapApply_completes (h : s.dev.SwapDue dispSwap) : Completes .dispSwapApply s (fun d =>
    s.dev.Toggles dispSwap d ∧ ∀ g, g < 8 → d.get (F.DISP_GRP_A_SLOT g) = s.dev.get (F.DISP_GRP_A_SLOT_NEXT g) % 8) := by
  obtain ⟨t, ht⟩ : ∃ t : Dev → Option (Nat × Nat × Nat), exec .dispSwapApply s = s.run fun d => (d.dispSwapDue (t d)).autoLevel :=
    ⟨fun d => _, rfl⟩
  refine completes_of_run ht ⟨(s.dev.swapped_disp h _).toggles, fun g hg => ?_⟩
  rw [Dev.get_canon, s.dev.slot_disp h _ hg]

theorem execPlanSwapApply_due (h : s.dev.SwapDue planSwap) : execPlanSwapApply s = s.run fun _ => s.dev.swapApply planSwap := by
  rw [execPlanSwapApply, State.run, State.run]
  dsimp only
  rw [if_pos (s.dev.swapReady_due h _)]

theorem planSwapApply_completes (h : s.dev.SwapDue planSwap) : Completes .planSwapApply s (s.dev.Toggles planSwap) :=
  completes_of_run (execPlanSwapApply_due h) (s.dev.swapped_swapApply planSwap_laid).toggles

end Commands

/-- Settles O37: the three answers to a request and the swap itself are the same for the five swaps; each gives its check and what else takes effect. -/
theorem bankSwaps : Obligations.BankSwaps := fun s _ =>
  ⟨swapGo_pends exec_corSwapGo corSwap_laid rfl, swapGo_busy exec_corSwapGo corSwap_laid, swapGo_state exec_corSwapGo corSwap_laid,
    fun h hc => swapGo_pends exec_geoSwapGo geoSwap_laid (s.dev.geoCheck_asked hc) h, swapGo_busy exec_geoSwapGo geoSwap_laid,
    swapGo_state exec_geoSwapGo geoSwap_laid,
    fun h hc => swapGo_pends exec_specSwapGo specSwap_laid (s.dev.specCheck_asked hc) h, swapGo_busy exec_specSwapGo specSwap_laid,
    swapGo_state exec_specSwapGo specSwap_laid,
    fun h hc => swapGo_pends exec_dispSwapGo dispSwap_laid (s.dev.slotsFound_asked hc) h, swapGo_busy exec_dispSwapGo dispSwap_laid,
    swapGo_state exec_dispSwapGo dispSwap_laid,
    fun h hc => swapGo_pends (exec_planSwapGo (.inl hc)) planSwap_laid (congrArg (Option.map _) hc) h,
    fun ⟨hv, ht, hs, hp, h₀⟩ => swapGo_busy (exec_planSwapGo (.inr (.inr hp))) planSwap_laid ⟨hv, ht, hs, hp, h₀⟩,
    fun ⟨hv, hs, h₀⟩ => swapGo_state (exec_planSwapGo (.inr (.inl hs))) planSwap_laid ⟨hv, hs, h₀⟩,
    corSwapApply_completes, geoSwapApply_completes, specSwapApply_completes, dispSwapApply_completes, planSwapApply_completes⟩

end Sys2Proof.Machine
end

section
/-! PROOF. O39, the sky. A row slot passes the duties that fall before it, the closing of intervals, swaps, written offsets and steps, and then becomes
a sky row: none of these touches the corrected rows or the sky rows on their way. A closed interval and a single step are followed seam by seam and port
by port. -/

namespace Sys2Proof.Machine

/-! ### Signed fields -/

/-- A signed number that fits its field, of either sign, reads back as itself. -/
theorem sgn_uns_mod_of_natAbs {w : Nat} {i : Int} (h : 2 * i.natAbs < 2 ^ w) : sgn w (uns w i % 2 ^ w) = i := by
  obtain h₀ | h₀ := Int.le_total 0 i
  · exact sgn_uns_mod h₀ (by rw [← Int.natAbs_of_nonneg h₀]; exact_mod_cast h)
  · obtain ⟨n, rfl⟩ := Int.exists_eq_neg_ofNat h₀
    rw [Int.natAbs_neg, Int.natAbs_natCast] at h
    have hpos := Nat.two_pow_pos w
    simp only [sgn, uns, Nat.mod_mod]
    generalize 2 ^ w = m at h hpos
    obtain rfl | hn := Nat.eq_zero_or_pos n
    · simp [hpos]
    · have hu : (-(n : Int) % (m : Int)).toNat = m - n := by
        rw [← Int.add_emod_right, Int.emod_eq_of_lt (by omega) (by omega)]
        omega
      rw [hu, Nat.mod_eq_of_lt (by omega), if_neg (by omega)]
      omega

/-- A seam's sums as the close of an interval leaves them (R179). -/
def SeamSum.Cleared (x : SeamSum) : Prop := x.sdg = 0 ∧ x.sgg = 0 ∧ x.n = 0

namespace Dev

variable (d : Dev)

theorem getS_setS_self {f : Fld} {i : Int} (h : 2 * i.natAbs < 2 ^ f.width) : (d.setS f i).getS f = i := by
  rw [getS, setS, get_set_self, sgn_uns_mod_of_natAbs h]

/-! ### The rows on their way, and the sums of the seams -/

/-- The corrected rows on their way to the sky island and the sky rows that have left it. -/
def skyFlow (d : Dev) : List RowSlot × List SkyRow := (d.corOut, d.skyOut)

/-- These rows, the intervals that have ended, and the sums of the seams. -/
def skyView (d : Dev) : (List RowSlot × List SkyRow) × List Due × List (Nat × SeamSum) := (d.skyFlow, d.due, d.seams)

theorem skyView_raise (p b : Nat) : (d.raise p b).skyView = d.skyView := (congrArg skyView (unrecorded_raise d p b) :)

theorem skyView_observe (page src inst : Nat) (v : Int) : (d.observe page src inst v).skyView = d.skyView :=
  observe_keeps (P := fun e => e.skyView = d.skyView) d (fun _ _ h => h) (fun e h => (e.skyView_raise _ _).trans h) page src inst v rfl

theorem skyFlow_raise (p b : Nat) : (d.raise p b).skyFlow = d.skyFlow := congrArg Prod.fst (d.skyView_raise p b)

theorem skyFlow_ite {c : Prop} [Decidable c] {a b : Dev} (ha : a.skyFlow = d.skyFlow) (hb : b.skyFlow = d.skyFlow) :
    (if c then a else b).skyFlow = d.skyFlow := by
  split
  · exact ha
  · exact hb

theorem skyFlow_foldl {α : Type} {step : Dev → α → Dev} (h : ∀ d a, (step d a).skyFlow = d.skyFlow) (l : List α) :
    (l.foldl step d).skyFlow = d.skyFlow := foldl_keeps skyFlow (fun d a _ e => e ▸ h d a) l d

/-! ### The close of an interval (R179) -/

/-- Whatever becomes of its estimate, the sums of a seam that is closed are cleared, and no row, no interval and no other seam changes. -/
theorem skyView_closeSeam (g : Nat) (swapped : Bool) (acc : Dev × List (Nat × Int)) (lr : Nat × Nat) :
    ∃ x : SeamSum, x.Cleared ∧ (closeSeam g swapped acc lr).1.skyView = (acc.1.setSeam lr.2 x).skyView := by
  have hset : ∀ {a b : Dev} (x : SeamSum), a.skyView = b.skyView → (a.setSeam lr.2 x).skyView = (b.setSeam lr.2 x).skyView := fun x h => by
    simp only [skyView, Prod.mk.injEq] at h ⊢
    obtain ⟨hflow, hdue, hseams⟩ := h
    exact ⟨hflow, hdue, by rw [setSeam, setSeam, hseams]⟩
  unfold closeSeam
  extract_lets d s cleared delta d₁ d₂ d₃
  have h₂ : d₂.skyView = d.skyView := d₁.skyView_observe _ _ _ _
  have h₃ : d₃.skyView = (d.setSeam lr.2 { cleared with bad := s.bad + 1 }).skyView :=
    hset { cleared with bad := s.bad + 1 } h₂
  split
  · exact ⟨cleared, ⟨rfl, rfl, rfl⟩, rfl⟩
  split
  · exact ⟨cleared, ⟨rfl, rfl, rfl⟩, rfl⟩
  split
  · refine ⟨{ cleared with bad := s.bad + 1 }, ⟨rfl, rfl, rfl⟩, ?_⟩
    split
    · exact (d₃.skyView_raise _ _).trans h₃
    · exact h₃
  · exact ⟨{ cleared with bad := 0 }, ⟨rfl, rfl, rfl⟩, hset _ h₂⟩

theorem seam_of_skyView {a b : Dev} (h : a.skyView = b.skyView) (p : Nat) : a.seam p = b.seam p := by
  rw [seam, seam, show a.seams = b.seams from congrArg (·.2.2) h]

theorem cleared_closeSeam (g : Nat) (swapped : Bool) (acc : Dev × List (Nat × Int)) (lr : Nat × Nat) :
    ((closeSeam g swapped acc lr).1.seam lr.2).Cleared := by
  obtain ⟨x, hx, h⟩ := skyView_closeSeam g swapped acc lr
  rw [seam_of_skyView h, seam, setSeam, Sparse.get_set_self]
  exact hx

/-- A seam once cleared stays so while others are closed. -/
theorem closeSeam_keeps_cleared {r : Nat} (g : Nat) (swapped : Bool) (acc : Dev × List (Nat × Int)) (lr : Nat × Nat) (h : (acc.1.seam r).Cleared) :
    ((closeSeam g swapped acc lr).1.seam r).Cleared := by
  by_cases hr : r = lr.2
  · subst hr
    exact cleared_closeSeam g swapped acc lr
  · obtain ⟨x, -, hx⟩ := skyView_closeSeam g swapped acc lr
    rw [seam_of_skyView hx, seam, setSeam, Sparse.get_set_ne _ _ _ _ hr]
    exact h

/-- The device with every seam of group g closed. -/
def seamsClosed (d : Dev) (g : Nat) : Dev := ((d.seamPairs g).foldl (closeSeam g (d.arSwapped.contains g)) (d, [])).1

theorem cleared_seamsClosed {g : Nat} {lr : Nat × Nat} (h : lr ∈ d.seamPairs g) : ((d.seamsClosed g).seam lr.2).Cleared :=
  foldl_holds_of_mem (P := fun acc : Dev × List (Nat × Int) => (acc.1.seam lr.2).Cleared) (fun acc => cleared_closeSeam g _ acc lr)
    (closeSeam_keeps_cleared g _) h (d, [])

/-- Closing seams leaves the rows and the intervals that have ended. -/
theorem flow_due_seamsClosed (g : Nat) : ((d.seamsClosed g).skyFlow, (d.seamsClosed g).due) = (d.skyFlow, d.due) :=
  foldl_keeps (fun acc : Dev × List (Nat × Int) => (acc.1.skyFlow, acc.1.due)) (fun acc lr _ e => by
    obtain ⟨x, -, h⟩ := skyView_closeSeam g (d.arSwapped.contains g) acc lr
    exact e ▸ congrArg (fun v => (v.1, v.2.1)) h) (d.seamPairs g) (d, [])

/-- Beside the seams, the close of an interval touches the intervals, the groups with a swap and the steps that wait. -/
theorem arClose_eq (g k : Nat) : ∃ steps, d.arClose g k = { d.seamsClosed g with
    arSwapped := (d.seamsClosed g).arSwapped.filter (· ≠ g), due := (d.seamsClosed g).due.filter (· ≠ .arClose g k), arSteps := steps } := by
  unfold arClose
  extract_lets swapped r d₁
  split
  · exact ⟨_, rfl⟩
  · exact ⟨_, rfl⟩

theorem arClose_clears (g k : Nat) : (d.arClose g k).skyFlow = d.skyFlow ∧ (d.arClose g k).due = d.due.filter (· ≠ .arClose g k) ∧
    ∀ lr ∈ d.seamPairs g, ((d.arClose g k).seam lr.2).Cleared := by
  obtain ⟨steps, h⟩ := d.arClose_eq g k
  obtain ⟨hflow, hdue⟩ := Prod.mk.inj (d.flow_due_seamsClosed g)
  rw [h, ← hdue]
  exact ⟨hflow, rfl, fun lr hlr => d.cleared_seamsClosed hlr⟩

theorem skyFlow_arSettle (mine : Nat → Bool) : (d.arSettle mine).skyFlow = d.skyFlow := by
  refine d.skyFlow_foldl (fun d x => ?_) d.due
  cases x with
  | arClose h i => exact d.skyFlow_ite (d.arClose_clears h i).1 rfl
  | bgAge _ => rfl

theorem arIntervalClose_one {g k : Nat} (h : d.due = [.arClose g k]) : d.arIntervalClose g = d.arClose g k := by
  simp [arIntervalClose, arSettle, h]

/-! ### What falls before a row (R181, R183, R188) -/

theorem skyFlow_swapApply (w : SwapDef) : (d.swapApply w).skyFlow = d.skyFlow := skyFlow_raise _ _ _

theorem skyFlow_geoSwapNow : d.geoSwapNow.skyFlow = d.skyFlow := (skyFlow_swapApply _ _).trans (d.skyFlow_arSettle _)

theorem skyFlow_swapPassed (w : SwapDef) (t : Nat) : (d.swapPassed w t).skyFlow = d.skyFlow := d.skyFlow_ite (c := d.bit w.dtPend = true) rfl rfl

theorem skyFlow_ofsApply (g k : Nat) : (d.ofsApply g k).1.skyFlow = d.skyFlow :=
  skyFlow_foldl (step := fun d (w : OfsWrite) => (d.set (F.STI_OFS_OFS w.port) w.value).put (F.STI_OFS_LIMIT w.port) false)
    { d with ofsWrites := _ } (fun _ _ => rfl) _

theorem skyFlow_stepPort (skip : List Nat) (e : Nat × Int) : (stepPort skip d e).skyFlow = d.skyFlow :=
  d.skyFlow_ite rfl (d.skyFlow_ite (skyFlow_raise _ _ _) rfl)

theorem skyFlow_arApply (g k : Nat) (written : List Nat) : (d.arApply g k written).skyFlow = d.skyFlow :=
  d.skyFlow_ite (skyFlow_foldl (step := fun d (s : ArStep) => (s.steps.foldl (stepPort written) d).count F.STI_AR_STAT_STEPS)
    { d with arSteps := _ } (fun d s => d.skyFlow_foldl (fun d e => d.skyFlow_stepPort written e) s.steps) _) rfl

/-! ### A sky row (R167) -/

theorem skyFlow_pushHist (slot : RowSlot) (l : PortLine) : (d.pushHist slot l).skyFlow = d.skyFlow := d.skyFlow_ite rfl rfl

/-- A sky row joins those on their way, with the group, the index and the stamp of its row slot. -/
theorem skyRow_joins (slot : RowSlot) (ueGeo ueSpec : Bool) (clsUe : List Nat) : ∃ row : SkyRow,
    (d.skyRow slot ueGeo ueSpec clsUe).skyFlow = (d.corOut, d.skyOut ++ [row]) ∧ row.group = slot.group ∧ row.index = slot.index ∧
      row.stamp = slot.stamp := by
  unfold skyRow
  extract_lets g d₁ ps hard nb w bands noCover synth parity d₂ d₃ d₄ d₅ n on pix d₆ maps
  have h₁ : d₁.skyFlow = d.skyFlow := d.skyFlow_foldl (fun d l => d.skyFlow_pushHist slot l) _
  have h₃ : d₃.skyFlow = d₂.skyFlow := d₂.skyFlow_ite (skyFlow_raise _ _ _) rfl
  have h₄ : d₄.skyFlow = d₃.skyFlow := d₃.skyFlow_ite (skyFlow_raise _ _ _) rfl
  have h₅ : d₅.skyFlow = d₄.skyFlow := d₄.skyFlow_ite rfl (d₄.skyFlow_foldl (step := fun d lr => d.measureSeam g lr) (fun _ _ => rfl) _)
  obtain ⟨hcor, hsky⟩ := Prod.mk.inj (h₅.trans (h₄.trans (h₃.trans h₁)))
  exact ⟨_, Prod.ext hcor (congrArg (· ++ [_]) hsky), rfl, rfl, rfl⟩

/-- The next row slot leaves the corrected rows and becomes the last sky row, whatever falls due before it. -/
theorem skyRowBuild_moves {slot : RowSlot} {rest : List RowSlot} (h : d.corOut = slot :: rest) (ueGeo ueSpec : Bool) (clsUe : List Nat) :
    ∃ row : SkyRow, (d.skyRowBuild ueGeo ueSpec clsUe).skyFlow = (rest, d.skyOut ++ [row]) ∧ row.group = slot.group ∧ row.index = slot.index ∧
      row.stamp = slot.stamp := by
  generalize hb : d.skyRowBuild ueGeo ueSpec clsUe = b
  rw [skyRowBuild, h] at hb
  dsimp -zeta only at hb
  extract_lets d₀ g k t d₁ d₂ d₃ d₄ d₅ d₆ at hb
  have h₁ : d₁.skyFlow = d₀.skyFlow := d₀.skyFlow_arSettle _
  have h₂ : d₂.skyFlow = d₁.skyFlow := d₁.skyFlow_ite d₁.skyFlow_geoSwapNow rfl
  have h₃ : d₃.skyFlow = d₂.skyFlow := d₂.skyFlow_ite (d₂.skyFlow_swapApply _) rfl
  have h₄ : d₄.skyFlow = d₃.skyFlow := (skyFlow_swapPassed _ _ _).trans (d₃.skyFlow_swapPassed _ _)
  have h₅ : d₅.skyFlow = d₄.skyFlow := (skyFlow_arApply _ _ _ _).trans (d₄.skyFlow_ofsApply g k)
  have h₆ : b.skyFlow = d₆.skyFlow := by
    rw [← hb]
    exact d₆.skyFlow_ite rfl rfl
  have hflow : d₅.skyFlow = (rest, d.skyOut) := by rw [h₅, h₄, h₃, h₂, h₁]; rfl
  obtain ⟨hcor, hsky⟩ := Prod.mk.inj hflow
  obtain ⟨row, hrow, hid⟩ := d₅.skyRow_joins slot ueGeo ueSpec clsUe
  rw [hcor, hsky] at hrow
  exact ⟨row, h₆.trans hrow, hid⟩

/-! ### A step (R181, R182) -/

theorem ofsApply_none (g k : Nat) (h : d.ofsWrites = []) : d.ofsApply g k = (d, []) := by
  have hkeep : ∀ l, d.ofsWrites = l → ({ d with ofsWrites := l } : Dev) = d := fun _ h => h ▸ rfl
  simp [ofsApply, h, hkeep]

/-- The one step that waits, due at this row: applied while the loop is on, dropped otherwise. -/
theorem arApply_one {g k p : Nat} {v : Int} (h : d.arSteps = [⟨g, k, [(p, v)]⟩]) : d.arApply g k [] =
    if d.arOn then (stepPort [] { d with arSteps := [] } (p, v)).count F.STI_AR_STAT_STEPS else { d with arSteps := [] } := by
  have hdue : sgn 32 0 = 0 := rfl
  have hon : ∀ steps, ({ d with arSteps := steps } : Dev).arOn = d.arOn := fun _ => rfl
  simp [arApply, h, hdue, hon]

theorem arStepApply_next {g p : Nat} {v : Int} {slot : RowSlot} {rest : List RowSlot} (hc : d.corOut = slot :: rest) (hg : slot.group = g)
    (hs : d.arSteps = [⟨g, slot.index, [(p, v)]⟩]) (hw : d.ofsWrites = []) : d.arStepApply g =
    if d.arOn then (stepPort [] { d with arSteps := [] } (p, v)).count F.STI_AR_STAT_STEPS else { d with arSteps := [] } := by
  have hfind : d.corOut.find? (fun s => s.group = g) = some slot := by rw [hc, List.find?_cons_of_pos (by simpa using hg)]
  rw [← d.arApply_one hs, arStepApply, hfind]
  simp only [d.ofsApply_none _ _ hw]

theorem stepPort_within {p : Nat} {v : Int} (hl : d.bit (F.STI_OFS_LIMIT p) = false)
    (hv : (d.getS (F.STI_OFS_OFS p) + v).natAbs ≤ d.get F.STI_AR_LIM_OFS_LIMIT) :
    stepPort [] d (p, v) = d.setS (F.STI_OFS_OFS p) (d.getS (F.STI_OFS_OFS p) + v) := by
  have hlim : ¬(d.get F.STI_AR_LIM_OFS_LIMIT : Int) < (d.getS (F.STI_OFS_OFS p) + v).natAbs := by omega
  rw [stepPort, if_neg (by simp [hl])]
  exact if_neg hlim

end Dev

/-! ### The commands complete -/

section Commands

variable {s : State} {g k p : Nat} {slot : RowSlot} {rest : List RowSlot}

theorem skyRowBuild_completes (h : s.dev.corOut = slot :: rest) : Completes (.skyRowBuild false false []) s (fun d => d.corOut = rest ∧
    ∃ row, d.skyOut = s.dev.skyOut ++ [row] ∧ row.group = slot.group ∧ row.index = slot.index ∧ row.stamp = slot.stamp) := by
  obtain ⟨row, hflow, hid⟩ := s.dev.skyRowBuild_moves h false false []
  obtain ⟨hcor, hsky⟩ := Prod.mk.inj hflow
  exact completes_of_run (u := (·.skyRowBuild false false [])) rfl ⟨hcor, row, hsky, hid⟩

theorem arIntervalClose_completes (h : s.dev.due = [.arClose g k]) : Completes (.arIntervalClose g) s (fun d => d.due = [] ∧
    ∀ l r, (l, r) ∈ s.dev.seamPairs g → (d.seam r).sdg = 0 ∧ (d.seam r).sgg = 0 ∧ (d.seam r).n = 0) := by
  obtain ⟨-, hdue, hseams⟩ := s.dev.arClose_clears g k
  exact completes_of_eq (u := (·.arIntervalClose g)) rfl (s.dev.arIntervalClose_one h) ⟨hdue.trans (by simp [h]), fun l r hlr => hseams (l, r) hlr⟩

theorem arStepApply_completes {v : Int} (hc : s.dev.corOut = slot :: rest) (hg : slot.group = g) (hs : s.dev.arSteps = [⟨g, slot.index, [(p, v)]⟩])
    (hw : s.dev.ofsWrites = []) (hon : s.dev.arOn = true) (hlim : s.dev.get F.STI_AR_LIM_OFS_LIMIT < 2 ^ 12) (hl : s.dev.bit (F.STI_OFS_LIMIT p) = false)
    (hv : (s.dev.getS (F.STI_OFS_OFS p) + v).natAbs ≤ s.dev.get F.STI_AR_LIM_OFS_LIMIT) :
    Completes (.arStepApply g) s (fun d => d.getS (F.STI_OFS_OFS p) = s.dev.getS (F.STI_OFS_OFS p) + v ∧ d.arSteps = []
      ∧ d.get F.STI_AR_STAT_STEPS = (s.dev.get F.STI_AR_STAT_STEPS + 1) % 2 ^ 16
      ∧ KeepsRegs s.dev d [F.STI_OFS_OFS p, F.STI_AR_STAT_STEPS] ∧ KeepsMemory s.dev d) := by
  have hstep := Dev.stepPort_within { s.dev with arSteps := [] } hl hv
  have hne : F.STI_AR_STAT_STEPS.key ≠ (F.STI_OFS_OFS p).key := by simp only [Fld.key, bar0]; omega
  have hfits : 2 * (s.dev.getS (F.STI_OFS_OFS p) + v).natAbs < 2 ^ 16 := by omega
  have heq := s.dev.arStepApply_next hc hg hs hw
  rw [if_pos hon, hstep] at heq
  refine completes_of_eq (u := (·.arStepApply g)) rfl heq ⟨?_, rfl, ?_, Dev.keepsRegs_canon fun f hf => ?_, Dev.keepsMemory_canon rfl rfl rfl rfl⟩
  · rw [Dev.getS, Dev.get_canon, Dev.get_count_ne _ _ hne.symm]
    exact Dev.getS_setS_self _ hfits
  · rw [Dev.get_canon, Dev.get_count_self, Dev.get_setS_ne _ _ hne]
    rfl
  · simp only [List.map_cons, List.map_nil, List.mem_cons, List.not_mem_nil, or_false, not_or] at hf
    exact (Dev.get_count_ne _ _ hf.2).trans (Dev.get_setS_ne _ _ hf.1)

theorem arStepApply_completes_off {v : Int} (hc : s.dev.corOut = slot :: rest) (hg : slot.group = g) (hs : s.dev.arSteps = [⟨g, slot.index, [(p, v)]⟩])
    (hw : s.dev.ofsWrites = []) (hoff : s.dev.arOn = false) :
    Completes (.arStepApply g) s (fun d => d.arSteps = [] ∧ KeepsRegs s.dev d [] ∧ KeepsMemory s.dev d) := by
  have heq := s.dev.arStepApply_next hc hg hs hw
  rw [hoff, if_neg Bool.false_ne_true] at heq
  exact completes_of_eq (u := (·.arStepApply g)) rfl heq ⟨rfl, Dev.keepsRegs_canon fun _ _ => rfl, Dev.keepsMemory_canon rfl rfl rfl rfl⟩

/-! A written offset (R183, R190). -/

section Offset

variable {v : Nat} (hp : p < 16) (ht : s.dev.taken 0x34 (0x80 + 4 * p))

theorem fieldOf_ofs : Dev.fieldOf (F.STI_OFS_OFS p) v = v % 65536 := by simp [Dev.fieldOf, bitsAt]

include ht

theorem stiOfsWrite_completes_of_put {e : Dev} {P : Dev → Prop} (he : s.dev.stiOfsPut p (v % 65536) = e) (hP : P e.canon) :
    Completes (.stiOfsWrite p v) s P :=
  completes_of_taken (u := (·.stiOfsPut p (Dev.fieldOf (F.STI_OFS_OFS p) v))) rfl ht (by rw [fieldOf_ofs, he]; exact hP)

include hp in
theorem stiOfsWrite_refused (hv : s.dev.get F.STI_AR_LIM_OFS_LIMIT < (sgn 16 (v % 65536)).natAbs) (h₀ : s.dev.get (F.BLK_ERR_CODE_CODE 0x34) = 0) :
    Completes (.stiOfsWrite p v) s (fun d => d.get (F.BLK_ERR_CODE_CODE 0x34) = 2 ∧ d.get (F.STI_OFS_OFS p) = s.dev.get (F.STI_OFS_OFS p)
      ∧ d.ofsWrites = s.dev.ofsWrites) := by
  refine stiOfsWrite_completes_of_put ht (if_pos hv) ⟨?_, ?_, ?_⟩
  · rw [Dev.get_canon, Dev.refuse_code _ _ _ _ _ h₀]
    rfl
  · rw [Dev.get_canon, Dev.get_refuse _ _ _ _ _ (Fld.plain_page _ _ _ _ _ (by omega) (by omega) (by decide) (by decide) (by decide) (by decide))]
  · obtain ⟨r, u, x, t, he⟩ := s.dev.refuse_eq 0x34 (0x80 + 4 * p) .range 0
    rw [he]
    rfl

theorem stiOfsWrite_ungrouped (hv : (sgn 16 (v % 65536)).natAbs ≤ s.dev.get F.STI_AR_LIM_OFS_LIMIT) (hg : 8 ≤ s.dev.groupOf p) :
    Completes (.stiOfsWrite p v) s (fun d => d.get (F.STI_OFS_OFS p) = v % 65536 ∧ d.get (F.STI_OFS_LIMIT p) = 0
      ∧ KeepsRegs s.dev d [F.STI_OFS_OFS p, F.STI_OFS_LIMIT p] ∧ KeepsMemory s.dev d) := by
  have hne : (F.STI_OFS_OFS p).key ≠ (F.STI_OFS_LIMIT p).key := by simp only [Fld.key]; omega
  refine stiOfsWrite_completes_of_put ht ((if_neg (Nat.not_lt.mpr hv)).trans (if_pos hg))
    ⟨?_, ?_, Dev.keepsRegs_canon fun f hf => ?_, Dev.keepsMemory_canon rfl rfl rfl rfl⟩
  · rw [Dev.get_canon, Dev.get_put_ne _ _ hne, Dev.get_set_self]
    exact Nat.mod_mod v 65536
  · rw [Dev.get_canon, Dev.get_put_self _ _ _ one_ne_zero]
    rfl
  · simp only [List.map_cons, List.map_nil, List.mem_cons, List.not_mem_nil, or_false, not_or] at hf
    exact (Dev.get_put_ne _ _ hf.2).trans (Dev.get_set_ne _ _ hf.1)

theorem stiOfsWrite_grouped (hv : (sgn 16 (v % 65536)).natAbs ≤ s.dev.get F.STI_AR_LIM_OFS_LIMIT) (hg : s.dev.groupOf p < 8) :
    Completes (.stiOfsWrite p v) s (fun d => (∃ w ∈ d.ofsWrites, w.port = p ∧ w.value = v % 65536) ∧ KeepsRegs s.dev d [] ∧ KeepsMemory s.dev d) :=
  stiOfsWrite_completes_of_put ht ((if_neg (Nat.not_lt.mpr hv)).trans (if_neg (Nat.not_le.mpr hg)))
    ⟨⟨_, List.mem_append_right _ (List.mem_singleton.mpr rfl), rfl, rfl⟩, Dev.keepsRegs_canon fun _ _ => rfl, Dev.keepsMemory_canon rfl rfl rfl rfl⟩

end Offset

end Commands

/-- Settles O39: each clause is the lemma of its command. -/
theorem skyRows : Obligations.SkyRows := fun _ =>
  ⟨fun _ _ => skyRowBuild_completes, fun _ _ => arIntervalClose_completes,
    fun _ _ _ _ _ hc hg hs hw _ hon hlim hl hv => arStepApply_completes hc hg hs hw hon hlim hl hv,
    fun _ _ _ _ _ => arStepApply_completes_off,
    fun _ _ hp ht => ⟨stiOfsWrite_refused hp ht, stiOfsWrite_ungrouped ht, stiOfsWrite_grouped ht⟩⟩

end Sys2Proof.Machine
end

section
/-! PROOF. O40, what the release of a stored upper sighting leaves alone. The planner writes pages behind TRAJ, its own state and the verdicts of
committed bodies; a release takes the entry from the store as well. So one view of the device outlasts the planner, and a release is that view with less
in the store. -/

namespace Sys2Proof.Machine

/-- What names a committed body: ID, group, crop and number. -/
def CBody.name (c : CBody) : Nat × Nat × Option Nat × Nat := (c.id, c.group, c.crop, c.seq)

/-- A plain field of page BODY or TRAJ. -/
def Fld.traced (f : Fld) : Prop := f.plain = true ∧ 0x37 * 0x1_0000 * 32 ≤ f.key ∧ f.key < 0x39 * 0x1_0000 * 32

/-- A field of page DISP or of a later one, as PLAN and the Meteor ports. -/
def Fld.downstream (g : Fld) : Prop := 0x39 * 0x1_0000 * 32 ≤ g.key

@[simp] theorem Fld.downstream_bar0 (p o l w r : Nat) (h : 0x39 ≤ p) : (⟨bar0 p o, l, w, r⟩ : Fld).downstream := by
  simp only [Fld.downstream, Fld.key, bar0]; omega

theorem Fld.traced_page {p o l w r : Nat} (hp : p = 0x37 ∨ p = 0x38) (ho : 0x40 ≤ o) (ho' : o < 0x1_0000) (hl : l < 32) :
    (⟨bar0 p o, l, w, r⟩ : Fld).traced :=
  ⟨plain_page p o l w r ho ho' hl (by omega) (by omega) (by omega), by simp only [Fld.key, bar0]; omega, by simp only [Fld.key, bar0]; omega⟩

theorem Fld.traced_ne {f g : Fld} (hf : f.traced) (hg : g.key < 0x37 * 0x1_0000 * 32 ∨ g.downstream) : f.key ≠ g.key := by
  obtain ⟨-, h₁, h₂⟩ := hf
  unfold Fld.downstream at hg
  omega

namespace Dev

variable (d : Dev) {f : Fld}

/-- What the planner leaves alone: the sky rows, segmentation but for the bodies and the misses held, the bodies' names, and a field of BODY or TRAJ. -/
def planView (d : Dev) (f : Fld) : List SkyRow × Seg × List (Nat × Nat × Option Nat × Nat) × Nat :=
  (d.skyOut, { d.seg with bodies := [], missHeld := [] }, d.seg.bodies.map CBody.name, d.get f)

/-- The device with other contents of the upper store. -/
def withStore (d : Dev) (entries : List StoreEntry) (full : Bool) : Dev := { d with seg := { d.seg with store := entries, storeFull := full } }

theorem planView_of_get {e : Dev} (h : e.get f = d.get f) (hrows : e.skyOut = d.skyOut := by rfl) (hseg : e.seg = d.seg := by rfl) :
    e.planView f = d.planView f := by rw [planView, h, hrows, hseg, planView]

theorem planView_of_unrecorded {e : Dev} (hu : e.unrecorded = d.unrecorded) (h : e.get f = d.get f) : e.planView f = d.planView f :=
  d.planView_of_get h (congrArg Dev.skyOut hu :) (seg_of_unrecorded hu)

theorem planView_ite {c : Prop} [Decidable c] {a b : Dev} (ha : a.planView f = d.planView f) (hb : b.planView f = d.planView f) :
    (if c then a else b).planView f = d.planView f := by
  split
  · exact ha
  · exact hb

theorem planView_foldl {α : Type} {step : Dev → α → Dev} (h : ∀ d a, (step d a).planView f = d.planView f) (l : List α) :
    (l.foldl step d).planView f = d.planView f := foldl_keeps (·.planView f) (fun d a _ e => e ▸ h d a) l d

@[simp] theorem planView_setMetPort (n : Nat) (x : MetPort) : (d.setMetPort n x).planView f = d.planView f := rfl
@[simp] theorem planView_freeUsed (n : Nat) : (d.freeUsed n).planView f = d.planView f := rfl

/-- What becomes of a body leaves its name. -/
theorem planView_updBody (id : Nat) (u : CBody → CBody) (hu : ∀ c, (u c).name = c.name := by intro; rfl) :
    (d.updBody id u).planView f = d.planView f := by
  have hnames : (d.updBody id u).seg.bodies.map CBody.name = d.seg.bodies.map CBody.name := by
    rw [updBody, List.map_map]
    refine List.map_congr_left fun c _ => ?_
    simp only [Function.comp_apply]
    split
    · exact hu c
    · rfl
  rw [planView, hnames]
  rfl

theorem planView_set_ne {g : Fld} (v : Nat) (h : f.key ≠ g.key) : (d.set g v).planView f = d.planView f := d.planView_of_get (get_set_ne d v h)

theorem planView_pass (id : Nat) (v : Verdict) (replaced : Bool) : (d.pass id v replaced).planView f = d.planView f :=
  d.planView_updBody id _

section Traced

variable (hf : f.traced)
include hf

theorem levelKeeps_get (x : Nat) : LevelKeeps (fun e => e.get f = x) :=
  ⟨fun v hg h => (get_set_ne _ v (by
      obtain ⟨-, h₁, h₂⟩ := hf
      rcases hg with hg | hg | hg | ⟨n, hg⟩ <;> simp only [Fld.key, bar0] at * <;> omega)).trans h,
    fun p b h => (get_raise _ p b (Fld.calm_of_plain hf.1)).trans h, fun h he => (he f).trans h⟩

@[simp] theorem planView_set {g : Fld} (v : Nat) (hg : g.downstream) : (d.set g v).planView f = d.planView f :=
  d.planView_set_ne v (Fld.traced_ne hf (.inr hg))

@[simp] theorem planView_put {g : Fld} (b : Bool) (hg : g.downstream) : (d.put g b).planView f = d.planView f := d.planView_set hf _ hg
@[simp] theorem planView_count {g : Fld} (n : Nat) (hg : g.downstream) : (d.count g n).planView f = d.planView f := d.planView_set hf _ hg

@[simp] theorem planView_setDt {g g' : Fld} (t : Nat) (hg : g.downstream) (hg' : g'.downstream) : (d.setDt g g' t).planView f = d.planView f :=
  (planView_set _ hf _ hg').trans (d.planView_set hf _ hg)

@[simp] theorem planView_raise (p b : Nat) : (d.raise p b).planView f = d.planView f :=
  d.planView_of_unrecorded (unrecorded_raise d p b) (get_raise d p b (Fld.calm_of_plain hf.1))

@[simp] theorem planView_hwError (p : Nat) (e : Err) (n : Nat) : (d.hwError p e n).planView f = d.planView f := by
  obtain ⟨r, u, x, t, h⟩ := d.hwError_eq p e n
  exact d.planView_of_get (get_hwError d p e n hf.1) (by rw [h]) (by rw [h])

@[simp] theorem planView_metShow (n : Nat) : (d.metShow n).planView f = d.planView f :=
  d.planView_of_unrecorded (unrecorded_metShow d n) ((levelKeeps_get hf _).metShow n rfl)

/-! ### Planning a body (R302–R319) -/

@[simp] theorem planView_queueFull : d.queueFull.planView f = d.planView f := by simp [queueFull, hf]

@[simp] theorem planView_queuePulse (v : Valve) (p : Pulse) (isNew isCont : Bool) : (d.queuePulse v p isNew isCont).1.planView f = d.planView f := by
  unfold queuePulse
  extract_lets port x last cut d₁ p y d₂ d₃ d₄
  have h₁ : d₁.planView f = d.planView f := d.planView_ite (by simp [hf]) rfl
  have h₃ : d₃.planView f = d₂.planView f := d₂.planView_ite (by simp [hf]) rfl
  have h₄ : d₄.planView f = d₃.planView f := d₃.planView_ite (by simp [hf]) rfl
  split
  · exact (planView_metShow _ hf _).trans h₁
  split
  · exact (planView_metShow _ hf _).trans ((planView_queueFull _ hf).trans h₁)
  · exact (planView_metShow _ hf _).trans (h₄.trans (h₃.trans h₁))

@[simp] theorem planView_joinPulse (v : Valve) (p : Pulse) : (d.joinPulse v p).1.planView f = d.planView f := by
  unfold joinPulse
  extract_lets port minOff soon finish
  have hfin : ∀ (d : Dev) (n : Pulse) (c : Bool), (finish d n c).1.planView f = d.planView f := fun d n c => by simp [finish, hf]
  clear_value finish
  split
  · exact hfin _ _ _
  split
  · rfl
  split
  · exact hfin _ _ _
  · exact (hfin _ _ _).trans (by simp [hf])

@[simp] theorem planView_placePulse (v : Valve) (body press : Nat) (a e : Int) : (d.placePulse v body press a e).1.planView f = d.planView f := by
  unfold placePulse
  extract_lets port now ahead lead go d₁ f'
  have hgo : ∀ (d : Dev) (a : Int), (go d a).1.planView f = d.planView f := fun d a => by
    simp only [go]
    split
    · exact planView_count _ hf _ (Fld.downstream_bar0 _ _ _ _ _ (by omega))
    · exact planView_joinPulse _ hf _ _
  have h₁ : d₁.planView f = d.planView f := by simp [d₁, hf]
  clear_value go d₁
  split
  · simp [hf]
  split
  · split
    · exact (planView_count _ hf _ (by simp)).trans h₁
    · exact (hgo _ _).trans h₁
  · exact hgo _ _

@[simp] theorem planView_swapDate_plan (t : Nat) : (d.swapDate planSwap t).planView f = d.planView f :=
  d.planView_ite (by simp [planSwap, hf]) rfl

/-- Of each valve only the placing of its pulse matters. -/
@[simp] theorem planView_planReject (b : CBody) (hint : Option Nat) : (d.planReject b hint).1.planView f = d.planView f := by
  unfold planReject
  extract_lets d₁ t d₂ vs p air d₃
  have h₁ : d₁.planView f = d.planView f := d.planView_swapDate_plan hf _
  have h₂ : d₂.planView f = d₁.planView f := d₁.planView_ite (by simp [hf]) rfl
  have h₃ : d₃.planView f = d₂.planView f := d₂.planView_ite rfl rfl
  clear_value d₁ t vs p air d₂ d₃
  rw [← h₁, ← h₂, ← h₃]
  split
  · exact d₃.planView_count hf _ (by simp)
  · refine foldl_keeps (fun acc : Dev × Planned => acc.1.planView f) (fun acc v acc' h => ?_) vs (d₃, {})
    have hplace := planView_placePulse acc.1 hf v b.id p
    obtain ⟨window, hw⟩ : ∃ w, w = acc.1.pulseOf v := ⟨_, rfl⟩
    obtain ⟨place, hp⟩ : ∃ r, r = acc.1.placePulse v b.id := ⟨_, rfl⟩
    rw [← hp] at hplace
    rw [← hw, ← hp] at h
    subst h
    dsimp only
    split <;> exact hplace _ _

@[simp] theorem planView_planBody (b : CBody) (vs more : List Verdict) : (d.planBody b vs more).1.planView f = d.planView f := by
  unfold planBody
  extract_lets rej go d₁
  have h₁ : d₁.planView f = d.planView f := d.planView_updBody b.id _
  clear_value d₁
  split
  · have hrej := planView_planReject d₁ hf b (d₁.hintOf (vs ++ more))
    generalize d₁.planReject b (d₁.hintOf (vs ++ more)) = r at hrej
    exact (planView_updBody _ b.id _).trans (hrej.trans h₁)
  · exact h₁

@[simp] theorem planView_planPair (low up : CBody) : (d.planPair low up).1.planView f = d.planView f := by
  unfold planPair
  split
  · rfl
  extract_lets ws
  split
  · rfl
  split
  · exact planView_planBody d hf low _ _
  split
  · rfl
  · exact planView_planBody d hf low _ _

@[simp] theorem planView_route (b : CBody) : (d.route b).1.planView f = d.planView f := by
  unfold route
  repeat' split
  all_goals simp [hf]

/-- R304: an orphan's verdict may be planned at once; the entry itself, and every name, stay. -/
theorem planView_releaseOrphan (id : Nat) : (d.releaseOrphan id).planView f = d.planView f := by
  unfold releaseOrphan
  extract_lets d₁
  have h₁ : d₁.planView f = d.planView f := d.planView_updBody id _
  clear_value d₁
  split
  · exact (d₁.planView_ite (planView_route _ hf _) rfl).trans h₁
  · exact h₁

end Traced
end Dev
end Sys2Proof.Machine
end

section
/-! PROOF. O40, the upper store: what a release leaves in it, and that a release changes nothing else that segmentation holds. -/

namespace Sys2Proof.Machine

/-- A field of BODY or TRAJ that does not show the upper store or its orphans. -/
def Fld.unstored (f : Fld) : Prop :=
  f.traced ∧ f.key ≠ F.TRAJ_STORE_STAT_USED.key ∧ f.key ≠ F.TRAJ_STORE_PEAK_PEAK.key ∧ f.key ≠ F.TRAJ_CNT_ORPHAN_COUNT.key

theorem Fld.unstored_page {p o l w r : Nat} (hp : p = 0x37 ∨ p = 0x38) (ho : 0x40 ≤ o) (ho' : o < 0x1_0000) (hl : l < 32)
    (h : p = 0x37 ∨ 0x100 ≤ o) : (⟨bar0 p o, l, w, r⟩ : Fld).unstored :=
  ⟨traced_page hp ho ho' hl, by simp only [Fld.key, bar0]; omega, by simp only [Fld.key, bar0]; omega, by simp only [Fld.key, bar0]; omega⟩

namespace Dev

variable (d : Dev) {f : Fld}

/-- The upper store without the entries of some bodies. -/
def storeWithout (d : Dev) (ids : List Nat) : List StoreEntry := d.seg.store.filter (fun x => !ids.contains x.id)

/-- The stored entries that satisfy `p` released, in commit order. -/
def releaseWhere (d : Dev) (p : StoreEntry → Bool) : Dev := (d.seg.store.filter p).foldl (fun d e => d.releaseEntry e.id) d

theorem planView_withStore {e : Dev} (h : e.planView f = d.planView f) (st : List StoreEntry) (full : Bool) :
    (e.withStore st full).planView f = (d.withStore st full).planView f := by
  simp only [planView, withStore, Prod.mk.injEq, Seg.mk.injEq] at h ⊢
  simp only [h, and_self, true_and]
  exact h.2.2.2

theorem store_of_planView {e : Dev} (h : e.planView f = d.planView f) : e.seg.store = d.seg.store := congrArg (·.2.1.store) h

theorem get_of_planView {e : Dev} (h : e.planView f = d.planView f) : e.get f = d.get f := congrArg (·.2.2.2) h

theorem segGroup_of_planView {e : Dev} (h : e.planView f = d.planView f) (g : Nat) : e.segGroup g = d.segGroup g := by
  rw [segGroup, segGroup, show e.seg.groups = d.seg.groups from congrArg (·.2.1.groups) h]

section Unstored

variable (hf : f.unstored)
include hf

theorem planView_dropEntry (id : Nat) : (d.dropEntry id).planView f = (d.withStore (d.seg.store.filter (fun e => e.id ≠ id)) false).planView f := by
  obtain ⟨-, hused, hpeak, -⟩ := hf
  exact (planView_set_ne _ _ hpeak).trans (planView_set_ne _ _ hused)

theorem planView_releaseEntry (id : Nat) : ∃ full, (d.releaseEntry id).planView f = (d.withStore (d.storeWithout [id]) full).planView f := by
  have hst : d.storeWithout [id] = d.seg.store.filter (fun e => e.id ≠ id) := List.filter_congr fun x _ => by simp
  rw [hst]
  unfold releaseEntry
  split
  · exact ⟨false, (planView_releaseOrphan _ hf.1 id).trans ((planView_set_ne _ _ hf.2.2.2).trans (d.planView_dropEntry hf id))⟩
  · next hnone =>
    have hall : d.seg.store.filter (fun e => e.id ≠ id) = d.seg.store := List.filter_eq_self.mpr (by simpa using hnone)
    rw [hall]
    exact ⟨d.seg.storeFull, rfl⟩

theorem planView_releaseEntries (ids : List Nat) :
    ∃ full, (ids.foldl (fun d id => d.releaseEntry id) d).planView f = (d.withStore (d.storeWithout ids) full).planView f := by
  induction ids generalizing d with
  | nil =>
    have hall : d.storeWithout [] = d.seg.store := List.filter_eq_self.mpr fun _ _ => rfl
    rw [hall]
    exact ⟨d.seg.storeFull, rfl⟩
  | cons id ids ih =>
    obtain ⟨full₁, h₁⟩ := d.planView_releaseEntry hf id
    obtain ⟨full, h⟩ := ih (d.releaseEntry id)
    have hst : (d.releaseEntry id).storeWithout ids = d.storeWithout (id :: ids) := by
      rw [storeWithout, store_of_planView _ h₁]
      exact List.filter_filter.trans (List.filter_congr fun x _ => by simp [Bool.and_comm])
    rw [hst] at h
    exact ⟨full, h.trans (planView_withStore _ h₁ _ _)⟩

/-- What a release of bodies leaves alone: all but the store and its flag. -/
theorem releaseEntries_keeps (ids : List Nat) :
    ∃ st full, (ids.foldl (fun d id => d.releaseEntry id) d).planView f = (d.withStore st full).planView f :=
  ⟨_, d.planView_releaseEntries hf ids⟩

theorem planView_releaseWhere (p : StoreEntry → Bool) :
    ∃ full, (d.releaseWhere p).planView f = (d.withStore (d.storeWithout ((d.seg.store.filter p).map (·.id))) full).planView f := by
  have h := d.planView_releaseEntries hf ((d.seg.store.filter p).map (·.id))
  rwa [List.foldl_map] at h

theorem get_releaseWhere (p : StoreEntry → Bool) : (d.releaseWhere p).get f = d.get f := by
  obtain ⟨_, h⟩ := d.planView_releaseWhere hf p
  exact (get_of_planView _ h).trans rfl

end Unstored

theorem segGroup_releaseWhere (p : StoreEntry → Bool) (g : Nat) : (d.releaseWhere p).segGroup g = d.segGroup g := by
  obtain ⟨_, h⟩ := d.planView_releaseWhere (f := F.BODY_COMMIT_SEQ_COUNT) (Fld.unstored_page (.inl rfl) (by decide) (by decide) (by decide) (.inl rfl)) p
  exact segGroup_of_planView _ h g

/-- R227: what stays in the store was there, and was not to be released. -/
theorem mem_releaseWhere {p : StoreEntry → Bool} {x : StoreEntry} (hx : x ∈ (d.releaseWhere p).seg.store) : x ∈ d.seg.store ∧ p x = false := by
  obtain ⟨_, h⟩ := d.planView_releaseWhere (f := F.BODY_COMMIT_SEQ_COUNT) (Fld.unstored_page (.inl rfl) (by decide) (by decide) (by decide) (.inl rfl)) p
  rw [store_of_planView _ h] at hx
  obtain ⟨hmem, hkept⟩ := List.mem_filter.mp hx
  refine ⟨hmem, Bool.eq_false_iff.mpr fun hp => ?_⟩
  have hgone : x.id ∈ (d.seg.store.filter p).map (·.id) := List.mem_map_of_mem (List.mem_filter.mpr ⟨hmem, hp⟩)
  simp [hgone] at hkept

/-! ### Expiry (R227, R242) -/

theorem trajView_setSegGroup (g : Nat) (x : SegGroup) : (d.setSegGroup g x).trajView = d.trajView.setSegGroup g x := by
  unfold trajView
  exact List.foldl_hom (fun d : Dev => d.setSegGroup g x) fun _ _ => rfl

theorem segGroup_setSegGroup (g : Nat) (x : SegGroup) : (d.setSegGroup g x).segGroup g = x := Sparse.get_set_self _ _ _ _

/-- R227, R242: with no body open, the entries of the partner that stay are those a body of the row could still meet. -/
theorem mem_expireAt {g : Nat} {t : Int} (ho : (d.segGroup g).openB = []) {x : StoreEntry} (hx : x ∈ (d.expireAt g t).seg.store) :
    x ∈ d.seg.store ∧ (x.group = d.get (F.TRAJ_GCFG_PARTNER g) →
      d.trajView.gapLe g d.trajView.vyMin (t + d.trajView.getS (F.TRAJ_GCFG_EXP_OFS g) * 65536 - x.tRef * 65536) 65536 = true) := by
  unfold expireAt at hx
  extract_lets v u ofs lim at hx
  have hlim : lim = t + ofs := by simp only [lim, ho, List.foldl_nil]
  obtain ⟨hmem, hp⟩ := d.mem_releaseWhere (p := fun e => e.group = u && !v.gapLe g v.vyMin (lim - e.tRef * 65536) 65536) hx
  refine ⟨hmem, fun hg => ?_⟩
  rw [hlim] at hp
  simpa [hg, u, v, ofs] using hp

theorem segGroup_expireAt (g h : Nat) (t : Int) : (d.expireAt g t).segGroup h = d.segGroup h := d.segGroup_releaseWhere _ h

/-- The expiry that is due for a row whose bodies are all committed. -/
theorem upperExpiry_due {g k stamp : Nat} (hdue : (d.segGroup g).expDue = true) (hc : ∀ b ∈ d.seg.closed, b.1.group ≠ g) (hr : d.roleOf g = 2)
    (hl : (d.segGroup g).last = some (k, stamp)) :
    d.upperExpiry g = (d.setSegGroup g { d.segGroup g with expDue := false }).expireAt g stamp := by
  have hnone : d.seg.closed.any (fun b => decide (b.1.group = g)) = false := by simpa using fun b t hb => hc (b, t) hb
  unfold upperExpiry
  extract_lets x d₁
  have hlast : x.last = some (k, stamp) := hl
  have hrole : d₁.roleOf g = 2 := hr
  change _ = d₁.expireAt g stamp
  clear_value d₁
  rw [if_neg (by simp [x, hdue, hnone]), hlast]
  exact if_pos hrole

/-! ### A lower group made single-plane (R239) -/

/-- The roles of the pair are 3, and every other field of page TRAJ is as before but VY_AVG of the partner. -/
theorem roleSingle_eq {g u : Nat} (hr : d.roleOf g = 2) (hu : d.get (F.TRAJ_GCFG_PARTNER g) = u) : d.roleSingle g =
    (((d.releaseWhere (fun e => e.group = u)).set (F.TRAJ_GCFG_ROLE g) 3).set (F.TRAJ_GCFG_ROLE u) 3).setS (F.TRAJ_VY_AVG_VY_AVG u) (d.trajView.vG u) := by
  rw [roleSingle, if_neg (by simp [hr]), hu]
  rfl

end Dev

/-! ### The commands complete -/

section Commands

variable {s : State} {g u k stamp : Nat}

theorem upperEntryExpiry_completes (hdue : (s.dev.segGroup g).expDue = true) (hc : ∀ b ∈ s.dev.seg.closed, b.1.group ≠ g) (hr : s.dev.roleOf g = 2)
    (hl : (s.dev.segGroup g).last = some (k, stamp)) (ho : (s.dev.segGroup g).openB = []) : Completes (.upperEntryExpiry g) s (fun d =>
      (d.segGroup g).expDue = false ∧ ∀ x ∈ d.seg.store, x ∈ s.dev.seg.store ∧ (x.group = s.dev.get (F.TRAJ_GCFG_PARTNER g) →
        s.dev.trajView.gapLe g s.dev.trajView.vyMin
          ((stamp : Int) + s.dev.trajView.getS (F.TRAJ_GCFG_EXP_OFS g) * 65536 - x.tRef * 65536) 65536 = true)) := by
  refine completes_of_eq (u := (·.upperExpiry g)) rfl (s.dev.upperExpiry_due hdue hc hr hl) ⟨?_, fun x hx => ?_⟩
  · show (Dev.segGroup (Dev.expireAt _ _ _) g).expDue = false
    rw [Dev.segGroup_expireAt, Dev.segGroup_setSegGroup]
  · have h := Dev.mem_expireAt _ (by rw [Dev.segGroup_setSegGroup]; exact ho) hx
    rw [Dev.trajView_setSegGroup] at h
    exact h

theorem trajRoleChange_completes (hu : u < 8) (hgu : g ≠ u) (hs : s.dev.sorting = true) (hr : s.dev.roleOf g = 2)
    (hp : s.dev.get (F.TRAJ_GCFG_PARTNER g) = u) : Completes (.trajRoleChange g) s (fun d =>
      d.roleOf g = 3 ∧ d.roleOf u = 3 ∧ (∀ x ∈ d.seg.store, x ∈ s.dev.seg.store ∧ x.group ≠ u)
        ∧ d.get (F.TRAJ_VX_AVG_VX_AVG u) = s.dev.get (F.TRAJ_VX_AVG_VX_AVG u) ∧ ∀ h, h < 8 → h ≠ g → h ≠ u → d.roleOf h = s.dev.roleOf h) := by
  refine completes_of_eq (u := (·.trajRoleChange g)) rfl ((if_pos hs).trans (s.dev.roleSingle_eq hr hp))
    ⟨?_, ?_, fun x hx => ?_, ?_, fun h hh hhg hhu => ?_⟩
  · rw [Dev.roleOf, Dev.get_canon, Dev.get_setS_ne _ _ (by simp only [Fld.key, bar0]; omega),
      Dev.get_set_ne _ _ (by simp only [Fld.key, bar0]; omega), Dev.get_set_self]
    rfl
  · rw [Dev.roleOf, Dev.get_canon, Dev.get_setS_ne _ _ (by simp only [Fld.key, bar0]; omega), Dev.get_set_self]
    rfl
  · obtain ⟨hmem, hx⟩ := s.dev.mem_releaseWhere hx
    exact ⟨hmem, by simpa using hx⟩
  · rw [Dev.get_canon, Dev.get_setS_ne _ _ (by simp only [Fld.key, bar0]; omega), Dev.get_set_ne _ _ (by simp only [Fld.key, bar0]; omega),
      Dev.get_set_ne _ _ (by simp only [Fld.key, bar0]; omega),
      Dev.get_releaseWhere _ (Fld.unstored_page (.inr rfl) (by omega) (by omega) (by omega) (.inr (by omega)))]
  · rw [Dev.roleOf, Dev.get_canon, Dev.get_setS_ne _ _ (by simp only [Fld.key, bar0]; omega), Dev.get_set_ne _ _ (by simp only [Fld.key, bar0]; omega),
      Dev.get_set_ne _ _ (by simp only [Fld.key, bar0]; omega),
      Dev.get_releaseWhere _ (Fld.unstored_page (.inr rfl) (by omega) (by omega) (by omega) (.inr (by omega))), Dev.roleOf]

end Commands

end Sys2Proof.Machine
end

section
/-! PROOF. O40, the commit of a body, its retirement, and the two CLR bits. What becomes of committed bodies, at their commit or at a change of level that
follows it, leaves the sky rows, the groups, the closed bodies and the names of the committed ones. -/

namespace Sys2Proof.Machine

namespace Dev

variable (d : Dev) {f : Fld}

/-- The sky rows, the labellers of the groups, the closed bodies and the names of the committed ones. -/
def kept (d : Dev) : List SkyRow × List (Nat × SegGroup) × List (Body × Nat) × List (Nat × Nat × Option Nat × Nat) :=
  (d.skyOut, d.seg.groups, d.seg.closed, d.seg.bodies.map CBody.name)

theorem kept_of_planView {e : Dev} (h : e.planView f = d.planView f) : e.kept = d.kept := by
  simp only [planView, Prod.mk.injEq, Seg.mk.injEq] at h
  simp only [kept, h]

theorem kept_of_unrecorded {e : Dev} (h : e.unrecorded = d.unrecorded) : e.kept = d.kept := by
  rw [kept, seg_of_unrecorded h, show e.skyOut = d.skyOut from (congrArg Dev.skyOut h :), kept]

theorem kept_of_unlevelled {e : Dev} (h : e.unlevelled = d.unlevelled) : e.kept = d.kept := (congrArg kept h :)

theorem kept_set (g : Fld) (v : Nat) : (d.set g v).kept = d.kept := rfl
theorem kept_count (g : Fld) (n : Nat) : (d.count g n).kept = d.kept := rfl
theorem kept_setMetPort (n : Nat) (x : MetPort) : (d.setMetPort n x).kept = d.kept := rfl

theorem kept_ite {c : Prop} [Decidable c] {a b : Dev} (ha : a.kept = d.kept) (hb : b.kept = d.kept) : (if c then a else b).kept = d.kept := by
  split
  · exact ha
  · exact hb

theorem kept_foldl {α : Type} {step : Dev → α → Dev} (h : ∀ d a, (step d a).kept = d.kept) (l : List α) : (l.foldl step d).kept = d.kept :=
  foldl_keeps kept (fun d a _ e => e ▸ h d a) l d

theorem kept_raise (p b : Nat) : (d.raise p b).kept = d.kept := d.kept_of_unrecorded (unrecorded_raise d p b)

theorem kept_updBody (id : Nat) (u : CBody → CBody) (hu : ∀ c, (u c).name = c.name := by intro; rfl) : (d.updBody id u).kept = d.kept :=
  d.kept_of_planView (f := F.BODY_COMMIT_SEQ_COUNT) (d.planView_updBody id u hu)

/-- A change of every body that spares its name. -/
theorem kept_mapBodies (u : CBody → CBody) (hu : ∀ c, (u c).name = c.name) :
    ({ d with seg := { d.seg with bodies := d.seg.bodies.map u } } : Dev).kept = d.kept := by
  have hnames : (d.seg.bodies.map u).map CBody.name = d.seg.bodies.map CBody.name := by
    rw [List.map_map]
    exact List.map_congr_left fun c _ => hu c
  exact congrArg (fun names => (d.skyOut, d.seg.groups, d.seg.closed, names)) hnames

theorem kept_appendBody (c : CBody) : ({ d with seg := { d.seg with bodies := d.seg.bodies ++ [c] } } : Dev).kept =
    (d.skyOut, d.seg.groups, d.seg.closed, d.seg.bodies.map CBody.name ++ [c.name]) :=
  congrArg (fun names => (d.skyOut, d.seg.groups, d.seg.closed, names)) List.map_append

/-! ### A change of level -/

theorem kept_startBody (e : Nat) : (d.startBody e).kept = d.kept := by
  obtain h | ⟨x, h⟩ := startBody_cases d e
  · rw [h]
  · rw [h]; rfl

theorem kept_endBody (e : Nat) : (d.endBody e).kept = d.kept := by
  unfold endBody
  extract_lets x cycles d₁ d₂
  have h₂ : d₂.kept = d.kept := rfl
  clear_value d₂
  exact (d₂.kept_ite (d₂.kept_set _ _) (d₂.kept_startBody e)).trans h₂

theorem kept_abandonAll : d.abandonAll.kept = d.kept := by
  refine d.kept_foldl (fun d e => ?_) _
  extract_lets x n d₁
  exact d.kept_ite rfl (d.kept_ite (d₁.kept_endBody e) rfl)

theorem kept_dropBodies : d.dropBodies.kept = d.kept :=
  d.kept_mapBodies (fun b : CBody => if b.place = .resolved then b else { b with place := .resolved, planned := true }) fun _ => by
    split <;> rfl

theorem kept_moveState (s cause detail : Nat) : (d.moveState s cause detail).kept = d.kept := d.kept_of_unlevelled (d.unlevelled_moveState s cause detail)

theorem kept_pass (id : Nat) (v : Verdict) (replaced : Bool) : (d.pass id v replaced).kept = d.kept :=
  d.kept_of_planView (f := F.BODY_COMMIT_SEQ_COUNT) (d.planView_pass id v replaced)

theorem kept_twilightPass (b : CBody) (cause : Nat) (replaced : Bool) : (d.twilightPass b cause replaced).kept = d.kept := by
  unfold twilightPass
  extract_lets v plan d₁
  exact (d₁.kept_pass b.id v replaced).trans (d.kept_ite rfl rfl)

theorem kept_metShow (n : Nat) : (d.metShow n).kept = d.kept := d.kept_of_unrecorded (unrecorded_metShow d n)

theorem kept_cancelAll (n : Nat) : (d.cancelAll n).kept = d.kept := by
  unfold cancelAll
  extract_lets x d₁
  have h₁ : d₁.kept = d.kept := d.kept_setMetPort n _
  exact d.kept_ite ((d₁.kept_metShow n).trans h₁)
    ((kept_metShow _ n).trans ((d₁.kept_foldl (fun d k => d.kept_setMetPort n _) (d₁.metModules n)).trans h₁))

theorem kept_cancelEverything : d.cancelEverything.kept = d.kept := by
  unfold cancelEverything
  extract_lets d₁
  have h₁ : d₁.kept = d.kept := d.kept_foldl (fun d n => d.kept_cancelAll n) _
  clear_value d₁
  exact (d₁.kept_mapBodies (fun b => { b with planned := true }) fun _ => rfl).trans h₁

theorem kept_merSend (typ hi units : Nat) (pl : List Nat) : (d.merSend typ hi units pl).kept = d.kept := by
  obtain ⟨m, o, h⟩ := d.merSend_eq typ hi units pl
  rw [h]; rfl

theorem kept_sendOffer (a : AfterOffer) : (d.sendOffer a).kept = d.kept := d.kept_merSend _ _ _ _

theorem kept_eclipseCancel : d.eclipseCancel.kept = d.kept := (kept_cancelEverything _).trans (d.kept_count _ _)

theorem kept_abandonJoin : d.abandonJoin.kept = d.kept := d.kept_ite rfl rfl

theorem kept_enterTwilight (cause detail : Nat) : (d.enterTwilight cause detail).kept = d.kept := by
  unfold enterTwilight
  extract_lets bs d₁
  have h₁ : d₁.kept = d.kept := (kept_moveState _ 6 cause detail).trans d.kept_abandonAll
  clear_value d₁
  exact (kept_count _ _ _).trans ((d₁.kept_foldl (fun d b => (kept_twilightPass _ b 0 false).trans (d.kept_count _ _)) bs).trans h₁)

theorem kept_enterEclipse (cause detail : Nat) : (d.enterEclipse cause detail).kept = d.kept := by
  unfold enterEclipse
  extract_lets n d₁ mer d₂
  have h₁ : d₁.kept = d.kept :=
    (kept_count _ _ _).trans ((kept_moveState _ 7 cause detail).trans ((kept_dropBodies _).trans d.kept_abandonAll))
  clear_value d₁
  have h₂ : d₂.kept = d₁.kept := kept_abandonJoin _
  clear_value d₂
  exact (d₂.kept_ite (d₂.kept_sendOffer _) d₂.kept_eclipseCancel).trans (h₂.trans h₁)

theorem kept_autoLevel : d.autoLevel.kept = d.kept :=
  d.kept_ite (d.kept_enterEclipse _ _) (d.kept_ite (d.kept_enterTwilight _ _) (d.kept_ite (d.kept_enterTwilight _ _)
    (d.kept_ite (d.kept_enterTwilight _ _) rfl)))

/-! ### The trajectory unit (R225–R238) -/

theorem kept_observe (page src inst : Nat) (v : Int) : (d.observe page src inst v).kept = d.kept :=
  observe_keeps (P := fun e => e.kept = d.kept) d (fun _ _ h => h) (fun e h => (e.kept_raise _ _).trans h) page src inst v rfl

theorem kept_setBytes (bs : List Nat) (a : Nat) : (d.setBytes a bs).kept = d.kept :=
  setBytes_keeps (P := fun e => e.kept = d.kept) d (fun _ _ h => h) bs a rfl

theorem kept_runCount (l : Nat) (assoc : Bool) : (d.runCount l assoc).kept = d.kept :=
  d.kept_ite rfl (kept_ite _ (kept_raise _ _ _) rfl)

theorem kept_avgUpdate (l : Nat) (vy vx : Int) : (d.avgUpdate l vy vx).kept = d.kept := by
  unfold avgUpdate
  extract_lets d₁ d₂
  have h₁ : d₁.kept = d.kept := d.kept_ite rfl rfl
  have h₂ : d₂.kept = d₁.kept := d₁.kept_ite rfl rfl
  exact h₂.trans h₁

theorem kept_dropEntry (id : Nat) : (d.dropEntry id).kept = d.kept := rfl

theorem kept_trajObserve (x : Sighting) (e : StoreEntry) (vy vx : Int) : (d.trajObserve x e vy vx).kept = d.kept :=
  (kept_observe _ _ _ _ _).trans ((kept_observe _ _ _ _ _).trans (d.kept_observe _ _ _ _))

theorem kept_upperCommit (x : Sighting) : (d.upperCommit x).1.kept = d.kept := by
  unfold upperCommit
  split
  · rfl
  split
  · exact kept_ite _ rfl (kept_raise _ _ _)
  · rfl

theorem kept_lowerCommit (x : Sighting) : (d.lowerCommit x).1.kept = d.kept := by
  unfold lowerCommit
  split
  · dsimp only
    exact (kept_runCount _ _ _).trans (d.kept_count _ _)
  · split
    · dsimp only
      exact (kept_runCount _ _ _).trans (d.kept_count _ _)
    · dsimp only
      exact (kept_runCount _ _ _).trans (d.kept_count _ _)
  · next e _ =>
    extract_lets dt vy vx out d₁ d₂ d₃ d₄
    have h₁ : d₁.kept = d.kept := (kept_dropEntry _ e.id).trans ((kept_count _ _ _).trans (d.kept_trajObserve x e vy vx))
    clear_value d₁
    have h₂ : d₂.kept = d₁.kept := d₁.kept_updBody e.id _
    have h₃ : d₃.kept = d₂.kept := (kept_setBytes _ _ _).trans (d₂.kept_setBytes _ _)
    have h₄ : d₄.kept = d₃.kept := d₃.kept_ite (d₃.kept_avgUpdate _ _ _) rfl
    exact (d₄.kept_runCount _ _).trans (h₄.trans (h₃.trans (h₂.trans h₁)))

theorem kept_trajCommit (x : Sighting) : (d.trajCommit x).1.kept = d.kept := by
  have h₁ : (d.write (partnerOff (ctxOf x.id)) 4 0).kept = d.kept := d.kept_setBytes _ _
  rw [← h₁]
  unfold trajCommit
  generalize d.write (partnerOff (ctxOf x.id)) 4 0 = d₁
  dsimp only
  split
  · exact kept_upperCommit d₁ x
  · exact kept_lowerCommit d₁ x
  · rfl

theorem planView_setSwapSt (w : SwapDef) (x : SwapSt) : (d.setSwapSt w x).planView f = d.planView f := rfl

theorem planView_twilightPass (b : CBody) (cause : Nat) (replaced : Bool) : (d.twilightPass b cause replaced).planView f = d.planView f := by
  unfold twilightPass
  extract_lets v plan d₁
  exact (d₁.planView_pass b.id v replaced).trans (d.planView_ite rfl rfl)

theorem planView_merSend (typ hi units : Nat) (pl : List Nat) : (d.merSend typ hi units pl).planView f = d.planView f := by
  obtain ⟨m, o, h⟩ := d.merSend_eq typ hi units pl
  rw [h]; rfl

/-! ### The commit (R207, R214) -/

section Unstored

variable (hf : f.unstored)
include hf

theorem planView_observe (page src inst : Nat) (v : Int) : (d.observe page src inst v).planView f = d.planView f :=
  observe_keeps (P := fun e => e.planView f = d.planView f) d (fun _ _ h => h) (fun e h => (planView_raise e hf.1 _ _).trans h) page src inst v rfl

theorem planView_dispSwapDue (t : Option (Nat × Nat × Nat)) : (d.dispSwapDue t).planView f = d.planView f := by
  have hslots : ∀ d : Dev, d.takeSlots.planView f = d.planView f := fun d => d.planView_foldl (fun d g => d.planView_set hf.1 _ (by simp)) _
  have happly : (d.swapApply dispSwap).planView f = d.planView f :=
    (planView_raise _ hf.1 _ _).trans (by simp [dispSwap, hf.1, planView_setSwapSt])
  exact d.planView_ite ((hslots _).trans happly) rfl

theorem planView_swapPassed_disp (t : Nat) : (d.swapPassed dispSwap t).planView f = d.planView f :=
  d.planView_ite (c := d.bit dispSwap.dtPend = true) (by simp [dispSwap, hf.1]) rfl

theorem planView_countCause (g cause : Nat) : (d.countCause g cause).planView f = d.planView f := by
  unfold countCause
  extract_lets d₁
  have h₁ : d₁.planView f = d.planView f := d.planView_count hf.1 _ (by simp)
  exact (d₁.planView_ite rfl ((planView_raise _ hf.1 _ _).trans (d₁.planView_count hf.1 _ (by simp)))).trans h₁

theorem planView_defaultVerdict (b : CBody) (cause : Nat) : (d.defaultVerdict b cause).planView f = d.planView f := by
  unfold defaultVerdict
  extract_lets replaced d₁ d₂
  have h₁ : d₁.planView f = d.planView f := (planView_count _ hf.1 _ (by simp)).trans (d.planView_countCause hf _ _)
  have h₂ : d₂.planView f = d₁.planView f := d₁.planView_ite (d₁.planView_twilightPass _ _ _) (d₁.planView_pass _ _ _)
  exact (d₂.planView_ite (d₂.planView_merSend _ _ _ _) rfl).trans (h₂.trans h₁)

theorem planView_missAtCommit (b : CBody) : (d.missAtCommit b).planView f = d.planView f := by
  unfold missAtCommit
  extract_lets held seg d₁
  have h₁ : d₁.planView f = d.planView f := rfl
  clear_value held d₁
  cases held with
  | none => exact h₁
  | some m =>
    exact (d₁.planView_ite (d₁.planView_count hf.1 _ (by simp)) (d₁.planView_ite (d₁.planView_defaultVerdict hf _ _) rfl)).trans h₁

/-- R251: wherever its verdict comes from, a committed body keeps its name. -/
theorem planView_placeBody (b : CBody) : (d.placeBody b).planView f = d.planView f := by
  unfold placeBody
  extract_lets drop
  have hdrop : (drop d).planView f = d.planView f := d.planView_updBody b.id _
  clear_value drop
  exact d.planView_ite ((planView_count _ hf.1 _ (by simp)).trans hdrop) (d.planView_ite hdrop
    (d.planView_ite ((planView_twilightPass _ _ _ _).trans (d.planView_count hf.1 _ (by simp)))
      (d.planView_ite (d.planView_defaultVerdict hf _ _) (d.planView_missAtCommit hf b))))

theorem drainStore_keeps : ∃ st full, d.drainStore.planView f = (d.withStore st full).planView f := by
  unfold drainStore releaseStore
  split
  · have h := d.releaseEntries_keeps hf (d.seg.store.map (·.id))
    rwa [List.foldl_map] at h
  · exact ⟨_, _, rfl⟩

theorem get_drainStore_unstored : d.drainStore.get f = d.get f := by
  obtain ⟨_, _, h⟩ := d.drainStore_keeps hf
  exact (get_of_planView _ h).trans rfl

end Unstored

theorem Fld.unstored_commitSeq : F.BODY_COMMIT_SEQ_COUNT.unstored :=
  Fld.unstored_page (.inl rfl) (by decide) (by decide) (by decide) (.inl rfl)

theorem kept_drainStore : d.drainStore.kept = d.kept := by
  obtain ⟨_, _, h⟩ := d.drainStore_keeps Fld.unstored_commitSeq
  exact (kept_of_planView _ h).trans rfl

/-- The number of the next commit (R214). -/
def nextSeq (d : Dev) : Nat := (d.get F.BODY_COMMIT_SEQ_COUNT + 1) % 2 ^ 32

theorem bodyCommit_commits {b : Body} {t : Nat} {rest : List (Body × Nat)} (h : d.seg.closed = (b, t) :: rest) :
    d.bodyCommit.get F.BODY_COMMIT_SEQ_COUNT = d.nextSeq ∧
    d.bodyCommit.kept = (d.skyOut, d.seg.groups, rest, d.seg.bodies.map CBody.name ++ [(b.id, b.group, b.crop, d.nextSeq)]) := by
  have hf := Fld.unstored_commitSeq
  unfold bodyCommit
  rw [h]
  dsimp -zeta only
  extract_lets seg d₀ g i d₁ n xc yc height tRef cut seq d₂ d₃ d₄ c seg₁ d₅ d₆
  have h₁ : d₁.planView F.BODY_COMMIT_SEQ_COUNT = d₀.planView F.BODY_COMMIT_SEQ_COUNT :=
    (planView_swapPassed_disp _ hf _).trans (d₀.planView_dispSwapDue hf _)
  have hseq : seq = d.nextSeq := congrArg (fun n => (n + 1) % 2 ^ 32) (get_of_planView d₀ h₁)
  have h₂ : d₂.kept = d₁.kept := (kept_setBytes _ _ _).trans (d₁.kept_trajCommit _)
  have h₃ : d₃.kept = d₂.kept := by
    simp only [d₃]
    split
    · exact d₂.kept_setBytes _ _
    · rfl
  have h₄ : d₄.kept = d₀.kept :=
    (kept_setBytes _ _ _).trans ((d₃.kept_set _ _).trans (h₃.trans (h₂.trans (kept_of_planView _ h₁))))
  have hget : d₄.get F.BODY_COMMIT_SEQ_COUNT = seq := (get_setBytes _ _ _).trans ((get_set_self _ _ _).trans (Nat.mod_mod _ _))
  clear_value d₄
  have h₆ : d₆.planView F.BODY_COMMIT_SEQ_COUNT = d₅.planView F.BODY_COMMIT_SEQ_COUNT :=
    (planView_observe _ hf _ _ _ _).trans (d₅.planView_observe hf _ _ _ _)
  have hplaced := (d₆.planView_placeBody hf c).trans h₆
  rw [get_drainStore_unstored _ hf, kept_drainStore, get_of_planView _ hplaced, kept_of_planView _ hplaced, ← hseq]
  refine ⟨hget, ?_⟩
  have h₅ : d₅.kept = (d₄.skyOut, d₄.seg.groups, d₄.seg.closed, d₄.seg.bodies.map CBody.name ++ [(b.id, b.group, b.crop, seq)]) :=
    d₄.kept_appendBody c
  obtain ⟨hsky, hgroups, hclosed, hbodies⟩ : d₄.skyOut = d.skyOut ∧ d₄.seg.groups = d.seg.groups ∧ d₄.seg.closed = rest ∧
      d₄.seg.bodies.map CBody.name = d.seg.bodies.map CBody.name := by simpa only [kept, Prod.mk.injEq] using h₄
  rw [h₅, hsky, hgroups, hclosed, hbodies]

/-- R214: the body in front of the closed ones is among the committed ones, with the next number. -/
theorem bodyCommit_autoLevel_commits {b : Body} {t : Nat} {rest : List (Body × Nat)} (h : d.seg.closed = (b, t) :: rest) :
    d.bodyCommit.autoLevel.seg.closed = rest ∧ d.bodyCommit.autoLevel.get F.BODY_COMMIT_SEQ_COUNT = d.nextSeq ∧
    ∃ c ∈ d.bodyCommit.autoLevel.seg.bodies, c.name = (b.id, b.group, b.crop, d.nextSeq) := by
  obtain ⟨hseq, hkept⟩ := d.bodyCommit_commits h
  rw [← kept_autoLevel] at hkept
  obtain ⟨-, -, hclosed, hnames⟩ : _ ∧ _ ∧ d.bodyCommit.autoLevel.seg.closed = rest ∧ d.bodyCommit.autoLevel.seg.bodies.map CBody.name = _ := by
    simpa only [kept, Prod.mk.injEq] using hkept
  have hlevel : d.bodyCommit.autoLevel.get F.BODY_COMMIT_SEQ_COUNT = d.bodyCommit.get F.BODY_COMMIT_SEQ_COUNT :=
    (levelKeeps_get Fld.unstored_commitSeq.1 _).autoLevel rfl
  refine ⟨hclosed, hlevel.trans hseq, List.mem_map.mp ?_⟩
  rw [hnames]
  exact List.mem_append_right _ (List.mem_singleton_self _)

/-! ### Retirement (R203, R227) -/

/-- What a batch of freed contexts and crops leaves alone: the sky rows, the groups, the committed bodies and the count of those retired. -/
def batchView (d : Dev) : List SkyRow × List (Nat × SegGroup) × List CBody × Nat :=
  (d.skyOut, d.seg.groups, d.seg.bodies, d.get F.BODY_CNT_RETIRED_COUNT)

theorem batchView_set {g : Fld} (v : Nat) (h : F.BODY_CNT_RETIRED_COUNT.key ≠ g.key) : (d.set g v).batchView = d.batchView :=
  congrArg (fun n => (d.skyOut, d.seg.groups, d.seg.bodies, n)) (get_set_ne d v h)

theorem batchView_bodyShow : d.bodyShow.batchView = d.batchView :=
  (batchView_set _ _ (by decide)).trans ((batchView_set _ _ (by decide)).trans ((batchView_set _ _ (by decide)).trans
    ((batchView_set _ _ (by decide)).trans (d.batchView_set _ (by decide)))))

theorem batchView_freeBatch (ctxs slots : List Nat) : (d.freeBatch ctxs slots).batchView = d.batchView := by
  unfold freeBatch
  extract_lets q seg d₁
  have h₁ : d₁.batchView = d.batchView := by
    simp only [d₁]
    split <;> rfl
  refine (batchView_bodyShow _).trans (Eq.trans (foldl_keeps batchView (fun d x e h => ?_) _ d₁) h₁)
  subst h
  dsimp only
  split <;> rfl

/-- R203: of the bodies retired none is left, and each is counted. -/
theorem retireBodies_retires (bs : List CBody) (hne : bs ≠ []) : (∀ b ∈ bs, ∀ c ∈ (d.retireBodies bs).seg.bodies, c.id ≠ b.id) ∧
    (d.retireBodies bs).get F.BODY_CNT_RETIRED_COUNT = (d.get F.BODY_CNT_RETIRED_COUNT + bs.length) % 2 ^ 32 := by
  unfold retireBodies
  rw [if_neg hne]
  extract_lets d₁ gone digests seg d₂
  have h₁ : d₁.get F.BODY_CNT_RETIRED_COUNT = d.get F.BODY_CNT_RETIRED_COUNT := by
    have h := d.releaseEntries_keeps (f := F.BODY_CNT_RETIRED_COUNT)
      (Fld.unstored_page (.inl rfl) (by decide) (by decide) (by decide) (.inl rfl)) (bs.map (·.id))
    rw [List.foldl_map] at h
    obtain ⟨_, _, h⟩ := h
    exact (get_of_planView _ h).trans rfl
  have hbatch := batchView_freeBatch (d₂.count F.BODY_CNT_RETIRED_COUNT bs.length) (bs.map (fun b => ctxOf b.id)) (bs.filterMap (·.crop))
  simp only [batchView, Prod.mk.injEq] at hbatch
  obtain ⟨-, -, hbodies, hcount⟩ := hbatch
  refine ⟨fun b hb c hc hid => ?_, ?_⟩
  · rw [hbodies] at hc
    have hkept : gone c = false := by simpa using (List.mem_filter.mp hc).2
    have hgone : gone c = true := List.any_eq_true.mpr ⟨b, hb, by simp [hid]⟩
    exact absurd hgone (by simp [hkept])
  · rw [hcount, get_count_self, ← h₁]
    rfl

end Dev

/-! ### The commands complete -/

section Commands

variable {s : State}

theorem bodyCommit_completes {b : Body} {t : Nat} {rest : List (Body × Nat)} (h : s.dev.seg.closed = (b, t) :: rest) :
    Completes .bodyCommit s (fun d => d.seg.closed = rest
      ∧ d.get F.BODY_COMMIT_SEQ_COUNT = (s.dev.get F.BODY_COMMIT_SEQ_COUNT + 1) % 2 ^ 32
      ∧ ∃ c ∈ d.seg.bodies, c.id = b.id ∧ c.group = b.group ∧ c.crop = b.crop ∧ c.seq = (s.dev.get F.BODY_COMMIT_SEQ_COUNT + 1) % 2 ^ 32) := by
  obtain ⟨hclosed, hseq, c, hc, hname⟩ := s.dev.bodyCommit_autoLevel_commits h
  simp only [CBody.name, Prod.mk.injEq] at hname
  exact completes_of_run (u := fun d => d.bodyCommit.autoLevel) rfl ⟨hclosed, (Dev.get_canon _ _).trans hseq, c, hc, hname⟩

theorem bodyRetire_completes {row : SkyRow} {rest : List SkyRow} {gone : List CBody} (h : s.dev.skyOut = row :: rest)
    (hg : gone = s.dev.seg.bodies.filter (fun b => decide (0 ≤ st40Diff (row.stamp / 65536 % 2 ^ 40) b.retire))) (hne : gone ≠ []) :
    Completes .bodyRetire s (fun d => (∀ b ∈ gone, ∀ c ∈ d.seg.bodies, c.id ≠ b.id)
      ∧ d.get F.BODY_CNT_RETIRED_COUNT = (s.dev.get F.BODY_CNT_RETIRED_COUNT + gone.length) % 2 ^ 32) := by
  obtain ⟨hgone, hcount⟩ := s.dev.retireBodies_retires gone hne
  have heq : s.dev.bodyRetire = s.dev.retireBodies gone := by rw [Dev.bodyRetire, h, hg]; rfl
  exact completes_of_eq (u := (·.bodyRetire)) rfl heq ⟨hgone, (Dev.get_canon _ _).trans hcount⟩

/-! The two registers that CLR sets (R202, R225). -/

/-- A register that takes what another field shows. -/
theorem completes_of_set {i : Instr} {u : Dev → Dev} {f g : Fld} (h : exec i s = s.run u) (he : u s.dev = s.dev.set f (s.dev.get g)) :
    Completes i s (fun d => d.get f = s.dev.get g % 2 ^ f.width ∧ KeepsRegs s.dev d [f] ∧ KeepsMemory s.dev d) :=
  completes_of_eq h he
    ⟨(Dev.get_canon _ _).trans (Dev.get_set_self _ _ _), Dev.keepsRegs_canon (Dev.keepsRegs_set _ _ _), Dev.keepsMemory_canon rfl rfl rfl rfl⟩

theorem completes_of_unchanged {i : Instr} {u : Dev → Dev} (h : exec i s = s.run u) (he : u s.dev = s.dev) :
    Completes i s (fun d => KeepsRegs s.dev d [] ∧ KeepsMemory s.dev d) :=
  completes_of_eq h he ⟨Dev.keepsRegs_canon fun _ _ => rfl, Dev.keepsMemory_canon rfl rfl rfl rfl⟩

theorem ctxLowClr_completes {v : Nat} (ht : s.dev.taken 0x37 0x48) (hv : Dev.fieldOf F.BODY_CTX_LOW_CLR v = 1) : Completes (.ctxLowClr v) s (fun d =>
    d.get F.BODY_CTX_LOW_LOW = s.dev.get F.BODY_CTX_STAT_FREE % 2 ^ 19 ∧ KeepsRegs s.dev d [F.BODY_CTX_LOW_LOW] ∧ KeepsMemory s.dev d) :=
  completes_of_set (u := (·.ctxLowClr v)) rfl ((Dev.gated_of_taken _ ht).trans (if_pos hv))

theorem ctxLowClr_completes_unset {v : Nat} (ht : s.dev.taken 0x37 0x48) (hv : Dev.fieldOf F.BODY_CTX_LOW_CLR v = 0) :
    Completes (.ctxLowClr v) s (fun d => KeepsRegs s.dev d [] ∧ KeepsMemory s.dev d) :=
  completes_of_unchanged (u := (·.ctxLowClr v)) rfl ((Dev.gated_of_taken _ ht).trans (if_neg (by simp [hv])))

theorem storePeakClr_completes {v : Nat} (ht : s.dev.taken 0x38 0x54) (hv : Dev.fieldOf F.TRAJ_STORE_PEAK_CLR v = 1) :
    Completes (.storePeakClr v) s (fun d => d.get F.TRAJ_STORE_PEAK_PEAK = s.dev.get F.TRAJ_STORE_STAT_USED % 2 ^ 17
      ∧ KeepsRegs s.dev d [F.TRAJ_STORE_PEAK_PEAK] ∧ KeepsMemory s.dev d) :=
  completes_of_set (u := (·.storePeakClr v)) rfl ((Dev.gated_of_taken _ ht).trans (if_pos hv))

theorem storePeakClr_completes_unset {v : Nat} (ht : s.dev.taken 0x38 0x54) (hv : Dev.fieldOf F.TRAJ_STORE_PEAK_CLR v = 0) :
    Completes (.storePeakClr v) s (fun d => KeepsRegs s.dev d [] ∧ KeepsMemory s.dev d) :=
  completes_of_unchanged (u := (·.storePeakClr v)) rfl ((Dev.gated_of_taken _ ht).trans (if_neg (by simp [hv])))

end Commands

end Sys2Proof.Machine
end

section
/-! PROOF. O40, a sky row reaches segmentation, and the whole of O40. Commits, expiries and retirements fall before the row; it joins the rows of its
group, and the labelling touches neither those nor the sky rows still on their way. -/

namespace Sys2Proof.Machine

namespace Dev

variable (d : Dev)

/-- The sky rows on their way, and of each group the rows that have reached segmentation, newest first. -/
def rowFlow (d : Dev) : List SkyRow × (Nat → List (Nat × Nat)) := (d.skyOut, fun g => (d.segGroup g).rows)

theorem rowFlow_of_groups {e : Dev} (hsky : e.skyOut = d.skyOut := by rfl) (hgroups : e.seg.groups = d.seg.groups := by rfl) : e.rowFlow = d.rowFlow := by
  simp only [rowFlow, segGroup, hsky, hgroups]

theorem rowFlow_of_kept {e : Dev} (h : e.kept = d.kept) : e.rowFlow = d.rowFlow := d.rowFlow_of_groups (congrArg (·.1) h) (congrArg (·.2.1) h)

theorem skyOut_of_rowFlow {e : Dev} (h : e.rowFlow = d.rowFlow) : e.skyOut = d.skyOut := congrArg Prod.fst h

theorem rows_of_rowFlow {e : Dev} (h : e.rowFlow = d.rowFlow) (g : Nat) : (e.segGroup g).rows = (d.segGroup g).rows :=
  congrFun (congrArg Prod.snd h) g

theorem rowFlow_ite {c : Prop} [Decidable c] {a b : Dev} (ha : a.rowFlow = d.rowFlow) (hb : b.rowFlow = d.rowFlow) :
    (if c then a else b).rowFlow = d.rowFlow := by
  split
  · exact ha
  · exact hb

theorem rowFlow_foldl {α : Type} {step : Dev → α → Dev} (h : ∀ d a, (step d a).rowFlow = d.rowFlow) (l : List α) :
    (l.foldl step d).rowFlow = d.rowFlow := foldl_keeps rowFlow (fun d a _ e => e ▸ h d a) l d

theorem rowFlow_raise (p b : Nat) : (d.raise p b).rowFlow = d.rowFlow := d.rowFlow_of_kept (d.kept_raise p b)

theorem rowFlow_count (g : Fld) (n : Nat) : (d.count g n).rowFlow = d.rowFlow := rfl

theorem rowFlow_setBytes (bs : List Nat) (a : Nat) : (d.setBytes a bs).rowFlow = d.rowFlow := d.rowFlow_of_kept (d.kept_setBytes bs a)

/-- A labeller may change in all but the rows of its group. -/
theorem rowFlow_setSegGroup (g : Nat) (x : SegGroup) (h : x.rows = (d.segGroup g).rows) : (d.setSegGroup g x).rowFlow = d.rowFlow := by
  refine Prod.ext rfl (funext fun k => ?_)
  by_cases hk : k = g
  · subst hk
    exact (congrArg SegGroup.rows (d.segGroup_setSegGroup k x)).trans h
  · exact congrArg SegGroup.rows (Sparse.get_set_ne _ _ _ _ hk)

theorem skyOut_setSegGroup (g : Nat) (x : SegGroup) : (d.setSegGroup g x).skyOut = d.skyOut := rfl

theorem rowFlow_drainStore : d.drainStore.rowFlow = d.rowFlow := d.rowFlow_of_kept d.kept_drainStore

theorem rowFlow_freeBatch (ctxs slots : List Nat) : (d.freeBatch ctxs slots).rowFlow = d.rowFlow :=
  have h := d.batchView_freeBatch ctxs slots
  d.rowFlow_of_groups (congrArg (·.1) h) (congrArg (·.2.1) h)

theorem rowFlow_rowBatch : d.rowBatch.rowFlow = d.rowFlow := rowFlow_freeBatch _ _ _

/-! ### What falls before a row (R203, R204, R207, R214, R227, R447) -/

theorem rowFlow_bodyCommit : d.bodyCommit.rowFlow = d.rowFlow := by
  cases h : d.seg.closed with
  | nil => rw [bodyCommit, h]
  | cons x rest =>
    obtain ⟨-, hkept⟩ := d.bodyCommit_commits (b := x.1) (t := x.2) h
    exact d.rowFlow_of_groups (congrArg (·.1) hkept) (congrArg (·.2.1) hkept)

theorem rowFlow_upperExpiry (g : Nat) : (d.upperExpiry g).rowFlow = d.rowFlow := by
  unfold upperExpiry
  extract_lets x d₁
  have h₁ : d₁.rowFlow = d.rowFlow := d.rowFlow_setSegGroup g _ rfl
  clear_value d₁
  refine d.rowFlow_ite rfl ?_
  split
  · refine (d₁.rowFlow_ite ?_ rfl).trans h₁
    obtain ⟨_, h⟩ := d₁.planView_releaseWhere Fld.unstored_commitSeq _
    exact (rowFlow_of_kept _ (kept_of_planView _ h)).trans rfl
  · exact h₁

theorem rowFlow_retireBodies (bs : List CBody) : (d.retireBodies bs).rowFlow = d.rowFlow := by
  unfold retireBodies
  refine d.rowFlow_ite rfl ?_
  extract_lets d₁ gone digests seg d₂
  have h₁ : d₁.rowFlow = d.rowFlow := by
    obtain ⟨_, _, h⟩ := d.releaseEntries_keeps Fld.unstored_commitSeq (bs.map (·.id))
    rw [List.foldl_map] at h
    exact (rowFlow_of_kept _ (kept_of_planView _ h)).trans rfl
  clear_value d₁
  exact (rowFlow_freeBatch _ _ _).trans h₁

theorem rowFlow_imageRecord (typ w0 w1 : Nat) (payload : List Nat) : (d.imageRecord typ w0 w1 payload).rowFlow = d.rowFlow := by
  have hsend : ∀ (d : Dev) (e : Nat) (b : List Nat), (d.mirrorSend e b).rowFlow = d.rowFlow := fun d e b => by
    unfold mirrorSend
    split <;> rfl
  refine d.rowFlow_ite rfl ?_
  unfold imageReport
  extract_lets body seq bs d₁
  have h₁ : d₁.rowFlow = d.rowFlow := by
    obtain ⟨r, x, h⟩ := d.report_eq 3 typ 0 body
    simp only [d₁, h]
    rfl
  exact (d₁.rowFlow_ite (d₁.rowFlow_foldl (fun d b => d.rowFlow_foldl (fun d e => hsend d e b) _) _) rfl).trans h₁

theorem rowFlow_recordRow (row : SkyRow) : (d.recordRow row).rowFlow = d.rowFlow := by
  unfold recordRow
  refine d.rowFlow_ite rfl ?_
  extract_lets w nb samples head d₁
  exact (rowFlow_imageRecord _ _ _ _ _).trans (d₁.rowFlow_ite rfl rfl)

/-! ### Contexts, crops and closes (R202, R208–R213) -/

theorem rowFlow_takeCtx : d.takeCtx.1.rowFlow = d.rowFlow := by
  unfold takeCtx
  split
  · exact d.rowFlow_ite rfl (rowFlow_raise _ _ _)
  · extract_lets g g' was seg d₁ warn
    exact (d₁.rowFlow_ite (d₁.rowFlow_raise _ _) rfl).trans rfl

theorem rowFlow_takeCrop (g : Nat) : (d.takeCrop g).1.rowFlow = d.rowFlow := by
  unfold takeCrop
  extract_lets size
  split
  · rfl
  split
  · exact d.rowFlow_ite rfl (rowFlow_raise _ _ _)
  · rfl

theorem rowFlow_cropRow (b : Body) (row : SkyRow) (runs : List (Nat × Nat)) : (d.cropRow b row runs).rowFlow = d.rowFlow := by
  unfold cropRow
  split
  · rfl
  · extract_lets
    exact d.rowFlow_ite rfl ((rowFlow_setBytes _ _ _).trans (d.rowFlow_setBytes _ _))

theorem rowFlow_closeBody (cfg : SegCfg) (k : Nat) (b : Body) : (d.closeBody cfg k b).rowFlow = d.rowFlow := by
  unfold closeBody
  extract_lets o d₁
  have h₁ : d₁.rowFlow = d.rowFlow := rfl
  clear_value o d₁
  split
  · exact h₁
  · exact (rowFlow_raise _ _ _).trans h₁
  · exact (rowFlow_raise _ _ _).trans h₁
  · exact (rowFlow_raise _ _ _).trans h₁
  · exact h₁

end Dev

/-! ### The labeller (R197–R201) -/

namespace Lab

variable (l : Lab)

theorem rowFlow_open (s e : Nat) (w c : Bool) : (l.open_ s e w c).1.d.rowFlow = l.d.rowFlow := by
  have h := l.d.rowFlow_takeCtx
  unfold open_
  generalize l.d.takeCtx = r at h
  obtain ⟨d', _ | id⟩ := r
  · exact h
  · have h' := d'.rowFlow_takeCrop l.row.group
    dsimp only
    generalize d'.takeCrop l.row.group = r' at h'
    exact h'.trans h

theorem rowFlow_countW : l.countW.d.rowFlow = l.d.rowFlow := Dev.rowFlow_raise _ _ _

theorem rowFlow_merge (into id : Nat) : (l.merge into id).d.rowFlow = l.d.rowFlow := by
  unfold merge
  split
  · rfl
  · split <;> rfl

theorem rowFlow_joinFirst (s e : Nat) (m : Member) : (l.joinFirst s e m).1.d.rowFlow = l.d.rowFlow := by
  cases m with
  | body id => rfl
  | split id =>
    unfold joinFirst
    dsimp only
    split
    · rfl
    · rfl
    · have h := l.rowFlow_open s e (l.flagW.contains id) true
      generalize l.open_ s e (l.flagW.contains id) true = r at h
      obtain ⟨l', _ | c⟩ := r <;> exact h

theorem rowFlow_join (x : Lab × Option Nat) (m : Member) : (join x m).1.d.rowFlow = x.1.d.rowFlow := by
  obtain ⟨l, t⟩ := x
  unfold join
  extract_lets
  split
  · rfl
  · exact l.rowFlow_merge _ _
  · split <;> rfl
  · split
    · exact l.rowFlow_merge _ _
    · rfl

/-- The owner of a run is noted in the labeller alone; opening and merging bodies touches no row. -/
theorem rowFlow_run (r : Nat × Nat) : (l.run r).d.rowFlow = l.d.rowFlow := by
  unfold run
  extract_lets s e c untracked finish flagged
  have hfin : ∀ (l : Lab) (o : Option Nat), (finish l o).d = l.d := by
    intro l o
    cases o <;> rfl
  have hflag : ∀ (l : Lab) (ms : List Member), (ms.foldl flag l).d.rowFlow = l.d.rowFlow := fun l ms => congrArg Dev.rowFlow (l.d_foldl_flag ms)
  clear_value finish c
  split
  · split
    · rw [hfin]
    · rw [hfin]
      exact l.rowFlow_open s e false false
  split
  · rw [hfin]
    exact (rowFlow_countW _).trans ((rowFlow_open _ _ _ _ _).trans (hflag l _))
  · next m ms _ =>
    have h := (foldl_keeps (fun x : Lab × Option Nat => x.1.d.rowFlow) (fun x m _ e => e ▸ rowFlow_join x m) ms (l.joinFirst s e m)).trans
      (l.rowFlow_joinFirst s e m)
    generalize ms.foldl join (l.joinFirst s e m) = x at h
    rw [hfin, ← h]
    split
    · rfl
    · refine (rowFlow_countW _).trans ?_
      split
      · exact hflag x.1 _
      · exact hflag x.1 _

end Lab

namespace Dev

variable (d : Dev)

/-! ### Rows and groups (R74, R195–R203) -/

theorem rowFlow_labelOnly (row : SkyRow) (fg : List Bool) (cfg : SegCfg) (below : List Bool) : (d.labelOnly row fg cfg below).rowFlow = d.rowFlow := by
  unfold labelOnly
  extract_lets g k x prevK above mask d₁ seg d₂ runs link l done mine live d₃ tall d₄ closing d₅ group
  have h₂ : d₂.rowFlow = d.rowFlow := d₁.rowFlow_ite rfl rfl
  have hl : l.d.rowFlow = d.rowFlow := (foldl_keeps (fun l : Lab => l.d.rowFlow) (fun l r _ e => e ▸ l.rowFlow_run r) runs _).trans h₂
  have h₃ : d₃.rowFlow = l.d.rowFlow := l.d.rowFlow_foldl (fun d b => d.rowFlow_ite (d.rowFlow_cropRow _ _ _) rfl) live
  have h₄ : d₄.rowFlow = d₃.rowFlow := d₃.rowFlow_foldl (fun d _ => (rowFlow_raise _ _ _).trans (d.rowFlow_count _ _)) _
  have h₅ : d₅.rowFlow = d₄.rowFlow := d₄.rowFlow_foldl (fun d b => d.rowFlow_closeBody _ _ _) closing
  refine Eq.trans (d₅.rowFlow_setSegGroup g _ ?_) (h₅.trans (h₄.trans (h₃.trans hl)))
  rfl

theorem rowFlow_labelRow (row : SkyRow) (fg : List Bool) (cfg : SegCfg) (below : List Bool) : (d.labelRow row fg cfg below).rowFlow = d.rowFlow :=
  (rowFlow_rowBatch _).trans (d.rowFlow_labelOnly row fg cfg below)

theorem rowFlow_truncGroup (g : Nat) : (d.truncGroup g).1.rowFlow = d.rowFlow := by
  unfold truncGroup
  extract_lets x k bs cfg d₁
  have h₁ : d₁.rowFlow = d.rowFlow := d.rowFlow_foldl (fun d b => d.rowFlow_closeBody _ _ _) bs
  refine (rowFlow_rowBatch _).trans (Eq.trans (d₁.rowFlow_setSegGroup g _ ?_) h₁)
  rfl

theorem rowFlow_endGroup (g : Nat) : (d.endGroup g).rowFlow = d.rowFlow := by
  have h := d.rowFlow_truncGroup g
  unfold endGroup
  generalize d.truncGroup g = r at h
  dsimp only
  split
  · exact h
  · exact h

/-- The device once what the row's predecessors led to is finished (R203, R207, R227, R447). -/
def rowReady (d : Dev) (row : SkyRow) : Dev :=
  (((List.range 8).foldl (fun d l => d.upperExpiry l) d.commitClosed).retireBefore (row.stamp / 65536)).recordRow row

/-- And the row has joined the rows of its group. -/
def rowJoined (d : Dev) (row : SkyRow) : Dev :=
  let x := (d.rowReady row).segGroup row.group
  (d.rowReady row).setSegGroup row.group { x with rows := ((row.index, row.stamp) :: x.rows).take 8192 }

theorem rowFlow_rowReady (row : SkyRow) : (d.rowReady row).rowFlow = d.rowFlow := by
  have hcommit : d.commitClosed.rowFlow = d.rowFlow := d.rowFlow_foldl (fun d _ => d.rowFlow_bodyCommit) _
  exact (rowFlow_recordRow _ row).trans ((rowFlow_retireBodies _ _).trans ((rowFlow_foldl _ (fun d g => d.rowFlow_upperExpiry g) _).trans hcommit))

/-- The row that waited is labelled with the new one below it; the new one then waits, or is labelled too (R195, R218). -/
theorem rowFlow_takeRow (row : SkyRow) : (d.takeRow row).rowFlow = (d.rowJoined row).rowFlow := by
  unfold takeRow
  extract_lets g d₁ d₂ d₃ x d₄
  change _ = d₄.rowFlow
  clear_value d₄
  refine d₄.rowFlow_ite rfl ?_
  have hfg : (d₄.foreground row).1.rowFlow = d₄.rowFlow := rfl
  generalize d₄.foreground row = r at hfg
  obtain ⟨d₅, fg⟩ := r
  dsimp -zeta only
  extract_lets d₆ y d₇ cfg
  have h₆ : d₆.rowFlow = d₄.rowFlow := hfg
  have h₇ : d₇.rowFlow = d₆.rowFlow := by
    simp only [d₇]
    split
    · exact (rowFlow_labelRow _ _ _ _ _).trans (d₆.rowFlow_setSegGroup g _ rfl)
    · rfl
  clear_value d₇
  rw [← h₆, ← h₇]
  refine d₇.rowFlow_ite ?_ (d₇.rowFlow_ite (d₇.rowFlow_labelRow _ _ _ _) (d₇.rowFlow_setSegGroup g _ rfl))
  exact (rowFlow_drainStore _).trans ((rowFlow_endGroup _ g).trans (d₇.rowFlow_labelOnly _ _ _ _))

theorem takeRow_joins (row : SkyRow) : (d.takeRow row).skyOut = d.skyOut ∧
    ((d.takeRow row).segGroup row.group).rows.head? = some (row.index, row.stamp) := by
  have h := d.rowFlow_takeRow row
  have hready : (d.rowReady row).skyOut = d.skyOut := skyOut_of_rowFlow d (d.rowFlow_rowReady row)
  have hjoined : (d.rowJoined row).skyOut = (d.rowReady row).skyOut := skyOut_setSegGroup _ _ _
  refine ⟨(skyOut_of_rowFlow (d.rowJoined row) h).trans (hjoined.trans hready), ?_⟩
  rw [rows_of_rowFlow (d.rowJoined row) h, rowJoined, segGroup_setSegGroup]
  rfl

theorem rowLabel_next {row : SkyRow} {rest : List SkyRow} (h : d.skyOut = row :: rest) :
    d.rowLabel.skyOut = rest ∧ (d.rowLabel.segGroup row.group).rows.head? = some (row.index, row.stamp) := by
  rw [rowLabel, h]
  exact takeRow_joins _ row

end Dev

theorem rowLabel_completes {s : State} {row : SkyRow} {rest : List SkyRow} (h : s.dev.skyOut = row :: rest) : Completes .rowLabel s (fun d =>
    d.skyOut = rest ∧ (d.segGroup row.group).rows.head? = some (row.index, row.stamp)) :=
  completes_of_run (u := (·.rowLabel)) rfl (s.dev.rowLabel_next h)

/-- Settles O40: each clause is the lemma of its command. -/
theorem bodiesAndStore : Obligations.BodiesAndStore := fun _ =>
  ⟨fun _ _ => rowLabel_completes, fun _ _ _ => bodyCommit_completes, fun _ _ _ => bodyRetire_completes,
    fun _ ht => ⟨ctxLowClr_completes ht, ctxLowClr_completes_unset ht⟩,
    fun _ _ _ _ hdue hc hr hl ho hv => hv ▸ upperEntryExpiry_completes hdue hc hr hl ho,
    fun _ _ _ hu hgu hs hr hp => trajRoleChange_completes hu hgu hs hr hp,
    fun _ ht => ⟨storePeakClr_completes ht, storePeakClr_completes_unset ht⟩⟩

end Sys2Proof.Machine
end

section
/-! PROOF. O41, the dispatcher. A body is known by its ID: what dispatch does to it is read from the first body of that ID, and the counters of page DISP
that the statement names share no place with the counters of the groups, whatever their number. -/

namespace Sys2Proof.Machine

/-- What comes first in the order of R215 is one of those given. -/
theorem Dev.earliest_mem {l : List CBody} {b : CBody} (h : Dev.earliest l = some b) : b ∈ l := by
  induction l generalizing b with
  | nil => exact absurd h (by simp [Dev.earliest])
  | cons c l ih =>
    simp only [Dev.earliest] at h
    split at h
    · exact List.mem_cons.mpr (.inl (Option.some.inj h).symm)
    · next x hx =>
      split at h
      · exact List.mem_cons_of_mem _ (Option.some.inj h ▸ ih hx)
      · exact List.mem_cons.mpr (.inl (Option.some.inj h).symm)

namespace Dev

variable (d : Dev) {f : Fld}

/-! ### Engines -/

@[simp] theorem eng_setEng (e : Nat) (x : Eng) : (d.setEng e x).eng e = x := Sparse.get_set_self _ _ _ _

theorem eng_of_engines {d e : Dev} (h : e.engines = d.engines) (n : Nat) : e.eng n = d.eng n := by rw [eng, h, eng]

/-- What shows an engine writes three fields of its page. -/
theorem keepsRegs_engShow (e : Nat) : KeepsRegs d (d.engShow e) [F.ENG_STAT_RUN e, F.ENG_STAT_FETCHED e, F.ENG_BODY_BODY_ID e] := fun g hg => by
  obtain ⟨hrun, hfetched, hid⟩ : g.key ≠ (F.ENG_STAT_RUN e).key ∧ g.key ≠ (F.ENG_STAT_FETCHED e).key ∧ g.key ≠ (F.ENG_BODY_BODY_ID e).key := by
    simpa using hg
  exact (get_set_ne _ _ hid).trans ((get_put_ne _ _ hfetched).trans (get_put_ne _ _ hrun))

/-- The engine runs a body as it shows. -/
theorem run_engShow (e : Nat) : (d.engShow e).bit (F.ENG_STAT_RUN e) = (d.eng e).body.isSome := by
  have hget : (d.engShow e).get (F.ENG_STAT_RUN e) = (d.put (F.ENG_STAT_RUN e) (d.eng e).body.isSome).get (F.ENG_STAT_RUN e) :=
    (get_set_ne _ _ (by simp only [Fld.key, bar0]; omega)).trans (get_put_ne _ _ (by simp only [Fld.key]; omega))
  rw [bit, hget, ← bit, bit_put_self _ _ rfl]

/-! ### Committed bodies -/

theorem bodyOf_of_seg {d e : Dev} (h : e.seg = d.seg) (id : Nat) : e.bodyOf id = d.bodyOf id := by rw [bodyOf, h, bodyOf]

theorem bodyOf_of_mem {b : CBody} (h : b ∈ d.seg.bodies) : ∃ c, d.bodyOf b.id = some c := by
  cases hc : d.bodyOf b.id with
  | some c => exact ⟨c, rfl⟩
  | none => exact absurd (List.find?_eq_none.mp hc b h) (by simp)

/-- A change of the body of an ID that leaves IDs alone is what that ID then finds. -/
theorem bodyOf_updBody (id : Nat) (u : CBody → CBody) (hu : ∀ c, (u c).id = c.id) : (d.updBody id u).bodyOf id = (d.bodyOf id).map u := by
  have hid : (fun c : CBody => decide (c.id = id)) ∘ (fun c => if c.id = id then u c else c) = fun c => decide (c.id = id) := by
    funext c
    simp only [Function.comp_apply]
    split
    · rw [hu]
    · rfl
  rw [bodyOf, updBody, List.find?_map, hid, bodyOf]
  cases hc : d.seg.bodies.find? (fun c => decide (c.id = id)) with
  | none => rfl
  | some c =>
    have : c.id = id := by simpa using List.find?_some hc
    simp [this]

/-- Where the body of an ID stands. -/
def placeOf (d : Dev) (id : Nat) : Option Place := (d.bodyOf id).map (·.place)

theorem placeOf_of_seg {d e : Dev} (h : e.seg = d.seg) (id : Nat) : e.placeOf id = d.placeOf id := by rw [placeOf, bodyOf_of_seg h, placeOf]

theorem placeOf_updBody {b : CBody} (h : b ∈ d.seg.bodies) (u : CBody → CBody) (p : Place) (hu : ∀ c, (u c).id = c.id ∧ (u c).place = p) :
    (d.updBody b.id u).placeOf b.id = some p := by
  obtain ⟨c, hc⟩ := d.bodyOf_of_mem h
  rw [placeOf, bodyOf_updBody _ _ _ fun c => (hu c).1, hc]
  exact congrArg some (hu c).2

theorem placeOf_setPlace {b : CBody} (h : b ∈ d.seg.bodies) (p : Place) : (d.setPlace b.id p).placeOf b.id = some p :=
  d.placeOf_updBody h _ p fun _ => ⟨rfl, rfl⟩

/-- A body whose verdict passes to the planner is resolved (R252). -/
theorem placeOf_pass {b : CBody} (h : b ∈ d.seg.bodies) (v : Verdict) (replaced : Bool) : (d.pass b.id v replaced).placeOf b.id = some .resolved :=
  d.placeOf_updBody h _ .resolved fun _ => ⟨rfl, rfl⟩

/-! ### Default verdicts (R251, R253) -/

theorem unrecorded_countCause (g cause : Nat) : (d.countCause g cause).unrecorded = d.unrecorded := by
  simp [countCause, unrecorded_ite]

/-- The Twilight rule passes a verdict, on a device where at most PLAN has counted. -/
theorem twilightPass_eq (b : CBody) (cause : Nat) (replaced : Bool) :
    ∃ (e : Dev) (v : Verdict), d.twilightPass b cause replaced = e.pass b.id v replaced ∧ e.seg = d.seg ∧ e.cmd = d.cmd :=
  ⟨_, _, rfl, (apply_ite Dev.seg _ _ _).trans (ite_self _), (apply_ite Dev.cmd _ _ _).trans (ite_self _)⟩

theorem placeOf_twilightPass {b : CBody} (h : b ∈ d.seg.bodies) (cause : Nat) (replaced : Bool) :
    (d.twilightPass b cause replaced).placeOf b.id = some .resolved := by
  obtain ⟨e, v, heq, hseg, -⟩ := d.twilightPass_eq b cause replaced
  rw [heq, placeOf_pass _ (hseg ▸ h)]

theorem seg_merSend (typ hi units : Nat) (pl : List Nat) : (d.merSend typ hi units pl).seg = d.seg := by
  obtain ⟨m, o, h⟩ := d.merSend_eq typ hi units pl
  rw [h]

/-- R253: a default verdict resolves its body. -/
theorem placeOf_defaultVerdict {b : CBody} (h : b ∈ d.seg.bodies) (cause : Nat) : (d.defaultVerdict b cause).placeOf b.id = some .resolved := by
  unfold defaultVerdict
  extract_lets replaced d₁ d₂
  have h₁ : b ∈ d₁.seg.bodies := (show d₁.seg = d.seg from seg_of_unrecorded ((unrecorded_count _ _ _).trans (d.unrecorded_countCause _ _))) ▸ h
  have h₂ : d₂.placeOf b.id = some .resolved := iteInduction (motive := fun e : Dev => e.placeOf b.id = some .resolved)
    (fun _ => d₁.placeOf_twilightPass h₁ _ _) fun _ => d₁.placeOf_pass h₁ _ _
  clear_value d₂
  exact (placeOf_of_seg ((apply_ite Dev.seg _ _ _).trans (by rw [seg_merSend, ite_self])) _).trans h₂

/-- A counter of page DISP is no record of an event. -/
theorem calm_disp {o : Nat} (h₀ : 0x40 ≤ o) (h₁ : o < 0x1_0000) : (⟨bar0 0x39 o, 0, 32, 0⟩ : Fld).calm = true :=
  Fld.calm_of_plain (Fld.plain_page _ _ _ _ _ h₀ h₁ (by decide) (by decide) (by decide) (by decide))

/-- Of a counter of page DISP that is no group's, a default verdict counts its cause alone. -/
theorem get_defaultVerdict {o : Nat} (h₀ : 0x40 ≤ o) (h₁ : o < 0x1_0000) (h₂ : o % 0x10 < 8) (b : CBody) (cause : Nat) :
    (d.defaultVerdict b cause).get ⟨bar0 0x39 o, 0, 32, 0⟩ = (d.count (F.DISP_CNT_CAUSE_COUNT (cause - 1))).get ⟨bar0 0x39 o, 0, 32, 0⟩ := by
  have hcause : (d.countCause b.group cause).get ⟨bar0 0x39 o, 0, 32, 0⟩
      = (d.count (F.DISP_CNT_CAUSE_COUNT (cause - 1))).get ⟨bar0 0x39 o, 0, 32, 0⟩ := by
    have hmiss : ∀ e : Dev, (e.count (F.DISP_GRP_MISS_COUNT b.group)).get ⟨bar0 0x39 o, 0, 32, 0⟩ = e.get ⟨bar0 0x39 o, 0, 32, 0⟩ := fun e =>
      get_count_ne e 1 (by simp only [Fld.key, bar0]; omega)
    rw [countCause, get_ite, get_raise _ _ _ (calm_disp h₀ h₁), hmiss, ite_self]
  unfold defaultVerdict
  extract_lets replaced d₁ d₂
  have hd₁ : d₁.get ⟨bar0 0x39 o, 0, 32, 0⟩ = (d.countCause b.group cause).get ⟨bar0 0x39 o, 0, 32, 0⟩ :=
    get_count_ne _ _ (by simp only [Fld.key, bar0]; omega)
  have hd₂ : d₂.get ⟨bar0 0x39 o, 0, 32, 0⟩ = d₁.get ⟨bar0 0x39 o, 0, 32, 0⟩ := by rw [get_ite, get_twilightPass, get_pass, ite_self]
  rw [get_ite, get_merSend, ite_self, hd₂, hd₁, hcause]

/-! ### Taking a body (R250) -/

theorem mem_of_nextTake {d : Dev} {e : Nat} {b : CBody} (h : d.nextTake = some (e, b)) : b ∈ d.seg.bodies := by
  obtain ⟨n, -, hn⟩ := List.exists_of_findSome?_eq_some h
  split at hn
  · obtain ⟨c, hc, hcb⟩ := Option.map_eq_some_iff.mp hn
    obtain ⟨-, rfl⟩ : n = e ∧ c = b := by simpa using hcb
    exact (List.mem_filter.mp (List.mem_filter.mp (earliest_mem hc)).1).1
  · exact absurd hn (by simp)

/-- The engine with the body given to it. -/
def given (d : Dev) (e id : Nat) : Dev := (d.setEng e { d.eng e with fetched := some id, ready := false }).engShow e

theorem dispatchTake_gives {e : Nat} {b : CBody} (hd : d.dispatching = true) (ht : d.nextTake = some (e, b))
    (hrun : d.graced b = true ∨ (b.minRun * 1000 : Int) ≤ d.toDeadline b) :
    d.dispatchTake = ((d.given e b.id).setPlace b.id (.fetched e)).count F.DISP_CNT_TAKEN_COUNT := by
  have hlate : ¬((!d.graced b) = true ∧ d.toDeadline b < b.minRun * 1000) := by
    rintro ⟨hg, hl⟩
    rcases hrun with hr | hr
    · simp [hr] at hg
    · omega
  simp only [dispatchTake, hd, Bool.not_true, Bool.false_eq_true, if_false, ht, if_neg hlate]
  rfl

theorem dispatchTake_resolves {e : Nat} {b : CBody} (hd : d.dispatching = true) (ht : d.nextTake = some (e, b)) (hg : d.graced b = false)
    (hl : d.toDeadline b < b.minRun * 1000) : d.dispatchTake = d.defaultVerdict b 2 := by
  simp only [dispatchTake, hd, Bool.not_true, Bool.false_eq_true, if_false, ht, hg, Bool.not_false, true_and, if_pos hl]

/-- A counter of page DISP that no change of level writes outlasts whatever such a change does to the engines. -/
theorem levelKeeps_disp {o : Nat} (h₀ : 0x40 ≤ o) (h₁ : o < 0x1_0000) (h₂ : o % 0x10 ≠ 12) (h₃ : o ≠ 0x100) (x : Nat) :
    LevelKeeps (fun e => e.get ⟨bar0 0x39 o, 0, 32, 0⟩ = x) :=
  ⟨fun v hg h => (get_set_ne _ v (by rcases hg with hg | hg | hg | ⟨n, hg⟩ <;> simp only [Fld.key, bar0] at * <;> omega)).trans h,
    fun p b h => (get_raise _ p b (calm_disp h₀ h₁)).trans h, fun h he => (he _).trans h⟩

/-! ### Windows and starts (R245, R272) -/

/-- A body runs, so no other starts. -/
theorem startBody_running {e : Nat} (h : (d.eng e).body.isSome = true) : d.startBody e = d := by
  obtain ⟨id, hid⟩ := Option.isSome_iff_exists.mp h
  simp only [startBody, hid]

/-- The engine with the window of its fetched body complete. -/
def windowed (d : Dev) (e : Nat) (b : CBody) : Eng :=
  { d.eng e with mem := d.fillWindow (d.eng e).mem (winBase (1 - (d.eng e).window)) b, ready := true }

theorem bodyFetchDone_eq {e id : Nat} {b : CBody} (hf : (d.eng e).fetched = some id) (hb : d.bodyOf id = some b) (hr : (d.eng e).ready = false) :
    d.bodyFetchDone e = (d.setEng e (d.windowed e b)).startBody e := by
  simp only [bodyFetchDone, hf, hb, hr, Bool.false_eq_true, if_false, windowed]

/-- The engine as body `b` starts on it, its window just complete. -/
def started (d : Dev) (e : Nat) (b : CBody) : Eng :=
  let x := d.windowed e b
  { x with mem := clearCells x.mem 0x5_0000 0x1_0000, s := Sparse.set (Sparse.set [] 0 1 (winBase (1 - x.window))) 0 2 b.group, v := [], p := [],
           pc := match x.img with | some i => i.entry | none => 0, retired := 0, limit := b.runLimit, body := some b.id,
           window := 1 - x.window, fetched := none, ready := false, cyc := 0, cycAt := d.time.c }

/-- R272: with no body running, the body whose window completes starts. -/
theorem bodyFetchDone_starts {e : Nat} {b : CBody} (hf : (d.eng e).fetched = some b.id) (hb : d.bodyOf b.id = some b) (hr : (d.eng e).ready = false)
    (hbody : (d.eng e).body = none) (ht : d.inTime b.id = true) :
    d.bodyFetchDone e = ((d.setEng e (d.windowed e b)).setEng e (d.started e b)).engShow e := by
  have hb' : (d.setEng e (d.windowed e b)).bodyOf b.id = some b := hb
  have ht' : (d.setEng e (d.windowed e b)).inTime b.id = true := ht
  have hbody' : (d.windowed e b).body = none := hbody
  have hf' : (d.windowed e b).fetched = some b.id := hf
  have hr' : (d.windowed e b).ready = true := rfl
  rw [bodyFetchDone_eq d hf hb hr]
  simp only [startBody, eng_setEng, hbody', hf', hr', hb', ht', Bool.not_true, Bool.or_self, Bool.false_eq_true, if_false]
  rfl

theorem id_of_bodyOf {d : Dev} {id : Nat} {b : CBody} (h : d.bodyOf id = some b) : b.id = id := by simpa using List.find?_some h

/-- The scalar registers of a body that starts: its window in s1, its group in s2 (R272). -/
theorem sReg_started (e : Nat) (b : CBody) (j : Nat) :
    (d.started e b).sReg j = if j = 1 then winBase (1 - (d.eng e).window) else if j = 2 then b.group % 2 ^ 64 else 0 := by
  have hwin : winBase (1 - (d.eng e).window) % 2 ^ 64 = winBase (1 - (d.eng e).window) := by
    unfold winBase
    split <;> rfl
  have hs : (d.started e b).s = Sparse.set (Sparse.set [] 0 1 (winBase (1 - (d.eng e).window))) 0 2 b.group := rfl
  rw [Eng.sReg, hs]
  by_cases h₂ : j = 2
  · subst h₂
    rw [Sparse.get_set_self]
    rfl
  rw [Sparse.get_set_ne _ _ _ _ h₂, if_neg h₂]
  by_cases h₁ : j = 1
  · subst h₁
    rw [Sparse.get_set_self, if_pos rfl, if_neg one_ne_zero, hwin]
  · rw [Sparse.get_set_ne _ _ _ _ h₁, if_neg h₁]
    exact ite_self 0

/-! ### Deadlines (R251, R257) -/

theorem seg_startBody (e : Nat) : (d.startBody e).seg = d.seg := by
  obtain h | ⟨x, h⟩ := startBody_cases d e
  · rw [h]
  · rw [h]; rfl

theorem seg_endBody (e : Nat) : (d.endBody e).seg = d.seg := by
  unfold endBody
  extract_lets x cycles d₁ d₂
  have h₂ : d₂.seg = d.seg := rfl
  clear_value d₂
  rw [apply_ite Dev.seg, seg_startBody, put_seg, ite_self, h₂]

theorem seg_takeOff (e id : Nat) : (d.takeOff e id).1.seg = d.seg := by
  unfold takeOff
  extract_lets x
  split
  · exact seg_endBody d e
  · split <;> rfl

theorem LevelKeeps.takeOff {P : Dev → Prop} (hP : LevelKeeps P) {d : Dev} (e id : Nat) (h : P d) : P (d.takeOff e id).1 := by
  unfold Dev.takeOff
  extract_lets x
  split
  · exact hP.endBody e h
  · split
    · exact hP.engShow_setEng e _ h
    · exact h

/-- A body that is late resolves by default, for one of the two causes, on a device whose bodies and counters of page DISP are as they were (R251). -/
theorem resolveLate_eq {b : CBody} (h : b.place ≠ .resolved) (running waiting : Nat) :
    ∃ (e : Dev) (cause : Nat), d.resolveLate b running waiting = e.defaultVerdict b cause ∧ (cause = running ∨ cause = waiting) ∧ e.seg = d.seg
      ∧ ∀ P, LevelKeeps P → P d → P e := by
  unfold resolveLate
  split
  · next hp => exact absurd hp h
  · exact ⟨d, waiting, rfl, .inr rfl, rfl, fun _ _ hd => hd⟩
  · next n _ =>
    extract_lets d₁
    have hseg := seg_takeOff d₁ n b.id
    have hkeep : ∀ P, LevelKeeps P → P d → P (d₁.takeOff n b.id).1 := fun P hP hd =>
      hP.takeOff n b.id (hP.setPage _ (Nat.le_add_right _ _) hd)
    have h₁ : d₁.seg = d.seg := rfl
    clear_value d₁
    generalize d₁.takeOff n b.id = r at hseg hkeep
    obtain ⟨d₂, ran⟩ := r
    refine ⟨d₂, if ran then running else waiting, rfl, ?_, hseg.trans h₁, hkeep⟩
    cases ran
    · exact .inr rfl
    · exact .inl rfl

theorem placeOf_resolveLate {b : CBody} (hb : b ∈ d.seg.bodies) (h : b.place ≠ .resolved) (running waiting : Nat) :
    (d.resolveLate b running waiting).placeOf b.id = some .resolved := by
  obtain ⟨e, cause, heq, -, hseg, -⟩ := d.resolveLate_eq h running waiting
  rw [heq, placeOf_defaultVerdict _ (hseg ▸ hb)]

theorem placeOf_expireBody {b : CBody} (hb : b ∈ d.seg.bodies) (h : b.place ≠ .resolved) : (d.expireBody b).placeOf b.id = some .resolved := by
  unfold expireBody
  split
  · rw [placeOf_of_seg (seg_of_unrecorded (unrecorded_raise _ _ _)), placeOf_of_seg (count_seg _ _ _), placeOf_resolveLate d hb h]
  · exact placeOf_resolveLate d hb h 1 2

/-- R257: what a shadow resolves after GRACE is a divergence. -/
theorem expireBody_diverges {b : CBody} (h : b.place ≠ .resolved) (hg : d.graced b = true) (ht : b.taken = false) :
    (d.expireBody b).get F.DISP_CNT_DIVERGED_COUNT = (d.get F.DISP_CNT_DIVERGED_COUNT + 1) % 2 ^ 32
      ∧ (d.expireBody b).testBit (F.BLK_IRQ_RAW dispPage) 7 = true := by
  obtain ⟨e, cause, heq, hcause, -, hkeep⟩ := d.resolveLate_eq h 6 6
  obtain rfl : cause = 6 := by tauto
  have hdiv : (d.resolveLate b 6 6).get F.DISP_CNT_DIVERGED_COUNT = d.get F.DISP_CNT_DIVERGED_COUNT := by
    rw [heq, get_defaultVerdict _ (by decide) (by decide) (by decide), get_count_ne _ _ (by decide)]
    exact hkeep _ (levelKeeps_disp (by decide) (by decide) (by decide) (by decide) _) rfl
  have hexp : d.expireBody b = ((d.resolveLate b 6 6).count F.DISP_CNT_DIVERGED_COUNT).raise dispPage 7 := by simp [expireBody, hg, ht]
  rw [hexp]
  exact ⟨by rw [get_raise _ _ _ (calm_disp (by decide) (by decide)), get_count_self, hdiv], raise_raw _ _ _ (by decide)⟩

/-! ### Points (R261) -/

theorem wantedPoint_lt (e : Nat) : d.wantedPoint e < 4 := by
  unfold wantedPoint
  split
  · decide
  · omega

theorem engPointChange_eq {e : Nat} {rest : List Nat} (hw : d.engines.ptWait = e :: rest) (hs : ∀ t, d.engines.ptAt = some t → 2000 ≤ d.elapsed t) :
    d.engPointChange = ({ d with engines := { d.engines with ptWait := rest, ptAt := some d.time.c } } : Dev).setPoint e (d.wantedPoint e) := by
  cases ht : d.engines.ptAt with
  | none =>
    simp only [engPointChange, hw, ht]
    rfl
  | some t =>
    simp only [engPointChange, hw, ht, decide_eq_true (hs t ht)]
    rfl

theorem engPointChange_waits {t : Nat} (ht : d.engines.ptAt = some t) (hs : d.elapsed t < 2000) : d.engPointChange = d := by
  have hspaced : decide (2000 ≤ d.elapsed t) = false := decide_eq_false (by omega)
  simp only [engPointChange, ht, hspaced]
  split <;> rfl

end Dev

/-! ### The commands complete -/

section Commands

variable {s : State}

theorem dispatchTake_completes {e : Nat} {b : CBody} (hd : s.dev.dispatching = true) (ht : s.dev.nextTake = some (e, b))
    (hrun : s.dev.graced b = true ∨ (b.minRun * 1000 : Int) ≤ s.dev.toDeadline b) :
    Completes .dispatchTake s (fun d => (d.eng e).fetched = some b.id ∧ (d.bodyOf b.id).map (·.place) = some (.fetched e)
      ∧ d.get F.DISP_CNT_TAKEN_COUNT = (s.dev.get F.DISP_CNT_TAKEN_COUNT + 1) % 2 ^ 32) := by
  have hgiven : (s.dev.given e b.id).get F.DISP_CNT_TAKEN_COUNT = s.dev.get F.DISP_CNT_TAKEN_COUNT :=
    (Dev.levelKeeps_disp (by decide) (by decide) (by decide) (by decide) _).engShow_setEng e _ rfl
  refine completes_of_eq (u := (·.dispatchTake)) rfl (s.dev.dispatchTake_gives hd ht hrun) ⟨?_, ?_, ?_⟩
  · exact congrArg Eng.fetched (s.dev.eng_setEng e { s.dev.eng e with fetched := some b.id, ready := false })
  · exact (s.dev.given e b.id).placeOf_setPlace (b := b) (Dev.mem_of_nextTake (d := s.dev) ht) (.fetched e)
  · rw [Dev.get_canon, Dev.get_count_self, Dev.setPlace, Dev.get_updBody, hgiven]

theorem dispatchTake_completes_late {e : Nat} {b : CBody} (hd : s.dev.dispatching = true) (ht : s.dev.nextTake = some (e, b))
    (hg : s.dev.graced b = false) (hl : s.dev.toDeadline b < b.minRun * 1000) :
    Completes .dispatchTake s (fun d => (d.bodyOf b.id).map (·.place) = some .resolved
      ∧ d.get (F.DISP_CNT_CAUSE_COUNT 1) = (s.dev.get (F.DISP_CNT_CAUSE_COUNT 1) + 1) % 2 ^ 32) := by
  refine completes_of_eq (u := (·.dispatchTake)) rfl (s.dev.dispatchTake_resolves hd ht hg hl) ⟨?_, ?_⟩
  · exact s.dev.placeOf_defaultVerdict (Dev.mem_of_nextTake ht) 2
  · exact (Dev.get_canon _ _).trans ((s.dev.get_defaultVerdict (by decide) (by decide) (by decide) b 2).trans (Dev.get_count_self _ _ _))

section Fetched

variable {e id : Nat} {b : CBody} (hf : (s.dev.eng e).fetched = some id) (hb : s.dev.bodyOf id = some b) (hr : (s.dev.eng e).ready = false)
include hf hb hr

theorem bodyFetchDone_completes_running (h : (s.dev.eng e).body.isSome = true) : Completes (.bodyFetchDone e) s (fun d => d.eng e = { s.dev.eng e with
    mem := s.dev.fillWindow (s.dev.eng e).mem (winBase (1 - (s.dev.eng e).window)) b, ready := true } ∧ KeepsRegs s.dev d [] ∧ KeepsMemory s.dev d) := by
  have hrun : (s.dev.setEng e (s.dev.windowed e b)).startBody e = s.dev.setEng e (s.dev.windowed e b) :=
    Dev.startBody_running _ (by rw [Dev.eng_setEng]; exact h)
  exact completes_of_eq (u := (·.bodyFetchDone e)) rfl ((s.dev.bodyFetchDone_eq hf hb hr).trans hrun)
    ⟨s.dev.eng_setEng e _, Dev.keepsRegs_canon fun _ _ => rfl, Dev.keepsMemory_canon rfl rfl rfl rfl⟩

theorem bodyFetchDone_completes_starting (h : (s.dev.eng e).body = none) (ht : s.dev.inTime id = true) :
    Completes (.bodyFetchDone e) s (fun d => (d.eng e).body = some id ∧ (d.eng e).fetched = none
      ∧ (d.eng e).retired = 0 ∧ (d.eng e).window = 1 - (s.dev.eng e).window ∧ (∀ i, (s.dev.eng e).img = some i → (d.eng e).pc = i.entry)
      ∧ (∀ j, (d.eng e).sReg j = if j = 1 then winBase (1 - (s.dev.eng e).window) else if j = 2 then b.group % 2 ^ 64 else 0)
      ∧ (∀ j, (d.eng e).vReg j = 0) ∧ (∀ j, (d.eng e).pReg j = if j = 0 then 2 ^ 64 - 1 else 0)
      ∧ d.bit (F.ENG_STAT_RUN e) = true ∧ KeepsRegs s.dev d [F.ENG_STAT_RUN e, F.ENG_STAT_FETCHED e, F.ENG_BODY_BODY_ID e] ∧ KeepsMemory s.dev d) := by
  obtain rfl := Dev.id_of_bodyOf hb
  have heng : ((s.dev.setEng e (s.dev.windowed e b)).setEng e (s.dev.started e b)).eng e = s.dev.started e b := Dev.eng_setEng _ e _
  have hregs := ((s.dev.setEng e (s.dev.windowed e b)).setEng e (s.dev.started e b)).keepsRegs_engShow e
  have hrun := ((s.dev.setEng e (s.dev.windowed e b)).setEng e (s.dev.started e b)).run_engShow e
  have hcanon : (((s.dev.setEng e (s.dev.windowed e b)).setEng e (s.dev.started e b)).engShow e).canon.eng e = s.dev.started e b := heng
  have hpc : ∀ i, (s.dev.eng e).img = some i → (s.dev.started e b).pc = i.entry := fun i hi => by
    have hmatch : (s.dev.started e b).pc = match (s.dev.eng e).img with | some i => i.entry | none => 0 := rfl
    rw [hmatch, hi]
  refine completes_of_eq (u := (·.bodyFetchDone e)) rfl (s.dev.bodyFetchDone_starts hf hb hr h ht) ?_
  rw [hcanon]
  exact ⟨rfl, rfl, rfl, rfl, hpc, s.dev.sReg_started e b, fun _ => rfl, fun _ => rfl, by rw [Dev.bit_canon, hrun, heng]; rfl,
    Dev.keepsRegs_canon hregs, Dev.keepsMemory_canon rfl rfl rfl rfl⟩

end Fetched

theorem bodyDeadline_completes {b : CBody} (h : Dev.earliest (s.dev.seg.bodies.filter (fun b => b.place ≠ .resolved && !s.dev.graced b
    && decide (s.dev.toDeadline b < 0))) = some b) : Completes .bodyDeadline s (fun d => (d.bodyOf b.id).map (·.place) = some .resolved) := by
  obtain ⟨hmem, hp⟩ := List.mem_filter.mp (Dev.earliest_mem h)
  obtain ⟨⟨hres, -⟩, -⟩ : (b.place ≠ .resolved ∧ _) ∧ _ := by simpa only [Bool.and_eq_true, decide_eq_true_eq] using hp
  have hlist : s.dev.seg.bodies.filter (fun b => b.place ≠ .resolved && !s.dev.graced b && s.dev.pastDeadline b)
      = s.dev.seg.bodies.filter (fun b => b.place ≠ .resolved && !s.dev.graced b && decide (s.dev.toDeadline b < 0)) :=
    List.filter_congr fun c _ => by
      cases hg : s.dev.graced c
      · simp [Dev.pastDeadline, hg]
      · simp
  have heq : s.dev.bodyDeadline = s.dev.expireBody b := by rw [Dev.bodyDeadline, hlist, h]
  exact completes_of_eq (u := (·.bodyDeadline)) rfl heq (s.dev.placeOf_expireBody hmem hres)

theorem graceExpiry_completes {b : CBody} (h : Dev.earliest (s.dev.seg.bodies.filter (fun b => b.place ≠ .resolved && s.dev.graced b
    && decide (s.dev.toDeadline b < -(b.grace * 1000 : Nat)))) = some b) : Completes .graceExpiry s (fun d =>
      (d.bodyOf b.id).map (·.place) = some .resolved ∧ (b.taken = false →
        d.get F.DISP_CNT_DIVERGED_COUNT = (s.dev.get F.DISP_CNT_DIVERGED_COUNT + 1) % 2 ^ 32 ∧ d.testBit (F.BLK_IRQ_RAW dispPage) 7 = true)) := by
  obtain ⟨hmem, hp⟩ := List.mem_filter.mp (Dev.earliest_mem h)
  obtain ⟨⟨hres, hg⟩, -⟩ : (b.place ≠ .resolved ∧ s.dev.graced b = true) ∧ _ := by simpa only [Bool.and_eq_true, decide_eq_true_eq] using hp
  have hlist : s.dev.seg.bodies.filter (fun b => b.place ≠ .resolved && s.dev.graced b && s.dev.pastDeadline b)
      = s.dev.seg.bodies.filter (fun b => b.place ≠ .resolved && s.dev.graced b && decide (s.dev.toDeadline b < -(b.grace * 1000 : Nat))) :=
    List.filter_congr fun c _ => by
      cases hg : s.dev.graced c
      · simp
      · simp [Dev.pastDeadline, hg]
  have heq : s.dev.graceExpiry = s.dev.expireBody b := by rw [Dev.graceExpiry, hlist, h]
  refine completes_of_eq (u := (·.graceExpiry)) rfl heq ⟨s.dev.placeOf_expireBody hmem hres, fun ht => ?_⟩
  rw [Dev.get_canon, Dev.testBit_canon]
  exact s.dev.expireBody_diverges hres hg ht

theorem engPtReq_completes {e v : Nat} (he : e < 64) (ht : s.dev.taken (engPage e) 0x44) : Completes (.engPtReq e v) s (fun d =>
    d.get (F.ENG_PT_REQ e) = v % 4 ∧ d.engines.ptWait = s.dev.engines.ptWait.filter (fun x => x ≠ e) ++ [e] ∧ KeepsRegs s.dev d [F.ENG_PT_REQ e]
      ∧ KeepsMemory s.dev d) := by
  refine completes_of_eq (u := (·.engPtReq e v)) rfl ((if_neg (by omega)).trans (Dev.gated_of_taken _ ht)) ⟨?_, rfl, ?_, ?_⟩
  · refine (Dev.get_canon _ _).trans ((Dev.get_set_self s.dev (F.ENG_PT_REQ e) _).trans ?_)
    simp [Dev.fieldOf, bitsAt]
  · exact Dev.keepsRegs_canon (Dev.keepsRegs_set s.dev _ _)
  · exact Dev.keepsMemory_canon rfl rfl rfl rfl

theorem engPointChange_completes {e : Nat} {rest : List Nat} (hw : s.dev.engines.ptWait = e :: rest)
    (hs : ∀ t, s.dev.engines.ptAt = some t → 2000 ≤ s.dev.elapsed t) : Completes .engPointChange s (fun d =>
      d.get (F.ENG_PT_ACT e) = s.dev.wantedPoint e ∧ d.engines.ptWait = rest ∧ d.engines.ptAt = some s.dev.time.c
        ∧ KeepsRegs s.dev d [F.ENG_PT_ACT e, F.ENG_PT_VCODE e] ∧ KeepsMemory s.dev d) := by
  have hlt := s.dev.wantedPoint_lt e
  refine completes_of_eq (u := (·.engPointChange)) rfl (s.dev.engPointChange_eq hw hs) ⟨?_, rfl, rfl, ?_, ?_⟩
  · refine (Dev.get_canon _ _).trans ((Dev.get_set_ne _ _ ?_).trans ((Dev.get_set_self _ _ _).trans (Nat.mod_eq_of_lt hlt)))
    simp only [Fld.key, bar0]; omega
  · refine Dev.keepsRegs_canon fun g hg => ?_
    obtain ⟨hact, hcode⟩ : g.key ≠ (F.ENG_PT_ACT e).key ∧ g.key ≠ (F.ENG_PT_VCODE e).key := by simpa using hg
    exact (Dev.get_set_ne _ _ hcode).trans (Dev.get_set_ne _ _ hact)
  · exact Dev.keepsMemory_canon rfl rfl rfl rfl

theorem engPointChange_completes_waiting {e t : Nat} {rest : List Nat} (hw : s.dev.engines.ptWait = e :: rest) (ht : s.dev.engines.ptAt = some t)
    (hs : s.dev.elapsed t < 2000) : Completes .engPointChange s (fun d => d.engines.ptWait = e :: rest ∧ KeepsRegs s.dev d []) :=
  completes_of_eq (u := (·.engPointChange)) rfl (s.dev.engPointChange_waits ht hs) ⟨hw, Dev.keepsRegs_canon fun _ _ => rfl⟩

theorem engRejoin_completes {e : Nat} (he : e < 64) (ho : s.dev.offline (engPage e) = true)
    (hq : s.dev.bit (F.BLK_CTRL_OFFLINE_REQ (engPage e)) = false) (hv : s.dev.bit (F.ENG_CFG_IMG_VALID e) = true)
    (hw : s.dev.bit (F.ENG_STAT_WITHDRAWN e) = false ∨ s.dev.bit (F.ENG_STAT_ST_PASS e) = true) : Completes (.engRejoin e) s (fun d =>
      d.offline (engPage e) = false ∧ d.bit (F.ENG_STAT_WITHDRAWN e) = false ∧ KeepsRegs s.dev d [F.BLK_STAT_OFFLINE (engPage e), F.ENG_STAT_WITHDRAWN e]
        ∧ KeepsMemory s.dev d) := by
  have hmay : s.dev.mayRejoin e = true := by
    rcases hw with hw | hw <;> simp [Dev.mayRejoin, hq, hv, hw]
  refine completes_of_eq (u := (·.engRejoin e)) rfl (if_pos ⟨he, ho, hmay⟩) ⟨?_, ?_, ?_, ?_⟩
  · have hoff : ((s.dev.put (F.BLK_STAT_OFFLINE (engPage e)) false).put (F.ENG_STAT_WITHDRAWN e) false).get (F.BLK_STAT_OFFLINE (engPage e)) = 0 :=
      (Dev.get_put_ne _ _ (by simp only [Fld.key, bar0, engPage]; omega)).trans (Dev.get_put_self _ _ _ one_ne_zero)
    rw [Dev.offline, Dev.bit_canon, Dev.bit, hoff]; rfl
  · rw [Dev.bit_canon, Dev.bit_put_self _ _ rfl]
  · refine Dev.keepsRegs_canon fun g hg => ?_
    obtain ⟨hoff, hwith⟩ : g.key ≠ (F.BLK_STAT_OFFLINE (engPage e)).key ∧ g.key ≠ (F.ENG_STAT_WITHDRAWN e).key := by simpa using hg
    exact (Dev.get_put_ne _ _ hwith).trans (Dev.get_put_ne _ _ hoff)
  · exact Dev.keepsMemory_canon rfl rfl rfl rfl

end Commands

/-- Settles O41: each clause is the lemma of its command. -/
theorem dispatch : Obligations.Dispatch := fun _ =>
  ⟨fun _ _ => dispatchTake_completes, fun _ _ => dispatchTake_completes_late,
    fun _ _ _ hf hb hr _ => ⟨bodyFetchDone_completes_running hf hb hr, bodyFetchDone_completes_starting hf hb hr⟩,
    fun _ => bodyDeadline_completes, fun _ => graceExpiry_completes, fun _ _ => engPtReq_completes,
    fun _ _ hw _ => ⟨engPointChange_completes hw, fun _ => engPointChange_completes_waiting hw⟩, fun _ => engRejoin_completes⟩

end Sys2Proof.Machine
end

section
/-! PROOF. O42, what the device does by itself keeps of the engines. What a change of level shows stands in no register at the place that ENG_STAT has
on an engine's page, or at none of its bits from ST_PASS on. -/

namespace Sys2Proof.Machine

/-- A calm field that stands on its page where ENG_STAT.ST_PASS does. -/
def Fld.tested (f : Fld) : Prop := f.calm = true ∧ f.key % (0x1_0000 * 32) = 0x48 * 32 + 3

/-- A field of an engine's page past the header is no record of an event or an error. -/
theorem Fld.plain_engine {e o l w r : Nat} (he : e < 64) (ho : 0x40 ≤ o) (ho' : o < 0x1_0000) (hl : l < 32) :
    (⟨bar0 (64 + e) o, l, w, r⟩ : Fld).plain = true :=
  plain_page _ _ _ _ _ ho ho' hl (by omega) (by omega) (by omega)

theorem Fld.tested_stPass {e : Nat} (he : e < 64) : (F.ENG_STAT_ST_PASS e).tested :=
  ⟨calm_of_plain (plain_engine he (by decide) (by decide) (by decide)), by simp only [key, bar0]; omega⟩

namespace Dev

variable (d : Dev) {f : Fld}

section Tested

variable (hf : f.tested)
include hf

theorem get_raise_tested (p b : Nat) : (d.raise p b).get f = d.get f := get_raise d p b hf.1

theorem get_set_tested {a l w r : Nat} (v : Nat) (hl : l < 32) (h₃ : l ≠ 3) : (d.set ⟨a, l, w, r⟩ v).get f = d.get f :=
  get_set_ne d v fun hk => h₃ (by have := hf.2; simp only [Fld.key] at *; omega)

theorem get_put_tested {a l w r : Nat} (b : Bool) (hl : l < 32) (h₃ : l ≠ 3) : (d.put ⟨a, l, w, r⟩ b).get f = d.get f := get_set_tested d hf _ hl h₃
theorem get_count_tested {a l w r : Nat} (n : Nat) (hl : l < 32) (h₃ : l ≠ 3) : (d.count ⟨a, l, w, r⟩ n).get f = d.get f := get_set_tested d hf _ hl h₃
theorem get_putBit_tested {a l w r : Nat} (k : Nat) (b : Bool) (hl : l < 32) (h₃ : l ≠ 3) : (d.putBit ⟨a, l, w, r⟩ k b).get f = d.get f :=
  get_set_tested d hf _ hl h₃

/-! ### Engines and pulses -/

theorem get_engShow_tested (e : Nat) : (d.engShow e).get f = d.get f := by
  simp [engShow, get_set_tested, get_put_tested, hf]

theorem get_startBody_tested (e : Nat) : (d.startBody e).get f = d.get f := by
  obtain h | ⟨x, h⟩ := startBody_cases d e
  · rw [h]
  · rw [h, get_engShow_tested _ hf, get_setEng]

theorem get_endBody_tested (e : Nat) : (d.endBody e).get f = d.get f := by
  simp [endBody, get_ite, get_startBody_tested, get_engShow_tested, get_set_tested, get_put_tested, hf]

theorem get_abandonAll_tested : d.abandonAll.get f = d.get f :=
  get_foldl d (fun d e => by simp [get_ite, get_endBody_tested, get_engShow_tested, get_count_tested, hf]) _

theorem get_metShow_tested (n : Nat) : (d.metShow n).get f = d.get f := by
  have hdepth : ∀ v, (d.set (if n % 2 = 0 then F.PLAN_QDEPTH_DEPTH0 (n / 2) else F.PLAN_QDEPTH_DEPTH1 (n / 2)) v).get f = d.get f := fun v => by
    split
    · exact get_set_tested d hf v (by decide) (by decide)
    · exact get_set_tested d hf v (by decide) (by decide)
  unfold metShow
  extract_lets x q d₁ d₂ ready d₃
  have h₁ : d₁.get f = d.get f := hdepth q
  have h₂ : d₂.get f = d₁.get f := get_foldl d₁ (fun d k => get_set_tested d hf _ (by decide) (by decide)) _
  have h₃ : d₃.get f = d₂.get f := (get_put_tested _ hf _ (by decide) (by decide)).trans (get_set_tested _ hf _ (by decide) (by decide))
  rw [get_put_ne _ _ (by have := hf.2; simp only [Fld.key, bar0] at *; omega), h₃, h₂, h₁]

theorem get_cancelAll_tested (n : Nat) : (d.cancelAll n).get f = d.get f := by
  unfold cancelAll
  extract_lets x d₁
  rw [get_ite, get_metShow_tested _ hf, get_metShow_tested _ hf, get_foldl d₁ fun d k => get_setMetPort d n _, ite_self]
  exact get_setMetPort d n _

theorem get_cancelEverything_tested : d.cancelEverything.get f = d.get f := by
  unfold cancelEverything
  extract_lets d₁
  have h₁ : d₁.get f = d.get f := get_foldl d (fun d n => get_cancelAll_tested d hf n) _
  clear_value d₁
  exact (get_congr rfl f).trans h₁

/-! ### The change of level -/

theorem get_driveDivert_tested (n : Nat) (on : Bool) : (d.driveDivert n on).get f = d.get f := by
  simp [driveDivert, get_put_tested, hf]

theorem get_divertOne_tested (n : Nat) : (d.divertOne n).get f = d.get f := by
  unfold divertOne
  split
  · simp [get_put_tested, hf]
  split
  · simp [get_driveDivert_tested, hf]
  split
  · split
    · simp [get_driveDivert_tested, hf]
    · extract_lets d₁
      split <;> simp [d₁, get_driveDivert_tested, hf]
  · exact get_driveDivert_tested d hf n false

theorem get_abandonJoin_tested : d.abandonJoin.get f = d.get f := by
  unfold abandonJoin
  extract_lets p
  split
  · rfl
  · exact (get_put_tested _ hf _ (by decide) (by decide)).trans (get_set_tested _ hf _ (by decide) (by decide))

theorem get_setRole_tested (r : Nat) : (d.setRole r).get f = d.get f := by
  simp [setRole, setDt, get_raise_tested, get_set_tested, hf]

theorem get_leaveSorting_tested : d.leaveSorting.get f = d.get f := by
  unfold leaveSorting
  extract_lets lost d₁ mer seg d₂ d₃ d₄
  have h₁ : d₁.get f = d.get f := get_foldl d (fun d g => get_putBit_tested d hf _ _ (by decide) (by decide)) lost
  have h₃ : d₃.get f = d₁.get f := (get_put_tested _ hf _ (by decide) (by decide)).trans (get_put_tested _ hf _ (by decide) (by decide))
  rw [get_ite, get_setRole_tested _ hf, ite_self, get_abandonJoin_tested _ hf, h₃, h₁]

theorem get_levelUpdate_tested (cause detail : Nat) : (d.levelUpdate cause detail).get f = d.get f := by
  simp [levelUpdate, setDt, get_ite, get_raise_tested, get_set_tested, get_put_tested, hf]

theorem get_moveState_tested (s cause detail : Nat) : (d.moveState s cause detail).get f = d.get f := by
  unfold moveState
  split
  · rfl
  extract_lets d₁ d₂ d₃
  have h₁ : d₁.get f = d.get f := by simp [d₁, get_set_tested, get_count_tested, hf]
  have h₂ : d₂.get f = d₁.get f := by simp [d₂, divertUpdate, get_divertOne_tested, get_raise_tested, get_set_tested, hf]
  have h₃ : d₃.get f = d₂.get f := by rw [get_ite, get_leaveSorting_tested _ hf, ite_self]
  rw [get_levelUpdate_tested _ hf, h₃, h₂, h₁]

theorem get_enterTwilight_tested (cause detail : Nat) : (d.enterTwilight cause detail).get f = d.get f := by
  unfold enterTwilight
  extract_lets bs d₁
  have h₁ : d₁.get f = d.get f := (get_moveState_tested _ hf 6 cause detail).trans (get_abandonAll_tested d hf)
  exact (get_count_tested _ hf _ (by decide) (by decide)).trans ((get_foldl d₁ (fun d b => (get_twilightPass _ b 0 false).trans
    (get_count_tested d hf _ (by decide) (by decide))) bs).trans h₁)

theorem get_eclipseCancel_tested : d.eclipseCancel.get f = d.get f :=
  (get_cancelEverything_tested _ hf).trans (get_count_tested d hf _ (by decide) (by decide))

theorem get_enterEclipse_tested (cause detail : Nat) : (d.enterEclipse cause detail).get f = d.get f := by
  unfold enterEclipse
  extract_lets n d₁ mer d₂
  have h₁ : d₁.get f = d.get f :=
    (get_count_tested _ hf _ (by decide) (by decide)).trans ((get_moveState_tested _ hf 7 cause detail).trans
      ((get_dropBodies _).trans (get_abandonAll_tested d hf)))
  clear_value d₁
  have h₂ : d₂.get f = d₁.get f := get_abandonJoin_tested _ hf
  rw [get_ite, get_sendOffer, get_eclipseCancel_tested _ hf, ite_self, h₂, h₁]

/-- What the device does by itself leaves the outcome of every self-test. -/
theorem get_autoLevel_tested : d.autoLevel.get f = d.get f := by
  unfold autoLevel
  simp only [get_ite, get_enterEclipse_tested _ hf, get_enterTwilight_tested _ hf, ite_self]

end Tested

end Dev
end Sys2Proof.Machine
end

section
/-! PROOF. O42, Vesper's work on engines and their faults. Each command is first brought to what it does in the case of its clause; a change of engines
adds the events of emptied pools, which leave the engines and every calm field, and in the states in which the device does not sort nothing follows. -/

namespace Sys2Proof.Machine

/-- What one step of a fold brings about and no other step undoes holds after it, where an invariant of every step lets it. -/
theorem foldl_establishes {σ : Type} {step : σ → Nat → σ} {I : σ → Prop} {Q : σ → Prop} {n : Nat} (hI : ∀ s m, I s → I (step s m))
    (hn : ∀ s, I s → Q (step s n)) (hm : ∀ s m, m ≠ n → Q s → Q (step s m)) {l : List Nat} (h : n ∈ l) {s : σ} (hs : I s) : Q (l.foldl step s) := by
  have keeps : ∀ s m, I s ∧ Q s → I (step s m) ∧ Q (step s m) := fun s m ⟨hi, hq⟩ =>
    ⟨hI s m hi, if hmn : m = n then hmn ▸ hn s hi else hm s m hmn hq⟩
  induction l generalizing s with
  | nil => exact absurd h List.not_mem_nil
  | cons m l ih =>
    by_cases hmn : m = n
    · subst hmn
      exact (List.foldlRecOn (motive := fun s => I s ∧ Q s) l step ⟨hI s m hs, hn s hs⟩ fun s hq k _ => keeps s k hq).2
    · exact ih ((List.mem_cons.mp h).resolve_left (Ne.symm hmn)) (hI s m hs)

namespace Dev

variable (d : Dev) {f : Fld}

/-! ### A change of engines (R268) -/

theorem engines_of_unrecorded {d e : Dev} (h : e.unrecorded = d.unrecorded) : e.engines = d.engines := (congrArg Dev.engines h :)

theorem get_poolChange (u : Dev → Dev) (hf : f.calm = true) : (d.poolChange u).get f = (u d).get f :=
  get_foldl (u d) (fun x s => by rw [get_ite, get_raise _ _ _ hf, ite_self]) _

theorem unrecorded_poolChange (u : Dev → Dev) : (d.poolChange u).unrecorded = (u d).unrecorded :=
  unrecorded_foldl (u d) (fun x s => by rw [unrecorded_ite, unrecorded_raise, ite_self]) _

theorem poolChange_keeps_raw (u : Dev → Dev) {q k : Nat} (hk : k < 32) (h : (u d).testBit (F.BLK_IRQ_RAW q) k = true) :
    (d.poolChange u).testBit (F.BLK_IRQ_RAW q) k = true :=
  List.foldlRecOn (motive := fun x : Dev => x.testBit (F.BLK_IRQ_RAW q) k = true) _ _ h fun x hx _ _ =>
    iteInduction (motive := fun x : Dev => x.testBit (F.BLK_IRQ_RAW q) k = true) (fun _ => raise_keeps_raw x _ _ hk hx) fun _ => hx

/-! ### The command in hand at a change of level -/

theorem cmd_twilightPass (b : CBody) (cause : Nat) (replaced : Bool) : (d.twilightPass b cause replaced).cmd = d.cmd := by
  obtain ⟨e, v, heq, -, hcmd⟩ := d.twilightPass_eq b cause replaced
  rw [heq, ← hcmd]
  rfl

theorem cmd_enterTwilight (cause detail : Nat) : (d.enterTwilight cause detail).cmd = d.cmd := by
  unfold enterTwilight
  extract_lets bs d₁
  have h₁ : d₁.cmd = d.cmd := (moveState_cmd _ 6 cause detail).trans (cmd_abandonAll d)
  have hbs : (bs.foldl (fun d b => (d.count (F.DISP_GRP_VERD_COUNT b.group)).twilightPass b 0 false) d₁).cmd = d₁.cmd :=
    foldl_keeps_of_mem Dev.cmd bs (fun d b _ => (cmd_twilightPass _ b 0 false).trans (count_cmd d _ _)) d₁
  rw [count_cmd, hbs, h₁]

theorem cmd_abandonJoin : d.abandonJoin.cmd = d.cmd := cmd_of_unshown (unshown_abandonJoin d)

theorem cmd_sendOffer (a : AfterOffer) : (d.sendOffer a).cmd = d.cmd := by
  obtain ⟨m, o, h⟩ := d.merSend_eq 0x02 ((d.get F.TWIN_TOKEN_EPOCH + 1) % 65536) 1 [0]
  rw [sendOffer, h]

theorem cmd_eclipseCancel : d.eclipseCancel.cmd = d.cmd := cmd_cancelEverything _

theorem cmd_enterEclipse (cause detail : Nat) : (d.enterEclipse cause detail).cmd = d.cmd := by
  unfold enterEclipse
  extract_lets n d₁ mer d₂
  have h₁ : d₁.cmd = d.cmd := (count_cmd _ _ _).trans ((moveState_cmd _ 7 cause detail).trans ((cmd_dropBodies _).trans (cmd_abandonAll d)))
  clear_value d₁
  have h₂ : d₂.cmd = d₁.cmd := cmd_abandonJoin _
  rw [apply_ite Dev.cmd, cmd_sendOffer, cmd_eclipseCancel, ite_self, h₂, h₁]

theorem cmd_autoLevel : d.autoLevel.cmd = d.cmd := by
  unfold autoLevel
  simp only [apply_ite Dev.cmd, cmd_enterEclipse, cmd_enterTwilight, ite_self]

theorem get_result_autoLevel : d.autoLevel.get F.CMD_STATUS_RESULT = d.get F.CMD_STATUS_RESULT :=
  d.get_autoLevel rfl fun g hg => by rcases hg with hg | hg | hg | ⟨n, hg⟩ <;> simp only [Fld.key, bar0] at * <;> omega

/-! ### Self-test (R263) -/

theorem get_engTest (e : Nat) (v : Bool) (hf : f.calm = true) (h : f.key ≠ (F.BLK_STAT_TEST (engPage e)).key) : (d.engTest e v).get f = d.get f :=
  (d.get_poolChange _ hf).trans (get_put_ne d v h)

theorem cmd_engTest (e : Nat) (v : Bool) : (d.engTest e v).cmd = d.cmd := cmd_of_unshown (unshown_engTest d e v)

/-- Without the memory test, a self-test in SERVICE shows what the logic test found. -/
theorem engSelftest_runs (logic mem : Bool) (unit : Nat) (he : d.executing 0x48 = true) (ha : d.arg 0 < 64) (hm : d.arg 1 % 2 = 0) (hs : d.state = 8) :
    d.engSelftest logic mem unit
      = ((d.put (F.ENG_STAT_ST_PASS (d.arg 0)) logic).engTest (d.arg 0) false).complete .ok 0 [b2n logic + 2 + unit % 256 * 256] := by
  have harg : d.arg 0 % 64 = d.arg 0 := Nat.mod_eq_of_lt ha
  simp [engSelftest, he, harg, hm, hs, b2n]

theorem engSelftest_refused (logic mem : Bool) (unit : Nat) (he : d.executing 0x48 = true) (ha : d.arg 0 < 64) (hs : d.state ≠ 8)
    (ho : d.offline (engPage (d.arg 0)) = false) : d.engSelftest logic mem unit = (d.engTest (d.arg 0) false).complete .state 9 := by
  have harg : d.arg 0 % 64 = d.arg 0 := Nat.mod_eq_of_lt ha
  simp [engSelftest, he, harg, hs, ho]

/-- A field of an engine's page past the header stands through the end of a command. -/
theorem get_complete_engine {e o l w r : Nat} (he : e < 64) (ho : 0x40 ≤ o) (ho' : o < 0x1_0000) (hl : l < 32) (c : Err) (detail : Nat) (rets : List Nat) :
    (d.complete c detail rets).get ⟨bar0 (64 + e) o, l, w, r⟩ = d.get ⟨bar0 (64 + e) o, l, w, r⟩ :=
  get_complete d c detail rets (Fld.plain_engine he ho ho' hl) (by
    have hoff : (⟨bar0 (64 + e) o, l, w, r⟩ : Fld).key / 32 % 0x1_0000 = o := by simp only [Fld.key, bar0]; omega
    have haddr : (⟨bar0 (64 + e) o, l, w, r⟩ : Fld).key / 32 = bar0 (64 + e) o := by simp only [Fld.key]; omega
    rw [apart, hoff, haddr]
    simp [bar0]
    omega)

/-! ### Images (R259, R299, R267) -/

theorem imgWord_of_mem {d e : Dev} (h : e.mem = d.mem) (off i : Nat) : e.imgWord off i = d.imgWord off i := by
  simp only [imgWord, read, bytes, byte, h]

/-- The image that a load at this place records. -/
def imageAt (d : Dev) (off len : Nat) : Image := ⟨off, len, d.imgWord off 3, d.imgWord off 5⟩

theorem img_loadImage (e off len : Nat) : ((d.loadImage e off len).eng e).img = some (d.imageAt off len) ∧ ((d.loadImage e off len).eng e).out = false := by
  have h : (d.loadImage e off len).eng e = _ := d.eng_setEng e _
  rw [h]
  exact ⟨rfl, rfl⟩

theorem eng_loadImage_ne {e n : Nat} (off len : Nat) (h : n ≠ e) : (d.loadImage e off len).eng n = d.eng n := Sparse.get_set_ne _ _ _ _ h

/-- An engine loaded: its image, and the slot. -/
def load (off len slot : Nat) (d : Dev) (e : Nat) : Dev := (d.loadImage e off len).set (F.ENG_CFG_SLOT e) slot

/-- Engine `e` holds an image in a slot. -/
structure Holds (e slot : Nat) (img : Image) (d : Dev) : Prop where
  valid : d.get (F.ENG_CFG_IMG_VALID e) = 1
  slot : d.get (F.ENG_CFG_SLOT e) = slot % 8
  img : (d.eng e).img = some img

theorem holds_load (off len slot e : Nat) : Holds e slot (d.imageAt off len) (load off len slot d e) :=
  ⟨(get_set_ne _ _ (by simp only [Fld.key]; omega)).trans (get_put_self _ _ _ one_ne_zero), get_set_self _ _ _, (d.img_loadImage e off len).1⟩

theorem holds_load_ne {n e slot' : Nat} {img : Image} (off len slot : Nat) (h : e ≠ n) (hd : Holds n slot' img d) :
    Holds n slot' img (load off len slot d e) := by
  have hget : ∀ l w r, l < 32 → (load off len slot d e).get ⟨bar0 (64 + n) 0x40, l, w, r⟩ = d.get ⟨bar0 (64 + n) 0x40, l, w, r⟩ := fun l w r hl =>
    (get_set_ne _ _ (by simp only [Fld.key, bar0]; omega)).trans (get_put_ne _ _ (by simp only [Fld.key, bar0]; omega))
  exact ⟨(hget _ _ _ (by decide)).trans hd.valid, (hget _ _ _ (by decide)).trans hd.slot,
    (congrArg Eng.img (d.eng_loadImage_ne off len h.symm)).trans hd.img⟩

/-- R259: a load reaches every engine named. -/
theorem holds_loads {es : List Nat} {e : Nat} (off len slot : Nat) (h : e ∈ es) : Holds e slot (d.imageAt off len) (es.foldl (load off len slot) d) :=
  foldl_establishes (step := load off len slot) (I := fun x => x.mem = d.mem) (Q := Holds e slot (d.imageAt off len)) (fun _ _ hx => hx)
    (fun x hx => by
      have himg : x.imageAt off len = d.imageAt off len := by rw [imageAt, imgWord_of_mem hx, imgWord_of_mem hx, imageAt]
      exact himg ▸ x.holds_load off len slot e)
    (fun x _ hne hx => x.holds_load_ne off len slot hne hx) h rfl

/-- Where the image goes and how long it is (PROG_LOAD's ARG1 to ARG3). -/
def imgOff (d : Dev) : Nat := d.arg 1 + d.arg 2 % 4 * 2 ^ 32

theorem progLoad_refused (he : d.executing 0x49 = true) (hb : d.imgBad d.imgOff (d.arg 3) = true) : d.progLoad = d.complete .range := by
  unfold progLoad
  rw [if_neg (by simp [he])]
  exact if_pos hb

/-- Every engine of the mask loaded with the image. -/
def loaded (d : Dev) : Dev := d.poolChange (fun d' => d.maskEngines.foldl (load d.imgOff (d.arg 3) (d.arg 0 % 8)) d')

theorem progLoad_loads (he : d.executing 0x49 = true) (hb : d.imgBad d.imgOff (d.arg 3) = false) (hc : d.imgCheck d.imgOff = true) (h₇ : d.feat 7 = false)
    (hm : d.imgWord d.imgOff 2 % 2 = 0 ∨ d.feat 6 = true) (ho : ∀ e ∈ d.maskEngines, d.offline (engPage e) = true) :
    d.progLoad = d.loaded.complete .ok 0 [d.loaded.arg 4, d.loaded.arg 5] := by
  have hcheck : ¬(!d.imgCheck d.imgOff) = true := by simp [hc]
  have hsigned : ¬(d.feat 7 = true ∧ (d.imgWord d.imgOff 2 / 2 % 2 = 0 ∨ (!d.imgSigned d.imgOff) = true)) := by simp [h₇]
  have hfeat : ¬(d.imgWord d.imgOff 2 % 2 = 1 ∧ (!d.feat 6) = true) := by
    rintro ⟨h₁, h₂⟩
    rcases hm with hm | hm
    · omega
    · simp [hm] at h₂
  unfold progLoad
  rw [if_neg (by simp [he])]
  extract_lets slot off len es free
  have hfree : ¬(!es.all free) = true := by simpa using fun e hes => by simp only [free, ho e hes, Bool.true_or]
  clear_value free
  exact (if_neg (ne_true_of_eq_false hb)).trans ((if_neg hcheck).trans ((if_neg hsigned).trans ((if_neg hfeat).trans (if_neg hfree))))

theorem cmd_loaded : d.loaded.cmd = d.cmd :=
  (cmd_of_unrecorded (d.unrecorded_poolChange _)).trans (foldl_keeps_of_mem Dev.cmd (step := load _ _ _) _ (fun _ _ _ => rfl) d)

theorem holds_loaded {e : Nat} (h : e ∈ d.maskEngines) : Holds e (d.arg 0 % 8) (d.imageAt d.imgOff (d.arg 3)) d.loaded := by
  have he : e < 64 := List.mem_range.mp (List.mem_filter.mp h).1
  obtain ⟨hvalid, hslot, himg⟩ := d.holds_loads d.imgOff (d.arg 3) (d.arg 0 % 8) h
  have hcalm : ∀ l w r, l < 32 → (⟨bar0 (64 + e) 0x40, l, w, r⟩ : Fld).calm = true := fun l w r hl =>
    Fld.calm_of_plain (Fld.plain_engine he (by decide) (by decide) hl)
  exact ⟨(d.get_poolChange _ (hcalm _ _ _ (by decide))).trans hvalid, (d.get_poolChange _ (hcalm _ _ _ (by decide))).trans hslot,
    (congrArg Eng.img (eng_of_engines (engines_of_unrecorded (d.unrecorded_poolChange _)) e)).trans himg⟩

theorem engines_complete (c : Err) (detail : Nat) (rets : List Nat) : (d.complete c detail rets).engines = d.engines := by
  obtain ⟨r, u, x, t, h⟩ := d.complete_eq c detail rets
  rw [h]

theorem engReload_reloads {e : Nat} {i : Image} (ho : (d.eng e).out = true) (hi : (d.eng e).img = some i) (hc : d.imgCheck i.off = true) :
    d.engReload e = d.loadImage e i.off i.len := by
  simp [engReload, ho, hi, hc]

/-! ### Hardware faults (R265) -/

/-- What decides whether a fault strikes a body: the body, the engine's last VEMIT, the instructions since, the instant (R297). -/
def runView (d : Dev) (e : Nat) : Option Nat × Option Nat × Nat × Nat := ((d.eng e).body, (d.eng e).emitAt, (d.eng e).retired, d.time.c)

theorem runView_of_unrecorded {d e : Dev} (h : e.unrecorded = d.unrecorded) (n : Nat) : e.runView n = d.runView n := by
  rw [runView, eng_of_engines (engines_of_unrecorded h), show e.time = d.time from (congrArg Dev.time h :), runView]

theorem justEmitted_of_runView {d e : Dev} {n : Nat} (h : e.runView n = d.runView n) : e.justEmitted n = d.justEmitted n := by
  simp only [runView, Prod.mk.injEq] at h
  obtain ⟨hbody, hemit, hretired, htime⟩ := h
  rw [justEmitted, hbody, hemit, hretired, htime, justEmitted]

theorem runView_setEng {e : Nat} {x : Eng} (hb : x.body = (d.eng e).body) (he : x.emitAt = (d.eng e).emitAt) (hr : x.retired = (d.eng e).retired) :
    (d.setEng e x).runView e = d.runView e := by
  rw [runView, eng_setEng, hb, he, hr]
  rfl

theorem runView_engLeave (e : Nat) : (d.engLeave e).runView e = d.runView e := by
  unfold engLeave
  extract_lets x d₁
  have h₁ : d₁.runView e = d.runView e := by
    simp only [d₁]
    split
    · exact d.runView_setEng rfl rfl rfl
    · rfl
  exact h₁

/-- An engine that leaves its pool shows that it holds no fetched body and is OFFLINE. -/
theorem keepsRegs_engLeave (e : Nat) :
    KeepsRegs d (d.engLeave e) [F.ENG_STAT_RUN e, F.ENG_STAT_FETCHED e, F.ENG_BODY_BODY_ID e, F.BLK_STAT_OFFLINE (engPage e)] := fun g hg => by
  simp only [List.map_cons, List.map_nil, List.mem_cons, List.not_mem_nil, or_false, not_or] at hg
  obtain ⟨hrun, hfetched, hid, hoff⟩ := hg
  unfold engLeave
  extract_lets x d₁
  have h₁ : d₁.get g = d.get g := by
    simp only [d₁]
    split
    · exact (keepsRegs_engShow _ e) g (by simp [hrun, hfetched, hid])
    · rfl
  exact (get_put_ne _ _ hoff).trans h₁

/-- The engine withdrawn after FAULT_LIMIT faults. -/
def withdrawn (d : Dev) (e : Nat) : Dev := (((d.engLeave e).put (F.ENG_STAT_WITHDRAWN e) true).put (F.ENG_STAT_ST_PASS e) false).raise (engPage e) 5

theorem runView_withdrawn (e : Nat) : (d.withdrawn e).runView e = d.runView e :=
  (runView_of_unrecorded (unrecorded_raise _ _ _) e).trans (d.runView_engLeave e)

/-- The fields that a withdrawal shows. -/
def withdrawalKeys (e : Nat) : List Nat := [(F.ENG_STAT_RUN e).key, (F.ENG_STAT_FETCHED e).key, (F.ENG_BODY_BODY_ID e).key,
  (F.BLK_STAT_OFFLINE (engPage e)).key, (F.ENG_STAT_WITHDRAWN e).key, (F.ENG_STAT_ST_PASS e).key]

theorem get_beforeWithdrawn (e : Nat) (h : f.key ∉ withdrawalKeys e) :
    (((d.engLeave e).put (F.ENG_STAT_WITHDRAWN e) true).put (F.ENG_STAT_ST_PASS e) false).get f = d.get f := by
  simp only [withdrawalKeys, List.mem_cons, List.not_mem_nil, or_false, not_or] at h
  obtain ⟨hrun, hfetched, hid, hoff, hwith, hpass⟩ := h
  rw [get_put_ne _ _ hpass, get_put_ne _ _ hwith]
  exact d.keepsRegs_engLeave e f (by simp [hrun, hfetched, hid, hoff])

theorem get_withdrawn (e : Nat) (hf : f.calm = true) (h : f.key ∉ withdrawalKeys e) : (d.withdrawn e).get f = d.get f :=
  (get_raise _ _ _ hf).trans (d.get_beforeWithdrawn e h)

theorem withdrawn_keeps_raw (e : Nat) {k : Nat} (hk : k < 32) (h : d.testBit (F.BLK_IRQ_RAW (engPage e)) k = true) :
    (d.withdrawn e).testBit (F.BLK_IRQ_RAW (engPage e)) k = true :=
  raise_keeps_raw _ _ _ hk (by
    rw [testBit, get_beforeWithdrawn d e (by simp only [withdrawalKeys, Fld.key, bar0, engPage]; simp; omega)]
    exact h)

theorem get_strike (e : Nat) : (d.strike e).get f = d.get f := (get_ite _ _ _).trans (ite_self _)

theorem struck_strike {e : Nat} (h : d.justEmitted e = false) : ((d.strike e).eng e).struck = (d.eng e).body := by
  rw [strike, h, if_neg Bool.false_ne_true, eng_setEng]

/-- A fault marked, counted and reported on the engine's page. -/
def faultNoted (d : Dev) (e : Nat) : Dev :=
  (((d.setParity (engPage e) (F.BLK_PARITY_SRAM_UE (engPage e))).count (F.ENG_CNT_HWFAULT_COUNT e)).setFault (engPage e)).raise (engPage e) 4

/-- The faults of an engine in the last 10 s, with the present one. -/
def faultsNow (d : Dev) (e : Nat) : List Nat := ((d.eng e).faults.filter (fun t => decide (d.time.c - t < 10000000000))) ++ [d.time.c]

/-- FAULT_LIMIT is reached, with the feature that withdraws an engine. -/
def withdraws (d : Dev) (e : Nat) : Bool := d.feat 21 && decide (d.get F.DISP_CTRL_FAULT_LIMIT ≤ (d.faultsNow e).length)

/-- The fault kept among the engine's faults of the last 10 s, from which a withdrawal starts afresh; in the program or model region, `kind` 5, it takes
the engine out. -/
def faultKept (d : Dev) (e kind : Nat) : Dev :=
  d.setEng e { d.eng e with faults := if d.withdraws e then [] else d.faultsNow e, out := (d.eng e).out || decide (kind = 5) }

/-- What a fault in scratch or a window, `kind` 0, brings upon the engine and its pool. -/
def faultFelt (d : Dev) (e : Nat) : Dev := (if d.withdraws e then (d.faultKept e 0).withdrawn e else d.faultKept e 0).strike e

/-- An uncorrectable error in scratch or a window: `kind` 0 (R265). -/
theorem engHwFault_uncorrectable {e : Nat} (he : e < 64) (hen : d.enabled (engPage e) = true) :
    d.engHwFault e 0 = (d.faultNoted e).poolChange (·.faultFelt e) := by
  unfold engHwFault
  rw [if_neg (by simp [hen]; omega), if_neg (by decide)]
  rfl

/-- A correctable error in local memory: `kind` 6. -/
theorem engHwFault_correctable {e : Nat} (he : e < 64) (hen : d.enabled (engPage e) = true) :
    d.engHwFault e 6 = d.setParity (engPage e) (F.BLK_PARITY_SRAM_CE (engPage e)) := by
  unfold engHwFault
  rw [if_neg (by simp [hen]; omega), if_pos rfl]

theorem unrecorded_setFault (p : Nat) : (d.setFault p).unrecorded = d.unrecorded := by simp [setFault, unrecorded_ite]

theorem unrecorded_faultNoted (e : Nat) : (d.faultNoted e).unrecorded = d.unrecorded := by simp [faultNoted, unrecorded_setFault]

theorem get_faultFelt (e : Nat) (hf : f.calm = true) (h : f.key ∉ withdrawalKeys e) : (d.faultFelt e).get f = d.get f := by
  rw [faultFelt, get_strike, get_ite, get_withdrawn _ e hf h, faultKept, get_setEng, ite_self]

theorem faultFelt_keeps_raw (e : Nat) {k : Nat} (hk : k < 32) (h : d.testBit (F.BLK_IRQ_RAW (engPage e)) k = true) :
    (d.faultFelt e).testBit (F.BLK_IRQ_RAW (engPage e)) k = true := by
  rw [faultFelt, testBit, get_strike, ← testBit]
  exact iteInduction (motive := fun y : Dev => y.testBit (F.BLK_IRQ_RAW (engPage e)) k = true) (fun _ => (d.faultKept e 0).withdrawn_keeps_raw e hk h)
    fun _ => h

/-- The body that runs when the fault falls is struck (R297). -/
theorem struck_faultFelt {e : Nat} (h : d.justEmitted e = false) : ((d.faultFelt e).eng e).struck = (d.eng e).body := by
  have hkept : (d.faultKept e 0).runView e = d.runView e := d.runView_setEng rfl rfl rfl
  have hview : (if d.withdraws e then (d.faultKept e 0).withdrawn e else d.faultKept e 0).runView e = d.runView e := by
    rw [apply_ite (runView · e), runView_withdrawn, ite_self, hkept]
  rw [faultFelt, struck_strike _ ((justEmitted_of_runView hview).trans h)]
  exact congrArg Prod.fst hview

theorem fault_setFault (p : Nat) : (d.setFault p).bit (F.BLK_STAT_FAULT p) = true := by
  unfold setFault
  split
  · assumption
  · rw [bit, get_raise _ _ _ (Fld.calm_header _ _ _ _ _ (by decide) (by decide) (by decide) (by decide)), ← bit, bit_put_self _ _ rfl]

theorem get_setParity_self (p l r : Nat) (hl : l < 32) : (d.setParity p ⟨bar0 p 0x2C, l, 1, r⟩).get ⟨bar0 p 0x2C, l, 1, r⟩ = 1 := by
  rw [setParity, get_raise _ _ _ (Fld.calm_header _ _ _ _ _ (by decide) hl (by decide) (by decide)), get_put_self _ _ _ one_ne_zero]
  rfl

/-- What a fault notes on the engine's page (R265). -/
theorem faultNoted_shows {e : Nat} (he : e < 64) :
    (d.faultNoted e).get (F.ENG_CNT_HWFAULT_COUNT e) = (d.get (F.ENG_CNT_HWFAULT_COUNT e) + 1) % 2 ^ 32
      ∧ (d.faultNoted e).bit (F.BLK_STAT_FAULT (engPage e)) = true ∧ (d.faultNoted e).bit (F.BLK_PARITY_SRAM_UE (engPage e)) = true
      ∧ (d.faultNoted e).testBit (F.BLK_IRQ_RAW (engPage e)) 4 = true := by
  have hcount : (F.ENG_CNT_HWFAULT_COUNT e).plain = true := Fld.plain_engine he (by decide) (by decide) (by decide)
  have hparity : (F.BLK_PARITY_SRAM_UE (engPage e)).plain = true :=
    Fld.plain_header _ _ _ _ _ (by decide) (by decide) (by decide) (by decide) (by decide) (by decide)
  refine ⟨?_, ?_, ?_, raise_raw _ _ _ (by decide)⟩
  · rw [faultNoted, get_raise _ _ _ (Fld.calm_of_plain hcount), get_setFault _ _ hcount (by simp only [Fld.key, bar0, engPage]; omega), get_count_self,
      get_setParity _ _ _ hcount (by simp only [Fld.key, bar0, engPage]; omega)]
  · rw [faultNoted, bit, get_raise _ _ _ (Fld.calm_header _ _ _ _ _ (by decide) (by decide) (by decide) (by decide)), ← bit, fault_setFault]
  · rw [faultNoted, bit, get_raise _ _ _ (Fld.calm_of_plain hparity), get_setFault _ _ hparity (by simp only [Fld.key, bar0]; omega),
      get_count_ne _ _ (by simp only [Fld.key, bar0, engPage]; omega), get_setParity_self _ _ _ _ (by decide)]
    rfl

theorem state_faultNoted (e : Nat) : (d.faultNoted e).state = d.state := by
  rw [faultNoted, state, get_raise _ _ _ rfl, get_setFault _ _ rfl (by simp only [Fld.key, bar0, engPage]; omega),
    get_count_ne _ _ (by simp only [Fld.key, bar0]; omega), get_setParity _ _ _ rfl (by simp only [Fld.key, bar0, engPage]; omega), state]

/-! ### HBM and views (R268, R520) -/

theorem sorting_of_state {d e : Dev} (h : e.state = d.state) : e.sorting = d.sorting := by simp only [sorting, h]

/-- The uncorrectable HBM errors of the last second, with the present one. -/
def hbmErrors (d : Dev) : List Nat := d.engines.hbmUe.filter (fun t => decide (d.time.c - t < 1000000000)) ++ [d.time.c]

def hbmNoted (d : Dev) : Dev := { d with engines := { d.engines with hbmUe := d.hbmErrors } }

theorem hbmUe_fails (h : 15 ≤ (d.engines.hbmUe.filter (fun t => decide (d.time.c - t < 1000000000))).length) :
    d.hbmUe = d.hbmNoted.put F.DEV_ENV_STAT_HBM_FAIL true := if_pos (by simpa using h)

theorem hbmUe_noted (h : (d.engines.hbmUe.filter (fun t => decide (d.time.c - t < 1000000000))).length < 15) : d.hbmUe = d.hbmNoted :=
  if_neg (by simpa using h)

/-- The level follows the views: HALF while some view is lost. -/
theorem half_levelUpdate (cause detail : Nat) : (d.levelUpdate cause detail).bit F.MODE_LEVEL_HALF = decide (d.get F.MODE_LEVEL_VIEW_LOST ≠ 0) := by
  have hput := d.bit_put_self (g := F.MODE_LEVEL_HALF) (decide (d.get F.MODE_LEVEL_VIEW_LOST ≠ 0)) rfl
  unfold levelUpdate
  extract_lets d₁ was d₂
  have h₂ : d₂.get F.MODE_LEVEL_HALF = d₁.get F.MODE_LEVEL_HALF := by
    rw [get_set_ne _ _ (by decide), get_set_ne _ _ (by decide), get_set_ne _ _ (by decide), get_set_ne _ _ (by decide)]
  rw [bit, get_ite, get_raise _ _ _ rfl, setDt, get_set_ne _ _ (by decide), get_set_ne _ _ (by decide), h₂, ite_self]
  exact hput

theorem get_lost_levelUpdate (cause detail : Nat) : (d.levelUpdate cause detail).get F.MODE_LEVEL_VIEW_LOST = d.get F.MODE_LEVEL_VIEW_LOST := by
  unfold levelUpdate
  extract_lets d₁ was d₂
  have h₁ : d₁.get F.MODE_LEVEL_VIEW_LOST = d.get F.MODE_LEVEL_VIEW_LOST := get_put_ne _ _ (by decide)
  have h₂ : d₂.get F.MODE_LEVEL_VIEW_LOST = d₁.get F.MODE_LEVEL_VIEW_LOST := by
    rw [get_set_ne _ _ (by decide), get_set_ne _ _ (by decide), get_set_ne _ _ (by decide), get_set_ne _ _ (by decide)]
  rw [get_ite, get_raise _ _ _ rfl, setDt, get_set_ne _ _ (by decide), get_set_ne _ _ (by decide), h₂, ite_self, h₁]

/-- Whatever is lost with it, a group whose view goes ends in a mark in VIEW_LOST, which the level follows. -/
theorem loseViews_marks {g cause : Nat} (hs : d.sorting = true) (hp : d.portsOf g ≠ []) (hv : d.viewLost g = false) :
    ∃ e : Dev, d.loseViews [g] false cause = (e.putBit F.MODE_LEVEL_VIEW_LOST g true).levelUpdate cause 0 := by
  have hlost : [g].filter (fun g => d.portsOf g ≠ [] && !d.viewLost g) = [g] := by simp [hp, hv]
  unfold loseViews
  rw [hlost]
  extract_lets lost seg d₁ d₂ pairLost d₃ d₄
  refine ⟨d₄, ?_⟩
  rw [if_neg (by simp [hs, lost])]
  rfl

theorem viewLossTimeout_loses {g : Nat} (hg : g < 8) (hp : d.portsOf g ≠ []) (hr : d.groupRemote g = false)
    (hdown : ∀ p ∈ d.portsOf g, d.portState p = 7 ∧ ∃ t, (d.port p).downAt = some t ∧ d.get F.MODE_CTRL_HALF_MS * 1000000 ≤ d.elapsed t) :
    d.viewLossTimeout g = d.loseViews [g] false 0x08 := by
  unfold viewLossTimeout
  extract_lets down
  have hall : (d.portsOf g).all down = true := List.all_eq_true.mpr fun p hmem => by
    obtain ⟨hstate, t, ht, hlong⟩ := hdown p hmem
    simp only [down, hstate, ht]
    simp [hlong]
  clear_value down
  exact if_pos (by simp [hg, hp, hr, hall])

end Dev

/-! ### The commands complete -/

section Commands

variable {s : State}

/-- In a state in which the device does not sort, nothing follows a command by itself. -/
theorem completes_of_idle {i : Instr} {u : Dev → Dev} {e : Dev} {P : Dev → Prop} (h : exec i s = s.run (fun d => (u d).autoLevel)) (he : u s.dev = e)
    (hs : e.sorting = false) (hP : P e.canon) : Completes i s P :=
  completes_of_eq (u := fun d => (u d).autoLevel) h ((congrArg Dev.autoLevel he).trans (Dev.autoLevel_idle hs)) hP

section Selftest

variable {logic mem : Bool} {unit : Nat} (he : s.dev.executing 0x48 = true) (ha : s.dev.arg 0 < 64)
include he ha

theorem engSelftest_completes (hm : s.dev.arg 1 % 2 = 0) (hs : s.dev.state = 8) : Completes (.engSelftest logic mem unit) s (fun d =>
    d.cmd = none ∧ d.get F.CMD_STATUS_RESULT = 0 ∧ d.bit (F.ENG_STAT_ST_PASS (s.dev.arg 0)) = logic
      ∧ d.get (F.CMD_RET_RET 0) = (if logic then 1 else 0) + 2 + unit % 256 * 256) := by
  obtain ⟨l, hl⟩ := Dev.cmd_of_executing _ he
  have hcalm : (F.ENG_STAT_ST_PASS (s.dev.arg 0)).calm = true := (Fld.tested_stPass ha).1
  have hcmd : ((s.dev.put (F.ENG_STAT_ST_PASS (s.dev.arg 0)) logic).engTest (s.dev.arg 0) false).cmd = some l := (Dev.cmd_engTest _ _ _).trans hl
  have hstate : ((s.dev.put (F.ENG_STAT_ST_PASS (s.dev.arg 0)) logic).engTest (s.dev.arg 0) false).state = 8 :=
    (Dev.get_engTest _ _ _ rfl (by simp only [Fld.key, bar0, engPage]; omega)).trans
      ((Dev.get_put_ne _ _ (by simp only [Fld.key, bar0]; omega)).trans hs)
  have hpass : ((s.dev.put (F.ENG_STAT_ST_PASS (s.dev.arg 0)) logic).engTest (s.dev.arg 0) false).bit (F.ENG_STAT_ST_PASS (s.dev.arg 0)) = logic := by
    rw [Dev.bit, Dev.get_engTest _ _ _ hcalm (by simp only [Fld.key, bar0, engPage]; omega), ← Dev.bit, Dev.bit_put_self _ _ rfl]
  have heq := s.dev.engSelftest_runs logic mem unit he ha hm hs
  generalize (s.dev.put (F.ENG_STAT_ST_PASS (s.dev.arg 0)) logic).engTest (s.dev.arg 0) false = e at hcmd hstate hpass heq
  obtain ⟨-, hresult, -⟩ := e.complete_status .ok 0 [b2n logic + 2 + unit % 256 * 256] l hcmd
  have hret := e.complete_ret .ok 0 [b2n logic + 2 + unit % 256 * 256] 0 (by decide) l hcmd
  have hstands := e.get_complete_engine (l := 3) (w := 1) (r := 0) ha (show 0x40 ≤ 0x48 by decide) (by decide) (by decide) .ok 0
    [b2n logic + 2 + unit % 256 * 256]
  refine completes_of_idle (u := (·.engSelftest logic mem unit)) rfl heq ?_ ⟨Dev.complete_cmd _ _ _ _, ?_, ?_, ?_⟩
  · simp [Dev.sorting, Dev.state_complete, hstate]
  · rw [Dev.get_canon, hresult]; rfl
  · rw [Dev.bit_canon, Dev.bit, hstands, ← Dev.bit, hpass]
  · rw [Dev.get_canon, hret]
    refine (Nat.mod_eq_of_lt ?_).trans rfl
    have : b2n logic ≤ 1 := by cases logic <;> decide
    simp only [List.getD_cons_zero]
    omega

theorem engSelftest_completes_refused (hs : s.dev.state = 5) (ho : s.dev.offline (engPage (s.dev.arg 0)) = false) :
    Completes (.engSelftest logic mem unit) s (fun d => d.cmd = none ∧ d.get F.CMD_STATUS_RESULT = 1
      ∧ d.get (F.ENG_STAT_ST_PASS (s.dev.arg 0)) = s.dev.get (F.ENG_STAT_ST_PASS (s.dev.arg 0))) := by
  obtain ⟨l, hl⟩ := Dev.cmd_of_executing _ he
  have hcmd : (s.dev.engTest (s.dev.arg 0) false).cmd = some l := (Dev.cmd_engTest _ _ _).trans hl
  have hpass : (s.dev.engTest (s.dev.arg 0) false).get (F.ENG_STAT_ST_PASS (s.dev.arg 0)) = s.dev.get (F.ENG_STAT_ST_PASS (s.dev.arg 0)) :=
    Dev.get_engTest _ _ _ (Fld.tested_stPass ha).1 (by simp only [Fld.key, bar0, engPage]; omega)
  have heq := s.dev.engSelftest_refused logic mem unit he ha (by omega) ho
  generalize s.dev.engTest (s.dev.arg 0) false = e at hcmd hpass heq
  obtain ⟨-, hresult, -⟩ := e.complete_status .state 9 [] l hcmd
  refine completes_of_eq (u := fun d => (d.engSelftest logic mem unit).autoLevel) rfl (congrArg Dev.autoLevel heq) ⟨?_, ?_, ?_⟩
  · exact (Dev.cmd_autoLevel _).trans (Dev.complete_cmd _ _ _ _)
  · rw [Dev.get_canon, Dev.get_result_autoLevel, hresult]; rfl
  · rw [Dev.get_canon, Dev.get_autoLevel_tested _ (Fld.tested_stPass ha), Dev.get_complete_engine _ ha (by decide) (by decide) (by decide), hpass]

end Selftest

theorem progLoad_completes_refused (he : s.dev.executing 0x49 = true) (hb : s.dev.imgBad s.dev.imgOff (s.dev.arg 3) = true) :
    Completes .progLoad s (fun d => d.cmd = none ∧ d.get F.CMD_STATUS_RESULT = 2) := by
  obtain ⟨l, hl⟩ := Dev.cmd_of_executing _ he
  obtain ⟨-, hresult, -⟩ := s.dev.complete_status .range 0 [] l hl
  exact completes_of_eq (u := (·.progLoad)) rfl (s.dev.progLoad_refused he hb)
    ⟨Dev.complete_cmd _ _ _ _, by rw [Dev.get_canon, hresult]; rfl⟩

theorem progLoad_completes (he : s.dev.executing 0x49 = true) (hb : s.dev.imgBad s.dev.imgOff (s.dev.arg 3) = false)
    (hc : s.dev.imgCheck s.dev.imgOff = true) (h₇ : s.dev.feat 7 = false) (hm : s.dev.imgWord s.dev.imgOff 2 % 2 = 0 ∨ s.dev.feat 6 = true)
    (ho : ∀ e ∈ s.dev.maskEngines, s.dev.offline (engPage e) = true) : Completes .progLoad s (fun d => d.cmd = none ∧ d.get F.CMD_STATUS_RESULT = 0
      ∧ ∀ e ∈ s.dev.maskEngines, d.bit (F.ENG_CFG_IMG_VALID e) = true ∧ d.engSlot e = s.dev.arg 0 % 8
        ∧ (d.eng e).img = some ⟨s.dev.imgOff, s.dev.arg 3, s.dev.imgWord s.dev.imgOff 3, s.dev.imgWord s.dev.imgOff 5⟩) := by
  obtain ⟨l, hl⟩ := Dev.cmd_of_executing _ he
  have hcmd : s.dev.loaded.cmd = some l := s.dev.cmd_loaded.trans hl
  obtain ⟨-, hresult, -⟩ := s.dev.loaded.complete_status .ok 0 [s.dev.loaded.arg 4, s.dev.loaded.arg 5] l hcmd
  refine completes_of_eq (u := (·.progLoad)) rfl (s.dev.progLoad_loads he hb hc h₇ hm ho) ⟨Dev.complete_cmd _ _ _ _, ?_, fun e hmem => ?_⟩
  · rw [Dev.get_canon, hresult]; rfl
  have hlt : e < 64 := List.mem_range.mp (List.mem_filter.mp hmem).1
  obtain ⟨hvalid, hslot, himg⟩ := s.dev.holds_loaded hmem
  refine ⟨?_, ?_, ?_⟩
  · rw [Dev.bit_canon, Dev.bit, Dev.get_complete_engine _ hlt (by decide) (by decide) (by decide), hvalid]; rfl
  · rw [Dev.engSlot, Dev.get_canon, Dev.get_complete_engine _ hlt (by decide) (by decide) (by decide), hslot, Nat.mod_mod]
  · exact (congrArg Eng.img (Dev.eng_of_engines (Dev.engines_complete _ _ _ _) e)).trans himg

theorem engHwFault_completes {e : Nat} (he : e < 64) (hen : s.dev.enabled (engPage e) = true) (hs : s.dev.sorting = false) :
    Completes (.engHwFault e 0) s (fun d =>
      d.get (F.ENG_CNT_HWFAULT_COUNT e) = (s.dev.get (F.ENG_CNT_HWFAULT_COUNT e) + 1) % 2 ^ 32 ∧ d.bit (F.BLK_STAT_FAULT (engPage e)) = true
        ∧ d.bit (F.BLK_PARITY_SRAM_UE (engPage e)) = true ∧ d.testBit (F.BLK_IRQ_RAW (engPage e)) 4 = true
        ∧ (s.dev.justEmitted e = false → (d.eng e).struck = (s.dev.eng e).body)) := by
  obtain ⟨hcount, hfault, hparity, hraw⟩ := s.dev.faultNoted_shows he
  have hview : (s.dev.faultNoted e).runView e = s.dev.runView e := Dev.runView_of_unrecorded (s.dev.unrecorded_faultNoted e) e
  have hstate := s.dev.state_faultNoted e
  have hget : ∀ f : Fld, f.calm = true → f.key ∉ Dev.withdrawalKeys e →
      ((s.dev.faultNoted e).poolChange (·.faultFelt e)).get f = (s.dev.faultNoted e).get f := fun f hf h =>
    (Dev.get_poolChange _ _ hf).trans (Dev.get_faultFelt _ e hf h)
  have hheader : ∀ o l w r, o < 0x40 → l < 32 → o ≠ 0x14 → o ≠ 0x28 → (o = 0x10 → l ≠ 2) →
      ((s.dev.faultNoted e).poolChange (·.faultFelt e)).get ⟨bar0 (engPage e) o, l, w, r⟩
        = (s.dev.faultNoted e).get ⟨bar0 (engPage e) o, l, w, r⟩ := fun o l w r ho hl h₁ h₂ h₃ =>
    hget _ (Fld.calm_header _ _ _ _ _ ho hl h₁ h₂) (by simp only [Dev.withdrawalKeys, Fld.key, bar0, engPage]; simp; omega)
  refine completes_of_idle (u := (·.engHwFault e 0)) rfl (s.dev.engHwFault_uncorrectable he hen) ?_ ⟨?_, ?_, ?_, ?_, fun hj => ?_⟩
  · rw [Dev.sorting_of_state ((hget _ rfl (by simp only [Dev.withdrawalKeys, Fld.key, bar0, engPage]; simp; omega)).trans hstate), hs]
  · rw [Dev.get_canon, hget _ (Fld.calm_of_plain (Fld.plain_engine he (by decide) (by decide) (by decide)))
      (by simp only [Dev.withdrawalKeys, Fld.key, bar0, engPage]; simp; omega), hcount]
  · rw [Dev.bit_canon, Dev.bit, hheader _ _ _ _ (by decide) (by decide) (by decide) (by decide) (by decide), ← Dev.bit, hfault]
  · rw [Dev.bit_canon, Dev.bit, hheader _ _ _ _ (by decide) (by decide) (by decide) (by decide) (by decide), ← Dev.bit, hparity]
  · rw [Dev.testBit_canon]
    exact Dev.poolChange_keeps_raw _ _ (by decide) (Dev.faultFelt_keeps_raw _ e (by decide) hraw)
  · have heng := Dev.eng_of_engines (Dev.engines_of_unrecorded ((s.dev.faultNoted e).unrecorded_poolChange (·.faultFelt e))) e
    have hstruck := (s.dev.faultNoted e).struck_faultFelt ((Dev.justEmitted_of_runView hview).trans hj)
    exact (congrArg Eng.struck heng).trans (hstruck.trans (congrArg Prod.fst hview))

theorem engHwFault_completes_corrected {e : Nat} (he : e < 64) (hen : s.dev.enabled (engPage e) = true) (hs : s.dev.sorting = false) :
    Completes (.engHwFault e 6) s (fun d => d.bit (F.BLK_PARITY_SRAM_CE (engPage e)) = true
      ∧ d.get (F.ENG_CNT_HWFAULT_COUNT e) = s.dev.get (F.ENG_CNT_HWFAULT_COUNT e)
      ∧ d.bit (F.BLK_STAT_FAULT (engPage e)) = s.dev.bit (F.BLK_STAT_FAULT (engPage e))) := by
  have hget : ∀ f : Fld, f.plain = true → f.key ≠ (F.BLK_PARITY_SRAM_CE (engPage e)).key →
      (s.dev.setParity (engPage e) (F.BLK_PARITY_SRAM_CE (engPage e))).get f = s.dev.get f := fun f => s.dev.get_setParity _ _
  refine completes_of_idle (u := (·.engHwFault e 6)) rfl (s.dev.engHwFault_correctable he hen) ?_ ⟨?_, ?_, ?_⟩
  · rw [Dev.sorting_of_state (hget _ rfl (by simp only [Fld.key, bar0, engPage]; omega)), hs]
  · rw [Dev.bit_canon, Dev.bit, Dev.get_setParity_self _ _ _ _ (by decide)]; rfl
  · rw [Dev.get_canon, hget _ (Fld.plain_engine he (by decide) (by decide) (by decide)) (by simp only [Fld.key, bar0, engPage]; omega)]
  · rw [Dev.bit_canon, Dev.bit, hget _ (Fld.plain_header _ _ _ _ _ (by decide) (by decide) (by decide) (by decide) (by decide) (by decide))
      (by simp only [Fld.key, bar0]; omega), ← Dev.bit]

theorem engReload_completes {e : Nat} {i : Image} (hs : s.dev.sorting = false) (ho : (s.dev.eng e).out = true) (hi : (s.dev.eng e).img = some i)
    (hc : s.dev.imgCheck i.off = true) : Completes (.engReload e) s (fun d =>
      (d.eng e).out = false ∧ d.bit (F.ENG_CFG_IMG_VALID e) = true ∧ KeepsRegs s.dev d [F.ENG_CFG_IMG_VALID e] ∧ KeepsMemory s.dev d) := by
  refine completes_of_idle (u := (·.engReload e)) rfl (s.dev.engReload_reloads ho hi hc) ?_ ⟨?_, ?_, ?_, ?_⟩
  · have hstate : (s.dev.loadImage e i.off i.len).state = s.dev.state :=
      Dev.get_put_ne (f := F.ENG_CFG_IMG_VALID e) _ true (by simp only [Fld.key, bar0]; omega)
    rw [Dev.sorting_of_state hstate, hs]
  · exact (s.dev.img_loadImage e i.off i.len).2
  · rw [Dev.bit_canon]; exact Dev.bit_put_self _ _ rfl
  · exact Dev.keepsRegs_canon fun g hg => Dev.get_put_ne _ _ (by simpa using hg)
  · exact Dev.keepsMemory_canon rfl rfl rfl rfl

theorem hbmUe_completes_failing (hs : s.dev.sorting = false)
    (h : 15 ≤ (s.dev.engines.hbmUe.filter (fun t => decide (s.dev.time.c - t < 1000000000))).length) :
    Completes .hbmUe s (fun d => d.bit F.DEV_ENV_STAT_HBM_FAIL = true ∧ KeepsRegs s.dev d [F.DEV_ENV_STAT_HBM_FAIL]) := by
  refine completes_of_idle (u := (·.hbmUe)) rfl (s.dev.hbmUe_fails h) ?_ ⟨?_, ?_⟩
  · rw [Dev.sorting_of_state (Dev.get_put_ne _ _ (by decide)), ← hs]; rfl
  · rw [Dev.bit_canon, Dev.bit_put_self _ _ rfl]
  · exact Dev.keepsRegs_canon fun g hg => Dev.get_put_ne _ _ (by simpa using hg)

theorem hbmUe_completes (hs : s.dev.sorting = false)
    (h : (s.dev.engines.hbmUe.filter (fun t => decide (s.dev.time.c - t < 1000000000))).length < 15) : Completes .hbmUe s (fun d =>
      d.engines.hbmUe = s.dev.engines.hbmUe.filter (fun t => decide (s.dev.time.c - t < 1000000000)) ++ [s.dev.time.c] ∧ KeepsRegs s.dev d []) :=
  completes_of_idle (u := (·.hbmUe)) rfl (s.dev.hbmUe_noted h) hs ⟨rfl, Dev.keepsRegs_canon fun _ _ => rfl⟩

theorem viewLossTimeout_completes {g : Nat} (hg : g < 8) (hs : s.dev.sorting = true) (hp : s.dev.portsOf g ≠ []) (hr : s.dev.groupRemote g = false)
    (hv : s.dev.viewLost g = false)
    (hdown : ∀ p ∈ s.dev.portsOf g, s.dev.portState p = 7 ∧ ∃ t, (s.dev.port p).downAt = some t ∧ s.dev.get F.MODE_CTRL_HALF_MS * 1000000 ≤ s.dev.elapsed t) :
    Completes (.viewLossTimeout g) s (fun d => d.viewLost g = true ∧ d.bit F.MODE_LEVEL_HALF = true) := by
  obtain ⟨e, he⟩ := s.dev.loseViews_marks (cause := 0x08) hs hp hv
  have hlost : (e.putBit F.MODE_LEVEL_VIEW_LOST g true).viewLost g = true := Dev.testBit_putBit_self e _ g hg
  have hne : (e.putBit F.MODE_LEVEL_VIEW_LOST g true).get F.MODE_LEVEL_VIEW_LOST ≠ 0 := fun h₀ => by
    simp [Dev.viewLost, Dev.testBit, h₀] at hlost
  refine completes_of_eq (u := (·.viewLossTimeout g)) rfl ((s.dev.viewLossTimeout_loses hg hp hr hdown).trans he) ⟨?_, ?_⟩
  · rw [Dev.viewLost, Dev.testBit_canon, Dev.testBit, Dev.get_lost_levelUpdate, ← Dev.testBit, ← Dev.viewLost, hlost]
  · rw [Dev.bit_canon, Dev.half_levelUpdate]; exact decide_eq_true hne

end Commands

/-- Settles O42: each clause is the lemma of its command. -/
theorem engineService : Obligations.EngineService := fun _ =>
  ⟨fun _ _ _ he ha hm => ⟨engSelftest_completes he ha hm, engSelftest_completes_refused he ha⟩,
    fun he => ⟨progLoad_completes_refused he, progLoad_completes he⟩,
    fun _ he hen hs => ⟨engHwFault_completes he hen hs, engHwFault_completes_corrected he hen hs⟩,
    fun _ _ _ => engReload_completes, fun hs => ⟨hbmUe_completes_failing hs, hbmUe_completes hs⟩, fun _ => viewLossTimeout_completes⟩

end Sys2Proof.Machine
end

section
/-! PROOF. O27, and what every Kreov instruction comes to. A register file is sparse data read modulo the width; an instruction whose word stands at PC
ends in one of four ways, and its effect is what `Dev.kreov` makes of that end. -/

namespace Sys2Proof

/-! ### Words as bit vectors -/

theorem sgn_eq_toInt (w v : Nat) : sgn w v = (BitVec.ofNat w v).toInt := by
  rw [BitVec.toInt_eq_toNat_cond, BitVec.toNat_ofNat]
  rfl

@[simp] theorem sgn_toNat {w : Nat} (a : BitVec w) : sgn w a.toNat = a.toInt := by rw [sgn_eq_toInt, BitVec.ofNat_toNat, BitVec.setWidth_eq]

theorem uns_eq_toNat (w : Nat) (i : Int) : uns w i = (BitVec.ofInt w i).toNat := by rw [BitVec.toNat_ofInt]; rfl

namespace Machine

/-! ### The register files (R271) -/

namespace Eng

variable (x : Eng) (i v : Nat)

theorem sReg_lt : x.sReg i < 2 ^ 64 := by
  unfold sReg
  split
  · decide
  · exact Nat.mod_lt _ (by decide)

theorem pReg_lt : x.pReg i < 2 ^ 64 := by
  unfold pReg
  split
  · decide
  · exact Nat.mod_lt _ (by decide)

theorem sReg_eq_toNat : x.sReg i = (BitVec.ofNat 64 (x.sReg i)).toNat := by rw [BitVec.toNat_ofNat, Nat.mod_eq_of_lt (x.sReg_lt i)]

/-- s0 reads 0 whatever is written to it; another register reads what was last written. -/
theorem sReg_setS (j : Nat) : (x.setS i v).sReg j = if j = 0 then 0 else if j = i then v % 2 ^ 64 else x.sReg j := by
  unfold setS sReg
  by_cases hj : j = 0
  · rw [if_pos hj, if_pos hj]
  rw [if_neg hj, if_neg hj, if_neg hj]
  by_cases hji : j = i
  · subst hji
    rw [if_neg hj, if_pos rfl, Sparse.get_set_self, Nat.mod_mod]
  · rw [if_neg hji]
    split
    · rfl
    · rw [Sparse.get_set_ne _ _ _ _ hji]

/-- p0 reads all ones whatever is written to it; another register reads what was last written. -/
theorem pReg_setP (j : Nat) : (x.setP i v).pReg j = if j = 0 then 2 ^ 64 - 1 else if j = i then v % 2 ^ 64 else x.pReg j := by
  unfold setP pReg
  by_cases hj : j = 0
  · rw [if_pos hj, if_pos hj]
  rw [if_neg hj, if_neg hj, if_neg hj]
  by_cases hji : j = i
  · subst hji
    rw [if_neg hj, if_pos rfl, Sparse.get_set_self, Nat.mod_mod]
  · rw [if_neg hji]
    split
    · rfl
    · rw [Sparse.get_set_ne _ _ _ _ hji]

theorem vReg_setV (j : Nat) : (x.setV i v).vReg j = if j = i then v % 2 ^ 512 else x.vReg j := by
  unfold setV vReg
  split
  · next h => rw [h, Sparse.get_set_self, Nat.mod_mod]
  · next h => rw [Sparse.get_set_ne _ _ _ _ h]

/-- A write to a register file changes that file alone. -/
theorem setS_eq : ∃ f, x.setS i v = { x with s := f } := by
  unfold setS
  split
  · exact ⟨x.s, rfl⟩
  · exact ⟨_, rfl⟩

theorem setP_eq : ∃ f, x.setP i v = { x with p := f } := by
  unfold setP
  split
  · exact ⟨x.p, rfl⟩
  · exact ⟨_, rfl⟩

@[simp] theorem setS_retired : (x.setS i v).retired = x.retired := by obtain ⟨f, h⟩ := x.setS_eq i v; rw [h]
@[simp] theorem setP_retired : (x.setP i v).retired = x.retired := by obtain ⟨f, h⟩ := x.setP_eq i v; rw [h]
@[simp] theorem setV_retired : (x.setV i v).retired = x.retired := rfl
@[simp] theorem step_retired : x.step.retired = x.retired := rfl
@[simp] theorem goto_retired (t : Int) : (x.goto t).retired = x.retired := rfl

/-- A scalar register takes the low 64 bits of what is written. -/
theorem setS_congr {u : Nat} (h : u % 2 ^ 64 = v % 2 ^ 64) : x.setS i u = x.setS i v := by unfold setS; rw [h]

end Eng

/-- Settles O27: each file is read where it was written, and a write to one changes that file alone. -/
theorem engineRegisters : Obligations.EngineRegisters := fun x i v => by
  refine ⟨x.sReg_setS i v, x.pReg_setP i v, x.vReg_setV i v, ?_⟩
  obtain ⟨s, hs⟩ := x.setS_eq i v
  obtain ⟨p, hp⟩ := x.setP_eq i v
  rw [hs, hp]
  exact ⟨fun j => ⟨rfl, rfl, rfl, rfl, rfl, rfl⟩, rfl, rfl, rfl, rfl, rfl, rfl⟩

/-! ### Instructions and their ends (R275, R295, R296) -/

namespace Dev

variable {d : Dev} {e : Nat} {fits : Nat → Bool} {f : Dev → Eng → KRes}

theorem eng_setEng_ne (d : Dev) {e k : Nat} (x : Eng) (h : k ≠ e) : (d.setEng e x).eng k = d.eng k := Sparse.get_set_ne _ _ _ _ h

/-- What the end of an instruction does to the device. -/
def kEffect (d : Dev) (e : Nat) : KRes → Dev
  | .next y free => (d.setEng e { y with retired := y.retired + 1 }).freeUsed free
  | .exc code => d.engException e code
  | .stall => d
  | .emit w1 hint => (d.setEng e { d.eng e with retired := (d.eng e).retired + 1 }).emitVerdict e w1 hint

/-- A word inside the code of a running body is executed: RUN_LIMIT comes before the instruction, whatever it is (R296). -/
theorem kreov_fetched (he : e < 64) (hbody : (d.eng e).body.isSome = true) (hpc : ∃ i, (d.eng e).img = some i ∧ (d.eng e).pc < i.codeLen)
    (hfits : fits (d.eng e).word = true) :
    d.kreov e fits f = if (d.eng e).limit * 1024 ≤ (d.eng e).retired then d.engException e 0x10 else d.kEffect e (f d (d.eng e)) := by
  obtain ⟨i, himg, hpc⟩ := hpc
  unfold kreov
  extract_lets x codeLen
  have hcode : codeLen = i.codeLen := by simp only [codeLen, x, himg]
  have hnone : x.body.isNone = false := by rw [← Option.not_isSome, hbody]; rfl
  rw [if_neg (by simp [hnone, hcode, x, hfits, hpc, he])]
  rfl

theorem kreov_of_runs (h : d.runs e fits) : d.kreov e fits f = d.kEffect e (f d (d.eng e)) := by
  obtain ⟨he, hbody, hpc, hfits, hlimit⟩ := h
  rw [kreov_fetched he hbody hpc hfits, if_neg (Nat.not_le.mpr hlimit)]

/-- What a word is taken for is all that counts of it. -/
theorem runs_of_imp {g : Nat → Bool} (h : d.runs e fits) (hg : ∀ w, fits w = true → g w = true) : d.runs e g := by
  obtain ⟨he, hbody, hpc, hfits, hlimit⟩ := h
  exact ⟨he, hbody, hpc, hg _ hfits, hlimit⟩

theorem kreov_eq {r : KRes} (h : d.runs e fits) (hf : f d (d.eng e) = r) : d.kreov e fits f = d.kEffect e r := hf ▸ kreov_of_runs h

/-- A word inside the code that is no instruction raises ILLEGAL, after RUN_LIMIT. -/
theorem kIllegal_inside (he : e < 64) (hbody : (d.eng e).body.isSome = true) (hpc : ∃ i, (d.eng e).img = some i ∧ (d.eng e).pc < i.codeLen)
    (hlegal : kLegal (d.eng e).word = false) :
    d.kIllegal e = if (d.eng e).limit * 1024 ≤ (d.eng e).retired then d.engException e 0x10 else d.engException e 0x02 := by
  obtain ⟨i, himg, hpc⟩ := hpc
  unfold kIllegal
  extract_lets x codeLen
  have hcode : codeLen = i.codeLen := by simp only [codeLen, x, himg]
  have hnone : x.body.isNone = false := by rw [← Option.not_isSome, hbody]; rfl
  rw [if_neg (by simp [hnone, x, hlegal, he]), if_neg (show ¬codeLen ≤ x.pc by rw [hcode]; exact Nat.not_le.mpr hpc)]

/-- PC beyond the code raises the exception for it, after RUN_LIMIT. -/
theorem kIllegal_outside (he : e < 64) (hbody : (d.eng e).body.isSome = true) (hpc : ∀ i, (d.eng e).img = some i → i.codeLen ≤ (d.eng e).pc) :
    d.kIllegal e = if (d.eng e).limit * 1024 ≤ (d.eng e).retired then d.engException e 0x10 else d.engException e 0x01 := by
  unfold kIllegal
  extract_lets x codeLen
  have hcode : codeLen ≤ x.pc := by
    simp only [codeLen]
    split
    · next i himg => exact hpc i himg
    · exact Nat.zero_le _
  have hnone : x.body.isNone = false := by rw [← Option.not_isSome, hbody]; rfl
  rw [if_neg (by simp [hnone, he]; omega), if_pos hcode]

end Dev

/-! ### Instructions that retire, or wait -/

section Commands

variable {i : Instr} {s : State} {e : Nat} {fits : Nat → Bool} {f : Dev → Eng → KRes}

theorem retires_of_next (hi : exec i s = s.run (·.kreov e fits f)) (h : s.dev.runs e fits) {y : Eng} {n : Nat}
    (hf : f s.dev (s.dev.eng e) = .next y n) (hr : y.retired = (s.dev.eng e).retired) : Retires i s e y := by
  refine completes_of_eq hi (Dev.kreov_eq h hf) ⟨?_, fun k hk => ?_, Dev.keepsRegs_canon fun _ _ => rfl, Dev.keepsMemory_canon rfl rfl rfl rfl⟩
  · exact (s.dev.eng_setEng e _).trans (by rw [hr])
  · exact s.dev.eng_setEng_ne _ hk

theorem waits_of_stall (hi : exec i s = s.run (·.kreov e fits f)) (h : s.dev.runs e fits) (hf : f s.dev (s.dev.eng e) = .stall) : Waits i s :=
  completes_of_eq hi (Dev.kreov_eq h hf) rfl

/-- A result that is `v` in 64 bits goes to a scalar register. -/
theorem writesS_of_next (hi : exec i s = s.run (·.kreov e fits f)) (h : s.dev.runs e fits) {rd u v : Nat}
    (hf : f s.dev (s.dev.eng e) = .next ((s.dev.eng e).setS rd u).step) (hv : u % 2 ^ 64 = v) : WritesS i s e rd v := by
  rw [(s.dev.eng e).setS_congr rd v (by rw [← hv, Nat.mod_mod])] at hf
  exact retires_of_next hi h hf (by simp)

end Commands

end Machine
end Sys2Proof
end

section
/-! PROOF. O36, how a body ends. An exception notes itself on the engine's page, resolves the body by default, and the engine leaves the body; none of
this touches another engine, the memories, or what was noted. -/

namespace Sys2Proof.Machine

/-- A calm field that is none of the counters of page DISP in which a default verdict counts (a group of bodies has no bound here). -/
def Fld.spared (f : Fld) : Prop :=
  f.calm = true ∧ (∀ n < 16, f.key ≠ (F.DISP_CNT_CAUSE_COUNT n).key) ∧ ∀ g, f.key ≠ (F.DISP_GRP_MISS_COUNT g).key ∧ f.key ≠ (F.DISP_GRP_VERD_COUNT g).key

/-- A field of an engine's page in a word at a multiple of 16 past the header, or not in the lowest bit of a word. -/
theorem Fld.spared_engine {e o l w r : Nat} (he : e < 64) (ho : 0x40 ≤ o) (ho' : o < 0x1_0000) (hl : l < 32) (h : o % 16 = 0 ∨ l ≠ 0) :
    (⟨bar0 (64 + e) o, l, w, r⟩ : Fld).spared :=
  ⟨calm_of_plain (plain_engine he ho ho' hl), fun n _ => by simp only [key, bar0]; omega, fun g => by simp only [key, bar0]; omega⟩

namespace Dev

variable (d : Dev) {e : Nat} {f : Fld}

/-- The four memories. -/
def memories (d : Dev) : List Host.Cell × List Host.Cell × List Host.Cell × List Host.Cell := (d.mem, d.host, d.flash, d.mram)

theorem keepsMemory_of_memories {d y : Dev} (h : y.memories = d.memories) : KeepsMemory d y.canon := by
  simp only [memories, Prod.mk.injEq] at h
  obtain ⟨hmem, hhost, hflash, hmram⟩ := h
  exact keepsMemory_canon hmem hhost hflash hmram

/-- What a default verdict leaves alone: the engines, the time, the memories. -/
def engineSide (d : Dev) := (d.engines, d.time, d.memories)

theorem engineSide_of_unrecorded {d y : Dev} (h : y.unrecorded = d.unrecorded) : y.engineSide = d.engineSide := (congrArg engineSide h :)

theorem eng_of_engineSide {d y : Dev} (h : y.engineSide = d.engineSide) (k : Nat) : y.eng k = d.eng k := eng_of_engines (congrArg Prod.fst h) k

theorem memories_of_engineSide {d y : Dev} (h : y.engineSide = d.engineSide) : y.memories = d.memories := congrArg (·.2.2) h

/-- The cycles of the running body are read from the engine, the time and the point in force. -/
theorem engCycles_of_engineSide {d y : Dev} (h : y.engineSide = d.engineSide) (hp : y.get (F.ENG_PT_ACT e) = d.get (F.ENG_PT_ACT e)) :
    y.engCycles e = d.engCycles e := by
  have htime : y.time = d.time := congrArg (·.2.1) h
  simp only [engCycles, elapsed, eng_of_engineSide h, hp, htime]

/-! ### Default verdicts (R253) -/

theorem engineSide_merSend (typ hi units : Nat) (pl : List Nat) : (d.merSend typ hi units pl).engineSide = d.engineSide := by
  obtain ⟨m, o, h⟩ := d.merSend_eq typ hi units pl
  rw [h]
  rfl

theorem engineSide_pass (id : Nat) (v : Verdict) (replaced : Bool) : (d.pass id v replaced).engineSide = d.engineSide := rfl

theorem engineSide_twilightPass (b : CBody) (cause : Nat) (replaced : Bool) : (d.twilightPass b cause replaced).engineSide = d.engineSide := by
  unfold twilightPass
  generalize d.twilight b.group (ctxOf b.id) cause = v
  dsimp only
  rw [engineSide_pass]
  exact (apply_ite engineSide _ _ _).trans (ite_self _)

theorem engineSide_defaultVerdict (b : CBody) (cause : Nat) : (d.defaultVerdict b cause).engineSide = d.engineSide := by
  unfold defaultVerdict
  extract_lets replaced d₁ d₂
  have h₁ : d₁.engineSide = d.engineSide := engineSide_of_unrecorded (unrecorded_countCause d _ _)
  have h₂ : d₂.engineSide = d₁.engineSide := by
    rw [apply_ite engineSide, engineSide_twilightPass, engineSide_pass, ite_self]
  rw [apply_ite engineSide, engineSide_merSend, ite_self, h₂, h₁]

theorem get_defaultVerdict_spared (hf : f.spared) (b : CBody) {cause : Nat} (hc : cause < 16) : (d.defaultVerdict b cause).get f = d.get f := by
  obtain ⟨hcalm, hcause, hgroup⟩ := hf
  have h₀ : (d.countCause b.group cause).get f = d.get f := by
    rw [countCause, get_ite, get_raise _ _ _ hcalm, get_count_ne _ _ (hgroup _).1, ite_self, get_count_ne _ _ (hcause _ (by omega))]
  unfold defaultVerdict
  extract_lets replaced d₁ d₂
  have h₁ : d₁.get f = d.get f := (get_count_ne _ _ (hgroup _).2).trans h₀
  have h₂ : d₂.get f = d₁.get f := by rw [get_ite, get_twilightPass, get_pass, ite_self]
  rw [get_ite, get_merSend, ite_self, h₂, h₁]

theorem marksStand_merSend (typ hi units : Nat) (pl : List Nat) : d.MarksStand (d.merSend typ hi units pl) := by
  refine MarksStand.of_get ?_ fun _ => get_merSend d typ hi units pl
  obtain ⟨m, o, h⟩ := d.merSend_eq typ hi units pl
  rw [h]

theorem marksStand_defaultVerdict (b : CBody) {cause : Nat} (hc : cause < 16) : d.MarksStand (d.defaultVerdict b cause) := by
  have hcause : (F.DISP_CNT_CAUSE_COUNT (cause - 1)).unmarked := by simp only [Fld.unmarked, Fld.mark, Fld.key, bar0]; omega
  have hmiss : (F.DISP_GRP_MISS_COUNT b.group).unmarked := by simp only [Fld.unmarked, Fld.mark, Fld.key, bar0]; omega
  have hverd : (F.DISP_GRP_VERD_COUNT b.group).unmarked := by simp only [Fld.unmarked, Fld.mark, Fld.key, bar0]; omega
  have h₀ : d.MarksStand (d.countCause b.group cause) :=
    .ite ((MarksStand.refl d).count _ hcause) ((((MarksStand.refl d).count _ hcause).count _ hmiss).raise _ _)
  unfold defaultVerdict
  extract_lets replaced d₁ d₂
  have h₁ : d.MarksStand d₁ := h₀.count _ hverd
  have h₂ : d.MarksStand d₂ := .ite (h₁.trans (marksStand_twilightPass d₁ _ _ _)) (h₁.trans (.of_regs rfl))
  exact .ite (h₂.trans (marksStand_merSend d₂ _ _ _ _)) h₂

/-! ### The engine leaves its body (R291) -/

theorem memories_startBody (e : Nat) : (d.startBody e).memories = d.memories := by
  obtain h | ⟨x, h⟩ := startBody_cases d e
  · rw [h]
  · rw [h]; rfl

theorem eng_startBody_ne {k : Nat} (h : k ≠ e) : (d.startBody e).eng k = d.eng k := by
  obtain hs | ⟨x, hs⟩ := startBody_cases d e
  · rw [hs]
  · rw [hs]; exact d.eng_setEng_ne x h

/-- No body starts where none is fetched. -/
theorem startBody_unfetched (h : (d.eng e).fetched = none) : d.startBody e = d := by
  cases hbody : (d.eng e).body <;> simp only [startBody, h, hbody]

theorem keepsRegs_startBody (e : Nat) : KeepsRegs d (d.startBody e) [F.ENG_STAT_RUN e, F.ENG_STAT_FETCHED e, F.ENG_BODY_BODY_ID e] := by
  obtain h | ⟨x, h⟩ := startBody_cases d e
  · rw [h]; exact fun _ _ => rfl
  · rw [h]; exact keepsRegs_engShow (d.setEng e x) e

/-- The engine after its body, its reads in flight abandoned. -/
def ended (d : Dev) (e : Nat) : Eng :=
  { d.eng e with body := none, struck := none, busy := (d.eng e).busy + d.engCycles e, xfers := (d.eng e).xfers.filter (fun t => !t.isRead) }

/-- The device as the body leaves the engine, before the engine goes OFFLINE or starts the next. -/
def left (d : Dev) (e : Nat) : Dev :=
  ((d.setEng e (d.ended e)).engShow e).set (F.ENG_BUSY_KCYCLES e) (((d.eng e).busy + d.engCycles e) / 1024)

theorem endBody_eq (e : Nat) : d.endBody e =
    if (d.left e).bit (F.BLK_CTRL_OFFLINE_REQ (engPage e)) then (d.left e).put (F.BLK_STAT_OFFLINE (engPage e)) true else (d.left e).startBody e := rfl

theorem eng_left (e : Nat) : (d.left e).eng e = d.ended e := d.eng_setEng e _

theorem memories_endBody (e : Nat) : (d.endBody e).memories = d.memories := by
  rw [endBody_eq, apply_ite memories, memories_startBody]
  exact ite_self _

theorem eng_endBody_ne {k : Nat} (h : k ≠ e) : (d.endBody e).eng k = d.eng k := by
  rw [endBody_eq, apply_ite (Dev.eng · k), eng_startBody_ne _ h]
  exact (ite_self _).trans (d.eng_setEng_ne _ h)

theorem eng_endBody (h : (d.eng e).fetched = none) : (d.endBody e).eng e = d.ended e := by
  have hstart : (d.left e).startBody e = d.left e := startBody_unfetched _ (by rw [eng_left]; exact h)
  rw [endBody_eq, hstart, apply_ite (Dev.eng · e)]
  exact (ite_self _).trans (d.eng_left e)

/-- The fields that show an engine and its bodies. -/
def engineFields (e : Nat) : List Fld := [F.ENG_STAT_RUN e, F.ENG_STAT_FETCHED e, F.ENG_BODY_BODY_ID e] ++ [F.BLK_STAT_OFFLINE (engPage e)]

theorem keepsRegs_afterLeft (e : Nat) : KeepsRegs (d.left e) (d.endBody e) (engineFields e) := fun g hg => by
  simp only [engineFields, List.cons_append, List.nil_append, List.map_cons, List.map_nil, List.mem_cons, List.not_mem_nil, or_false, not_or] at hg
  obtain ⟨hrun, hfetched, hid, hoff⟩ := hg
  rw [endBody_eq, get_ite, get_put_ne _ _ hoff, (d.left e).keepsRegs_startBody e g (by simp [hrun, hfetched, hid]), ite_self]

theorem keepsRegs_endBody (e : Nat) : KeepsRegs d (d.endBody e) (F.ENG_BUSY_KCYCLES e :: engineFields e) := fun g hg => by
  obtain ⟨hbusy, hrest⟩ : g.key ≠ (F.ENG_BUSY_KCYCLES e).key ∧ g.key ∉ (engineFields e).map Fld.key := by simpa using hg
  have hshow : g.key ∉ [F.ENG_STAT_RUN e, F.ENG_STAT_FETCHED e, F.ENG_BODY_BODY_ID e].map Fld.key := fun h =>
    hrest (by rw [engineFields, List.map_append]; exact List.mem_append_left _ h)
  rw [d.keepsRegs_afterLeft e g hrest, left, get_set_ne _ _ hbusy]
  exact keepsRegs_engShow (d.setEng e (d.ended e)) e g hshow

/-- The engine's busy time is shown as its body leaves. -/
theorem kcycles_endBody (e : Nat) : (d.endBody e).get (F.ENG_BUSY_KCYCLES e) = ((d.eng e).busy + d.engCycles e) / 1024 % 2 ^ 32 := by
  rw [d.keepsRegs_afterLeft e _ (by simp [engineFields, Fld.key, bar0, engPage]; omega)]
  exact get_set_self _ _ _

/-! ### Exceptions (R254, R295) -/

/-- The exception noted on the engine's page, with its interrupt. -/
def excNoted (d : Dev) (e code : Nat) : Dev :=
  (((d.count (F.ENG_CNT_EXC_COUNT e)).set (F.ENG_LAST_EXC_PC e) ((d.eng e).pc / 4)).set (F.ENG_LAST_EXC_CAUSE e) code).raise (engPage e) 3

/-- The body resolved for an exception, where it has no verdict yet. -/
def excResolved (d : Dev) (id code : Nat) : Dev := match d.bodyOf id with
  | some b => if b.verdict.isSome then d else d.defaultVerdict b (if code = 0x10 then 4 else 3)
  | none => d

theorem engException_eq {id : Nat} (hid : (d.eng e).body = some id) (ho : d.overdue e = none) (code : Nat) :
    d.engException e code = ((d.excNoted e code).excResolved id code).endBody e := by
  simp only [engException, ho, hid]
  rfl

theorem excResolved_cases (id code : Nat) : d.excResolved id code = d ∨ ∃ b cause, cause < 16 ∧ d.excResolved id code = d.defaultVerdict b cause := by
  unfold excResolved
  split
  · next b _ =>
    split
    · exact .inl rfl
    · exact .inr ⟨b, _, by split <;> decide, rfl⟩
  · exact .inl rfl

theorem engineSide_excResolved (id code : Nat) : (d.excResolved id code).engineSide = d.engineSide := by
  obtain h | ⟨b, cause, -, h⟩ := d.excResolved_cases id code
  · rw [h]
  · rw [h, engineSide_defaultVerdict]

theorem get_excResolved (hf : f.spared) (id code : Nat) : (d.excResolved id code).get f = d.get f := by
  obtain h | ⟨b, cause, hc, h⟩ := d.excResolved_cases id code
  · rw [h]
  · rw [h, get_defaultVerdict_spared _ hf b hc]

theorem marksStand_excResolved (id code : Nat) : d.MarksStand (d.excResolved id code) := by
  obtain h | ⟨b, cause, hc, h⟩ := d.excResolved_cases id code
  · rw [h]; exact .refl d
  · rw [h]; exact d.marksStand_defaultVerdict b hc

theorem engineSide_excNoted (e code : Nat) : (d.excNoted e code).engineSide = d.engineSide := engineSide_of_unrecorded (by simp [excNoted])

/-- What an exception shows, and what it leaves alone (R291, R295). -/
theorem engException_shows {code : Nat} (he : e < 64) (hc : code < 256) (hbody : (d.eng e).body.isSome = true) (ho : d.overdue e = none) :
    (d.engException e code).get (F.ENG_LAST_EXC_CAUSE e) = code ∧ (d.engException e code).get (F.ENG_LAST_EXC_PC e) = (d.eng e).pc / 4 % 2 ^ 14
      ∧ (d.engException e code).testBit (F.BLK_IRQ_RAW (engPage e)) 3 = true ∧ ((d.eng e).fetched = none → (d.engException e code).eng e = d.ended e)
      ∧ (∀ k, k ≠ e → (d.engException e code).eng k = d.eng k) ∧ (d.engException e code).memories = d.memories := by
  obtain ⟨id, hid⟩ := Option.isSome_iff_exists.mp hbody
  have hside : ((d.excNoted e code).excResolved id code).engineSide = d.engineSide :=
    (engineSide_excResolved _ _ _).trans (d.engineSide_excNoted e code)
  have hraw : ((d.excNoted e code).excResolved id code).testBit (F.BLK_IRQ_RAW (engPage e)) 3 = true :=
    (marksStand_excResolved _ id code).raw _ _ (by decide) (raise_raw _ _ _ (by decide))
  have hget : ∀ f : Fld, f.spared → ((d.excNoted e code).excResolved id code).get f
      = (((d.count (F.ENG_CNT_EXC_COUNT e)).set (F.ENG_LAST_EXC_PC e) ((d.eng e).pc / 4)).set (F.ENG_LAST_EXC_CAUSE e) code).get f := fun f hf =>
    (get_excResolved _ hf id code).trans (get_raise _ _ _ hf.1)
  have hend : ∀ l w r, l < 32 → (((d.excNoted e code).excResolved id code).endBody e).get ⟨bar0 (64 + e) 0x60, l, w, r⟩
      = ((d.excNoted e code).excResolved id code).get ⟨bar0 (64 + e) 0x60, l, w, r⟩ := fun l w r hl =>
    keepsRegs_endBody _ e _ (by simp [engineFields, Fld.key, bar0, engPage]; omega)
  have hcycles : ((d.excNoted e code).excResolved id code).engCycles e = d.engCycles e := engCycles_of_engineSide hside (by
    rw [hget _ (Fld.spared_engine he (by decide) (by decide) (by decide) (by decide)), get_set_ne _ _ (by simp only [Fld.key, bar0]; omega),
      get_set_ne _ _ (by simp only [Fld.key, bar0]; omega), get_count_ne _ _ (by simp only [Fld.key, bar0]; omega)])
  rw [engException_eq d hid ho]
  generalize (d.excNoted e code).excResolved id code = y at hside hraw hget hend hcycles
  refine ⟨?_, ?_, ?_, fun hf => ?_, fun k hk => ?_, ?_⟩
  · rw [hend _ _ _ (by decide), hget _ (Fld.spared_engine he (by decide) (by decide) (by decide) (by decide)), get_set_self]
    exact Nat.mod_eq_of_lt hc
  · rw [hend _ _ _ (by decide), hget _ (Fld.spared_engine he (by decide) (by decide) (by decide) (by decide)),
      get_set_ne _ _ (by simp only [Fld.key]; omega), get_set_self]
  · exact (y.marksStand_endBody e).raw _ _ (by decide) hraw
  · have heng := eng_of_engineSide hside e
    rw [eng_endBody _ (heng ▸ hf), ended, heng, hcycles, ended]
  · rw [eng_endBody_ne _ hk, eng_of_engineSide hside]
  · rw [memories_endBody, memories_of_engineSide hside]

end Dev

section Commands

variable {i : Instr} {s : State} {e : Nat} {fits : Nat → Bool} {f : Dev → Eng → KRes}

theorem raises_of_engException {u : Dev → Dev} {code : Nat} (hi : exec i s = s.run u) (hu : u s.dev = s.dev.engException e code) (he : e < 64)
    (hbody : (s.dev.eng e).body.isSome = true) (hc : code < 256 := by decide) : Raises i s e code := fun ho => by
  obtain ⟨hcause, hpc, hraw, heng, hothers, hmem⟩ := s.dev.engException_shows he hc hbody ho
  refine completes_of_eq hi hu ⟨?_, ?_, ?_, heng, hothers, Dev.keepsMemory_of_memories hmem⟩
  · rw [Dev.get_canon, hcause]
  · rw [Dev.get_canon, hpc]
  · rw [Dev.testBit_canon]; exact hraw

theorem raises_of_exc {code : Nat} (hi : exec i s = s.run (·.kreov e fits f)) (h : s.dev.runs e fits) (hf : f s.dev (s.dev.eng e) = .exc code)
    (hc : code < 256 := by decide) : Raises i s e code :=
  raises_of_engException hi (Dev.kreov_eq h hf) h.1 h.2.1 hc

section Illegal

variable (he : e < 64) (hbody : (s.dev.eng e).body.isSome = true) (hlimit : (s.dev.eng e).retired < (s.dev.eng e).limit * 1024)
include he hbody hlimit

theorem illegalInstruction_raises (hpc : ∃ i, (s.dev.eng e).img = some i ∧ (s.dev.eng e).pc < i.codeLen) (hlegal : kLegal (s.dev.eng e).word = false) :
    Raises (.illegalInstruction e) s e 0x02 :=
  raises_of_engException (u := (·.kIllegal e)) rfl ((Dev.kIllegal_inside he hbody hpc hlegal).trans (if_neg (Nat.not_le.mpr hlimit))) he hbody

theorem illegalInstruction_raises_outside (hpc : ∀ i, (s.dev.eng e).img = some i → i.codeLen ≤ (s.dev.eng e).pc) :
    Raises (.illegalInstruction e) s e 0x01 :=
  raises_of_engException (u := (·.kIllegal e)) rfl ((Dev.kIllegal_outside he hbody hpc).trans (if_neg (Nat.not_le.mpr hlimit))) he hbody

end Illegal

end Commands

end Sys2Proof.Machine
end

section
/-! PROOF. O28 and O29, the scalar functions. Each is one of `BitVec 64`, and what the model computes on numbers is that function's value; the facts
about words hold in every width, and the vector functions use them again. -/

namespace Sys2Proof

section Words

variable {w : Nat} (a b : BitVec w)

theorem uns_mod (i : Int) : uns w i % 2 ^ w = (BitVec.ofInt w i).toNat := by rw [uns_eq_toNat, Nat.mod_eq_of_lt (BitVec.isLt _)]

/-- The value of a bit vector fits its width. -/
theorem mod_of_eq_toNat {v : Nat} (h : v = a.toNat) : v % 2 ^ w = a.toNat := by rw [h, Nat.mod_eq_of_lt a.isLt]

theorem sub_wraps : (a.toNat + 2 ^ w - b.toNat) % 2 ^ w = (a - b).toNat := by
  rw [BitVec.toNat_sub, Nat.add_comm, Nat.sub_add_comm b.isLt.le]

theorem shl_wraps (n : Nat) : a.toNat * 2 ^ n % 2 ^ w = (a <<< n).toNat := by rw [BitVec.toNat_shiftLeft, Nat.shiftLeft_eq]

theorem shr_mod (n : Nat) : a.toNat / 2 ^ n % 2 ^ w = (a >>> n).toNat :=
  mod_of_eq_toNat _ (by rw [BitVec.toNat_ushiftRight, Nat.shiftRight_eq_div_pow])

theorem sar_mod (n : Nat) : uns w (sgn w a.toNat / 2 ^ n) % 2 ^ w = (a.sshiftRight n).toNat := by
  have h : BitVec.ofInt w (a.toInt / 2 ^ n) = a.sshiftRight n := by
    rw [BitVec.sshiftRight_eq, Int.shiftRight_eq_div_pow]
    rfl
  rw [uns_mod, sgn_toNat, h]

theorem and_mod : (a.toNat &&& b.toNat) % 2 ^ w = (a &&& b).toNat := mod_of_eq_toNat _ (BitVec.toNat_and a b).symm
theorem or_mod : (a.toNat ||| b.toNat) % 2 ^ w = (a ||| b).toNat := mod_of_eq_toNat _ (BitVec.toNat_or a b).symm
theorem xor_mod : (a.toNat ^^^ b.toNat) % 2 ^ w = (a ^^^ b).toNat := mod_of_eq_toNat _ (BitVec.toNat_xor a b).symm

theorem min_mod : (if sgn w a.toNat ≤ sgn w b.toNat then a.toNat else b.toNat) % 2 ^ w = (BitVec.ofInt w (min a.toInt b.toInt)).toNat := by
  rw [sgn_toNat, sgn_toNat]
  split
  · next h => rw [min_eq_left h, BitVec.ofInt_toInt, Nat.mod_eq_of_lt a.isLt]
  · next h => rw [min_eq_right (by omega), BitVec.ofInt_toInt, Nat.mod_eq_of_lt b.isLt]

theorem max_mod : (if sgn w a.toNat ≤ sgn w b.toNat then b.toNat else a.toNat) % 2 ^ w = (BitVec.ofInt w (max a.toInt b.toInt)).toNat := by
  rw [sgn_toNat, sgn_toNat]
  split
  · next h => rw [max_eq_right h, BitVec.ofInt_toInt, Nat.mod_eq_of_lt b.isLt]
  · next h => rw [max_eq_left (by omega), BitVec.ofInt_toInt, Nat.mod_eq_of_lt a.isLt]

theorem minu_mod : min a.toNat b.toNat % 2 ^ w = min a.toNat b.toNat := Nat.mod_eq_of_lt ((Nat.min_le_left _ _).trans_lt a.isLt)
theorem maxu_mod : max a.toNat b.toNat % 2 ^ w = max a.toNat b.toNat := Nat.mod_eq_of_lt (Nat.max_lt.mpr ⟨a.isLt, b.isLt⟩)

theorem mulhu_mod : a.toNat * b.toNat / 2 ^ w % 2 ^ w = a.toNat * b.toNat / 2 ^ w :=
  Nat.mod_eq_of_lt (Nat.div_lt_of_lt_mul (Nat.mul_lt_mul'' a.isLt b.isLt))

theorem toNat_eq_zero_iff : b.toNat = 0 ↔ b = 0 := by rw [BitVec.toNat_eq]; rfl

theorem quou_mod : (if b.toNat = 0 then 0 else a.toNat / b.toNat) % 2 ^ w = if b = 0 then 0 else a.toNat / b.toNat := by
  simp only [toNat_eq_zero_iff]
  split
  · exact Nat.zero_mod _
  · exact Nat.mod_eq_of_lt ((Nat.div_le_self _ _).trans_lt a.isLt)

theorem modu_mod : (if b.toNat = 0 then 0 else a.toNat % b.toNat) % 2 ^ w = if b = 0 then 0 else a.toNat % b.toNat := by
  simp only [toNat_eq_zero_iff]
  split
  · exact Nat.zero_mod _
  · exact Nat.mod_eq_of_lt ((Nat.mod_le _ _).trans_lt a.isLt)

end Words

namespace Machine

/-- A truth value as a word. -/
theorem b2n_mod (p : Prop) [Decidable p] : b2n (decide p) % 2 ^ 64 = if p then 1 else 0 := by
  by_cases h : p <;> simp [h, b2n]

section Division

variable (a b : BitVec 64)

theorem quo64_mod : quo64 a.toNat b.toNat % 2 ^ 64 = if b = 0 then 0 else if a.toInt = -2 ^ 63 ∧ b.toInt = -1 then 2 ^ 63 - 1
    else (BitVec.ofInt 64 (a.toInt.fdiv b.toInt)).toNat := by
  simp only [quo64, sgn_toNat, toNat_eq_zero_iff]
  split
  · rfl
  split
  · rfl
  · exact uns_mod _

/-- The remainder of the one quotient that does not fit is 0 as any other of a division by -1. -/
theorem mod64_mod : mod64 a.toNat b.toNat % 2 ^ 64 = if b = 0 then 0 else (BitVec.ofInt 64 (a.toInt.fmod b.toInt)).toNat := by
  simp only [mod64, sgn_toNat, toNat_eq_zero_iff]
  split
  · rfl
  split
  · next h =>
    obtain ⟨ha, hb⟩ := h
    rw [ha, hb]
    rfl
  · rw [uns_mod, Int.fmod_def]

end Division

/-! ### Bits counted (Table isa-5) -/

/-- CLZ: the zeros above the highest bit set. -/
theorem clz_spec {v : Nat} (hv : v < 2 ^ 64) :
    let n := if v = 0 then 64 else 63 - Nat.log2 v
    n ≤ 64 ∧ v < 2 ^ (64 - n) ∧ (n < 64 → 2 ^ (63 - n) ≤ v) := by
  intro n
  by_cases h : v = 0
  · have hn : n = 64 := if_pos h
    rw [hn]
    exact ⟨le_rfl, by rw [h]; decide, fun hlt => absurd hlt (lt_irrefl _)⟩
  · have hn : n = 63 - Nat.log2 v := if_neg h
    have hlog : Nat.log2 v < 64 := (Nat.log2_lt h).mpr hv
    rw [hn]
    refine ⟨by omega, ?_, fun _ => ?_⟩
    · rw [show 64 - (63 - Nat.log2 v) = Nat.log2 v + 1 by omega]
      exact Nat.lt_log2_self
    · rw [show 63 - (63 - Nat.log2 v) = Nat.log2 v by omega]
      exact Nat.log2_self_le h

theorem popCount_eq_countP (w v : Nat) : popCount w v = (List.range w).countP (fun k => v.testBit k) := by
  induction w generalizing v with
  | zero => rfl
  | succ w ih =>
    have hbit : v % 2 = if v.testBit 0 then 1 else 0 := by
      rw [Nat.testBit_zero]
      rcases Nat.mod_two_eq_zero_or_one v with h | h <;> simp [h]
    have htail : (fun k => v.testBit k) ∘ Nat.succ = fun k => (v / 2).testBit k := funext fun k => Nat.testBit_succ v k
    rw [popCount, ih, List.range_succ_eq_map, List.countP_cons, List.countP_map, htail, hbit, Nat.add_comm]

theorem popCount_mod (a : BitVec 64) : popCount 64 a.toNat % 2 ^ 64 = (List.range 64).countP (fun k => a.getLsbD k) := by
  have hle : (List.range 64).countP (fun k => a.getLsbD k) ≤ 64 := List.countP_le_length
  rw [popCount_eq_countP]
  exact Nat.mod_eq_of_lt (by change (List.range 64).countP (fun k => a.getLsbD k) < _; omega)

/-! ### The instructions -/

section Commands

variable {i : Instr} {s : State} {e rd rs1 rs2 v : Nat} {fits : Nat → Bool} {f : Nat → Nat → Nat} {a b : BitVec 64}

/-- A scalar function of two registers retires with its value in rd. -/
theorem writesS_of_alu (ha : (s.dev.eng e).sReg rs1 = a.toNat) (hb : (s.dev.eng e).sReg rs2 = b.toNat)
    (hi : exec i s = s.run (·.kreov e fits (kAlu rd rs1 rs2 f))) (h : s.dev.runs e fits) (hv : f a.toNat b.toNat % 2 ^ 64 = v) : WritesS i s e rd v :=
  writesS_of_next hi h rfl (by rw [ha, hb, hv])

/-- So of a register and an immediate. -/
theorem writesS_of_imm {imm : Nat} (ha : (s.dev.eng e).sReg rs1 = a.toNat) (hi : exec i s = s.run (·.kreov e fits (kImm rd rs1 imm f)))
    (h : s.dev.runs e fits) (hv : f a.toNat imm % 2 ^ 64 = v) : WritesS i s e rd v :=
  writesS_of_next hi h rfl (by rw [ha, hv])

end Commands

/-- Settles O28: each function is the one of its row on 64-bit words. -/
theorem scalarArithmetic : Obligations.ScalarArithmetic := fun s e rd rs1 rs2 => by
  intro a b runs
  have ha : (s.dev.eng e).sReg rs1 = a.toNat := Eng.sReg_eq_toNat _ _
  have hb : (s.dev.eng e).sReg rs2 = b.toNat := Eng.sReg_eq_toNat _ _
  clear_value a b
  have hzero : (s.dev.eng e).sReg 0 = (0 : BitVec 64).toNat := rfl
  obtain ⟨hle, hlt, hge⟩ := clz_spec a.isLt
  exact ⟨fun h => writesS_of_alu ha hb rfl h (BitVec.toNat_add a b).symm,
    fun h => writesS_of_alu ha hb rfl h (sub_wraps a b),
    fun h => writesS_of_alu ha hb rfl h (and_mod a b),
    fun h => writesS_of_alu ha hb rfl h (or_mod a b),
    fun h => writesS_of_alu ha hb rfl h (xor_mod a b),
    fun h => writesS_of_alu ha hb rfl h (shl_wraps a _),
    fun h => writesS_of_alu ha hb rfl h (shr_mod a _),
    fun h => writesS_of_alu ha hb rfl h (sar_mod a _),
    fun h => writesS_of_alu ha hb rfl h ((b2n_mod _).trans (by simp only [sgn_toNat])),
    fun h => writesS_of_alu ha hb rfl h (b2n_mod _),
    fun h => writesS_of_alu ha hb rfl h (BitVec.toNat_mul a b).symm,
    fun h => writesS_of_alu ha hb rfl h (mulhu_mod a b),
    fun h => writesS_of_alu ha hb rfl h ((uns_mod _).trans (by simp only [sgn_toNat])),
    fun h => writesS_of_alu ha hb rfl h (quou_mod a b),
    fun h => writesS_of_alu ha hb rfl h (modu_mod a b),
    fun h => writesS_of_alu ha hb rfl h (quo64_mod a b),
    fun h => writesS_of_alu ha hb rfl h (mod64_mod a b),
    fun h => writesS_of_alu ha hb rfl h (min_mod a b),
    fun h => writesS_of_alu ha hb rfl h (max_mod a b),
    fun h => writesS_of_alu ha hb rfl h (minu_mod a b),
    fun h => writesS_of_alu ha hb rfl h (maxu_mod a b),
    fun h => ⟨_, hle, hlt, hge, writesS_of_alu ha hzero rfl h (Nat.mod_eq_of_lt (hle.trans_lt (by decide)))⟩,
    fun h => writesS_of_alu ha hzero rfl h (popCount_mod a)⟩

/-! ### Immediates (R277) -/

/-- A number sign-extended. -/
theorem uns_sgn (w n v : Nat) : uns v (sgn w n) = ((BitVec.ofNat w n).signExtend v).toNat := by
  rw [uns_eq_toNat, sgn_eq_toInt]
  rfl

/-- ADDHI: the sign-extended immediate times 65,536. -/
theorem uns_sgn_high (n : Nat) : uns 64 (sgn 16 n * 65536) = ((BitVec.ofNat 16 n).signExtend 64 <<< 16).toNat := by
  have h : BitVec.ofInt 64 ((BitVec.ofNat 16 n).toInt * 65536) = (BitVec.ofNat 16 n).signExtend 64 <<< 16 := by
    rw [BitVec.ofInt_mul, BitVec.shiftLeft_eq_mul_twoPow]
    rfl
  rw [uns_eq_toNat, sgn_eq_toInt, h]

theorem Dev.runs_shift {d : Dev} {e kind rd rs1 amt : Nat} (h : d.runs e (isI 0x08 rd rs1 (kind * 64 + amt))) (ha : amt < 64) :
    d.runs e (isShift kind rd rs1 amt) := runs_of_imp h fun w hw => by simp [isShift, hw, ha]

/-- Shift kind 3, or a set bit in imm16[15:8], is no instruction. -/
theorem kLegal_shift {rd rs1 imm w : Nat} (h : isI 0x08 rd rs1 imm w = true) (hi : imm < 65536) (h192 : 192 ≤ imm) : kLegal w = false := by
  obtain ⟨hop, -, -, himm⟩ := of_decide_eq_true h
  have hkind : ¬(bitsAt w 8 8 = 0 ∧ bitsAt w 6 2 ≠ 3) := by
    simp only [bitsAt] at himm ⊢
    omega
  simp [kLegal, hop, hkind]

/-- Settles O29: the immediate is sign- or zero-extended as the function wants it, and the illegal shifts raise ILLEGAL. -/
theorem scalarImmediates : Obligations.ScalarImmediates := fun s e rd rs1 imm himm => by
  intro a i runs
  have ha : (s.dev.eng e).sReg rs1 = a.toNat := Eng.sReg_eq_toNat _ _
  clear_value a
  have hzero : (i.zeroExtend 64).toNat = imm := by
    rw [BitVec.zeroExtend_eq_setWidth, BitVec.toNat_setWidth, BitVec.toNat_ofNat]
    omega
  exact ⟨fun h => writesS_of_imm ha rfl h (by rw [BitVec.toNat_add, uns_sgn]),
    fun h => writesS_of_imm ha rfl h (mod_of_eq_toNat _ (by rw [BitVec.toNat_and, hzero])),
    fun h => writesS_of_imm ha rfl h (mod_of_eq_toNat _ (by rw [BitVec.toNat_or, hzero])),
    fun h => writesS_of_imm ha rfl h (mod_of_eq_toNat _ (by rw [BitVec.toNat_xor, hzero])),
    fun h => writesS_of_imm ha rfl h ((b2n_mod _).trans (by rw [sgn_toNat, sgn_eq_toInt])),
    fun h => writesS_of_imm ha rfl h (b2n_mod _),
    fun h => writesS_of_imm ha rfl h (by rw [BitVec.toNat_add, uns_sgn_high]),
    fun hi h => writesS_of_imm ha rfl (Dev.runs_shift (kind := 0) (by rwa [Nat.zero_mul, Nat.zero_add]) hi) (shl_wraps a imm),
    fun amt hamt hi h => writesS_of_imm ha rfl (Dev.runs_shift (kind := 1) (hi ▸ h) hamt) (shr_mod a amt),
    fun amt hamt hi h => writesS_of_imm ha rfl (Dev.runs_shift (kind := 2) (hi ▸ h) hamt) (sar_mod a amt),
    fun hi ⟨he, hbody, hpc, hfits, hlimit⟩ => illegalInstruction_raises he hbody hlimit hpc (kLegal_shift hfits himm hi)⟩

end Machine
end Sys2Proof
end

section
/-! PROOF. O30 and O31, scalar loads and stores, branches and jumps. An access is judged by its address, then by the right of each byte, then by the
transfers in flight; with none in flight it does not wait. -/

namespace Sys2Proof.Machine

/-! ### Little-endian bytes, and bytes put into a memory -/

theorem length_leBytes (n v : Nat) : (leBytes n v).length = n := by
  induction n generalizing v with
  | zero => rfl
  | succ n ih => rw [leBytes, List.length_cons, ih]

theorem getD_leBytes {n k : Nat} (h : k < n) (v : Nat) : (leBytes n v).getD k 0 = v / 2 ^ (8 * k) % 256 := by
  induction n generalizing k v with
  | zero => exact absurd h (Nat.not_lt_zero k)
  | succ n ih =>
    cases k with
    | zero => rw [leBytes, List.getD_cons_zero, Nat.mul_zero, pow_zero, Nat.div_one]
    | succ k =>
      rw [leBytes, List.getD_cons_succ, ih (by omega), Nat.div_div_eq_div_mul, Nat.mul_succ, pow_add]
      norm_num [Nat.mul_comm]

theorem get_putCells_ne (m : List Host.Cell) {a b : Nat} {bs : List Nat} (h : b < a ∨ a + bs.length ≤ b) :
    Sparse.get (putCells m a bs) 0 b = Sparse.get m 0 b := by
  induction bs generalizing m a with
  | nil => rfl
  | cons x xs ih =>
    rw [List.length_cons] at h
    rw [putCells, ih _ (by omega), Sparse.get_set_ne _ _ _ _ (by omega)]

theorem get_putCells (m : List Host.Cell) (a : Nat) {bs : List Nat} {k : Nat} (h : k < bs.length) :
    Sparse.get (putCells m a bs) 0 (a + k) = BitVec.ofNat 8 (bs.getD k 0) := by
  induction bs generalizing m a k with
  | nil => exact absurd h (Nat.not_lt_zero k)
  | cons x xs ih =>
    rw [putCells]
    cases k with
    | zero => rw [get_putCells_ne _ (by omega), Nat.add_zero, Sparse.get_set_self, List.getD_cons_zero]
    | succ k => rw [show a + (k + 1) = a + 1 + k by omega, ih _ _ (by simpa using h), List.getD_cons_succ]

/-! ### Accesses (R278, R280, R290) -/

theorem Eng.held_of_idle {x : Eng} (h : x.xfers = []) (store : Bool) (as : List Nat) : x.held store as = false := by rw [Eng.held, h]; rfl

/-- The bytes of an access all have a right. -/
theorem all_rights {p : Nat → Bool} {a n : Nat} : ((List.range n).map (a + ·)).all p = true ↔ ∀ k, k < n → p (a + k) = true := by simp

/-- The right to one byte is the right to each. -/
theorem forall_lt_one {p : Nat → Bool} {a : Nat} (h : p a = true) : ∀ k, k < 1 → p (a + k) = true := fun k hk => by rwa [Nat.lt_one_iff.mp hk]

theorem kAddr_eq (x : Eng) (rs1 imm : Nat) : kAddr x rs1 imm = (BitVec.ofNat 64 (x.sReg rs1) + (BitVec.ofNat 16 imm).signExtend 64).toNat := by
  have h : BitVec.ofInt 64 (x.sReg rs1 + (BitVec.ofNat 16 imm).toInt) = BitVec.ofNat 64 (x.sReg rs1) + (BitVec.ofNat 16 imm).signExtend 64 := by
    rw [BitVec.ofInt_add, BitVec.ofInt_natCast]
    rfl
  rw [kAddr, uns_eq_toNat, sgn_eq_toInt, h]

section Access

variable {d : Dev} {x : Eng} {n rs1 imm a r : Nat} (ha : kAddr x rs1 imm = a)
include ha

theorem kLoad_misaligned (signed : Bool) (h : a % n ≠ 0) : kLoad n signed r rs1 imm d x = .exc 0x04 := by
  subst ha
  exact if_pos h

theorem kStore_misaligned (h : a % n ≠ 0) : kStore n r rs1 imm d x = .exc 0x04 := by
  subst ha
  exact if_pos h

theorem kLoad_byte_denied (signed : Bool) (h : x.readable a = false) : kLoad 1 signed r rs1 imm d x = .exc 0x05 := by
  subst ha
  simp [kLoad, Nat.mod_one, h]

theorem kStore_byte_denied (h : x.writable a = false) : kStore 1 r rs1 imm d x = .exc 0x06 := by
  subst ha
  simp [kStore, Nat.mod_one, h]

variable (hx : x.xfers = []) (hal : a % n = 0)
include hx hal

theorem kLoad_eq (signed : Bool) (h : ∀ k, k < n → x.readable (a + k) = true) :
    kLoad n signed r rs1 imm d x = .next (x.setS r (if signed then uns 64 (sgn (8 * n) (x.num a n)) else x.num a n)).step := by
  subst ha
  simp only [kLoad, hal, all_rights.mpr h, Eng.held_of_idle hx]
  rfl

theorem kStore_eq (h : ∀ k, k < n → x.writable (a + k) = true) :
    kStore n r rs1 imm d x = .next (Eng.step { x with mem := putCells x.mem a (leBytes n (x.sReg r)) }) := by
  subst ha
  simp only [kStore, hal, all_rights.mpr h, Eng.held_of_idle hx]
  rfl

end Access

/-! ### The instructions -/

section Commands

variable {i : Instr} {s : State} {e r rs1 imm a n : Nat} {fits : Nat → Bool}

section Stores

variable (ha : kAddr (s.dev.eng e) rs1 imm = a) (hi : exec i s = s.run (·.kreov e fits (kStore n r rs1 imm))) (h : s.dev.runs e fits)
include ha hi h

/-- A store puts the low bytes of its register into local memory, and nothing else there. -/
theorem stores (hw : ∀ k, k < n → (s.dev.eng e).writable (a + k) = true) (hx : (s.dev.eng e).xfers = []) (hal : a % n = 0) :
    ∃ m, Retires i s e (Eng.step { s.dev.eng e with mem := m })
      ∧ (∀ k, k < n → (Sparse.get m 0 (a + k) : Byte).toNat = (s.dev.eng e).sReg r / 2 ^ (8 * k) % 256)
      ∧ ∀ b, b < a ∨ a + n ≤ b → Sparse.get m 0 b = Sparse.get (s.dev.eng e).mem 0 b := by
  have hlen := length_leBytes n ((s.dev.eng e).sReg r)
  refine ⟨_, retires_of_next hi h (kStore_eq ha hx hal hw) rfl, fun k hk => ?_, fun b hb => get_putCells_ne _ (by rwa [hlen])⟩
  rw [get_putCells _ _ (by rwa [hlen]), getD_leBytes hk, BitVec.toNat_ofNat, Nat.mod_mod]

end Stores

section Loads

variable {signed : Bool} (ha : kAddr (s.dev.eng e) rs1 imm = a) (hi : exec i s = s.run (·.kreov e fits (kLoad n signed r rs1 imm)))
  (h : s.dev.runs e fits) (hr : ∀ k, k < n → (s.dev.eng e).readable (a + k) = true) (hx : (s.dev.eng e).xfers = []) (hal : a % n = 0)
include ha hi h hr hx hal

theorem loads_signed (hs : signed = true) : WritesS i s e r ((BitVec.ofNat (8 * n) ((s.dev.eng e).num a n)).signExtend 64).toNat := by
  subst hs
  exact retires_of_next hi h ((kLoad_eq ha hx hal true hr).trans (by rw [if_pos rfl, uns_sgn])) (by simp)

theorem loads_unsigned (hs : signed = false) : WritesS i s e r ((s.dev.eng e).num a n) := by
  subst hs
  exact retires_of_next hi h (kLoad_eq ha hx hal false hr) (by simp)

end Loads

end Commands

/-- Settles O30: each access is `kLoad` or `kStore` of its size. -/
theorem loadsAndStores : Obligations.LoadsAndStores := fun s e r rs1 imm _ => by
  intro x a
  have ha : kAddr (s.dev.eng e) rs1 imm = a := kAddr_eq _ _ _
  clear_value a
  refine ⟨fun h hr hx => loads_signed (n := 1) ha rfl h (forall_lt_one hr) hx a.mod_one rfl,
    fun h hr hx hal => loads_signed (n := 2) ha rfl h hr hx hal rfl,
    fun h hr hx hal => loads_signed (n := 4) ha rfl h hr hx hal rfl,
    fun h hr hx => loads_unsigned ha rfl h (forall_lt_one hr) hx a.mod_one rfl,
    fun h hr hx hal => loads_unsigned ha rfl h hr hx hal rfl,
    fun h hr hx hal => loads_unsigned ha rfl h hr hx hal rfl,
    fun h hr hx hal => loads_unsigned ha rfl h hr hx hal rfl,
    fun h hw hx => stores ha rfl h (forall_lt_one hw) hx a.mod_one,
    fun h hw hx hal => stores ha rfl h hw hx hal,
    fun h hw hx hal => stores ha rfl h hw hx hal,
    fun h hw hx hal => stores ha rfl h hw hx hal,
    fun op n i hmem h hal => ?_,
    fun h hr => raises_of_exc rfl h (kLoad_byte_denied ha true hr),
    fun h hw => raises_of_exc rfl h (kStore_byte_denied ha hw)⟩
  simp only [List.mem_cons, List.not_mem_nil, or_false, Prod.mk.injEq] at hmem
  rcases hmem with ⟨rfl, rfl, rfl⟩ | ⟨rfl, rfl, rfl⟩ | ⟨rfl, rfl, rfl⟩ | ⟨rfl, rfl, rfl⟩ | ⟨rfl, rfl, rfl⟩ | ⟨rfl, rfl, rfl⟩ | ⟨rfl, rfl, rfl⟩ | ⟨rfl, rfl, rfl⟩
  · exact raises_of_exc rfl h (kLoad_misaligned ha true hal)
  · exact raises_of_exc rfl h (kLoad_misaligned ha false hal)
  · exact raises_of_exc rfl h (kLoad_misaligned ha true hal)
  · exact raises_of_exc rfl h (kLoad_misaligned ha false hal)
  · exact raises_of_exc rfl h (kLoad_misaligned ha false hal)
  · exact raises_of_exc rfl h (kStore_misaligned ha hal)
  · exact raises_of_exc rfl h (kStore_misaligned ha hal)
  · exact raises_of_exc rfl h (kStore_misaligned ha hal)

/-! ### Branches and jumps (R279) -/

section Commands

variable {i : Instr} {s : State} {e r rs off : Nat} {fits : Nat → Bool} {c : Nat → Nat → Bool} {a b : BitVec 64}

/-- A branch goes to its target where its condition holds, otherwise to the next instruction. -/
theorem retires_of_branch (ha : (s.dev.eng e).sReg r = a.toNat) (hb : (s.dev.eng e).sReg rs = b.toNat)
    (hi : exec i s = s.run (·.kreov e fits (kBranch r rs off c))) (h : s.dev.runs e fits) {p : Prop} [Decidable p] (hp : c a.toNat b.toNat = decide p) :
    Retires i s e (if p then { s.dev.eng e with pc := (BitVec.ofInt 16 ((s.dev.eng e).pc + 4 * (BitVec.ofNat 16 off).toInt)).toNat }
      else { s.dev.eng e with pc := ((s.dev.eng e).pc + 4) % 65536 }) := by
  refine retires_of_next (n := 0) hi h ?_ (by split <;> rfl)
  simp only [kBranch, ha, hb, hp, decide_eq_true_eq, Eng.goto, uns_eq_toNat, sgn_eq_toInt, Eng.step]

end Commands

/-- Settles O31: each condition is the comparison of its row on 64-bit words. -/
theorem branches : Obligations.Branches := fun s e r rs => by
  intro x a b pcAfter
  have ha : (s.dev.eng e).sReg r = a.toNat := Eng.sReg_eq_toNat _ _
  have hb : (s.dev.eng e).sReg rs = b.toNat := Eng.sReg_eq_toNat _ _
  clear_value a b
  refine ⟨fun off _ h => retires_of_branch ha hb rfl h (by simp only [BitVec.toNat_inj]),
    fun off _ h => retires_of_branch ha hb rfl h (by simp only [ne_eq, BitVec.toNat_inj]),
    fun off _ h => retires_of_branch ha hb rfl h (by simp only [sgn_toNat, BitVec.slt, decide_eq_true_eq]),
    fun off _ h => retires_of_branch ha hb rfl h (by simp only [sgn_toNat, BitVec.sle, decide_eq_true_eq]),
    fun off _ h => retires_of_branch ha hb rfl h (by simp only [BitVec.ult, decide_eq_true_eq]),
    fun off _ h => retires_of_branch ha hb rfl h (by simp only [BitVec.ule, decide_eq_true_eq]),
    fun off _ h => retires_of_next rfl h (n := 0) ?_ (Eng.setS_retired _ _ _),
    fun imm _ h => ⟨fun hal => retires_of_next rfl h (n := 0) ?_ (Eng.setS_retired _ _ _), fun hal => raises_of_exc rfl h (if_pos hal)⟩⟩
  · simp only [kCall, Eng.goto, uns_eq_toNat, sgn_eq_toInt, pcAfter, x]
  · simp only [kJumpr, if_neg (not_not.mpr hal), Eng.goto, uns_eq_toNat, sgn_eq_toInt, x]

end Sys2Proof.Machine
end

section
/-! PROOF. O32, vector integer functions. A vector put together from lanes has those lanes; a disabled lane keeps what it
held, and an enabled one takes its function's value in the width of the type. -/

namespace Sys2Proof.Machine

/-! ### Lanes and predicate bits (R273, R274) -/

section Lanes

variable (w : Nat)

theorem lane_lt (v i : Nat) : lane v w i < 2 ^ w := Nat.mod_lt _ (Nat.two_pow_pos w)

theorem lane_eq_toNat (v i : Nat) : lane v w i = (BitVec.ofNat w (lane v w i)).toNat := by rw [BitVec.toNat_ofNat, Nat.mod_eq_of_lt (lane_lt w v i)]

/-- A vector put together from lanes has those lanes, and zeros beyond them. -/
theorem lane_ofLanes (l : List Nat) (i : Nat) : lane (ofLanes w l) w i = l.getD i 0 % 2 ^ w := by
  induction l generalizing i with
  | nil => simp [ofLanes, lane, bitsAt]
  | cons a l ih =>
    cases i with
    | zero => simp [ofLanes, lane, bitsAt]
    | succ i =>
      have hdrop : (a % 2 ^ w + 2 ^ w * ofLanes w l) / 2 ^ w = ofLanes w l := by
        rw [Nat.add_mul_div_left _ _ (Nat.two_pow_pos w), Nat.div_eq_of_lt (Nat.mod_lt _ (Nat.two_pow_pos w)), Nat.zero_add]
      rw [List.getD_cons_succ, ← ih, lane, bitsAt, ofLanes, Nat.mul_succ, Nat.add_comm (w * i), pow_add, ← Nat.div_div_eq_div_mul, hdrop, lane, bitsAt]

/-- The lanes that a predicate enables are replaced. -/
theorem lane_mapLanes {n k : Nat} (hk : k < n) (p old : Nat) (f : Nat → Nat) :
    lane (mapLanes w n p old f) w k = if pbit p k then f k % 2 ^ w else lane old w k := by
  have hget : ((List.range n).map (fun i => if pbit p i then f i else lane old w i)).getD k 0 = if pbit p k then f k else lane old w k := by simp [hk]
  rw [mapLanes, lane_ofLanes, hget]
  split
  · rfl
  · exact Nat.mod_eq_of_lt (lane_lt w old k)

end Lanes

theorem pbit_eq_testBit (p k : Nat) : pbit p k = p.testBit k := Nat.testBit_eq_decide_div_mod_eq.symm

theorem pbit_eq_lane (p k : Nat) : pbit p k = decide (lane p 1 k = 1) := by rw [pbit, lane, bitsAt, Nat.one_mul, pow_one]

/-- A predicate put together from its bits has those bits, and none beyond them. -/
theorem pbit_bits (n : Nat) (f : Nat → Bool) (k : Nat) : pbit (bits n f) k = (decide (k < n) && f k) := by
  rw [pbit_eq_lane, bits, lane_ofLanes]
  by_cases hk : k < n
  · have hget : ((List.range n).map (fun i => b2n (f i))).getD k 0 = b2n (f k) := by simp [hk]
    rw [hget]
    cases f k <;> simp [hk, b2n]
  · simp [hk]

/-! ### Saturation -/

theorem satS_eq (w : Nat) (v : Int) : satS w v = max (-2 ^ (w - 1)) (min (2 ^ (w - 1) - 1) v) := by
  have hpos : (0 : Int) < 2 ^ (w - 1) := by positivity
  unfold satS clampI
  push_cast
  generalize (2 : Int) ^ (w - 1) = m at hpos
  split
  · omega
  split <;> omega

theorem clamp_mod (w : Nat) (v : Int) : uns w (satS w v) % 2 ^ w = (BitVec.ofInt w (max (-2 ^ (w - 1)) (min (2 ^ (w - 1) - 1) v))).toNat := by
  rw [uns_mod, satS_eq]

/-! ### Instructions that write a vector or a predicate -/

section Commands

variable {i : Instr} {s : State} {e vd vs1 vs2 pr typ : Nat} {fits : Nat → Bool} {f : Dev → Eng → KRes}

/-- Lanes of `w` bits retire in a vector register, the disabled ones as they were. -/
theorem writesElements_of_next (hi : exec i s = s.run (·.kreov e fits f)) (h : s.dev.runs e fits) {w n m : Nat} {g v : Nat → Nat}
    (hf : f s.dev (s.dev.eng e) = .next ((s.dev.eng e).setV vd (mapLanes w n ((s.dev.eng e).pReg pr) ((s.dev.eng e).vReg vd) g)).step m)
    (hg : ∀ k, k < n → g k % 2 ^ w = v k) : WritesElements i s e vd pr w n v :=
  ⟨_, retires_of_next hi h hf rfl, fun k hk => by rw [lane_mapLanes w hk, hg k hk]⟩

section Elements

variable {a b : Nat → BitVec (kWidth typ)}
  (ha : ∀ k, lane ((s.dev.eng e).vReg vs1) (kWidth typ) k = (a k).toNat) (hb : ∀ k, lane ((s.dev.eng e).vReg vs2) (kWidth typ) k = (b k).toNat)
  (htyp : typ ≠ 3)
include ha hb htyp

/-- A function of two elements (Table isa-6). -/
theorem writesElements_of_vec {f : Nat → Nat → Nat → Nat} {v : Nat → Nat} (hi : exec i s = s.run (·.kreov e fits (kVec vd vs1 vs2 pr typ f)))
    (h : s.dev.runs e fits) (hv : ∀ k, f (kWidth typ) (a k).toNat (b k).toNat % 2 ^ kWidth typ = v k) :
    WritesElements i s e vd pr (kWidth typ) (kLanes typ) v :=
  writesElements_of_next hi h (if_neg htyp) fun k _ => by rw [ha, hb, hv]

/-- A comparison of two elements: 0 in the bits of disabled ones. -/
theorem writesBits_of_cmp {f : Nat → Nat → Nat → Bool} {v : Nat → Bool} (hvd : vd < 8)
    (hi : exec i s = s.run (·.kreov e fits (kCmp vd vs1 vs2 pr typ f))) (h : s.dev.runs e fits)
    (hv : ∀ k, f (kWidth typ) (a k).toNat (b k).toNat = v k) : WritesBits i s e vd pr (kLanes typ) v :=
  ⟨_, retires_of_next hi h (if_neg (not_or.mpr ⟨htyp, Nat.not_le.mpr hvd⟩)) (Eng.setP_retired _ _ _), fun k => by
    rw [pbit_bits, ha, hb, hv, Bool.and_assoc]⟩

theorem writesV_of_sel (hi : exec i s = s.run (·.kreov e fits (kSel vd vs1 vs2 pr typ))) (h : s.dev.runs e fits) :
    WritesV i s e vd (kWidth typ) (kLanes typ) fun k v => v = if pbit ((s.dev.eng e).pReg pr) k then (a k).toNat else (b k).toNat :=
  ⟨_, retires_of_next hi h (if_neg htyp) rfl, fun k hk => by rw [lane_mapLanes _ hk, ha, hb, Nat.mod_eq_of_lt (a k).isLt]⟩

end Elements

/-- VDOT and VDOTU: four products added to each 32-bit lane. -/
theorem writesElements_of_dot {signed : Bool} (htyp : typ = 0) (hi : exec i s = s.run (·.kreov e fits (kDot signed vd vs1 vs2 pr typ)))
    (h : s.dev.runs e fits) {a b : Nat → Int}
    (ha : ∀ j, (if signed then sgn 8 (lane ((s.dev.eng e).vReg vs1) 8 j) else (lane ((s.dev.eng e).vReg vs1) 8 j : Int)) = a j)
    (hb : ∀ j, sgn 8 (lane ((s.dev.eng e).vReg vs2) 8 j) = b j) :
    WritesElements i s e vd pr 32 16 fun k => (BitVec.ofInt 32 (lane ((s.dev.eng e).vReg vd) 32 k +
      ((List.range 4).map (fun m => a (4 * k + m) * b (4 * k + m))).sum)).toNat := by
  refine writesElements_of_next hi h (if_neg (not_not.mpr htyp)) fun k _ => ?_
  simp only [ha, hb]
  rw [uns_mod, BitVec.ofInt_add, BitVec.ofInt_add, sgn_eq_toInt, BitVec.ofInt_toInt, BitVec.ofInt_natCast]

end Commands

/-- Settles O32: each function is the one of its row on words of the width of the type. -/
theorem vectorInteger : Obligations.VectorInteger := fun s e vd vs1 vs2 pr typ => by
  refine ⟨fun func i hmem h => ?_, fun htyp => ?_⟩
  · simp only [List.mem_cons, List.not_mem_nil, or_false, Prod.mk.injEq] at hmem
    rcases hmem with ⟨rfl, rfl⟩ | ⟨rfl, rfl⟩ | ⟨rfl, rfl⟩ | ⟨rfl, rfl⟩ | ⟨rfl, rfl⟩
    · exact raises_of_exc rfl h (if_pos rfl)
    · exact raises_of_exc rfl h (if_pos rfl)
    · exact raises_of_exc rfl h (if_pos (.inl rfl))
    · exact raises_of_exc rfl h (if_pos rfl)
    · exact raises_of_exc rfl h (if_pos (by decide))
  intro x w n a b clamp runs
  have ha : ∀ k, lane ((s.dev.eng e).vReg vs1) (kWidth typ) k = (a k).toNat := fun k => lane_eq_toNat _ _ k
  have hb : ∀ k, lane ((s.dev.eng e).vReg vs2) (kWidth typ) k = (b k).toNat := fun k => lane_eq_toNat _ _ k
  have h₃ : typ ≠ 3 := by omega
  have hsa : typ = 0 → ∀ j, sgn 8 (lane ((s.dev.eng e).vReg vs1) 8 j) = (a j).toInt := fun h₀ j => by subst h₀; exact sgn_eq_toInt _ _
  have hua : typ = 0 → ∀ j, (lane ((s.dev.eng e).vReg vs1) 8 j : Int) = (a j).toNat := fun h₀ j => by subst h₀; rw [← ha]; rfl
  have hsb : typ = 0 → ∀ j, sgn 8 (lane ((s.dev.eng e).vReg vs2) 8 j) = (b j).toInt := fun h₀ j => by subst h₀; exact sgn_eq_toInt _ _
  refine ⟨fun h => writesElements_of_vec ha hb h₃ rfl h fun k => (BitVec.toNat_add _ _).symm,
    fun h => writesElements_of_vec ha hb h₃ rfl h fun k => sub_wraps _ _,
    fun h => writesElements_of_vec ha hb h₃ rfl h fun k => (BitVec.toNat_mul _ _).symm,
    fun h => writesElements_of_vec ha hb h₃ rfl h fun k => (uns_mod _).trans (by simp only [sgn_toNat, w]),
    fun h => writesElements_of_vec ha hb h₃ rfl h fun k => min_mod _ _,
    fun h => writesElements_of_vec ha hb h₃ rfl h fun k => max_mod _ _,
    fun h => writesElements_of_vec ha hb h₃ rfl h fun k => minu_mod _ _,
    fun h => writesElements_of_vec ha hb h₃ rfl h fun k => maxu_mod _ _,
    fun h => writesElements_of_vec ha hb h₃ rfl h fun k => and_mod _ _,
    fun h => writesElements_of_vec ha hb h₃ rfl h fun k => or_mod _ _,
    fun h => writesElements_of_vec ha hb h₃ rfl h fun k => xor_mod _ _,
    fun h => writesElements_of_vec ha hb h₃ rfl h fun k => shl_wraps _ _,
    fun h => writesElements_of_vec ha hb h₃ rfl h fun k => shr_mod _ _,
    fun h => writesElements_of_vec ha hb h₃ rfl h fun k => sar_mod _ _,
    fun h => writesElements_of_vec ha hb h₃ rfl h fun k => (clamp_mod _ _).trans (by simp only [sgn_toNat, clamp, w]),
    fun h => writesElements_of_vec ha hb h₃ rfl h fun k => (clamp_mod _ _).trans (by simp only [sgn_toNat, clamp, w]),
    fun h => ⟨fun hvd => writesBits_of_cmp ha hb h₃ hvd rfl h fun k => by simp only [BitVec.toNat_inj], fun hvd => raises_of_exc rfl h (if_pos (.inr hvd))⟩,
    fun h => ⟨fun hvd => writesBits_of_cmp ha hb h₃ hvd rfl h fun k => by simp only [sgn_toNat, BitVec.slt],
      fun hvd => raises_of_exc rfl h (if_pos (.inr hvd))⟩,
    fun h => ⟨fun hvd => writesBits_of_cmp ha hb h₃ hvd rfl h fun k => rfl, fun hvd => raises_of_exc rfl h (if_pos (.inr hvd))⟩,
    fun h => writesV_of_sel ha hb h₃ rfl h,
    fun h₀ h => writesElements_of_dot (signed := true) (a := fun j => (a j).toInt) (b := fun j => (b j).toInt) h₀ rfl h (hsa h₀) (hsb h₀),
    fun h₀ h => writesElements_of_dot (signed := false) (a := fun j => (a j).toNat) (b := fun j => (b j).toInt) h₀ rfl h (hua h₀) (hsb h₀),
    fun h₀ func i hmem h => ?_⟩
  simp only [List.mem_cons, List.not_mem_nil, or_false, Prod.mk.injEq] at hmem
  rcases hmem with ⟨rfl, rfl⟩ | ⟨rfl, rfl⟩ <;>
    exact raises_of_exc rfl h (if_pos h₀)

end Sys2Proof.Machine
end

section
/-! PROOF. O33, reductions, width changes and moves between the files. The best element of a list is one of its elements, and none is better. -/

namespace Sys2Proof.Machine

/-! ### Reductions (R284) -/

/-- A fold that takes what lies higher under `g` ends with the highest element. -/
theorem foldl_highest (g : Int → Int) (l : List Int) (a : Int) :
    l.foldl (fun m x => if decide (g m < g x) then x else m) a ∈ a :: l
      ∧ ∀ y ∈ a :: l, g y ≤ g (l.foldl (fun m x => if decide (g m < g x) then x else m) a) := by
  induction l generalizing a with
  | nil => simp
  | cons b l ih =>
    rw [List.foldl_cons]
    by_cases hab : g a < g b
    · rw [if_pos (decide_eq_true hab)]
      obtain ⟨hmem, hle⟩ := ih b
      refine ⟨List.mem_cons_of_mem _ hmem, fun y hy => ?_⟩
      rcases List.mem_cons.mp hy with rfl | hy
      · exact hab.le.trans (hle b List.mem_cons_self)
      · exact hle y hy
    · rw [if_neg (by simpa using hab)]
      obtain ⟨hmem, hle⟩ := ih a
      refine ⟨?_, fun y hy => ?_⟩
      · rcases List.mem_cons.mp hmem with h | h
        · rw [h]; exact List.mem_cons_self
        · exact List.mem_cons_of_mem _ (List.mem_cons_of_mem _ h)
      · rcases List.mem_cons.mp hy with rfl | hy
        · exact hle _ List.mem_cons_self
        rcases List.mem_cons.mp hy with rfl | hy
        · exact (not_lt.mp hab).trans (hle a List.mem_cons_self)
        · exact hle y (List.mem_cons_of_mem _ hy)

theorem pickBest_highest (g : Int → Int) {l : List Int} (h : l ≠ []) :
    pickBest (fun x y => decide (g y < g x)) l ∈ l ∧ ∀ y ∈ l, g y ≤ g (pickBest (fun x y => decide (g y < g x)) l) := by
  cases l with
  | nil => exact absurd rfl h
  | cons a l => exact foldl_highest g l a

/-- The best of numbered elements is one of them. -/
theorem pickBest_map (g : Int → Int) (f : Nat → Int) {on : List Nat} (h : on ≠ []) :
    ∃ k ∈ on, (∀ j ∈ on, g (f j) ≤ g (f k)) ∧ pickBest (fun x y => decide (g y < g x)) (on.map f) = f k := by
  obtain ⟨hmem, hle⟩ := pickBest_highest g (l := on.map f) (by simpa using h)
  obtain ⟨k, hk, hfk⟩ := List.mem_map.mp hmem
  rw [← hfk] at hle
  exact ⟨k, hk, fun j hj => hle _ (List.mem_map_of_mem hj), hfk.symm⟩

section Commands

variable {i : Instr} {s : State} {e rd vd vs1 vs2 pr typ : Nat} {fits : Nat → Bool}

/-- The enabled elements as signed numbers. -/
theorem map_sgn_enabledLanes (w n p v : Nat) :
    (enabledLanes w n p v).map (sgn w) = ((List.range n).filter (pbit p)).map (fun k => (BitVec.ofNat w (lane v w k)).toInt) := by
  rw [enabledLanes, List.map_map]
  exact List.map_congr_left fun k _ => sgn_eq_toInt _ _

/-- A reduction retires with its value in rd. -/
theorem writesS_of_red {f : Nat → List Nat → Nat} {v : Nat} (htyp : typ ≠ 3) (hi : exec i s = s.run (·.kreov e fits (kRed rd vs1 pr typ f)))
    (h : s.dev.runs e fits)
    (hv : f (kWidth typ) (enabledLanes (kWidth typ) (kLanes typ) ((s.dev.eng e).pReg pr) ((s.dev.eng e).vReg vs1)) = v) : WritesS i s e rd v :=
  hv ▸ retires_of_next hi h (if_neg htyp) (Eng.setS_retired _ _ _)

/-- A maximum or minimum: the best enabled element under `g`, 0 where none is enabled. -/
theorem writesS_of_best (g : Int → Int) {f : Nat → List Nat → Nat} (htyp : typ ≠ 3)
    (hi : exec i s = s.run (·.kreov e fits (kRed rd vs1 pr typ f))) (h : s.dev.runs e fits)
    (hf : ∀ w l, f w l = uns 64 (pickBest (fun x y => decide (g y < g x)) (l.map (sgn w)))) {on : List Nat}
    (hon : on = (List.range (kLanes typ)).filter (pbit ((s.dev.eng e).pReg pr))) {a : Nat → BitVec (kWidth typ)}
    (ha : ∀ k, BitVec.ofNat (kWidth typ) (lane ((s.dev.eng e).vReg vs1) (kWidth typ) k) = a k) :
    (on = [] → WritesS i s e rd 0)
      ∧ (on ≠ [] → ∃ k ∈ on, (∀ j ∈ on, g (a j).toInt ≤ g (a k).toInt) ∧ WritesS i s e rd ((a k).signExtend 64).toNat) := by
  refine ⟨fun h₀ => writesS_of_red htyp hi h ?_, fun h₁ => ?_⟩
  · rw [hf, map_sgn_enabledLanes, ← hon, h₀]
    rfl
  · obtain ⟨k, hk, hle, hbest⟩ := pickBest_map g (fun k => (a k).toInt) h₁
    refine ⟨k, hk, hle, writesS_of_red htyp hi h ?_⟩
    simp only [hf, map_sgn_enabledLanes, ← hon, ha, hbest, uns_eq_toNat]
    rfl

/-! ### Width changes and moves (Table isa-6) -/

/-- VWIDEL and VWIDEH: each element of a half sign-extended to twice the width. -/
theorem writesElements_of_wide {high : Bool} (htyp : typ < 2) (hi : exec i s = s.run (·.kreov e fits (kWide high vd vs1 pr typ))) (h : s.dev.runs e fits) :
    WritesElements i s e vd pr (2 * kWidth typ) (kLanes typ / 2) fun k => ((BitVec.ofNat (kWidth typ) (lane ((s.dev.eng e).vReg vs1) (kWidth typ)
      (if high then k + kLanes typ / 2 else k))).signExtend (2 * kWidth typ)).toNat :=
  writesElements_of_next hi h (if_neg (Nat.not_le.mpr htyp)) fun _ _ => mod_of_eq_toNat _ (uns_sgn _ _ _)

theorem writesElements_of_narrow (htyp : typ < 2) (hi : exec i s = s.run (·.kreov e fits (kNarrow vd vs1 vs2 pr typ))) (h : s.dev.runs e fits) :
    WritesElements i s e vd pr (kWidth typ) (kLanes typ) fun k =>
      let v := (BitVec.ofNat (2 * kWidth typ) (if k < kLanes typ / 2 then lane ((s.dev.eng e).vReg vs1) (2 * kWidth typ) k
        else lane ((s.dev.eng e).vReg vs2) (2 * kWidth typ) (k - kLanes typ / 2))).toInt
      (BitVec.ofInt (kWidth typ) (max (-2 ^ (kWidth typ - 1)) (min (2 ^ (kWidth typ - 1) - 1) v))).toNat :=
  writesElements_of_next hi h (if_neg (Nat.not_le.mpr htyp)) fun k _ => (clamp_mod _ _).trans (by rw [sgn_eq_toInt])

theorem writesV_of_bcast (hi : exec i s = s.run (·.kreov e fits (kBcast vd rd typ))) (h : s.dev.runs e fits) :
    WritesV i s e vd (kWidth typ) (kLanes typ) fun _ v => v = (s.dev.eng e).sReg rd % 2 ^ kWidth typ :=
  ⟨_, retires_of_next hi h rfl rfl, fun k hk => by
    have hget : (List.replicate (kLanes typ) ((s.dev.eng e).sReg rd)).getD k 0 = (s.dev.eng e).sReg rd := by simp [hk]
    rw [lane_ofLanes, hget]⟩

theorem writesS_of_ext {ln : Nat} (hln : ln < kLanes typ) (hi : exec i s = s.run (·.kreov e fits (kExt rd vs1 ln typ))) (h : s.dev.runs e fits) :
    WritesS i s e rd ((BitVec.ofNat (kWidth typ) (lane ((s.dev.eng e).vReg vs1) (kWidth typ) ln)).signExtend 64).toNat :=
  writesS_of_next hi h (if_neg (Nat.not_le.mpr hln)) (mod_of_eq_toNat _ (uns_sgn _ _ _))

/-- VINS replaces one element. -/
theorem writesV_of_ins {ln : Nat} (hln : ln < kLanes typ) (hi : exec i s = s.run (·.kreov e fits (kIns vd rd ln typ))) (h : s.dev.runs e fits) :
    WritesV i s e vd (kWidth typ) (kLanes typ) fun k v =>
      v = if k = ln then (s.dev.eng e).sReg rd % 2 ^ kWidth typ else lane ((s.dev.eng e).vReg vd) (kWidth typ) k :=
  ⟨_, retires_of_next hi h (if_neg (Nat.not_le.mpr hln)) rfl, fun k hk => by
    rw [lane_mapLanes _ hk, pbit_eq_testBit, Nat.testBit_two_pow]
    simp only [decide_eq_true_eq, eq_comm (a := ln)]⟩

end Commands

/-- Settles O33: each instruction is one of those shapes. -/
theorem vectorMoves : Obligations.VectorMoves := fun s e d vs1 vs2 pr typ _ => by
  intro x w n a on runs
  have ha : ∀ k, BitVec.ofNat (kWidth typ) (lane ((s.dev.eng e).vReg vs1) (kWidth typ) k) = a k := fun _ => rfl
  refine ⟨fun htyp h => writesS_of_red htyp.ne rfl h ?_, fun htyp h => writesS_of_red htyp.ne rfl h ?_,
    fun htyp h => writesS_of_best id htyp.ne rfl h (fun _ _ => rfl) rfl ha,
    fun htyp h => ?_,
    fun htyp h => writesElements_of_narrow htyp rfl h,
    fun htyp h => writesElements_of_wide (high := false) htyp rfl h,
    fun htyp h => writesElements_of_wide (high := true) htyp rfl h,
    fun htyp func i hmem h => ?_, fun htyp func i hmem h => ?_,
    fun r h => writesV_of_bcast rfl h,
    fun ln h => ⟨fun hln => writesS_of_ext hln rfl h, fun hln => raises_of_exc rfl h (if_pos hln)⟩,
    fun r ln hln h => writesV_of_ins hln rfl h⟩
  · rw [map_sgn_enabledLanes, uns_eq_toNat]
  · rw [enabledLanes]
    exact congrArg List.sum (List.map_congr_left fun k _ => lane_eq_toNat _ _ k)
  · have hbest := writesS_of_best (i := .vredmin e d vs1 pr typ) (rd := d) (fun x => -x) htyp.ne rfl h (fun w l => by simp only [neg_lt_neg_iff]) rfl ha
    simpa only [neg_le_neg_iff] using hbest
  · simp only [List.mem_cons, List.not_mem_nil, or_false, Prod.mk.injEq] at hmem
    rcases hmem with ⟨rfl, rfl⟩ | ⟨rfl, rfl⟩ <;>
      exact raises_of_exc rfl h (if_pos htyp)
  · simp only [List.mem_cons, List.not_mem_nil, or_false, Prod.mk.injEq] at hmem
    rcases hmem with ⟨rfl, rfl⟩ | ⟨rfl, rfl⟩ <;>
      exact raises_of_exc rfl h (if_pos htyp)

end Sys2Proof.Machine
end

section
/-! PROOF. O34, the bf16 group. Its functions work element by element on exact values that are rounded once; of two values at most one is less. -/

namespace Sys2Proof.Machine

/-! ### The group's conditions (Table isa-9) -/

section Conditions

variable {typ : Nat} {f : Dev → Eng → KRes} {d : Dev} {x : Eng} {legal : Bool}

theorem kBf_illegal (h : typ ≠ 3 ∨ legal = false) : kBf typ f d x legal = .exc 0x02 := if_pos h

theorem kBf_legal (h : legal = true) : kBf 3 f d x legal = if !d.feat 6 then .exc 0x03 else f d x := if_neg (by simp [h])

theorem kBf_unaccepted (h : legal = true) (hfeat : d.feat 6 = false) : kBf 3 f d x legal = .exc 0x03 := by rw [kBf_legal h, hfeat]; rfl

theorem kBf_accepted (h : legal = true) (hfeat : d.feat 6 = true) : kBf 3 f d x legal = f d x := by rw [kBf_legal h, hfeat]; rfl

end Conditions

/-! ### Order and choice -/

/-- Of two values at most one is less than the other. -/
theorem fpLt_asymm : ∀ {a b : Fp}, fpLt a b = true → fpLt b a = false
  | .inf a, .inf b, h => by cases a <;> cases b <;> simp_all [fpLt]
  | .inf _, .fin .., h => by simpa [fpLt] using h
  | .fin .., .inf _, h => by simpa [fpLt] using h
  | .fin _ _ ea, .fin _ _ eb, h => by
    simp only [fpLt, decide_eq_true_eq] at h
    simp only [fpLt, min_comm eb ea]
    exact decide_eq_false (lt_asymm h)

/-- The element that VFMAX or VFMIN puts in place `i`. -/
def fpPick (max : Bool) (d : Dev) (i : Nat) (a b : Fp) : Nat :=
  match a, b with
  | .nan, b => toBf b
  | a, .nan => toBf a
  | a, b => if fpLt a b then toBf (if max then b else a) else if fpLt b a then toBf (if max then a else b)
    else if a = b then toBf a else if d.freeAt i 1 = 0 then toBf a else toBf b

section Choice

variable (max : Bool) (d : Dev) (i : Nat)

theorem kFminmax_eq (vd vs1 vs2 pr : Nat) (x : Eng) :
    kFminmax max vd vs1 vs2 pr d x = .next (x.setV vd (mapLanes 16 32 (x.pReg pr) (x.vReg vd)
      fun i => fpPick max d i (fpOfBf (lane (x.vReg vs1) 16 i)) (fpOfBf (lane (x.vReg vs2) 16 i)))).step 32 := rfl

theorem fpPick_nan_left (b : Fp) : fpPick max d i .nan b = toBf b := by cases b <;> rfl

theorem fpPick_nan_right (a : Fp) : fpPick max d i a .nan = toBf a := by cases a <;> rfl

theorem fpPick_of_lt {a b : Fp} (h : fpLt a b = true) : fpPick max d i a b = toBf (if max then b else a) := by
  unfold fpPick
  split
  · cases h
  · cases a <;> cases h
  · rw [if_pos h]

theorem fpPick_of_gt {a b : Fp} (h : fpLt b a = true) : fpPick max d i a b = toBf (if max then a else b) := by
  unfold fpPick
  split
  · cases b <;> cases h
  · cases h
  · rw [if_neg (by rw [fpLt_asymm h]; exact Bool.false_ne_true), if_pos h]

end Choice

section Commands

variable {i : Instr} {s : State} {e vd vs1 vs2 pr : Nat} {fits : Nat → Bool}

/-- VFMAX and VFMIN: the other operand of a NaN, otherwise the greater or the smaller one. -/
theorem writesV_of_minmax {max : Bool} (hi : exec i s = s.run (·.kreov e fits (kBf 3 (kFminmax max vd vs1 vs2 pr)))) (h : s.dev.runs e fits)
    (hfeat : s.dev.feat 6 = true) {a b : Nat → Fp} (ha : ∀ k, fpOfBf (lane ((s.dev.eng e).vReg vs1) 16 k) = a k)
    (hb : ∀ k, fpOfBf (lane ((s.dev.eng e).vReg vs2) 16 k) = b k) :
    WritesV i s e vd 16 32 fun k v => (pbit ((s.dev.eng e).pReg pr) k = false → v = lane ((s.dev.eng e).vReg vd) 16 k) ∧
      (pbit ((s.dev.eng e).pReg pr) k = true → (a k = .nan → v = toBf (b k) % 2 ^ 16) ∧ (b k = .nan → v = toBf (a k) % 2 ^ 16)
        ∧ (fpLt (a k) (b k) = true → v = toBf (if max then b k else a k) % 2 ^ 16)
        ∧ (fpLt (b k) (a k) = true → v = toBf (if max then a k else b k) % 2 ^ 16)) := by
  refine ⟨_, retires_of_next hi h ((kBf_accepted rfl hfeat).trans (kFminmax_eq max s.dev _ _ _ _ _)) (by rw [Eng.step_retired, Eng.setV_retired]), fun k hk => ?_⟩
  rw [lane_mapLanes 16 hk, ha, hb]
  refine ⟨fun hoff => if_neg (by rw [hoff]; exact Bool.false_ne_true), fun hon => ?_⟩
  rw [if_pos hon]
  exact ⟨fun hnan => by rw [hnan, fpPick_nan_left], fun hnan => by rw [hnan, fpPick_nan_right], fun hlt => by rw [fpPick_of_lt _ _ _ hlt],
    fun hgt => by rw [fpPick_of_gt _ _ _ hgt]⟩

/-- The upper half of a predicate. -/
theorem pbit_upper (p k : Nat) : pbit (p / 2 ^ 16) k = pbit p (16 + k) := by rw [pbit_eq_testBit, pbit_eq_testBit, Nat.testBit_div_two_pow, Nat.add_comm]

/-- VFMAW: the lower elements' products go to one register, the upper ones' to the next. -/
theorem retires_of_maw {legal : Bool} (hlegal : legal = true) (hi : exec i s = s.run (·.kreov e fits (fun d x => kBf 3 (kFmaw vd vs1 vs2 pr) d x legal)))
    (h : s.dev.runs e fits) (hfeat : s.dev.feat 6 = true) :
    let x := s.dev.eng e
    let m := fun k => fpMul (fpOfBf (lane (x.vReg vs1) 16 k)) (fpOfBf (lane (x.vReg vs2) 16 k))
    ∃ lo hi, Retires i s e ((x.setV vd lo).setV (vd + 1) hi).step ∧ ∀ k, k < 16 →
      lane lo 32 k = (if pbit (x.pReg pr) k then toF32 (fpAdd (fpOf32 (lane (x.vReg vd) 32 k)) (m k)) % 2 ^ 32 else lane (x.vReg vd) 32 k) ∧
      lane hi 32 k = if pbit (x.pReg pr) (16 + k) then toF32 (fpAdd (fpOf32 (lane (x.vReg (vd + 1)) 32 k)) (m (16 + k))) % 2 ^ 32
        else lane (x.vReg (vd + 1)) 32 k :=
  ⟨_, _, retires_of_next hi h (kBf_accepted hlegal hfeat) (by rw [Eng.step_retired, Eng.setV_retired, Eng.setV_retired]), fun k hk => by
    rw [lane_mapLanes 32 hk, lane_mapLanes 32 hk, pbit_upper]
    simp only [Nat.zero_add, and_self]⟩

/-- VFCMPLT leaves the bits of disabled elements, and those above the last element. -/
theorem retires_of_fcmp {legal : Bool} (hlegal : legal = true) (hi : exec i s = s.run (·.kreov e fits (fun d x => kBf 3 (kFcmp vd vs1 vs2 pr) d x legal)))
    (h : s.dev.runs e fits) (hfeat : s.dev.feat 6 = true) :
    let x := s.dev.eng e
    ∃ u, Retires i s e (x.setP vd u).step ∧ ∀ k, k < 64 → pbit u k =
      if k < 32 ∧ pbit (x.pReg pr) k = true then fpLt (fpOfBf (lane (x.vReg vs1) 16 k)) (fpOfBf (lane (x.vReg vs2) 16 k)) else pbit (x.pReg vd) k :=
  ⟨_, retires_of_next hi h (kBf_accepted hlegal hfeat) (Eng.setP_retired _ _ _), fun k hk => by
    rw [pbit_bits, decide_eq_true hk, Bool.true_and]
    simp only [Bool.and_eq_true, decide_eq_true_eq]⟩

end Commands

/-- Settles O34: the group's conditions first, then each function as its row gives it. -/
theorem bf16 : Obligations.Bf16 := fun s e d vs1 vs2 pr => by
  intro x l a runs runs1
  refine ⟨fun typ htyp h => raises_of_exc rfl h (kBf_illegal (.inl htyp)),
    fun hodd h => raises_of_exc rfl h (kBf_illegal (.inr (decide_eq_false (by omega)))),
    fun hd h => raises_of_exc rfl h (kBf_illegal (.inr (decide_eq_false (Nat.not_lt.mpr hd)))),
    fun hfeat func i hmem h => ?_, fun hfeat func i hmem h => ?_,
    fun hfeat heven h => raises_of_exc rfl h (kBf_unaccepted (decide_eq_true heven) hfeat),
    fun hfeat hd h => raises_of_exc rfl h (kBf_unaccepted (decide_eq_true hd) hfeat),
    fun hfeat => ⟨fun h => ?_, fun h => ?_, fun h => ?_, fun h => ?_, fun h => ?_,
      fun h => writesV_of_minmax (max := true) rfl h hfeat (fun _ => rfl) (fun _ => rfl),
      fun h => writesV_of_minmax (max := false) rfl h hfeat (fun _ => rfl) (fun _ => rfl),
      fun heven h => retires_of_maw (decide_eq_true heven) rfl h hfeat, fun h => ?_, fun h => ?_,
      fun hd h => retires_of_fcmp (decide_eq_true hd) rfl h hfeat, fun h => ?_⟩⟩
  · simp only [List.mem_cons, List.not_mem_nil, or_false, Prod.mk.injEq] at hmem
    rcases hmem with ⟨rfl, rfl⟩ | ⟨rfl, rfl⟩ | ⟨rfl, rfl⟩ <;>
      exact raises_of_exc rfl h (kBf_unaccepted rfl hfeat)
  · simp only [List.mem_cons, List.not_mem_nil, or_false, Prod.mk.injEq] at hmem
    rcases hmem with ⟨rfl, rfl⟩ | ⟨rfl, rfl⟩ | ⟨rfl, rfl⟩ | ⟨rfl, rfl⟩ | ⟨rfl, rfl⟩ | ⟨rfl, rfl⟩ | ⟨rfl, rfl⟩ <;>
      exact raises_of_exc rfl h (kBf_unaccepted rfl hfeat)
  · exact writesElements_of_next rfl h (kBf_accepted rfl hfeat) fun _ _ => rfl
  · exact writesElements_of_next rfl h (kBf_accepted rfl hfeat) fun _ _ => rfl
  · exact writesElements_of_next rfl h (kBf_accepted rfl hfeat) fun _ _ => rfl
  · exact writesElements_of_next rfl h (kBf_accepted rfl hfeat) fun _ _ => rfl
  · exact writesElements_of_next rfl h (kBf_accepted rfl hfeat) fun _ _ => rfl
  · exact writesElements_of_next rfl h (kBf_accepted rfl hfeat) fun _ _ => by simp only [sgn_eq_toInt, l, x]
  · exact writesElements_of_next rfl h (kBf_accepted rfl hfeat) fun _ _ => uns_mod _
  · exact retires_of_next rfl h (kBf_accepted rfl hfeat) (Eng.setS_retired _ _ _)

end Sys2Proof.Machine
end

section
/-! PROOF. O35, vector memory, tables and predicates. The 64 addresses of an access differ, so a store leaves each enabled byte where it belongs. -/

namespace Sys2Proof.Machine

/-! ### Cells written one after another -/

section Writes

variable {ι : Type} (g : ι → Nat) (v : ι → Byte) (m : List (Nat × Byte)) {l : List ι}

theorem get_foldl_set_ne {b : Nat} (h : ∀ i ∈ l, g i ≠ b) : Sparse.get (l.foldl (fun m i => Sparse.set m 0 (g i) (v i)) m) 0 b = Sparse.get m 0 b := by
  induction l using List.reverseRecOn with
  | nil => rfl
  | append_singleton l j ih =>
    rw [List.foldl_append, List.foldl_cons, List.foldl_nil, Sparse.get_set_ne _ _ _ _ (h j (by simp)).symm]
    exact ih fun i hi => h i (List.mem_append_left _ hi)

/-- What is written at an address stays there when no other value is written to it. -/
theorem get_foldl_set {i : ι} (hi : i ∈ l) (h : ∀ j ∈ l, g j = g i → v j = v i) :
    Sparse.get (l.foldl (fun m i => Sparse.set m 0 (g i) (v i)) m) 0 (g i) = v i := by
  induction l using List.reverseRecOn with
  | nil => cases hi
  | append_singleton l j ih =>
    rw [List.foldl_append, List.foldl_cons, List.foldl_nil]
    by_cases hj : g j = g i
    · rw [← hj, Sparse.get_set_self, h j (by simp) hj]
    · have hmem : i ∈ l := (List.mem_append.mp hi).resolve_right fun hlast => hj (by rw [List.mem_singleton.mp hlast])
      rw [Sparse.get_set_ne _ _ _ _ (Ne.symm hj), ih hmem fun k hk => h k (List.mem_append_left _ hk)]

end Writes

/-! ### The bytes of a vector access (R280) -/

section Bytes

variable {x : Eng} {rs1 off a : Nat} (pr : Nat) (ha : (x.sReg rs1 + uns 64 (4 * sgn 13 off)) % 2 ^ 64 = a)

theorem vAddr_eq (x : Eng) (rs1 off : Nat) :
    (x.sReg rs1 + uns 64 (4 * sgn 13 off)) % 2 ^ 64 = (BitVec.ofNat 64 (x.sReg rs1) + BitVec.ofInt 64 (4 * (BitVec.ofNat 13 off).toInt)).toNat := by
  rw [BitVec.toNat_add, BitVec.toNat_ofNat, Nat.mod_add_mod, uns_eq_toNat, sgn_eq_toInt]

include ha

theorem kBytes_eq : kBytes x rs1 pr off = ((List.range 64).filter (pbit (x.pReg pr))).map (fun k => (k, (a + k) % 2 ^ 64)) := by
  simp only [kBytes, ← ha, Nat.mod_add_mod]

variable {pr}

theorem mem_kBytes {b : Nat × Nat} : b ∈ kBytes x rs1 pr off ↔ b.1 < 64 ∧ pbit (x.pReg pr) b.1 = true ∧ b.2 = (a + b.1) % 2 ^ 64 := by
  obtain ⟨k, c⟩ := b
  simp only [kBytes_eq pr ha, List.mem_map, List.mem_filter, List.mem_range, Prod.mk.injEq]
  constructor
  · rintro ⟨k, ⟨hk, hon⟩, rfl, rfl⟩
    exact ⟨hk, hon, rfl⟩
  · rintro ⟨hk, hon, rfl⟩
    exact ⟨k, ⟨hk, hon⟩, rfl, rfl⟩

theorem all_kBytes {q : Nat → Bool} :
    (kBytes x rs1 pr off).all (fun b => q b.2) = true ↔ ∀ k, k < 64 → pbit (x.pReg pr) k = true → q ((a + k) % 2 ^ 64) = true := by
  simp only [kBytes_eq pr ha, List.all_map, List.all_eq_true, List.mem_filter, List.mem_range, and_imp, Function.comp_apply]

theorem all_kBytes_denied {q : Nat → Bool} (h : ∃ k, k < 64 ∧ pbit (x.pReg pr) k = true ∧ q ((a + k) % 2 ^ 64) = false) :
    (kBytes x rs1 pr off).all (fun b => q b.2) = false := by
  obtain ⟨k, hk, hon, hq⟩ := h
  exact Bool.eq_false_iff.mpr fun hall => Bool.false_ne_true (hq.symm.trans ((all_kBytes ha).mp hall k hk hon))

end Bytes

/-- Two bytes of an access lie at two addresses. -/
theorem access_injective {a i j : Nat} (hi : i < 64) (hj : j < 64) (h : (a + i) % 2 ^ 64 = (a + j) % 2 ^ 64) : i = j := by omega

section Access

variable {d : Dev} {x : Eng} {v rs1 pr off a : Nat} (ha : (x.sReg rs1 + uns 64 (4 * sgn 13 off)) % 2 ^ 64 = a)

theorem kVld_misaligned (h : x.sReg rs1 % 4 ≠ 0) : kVld v rs1 pr off d x = .exc 0x04 := if_pos h

theorem kVst_misaligned (h : x.sReg rs1 % 4 ≠ 0) : kVst v rs1 pr off d x = .exc 0x04 := if_pos h

variable (hal : x.sReg rs1 % 4 = 0)
include ha hal

theorem kVld_denied (h : ∃ k, k < 64 ∧ pbit (x.pReg pr) k = true ∧ x.readable ((a + k) % 2 ^ 64) = false) : kVld v rs1 pr off d x = .exc 0x05 := by
  simp only [kVld, all_kBytes_denied ha h, hal]
  rfl

theorem kVst_denied (h : ∃ k, k < 64 ∧ pbit (x.pReg pr) k = true ∧ x.writable ((a + k) % 2 ^ 64) = false) : kVst v rs1 pr off d x = .exc 0x06 := by
  simp only [kVst, all_kBytes_denied ha h, hal]
  rfl

variable (hx : x.xfers = [])
include hx

theorem kVld_eq (h : ∀ k, k < 64 → pbit (x.pReg pr) k = true → x.readable ((a + k) % 2 ^ 64) = true) :
    kVld v rs1 pr off d x = .next (x.setV v (mapLanes 8 64 (x.pReg pr) (x.vReg v) (fun k => x.byte ((a + k) % 2 ^ 64)))).step := by
  simp only [kVld, (all_kBytes ha).mpr h, hal, Eng.held_of_idle hx, ha]
  rfl

theorem kVst_eq (h : ∀ k, k < 64 → pbit (x.pReg pr) k = true → x.writable ((a + k) % 2 ^ 64) = true) :
    kVst v rs1 pr off d x = .next (Eng.step { x with
      mem := (kBytes x rs1 pr off).foldl (fun m b => Sparse.set m 0 b.2 (BitVec.ofNat 8 (lane (x.vReg v) 8 b.1))) x.mem }) := by
  simp only [kVst, (all_kBytes ha).mpr h, hal, Eng.held_of_idle hx]
  rfl

end Access

/-! ### Tables (R287) -/

theorem leNat_lt (l : List Nat) : leNat l < 2 ^ (8 * l.length) := by
  induction l with
  | nil => exact Nat.one_pos
  | cons b l ih =>
    rw [leNat, List.length_cons, Nat.mul_succ, pow_add]
    have hb := Nat.mod_lt b (y := 256) (by decide)
    omega

theorem Eng.num_lt (x : Eng) (a n : Nat) : x.num a n < 2 ^ (8 * n) := (leNat_lt _).trans_eq (by rw [List.length_map, List.length_range])

theorem kWidth_of_lt_two {typ : Nat} (h : typ < 2) : kWidth typ = 8 * (typ + 1) := by
  interval_cases typ
  · rfl
  · rfl

section Tables

variable {d : Dev} {x : Eng} {v vs1 rs pr typ : Nat}

theorem kVlut_misaligned (htyp : typ = 1) (h : x.sReg rs % 2 = 1) : kVlut v vs1 rs pr typ d x = .exc 0x04 := by
  subst htyp
  exact (if_neg (by decide)).trans (if_pos ⟨rfl, by rw [h]; exact Nat.one_ne_zero⟩)

variable {at_ : Nat → Nat} (hat : ∀ k, (x.sReg rs + (if typ = 0 then 1 else 2) * lane (x.vReg vs1) (kWidth typ) k) % 2 ^ 64 = at_ k)
include hat

theorem kVlut_denied (htyp : typ < 2) (hal : typ = 1 → x.sReg rs % 2 = 0)
    (h : ∃ k, k < kLanes typ ∧ pbit (x.pReg pr) k = true ∧ x.readable (at_ k) = false) : kVlut v vs1 rs pr typ d x = .exc 0x07 := by
  obtain ⟨k, hk, hon, hr⟩ := h
  have hdenied : (((List.range (kLanes typ)).filter (pbit (x.pReg pr))).flatMap
      fun i => if typ = 0 then [at_ i] else [at_ i, (at_ i + 1) % 2 ^ 64]).all x.readable = false := by
    have hfirst : at_ k ∈ if typ = 0 then [at_ k] else [at_ k, (at_ k + 1) % 2 ^ 64] := by split <;> exact List.mem_cons_self
    have hk' := List.mem_filter.mpr ⟨List.mem_range.mpr hk, hon⟩
    exact Bool.eq_false_iff.mpr fun hall => Bool.false_ne_true (hr.symm.trans (List.all_eq_true.mp hall _ (List.mem_flatMap.mpr ⟨k, hk', hfirst⟩)))
  simp only [kVlut, hat, hdenied]
  exact (if_neg (Nat.not_le.mpr htyp)).trans ((if_neg fun hodd => hodd.2 (hal hodd.1)).trans (if_pos rfl))

theorem kVlut_eq (htyp : typ < 2) (hal : typ = 1 → x.sReg rs % 2 = 0)
    (h : ∀ k, k < kLanes typ → pbit (x.pReg pr) k = true → x.readable (at_ k) = true ∧ x.readable ((at_ k + typ) % 2 ^ 64) = true) (hx : x.xfers = []) :
    kVlut v vs1 rs pr typ d x = .next (x.setV v (mapLanes (kWidth typ) (kLanes typ) (x.pReg pr) (x.vReg v) (fun k => x.num (at_ k) (typ + 1)))).step := by
  have hall : (((List.range (kLanes typ)).filter (pbit (x.pReg pr))).flatMap
      fun i => if typ = 0 then [at_ i] else [at_ i, (at_ i + 1) % 2 ^ 64]).all x.readable = true := by
    refine List.all_eq_true.mpr fun b hb => ?_
    obtain ⟨k, hk, hb⟩ := List.mem_flatMap.mp hb
    obtain ⟨hk, hon⟩ := List.mem_filter.mp hk
    obtain ⟨hfirst, hlast⟩ := h k (List.mem_range.mp hk) hon
    interval_cases typ
    · rwa [List.mem_singleton.mp hb]
    · rcases List.mem_cons.mp hb with rfl | hb
      · exact hfirst
      · rwa [List.mem_singleton.mp hb]
  simp only [kVlut, hat, hall, Eng.held_of_idle hx]
  exact (if_neg (Nat.not_le.mpr htyp)).trans (if_neg fun hodd => hodd.2 (hal hodd.1))

end Tables

/-! ### The instructions -/

section Commands

variable {i : Instr} {s : State} {e v rs1 rs pr off a vs1 typ : Nat} {fits : Nat → Bool}

/-- A store puts each enabled byte at its address, and nothing elsewhere. -/
theorem retires_of_vst (ha : ((s.dev.eng e).sReg rs1 + uns 64 (4 * sgn 13 off)) % 2 ^ 64 = a) (hi : exec i s = s.run (·.kreov e fits (kVst v rs1 pr off)))
    (h : s.dev.runs e fits) (hal : (s.dev.eng e).sReg rs1 % 4 = 0) (hx : (s.dev.eng e).xfers = [])
    (hw : ∀ k, k < 64 → pbit ((s.dev.eng e).pReg pr) k = true → (s.dev.eng e).writable ((a + k) % 2 ^ 64) = true) :
    ∃ m, Retires i s e (Eng.step { s.dev.eng e with mem := m })
      ∧ (∀ k, k < 64 → pbit ((s.dev.eng e).pReg pr) k = true → (Sparse.get m 0 ((a + k) % 2 ^ 64) : Byte).toNat = lane ((s.dev.eng e).vReg v) 8 k)
      ∧ ∀ b, (∀ k, k < 64 → pbit ((s.dev.eng e).pReg pr) k = true → b ≠ (a + k) % 2 ^ 64) → Sparse.get m 0 b = Sparse.get (s.dev.eng e).mem 0 b := by
  refine ⟨_, retires_of_next hi h (kVst_eq ha hal hx hw) rfl, fun k hk hon => ?_, fun b hb => get_foldl_set_ne _ _ _ fun c hc => ?_⟩
  · have hmem : (k, (a + k) % 2 ^ 64) ∈ kBytes (s.dev.eng e) rs1 pr off := (mem_kBytes ha).mpr ⟨hk, hon, rfl⟩
    rw [get_foldl_set Prod.snd (fun c => BitVec.ofNat 8 (lane ((s.dev.eng e).vReg v) 8 c.1)) _ hmem fun c hc hsame => ?_]
    · exact (lane_eq_toNat 8 _ k).symm
    · obtain ⟨hc, -, hat⟩ := (mem_kBytes ha).mp hc
      rw [access_injective hc hk (hat.symm.trans hsame)]
  · obtain ⟨hc, hon, hat⟩ := (mem_kBytes ha).mp hc
    rw [hat]
    exact (hb c.1 hc hon).symm

/-- A table's byte or halfword goes to each enabled element. -/
theorem writesElements_of_lut {at_ : Nat → Nat}
    (hat : ∀ k, ((s.dev.eng e).sReg rs + (if typ = 0 then 1 else 2) * lane ((s.dev.eng e).vReg vs1) (kWidth typ) k) % 2 ^ 64 = at_ k)
    (hi : exec i s = s.run (·.kreov e fits (kVlut v vs1 rs pr typ))) (h : s.dev.runs e fits) (htyp : typ < 2)
    (hal : typ = 1 → (s.dev.eng e).sReg rs % 2 = 0)
    (hr : ∀ k, k < kLanes typ → pbit ((s.dev.eng e).pReg pr) k = true →
      (s.dev.eng e).readable (at_ k) = true ∧ (s.dev.eng e).readable ((at_ k + typ) % 2 ^ 64) = true) (hx : (s.dev.eng e).xfers = []) :
    WritesElements i s e v pr (kWidth typ) (kLanes typ) fun k => (s.dev.eng e).num (at_ k) (typ + 1) :=
  writesElements_of_next hi h (kVlut_eq hat htyp hal hr hx) fun _ _ => Nat.mod_eq_of_lt (by rw [kWidth_of_lt_two htyp]; exact Eng.num_lt _ _ _)

theorem writesP_of_pred {ps1 ps2 u : Nat} {f : Nat → Nat → Nat} (hi : exec i s = s.run (·.kreov e fits (kPred v ps1 ps2 f))) (h : s.dev.runs e fits)
    (hu : f ((s.dev.eng e).pReg ps1) ((s.dev.eng e).pReg ps2) = u) : WritesP i s e v u :=
  hu ▸ retires_of_next hi h rfl (Eng.setP_retired _ _ _)

end Commands

/-- The factor of a table's index is the size of its entries. -/
theorem lut_factor {typ : Nat} (h : typ < 2) : (if typ = 0 then 1 else 2) = typ + 1 := by
  interval_cases typ
  · rfl
  · rfl

/-- Settles O35: the rights of an access first, then its bytes. -/
theorem vectorMemory : Obligations.VectorMemory := fun s e v rs1 pr off _ => by
  intro x a on
  have ha : (x.sReg rs1 + uns 64 (4 * sgn 13 off)) % 2 ^ 64 = a := vAddr_eq _ _ _
  clear_value a
  refine ⟨fun h => ⟨fun hal => raises_of_exc rfl h (kVld_misaligned hal), fun hal hr => raises_of_exc rfl h (kVld_denied ha hal hr),
      fun hal hr hx => writesElements_of_next rfl h (kVld_eq ha hal hx hr) fun _ _ => Nat.mod_eq_of_lt (BitVec.isLt _)⟩,
    fun h => ⟨fun hal => raises_of_exc rfl h (kVst_misaligned hal), fun hal hw => raises_of_exc rfl h (kVst_denied ha hal hw),
      fun hal hw hx => retires_of_vst ha rfl h hal hx hw⟩,
    fun vs1 typ h => ?_,
    fun p1 p2 h => writesP_of_pred rfl h rfl,
    fun p1 p2 h => writesP_of_pred rfl h rfl,
    fun p1 p2 h => writesP_of_pred rfl h rfl,
    fun p1 h => writesP_of_pred rfl h ?_,
    fun h => retires_of_next rfl h rfl (Eng.setP_retired _ _ _),
    fun p1 h => retires_of_next rfl h rfl (Eng.setS_retired _ _ _)⟩
  · intro at_
    have hat : typ < 2 → ∀ k, (x.sReg rs1 + (if typ = 0 then 1 else 2) * lane (x.vReg vs1) (kWidth typ) k) % 2 ^ 64 = at_ k := fun htyp k => by
      rw [lut_factor htyp]
    exact ⟨fun htyp => raises_of_exc rfl h (if_pos htyp), fun htyp hodd => raises_of_exc rfl h (kVlut_misaligned htyp hodd),
      fun htyp hr => raises_of_exc rfl h (kVlut_denied (hat (by omega)) (by omega) (by omega) (by subst htyp; exact hr)),
      fun htyp hal hr hx => writesElements_of_lut (hat htyp) rfl h htyp hal hr hx⟩
  · rw [BitVec.toNat_not, BitVec.toNat_ofNat, Nat.mod_eq_of_lt (Eng.pReg_lt _ _)]

end Sys2Proof.Machine
end

section
/-! PROOF. O36, transfers of an engine (R288–R290). A start raises the first exception that applies; a read's end copies a range of one memory over a
range of another, a write's end puts its bytes where they belong. -/

namespace Sys2Proof.Machine

namespace Sparse

variable {α : Type} {m : List (Nat × α)}

theorem mem_of_find? {k : Nat} {v : α} (h : find? m k = some v) : (k, v) ∈ m := by
  induction m with
  | nil => cases h
  | cons c m ih =>
    obtain ⟨k', v'⟩ := c
    rw [find?] at h
    split at h
    · next hk =>
      cases hk
      cases h
      exact List.mem_cons_self
    · exact List.mem_cons_of_mem _ (ih h)

/-- In a list of rising keys each entry is the one that is read. -/
theorem find?_of_mem (hm : sorted m = true) {c : Nat × α} (h : c ∈ m) : find? m c.1 = some c.2 := by
  rw [sorted_iff] at hm
  induction m with
  | nil => cases h
  | cons a m ih =>
    obtain ⟨k, v⟩ := a
    obtain ⟨hlt, hrest⟩ := List.pairwise_cons.mp hm
    rcases List.mem_cons.mp h with rfl | h
    · exact if_pos rfl
    · rw [find?, if_neg (hlt c.1 (List.mem_map_of_mem h)).ne]
      exact ih hrest h

end Sparse

/-! ### Copying a range of memory -/

section Copy

variable {src : List Host.Cell} (off len : Nat) (mem : List Host.Cell) (dst : Nat)

theorem mem_copied {c : Host.Cell} : c ∈ src.filter (fun c => decide (off ≤ c.1 ∧ c.1 < off + len)) ↔ c ∈ src ∧ off ≤ c.1 ∧ c.1 < off + len := by
  rw [List.mem_filter, decide_eq_true_eq]

/-- What a range is cleared of reads 0, the rest as before. -/
theorem get_cleared (a : Nat) : Sparse.get (mem.filter (fun c => !decide (dst ≤ c.1 ∧ c.1 < dst + len))) (0 : Byte) a
    = if dst ≤ a ∧ a < dst + len then 0 else Sparse.get mem 0 a := by
  rw [Sparse.get, Sparse.find?_filter mem (fun k => !decide (dst ≤ k ∧ k < dst + len))]
  by_cases h : dst ≤ a ∧ a < dst + len
  · rw [if_pos h, if_neg (by simp [h])]
    rfl
  · rw [if_neg h, if_pos (by rw [decide_eq_false h]; rfl)]
    rfl

theorem get_copyCells_ne {a : Nat} (h : a < dst ∨ dst + len ≤ a) : Sparse.get (copyCells src off len mem dst) 0 a = Sparse.get mem 0 a := by
  refine (get_foldl_set_ne (fun c => c.1 - off + dst) Prod.snd _ fun c hc => ?_).trans ((get_cleared len mem dst a).trans (if_neg (by omega)))
  obtain ⟨-, hlo, hhi⟩ := (mem_copied off len).mp hc
  omega

theorem get_copyCells (hsrc : Sparse.sorted src = true) {k : Nat} (h : k < len) :
    Sparse.get (copyCells src off len mem dst) 0 (dst + k) = Sparse.get src 0 (off + k) := by
  unfold copyCells
  cases hfind : Sparse.find? src (off + k) with
  | none =>
    have hnot : ∀ c ∈ src.filter (fun c => decide (off ≤ c.1 ∧ c.1 < off + len)), c.1 - off + dst ≠ dst + k := fun c hc heq => by
      obtain ⟨hc, hlo, -⟩ := (mem_copied off len).mp hc
      have hsome := Sparse.find?_of_mem hsrc hc
      rw [show c.1 = off + k by omega, hfind] at hsome
      cases hsome
    rw [get_foldl_set_ne (fun c => c.1 - off + dst) Prod.snd _ hnot, get_cleared, if_pos (by omega), Sparse.get, hfind]
    rfl
  | some v =>
    have hmem : (off + k, v) ∈ src.filter (fun c => decide (off ≤ c.1 ∧ c.1 < off + len)) :=
      (mem_copied off len).mpr ⟨Sparse.mem_of_find? hfind, by dsimp only; omega, by dsimp only; omega⟩
    have hget := get_foldl_set (fun c : Host.Cell => c.1 - off + dst) Prod.snd (mem.filter (fun c => !decide (dst ≤ c.1 ∧ c.1 < dst + len))) hmem
      fun c hc heq => by
        obtain ⟨hc, hlo, -⟩ := (mem_copied off len).mp hc
        have hsome := Sparse.find?_of_mem hsrc hc
        dsimp only at heq
        rw [show c.1 = off + k by omega, hfind] at hsome
        exact (Option.some.inj hsome).symm
    rw [show dst + k = off + k - off + dst by omega, hget, Sparse.get, hfind]
    rfl

end Copy

/-! ### The start of a transfer -/

section Start

variable {e rl rr rn ch dir : Nat} {d : Dev} {x : Eng}

theorem kDmaStart_misaligned (h : x.sReg rl % 64 ≠ 0 ∨ x.sReg rr % 64 ≠ 0) : kDmaStart e rl rr rn ch dir d x = .exc 0x04 := if_pos h

variable (hloc : x.sReg rl % 64 = 0) (hrem : x.sReg rr % 64 = 0)
include hloc hrem

theorem kDmaStart_length (h : x.sReg rn % 64 ≠ 0 ∨ x.sReg rn < 64 ∨ 65536 < x.sReg rn) : kDmaStart e rl rr rn ch dir d x = .exc 0x09 :=
  (if_neg (by omega)).trans (if_pos h)

variable (hlen : ¬(x.sReg rn % 64 ≠ 0 ∨ x.sReg rn < 64 ∨ 65536 < x.sReg rn))
include hlen

theorem kDmaStart_denied (h : d.remoteOk e (decide (dir = 1)) (x.sReg rr) (x.sReg rn) = false ∨ localOk x (decide (dir = 1)) (x.sReg rl) (x.sReg rn) = false) :
    kDmaStart e rl rr rn ch dir d x = .exc 0x08 :=
  (if_neg (by omega)).trans ((if_neg hlen).trans (if_pos (by simpa only [Bool.not_eq_true', decide_eq_true_eq] using h)))

variable (hremote : d.remoteOk e (decide (dir = 1)) (x.sReg rr) (x.sReg rn) = true) (hlocal : localOk x (decide (dir = 1)) (x.sReg rl) (x.sReg rn) = true)
include hremote hlocal

theorem kDmaStart_granted : kDmaStart e rl rr rn ch dir d x =
    if x.busyCh ch ∨ x.xfers.any (fun t => (t.isRead || decide (dir = 0)) && decide (t.loc < x.sReg rl + x.sReg rn ∧ x.sReg rl < t.loc + t.len)) then .stall
    else .next (Eng.step { x with xfers := x.xfers ++ [⟨ch, decide (dir = 0), x.sReg rr, x.sReg rl, x.sReg rn,
      if dir = 1 then (List.range (x.sReg rn)).map (fun k => x.byte (x.sReg rl + k)) else []⟩] }) :=
  (if_neg (by omega)).trans ((if_neg hlen).trans (if_neg (by rw [hremote, hlocal]; decide)))

end Start

/-! ### Its end -/

section Done

variable {s : State} {e ch : Nat} {t : Xfer}

theorem waits_of_idle (h : (s.dev.eng e).busyCh ch = false) : Waits (.dmaTransferDone e ch) s := by
  have hnone : (s.dev.eng e).xfers.find? (fun t => t.ch = ch) = none := List.find?_eq_none.mpr fun t ht htc => by
    exact Bool.false_ne_true (h.symm.trans (List.any_eq_true.mpr ⟨t, ht, htc⟩))
  exact completes_of_eq (u := (·.dmaDone e ch)) rfl (by simp only [Dev.dmaDone, hnone]) rfl

/-- A write's end sends its bytes. -/
theorem write_done (ht : (s.dev.eng e).xfers.find? (fun u => u.ch = ch) = some t) (hdir : t.isRead = false) :
    Completes (.dmaTransferDone e ch) s fun d => d.eng e = { s.dev.eng e with xfers := (s.dev.eng e).xfers.filter (fun u => u.ch ≠ ch) } ∧
      KeepsRegs s.dev d [] ∧ (∀ k, k ≠ e → d.eng k = s.dev.eng k) ∧ (∀ k, k < t.data.length → d.byte (t.remote + k) = BitVec.ofNat 8 (t.data.getD k 0)) ∧
      ∀ a, a < t.remote ∨ t.remote + t.data.length ≤ a → d.byte a = s.dev.byte a := by
  have heng : ∀ d : Dev, (d.setBytes t.remote t.data).engines = d.engines := fun d =>
    Dev.setBytes_keeps (P := fun y => y.engines = d.engines) d (fun _ _ h => h) _ _ rfl
  refine completes_of_eq (u := (·.dmaDone e ch)) rfl (by simp only [Dev.dmaDone, ht, hdir]; rfl)
    ⟨(Dev.eng_of_engines (heng _) e).trans (s.dev.eng_setEng e _), Dev.keepsRegs_canon fun g _ => Dev.get_setBytes _ _ _,
      fun k hk => (Dev.eng_of_engines (heng _) k).trans (s.dev.eng_setEng_ne _ hk), fun k hk => ?_, fun a ha => ?_⟩
  · rw [Dev.byte_canon, Dev.byte_setBytes _ _ _ _ hk]
  · rw [Dev.byte_canon, Dev.byte_setBytes_ne _ _ ha]
    rfl

/-- A read's end brings its bytes into local memory. -/
theorem read_done (ht : (s.dev.eng e).xfers.find? (fun u => u.ch = ch) = some t) (hdir : t.isRead = true) (hcanon : s.dev.Canonical)
    (hhbm : s.dev.bit F.DEV_ENV_STAT_HBM_FAIL = false ∨ 0x4_0000_0000 ≤ t.remote) :
    Completes (.dmaTransferDone e ch) s fun d =>
      (∃ m, d.eng e = { s.dev.eng e with xfers := (s.dev.eng e).xfers.filter (fun u => u.ch ≠ ch), mem := m } ∧
        (∀ k, k < t.len → Sparse.get m 0 (t.loc + k) = s.dev.byte (t.remote + k)) ∧
        (∀ a, a < t.loc ∨ t.loc + t.len ≤ a → Sparse.get m 0 a = Sparse.get (s.dev.eng e).mem 0 a)) ∧
      (∀ k, k ≠ e → d.eng k = s.dev.eng k) ∧ KeepsRegs s.dev d [] ∧ KeepsMemory s.dev d := by
  obtain ⟨-, hmem, -⟩ := hcanon
  have hsorted : Sparse.sorted s.dev.mem = true := (Bool.and_eq_true_iff.mp hmem).1
  have husable : ¬(s.dev.bit F.DEV_ENV_STAT_HBM_FAIL = true ∧ t.remote < 0x4_0000_0000) := fun h =>
    hhbm.elim (fun hbit => Bool.false_ne_true (hbit.symm.trans h.1)) (Nat.not_le.mpr h.2)
  refine completes_of_eq (u := (·.dmaDone e ch)) (e := s.dev.setEng e { s.dev.eng e with
      xfers := (s.dev.eng e).xfers.filter (fun u => u.ch ≠ ch), mem := copyCells s.dev.mem t.remote t.len (s.dev.eng e).mem t.loc })
    rfl (by simp only [Dev.dmaDone, ht, hdir, husable]; rfl)
    ⟨⟨_, s.dev.eng_setEng e _, fun k hk => get_copyCells _ _ _ _ hsorted hk, fun a ha => get_copyCells_ne _ _ _ _ ha⟩,
      fun k hk => s.dev.eng_setEng_ne _ hk, Dev.keepsRegs_canon fun _ _ => rfl, Dev.keepsMemory_canon rfl rfl rfl rfl⟩

end Done

end Sys2Proof.Machine
end

section
/-! PROOF. O36, the ends of a body. A verdict is counted and passed on before the engine leaves its body; a body past its limit is stopped by the
dispatcher, and then no exception is noted. -/

namespace Sys2Proof.Machine

namespace Dev

variable (d : Dev) {e : Nat} {f : Fld}

/-! ### What counts and events leave alone -/

/-- What the noting of a verdict leaves alone: the engines' side, the bodies, the planner. -/
def emitSide (d : Dev) := (d.engineSide, d.seg, d.plan)

theorem emitSide_of_unrecorded {d y : Dev} (h : y.unrecorded = d.unrecorded) : y.emitSide = d.emitSide := (congrArg emitSide h :)

theorem emitSide_observe (page src inst : Nat) (v : Int) : (d.observe page src inst v).emitSide = d.emitSide :=
  observe_keeps (P := fun y => y.emitSide = d.emitSide) d (fun _ _ h => h) (fun _ h => (emitSide_of_unrecorded (unrecorded_raise _ _ _)).trans h)
    page src inst v rfl

theorem get_observe (hf : f.calm = true) (page src inst : Nat) (v : Int) : (d.observe page src inst v).get f = d.get f :=
  observe_keeps (P := fun y => y.get f = d.get f) d (fun _ _ h => h) (fun y h => (get_raise y _ _ hf).trans h) page src inst v rfl

theorem engCycles_congr {d y : Dev} (hcyc : (y.eng e).cyc = (d.eng e).cyc) (hat : (y.eng e).cycAt = (d.eng e).cycAt) (htime : y.time = d.time)
    (hp : y.get (F.ENG_PT_ACT e) = d.get (F.ENG_PT_ACT e)) : y.engCycles e = d.engCycles e := by
  simp only [engCycles, elapsed, hcyc, hat, hp, htime]

theorem plan_startBody (e : Nat) : (d.startBody e).plan = d.plan := by
  obtain h | ⟨x, h⟩ := startBody_cases d e
  · rw [h]
  · rw [h]; rfl

theorem plan_endBody (e : Nat) : (d.endBody e).plan = d.plan := by
  rw [endBody_eq, apply_ite Dev.plan, plan_startBody]
  exact ite_self _

theorem overdue_setEng {x : Eng} (h : x.body = (d.eng e).body) : (d.setEng e x).overdue e = d.overdue e := by
  unfold overdue
  rw [eng_setEng, h]
  rfl

/-! ### Verdicts (R293) -/

/-- The counts and events of a verdict. -/
def verdictNoted (d : Dev) (e : Nat) (b : CBody) : Dev :=
  let d := d.count (F.ENG_CNT_BODIES_COUNT e)
  let d := d.observe (engPage e) 0x04 e (d.engCycles e)
  (d.observe dispPage 0x03 b.group (d.toDeadline b)).count (F.DISP_GRP_VERD_COUNT b.group)

/-- A verdict passed on, with its instant noted on the engine that emitted it. -/
def emitted (d : Dev) (e id : Nat) (v : Verdict) : Dev :=
  let d := d.pass id v false
  d.setEng e { d.eng e with emitAt := some d.time.c }

variable {id : Nat} {b : CBody} (v : Verdict)

theorem emitSide_verdictNoted (e : Nat) (b : CBody) : (d.verdictNoted e b).emitSide = d.emitSide :=
  (emitSide_of_unrecorded (unrecorded_count _ _ _)).trans
    ((emitSide_observe _ _ _ _ _).trans ((emitSide_observe _ _ _ _ _).trans (emitSide_of_unrecorded (unrecorded_count _ _ _))))

theorem get_verdictNoted (hf : f.spared) (h : f.key ≠ (F.ENG_CNT_BODIES_COUNT e).key) : (d.verdictNoted e b).get f = d.get f := by
  obtain ⟨hcalm, -, hgroup⟩ := hf
  simp only [verdictNoted]
  rw [get_count_ne _ _ (hgroup _).2, get_observe _ hcalm, get_observe _ hcalm, get_count_ne _ _ h]

/-- A body in hand and not resolved: its verdict goes out, and the engine leaves it. -/
theorem emitVerdict_eq (ho : d.overdue e = none) (hid : (d.eng e).body = some id) (hb : d.bodyOf id = some b) (hv : b.verdict = none) (w1 hint : Nat) :
    d.emitVerdict e w1 hint = ((d.verdictNoted e b).emitted e id ⟨w1, hint⟩).endBody e := by
  have hside : ∀ page src inst v, ((d.count (F.ENG_CNT_BODIES_COUNT e)).observe page src inst v).emitSide = d.emitSide := fun _ _ _ _ =>
    (emitSide_observe _ _ _ _ _).trans (emitSide_of_unrecorded (unrecorded_count _ _ _))
  have hb' : ∀ page src inst v, ((d.count (F.ENG_CNT_BODIES_COUNT e)).observe page src inst v).bodyOf id = some b := fun _ _ _ _ =>
    (bodyOf_of_seg (congrArg (·.2.1) (hside _ _ _ _)) id).trans hb
  simp only [emitVerdict, ho, hid, hb', hv]
  rfl

theorem eng_emitted (e id : Nat) : (d.emitted e id v).eng e = { d.eng e with emitAt := some d.time.c } := eng_setEng _ _ _

theorem eng_emitted_ne {k : Nat} (h : k ≠ e) : (d.emitted e id v).eng k = d.eng k := eng_setEng_ne _ _ h

theorem bodies_emitted : (d.emitted e id v).seg.bodies = d.seg.bodies.map (fun c => if c.id = id then { c with verdict := some v, place := .resolved } else c) :=
  rfl

theorem engCycles_emitted : (d.emitted e id v).engCycles e = d.engCycles e := by
  have heng := d.eng_emitted v e id
  exact engCycles_congr (by rw [heng]) (by rw [heng]) rfl rfl

/-- What a verdict does to its engine, its body and the planner, and what it leaves alone (R291, R293). -/
theorem emitVerdict_shows (he : e < 64) (ho : d.overdue e = none) (hid : (d.eng e).body = some id) (hb : d.bodyOf id = some b) (hv : b.verdict = none)
    (w1 hint : Nat) :
    (d.emitVerdict e w1 hint).seg.bodies = d.seg.bodies.map (fun c => if c.id = id then { c with verdict := some ⟨w1, hint⟩, place := .resolved } else c)
      ∧ (d.emitVerdict e w1 hint).plan.passing = d.plan.passing ++ [⟨id, ⟨w1, hint⟩, false⟩]
      ∧ (d.emitVerdict e w1 hint).get (F.ENG_BUSY_KCYCLES e) = ((d.eng e).busy + d.engCycles e) / 1024 % 2 ^ 32
      ∧ ((d.eng e).fetched = none → (d.emitVerdict e w1 hint).eng e = { d.ended e with emitAt := some d.time.c })
      ∧ (∀ k, k ≠ e → (d.emitVerdict e w1 hint).eng k = d.eng k) ∧ (d.emitVerdict e w1 hint).memories = d.memories := by
  have hemit := d.emitSide_verdictNoted e b
  have hcycles : (d.verdictNoted e b).engCycles e = d.engCycles e := engCycles_of_engineSide (congrArg Prod.fst hemit)
    (d.get_verdictNoted (Fld.spared_engine he (by decide) (by decide) (by decide) (by decide)) (by simp only [Fld.key, bar0]; omega))
  rw [emitVerdict_eq d ho hid hb hv]
  generalize d.verdictNoted e b = y at hemit hcycles
  obtain ⟨hside, hseg, hplan⟩ : y.engineSide = d.engineSide ∧ y.seg = d.seg ∧ y.plan = d.plan := by simpa only [emitSide, Prod.mk.injEq] using hemit
  have heng := eng_of_engineSide hside e
  have htime : y.time = d.time := congrArg (·.2.1) hside
  refine ⟨?_, ?_, ?_, fun hf => ?_, fun k hk => ?_, ?_⟩
  · rw [seg_endBody, bodies_emitted, hseg]
  · rw [plan_endBody, ← hplan]
    rfl
  · rw [kcycles_endBody, eng_emitted, engCycles_emitted, hcycles, heng]
  · rw [eng_endBody _ (by rw [eng_emitted, heng]; exact hf), ended, eng_emitted, engCycles_emitted, hcycles, heng, htime, ended]
  · rw [eng_endBody_ne _ hk, eng_emitted_ne _ _ hk, eng_of_engineSide hside]
  · rw [memories_endBody, ← memories_of_engineSide hside]
    rfl

/-! ### A body past its limit (R251, R257) -/

theorem body_of_overdue (h : d.overdue e = some b) : (d.eng e).body = some b.id := by
  unfold overdue at h
  split at h
  · cases h
  · next id hid => rw [hid, id_of_bodyOf (Option.filter_eq_some_iff.mp h).1]

theorem engException_overdue (h : d.overdue e = some b) (code : Nat) : d.engException e code = d.expireBody b := by simp only [engException, h]

/-- A late body that runs: its engine leaves it, and it is resolved by default. -/
theorem resolveLate_running (hp : b.place = .fetched e) (hid : (d.eng e).body = some b.id) (running waiting : Nat) :
    d.resolveLate b running waiting = ((d.count (F.ENG_CNT_DEADLINE_COUNT e)).endBody e).defaultVerdict b running := by
  have hoff : (d.count (F.ENG_CNT_DEADLINE_COUNT e)).takeOff e b.id = ((d.count (F.ENG_CNT_DEADLINE_COUNT e)).endBody e, true) := if_pos hid
  simp only [resolveLate, hp, hoff]
  rfl

theorem resolveLate_shows (he : e < 64) (hp : b.place = .fetched e) (hid : (d.eng e).body = some b.id) {running : Nat} (hr : running < 16) (waiting : Nat) :
    (d.resolveLate b running waiting).get (F.ENG_LAST_EXC_CAUSE e) = d.get (F.ENG_LAST_EXC_CAUSE e)
      ∧ ((d.eng e).fetched = none → ((d.resolveLate b running waiting).eng e).body = none) := by
  rw [resolveLate_running d hp hid]
  constructor
  · rw [get_defaultVerdict_spared _ (Fld.spared_engine he (by decide) (by decide) (by decide) (by decide)) b hr,
      keepsRegs_endBody _ e _ (by simp [engineFields, Fld.key, bar0, engPage]; omega), get_count_ne _ _ (by simp only [Fld.key, bar0]; omega)]
  · intro hf
    rw [eng_of_engineSide (engineSide_defaultVerdict _ _ _), eng_endBody _ (by exact hf), ended]

/-- The dispatcher notes no exception on the engine of a body that it stops. -/
theorem expireBody_shows (he : e < 64) (hp : b.place = .fetched e) (hid : (d.eng e).body = some b.id) :
    (d.expireBody b).get (F.ENG_LAST_EXC_CAUSE e) = d.get (F.ENG_LAST_EXC_CAUSE e) ∧ ((d.eng e).fetched = none → ((d.expireBody b).eng e).body = none) := by
  unfold expireBody
  split
  · obtain ⟨hcause, hbody⟩ := d.resolveLate_shows he hp hid (running := 6) (by decide) 6
    have hcalm : (F.ENG_LAST_EXC_CAUSE e).calm = true := (Fld.spared_engine he (by decide) (by decide) (by decide) (by decide)).1
    have hside : ∀ y : Dev, ((y.count F.DISP_CNT_DIVERGED_COUNT).raise dispPage 7).engineSide = y.engineSide := fun y =>
      engineSide_of_unrecorded ((unrecorded_raise _ _ _).trans (unrecorded_count _ _ _))
    refine ⟨?_, fun hf => ?_⟩
    · rw [get_raise _ _ _ hcalm, get_count_ne _ _ (by simp only [Fld.key, bar0]; omega), hcause]
    · rw [eng_of_engineSide (hside _), hbody hf]
  · exact d.resolveLate_shows he hp hid (by decide) 2

end Dev

section Commands

variable {i : Instr} {s : State} {e : Nat} {fits : Nat → Bool}

/-- An instruction that raises an exception on a body past its limit. -/
theorem overdue_stops {b : CBody} {code : Nat} (hi : exec i s = s.run (·.kreov e fits (kRaise code))) (h : s.dev.runs e fits)
    (ho : s.dev.overdue e = some b) (hp : b.place = .fetched e) : Completes i s fun d =>
      d.get (F.ENG_LAST_EXC_CAUSE e) = s.dev.get (F.ENG_LAST_EXC_CAUSE e) ∧ ((s.dev.eng e).fetched = none → (d.eng e).body = none) := by
  obtain ⟨hcause, hbody⟩ := s.dev.expireBody_shows h.1 hp (s.dev.body_of_overdue ho)
  exact completes_of_eq hi ((Dev.kreov_eq h rfl).trans (s.dev.engException_overdue ho code)) ⟨by rw [Dev.get_canon, hcause], hbody⟩

/-- VEMIT ends the body with its verdict. -/
theorem vemit_ends {id r1 r2 : Nat} {b : CBody} (h : s.dev.runs e (isEmit r1 r2)) (hid : (s.dev.eng e).body = some id) (hb : s.dev.bodyOf id = some b)
    (hv : b.verdict = none) (ho : s.dev.overdue e = none) :
    let x := s.dev.eng e
    let v : Verdict := ⟨bitsAt (x.sReg r1) 16 16 * 65536 + x.sReg r1 % 4, x.sReg r2 % 2 ^ 32⟩
    Completes (.vemit e r1 r2) s fun d =>
      d.seg.bodies = s.dev.seg.bodies.map (fun c => if c.id = id then { c with verdict := some v, place := .resolved } else c)
      ∧ d.plan.passing = s.dev.plan.passing ++ [⟨id, v, false⟩]
      ∧ d.get (F.ENG_BUSY_KCYCLES e) = (x.busy + s.dev.engCycles e) / 1024 % 2 ^ 32
      ∧ (x.fetched = none → (d.eng e).body = none ∧ (d.eng e).retired = x.retired + 1 ∧ (d.eng e).xfers = x.xfers.filter (fun t => !t.isRead))
      ∧ (∀ k, k ≠ e → d.eng k = s.dev.eng k) ∧ KeepsMemory s.dev d := by
  intro x v
  have heng := s.dev.eng_setEng e { x with retired := x.retired + 1 }
  have hcycles : (s.dev.setEng e { x with retired := x.retired + 1 }).engCycles e = s.dev.engCycles e :=
    Dev.engCycles_congr (by rw [heng]) (by rw [heng]) rfl rfl
  obtain ⟨hbodies, hpassing, hbusy, hend, hothers, hmem⟩ := (s.dev.setEng e { x with retired := x.retired + 1 }).emitVerdict_shows h.1
    ((s.dev.overdue_setEng (x := { x with retired := x.retired + 1 }) rfl).trans ho) ((congrArg Eng.body heng).trans hid) hb hv v.w1 v.hint
  rw [heng, hcycles] at hbusy
  refine completes_of_eq (u := (·.kreov e (isEmit r1 r2) (kEmit r1 r2))) rfl (Dev.kreov_eq h rfl)
    ⟨hbodies, hpassing, (Dev.get_canon _ _).trans hbusy, fun hf => ?_, fun k hk => (hothers k hk).trans (s.dev.eng_setEng_ne _ hk),
      Dev.keepsMemory_of_memories hmem⟩
  have hleft := hend (by rw [heng]; exact hf)
  rw [Dev.ended, heng] at hleft
  exact ⟨congrArg Eng.body hleft, congrArg Eng.retired hleft, congrArg Eng.xfers hleft⟩

/-- The run limit comes before the instruction, whatever it is (R296). -/
theorem raises_of_limit {f : Dev → Eng → KRes} (hi : exec i s = s.run (·.kreov e fits f)) (he : e < 64) (hbody : (s.dev.eng e).body.isSome = true)
    (hpc : ∃ i, (s.dev.eng e).img = some i ∧ (s.dev.eng e).pc < i.codeLen) (hfits : fits (s.dev.eng e).word = true)
    (hlimit : (s.dev.eng e).limit * 1024 ≤ (s.dev.eng e).retired) : Raises i s e 0x10 :=
  raises_of_engException hi ((Dev.kreov_fetched he hbody hpc hfits).trans (if_pos hlimit)) he hbody

end Commands

/-- Settles O36: transfers first, then the system's instructions, then the ends of a body. -/
theorem dmaAndSystem : Obligations.DmaAndSystem := fun s e => by
  intro x
  refine ⟨fun rl rr rn ch dir _ h => ?_, fun ch hidle => waits_of_idle hidle, fun ch t ht hdir => write_done ht hdir,
    fun ch t ht hdir hcanon hhbm => read_done ht hdir hcanon hhbm,
    fun ch h => ⟨fun hidle => retires_of_next rfl h (if_neg (by rw [hidle]; exact Bool.false_ne_true)) rfl, fun hbusy => waits_of_stall rfl h (if_pos hbusy)⟩,
    fun rd ch h => retires_of_next rfl h rfl (Eng.setS_retired _ _ _),
    fun h => retires_of_next rfl h rfl rfl,
    fun rd h => retires_of_next rfl h rfl (Eng.setS_retired _ _ _),
    fun rd h => retires_of_next rfl h rfl (Eng.setS_retired _ _ _),
    fun h => raises_of_exc rfl h rfl, fun h => raises_of_exc rfl h rfl,
    fun id b r1 r2 h hid hb hv ho => vemit_ends h hid hb hv ho,
    fun b ho hp i word hmem h => ?_,
    fun he hbody hpc hlimit => illegalInstruction_raises_outside he hbody hlimit hpc,
    fun he hbody hpc hlegal hlimit => illegalInstruction_raises he hbody hlimit hpc hlegal,
    fun rd r1 r2 i word hmem he hbody hpc hword hlimit => ?_⟩
  · intro cmd loc rem len shared
    refine ⟨fun hmis => raises_of_exc rfl h (kDmaStart_misaligned hmis), fun hloc hrem => ⟨fun hbad => raises_of_exc rfl h (kDmaStart_length hloc hrem hbad),
      fun hlen hmin hmax => ?_⟩⟩
    have hlen' : ¬(len % 64 ≠ 0 ∨ len < 64 ∨ 65536 < len) := by omega
    refine ⟨fun hdenied => raises_of_exc rfl h (kDmaStart_denied hloc hrem hlen' hdenied), fun hremote hlocal => ⟨fun hwait => ?_, fun hidle hshared => ?_⟩⟩
    · exact waits_of_stall rfl h ((kDmaStart_granted hloc hrem hlen' hremote hlocal).trans (if_pos hwait))
    · exact retires_of_next rfl h ((kDmaStart_granted hloc hrem hlen' hremote hlocal).trans
        (if_neg (not_or.mpr ⟨Bool.eq_false_iff.mp hidle, Bool.eq_false_iff.mp hshared⟩))) rfl
  · simp only [List.mem_cons, List.not_mem_nil, or_false, Prod.mk.injEq] at hmem
    rcases hmem with ⟨rfl, rfl⟩ | ⟨rfl, rfl⟩ <;>
      exact overdue_stops rfl h ho hp
  · simp only [List.mem_cons, List.not_mem_nil, or_false, Prod.mk.injEq] at hmem
    rcases hmem with ⟨rfl, rfl⟩ | ⟨rfl, rfl⟩ | ⟨rfl, rfl⟩ | ⟨rfl, rfl⟩ | ⟨rfl, rfl⟩ | ⟨rfl, rfl⟩ | ⟨rfl, rfl⟩ | ⟨rfl, rfl⟩ | ⟨rfl, rfl⟩
    case inr.inr.inr.inr.inr.inr.inr.inr =>
      exact raises_of_engException (u := (·.kIllegal e)) rfl ((Dev.kIllegal_inside he hbody hpc (by simpa using hword)).trans (if_pos hlimit)) he hbody
    all_goals exact raises_of_limit rfl he hbody hpc hword hlimit

end Sys2Proof.Machine
end
